-- ==== Sys2Proof/Word.lean ====
section
/-! DEFINITION. The word types of the VN9460: bytes, 32-bit registers, 64-bit words. -/

namespace Sys2Proof

/-- One byte of memory, of a frame or of a packet. -/
abbrev Byte := BitVec 8

/-- A register: all registers of the device are 32 bits wide (chapter 00, Notation). -/
abbrev Word := BitVec 32

/-- A 64-bit word: a core register, a Terrace word, Stage Time. -/
abbrev DWord := BitVec 64

/-- A master identity, 0 to 24 (R32). -/
abbrev Master := Fin 25

end Sys2Proof
end

