-- ==== Sys2Proof/Syntax.lean ====
section
/-! DEFINITION. The commands of the VN9460 block: one constructor per row of the opcode table, with the operands each needs, and the shapes of what
arrives from outside (frames, messages). -/

namespace Sys2Proof.Machine

/-- One ASDU of an SV frame (R82, R83). -/
structure Asdu where
  smpCnt : Nat
  smpSynch : Nat
  confRev : Nat
  seqData : List Byte
  deriving DecidableEq, Repr

/-- The fields of a GOOSE APDU (R83). -/
structure Goose where
  stNum : Nat
  sqNum : Nat
  ttl : Nat
  confRev : Nat
  allData : List Byte
  deriving DecidableEq, Repr

/-- The APDU of an SV or GOOSE frame. -/
inductive Apdu where
  | sv (asdus : List Asdu)
  | goose (g : Goose)
  | malformed
  deriving DecidableEq, Repr

/-- An IEC 62351-6 authentication extension: key identifier and tag (R86, R87). -/
structure RxExt where
  kid : Nat
  tag : List Byte
  deriving DecidableEq, Repr

/-- An inbound Ethernet frame as the port's parser sees it (R75): length in bytes with FCS, an FCS or code error, addresses, VLAN, EtherType, the HSR tag
or PRP trailer (its sequence number, R83), the SV or GOOSE fields, and the octets that authentication covers or that another protocol carries. Mark: DEDUCED (log 33). -/
structure RxFrame where
  len : Nat
  errored : Bool
  dmac : Nat
  smac : Nat
  vid : Option Nat
  pcp : Nat
  etype : Nat
  red : Option Nat
  appid : Nat
  idOctets : List Byte
  sim : Bool
  apdu : Apdu
  ext : Option RxExt
  octets : List Byte
  raw : List Byte
  deriving DecidableEq, Repr

/-- A configuration item of a mirror transfer (R255): block, index, word offset, value. -/
structure CfgItem where
  block : Nat
  index : Nat
  offset : Nat
  value : Word
  deriving DecidableEq, Repr

/-- What a mirror transfer carries, record by record (R255); lines are (bank, line, poisoned, 64 bytes), queues (queue, HEAD, TAIL, FULLCNT). -/
structure MirrorMsg where
  frame : Nat
  epoch : Nat
  trunc : Bool
  resync : Bool
  st : Nat
  digest : Nat
  pdigest : Nat
  hold : Nat
  health : Nat
  handover : Bool
  departure : Bool
  switch : Nat
  pins : Option (List Byte)
  config : List CfgItem
  cues : List (Nat × List Word)
  queues : List (Nat × Nat × Nat × Nat)
  checkpoints : List (Nat × List Byte)
  lines : List (Nat × Nat × Bool × List Byte)
  deriving DecidableEq, Repr

/-- The header of a Troupe message that arrives (R277): FRAG is the fragment count and `len` the longest fragment; the MAC address it came from, whether the tag of a protected one
verifies, and whether that is under an old session key, kept for an open KEY exchange (R280). -/
structure THead where
  ver : Nat
  id : Nat
  slot : Nat
  frag : Nat
  prot : Nat
  len : Nat
  seq : Nat
  frame : Nat
  st : Nat
  mac : Nat
  tagOk : Bool
  old : Bool
  deriving DecidableEq, Repr

/-- What a HEALTH message says (R279). -/
structure THealth where
  word : Word
  mode : Nat
  offset : Int
  call : Nat
  rate : Nat
  hold : Nat
  deriving DecidableEq, Repr

/-- A group key that a KEY message carries (R279, R285), and whether it unwraps. -/
structure TKey where
  entry : Nat
  kid : Nat
  change : Nat
  overlap : Nat
  len256 : Bool
  value : Nat
  wrapOk : Bool
  deriving DecidableEq, Repr

/-- A Prompt Book record that a SUMMARY carries (R286). -/
structure TRec where
  st : DWord
  code : Nat
  sev : Nat
  rep : Nat
  words : List Word
  deriving DecidableEq, Repr

/-- A request that waits at a Terrace sub-bank (R200, R201): its master, how many fabric cycles it has waited, whether it is a rescue read of the mirror, whether it writes, its
address, length and data, what the check bits find (0 nothing, 1 a corrected bit, 2 an uncorrectable word), and of an atomic which one it is (1 swap, 2 add, 3 compare and swap; 0 no
atomic), its data the operand and, of a compare and swap, the new doubleword after it. -/
structure TReq where
  master : Nat
  waited : Nat
  rescue : Bool
  write : Bool
  addr : Nat
  len : Nat
  data : List Byte
  ecc : Nat
  atomic : Nat
  deriving DecidableEq, Repr

/-- A live file of a volume (R386, R455): name, generation, bytes, and whether DATA_CRC fits them. Mark: DESIGN CHOICE (log 59). -/
structure VFile where
  name : List Byte
  gen : Nat
  data : List Byte
  crcOk : Bool
  deriving DecidableEq, Repr

end Sys2Proof.Machine

namespace Sys2Proof

open Machine

/-- The commands: one constructor per row of the opcode table (R1), in its order. Operands are named as in the rows: `m` the master that makes an access, and what arrives from outside. Mark: DEDUCED (log 10). -/
inductive Instr where
  /-- FRAME_BOUNDARY: Stage Time reaches a frame boundary: a due mode change, pending step or grid commit, WHEN=0b01 sets, frame advance, standing-cue rearm and offset-0 cues take effect in order (R50). -/
  | frameBoundary (agree : Bool)
  /-- REGISTER_WRITE: A write to a register with no row of its own obeys its access code, going to the staging copy for ST fields (R3). -/
  | registerWrite (m : Nat) (a : Nat) (w : Word)
  /-- MODE_REQ_GO: A SYS_MODE_REQ write with GO requests a transition at the next boundary, or is refused and counted (R17). -/
  | modeReqGo (m : Nat) (t : Nat)
  /-- LC_ADV_WRITE: A SYS_LC_ADV write with the key and an accepted TARGET starts OTP lifecycle programming, or is refused (R21). -/
  | lcAdvWrite (m : Nat) (w : Word)
  /-- LC_PROGRAM_DONE: OTP lifecycle programming ends after 2 ms and sets DONE, effective at the next main-domain reset (R21). -/
  | lcProgramDone
  /-- COMMIT_GO: A BLOCK_COMMIT write with GO makes the staged set pending for its WHEN, or is refused and counted (R28). -/
  | commitGo (m : Nat) (b : Nat) (when_ : Nat) (c : Nat)
  /-- COMMIT_ABORT: A BLOCK_COMMIT write with ABORT discards a pending commit and sets ABORTED (R28). -/
  | commitAbort (m : Nat) (b : Nat)
  /-- COMMIT_CLRCNT: A BLOCK_COMMIT write with CLRCNT clears BLOCK_REFUSED (R28). -/
  | commitClrcnt (m : Nat) (b : Nat)
  /-- COMMIT_APPLY: A WHEN=0b00 commit is applied in the first cycle in which no operation of the block is under way (R26). -/
  | commitApply (b : Nat)
  /-- STIME_NOW_READ: A read of STIME_NOW_LO returns ST[31:0] and latches ST[63:32] for the reading master (R36). -/
  | stimeNowRead (m : Nat)
  /-- STIME_FRAME_READ: A read of STIME_FRAME_LO returns the frame number's low bits and latches STIME_FRAME_HI (R49). -/
  | stimeFrameRead (m : Nat)
  /-- STIME_COARSE_READ: A read of STIME_COARSE_LO latches STIME_COARSE_HI for the reading master (R45). -/
  | stimeCoarseRead (m : Nat)
  /-- STEP_GO: A STIME_CTRL write with STEP_GO sets a step pending for the next boundary, or is refused in LEAD and UNDERSTUDY (R40). -/
  | stepGo (m : Nat)
  /-- SERVO_LOSS_TIMEOUT: No sample for LOSS_TIMEOUT moves the servo to HOLDOVER (R41). -/
  | servoLossTimeout
  /-- HOLD_LIMIT_EXPIRY: HOLD_ELAPSED reaches HOLD_LIMIT in HOLDOVER and UNSYNCED is set (R43). -/
  | holdLimitExpiry
  /-- SERVO_SRC_SWITCH: With SRC=0b11 the servo switches to IRIG-B at the next on-time mark, or back to PTP after LOCK_COUNT intervals (R44). -/
  | servoSrcSwitch
  /-- MARK: A MARK cue dispatches, is counted and serves as the named point for WHEN=0b10 commits (R56). -/
  | mark (i : Nat)
  /-- CORE_IRQ: A CORE_IRQ cue raises its cue interrupt source and records its ticket in CUE_SRC_TICKET_n (R56). -/
  | coreIrq (i : Nat)
  /-- GATHER: A GATHER cue requests the ensemble's sample matrix from a gatherer (R56). -/
  | gather (i : Nat)
  /-- PIN_SET: A PIN_SET cue is pre-issued to its pin group 128 ticks ahead, or dropped for a collision or trip-pair pin (R60). -/
  | pinSet (i : Nat)
  /-- COMMIT: A COMMIT cue launches Double-take for its group, with commit time 512 ticks later (R56). -/
  | commit (i : Nat)
  /-- EGRESS_RELEASE: An EGRESS_RELEASE cue pre-issues a release list to its port or pair 256 ns ahead (R102). -/
  | egressRelease (i : Nat)
  /-- MIRROR: A MIRROR cue swaps current and sending dirty sets, forms DIGEST and starts the transfer to the partner (R213). -/
  | mirror (i : Nat)
  /-- QUEUE_KICK: A QUEUE_KICK cue makes a non-empty armed queue notify as the idle timeout would (R128). -/
  | queueKick (i : Nat)
  /-- PACKER_SWAP: A PACKER_SWAP cue swaps the channel's banks, or completes its ticket with DONE_ERR (R141). -/
  | packerSwap (i : Nat)
  /-- DOORBELL: A DOORBELL cue latches software doorbell source 216 + TINDEX (R56). -/
  | doorbell (i : Nat)
  /-- STEWARD_JOB: A STEWARD_JOB cue writes a 64-byte request to queue Q+8 as master 17 (R392). -/
  | stewardJob (i : Nat)
  /-- PBOOK_MARK: A PBOOK_MARK cue writes a Prompt Book record of class 0xE (R56). -/
  | pbookMark (i : Nat)
  /-- PRE_ISSUE_RETRY: A pre-issued cue that found no room is issued when room frees, late if after its time (R60). -/
  | preIssueRetry (i : Nat)
  /-- PIN_CUE_EFFECT: A pre-issued PIN_SET reaches its time and changes the commanded level, or is dropped if FUNC is no longer cue output (R232). -/
  | pinCueEffect (p : Nat)
  /-- PULSE_END: ARG16 ticks after a pulse began, the output returns low unless cancelled (R232). -/
  | pulseEnd (p : Nat)
  /-- TICKET_DEADLINE: ST passes an OPEN ticket's deadline and the ticket becomes LATE with record, count, interrupt and booking (R64). -/
  | ticketDeadline (t : Nat)
  /-- TICKET_RECLAIM: RECLAIM_FRAMES boundaries after launch or lateness, a ticket is freed with status RECLAIMED (R65). -/
  | ticketReclaim (t : Nat)
  /-- CUE_TICKET_DONE: A write to CUE_TICKET_DONE completes a ticket from its entitled master or master 8, or is counted stray (R66). -/
  | cueTicketDone (m : Nat) (t : Nat) (st : Nat)
  /-- CUE_EDIT_PUSH: A push appends or replaces a cue entry in the change list, or is refused with a REASON (R69). -/
  | cueEditPush (m : Nat) (i : Nat)
  /-- CUE_EDIT_DELETE: A push with DELETE appends a deletion of the cue index to the change list (R68). -/
  | cueEditDelete (m : Nat) (i : Nat)
  /-- CUE_LOAD_DATA_WRITE: A CUE_LOAD_DATA write stores a live word while RUN=0 and advances the load index, or is refused as live while RUN=1 (R70). -/
  | cueLoadDataWrite (m : Nat) (w : Word)
  /-- CUE_LOAD_DATA_READ: A CUE_LOAD_DATA read returns the live word and advances WORD and INDEX (R70). -/
  | cueLoadDataRead (m : Nat)
  /-- CUE_RUN_SET: Setting RUN resumes dispatch, with one-shot cues due meanwhile treated as late (R61). -/
  | cueRunSet (m : Nat)
  /-- CUE_RUN_CLEAR: Clearing RUN stops further dispatch while pre-issued cues still take effect (R61). -/
  | cueRunClear (m : Nat)
  /-- CUE_CLR_CNT: A CUE_CTRL write with CLR_CNT clears CUE_CNT_A to C (R70). -/
  | cueClrCnt (m : Nat)
  /-- LINK_CFG_WRITE: A write changing MODE or AN drops the link for 1 ms and restarts it (R73). -/
  | linkCfgWrite (m : Nat) (n : Nat) (w : Word)
  /-- LINK_UP: A port's PCS locks and the link comes up, unless held by mode (R116). -/
  | linkUp (n : Nat) (ok : Bool)
  /-- LINK_DOWN: A port's link drops, counting DOWN_COUNT and dropping queued egress as LINK_DOWN (R73). -/
  | linkDown (n : Nat) (midFrame : Bool)
  /-- RX_FRAME: An inbound frame is timestamped, de-duplicated, classified and admitted to the authentication buffer, or dropped with one reason (R75). -/
  | rxFrame (n : Nat) (frac : Nat) (f : RxFrame)
  /-- FRAME_AUTHENTICATE: A buffered frame's GMAC is checked by its Soloist (or the Chorus), and then duplicate discard, extraction and the Wings write follow (R86). -/
  | frameAuthenticate (k : Nat) (mismatches : Nat)
  /-- DD_ENTRY_AGE: A duplicate-discard entry is forgotten DD_AGE ms after it was made (R93). -/
  | ddEntryAge (p : Nat)
  /-- SUPERVISION_TX: The redundancy unit sends a supervision frame every SUP_INTERVAL (R95). -/
  | supervisionTx (p : Nat)
  /-- SUPERVISION_TIMEOUT: Three intervals without partner supervision clear SEEN and fire source 107 (R95). -/
  | supervisionTimeout (p : Nat)
  /-- EGRESS_QUEUE_TX: A port dequeues a descriptor from queues 0–6 and sends, signs or drops the frame outside guard windows (R98). -/
  | egressQueueTx (n : Nat) (mismatches : Nat)
  /-- RELEASE_START: At the cue time the port samples the group verdict and sends the release list back to back, or withholds it (R103). -/
  | releaseStart (n : Nat) (mismatches : Nat)
  /-- PTP_SYNC_RX: A Sync on the slave port yields an offset sample written to STIME_OFFSET and STIME_COARSE (R106). -/
  | ptpSyncRx (n : Nat) (frac : Nat) (domain : Nat) (sec : Nat) (ns : Nat) (corr : Int)
  /-- PTP_SYNC_TX: A master port sends Sync and Follow_Up at each sync interval (R106). -/
  | ptpSyncTx (n : Nat) (frac : Nat)
  /-- PDELAY_REQ_TX: The PTP engine sends a Pdelay_Req to measure link delay (R106). -/
  | pdelayReqTx (n : Nat) (frac : Nat)
  /-- PDELAY_REQ_RX: A received Pdelay_Req is answered with Pdelay_Resp and Follow_Up in hardware (R106). -/
  | pdelayReqRx (n : Nat) (frac : Nat) (domain : Nat) (asker : List Byte) (turnaround : Nat)
  /-- PDELAY_RESP_RX: A received Pdelay_Resp updates the mean link delay (R106). -/
  | pdelayRespRx (n : Nat) (frac : Nat) (domain : Nat) (turnaround : Int)
  /-- SYNC_TIMEOUT: The slave port misses three sync intervals and source 106 fires (R109). -/
  | syncTimeout
  /-- RED_CFG_WRITE: A SWITCH_RED_CFG write is accepted only while both ports of the pair are off (R96). -/
  | redCfgWrite (m : Nat) (p : Nat) (w : Word)
  /-- PTP_PORT_WRITE: A SWITCH_PTP_PORT write sets port states, ignored if it names two slaves (R109). -/
  | ptpPortWrite (m : Nat) (w : Word)
  /-- PORT_CNT_SNAP: SNAP copies every counter of the port into its read registers in one cycle (R115). -/
  | portCntSnap (m : Nat) (n : Nat)
  /-- PORT_CNT_CLR: CLR zeroes the port's live counters and DOWN_COUNT (R115). -/
  | portCntClr (m : Nat) (n : Nat)
  /-- SOLOIST_KEY_PUSH: A push appends a staged current or next key to the SOLOIST change list, or is refused with a REASON (R475). -/
  | soloistKeyPush (m : Nat)
  /-- SOLOIST_KEY_ERASE: A push with ERASE appends a zeroisation of a stream-key entry (R475). -/
  | soloistKeyErase (m : Nat)
  /-- SOLOIST_CNT_CLEAR: A write to SOLOIST_CNT_s zeroes its RETRY and FAULT counts (R311). -/
  | soloistCntClear (m : Nat) (k : Nat) (w : Word)
  /-- SWITCH_EDIT_PUSH: A push appends a switch-table entry to the change list, or is refused with a REASON (R110). -/
  | switchEditPush (m : Nat) (t : Nat) (i : Nat)
  /-- SWITCH_EDIT_DELETE: A push with DELETE appends a deletion of a switch-table entry (R110). -/
  | switchEditDelete (m : Nat) (t : Nat) (i : Nat)
  /-- QUEUE_ENABLE: A W1 write with V=1 on a disabled queue enables it with HEAD=TAIL=0, or is refused (R118). -/
  | queueEnable (m : Nat) (q : Nat) (w : Word)
  /-- QUEUE_DISABLE: A W1 write with V=0 disables the queue and abandons its entries (R118). -/
  | queueDisable (m : Nat) (q : Nat) (w : Word)
  /-- ENQUEUE_STORE: An 8-byte store to the enqueue window of an 8-byte queue writes the entry at TAIL, or is refused (R122). -/
  | enqueueStore (m : Nat) (q : Nat) (d : DWord)
  /-- COPY_ENQUEUE: A copy descriptor stored to the enqueue window starts a Wings DMA copy, or is refused (R123). -/
  | copyEnqueue (m : Nat) (q : Nat) (src : Nat) (len : Nat)
  /-- COPY_ENQUEUE_DONE: A copy completes and takes the slot at TAIL (R126). -/
  | copyEnqueueDone
  /-- ENQUEUE_WINDOW_LOAD: A load from the enqueue window returns V and FREE (R122). -/
  | enqueueWindowLoad (m : Nat) (q : Nat)
  /-- DEQUEUE_LOAD: A load from the dequeue window returns V, FILL and the address at HEAD without moving HEAD (R125). -/
  | dequeueLoad (m : Nat) (q : Nat)
  /-- RELEASE: A store to the dequeue window advances HEAD by COUNT and rearms notification, or is refused (R125). -/
  | release (m : Nat) (q : Nat) (n : Nat)
  /-- QUEUE_IDLE_TIMEOUT: IDLE µs after the last enqueue with a partial fill, an armed queue notifies (R128). -/
  | queueIdleTimeout (q : Nat)
  /-- NOTIFY_POP: A read of WINGS_NOTIFY_POP pops the oldest queue number and clears OVF (R129). -/
  | notifyPop (m : Nat) (l : Nat)
  /-- WINGS_ERR_CLR: A write with CLR zeroes WINGS_ERR_A and WINGS_ERR_B (R123). -/
  | wingsErrClr (m : Nat)
  /-- GATHER_START: A waiting gather starts when a gatherer frees, in dispatch order (R135). -/
  | gatherStart
  /-- GATHER_COMPLETE: A gather finishes writing rows and header with COMPLETE=1 and its ticket completes (R137). -/
  | gatherComplete (e : Nat)
  /-- ENSEMBLE_CNT_CLR: An ENSEMBLE_SEL write with CLR zeroes the selected ensemble's counters (R130). -/
  | ensembleCntClr (m : Nat) (e : Nat)
  /-- PACKER_WRITE: A store to PACKER_IN appends bytes to the current bank, writing full words and swapping when it does not fit (R144). -/
  | packerWrite (m : Nat) (c : Nat) (size : Nat) (d : DWord)
  /-- PACKER_CTRL_SWAP: A PACKER_CTRL write with SWAP swaps now, or is refused if the other bank is not returned (R141). -/
  | packerCtrlSwap (m : Nat) (c : Nat)
  /-- PACKER_RETURN: A PACKER_CTRL write with RET returns a bank, swapping a waiting full bank at once (R142). -/
  | packerReturn (m : Nat) (c : Nat) (w : Word)
  /-- PACKER_CNT_CLEAR: A store to either packer counter register zeroes both (R143). -/
  | packerCntClear (m : Nat) (c : Nat) (w : Word)
  /-- BANK_WAKE_DONE: 2 µs after waking a bank goes from WAKING to ZEROING (R206). -/
  | bankWakeDone (n : Nat)
  /-- BANK_ZERO_DONE: 16.384 µs after zeroing starts the bank is ON and source 201 fires (R206). -/
  | bankZeroDone (n : Nat)
  /-- BANK_RESUME_DONE: 1 µs after a POWER=ON commit a retained bank is ON with contents kept (R206). -/
  | bankResumeDone (n : Nat)
  /-- TERRACE_REQUEST_SERVED: A waiting request is served at its sub-bank slot by class and age (R201). -/
  | terraceRequestServed (reqs : List TReq)
  /-- ECC_WRITEBACK: A corrected word is written back in the next free slot of its sub-bank (R203). -/
  | eccWriteback
  /-- MIRROR_LINE_READ: The mirror engine reads a line of a sending set at class 2 and passes it to the link (R213). -/
  | mirrorLineRead
  /-- RESCUED_WRITE_RESUME: A write waiting for rescue-buffer space proceeds once the link drains a line (R215). -/
  | rescuedWriteResume
  /-- TERRACE_CNT_SNAP: SNAP copies the conflict, dirty and ECC counters into their read registers (R216). -/
  | terraceCntSnap (m : Nat)
  /-- TERRACE_CNT_CLR: CLR zeroes the Terrace live counters (R216). -/
  | terraceCntClr (m : Nat)
  /-- COL_VIOL_POP: A read of COL_VIOL_POP pops a violation record and latches COL_VIOL_ADDR (R226). -/
  | colViolPop (m : Nat)
  /-- BUNDLE_ISSUE: A core decodes and issues one bundle whose syllables read operands together and write in program order (R148). -/
  | bundleIssue (n : Nat) (cycles : Nat) (drains : Nat)
  /-- INTERRUPT_ENTRY: At a bundle boundary with IE=1, EXL=0 and an enabled pending line, the core enters the interrupt vector (R187). -/
  | interruptEntry (n : Nat)
  /-- WAIT_RESUME: A core stalled in wait continues when an enabled source is pending (R189). -/
  | waitResume (n : Nat)
  /-- LATE_BUS_ERROR: A posted store refused by its target or a Col unit enters the core's late-error queue (R191). -/
  | lateBusError (n : Nat)
  /-- LATE_ERROR_POP: A read of IRQ_LATE_POP pops the oldest late-error entry and latches its address (R192). -/
  | lateErrorPop (m : Nat) (n : Nat)
  /-- IRQ_PEND_CLEAR: A W1C write to IRQ_PEND clears latches, which relatch while their FIFO is non-empty (R186). -/
  | irqPendClear (m : Nat) (k : Nat) (w : Word)
  /-- IRQ_ACK: A write to IRQ_ACK clears a source's latch if it is routed to the core (R186). -/
  | irqAck (m : Nat) (n : Nat) (w : Word)
  /-- IRQ_DOORBELL: A write to IRQ_DOORBELL latches software doorbell sources (R186). -/
  | irqDoorbell (m : Nat) (w : Word)
  /-- IRQ_ROUTE_WRITE: A route write moves a pending latch to the new core and line (R190). -/
  | irqRouteWrite (m : Nat) (k : Nat) (w : Word)
  /-- CORE_HOLD: IRQ_CORE_CTRL.HOLD holds or releases a core in reset (R184). -/
  | coreHold (m : Nat) (n : Nat) (hold : Bool)
  /-- CORE_START: IRQ_CORE_CTRL.START resets a core, empties its late-error queue and starts it at PC (R184). -/
  | coreStart (m : Nat) (n : Nat) (pc : Word)
  /-- GROUP_SUPPLY_CHANGE: A group supply enters or leaves its range, changing SUPPLY_OK and tri-stating or restoring the group (R229). -/
  | groupSupplyChange (g : Nat) (v : Nat)
  /-- SUPPLY_RESTORE_DRIVE: 10 µs after SUPPLY_OK returns, outputs drive their commanded levels (R229). -/
  | supplyRestoreDrive (g : Nat)
  /-- PIN_INPUT_CHANGE: A ball level change starts or restarts the input filter (R237). -/
  | pinInputChange (p : Nat) (level : Option Bool) (frac : Nat)
  /-- EDGE_ACCEPT: The level holds for FILT and the edge is accepted, stamped and may raise an event and interrupt (R237). -/
  | edgeAccept (p : Nat)
  /-- DT_VERDICT: Path 2 finishes, the paths are compared and the verdict is written and the COMMIT ticket completes (R345). -/
  | dtVerdict (g : Nat)
  /-- TRIP_PAIR_COMMIT: At the commit time the enabled trip pairs take the agreed levels, or keep their levels (R235). -/
  | tripPairCommit (g : Nat)
  /-- READBACK_MISMATCH: A trip pin's ball differs from its commanded level for 16 ticks after RB_WINDOW (R236). -/
  | readbackMismatch (p : Nat)
  /-- PPS_OUT_RISE: A 1PPS output rises at each whole TAI second (R240). -/
  | ppsOutRise
  /-- PPS_OUT_FALL: A 1PPS output falls WIDTH µs after it rose (R240). -/
  | ppsOutFall
  /-- IRIG_FRAME_END: An IRIG-B frame ends, is judged good or not and may deliver an offset sample (R241). -/
  | irigFrameEnd (highs : List Nat) (edge : Nat)
  /-- GRP_CNT_CLR: A PINS_GRP_IRQ write with CLR zeroes CUE_DROP and EVT_LOST (R233). -/
  | grpCntClr (m : Nat) (g : Nat)
  /-- LANE_UP: An Understudy lane is up after 1 ms of block lock, starting pairing if not KEYED (R247). -/
  | laneUp (n : Nat)
  /-- LANE_DOWN: 32 bad sync headers take a lane down, breaking the pair when both are down (R247). -/
  | laneDown (n : Nat)
  /-- S2_FAULT: A Soloist S2 fault takes both lanes down and breaks the pair with CIPHER (R250). -/
  | s2Fault
  /-- HELLO: A partner HELLO is received during pairing (R253). -/
  | hello (role : Nat) (body : List Byte)
  /-- KEY_MESSAGE: The secondary's KEY with the ML-KEM ciphertext is received (R253). -/
  | keyMessage (body : List Byte)
  /-- AUTH: The partner's AUTH signatures are received and verified against the configured identity (R253). -/
  | auth (body : List Byte)
  /-- PAIRING_KEYED: Both signatures verify, link keys are derived and loaded and the pair becomes KEYED (R253). -/
  | pairingKeyed
  /-- PAIRING_RETRY: 1 s after an IDENTITY failure pairing is attempted again (R253). -/
  | pairingRetry
  /-- PULSE_SEND: While KEYED, each device sends PULSE at B(N)+1 µs (R251). -/
  | pulseSend
  /-- PULSE: A partner PULSE is received, updating peer health and give-back counting (R251). -/
  | pulse (w : Word) (sent : Nat) (delay : Nat)
  /-- READY: A READY for the switch frame is received by the lead (R267). -/
  | ready (switch : Nat)
  /-- ABORT: An ABORT is received, ending the understudy's readiness for the handover (R267). -/
  | abort
  /-- CANCEL: A CANCEL is received, so the understudy does not take LEAD at the switch (R267). -/
  | cancel
  /-- ALIVE_EDGE: An edge on UL_ALIVE_IN passes the 100 ns filter (R252). -/
  | aliveEdge
  /-- MIRROR_TRANSFER_END: The transfer ends at the budget, WINDOW or the next mirror cue, and END and the seal are sent (R257). -/
  | mirrorTransferEnd
  /-- MIRROR_RX: A whole mirror transfer arrives into the landing area (R259). -/
  | mirrorRx (msg : MirrorMsg) (sealOk : Bool)
  /-- SEAL_VERIFY: The seal is verified and the mirror accepted or discarded, with shadow compare and READY as due (R259). -/
  | sealVerify
  /-- MIRROR_APPLY: An accepted mirror is applied in its five steps once allowed, setting A on completion (R259). -/
  | mirrorApply
  /-- FAILURE_CHECK: At B(M)+10 µs the miss counters update and R265 declares failures or alarms (R264). -/
  | failureCheck
  /-- TAKEOVER: At instant T the understudy enters LEAD, drives its pins and restarts cores from checkpoints (R266). -/
  | takeover (agree : Bool)
  /-- HANDOVER_COMMIT_CHECK: At B(G+2)−10 µs the lead commits to the switch or sends CANCEL (R267). -/
  | handoverCommitCheck
  /-- SELFTEST_RUN: A periodic UNDERSTUDY self-test runs and sets SELFTEST_OK (R272). -/
  | selftestRun (test : Nat) (pass : Bool)
  /-- UNDERSTUDY_FEED: UNDERSTUDY_CTRL.FEED feeds the heartbeat (R252). -/
  | understudyFeed (m : Nat)
  /-- UNDERSTUDY_JOIN: JOIN enables the lanes in REHEARSAL and commits the landing banks (R248). -/
  | understudyJoin (m : Nat)
  /-- UNDERSTUDY_HANDOVER: HANDOVER requests a departure of the lead (R267). -/
  | understudyHandover (m : Nat)
  /-- UNDERSTUDY_RESYNC: RESYNC starts a new epoch at the next mirror cue (R262). -/
  | understudyResync (m : Nat)
  /-- UNDERSTUDY_UNPAIR: UNPAIR breaks the pair (R254). -/
  | understudyUnpair (m : Nat)
  /-- UNDERSTUDY_ACK_STALE: ACK_STALE clears STALE on a leading device (R263). -/
  | understudyAckStale (m : Nat)
  /-- HOLD_SET: A write to UNDERSTUDY_HOLD_SET sets act-declared holds (R267). -/
  | holdSet (m : Nat) (w : Word)
  /-- HOLD_CLR: A write to UNDERSTUDY_HOLD_CLR clears holds, letting a waiting handover proceed (R267). -/
  | holdClr (m : Nat) (w : Word)
  /-- UNDERSTUDY_CNT_CLEAR: A write to an UNDERSTUDY_CNT register zeroes it (R273). -/
  | understudyCntClear (m : Nat) (k : Nat) (w : Word)
  /-- ROLL_CALL: The Director broadcasts ROLL every ROLL_PERIOD or at mode entry (R280). -/
  | rollCall
  /-- ROLL: A Player receives ROLL and answers ATTEST (R280). -/
  | roll (h : THead) (nonce : Nat)
  /-- ATTEST: The Director verifies an ATTEST and sets the member PRESENT or STRANGER, or refuses it (R281). -/
  | attest (h : THead) (payload : List Byte) (sigOk : Bool)
  /-- WELCOME: A Player takes WELCOME, derives its session key and the broadcast key (R280). -/
  | welcome (h : THead) (hello : List Byte) (wrapped : List Byte) (print : List Byte) (sigOk : Bool)
  /-- ROLL_WAIT_EXPIRY: ROLL_WAIT ends, non-answering members go ABSENT and old keys are zeroised (R280). -/
  | rollWaitExpiry
  /-- HEALTH_PERIOD_TICK: The Director broadcasts CALL at the start of each HEALTH_PERIOD (R279). -/
  | healthPeriodTick
  /-- CALL_BROADCAST: A Player receives CALL, answers HEALTH and adopts a differing grid where its mode allows (R283). -/
  | callBroadcast (h : THead) (call : Nat) (rate : Nat) (epoch : Nat)
  /-- HEALTH: The Director receives HEALTH and may mark the member MISALIGNED (R281). -/
  | health (h : THead) (x : THealth)
  /-- MEMBER_SILENT: SILENT_LIMIT periods without HEALTH mark a member SILENT (R281). -/
  | memberSilent (k : Nat)
  /-- DIRECTOR_SILENT: A Player hears no Director for SILENT_LIMIT periods and clears DIR_SEEN (R288). -/
  | directorSilent
  /-- KEY_SEND: The Director sends a group KEY to each PRESENT member ahead of frame C−V (R285). -/
  | keySend (entry : Nat) (kid : Nat) (change : Nat) (overlap : Nat)
  /-- KEY: A Player unwraps a KEY, pushes it as next key and answers KEY_ACK (R285). -/
  | key (h : THead) (k : TKey)
  /-- KEY_ACK: The Director receives KEY_ACK for a member's key (R285). -/
  | keyAck (h : THead) (kid : Nat)
  /-- KEY_RETRY: A KEY unacknowledged for 1 s is resent, and after three attempts KEYS_OK clears (R285). -/
  | keyRetry (k : Nat)
  /-- INTERVAL: A named Player receives INTERVAL, arranges its departure or entry and answers INTERVAL_ACK (R287). -/
  | interval (h : THead) (mask : Nat) (start : Nat) (stop : Nat)
  /-- INTERVAL_ACK: The Director receives an INTERVAL_ACK status (R287). -/
  | intervalAck (h : THead) (code : Nat)
  /-- INTERVAL_START: Frame S arrives and a named understudy enters INTERVAL (R287). -/
  | intervalStart (agree : Bool)
  /-- INTERVAL_END: Frame E arrives and each Player returns through R17 (R287). -/
  | intervalEnd
  /-- SUMMARY_SEND: A Player sends qualifying Prompt Book records in SUMMARY within 1 s (R286). -/
  | summarySend
  /-- SUMMARY: The Director books each Player's summary record with SUM=1 (R417). -/
  | summary (h : THead) (recs : List TRec)
  /-- COMMAND: A Troupe COMMAND message carries a command packet or a relayed reply (R378). -/
  | command (h : THead) (packet : List Byte)
  /-- TROUPE_CNT_CLEAR: A write to TROUPE_CNT zeroes REFUSED and SUM_DROP (R288). -/
  | troupeCntClear (m : Nat) (w : Word)
  /-- ENC: A Chorus job encrypts NBLK blocks (R294). -/
  | enc (c : Nat) (fault : Option (Nat × Nat))
  /-- DEC: A Chorus job decrypts NBLK blocks (R294). -/
  | dec (c : Nat) (fault : Option (Nat × Nat))
  /-- ENC_XOR: A Chorus job encrypts blocks and XORs them with XSRC (R294). -/
  | encXor (c : Nat) (fault : Option (Nat × Nat))
  /-- GATE_OPEN: Opens a gate session, computing H and EJ0 and wiping the previous session (R304). -/
  | gateOpen (c : Nat) (fault : Option (Nat × Nat))
  /-- GATE_CTR: Decrypts ciphertext blocks into the gate in counter mode (R304). -/
  | gateCtr (c : Nat) (fault : Option (Nat × Nat))
  /-- GATE_VERDICT: Compares the tag and releases or wipes the plaintext, writing a verdict record (R305). -/
  | gateVerdict (c : Nat)
  /-- WRAP: Key-wraps semiblocks under a WRAP slot for master 8 (R294). -/
  | wrap (c : Nat) (fault : Option (Nat × Nat))
  /-- UNWRAP: Key-unwraps semiblocks to DST or the unwrap buffer, or ends UNWRAP_FAIL (R294). -/
  | unwrap (c : Nat) (fault : Option (Nat × Nat))
  /-- CTX_SAVE_CLEAR: Saves a channel context in clear, refused while a session is open (R308). -/
  | ctxSaveClear (c : Nat)
  /-- CTX_SAVE_WRAPPED: Saves a channel context wrapped under the context key (R308). -/
  | ctxSaveWrapped (c : Nat) (fault : Option (Nat × Nat))
  /-- CTX_RESTORE: Restores a channel context, or ends CTX_FAIL (R309). -/
  | ctxRestore (c : Nat) (fault : Option (Nat × Nat))
  /-- CHORUS_JOB_START: A queued Chorus job starts after the slot check taken twice by Double-take (R295). -/
  | chorusJobStart (c : Nat) (agree : Bool)
  /-- CHORUS_JOB_DONE: A Chorus job ends with a status and writes a completion record (R296). -/
  | chorusJobDone (c : Nat)
  /-- CHORUS_KEY_PUSH: A push appends a key slot load to the Chorus change list, or is refused (R301). -/
  | chorusKeyPush (m : Nat)
  /-- CHORUS_KEY_ERASE: A push with ERASE appends a slot zeroisation (R301). -/
  | chorusKeyErase (m : Nat)
  /-- CHORUS_CNT_CLEAR: A write to CHORUS_CNT zeroes both fields (R300). -/
  | chorusCntClear (m : Nat) (w : Word)
  /-- CM_SEED_DRAW: Every 1 µs each countermeasure stream draws a fresh seed from instance 0 (R326). -/
  | cmSeedDraw
  /-- HASH_OPS: SHA-2, SHA-3 and SHAKE jobs on the hash lane (R314). -/
  | hashOps (inv : Bool) (parity : Bool) (agree : Bool)
  /-- HMAC_SHA256: HMAC-SHA-256 job (R314). -/
  | hmacSha256 (inv : Bool) (parity : Bool) (agree : Bool)
  /-- ECDSA_P256: ECDSA P-256 sign or verify job (R314). -/
  | ecdsaP256 (inv : Bool) (parity : Bool) (agree : Bool)
  /-- ECDSA_P384: ECDSA P-384 sign or verify job (R314). -/
  | ecdsaP384 (inv : Bool) (parity : Bool) (agree : Bool)
  /-- ED25519: Ed25519 sign or verify job (R314). -/
  | ed25519 (inv : Bool) (parity : Bool) (agree : Bool)
  /-- ECDH: ECDH P-256 or X25519 into a key register (R314). -/
  | ecdh (inv : Bool) (parity : Bool) (agree : Bool)
  /-- P256_KEYGEN: P-256 key generation into a key register (R314). -/
  | p256Keygen (inv : Bool) (parity : Bool) (agree : Bool)
  /-- ML_KEM_768: ML-KEM-768 key generation, encapsulation or decapsulation (R314). -/
  | mlKem768 (inv : Bool) (parity : Bool) (agree : Bool)
  /-- ML_KEM_1024: ML-KEM-1024 key generation, encapsulation or decapsulation (R314). -/
  | mlKem1024 (inv : Bool) (parity : Bool) (agree : Bool)
  /-- ML_DSA_65: ML-DSA-65 key generation, sign or verify (R314). -/
  | mlDsa65 (inv : Bool) (parity : Bool) (agree : Bool)
  /-- ML_DSA_87: ML-DSA-87 key generation, sign or verify (R314). -/
  | mlDsa87 (inv : Bool) (parity : Bool) (agree : Bool)
  /-- RSA_VERIFY: RSA signature verify (R314). -/
  | rsaVerify (inv : Bool) (parity : Bool) (agree : Bool)
  /-- RSA_PRIVATE: RSA private operation by CRT with operand keys (R314). -/
  | rsaPrivate (inv : Bool) (parity : Bool) (agree : Bool)
  /-- MODEXP: Modular exponentiation up to 8,192 bits (R314). -/
  | modexp (inv : Bool) (parity : Bool) (agree : Bool)
  /-- LMS_XMSS_VERIFY: LMS or XMSS signature verify (R314). -/
  | lmsXmssVerify (inv : Bool) (parity : Bool) (agree : Bool)
  /-- DERIVE: SHAKE256 derivation from a parent key register to DKEY or the key bus (R315). -/
  | deriveKey (inv : Bool) (parity : Bool) (agree : Bool)
  /-- COMBINE: SHAKE256 over two key registers placing NOUT keys on the key bus (R315). -/
  | combine (inv : Bool) (parity : Bool) (agree : Bool)
  /-- IMPORT: Takes a seed or scalar from the unwrap buffer into DKEY (R318). -/
  | importKey (inv : Bool) (parity : Bool) (agree : Bool)
  /-- MASSIF_ERASE: Zeroises a volatile key register, DENIED for registers 1–7 (R318). -/
  | massifErase (inv : Bool) (parity : Bool) (agree : Bool)
  /-- PUBLIC: Writes the public key of a key register to DST (R314). -/
  | publicKey (inv : Bool) (parity : Bool) (agree : Bool)
  /-- MASSIF_JOB_START: A queued Massif job starts in its partition after any wipe (R323). -/
  | massifJobStart (c : Nat) (agree : Bool)
  /-- LONG_JOB_RESUME: A yielded LONG job resumes when the SHORT queue is empty (R323). -/
  | longJobResume
  /-- MASSIF_JOB_DONE: A Massif job passes its end-of-job check and ends with a status and completion record (R319). -/
  | massifJobDone (c : Nat)
  /-- MASSIF_CNT_CLEAR: A write to MASSIF_CNT zeroes both fields (R321). -/
  | massifCntClear (m : Nat) (w : Word)
  /-- SCREE_INST: SCREE_CTRL.INST instantiates DRBG instance 1 with the personalisation (R327). -/
  | screeInst (m : Nat)
  /-- SCREE_RESEED: SCREE_CTRL.RESEED reseeds both instances now (R326). -/
  | screeReseed (m : Nat)
  /-- SCREE_CLR_CNT: SCREE_CTRL.CLR_CNT zeroes SCREE_CNT (R325). -/
  | screeClrCnt (m : Nat)
  /-- SCREE_STARTUP_DONE: A noise source passes its start-up samples and enters service (R325). -/
  | screeStartupDone (k : Nat)
  /-- SOURCE_HEALTH_FAIL: A noise source fails RCT or APT, is taken out and may bring FAILED and an entropy alarm (R325). -/
  | sourceHealthFail (k : Nat) (apt : Bool)
  /-- SOURCE_RETEST: 1 s after a failure a source is tested again and readmitted after 4,096 passing samples (R325). -/
  | sourceRetest (k : Nat)
  /-- DRBG_RESEED: Instance 0 every 1 ms, or instance 1 after its count or time, reseeds (R326). -/
  | drbgReseed (i : Nat)
  /-- SCREE_RAND_READ: A read of SCREE_RAND returns 32 fresh bits, or a bus error when FAILED (R326). -/
  | screeRandRead (m : Nat)
  /-- SCREE_TEST_DATA: A write feeds 32 raw test bits in place of the noise sources (R328). -/
  | screeTestData (m : Nat) (w : Word)
  /-- CURTAIN_SOURCE_ASSERT: A Curtain source asserts and the device enters CURTAIN with its Class Z or W response (R336). -/
  | curtainSourceAssert (id : Nat)
  /-- CURTAIN_ZERO_DONE: Zeroing completes at t+18.4 µs, source 134 fires and the entry is booked (R336). -/
  | curtainZeroDone
  /-- JUNCTION_TEMP_WARN: Junction outside −40 to 125 °C sets CURTAIN_WARN without a response (R333). -/
  | junctionTempWarn (hot : Bool)
  /-- CURTAIN_CFG_WRITE: The one CURTAIN_CFG write after reset sets the classes and LOCKED; later writes are refused (R334). -/
  | curtainCfgWrite (m : Nat) (w : Word)
  /-- UNLOCK_BODY_CHECK: The Curtain checks a verified token body on the unlock path and clears the latches or refuses (R340). -/
  | unlockBodyCheck (body : List Byte) (agree : Bool)
  /-- UNLOCK_BLOCK_EXPIRY: 3,600 s of Refuge clock after 8 refusals, tokens are accepted again (R341). -/
  | unlockBlockExpiry
  /-- DTAKE_CNT_CLEAR: A write to DTAKE_CNT_A zeroes both fields (R347). -/
  | dtakeCntClear (m : Nat) (w : Word)
  /-- REFUGE_LOOP_CHECK: The Refuge checks its loops, mesh and VBAT each period and raises a Class Z alarm on failure (R349). -/
  | refugeLoopCheck (loop0 : Bool) (loop1 : Bool) (mesh : Bool) (pos : Word) (vbat : Nat)
  /-- REFUGE_SUPPLY_SWITCH: The Refuge switches between internal supply and VBAT within 1 µs (R348). -/
  | refugeSupplySwitch
  /-- CELL_REMOVED: Cell removal under main power writes log entry 0x30 (R351). -/
  | cellRemoved (mv : Nat)
  /-- CELL_INSERTED: Cell insertion writes log entry 0x31 (R351). -/
  | cellInserted (mv : Nat)
  /-- VBAT_LOW: VBAT below 2.6 V under main power writes log entry 0x34 (R351). -/
  | vbatLow (mv : Nat)
  /-- REFUGE_RTC_SET: A write to REFUGE_RTC_SET loads the seconds, sets RTC_OK and logs 0x32 (R351). -/
  | refugeRtcSet (m : Nat) (w : Word)
  /-- REFUGE_LOOP_ENABLE: A REFUGE_CFG write sets loop enables, which clear only by unlock or loss (R349). -/
  | refugeLoopEnable (m : Nat) (w : Word)
  /-- LOG_MARK_COPIED: A REFUGE_LOG_SEL write with bit 31 sets COPIED on the selected entry (R351). -/
  | logMarkCopied (m : Nat) (i : Nat)
  /-- BRK_UNLOCK: Writes of the two unlock words arm the command page (R360). -/
  | brkUnlock (m : Nat) (n : Nat) (w : Word)
  /-- UNLOCK_ARM_EXPIRY: An armed command page disarms after 1 ms (R360). -/
  | unlockArmExpiry (n : Nat)
  /-- PROGRAM: Bedrock PROGRAM of one page, checked then accepted (R361). -/
  | program (m : Nat) (n : Nat) (a : Word) (src : Word)
  /-- PROGRAM_SAFE: Bedrock PROGRAM_SAFE of a page pair (R361). -/
  | programSafe (m : Nat) (n : Nat) (a : Word) (src : Word)
  /-- ERASE: Bedrock ERASE of a block (R361). -/
  | erase (m : Nat) (n : Nat) (a : Word)
  /-- INSPECT: Reports the state of each page of a block (R361). -/
  | inspect (m : Nat) (n : Nat) (a : Word)
  /-- REFRESH: Rewrites a block through the spare block in four phases (R369). -/
  | refresh (m : Nat) (n : Nat) (a : Word)
  /-- BEDROCK_CMD_START: A waiting accepted command starts once fewer than two banks are busy (R364). -/
  | bedrockCmdStart
  /-- BEDROCK_CMD_DONE: A Bedrock command ends with OK, DENIED, VERIFY_FAIL or STORAGE_FAIL (R362). -/
  | bedrockCmdDone (b : Nat) (ok : Bool)
  /-- ERASE_RESUME: 4 µs without a read resumes a suspended erase (R365). -/
  | eraseResume (b : Nat)
  /-- PATROL_READ: Patrol reads idle-bank lines and reports blocks needing refresh (R368). -/
  | patrolRead (b : Nat) (blk : Nat) (bits : Nat) (pass : Bool)
  /-- PATROL_POP: A read of BRK_PATROL_POP pops a reported block (R368). -/
  | patrolPop (m : Nat)
  /-- BRK_ECC_CLEAR: A write to BRK_ECC zeroes both fields (R356). -/
  | brkEccClear (m : Nat) (w : Word)
  /-- READ_STATUS: Host instruction returning the status word and clearing ERR (R376). -/
  | readStatus
  /-- WRITE: Host instruction writing one packet on one line (R377). -/
  | write (packet : List Byte)
  /-- QWRITE: Host instruction writing one packet on four lines (R377). -/
  | qwrite (packet : List Byte)
  /-- READ: Host instruction reading the oldest reply, removed once fully clocked out (R377). -/
  | read (n : Nat)
  /-- QREAD: Host instruction reading the oldest reply on four lines (R377). -/
  | qread (n : Nat)
  /-- HOST_CNT_CLEAR: A write to HOST_CNT zeroes both fields (R377). -/
  | hostCntClear (m : Nat) (w : Word)
  /-- SESSION_OPEN: Allocates a PENDING session and replies with key agreement and identity signatures (R380). -/
  | sessionOpen
  /-- SESSION_AUTH: Verifies the opener's signatures and opens the session with RIGHTS (R380). -/
  | sessionAuth (agree : Bool)
  /-- SESSION_CLOSE: Closes the session and zeroises its keys (R382). -/
  | sessionClose
  /-- SESSION_INFO: Returns the open sessions (R386). -/
  | sessionInfo
  /-- PING: Echoes up to 64 bytes (R386). -/
  | ping
  /-- ID_GET: Returns serial, roles, fingerprint and image digests (R386). -/
  | idGet
  /-- ID_CERT: Returns part of the identity certificate (R386). -/
  | idCert
  /-- ID_ATTEST: Returns a signed statement over a nonce and state (R386). -/
  | idAttest
  /-- ID_CHALLENGE: Returns CURTAIN_CHAL, TOTAL and Curtain state (R386). -/
  | idChallenge
  /-- IMG_BEGIN: Starts an image transfer of a KIND (R387). -/
  | imgBegin
  /-- IMG_WRITE: Programs part of an image into Bedrock (R387). -/
  | imgWrite (ok : Bool)
  /-- IMG_COMMIT: Reads back, digests and verifies an image's signatures (R387). -/
  | imgCommit
  /-- IMG_SELECT: Selects full act A or B (R386). -/
  | imgSelect
  /-- IMG_LIST: Lists image slots (R386). -/
  | imgList
  /-- CFG_APPLY: Commits the verified configuration with WHEN=0b01 and closes removed operators' sessions (R387). -/
  | cfgApply
  /-- CFG_INFO: Returns configuration digests and operator entries (R386). -/
  | cfgInfo
  /-- TIME_STEP: Steps Stage Time at the next frame boundary (R386). -/
  | timeStep
  /-- RTC_SET: Writes the Refuge clock from Stage Time (R386). -/
  | rtcSet
  /-- CUE_GET: Returns live cue entries (R386). -/
  | cueGet
  /-- CUE_PUSH: Pushes cue entries into the change list, refusing protected actions in LE and UN (R387). -/
  | cuePush
  /-- CUE_COMMIT: Commits the cue change list (R386). -/
  | cueCommit
  /-- CUE_ABORT: Aborts a pending cue commit (R386). -/
  | cueAbort
  /-- CUE_STATUS: Returns cue engine status and counters (R386). -/
  | cueStatus
  /-- KEY_PROVISION: Installs a customer key wrapped under the transfer key (R386). -/
  | keyProvision (ok : Bool)
  /-- KEY_ERASE: Erases a customer key (R386). -/
  | keyErase (ok : Bool)
  /-- KEY_LIST: Lists customer keys (R386). -/
  | keyList
  /-- KEY_STREAM: Installs a stream key into a stream-key entry (R386). -/
  | keyStream
  /-- KEK_ROLL: Moves stored keys to a new KEK generation (R386). -/
  | kekRoll
  /-- KDC_RELAY: Carries an IEC 62351-9 group-key exchange and installs the keys (R387). -/
  | kdcRelay
  /-- PAIR_ROLE: Sets the pair role (R246). -/
  | pairRole
  /-- HANDOVER: Requests a departure, answered at the switch or BUSY if cancelled (R267). -/
  | handover
  /-- PAIR_CTRL: Writes RESYNC, UNPAIR or ACK_STALE (R386). -/
  | pairCtrl
  /-- PAIR_STATUS: Returns Understudy status and counters (R386). -/
  | pairStatus
  /-- TROUPE_ROLE: Sets the troupe role (R275). -/
  | troupeRole
  /-- TROUPE_STATUS: Returns troupe status and members (R386). -/
  | troupeStatus
  /-- ROLL_NOW: Director holds a roll call now (R386). -/
  | rollNow
  /-- INTERVAL_CALL: Director broadcasts a coordinated INTERVAL (R287). -/
  | intervalCall
  /-- RELAY: Director relays an inner packet to a Player and returns its replies (R388). -/
  | relay
  /-- RELAY_TIMEOUT: RELAY ends with BUSY after 10 s without a final inner reply (R388). -/
  | relayTimeout (i : Nat)
  /-- BOOK_READ: Returns ring records from a cursor (R420). -/
  | bookRead
  /-- BOOK_ARCHIVE: Returns archive records from an offset (R421). -/
  | bookArchive
  /-- BOOK_NOTE: Writes an operator note record of class 0xE (R413). -/
  | bookNote
  /-- BOOK_CLEAR: Clears records up to a SEQ through PBOOK_CLEAR (R422). -/
  | bookClear
  /-- FILE_LIST: Lists files on a volume (R386). -/
  | fileList
  /-- FILE_READ: Reads file bytes, checking DATA_CRC at the end (R457). -/
  | fileRead (ok : Bool)
  /-- FILE_WRITE: Writes a new extent and commits a journal record on FINAL (R456). -/
  | fileWrite
  /-- FILE_DELETE: Writes a DELETE journal record (R456). -/
  | fileDelete (ok : Bool)
  /-- MEDIA_EJECT: Deselects every card so it may be removed (R454). -/
  | mediaEject
  /-- STATUS: Returns mode, time state and drop counts (R386). -/
  | status
  /-- REG_READ: Returns register words read by master 8 (R386). -/
  | regRead
  /-- SELFTEST: Runs selected self-tests (R386). -/
  | selftest (results : Nat)
  /-- TRACE: Writes OBSERVE_TRACE_CFG (R427). -/
  | trace
  /-- CORE_CTRL: Holds or starts a core 0–7 (R386). -/
  | coreCtrl
  /-- COMMISSION: Writes fingerprints to OTP if blank, draws a new Refuge share and rebuilds CRK (R387). -/
  | commission
  /-- UNLOCK: Verifies an unlock token and passes it to the Curtain (R340). -/
  | unlock (verified : Bool) (agree : Bool)
  /-- MODE_REQ: Requests a mode under R17, starting a departure for INTERVAL from LEAD (R387). -/
  | modeReq
  /-- RESET: Replies OK and issues a warm reset (R386). -/
  | reset
  /-- RETURN: Advances the lifecycle to RETURNED (R387). -/
  | returnLc
  /-- DECOMMISSION: Advances the lifecycle to DECOMMISSIONED (R387). -/
  | decommission
  /-- ISSUE: Advances a factory device to FACTORY or ISSUED and warm-resets (R387). -/
  | issue
  /-- COMMAND_EXEC_START: A command waiting in its group starts, rechecked for rights and mode (R375). -/
  | commandExecStart (g : Nat)
  /-- COMMAND_FINAL_REPLY: An ACCEPTED command completes and its final reply is queued (R374). -/
  | commandFinalReply (i : Nat) (ok : Bool) (agree : Bool)
  /-- SESSION_PENDING_TIMEOUT: A PENDING session is freed 10 s after its reply (R380). -/
  | sessionPendingTimeout (n : Nat)
  /-- SESSION_IDLE_TIMEOUT: A session closes after 600 s without a command (R382). -/
  | sessionIdleTimeout (n : Nat)
  /-- NOTE: Service writing a Prompt Book note (R394). -/
  | note
  /-- SIGN: Service signing IN with a customer key pair (R394). -/
  | sign
  /-- VERIFY: Service verifying signatures with TWICE=1 (R394). -/
  | verify (agree : Bool)
  /-- STORE: Service writing an act file with PROGRAM_SAFE (R394). -/
  | store (ok : Bool)
  /-- LOAD: Service reading an act file into OUT (R394). -/
  | load
  /-- FEED: Cue-queue service writing UNDERSTUDY_CTRL.FEED (R394). -/
  | feed
  /-- PATROL: Cue-queue service popping a patrol entry and starting REFRESH (R394). -/
  | patrol
  /-- RTC_SYNC: Cue-queue service setting the Refuge clock from ST while synchronised (R394). -/
  | rtcSync
  /-- RECORD_ENTER_RING: A posted record enters the ring with the next SEQ, displacing one under R416 or dropping (R414). -/
  | recordEnterRing
  /-- LIMIT_WINDOW_END: A limiter window ends and any held record is written, opening the next window (R418). -/
  | limitWindowEnd (code : Nat) (src : Nat)
  /-- ARCHIVE_PAIR: With 128 unarchived records or ARCH_S elapsed, a pair is programmed into B4 (R423). -/
  | archivePair
  /-- REC_LATCH_READ: A read of PBOOK_REC_r_0 latches the next record at or above the cursor (R420). -/
  | recLatchRead (m : Nat) (r : Nat)
  /-- REC_FINAL_READ: A read of PBOOK_REC_r_7 advances the cursor past the latched record (R420). -/
  | recFinalRead (m : Nat) (r : Nat)
  /-- PBOOK_CLEAR: A PBOOK_CLEAR write with GO removes records up to UPTO and books code 0x0002 (R422). -/
  | pbookClear (m : Nat) (upto : Word) (archive : Bool)
  /-- PBOOK_DROP_CLEAR: A write to PBOOK_DROP_A or B zeroes it (R428). -/
  | pbookDropClear (m : Nat) (k : Nat) (w : Word)
  /-- TRACE_CFG_WRITE: A master-8 write of OBSERVE_TRACE_CFG changes trace sources and books code 0x0004 (R427). -/
  | traceCfgWrite (m : Nat) (w : Word)
  /-- TRACE_PACKET_SEND: A queued trace item leaves on the trace port, or an OVERFLOW packet once room returns (R426). -/
  | tracePacketSend
  /-- OBSERVE_CNT_SNAP: SNAP copies every OBSERVE_CNT_k in one cycle (R428). -/
  | observeCntSnap (m : Nat)
  /-- OBSERVE_CNT_CLR: CLR zeroes the observation counters (R428). -/
  | observeCntClr (m : Nat)
  /-- TRACE_STAT_CLEAR: A write to OBSERVE_TRACE_STAT zeroes LOST (R426). -/
  | traceStatClear (m : Nat) (w : Word)
  /-- FIELD_ON: Reader carrier on, giving the card 5 ms to power (R433). -/
  | fieldOn (m : Nat)
  /-- FIELD_OFF: Reader carrier off (R433). -/
  | fieldOff (m : Nat)
  /-- ACTIVATE: Reader activation through REQA to PPS (R433). -/
  | activate (m : Nat) (rate : Nat)
  /-- EXCHANGE: Reader sends one ISO-DEP message and receives the reply (R433). -/
  | exchange (m : Nat) (len : Nat)
  /-- DESELECT: Reader DESELECT then carrier off (R433). -/
  | deselect (m : Nat)
  /-- READER_OP_DONE: A reader operation ends with its status and fires source 176 (R433). -/
  | readerOpDone (st : Nat) (rx : List Byte) (badge : Bool)
  /-- CARRIER_IDLE_OFF: A carrier left on for 2 s without an operation is switched off (R433). -/
  | carrierIdleOff
  /-- DETUNING_PING: A periodic carrier burst measures the antenna and may set CARD (R432). -/
  | detuningPing (amp : Nat)
  /-- EXT_FIELD_CHANGE: An external field appears or disappears, suppressing or resuming the reader (R430). -/
  | extFieldChange (present : Bool)
  /-- TAG_POWER_UP: The tag domain powers up and rolls forward valid journal slots (R443). -/
  | tagPowerUp (supply : Bool)
  /-- REQA: The tag answers REQA with ATQA unless halted (R429). -/
  | reqa
  /-- WUPA: The tag answers WUPA unless in halt silence (R442). -/
  | wupa
  /-- ANTICOLLISION: The tag takes part in anticollision with its UID (R429). -/
  | anticollision
  /-- SELECT: The tag is selected and answers SAK (R429). -/
  | select (uid : List Byte)
  /-- RATS: The tag answers ATS and opens a field session latching the generation (R440). -/
  | rats
  /-- PPS: The tag answers PPS at 106 kbit/s (R429). -/
  | pps
  /-- HLTA: The tag halts and starts its 2.0–2.4 s silence (R442). -/
  | hlta
  /-- TAG_DESELECT: The tag is deselected and its session ends (R440). -/
  | tagDeselect
  /-- TAG_READ: The tag returns up to 15 store pages (R441). -/
  | tagRead (p : Nat) (n : Nat)
  /-- WRITE_MB: The tag journals a mailbox write, replies OK and copies it home (R443). -/
  | writeMb (p : Nat) (n : Nat) (data : List Byte) (strong : Bool) (lost : Nat)
  /-- FIELD_LOSS: The field disappears and the tag session ends (R440). -/
  | fieldLoss
  /-- HALT_SILENCE_END: The halt silence timer ends and the tag is idle (R442). -/
  | haltSilenceEnd
  /-- BADGE_TS_COMMIT: GO starts programming the inactive summary copy, or is refused while pending (R444). -/
  | badgeTsCommit (m : Nat) (max : Nat)
  /-- BADGE_TS_ABORT: ABORT stops a commit before its flip (R445). -/
  | badgeTsAbort (m : Nat)
  /-- TS_COMMIT_RESUME: A paused host commit resumes programming once the field is idle or absent (R445). -/
  | tsCommitResume
  /-- TS_FLIP: The generation record flips to the new copy once the field has been idle 1 ms (R444). -/
  | tsFlip
  /-- BADGE_STAT_READ: A read of BADGE_STAT returns status and clears RECOVERIES (R443). -/
  | badgeStatRead (m : Nat)
  /-- CARD_INSERT: CT_CD falls and identification begins 100 ms later (R448). -/
  | cardInsert
  /-- CARD_REMOVAL: CT_CD high for 1 ms stops the clock, releases lines and ends any operation (R453). -/
  | cardRemoval (phase : Nat) (done : Nat)
  /-- IDENTIFY: Cartridge identification of SD or MMC cards and mount (R448). -/
  | identify (cards : List Word) (extra : Bool) (count : Nat) (medium : List (Nat × List Byte))
  /-- CART_READ: Cartridge block read into the buffer (R449). -/
  | cartRead (m : Nat) (card : Nat) (blocks : Nat) (lba : Word) (buf : Word)
  /-- CART_WRITE: Cartridge block write ending with CMD13 (R450). -/
  | cartWrite (m : Nat) (card : Nat) (blocks : Nat) (lba : Word) (buf : Word)
  /-- CMD13_STATUS: Cartridge card status read (R450). -/
  | cmd13Status (m : Nat) (card : Nat)
  /-- EJECT: Cartridge deselects every card and stops the clock (R454). -/
  | eject (m : Nat)
  /-- CART_OP_DONE: A cartridge operation ends with RESULT and DONE_BLOCKS, or times out (R449). -/
  | cartOpDone (res : Nat) (done : Nat) (data : List Byte)
  /-- POWER_ON_RESET: Supplies held for 100 µs release a main-domain power-on reset and the staged start (R398). -/
  | powerOnReset
  /-- PIN_RESET: RESET_N low for 1 µs or more resets the main domain (R398). -/
  | pinReset
  /-- WARM_RESET: SYS_RESET.WARM resets the main domain keeping the PLL and Prompt Book ring (R398). -/
  | warmReset
  /-- STEWARD_RESTART: SYS_RESET.STEWARD or a Steward fatal cause restarts the Steward alone (R410). -/
  | stewardRestart
  /-- STEWARD_REATTACH: The reverified Stage Manager reattaches to live state and closes sessions (R410). -/
  | stewardReattach
  /-- POWER_FAILURE: VDD_CORE below 0.855 V for 1 µs tri-states pins, stops engines and holds the main domain in reset (R411). -/
  | powerFailure
  /-- AUX_SUPPLY_LOSS: VDDIO_AUX below 2.90 V stops the auxiliary balls without a reset (R467). -/
  | auxSupplyLoss
  /-- PLL_LOCK: The root PLL locks to XTAL_IN and arms the CLOCK source (R401). -/
  | pllLock
  /-- PLL_LOCK_RETRY: Every 10 ms without lock the main domain retries the PLL lock (R408). -/
  | pllLockRetry
  /-- RECOVERED_QUALIFY: A port qualifies after 100 ms and the PLL slews onto its recovered clock (R397). -/
  | recoveredQualify (diff : Int)
  /-- RECOVERED_LOSS: The recovered clock fails and the PLL returns to XTAL_IN within 200 ns (R397). -/
  | recoveredLoss
  /-- EARLY_ACT_START: The verified early act's cue table is loaded and its cores started, unless withheld (R401). -/
  | earlyActStart
  /-- CALL_ALIGN: The Stage Manager commits a CALL aligning the free-running grid to merging-unit arrivals (R404). -/
  | callAlign (smp : Nat) (arr : Nat) (avg : Nat)
  /-- ROLE_SETTLEMENT: Once the full act verifies and time is locked, the Stage Manager requests the settled mode (R406). -/
  | roleSettlement
  /-- TX_FRAME_END: A frame finishes leaving a port: a release list waiting behind a queue 0–6 frame starts, the next list frame follows, or the last frame of a list completes the EGRESS_RELEASE ticket (R105). -/
  | txFrameEnd (n : Nat) (mismatches : Nat)
  /-- VDDIO_AUX_RETURN: VDDIO_AUX returns above 2.90 V: host, cartridge, trace and heartbeat balls resume, and RESET_N is honoured again after 100 µs (R467). -/
  | vddioAuxReturn
  /-- VDD_BADGE_LOSS: VDD_BADGE becomes absent: reader operations end with WRONG_MODE and the tag domain runs from the field or powers down (R467). -/
  | vddBadgeLoss
  /-- REFUGE_POWER_LOSS: With main power off, VBAT falls below 2.0 V or the cell is absent and the Refuge loses its share, latch, log and clock, to report LOST at the next power-up (R352). -/
  | refugePowerLoss
  /-- CURTAIN_SOURCE_CLEARS: A Curtain source's condition stops holding, so its CURTAIN_STAT.ACTIVE bit clears and an unlock is no longer refused with BUSY (R333). -/
  | curtainSourceClears (id : Nat)
  /-- MIRROR_FIRST_RECORD_ARRIVES: The first record of mirror N+2 arrives while the apply of mirror N still uses the same landing half, and that apply is promoted to class 0 (R260). -/
  | mirrorFirstRecordArrives (frame : Nat)
  deriving DecidableEq, Repr

end Sys2Proof
end

