-- ==== Sys2Proof/Decode.lean ====
section
/-! DEFINITION. Decoding of command words. The opcode table gives no row any bits: the device takes its commands as accesses, packets and events with the operands of Syntax, and no word
spells one. -/

namespace Sys2Proof

/-- The command that a word of the table's bits spells: no row of the table has bits, so no word spells a command. Mark: DESIGN CHOICE (log 2). -/
def decodeTableWord (_nbits _w : Nat) : Option Instr := none

end Sys2Proof
end

