-- ==== Sys2Proof/Machine/Aes.lean ====
section
/-! DEFINITION. AES as in FIPS 197, key wrapping as in SP 800-38F (KW) and GCM as in SP 800-38D, the block operations of the Chorus (R290). -/

namespace Sys2Proof.Machine

/-! ## AES (FIPS 197) -/

/-- Multiplication by x in GF(2^8). -/
def gfX (a : Nat) : Nat := if 128 ≤ a then (2 * a) ^^^ 0x11B else 2 * a

/-- The product of two bytes in GF(2^8), `n` bits of the second still to go. -/
def gfMulN : Nat → Nat → Nat → Nat
  | 0, _, _ => 0
  | n + 1, a, b => (if b % 2 = 1 then a else 0) ^^^ gfMulN n (gfX a) (b / 2)

/-- The product of two bytes in GF(2^8). -/
def gfMul (a b : Nat) : Nat := gfMulN 8 a b

/-- The inverse of a byte, as its power 254. -/
def gfInv (a : Nat) : Nat :=
  let a2 := gfMul a a
  let a4 := gfMul a2 a2
  let a8 := gfMul a4 a4
  let a16 := gfMul a8 a8
  let a32 := gfMul a16 a16
  let a64 := gfMul a32 a32
  let a128 := gfMul a64 a64
  gfMul a128 (gfMul a64 (gfMul a32 (gfMul a16 (gfMul a8 (gfMul a4 a2)))))

/-- Rotate a byte left. -/
def rotl8 (a k : Nat) : Nat := (a * 2 ^ k + a / 2 ^ (8 - k)) % 256

/-- The S-box. -/
def sbox (a : Nat) : Nat :=
  let b := gfInv a
  b ^^^ rotl8 b 1 ^^^ rotl8 b 2 ^^^ rotl8 b 3 ^^^ rotl8 b 4 ^^^ 0x63

/-- The inverse S-box. -/
def invSbox (a : Nat) : Nat :=
  let b := rotl8 a 1 ^^^ rotl8 a 3 ^^^ rotl8 a 6 ^^^ 0x05
  gfInv b

/-- XOR of two lists of bytes. -/
def xorL (a b : List Nat) : List Nat := List.zipWith (· ^^^ ·) a b

/-- ShiftRows. -/
def shiftRows (s : List Nat) : List Nat := (List.range 16).map fun i => nth s ((i / 4 + i % 4) % 4 * 4 + i % 4)

/-- The inverse of ShiftRows. -/
def invShiftRows (s : List Nat) : List Nat := (List.range 16).map fun i => nth s ((i / 4 + 4 - i % 4) % 4 * 4 + i % 4)

/-- MixColumns with the coefficients of a column's first row. -/
def mixWith (c : List Nat) (s : List Nat) : List Nat :=
  (List.range 16).map fun i =>
    (List.range 4).foldl (fun a k => a ^^^ gfMul (nth c ((k + 4 - i % 4) % 4)) (nth s (i / 4 * 4 + k))) 0

/-- The next word of the key schedule: word `i`, from the words so far, newest first. -/
def nextWord (nk i : Nat) (ws : List (List Nat)) : List Nat :=
  let prev := ws.getD 0 []
  let back := ws.getD (nk - 1) []
  let rcon := (List.range (i / nk - 1)).foldl (fun a _ => gfX a) 1
  let t := if i % nk = 0 then xorL ((prev.drop 1 ++ prev.take 1).map sbox) [rcon, 0, 0, 0]
    else if 6 < nk ∧ i % nk = 4 then prev.map sbox else prev
  xorL back t

/-- The round keys, 16 bytes each, first to last: Nr is Nk + 6. -/
def roundKeys (key : List Nat) : List (List Nat) :=
  let nk := key.length / 4
  let first := (List.range nk).foldl (fun ws i => (key.drop (4 * i)).take 4 :: ws) ([] : List (List Nat))
  let ws := ((List.range (4 * (nk + 7) - nk)).foldl (fun ws k => nextWord nk (nk + k) ws :: ws) first).reverse
  (List.range (nk + 7)).map fun r => ((ws.drop (4 * r)).take 4).flatten

/-- One block through the cipher under a list of round keys. -/
def cipher (ks : List (List Nat)) (b : List Nat) : List Nat :=
  match ks with
  | [] => b
  | k0 :: rest =>
    rest.dropLast.foldl (fun s k => xorL (mixWith [2, 3, 1, 1] (shiftRows (s.map sbox))) k) (xorL b k0)
      |> fun s => xorL (shiftRows (s.map sbox)) (rest.getLast?.getD [])

/-- One block through the inverse cipher. -/
def invCipher (ks : List (List Nat)) (b : List Nat) : List Nat :=
  match ks.reverse with
  | [] => b
  | k0 :: rest =>
    rest.dropLast.foldl (fun s k => mixWith [14, 11, 13, 9] (xorL ((invShiftRows s).map invSbox) k)) (xorL b k0)
      |> fun s => xorL ((invShiftRows s).map invSbox) (rest.getLast?.getD [])

/-- Bytes as numbers. -/
def toNats (bs : List Byte) : List Nat := bs.map (·.toNat)

/-- Numbers as bytes. -/
def ofNats (l : List Nat) : List Byte := l.map (BitVec.ofNat 8 ·)

/-- E_K of one 16-byte block. Mark: PRESUMED (log 168). -/
def aesEnc (key blk : List Byte) : List Byte := ofNats (cipher (roundKeys (toNats key)) (toNats (padTo 16 blk)))

/-- D_K of one 16-byte block. -/
def aesDec (key blk : List Byte) : List Byte := ofNats (invCipher (roundKeys (toNats key)) (toNats (padTo 16 blk)))

/-- XOR of two lists of bytes. -/
def xorB (a b : List Byte) : List Byte := List.zipWith (· ^^^ ·) a b

/-! ## Key wrapping (SP 800-38F, KW) -/

/-- The semiblocks of a list of bytes. -/
def semiblocks (bs : List Byte) : List (List Byte) := (List.range (bs.length / 8)).map fun i => sliceB bs (8 * i) 8

/-- The initial value of KW. -/
def kwIcv : List Byte := List.replicate 8 0xA6#8

/-- KW of at least two semiblocks. Mark: PRESUMED (log 168). -/
def kwWrap (key data : List Byte) : List Byte :=
  let r := semiblocks data
  let n := r.length
  let out := (List.range (6 * n)).foldl (fun (x : List Byte × List (List Byte)) t =>
    let b := aesEnc key (x.1 ++ x.2.getD (t % n) [])
    (xorB (b.take 8) (beBytes 8 (t + 1)), setNth x.2 (t % n) (b.drop 8))) (kwIcv, r)
  out.1 ++ out.2.flatten

/-- KW unwrap; none when the integrity check fails. Mark: PRESUMED (log 168). -/
def kwUnwrap (key data : List Byte) : Option (List Byte) :=
  match semiblocks data with
  | [] => none
  | a :: r =>
    let n := r.length
    let out := (List.range (6 * n)).foldl (fun (x : List Byte × List (List Byte)) k =>
      let t := 6 * n - 1 - k
      let b := aesDec key (xorB x.1 (beBytes 8 (t + 1)) ++ x.2.getD (t % n) [])
      (b.take 8, setNth x.2 (t % n) (b.drop 8))) (a, r)
    if out.1 = kwIcv then some out.2.flatten else none

/-! ## GCM (SP 800-38D) -/

/-- The product of two blocks in GF(2^128), `n` bits of the first still to go from bit `n − 1` down. -/
def ghMul : Nat → Nat → Nat → Nat
  | 0, _, _ => 0
  | n + 1, x, v => (if bit x n then v else 0) ^^^ ghMul n x (if v % 2 = 1 then v / 2 ^^^ 0xE1 * 2 ^ 120 else v / 2)

/-- The 16-byte blocks of a list, the last padded with zeros. -/
def blocks16 (bs : List Byte) : List (List Byte) := (List.range ((bs.length + 15) / 16)).map fun i => padTo 16 (sliceB bs (16 * i) 16)

/-- GHASH of a list of blocks. Mark: PRESUMED (log 168). -/
def ghash (h : Nat) (l : List (List Byte)) : Nat := l.foldl (fun y b => ghMul 128 (y ^^^ beNat b) h) 0

/-- inc32 of a 16-byte block, `k` times. -/
def inc32 (j : List Byte) (k : Nat) : List Byte := j.take 12 ++ beBytes 4 ((beNat (j.drop 12) + k) % 2 ^ 32)

/-- Counter mode from block `j` incremented once. -/
def gctr (key j data : List Byte) : List Byte :=
  ((blocks16 data).mapIdx fun i b => xorB (aesEnc key (inc32 j (i + 1))) b).flatten.take data.length

/-- The tag of additional data and ciphertext under a 96-bit IV. -/
def gcmTag (key iv aad ct : List Byte) : List Byte :=
  let h := beNat (aesEnc key (List.replicate 16 0#8))
  let s := ghash h (blocks16 aad ++ blocks16 ct ++ [beBytes 8 (8 * aad.length) ++ beBytes 8 (8 * ct.length)])
  xorB (aesEnc key (iv ++ beBytes 4 1)) (beBytes 16 s)

/-- AES-GCM: ciphertext, then the 16-byte tag. -/
def gcmSeal (key iv aad pt : List Byte) : List Byte :=
  let ct := gctr key (iv ++ beBytes 4 1) pt
  ct ++ gcmTag key iv aad ct

/-- AES-GCM decryption; none when the tag fails. -/
def gcmOpen (key iv aad sealed : List Byte) : Option (List Byte) :=
  let ct := sealed.take (sealed.length - 16)
  if gcmTag key iv aad ct = sealed.drop (sealed.length - 16) ∧ 16 ≤ sealed.length then some (gctr key (iv ++ beBytes 4 1) ct) else none

end Sys2Proof.Machine
end

