-- ==== Sys2Proof/Machine/Fp32.lean ====
section
/-! DEFINITION. Binary32 arithmetic of the M unit (R163, R165): exact values, one rounding to nearest even, subnormals kept, every NaN result the
quiet NaN 0x7FC0_0000, no traps and no flags. -/

namespace Sys2Proof.Machine

/-- A binary32 datum: a NaN, an infinity, or `±m × 2^e`. -/
inductive F32 where
  | nan
  | inf (neg : Bool)
  | fin (neg : Bool) (m : Nat) (e : Int)
  deriving DecidableEq, Repr

/-- The one NaN result (R165). -/
def qnan : Word := 0x7FC00000#32

/-- Read 32 bits as binary32. -/
def F32.ofWord (w : Word) : F32 :=
  let s := w.getLsbD 31
  let x := getBits w 30 23
  let f := getBits w 22 0
  if x = 255 then (if f = 0 then .inf s else .nan)
  else if x = 0 then .fin s f (-149)
  else .fin s (f + 2 ^ 23) ((x : Int) - 150)

/-- A sign, an exponent field and a fraction as a word. -/
def packF (neg : Bool) (x f : Nat) : Word := BitVec.ofNat 32 (b2n neg * 2 ^ 31 + x * 2 ^ 23 + f)

/-- A signed infinity. -/
def infF (neg : Bool) : Word := packF neg 255 0

/-- Round `±num × 2^e` to nearest, ties to even; `sticky` says the true value lies a little above (R165). -/
def roundF (neg : Bool) (num : Nat) (e : Int) (sticky : Bool) : Word :=
  if num = 0 then packF neg 0 0
  else
    let len : Int := (Nat.log2 num + 1 : Nat)
    let te : Int := if e + len - 24 < -149 then -149 else e + len - 24
    let sh := te - e
    let m : Nat :=
      if sh ≤ 0 then num * 2 ^ (-sh).toNat
      else
        let k := sh.toNat
        let q := num / 2 ^ k
        let r := num % 2 ^ k
        let half := 2 ^ (k - 1)
        if half < r ∨ (r = half ∧ (sticky ∨ q % 2 = 1)) then q + 1 else q
    let m' := if 2 ^ 24 ≤ m then m / 2 else m
    let te' := if 2 ^ 24 ≤ m then te + 1 else te
    if m' < 2 ^ 23 then packF neg 0 m'
    else if 255 ≤ te' + 150 then infF neg
    else packF neg (te' + 150).toNat (m' - 2 ^ 23)

/-- Round an exact integer multiple of `2^e`; an exact zero takes the sign `zneg`. -/
def roundInt (v : Int) (e : Int) (zneg : Bool) : Word :=
  if v = 0 then packF zneg 0 0 else roundF (decide (v < 0)) v.natAbs e false

/-- The signed mantissa. -/
def sgn (neg : Bool) (m : Nat) : Int := if neg then -(m : Int) else m

/-- The exact sum of two data, rounded once. -/
def addF : F32 → F32 → Word
  | .nan, _ => qnan
  | _, .nan => qnan
  | .inf s, .inf t => if s = t then infF s else qnan
  | .inf s, .fin _ _ _ => infF s
  | .fin _ _ _, .inf t => infF t
  | .fin s m e, .fin t n f =>
    let g := if e < f then e else f
    roundInt (sgn s m * 2 ^ (e - g).toNat + sgn t n * 2 ^ (f - g).toNat) g (s && t)

/-- The exact product, not rounded. -/
def mulX : F32 → F32 → F32
  | .nan, _ => .nan
  | _, .nan => .nan
  | .inf s, .inf t => .inf (s != t)
  | .inf s, .fin t n _ => if n = 0 then .nan else .inf (s != t)
  | .fin s m _, .inf t => if m = 0 then .nan else .inf (s != t)
  | .fin s m e, .fin t n f => .fin (s != t) (m * n) (e + f)

/-- Negation of a datum. -/
def negX : F32 → F32
  | .nan => .nan
  | .inf s => .inf (!s)
  | .fin s m e => .fin (!s) m e

/-- Round an exact datum. -/
def packX : F32 → Word
  | .nan => qnan
  | .inf s => infF s
  | .fin s m e => roundF s m e false

/-- Quotient: 0/0 and inf/inf are NaN, division by zero a correctly signed infinity (R165). -/
def divF : F32 → F32 → Word
  | .nan, _ => qnan
  | _, .nan => qnan
  | .inf _, .inf _ => qnan
  | .inf s, .fin t _ _ => infF (s != t)
  | .fin s _ _, .inf t => packF (s != t) 0 0
  | .fin s m e, .fin t n f =>
    if n = 0 then (if m = 0 then qnan else infF (s != t))
    else if m = 0 then packF (s != t) 0 0
    else roundF (s != t) (m * 2 ^ 50 / n) (e - f - 50) (m * 2 ^ 50 % n != 0)

/-- The integer square root, bit by bit from bit `k - 1`. -/
def isqrt : Nat → Nat → Nat → Nat
  | 0, _, r => r
  | k + 1, n, r => if (r + 2 ^ k) * (r + 2 ^ k) ≤ n then isqrt k n (r + 2 ^ k) else isqrt k n r

/-- Square root. -/
def sqrtF : F32 → Word
  | .nan => qnan
  | .inf s => if s then qnan else infF false
  | .fin s m e =>
    if m = 0 then packF s 0 0
    else if s then qnan
    else
      let e' := if e % 2 = 0 then e - 60 else e - 61
      let n := m * 2 ^ (e - e').toNat
      let r := isqrt 45 n 0
      roundF false r (e' / 2) (r * r != n)

/-- A key that orders data as IEEE 754 does, with −0 below +0. -/
def orderKey (w : Word) : Int := if w.getLsbD 31 then -(getBits w 30 0 : Int) - 1 else getBits w 30 0

/-- Is the word a NaN? -/
def isNan (w : Word) : Bool := F32.ofWord w == .nan

/-- Are two words equal as numbers (a zero equals the other zero)? -/
def eqF (a b : Word) : Bool := !isNan a && !isNan b && (a == b || (getBits a 30 0 == 0 && getBits b 30 0 == 0))

/-- Less-than on numbers. -/
def ltF (a b : Word) : Bool := !isNan a && !isNan b && !eqF a b && decide (orderKey a < orderKey b)

/-- The smaller datum; the other operand when one is a NaN (R165). -/
def minF (a b : Word) : Word :=
  if isNan a then (if isNan b then qnan else b) else if isNan b then a else if orderKey a ≤ orderKey b then a else b

/-- The larger datum. -/
def maxF (a b : Word) : Word :=
  if isNan a then (if isNan b then qnan else b) else if isNan b then a else if orderKey a ≤ orderKey b then b else a

/-- Round a datum to an integer, to nearest even or toward zero. -/
def toIntF (rz : Bool) (neg : Bool) (m : Nat) (e : Int) : Int :=
  if 0 ≤ e then sgn neg (m * 2 ^ e.toNat)
  else
    let k := (-e).toNat
    let q := m / 2 ^ k
    let r := m % 2 ^ k
    let half := 2 ^ (k - 1)
    sgn neg (if rz then q else if half < r ∨ (r = half ∧ q % 2 = 1) then q + 1 else q)

/-- Conversion to a saturated 32-bit integer; 0 for a NaN (R165). -/
def cvtWS (rz : Bool) : F32 → Int
  | .nan => 0
  | .inf s => if s then -2147483648 else 2147483647
  | .fin s m e => clampInt (-2147483648) 2147483647 (toIntF rz s m e)

end Sys2Proof.Machine
end

