-- ==== Sys2Proof/Config.lean ====
section
/-! DEFINITION. What the manual leaves to the chip, to a standard outside it, or to nobody: uninterpreted constants with no body, so that no proof can
rest on a value of theirs. -/

namespace Sys2Proof.Config

/-- Fresh free values, by a counter of the state. Mark: DESIGN CHOICE (log 7). -/
opaque freeValue : Nat → Nat

/-- The SRC of a record of a unit without a master identity, by record code. Mark: DESIGN CHOICE (log 16). -/
opaque unitSrc : Nat → Nat

/-- Contents of the boot ROM (R30). Mark: DESIGN CHOICE (log 6). -/
opaque romByte : Nat → Byte

/-- Contents of the OTP window (R30). Mark: DESIGN CHOICE (log 6). -/
opaque otpByte : Nat → Byte

/-- Rounding of the servo's divisions, down or up (R39, R42). Mark: DESIGN CHOICE (log 26). -/
opaque servoRound : Nat → Nat → Bool

/-- The rate error of a first sample, which has no interval (R39). Mark: DESIGN CHOICE (log 26). -/
opaque servoFirst : Nat → Int

/-- The IV that IEC 62351-6 sets for AES-GMAC over a frame's octets (R86): its first 12 bytes. Mark: DESIGN CHOICE (log 9). -/
opaque gmacIv : List Byte → List Byte

/-- The octets of a frame that is to be signed under a KID that IEC 62351-6 has covered (R99). Mark: DESIGN CHOICE (log 9). -/
opaque gmacOctets : Nat → List Byte → List Byte

/-- The frame with its IEC 62351-6 extension appended and its header's extension length set: KID, tag, frame (R99). Mark: DESIGN CHOICE (log 9). -/
opaque signedFrame : Nat → List Byte → List Byte → List Byte

/-- A frame buffer already holds a complete extension (R100). Mark: DESIGN CHOICE (log 9). -/
opaque hasExtension : List Byte → Bool

/-- The frame with its HSR tag or PRP trailer: mode, LAN, sequence number, frame (R94, IEC 62439-3). Mark: DESIGN CHOICE (log 9). -/
opaque redundant : Nat → Nat → Nat → List Byte → List Byte

/-- A supervision frame of the redundancy unit (R95, IEC 62439-3): mode, the node's MAC address, a draw. Mark: DESIGN CHOICE (log 9). -/
opaque supFrame : Nat → Nat → Nat → List Byte

/-- The code by which a record names the cause of a mode transition (R19). Mark: DESIGN CHOICE (log 25). -/
opaque modeCause : Nat → Nat

/-- This device's HELLO but for its role: nonce and ephemeral keys drawn by number, and the fingerprint of its identity keys (R253). Mark: DESIGN CHOICE (log 64). -/
opaque pairHello : Bool → Nat → List Byte

/-- The ML-KEM-768 ciphertext to the principal's key, by the principal's HELLO and a fresh draw (R253). -/
opaque pairKem : List Byte → Nat → List Byte

/-- This device's signatures over a digest with its two identity keys. Mark: DESIGN CHOICE (log 8). -/
opaque identitySign : List Byte → List Byte

/-- The partner's two signatures over a digest verify against the partner identity of the signed configuration (R253). Mark: DESIGN CHOICE (log 64). -/
opaque partnerVerifies : List Byte → List Byte → Bool

/-- The shared secrets of a pairing, from its messages and this device's draws (R253). -/
opaque pairSecrets : List Byte → Nat → List Byte

/-- The roster of the signed configuration in force (R275): the fingerprint of a slot, by configuration and slot. -/
opaque rosterPrint : Nat → Nat → Option (List Byte)

/-- The port MAC address of a slot. -/
opaque rosterMac : Nat → Nat → Nat

/-- The slot of its Understudy partner. -/
opaque rosterPartner : Nat → Nat → Option Nat

/-- The ephemeral P-256 key and ML-KEM-768 encapsulation key of an ATTEST, by draw (R279). Mark: DESIGN CHOICE (log 64). -/
opaque troupeKeys : Nat → List Byte

/-- The ephemeral P-256 key and ML-KEM-768 ciphertext with which a WELCOME answers an ATTEST: its payload, a fresh draw (R279). Mark: DESIGN CHOICE (log 64). -/
opaque troupeReply : List Byte → Nat → List Byte

/-- Z_ECDH and Z_KEM of a session (R280): the Director's from the ATTEST and its draw, the Player's from the WELCOME and the draw of its ATTEST. Mark: DESIGN CHOICE (log 64). -/
opaque troupeSecrets : Bool → List Byte → Nat → List Byte

/-- A key drawn from the Scree, by number. Mark: DESIGN CHOICE (log 73). -/
opaque freshKey : Nat → List Byte

/-- The base queue Q of the Steward service queues that a configuration names (R390). -/
opaque serviceQueue : Nat → Nat

/-- The device serial that OTP holds, 16 bytes (R338). -/
opaque serial : List Byte

/-- The OTP share (R330), outside the read window. -/
opaque otpShare : List Byte

/-- A public-key operation of R314 rejects its input: operation, key, operands, context. Mark: DESIGN CHOICE (log 8). -/
opaque pkBad : Nat → List Byte → List Byte → List Byte → Bool

/-- The verdict of a verify operation: operation, key, operands, context. Mark: DESIGN CHOICE (log 8). -/
opaque pkValid : Nat → List Byte → List Byte → List Byte → Bool

/-- What a public-key operation writes to DST: operation, key, operands, context, a fresh draw. Mark: DESIGN CHOICE (log 8). -/
opaque pkOut : Nat → List Byte → List Byte → List Byte → Nat → List Byte

/-- The key that a public-key operation writes into a key register: operation, key, operands, context, a fresh draw. Mark: DESIGN CHOICE (log 8). -/
opaque pkSecret : Nat → List Byte → List Byte → List Byte → Nat → List Byte

/-- The public key of a key: type, key. -/
opaque pkPublic : Nat → List Byte → List Byte

/-- An ML-DSA signing job needs 256 attempts: operation, key, operands, a fresh draw. -/
opaque signRetries : Nat → List Byte → List Byte → Nat → Bool

/-- The key type that CTX names for IMPORT (R318). Mark: DESIGN CHOICE (log 72). -/
opaque importType : Nat → Nat

/-- The bytes of a tag page whose fields the manual names without placing them: page number, its values (R436, R443, R444). Mark: DESIGN CHOICE (log 55). -/
opaque tagRecord : Nat → List Nat → List Byte

/-- The operator entry that a badge authenticates (R434), by configuration, what both its signatures are over (challenge and serial) and its reply: none unless the keys in the reply match an entry of
the configuration and both signatures verify, each twice. The form of the reply is not in the manual. -/
opaque badgeEntry : Nat → List Byte → List Byte → Option Nat

/-- An operator entry of a configuration (R379), by configuration and entry: RIGHTS in bits 0 to 3, the host port in bit 4, the station bus in bit 5; 0 where it has none. Mark: DESIGN CHOICE (log 98). -/
opaque opEntry : Nat → Nat → Nat

/-- Octust's service sessions in FACTORY, by entry; as opEntry. -/
opaque serviceEntry : Nat → Nat

/-- An opener's two signatures verify (R380): configuration, entry, what they sign, the SESSION_AUTH payload. -/
opaque operatorVerifies : Nat → Nat → List Byte → List Byte → Bool

/-- The owner's, by the owner fingerprint (R408). -/
opaque ownerVerifies : List Byte → List Byte → List Byte → Bool

/-- A claim's, whose payload carries its keys (R381). -/
opaque claimVerifies : List Byte → List Byte → Bool

/-- The nonce, ephemeral P-256 key and ML-KEM-768 ciphertext of a SESSION_OPEN reply (R380): the opener's payload, a fresh draw. -/
opaque sessReply : List Byte → Nat → List Byte

/-- Z_ECDH and Z_KEM of a session: the opener's payload, the same draw. -/
opaque sessSecrets : List Byte → Nat → List Byte

/-- The Stage Manager's version, by copy. -/
opaque stewardVersion : Nat → Nat

/-- A Stage Manager copy verifies (R400): the area's bytes. -/
opaque stewardOk : List Byte → Bool

/-- Length of the identity certificate, from its area's bytes. -/
opaque certLength : List Byte → Nat

/-- An image's two signatures verify (R387): its KIND, the keys that check it (a configuration's number, or the owner fingerprint), digest, signatures. Mark: DESIGN CHOICE (log 98). -/
opaque imageVerifies : Nat → Nat → List Byte → List Byte → List Byte → Bool

/-- The version an image carries: its KIND, its digest. -/
opaque imageVersion : Nat → List Byte → Nat

/-- The register writes a configuration consists of (R387, R401), in the order in which they are made: address, value. Mark: DESIGN CHOICE (log 98). -/
opaque cfgWrites : Nat → List (Nat × Nat)

/-- The signed configuration of a number verifies in its area at a start (R401). -/
opaque configOk : Nat → List Byte → Bool

/-- The signed act in an area verifies at a start (R401): configuration, the area's bytes. -/
opaque actOk : Nat → List Byte → Bool

/-- The signed cue table in its area verifies at a start (R401): configuration, the area's bytes. -/
opaque cuesOk : Nat → List Byte → Bool

/-- The cue table that an area holds (R400, R401): index and four words of each entry. Mark: DESIGN CHOICE (log 98). -/
opaque cueImage : List Byte → List (Nat × List Nat)

/-- The entry points of an act, by core (R401, R407): the area's bytes. Mark: DESIGN CHOICE (log 98). -/
opaque actEntries : List Byte → List (Nat × Nat)

/-- The banks T16 to T63 whose power a full act commits (R407): register words by bank. -/
opaque actBanks : List Byte → List (Nat × Nat)

/-- The grid that the Stage Manager commits with its first PTP sample when no Director gives it (R405): a whole TAI second. Mark: DESIGN CHOICE (log 27). -/
opaque gridCall : Nat → Nat

/-- The next message of an IEC 62351-9 exchange to the key distribution centre: configuration, the centre's message, a fresh draw (R387). Mark: DESIGN CHOICE (log 101). -/
opaque kdcMessage : Nat → List Byte → Nat → List Byte

/-- The keys that a centre's message yields: entry, KID, LEN256, value, change frame, overlap. Mark: DESIGN CHOICE (log 101). -/
opaque kdcKeys : Nat → List Byte → List (List Nat)

/-- The unlock token's two signatures verify (R339): the unlock fingerprint (empty: that of Octust's service keys), body, signatures. -/
opaque unlockVerifies : List Byte → List Byte → List Byte → Bool

/-- Both signatures of a customer key pair (R394): the key, what is signed, a fresh draw. -/
opaque customerSign : List Byte → List Byte → Nat → List Byte

/-- Signatures verify against the public key at an index of the configuration's list (R394): configuration, index, the bytes at IN. -/
opaque listedVerifies : Nat → Nat → List Byte → Bool

/-- The name under which the STORE and LOAD services keep an act file, by ARGS[0 to 3]. -/
opaque actFile : List Byte → List Byte

/-- Does an MMC card take sector addresses (R447)? Its CSD says so, and CART_CARD_c does not show it. Mark: DESIGN CHOICE (log 144). -/
opaque mmcBySector : Nat → Bool

/-- 576 raw bits of the Scree's noise sources, by the draw that takes them (R326). Mark: DESIGN CHOICE (log 147). -/
opaque noise : Nat → List Byte

/-- The nonce of a generator's instantiation, by draw: the manual gives none (R326, R327). Mark: DESIGN CHOICE (log 147). -/
opaque drbgNonce : Nat → List Byte

end Sys2Proof.Config
end

