-- ==== Sys2Proof/Machine/RegMap.lean ====
section
/-! DEFINITION. The registers of the device and their fields, each under the manual's own name (every register description of chapters 01 to 19;
the address map of R31). `A.X` is the address of register X, `F.X_Y` its field Y; an indexed register takes its indexes as arguments.
Registers written once per block (R28) take the block's base address. -/

namespace Sys2Proof.Machine

namespace Base

abbrev SYS : Nat := 0x40000000
abbrev COL : Nat := 0x40010000
abbrev TERRACE : Nat := 0x40020000
abbrev WINGS : Nat := 0x40030000
abbrev CUE : Nat := 0x40040000
abbrev STIME : Nat := 0x40050000
abbrev SP0 : Nat := 0x40060000
abbrev SP1 : Nat := 0x40070000
abbrev SP2 : Nat := 0x40080000
abbrev SP3 : Nat := 0x40090000
abbrev SWITCH : Nat := 0x400A0000
abbrev ENSEMBLE : Nat := 0x400B0000
abbrev PACKER : Nat := 0x400C0000
abbrev CHORUS : Nat := 0x400D0000
abbrev SOLOIST : Nat := 0x400E0000
abbrev MASSIF : Nat := 0x400F0000
abbrev SCREE : Nat := 0x40100000
abbrev CURTAIN : Nat := 0x40110000
abbrev REFUGE : Nat := 0x40120000
abbrev BEDROCK : Nat := 0x40130000
abbrev UNDERSTUDY : Nat := 0x40140000
abbrev TROUPE : Nat := 0x40150000
abbrev PINS : Nat := 0x40160000
abbrev PBOOK : Nat := 0x40170000
abbrev HOST : Nat := 0x40180000
abbrev BADGE : Nat := 0x40190000
abbrev CARTRIDGE : Nat := 0x401A0000
abbrev IRQ : Nat := 0x401B0000
abbrev OBSERVE : Nat := 0x401C0000
abbrev DTAKE : Nat := 0x401D0000

end Base

namespace A

/-- R19 -/
abbrev SYS_STATE : Nat := 0x40000000
/-- R19 -/
abbrev SYS_MODE_REQ : Nat := 0x40000004
/-- R21 -/
abbrev SYS_LC_ADV : Nat := 0x40001000
/-- R21 -/
abbrev SYS_LC_STAT : Nat := 0x40001004
/-- R38 -/
abbrev STIME_NOW_LO : Nat := 0x40050000
/-- R38 -/
abbrev STIME_NOW_HI : Nat := 0x40050004
/-- R44 -/
abbrev STIME_CTRL : Nat := 0x40050010
/-- R44 -/
abbrev STIME_STATE : Nat := 0x40050014
/-- R44 -/
abbrev STIME_OFFSET : Nat := 0x40050018
/-- R45 -/
abbrev STIME_COARSE_LO : Nat := 0x40050038
/-- R45 -/
abbrev STIME_COARSE_HI : Nat := 0x4005003C
/-- R45 -/
abbrev STIME_RATE : Nat := 0x4005001C
/-- R45 -/
abbrev STIME_SERVO : Nat := 0x40050020
/-- R45 -/
abbrev STIME_LOCK : Nat := 0x40050024
/-- R45 -/
abbrev STIME_HOLD : Nat := 0x40050028
/-- R45 -/
abbrev STIME_STEP_THRESH : Nat := 0x4005002C
/-- R45 -/
abbrev STIME_STEP_LO : Nat := 0x40050030
/-- R45 -/
abbrev STIME_STEP_HI : Nat := 0x40050034
/-- R49 -/
abbrev STIME_CALL_LO : Nat := 0x40050040
/-- R49 -/
abbrev STIME_CALL_HI : Nat := 0x40050044
/-- R49 -/
abbrev STIME_FRAME_CFG : Nat := 0x40050048
/-- R49 -/
abbrev STIME_FRAME_LO : Nat := 0x40050050
/-- R49 -/
abbrev STIME_FRAME_HI : Nat := 0x40050054
/-- R49 -/
abbrev STIME_FRAME_ACC : Nat := 0x40050058
/-- R70 -/
abbrev CUE_CTRL : Nat := 0x40040000
/-- R70 -/
abbrev CUE_STAT : Nat := 0x40040004
/-- R70 -/
abbrev CUE_CNT_A : Nat := 0x40040008
/-- R70 -/
abbrev CUE_CNT_B : Nat := 0x4004000C
/-- R70 -/
abbrev CUE_CNT_C : Nat := 0x40040010
/-- R70 -/
abbrev CUE_TKT_CFG : Nat := 0x40040014
/-- R70 -/
abbrev CUE_EDIT_W (k : Nat) : Nat := 0x40041000 + 0x4 * k
/-- R70 -/
abbrev CUE_EDIT_PUSH : Nat := 0x40041010
/-- R70 -/
abbrev CUE_EDIT_STAT : Nat := 0x40041014
/-- R70 -/
abbrev CUE_LOAD_IDX : Nat := 0x40041020
/-- R70 -/
abbrev CUE_LOAD_DATA : Nat := 0x40041024
/-- R70 -/
abbrev CUE_TICKET_DONE : Nat := 0x40042000
/-- R70 -/
abbrev CUE_SRC_TICKET (n : Nat) : Nat := 0x40042100 + 0x4 * n
/-- R73 -/
abbrev SP_LINK_CFG (n : Nat) : Nat := 0x40060000 + 0x10000 * n
/-- R73 -/
abbrev SP_LINK_STAT (n : Nat) : Nat := 0x40060004 + 0x10000 * n
/-- R73 -/
abbrev SP_SERDES (n : Nat) : Nat := 0x40060008 + 0x10000 * n
/-- R73 -/
abbrev SP_MAC_LO (n : Nat) : Nat := 0x40060018 + 0x10000 * n
/-- R73 -/
abbrev SP_MAC_HI (n : Nat) : Nat := 0x4006001C + 0x10000 * n
/-- R91 -/
abbrev SOLOIST_KEY_IDX : Nat := 0x400E1000
/-- R91 -/
abbrev SOLOIST_KEY_KID : Nat := 0x400E1004
/-- R91 -/
abbrev SOLOIST_KEY_ATTR : Nat := 0x400E1008
/-- R91 -/
abbrev SOLOIST_KEY_VAL (k : Nat) : Nat := 0x400E1010 + 0x4 * k
/-- R91 -/
abbrev SOLOIST_KEY_CHG_LO : Nat := 0x400E1030
/-- R91 -/
abbrev SOLOIST_KEY_CHG_HI : Nat := 0x400E1034
/-- R91 -/
abbrev SOLOIST_KEY_PUSH : Nat := 0x400E1040
/-- R91 -/
abbrev SOLOIST_KEY_STAT : Nat := 0x400E1044
/-- R91 -/
abbrev SOLOIST_KEY_CUR_KID : Nat := 0x400E1048
/-- R91 -/
abbrev SOLOIST_KEY_OTHER_KID : Nat := 0x400E104C
/-- R95 -/
abbrev SWITCH_RED_CFG (p : Nat) : Nat := 0x400A0000 + 0x4 * p
/-- R96 -/
abbrev SWITCH_RED_STAT : Nat := 0x400A0008
/-- R96 -/
abbrev SWITCH_DD_EVICT : Nat := 0x400A000C
/-- R101 -/
abbrev SP_TXQ (n : Nat) (k : Nat) : Nat := 0x40060400 + 0x10000 * n + 0x4 * k
/-- R101 -/
abbrev SWITCH_PCP_MAP : Nat := 0x400A0010
/-- R104 -/
abbrev SWITCH_GUARD (n : Nat) (k : Nat) : Nat := 0x400A0100 + 0x20 * n + 0x4 * k
/-- R109 -/
abbrev SWITCH_PTP_CFG : Nat := 0x400A0020
/-- R109 -/
abbrev SWITCH_PTP_PORT : Nat := 0x400A0024
/-- R109 -/
abbrev SWITCH_PTP_STAT : Nat := 0x400A0028
/-- R109 -/
abbrev SP_TS_ADJ (n : Nat) : Nat := 0x4006000C + 0x10000 * n
/-- R110 -/
abbrev SWITCH_EDIT_W (k : Nat) : Nat := 0x400A0C00 + 0x4 * k
/-- R110 -/
abbrev SWITCH_EDIT_PUSH : Nat := 0x400A0C10
/-- R110 -/
abbrev SWITCH_EDIT_STAT : Nat := 0x400A0C14
/-- R110 -/
abbrev SWITCH_READ_SEL : Nat := 0x400A0C20
/-- R110 -/
abbrev SWITCH_READ_DATA : Nat := 0x400A0C24
/-- R115 -/
abbrev SP_CNT_CTRL (n : Nat) : Nat := 0x40060010 + 0x10000 * n
/-- R115 -/
abbrev SP_ALARM_MASK (n : Nat) : Nat := 0x40060014 + 0x10000 * n
/-- R115 -/
abbrev SP_RX_FRAMES (n : Nat) : Nat := 0x40060100 + 0x10000 * n
/-- R115 -/
abbrev SP_RX_BYTES (n : Nat) : Nat := 0x40060104 + 0x10000 * n
/-- R115 -/
abbrev SP_AUTH_PASS (n : Nat) : Nat := 0x40060108 + 0x10000 * n
/-- R115 -/
abbrev SP_TX_FRAMES (n : Nat) : Nat := 0x4006010C + 0x10000 * n
/-- R115 -/
abbrev SP_TX_BYTES (n : Nat) : Nat := 0x40060110 + 0x10000 * n
/-- R115 -/
abbrev SP_REL_LATE (n : Nat) : Nat := 0x40060114 + 0x10000 * n
/-- R115 -/
abbrev SP_DROP (n : Nat) (k : Nat) : Nat := 0x40060200 + 0x10000 * n + 0x4 * k
/-- R115 -/
abbrev SP_TXDROP (n : Nat) (k : Nat) : Nat := 0x40060300 + 0x10000 * n + 0x4 * k
/-- R120 -/
abbrev WINGS_PROFILE_PM (k : Nat) : Nat := 0x40030000 + 0x8 * k
/-- R120 -/
abbrev WINGS_PROFILE_CM (k : Nat) : Nat := 0x40030004 + 0x8 * k
/-- R129 -/
abbrev WINGS_NOTIFY_POP (l : Nat) : Nat := 0x40030400 + 0x4 * l
/-- R129 -/
abbrev WINGS_ERR_A : Nat := 0x40030500
/-- R129 -/
abbrev WINGS_ERR_B : Nat := 0x40030504
/-- R129 -/
abbrev WINGS_ERR_CLR : Nat := 0x40030508
/-- R137 -/
abbrev ENSEMBLE_SEL : Nat := 0x400B0000
/-- R137 -/
abbrev ENSEMBLE_CFG_A : Nat := 0x400B0004
/-- R137 -/
abbrev ENSEMBLE_CFG_B : Nat := 0x400B0008
/-- R137 -/
abbrev ENSEMBLE_CFG_C : Nat := 0x400B000C
/-- R137 -/
abbrev ENSEMBLE_MEMBER (s : Nat) : Nat := 0x400B0100 + 0x4 * s
/-- R137 -/
abbrev ENSEMBLE_STAT_A : Nat := 0x400B0010
/-- R137 -/
abbrev ENSEMBLE_STAT_B : Nat := 0x400B0014
/-- R144 -/
abbrev PACKER_CFG (c : Nat) : Nat := 0x400C0000 + 0x20 * c
/-- R144 -/
abbrev PACKER_BASE (c : Nat) : Nat := 0x400C0004 + 0x20 * c
/-- R144 -/
abbrev PACKER_CTRL (c : Nat) : Nat := 0x400C0008 + 0x20 * c
/-- R144 -/
abbrev PACKER_STAT (c : Nat) : Nat := 0x400C000C + 0x20 * c
/-- R144 -/
abbrev PACKER_CNT_A (c : Nat) : Nat := 0x400C0010 + 0x20 * c
/-- R144 -/
abbrev PACKER_CNT_B (c : Nat) : Nat := 0x400C0014 + 0x20 * c
/-- R190 -/
abbrev IRQ_ROUTE (s : Nat) : Nat := 0x401B0000 + 0x4 * s
/-- R190 -/
abbrev IRQ_PEND (k : Nat) : Nat := 0x401B0400 + 0x4 * k
/-- R190 -/
abbrev IRQ_CORE_STAT (n : Nat) : Nat := 0x401B0500 + 0x8 * n
/-- R190 -/
abbrev IRQ_CORE_CTRL (n : Nat) : Nat := 0x401B0504 + 0x8 * n
/-- R190 -/
abbrev IRQ_CLAIM (n : Nat) : Nat := 0x401B1000 + 0x1000 * n
/-- R190 -/
abbrev IRQ_ACK (n : Nat) : Nat := 0x401B1004 + 0x1000 * n
/-- R190 -/
abbrev IRQ_DOORBELL : Nat := 0x401BA000
/-- R192 -/
abbrev IRQ_LATE_POP (n : Nat) : Nat := 0x401B1010 + 0x1000 * n
/-- R192 -/
abbrev IRQ_LATE_ADDR (n : Nat) : Nat := 0x401B1014 + 0x1000 * n
/-- R211 -/
abbrev TERRACE_BANK (n : Nat) : Nat := 0x40020000 + 0x4 * n
/-- R211 -/
abbrev TERRACE_BANK_LIVE (n : Nat) : Nat := 0x40020100 + 0x4 * n
/-- R216 -/
abbrev TERRACE_DIRTY_STAT : Nat := 0x40020200
/-- R216 -/
abbrev TERRACE_DIRTY_CNT : Nat := 0x40020204
/-- R216 -/
abbrev TERRACE_CFG : Nat := 0x40020208
/-- R216 -/
abbrev TERRACE_CNT_CTRL : Nat := 0x4002020C
/-- R216 -/
abbrev TERRACE_CONFLICT (m : Nat) : Nat := 0x40020300 + 0x4 * m
/-- R216 -/
abbrev TERRACE_ECC_STAT : Nat := 0x40020210
/-- R216 -/
abbrev TERRACE_ECC_ADDR : Nat := 0x40020214
/-- R216 -/
abbrev TERRACE_ECC_INFO : Nat := 0x40020218
/-- R227 -/
abbrev COL_TRUNK_BANK_RMASK (n : Nat) : Nat := 0x40010000 + 0x8 * n
/-- R227 -/
abbrev COL_TRUNK_BANK_WMASK (n : Nat) : Nat := 0x40010004 + 0x8 * n
/-- R227 -/
abbrev COL_TRUNK_REG_W0 (r : Nat) : Nat := 0x40010200 + 0x10 * r
/-- R227 -/
abbrev COL_TRUNK_REG_W1 (r : Nat) : Nat := 0x40010204 + 0x10 * r
/-- R227 -/
abbrev COL_TRUNK_REG_W2 (r : Nat) : Nat := 0x40010208 + 0x10 * r
/-- R227 -/
abbrev COL_LEAF_REG_W0 (u : Nat) (r : Nat) : Nat := 0x40011000 + 0x80 * u + 0x10 * r
/-- R227 -/
abbrev COL_LEAF_REG_W1 (u : Nat) (r : Nat) : Nat := 0x40011004 + 0x80 * u + 0x10 * r
/-- R227 -/
abbrev COL_LEAF_REG_W2 (u : Nat) (r : Nat) : Nat := 0x40011008 + 0x80 * u + 0x10 * r
/-- R227 -/
abbrev COL_BED_REG_W0 (r : Nat) : Nat := 0x40013000 + 0x10 * r
/-- R227 -/
abbrev COL_BED_REG_W1 (r : Nat) : Nat := 0x40013004 + 0x10 * r
/-- R227 -/
abbrev COL_BED_REG_W2 (r : Nat) : Nat := 0x40013008 + 0x10 * r
/-- R227 -/
abbrev COL_LEAF_DEF_RMASK (u : Nat) : Nat := 0x40010800 + 0x8 * u
/-- R227 -/
abbrev COL_LEAF_DEF_WMASK (u : Nat) : Nat := 0x40010804 + 0x8 * u
/-- R227 -/
abbrev COL_BED_DEF_RMASK : Nat := 0x40013200
/-- R227 -/
abbrev COL_BED_DEF_WMASK : Nat := 0x40013204
/-- R227 -/
abbrev COL_VIOL_POP : Nat := 0x40014000
/-- R227 -/
abbrev COL_VIOL_ADDR : Nat := 0x40014004
/-- R245 -/
abbrev PINS_CFG (p : Nat) : Nat := 0x40160000 + 0x4 * p
/-- R245 -/
abbrev PINS_PAIR (k : Nat) : Nat := 0x40160400 + 0x4 * k
/-- R245 -/
abbrev PINS_GRP_CFG (g : Nat) : Nat := 0x40160800 + 0x10 * g
/-- R245 -/
abbrev PINS_GRP_STAT (g : Nat) : Nat := 0x40160804 + 0x10 * g
/-- R245 -/
abbrev PINS_GRP_IRQ (g : Nat) : Nat := 0x40160808 + 0x10 * g
/-- R245 -/
abbrev PINS_LEVEL (k : Nat) : Nat := 0x40160C00 + 0x4 * k
/-- R245 -/
abbrev PINS_RB (k : Nat) : Nat := 0x40160C20 + 0x4 * k
/-- R245 -/
abbrev PINS_PPS_CFG : Nat := 0x40160E00
/-- R245 -/
abbrev PINS_PPS_OFS : Nat := 0x40160E04
/-- R245 -/
abbrev PINS_IRIG_CFG : Nat := 0x40160E08
/-- R245 -/
abbrev PINS_IRIG_STAT : Nat := 0x40160E0C
/-- R273 -/
abbrev UNDERSTUDY_CFG_A : Nat := 0x40140000
/-- R273 -/
abbrev UNDERSTUDY_CFG_B : Nat := 0x40140004
/-- R273 -/
abbrev UNDERSTUDY_CFG_C : Nat := 0x40140008
/-- R273 -/
abbrev UNDERSTUDY_CFG_D : Nat := 0x4014000C
/-- R273 -/
abbrev UNDERSTUDY_CTRL : Nat := 0x40140010
/-- R273 -/
abbrev UNDERSTUDY_STAT : Nat := 0x40140014
/-- R273 -/
abbrev UNDERSTUDY_HEALTH : Nat := 0x40140018
/-- R273 -/
abbrev UNDERSTUDY_PEER_HEALTH : Nat := 0x4014001C
/-- R273 -/
abbrev UNDERSTUDY_APPLIED_LO : Nat := 0x40140020
/-- R273 -/
abbrev UNDERSTUDY_APPLIED_HI : Nat := 0x40140024
/-- R273 -/
abbrev UNDERSTUDY_XFER_STAT : Nat := 0x40140028
/-- R273 -/
abbrev UNDERSTUDY_CNT_A : Nat := 0x4014002C
/-- R273 -/
abbrev UNDERSTUDY_CNT_B : Nat := 0x40140030
/-- R273 -/
abbrev UNDERSTUDY_CNT_C : Nat := 0x40140034
/-- R273 -/
abbrev UNDERSTUDY_HOLD_SET : Nat := 0x40142000
/-- R273 -/
abbrev UNDERSTUDY_HOLD_CLR : Nat := 0x40142004
/-- R273 -/
abbrev UNDERSTUDY_HOLD : Nat := 0x40142008
/-- R288 -/
abbrev TROUPE_CFG_A : Nat := 0x40150000
/-- R288 -/
abbrev TROUPE_CFG_B : Nat := 0x40150004
/-- R288 -/
abbrev TROUPE_CFG_C : Nat := 0x40150008
/-- R288 -/
abbrev TROUPE_STAT : Nat := 0x40150010
/-- R288 -/
abbrev TROUPE_CNT : Nat := 0x40150014
/-- R288 -/
abbrev TROUPE_MEMBER (s : Nat) : Nat := 0x40150100 + 0x4 * s
/-- R300 -/
abbrev CHORUS_CFG : Nat := 0x400D0000
/-- R300 -/
abbrev CHORUS_STAT : Nat := 0x400D0004
/-- R300 -/
abbrev CHORUS_CNT : Nat := 0x400D0008
/-- R303 -/
abbrev CHORUS_KEY_IDX : Nat := 0x400D4000
/-- R303 -/
abbrev CHORUS_KEY_ATTR : Nat := 0x400D4004
/-- R303 -/
abbrev CHORUS_KEY_USERS : Nat := 0x400D4008
/-- R303 -/
abbrev CHORUS_KEY_VAL (k : Nat) : Nat := 0x400D4010 + 0x4 * k
/-- R303 -/
abbrev CHORUS_KEY_PUSH : Nat := 0x400D4040
/-- R303 -/
abbrev CHORUS_KEY_STAT : Nat := 0x400D4044
/-- R311 -/
abbrev SOLOIST_CFG : Nat := 0x400E0000
/-- R311 -/
abbrev SOLOIST_STAT : Nat := 0x400E0004
/-- R311 -/
abbrev SOLOIST_CNT (s : Nat) : Nat := 0x400E0010 + 0x4 * s
/-- R311 -/
abbrev CHORUS_CH_SRC (c : Nat) : Nat := 0x38000000 + 0x10000 * c
/-- R311 -/
abbrev CHORUS_CH_DST (c : Nat) : Nat := 0x38000004 + 0x10000 * c
/-- R311 -/
abbrev CHORUS_CH_XSRC (c : Nat) : Nat := 0x38000008 + 0x10000 * c
/-- R311 -/
abbrev CHORUS_CH_OP (c : Nat) : Nat := 0x3800000C + 0x10000 * c
/-- R311 -/
abbrev CHORUS_CH_STAT (c : Nat) : Nat := 0x38000010 + 0x10000 * c
/-- R311 -/
abbrev CHORUS_CH_DONE_Q (c : Nat) : Nat := 0x38000014 + 0x10000 * c
/-- R311 -/
abbrev CHORUS_CH_GATE_CFG (c : Nat) : Nat := 0x38000018 + 0x10000 * c
/-- R311 -/
abbrev CHORUS_CH_VADDR (c : Nat) : Nat := 0x3800001C + 0x10000 * c
/-- R311 -/
abbrev CHORUS_CH_GATE_H (c : Nat) (k : Nat) : Nat := 0x38000020 + 0x10000 * c + 0x4 * k
/-- R311 -/
abbrev CHORUS_CH_GATE_STAT (c : Nat) : Nat := 0x38000030 + 0x10000 * c
/-- R324 -/
abbrev MASSIF_CFG : Nat := 0x400F0000
/-- R324 -/
abbrev MASSIF_STAT : Nat := 0x400F0004
/-- R324 -/
abbrev MASSIF_CNT : Nat := 0x400F0008
/-- R324 -/
abbrev MASSIF_KEY_MAP_LO : Nat := 0x400F0010
/-- R324 -/
abbrev MASSIF_KEY_MAP_HI : Nat := 0x400F0014
/-- R324 -/
abbrev MASSIF_SUBMIT (p : Nat) : Nat := 0x400F1000 + 0x1000 * p
/-- R324 -/
abbrev MASSIF_DONE_Q (p : Nat) : Nat := 0x400F1004 + 0x1000 * p
/-- R329 -/
abbrev SCREE_CTRL : Nat := 0x40100000
/-- R329 -/
abbrev SCREE_HEALTH : Nat := 0x40100004
/-- R329 -/
abbrev SCREE_DRBG : Nat := 0x40100008
/-- R329 -/
abbrev SCREE_STAT : Nat := 0x4010000C
/-- R329 -/
abbrev SCREE_CNT : Nat := 0x40100010
/-- R329 -/
abbrev SCREE_PERS (k : Nat) : Nat := 0x40100020 + 0x4 * k
/-- R329 -/
abbrev SCREE_TEST : Nat := 0x40100030
/-- R329 -/
abbrev SCREE_TEST_DATA : Nat := 0x40100034
/-- R329 -/
abbrev SCREE_RAND : Nat := 0x40101000
/-- R347 -/
abbrev DTAKE_CFG : Nat := 0x401D0000
/-- R347 -/
abbrev DTAKE_GROUP_A (g : Nat) : Nat := 0x401D0100 + 0x8 * g
/-- R347 -/
abbrev DTAKE_GROUP_B (g : Nat) : Nat := 0x401D0104 + 0x8 * g
/-- R347 -/
abbrev DTAKE_MASK (g : Nat) : Nat := 0x401D0180 + 0x4 * g
/-- R347 -/
abbrev DTAKE_VERDICT (g : Nat) : Nat := 0x401D0200 + 0x8 * g
/-- R347 -/
abbrev DTAKE_WORD (g : Nat) : Nat := 0x401D0204 + 0x8 * g
/-- R347 -/
abbrev DTAKE_CNT_A : Nat := 0x401D0300
/-- R353 -/
abbrev REFUGE_STAT : Nat := 0x40120000
/-- R353 -/
abbrev REFUGE_CFG : Nat := 0x40120004
/-- R353 -/
abbrev REFUGE_RTC_SEC : Nat := 0x40120008
/-- R353 -/
abbrev REFUGE_RTC_SUB : Nat := 0x4012000C
/-- R353 -/
abbrev REFUGE_RTC_SET : Nat := 0x40120010
/-- R353 -/
abbrev REFUGE_LOG_SEL : Nat := 0x40120020
/-- R353 -/
abbrev REFUGE_LOG_DATA (k : Nat) : Nat := 0x40120024 + 0x4 * k
/-- R353 -/
abbrev CURTAIN_STAT : Nat := 0x40110000
/-- R353 -/
abbrev CURTAIN_CFG : Nat := 0x40110004
/-- R353 -/
abbrev CURTAIN_HIST : Nat := 0x40110008
/-- R353 -/
abbrev CURTAIN_WARN : Nat := 0x4011000C
/-- R353 -/
abbrev CURTAIN_CHAL (k : Nat) : Nat := 0x40110010 + 0x4 * k
/-- R353 -/
abbrev CURTAIN_UNLOCK_STAT : Nat := 0x40110030
/-- R369 -/
abbrev BRK_STATUS (b : Nat) : Nat := 0x40130000 + 0x4 * b
/-- R369 -/
abbrev BRK_FETCH : Nat := 0x40130020
/-- R369 -/
abbrev BRK_CFG : Nat := 0x40130024
/-- R369 -/
abbrev BRK_ECC : Nat := 0x40130028
/-- R369 -/
abbrev BRK_PATROL_POP : Nat := 0x4013002C
/-- R369 -/
abbrev BRK_BLOCK_SEL : Nat := 0x40130030
/-- R369 -/
abbrev BRK_BLOCK_INFO : Nat := 0x40130034
/-- R369 -/
abbrev BRK_PAGE_STATE (k : Nat) : Nat := 0x40130040 + 0x4 * k
/-- R369 -/
abbrev BRK_UNLOCK (n : Nat) : Nat := 0x40131000 + 0x1000 * n
/-- R369 -/
abbrev BRK_ADDR (n : Nat) : Nat := 0x40131004 + 0x1000 * n
/-- R369 -/
abbrev BRK_SRC (n : Nat) : Nat := 0x40131008 + 0x1000 * n
/-- R369 -/
abbrev BRK_CMD (n : Nat) : Nat := 0x4013100C + 0x1000 * n
/-- R369 -/
abbrev BRK_RESULT (n : Nat) : Nat := 0x40131010 + 0x1000 * n
/-- R377 -/
abbrev HOST_CFG : Nat := 0x40180000
/-- R377 -/
abbrev HOST_CNT : Nat := 0x40180004
/-- R397 -/
abbrev SYS_CLK_CFG : Nat := 0x40000020
/-- R397 -/
abbrev SYS_CLK_STAT : Nat := 0x40000024
/-- R399 -/
abbrev SYS_RESET : Nat := 0x40000010
/-- R399 -/
abbrev SYS_RESET_CAUSE : Nat := 0x40000014
/-- R408 -/
abbrev SYS_BOOT : Nat := 0x40000030
/-- R428 -/
abbrev PBOOK_CFG : Nat := 0x40170000
/-- R428 -/
abbrev PBOOK_STAT : Nat := 0x40170004
/-- R428 -/
abbrev PBOOK_SEQ : Nat := 0x40170008
/-- R428 -/
abbrev PBOOK_ARCH_SEQ : Nat := 0x40170018
/-- R428 -/
abbrev PBOOK_DROP_A : Nat := 0x4017000C
/-- R428 -/
abbrev PBOOK_DROP_B : Nat := 0x40170010
/-- R428 -/
abbrev PBOOK_ARCH : Nat := 0x40170014
/-- R428 -/
abbrev PBOOK_CLEAR : Nat := 0x40170020
/-- R428 -/
abbrev PBOOK_CLEAR_UPTO : Nat := 0x40170024
/-- R428 -/
abbrev PBOOK_RATE (c : Nat) : Nat := 0x40170100 + 0x4 * c
/-- R428 -/
abbrev PBOOK_CURSOR (r : Nat) : Nat := 0x40171000 + 0x1000 * r
/-- R428 -/
abbrev PBOOK_RSTAT (r : Nat) : Nat := 0x40171004 + 0x1000 * r
/-- R428 -/
abbrev PBOOK_REC (r : Nat) (k : Nat) : Nat := 0x40171010 + 0x1000 * r + 0x4 * k
/-- R428 -/
abbrev OBSERVE_TRACE_CFG : Nat := 0x401C0000
/-- R428 -/
abbrev OBSERVE_TRACE_STAT : Nat := 0x401C0004
/-- R428 -/
abbrev OBSERVE_CNT_SEL (k : Nat) : Nat := 0x401C0100 + 0x8 * k
/-- R428 -/
abbrev OBSERVE_CNT (k : Nat) : Nat := 0x401C0104 + 0x8 * k
/-- R428 -/
abbrev OBSERVE_CNT_CTRL : Nat := 0x401C0200
/-- R445 -/
abbrev BADGE_CFG : Nat := 0x40190000
/-- R445 -/
abbrev BADGE_STAT : Nat := 0x40190004
/-- R445 -/
abbrev BADGE_RD_CTRL : Nat := 0x40190010
/-- R445 -/
abbrev BADGE_RD_STAT : Nat := 0x40190014
/-- R445 -/
abbrev BADGE_TS_COMMIT : Nat := 0x40190020
/-- R445 -/
abbrev BADGE_TS_STAT : Nat := 0x40190024
/-- R445 -/
abbrev BADGE_TS_GEN : Nat := 0x40190028
/-- R445 -/
abbrev BADGE_TS_MB : Nat := 0x4019002C
/-- R458 -/
abbrev CART_CFG : Nat := 0x401A0000
/-- R458 -/
abbrev CART_CARD (c : Nat) : Nat := 0x401A0010 + 0x4 * c
/-- R458 -/
abbrev CART_XFER : Nat := 0x401A0020
/-- R458 -/
abbrev CART_LBA : Nat := 0x401A0024
/-- R458 -/
abbrev CART_BUF : Nat := 0x401A0028
/-- R458 -/
abbrev CART_STAT : Nat := 0x401A0030
/-- R28 -/
abbrev BLOCK_COMMIT (b : Nat) : Nat := b + 0xFF00
/-- R28 -/
abbrev BLOCK_COMMIT_STATUS (b : Nat) : Nat := b + 0xFF04
/-- R28 -/
abbrev BLOCK_REFUSED (b : Nat) : Nat := b + 0xFF08

end A

namespace F

abbrev SYS_STATE_CURTAIN_LATCH : Fld := ⟨A.SYS_STATE, 31, 31⟩
abbrev SYS_STATE_UNSYNCED : Fld := ⟨A.SYS_STATE, 30, 30⟩
abbrev SYS_STATE_STALE : Fld := ⟨A.SYS_STATE, 29, 29⟩
abbrev SYS_STATE_TROUPE_ROLE : Fld := ⟨A.SYS_STATE, 12, 11⟩
abbrev SYS_STATE_PAIR_ROLE : Fld := ⟨A.SYS_STATE, 10, 9⟩
abbrev SYS_STATE_LIFECYCLE : Fld := ⟨A.SYS_STATE, 8, 6⟩
abbrev SYS_STATE_MODE : Fld := ⟨A.SYS_STATE, 2, 0⟩
abbrev SYS_MODE_REQ_GO : Fld := ⟨A.SYS_MODE_REQ, 31, 31⟩
abbrev SYS_MODE_REQ_REFUSED : Fld := ⟨A.SYS_MODE_REQ, 23, 16⟩
abbrev SYS_MODE_REQ_TARGET : Fld := ⟨A.SYS_MODE_REQ, 2, 0⟩
abbrev SYS_LC_ADV_KEY : Fld := ⟨A.SYS_LC_ADV, 31, 16⟩
abbrev SYS_LC_ADV_TARGET : Fld := ⟨A.SYS_LC_ADV, 2, 0⟩
abbrev SYS_LC_STAT_BUSY : Fld := ⟨A.SYS_LC_STAT, 31, 31⟩
abbrev SYS_LC_STAT_DONE : Fld := ⟨A.SYS_LC_STAT, 30, 30⟩
abbrev SYS_LC_STAT_REFUSED : Fld := ⟨A.SYS_LC_STAT, 29, 29⟩
abbrev SYS_LC_STAT_PENDING_LC : Fld := ⟨A.SYS_LC_STAT, 2, 0⟩
abbrev STIME_NOW_LO_TICK_LO : Fld := ⟨A.STIME_NOW_LO, 31, 0⟩
abbrev STIME_NOW_HI_TICK_HI : Fld := ⟨A.STIME_NOW_HI, 31, 0⟩
abbrev STIME_CTRL_STEP_GO : Fld := ⟨A.STIME_CTRL, 31, 31⟩
abbrev STIME_CTRL_FREE_OK : Fld := ⟨A.STIME_CTRL, 4, 4⟩
abbrev STIME_CTRL_SRC : Fld := ⟨A.STIME_CTRL, 1, 0⟩
abbrev STIME_STATE_OFFSET_ALARM : Fld := ⟨A.STIME_STATE, 31, 31⟩
abbrev STIME_STATE_STEP_PENDING : Fld := ⟨A.STIME_STATE, 30, 30⟩
abbrev STIME_STATE_STEP_REFUSED : Fld := ⟨A.STIME_STATE, 29, 29⟩
abbrev STIME_STATE_SRC_ACTIVE : Fld := ⟨A.STIME_STATE, 26, 24⟩
abbrev STIME_STATE_HOLD_ELAPSED : Fld := ⟨A.STIME_STATE, 18, 3⟩
abbrev STIME_STATE_STATE : Fld := ⟨A.STIME_STATE, 2, 0⟩
abbrev STIME_OFFSET_E : Fld := ⟨A.STIME_OFFSET, 31, 0⟩
abbrev STIME_COARSE_LO_COARSE : Fld := ⟨A.STIME_COARSE_LO, 31, 0⟩
abbrev STIME_COARSE_HI_COARSE : Fld := ⟨A.STIME_COARSE_HI, 31, 0⟩
abbrev STIME_RATE_RATE : Fld := ⟨A.STIME_RATE, 31, 0⟩
abbrev STIME_SERVO_PHASE_LIMIT : Fld := ⟨A.STIME_SERVO, 31, 24⟩
abbrev STIME_SERVO_KI : Fld := ⟨A.STIME_SERVO, 11, 8⟩
abbrev STIME_SERVO_KP : Fld := ⟨A.STIME_SERVO, 3, 0⟩
abbrev STIME_LOCK_UNLOCK_NS : Fld := ⟨A.STIME_LOCK, 31, 24⟩
abbrev STIME_LOCK_LOCK_COUNT : Fld := ⟨A.STIME_LOCK, 23, 16⟩
abbrev STIME_LOCK_LOCK_NS : Fld := ⟨A.STIME_LOCK, 7, 0⟩
abbrev STIME_HOLD_HOLD_LIMIT : Fld := ⟨A.STIME_HOLD, 31, 16⟩
abbrev STIME_HOLD_LOSS_TIMEOUT : Fld := ⟨A.STIME_HOLD, 15, 0⟩
abbrev STIME_STEP_THRESH_THRESH_NS : Fld := ⟨A.STIME_STEP_THRESH, 23, 0⟩
abbrev STIME_STEP_LO_STEP : Fld := ⟨A.STIME_STEP_LO, 31, 0⟩
abbrev STIME_STEP_HI_STEP : Fld := ⟨A.STIME_STEP_HI, 31, 0⟩
abbrev STIME_CALL_LO_CALL : Fld := ⟨A.STIME_CALL_LO, 31, 0⟩
abbrev STIME_CALL_HI_CALL : Fld := ⟨A.STIME_CALL_HI, 31, 0⟩
abbrev STIME_FRAME_CFG_RATE : Fld := ⟨A.STIME_FRAME_CFG, 1, 0⟩
abbrev STIME_FRAME_LO_FRAME_LO : Fld := ⟨A.STIME_FRAME_LO, 31, 0⟩
abbrev STIME_FRAME_HI_VALID : Fld := ⟨A.STIME_FRAME_HI, 31, 31⟩
abbrev STIME_FRAME_HI_FRAME_HI : Fld := ⟨A.STIME_FRAME_HI, 15, 0⟩
abbrev STIME_FRAME_ACC_LONG : Fld := ⟨A.STIME_FRAME_ACC, 31, 31⟩
abbrev STIME_FRAME_ACC_ACC : Fld := ⟨A.STIME_FRAME_ACC, 13, 0⟩
abbrev CUE_CTRL_CLR_CNT : Fld := ⟨A.CUE_CTRL, 8, 8⟩
abbrev CUE_CTRL_RUN : Fld := ⟨A.CUE_CTRL, 0, 0⟩
abbrev CUE_STAT_STANDING : Fld := ⟨A.CUE_STAT, 28, 16⟩
abbrev CUE_STAT_OPEN : Fld := ⟨A.CUE_STAT, 10, 0⟩
abbrev CUE_CNT_A_LATE : Fld := ⟨A.CUE_CNT_A, 31, 16⟩
abbrev CUE_CNT_A_PIN_COLLIDE : Fld := ⟨A.CUE_CNT_A, 15, 0⟩
abbrev CUE_CNT_B_DEADLINE_MISS : Fld := ⟨A.CUE_CNT_B, 31, 16⟩
abbrev CUE_CNT_B_TKT_EXHAUST : Fld := ⟨A.CUE_CNT_B, 15, 0⟩
abbrev CUE_CNT_C_TKT_STRAY : Fld := ⟨A.CUE_CNT_C, 31, 16⟩
abbrev CUE_CNT_C_DONE_Q_DROP : Fld := ⟨A.CUE_CNT_C, 15, 0⟩
abbrev CUE_TKT_CFG_DONE_Q_EN : Fld := ⟨A.CUE_TKT_CFG, 31, 31⟩
abbrev CUE_TKT_CFG_DONE_Q : Fld := ⟨A.CUE_TKT_CFG, 25, 8⟩
abbrev CUE_TKT_CFG_RECLAIM_FRAMES : Fld := ⟨A.CUE_TKT_CFG, 7, 0⟩
abbrev CUE_EDIT_W_WORD (k : Nat) : Fld := ⟨A.CUE_EDIT_W k, 31, 0⟩
abbrev CUE_EDIT_PUSH_PUSH : Fld := ⟨A.CUE_EDIT_PUSH, 31, 31⟩
abbrev CUE_EDIT_PUSH_DELETE : Fld := ⟨A.CUE_EDIT_PUSH, 30, 30⟩
abbrev CUE_EDIT_PUSH_INDEX : Fld := ⟨A.CUE_EDIT_PUSH, 13, 0⟩
abbrev CUE_EDIT_STAT_LAST_REFUSED : Fld := ⟨A.CUE_EDIT_STAT, 31, 31⟩
abbrev CUE_EDIT_STAT_REASON : Fld := ⟨A.CUE_EDIT_STAT, 27, 24⟩
abbrev CUE_EDIT_STAT_LIST_COUNT : Fld := ⟨A.CUE_EDIT_STAT, 8, 0⟩
abbrev CUE_LOAD_IDX_WORD : Fld := ⟨A.CUE_LOAD_IDX, 17, 16⟩
abbrev CUE_LOAD_IDX_INDEX : Fld := ⟨A.CUE_LOAD_IDX, 13, 0⟩
abbrev CUE_LOAD_DATA_DATA : Fld := ⟨A.CUE_LOAD_DATA, 31, 0⟩
abbrev CUE_TICKET_DONE_STATUS : Fld := ⟨A.CUE_TICKET_DONE, 31, 28⟩
abbrev CUE_TICKET_DONE_TICKET : Fld := ⟨A.CUE_TICKET_DONE, 9, 0⟩
abbrev CUE_SRC_TICKET_VALID (n : Nat) : Fld := ⟨A.CUE_SRC_TICKET n, 31, 31⟩
abbrev CUE_SRC_TICKET_TICKET (n : Nat) : Fld := ⟨A.CUE_SRC_TICKET n, 9, 0⟩
abbrev SP_LINK_CFG_AN (n : Nat) : Fld := ⟨A.SP_LINK_CFG n, 4, 4⟩
abbrev SP_LINK_CFG_MODE (n : Nat) : Fld := ⟨A.SP_LINK_CFG n, 2, 0⟩
abbrev SP_LINK_STAT_UP (n : Nat) : Fld := ⟨A.SP_LINK_STAT n, 31, 31⟩
abbrev SP_LINK_STAT_HELD (n : Nat) : Fld := ⟨A.SP_LINK_STAT n, 30, 30⟩
abbrev SP_LINK_STAT_BLOCK_LOCK (n : Nat) : Fld := ⟨A.SP_LINK_STAT n, 29, 29⟩
abbrev SP_LINK_STAT_AN_DONE (n : Nat) : Fld := ⟨A.SP_LINK_STAT n, 28, 28⟩
abbrev SP_LINK_STAT_DOWN_COUNT (n : Nat) : Fld := ⟨A.SP_LINK_STAT n, 23, 16⟩
abbrev SP_LINK_STAT_ACTIVE (n : Nat) : Fld := ⟨A.SP_LINK_STAT n, 2, 0⟩
abbrev SP_SERDES_TX_INV (n : Nat) : Fld := ⟨A.SP_SERDES n, 31, 31⟩
abbrev SP_SERDES_RX_INV (n : Nat) : Fld := ⟨A.SP_SERDES n, 30, 30⟩
abbrev SP_SERDES_TX_AMP (n : Nat) : Fld := ⟨A.SP_SERDES n, 23, 20⟩
abbrev SP_SERDES_PRE (n : Nat) : Fld := ⟨A.SP_SERDES n, 19, 16⟩
abbrev SP_SERDES_POST (n : Nat) : Fld := ⟨A.SP_SERDES n, 15, 12⟩
abbrev SP_SERDES_CTLE_AUTO (n : Nat) : Fld := ⟨A.SP_SERDES n, 11, 11⟩
abbrev SP_SERDES_CTLE_GAIN (n : Nat) : Fld := ⟨A.SP_SERDES n, 4, 0⟩
abbrev SP_MAC_LO_MAC (n : Nat) : Fld := ⟨A.SP_MAC_LO n, 31, 0⟩
abbrev SP_MAC_HI_MAC (n : Nat) : Fld := ⟨A.SP_MAC_HI n, 15, 0⟩
abbrev SOLOIST_KEY_IDX_SLOT : Fld := ⟨A.SOLOIST_KEY_IDX, 16, 16⟩
abbrev SOLOIST_KEY_IDX_INDEX : Fld := ⟨A.SOLOIST_KEY_IDX, 11, 0⟩
abbrev SOLOIST_KEY_KID_KID : Fld := ⟨A.SOLOIST_KEY_KID, 31, 0⟩
abbrev SOLOIST_KEY_ATTR_LEN256 : Fld := ⟨A.SOLOIST_KEY_ATTR, 31, 31⟩
abbrev SOLOIST_KEY_ATTR_OVERLAP : Fld := ⟨A.SOLOIST_KEY_ATTR, 15, 0⟩
abbrev SOLOIST_KEY_VAL_KEY (k : Nat) : Fld := ⟨A.SOLOIST_KEY_VAL k, 31, 0⟩
abbrev SOLOIST_KEY_CHG_LO_CHANGE : Fld := ⟨A.SOLOIST_KEY_CHG_LO, 31, 0⟩
abbrev SOLOIST_KEY_CHG_HI_CHANGE : Fld := ⟨A.SOLOIST_KEY_CHG_HI, 15, 0⟩
abbrev SOLOIST_KEY_PUSH_PUSH : Fld := ⟨A.SOLOIST_KEY_PUSH, 31, 31⟩
abbrev SOLOIST_KEY_PUSH_ERASE : Fld := ⟨A.SOLOIST_KEY_PUSH, 30, 30⟩
abbrev SOLOIST_KEY_STAT_STATE : Fld := ⟨A.SOLOIST_KEY_STAT, 31, 30⟩
abbrev SOLOIST_KEY_STAT_LAST_REFUSED : Fld := ⟨A.SOLOIST_KEY_STAT, 29, 29⟩
abbrev SOLOIST_KEY_STAT_REASON : Fld := ⟨A.SOLOIST_KEY_STAT, 27, 24⟩
abbrev SOLOIST_KEY_STAT_LIST_COUNT : Fld := ⟨A.SOLOIST_KEY_STAT, 8, 0⟩
abbrev SOLOIST_KEY_CUR_KID_KID : Fld := ⟨A.SOLOIST_KEY_CUR_KID, 31, 0⟩
abbrev SOLOIST_KEY_OTHER_KID_KID : Fld := ⟨A.SOLOIST_KEY_OTHER_KID, 31, 0⟩
abbrev SWITCH_RED_CFG_MODE (p : Nat) : Fld := ⟨A.SWITCH_RED_CFG p, 31, 30⟩
abbrev SWITCH_RED_CFG_SUP_INTERVAL (p : Nat) : Fld := ⟨A.SWITCH_RED_CFG p, 23, 16⟩
abbrev SWITCH_RED_CFG_DD_AGE (p : Nat) : Fld := ⟨A.SWITCH_RED_CFG p, 15, 0⟩
abbrev SWITCH_RED_STAT_SEEN_1 : Fld := ⟨A.SWITCH_RED_STAT, 31, 31⟩
abbrev SWITCH_RED_STAT_FILL_1 : Fld := ⟨A.SWITCH_RED_STAT, 28, 16⟩
abbrev SWITCH_RED_STAT_SEEN_0 : Fld := ⟨A.SWITCH_RED_STAT, 15, 15⟩
abbrev SWITCH_RED_STAT_FILL_0 : Fld := ⟨A.SWITCH_RED_STAT, 12, 0⟩
abbrev SWITCH_DD_EVICT_EVICT_1 : Fld := ⟨A.SWITCH_DD_EVICT, 31, 16⟩
abbrev SWITCH_DD_EVICT_EVICT_0 : Fld := ⟨A.SWITCH_DD_EVICT, 15, 0⟩
abbrev SP_TXQ_EN (n : Nat) (k : Nat) : Fld := ⟨A.SP_TXQ n k, 31, 31⟩
abbrev SP_TXQ_QUEUE (n : Nat) (k : Nat) : Fld := ⟨A.SP_TXQ n k, 17, 0⟩
abbrev SWITCH_PCP_MAP_MAP : Fld := ⟨A.SWITCH_PCP_MAP, 23, 0⟩
abbrev SWITCH_GUARD_EN (n : Nat) (k : Nat) : Fld := ⟨A.SWITCH_GUARD n k, 31, 31⟩
abbrev SWITCH_GUARD_OFFSET (n : Nat) (k : Nat) : Fld := ⟨A.SWITCH_GUARD n k, 30, 14⟩
abbrev SWITCH_GUARD_LENGTH (n : Nat) (k : Nat) : Fld := ⟨A.SWITCH_GUARD n k, 13, 0⟩
abbrev SWITCH_PTP_CFG_EN : Fld := ⟨A.SWITCH_PTP_CFG, 31, 31⟩
abbrev SWITCH_PTP_CFG_CLOCK : Fld := ⟨A.SWITCH_PTP_CFG, 30, 29⟩
abbrev SWITCH_PTP_CFG_ONE_STEP : Fld := ⟨A.SWITCH_PTP_CFG, 28, 28⟩
abbrev SWITCH_PTP_CFG_PROFILE : Fld := ⟨A.SWITCH_PTP_CFG, 27, 26⟩
abbrev SWITCH_PTP_CFG_DOMAIN : Fld := ⟨A.SWITCH_PTP_CFG, 15, 8⟩
abbrev SWITCH_PTP_CFG_LOG_SYNC : Fld := ⟨A.SWITCH_PTP_CFG, 3, 0⟩
abbrev SWITCH_PTP_PORT_STATE : Fld := ⟨A.SWITCH_PTP_PORT, 7, 0⟩
abbrev SWITCH_PTP_STAT_SAMPLES : Fld := ⟨A.SWITCH_PTP_STAT, 31, 24⟩
abbrev SWITCH_PTP_STAT_PATH_DELAY : Fld := ⟨A.SWITCH_PTP_STAT, 23, 0⟩
abbrev SP_TS_ADJ_TX_ADJ (n : Nat) : Fld := ⟨A.SP_TS_ADJ n, 31, 16⟩
abbrev SP_TS_ADJ_RX_ADJ (n : Nat) : Fld := ⟨A.SP_TS_ADJ n, 15, 0⟩
abbrev SWITCH_EDIT_W_WORD (k : Nat) : Fld := ⟨A.SWITCH_EDIT_W k, 31, 0⟩
abbrev SWITCH_EDIT_PUSH_PUSH : Fld := ⟨A.SWITCH_EDIT_PUSH, 31, 31⟩
abbrev SWITCH_EDIT_PUSH_DELETE : Fld := ⟨A.SWITCH_EDIT_PUSH, 30, 30⟩
abbrev SWITCH_EDIT_PUSH_TABLE : Fld := ⟨A.SWITCH_EDIT_PUSH, 29, 27⟩
abbrev SWITCH_EDIT_PUSH_INDEX : Fld := ⟨A.SWITCH_EDIT_PUSH, 13, 0⟩
abbrev SWITCH_EDIT_STAT_LAST_REFUSED : Fld := ⟨A.SWITCH_EDIT_STAT, 31, 31⟩
abbrev SWITCH_EDIT_STAT_REASON : Fld := ⟨A.SWITCH_EDIT_STAT, 27, 24⟩
abbrev SWITCH_EDIT_STAT_LIST_COUNT : Fld := ⟨A.SWITCH_EDIT_STAT, 8, 0⟩
abbrev SWITCH_READ_SEL_TABLE : Fld := ⟨A.SWITCH_READ_SEL, 29, 27⟩
abbrev SWITCH_READ_SEL_WORD : Fld := ⟨A.SWITCH_READ_SEL, 17, 16⟩
abbrev SWITCH_READ_SEL_INDEX : Fld := ⟨A.SWITCH_READ_SEL, 13, 0⟩
abbrev SWITCH_READ_DATA_DATA : Fld := ⟨A.SWITCH_READ_DATA, 31, 0⟩
abbrev SP_CNT_CTRL_SNAP (n : Nat) : Fld := ⟨A.SP_CNT_CTRL n, 31, 31⟩
abbrev SP_CNT_CTRL_CLR (n : Nat) : Fld := ⟨A.SP_CNT_CTRL n, 30, 30⟩
abbrev SP_ALARM_MASK_MASK (n : Nat) : Fld := ⟨A.SP_ALARM_MASK n, 21, 1⟩
abbrev SP_RX_FRAMES_COUNT (n : Nat) : Fld := ⟨A.SP_RX_FRAMES n, 31, 0⟩
abbrev SP_RX_BYTES_COUNT (n : Nat) : Fld := ⟨A.SP_RX_BYTES n, 31, 0⟩
abbrev SP_AUTH_PASS_COUNT (n : Nat) : Fld := ⟨A.SP_AUTH_PASS n, 31, 0⟩
abbrev SP_TX_FRAMES_COUNT (n : Nat) : Fld := ⟨A.SP_TX_FRAMES n, 31, 0⟩
abbrev SP_TX_BYTES_COUNT (n : Nat) : Fld := ⟨A.SP_TX_BYTES n, 31, 0⟩
abbrev SP_REL_LATE_COUNT (n : Nat) : Fld := ⟨A.SP_REL_LATE n, 31, 0⟩
abbrev SP_DROP_COUNT (n : Nat) (k : Nat) : Fld := ⟨A.SP_DROP n k, 31, 0⟩
abbrev SP_TXDROP_COUNT (n : Nat) (k : Nat) : Fld := ⟨A.SP_TXDROP n k, 31, 0⟩
abbrev WINGS_PROFILE_PM_PMASK (k : Nat) : Fld := ⟨A.WINGS_PROFILE_PM k, 31, 0⟩
abbrev WINGS_PROFILE_CM_CMASK (k : Nat) : Fld := ⟨A.WINGS_PROFILE_CM k, 31, 0⟩
abbrev WINGS_NOTIFY_POP_V (l : Nat) : Fld := ⟨A.WINGS_NOTIFY_POP l, 31, 31⟩
abbrev WINGS_NOTIFY_POP_OVF (l : Nat) : Fld := ⟨A.WINGS_NOTIFY_POP l, 30, 30⟩
abbrev WINGS_NOTIFY_POP_QUEUE (l : Nat) : Fld := ⟨A.WINGS_NOTIFY_POP l, 17, 0⟩
abbrev WINGS_ERR_A_PMASK_REFUSED : Fld := ⟨A.WINGS_ERR_A, 31, 16⟩
abbrev WINGS_ERR_A_CMASK_REFUSED : Fld := ⟨A.WINGS_ERR_A, 15, 0⟩
abbrev WINGS_ERR_B_COPY_ERR : Fld := ⟨A.WINGS_ERR_B, 31, 16⟩
abbrev WINGS_ERR_B_CFG_REFUSED : Fld := ⟨A.WINGS_ERR_B, 15, 0⟩
abbrev WINGS_ERR_CLR_CLR : Fld := ⟨A.WINGS_ERR_CLR, 31, 31⟩
abbrev ENSEMBLE_SEL_CLR : Fld := ⟨A.ENSEMBLE_SEL, 31, 31⟩
abbrev ENSEMBLE_SEL_INDEX : Fld := ⟨A.ENSEMBLE_SEL, 7, 0⟩
abbrev ENSEMBLE_CFG_A_EN : Fld := ⟨A.ENSEMBLE_CFG_A, 31, 31⟩
abbrev ENSEMBLE_CFG_A_HOLD_MAX : Fld := ⟨A.ENSEMBLE_CFG_A, 30, 29⟩
abbrev ENSEMBLE_CFG_A_DOUBLE : Fld := ⟨A.ENSEMBLE_CFG_A, 28, 28⟩
abbrev ENSEMBLE_CFG_A_QWORDS : Fld := ⟨A.ENSEMBLE_CFG_A, 27, 27⟩
abbrev ENSEMBLE_CFG_A_FMT : Fld := ⟨A.ENSEMBLE_CFG_A, 26, 26⟩
abbrev ENSEMBLE_CFG_A_CORE : Fld := ⟨A.ENSEMBLE_CFG_A, 23, 20⟩
abbrev ENSEMBLE_CFG_A_NSTREAM : Fld := ⟨A.ENSEMBLE_CFG_A, 14, 8⟩
abbrev ENSEMBLE_CFG_A_NCH : Fld := ⟨A.ENSEMBLE_CFG_A, 4, 0⟩
abbrev ENSEMBLE_CFG_B_SMP_OFS : Fld := ⟨A.ENSEMBLE_CFG_B, 31, 16⟩
abbrev ENSEMBLE_CFG_B_MATRIX : Fld := ⟨A.ENSEMBLE_CFG_B, 15, 6⟩
abbrev ENSEMBLE_CFG_C_LAG : Fld := ⟨A.ENSEMBLE_CFG_C, 31, 30⟩
abbrev ENSEMBLE_CFG_C_QMASK : Fld := ⟨A.ENSEMBLE_CFG_C, 13, 0⟩
abbrev ENSEMBLE_MEMBER_QUEUE (s : Nat) : Fld := ⟨A.ENSEMBLE_MEMBER s, 17, 0⟩
abbrev ENSEMBLE_STAT_A_MISSING : Fld := ⟨A.ENSEMBLE_STAT_A, 31, 16⟩
abbrev ENSEMBLE_STAT_A_DISCARD_OLD : Fld := ⟨A.ENSEMBLE_STAT_A, 15, 0⟩
abbrev ENSEMBLE_STAT_B_DISCARD_DUP : Fld := ⟨A.ENSEMBLE_STAT_B, 31, 16⟩
abbrev ENSEMBLE_STAT_B_SHAPE : Fld := ⟨A.ENSEMBLE_STAT_B, 15, 0⟩
abbrev PACKER_CFG_EN (c : Nat) : Fld := ⟨A.PACKER_CFG c, 31, 31⟩
abbrev PACKER_CFG_SIZE (c : Nat) : Fld := ⟨A.PACKER_CFG c, 30, 28⟩
abbrev PACKER_CFG_PAD (c : Nat) : Fld := ⟨A.PACKER_CFG c, 25, 18⟩
abbrev PACKER_CFG_QUEUE (c : Nat) : Fld := ⟨A.PACKER_CFG c, 17, 0⟩
abbrev PACKER_BASE_BASE (c : Nat) : Fld := ⟨A.PACKER_BASE c, 31, 6⟩
abbrev PACKER_CTRL_SWAP (c : Nat) : Fld := ⟨A.PACKER_CTRL c, 31, 31⟩
abbrev PACKER_CTRL_RET (c : Nat) : Fld := ⟨A.PACKER_CTRL c, 30, 30⟩
abbrev PACKER_CTRL_RET_BANK (c : Nat) : Fld := ⟨A.PACKER_CTRL c, 29, 29⟩
abbrev PACKER_STAT_CUR (c : Nat) : Fld := ⟨A.PACKER_STAT c, 31, 31⟩
abbrev PACKER_STAT_OTHER_FREE (c : Nat) : Fld := ⟨A.PACKER_STAT c, 30, 30⟩
abbrev PACKER_STAT_FILL (c : Nat) : Fld := ⟨A.PACKER_STAT c, 14, 0⟩
abbrev PACKER_CNT_A_SWAP_BLOCKED (c : Nat) : Fld := ⟨A.PACKER_CNT_A c, 31, 16⟩
abbrev PACKER_CNT_A_DESC_LOST (c : Nat) : Fld := ⟨A.PACKER_CNT_A c, 15, 0⟩
abbrev PACKER_CNT_B_LOST_BYTES (c : Nat) : Fld := ⟨A.PACKER_CNT_B c, 31, 16⟩
abbrev PACKER_CNT_B_RET_STRAY (c : Nat) : Fld := ⟨A.PACKER_CNT_B c, 15, 0⟩
abbrev IRQ_ROUTE_CORE (s : Nat) : Fld := ⟨A.IRQ_ROUTE s, 11, 8⟩
abbrev IRQ_ROUTE_LINE (s : Nat) : Fld := ⟨A.IRQ_ROUTE s, 4, 0⟩
abbrev IRQ_PEND_PEND (k : Nat) : Fld := ⟨A.IRQ_PEND k, 31, 0⟩
abbrev IRQ_CORE_STAT_STOPPED (n : Nat) : Fld := ⟨A.IRQ_CORE_STAT n, 31, 31⟩
abbrev IRQ_CORE_STAT_HELD (n : Nat) : Fld := ⟨A.IRQ_CORE_STAT n, 30, 30⟩
abbrev IRQ_CORE_STAT_FATAL_CAUSE (n : Nat) : Fld := ⟨A.IRQ_CORE_STAT n, 13, 8⟩
abbrev IRQ_CORE_STAT_FIRST_CAUSE (n : Nat) : Fld := ⟨A.IRQ_CORE_STAT n, 5, 0⟩
abbrev IRQ_CORE_CTRL_HOLD (n : Nat) : Fld := ⟨A.IRQ_CORE_CTRL n, 31, 31⟩
abbrev IRQ_CORE_CTRL_START (n : Nat) : Fld := ⟨A.IRQ_CORE_CTRL n, 30, 30⟩
abbrev IRQ_CORE_CTRL_PC (n : Nat) : Fld := ⟨A.IRQ_CORE_CTRL n, 29, 0⟩
abbrev IRQ_CLAIM_V (n : Nat) : Fld := ⟨A.IRQ_CLAIM n, 31, 31⟩
abbrev IRQ_CLAIM_SRC (n : Nat) : Fld := ⟨A.IRQ_CLAIM n, 7, 0⟩
abbrev IRQ_ACK_SRC (n : Nat) : Fld := ⟨A.IRQ_ACK n, 7, 0⟩
abbrev IRQ_DOORBELL_RING : Fld := ⟨A.IRQ_DOORBELL, 31, 0⟩
abbrev IRQ_LATE_POP_V (n : Nat) : Fld := ⟨A.IRQ_LATE_POP n, 31, 31⟩
abbrev IRQ_LATE_POP_AV (n : Nat) : Fld := ⟨A.IRQ_LATE_POP n, 30, 30⟩
abbrev IRQ_LATE_POP_LOST (n : Nat) : Fld := ⟨A.IRQ_LATE_POP n, 29, 29⟩
abbrev IRQ_LATE_POP_MASTER (n : Nat) : Fld := ⟨A.IRQ_LATE_POP n, 28, 24⟩
abbrev IRQ_LATE_POP_KIND (n : Nat) : Fld := ⟨A.IRQ_LATE_POP n, 23, 20⟩
abbrev IRQ_LATE_POP_SIZE (n : Nat) : Fld := ⟨A.IRQ_LATE_POP n, 19, 18⟩
abbrev IRQ_LATE_POP_COUNT (n : Nat) : Fld := ⟨A.IRQ_LATE_POP n, 15, 0⟩
abbrev IRQ_LATE_ADDR_ADDR (n : Nat) : Fld := ⟨A.IRQ_LATE_ADDR n, 31, 0⟩
abbrev TERRACE_BANK_POWER (n : Nat) : Fld := ⟨A.TERRACE_BANK n, 31, 30⟩
abbrev TERRACE_BANK_MIRROR (n : Nat) : Fld := ⟨A.TERRACE_BANK n, 29, 29⟩
abbrev TERRACE_BANK_OWNED (n : Nat) : Fld := ⟨A.TERRACE_BANK n, 28, 28⟩
abbrev TERRACE_BANK_OWNER (n : Nat) : Fld := ⟨A.TERRACE_BANK n, 20, 16⟩
abbrev TERRACE_BANK_LIVE_LIVE (n : Nat) : Fld := ⟨A.TERRACE_BANK_LIVE n, 31, 16⟩
abbrev TERRACE_BANK_LIVE_ZERO_DUE (n : Nat) : Fld := ⟨A.TERRACE_BANK_LIVE n, 3, 3⟩
abbrev TERRACE_BANK_LIVE_STATE (n : Nat) : Fld := ⟨A.TERRACE_BANK_LIVE n, 2, 0⟩
abbrev TERRACE_DIRTY_STAT_CUR : Fld := ⟨A.TERRACE_DIRTY_STAT, 31, 14⟩
abbrev TERRACE_DIRTY_STAT_SEND : Fld := ⟨A.TERRACE_DIRTY_STAT, 13, 0⟩
abbrev TERRACE_DIRTY_CNT_CARRIED : Fld := ⟨A.TERRACE_DIRTY_CNT, 31, 16⟩
abbrev TERRACE_DIRTY_CNT_RESCUE_WAIT : Fld := ⟨A.TERRACE_DIRTY_CNT, 15, 0⟩
abbrev TERRACE_CFG_ALARM : Fld := ⟨A.TERRACE_CFG, 31, 16⟩
abbrev TERRACE_CFG_PROMOTE : Fld := ⟨A.TERRACE_CFG, 7, 0⟩
abbrev TERRACE_CNT_CTRL_SNAP : Fld := ⟨A.TERRACE_CNT_CTRL, 31, 31⟩
abbrev TERRACE_CNT_CTRL_CLR : Fld := ⟨A.TERRACE_CNT_CTRL, 30, 30⟩
abbrev TERRACE_CONFLICT_WAIT (m : Nat) : Fld := ⟨A.TERRACE_CONFLICT m, 31, 0⟩
abbrev TERRACE_ECC_STAT_CE : Fld := ⟨A.TERRACE_ECC_STAT, 31, 16⟩
abbrev TERRACE_ECC_STAT_UE : Fld := ⟨A.TERRACE_ECC_STAT, 15, 0⟩
abbrev TERRACE_ECC_ADDR_ADDR : Fld := ⟨A.TERRACE_ECC_ADDR, 31, 0⟩
abbrev TERRACE_ECC_INFO_INTERNAL : Fld := ⟨A.TERRACE_ECC_INFO, 5, 5⟩
abbrev TERRACE_ECC_INFO_MASTER : Fld := ⟨A.TERRACE_ECC_INFO, 4, 0⟩
abbrev COL_TRUNK_BANK_RMASK_MASK (n : Nat) : Fld := ⟨A.COL_TRUNK_BANK_RMASK n, 31, 0⟩
abbrev COL_TRUNK_BANK_WMASK_MASK (n : Nat) : Fld := ⟨A.COL_TRUNK_BANK_WMASK n, 31, 0⟩
abbrev COL_TRUNK_REG_W0_BASE (r : Nat) : Fld := ⟨A.COL_TRUNK_REG_W0 r, 31, 6⟩
abbrev COL_TRUNK_REG_W0_EN (r : Nat) : Fld := ⟨A.COL_TRUNK_REG_W0 r, 5, 5⟩
abbrev COL_TRUNK_REG_W0_SIZE (r : Nat) : Fld := ⟨A.COL_TRUNK_REG_W0 r, 4, 0⟩
abbrev COL_TRUNK_REG_W1_RMASK (r : Nat) : Fld := ⟨A.COL_TRUNK_REG_W1 r, 31, 0⟩
abbrev COL_TRUNK_REG_W2_WMASK (r : Nat) : Fld := ⟨A.COL_TRUNK_REG_W2 r, 31, 0⟩
abbrev COL_LEAF_REG_W0_BASE (u : Nat) (r : Nat) : Fld := ⟨A.COL_LEAF_REG_W0 u r, 31, 6⟩
abbrev COL_LEAF_REG_W0_EN (u : Nat) (r : Nat) : Fld := ⟨A.COL_LEAF_REG_W0 u r, 5, 5⟩
abbrev COL_LEAF_REG_W0_SIZE (u : Nat) (r : Nat) : Fld := ⟨A.COL_LEAF_REG_W0 u r, 4, 0⟩
abbrev COL_LEAF_REG_W1_RMASK (u : Nat) (r : Nat) : Fld := ⟨A.COL_LEAF_REG_W1 u r, 31, 0⟩
abbrev COL_LEAF_REG_W2_WMASK (u : Nat) (r : Nat) : Fld := ⟨A.COL_LEAF_REG_W2 u r, 31, 0⟩
abbrev COL_BED_REG_W0_BASE (r : Nat) : Fld := ⟨A.COL_BED_REG_W0 r, 31, 6⟩
abbrev COL_BED_REG_W0_EN (r : Nat) : Fld := ⟨A.COL_BED_REG_W0 r, 5, 5⟩
abbrev COL_BED_REG_W0_SIZE (r : Nat) : Fld := ⟨A.COL_BED_REG_W0 r, 4, 0⟩
abbrev COL_BED_REG_W1_RMASK (r : Nat) : Fld := ⟨A.COL_BED_REG_W1 r, 31, 0⟩
abbrev COL_BED_REG_W2_WMASK (r : Nat) : Fld := ⟨A.COL_BED_REG_W2 r, 31, 0⟩
abbrev COL_LEAF_DEF_RMASK_MASK (u : Nat) : Fld := ⟨A.COL_LEAF_DEF_RMASK u, 31, 0⟩
abbrev COL_LEAF_DEF_WMASK_MASK (u : Nat) : Fld := ⟨A.COL_LEAF_DEF_WMASK u, 31, 0⟩
abbrev COL_BED_DEF_RMASK_MASK : Fld := ⟨A.COL_BED_DEF_RMASK, 31, 0⟩
abbrev COL_BED_DEF_WMASK_MASK : Fld := ⟨A.COL_BED_DEF_WMASK, 31, 0⟩
abbrev COL_VIOL_POP_V : Fld := ⟨A.COL_VIOL_POP, 31, 31⟩
abbrev COL_VIOL_POP_OVF : Fld := ⟨A.COL_VIOL_POP, 30, 30⟩
abbrev COL_VIOL_POP_UNIT : Fld := ⟨A.COL_VIOL_POP, 29, 28⟩
abbrev COL_VIOL_POP_INDEX : Fld := ⟨A.COL_VIOL_POP, 27, 22⟩
abbrev COL_VIOL_POP_AV : Fld := ⟨A.COL_VIOL_POP, 21, 21⟩
abbrev COL_VIOL_POP_KIND : Fld := ⟨A.COL_VIOL_POP, 20, 19⟩
abbrev COL_VIOL_POP_STRADDLE : Fld := ⟨A.COL_VIOL_POP, 18, 18⟩
abbrev COL_VIOL_POP_MASTER : Fld := ⟨A.COL_VIOL_POP, 17, 13⟩
abbrev COL_VIOL_POP_REGION : Fld := ⟨A.COL_VIOL_POP, 12, 6⟩
abbrev COL_VIOL_POP_HARD : Fld := ⟨A.COL_VIOL_POP, 5, 5⟩
abbrev COL_VIOL_ADDR_ADDR : Fld := ⟨A.COL_VIOL_ADDR, 31, 0⟩
abbrev PINS_CFG_FUNC (p : Nat) : Fld := ⟨A.PINS_CFG p, 31, 29⟩
abbrev PINS_CFG_OD (p : Nat) : Fld := ⟨A.PINS_CFG p, 28, 28⟩
abbrev PINS_CFG_INV (p : Nat) : Fld := ⟨A.PINS_CFG p, 27, 27⟩
abbrev PINS_CFG_SAFE (p : Nat) : Fld := ⟨A.PINS_CFG p, 26, 25⟩
abbrev PINS_CFG_FUNIT (p : Nat) : Fld := ⟨A.PINS_CFG p, 24, 24⟩
abbrev PINS_CFG_IRQ (p : Nat) : Fld := ⟨A.PINS_CFG p, 23, 22⟩
abbrev PINS_CFG_FILT (p : Nat) : Fld := ⟨A.PINS_CFG p, 11, 0⟩
abbrev PINS_PAIR_EN (k : Nat) : Fld := ⟨A.PINS_PAIR k, 31, 31⟩
abbrev PINS_PAIR_GROUP (k : Nat) : Fld := ⟨A.PINS_PAIR k, 27, 24⟩
abbrev PINS_PAIR_BIT (k : Nat) : Fld := ⟨A.PINS_PAIR k, 20, 16⟩
abbrev PINS_PAIR_B_INV (k : Nat) : Fld := ⟨A.PINS_PAIR k, 15, 15⟩
abbrev PINS_PAIR_RB_WINDOW (k : Nat) : Fld := ⟨A.PINS_PAIR k, 7, 0⟩
abbrev PINS_GRP_CFG_EVT_EN (g : Nat) : Fld := ⟨A.PINS_GRP_CFG g, 31, 31⟩
abbrev PINS_GRP_CFG_VSEL (g : Nat) : Fld := ⟨A.PINS_GRP_CFG g, 30, 30⟩
abbrev PINS_GRP_CFG_EVT_CHAN (g : Nat) : Fld := ⟨A.PINS_GRP_CFG g, 5, 0⟩
abbrev PINS_GRP_STAT_SUPPLY_OK (g : Nat) : Fld := ⟨A.PINS_GRP_STAT g, 31, 31⟩
abbrev PINS_GRP_STAT_PENDING (g : Nat) : Fld := ⟨A.PINS_GRP_STAT g, 28, 24⟩
abbrev PINS_GRP_STAT_CUE_DROP (g : Nat) : Fld := ⟨A.PINS_GRP_STAT g, 15, 8⟩
abbrev PINS_GRP_STAT_EVT_LOST (g : Nat) : Fld := ⟨A.PINS_GRP_STAT g, 7, 0⟩
abbrev PINS_GRP_IRQ_CLR (g : Nat) : Fld := ⟨A.PINS_GRP_IRQ g, 31, 31⟩
abbrev PINS_GRP_IRQ_CUE (g : Nat) : Fld := ⟨A.PINS_GRP_IRQ g, 4, 4⟩
abbrev PINS_GRP_IRQ_TIMING (g : Nat) : Fld := ⟨A.PINS_GRP_IRQ g, 3, 3⟩
abbrev PINS_GRP_IRQ_SUPPLY (g : Nat) : Fld := ⟨A.PINS_GRP_IRQ g, 2, 2⟩
abbrev PINS_GRP_IRQ_RB (g : Nat) : Fld := ⟨A.PINS_GRP_IRQ g, 1, 1⟩
abbrev PINS_GRP_IRQ_EDGE (g : Nat) : Fld := ⟨A.PINS_GRP_IRQ g, 0, 0⟩
abbrev PINS_LEVEL_BITS (k : Nat) : Fld := ⟨A.PINS_LEVEL k, 31, 0⟩
abbrev PINS_RB_BITS (k : Nat) : Fld := ⟨A.PINS_RB k, 31, 0⟩
abbrev PINS_PPS_CFG_SYNC_ONLY : Fld := ⟨A.PINS_PPS_CFG, 31, 31⟩
abbrev PINS_PPS_CFG_WIDTH : Fld := ⟨A.PINS_PPS_CFG, 15, 0⟩
abbrev PINS_PPS_OFS_OFS : Fld := ⟨A.PINS_PPS_OFS, 31, 0⟩
abbrev PINS_IRIG_CFG_TAI_UTC : Fld := ⟨A.PINS_IRIG_CFG, 31, 24⟩
abbrev PINS_IRIG_CFG_LOCAL_MIN : Fld := ⟨A.PINS_IRIG_CFG, 22, 12⟩
abbrev PINS_IRIG_CFG_FORMAT : Fld := ⟨A.PINS_IRIG_CFG, 2, 0⟩
abbrev PINS_IRIG_STAT_VALID : Fld := ⟨A.PINS_IRIG_STAT, 31, 31⟩
abbrev PINS_IRIG_STAT_BAD : Fld := ⟨A.PINS_IRIG_STAT, 23, 16⟩
abbrev PINS_IRIG_STAT_GOOD : Fld := ⟨A.PINS_IRIG_STAT, 15, 0⟩
abbrev UNDERSTUDY_CFG_A_AUTO_GB : Fld := ⟨A.UNDERSTUDY_CFG_A, 31, 31⟩
abbrev UNDERSTUDY_CFG_A_SHADOW_EN : Fld := ⟨A.UNDERSTUDY_CFG_A, 30, 30⟩
abbrev UNDERSTUDY_CFG_A_LAND : Fld := ⟨A.UNDERSTUDY_CFG_A, 21, 16⟩
abbrev UNDERSTUDY_CFG_A_L_LIMIT : Fld := ⟨A.UNDERSTUDY_CFG_A, 7, 4⟩
abbrev UNDERSTUDY_CFG_A_A_LIMIT : Fld := ⟨A.UNDERSTUDY_CFG_A, 3, 0⟩
abbrev UNDERSTUDY_CFG_B_WINDOW : Fld := ⟨A.UNDERSTUDY_CFG_B, 16, 0⟩
abbrev UNDERSTUDY_CFG_C_GB_SETTLE : Fld := ⟨A.UNDERSTUDY_CFG_C, 31, 24⟩
abbrev UNDERSTUDY_CFG_C_ALIVE_FEED : Fld := ⟨A.UNDERSTUDY_CFG_C, 23, 16⟩
abbrev UNDERSTUDY_CFG_C_SHADOW_LIMIT : Fld := ⟨A.UNDERSTUDY_CFG_C, 7, 0⟩
abbrev UNDERSTUDY_CFG_D_READY_OFS : Fld := ⟨A.UNDERSTUDY_CFG_D, 16, 0⟩
abbrev UNDERSTUDY_CTRL_FEED : Fld := ⟨A.UNDERSTUDY_CTRL, 31, 31⟩
abbrev UNDERSTUDY_CTRL_JOIN : Fld := ⟨A.UNDERSTUDY_CTRL, 30, 30⟩
abbrev UNDERSTUDY_CTRL_HANDOVER : Fld := ⟨A.UNDERSTUDY_CTRL, 29, 29⟩
abbrev UNDERSTUDY_CTRL_RESYNC : Fld := ⟨A.UNDERSTUDY_CTRL, 28, 28⟩
abbrev UNDERSTUDY_CTRL_UNPAIR : Fld := ⟨A.UNDERSTUDY_CTRL, 27, 27⟩
abbrev UNDERSTUDY_CTRL_ACK_STALE : Fld := ⟨A.UNDERSTUDY_CTRL, 26, 26⟩
abbrev UNDERSTUDY_STAT_STATE : Fld := ⟨A.UNDERSTUDY_STAT, 31, 29⟩
abbrev UNDERSTUDY_STAT_REASON : Fld := ⟨A.UNDERSTUDY_STAT, 28, 26⟩
abbrev UNDERSTUDY_STAT_LINK_MISS : Fld := ⟨A.UNDERSTUDY_STAT, 23, 20⟩
abbrev UNDERSTUDY_STAT_ALIVE_MISS : Fld := ⟨A.UNDERSTUDY_STAT, 19, 16⟩
abbrev UNDERSTUDY_STAT_EPOCH : Fld := ⟨A.UNDERSTUDY_STAT, 15, 0⟩
abbrev UNDERSTUDY_HEALTH_HEALTH : Fld := ⟨A.UNDERSTUDY_HEALTH, 31, 0⟩
abbrev UNDERSTUDY_PEER_HEALTH_HEALTH : Fld := ⟨A.UNDERSTUDY_PEER_HEALTH, 31, 0⟩
abbrev UNDERSTUDY_APPLIED_LO_A : Fld := ⟨A.UNDERSTUDY_APPLIED_LO, 31, 0⟩
abbrev UNDERSTUDY_APPLIED_HI_A : Fld := ⟨A.UNDERSTUDY_APPLIED_HI, 15, 0⟩
abbrev UNDERSTUDY_XFER_STAT_TRUNC : Fld := ⟨A.UNDERSTUDY_XFER_STAT, 31, 31⟩
abbrev UNDERSTUDY_XFER_STAT_BYTES : Fld := ⟨A.UNDERSTUDY_XFER_STAT, 12, 0⟩
abbrev UNDERSTUDY_CNT_A_TRUNCATED : Fld := ⟨A.UNDERSTUDY_CNT_A, 31, 16⟩
abbrev UNDERSTUDY_CNT_A_SEAL_FAIL : Fld := ⟨A.UNDERSTUDY_CNT_A, 15, 0⟩
abbrev UNDERSTUDY_CNT_B_MISMATCH : Fld := ⟨A.UNDERSTUDY_CNT_B, 31, 16⟩
abbrev UNDERSTUDY_CNT_B_SKIP : Fld := ⟨A.UNDERSTUDY_CNT_B, 15, 0⟩
abbrev UNDERSTUDY_CNT_C_INPUT_DIFF : Fld := ⟨A.UNDERSTUDY_CNT_C, 31, 16⟩
abbrev UNDERSTUDY_CNT_C_GB_ABORT : Fld := ⟨A.UNDERSTUDY_CNT_C, 15, 0⟩
abbrev UNDERSTUDY_HOLD_SET_HOLD : Fld := ⟨A.UNDERSTUDY_HOLD_SET, 31, 0⟩
abbrev UNDERSTUDY_HOLD_CLR_HOLD : Fld := ⟨A.UNDERSTUDY_HOLD_CLR, 31, 0⟩
abbrev UNDERSTUDY_HOLD_HOLD : Fld := ⟨A.UNDERSTUDY_HOLD, 31, 0⟩
abbrev TROUPE_CFG_A_EN : Fld := ⟨A.TROUPE_CFG_A, 31, 31⟩
abbrev TROUPE_CFG_A_VID : Fld := ⟨A.TROUPE_CFG_A, 27, 16⟩
abbrev TROUPE_CFG_A_TROUPE_ID : Fld := ⟨A.TROUPE_CFG_A, 15, 8⟩
abbrev TROUPE_CFG_A_SLOT : Fld := ⟨A.TROUPE_CFG_A, 5, 0⟩
abbrev TROUPE_CFG_B_ROLL_PERIOD : Fld := ⟨A.TROUPE_CFG_B, 31, 16⟩
abbrev TROUPE_CFG_B_HEALTH_PERIOD : Fld := ⟨A.TROUPE_CFG_B, 15, 0⟩
abbrev TROUPE_CFG_C_ALIGN_NS : Fld := ⟨A.TROUPE_CFG_C, 31, 24⟩
abbrev TROUPE_CFG_C_SILENT_LIMIT : Fld := ⟨A.TROUPE_CFG_C, 23, 20⟩
abbrev TROUPE_CFG_C_SUM_SEV : Fld := ⟨A.TROUPE_CFG_C, 10, 8⟩
abbrev TROUPE_CFG_C_ROLL_WAIT : Fld := ⟨A.TROUPE_CFG_C, 7, 0⟩
abbrev TROUPE_STAT_STATE : Fld := ⟨A.TROUPE_STAT, 31, 30⟩
abbrev TROUPE_STAT_DIR_SEEN : Fld := ⟨A.TROUPE_STAT, 29, 29⟩
abbrev TROUPE_STAT_BKEY : Fld := ⟨A.TROUPE_STAT, 28, 28⟩
abbrev TROUPE_STAT_PRESENT : Fld := ⟨A.TROUPE_STAT, 6, 0⟩
abbrev TROUPE_CNT_REFUSED : Fld := ⟨A.TROUPE_CNT, 31, 16⟩
abbrev TROUPE_CNT_SUM_DROP : Fld := ⟨A.TROUPE_CNT, 15, 0⟩
abbrev TROUPE_MEMBER_STATE (s : Nat) : Fld := ⟨A.TROUPE_MEMBER s, 31, 29⟩
abbrev TROUPE_MEMBER_MODE (s : Nat) : Fld := ⟨A.TROUPE_MEMBER s, 28, 26⟩
abbrev TROUPE_MEMBER_KEYS_OK (s : Nat) : Fld := ⟨A.TROUPE_MEMBER s, 25, 25⟩
abbrev TROUPE_MEMBER_AGE (s : Nat) : Fld := ⟨A.TROUPE_MEMBER s, 15, 0⟩
abbrev CHORUS_CFG_CHP : Fld := ⟨A.CHORUS_CFG, 15, 8⟩
abbrev CHORUS_CFG_DMAX : Fld := ⟨A.CHORUS_CFG, 6, 4⟩
abbrev CHORUS_CFG_DMIN : Fld := ⟨A.CHORUS_CFG, 2, 0⟩
abbrev CHORUS_STAT_CORE_FAULT : Fld := ⟨A.CHORUS_STAT, 31, 24⟩
abbrev CHORUS_STAT_BUSY : Fld := ⟨A.CHORUS_STAT, 23, 16⟩
abbrev CHORUS_CNT_FAULTS : Fld := ⟨A.CHORUS_CNT, 31, 16⟩
abbrev CHORUS_CNT_DT_DISAGREE : Fld := ⟨A.CHORUS_CNT, 15, 0⟩
abbrev CHORUS_KEY_IDX_SLOT : Fld := ⟨A.CHORUS_KEY_IDX, 7, 0⟩
abbrev CHORUS_KEY_ATTR_LEN : Fld := ⟨A.CHORUS_KEY_ATTR, 31, 30⟩
abbrev CHORUS_KEY_ATTR_FROM : Fld := ⟨A.CHORUS_KEY_ATTR, 29, 28⟩
abbrev CHORUS_KEY_ATTR_WRAP : Fld := ⟨A.CHORUS_KEY_ATTR, 3, 3⟩
abbrev CHORUS_KEY_ATTR_GATE : Fld := ⟨A.CHORUS_KEY_ATTR, 2, 2⟩
abbrev CHORUS_KEY_ATTR_DEC : Fld := ⟨A.CHORUS_KEY_ATTR, 1, 1⟩
abbrev CHORUS_KEY_ATTR_ENC : Fld := ⟨A.CHORUS_KEY_ATTR, 0, 0⟩
abbrev CHORUS_KEY_USERS_USERS : Fld := ⟨A.CHORUS_KEY_USERS, 31, 0⟩
abbrev CHORUS_KEY_VAL_KEY (k : Nat) : Fld := ⟨A.CHORUS_KEY_VAL k, 31, 0⟩
abbrev CHORUS_KEY_PUSH_PUSH : Fld := ⟨A.CHORUS_KEY_PUSH, 31, 31⟩
abbrev CHORUS_KEY_PUSH_ERASE : Fld := ⟨A.CHORUS_KEY_PUSH, 30, 30⟩
abbrev CHORUS_KEY_STAT_LOADED : Fld := ⟨A.CHORUS_KEY_STAT, 31, 31⟩
abbrev CHORUS_KEY_STAT_LAST_REFUSED : Fld := ⟨A.CHORUS_KEY_STAT, 30, 30⟩
abbrev CHORUS_KEY_STAT_REASON : Fld := ⟨A.CHORUS_KEY_STAT, 27, 24⟩
abbrev CHORUS_KEY_STAT_LEN : Fld := ⟨A.CHORUS_KEY_STAT, 23, 22⟩
abbrev CHORUS_KEY_STAT_USE : Fld := ⟨A.CHORUS_KEY_STAT, 19, 16⟩
abbrev CHORUS_KEY_STAT_LIST_COUNT : Fld := ⟨A.CHORUS_KEY_STAT, 8, 0⟩
abbrev SOLOIST_CFG_FAULT_LIMIT : Fld := ⟨A.SOLOIST_CFG, 7, 0⟩
abbrev SOLOIST_STAT_FAILED : Fld := ⟨A.SOLOIST_STAT, 2, 0⟩
abbrev SOLOIST_CNT_RETRY (s : Nat) : Fld := ⟨A.SOLOIST_CNT s, 31, 16⟩
abbrev SOLOIST_CNT_FAULT (s : Nat) : Fld := ⟨A.SOLOIST_CNT s, 15, 0⟩
abbrev CHORUS_CH_SRC_ADDR (c : Nat) : Fld := ⟨A.CHORUS_CH_SRC c, 31, 0⟩
abbrev CHORUS_CH_DST_ADDR (c : Nat) : Fld := ⟨A.CHORUS_CH_DST c, 31, 0⟩
abbrev CHORUS_CH_XSRC_ADDR (c : Nat) : Fld := ⟨A.CHORUS_CH_XSRC c, 31, 0⟩
abbrev CHORUS_CH_OP_GO (c : Nat) : Fld := ⟨A.CHORUS_CH_OP c, 31, 31⟩
abbrev CHORUS_CH_OP_OP (c : Nat) : Fld := ⟨A.CHORUS_CH_OP c, 27, 24⟩
abbrev CHORUS_CH_OP_SLOT (c : Nat) : Fld := ⟨A.CHORUS_CH_OP c, 23, 16⟩
abbrev CHORUS_CH_OP_NBLK (c : Nat) : Fld := ⟨A.CHORUS_CH_OP c, 12, 0⟩
abbrev CHORUS_CH_STAT_BUSY (c : Nat) : Fld := ⟨A.CHORUS_CH_STAT c, 31, 31⟩
abbrev CHORUS_CH_STAT_QUEUED (c : Nat) : Fld := ⟨A.CHORUS_CH_STAT c, 30, 28⟩
abbrev CHORUS_CH_STAT_STATUS (c : Nat) : Fld := ⟨A.CHORUS_CH_STAT c, 27, 24⟩
abbrev CHORUS_CH_STAT_REQ (c : Nat) : Fld := ⟨A.CHORUS_CH_STAT c, 20, 16⟩
abbrev CHORUS_CH_STAT_BLOCKS (c : Nat) : Fld := ⟨A.CHORUS_CH_STAT c, 12, 0⟩
abbrev CHORUS_CH_DONE_Q_EN (c : Nat) : Fld := ⟨A.CHORUS_CH_DONE_Q c, 31, 31⟩
abbrev CHORUS_CH_DONE_Q_QUEUE (c : Nat) : Fld := ⟨A.CHORUS_CH_DONE_Q c, 17, 0⟩
abbrev CHORUS_CH_GATE_CFG_COMPAT (c : Nat) : Fld := ⟨A.CHORUS_CH_GATE_CFG c, 31, 31⟩
abbrev CHORUS_CH_GATE_CFG_TLEN (c : Nat) : Fld := ⟨A.CHORUS_CH_GATE_CFG c, 29, 28⟩
abbrev CHORUS_CH_VADDR_ADDR (c : Nat) : Fld := ⟨A.CHORUS_CH_VADDR c, 31, 3⟩
abbrev CHORUS_CH_GATE_H_H (c : Nat) (k : Nat) : Fld := ⟨A.CHORUS_CH_GATE_H c k, 31, 0⟩
abbrev CHORUS_CH_GATE_STAT_STATE (c : Nat) : Fld := ⟨A.CHORUS_CH_GATE_STAT c, 31, 29⟩
abbrev CHORUS_CH_GATE_STAT_BYTES (c : Nat) : Fld := ⟨A.CHORUS_CH_GATE_STAT c, 15, 0⟩
abbrev MASSIF_CFG_INV_LIMIT : Fld := ⟨A.MASSIF_CFG, 7, 0⟩
abbrev MASSIF_STAT_BUSY_LONG : Fld := ⟨A.MASSIF_STAT, 31, 31⟩
abbrev MASSIF_STAT_BUSY_SHORT : Fld := ⟨A.MASSIF_STAT, 30, 30⟩
abbrev MASSIF_STAT_BUSY_HASH : Fld := ⟨A.MASSIF_STAT, 29, 29⟩
abbrev MASSIF_STAT_YIELDED : Fld := ⟨A.MASSIF_STAT, 28, 28⟩
abbrev MASSIF_STAT_Q_LONG : Fld := ⟨A.MASSIF_STAT, 27, 24⟩
abbrev MASSIF_STAT_BUS_KEYS : Fld := ⟨A.MASSIF_STAT, 23, 21⟩
abbrev MASSIF_STAT_Q_SHORT : Fld := ⟨A.MASSIF_STAT, 20, 16⟩
abbrev MASSIF_STAT_Q_HASH : Fld := ⟨A.MASSIF_STAT, 13, 8⟩
abbrev MASSIF_CNT_INVARIANT : Fld := ⟨A.MASSIF_CNT, 31, 16⟩
abbrev MASSIF_CNT_DT_DISAGREE : Fld := ⟨A.MASSIF_CNT, 15, 0⟩
abbrev MASSIF_KEY_MAP_LO_LOADED : Fld := ⟨A.MASSIF_KEY_MAP_LO, 31, 0⟩
abbrev MASSIF_KEY_MAP_HI_LOADED : Fld := ⟨A.MASSIF_KEY_MAP_HI, 31, 0⟩
abbrev MASSIF_SUBMIT_ADDR (p : Nat) : Fld := ⟨A.MASSIF_SUBMIT p, 31, 3⟩
abbrev MASSIF_DONE_Q_EN (p : Nat) : Fld := ⟨A.MASSIF_DONE_Q p, 31, 31⟩
abbrev MASSIF_DONE_Q_QUEUE (p : Nat) : Fld := ⟨A.MASSIF_DONE_Q p, 17, 0⟩
abbrev SCREE_CTRL_INST : Fld := ⟨A.SCREE_CTRL, 31, 31⟩
abbrev SCREE_CTRL_RESEED : Fld := ⟨A.SCREE_CTRL, 30, 30⟩
abbrev SCREE_CTRL_CLR_CNT : Fld := ⟨A.SCREE_CTRL, 29, 29⟩
abbrev SCREE_HEALTH_RCT_CUTOFF : Fld := ⟨A.SCREE_HEALTH, 31, 24⟩
abbrev SCREE_HEALTH_MIN_SRC : Fld := ⟨A.SCREE_HEALTH, 23, 20⟩
abbrev SCREE_HEALTH_APT_CUTOFF : Fld := ⟨A.SCREE_HEALTH, 15, 0⟩
abbrev SCREE_DRBG_RESEED_MS : Fld := ⟨A.SCREE_DRBG, 31, 16⟩
abbrev SCREE_DRBG_RESEED_REQ : Fld := ⟨A.SCREE_DRBG, 4, 0⟩
abbrev SCREE_STAT_FAILED : Fld := ⟨A.SCREE_STAT, 31, 31⟩
abbrev SCREE_STAT_TEST : Fld := ⟨A.SCREE_STAT, 30, 30⟩
abbrev SCREE_STAT_CM_STALE : Fld := ⟨A.SCREE_STAT, 29, 29⟩
abbrev SCREE_STAT_INSTANTIATED : Fld := ⟨A.SCREE_STAT, 28, 28⟩
abbrev SCREE_STAT_HEALTHY : Fld := ⟨A.SCREE_STAT, 23, 16⟩
abbrev SCREE_STAT_RETIRED : Fld := ⟨A.SCREE_STAT, 15, 8⟩
abbrev SCREE_CNT_RCT_FAIL : Fld := ⟨A.SCREE_CNT, 31, 16⟩
abbrev SCREE_CNT_APT_FAIL : Fld := ⟨A.SCREE_CNT, 15, 0⟩
abbrev SCREE_PERS_PERS (k : Nat) : Fld := ⟨A.SCREE_PERS k, 31, 0⟩
abbrev SCREE_TEST_EN : Fld := ⟨A.SCREE_TEST, 31, 31⟩
abbrev SCREE_TEST_DATA_DATA : Fld := ⟨A.SCREE_TEST_DATA, 31, 0⟩
abbrev SCREE_RAND_RAND : Fld := ⟨A.SCREE_RAND, 31, 0⟩
abbrev DTAKE_CFG_WINDOW_MS : Fld := ⟨A.DTAKE_CFG, 31, 16⟩
abbrev DTAKE_CFG_LIMIT : Fld := ⟨A.DTAKE_CFG, 7, 0⟩
abbrev DTAKE_GROUP_A_EN (g : Nat) : Fld := ⟨A.DTAKE_GROUP_A g, 31, 31⟩
abbrev DTAKE_GROUP_A_DCORE (g : Nat) : Fld := ⟨A.DTAKE_GROUP_A g, 27, 24⟩
abbrev DTAKE_GROUP_A_DOFS (g : Nat) : Fld := ⟨A.DTAKE_GROUP_A g, 15, 4⟩
abbrev DTAKE_GROUP_B_ACTCHK (g : Nat) : Fld := ⟨A.DTAKE_GROUP_B g, 31, 31⟩
abbrev DTAKE_GROUP_B_ACT_CUE (g : Nat) : Fld := ⟨A.DTAKE_GROUP_B g, 13, 0⟩
abbrev DTAKE_MASK_MASK (g : Nat) : Fld := ⟨A.DTAKE_MASK g, 31, 0⟩
abbrev DTAKE_VERDICT_VERDICT (g : Nat) : Fld := ⟨A.DTAKE_VERDICT g, 31, 29⟩
abbrev DTAKE_VERDICT_FRAME (g : Nat) : Fld := ⟨A.DTAKE_VERDICT g, 15, 0⟩
abbrev DTAKE_WORD_WORD (g : Nat) : Fld := ⟨A.DTAKE_WORD g, 31, 0⟩
abbrev DTAKE_CNT_A_DISAGREE : Fld := ⟨A.DTAKE_CNT_A, 31, 16⟩
abbrev DTAKE_CNT_A_STALE : Fld := ⟨A.DTAKE_CNT_A, 15, 0⟩
abbrev REFUGE_STAT_LATCH : Fld := ⟨A.REFUGE_STAT, 31, 31⟩
abbrev REFUGE_STAT_SHARE_OK : Fld := ⟨A.REFUGE_STAT, 30, 30⟩
abbrev REFUGE_STAT_RTC_OK : Fld := ⟨A.REFUGE_STAT, 29, 29⟩
abbrev REFUGE_STAT_LOST : Fld := ⟨A.REFUGE_STAT, 28, 28⟩
abbrev REFUGE_STAT_CELL_PRESENT : Fld := ⟨A.REFUGE_STAT, 27, 27⟩
abbrev REFUGE_STAT_VBAT_LOW : Fld := ⟨A.REFUGE_STAT, 26, 26⟩
abbrev REFUGE_STAT_NEW : Fld := ⟨A.REFUGE_STAT, 20, 16⟩
abbrev REFUGE_STAT_TOTAL : Fld := ⟨A.REFUGE_STAT, 15, 0⟩
abbrev REFUGE_CFG_LOOP0_EN : Fld := ⟨A.REFUGE_CFG, 31, 31⟩
abbrev REFUGE_CFG_LOOP1_EN : Fld := ⟨A.REFUGE_CFG, 30, 30⟩
abbrev REFUGE_RTC_SEC_SEC : Fld := ⟨A.REFUGE_RTC_SEC, 31, 0⟩
abbrev REFUGE_RTC_SUB_SUB : Fld := ⟨A.REFUGE_RTC_SUB, 14, 0⟩
abbrev REFUGE_RTC_SET_SET : Fld := ⟨A.REFUGE_RTC_SET, 31, 0⟩
abbrev REFUGE_LOG_SEL_SEL : Fld := ⟨A.REFUGE_LOG_SEL, 31, 0⟩
abbrev REFUGE_LOG_DATA_DATA (k : Nat) : Fld := ⟨A.REFUGE_LOG_DATA k, 31, 0⟩
abbrev CURTAIN_STAT_LATCH : Fld := ⟨A.CURTAIN_STAT, 31, 31⟩
abbrev CURTAIN_STAT_CLASS_Z : Fld := ⟨A.CURTAIN_STAT, 30, 30⟩
abbrev CURTAIN_STAT_UNLOCK_BLOCKED : Fld := ⟨A.CURTAIN_STAT, 29, 29⟩
abbrev CURTAIN_STAT_FIRST : Fld := ⟨A.CURTAIN_STAT, 23, 16⟩
abbrev CURTAIN_STAT_ACTIVE : Fld := ⟨A.CURTAIN_STAT, 15, 0⟩
abbrev CURTAIN_CFG_LOCKED : Fld := ⟨A.CURTAIN_CFG, 31, 31⟩
abbrev CURTAIN_CFG_CLASS : Fld := ⟨A.CURTAIN_CFG, 15, 0⟩
abbrev CURTAIN_HIST_HIST : Fld := ⟨A.CURTAIN_HIST, 15, 0⟩
abbrev CURTAIN_WARN_VBAT_LOW : Fld := ⟨A.CURTAIN_WARN, 2, 2⟩
abbrev CURTAIN_WARN_COLD : Fld := ⟨A.CURTAIN_WARN, 1, 1⟩
abbrev CURTAIN_WARN_HOT : Fld := ⟨A.CURTAIN_WARN, 0, 0⟩
abbrev CURTAIN_CHAL_CHAL (k : Nat) : Fld := ⟨A.CURTAIN_CHAL k, 31, 0⟩
abbrev CURTAIN_UNLOCK_STAT_RESULT : Fld := ⟨A.CURTAIN_UNLOCK_STAT, 11, 8⟩
abbrev CURTAIN_UNLOCK_STAT_FAILS : Fld := ⟨A.CURTAIN_UNLOCK_STAT, 7, 0⟩
abbrev BRK_STATUS_BUSY (b : Nat) : Fld := ⟨A.BRK_STATUS b, 31, 31⟩
abbrev BRK_STATUS_SUSPENDED (b : Nat) : Fld := ⟨A.BRK_STATUS b, 30, 30⟩
abbrev BRK_STATUS_WAITING (b : Nat) : Fld := ⟨A.BRK_STATUS b, 29, 29⟩
abbrev BRK_STATUS_SUSP_HIT (b : Nat) : Fld := ⟨A.BRK_STATUS b, 28, 28⟩
abbrev BRK_STATUS_PROG_HIT (b : Nat) : Fld := ⟨A.BRK_STATUS b, 27, 27⟩
abbrev BRK_STATUS_OP (b : Nat) : Fld := ⟨A.BRK_STATUS b, 23, 20⟩
abbrev BRK_STATUS_MASTER (b : Nat) : Fld := ⟨A.BRK_STATUS b, 19, 15⟩
abbrev BRK_STATUS_RESULT (b : Nat) : Fld := ⟨A.BRK_STATUS b, 7, 0⟩
abbrev BRK_FETCH_BANK : Fld := ⟨A.BRK_FETCH, 17, 0⟩
abbrev BRK_CFG_PATROL_EN : Fld := ⟨A.BRK_CFG, 31, 31⟩
abbrev BRK_CFG_CODE_DAYS : Fld := ⟨A.BRK_CFG, 23, 16⟩
abbrev BRK_CFG_DATA_DAYS : Fld := ⟨A.BRK_CFG, 15, 8⟩
abbrev BRK_CFG_REFRESH_CODE : Fld := ⟨A.BRK_CFG, 7, 4⟩
abbrev BRK_CFG_REFRESH_DATA : Fld := ⟨A.BRK_CFG, 3, 0⟩
abbrev BRK_ECC_CE : Fld := ⟨A.BRK_ECC, 31, 16⟩
abbrev BRK_ECC_UE : Fld := ⟨A.BRK_ECC, 15, 0⟩
abbrev BRK_PATROL_POP_V : Fld := ⟨A.BRK_PATROL_POP, 31, 31⟩
abbrev BRK_PATROL_POP_OVF : Fld := ⟨A.BRK_PATROL_POP, 30, 30⟩
abbrev BRK_PATROL_POP_BANK : Fld := ⟨A.BRK_PATROL_POP, 26, 24⟩
abbrev BRK_PATROL_POP_BLOCK : Fld := ⟨A.BRK_PATROL_POP, 23, 16⟩
abbrev BRK_PATROL_POP_MAXBITS : Fld := ⟨A.BRK_PATROL_POP, 3, 0⟩
abbrev BRK_BLOCK_SEL_BANK : Fld := ⟨A.BRK_BLOCK_SEL, 26, 24⟩
abbrev BRK_BLOCK_SEL_BLOCK : Fld := ⟨A.BRK_BLOCK_SEL, 7, 0⟩
abbrev BRK_BLOCK_INFO_ERASES : Fld := ⟨A.BRK_BLOCK_INFO, 31, 16⟩
abbrev BRK_BLOCK_INFO_REFRESHING : Fld := ⟨A.BRK_BLOCK_INFO, 15, 15⟩
abbrev BRK_PAGE_STATE_STATE (k : Nat) : Fld := ⟨A.BRK_PAGE_STATE k, 31, 0⟩
abbrev BRK_UNLOCK_KEY (n : Nat) : Fld := ⟨A.BRK_UNLOCK n, 31, 0⟩
abbrev BRK_ADDR_ADDR (n : Nat) : Fld := ⟨A.BRK_ADDR n, 31, 0⟩
abbrev BRK_SRC_SRC (n : Nat) : Fld := ⟨A.BRK_SRC n, 31, 0⟩
abbrev BRK_CMD_GO (n : Nat) : Fld := ⟨A.BRK_CMD n, 31, 31⟩
abbrev BRK_CMD_OP (n : Nat) : Fld := ⟨A.BRK_CMD n, 3, 0⟩
abbrev BRK_RESULT_PENDING (n : Nat) : Fld := ⟨A.BRK_RESULT n, 31, 31⟩
abbrev BRK_RESULT_RESULT (n : Nat) : Fld := ⟨A.BRK_RESULT n, 7, 0⟩
abbrev HOST_CFG_EN : Fld := ⟨A.HOST_CFG, 31, 31⟩
abbrev HOST_CFG_QUAD_EN : Fld := ⟨A.HOST_CFG, 30, 30⟩
abbrev HOST_CFG_INT_PP : Fld := ⟨A.HOST_CFG, 29, 29⟩
abbrev HOST_CNT_FRAME_ERR : Fld := ⟨A.HOST_CNT, 31, 16⟩
abbrev HOST_CNT_PACKETS : Fld := ⟨A.HOST_CNT, 15, 0⟩
abbrev SYS_CLK_CFG_RECOVERED : Fld := ⟨A.SYS_CLK_CFG, 31, 31⟩
abbrev SYS_CLK_CFG_PORT : Fld := ⟨A.SYS_CLK_CFG, 1, 0⟩
abbrev SYS_CLK_STAT_LOCKED : Fld := ⟨A.SYS_CLK_STAT, 31, 31⟩
abbrev SYS_CLK_STAT_ON_RECOVERED : Fld := ⟨A.SYS_CLK_STAT, 30, 30⟩
abbrev SYS_CLK_STAT_FALLBACKS : Fld := ⟨A.SYS_CLK_STAT, 23, 16⟩
abbrev SYS_CLK_STAT_DIFF : Fld := ⟨A.SYS_CLK_STAT, 15, 0⟩
abbrev SYS_RESET_WARM : Fld := ⟨A.SYS_RESET, 31, 31⟩
abbrev SYS_RESET_STEWARD : Fld := ⟨A.SYS_RESET, 30, 30⟩
abbrev SYS_RESET_CAUSE_STW_RESTARTS : Fld := ⟨A.SYS_RESET_CAUSE, 23, 16⟩
abbrev SYS_RESET_CAUSE_CAUSE : Fld := ⟨A.SYS_RESET_CAUSE, 2, 0⟩
abbrev SYS_BOOT_STAGE : Fld := ⟨A.SYS_BOOT, 31, 28⟩
abbrev SYS_BOOT_SM_COPY : Fld := ⟨A.SYS_BOOT, 27, 27⟩
abbrev SYS_BOOT_CFG_FALLBACK : Fld := ⟨A.SYS_BOOT, 26, 26⟩
abbrev SYS_BOOT_EARLY_OK : Fld := ⟨A.SYS_BOOT, 25, 25⟩
abbrev SYS_BOOT_FULL_OK : Fld := ⟨A.SYS_BOOT, 24, 24⟩
abbrev SYS_BOOT_FULL_SLOT : Fld := ⟨A.SYS_BOOT, 23, 23⟩
abbrev SYS_BOOT_EARLY_HELD : Fld := ⟨A.SYS_BOOT, 22, 22⟩
abbrev SYS_BOOT_ELAPSED : Fld := ⟨A.SYS_BOOT, 15, 0⟩
abbrev PBOOK_CFG_ARCH_EN : Fld := ⟨A.PBOOK_CFG, 31, 31⟩
abbrev PBOOK_CFG_ARCH_S : Fld := ⟨A.PBOOK_CFG, 23, 16⟩
abbrev PBOOK_CFG_IRQ_SEV : Fld := ⟨A.PBOOK_CFG, 10, 8⟩
abbrev PBOOK_CFG_FILL_ALARM : Fld := ⟨A.PBOOK_CFG, 7, 0⟩
abbrev PBOOK_STAT_FILL : Fld := ⟨A.PBOOK_STAT, 28, 16⟩
abbrev PBOOK_STAT_UNARCH : Fld := ⟨A.PBOOK_STAT, 12, 0⟩
abbrev PBOOK_SEQ_SEQ : Fld := ⟨A.PBOOK_SEQ, 31, 0⟩
abbrev PBOOK_ARCH_SEQ_SEQ : Fld := ⟨A.PBOOK_ARCH_SEQ, 31, 0⟩
abbrev PBOOK_DROP_A_OVERWRITTEN : Fld := ⟨A.PBOOK_DROP_A, 31, 16⟩
abbrev PBOOK_DROP_A_DROPPED : Fld := ⟨A.PBOOK_DROP_A, 15, 0⟩
abbrev PBOOK_DROP_B_SUPPRESSED : Fld := ⟨A.PBOOK_DROP_B, 31, 16⟩
abbrev PBOOK_DROP_B_LOST_7 : Fld := ⟨A.PBOOK_DROP_B, 15, 0⟩
abbrev PBOOK_ARCH_BUSY : Fld := ⟨A.PBOOK_ARCH, 31, 31⟩
abbrev PBOOK_ARCH_ERR : Fld := ⟨A.PBOOK_ARCH, 30, 30⟩
abbrev PBOOK_ARCH_BLOCK : Fld := ⟨A.PBOOK_ARCH, 29, 24⟩
abbrev PBOOK_ARCH_PAIR : Fld := ⟨A.PBOOK_ARCH, 23, 20⟩
abbrev PBOOK_CLEAR_GO : Fld := ⟨A.PBOOK_CLEAR, 31, 31⟩
abbrev PBOOK_CLEAR_ARCHIVE : Fld := ⟨A.PBOOK_CLEAR, 30, 30⟩
abbrev PBOOK_CLEAR_UPTO_UPTO : Fld := ⟨A.PBOOK_CLEAR_UPTO, 31, 0⟩
abbrev PBOOK_RATE_WINDOW_MS (c : Nat) : Fld := ⟨A.PBOOK_RATE c, 31, 16⟩
abbrev PBOOK_RATE_BURST (c : Nat) : Fld := ⟨A.PBOOK_RATE c, 7, 0⟩
abbrev PBOOK_CURSOR_CURSOR (r : Nat) : Fld := ⟨A.PBOOK_CURSOR r, 31, 0⟩
abbrev PBOOK_RSTAT_V (r : Nat) : Fld := ⟨A.PBOOK_RSTAT r, 31, 31⟩
abbrev PBOOK_RSTAT_GAP (r : Nat) : Fld := ⟨A.PBOOK_RSTAT r, 30, 30⟩
abbrev PBOOK_REC_REC (r : Nat) (k : Nat) : Fld := ⟨A.PBOOK_REC r k, 31, 0⟩
abbrev OBSERVE_TRACE_CFG_EN : Fld := ⟨A.OBSERVE_TRACE_CFG, 31, 31⟩
abbrev OBSERVE_TRACE_CFG_CORE : Fld := ⟨A.OBSERVE_TRACE_CFG, 11, 8⟩
abbrev OBSERVE_TRACE_CFG_SOURCES : Fld := ⟨A.OBSERVE_TRACE_CFG, 3, 0⟩
abbrev OBSERVE_TRACE_STAT_LOST : Fld := ⟨A.OBSERVE_TRACE_STAT, 31, 15⟩
abbrev OBSERVE_TRACE_STAT_FILL : Fld := ⟨A.OBSERVE_TRACE_STAT, 14, 0⟩
abbrev OBSERVE_CNT_SEL_EVT (k : Nat) : Fld := ⟨A.OBSERVE_CNT_SEL k, 31, 24⟩
abbrev OBSERVE_CNT_SEL_ARG (k : Nat) : Fld := ⟨A.OBSERVE_CNT_SEL k, 21, 16⟩
abbrev OBSERVE_CNT_SEL_THRESH (k : Nat) : Fld := ⟨A.OBSERVE_CNT_SEL k, 15, 0⟩
abbrev OBSERVE_CNT_COUNT (k : Nat) : Fld := ⟨A.OBSERVE_CNT k, 31, 0⟩
abbrev OBSERVE_CNT_CTRL_SNAP : Fld := ⟨A.OBSERVE_CNT_CTRL, 31, 31⟩
abbrev OBSERVE_CNT_CTRL_CLR : Fld := ⟨A.OBSERVE_CNT_CTRL, 30, 30⟩
abbrev BADGE_CFG_READER_EN : Fld := ⟨A.BADGE_CFG, 31, 31⟩
abbrev BADGE_CFG_PING_EN : Fld := ⟨A.BADGE_CFG, 30, 30⟩
abbrev BADGE_CFG_MB_WR : Fld := ⟨A.BADGE_CFG, 29, 29⟩
abbrev BADGE_CFG_PING_MS : Fld := ⟨A.BADGE_CFG, 23, 16⟩
abbrev BADGE_CFG_PING_THRESH : Fld := ⟨A.BADGE_CFG, 15, 8⟩
abbrev BADGE_CFG_RATE_MAX : Fld := ⟨A.BADGE_CFG, 2, 0⟩
abbrev BADGE_STAT_EXT_FIELD : Fld := ⟨A.BADGE_STAT, 31, 31⟩
abbrev BADGE_STAT_SESSION : Fld := ⟨A.BADGE_STAT, 30, 30⟩
abbrev BADGE_STAT_HALTED : Fld := ⟨A.BADGE_STAT, 29, 29⟩
abbrev BADGE_STAT_CARD : Fld := ⟨A.BADGE_STAT, 28, 28⟩
abbrev BADGE_STAT_RECOVERIES : Fld := ⟨A.BADGE_STAT, 23, 16⟩
abbrev BADGE_RD_CTRL_GO : Fld := ⟨A.BADGE_RD_CTRL, 31, 31⟩
abbrev BADGE_RD_CTRL_OP : Fld := ⟨A.BADGE_RD_CTRL, 30, 28⟩
abbrev BADGE_RD_CTRL_RATE : Fld := ⟨A.BADGE_RD_CTRL, 27, 26⟩
abbrev BADGE_RD_CTRL_LEN : Fld := ⟨A.BADGE_RD_CTRL, 8, 0⟩
abbrev BADGE_RD_STAT_BUSY : Fld := ⟨A.BADGE_RD_STAT, 31, 31⟩
abbrev BADGE_RD_STAT_STATUS : Fld := ⟨A.BADGE_RD_STAT, 30, 27⟩
abbrev BADGE_RD_STAT_RATE : Fld := ⟨A.BADGE_RD_STAT, 26, 25⟩
abbrev BADGE_RD_STAT_RX_LEN : Fld := ⟨A.BADGE_RD_STAT, 8, 0⟩
abbrev BADGE_TS_COMMIT_GO : Fld := ⟨A.BADGE_TS_COMMIT, 31, 31⟩
abbrev BADGE_TS_COMMIT_ABORT : Fld := ⟨A.BADGE_TS_COMMIT, 30, 30⟩
abbrev BADGE_TS_COMMIT_MB_MAX : Fld := ⟨A.BADGE_TS_COMMIT, 15, 0⟩
abbrev BADGE_TS_STAT_PENDING : Fld := ⟨A.BADGE_TS_STAT, 31, 31⟩
abbrev BADGE_TS_STAT_PAUSED : Fld := ⟨A.BADGE_TS_STAT, 30, 30⟩
abbrev BADGE_TS_STAT_REFUSED : Fld := ⟨A.BADGE_TS_STAT, 29, 29⟩
abbrev BADGE_TS_STAT_PROGRESS : Fld := ⟨A.BADGE_TS_STAT, 8, 0⟩
abbrev BADGE_TS_GEN_GEN : Fld := ⟨A.BADGE_TS_GEN, 31, 0⟩
abbrev BADGE_TS_MB_MB : Fld := ⟨A.BADGE_TS_MB, 31, 0⟩
abbrev CART_CFG_EN : Fld := ⟨A.CART_CFG, 31, 31⟩
abbrev CART_CFG_CLK_KEEP : Fld := ⟨A.CART_CFG, 30, 30⟩
abbrev CART_CFG_HS_EN : Fld := ⟨A.CART_CFG, 29, 29⟩
abbrev CART_CFG_WIDE_EN : Fld := ⟨A.CART_CFG, 28, 28⟩
abbrev CART_CARD_V (c : Nat) : Fld := ⟨A.CART_CARD c, 31, 31⟩
abbrev CART_CARD_TYPE (c : Nat) : Fld := ⟨A.CART_CARD c, 30, 29⟩
abbrev CART_CARD_PERM_WP (c : Nat) : Fld := ⟨A.CART_CARD c, 28, 28⟩
abbrev CART_CARD_TMP_WP (c : Nat) : Fld := ⟨A.CART_CARD c, 27, 27⟩
abbrev CART_CARD_LOCKED (c : Nat) : Fld := ⟨A.CART_CARD c, 26, 26⟩
abbrev CART_CARD_WIDE (c : Nat) : Fld := ⟨A.CART_CARD c, 25, 25⟩
abbrev CART_CARD_HS (c : Nat) : Fld := ⟨A.CART_CARD c, 24, 24⟩
abbrev CART_CARD_RCA (c : Nat) : Fld := ⟨A.CART_CARD c, 15, 0⟩
abbrev CART_XFER_GO : Fld := ⟨A.CART_XFER, 31, 31⟩
abbrev CART_XFER_OP : Fld := ⟨A.CART_XFER, 30, 28⟩
abbrev CART_XFER_CARD : Fld := ⟨A.CART_XFER, 27, 26⟩
abbrev CART_XFER_BLOCKS : Fld := ⟨A.CART_XFER, 15, 0⟩
abbrev CART_LBA_LBA : Fld := ⟨A.CART_LBA, 31, 0⟩
abbrev CART_BUF_BUF : Fld := ⟨A.CART_BUF, 31, 0⟩
abbrev CART_STAT_BUSY : Fld := ⟨A.CART_STAT, 31, 31⟩
abbrev CART_STAT_PRESENT : Fld := ⟨A.CART_STAT, 30, 30⟩
abbrev CART_STAT_CLK_RUN : Fld := ⟨A.CART_STAT, 29, 29⟩
abbrev CART_STAT_EXTRA : Fld := ⟨A.CART_STAT, 28, 28⟩
abbrev CART_STAT_RESULT : Fld := ⟨A.CART_STAT, 27, 24⟩
abbrev CART_STAT_DONE_BLOCKS : Fld := ⟨A.CART_STAT, 15, 0⟩
abbrev BLOCK_COMMIT_STATUS_PENDING (b : Nat) : Fld := ⟨A.BLOCK_COMMIT_STATUS b, 31, 31⟩
abbrev BLOCK_COMMIT_STATUS_ABORTED (b : Nat) : Fld := ⟨A.BLOCK_COMMIT_STATUS b, 30, 30⟩
abbrev BLOCK_COMMIT_STATUS_PEND_WHEN (b : Nat) : Fld := ⟨A.BLOCK_COMMIT_STATUS b, 29, 28⟩
abbrev BLOCK_COMMIT_STATUS_APPLIED (b : Nat) : Fld := ⟨A.BLOCK_COMMIT_STATUS b, 15, 0⟩
abbrev BLOCK_REFUSED_LIVE_WRITES (b : Nat) : Fld := ⟨A.BLOCK_REFUSED b, 31, 16⟩
abbrev BLOCK_REFUSED_STAGE_WRITES (b : Nat) : Fld := ⟨A.BLOCK_REFUSED b, 15, 0⟩

end F

end Sys2Proof.Machine
end

