-- ==== Sys2Proof/Machine/RegTable.lean ====
section
/-! DEFINITION. The register descriptions as data: for every register its address, its indexes, its reset value and the access code of each
field (R3), written from the register tables of chapters 01 to 19, with the encodings each table reserves (R5). -/

namespace Sys2Proof.Machine

/-- Access codes (R3); `wo` reads as 0. -/
inductive Acc where
  | rw | ro | wo | w1c
  deriving DecidableEq, Repr

/-- One field: its bits, its access code, whether it is staged (ST) or locked by the lifecycle (LK), and the ranges of its
encodings that are not reserved (empty: all of them). -/
structure FDesc where
  hi : Nat
  lo : Nat
  acc : Acc
  st : Bool
  lk : Bool
  legal : List (Nat × Nat)
  deriving DecidableEq, Repr

/-- One register or array of registers: first address, (stride, count) of each index, reset value, fields. -/
structure RDesc where
  name : String
  base : Nat
  idx : List (Nat × Nat)
  reset : Word
  flds : List FDesc
  deriving DecidableEq, Repr

/-- The registers of SYS. -/
def descSYS : List RDesc := [
  ⟨"SYS_STATE", 0x40000000, [], 0x40000081#32, [⟨31, 31, .ro, false, false, []⟩, ⟨30, 30, .ro, false, false, []⟩, ⟨29, 29, .ro, false, false, []⟩, ⟨12, 11, .ro, false, false, []⟩, ⟨10, 9, .ro, false, false, []⟩, ⟨8, 6, .ro, false, false, []⟩, ⟨2, 0, .ro, false, false, []⟩]⟩,
  ⟨"SYS_MODE_REQ", 0x40000004, [], 0x00000000#32, [⟨31, 31, .wo, false, false, []⟩, ⟨23, 16, .ro, false, false, []⟩, ⟨2, 0, .wo, false, false, []⟩]⟩,
  ⟨"SYS_LC_ADV", 0x40001000, [], 0x00000000#32, [⟨31, 16, .wo, false, false, []⟩, ⟨2, 0, .wo, false, false, []⟩]⟩,
  ⟨"SYS_LC_STAT", 0x40001004, [], 0x00000002#32, [⟨31, 31, .ro, false, false, []⟩, ⟨30, 30, .ro, false, false, []⟩, ⟨29, 29, .w1c, false, false, []⟩, ⟨2, 0, .ro, false, false, []⟩]⟩,
  ⟨"SYS_CLK_CFG", 0x40000020, [], 0x00000000#32, [⟨31, 31, .rw, false, false, []⟩, ⟨1, 0, .rw, false, false, []⟩]⟩,
  ⟨"SYS_CLK_STAT", 0x40000024, [], 0x80000000#32, [⟨31, 31, .ro, false, false, []⟩, ⟨30, 30, .ro, false, false, []⟩, ⟨23, 16, .ro, false, false, []⟩, ⟨15, 0, .ro, false, false, []⟩]⟩,
  ⟨"SYS_RESET", 0x40000010, [], 0x00000000#32, [⟨31, 31, .wo, false, false, []⟩, ⟨30, 30, .wo, false, false, []⟩]⟩,
  ⟨"SYS_RESET_CAUSE", 0x40000014, [], 0x00000000#32, [⟨23, 16, .ro, false, false, []⟩, ⟨2, 0, .ro, false, false, []⟩]⟩,
  ⟨"SYS_BOOT", 0x40000030, [], 0x00000000#32, [⟨31, 28, .rw, false, false, [(0, 6), (14, 15)]⟩, ⟨27, 27, .rw, false, false, []⟩, ⟨26, 26, .rw, false, false, []⟩, ⟨25, 25, .rw, false, false, []⟩, ⟨24, 24, .rw, false, false, []⟩, ⟨23, 23, .rw, false, false, []⟩, ⟨22, 22, .rw, false, false, []⟩, ⟨15, 0, .rw, false, false, []⟩]⟩]

/-- The registers of STIME. -/
def descSTIME : List RDesc := [
  ⟨"STIME_NOW_LO", 0x40050000, [], 0x00000000#32, [⟨31, 0, .ro, false, false, []⟩]⟩,
  ⟨"STIME_NOW_HI", 0x40050004, [], 0x00000000#32, [⟨31, 0, .ro, false, false, []⟩]⟩,
  ⟨"STIME_CTRL", 0x40050010, [], 0x00000000#32, [⟨31, 31, .wo, false, false, []⟩, ⟨4, 4, .rw, false, false, []⟩, ⟨1, 0, .rw, false, false, []⟩]⟩,
  ⟨"STIME_STATE", 0x40050014, [], 0x00000000#32, [⟨31, 31, .ro, false, false, []⟩, ⟨30, 30, .ro, false, false, []⟩, ⟨29, 29, .w1c, false, false, []⟩, ⟨26, 24, .ro, false, false, []⟩, ⟨18, 3, .ro, false, false, []⟩, ⟨2, 0, .ro, false, false, []⟩]⟩,
  ⟨"STIME_OFFSET", 0x40050018, [], 0x00000000#32, [⟨31, 0, .ro, false, false, []⟩]⟩,
  ⟨"STIME_COARSE_LO", 0x40050038, [], 0x00000000#32, [⟨31, 0, .ro, false, false, []⟩]⟩,
  ⟨"STIME_COARSE_HI", 0x4005003C, [], 0x00000000#32, [⟨31, 0, .ro, false, false, []⟩]⟩,
  ⟨"STIME_RATE", 0x4005001C, [], 0x00000000#32, [⟨31, 0, .ro, false, false, []⟩]⟩,
  ⟨"STIME_SERVO", 0x40050020, [], 0x32000402#32, [⟨31, 24, .rw, false, false, []⟩, ⟨11, 8, .rw, false, false, []⟩, ⟨3, 0, .rw, false, false, []⟩]⟩,
  ⟨"STIME_LOCK", 0x40050024, [], 0xC8080014#32, [⟨31, 24, .rw, false, false, []⟩, ⟨23, 16, .rw, false, false, []⟩, ⟨7, 0, .rw, false, false, []⟩]⟩,
  ⟨"STIME_HOLD", 0x40050028, [], 0x00140BB8#32, [⟨31, 16, .rw, false, false, []⟩, ⟨15, 0, .rw, false, false, []⟩]⟩,
  ⟨"STIME_STEP_THRESH", 0x4005002C, [], 0x00002710#32, [⟨23, 0, .rw, false, false, []⟩]⟩,
  ⟨"STIME_STEP_LO", 0x40050030, [], 0x00000000#32, [⟨31, 0, .rw, false, false, []⟩]⟩,
  ⟨"STIME_STEP_HI", 0x40050034, [], 0x00000000#32, [⟨31, 0, .rw, false, false, []⟩]⟩,
  ⟨"STIME_CALL_LO", 0x40050040, [], 0x00000000#32, [⟨31, 0, .rw, true, false, []⟩]⟩,
  ⟨"STIME_CALL_HI", 0x40050044, [], 0x00000000#32, [⟨31, 0, .rw, true, false, []⟩]⟩,
  ⟨"STIME_FRAME_CFG", 0x40050048, [], 0x00000000#32, [⟨1, 0, .rw, true, false, []⟩]⟩,
  ⟨"STIME_FRAME_LO", 0x40050050, [], 0x00000000#32, [⟨31, 0, .ro, false, false, []⟩]⟩,
  ⟨"STIME_FRAME_HI", 0x40050054, [], 0x00000000#32, [⟨31, 31, .ro, false, false, []⟩, ⟨15, 0, .ro, false, false, []⟩]⟩,
  ⟨"STIME_FRAME_ACC", 0x40050058, [], 0x00000000#32, [⟨31, 31, .ro, false, false, []⟩, ⟨13, 0, .ro, false, false, []⟩]⟩]

/-- The registers of CUE. -/
def descCUE : List RDesc := [
  ⟨"CUE_CTRL", 0x40040000, [], 0x00000000#32, [⟨8, 8, .wo, false, false, []⟩, ⟨0, 0, .rw, false, false, []⟩]⟩,
  ⟨"CUE_STAT", 0x40040004, [], 0x00000000#32, [⟨28, 16, .ro, false, false, []⟩, ⟨10, 0, .ro, false, false, []⟩]⟩,
  ⟨"CUE_CNT_A", 0x40040008, [], 0x00000000#32, [⟨31, 16, .ro, false, false, []⟩, ⟨15, 0, .ro, false, false, []⟩]⟩,
  ⟨"CUE_CNT_B", 0x4004000C, [], 0x00000000#32, [⟨31, 16, .ro, false, false, []⟩, ⟨15, 0, .ro, false, false, []⟩]⟩,
  ⟨"CUE_CNT_C", 0x40040010, [], 0x00000000#32, [⟨31, 16, .ro, false, false, []⟩, ⟨15, 0, .ro, false, false, []⟩]⟩,
  ⟨"CUE_TKT_CFG", 0x40040014, [], 0x00000004#32, [⟨31, 31, .rw, false, false, []⟩, ⟨25, 8, .rw, false, false, []⟩, ⟨7, 0, .rw, false, false, []⟩]⟩,
  ⟨"CUE_EDIT_W", 0x40041000, [(0x4, 4)], 0x00000000#32, [⟨31, 0, .rw, true, false, []⟩]⟩,
  ⟨"CUE_EDIT_PUSH", 0x40041010, [], 0x00000000#32, [⟨31, 31, .wo, false, false, []⟩, ⟨30, 30, .wo, false, false, []⟩, ⟨13, 0, .wo, false, false, []⟩]⟩,
  ⟨"CUE_EDIT_STAT", 0x40041014, [], 0x00000000#32, [⟨31, 31, .ro, false, false, []⟩, ⟨27, 24, .ro, false, false, []⟩, ⟨8, 0, .ro, false, false, []⟩]⟩,
  ⟨"CUE_LOAD_IDX", 0x40041020, [], 0x00000000#32, [⟨17, 16, .rw, false, false, []⟩, ⟨13, 0, .rw, false, false, []⟩]⟩,
  ⟨"CUE_LOAD_DATA", 0x40041024, [], 0x00000000#32, [⟨31, 0, .rw, false, false, []⟩]⟩,
  ⟨"CUE_TICKET_DONE", 0x40042000, [], 0x00000000#32, [⟨31, 28, .wo, false, false, []⟩, ⟨9, 0, .wo, false, false, []⟩]⟩,
  ⟨"CUE_SRC_TICKET", 0x40042100, [(0x4, 24)], 0x00000000#32, [⟨31, 31, .ro, false, false, []⟩, ⟨9, 0, .ro, false, false, []⟩]⟩]

/-- The registers of SP0 to SP3. -/
def descSP : List RDesc := [
  ⟨"SP_LINK_CFG", 0x40060000, [(0x10000, 4)], 0x00000000#32, [⟨4, 4, .rw, false, false, []⟩, ⟨2, 0, .rw, false, false, [(0, 4)]⟩]⟩,
  ⟨"SP_LINK_STAT", 0x40060004, [(0x10000, 4)], 0x00000000#32, [⟨31, 31, .ro, false, false, []⟩, ⟨30, 30, .ro, false, false, []⟩, ⟨29, 29, .ro, false, false, []⟩, ⟨28, 28, .ro, false, false, []⟩, ⟨23, 16, .ro, false, false, []⟩, ⟨2, 0, .ro, false, false, []⟩]⟩,
  ⟨"SP_SERDES", 0x40060008, [(0x10000, 4)], 0x00802800#32, [⟨31, 31, .rw, false, false, []⟩, ⟨30, 30, .rw, false, false, []⟩, ⟨23, 20, .rw, false, false, []⟩, ⟨19, 16, .rw, false, false, [(0, 7)]⟩, ⟨15, 12, .rw, false, false, []⟩, ⟨11, 11, .rw, false, false, []⟩, ⟨4, 0, .rw, false, false, []⟩]⟩,
  ⟨"SP_MAC_LO", 0x40060018, [(0x10000, 4)], 0x00000000#32, [⟨31, 0, .rw, false, false, []⟩]⟩,
  ⟨"SP_MAC_HI", 0x4006001C, [(0x10000, 4)], 0x00000000#32, [⟨15, 0, .rw, false, false, []⟩]⟩,
  ⟨"SP_TXQ", 0x40060400, [(0x10000, 4), (0x4, 7)], 0x00000000#32, [⟨31, 31, .rw, false, false, []⟩, ⟨17, 0, .rw, false, false, []⟩]⟩,
  ⟨"SP_TS_ADJ", 0x4006000C, [(0x10000, 4)], 0x00000000#32, [⟨31, 16, .rw, false, false, []⟩, ⟨15, 0, .rw, false, false, []⟩]⟩,
  ⟨"SP_CNT_CTRL", 0x40060010, [(0x10000, 4)], 0x00000000#32, [⟨31, 31, .wo, false, false, []⟩, ⟨30, 30, .wo, false, false, []⟩]⟩,
  ⟨"SP_ALARM_MASK", 0x40060014, [(0x10000, 4)], 0x00006800#32, [⟨21, 1, .rw, false, false, []⟩]⟩,
  ⟨"SP_RX_FRAMES", 0x40060100, [(0x10000, 4)], 0x00000000#32, [⟨31, 0, .ro, false, false, []⟩]⟩,
  ⟨"SP_RX_BYTES", 0x40060104, [(0x10000, 4)], 0x00000000#32, [⟨31, 0, .ro, false, false, []⟩]⟩,
  ⟨"SP_AUTH_PASS", 0x40060108, [(0x10000, 4)], 0x00000000#32, [⟨31, 0, .ro, false, false, []⟩]⟩,
  ⟨"SP_TX_FRAMES", 0x4006010C, [(0x10000, 4)], 0x00000000#32, [⟨31, 0, .ro, false, false, []⟩]⟩,
  ⟨"SP_TX_BYTES", 0x40060110, [(0x10000, 4)], 0x00000000#32, [⟨31, 0, .ro, false, false, []⟩]⟩,
  ⟨"SP_REL_LATE", 0x40060114, [(0x10000, 4)], 0x00000000#32, [⟨31, 0, .ro, false, false, []⟩]⟩,
  ⟨"SP_DROP", 0x40060200, [(0x10000, 4), (0x4, 32)], 0x00000000#32, [⟨31, 0, .ro, false, false, []⟩]⟩,
  ⟨"SP_TXDROP", 0x40060300, [(0x10000, 4), (0x4, 8)], 0x00000000#32, [⟨31, 0, .ro, false, false, []⟩]⟩]

/-- The registers of SOLOIST. -/
def descSOLOIST : List RDesc := [
  ⟨"SOLOIST_KEY_IDX", 0x400E1000, [], 0x00000000#32, [⟨16, 16, .rw, false, false, []⟩, ⟨11, 0, .rw, false, false, []⟩]⟩,
  ⟨"SOLOIST_KEY_KID", 0x400E1004, [], 0x00000000#32, [⟨31, 0, .rw, true, false, []⟩]⟩,
  ⟨"SOLOIST_KEY_ATTR", 0x400E1008, [], 0x00000000#32, [⟨31, 31, .rw, true, false, []⟩, ⟨15, 0, .rw, true, false, []⟩]⟩,
  ⟨"SOLOIST_KEY_VAL", 0x400E1010, [(0x4, 8)], 0x00000000#32, [⟨31, 0, .wo, true, false, []⟩]⟩,
  ⟨"SOLOIST_KEY_CHG_LO", 0x400E1030, [], 0x00000000#32, [⟨31, 0, .rw, true, false, []⟩]⟩,
  ⟨"SOLOIST_KEY_CHG_HI", 0x400E1034, [], 0x00000000#32, [⟨15, 0, .rw, true, false, []⟩]⟩,
  ⟨"SOLOIST_KEY_PUSH", 0x400E1040, [], 0x00000000#32, [⟨31, 31, .wo, false, false, []⟩, ⟨30, 30, .wo, false, false, []⟩]⟩,
  ⟨"SOLOIST_KEY_STAT", 0x400E1044, [], 0x00000000#32, [⟨31, 30, .ro, false, false, []⟩, ⟨29, 29, .ro, false, false, []⟩, ⟨27, 24, .ro, false, false, []⟩, ⟨8, 0, .ro, false, false, []⟩]⟩,
  ⟨"SOLOIST_KEY_CUR_KID", 0x400E1048, [], 0x00000000#32, [⟨31, 0, .ro, false, false, []⟩]⟩,
  ⟨"SOLOIST_KEY_OTHER_KID", 0x400E104C, [], 0x00000000#32, [⟨31, 0, .ro, false, false, []⟩]⟩,
  ⟨"SOLOIST_CFG", 0x400E0000, [], 0x00000004#32, [⟨7, 0, .rw, false, false, []⟩]⟩,
  ⟨"SOLOIST_STAT", 0x400E0004, [], 0x00000000#32, [⟨2, 0, .ro, false, false, []⟩]⟩,
  ⟨"SOLOIST_CNT", 0x400E0010, [(0x4, 3)], 0x00000000#32, [⟨31, 16, .ro, false, false, []⟩, ⟨15, 0, .ro, false, false, []⟩]⟩]

/-- The registers of SWITCH. -/
def descSWITCH : List RDesc := [
  ⟨"SWITCH_RED_CFG", 0x400A0000, [(0x4, 2)], 0x00140190#32, [⟨31, 30, .rw, false, false, [(0, 2)]⟩, ⟨23, 16, .rw, false, false, []⟩, ⟨15, 0, .rw, false, false, []⟩]⟩,
  ⟨"SWITCH_RED_STAT", 0x400A0008, [], 0x00000000#32, [⟨31, 31, .ro, false, false, []⟩, ⟨28, 16, .ro, false, false, []⟩, ⟨15, 15, .ro, false, false, []⟩, ⟨12, 0, .ro, false, false, []⟩]⟩,
  ⟨"SWITCH_DD_EVICT", 0x400A000C, [], 0x00000000#32, [⟨31, 16, .ro, false, false, []⟩, ⟨15, 0, .ro, false, false, []⟩]⟩,
  ⟨"SWITCH_PCP_MAP", 0x400A0010, [], 0x00FAC688#32, [⟨23, 0, .rw, false, false, []⟩]⟩,
  ⟨"SWITCH_GUARD", 0x400A0100, [(0x20, 4), (0x4, 8)], 0x00000000#32, [⟨31, 31, .rw, false, false, []⟩, ⟨30, 14, .rw, false, false, []⟩, ⟨13, 0, .rw, false, false, []⟩]⟩,
  ⟨"SWITCH_PTP_CFG", 0x400A0020, [], 0x00000000#32, [⟨31, 31, .rw, false, false, []⟩, ⟨30, 29, .rw, false, false, [(0, 2)]⟩, ⟨28, 28, .rw, false, false, []⟩, ⟨27, 26, .rw, false, false, [(0, 1)]⟩, ⟨15, 8, .rw, false, false, []⟩, ⟨3, 0, .rw, false, false, [(0, 0), (12, 15)]⟩]⟩,
  ⟨"SWITCH_PTP_PORT", 0x400A0024, [], 0x00000000#32, [⟨7, 0, .rw, false, false, []⟩]⟩,
  ⟨"SWITCH_PTP_STAT", 0x400A0028, [], 0x00000000#32, [⟨31, 24, .ro, false, false, []⟩, ⟨23, 0, .ro, false, false, []⟩]⟩,
  ⟨"SWITCH_EDIT_W", 0x400A0C00, [(0x4, 4)], 0x00000000#32, [⟨31, 0, .rw, true, false, []⟩]⟩,
  ⟨"SWITCH_EDIT_PUSH", 0x400A0C10, [], 0x00000000#32, [⟨31, 31, .wo, false, false, []⟩, ⟨30, 30, .wo, false, false, []⟩, ⟨29, 27, .wo, false, false, []⟩, ⟨13, 0, .wo, false, false, []⟩]⟩,
  ⟨"SWITCH_EDIT_STAT", 0x400A0C14, [], 0x00000000#32, [⟨31, 31, .ro, false, false, []⟩, ⟨27, 24, .ro, false, false, []⟩, ⟨8, 0, .ro, false, false, []⟩]⟩,
  ⟨"SWITCH_READ_SEL", 0x400A0C20, [], 0x00000000#32, [⟨29, 27, .rw, false, false, []⟩, ⟨17, 16, .rw, false, false, []⟩, ⟨13, 0, .rw, false, false, []⟩]⟩,
  ⟨"SWITCH_READ_DATA", 0x400A0C24, [], 0x00000000#32, [⟨31, 0, .ro, false, false, []⟩]⟩]

/-- The registers of WINGS. -/
def descWINGS : List RDesc := [
  ⟨"WINGS_PROFILE_PM", 0x40030000, [(0x8, 64)], 0x00000000#32, [⟨31, 0, .rw, false, false, []⟩]⟩,
  ⟨"WINGS_PROFILE_CM", 0x40030004, [(0x8, 64)], 0x00000000#32, [⟨31, 0, .rw, false, false, []⟩]⟩,
  ⟨"WINGS_NOTIFY_POP", 0x40030400, [(0x4, 32)], 0x00000000#32, [⟨31, 31, .ro, false, false, []⟩, ⟨30, 30, .ro, false, false, []⟩, ⟨17, 0, .ro, false, false, []⟩]⟩,
  ⟨"WINGS_ERR_A", 0x40030500, [], 0x00000000#32, [⟨31, 16, .ro, false, false, []⟩, ⟨15, 0, .ro, false, false, []⟩]⟩,
  ⟨"WINGS_ERR_B", 0x40030504, [], 0x00000000#32, [⟨31, 16, .ro, false, false, []⟩, ⟨15, 0, .ro, false, false, []⟩]⟩,
  ⟨"WINGS_ERR_CLR", 0x40030508, [], 0x00000000#32, [⟨31, 31, .wo, false, false, []⟩]⟩]

/-- The registers of ENSEMBLE. -/
def descENSEMBLE : List RDesc := [
  ⟨"ENSEMBLE_SEL", 0x400B0000, [], 0x00000000#32, [⟨31, 31, .wo, false, false, []⟩, ⟨7, 0, .rw, false, false, []⟩]⟩,
  ⟨"ENSEMBLE_CFG_A", 0x400B0004, [], 0x00000000#32, [⟨31, 31, .rw, true, false, []⟩, ⟨30, 29, .rw, true, false, [(0, 2)]⟩, ⟨28, 28, .rw, true, false, []⟩, ⟨27, 27, .rw, true, false, []⟩, ⟨26, 26, .rw, true, false, []⟩, ⟨23, 20, .rw, true, false, [(0, 8)]⟩, ⟨14, 8, .rw, true, false, []⟩, ⟨4, 0, .rw, true, false, []⟩]⟩,
  ⟨"ENSEMBLE_CFG_B", 0x400B0008, [], 0x00000000#32, [⟨31, 16, .rw, true, false, []⟩, ⟨15, 6, .rw, true, false, []⟩]⟩,
  ⟨"ENSEMBLE_CFG_C", 0x400B000C, [], 0x00000000#32, [⟨31, 30, .rw, true, false, [(0, 2)]⟩, ⟨13, 0, .rw, true, false, []⟩]⟩,
  ⟨"ENSEMBLE_MEMBER", 0x400B0100, [(0x4, 64)], 0x00000000#32, [⟨17, 0, .rw, true, false, []⟩]⟩,
  ⟨"ENSEMBLE_STAT_A", 0x400B0010, [], 0x00000000#32, [⟨31, 16, .ro, false, false, []⟩, ⟨15, 0, .ro, false, false, []⟩]⟩,
  ⟨"ENSEMBLE_STAT_B", 0x400B0014, [], 0x00000000#32, [⟨31, 16, .ro, false, false, []⟩, ⟨15, 0, .ro, false, false, []⟩]⟩]

/-- The registers of PACKER. -/
def descPACKER : List RDesc := [
  ⟨"PACKER_CFG", 0x400C0000, [(0x20, 48)], 0x00000000#32, [⟨31, 31, .rw, true, false, []⟩, ⟨30, 28, .rw, true, false, [(0, 6)]⟩, ⟨25, 18, .rw, true, false, []⟩, ⟨17, 0, .rw, true, false, []⟩]⟩,
  ⟨"PACKER_BASE", 0x400C0004, [(0x20, 48)], 0x00000000#32, [⟨31, 6, .rw, true, false, []⟩]⟩,
  ⟨"PACKER_CTRL", 0x400C0008, [(0x20, 48)], 0x00000000#32, [⟨31, 31, .wo, false, false, []⟩, ⟨30, 30, .wo, false, false, []⟩, ⟨29, 29, .wo, false, false, []⟩]⟩,
  ⟨"PACKER_STAT", 0x400C000C, [(0x20, 48)], 0x00000000#32, [⟨31, 31, .ro, false, false, []⟩, ⟨30, 30, .ro, false, false, []⟩, ⟨14, 0, .ro, false, false, []⟩]⟩,
  ⟨"PACKER_CNT_A", 0x400C0010, [(0x20, 48)], 0x00000000#32, [⟨31, 16, .ro, false, false, []⟩, ⟨15, 0, .ro, false, false, []⟩]⟩,
  ⟨"PACKER_CNT_B", 0x400C0014, [(0x20, 48)], 0x00000000#32, [⟨31, 16, .ro, false, false, []⟩, ⟨15, 0, .ro, false, false, []⟩]⟩]

/-- The registers of IRQ. -/
def descIRQ : List RDesc := [
  ⟨"IRQ_ROUTE", 0x401B0000, [(0x4, 256)], 0x0000081F#32, [⟨11, 8, .rw, false, false, [(0, 8)]⟩, ⟨4, 0, .rw, false, false, []⟩]⟩,
  ⟨"IRQ_PEND", 0x401B0400, [(0x4, 8)], 0x00000000#32, [⟨31, 0, .w1c, false, false, []⟩]⟩,
  ⟨"IRQ_CORE_STAT", 0x401B0500, [(0x8, 8)], 0x00000000#32, [⟨31, 31, .ro, false, false, []⟩, ⟨30, 30, .ro, false, false, []⟩, ⟨13, 8, .ro, false, false, []⟩, ⟨5, 0, .ro, false, false, []⟩]⟩,
  ⟨"IRQ_CORE_CTRL", 0x401B0504, [(0x8, 8)], 0x00000000#32, [⟨31, 31, .rw, false, false, []⟩, ⟨30, 30, .wo, false, false, []⟩, ⟨29, 0, .rw, false, false, []⟩]⟩,
  ⟨"IRQ_CLAIM", 0x401B1000, [(0x1000, 9)], 0x00000000#32, [⟨31, 31, .ro, false, false, []⟩, ⟨7, 0, .ro, false, false, []⟩]⟩,
  ⟨"IRQ_ACK", 0x401B1004, [(0x1000, 9)], 0x00000000#32, [⟨7, 0, .wo, false, false, []⟩]⟩,
  ⟨"IRQ_DOORBELL", 0x401BA000, [], 0x00000000#32, [⟨31, 0, .wo, false, false, []⟩]⟩,
  ⟨"IRQ_LATE_POP", 0x401B1010, [(0x1000, 9)], 0x00000000#32, [⟨31, 31, .ro, false, false, []⟩, ⟨30, 30, .ro, false, false, []⟩, ⟨29, 29, .ro, false, false, []⟩, ⟨28, 24, .ro, false, false, []⟩, ⟨23, 20, .ro, false, false, []⟩, ⟨19, 18, .ro, false, false, []⟩, ⟨15, 0, .ro, false, false, []⟩]⟩,
  ⟨"IRQ_LATE_ADDR", 0x401B1014, [(0x1000, 9)], 0x00000000#32, [⟨31, 0, .ro, false, false, []⟩]⟩]

/-- The registers of TERRACE. -/
def descTERRACE : List RDesc := [
  ⟨"TERRACE_BANK", 0x40020000, [(0x4, 64)], 0x00000000#32, [⟨31, 30, .rw, true, false, [(0, 2)]⟩, ⟨29, 29, .rw, true, false, []⟩, ⟨28, 28, .rw, true, false, []⟩, ⟨20, 16, .rw, true, false, [(0, 24)]⟩]⟩,
  ⟨"TERRACE_BANK_LIVE", 0x40020100, [(0x4, 64)], 0x80000002#32, [⟨31, 16, .ro, false, false, []⟩, ⟨3, 3, .ro, false, false, []⟩, ⟨2, 0, .ro, false, false, []⟩]⟩,
  ⟨"TERRACE_DIRTY_STAT", 0x40020200, [], 0x00000000#32, [⟨31, 14, .ro, false, false, []⟩, ⟨13, 0, .ro, false, false, []⟩]⟩,
  ⟨"TERRACE_DIRTY_CNT", 0x40020204, [], 0x00000000#32, [⟨31, 16, .ro, false, false, []⟩, ⟨15, 0, .ro, false, false, []⟩]⟩,
  ⟨"TERRACE_CFG", 0x40020208, [], 0x00000020#32, [⟨31, 16, .rw, false, false, []⟩, ⟨7, 0, .rw, false, false, []⟩]⟩,
  ⟨"TERRACE_CNT_CTRL", 0x4002020C, [], 0x00000000#32, [⟨31, 31, .wo, false, false, []⟩, ⟨30, 30, .wo, false, false, []⟩]⟩,
  ⟨"TERRACE_CONFLICT", 0x40020300, [(0x4, 25)], 0x00000000#32, [⟨31, 0, .ro, false, false, []⟩]⟩,
  ⟨"TERRACE_ECC_STAT", 0x40020210, [], 0x00000000#32, [⟨31, 16, .ro, false, false, []⟩, ⟨15, 0, .ro, false, false, []⟩]⟩,
  ⟨"TERRACE_ECC_ADDR", 0x40020214, [], 0x00000000#32, [⟨31, 0, .ro, false, false, []⟩]⟩,
  ⟨"TERRACE_ECC_INFO", 0x40020218, [], 0x00000000#32, [⟨5, 5, .ro, false, false, []⟩, ⟨4, 0, .ro, false, false, []⟩]⟩]

/-- The registers of COL. -/
def descCOL : List RDesc := [
  ⟨"COL_TRUNK_BANK_RMASK", 0x40010000, [(0x8, 64)], 0x00000100#32, [⟨31, 0, .rw, true, false, []⟩]⟩,
  ⟨"COL_TRUNK_BANK_WMASK", 0x40010004, [(0x8, 64)], 0x00000100#32, [⟨31, 0, .rw, true, false, []⟩]⟩,
  ⟨"COL_TRUNK_REG_W0", 0x40010200, [(0x10, 64)], 0x00000000#32, [⟨31, 6, .rw, true, false, []⟩, ⟨5, 5, .rw, true, false, []⟩, ⟨4, 0, .rw, true, false, []⟩]⟩,
  ⟨"COL_TRUNK_REG_W1", 0x40010204, [(0x10, 64)], 0x00000000#32, [⟨31, 0, .rw, true, false, []⟩]⟩,
  ⟨"COL_TRUNK_REG_W2", 0x40010208, [(0x10, 64)], 0x00000000#32, [⟨31, 0, .rw, true, false, []⟩]⟩,
  ⟨"COL_LEAF_REG_W0", 0x40011000, [(0x80, 51), (0x10, 8)], 0x00000000#32, [⟨31, 6, .rw, true, false, []⟩, ⟨5, 5, .rw, true, false, []⟩, ⟨4, 0, .rw, true, false, []⟩]⟩,
  ⟨"COL_LEAF_REG_W1", 0x40011004, [(0x80, 51), (0x10, 8)], 0x00000000#32, [⟨31, 0, .rw, true, false, []⟩]⟩,
  ⟨"COL_LEAF_REG_W2", 0x40011008, [(0x80, 51), (0x10, 8)], 0x00000000#32, [⟨31, 0, .rw, true, false, []⟩]⟩,
  ⟨"COL_BED_REG_W0", 0x40013000, [(0x10, 32)], 0x00000000#32, [⟨31, 6, .rw, true, false, []⟩, ⟨5, 5, .rw, true, false, []⟩, ⟨4, 0, .rw, true, false, []⟩]⟩,
  ⟨"COL_BED_REG_W1", 0x40013004, [(0x10, 32)], 0x00000000#32, [⟨31, 0, .rw, true, false, []⟩]⟩,
  ⟨"COL_BED_REG_W2", 0x40013008, [(0x10, 32)], 0x00000000#32, [⟨31, 0, .rw, true, false, []⟩]⟩,
  ⟨"COL_LEAF_DEF_RMASK", 0x40010800, [(0x8, 51)], 0x00000100#32, [⟨31, 0, .rw, true, false, []⟩]⟩,
  ⟨"COL_LEAF_DEF_WMASK", 0x40010804, [(0x8, 51)], 0x00000100#32, [⟨31, 0, .rw, true, false, []⟩]⟩,
  ⟨"COL_BED_DEF_RMASK", 0x40013200, [], 0x00000100#32, [⟨31, 0, .rw, true, false, []⟩]⟩,
  ⟨"COL_BED_DEF_WMASK", 0x40013204, [], 0x00000100#32, [⟨31, 0, .rw, true, false, []⟩]⟩,
  ⟨"COL_VIOL_POP", 0x40014000, [], 0x00000000#32, [⟨31, 31, .ro, false, false, []⟩, ⟨30, 30, .ro, false, false, []⟩, ⟨29, 28, .ro, false, false, []⟩, ⟨27, 22, .ro, false, false, []⟩, ⟨21, 21, .ro, false, false, []⟩, ⟨20, 19, .ro, false, false, []⟩, ⟨18, 18, .ro, false, false, []⟩, ⟨17, 13, .ro, false, false, []⟩, ⟨12, 6, .ro, false, false, []⟩, ⟨5, 5, .ro, false, false, []⟩]⟩,
  ⟨"COL_VIOL_ADDR", 0x40014004, [], 0x00000000#32, [⟨31, 0, .ro, false, false, []⟩]⟩]

/-- The registers of PINS. -/
def descPINS : List RDesc := [
  ⟨"PINS_CFG", 0x40160000, [(0x4, 256)], 0x06000000#32, [⟨31, 29, .rw, true, false, [(0, 6)]⟩, ⟨28, 28, .rw, true, false, []⟩, ⟨27, 27, .rw, true, false, []⟩, ⟨26, 25, .rw, true, false, []⟩, ⟨24, 24, .rw, true, false, []⟩, ⟨23, 22, .rw, true, false, []⟩, ⟨11, 0, .rw, true, false, []⟩]⟩,
  ⟨"PINS_PAIR", 0x40160400, [(0x4, 128)], 0x00000000#32, [⟨31, 31, .rw, true, false, []⟩, ⟨27, 24, .rw, true, false, []⟩, ⟨20, 16, .rw, true, false, []⟩, ⟨15, 15, .rw, true, false, []⟩, ⟨7, 0, .rw, true, false, []⟩]⟩,
  ⟨"PINS_GRP_CFG", 0x40160800, [(0x10, 32)], 0x00000000#32, [⟨31, 31, .rw, true, false, []⟩, ⟨30, 30, .rw, true, false, []⟩, ⟨5, 0, .rw, true, false, []⟩]⟩,
  ⟨"PINS_GRP_STAT", 0x40160804, [(0x10, 32)], 0x00000000#32, [⟨31, 31, .ro, false, false, []⟩, ⟨28, 24, .ro, false, false, []⟩, ⟨15, 8, .ro, false, false, []⟩, ⟨7, 0, .ro, false, false, []⟩]⟩,
  ⟨"PINS_GRP_IRQ", 0x40160808, [(0x10, 32)], 0x00000000#32, [⟨31, 31, .wo, false, false, []⟩, ⟨4, 4, .w1c, false, false, []⟩, ⟨3, 3, .w1c, false, false, []⟩, ⟨2, 2, .w1c, false, false, []⟩, ⟨1, 1, .w1c, false, false, []⟩, ⟨0, 0, .w1c, false, false, []⟩]⟩,
  ⟨"PINS_LEVEL", 0x40160C00, [(0x4, 8)], 0x00000000#32, [⟨31, 0, .ro, false, false, []⟩]⟩,
  ⟨"PINS_RB", 0x40160C20, [(0x4, 4)], 0x00000000#32, [⟨31, 0, .ro, false, false, []⟩]⟩,
  ⟨"PINS_PPS_CFG", 0x40160E00, [], 0x00000064#32, [⟨31, 31, .rw, true, false, []⟩, ⟨15, 0, .rw, true, false, [(1, 65535)]⟩]⟩,
  ⟨"PINS_PPS_OFS", 0x40160E04, [], 0x00000000#32, [⟨31, 0, .ro, false, false, []⟩]⟩,
  ⟨"PINS_IRIG_CFG", 0x40160E08, [], 0x25000000#32, [⟨31, 24, .rw, true, false, []⟩, ⟨22, 12, .rw, true, false, []⟩, ⟨2, 0, .rw, true, false, []⟩]⟩,
  ⟨"PINS_IRIG_STAT", 0x40160E0C, [], 0x00000000#32, [⟨31, 31, .ro, false, false, []⟩, ⟨23, 16, .ro, false, false, []⟩, ⟨15, 0, .ro, false, false, []⟩]⟩]

/-- The registers of UNDERSTUDY. -/
def descUNDERSTUDY : List RDesc := [
  ⟨"UNDERSTUDY_CFG_A", 0x40140000, [], 0x003C0022#32, [⟨31, 31, .rw, true, false, []⟩, ⟨30, 30, .rw, true, false, []⟩, ⟨21, 16, .rw, true, false, []⟩, ⟨7, 4, .rw, true, false, []⟩, ⟨3, 0, .rw, true, false, []⟩]⟩,
  ⟨"UNDERSTUDY_CFG_B", 0x40140004, [], 0x00019258#32, [⟨16, 0, .rw, true, false, []⟩]⟩,
  ⟨"UNDERSTUDY_CFG_C", 0x40140008, [], 0x40080008#32, [⟨31, 24, .rw, true, false, []⟩, ⟨23, 16, .rw, true, false, []⟩, ⟨7, 0, .rw, true, false, []⟩]⟩,
  ⟨"UNDERSTUDY_CFG_D", 0x4014000C, [], 0x00007918#32, [⟨16, 0, .rw, true, false, []⟩]⟩,
  ⟨"UNDERSTUDY_CTRL", 0x40140010, [], 0x00000000#32, [⟨31, 31, .wo, false, false, []⟩, ⟨30, 30, .wo, false, false, []⟩, ⟨29, 29, .wo, false, false, []⟩, ⟨28, 28, .wo, false, false, []⟩, ⟨27, 27, .wo, false, false, []⟩, ⟨26, 26, .wo, false, false, []⟩]⟩,
  ⟨"UNDERSTUDY_STAT", 0x40140014, [], 0x00000000#32, [⟨31, 29, .ro, false, false, []⟩, ⟨28, 26, .ro, false, false, []⟩, ⟨23, 20, .ro, false, false, []⟩, ⟨19, 16, .ro, false, false, []⟩, ⟨15, 0, .ro, false, false, []⟩]⟩,
  ⟨"UNDERSTUDY_HEALTH", 0x40140018, [], 0x00000000#32, [⟨31, 0, .ro, false, false, []⟩]⟩,
  ⟨"UNDERSTUDY_PEER_HEALTH", 0x4014001C, [], 0x00000000#32, [⟨31, 0, .ro, false, false, []⟩]⟩,
  ⟨"UNDERSTUDY_APPLIED_LO", 0x40140020, [], 0x00000000#32, [⟨31, 0, .ro, false, false, []⟩]⟩,
  ⟨"UNDERSTUDY_APPLIED_HI", 0x40140024, [], 0x00000000#32, [⟨15, 0, .ro, false, false, []⟩]⟩,
  ⟨"UNDERSTUDY_XFER_STAT", 0x40140028, [], 0x00000000#32, [⟨31, 31, .ro, false, false, []⟩, ⟨12, 0, .ro, false, false, []⟩]⟩,
  ⟨"UNDERSTUDY_CNT_A", 0x4014002C, [], 0x00000000#32, [⟨31, 16, .ro, false, false, []⟩, ⟨15, 0, .ro, false, false, []⟩]⟩,
  ⟨"UNDERSTUDY_CNT_B", 0x40140030, [], 0x00000000#32, [⟨31, 16, .ro, false, false, []⟩, ⟨15, 0, .ro, false, false, []⟩]⟩,
  ⟨"UNDERSTUDY_CNT_C", 0x40140034, [], 0x00000000#32, [⟨31, 16, .ro, false, false, []⟩, ⟨15, 0, .ro, false, false, []⟩]⟩,
  ⟨"UNDERSTUDY_HOLD_SET", 0x40142000, [], 0x00000000#32, [⟨31, 0, .wo, false, false, []⟩]⟩,
  ⟨"UNDERSTUDY_HOLD_CLR", 0x40142004, [], 0x00000000#32, [⟨31, 0, .wo, false, false, []⟩]⟩,
  ⟨"UNDERSTUDY_HOLD", 0x40142008, [], 0x00000000#32, [⟨31, 0, .ro, false, false, []⟩]⟩]

/-- The registers of TROUPE. -/
def descTROUPE : List RDesc := [
  ⟨"TROUPE_CFG_A", 0x40150000, [], 0x00000000#32, [⟨31, 31, .rw, true, false, []⟩, ⟨27, 16, .rw, true, false, []⟩, ⟨15, 8, .rw, true, false, []⟩, ⟨5, 0, .rw, true, false, []⟩]⟩,
  ⟨"TROUPE_CFG_B", 0x40150004, [], 0x003C0064#32, [⟨31, 16, .rw, true, false, []⟩, ⟨15, 0, .rw, true, false, []⟩]⟩,
  ⟨"TROUPE_CFG_C", 0x40150008, [], 0x19300514#32, [⟨31, 24, .rw, true, false, []⟩, ⟨23, 20, .rw, true, false, []⟩, ⟨10, 8, .rw, true, false, []⟩, ⟨7, 0, .rw, true, false, []⟩]⟩,
  ⟨"TROUPE_STAT", 0x40150010, [], 0x00000000#32, [⟨31, 30, .ro, false, false, []⟩, ⟨29, 29, .ro, false, false, []⟩, ⟨28, 28, .ro, false, false, []⟩, ⟨6, 0, .ro, false, false, []⟩]⟩,
  ⟨"TROUPE_CNT", 0x40150014, [], 0x00000000#32, [⟨31, 16, .ro, false, false, []⟩, ⟨15, 0, .ro, false, false, []⟩]⟩,
  ⟨"TROUPE_MEMBER", 0x40150100, [(0x4, 64)], 0x00000000#32, [⟨31, 29, .ro, false, false, []⟩, ⟨28, 26, .ro, false, false, []⟩, ⟨25, 25, .ro, false, false, []⟩, ⟨15, 0, .ro, false, false, []⟩]⟩]

/-- The registers of CHORUS. -/
def descCHORUS : List RDesc := [
  ⟨"CHORUS_CFG", 0x400D0000, [], 0x00000042#32, [⟨15, 8, .rw, false, false, []⟩, ⟨6, 4, .rw, false, false, [(0, 4)]⟩, ⟨2, 0, .rw, false, true, [(0, 4)]⟩]⟩,
  ⟨"CHORUS_STAT", 0x400D0004, [], 0x00000000#32, [⟨31, 24, .ro, false, false, []⟩, ⟨23, 16, .ro, false, false, []⟩]⟩,
  ⟨"CHORUS_CNT", 0x400D0008, [], 0x00000000#32, [⟨31, 16, .ro, false, false, []⟩, ⟨15, 0, .ro, false, false, []⟩]⟩,
  ⟨"CHORUS_KEY_IDX", 0x400D4000, [], 0x00000000#32, [⟨7, 0, .rw, false, false, []⟩]⟩,
  ⟨"CHORUS_KEY_ATTR", 0x400D4004, [], 0x00000000#32, [⟨31, 30, .rw, true, false, [(0, 2)]⟩, ⟨29, 28, .rw, true, false, [(0, 2)]⟩, ⟨3, 3, .rw, true, false, []⟩, ⟨2, 2, .rw, true, false, []⟩, ⟨1, 1, .rw, true, false, []⟩, ⟨0, 0, .rw, true, false, []⟩]⟩,
  ⟨"CHORUS_KEY_USERS", 0x400D4008, [], 0x00000000#32, [⟨31, 0, .rw, true, false, []⟩]⟩,
  ⟨"CHORUS_KEY_VAL", 0x400D4010, [(0x4, 8)], 0x00000000#32, [⟨31, 0, .wo, true, false, []⟩]⟩,
  ⟨"CHORUS_KEY_PUSH", 0x400D4040, [], 0x00000000#32, [⟨31, 31, .wo, false, false, []⟩, ⟨30, 30, .wo, false, false, []⟩]⟩,
  ⟨"CHORUS_KEY_STAT", 0x400D4044, [], 0x00000000#32, [⟨31, 31, .ro, false, false, []⟩, ⟨30, 30, .ro, false, false, []⟩, ⟨27, 24, .ro, false, false, []⟩, ⟨23, 22, .ro, false, false, []⟩, ⟨19, 16, .ro, false, false, []⟩, ⟨8, 0, .ro, false, false, []⟩]⟩]

/-- The registers of the Chorus release-gate windows. -/
def descGATE : List RDesc := [
  ⟨"CHORUS_CH_SRC", 0x38000000, [(0x10000, 8)], 0x00000000#32, [⟨31, 0, .rw, false, false, []⟩]⟩,
  ⟨"CHORUS_CH_DST", 0x38000004, [(0x10000, 8)], 0x00000000#32, [⟨31, 0, .rw, false, false, []⟩]⟩,
  ⟨"CHORUS_CH_XSRC", 0x38000008, [(0x10000, 8)], 0x00000000#32, [⟨31, 0, .rw, false, false, []⟩]⟩,
  ⟨"CHORUS_CH_OP", 0x3800000C, [(0x10000, 8)], 0x00000000#32, [⟨31, 31, .wo, false, false, []⟩, ⟨27, 24, .rw, false, false, []⟩, ⟨23, 16, .rw, false, false, []⟩, ⟨12, 0, .rw, false, false, []⟩]⟩,
  ⟨"CHORUS_CH_STAT", 0x38000010, [(0x10000, 8)], 0x00000000#32, [⟨31, 31, .ro, false, false, []⟩, ⟨30, 28, .ro, false, false, []⟩, ⟨27, 24, .ro, false, false, []⟩, ⟨20, 16, .ro, false, false, []⟩, ⟨12, 0, .ro, false, false, []⟩]⟩,
  ⟨"CHORUS_CH_DONE_Q", 0x38000014, [(0x10000, 8)], 0x00000000#32, [⟨31, 31, .rw, false, false, []⟩, ⟨17, 0, .rw, false, false, []⟩]⟩,
  ⟨"CHORUS_CH_GATE_CFG", 0x38000018, [(0x10000, 8)], 0x00000000#32, [⟨31, 31, .rw, false, false, []⟩, ⟨29, 28, .rw, false, false, [(0, 2)]⟩]⟩,
  ⟨"CHORUS_CH_VADDR", 0x3800001C, [(0x10000, 8)], 0x00000000#32, [⟨31, 3, .rw, false, false, []⟩]⟩,
  ⟨"CHORUS_CH_GATE_H", 0x38000020, [(0x10000, 8), (0x4, 4)], 0x00000000#32, [⟨31, 0, .ro, false, false, []⟩]⟩,
  ⟨"CHORUS_CH_GATE_STAT", 0x38000030, [(0x10000, 8)], 0x00000000#32, [⟨31, 29, .ro, false, false, []⟩, ⟨15, 0, .ro, false, false, []⟩]⟩]

/-- The registers of MASSIF. -/
def descMASSIF : List RDesc := [
  ⟨"MASSIF_CFG", 0x400F0000, [], 0x00000004#32, [⟨7, 0, .rw, false, false, []⟩]⟩,
  ⟨"MASSIF_STAT", 0x400F0004, [], 0x00000000#32, [⟨31, 31, .ro, false, false, []⟩, ⟨30, 30, .ro, false, false, []⟩, ⟨29, 29, .ro, false, false, []⟩, ⟨28, 28, .ro, false, false, []⟩, ⟨27, 24, .ro, false, false, []⟩, ⟨23, 21, .ro, false, false, []⟩, ⟨20, 16, .ro, false, false, []⟩, ⟨13, 8, .ro, false, false, []⟩]⟩,
  ⟨"MASSIF_CNT", 0x400F0008, [], 0x00000000#32, [⟨31, 16, .ro, false, false, []⟩, ⟨15, 0, .ro, false, false, []⟩]⟩,
  ⟨"MASSIF_KEY_MAP_LO", 0x400F0010, [], 0x00000000#32, [⟨31, 0, .ro, false, false, []⟩]⟩,
  ⟨"MASSIF_KEY_MAP_HI", 0x400F0014, [], 0x00000000#32, [⟨31, 0, .ro, false, false, []⟩]⟩,
  ⟨"MASSIF_SUBMIT", 0x400F1000, [(0x1000, 4)], 0x00000000#32, [⟨31, 3, .wo, false, false, []⟩]⟩,
  ⟨"MASSIF_DONE_Q", 0x400F1004, [(0x1000, 4)], 0x00000000#32, [⟨31, 31, .rw, false, false, []⟩, ⟨17, 0, .rw, false, false, []⟩]⟩]

/-- The registers of SCREE. -/
def descSCREE : List RDesc := [
  ⟨"SCREE_CTRL", 0x40100000, [], 0x00000000#32, [⟨31, 31, .wo, false, false, []⟩, ⟨30, 30, .wo, false, false, []⟩, ⟨29, 29, .wo, false, false, []⟩]⟩,
  ⟨"SCREE_HEALTH", 0x40100004, [], 0x234002F0#32, [⟨31, 24, .rw, false, true, []⟩, ⟨23, 20, .rw, false, true, [(1, 8)]⟩, ⟨15, 0, .rw, false, true, []⟩]⟩,
  ⟨"SCREE_DRBG", 0x40100008, [], 0x03E80010#32, [⟨31, 16, .rw, false, false, []⟩, ⟨4, 0, .rw, false, false, [(10, 20)]⟩]⟩,
  ⟨"SCREE_STAT", 0x4010000C, [], 0x00000000#32, [⟨31, 31, .ro, false, false, []⟩, ⟨30, 30, .ro, false, false, []⟩, ⟨29, 29, .ro, false, false, []⟩, ⟨28, 28, .ro, false, false, []⟩, ⟨23, 16, .ro, false, false, []⟩, ⟨15, 8, .ro, false, false, []⟩]⟩,
  ⟨"SCREE_CNT", 0x40100010, [], 0x00000000#32, [⟨31, 16, .ro, false, false, []⟩, ⟨15, 0, .ro, false, false, []⟩]⟩,
  ⟨"SCREE_PERS", 0x40100020, [(0x4, 4)], 0x00000000#32, [⟨31, 0, .rw, false, false, []⟩]⟩,
  ⟨"SCREE_TEST", 0x40100030, [], 0x00000000#32, [⟨31, 31, .rw, false, true, []⟩]⟩,
  ⟨"SCREE_TEST_DATA", 0x40100034, [], 0x00000000#32, [⟨31, 0, .wo, false, true, []⟩]⟩,
  ⟨"SCREE_RAND", 0x40101000, [], 0x00000000#32, [⟨31, 0, .ro, false, false, []⟩]⟩]

/-- The registers of DTAKE. -/
def descDTAKE : List RDesc := [
  ⟨"DTAKE_CFG", 0x401D0000, [], 0x03E80003#32, [⟨31, 16, .rw, false, false, []⟩, ⟨7, 0, .rw, false, false, []⟩]⟩,
  ⟨"DTAKE_GROUP_A", 0x401D0100, [(0x8, 16)], 0x00000000#32, [⟨31, 31, .rw, true, false, []⟩, ⟨27, 24, .rw, true, false, []⟩, ⟨15, 4, .rw, true, false, []⟩]⟩,
  ⟨"DTAKE_GROUP_B", 0x401D0104, [(0x8, 16)], 0x00000000#32, [⟨31, 31, .rw, true, false, []⟩, ⟨13, 0, .rw, true, false, []⟩]⟩,
  ⟨"DTAKE_MASK", 0x401D0180, [(0x4, 16)], 0xFFFFFFFF#32, [⟨31, 0, .rw, true, false, []⟩]⟩,
  ⟨"DTAKE_VERDICT", 0x401D0200, [(0x8, 16)], 0x00000000#32, [⟨31, 29, .ro, false, false, []⟩, ⟨15, 0, .ro, false, false, []⟩]⟩,
  ⟨"DTAKE_WORD", 0x401D0204, [(0x8, 16)], 0x00000000#32, [⟨31, 0, .ro, false, false, []⟩]⟩,
  ⟨"DTAKE_CNT_A", 0x401D0300, [], 0x00000000#32, [⟨31, 16, .ro, false, false, []⟩, ⟨15, 0, .ro, false, false, []⟩]⟩]

/-- The registers of REFUGE. -/
def descREFUGE : List RDesc := [
  ⟨"REFUGE_STAT", 0x40120000, [], 0x00000000#32, [⟨31, 31, .ro, false, false, []⟩, ⟨30, 30, .ro, false, false, []⟩, ⟨29, 29, .ro, false, false, []⟩, ⟨28, 28, .ro, false, false, []⟩, ⟨27, 27, .ro, false, false, []⟩, ⟨26, 26, .ro, false, false, []⟩, ⟨20, 16, .ro, false, false, []⟩, ⟨15, 0, .ro, false, false, []⟩]⟩,
  ⟨"REFUGE_CFG", 0x40120004, [], 0x00000000#32, [⟨31, 31, .rw, false, false, []⟩, ⟨30, 30, .rw, false, false, []⟩]⟩,
  ⟨"REFUGE_RTC_SEC", 0x40120008, [], 0x00000000#32, [⟨31, 0, .ro, false, false, []⟩]⟩,
  ⟨"REFUGE_RTC_SUB", 0x4012000C, [], 0x00000000#32, [⟨14, 0, .ro, false, false, []⟩]⟩,
  ⟨"REFUGE_RTC_SET", 0x40120010, [], 0x00000000#32, [⟨31, 0, .wo, false, false, []⟩]⟩,
  ⟨"REFUGE_LOG_SEL", 0x40120020, [], 0x00000000#32, [⟨31, 0, .rw, false, false, []⟩]⟩,
  ⟨"REFUGE_LOG_DATA", 0x40120024, [(0x4, 4)], 0x00000000#32, [⟨31, 0, .ro, false, false, []⟩]⟩]

/-- The registers of CURTAIN. -/
def descCURTAIN : List RDesc := [
  ⟨"CURTAIN_STAT", 0x40110000, [], 0x00000000#32, [⟨31, 31, .ro, false, false, []⟩, ⟨30, 30, .ro, false, false, []⟩, ⟨29, 29, .ro, false, false, []⟩, ⟨23, 16, .ro, false, false, []⟩, ⟨15, 0, .ro, false, false, []⟩]⟩,
  ⟨"CURTAIN_CFG", 0x40110004, [], 0x0000EF1E#32, [⟨31, 31, .ro, false, false, []⟩, ⟨15, 0, .rw, false, false, []⟩]⟩,
  ⟨"CURTAIN_HIST", 0x40110008, [], 0x00000000#32, [⟨15, 0, .ro, false, false, []⟩]⟩,
  ⟨"CURTAIN_WARN", 0x4011000C, [], 0x00000000#32, [⟨2, 2, .w1c, false, false, []⟩, ⟨1, 1, .w1c, false, false, []⟩, ⟨0, 0, .w1c, false, false, []⟩]⟩,
  ⟨"CURTAIN_CHAL", 0x40110010, [(0x4, 8)], 0x00000000#32, [⟨31, 0, .ro, false, false, []⟩]⟩,
  ⟨"CURTAIN_UNLOCK_STAT", 0x40110030, [], 0x00000000#32, [⟨11, 8, .ro, false, false, []⟩, ⟨7, 0, .ro, false, false, []⟩]⟩]

/-- The registers of BEDROCK. -/
def descBEDROCK : List RDesc := [
  ⟨"BRK_STATUS", 0x40130000, [(0x4, 5)], 0x00000000#32, [⟨31, 31, .ro, false, false, []⟩, ⟨30, 30, .ro, false, false, []⟩, ⟨29, 29, .ro, false, false, []⟩, ⟨28, 28, .w1c, false, false, []⟩, ⟨27, 27, .w1c, false, false, []⟩, ⟨23, 20, .ro, false, false, []⟩, ⟨19, 15, .ro, false, false, []⟩, ⟨7, 0, .ro, false, false, []⟩]⟩,
  ⟨"BRK_FETCH", 0x40130020, [], 0x00000000#32, [⟨17, 0, .ro, false, false, []⟩]⟩,
  ⟨"BRK_CFG", 0x40130024, [], 0x801E0713#32, [⟨31, 31, .rw, false, false, []⟩, ⟨23, 16, .rw, false, false, []⟩, ⟨15, 8, .rw, false, false, []⟩, ⟨7, 4, .rw, false, false, []⟩, ⟨3, 0, .rw, false, false, []⟩]⟩,
  ⟨"BRK_ECC", 0x40130028, [], 0x00000000#32, [⟨31, 16, .ro, false, false, []⟩, ⟨15, 0, .ro, false, false, []⟩]⟩,
  ⟨"BRK_PATROL_POP", 0x4013002C, [], 0x00000000#32, [⟨31, 31, .ro, false, false, []⟩, ⟨30, 30, .ro, false, false, []⟩, ⟨26, 24, .ro, false, false, []⟩, ⟨23, 16, .ro, false, false, []⟩, ⟨3, 0, .ro, false, false, []⟩]⟩,
  ⟨"BRK_BLOCK_SEL", 0x40130030, [], 0x00000000#32, [⟨26, 24, .rw, false, false, []⟩, ⟨7, 0, .rw, false, false, []⟩]⟩,
  ⟨"BRK_BLOCK_INFO", 0x40130034, [], 0x00000000#32, [⟨31, 16, .ro, false, false, []⟩, ⟨15, 15, .ro, false, false, []⟩]⟩,
  ⟨"BRK_PAGE_STATE", 0x40130040, [(0x4, 2)], 0x00000000#32, [⟨31, 0, .ro, false, false, []⟩]⟩,
  ⟨"BRK_UNLOCK", 0x40131000, [(0x1000, 9)], 0x00000000#32, [⟨31, 0, .wo, false, false, []⟩]⟩,
  ⟨"BRK_ADDR", 0x40131004, [(0x1000, 9)], 0x00000000#32, [⟨31, 0, .rw, false, false, []⟩]⟩,
  ⟨"BRK_SRC", 0x40131008, [(0x1000, 9)], 0x00000000#32, [⟨31, 0, .rw, false, false, []⟩]⟩,
  ⟨"BRK_CMD", 0x4013100C, [(0x1000, 9)], 0x00000000#32, [⟨31, 31, .wo, false, false, []⟩, ⟨3, 0, .wo, false, false, []⟩]⟩,
  ⟨"BRK_RESULT", 0x40131010, [(0x1000, 9)], 0x00000000#32, [⟨31, 31, .ro, false, false, []⟩, ⟨7, 0, .ro, false, false, []⟩]⟩]

/-- The registers of HOST. -/
def descHOST : List RDesc := [
  ⟨"HOST_CFG", 0x40180000, [], 0x00000000#32, [⟨31, 31, .rw, false, false, []⟩, ⟨30, 30, .rw, false, false, []⟩, ⟨29, 29, .rw, false, false, []⟩]⟩,
  ⟨"HOST_CNT", 0x40180004, [], 0x00000000#32, [⟨31, 16, .ro, false, false, []⟩, ⟨15, 0, .ro, false, false, []⟩]⟩]

/-- The registers of PBOOK. -/
def descPBOOK : List RDesc := [
  ⟨"PBOOK_CFG", 0x40170000, [], 0x803C05C0#32, [⟨31, 31, .rw, false, false, []⟩, ⟨23, 16, .rw, false, false, []⟩, ⟨10, 8, .rw, false, false, []⟩, ⟨7, 0, .rw, false, false, []⟩]⟩,
  ⟨"PBOOK_STAT", 0x40170004, [], 0x00000000#32, [⟨28, 16, .ro, false, false, []⟩, ⟨12, 0, .ro, false, false, []⟩]⟩,
  ⟨"PBOOK_SEQ", 0x40170008, [], 0x00000000#32, [⟨31, 0, .ro, false, false, []⟩]⟩,
  ⟨"PBOOK_ARCH_SEQ", 0x40170018, [], 0x00000000#32, [⟨31, 0, .ro, false, false, []⟩]⟩,
  ⟨"PBOOK_DROP_A", 0x4017000C, [], 0x00000000#32, [⟨31, 16, .ro, false, false, []⟩, ⟨15, 0, .ro, false, false, []⟩]⟩,
  ⟨"PBOOK_DROP_B", 0x40170010, [], 0x00000000#32, [⟨31, 16, .ro, false, false, []⟩, ⟨15, 0, .ro, false, false, []⟩]⟩,
  ⟨"PBOOK_ARCH", 0x40170014, [], 0x00000000#32, [⟨31, 31, .ro, false, false, []⟩, ⟨30, 30, .w1c, false, false, []⟩, ⟨29, 24, .ro, false, false, []⟩, ⟨23, 20, .ro, false, false, []⟩]⟩,
  ⟨"PBOOK_CLEAR", 0x40170020, [], 0x00000000#32, [⟨31, 31, .wo, false, false, []⟩, ⟨30, 30, .wo, false, false, []⟩]⟩,
  ⟨"PBOOK_CLEAR_UPTO", 0x40170024, [], 0x00000000#32, [⟨31, 0, .rw, false, false, []⟩]⟩,
  ⟨"PBOOK_RATE", 0x40170100, [(0x4, 16)], 0x03E80001#32, [⟨31, 16, .rw, false, false, []⟩, ⟨7, 0, .rw, false, false, []⟩]⟩,
  ⟨"PBOOK_CURSOR", 0x40171000, [(0x1000, 4)], 0x00000000#32, [⟨31, 0, .rw, false, false, []⟩]⟩,
  ⟨"PBOOK_RSTAT", 0x40171004, [(0x1000, 4)], 0x00000000#32, [⟨31, 31, .ro, false, false, []⟩, ⟨30, 30, .ro, false, false, []⟩]⟩,
  ⟨"PBOOK_REC", 0x40171010, [(0x1000, 4), (0x4, 8)], 0x00000000#32, [⟨31, 0, .ro, false, false, []⟩]⟩]

/-- The registers of OBSERVE. -/
def descOBSERVE : List RDesc := [
  ⟨"OBSERVE_TRACE_CFG", 0x401C0000, [], 0x00000000#32, [⟨31, 31, .rw, false, false, []⟩, ⟨11, 8, .rw, false, false, []⟩, ⟨3, 0, .rw, false, false, []⟩]⟩,
  ⟨"OBSERVE_TRACE_STAT", 0x401C0004, [], 0x00000000#32, [⟨31, 15, .ro, false, false, []⟩, ⟨14, 0, .ro, false, false, []⟩]⟩,
  ⟨"OBSERVE_CNT_SEL", 0x401C0100, [(0x8, 8)], 0x00000000#32, [⟨31, 24, .rw, false, false, []⟩, ⟨21, 16, .rw, false, false, []⟩, ⟨15, 0, .rw, false, false, []⟩]⟩,
  ⟨"OBSERVE_CNT", 0x401C0104, [(0x8, 8)], 0x00000000#32, [⟨31, 0, .ro, false, false, []⟩]⟩,
  ⟨"OBSERVE_CNT_CTRL", 0x401C0200, [], 0x00000000#32, [⟨31, 31, .wo, false, false, []⟩, ⟨30, 30, .wo, false, false, []⟩]⟩]

/-- The registers of BADGE. -/
def descBADGE : List RDesc := [
  ⟨"BADGE_CFG", 0x40190000, [], 0x00190603#32, [⟨31, 31, .rw, false, false, []⟩, ⟨30, 30, .rw, false, false, []⟩, ⟨29, 29, .rw, false, false, []⟩, ⟨23, 16, .rw, false, false, []⟩, ⟨15, 8, .rw, false, false, []⟩, ⟨2, 0, .rw, false, false, []⟩]⟩,
  ⟨"BADGE_STAT", 0x40190004, [], 0x00000000#32, [⟨31, 31, .ro, false, false, []⟩, ⟨30, 30, .ro, false, false, []⟩, ⟨29, 29, .ro, false, false, []⟩, ⟨28, 28, .w1c, false, false, []⟩, ⟨23, 16, .ro, false, false, []⟩]⟩,
  ⟨"BADGE_RD_CTRL", 0x40190010, [], 0x00000000#32, [⟨31, 31, .wo, false, false, []⟩, ⟨30, 28, .rw, false, false, []⟩, ⟨27, 26, .rw, false, false, []⟩, ⟨8, 0, .rw, false, false, []⟩]⟩,
  ⟨"BADGE_RD_STAT", 0x40190014, [], 0x00000000#32, [⟨31, 31, .ro, false, false, []⟩, ⟨30, 27, .ro, false, false, []⟩, ⟨26, 25, .ro, false, false, []⟩, ⟨8, 0, .ro, false, false, []⟩]⟩,
  ⟨"BADGE_TS_COMMIT", 0x40190020, [], 0x00000000#32, [⟨31, 31, .wo, false, false, []⟩, ⟨30, 30, .wo, false, false, []⟩, ⟨15, 0, .wo, false, false, []⟩]⟩,
  ⟨"BADGE_TS_STAT", 0x40190024, [], 0x00000000#32, [⟨31, 31, .ro, false, false, []⟩, ⟨30, 30, .ro, false, false, []⟩, ⟨29, 29, .w1c, false, false, []⟩, ⟨8, 0, .ro, false, false, []⟩]⟩,
  ⟨"BADGE_TS_GEN", 0x40190028, [], 0x00000000#32, [⟨31, 0, .ro, false, false, []⟩]⟩,
  ⟨"BADGE_TS_MB", 0x4019002C, [], 0x00000000#32, [⟨31, 0, .ro, false, false, []⟩]⟩]

/-- The registers of CARTRIDGE. -/
def descCARTRIDGE : List RDesc := [
  ⟨"CART_CFG", 0x401A0000, [], 0x00000000#32, [⟨31, 31, .rw, false, false, []⟩, ⟨30, 30, .rw, false, false, []⟩, ⟨29, 29, .rw, false, false, []⟩, ⟨28, 28, .rw, false, false, []⟩]⟩,
  ⟨"CART_CARD", 0x401A0010, [(0x4, 4)], 0x00000000#32, [⟨31, 31, .ro, false, false, []⟩, ⟨30, 29, .ro, false, false, []⟩, ⟨28, 28, .ro, false, false, []⟩, ⟨27, 27, .ro, false, false, []⟩, ⟨26, 26, .ro, false, false, []⟩, ⟨25, 25, .ro, false, false, []⟩, ⟨24, 24, .ro, false, false, []⟩, ⟨15, 0, .ro, false, false, []⟩]⟩,
  ⟨"CART_XFER", 0x401A0020, [], 0x00000000#32, [⟨31, 31, .wo, false, false, []⟩, ⟨30, 28, .rw, false, false, []⟩, ⟨27, 26, .rw, false, false, []⟩, ⟨15, 0, .rw, false, false, []⟩]⟩,
  ⟨"CART_LBA", 0x401A0024, [], 0x00000000#32, [⟨31, 0, .rw, false, false, []⟩]⟩,
  ⟨"CART_BUF", 0x401A0028, [], 0x00000000#32, [⟨31, 0, .rw, false, false, []⟩]⟩,
  ⟨"CART_STAT", 0x401A0030, [], 0x00000000#32, [⟨31, 31, .ro, false, false, []⟩, ⟨30, 30, .ro, false, false, []⟩, ⟨29, 29, .ro, false, false, []⟩, ⟨28, 28, .w1c, false, false, []⟩, ⟨27, 24, .ro, false, false, []⟩, ⟨15, 0, .ro, false, false, []⟩]⟩]

/-- The commit registers of a block with paired fields (R28), at the block's base. -/
def descCommit : List RDesc := [
  ⟨"BLOCK_COMMIT", 0xFF00, [], 0#32, [⟨31, 31, .wo, false, false, []⟩, ⟨30, 30, .wo, false, false, []⟩, ⟨29, 28, .wo, false, false, []⟩, ⟨27, 27, .wo, false, false, []⟩, ⟨13, 0, .wo, false, false, []⟩]⟩,
  ⟨"BLOCK_COMMIT_STATUS", 0xFF04, [], 0#32, [⟨31, 31, .ro, false, false, []⟩, ⟨30, 30, .ro, false, false, []⟩, ⟨29, 28, .ro, false, false, []⟩, ⟨15, 0, .ro, false, false, []⟩]⟩,
  ⟨"BLOCK_REFUSED", 0xFF08, [], 0#32, [⟨31, 16, .ro, false, false, []⟩, ⟨15, 0, .ro, false, false, []⟩]⟩]

/-- The blocks with paired fields (chapters 02, 03, 04, 07, 08, 09, 10, 11, 13; DTAKE_COMMIT of R346). -/
def pairedBlocks : List Nat := [Base.COL, Base.TERRACE, Base.CUE, Base.STIME, Base.SWITCH, Base.ENSEMBLE, Base.PACKER, Base.CHORUS, Base.SOLOIST, Base.UNDERSTUDY, Base.TROUPE, Base.PINS, Base.DTAKE]

/-- The descriptions of the register block that holds address `a` (R31). -/
def descBlock (a : Nat) : List RDesc :=
  match a / 0x10000 with
  | 0x4000 => descSYS
  | 0x4001 => descCOL
  | 0x4002 => descTERRACE
  | 0x4003 => descWINGS
  | 0x4004 => descCUE
  | 0x4005 => descSTIME
  | 0x4006 => descSP
  | 0x4007 => descSP
  | 0x4008 => descSP
  | 0x4009 => descSP
  | 0x400A => descSWITCH
  | 0x400B => descENSEMBLE
  | 0x400C => descPACKER
  | 0x400D => descCHORUS
  | 0x400E => descSOLOIST
  | 0x400F => descMASSIF
  | 0x4010 => descSCREE
  | 0x4011 => descCURTAIN
  | 0x4012 => descREFUGE
  | 0x4013 => descBEDROCK
  | 0x4014 => descUNDERSTUDY
  | 0x4015 => descTROUPE
  | 0x4016 => descPINS
  | 0x4017 => descPBOOK
  | 0x4018 => descHOST
  | 0x4019 => descBADGE
  | 0x401A => descCARTRIDGE
  | 0x401B => descIRQ
  | 0x401C => descOBSERVE
  | 0x401D => descDTAKE
  | 0x3800 => descGATE
  | 0x3801 => descGATE
  | 0x3802 => descGATE
  | 0x3803 => descGATE
  | 0x3804 => descGATE
  | 0x3805 => descGATE
  | 0x3806 => descGATE
  | 0x3807 => descGATE
  | _ => []

/-- Does an offset from the first address fall on a register of the array? -/
def idxMatch : List (Nat × Nat) → Nat → Bool
  | [], off => off == 0
  | (st, n) :: rest, off =>
    if rest.isEmpty then off % st == 0 && decide (off / st < n)
    else (decide (off / st < n) && idxMatch rest (off % st))

/-- Does this description cover address `a`? -/
def RDesc.covers (d : RDesc) (a : Nat) : Bool := decide (d.base ≤ a) && idxMatch d.idx (a - d.base)

/-- The description of the register at address `a`, if a register stands there. -/
def descOf (a : Nat) : Option RDesc :=
  match (descBlock a).find? (·.covers a) with
  | some d => some d
  | none =>
    if pairedBlocks.contains (a / 0x10000 * 0x10000) then descCommit.find? (·.base == a % 0x10000) else none

/-- Reset values that depend on the index: the Terrace banks that reset to ON (R210) and the routes of the late-error sources
(IRQ_ROUTE_s of chapter 06). -/
def resetByIndex (a : Nat) (w : Word) : Word :=
  if 0x40020000 ≤ a ∧ a < 0x40020040 then 0x80000000#32
  else if 0x40020140 ≤ a ∧ a < 0x40020200 then 0#32
  else if 0x401B0300 ≤ a ∧ a < 0x401B0320 then BitVec.ofNat 32 ((a - 0x401B0300) / 4 * 256 + 0x1F)
  else w

/-- The reset value of the register at address `a`, as its description states it; 0 where no register stands. -/
def regReset (a : Nat) : Word :=
  match descOf a with
  | some d => resetByIndex a d.reset
  | none => 0#32

end Sys2Proof.Machine
end

