-- ==== Sys2Proof/Machine/Store.lean ====
section
/-! DEFINITION. Sparse stores: a list of (key, value) pairs in one canonical form (keys strictly rising, no entry equal to what an unlisted key
reads as). Registers, memory and the device's tables are kept in this form, so that equal contents are equal data. -/

namespace Sys2Proof.Machine

/-- What key `k` reads as: the listed value, or the default `d k`. -/
def look {α : Type} (d : Nat → α) : List (Nat × α) → Nat → α
  | [], k => d k
  | (a, v) :: t, k => if k = a then v else look d t k

/-- Insert in key order, replacing an entry of the same key. -/
def ins {α : Type} : List (Nat × α) → Nat → α → List (Nat × α)
  | [], k, v => [(k, v)]
  | (a, w) :: t, k, v => if k < a then (k, v) :: (a, w) :: t else if k = a then (k, v) :: t else (a, w) :: ins t k v

/-- Remove key `k`. -/
def drop {α : Type} (m : List (Nat × α)) (k : Nat) : List (Nat × α) := m.filter fun p => p.1 != k

/-- Write key `k`; writing the default removes the entry. -/
def put {α : Type} [DecidableEq α] (d : Nat → α) (m : List (Nat × α)) (k : Nat) (v : α) : List (Nat × α) :=
  if v = d k then drop m k else ins m k v

/-- Return every key from `lo` up to but not including `hi` to its default. -/
def clearRange {α : Type} (m : List (Nat × α)) (lo hi : Nat) : List (Nat × α) :=
  m.filter fun p => !(decide (lo ≤ p.1) && decide (p.1 < hi))

/-- The keys from `lo` up to but not including `hi` taken from `src`, every other key from `dst`. -/
def splice {α : Type} (dst src : List (Nat × α)) (lo hi : Nat) : List (Nat × α) :=
  dst.filter (fun p => decide (p.1 < lo)) ++ src.filter (fun p => decide (lo ≤ p.1) && decide (p.1 < hi))
    ++ dst.filter fun p => decide (hi ≤ p.1)

/-- Every key of `m` is at least `n` and the keys rise strictly. -/
def risingFrom {α : Type} : Nat → List (Nat × α) → Bool
  | _, [] => true
  | n, (a, _) :: t => decide (n ≤ a) && risingFrom (a + 1) t

/-- No listed value equals its key's default. -/
def noDefault {α : Type} [DecidableEq α] (d : Nat → α) (m : List (Nat × α)) : Bool := m.all fun p => decide (p.2 ≠ d p.1)

/-- The canonical form. -/
def canonical {α : Type} [DecidableEq α] (d : Nat → α) (m : List (Nat × α)) : Bool := risingFrom 0 m && noDefault d m

/-- The table with value `none` where nothing is held. -/
def noneAt {α : Type} (_ : Nat) : Option α := none

/-- Look up a table of optional entries. -/
def find? {α : Type} (m : List (Nat × Option α)) (k : Nat) : Option α := look noneAt m k

end Sys2Proof.Machine
end

