-- ==== Sys2Proof/Machine/State.lean ====
section
/-! DEFINITION. The state of the VN9460: everything the manual gives the device, as plain data, and the queue of commands that wait. -/

namespace Sys2Proof.Machine

/-- Reasons to stop. No command of this device stops it: the manual gives every one an effect, so no constructor is raised by a meaning;
`none` keeps the type inhabited and is safe. -/
inductive Fault where
  /-- Raised by nobody; safe. -/
  | none
  deriving DecidableEq, Repr

/-- Refusals. -/
inductive Refusal where
  /-- The command has no meaning in this model yet: raised only by the dispatcher's refused arms; safe. -/
  | notModelled (mnemonic : String)
  deriving DecidableEq, Repr

/-- Operating modes (R16). -/
inductive Mode where
  | factory | rehearsal | lead | understudy | interval | curtain
  deriving DecidableEq, Repr

/-- The mode of a SYS_STATE.MODE code. -/
def Mode.ofCode (c : Nat) : Mode :=
  if c = 0 then .factory else if c = 1 then .rehearsal else if c = 2 then .lead else if c = 3 then .understudy else if c = 4 then .interval else .curtain

/-- The SYS_STATE.MODE code of a mode. -/
def Mode.code : Mode → Nat
  | .factory => 0
  | .rehearsal => 1
  | .lead => 2
  | .understudy => 3
  | .interval => 4
  | .curtain => 5

/-- Lifecycles (R2). -/
inductive Lifecycle where
  | blank | factory | issued | returned | decommissioned
  deriving DecidableEq, Repr

/-- The lifecycle of a SYS_STATE.LIFECYCLE code. -/
def Lifecycle.ofCode (c : Nat) : Lifecycle :=
  if c = 0 then .blank else if c = 1 then .factory else if c = 2 then .issued else if c = 3 then .returned else .decommissioned

/-- The SYS_STATE.LIFECYCLE code of a lifecycle. -/
def Lifecycle.code : Lifecycle → Nat
  | .blank => 0
  | .factory => 1
  | .issued => 2
  | .returned => 3
  | .decommissioned => 4

/-- Events that elapse with time after they are started; each is armed by the rule that starts it and fires through its own command. -/
inductive Timer where
  | lcProgram | bankWake (n : Nat) | bankZero (n : Nat) | bankResume (n : Nat)
  | queueIdle (q : Nat) | holdLimit | servoLoss | ticket (t : Nat)
  | pinFilter (p : Nat) | pinRb (p : Nat) | pulse (p : Nat) | ppsFall | supplyOn (g : Nat)
  | linkRestart (n : Nat) | supervision (p : Nat) | supSend (p : Nat) | syncTimeout | syncSend (n : Nat)
  | pairRetry
  | rollWait | rollPeriod | healthPeriod | dirSilent | keyRetry (n : Nat)
  | screeRetest (k : Nat)
  | brkArm (n : Nat) | brkResume (b : Nat)
  | carrier | cardPower | ping | pingHold | fieldIdle | haltSilence | cartIns
  | curtainZero | unlockBlock
  | sessPending (n : Nat) | sessIdle (n : Nat) | relay (k : Nat)
  deriving DecidableEq, Repr

/-- A Prompt Book record (R412); `words` is DETAIL. -/
structure Rec where
  st : DWord
  seq : Word
  code : Nat
  sev : Nat
  sum : Bool
  src : Nat
  rep : Nat
  words : List Word
  deriving DecidableEq, Repr

/-- A Col violation record (R226). -/
structure Viol where
  unit : Nat
  index : Nat
  av : Bool
  kind : Nat
  straddle : Bool
  master : Nat
  region : Nat
  hard : Bool
  addr : Word
  deriving DecidableEq, Repr

/-- A late bus error (R191). -/
structure LateErr where
  av : Bool
  kind : Nat
  size : Nat
  count : Nat
  addr : Word
  deriving DecidableEq, Repr

/-- A store waiting in a core's store buffer (R159). -/
structure BufStore where
  addr : Word
  size : Nat
  data : DWord
  deriving DecidableEq, Repr

/-- Something that left the device: the channel it left on, its kind there, and its bytes. Mark: DESIGN CHOICE (log 118, 121). -/
structure Sent where
  chan : Nat
  kind : Nat
  body : List Byte
  deriving DecidableEq, Repr

/-- A mirror line as the link carries it (R213): its bytes, and the words that are poisoned. -/
structure MirrorLine where
  bank : Nat
  line : Nat
  bytes : List Byte
  poison : List Nat
  deriving DecidableEq, Repr

/-- Terrace: current and sending dirty sets by bank, the rescue buffer, corrected words awaiting write-back, uncorrectable words, and writes that wait for
the rescue buffer (R203, R212 to R215). -/
structure Terr where
  cur : List (Nat × BitVec 4096)
  send : List (Nat × BitVec 4096)
  rescue : List MirrorLine
  writeback : List Nat
  bad : List Nat
  blocked : List (Nat × Nat × List Byte)
  deriving DecidableEq, Repr

/-- A Wings queue (R117): its state record, field by field, and a W3 that was written and awaits the next enqueue, release or enable (R118): THRESH, IDLE, LINE, NEN. -/
structure QRec where
  base : Nat
  profile : Nat
  v : Bool
  esize : Nat
  depth : Nat
  fullcnt : Nat
  tail : Nat
  head : Nat
  thresh : Nat
  idle : Nat
  line : Nat
  nen : Bool
  armed : Bool
  next : Option (Nat × Nat × Nat × Bool)
  deriving DecidableEq, Repr

/-- A queue whose state record is all zeros. -/
def QRec.off : QRec :=
  { base := 0, profile := 0, v := false, esize := 0, depth := 0, fullcnt := 0, tail := 0, head := 0, thresh := 0, idle := 0, line := 0,
    nen := false, armed := false, next := none }

/-- A copy enqueue under way: its bytes stand in Wings' buffer (R122). -/
structure Copy where
  queue : Nat
  master : Nat
  bytes : List Byte
  deriving DecidableEq, Repr

/-- Wings: queues, notify FIFOs and their overflow flags, copies under way (R117 to R129). -/
structure Wing where
  queues : List (Nat × QRec)
  notify : List (Nat × List Nat)
  ovf : List (Nat × Bool)
  copies : List Copy
  deriving DecidableEq, Repr

/-- Stage Time (R36 to R51): the number of the current frame's boundary on the grid and whether it is valid; the last 16 frequency terms, the frequency term
in use, when HOLDOVER began, the last sample's offset and time, good and bad samples in a row; for R44 the PTP samples of successive intervals, the time of the last one, the
on-time marks of the last three valid IRIG-B frames (newest first) and whether IRIG-B takes over at its next mark; the rate accumulator, and the high words that a read of
a low word latches for each master. -/
structure STime where
  gridN : Int
  valid : Bool
  hist : List Int
  freq : Int
  holdSince : Int
  lastE : Int
  lastAt : Option Int
  good : Nat
  bad : Nat
  ptpSeen : Nat
  ptpLast : Option Int
  irigMarks : List Int
  switchDue : Bool
  rateAcc : Int
  nowHi : List (Nat × Word)
  coarseHi : List (Nat × Word)
  frameHi : List (Nat × Word)
  deriving DecidableEq, Repr

/-- A ticket in OPEN or LATE (R62, R64): `serial` tells one allocation of a number from the next. -/
structure Ticket where
  cue : Nat
  owner : Option Nat
  deadline : Option Nat
  late : Bool
  since : Nat
  age : Nat
  serial : Nat
  deriving DecidableEq, Repr

/-- The ticket a launch carries. -/
structure TicketRef where
  num : Nat
  serial : Nat
  deriving DecidableEq, Repr

/-- An occurrence of a cue: index, time, the tick at which the engine handles it, and the entry's words. -/
structure Occ where
  idx : Nat
  time : Nat
  at_ : Nat
  w0 : Word
  w1 : Word
  w2 : Word
  w3 : Word
  deriving DecidableEq, Repr

/-- The cue engine (R52 to R70): live table (word `k` of entry `i` at 4i + k), change list, tickets, the serial of the next ticket, the earliest time a standing cue
may have, when RUN was last set, one-shot cues that the last step passed over, the standing occurrences already handled, pre-issued cues that wait for room, occurrences of the last
frame still to be handled, and the cues launched in the current tick. -/
structure Cue where
  table : List (Nat × Word)
  changes : List (Nat × List Word)
  tickets : List (Nat × Option Ticket)
  serial : Nat
  floor : Nat
  runSince : Nat
  stepped : List (Nat × Nat)
  standDone : List (Nat × Nat)
  waiting : List Occ
  carry : List Occ
  dispTick : Nat
  dispCnt : Nat
  deriving DecidableEq, Repr

/-- The configuration a gather works on (R130). -/
structure EnsCfg where
  en : Bool
  holdMax : Nat
  double : Bool
  qwords : Bool
  fmt : Bool
  core : Nat
  nstream : Nat
  nch : Nat
  smpOfs : Nat
  matrix : Nat
  lag : Nat
  qmask : Nat
  members : List Nat
  deriving DecidableEq, Repr

/-- The last accepted row of a member (R133). -/
structure HeldRow where
  frame : Nat
  arr : Nat
  smp : Nat
  sync : Nat
  qor : Nat
  values : List Byte
  quality : List Byte
  deriving DecidableEq, Repr

/-- A gather under way or waiting (R135), with the held rows of the old set where a commit changed its ensemble while it ran (R26). -/
structure Gather where
  ens : Nat
  frame : Nat
  cfg : EnsCfg
  ticket : Option TicketRef
  epoch : Nat
  oldHeld : Option (List (Nat × Option HeldRow))
  deriving DecidableEq, Repr

/-- Ensembles: GEN and configuration epoch of each, rows held, gathers running and waiting. -/
structure Ens where
  gens : List (Nat × Nat)
  epochs : List (Nat × Nat)
  held : List (Nat × Option HeldRow)
  running : List Gather
  waiting : List Gather
  deriving DecidableEq, Repr

/-- A packer channel (R138 to R142): current bank, its fill, the bytes of the word not yet full, whether the other bank is returned, bytes lost since the last
descriptor, SEQ, and whether a full bank waits. -/
structure Packer where
  cur : Nat
  fill : Nat
  tail : List Byte
  otherFree : Bool
  lost : Bool
  seq : Nat
  blocked : Bool
  deriving DecidableEq, Repr

/-- A channel at reset. -/
def Packer.off : Packer := { cur := 0, fill := 0, tail := [], otherFree := false, lost := false, seq := 0, blocked := false }

/-- A cue pin (R229 to R237): commanded level, level held from entry to a held mode, what an external circuit drives, last accepted input level, candidate edge
(stamp and fraction), whether it drives its commanded level, readback from when, mismatch since when, a current mismatch, booked, and the time of the last
PIN_SET accepted for it. -/
structure PinSt where
  cmd : Option Bool
  hold : Option Bool
  ext : Option Bool
  acc : Bool
  cand : Option (Nat × Nat)
  drv : Bool
  rbFrom : Option Nat
  rbStart : Option Nat
  mis : Bool
  booked : Bool
  lastCue : Option Nat
  deriving DecidableEq, Repr

/-- A pin after a reset: no commanded level, nothing at its ball (R244). -/
def PinSt.off : PinSt :=
  { cmd := none, hold := none, ext := none, acc := false, cand := none, drv := false, rbFrom := none, rbStart := none, mis := false, booked := false,
    lastCue := none }

/-- A PIN_SET with its group's scheduler (R232). -/
structure PinCue where
  pin : Nat
  op : Nat
  width : Nat
  time : Nat
  ticket : Option TicketRef
  deriving DecidableEq, Repr

/-- The cue pins: pins, pre-issued cues, groups whose outputs drive, group supplies, the first commit made, pins held in safe states, the core supply lost, the last
second a 1PPS output marked, and the IRIG-B frames that stepped by 1 s. -/
structure PinsSt where
  pins : List (Nat × PinSt)
  pre : List PinCue
  drive : List Nat
  supply : List (Nat × Option Nat)
  configured : Bool
  held : Bool
  dead : Bool
  ppsLast : Option Nat
  irigRun : Nat
  irigLast : Option Int
  deriving DecidableEq, Repr

/-- The switch tables (R110): live words and the change list. -/
structure Sw where
  table : List (Nat × Word)
  changes : List (Nat × List Word)
  deriving DecidableEq, Repr

/-- A stream key and its identifier (R87). -/
structure KeyVal where
  kid : Nat
  len256 : Bool
  value : Nat
  deriving DecidableEq, Repr

/-- A stream-key entry (R87). -/
structure StreamKey where
  state : Nat
  cur : Option KeyVal
  other : Option KeyVal
  change : Nat
  overlap : Nat
  deriving DecidableEq, Repr

/-- An EMPTY entry. -/
def StreamKey.empty : StreamKey := { state := 0, cur := none, other := none, change := 0, overlap := 0 }

/-- A push in the SOLOIST change list. -/
structure KeyPush where
  erase : Bool
  next : Bool
  key : Option KeyVal
  change : Nat
  overlap : Nat
  deriving DecidableEq, Repr

/-- The Soloists: stream keys, change list, times of each one's faults within the last second (R311). -/
structure Sol where
  keys : List (Nat × StreamKey)
  changes : List (Nat × KeyPush)
  faults : List (Nat × List Nat)
  deriving DecidableEq, Repr

/-- A frame in an authentication buffer with its stream and arrival timestamp (R75). -/
structure AuthItem where
  port : Nat
  frame : RxFrame
  stream : Nat
  words : List Word
  st : Nat
  frac : Nat
  deriving DecidableEq, Repr

/-- A duplicate-discard entry (R93). -/
structure DdEntry where
  smac : Nat
  seq : Nat
  made : Nat
  deriving DecidableEq, Repr

/-- An egress frame: its descriptor and the bytes fetched, none where the fetch failed. -/
structure EgFrame where
  desc : Nat
  data : Option (List Byte)
  deriving DecidableEq, Repr

/-- A pre-issued release list (R26, R102): its entry's word and its descriptors as they stood then, and the frames fetched for the port and for the other port of a pair. -/
structure RelPre where
  list : Nat
  time : Nat
  ticket : Option TicketRef
  word : Word
  descs : Option (List Nat)
  frames : List EgFrame
  frames2 : List EgFrame
  deriving DecidableEq, Repr

/-- A list being sent on a port: the release it belongs to and the frames left, each with its redundancy sequence number. -/
structure RelJob where
  rel : Nat
  frames : List (EgFrame × Nat)
  deriving DecidableEq, Repr

/-- A release under way: the ports still to finish. -/
structure RelOpen where
  id : Nat
  ticket : Option TicketRef
  left : Nat
  dropped : Bool
  deriving DecidableEq, Repr

/-- A forwarded frame, or a frame of the Troupe agent (`own`), that waits for egress: its queue, its bytes, and for a PTP message that a transparent clock corrects the arrival timestamp less the link delay of the port it
arrived on, in units of 7.8125 ps (R97, R106). -/
structure FwdFrame where
  queue : Nat
  bytes : List Byte
  ptp : Option Int
  own : Bool
  deriving DecidableEq, Repr

/-- The second copy of a queue 0 to 6 frame, which leaves on the other port of a redundant pair: its queue, the frame, its sequence number (R92, R94). -/
structure Twin where
  queue : Nat
  frame : EgFrame
  seq : Nat
  deriving DecidableEq, Repr

/-- A station port: what is on the wire (0 nothing, 1 a frame of queues 0 to 6, 2 a frame of a release list), lists, pre-issued lists, forwarded frames, second copies,
the token buckets of R90 (checking, signing), the transmit time of a Pdelay_Req, the mean link delay, the sequence numbers of Sync and Pdelay_Req, and the residence times of
forwarded Syncs whose Follow_Up is awaited, by source and sequence number. -/
structure Port where
  busy : Nat
  jobs : List RelJob
  pre : List RelPre
  fwd : List FwdFrame
  twins : List Twin
  credit : Nat
  creditAt : Nat
  signCredit : Nat
  signAt : Nat
  t1 : Option Nat
  delay : Nat
  syncSeq : Nat
  reqSeq : Nat
  resid : List (List Byte × Int)
  deriving DecidableEq, Repr

/-- A port at reset, its token buckets full. -/
def Port.reset : Port :=
  { busy := 0, jobs := [], pre := [], fwd := [], twins := [], credit := 500000, creditAt := 0, signCredit := 500000, signAt := 0, t1 := none, delay := 0,
    syncSeq := 0, reqSeq := 0, resid := [] }

/-- The station ports: ports, authentication buffers, duplicate tables, pair sequence counters, releases under way and ended, PTP messages for the Stage
Manager. -/
structure PortsSt where
  port : List (Nat × Port)
  auth : List (Nat × List AuthItem)
  dd : List (Nat × List DdEntry)
  seq : List (Nat × Nat)
  rels : List RelOpen
  nextId : Nat
  ended : List Nat
  ptpMsgs : List (List Byte)
  deriving DecidableEq, Repr

/-- The trace FIFO (R426). -/
structure Trace where
  items : List (Nat × List Byte)
  fill : Nat
  overflow : Nat
  deriving DecidableEq, Repr

/-- A limiter key in use (R418): code and SRC, when its window ends, records written in it, the held record, when it was last used. -/
structure LimKey where
  code : Nat
  src : Nat
  stop : Nat
  count : Nat
  held : Option Rec
  seen : Nat
  deriving DecidableEq, Repr

/-- The Prompt Book (R412 to R424): input FIFO; rules' own limits (last written, folded since) by key; limiter keys; the ring, oldest first, each record with its archived flag;
the next SEQ; the record each read page has latched; FILL_ALARM's threshold reached; archive: what its command does (0 nothing, 1 erases the next block, 2 programs
a pair, 3 clears a block), the SEQs of that pair, whether the next block stands erased, blocks skipped in this pass, blocks to clear, SEQs held by pair. -/
structure Book where
  inFifo : List Rec
  ruleLim : List (Nat × Option (Nat × Nat))
  keys : List LimKey
  ring : List (Rec × Bool)
  nextSeq : Nat
  latched : List (Nat × Option Rec)
  full : Bool
  archJob : Nat
  archSeqs : List Nat
  nextErased : Bool
  skipped : List Nat
  toClear : List Nat
  archived : List (Nat × List Nat)
  deriving DecidableEq, Repr

/-- The Prompt Book of a device with an empty archive: SEQ starts at 1 (R415). -/
def Book.new : Book where
  inFifo := []; ruleLim := []; keys := []; ring := []; nextSeq := 1; latched := []; full := false; archJob := 0; archSeqs := []; nextErased := false
  skipped := []; toClear := []; archived := []

/-- A Double-take evaluation between its two paths (R345): its cue's time, when it started, path 1's outcome and word, the live set it began on where a commit has changed it since (R26), and whether a mirror cue has counted it into its window (R269). Mark: DESIGN CHOICE (log 92). -/
structure DtEval where
  group : Nat
  due : Nat
  start : Nat
  delay : Nat
  frame : Nat
  ticket : Option TicketRef
  first : Nat × Nat
  old : Option (List (Nat × Word))
  counted : Bool
  deriving DecidableEq, Repr

/-- Double-take (R342 to R347): the frame of each group's verdict, the times of the disagreements within the window, evaluations under way, agreed words waiting for
their commit time (group, time, word), the frame and ticket of the last CORE_IRQ dispatch of each cue, and a disagreement on this device's own commits. -/
structure Dtake where
  frames : List (Nat × Option Nat)
  times : List Nat
  evals : List DtEval
  agreed : List (Nat × Nat × Nat)
  acts : List (Nat × Option (Nat × Option TicketRef))
  ownDisagree : Bool
  deriving DecidableEq, Repr

/-- A mirror transfer being sent (R255 to R257): what the mirror cue captured, the lines read so far, control bytes sent since. -/
structure Xfer where
  start : Nat
  ticket : Option TicketRef
  msg : MirrorMsg
  lines : List MirrorLine
  control : Nat
  deriving DecidableEq, Repr

/-- A window's digests (R269): frame, DIGEST, PDIGEST. -/
structure Digests where
  frame : Nat
  digest : Nat
  pdigest : Nat
  deriving DecidableEq, Repr

/-- Mirrored items kept in REHEARSAL (R259). -/
structure Kept where
  pins : Option (List Byte)
  config : List CfgItem
  cues : List (Nat × List Word)
  deriving DecidableEq, Repr

/-- The Understudy (R246 to R274).
Handover: phase (0 none, 1 HANDING, 2 READY sent, 3 switch committed), SWITCH frame, departure, a departure requested, a wait booked, READY arrived, the first frame
of the next attempt, healthy pulses in a row. Windows: decision words and gather maps since the last mirror cue. Link: lanes up, JOIN written, link keys, pairing
messages, the partner's signatures verified. Sending: what the partner holds of each item, a resynchronisation asked for, an epoch open, the transfer, control
frames sent in this frame. Detection: a pulse and an edge since the last check, how far the last pulse's ST stood from this device's, checks with a wrong partner mode, failure declared, dual lead seen, INTERVAL seen,
a takeover due since a frame. Receiving: mirrors not yet verified, mirrors to apply, the one being applied and whether it was promoted, an unbroken epoch, the first full
mirror applied, mirrors that wait in the receive buffer for their half of the landing area, kept items, the holds of frame A, the last applies. Shadow: own and received digests, mismatches in a row, comparisons until SHADOW_OK, UNFIT. Self-tests that fail,
the last one's code, SEAL_OK. Heartbeat: frames since FEED, output level. The high word a read of APPLIED_LO latches. -/
structure Und where
  ho : Nat
  hoSwitch : Nat
  hoDeparture : Bool
  hoRequest : Bool
  hoWaiting : Bool
  hoReady : Bool
  hoNext : Nat
  goodPulses : Nat
  force : Bool
  commits : List (Nat × Nat)
  gathers : List (Nat × Nat × Nat)
  lanes : List Nat
  joined : Bool
  keys : List Byte
  helloP : List Byte
  helloS : List Byte
  keyMsg : List Byte
  authOk : Bool
  sentPins : Option (List Byte)
  sentConfig : List (Nat × Option Word)
  sentCues : List (Nat × Option (List Word))
  sentQueues : List (Nat × Option (Nat × Nat × Nat))
  epochReq : Bool
  epochOpen : Bool
  xfer : Option Xfer
  ctlSent : Nat
  pulseSeen : Bool
  pulseDiff : Int
  aliveSeen : Bool
  peerPulse : Bool
  peerAlive : Bool
  badMode : Nat
  failed : Bool
  dual : Bool
  dualDue : Bool
  peerInterval : Bool
  takeDue : Option Nat
  arrived : List (MirrorMsg × Bool)
  accepted : List MirrorMsg
  applying : Option MirrorMsg
  promoted : Bool
  epochWhole : Bool
  firstFull : Bool
  parked : List (MirrorMsg × Bool)
  kept : Kept
  openHold : Word
  applies : List (Nat × Nat)
  cueFrame : Nat
  own : List Digests
  received : List Digests
  mismatches : Nat
  shadowWait : Nat
  unfit : Bool
  failing : List Nat
  failCode : Nat
  sealOk : Bool
  feedAge : Option Nat
  aliveOut : Bool
  hiLatch : List (Nat × Word)
  deriving DecidableEq, Repr

/-- The Understudy after a reset. Mark: DESIGN CHOICE (log 5). -/
def Und.reset : Und where
  ho := 0; hoSwitch := 0; hoDeparture := false; hoRequest := false; hoWaiting := false; hoReady := false; hoNext := 0; goodPulses := 0
  force := false; commits := []; gathers := []; lanes := []; joined := false; keys := []; helloP := []; helloS := []; keyMsg := []
  authOk := false; sentPins := none; sentConfig := []; sentCues := []; sentQueues := []; epochReq := false; epochOpen := false; xfer := none
  ctlSent := 0; pulseSeen := false; pulseDiff := 0; aliveSeen := false; peerPulse := false; peerAlive := false; badMode := 0; failed := false; dual := false
  dualDue := false; peerInterval := false; takeDue := none; arrived := []; accepted := []; applying := none; promoted := false
  epochWhole := false; firstFull := false; parked := []; kept := ({ pins := none, config := [], cues := [] } : Kept); openHold := 0; applies := []
  cueFrame := 0; own := []; received := []; mismatches := 0; shadowWait := 0; unfit := false; failing := []; failCode := 0; sealOk := false
  feedAge := none; aliveOut := false; hiLatch := []

/-- A KEY exchange of the Director with one member (R285, R288): retries so far, the session key it began under and keeps, the payload. -/
structure KeyExch where
  slot : Nat
  entry : Nat
  kid : Nat
  change : Nat
  overlap : Nat
  retries : Nat
  key : List Byte
  body : List Byte
  deriving DecidableEq, Repr

/-- The Troupe agent (R275 to R289): messages sent since the roll call, the roll call's nonce and whether it is open, broadcast keys (current and old), session keys by
slot and a Player's old one, kept for an open exchange, last sequence numbers by slot and key (1 session, 2 broadcast, 3 old session), slots that answered and that were welcomed, members heard since the last period and
periods missed, times of the last HEALTH, open KEY exchanges, a Player's INTERVAL (S, E, entered), records to summarise, the second and count of the summary limit, the
grid epoch of the last CALL, statuses of INTERVAL_ACK by slot; a roll call owed since the last entry to a mode, a Player's last ATTEST and its draw, and the KEYs (slot, entry) that went
unacknowledged. -/
structure Troupe where
  seq : Nat
  nonce : Nat
  rolling : Bool
  bkey : Option (List Byte)
  oldBkey : Option (List Byte)
  sessions : List (Nat × Option (List Byte))
  oldSessions : List (Nat × Option (List Byte))
  lastSeq : List (Nat × Nat)
  answered : List Nat
  welcomed : List Nat
  heard : List Nat
  missed : List (Nat × Nat)
  healthAt : List (Nat × Option Nat)
  exchanges : List KeyExch
  interval : Option (Nat × Nat × Bool)
  sumQueue : List Rec
  sumAt : Nat
  sumCount : Nat
  epoch : Nat
  acks : List (Nat × Nat)
  rollDue : Bool
  attest : List Byte
  attestDraw : Nat
  keysFailed : List (Nat × Nat)
  deriving DecidableEq, Repr

/-- The agent after a reset. Mark: DESIGN CHOICE (log 5). -/
def Troupe.reset : Troupe where
  seq := 0; nonce := 0; rolling := false; bkey := none; oldBkey := none; sessions := []; oldSessions := []; lastSeq := []; answered := []
  welcomed := []; heard := []; missed := []; healthAt := []; exchanges := []; interval := none; sumQueue := []; sumAt := 0; sumCount := 0
  epoch := 0; acks := []; rollDue := false; attest := []; attestDraw := 0; keysFailed := []

/-- A Chorus key slot (R301, R302): USE has ENC in bit 0, DEC 1, GATE 2, WRAP 3; `epoch` counts its changes. -/
structure KeySlot where
  loaded : Bool
  len : Nat
  use : Nat
  users : Nat
  key : List Byte
  epoch : Nat
  deriving DecidableEq, Repr

/-- An EMPTY slot. -/
def KeySlot.empty : KeySlot := { loaded := false, len := 0, use := 0, users := 0, key := [], epoch := 0 }

/-- A push in the CHORUS change list. -/
structure SlotPush where
  erase : Bool
  len : Nat
  use : Nat
  users : Nat
  key : List Byte
  deriving DecidableEq, Repr

/-- A Chorus job (R292): the key it took when it started, and `status` once it has ended. -/
structure ChJob where
  op : Nat
  slot : Nat
  nblk : Nat
  src : Nat
  dst : Nat
  xsrc : Nat
  req : Nat
  key : List Byte
  status : Option Nat
  blocks : Nat
  deriving DecidableEq, Repr

/-- A release gate (R304): state, session's slot and requester, J0, E_K(J0), H, blocks and bytes decrypted, destination, session count, hold buffer, the slot's epoch. -/
structure Gate where
  state : Nat
  slot : Nat
  req : Nat
  compat : Bool
  j0 : List Byte
  ej0 : List Byte
  h : List Byte
  count : Nat
  dst : Nat
  seq : Nat
  hold : List Byte
  epoch : Nat
  deriving DecidableEq, Repr

/-- A gate at reset. -/
def Gate.idle : Gate :=
  { state := 0, slot := 0, req := 0, compat := false, j0 := [], ej0 := [], h := [], count := 0, dst := 0, seq := 0, hold := [], epoch := 0 }

/-- A Chorus channel: jobs queued, the job that runs, its gate. -/
structure ChState where
  queue : List ChJob
  running : Option ChJob
  gate : Gate
  deriving DecidableEq, Repr

/-- A channel at reset. -/
def ChState.idle : ChState := { queue := [], running := none, gate := Gate.idle }

/-- The Chorus (R290 to R309): slots, change list, unwrap buffer, keys waiting on the Massif key bus, context key and save count, channels, and the channels that the scheduler served last
in its higher and its lower class (R298). -/
structure Chorus where
  slots : List (Nat × KeySlot)
  changes : List (Nat × SlotPush)
  unwrap : Option (List Byte)
  bus : List (List Byte)
  ctxKey : List Byte
  saves : Nat
  chans : List (Nat × ChState)
  turnHigh : Nat
  turnLow : Nat
  deriving DecidableEq, Repr

/-- A Massif key register (R318): its type and its content. -/
structure MKey where
  type : Nat
  bytes : List Byte
  deriving DecidableEq, Repr

/-- A Massif job (R316): its descriptor, page and requester; the keys it took when it started; how it ended. -/
structure MJob where
  op : Nat
  keyref : Nat
  dkey : Nat
  twice : Bool
  keybus : Bool
  nout : Nat
  src : Nat
  srclen : Nat
  dst : Nat
  dstlen : Nat
  ctx : Nat
  tag : Nat
  page : Nat
  req : Nat
  key : List Byte
  key2 : List Byte
  status : Option Nat
  valid : Bool
  deriving DecidableEq, Repr

/-- The Massif (R313 to R324): key registers, queues and running jobs by class (0 SHORT, 1 LONG, 2 HASH), the LONG job yielded, whose operands each partition holds
and whether that job named a key register (R322), times of withheld results within the last second. -/
structure Massif where
  keys : List (Nat × Option MKey)
  queues : List (Nat × List MJob)
  running : List (Nat × Option MJob)
  yielded : Bool
  parts : List (Nat × List (Nat × Bool))
  withheld : List Nat
  deriving DecidableEq, Repr

/-- The working state of a generator of SP 800-90A: whether it has been instantiated, its key and its counter. -/
structure DrbgState where
  live : Bool
  key : List Byte
  v : List Byte
  deriving DecidableEq, Repr

/-- A generator that has not been instantiated. -/
def DrbgState.off : DrbgState := { live := false, key := [], v := [] }

/-- How the two health tests of a noise source stand: whether a bit has been seen, the last bit and its run, the place in the window, its first bit and how often that has come. -/
structure NoiseTrack where
  seen : Bool
  last : Bool
  run : Nat
  pos : Nat
  first : Bool
  same : Nat
  deriving DecidableEq, Repr

/-- A source that has given no sample. -/
def NoiseTrack.new : NoiseTrack := { seen := false, last := false, run := 0, pos := 0, first := false, same := 0 }

/-- The Scree (R325 to R329): sources still in their start-up samples, failures of each, generate requests of instance 1 since it was seeded, when each instance was seeded, test words that await the
conditioning, the two generators, the health tests of each source, how many test words have come, the instances that wait for entropy (with true: to be instantiated), the seeds of the
countermeasure streams (eight Chorus cores, three Soloists, Double-take) and when they were drawn. -/
structure Scree where
  starting : List Nat
  fails : List (Nat × Nat)
  requests : Nat
  seeded : List (Nat × Nat)
  test : List Word
  inst : List (Nat × DrbgState)
  tracks : List (Nat × NoiseTrack)
  words : Nat
  owed : List (Nat × Bool)
  cm : List (List Byte)
  cmAt : Nat
  deriving DecidableEq, Repr

/-- A Bedrock command that its checks accepted (R361 to R364): issuing master, its command page if it has one, operation, bank, address, source, source data given with it,
and whether it has started. -/
structure BrkCmd where
  master : Nat
  page : Option Nat
  op : Nat
  bank : Nat
  addr : Nat
  src : Nat
  data : Option (List Byte)
  started : Bool
  deriving DecidableEq, Repr

/-- Bedrock (R355 to R369): unlock progress of each command page (1 after the first word, 2 armed), commands in order of acceptance, page states by address (1 DONE, 2
TORN), erase counts by block address and of the spares (key: the bank), lines that no longer correct, lines that correct with errors (R356), the patrol FIFO and its overflow
flag, when patrol's last pass over each bank ended. -/
structure Brk where
  armed : List (Nat × Nat)
  cmds : List BrkCmd
  pages : List (Nat × Nat)
  erases : List (Nat × Nat)
  badLines : List Nat
  softLines : List Nat
  patrol : List (Nat × Nat × Nat)
  patrolOvf : Bool
  passAt : List (Nat × Nat)
  deriving DecidableEq, Repr

/-- Bedrock with nothing programmed. -/
def Brk.new : Brk := { armed := [], cmds := [], pages := [], erases := [], badLines := [], softLines := [], patrol := [], patrolOvf := false, passAt := [] }

/-- A generation record of the tag store (R444). -/
structure TagGen where
  gen : Nat
  copy : Nat
  mbMax : Nat
  mbWr : Bool
  deriving DecidableEq, Repr

/-- A journal slot whose marker is valid (R443): destination page, data of its pages, new MB_COUNT, sequence number. -/
structure TagSlot where
  dest : Nat
  data : List Byte
  count : Nat
  seq : Nat
  deriving DecidableEq, Repr

/-- The badge port (R429 to R446).
Tag store: bytes of the stored pages, uncorrectable pages, generation records, MB_COUNT, journal slots J0 and J1, the next slot to use and its sequence number. Host commit: staging
buffer, MB_MAX to place, pages programmed when it last started or resumed and when that was. Reader: transmit and receive buffers, carrier, operation, last pings, operator entry of the last
authenticated badge. Tag: VDD_BADGE present, external field present, protocol state (0 unpowered, 1 idle, 2 ready, 3 active, 4 ISO-DEP session, 5 deselected), cascade levels selected, halt
silence, copy the session has latched. -/
structure Badge where
  store : List (Nat × Byte)
  badPages : List Nat
  g0 : TagGen
  g1 : TagGen
  mbCount : Nat
  slots : List (Nat × Option TagSlot)
  nextSlot : Nat
  slotSeq : Nat
  staging : List (Nat × Byte)
  newMax : Nat
  done : Nat
  since : Nat
  tx : List (Nat × Byte)
  rx : List Byte
  carrier : Bool
  op : Option Nat
  pings : List Nat
  lastBadge : Option Nat
  summaryDue : Bool
  vdd : Bool
  field : Bool
  tag : Nat
  level : Nat
  silent : Bool
  latched : Option Nat
  deriving DecidableEq, Repr

/-- A badge port whose tag store is as it left FACTORY: generation 0, an empty mailbox. Mark: DESIGN CHOICE (log 4). -/
def Badge.new : Badge where
  store := []; badPages := []; g0 := { gen := 0, copy := 0, mbMax := 0, mbWr := false }; g1 := { gen := 0, copy := 0, mbMax := 0, mbWr := false }
  mbCount := 0; slots := []; nextSlot := 0; slotSeq := 0; staging := []; newMax := 0; done := 0; since := 0; tx := []; rx := []
  carrier := false; op := none; pings := []; lastBadge := none; summaryDue := false; vdd := true; field := false; tag := 1; level := 0; silent := false; latched := none

/-- A journal record (R455), with the block of the ring it stands in. -/
structure JRec where
  pos : Nat
  seq : Nat
  name : List Byte
  gen : Nat
  gone : Bool
  len : Nat
  first : Nat
  blocks : Nat
  crc : Nat
  deriving DecidableEq, Repr

/-- The cartridge port (R447 to R458): operation running (OP, card, blocks, LBA, buffer), and of the mounted card: formatted, blank enough to be formatted, its number of blocks, highest SEQ, head of
the ring, live records, live files; the bytes and first blocks of the extents being written. -/
structure Cart where
  op : Option (Nat × Nat × Nat × Nat × Nat)
  mounted : Bool
  formatted : Bool
  blank : Bool
  count : Nat
  seq : Nat
  head : Nat
  recs : List JRec
  files : List VFile
  parts : List (List Byte × List Byte)
  exts : List (List Byte × Nat)
  deriving DecidableEq, Repr

/-- The port with no card. -/
def Cart.off : Cart := { op := none, mounted := false, formatted := false, blank := false, count := 0, seq := 0, head := 0, recs := [], files := [], parts := [], exts := [] }

/-- A Refuge log entry (R351): seconds, sub-seconds, whether on the cell, cause, TOTAL after it, COPIED, detail. -/
structure RLog where
  sec : Nat
  sub : Nat
  cell : Bool
  cause : Nat
  total : Nat
  copied : Bool
  detail : Word
  deriving DecidableEq, Repr

/-- The Refuge (R348 to R353): the share (none: zero), the log, oldest first, the clock in counts of 1/32,768 s as it stood at Stage Time `rtcAt`, conditions that fail now (cause
codes), a latch set on the cell and a loss of power not yet seen by a start, and whether VBAT supplies it. -/
structure Refuge where
  share : Option (List Byte)
  log : List RLog
  rtc : Nat
  rtcAt : Nat
  failing : List Nat
  cellAlarm : Bool
  lostNew : Bool
  onCell : Bool
  deriving DecidableEq, Repr

/-- A CURTAIN entry under way (R336): its cause, whether its class is Z, whether a commit was withheld. -/
structure CurEntry where
  cause : Nat
  z : Bool
  withheld : Bool
  deriving DecidableEq, Repr

/-- A session (R379 to R383): PENDING (1) or OPEN (2), on the station bus, operator entry (255: the claim), a service session of Octust, RIGHTS (R in bit 0, C 1, K 2, L 3), the command,
reply and transfer keys, T, the highest SEQ accepted and the accepted ones among the 63 below it, replies sent, AUTH_FAIL and REPLAY answers. -/
structure Sess where
  state : Nat
  troupe : Bool
  entry : Nat
  service : Bool
  rights : Nat
  kcmd : List Byte
  krep : List Byte
  kxfer : List Byte
  digest : List Byte
  high : Nat
  seen : List Nat
  rseq : Nat
  fails : Nat
  replays : Nat
  deriving DecidableEq, Repr

/-- A command in flight (R374): opcode, session (255: none), transport, whether its replies are protected, SEQ, payload, bytes it holds in the inbound buffer while it waits, phase (0 waits in its
group, 1 executes, 2 answered ACCEPTED), its session closed since, and what its completion needs. -/
structure Cmd where
  op : Nat
  sess : Nat
  troupe : Bool
  prot : Bool
  seq : Nat
  body : List Byte
  size : Nat
  phase : Nat
  mute : Bool
  note : List Nat
  deriving DecidableEq, Repr

/-- An image slot (R386, R387): 0 empty, 1 being transferred, 2 valid, 3 invalid, 4 its transfer abandoned by a mode change; length, digest, version. -/
structure Img where
  state : Nat
  len : Nat
  digest : List Byte
  version : Nat
  deriving DecidableEq, Repr

/-- A slot that holds nothing. -/
def Img.none : Img := { state := 0, len := 0, digest := [], version := 0 }

/-- A customer key in volume 0 (R330, R386): KEYID, type, KEK generation, blob, public-key digest. -/
structure StoredKey where
  id : Nat
  type : Nat
  gen : Nat
  blob : List Byte
  pub : List Byte
  deriving DecidableEq, Repr

/-- The Stage Manager's desk (R371 to R394): it runs; sessions; commands in flight, in order of arrival; replies in the outbound buffer and replies that wait for room; ERR; image slots by KIND, the KIND of the transfer that IMG_WRITE continues and the full act selected (1 A, 2 B);
customer keys, the KEK generation and the stream keys kept in volume 0 by entry; files of volume 0 and extents being written there; the numbers of the stored and the previous configuration's
digests (0: none). -/
structure Desk where
  running : Bool
  sessions : List (Nat × Option Sess)
  cmds : List Cmd
  out : List (List Byte)
  held : List (List Byte)
  err : Bool
  images : List (Nat × Img)
  xfer : Option Nat
  selected : Nat
  keys : List StoredKey
  kek : Nat
  streams : List (Nat × Option KeyVal)
  files : List VFile
  parts : List (List Byte × List Byte)
  storedCfg : Nat
  prevCfg : Nat
  deriving DecidableEq, Repr

/-- A desk at which nobody has opened a session. Mark: DESIGN CHOICE (log 4). -/
def Desk.new : Desk :=
  { running := false, sessions := [], cmds := [], out := [], held := [], err := false, images := [], xfer := none, selected := 1, keys := [], kek := 0,
    streams := [], files := [], parts := [], storedCfg := 0, prevCfg := 0 }

/-- Customer OTP and the identity digest (R330, R339): owner and unlock fingerprints (empty: blank), whether the digest of the identity certificate stands. -/
structure Otp where
  owner : List Byte
  unlock : List Byte
  cert : Bool
  deriving DecidableEq, Repr

/-- The start (R398 to R410, R467): the main domain is held in reset; a warm reset or a Steward restart (with its cause) is due; a warm reset due once the lifecycle is programmed; times of
Steward restarts; when JOIN was written; the free-running grid is kept on the merging units, and its first CALL is committed (R404); the grid has been moved onto PTP time (R405); the mode
of R406 is requested and its boundary awaited (R407); the full acts have been judged; the last edge on UL_ALIVE_IN; the release of reset on the present scale of Stage Time; VDDIO_AUX lost, and when it came back. Mark: DEDUCED (log 104). -/
structure Boot where
  held : Bool
  warmDue : Bool
  stwDue : Option Nat
  lcReset : Bool
  restarts : List Nat
  joinedAt : Option Nat
  aligning : Bool
  aligned : Bool
  onPtp : Bool
  settling : Bool
  judged : Bool
  aliveAt : Option Nat
  zeroAt : Int
  auxLost : Bool
  auxBack : Option Nat
  deriving DecidableEq, Repr

/-- One Ridge core (R145 to R184). Keys 1 to 63 of `g` are set 0 and keys 112 to 127 are set 1 of g48 to g63; `delay` holds the resolved next address
while the bundle at `pc` is a delay bundle; `shield` holds the bundle that issues before the next interrupt entry (R189);
`icache` lists the cached Bedrock lines, newest use first (R157). -/
structure CoreSt where
  pc : Word
  g : List (Nat × DWord)
  delay : Option Word
  cgear : Word
  xvec : Word
  xpc : Word
  xtgt : Word
  xcause : Word
  xaddr : Word
  xstat : Word
  ienable : Word
  cpoly : Word
  ccount : DWord
  stores : List BufStore
  icache : List Nat
  waiting : Bool
  shield : Bool
  running : Bool
  late : List LateErr
  lateLost : Bool
  lateAddr : Word
  deriving DecidableEq, Repr

/-- A core after its reset (R153, R154). Mark: DESIGN CHOICE (log 5), DEDUCED (log 46). -/
def CoreSt.reset : CoreSt where
  pc := 0; g := []; delay := none; cgear := 1; xvec := 0; xpc := 0; xtgt := 0; xcause := 0; xaddr := 0; xstat := 0; ienable := 0
  cpoly := 0x82F63B78#32; ccount := 0; stores := []; icache := []; waiting := false; shield := false; running := false
  late := []; lateLost := false; lateAddr := 0

/-- The state of the device. -/
structure State where
  /-- Register words by address, at their reset values where not listed: the staging copy of a staged register (R24). -/
  regs : List (Nat × Word)
  /-- Live copies of staged registers. -/
  live : List (Nat × Word)
  /-- Live counters behind snapshot registers (R115). -/
  cnt : List (Nat × Word)
  /-- Core-local RAM, Terrace, Bedrock, boot ROM and OTP, byte by byte at global addresses. -/
  mem : List Host.Cell
  /-- Stage Time (R36). -/
  st : DWord
  /-- Main power is on. -/
  power : Bool
  timers : List (Timer × Nat)
  /-- Sources that fire at most once a frame and have fired in this one. -/
  frameOnce : List Nat
  /-- The model's own counter: which free value comes next. -/
  fresh : Nat
  /-- What has left the device, in order. -/
  wire : List Sent
  /-- Commands that wait, first in, first out. -/
  pending : List Instr
  /-- Curtain sources asserted by a unit in the command under way. -/
  alarms : List Nat
  viol : List Viol
  violOvf : Bool
  violAddr : List (Nat × Word)
  cores : List (Nat × CoreSt)
  packers : List (Nat × Packer)
  book : Book
  trace : Trace
  terr : Terr
  wing : Wing
  stime : STime
  cue : Cue
  ens : Ens
  pin : PinsSt
  sw : Sw
  sol : Sol
  ports : PortsSt
  dtake : Dtake
  us : Und
  chorus : Chorus
  /-- Cues that pending commits with WHEN = 0b10 name, by block base (R28). -/
  pendCue : List (Nat × Nat)
  /-- A mode transition accepted for the next boundary (R19). -/
  modeReq : Option Mode
  /-- The lifecycle being programmed (R21). -/
  lcTarget : Nat
  /-- What the last read of this interface returned. -/
  rdata : DWord
  troupe : Troupe
  massif : Massif
  scree : Scree
  brk : Brk
  badge : Badge
  cart : Cart
  refuge : Refuge
  /-- The CURTAIN entry whose zeroing runs (R336). -/
  curtain : Option CurEntry
  /-- Fabric cycles that requests of each master have waited in this frame (TERRACE_CFG.ALARM). -/
  waits : List (Nat × Nat)
  /-- Ensembles (by the key of their window) and trunk bank entries whose staging copies were written since the last commit (R130, R208). -/
  written : List Nat
  /-- The signed configuration in force, by the number of its digest (R387). -/
  cfg : Nat
  desk : Desk
  otp : Otp
  boot : Boot
  deriving DecidableEq, Repr

/-- The Massif at reset. Mark: DESIGN CHOICE (log 5). -/
def Massif.reset : Massif := { keys := [], queues := [], running := [], yielded := false, parts := [], withheld := [] }

/-- At a main-domain reset every source starts its 1,024 samples, and both instances are new. Mark: DESIGN CHOICE (log 75). -/
def Scree.reset : Scree := { starting := [0, 1, 2, 3, 4, 5, 6, 7], fails := [], requests := 0, seeded := [], test := [], inst := [], tracks := [], words := 0, owed := [], cm := [], cmAt := 0 }

/-- The Refuge of a commissioned device: a share, a running clock, a healthy cell, an empty log. Mark: DESIGN CHOICE (log 4). -/
def Refuge.commissioned : Refuge :=
  { share := some (Config.freshKey 0), log := [], rtc := 0, rtcAt := 0, failing := [], cellAlarm := false, lostNew := false, onCell := false }

/-- Nothing is due. -/
def Boot.reset : Boot :=
  { held := false, warmDue := false, stwDue := none, lcReset := false, restarts := [], joinedAt := none, aligning := false, aligned := false, onPtp := false,
    settling := false, judged := false, aliveAt := none, zeroAt := 0, auxLost := false, auxBack := none }

/-- The device right after a power-on reset (R398, R399): lifecycle ISSUED with no latched curtain, so REHEARSAL (R17); every register at its reset value, Stage Time, CALL and frame 0, nothing in any
buffer; the Stage Manager has not started. What stands in OTP, Bedrock and the Refuge is a choice of the model: a commissioned Refuge, no image, no owner. Mark: DESIGN CHOICE (log 4, 5). -/
def State.reset : State where
  regs := [(0x40120000, 0x48000000#32)]
  live := []
  cnt := []
  mem := []
  st := 0
  power := true
  timers := []
  frameOnce := []
  fresh := 2
  wire := []
  pending := []
  alarms := []
  viol := []
  violOvf := false
  violAddr := []
  cores := []
  packers := []
  book := Book.new
  trace := { items := [], fill := 0, overflow := 0 }
  terr := { cur := [], send := [], rescue := [], writeback := [], bad := [], blocked := [] }
  wing := { queues := [], notify := [], ovf := [], copies := [] }
  stime := { gridN := 0, valid := true, hist := [], freq := 0, holdSince := 0, lastE := 0, lastAt := none, good := 0, bad := 0, ptpSeen := 0,
             ptpLast := none, irigMarks := [], switchDue := false, rateAcc := 0, nowHi := [], coarseHi := [], frameHi := [] }
  cue := { table := [], changes := [], tickets := [], serial := 0, floor := 0, runSince := 0, stepped := [], standDone := [], waiting := [], carry := [], dispTick := 0, dispCnt := 0 }
  ens := { gens := [], epochs := [], held := [], running := [], waiting := [] }
  pin := { pins := [], pre := [], drive := [], supply := [], configured := false, held := false, dead := false, ppsLast := none, irigRun := 0,
           irigLast := none }
  sw := { table := [], changes := [] }
  sol := { keys := [], changes := [], faults := [] }
  ports := { port := [], auth := [], dd := [], seq := [], rels := [], nextId := 0, ended := [], ptpMsgs := [] }
  dtake := { frames := [], times := [], evals := [], agreed := [], acts := [], ownDisagree := false }
  us := Und.reset
  chorus := { slots := [], changes := [], unwrap := none, bus := [], ctxKey := Config.freshKey 1, saves := 0, chans := [], turnHigh := 7, turnLow := 7 }
  pendCue := []
  modeReq := none
  lcTarget := 0
  rdata := 0
  troupe := Troupe.reset
  massif := Massif.reset
  scree := Scree.reset
  brk := Brk.new
  badge := Badge.new
  cart := Cart.off
  refuge := Refuge.commissioned
  curtain := none
  waits := []
  written := []
  cfg := 0
  desk := Desk.new
  otp := { owner := [], unlock := [], cert := true }
  boot := Boot.reset

end Sys2Proof.Machine
end

