-- ==== Sys2Proof/Machine/Ops.lean ====
section
/-! DEFINITION. The named operations over the state that every meaning shares: registers and their fields, staging and live copies, counters,
interrupt latches, Stage Time, timers, Prompt Book records, free values, memory bytes. -/

namespace Sys2Proof.Machine

/-! ## Registers -/

/-- The register word at address `a` (the staging copy of a staged register, R24). -/
def State.reg (s : State) (a : Nat) : Word := look regReset s.regs a

/-- Write a register word. -/
def State.setReg (s : State) (a : Nat) (w : Word) : State := { s with regs := put regReset s.regs a w }

/-- A field of a register. -/
def State.rd (s : State) (f : Fld) : Nat := getBits (s.reg f.addr) f.hi f.lo

/-- Write a field of a register, cut to its width. -/
def State.wr (s : State) (f : Fld) (v : Nat) : State := s.setReg f.addr (setBits (s.reg f.addr) f.hi f.lo v)

/-- A one-bit field as a flag. -/
def State.flag (s : State) (f : Fld) : Bool := s.rd f == 1

/-- The live copy of a staged register (R24). -/
def State.liveReg (s : State) (a : Nat) : Word := look regReset s.live a

/-- A field of a live copy. -/
def State.lv (s : State) (f : Fld) : Nat := getBits (s.liveReg f.addr) f.hi f.lo

/-- A one-bit field of a live copy as a flag. -/
def State.lvFlag (s : State) (f : Fld) : Bool := s.lv f == 1

/-- Write a live copy. -/
def State.setLive (s : State) (a : Nat) (w : Word) : State := { s with live := put regReset s.live a w }

/-- Count one in a field that saturates. -/
def State.sat (s : State) (f : Fld) (n : Nat := 1) : State := s.wr f (min (s.rd f + n) (f.card - 1))

/-- Count in a field that wraps. -/
def State.wrap (s : State) (f : Fld) (n : Nat := 1) : State := s.wr f (s.rd f + n)

/-- A live counter behind a snapshot register (R115, R216, R428). -/
def State.cntReg (s : State) (a : Nat) : Word := look (fun _ => 0#32) s.cnt a

/-- Write a live counter word. -/
def State.setCnt (s : State) (a : Nat) (w : Word) : State := { s with cnt := put (fun _ => 0#32) s.cnt a w }

/-- Count in a live counter that saturates. -/
def State.satCnt (s : State) (f : Fld) (n : Nat := 1) : State :=
  s.setCnt f.addr (setBits (s.cntReg f.addr) f.hi f.lo (min (getBits (s.cntReg f.addr) f.hi f.lo + n) (f.card - 1)))

/-- Count in a live counter that wraps. -/
def State.wrapCnt (s : State) (f : Fld) (n : Nat := 1) : State :=
  s.setCnt f.addr (setBits (s.cntReg f.addr) f.hi f.lo (getBits (s.cntReg f.addr) f.hi f.lo + n))

/-- The field `f` of ensemble `e`, behind the selected window of the ENSEMBLE block (R130). -/
def Fld.ens (f : Fld) (e : Nat) : Fld := ⟨0x100000000 + e * 0x1000 + (f.addr - Base.ENSEMBLE), f.hi, f.lo⟩

/-! ## Modes, lifecycle, roles (R2, R16) -/

/-- The operating mode in force (R16). -/
def State.mode (s : State) : Mode := Mode.ofCode (s.rd F.SYS_STATE_MODE)

/-- The lifecycle in force (R2). -/
def State.lifecycle (s : State) : Lifecycle := Lifecycle.ofCode (s.rd F.SYS_STATE_LIFECYCLE)

/-- Stage Time is not disciplined (SYS_STATE.UNSYNCED). -/
def State.unsynced (s : State) : Bool := s.flag F.SYS_STATE_UNSYNCED

/-- The mirrored state is stale (SYS_STATE.STALE). -/
def State.stale (s : State) : Bool := s.flag F.SYS_STATE_STALE

/-! ## Time -/

/-- Stage Time as a number of ticks. -/
def State.now (s : State) : Nat := s.st.toNat

/-- Is Stage Time running? It stops in CURTAIN (R16), with main power off, and while the main domain is held in reset (R399). -/
def State.timeRuns (s : State) : Bool := s.mode != .curtain && s.power && !s.boot.held

/-- Bring Stage Time to at least `t`, while it runs. Mark: DESIGN CHOICE (log 1). -/
def State.reachST (s : State) (t : Nat) : State :=
  if s.timeRuns && decide (s.now < t) then { s with st := BitVec.ofNat 64 t } else s

/-- Start a timer that elapses `d` ticks from now. Mark: DESIGN CHOICE (log 3). -/
def State.arm (s : State) (t : Timer) (d : Nat) : State :=
  { s with timers := (t, s.now + d) :: s.timers.filter fun p => p.1 != t }

/-- Stop a timer. -/
def State.disarm (s : State) (t : Timer) : State := { s with timers := s.timers.filter fun p => p.1 != t }

/-- Is the timer running? -/
def State.armed (s : State) (t : Timer) : Bool := s.timers.any fun p => p.1 == t

/-- The tick at which a running timer elapses. Mark: DESIGN CHOICE (log 3). -/
def State.dueAt (s : State) (t : Timer) : Nat :=
  match s.timers.find? (fun p => p.1 == t) with
  | some p => p.2
  | none => 0

/-- A running timer elapses: Stage Time has reached it and it no longer runs. A timer that does not run changes nothing. Mark: DESIGN CHOICE (log 3). -/
def State.fire (s : State) (t : Timer) (k : State → State) : State :=
  if s.armed t then k ((s.reachST (s.dueAt t)).disarm t) else s

/-- Ticks of 2 ns in a second, a millisecond and a microsecond (R36). -/
def ticksPerSecond : Nat := 500000000

/-- Ticks in a millisecond. -/
def ticksPerMs : Nat := 500000

/-- Ticks in a microsecond. -/
def ticksPerUs : Nat := 500

/-! ## Interrupt latches (R186) -/

/-- The latch of a source: its bit of IRQ_PEND_k. -/
def pendFld (src : Nat) : Fld := ⟨A.IRQ_PEND (src / 32), src % 32, src % 32⟩

/-- An event sets the latch of its source; sources 248 to 255 are never asserted (R34). -/
def State.irq (s : State) (src : Nat) : State := if src < 248 then s.wr (pendFld src) 1 else s

/-- Fire a source at most once in a frame (R206, R215, R217). -/
def State.irqOnce (s : State) (src : Nat) : State :=
  if s.frameOnce.contains src then s else { s.irq src with frameOnce := src :: s.frameOnce }

/-- The source that a block fires when a commit is applied or refused. -/
def commitIrq (base : Nat) : Option Nat :=
  if base = Base.COL then some 190
  else if base = Base.TERRACE then some 207
  else if base = Base.CUE then some 27
  else if base = Base.SWITCH then some 110
  else if base = Base.CHORUS then some 114
  else if base = Base.DTAKE then some 138
  else if base = Base.TROUPE then some 167
  else none

/-- Fire it. -/
def State.fireCommit (s : State) (base : Nat) : State :=
  match commitIrq base with
  | some k => s.irq k
  | none => s

/-- A commit that the device makes itself has been applied in a block: it counts, and fires the block's source (R28, R258, R259). -/
def State.ownCommit (s : State) (base : Nat) : State := (s.wrap (F.BLOCK_COMMIT_STATUS_APPLIED base)).fireCommit base

/-! ## Free values -/

/-- Draw a value that the manual leaves open: an uninterpreted number, fresh each time. Mark: DESIGN CHOICE (log 7). -/
def State.draw (s : State) : Nat := Config.freeValue s.fresh

/-- Step past the drawn value. Mark: DESIGN CHOICE (log 7). -/
def State.next (s : State) : State := { s with fresh := s.fresh + 1 }

/-- The notify FIFO of line `l` (R128). -/
def State.notify (s : State) (l : Nat) : List Nat := look (fun _ => []) s.wing.notify l

/-! ## Prompt Book records (R412, R414, R419) -/

/-- Put a record into the input FIFO of 64 records; a record that finds it full is dropped and counted (R414). -/
def State.postRec (s : State) (r : Rec) : State :=
  if s.book.inFifo.length < 64 then { s with book.inFifo := s.book.inFifo ++ [r] } else s.sat F.PBOOK_DROP_A_DROPPED

/-- Raise a record: ST is taken now, DETAIL is the words the raising rule names (R412). Mark: DESIGN CHOICE (log 17, 18). -/
def State.post (s : State) (code sev src : Nat) (words : List Nat) : State :=
  s.postRec { st := s.st, seq := 0, code, sev, sum := false, src, rep := 0, words := (words.take 4).map (BitVec.ofNat 32 ·) }

/-- The SRC of a record that concerns no master identity: the manual does not state it, so it is free. Mark: DESIGN CHOICE (log 16). -/
def srcOf (code : Nat) : Nat := Config.unitSrc code % 25

/-- Raise a record of a unit that carries no master identity. -/
def State.postU (s : State) (code sev : Nat) (words : List Nat) : State := s.post code sev (srcOf code) words

/-- Raise a record that its rule limits to one per second per key (R419): within a second of the last one written it is folded into
the next and counted in SUPPRESSED. -/
def State.postLim (s : State) (key code sev src : Nat) (words : List Nat) : State :=
  match find? s.book.ruleLim key with
  | some (last, folded) =>
    if s.now < last + ticksPerSecond then
      { s.sat F.PBOOK_DROP_B_SUPPRESSED with book.ruleLim := put noneAt s.book.ruleLim key (some (last, folded + 1)) }
    else
      State.postRec { s with book.ruleLim := put noneAt s.book.ruleLim key (some (s.now, 0)) }
        { st := s.st, seq := 0, code, sev, sum := false, src, rep := min folded 63, words := (words.take 4).map (BitVec.ofNat 32 ·) }
  | none =>
    State.post { s with book.ruleLim := put noneAt s.book.ruleLim key (some (s.now, 0)) } code sev src words

/-- Raise a limited record of a unit that carries no master identity. -/
def State.postLimU (s : State) (key code sev : Nat) (words : List Nat) : State := s.postLim key code sev (srcOf code) words

/-- Count an observed event (R428): every counter that selects it counts, and source 211 fires when it passes its threshold. -/
def State.observe (s : State) (evt arg n : Nat) : State :=
  (List.range 8).foldl (fun s k =>
    if s.rd (F.OBSERVE_CNT_SEL_EVT k) == evt && (evt < 4 || evt == 8 || s.rd (F.OBSERVE_CNT_SEL_ARG k) == arg) then
      let old := (s.cntReg (A.OBSERVE_CNT k)).toNat
      let s := s.wrapCnt (F.OBSERVE_CNT_COUNT k) n
      let th := s.rd (F.OBSERVE_CNT_SEL_THRESH k) * 65536
      if th != 0 && decide (old ≤ th) && decide (th < old + n) then s.irq 211 else s
    else s) s

/-! ## Command status codes (R372) -/

/-- OK. -/
abbrev scOK : Nat := 0x00
/-- ACCEPTED. -/
abbrev scACCEPTED : Nat := 0x01
/-- BAD_OPCODE. -/
abbrev scBAD_OPCODE : Nat := 0x10
/-- BAD_LENGTH. -/
abbrev scBAD_LENGTH : Nat := 0x11
/-- BAD_PARAM. -/
abbrev scBAD_PARAM : Nat := 0x12
/-- AUTH_FAIL. -/
abbrev scAUTH_FAIL : Nat := 0x20
/-- NO_SESSION. -/
abbrev scNO_SESSION : Nat := 0x21
/-- REPLAY. -/
abbrev scREPLAY : Nat := 0x22
/-- WRONG_MODE. -/
abbrev scWRONG_MODE : Nat := 0x30
/-- BUSY. -/
abbrev scBUSY : Nat := 0x31
/-- DENIED. -/
abbrev scDENIED : Nat := 0x32
/-- SELF_TARGET. -/
abbrev scSELF_TARGET : Nat := 0x33
/-- VERIFY_FAIL. -/
abbrev scVERIFY_FAIL : Nat := 0x40
/-- STORAGE_FAIL. -/
abbrev scSTORAGE_FAIL : Nat := 0x41
/-- CURTAINED. -/
abbrev scCURTAINED : Nat := 0x50

/-! ## Memory bytes -/

/-- What a byte that nothing has written reads as: 0 in core-local RAM and Terrace (zeroed at reset, R210), 0xFF in Bedrock (an erased page
reads as ones, R359), and the chip's own contents in the boot ROM and the OTP window. Mark: DESIGN CHOICE (log 6). -/
def memDefault (a : Nat) : Byte :=
  if 0x00020000 ≤ a ∧ a < 0x00030000 then Config.romByte a
  else if 0x20000000 ≤ a ∧ a < 0x22000000 then 0xFF#8
  else if 0x28000000 ≤ a ∧ a < 0x28001000 then Config.otpByte a
  else 0#8

/-- One byte of memory, by its global address. -/
def State.mb (s : State) (a : Nat) : Byte := look memDefault s.mem a

/-- Write one byte of memory. -/
def State.setMb (s : State) (a : Nat) (b : Byte) : State := { s with mem := put memDefault s.mem a b }

/-- `n` bytes of memory from address `a`. -/
def State.peek (s : State) (a n : Nat) : List Byte := (List.range n).map fun i => s.mb (a + i)

/-- Write bytes of memory from address `a`. -/
def State.poke (s : State) (a : Nat) : List Byte → State
  | [] => s
  | b :: t => State.poke (s.setMb a b) (a + 1) t

/-- Return every byte from `lo` up to but not including `hi` to what an unlisted byte reads as. -/
def State.wipe (s : State) (lo hi : Nat) : State := { s with mem := clearRange s.mem lo hi }

/-- Memory is in its canonical form. -/
def Memory.wf (m : List Host.Cell) : Bool := canonical memDefault m

end Sys2Proof.Machine
end

