-- ==== Sys2Proof/Machine/Col.lean ====
section
/-! DEFINITION. The Col units (R218 to R228): which unit guards an address, which region decides it, what a refusal records, and the bank state
check of R206. -/

namespace Sys2Proof.Machine

/-- What an access does; an atomic needs both masks (R220). -/
inductive AccKind where
  | read | write | fetch | atomic
  deriving DecidableEq, Repr

/-- KIND codes of a refusal (xcause.KIND, chapter 06). -/
abbrev kindNoTarget : Nat := 1
/-- A Col denial. -/
abbrev kindCol : Nat := 2
/-- The target refuses the access size. -/
abbrev kindSize : Nat := 3
/-- An uncorrectable memory error. -/
abbrev kindMem : Nat := 4
/-- The target refuses the master or the operation. -/
abbrev kindTarget : Nat := 5

/-- Where an address leads (R30). -/
inductive Target where
  | clr (n off : Nat) | rom | terrace (bank off : Nat) | bedrock (bank off : Nat) | otp
  | wState | wEnq | wDeq | gate (c : Nat) | block (u : Nat) | nothing
  deriving DecidableEq, Repr

/-- The Bedrock bank that holds an address of 0x2000_0000 to 0x21FF_FFFF (R30). -/
def bedBank (a : Nat) : Nat :=
  if a < 0x20400000 then 0 else if a < 0x20800000 then 1 else if a < 0x21000000 then 2 else if a < 0x21800000 then 3 else 4

/-- First address of a Bedrock bank (R30). -/
def bedBase (b : Nat) : Nat :=
  if b = 0 then 0x20000000 else if b = 1 then 0x20400000 else if b = 2 then 0x20800000 else if b = 3 then 0x21000000 else 0x21800000

/-- The address map for an access of master `m` (R30): a core sees its own CLR at 0, and the boot ROM answers master 8 alone. -/
def targetOf (m a : Nat) : Target :=
  if a < 0x20000 then (if m ≤ 8 then .clr m a else .nothing)
  else if a < 0x30000 then (if m = 8 then .rom else .nothing)
  else if 0x08000000 ≤ a ∧ a < 0x08000000 + 9 * 0x40000 ∧ a % 0x40000 < 0x20000 then .clr ((a - 0x08000000) / 0x40000) (a % 0x40000)
  else if 0x10000000 ≤ a ∧ a < 0x11000000 then .terrace ((a - 0x10000000) / 0x40000) (a % 0x40000)
  else if 0x20000000 ≤ a ∧ a < 0x22000000 then .bedrock (bedBank a) (a - bedBase (bedBank a))
  else if 0x28000000 ≤ a ∧ a < 0x28001000 then .otp
  else if 0x30000000 ≤ a ∧ a < 0x30400000 then .wState
  else if 0x34000000 ≤ a ∧ a < 0x34200000 then .wEnq
  else if 0x34400000 ≤ a ∧ a < 0x34600000 then .wDeq
  else if 0x38000000 ≤ a ∧ a < 0x38080000 then .gate ((a - 0x38000000) / 0x10000)
  else if 0x40000000 ≤ a ∧ a < 0x401E0000 then .block ((a - 0x40000000) / 0x10000)
  else .nothing

/-- The global address under which a byte of memory is kept: a core's own CLR stands at its window (R204). -/
def physAddr (m a : Nat) : Nat := if a < 0x20000 then 0x08000000 + m * 0x40000 + a else a

/-- The leaf unit that guards an address (R219). -/
def leafUnit (a : Nat) : Option Nat :=
  match targetOf 25 a with
  | .block u => some u
  | .clr n _ => some (30 + n)
  | .wState => some 39
  | .wEnq => some 40
  | .wDeq => some 41
  | .otp => some 42
  | .gate c => some (43 + c)
  | _ => none

/-- Does an enabled region, written in W0, contain an address (R220)? -/
def regionHolds (w0 : Word) (a : Nat) : Bool :=
  getBits w0 5 5 == 1 && (getBits w0 31 6 * 64 / 2 ^ getBits w0 4 0 == a / 2 ^ getBits w0 4 0)

/-- What decides an address: a region number (or the default's code) and its masks. -/
structure Decider where
  region : Nat
  rmask : Word
  wmask : Word
  deriving DecidableEq, Repr

/-- The lowest-numbered enabled region of a list that contains an address, else the default (R220). -/
def decide1 (s : State) (a : Nat) (regs : List (Nat × Nat)) (dflt : Decider) : Decider :=
  match regs.find? (fun r => regionHolds (s.liveReg r.2) a) with
  | some r => ⟨r.1, s.liveReg (r.2 + 4), s.liveReg (r.2 + 8)⟩
  | none => dflt

/-- What decides address `a` at leaf unit `u`. -/
def leafDecider (s : State) (u a : Nat) : Decider :=
  decide1 s a ((List.range 8).map fun r => (r, A.COL_LEAF_REG_W0 u r))
    ⟨127, s.liveReg (A.COL_LEAF_DEF_RMASK u), s.liveReg (A.COL_LEAF_DEF_WMASK u)⟩

/-- What decides address `a` of Terrace at the trunk. -/
def trunkDecider (s : State) (a : Nat) : Decider :=
  let n := (a - 0x10000000) / 0x40000
  decide1 s a ((List.range 64).map fun r => (r, A.COL_TRUNK_REG_W0 r))
    ⟨64 + n, s.liveReg (A.COL_TRUNK_BANK_RMASK n), s.liveReg (A.COL_TRUNK_BANK_WMASK n)⟩

/-- What decides address `a` of Bedrock. -/
def bedDecider (s : State) (a : Nat) : Decider :=
  decide1 s a ((List.range 32).map fun r => (r, A.COL_BED_REG_W0 r))
    ⟨127, s.liveReg A.COL_BED_DEF_RMASK, s.liveReg A.COL_BED_DEF_WMASK⟩

/-- Do the masks grant the access? A set bit among bits 31 to 25 of either mask voids both (R33, R220). -/
def Decider.grants (d : Decider) (m : Nat) (k : AccKind) : Bool :=
  getBits d.rmask 31 25 == 0 && getBits d.wmask 31 25 == 0 &&
    match k with
    | .read | .fetch => bit d.rmask.toNat m
    | .write => bit d.wmask.toNat m
    | .atomic => bit d.rmask.toNat m && bit d.wmask.toNat m

/-- Writes that every master but 8 is refused whatever the masks say (R15, R223). -/
def hardRefused (m a : Nat) (k : AccKind) : Bool :=
  m != 8 && (k == .write || k == .atomic) &&
    ((decide (Base.COL ≤ a) && decide (a < Base.COL + 0x10000)) || (decide (Base.CURTAIN ≤ a) && decide (a < Base.REFUGE + 0x10000))
      || (decide (Base.DTAKE ≤ a) && decide (a < Base.DTAKE + 0x10000)) || (decide (Base.SYS ≤ a) && decide (a < Base.SYS + 0x2000))
      || (decide (Base.CHORUS + 0x4000 ≤ a) && decide (a < Base.CHORUS + 0x8000))
      || (decide (Base.SOLOIST + 0x1000 ≤ a) && decide (a < Base.SOLOIST + 0x2000))
      || (decide (Base.SOLOIST + 0xF000 ≤ a) && decide (a < Base.SOLOIST + 0x10000)))

/-- KIND of a violation record; an atomic is reported under the mask that refuses it, the read mask first. -/
def violKind (d : Decider) (m : Nat) : AccKind → Nat
  | .read => 0
  | .write => 1
  | .atomic => if d.grants m .read then 1 else 0
  | .fetch => 2

/-- The verdict of the Col units on an access of `len` bytes at `a` (R218 to R223): the violation record, or none. A core's access to its own
CLR and the boot ROM are not checked. -/
def colCheck (s : State) (m a len : Nat) (k : AccKind) : Option Viol :=
  let v : Viol := { unit := 0, index := 0, av := true, kind := 0, straddle := false, master := m, region := 0, hard := false,
                    addr := BitVec.ofNat 32 a }
  match targetOf m a with
  | .terrace _ _ =>
    let d := trunkDecider s a
    let e := trunkDecider s (a + len - 1)
    let v := { v with unit := 1, region := d.region, kind := violKind d m k, av := !(k == .write && decide (m ≤ 8)) }
    if d.region != e.region || a / 0x40000 != (a + len - 1) / 0x40000 then some { v with straddle := true }
    else if d.grants m k then none else some v
  | .bedrock b _ =>
    let d := bedDecider s a
    let e := bedDecider s (a + len - 1)
    let v := { v with unit := 2, region := d.region, kind := violKind d m k }
    if d.region != e.region || b != bedBank (a + len - 1) then some { v with straddle := true }
    else if d.grants m k then none else some v
  | _ =>
    if a < 0x30000 then none
    else match leafUnit a with
      | none => none
      | some u =>
        let d := leafDecider s u a
        let v := { v with index := u, region := d.region, kind := violKind d m k }
        if hardRefused m a k then some { v with hard := true }
        else if d.grants m k then none else some v

/-- The report of a core's posted store to Terrace carries a count instead of an address and merges (R218, R226). -/
def Viol.merges (v : Viol) : Bool := !v.av

/-- Interrupt source of a violation (R228). -/
def Viol.source (v : Viol) : Nat :=
  if v.unit = 0 then 184 else if v.unit = 2 then 187 else if v.kind = 1 then 186 else 185

/-- Queue a violation record: successive address-less refusals of one core merge into the newest record; with 32 held, a new record is lost
(R226). -/
def State.pushViol (s : State) (v : Viol) : State :=
  let v := if v.merges then { v with addr := 1 } else v
  match s.viol.getLast? with
  | some w =>
    if v.merges && !w.av && w.master == v.master then
      { s with viol := s.viol.dropLast ++ [{ w with addr := BitVec.ofNat 32 (min (w.addr.toNat + 1) 0xFFFF) }] }
    else if s.viol.length < 32 then { s with viol := s.viol ++ [v] }
    else State.irq { s with violOvf := true } 189
  | none => { s with viol := [v] }

/-- A refused access is queued, raises its sources and is booked: one record a second per unit at severity 5, and for a refusal of R223
source 191 and a record at severity 6 (R223, R225, R228). -/
def State.violate (s : State) (v : Viol) : State :=
  let s := (s.pushViol v).irq v.source
  let s := if v.straddle then s.irq 188 else s
  let s := s.postLim (0x60020000 + v.unit * 64 + v.index) 0x6002 5 v.master [v.addr.toNat, v.unit * 64 + v.index, v.region]
  if v.hard then (s.irq 191).post 0x6003 6 v.master [v.addr.toNat] else s

/-! ## Terrace banks (R206) -/

/-- TERRACE_BANK_LIVE_n.STATE codes. -/
abbrev bankOFF : Nat := 0
/-- RETENTION. -/
abbrev bankRET : Nat := 1
/-- ON. -/
abbrev bankON : Nat := 2
/-- ZEROING. -/
abbrev bankZEROING : Nat := 3
/-- WAKING. -/
abbrev bankWAKING : Nat := 4

/-- The state of bank `n` (R206). -/
def State.bankState (s : State) (n : Nat) : Nat := s.rd (F.TERRACE_BANK_LIVE_STATE n)

/-- Is the bank accessible? Only a bank in ON is (R206). -/
def State.bankOn (s : State) (n : Nat) : Bool := s.bankState n == bankON

/-- Count a dirty line of a mirrored bank in its current set (R212). -/
def State.setDirty (s : State) (bank line : Nat) : State :=
  if s.lvFlag (F.TERRACE_BANK_MIRROR bank) then
    { s with terr.cur := put (fun _ => 0) s.terr.cur bank (look (fun _ => 0) s.terr.cur bank ||| BitVec.twoPow 4096 line) }
  else s

/-- Is the line in a sending set and not yet read? -/
def State.sendingLine (s : State) (bank line : Nat) : Bool := (look (fun _ => 0) s.terr.send bank).getLsbD line

/-- Take a line out of the sending set of its bank. -/
def State.clearSending (s : State) (bank line : Nat) : State :=
  { s with terr.send := put (fun _ => 0) s.terr.send bank (look (fun _ => 0) s.terr.send bank &&& ~~~BitVec.twoPow 4096 line) }

/-- Check an access of master `m` against the address map, the Col units and the bank state. Returns the KIND of the refusal, if any, and the
state with what a refusal records (R30, R206, R225). -/
def State.colAdmit (s : State) (m a len : Nat) (k : AccKind) : Option Nat × State :=
  match targetOf m a with
  | .nothing => (some kindNoTarget, s)
  | t =>
    match colCheck s m a len k with
    | some v => (some kindCol, s.violate v)
    | none =>
      match t with
      | .terrace n _ => if s.bankOn n then (none, s.observe 7 n 1) else (some kindTarget, s.irqOnce 204)
      | _ => (none, s)

end Sys2Proof.Machine
end

