-- ==== Sys2Proof/Machine/BedRead.lean ====
section
/-! DEFINITION. Bedrock's geometry and its reads (R355, R356, R359, R365). -/

namespace Sys2Proof.Machine

/-- Is an address in Bedrock? -/
def inBedrock (a : Nat) : Bool := decide (0x20000000 ≤ a) && decide (a < 0x22000000)

/-- Is a bank a code bank, B0 or B1? -/
def codeBank (b : Nat) : Bool := decide (b < 2)

/-- Bytes of a page (R355). -/
def pageLen (b : Nat) : Nat := if codeBank b then 512 else 2048

/-- Bytes of a block (R355). -/
def blockLen (b : Nat) : Nat := if codeBank b then 0x4000 else 0x10000

/-- First address of the block of an address. -/
def blockOf (a : Nat) : Nat := a / blockLen (bedBank a) * blockLen (bedBank a)

/-- First address of the page of an address. -/
def pageOf (a : Nat) : Nat := a / pageLen (bedBank a) * pageLen (bedBank a)

/-- First address of the page pair of an address. -/
def pairOf (a : Nat) : Nat := a / (2 * pageLen (bedBank a)) * (2 * pageLen (bedBank a))

/-- The command that runs in bank `b`. -/
def State.brkRunning (s : State) (b : Nat) : Option BrkCmd := s.brk.cmds.find? fun c => c.bank == b && c.started

/-- 4 µs without a read before an erase resumes. -/
def suspendTicks : Nat := 2000

/-- Bedrock operations (R361). -/
abbrev opPROGRAM : Nat := 1
/-- PROGRAM_SAFE. -/
abbrev opSAFE : Nat := 2
/-- ERASE. -/
abbrev opERASE : Nat := 3
/-- INSPECT. -/
abbrev opINSPECT : Nat := 4
/-- REFRESH. -/
abbrev opREFRESH : Nat := 5

/-- What a read does to the command that runs in its bank (R365): an erase is suspended; a read of the erased block or of the programmed pair is refused. -/
def State.bedMeet (s : State) (a : Nat) : Bool × State :=
  let b := bedBank a
  match s.brkRunning b with
  | none => (true, s)
  | some c =>
    if c.op = opERASE then
      let s := (s.wr (F.BRK_STATUS_SUSPENDED b) 1).arm (.brkResume b) suspendTicks
      if blockOf a = c.addr then (false, (s.wr (F.BRK_STATUS_SUSP_HIT b) 1).irq 146) else (true, s)
    else if (c.op = opPROGRAM ∨ c.op = opSAFE) ∧ pairOf a = pairOf c.addr then (false, (s.wr (F.BRK_STATUS_PROG_HIT b) 1).irq 146)
    else (true, s)

/-- Lines of Bedrock that `n` bytes at `a` touch. -/
def bedLines (a n : Nat) : List Nat := (List.range ((a + n - 1) / 64 - a / 64 + 1)).map fun i => a / 64 + i

/-- Lines with correctable errors are counted as they are read (R356). -/
def State.bedSoft (s : State) (a n : Nat) : State := ((bedLines a n).filter s.brk.softLines.contains).foldl (fun s _ => s.sat F.BRK_ECC_CE) s

/-- A read of Bedrock after its Col unit has passed it (R356, R365): each uncorrectable line of it is counted. -/
def State.bedRead (s : State) (a n : Nat) : Except Nat (List Byte) × State :=
  match s.bedMeet a with
  | (false, s) => (.error kindTarget, s)
  | (true, s) =>
    if (bedLines a n).any s.brk.badLines.contains then (.error kindMem, (((bedLines a n).filter s.brk.badLines.contains).foldl (fun s _ => s.sat F.BRK_ECC_UE) s).irq 147 |>.post 0xC001 6 23 [a])
    else (.ok (s.peek a n), s.bedSoft a n)

end Sys2Proof.Machine
end

