-- ==== Sys2Proof/Machine/Window.lean ====
section
/-! DEFINITION. What the Wings windows and the release gates answer a load with (R117, R119, R121, R122, R125, R292, R305): the state records, the access
profiles, the gate of a Chorus channel. -/

namespace Sys2Proof.Machine

/-! ## State records (R117) -/

/-- Queue `q` (R117). -/
def State.queue (s : State) (q : Nat) : QRec := look (fun _ => QRec.off) s.wing.queues q

/-- Replace queue `q`. -/
def State.setQueue (s : State) (q : Nat) (r : QRec) : State := { s with wing.queues := put (fun _ => QRec.off) s.wing.queues q r }

/-- Entry size in bytes. -/
def QRec.entry (r : QRec) : Nat := 8 * 2 ^ r.esize

/-- Ring length in entries. -/
def QRec.ringLen (r : QRec) : Nat := 2 ^ r.depth

/-- Fill of the queue (R117). -/
def QRec.fill (r : QRec) : Nat := (r.tail + 65536 - r.head) % 65536

/-- The queue is full. -/
def QRec.full (r : QRec) : Bool := r.fill == r.ringLen

/-- Address of entry `i` (R117). -/
def QRec.slot (r : QRec) (i : Nat) : Nat := r.base * 64 + i % r.ringLen * r.entry

/-- The words of a state record as it is read (R117). -/
def QRec.word (r : QRec) (k : Nat) : Word :=
  if k = 0 then setBits (setBits 0#32 31 6 r.base) 5 0 r.profile
  else if k = 1 then setBits (setBits (setBits (setBits 0#32 31 31 (b2n r.v)) 30 27 r.esize) 26 23 r.depth) 15 0 r.fullcnt
  else if k = 2 then setBits (setBits 0#32 31 16 r.tail) 15 0 r.head
  else
    let f := r.next.getD (r.thresh, r.idle, r.line, r.nen)
    setBits (setBits (setBits (setBits (setBits 0#32 31 16 f.1) 15 8 f.2.1) 7 3 f.2.2.1) 2 2 (b2n f.2.2.2)) 1 1 (b2n r.armed)

/-- A W3 that was written takes effect (R118). -/
def QRec.take (r : QRec) : QRec :=
  match r.next with
  | some f => { r with thresh := f.1, idle := f.2.1, line := f.2.2.1, nen := f.2.2.2, next := none }
  | none => r

/-! ## Profiles (R119) -/

/-- May master `m` enqueue under the queue's profile? -/
def State.mayProduce (s : State) (m : Nat) (r : QRec) : Bool := decide (m < 25) && (s.reg (A.WINGS_PROFILE_PM r.profile)).getLsbD m

/-- May master `m` dequeue and release? -/
def State.mayConsume (s : State) (m : Nat) (r : QRec) : Bool := decide (m < 25) && (s.reg (A.WINGS_PROFILE_CM r.profile)).getLsbD m

/-- A refusal by the producer mask is counted and booked once a second. -/
def State.refuseProducer (s : State) (m q : Nat) : State :=
  (s.sat F.WINGS_ERR_A_PMASK_REFUSED).postLim 0x40010000 0x4001 4 m [q]

/-- A refusal by the consumer mask is counted and booked once a second. -/
def State.refuseConsumer (s : State) (m q : Nat) : State :=
  (s.sat F.WINGS_ERR_A_CMASK_REFUSED).postLim 0x40020000 0x4002 4 m [q]

/-! ## Loads from the windows (R122, R125) -/

/-- A load from the enqueue window (R122): V and FREE, or 0 without permission. Mark: DESIGN CHOICE (log 122). -/
def State.enqueueLoad (s : State) (m q : Nat) : DWord :=
  let r := s.queue q
  if r.v && s.mayProduce m r then BitVec.ofNat 64 (2 ^ 63 + (r.ringLen - r.fill) * 2 ^ 32) else 0

/-- Entries of a queue whose bytes are all written, from HEAD on (R126): a ring write that waits at its bank hides its entry and those after it. Mark: DEDUCED (log 140). -/
def State.visible (s : State) (r : QRec) : Nat :=
  if s.terr.blocked.isEmpty then r.fill
  else ((List.range r.fill).takeWhile fun i =>
    !(s.terr.blocked.any fun w => decide (w.2.1 < r.slot (r.head + i) + r.entry) && decide (r.slot (r.head + i) < w.2.1 + w.2.2.length))).length

/-- A load from the dequeue window: V, FILL and the address at HEAD; HEAD does not move. -/
def State.dequeueLoad (s : State) (m q : Nat) : DWord × State :=
  let r := s.queue q
  if !r.v then (0, s)
  else if !s.mayConsume m r then (0, s.refuseConsumer m q)
  else if s.visible r = 0 then (0, s)
  else (BitVec.ofNat 64 (2 ^ 63 + s.visible r * 2 ^ 32 + r.slot r.head), s)

/-! ## Chorus gates and packer inputs -/

/-- Channel `c`. -/
def State.chan (s : State) (c : Nat) : ChState := look (fun _ => ChState.idle) s.chorus.chans c

/-- Replace channel `c`. -/
def State.setChan (s : State) (c : Nat) (x : ChState) : State := { s with chorus.chans := put (fun _ => ChState.idle) s.chorus.chans c x }

/-- The gate of a channel. -/
def State.gateOf (s : State) (c : Nat) : Gate := (s.chan c).gate

/-- Gate states. -/
abbrev gIDLE : Nat := 0
/-- OPEN. -/
abbrev gOPEN : Nat := 1
/-- READY. -/
abbrev gREADY : Nat := 3

/-- Input window of packer channel `c` (R144). -/
def packerIn (c : Nat) : Nat := 0x400C1000 + 8 * c

end Sys2Proof.Machine
end

