-- ==== Sys2Proof/Machine/Mem.lean ====
section
/-! DEFINITION. Core-local RAM and Terrace (R199 to R217): reading, writing, dirty lines, the rescue buffer, uncorrectable words, bank power,
ownership and zeroing. -/

namespace Sys2Proof.Machine

/-! ## Reading and writing -/

/-- Terrace bank and line of a global address (R199). -/
def lineOf (a : Nat) : Nat × Nat := ((a - 0x10000000) / 0x40000, a % 0x40000 / 64)

/-- The aligned 64-bit words that `len` bytes at `a` touch. -/
def wordsOf (a len : Nat) : List Nat := (List.range ((a + len + 7) / 8 - a / 8)).map fun i => (a / 8 + i) * 8

/-- An uncorrectable word is counted, its address and the master kept, source 203 fired and a record written (R203). `internal` marks a read
by a unit's own path, which carries no master. -/
def State.reportUE (s : State) (m a : Nat) (internal : Bool) : State :=
  let s := s.satCnt F.TERRACE_ECC_STAT_UE
  let s := s.setReg A.TERRACE_ECC_ADDR (BitVec.ofNat 32 a)
  let s := (s.wr F.TERRACE_ECC_INFO_INTERNAL (b2n internal)).wr F.TERRACE_ECC_INFO_MASTER (if internal then 0 else m)
  (s.irq 203).post 0x6001 6 m [a, m]

/-- A corrected word is counted, its write-back awaited, and source 202 fires at most once a frame (R203, R217). -/
def State.reportCE (s : State) (w : Nat) : State :=
  let s := { s with terr.writeback := if s.terr.writeback.contains w then s.terr.writeback else s.terr.writeback ++ [w] }
  (s.satCnt F.TERRACE_ECC_STAT_CE).irqOnce 202

/-- Is an access within core-local RAM or Terrace, by global address? -/
def isRam (a : Nat) : Bool := (decide (0x08000000 ≤ a) && decide (a < 0x08240000)) || (decide (0x10000000 ≤ a) && decide (a < 0x11000000))

/-- Lay the bytes that a write puts at `q` over the `bs` that stand at `p`. -/
def layOver (p q : Nat) (new bs : List Byte) : List Byte :=
  bs.zipIdx.map fun b => if q ≤ p + b.2 ∧ p + b.2 < q + new.length then new.getD (p + b.2 - q) b.1 else b.1

/-- The bytes at `p` once the writes that wait at their sub-banks (R215) are served: a request that comes after them is served after them (R201, R202). Mark: DEDUCED
(log 140). -/
def State.served (s : State) (p n : Nat) : List Byte := s.terr.blocked.foldl (fun bs w => layOver p w.2.1 w.2.2 bs) (s.peek p n)

/-- Do `n` bytes at `p` hold the whole word `w`? -/
def wholeWord (p n w : Nat) : Bool := decide (p ≤ w) && decide (w + 8 ≤ p + n)

/-- The uncorrectable words among those that `n` bytes at `p` touch; a word that a waiting write replaces is none. -/
def State.badWords (s : State) (p n : Nat) : List Nat :=
  (wordsOf p n).filter fun w => s.terr.bad.contains w && !(s.terr.blocked.any fun b => wholeWord b.2.1 b.2.2.length w)

/-- Each uncorrectable word of an access is counted and latched under the address by which the master reached it (R203); `p` is the global address of what it addressed as `a`. -/
def State.reportBad (s : State) (m a p : Nat) (ws : List Nat) : State := ws.foldl (fun s w => s.reportUE m (w + a - p) false) s

/-- Bytes read by master `m` from core-local RAM or Terrace at global address `p`, which the master addressed as `a`: an uncorrectable word ends
the read with KIND 0x4 (R203). -/
def State.ramRead (s : State) (m a p len : Nat) : Except Nat (List Byte) × State :=
  if (s.badWords p len).isEmpty then (.ok (s.served p len), s) else (.error kindMem, s.reportBad m a p (s.badWords p len))

/-- Store bytes at a Terrace or core-local address: the bytes, the line's dirty bit, and a whole word replaces an uncorrectable one (R202, R212). -/
def State.ramStore (s : State) (p : Nat) (bs : List Byte) : State :=
  let s := { s.poke p bs with
    terr.bad := s.terr.bad.filter fun w => !wholeWord p bs.length w
    terr.writeback := s.terr.writeback.filter fun w => !wholeWord p bs.length w }
  if 0x10000000 ≤ p then
    let s := s.setDirty (lineOf p).1 (lineOf p).2
    if lineOf (p + bs.length - 1) == lineOf p then s else s.setDirty (lineOf (p + bs.length - 1)).1 (lineOf (p + bs.length - 1)).2
  else s

/-- The mirror engine reads one line of a sending set under identity 16 (R213, R216, R218): its content as it stands, with an uncorrectable word sent as 0 and a poison flag and
counted. A line whose read is refused leaves the set and is not sent. Mark: DESIGN CHOICE (log 141). -/
def State.readLine (s : State) (bank line : Nat) : Option MirrorLine × State :=
  let a := 0x10000000 + bank * 0x40000 + line * 64
  match s.colAdmit 16 a 64 .read with
  | (some _, s) => (none, s.clearSending bank line)
  | (none, s) =>
    let bad := (List.range 8).filter fun i => s.terr.bad.contains (a + 8 * i)
    let bytes := (List.range 8).flatMap fun i => if bad.contains i then List.replicate 8 0#8 else s.peek (a + 8 * i) 8
    (some { bank, line, bytes, poison := bad }, (s.reportBad 16 a a (bad.map fun i => a + 8 * i)).clearSending bank line)

/-- The rescue read of R215: the line of a sending set goes into the rescue buffer before a write. -/
def State.rescue (s : State) (bank line : Nat) : State :=
  let r := s.readLine bank line
  { r.2 with terr.rescue := r.2.terr.rescue ++ r.1.toList }

/-- The lines a write of `n` bytes touches that stand unread in a sending set (R215). -/
def State.unreadLines (s : State) (p n : Nat) : List (Nat × Nat) :=
  let ls := if lineOf p == lineOf (p + n - 1) then [lineOf p] else [lineOf p, lineOf (p + n - 1)]
  ls.filter fun l => s.sendingLine l.1 l.2

/-- The uncorrectable words of which a store of `n` bytes at `p` writes only a part: it is refused (R202). -/
def State.partWords (s : State) (p n : Nat) : List Nat := (s.badWords p n).filter fun w => !wholeWord p n w

/-- Does a write of `n` bytes at `p` meet a line at which an earlier write waits? Mark: DEDUCED (log 140). -/
def State.behind (s : State) (p n : Nat) : Bool :=
  s.terr.blocked.any fun b => decide (b.2.1 / 64 ≤ (p + n - 1) / 64) && decide (p / 64 ≤ (b.2.1 + b.2.2.length - 1) / 64)

/-- Serve a write at a Terrace or core-local address `p`, which master `m` addressed as `a` (R202, R203, R215): a store of less than a word to an uncorrectable word is refused; a
line still to be mirrored is rescued first; with the rescue buffer of 64 lines full the write waits, is counted and source 205 fires. A later write to the line of a waiting one is
served after it (R201). Mark: DEDUCED (log 140). -/
def State.ramWrite (s : State) (m a p : Nat) (bs : List Byte) : Option Nat × State :=
  if !(s.partWords p bs.length).isEmpty then (some kindMem, s.reportBad m a p (s.partWords p bs.length))
  else if p < 0x10000000 then (none, s.ramStore p bs)
  else
    let ls := s.unreadLines p bs.length
    if 64 < s.terr.rescue.length + ls.length then
      (none, State.irqOnce { s.satCnt F.TERRACE_DIRTY_CNT_RESCUE_WAIT with terr.blocked := s.terr.blocked ++ [(m, p, bs)] } 205)
    else if s.behind p bs.length then (none, { s with terr.blocked := s.terr.blocked ++ [(m, p, bs)] })
    else (none, (ls.foldl (fun s l => s.rescue l.1 l.2) s).ramStore p bs)

/-- An atomic of 8 bytes of master `m` (R161, R202): Terrace only; `f` gives the new doubleword from the old one, none leaves it. The old one, or the KIND of the refusal. A write
that waits is seen by every later access, so no master splits the two. -/
def State.busAtomic (s : State) (m a : Nat) (f : DWord → Option DWord) : Except Nat DWord × State :=
  match s.colAdmit m a 8 .atomic with
  | (some k, s) => (.error k, s)
  | (none, s) =>
    match targetOf m a with
    | .terrace _ _ =>
      match s.ramRead m a a 8 with
      | (.error k, s) => (.error k, s)
      | (.ok b, s) =>
        let old := BitVec.ofNat 64 (leNat b)
        match f old with
        | none => (.ok old, s)
        | some v => (.ok old, (s.ramWrite m a a (leBytes 8 v.toNat)).2)
    | _ => (.error kindTarget, s)

/-- What a burst of a unit reads at a target that the Col units have passed. Register blocks and channel registers take no burst (R160, R292), the Wings windows none but an aligned
one of 8 bytes (R121), and a gate's data area reads as 0 unless its verdict has passed (R305). Mark: DEDUCED (log 13, 142). -/
def State.burstTarget (s : State) (m a n : Nat) : Except Nat (List Byte) × State :=
  match targetOf m a with
  | .clr _ _ | .terrace _ _ => s.ramRead m a (physAddr m a) n
  | .bedrock _ _ => s.bedRead a n
  | .rom | .otp => (.ok (s.peek a n), s)
  | .wState =>
    (.ok (sliceB ((List.range (n / 4 + 2)).flatMap fun i => leBytes 4 ((s.queue ((a / 4 + i - 0xC000000) / 4)).word ((a / 4 + i) % 4)).toNat) (a % 4) n), s)
  | .wEnq => if n = 8 ∧ a % 8 = 0 then (.ok (leBytes 8 (s.enqueueLoad m ((a - 0x34000000) / 8)).toNat), s) else (.error kindSize, s)
  | .wDeq =>
    if n = 8 ∧ a % 8 = 0 then
      let r := s.dequeueLoad m ((a - 0x34400000) / 8)
      (.ok (leBytes 8 r.1.toNat), r.2)
    else (.error kindSize, s)
  | .gate c =>
    if a % 0x10000 < 0x1000 then (.error kindSize, s)
    else (.ok (if (s.gateOf c).state = gREADY then s.peek a n else List.replicate n 0#8), s)
  | .block _ => if packerIn 0 ≤ a ∧ a < packerIn 48 then (.ok (List.replicate n 0#8), s) else (.error kindSize, s)
  | .nothing => (.error kindNoTarget, s)

/-- A unit's read through the Col units. -/
def State.unitRead (s : State) (m a len : Nat) : Except Nat (List Byte) × State :=
  match s.colAdmit m a len .read with
  | (some k, s) => (.error k, s)
  | (none, s) => s.burstTarget m a len

/-- A unit's write to Terrace or core-local RAM through the Col units. -/
def State.unitWrite (s : State) (m a : Nat) (bs : List Byte) : Option Nat × State :=
  match s.colAdmit m a bs.length .write with
  | (some k, s) => (some k, s)
  | (none, s) => if isRam (physAddr m a) then s.ramWrite m a (physAddr m a) bs else (some kindTarget, s)

/-- The pieces of a unit's transfer: bursts of up to 64 bytes from its first byte on, which may cross a line, at Terrace and Bedrock (R222); at a leaf, bursts that lie in
one line. -/
def burstsFrom : Nat → Nat → Nat → List (Nat × Nat)
  | 0, _, _ => []
  | fuel + 1, a, n => if n = 0 then [] else
      let k := if decide (0x10000000 ≤ a) && decide (a < 0x22000000) then min n 64 else min n (64 - a % 64)
      (a, k) :: burstsFrom fuel (a + k) (n - k)

/-- A unit reads `n` bytes at `a`, a burst at a time; the first refusal ends it. -/
def State.dmaRead (s : State) (m a n : Nat) : Except Nat (List Byte) × State :=
  (burstsFrom (n / 64 + 2) a n).foldl (fun acc p =>
    match acc with
    | (.error k, s) => (.error k, s)
    | (.ok bs, s) => match s.unitRead m p.1 p.2 with
      | (.error k, s) => (.error k, s)
      | (.ok b, s) => (.ok (bs ++ b), s)) (.ok [], s)

/-- A unit writes bytes at `a`, a burst at a time; the first refusal ends it, and the bursts before it stand. -/
def State.dmaWrite (s : State) (m a : Nat) (bs : List Byte) : Option Nat × State :=
  (burstsFrom (bs.length / 64 + 2) a bs.length).foldl (fun acc p =>
    match acc with
    | (some k, s) => (some k, s)
    | (none, s) => s.unitWrite m p.1 (sliceB bs (p.1 - a) p.2)) (none, s)

end Sys2Proof.Machine
end

