-- ==== Sys2Proof/Machine/Irq.lean ====
section
/-! DEFINITION. The IRQ block and what it keeps of the cores (R35, R186 to R192): routes, the pending summary of a core, claim, late-error queues,
holding and starting a core. -/

namespace Sys2Proof.Machine

/-! ## Cores -/

/-- Core `n`, 0 to 8. -/
def State.core (s : State) (n : Nat) : CoreSt := look (fun _ => CoreSt.reset) s.cores n

/-- Replace core `n`. -/
def State.setCore (s : State) (n : Nat) (c : CoreSt) : State := { s with cores := put (fun _ => CoreSt.reset) s.cores n c }

/-- The key of a general register: the visible set of g48 to g63 is chosen by xstat.SS (R178). -/
def CoreSt.gkey (c : CoreSt) (r : Nat) : Nat := if 48 ≤ r ∧ c.xstat.getLsbD 3 then r + 64 else r

/-- A general register; g0 reads as 0 (R153). -/
def CoreSt.get (c : CoreSt) (r : Nat) : DWord := if r = 0 then 0 else look (fun _ => 0#64) c.g (c.gkey r)

/-- Write a general register; writes to g0 are discarded (R148). -/
def CoreSt.set (c : CoreSt) (r : Nat) (v : DWord) : CoreSt := if r = 0 then c else { c with g := put (fun _ => 0#64) c.g (c.gkey r) v }

/-! ## Latches and routes -/

/-- Is the latch of a source set? -/
def State.latched (s : State) (src : Nat) : Bool := s.flag (pendFld src)

/-- The core a source is routed to (R35). -/
def State.routeCore (s : State) (src : Nat) : Nat := s.rd (F.IRQ_ROUTE_CORE src)

/-- The line a source is routed to. -/
def State.routeLine (s : State) (src : Nat) : Nat := s.rd (F.IRQ_ROUTE_LINE src)

/-- Does a latched source stand on line `l` of core `n`? -/
def State.lineHas (s : State) (n l src : Nat) : Bool := s.latched src && s.routeCore src == n && s.routeLine src == l

/-- ipend of core `n`: bit L is 1 while a latched source is routed to line L (R186). -/
def State.ipend (s : State) (n : Nat) : Word :=
  (List.range 32).foldl (fun w l => if (List.range 256).any (s.lineHas n l) then w ||| BitVec.twoPow 32 l else w) 0#32

/-- The source R187 chooses: the lowest-numbered latched source on the lowest enabled pending line. -/
def State.chosenSource (s : State) (n : Nat) : Option Nat :=
  match (List.range 32).find? fun l => (s.core n).ienable.getLsbD l && (List.range 256).any (s.lineHas n l) with
  | some l => (List.range 256).find? (s.lineHas n l)
  | none => none

/-- Does what a source stands for still hold (R186, PINS_GRP_IRQ)? Wings notify lines 32 to 63, pin groups 64 to 95 and late-error queues 192 to 200. -/
def State.fifoStands (s : State) (src : Nat) : Bool :=
  if 32 ≤ src ∧ src < 64 then !(s.notify (src - 32)).isEmpty
  else if 64 ≤ src ∧ src < 96 then (s.reg (A.PINS_GRP_IRQ (src - 64))).toNat % 32 != 0
  else if 192 ≤ src ∧ src < 201 then !(s.core (src - 192)).late.isEmpty
  else false

/-- Clear a latch; the latch of a non-empty FIFO is set again at once (R186). -/
def State.clearLatch (s : State) (src : Nat) : State := if s.fifoStands src then s else s.wr (pendFld src) 0

/-! ## Late bus errors (R191, R192) -/

/-- A store of core `n` refused after it left the store buffer enters the core's late-error queue of 8 entries: address-less refusals merge
while they are the newest, and with the queue full the entry is dropped and booked. -/
def State.lateError (s : State) (n : Nat) (av : Bool) (kind size addr : Nat) : State :=
  let c := s.core n
  let e : LateErr := { av, kind, size, count := 1, addr := if av then BitVec.ofNat 32 addr else 0 }
  match c.late.getLast? with
  | some w =>
    if !av && !w.av then
      (s.setCore n { c with late := c.late.dropLast ++ [{ w with count := min (w.count + 1) 0xFFFF }] }).irq (192 + n)
    else if c.late.length < 8 then (s.setCore n { c with late := c.late ++ [e] }).irq (192 + n)
    else (s.setCore n { c with lateLost := true }).postLim (0x50020000 + n) 0x5002 4 n [n]
  | none => (s.setCore n { c with late := [e] }).irq (192 + n)

/-- IRQ_LATE_POP for a popped entry; `lost`: entries were dropped since the last pop (R192). -/
def LateErr.word (e : LateErr) (lost : Bool) (n : Nat) : Word :=
  let sz := if e.size = 1 then 0 else if e.size = 2 then 1 else if e.size = 4 then 2 else 3
  setBits (setBits (setBits (setBits (setBits (setBits (setBits 0#32 31 31 1) 30 30 (b2n e.av)) 29 29 (b2n lost)) 28 24 n) 23 20 e.kind)
    19 18 sz) 15 0 e.count

/-! ## Holding and starting (R184, R194) -/

/-- Core `n` issues no bundle: it is held, stopped, or not started. -/
def State.coreHeld (s : State) (n : Nat) : Bool :=
  if n = 8 then !(s.core 8).running
  else s.flag (F.IRQ_CORE_CTRL_HOLD n) || s.flag (F.IRQ_CORE_STAT_STOPPED n) || !(s.core n).running

/-- Hold core `n` (0 to 7) in reset. -/
def State.holdCore (s : State) (n : Nat) : State :=
  ((s.wr (F.IRQ_CORE_CTRL_HOLD n) 1).wr (F.IRQ_CORE_STAT_HELD n) 1).setCore n
    { (s.core n) with running := false, stores := [], waiting := false }

/-- The requests in service queue `n` are lost, unanswered (R390, R410). Mark: DEDUCED (log 160). -/
def State.loseRequests (s : State) (n : Nat) : State :=
  let q := Config.serviceQueue s.cfg + n
  if (s.queue q).v then s.setQueue q { s.queue q with head := (s.queue q).tail } else s

/-- Reset core `n` and start it at `pc`: what it has asked of the Steward is lost (R390), registers and control registers at their reset values, its late-error queue empty, its stop flags
clear (IRQ_CORE_CTRL_n, R153). The gear is the mode's (R193). -/
def State.startCore (s : State) (n pc : Nat) : State :=
  let gear : Word := if s.mode == .factory || s.mode == .rehearsal then 1 else (CoreSt.reset).cgear
  let s := s.setCore n { CoreSt.reset with pc := BitVec.ofNat 32 pc, running := true, cgear := gear }
  if n = 8 then s
  else ((((s.loseRequests n).wr (F.IRQ_CORE_STAT_STOPPED n) 0).wr (F.IRQ_CORE_STAT_HELD n) 0).wr (F.IRQ_CORE_STAT_FATAL_CAUSE n) 0).wr
    (F.IRQ_CORE_STAT_FIRST_CAUSE n) 0

/-- Every core takes a gear between two of its bundles (R193). -/
def State.setGears (s : State) (g : Word) : State :=
  (List.range 9).foldl (fun s n => s.setCore n { s.core n with cgear := g }) s

end Sys2Proof.Machine
end

