-- ==== Sys2Proof/Machine/Wings.lean ====
section
/-! DEFINITION. Wings queues (R117 to R129, R477): state records, access profiles, enqueue, dequeue, release, notification, copy enqueues. -/

namespace Sys2Proof.Machine

/-! ## Notification (R128, R129) -/

/-- The notification FIFO of a line is full at 64. -/
def notifyDepth : Nat := 64

/-- The queue notifies: it is disarmed and its number pushed into its line's FIFO, where it stands at most once; a full FIFO loses the notification and sets OVF. -/
def State.notifyQueue (s : State) (q : Nat) : State :=
  let r := s.queue q
  if r.nen && r.armed then
    let s := s.setQueue q { r with armed := false }
    if (s.notify r.line).contains q then s.irq (32 + r.line)
    else if (s.notify r.line).length < notifyDepth then
      State.irq { s with wing.notify := put (fun _ => []) s.wing.notify r.line (s.notify r.line ++ [q]) } (32 + r.line)
    else State.irq { s with wing.ovf := put (fun _ => false) s.wing.ovf r.line true } (32 + r.line)
  else s

/-- The fill leaves the idle timer running (R128). -/
def QRec.idleRuns (r : QRec) : Bool := decide (0 < r.fill) && (r.thresh == 0 || decide (r.fill < r.thresh)) && r.idle != 0

/-- Restart the idle timer, or stop it when the fill does not call for it. -/
def State.restartIdle (s : State) (q : Nat) : State :=
  if (s.queue q).idleRuns then s.arm (.queueIdle q) ((s.queue q).idle * ticksPerUs) else s.disarm (.queueIdle q)

/-- What follows an accepted enqueue: a W3 that was written takes effect, TAIL advances, the threshold may notify, the idle timer restarts (R118, R128). -/
def State.advanceTail (s : State) (q : Nat) : State :=
  let r := (s.queue q).take
  let s := s.setQueue q { r with tail := (r.tail + 1) % 65536 }
  let s := if r.thresh != 0 && decide (r.thresh ≤ (s.queue q).fill) then s.notifyQueue q else s
  s.restartIdle q

/-! ## Enqueue (R122, R124, R477) -/

/-- Put an entry into the slot at TAIL, the ring written under identity `w`; false where the queue is off or full or the ring write is
refused. -/
def State.place (s : State) (w q : Nat) (bs : List Byte) : Bool × State :=
  let r := s.queue q
  if !r.v then (false, s)
  else if r.full then (false, s.setQueue q { r with fullcnt := min (r.fullcnt + 1) 0xFFFF })
  else match s.dmaWrite w (r.slot r.tail) bs with
    | (some _, s) => (false, s)
    | (none, s) => (true, s.advanceTail q)

/-- An enqueue by a producer of the device, under its own identity (R120): true when the entry was taken. -/
def State.enqueue (s : State) (m q : Nat) (bs : List Byte) : Bool × State :=
  let r := s.queue q
  if !r.v then (false, s)
  else if !s.mayProduce m r then (false, s.refuseProducer m q)
  else s.place m q bs

/-- A copy descriptor of the enqueue window (R122). -/
structure CopyDesc where
  src : Nat
  len : Nat
  top : Nat
  deriving DecidableEq, Repr

/-- Read a copy descriptor. -/
def CopyDesc.of (w : DWord) : CopyDesc := { src := w.toNat % 2 ^ 32, len := w.toNat / 2 ^ 32 % 65536, top := w.toNat / 2 ^ 48 }

/-- A copy enqueue arrives (R122, R123): the descriptor is checked and the source read under the producer's identity into Wings' buffer; a
refusal reserves no slot and is counted in COPY_ERR. Mark: DESIGN CHOICE (log 40). -/
def State.copyStart (s : State) (m q : Nat) (w : DWord) : State :=
  let r := s.queue q
  let d := CopyDesc.of w
  let n := if d.len = 0 then r.entry else d.len
  if d.top != 0 || d.src % 8 != 0 || decide (r.entry < n) then s.sat F.WINGS_ERR_B_COPY_ERR
  else match s.dmaRead m d.src n with
    | (.error _, s) => s.sat F.WINGS_ERR_B_COPY_ERR
    | (.ok bs, s) => { s with wing.copies := s.wing.copies ++ [{ queue := q, master := m, bytes := bs }] }

/-- A store to the enqueue window (R119, R121, R122). -/
def State.enqueueStore (s : State) (m q : Nat) (w : DWord) : State :=
  let r := s.queue q
  if !r.v then s
  else if !s.mayProduce m r then s.refuseProducer m q
  else if r.esize = 0 then (s.place m q (leBytes 8 w.toNat)).2
  else s.copyStart m q w

/-! ## Dequeue and release (R125) -/

/-- A W3 that was written takes effect, HEAD advances by `n` and the queue is armed again; it notifies at once if the fill still stands at the threshold (R118, R128). -/
def State.releaseEntries (s : State) (q n : Nat) : State :=
  let r := (s.queue q).take
  let s := s.setQueue q { r with head := (r.head + n) % 65536, armed := true }
  let s := if r.thresh != 0 && decide (r.thresh ≤ (s.queue q).fill) then s.notifyQueue q else s
  s.restartIdle q

/-- A store to the dequeue window (R119, R125). Mark: DEDUCED (log 37). -/
def State.releaseStore (s : State) (m q : Nat) (w : DWord) : State :=
  let r := s.queue q
  if !r.v then s
  else if !s.mayConsume m r then s.refuseConsumer m q
  else if w.toNat = 0 ∨ r.fill < w.toNat then s.sat F.WINGS_ERR_A_CMASK_REFUSED
  else s.releaseEntries q w.toNat

/-- The bytes of the entry at HEAD plus `i`. -/
def State.entryAt (s : State) (q i : Nat) : List Byte := s.peek ((s.queue q).slot ((s.queue q).head + i)) (s.queue q).entry

/-- A unit reads `n` bytes of the entry at HEAD plus `i` under its own identity. -/
def State.readEntry (s : State) (m q i n : Nat) : Except Nat (List Byte) × State := s.dmaRead m ((s.queue q).slot ((s.queue q).head + i)) n

/-! ## State records (R118) -/

/-- Does a ring of `len` bytes at `base` lie in one Terrace bank or one CLR-D? -/
def ringPlaced (base len : Nat) : Bool :=
  match targetOf 25 base, targetOf 25 (base + len - 1) with
  | .terrace a _, .terrace b _ => a == b
  | .clr a o, .clr b p => a == b && decide (0x10000 ≤ o) && decide (0x10000 ≤ p)
  | _, _ => false

/-- May the queue be enabled with this ESIZE and DEPTH (R118)? -/
def QRec.enableOk (r : QRec) (esize depth : Nat) : Bool :=
  let len := 2 ^ depth * (8 * 2 ^ esize)
  decide (esize ≤ 8) && decide (64 ≤ len) && decide (len ≤ 0x40000) && r.base * 64 % len == 0 && ringPlaced (r.base * 64) len

/-- A refused write of a state record is counted. -/
def State.refuseCfg (s : State) : State := s.sat F.WINGS_ERR_B_CFG_REFUSED

/-- A write of W1 with V = 1 (R118): enables a disabled queue with HEAD = TAIL = 0, FULLCNT = 0 and ARMED = 1, changes nothing on an enabled
one, or is refused. -/
def State.queueEnable (s : State) (q : Nat) (w : Word) : State :=
  let r := s.queue q
  let es := getBits w 30 27
  let dp := getBits w 26 23
  if r.v then (if r.esize = es ∧ r.depth = dp then s else s.refuseCfg)
  else if !r.enableOk es dp then s.refuseCfg
  else (s.setQueue q { r.take with v := true, esize := es, depth := dp, head := 0, tail := 0, fullcnt := 0, armed := true }).disarm (.queueIdle q)

/-- A write of W1 with V = 0 (R118): the entries are abandoned and HEAD := TAIL; a write that changes ESIZE or DEPTH of an enabled queue is a
disable all the same. -/
def State.queueDisable (s : State) (q : Nat) (w : Word) : State :=
  let r := s.queue q
  let es := if getBits w 30 27 ≤ 8 then getBits w 30 27 else r.esize
  (s.setQueue q { r with v := false, esize := es, depth := getBits w 26 23, head := r.tail }).disarm (.queueIdle q)

/-- A 32-bit store to word `k` of state record `q` (R117, R118); a write of W3 waits for the next enqueue, release or enable. -/
def State.queueWrite (s : State) (q k : Nat) (w : Word) : State :=
  let r := s.queue q
  if k = 0 then (if r.v then s.refuseCfg else s.setQueue q { r with base := getBits w 31 6, profile := getBits w 5 0 })
  else if k = 1 then (if w.getLsbD 31 then s.queueEnable q w else s.queueDisable q w)
  else if k = 2 then s
  else s.setQueue q { r with next := some (getBits w 31 16, getBits w 15 8, getBits w 7 3, w.getLsbD 2) }

end Sys2Proof.Machine
end

