-- ==== Sys2Proof/Machine/StageTime.lean ====
section
/-! DEFINITION. Stage Time and the frame grid (R36 to R51): the servo and its states, holdover, steps, the grid arithmetic and the frame number. -/

namespace Sys2Proof.Machine

/-! ## The grid (R46, R47) -/

/-- INT of a RATE (R46). -/
def rateInt (r : Nat) : Nat := if r = 0 then 125000 else if r = 1 then 104166 else if r = 2 then 52083 else 34722

/-- NUM of a RATE. -/
def rateNum (r : Nat) : Nat := if r = 0 then 0 else 3200

/-- DEN of a RATE, which is the frame rate in frames per second. -/
def rateDen (r : Nat) : Nat := if r = 0 then 4000 else if r = 1 then 4800 else if r = 2 then 9600 else 14400

/-- The live RATE. -/
def State.rate (s : State) : Nat := s.lv F.STIME_FRAME_CFG_RATE

/-- The live call time. -/
def State.call (s : State) : Nat := s.lv F.STIME_CALL_LO_CALL + 2 ^ 32 * s.lv F.STIME_CALL_HI_CALL

/-- B(n) = CALL + n × INT + floor(n × NUM / DEN), the floor toward minus infinity (R46, R49). -/
def boundaryAt (call rate : Nat) (n : Int) : Int := call + n * rateInt rate + n * rateNum rate / (rateDen rate : Int)

/-- The frame that holds time `t`: the largest n with B(n) ≤ t. -/
def frameAt (call rate : Nat) (t : Int) : Int := ((t - call + 1) * rateDen rate - 1) / ((rateInt rate * rateDen rate + rateNum rate : Nat) : Int)

/-- The accumulator of frame n: (n × NUM) mod DEN (R47). -/
def accOf (rate : Nat) (n : Int) : Nat := (n * rateNum rate % (rateDen rate : Int)).toNat

/-- Is frame n INT + 1 ticks long (R47)? -/
def longFrame (rate : Nat) (n : Int) : Bool := decide (rateDen rate ≤ accOf rate n + rateNum rate)

/-- The boundary of the current frame, in ticks. -/
def State.frameStart (s : State) : Int := boundaryAt s.call s.rate s.stime.gridN

/-- The next boundary. -/
def State.nextBoundary (s : State) : Int := boundaryAt s.call s.rate (s.stime.gridN + 1)

/-- The frame number, 48 bits; 0 while not valid (R49). -/
def State.frame (s : State) : Nat := if s.stime.valid then s.stime.gridN.toNat % 2 ^ 48 else 0

/-- STIME_FRAME_HI as the frame stands (R49). -/
def State.frameHi (s : State) : Word := BitVec.ofNat 32 (b2n s.stime.valid * 2 ^ 31 + s.frame / 2 ^ 32)

/-- STIME_FRAME_ACC as the frame stands (R47). -/
def State.frameAcc (s : State) : Word :=
  BitVec.ofNat 32 (b2n (longFrame s.rate s.stime.gridN) * 2 ^ 31 + accOf s.rate s.stime.gridN)

/-! ## The servo (R39 to R44) -/

/-- Servo states (STIME_STATE.STATE). -/
abbrev servoFREERUN : Nat := 0
/-- ACQUIRE. -/
abbrev servoACQUIRE : Nat := 1
/-- LOCKED. -/
abbrev servoLOCKED : Nat := 2
/-- HOLDOVER. -/
abbrev servoHOLDOVER : Nat := 3

/-- One ppm in the units of STIME_RATE (2^-16 ppm). -/
def ppm : Int := 65536

/-- The servo state. -/
def State.servo (s : State) : Nat := s.rd F.STIME_STATE_STATE

/-- Time in HOLDOVER in units of 100 ms, saturating (HOLD_ELAPSED). -/
def State.holdElapsed (s : State) : Nat :=
  if s.servo = servoHOLDOVER then min (((s.now : Int) - s.stime.holdSince) / 50000000).toNat 65535 else 0

/-- What SYS_STATE.UNSYNCED is by R43. -/
def State.unsyncedRule (s : State) : Bool :=
  s.servo == servoFREERUN || (s.servo == servoHOLDOVER && decide (s.rd F.STIME_HOLD_HOLD_LIMIT ≤ s.holdElapsed)) || decide (128000 < s.stime.lastE.natAbs)

/-- Bring UNSYNCED to what R43 says; a change fires source 28. -/
def State.refreshUnsynced (s : State) : State :=
  if s.unsynced == s.unsyncedRule then s else (s.wr F.SYS_STATE_UNSYNCED (b2n s.unsyncedRule)).irq 28

/-- A quotient that the manual does not round: exact where it is whole, else rounded down or up. Mark: DESIGN CHOICE (log 26). -/
def freeQuot (a b : Int) (up : Bool) : Int := a / b + (if a % b ≠ 0 ∧ up then 1 else 0)

/-- The mean of the frequency terms of the last 16 samples, or of those taken so far where they are fewer (R42). Mark: DESIGN CHOICE (log 130). -/
def State.meanFreq (s : State) : Int :=
  if s.stime.hist.isEmpty then s.stime.freq
  else freeQuot (s.stime.hist.foldl (· + ·) 0) (s.stime.hist.length : Int) (Config.servoRound s.now s.stime.hist.length)

/-- IRIG-B has decoded valid frames for the preceding 3 s: the last three ended within them, the oldest of them beginning within 4 s (R44, R241). -/
def State.irigRecent (s : State) : Bool :=
  match s.stime.irigMarks with
  | [_, _, m] => decide ((s.now : Int) ≤ m + 4 * (ticksPerSecond : Int))
  | _ => false

/-- With SRC = 0b11, HOLDOVER under PTP calls for IRIG-B, provided that it has been valid for 3 s (R44). -/
def State.wantsIrig (s : State) : Bool := s.rd F.STIME_CTRL_SRC == 3 && s.rd F.STIME_STATE_SRC_ACTIVE == 1 && s.irigRecent

/-- Enter a servo state; a change fires source 28 (R43). Entering HOLDOVER holds freq at the mean of the last 16 frequency terms, with phase
zero (R42), and settles whether IRIG-B takes over at its next on-time mark (R44). In FREERUN the rate stays as it was last applied. Mark: DESIGN CHOICE (log 130). -/
def State.servoGo (s : State) (st : Nat) : State :=
  if s.servo = st then s.refreshUnsynced
  else
    let s := (s.wr F.STIME_STATE_STATE st).irq 28
    let s := { s with stime.good := 0, stime.bad := 0, stime.switchDue := st == servoHOLDOVER && s.wantsIrig }
    let s :=
      if st = servoHOLDOVER then
        let f := s.meanFreq
        let s := { s with stime.freq := f, stime.holdSince := s.now }
        (s.setReg A.STIME_RATE (BitVec.ofInt 32 f)).arm .holdLimit (s.rd F.STIME_HOLD_HOLD_LIMIT * 50000000)
      else s.disarm .holdLimit
    let s := if st = servoFREERUN then (s.wr F.STIME_STATE_SRC_ACTIVE 0).disarm .servoLoss else s
    s.refreshUnsynced

/-- The rate error of a sample in units of 2^-16 ppm: e / (256 × t), where it is not whole rounded down or up (the manual does not say which); a first sample has no
interval, so its rate error is free (R39). Mark: DESIGN CHOICE (log 26). -/
def servoError (s : State) (e : Int) (t : Option Nat) : Int :=
  match t with
  | some t => if t = 0 then Config.servoFirst s.fresh else freeQuot (e * 65536000000) (256 * t : Nat) (Config.servoRound s.now t)
  | none => Config.servoFirst s.fresh

/-- The clamp of the phase term in ppm: in LEAD and UNDERSTUDY at most 50 (R40). -/
def State.phaseLimit (s : State) : Nat :=
  if s.mode == .lead || s.mode == .understudy then min (s.rd F.STIME_SERVO_PHASE_LIMIT) 50 else s.rd F.STIME_SERVO_PHASE_LIMIT

/-- A sample whose error exceeds STIME_STEP_THRESH in LEAD or UNDERSTUDY stops the phase correction (R40). -/
def State.offsetAlarmed (s : State) (e : Int) : Bool :=
  (s.mode == .lead || s.mode == .understudy) && decide (s.rd F.STIME_STEP_THRESH_THRESH_NS * 128 < e.natAbs)

/-- The state change of R41 for a sample of the active source. The sample that enters ACQUIRE counts towards LOCK_COUNT, and LOCK_COUNT is judged from the next one on.
Mark: DESIGN CHOICE (log 130). -/
def State.servoState (s : State) (e : Int) : State :=
  let n := e.natAbs
  if s.servo = servoFREERUN ∨ s.servo = servoHOLDOVER then
    let s := s.servoGo servoACQUIRE
    if n < s.rd F.STIME_LOCK_LOCK_NS * 128 then { s with stime.good := 1 } else s
  else if s.servo = servoACQUIRE then
    if n < s.rd F.STIME_LOCK_LOCK_NS * 128 then
      if s.rd F.STIME_LOCK_LOCK_COUNT ≤ s.stime.good + 1 then s.servoGo servoLOCKED else { s with stime.good := s.stime.good + 1 }
    else { s with stime.good := 0 }
  else
    if s.rd F.STIME_LOCK_UNLOCK_NS * 128 < n then
      if 2 ≤ s.stime.bad + 1 then s.servoGo servoACQUIRE else { s with stime.bad := s.stime.bad + 1 }
    else { s with stime.bad := 0 }

/-- The servo takes an offset sample `e` in units of 7.8125 ps (R39 to R43). -/
def State.servoUpdate (s : State) (e : Int) : State :=
  let t := s.stime.lastAt.map fun a => ((s.now : Int) - a).toNat
  let r := servoError s e t
  let freq := clampInt (-(200 * ppm)) (200 * ppm) (s.stime.freq - r / (2 ^ s.rd F.STIME_SERVO_KI : Nat))
  let alarm := s.offsetAlarmed e
  let lim : Int := s.phaseLimit * ppm
  let phase := if alarm then 0 else clampInt (-lim) lim (-(r / (2 ^ s.rd F.STIME_SERVO_KP : Nat)))
  let s := { s.next with stime.freq := freq, stime.hist := (freq :: s.stime.hist).take 16, stime.lastAt := some (s.now : Int), stime.lastE := e }
  let s := s.setReg A.STIME_RATE (BitVec.ofInt 32 (freq + phase))
  let s := s.wr F.STIME_STATE_OFFSET_ALARM (b2n alarm)
  let s := if alarm then s.irq 31 else s
  let s := if s.mode == .lead && decide (128000 < e.natAbs) then s.post 0x2005 5 17 [unsigned 32 e] else s
  let s := s.servoState e
  (s.arm .servoLoss (s.rd F.STIME_HOLD_LOSS_TIMEOUT * ticksPerMs)).refreshUnsynced

/-- Sources of samples (SRC_ACTIVE): 1 = PTP, 2 = IRIG-B. -/
abbrev srcPTP : Nat := 1
/-- IRIG-B. -/
abbrev srcIRIG : Nat := 2

/-- Does the servo use a sample of source `k` now (STIME_CTRL.SRC, R44)? -/
def State.servoTakes (s : State) (k : Nat) : Bool :=
  let src := s.rd F.STIME_CTRL_SRC
  if src = 0 then false
  else if src = 3 then (if s.rd F.STIME_STATE_SRC_ACTIVE = srcIRIG then k == srcIRIG else k == srcPTP)
  else src == k

/-- The Sync interval in ticks: 2^LOG_SYNC s (SWITCH_PTP_CFG). -/
def State.syncTicks (s : State) : Nat := ticksPerSecond / 2 ^ (-signed 4 (s.rd F.SWITCH_PTP_CFG_LOG_SYNC)).toNat

/-- PTP samples in successive Sync intervals, this one included: a gap of two intervals or more has missed one (R44). Mark: DEDUCED (log 131). -/
def State.ptpRow (s : State) : Nat :=
  match s.stime.ptpLast with
  | some t => if (s.now : Int) < t + 2 * (s.syncTicks : Int) then s.stime.ptpSeen + 1 else 1
  | none => 1

/-- An offset sample of source `k` is delivered (R39, R45): STIME_OFFSET saturates, and the servo takes it from there; STIME_COARSE holds the whole offset rounded to the
nearest tick, a tie either way. -/
def State.deliverSample (s : State) (k : Nat) (e : Int) : State :=
  let coarse := e / 256 + (if 128 < e % 256 ∨ (e % 256 = 128 ∧ s.draw % 2 = 1) then 1 else 0)
  let s := s.next
  let e32 := clampInt (-2147483648) 2147483647 e
  let s := s.setReg A.STIME_OFFSET (BitVec.ofInt 32 e32)
  let s := (s.setReg A.STIME_COARSE_LO (BitVec.ofInt 32 coarse)).setReg A.STIME_COARSE_HI (BitVec.ofInt 32 (coarse / 4294967296))
  let s := if k = srcPTP then { s with stime.ptpSeen := s.ptpRow, stime.ptpLast := some (s.now : Int) } else s
  if s.servoTakes k then ((s.wr F.STIME_STATE_SRC_ACTIVE k).servoUpdate e32) else s

/-- No sample for LOSS_TIMEOUT: LOCKED and ACQUIRE go to HOLDOVER (R41). -/
def State.servoLoss (s : State) : State :=
  if s.servo = servoLOCKED ∨ s.servo = servoACQUIRE then { s.servoGo servoHOLDOVER with stime.ptpSeen := 0 } else s

/-- The next IRIG-B on-time mark: whole seconds after the last one. -/
def State.nextMark (s : State) : Nat :=
  match s.stime.irigMarks with
  | m :: _ => (m + (((s.now : Int) - m) / (ticksPerSecond : Int) + 1) * (ticksPerSecond : Int)).toNat
  | [] => s.now

/-- An IRIG-B on-time mark, where the servo goes over to IRIG-B if its HOLDOVER called for it (R44). -/
def State.irigMark (s : State) : State :=
  if s.stime.switchDue && s.servo == servoHOLDOVER && s.rd F.STIME_CTRL_SRC == 3 then
    State.post { s.wr F.STIME_STATE_SRC_ACTIVE srcIRIG with stime.ptpSeen := 0, stime.switchDue := false } 0x2004 4 17 [srcIRIG]
  else s

/-- PTP samples have been present for LOCK_COUNT successive intervals, up to now (R44). Mark: DEDUCED (log 131). -/
def State.ptpBack (s : State) : Bool :=
  decide (s.rd F.STIME_LOCK_LOCK_COUNT ≤ s.stime.ptpSeen) && match s.stime.ptpLast with
    | some t => decide ((s.now : Int) < t + 2 * (s.syncTicks : Int))
    | none => false

/-- With SRC = 0b11: to IRIG-B at its next on-time mark where HOLDOVER called for it, and back to PTP once it has been present for LOCK_COUNT intervals (R44). -/
def State.servoSwitch (s : State) : State :=
  if s.rd F.STIME_CTRL_SRC = 3 then
    if s.stime.switchDue && s.servo == servoHOLDOVER then (s.reachST s.nextMark).irigMark
    else if s.rd F.STIME_STATE_SRC_ACTIVE = srcIRIG ∧ s.ptpBack then (s.wr F.STIME_STATE_SRC_ACTIVE srcPTP).post 0x2004 4 17 [srcPTP]
    else s
  else s

/-! ## Steps and the grid (R49 to R51) -/

/-- The staged step, signed (STIME_STEP). -/
def State.stepTicks (s : State) : Int := (s.reg A.STIME_STEP_HI).toInt * 4294967296 + (s.reg A.STIME_STEP_LO).toNat

/-- One-shot cues that a step from `old` to now passes over, by index and time (R51). -/
def State.passedOver (s : State) (old : Nat) : List (Nat × Nat) :=
  ((s.cue.table.map fun p => p.1 / 4).eraseDups).filterMap fun i =>
    let w := fun (k : Nat) => look (fun _ => 0#32) s.cue.table (4 * i + k)
    let t := (old / 2 ^ 48 * 2 ^ 48) + (w 2).toNat + 2 ^ 32 * getBits (w 3) 15 0
    let t := if t ≤ old then t + 2 ^ 48 else t
    if (w 0).getLsbD 31 && !(w 0).getLsbD 30 && decide (t ≤ s.now) then some (i, t) else none

/-- A PIN_SET that is not with its group's scheduler no longer keeps its time: after a step backward the same time comes again (R51, R61). -/
def State.freePinTimes (s : State) : State :=
  { s with pin.pins := s.pin.pins.map fun p =>
      if s.pin.pre.any fun c => c.pin == p.1 && some c.time == p.2.lastCue then p else (p.1, { p.2 with lastCue := none }) }

/-- The frame number and its validity follow Stage Time on the grid in force; standing cues whose times are past are not dispatched; the change is
booked with the frame that ends at the boundary and the new one, and fires source 30 (R51). Mark: DESIGN CHOICE (log 132). -/
def State.gridChanged (s : State) (oldFrame : Nat) : State :=
  let n := frameAt s.call s.rate s.now
  let s := { s with stime.gridN := n, stime.valid := decide (0 ≤ n), cue.floor := s.now, cue.runSince := min s.cue.runSince s.now, cue.standDone := [] }
  (s.irq 30).post 0x2001 5 17 [oldFrame % 2 ^ 32, oldFrame / 2 ^ 32, s.frame % 2 ^ 32, s.frame / 2 ^ 32]

/-- A step is refused at its application; a TIME_STEP command that waits for it is told. Mark: DESIGN CHOICE (log 102). -/
def State.refuseStep (s : State) : State :=
  let s : State := { s with desk.cmds := s.desk.cmds.map fun (c : Cmd) => if c.op = 0x0403 then { c with note := [1] } else c }
  s.wr F.STIME_STATE_STEP_REFUSED 1

/-- A pending step is applied at a boundary, or refused in LEAD and UNDERSTUDY and where ST would leave its range (STEP_GO, R50). -/
def State.applyStep (s : State) : State :=
  if s.flag F.STIME_STATE_STEP_PENDING then
    let s := s.wr F.STIME_STATE_STEP_PENDING 0
    let t : Int := s.now + s.stepTicks
    if s.mode == .lead || s.mode == .understudy || decide (t < 0) || decide (18446744073709551615 < t) then s.refuseStep
    else
      let old := s.frame
      let from_ := s.now
      let s : State := { s with st := BitVec.ofInt 64 t }
      let s := if from_ < s.now then { s with cue.stepped := s.passedOver from_ } else s.freePinTimes
      s.gridChanged old
  else s

/-- The tick a clock cycle brings (R36, R38): 1, or 0 or 2 when the rate correction has built up a whole tick. Mark: DESIGN CHOICE (log 1). -/
def State.tick (s : State) : State :=
  if s.timeRuns then
    let unit : Int := 65536000000
    let acc := s.stime.rateAcc + (s.reg A.STIME_RATE).toInt
    if unit ≤ acc then { s with st := s.st + 2, stime.rateAcc := acc - unit }
    else if acc ≤ -unit then { s with stime.rateAcc := acc + unit }
    else { s with st := s.st + 1, stime.rateAcc := acc }
  else s

end Sys2Proof.Machine
end

