-- ==== Sys2Proof/Machine/Tickets.lean ====
section
/-! DEFINITION. Tickets and deadlines (R62 to R67): allocation, completion, lateness, reclaim, completion records. -/

namespace Sys2Proof.Machine

/-- Ticket `t`, if it is not FREE (R64). -/
def State.ticket (s : State) (t : Nat) : Option Ticket := find? s.cue.tickets t

/-- Replace or free a ticket. -/
def State.setTicket (s : State) (t : Nat) (k : Option Ticket) : State := { s with cue.tickets := put noneAt s.cue.tickets t k }

/-- Status codes of a completion record (R67). -/
abbrev tkDONE : Nat := 0
/-- DONE_ERR. -/
abbrev tkERR : Nat := 1
/-- LATE. -/
abbrev tkLATE : Nat := 2
/-- DONE_LATE. -/
abbrev tkDONELATE : Nat := 3
/-- RECLAIMED. -/
abbrev tkRECLAIMED : Nat := 4

/-- The completion record of R67. -/
def ticketWord (t cue status stLo : Nat) : Nat := t * 2 ^ 54 + cue * 2 ^ 40 + status * 2 ^ 36 + stLo % 2 ^ 32

/-- Write a completion record to the queue of CUE_TKT_CFG as master 17; a refused enqueue counts DONE_Q_DROP (R66, R67, R477). -/
def State.ticketRecord (s : State) (t cue status : Nat) : State :=
  if s.flag F.CUE_TKT_CFG_DONE_Q_EN then
    match s.enqueue 17 (s.rd F.CUE_TKT_CFG_DONE_Q) (leBytes 8 (ticketWord t cue status s.now)) with
    | (true, s) => s
    | (false, s) => s.sat F.CUE_CNT_C_DONE_Q_DROP
  else s

/-- A cue item on the trace port: dispatch or ticket status (R426); the FIFO takes it while the source is enabled and its mode allows it. -/
def State.traceItem (s : State) (ty : Nat) (bytes : List Byte) : State :=
  let on := s.flag F.OBSERVE_TRACE_CFG_EN && (s.reg A.OBSERVE_TRACE_CFG).getLsbD (ty - 1) && s.mode != .curtain
    && (ty != 4 || s.mode == .factory || s.mode == .rehearsal)
  if on then
    if s.trace.fill + bytes.length + 1 ≤ 16384 then { s with trace.items := s.trace.items ++ [(ty, bytes)], trace.fill := s.trace.fill + bytes.length + 1 }
    else State.irq { s.sat F.OBSERVE_TRACE_STAT_LOST with trace.overflow := s.trace.overflow + 1 } 209
  else s

/-- The trace word of a cue item (R426). -/
def cueItem (cue kind ticket status stLo : Nat) : List Byte :=
  leBytes 8 (cue * 2 ^ 50 + kind * 2 ^ 49 + ticket * 2 ^ 39 + status * 2 ^ 35 + stLo % 2 ^ 32)

/-- A ticket changes status: its completion record and its trace item (R67, R426). -/
def State.ticketStatus (s : State) (t cue status : Nat) : State :=
  (s.ticketRecord t cue status).traceItem 2 (cueItem cue 1 t status s.now)

/-- A launched cue's ticket, as the unit that completes it keeps it: the number and the allocation it belongs to. -/
def State.ticketHeld (s : State) (r : TicketRef) : Option Ticket :=
  match s.ticket r.num with
  | some k => if k.serial = r.serial then some k else none
  | none => none

/-- Complete ticket `t` that stands as `k` (R64, R66): DONE or DONE_ERR, or DONE_LATE once it is LATE; the ticket is FREE. -/
def State.completeNum (s : State) (t : Nat) (k : Ticket) (err : Bool) : State :=
  ((s.setTicket t none).disarm (.ticket t)).ticketStatus t k.cue (if k.late then tkDONELATE else if err then tkERR else tkDONE)

/-- The unit named in R56 completes a ticket it holds; a launch without a ticket has nothing to complete. -/
def State.complete (s : State) (r : Option TicketRef) (err : Bool) : State :=
  match r with
  | none => s
  | some r => match s.ticketHeld r with
    | some k => s.completeNum r.num k err
    | none => s

/-- The lowest-numbered free ticket (R62). -/
def State.freeTicket (s : State) : Option Nat := (List.range 1024).find? fun t => (s.ticket t).isNone

/-- Allocate a ticket for a cue with TKT = 1 (R62, R63): the lowest free one, or none, counted and booked. `owner` is the master entitled to
complete it, if a master is. -/
def State.allocTicket (s : State) (cue due deadline : Nat) (owner : Option Nat) : Option TicketRef × State :=
  match s.freeTicket with
  | some t =>
    let k : Ticket := { cue, owner, deadline := if deadline = 0 then none else some (due + deadline), late := false, since := s.now, age := 0,
                        serial := s.cue.serial }
    let s := { s.setTicket t (some k) with cue.serial := s.cue.serial + 1 }
    let s := if deadline = 0 then s else { s with timers := (.ticket t, due + deadline + 1) :: s.timers.filter fun p => p.1 != .ticket t }
    (some { num := t, serial := k.serial }, s)
  | none => (none, ((s.sat F.CUE_CNT_B_TKT_EXHAUST).irq 26).postLim 0x20030000 0x2003 5 17 [cue])

/-- A ticket's deadline passes (R64): it becomes LATE, with its record, count, source 24 and booking. -/
def State.ticketLate (s : State) (t : Nat) : State :=
  match s.ticket t with
  | some k =>
    if k.late then s
    else
      let s := s.setTicket t (some { k with late := true, since := s.now, age := 0 })
      let s := (s.sat F.CUE_CNT_B_DEADLINE_MISS).irq 24
      ((s.post 0x2002 4 17 [t, k.cue]).ticketStatus t k.cue tkLATE).observe 2 0 1
  | none => s

/-- May the ticket be reclaimed: RECLAIM_FRAMES boundaries after it became LATE, or after its launch when it has no deadline (R65)? -/
def State.reclaimable (s : State) (k : Ticket) : Bool :=
  let n := s.rd F.CUE_TKT_CFG_RECLAIM_FRAMES
  n != 0 && (k.late || k.deadline.isNone) && decide (n ≤ k.age)

/-- A ticket is reclaimed: FREE with status RECLAIMED. -/
def State.reclaim (s : State) (t : Nat) : State :=
  match s.ticket t with
  | some k => if s.reclaimable k then ((s.setTicket t none).disarm (.ticket t)).ticketStatus t k.cue tkRECLAIMED else s
  | none => s

/-- At a boundary every ticket but one launched, or become late, in that cycle ages by one (R65). -/
def State.ageTickets (s : State) : State :=
  { s with cue.tickets := s.cue.tickets.map fun p => (p.1, p.2.map fun k => if k.since = s.now then k else { k with age := k.age + 1 }) }

/-- Tickets in OPEN or LATE (CUE_STAT.OPEN). -/
def State.openTickets (s : State) : Nat := s.cue.tickets.length

end Sys2Proof.Machine
end

