-- ==== Sys2Proof/Machine/Ensembles.lean ====
section
/-! DEFINITION. Ensemble gatherers (R130 to R137): configuration, the expected smpCnt, the member queues, hold and mark, the sample matrix. -/

namespace Sys2Proof.Machine

/-- The configuration of an ensemble as its gather takes it: the live words (R26, R130). -/
def State.ensCfg (s : State) (e : Nat) : EnsCfg :=
  let f := fun (x : Fld) => s.lv (x.ens e)
  { en := f F.ENSEMBLE_CFG_A_EN == 1, holdMax := f F.ENSEMBLE_CFG_A_HOLD_MAX, double := f F.ENSEMBLE_CFG_A_DOUBLE == 1,
    qwords := f F.ENSEMBLE_CFG_A_QWORDS == 1, fmt := f F.ENSEMBLE_CFG_A_FMT == 1, core := f F.ENSEMBLE_CFG_A_CORE,
    nstream := f F.ENSEMBLE_CFG_A_NSTREAM, nch := f F.ENSEMBLE_CFG_A_NCH, smpOfs := f F.ENSEMBLE_CFG_B_SMP_OFS,
    matrix := f F.ENSEMBLE_CFG_B_MATRIX * 64, lag := f F.ENSEMBLE_CFG_C_LAG, qmask := f F.ENSEMBLE_CFG_C_QMASK,
    members := (List.range 64).map fun k => f (F.ENSEMBLE_MEMBER_QUEUE k) }

/-- Round up to a multiple of `k`. -/
def roundUp (n k : Nat) : Nat := (n + k - 1) / k * k

/-- ROW of R136. -/
def EnsCfg.row (c : EnsCfg) : Nat := roundUp (8 + 4 * c.nch * (1 + b2n c.qwords)) 8

/-- MSIZE of R136. -/
def EnsCfg.msize (c : EnsCfg) : Nat := roundUp (64 + c.nstream * c.row) 64

/-- May the configuration be committed (R130)? -/
def EnsCfg.ok (c : EnsCfg) (frameRate : Nat) : Bool :=
  !c.en || (decide (1 ≤ c.nch) && decide (c.nch ≤ 24) && decide (1 ≤ c.nstream) && decide (c.nstream ≤ 64) && decide (c.core ≤ 8)
    && c.holdMax != 3 && c.lag != 3 && decide (c.smpOfs < frameRate) && decide (c.matrix + c.msize * (1 + b2n c.double) ≤ 65536))

/-- The expected smpCnt of frame N: (N + SMP_OFS − LAG) mod RATE (R131). -/
def EnsCfg.expected (c : EnsCfg) (frame rate : Nat) : Nat := ((frame + c.smpOfs : Nat) - (c.lag : Int)) % (rate : Int) |>.toNat

/-- What inspecting a member's queue found: the entry taken, how many entries were released, and the counts of R132. -/
structure Inspect where
  taken : Option (List Byte)
  released : Nat
  old : Nat
  dup : Nat
  shape : Nat
  deriving DecidableEq, Repr

/-- What one entry of a member's queue does to the inspection (R132); none leaves it and every later entry for a future frame. Mark: DEDUCED (log 35). -/
def Inspect.entry (c : EnsCfg) (e rate : Nat) (b : List Byte) (r : Inspect) : Option Inspect :=
  let ty := leAt b 8 4 % 4
  let smp := leAt b 14 2
  let nchan := byteAt b 23
  let d := (e + rate - smp) % rate
  if ty != 0 || decide (rate ≤ smp) || nchan != c.nch then some { r with released := r.released + 1, shape := r.shape + 1 }
  else if d = 0 then
    some (match r.taken with
     | none => { r with taken := some b, released := r.released + 1 }
     | some _ => { r with released := r.released + 1, dup := r.dup + 1 })
  else if d < rate / 2 then some { r with released := r.released + 1, old := r.old + 1 }
  else none

/-- Inspect the entries of queue `q` from HEAD, up to the given number (R132), each read as master 11 (R32); a refused read gives no entry and ends the
inspection. Mark: DEDUCED (log 35). -/
def State.inspectQueue (c : EnsCfg) (e rate q : Nat) : Nat → Inspect → State → Inspect × State
  | 0, r, s => (r, s)
  | n + 1, r, s => match s.readEntry 11 q r.released (s.queue q).entry with
    | (.error _, s) => (r, s)
    | (.ok b, s) => match r.entry c e rate b with
      | some r => State.inspectQueue c e rate q n r s
      | none => (r, s)

/-- The row of a record (R136): ARR, smpCnt, the channel values, the quality words, all as the matrix carries them. -/
def rowOf (c : EnsCfg) (b : List Byte) : HeldRow :=
  let chan := fun k => sliceB b (32 + 8 * k) 4
  let qual := fun k => sliceB b (36 + 8 * k) 4
  let val := fun k =>
    let v := beNat (chan k)
    if c.fmt then leBytes 4 (roundInt (signed 32 v) 0 false).toNat else leBytes 4 v
  { frame := 0, arr := leAt b 4 4, smp := leAt b 14 2, sync := byteAt b 13, qor := leAt b 20 2 % 2 ^ 14,
    values := (List.range c.nch).flatMap val, quality := (List.range c.nch).flatMap fun k => leBytes 4 (beNat (qual k)) }

/-- The bytes of a row: ARR, AGE and smpCnt, values, quality words, padding (R136). -/
def rowBytes (c : EnsCfg) (r : HeldRow) (age : Nat) : List Byte :=
  padTo c.row (leBytes 4 r.arr ++ leBytes 4 (age * 65536 + r.smp) ++ r.values ++ (if c.qwords then r.quality else []))

/-- A marked row: values 0, quality words 0x0000_0001, AGE 0 (R133). -/
def markedRow (c : EnsCfg) : HeldRow :=
  { frame := 0, arr := 0, smp := 0, sync := 1, qor := 0, values := List.replicate (4 * c.nch) 0#8,
    quality := (List.range c.nch).flatMap fun _ => leBytes 4 1 }

/-- What a gather builds up, member by member: the rows and the five bit maps of the header. -/
structure Matrix where
  rows : List Byte
  present : Nat
  held : Nat
  marked : Nat
  unsync : Nat
  qflag : Nat
  deriving DecidableEq, Repr

/-- Count in a STAT register of an ensemble. -/
def State.ensCount (s : State) (e : Nat) (f : Fld) (n : Nat) : State := s.sat (f.ens e) n

/-- The rows that a gather may hold (R133): those of its ensemble, or those of the old set where a commit changed the ensemble while it ran (R26, R135). -/
def State.heldFor (s : State) (g : Gather) : List (Nat × Option HeldRow) := g.oldHeld.getD s.ens.held

/-- One member of a gather (R132, R133): inspect and release its entries, take or hold or mark its row. -/
def State.gatherMember (s : State) (g : Gather) (k : Nat) (m : Matrix) : Matrix × State :=
  let c := g.cfg
  let q := nth c.members k
  let r := s.queue q
  let usable := r.v && s.reg (A.WINGS_PROFILE_CM r.profile) == BitVec.twoPow 32 11
  let rate := rateDen s.rate
  let e := c.expected g.frame rate
  let (i, s) := State.inspectQueue c e rate q (if usable then min 8 r.fill else 0) { taken := none, released := 0, old := 0, dup := 0, shape := 0 } s
  let s := if i.released = 0 then s else s.releaseEntries q i.released
  let s := ((s.ensCount g.ens F.ENSEMBLE_STAT_A_DISCARD_OLD i.old).ensCount g.ens F.ENSEMBLE_STAT_B_DISCARD_DUP i.dup).ensCount g.ens
    F.ENSEMBLE_STAT_B_SHAPE i.shape
  let b := 2 ^ k
  match i.taken with
  | some bs =>
    let row := { rowOf c bs with frame := g.frame }
    ({ m with rows := m.rows ++ rowBytes c row 0, present := m.present + b, unsync := m.unsync + (if row.sync = 0 then b else 0),
              qflag := m.qflag + (if row.qor &&& c.qmask = 0 then 0 else b) },
     if g.epoch = (look (fun _ => 0) s.ens.epochs g.ens) then { s with ens.held := put noneAt s.ens.held (g.ens * 64 + k) (some row) } else s)
  | none =>
    let s := s.ensCount g.ens F.ENSEMBLE_STAT_A_MISSING 1
    let mark := { m with rows := m.rows ++ rowBytes c (markedRow c) 0, marked := m.marked + b }
    match find? (s.heldFor g) (g.ens * 64 + k) with
    | some row =>
      if row.frame < g.frame ∧ g.frame - row.frame ≤ c.holdMax then
        ({ m with rows := m.rows ++ rowBytes c row (g.frame - row.frame), held := m.held + b,
                  unsync := m.unsync + (if row.sync = 0 then b else 0), qflag := m.qflag + (if row.qor &&& c.qmask = 0 then 0 else b) }, s)
      else (mark, s)
    | none => (mark, s)

/-- Where the matrix of a gather lies (R136). -/
def Gather.matrixAddr (g : Gather) : Nat :=
  0x08000000 + g.cfg.core * 0x40000 + 0x10000 + g.cfg.matrix + (if g.cfg.double then g.frame % 2 * g.cfg.msize else 0)

/-- The header but for its last word (R136). -/
def headerBytes (g : Gather) (e st : Nat) (m : Matrix) : List Byte :=
  leBytes 4 (g.frame % 2 ^ 32) ++ leBytes 4 (e * 65536 + g.frame / 2 ^ 32) ++ leBytes 8 m.present ++ leBytes 8 m.held ++ leBytes 8 m.marked
    ++ leBytes 8 m.unsync ++ leBytes 8 m.qflag ++ leBytes 4 st ++ List.replicate 8 0#8

/-- The writes of a finished gather in the order of R137; a denied write stops it. -/
def State.gatherWrites (s : State) : List (Nat × List Byte) → Option Nat × State
  | [] => (none, s)
  | (a, bs) :: t => match s.dmaWrite 11 a bs with
    | (some k, s) => (some k, s)
    | (none, s) => State.gatherWrites s t

/-- A gather finishes (R137): the rows, the header words, and last the word with COMPLETE = 1 and the new GEN; its ticket completes. -/
def State.gatherFinish (s : State) (g : Gather) : State :=
  let r := (List.range g.cfg.nstream).foldl (fun acc k => State.gatherMember acc.2 g k acc.1)
    (({ rows := [], present := 0, held := 0, marked := 0, unsync := 0, qflag := 0 } : Matrix), s)
  let m := r.1
  let s := r.2
  let gen := (look (fun _ => 0) s.ens.gens g.ens + 1) % 65536
  let a := g.matrixAddr
  let e := g.cfg.expected g.frame (rateDen s.rate)
  match s.gatherWrites [(a + 64, m.rows), (a, headerBytes g e s.now m), (a + 0x3C, leBytes 4 (2 ^ 31 + gen))] with
  | (some _, s) => s.complete g.ticket true
  | (none, s) =>
    State.complete { s with ens.gens := put (fun _ => 0) s.ens.gens g.ens gen, us.gathers := s.us.gathers ++ [(m.present, m.held, m.marked)] } g.ticket false

/-- The gather is among the running ones. -/
def State.addRunning (s : State) (g : Gather) : State := { s with ens.running := s.ens.running ++ [g] }

/-- The gather is no longer among the running ones. -/
def State.dropRunning (s : State) (g : Gather) : State := { s with ens.running := s.ens.running.erase g }

/-- A gather has started, unless the write that opens it was refused: then its ticket ends in error (R137). -/
def State.gatherBegun (g : Gather) (r : Option Nat × State) : State :=
  match r.1 with
  | some _ => (r.2.dropRunning g).complete g.ticket true
  | none => r.2

/-- Start a gather: COMPLETE := 0 is written first (R137); a denied write ends it with DONE_ERR (R135). -/
def State.gatherBegin (s : State) (g : Gather) : State :=
  State.gatherBegun g ((s.addRunning g).dmaWrite 11 (g.matrixAddr + 0x3C) (leBytes 4 (look (fun _ => 0) s.ens.gens g.ens)))

/-- May a gather of ensemble `e` start now: a gatherer is free and the ensemble's previous gather has finished (R135)? -/
def State.gathererFree (s : State) (e : Nat) : Bool := decide (s.ens.running.length < 4) && !(s.ens.running.any fun g => g.ens == e)

/-- A GATHER cue launches (R135): a disabled ensemble, or in REHEARSAL one of 16 to 255, completes with DONE_ERR; otherwise the gather starts, or
waits in dispatch order. -/
def State.gatherLaunch (s : State) (e : Nat) (t : Option TicketRef) : State :=
  let c := s.ensCfg e
  if !c.en || (s.mode == .rehearsal && decide (16 ≤ e)) then s.complete t true
  else
    let g : Gather := { ens := e, frame := s.frame, cfg := c, ticket := t, epoch := look (fun _ => 0) s.ens.epochs e, oldHeld := none }
    if s.gathererFree e && s.ens.waiting.isEmpty then s.gatherBegin g else { s with ens.waiting := s.ens.waiting ++ [g] }

/-- The first of the waiting gathers starts once it may: they start in dispatch order (R135). It takes the configuration live at its start. -/
def State.gatherNext (s : State) : State :=
  match s.ens.waiting with
  | g :: rest =>
    if s.gathererFree g.ens then
      let c := s.ensCfg g.ens
      let s : State := { s with ens.waiting := rest }
      if c.en then s.gatherBegin { g with cfg := c, epoch := look (fun _ => 0) s.ens.epochs g.ens } else s.complete g.ticket true
    else s
  | [] => s

/-- The running gather of ensemble `e` completes. Mark: DESIGN CHOICE (log 119). -/
def State.gatherEnd (s : State) (e : Nat) : State :=
  match s.ens.running.find? fun g => g.ens == e with
  | some g => (s.dropRunning g).gatherFinish g
  | none => s

/-- The hold state of ensemble `e` starts afresh (R134); a gather that runs keeps the old set (R26). -/
def State.ensFresh (s : State) (e : Nat) : State :=
  let mine := fun (h : Nat × Option HeldRow) => decide (e * 64 ≤ h.1 ∧ h.1 < e * 64 + 64)
  { s with
    ens.held := clearRange s.ens.held (e * 64) (e * 64 + 64)
    ens.running := s.ens.running.map fun g => if g.ens = e ∧ g.oldHeld = none then { g with oldHeld := some (s.ens.held.filter mine) } else g
    ens.epochs := put (fun _ => 0) s.ens.epochs e (look (fun _ => 0) s.ens.epochs e + 1) }

/-- A commit changes ensemble `e` (R130, R134): its live words follow the staged ones. -/
def State.ensApply (s : State) (e : Nat) : State :=
  let lo := 0x100000000 + e * 0x1000
  State.ensFresh { s with live := splice s.live s.regs lo (lo + 0x1000) } e

end Sys2Proof.Machine
end

