-- ==== Sys2Proof/Machine/Packers.lean ====
section
/-! DEFINITION. Packers (R138 to R144): appending, full words, swaps, descriptors, returned banks. -/

namespace Sys2Proof.Machine

/-- Packer channel `c`. -/
def State.packer (s : State) (c : Nat) : Packer := look (fun _ => Packer.off) s.packers c

/-- Replace a packer channel. -/
def State.setPacker (s : State) (c : Nat) (p : Packer) : State := { s with packers := put (fun _ => Packer.off) s.packers c p }

/-- Bank size in bytes: 256 × 2^SIZE. -/
def bankBytes (cfg : Word) : Nat := 256 * 2 ^ getBits cfg 30 28

/-- Address of bank A (0) or B (1) on a set of live words. -/
def bankAddr (cfg base : Word) (b : Nat) : Nat := getBits base 31 6 * 64 + b * bankBytes cfg

/-- Is the channel enabled? -/
def State.packerOn (s : State) (c : Nat) : Bool := s.lvFlag (F.PACKER_CFG_EN c)

/-- Drop bytes: LOST_BYTES is counted and LOST will stand in the bank's descriptor (R138, R142, R144). -/
def State.packerLose (s : State) (c n : Nat) : State :=
  (s.sat (F.PACKER_CNT_B_LOST_BYTES c) n).setPacker c { s.packer c with lost := true }

/-- Write the whole words from byte `lo` up to `hi` of the current bank by master 22; a refused word is lost (R138). -/
def State.packerWords (s : State) (c : Nat) (a : Nat) : Nat → List Byte → State
  | 0, _ => s
  | k + 1, bs =>
    match s.unitWrite 22 a (bs.take 16) with
    | (some _, s) => State.packerWords (s.packerLose c 16) c (a + 16) k (bs.drop 16)
    | (none, s) => State.packerWords s c (a + 16) k (bs.drop 16)

/-- The descriptor of R140. -/
def packerDesc (c : Nat) (p : Packer) (full : Bool) : Nat :=
  let last := p.fill % 16
  2 ^ 63 + b2n full * 2 ^ 62 + b2n p.lost * 2 ^ 61 + p.cur * 2 ^ 60 + p.seq % 4096 * 2 ^ 48 + (if last = 0 then 0xFFFF else 2 ^ last - 1) * 2 ^ 32
    + c % 32 * 2 ^ 27 + c / 32 * 2 ^ 26 + (p.fill + 15) / 16

/-- Swap channel `c` (R140 to R142): with the other bank not returned it is refused and counted; an empty bank swaps without a descriptor; a refused
descriptor abandons the bank. True when the swap was done. -/
def State.packerSwap (s : State) (c : Nat) (full : Bool) : Bool × State :=
  let p := s.packer c
  let cfg := s.liveReg (A.PACKER_CFG c)
  let base := s.liveReg (A.PACKER_BASE c)
  if p.fill = 0 then (true, s)
  else if !p.otherFree then (false, s.sat (F.PACKER_CNT_A_SWAP_BLOCKED c))
  else
    let pad := BitVec.ofNat 8 (getBits cfg 25 18)
    let tail := p.tail
    let s := if tail.isEmpty then s
      else s.packerWords c (bankAddr cfg base p.cur + (p.fill / 16) * 16) 1 (tail ++ List.replicate (16 - tail.length) pad)
    let p := s.packer c
    let d := packerDesc c p full
    match s.enqueue 22 (getBits cfg 17 0) (leBytes 8 d) with
    | (true, s) => (true, s.setPacker c { p with cur := 1 - p.cur, fill := 0, tail := [], otherFree := false, lost := false, seq := (p.seq + 1) % 4096,
                                                 blocked := false })
    | (false, s) =>
      (true, (s.sat (F.PACKER_CNT_A_DESC_LOST c)).setPacker c
        { p with cur := 1 - p.cur, fill := 0, tail := [], otherFree := true, lost := false, seq := (p.seq + 1) % 4096, blocked := false })

/-- Append bytes that fit in the current bank: whole words are written as they fill (R138); a bank that is full is swapped, or stands blocked until the
other bank is returned (R142). -/
def State.packerPut (s : State) (c : Nat) (bs : List Byte) : State :=
  let p := s.packer c
  let cfg := s.liveReg (A.PACKER_CFG c)
  let base := s.liveReg (A.PACKER_BASE c)
  let stream := p.tail ++ bs
  let s := s.packerWords c (bankAddr cfg base p.cur + p.fill / 16 * 16) (stream.length / 16) stream
  let s := s.setPacker c { s.packer c with fill := p.fill + bs.length, tail := stream.drop (stream.length / 16 * 16) }
  if p.fill + bs.length = bankBytes cfg then
    match s.packerSwap c true with
    | (true, s) => s
    | (false, s) => s.setPacker c { s.packer c with blocked := true }
  else s

/-- A write of one to eight bytes to the channel (R139, R142): never split between banks; without room the bank is swapped first, and with the swap
refused the write is dropped. -/
def State.packerAppend (s : State) (c : Nat) (bs : List Byte) : State :=
  if !s.packerOn c then s
  else
    let room := bankBytes (s.liveReg (A.PACKER_CFG c)) - (s.packer c).fill
    if bs.length ≤ room then s.packerPut c bs
    else if (s.packer c).blocked then s.packerLose c bs.length
    else match s.packerSwap c true with
      | (true, s) => s.packerPut c bs
      | (false, s) => s.packerLose c bs.length

/-- A bank is returned through RET (R142): the bank not current and handed over; a full bank that waits is swapped at once. -/
def State.packerReturn (s : State) (c b : Nat) : State :=
  let p := s.packer c
  if !s.packerOn c || p.cur == b || p.otherFree then s.sat (F.PACKER_CNT_B_RET_STRAY c)
  else
    let s := s.setPacker c { p with otherFree := true }
    if p.blocked then (s.packerSwap c true).2 else s

/-- A PACKER_SWAP cue (R141, R142): the ticket completes, with DONE_ERR when the channel is disabled or the swap refused. -/
def State.packerCue (s : State) (c : Nat) (t : Option TicketRef) : State :=
  if !s.packerOn c then s.complete t true
  else match s.packerSwap c false with
    | (ok, s) => s.complete t (!ok)

/-- A commit moves channel `c` to the new words (R143): a disabled channel is swapped on the old set and idles with both banks returned, its current bank as it was; an enabled
one starts with both banks returned, bank A current and SEQ 0. Mark: DESIGN CHOICE (log 39). -/
def State.packerCommit (s : State) (c : Nat) (cfg base : Word) : State :=
  let was := s.packerOn c
  let on := getBits cfg 31 31 == 1
  let s := if was && !on then
      match s.packerSwap c false with
      | (true, s) => s
      | (false, s) => s.sat (F.PACKER_CNT_A_DESC_LOST c)
    else s
  let s := (s.setLive (A.PACKER_CFG c) cfg).setLive (A.PACKER_BASE c) base
  if on && !was then s.setPacker c { Packer.off with otherFree := true }
  else if was && !on then s.setPacker c { Packer.off with cur := (s.packer c).cur, otherFree := true }
  else s

/-- May the staged words of channel `c` be committed (R143)? -/
def State.packerGoOk (s : State) (c : Nat) : Bool :=
  let o := s.liveReg (A.PACKER_CFG c)
  let n := s.reg (A.PACKER_CFG c)
  let stays := getBits o 31 31 == 1 && getBits n 31 31 == 1
  let moved := s.liveReg (A.PACKER_BASE c) != s.reg (A.PACKER_BASE c) || getBits o 30 28 != getBits n 30 28 || getBits o 17 0 != getBits n 17 0
  !(stays && moved) && !(getBits n 31 31 == 1 && getBits (s.reg (A.PACKER_BASE c)) 31 6 * 64 % (2 * bankBytes n) != 0)

end Sys2Proof.Machine
end

