-- ==== Sys2Proof/Machine/Pins.lean ====
section
/-! DEFINITION. Cue pins (R229 to R245, R402): supplies, what drives each ball, cue outputs, trip pairs and readback, input filters, event records,
1PPS, the IRIG-B decoder and the PINS commit. -/

namespace Sys2Proof.Machine

/-- Pin `p`. -/
def State.pinOf (s : State) (p : Nat) : PinSt := look (fun _ => PinSt.off) s.pin.pins p

/-- Replace pin `p`. -/
def State.setPin (s : State) (p : Nat) (x : PinSt) : State := { s with pin.pins := put (fun _ => PinSt.off) s.pin.pins p x }

/-- The live FUNC of a pin (R230). -/
def State.pinFunc (s : State) (p : Nat) : Nat := s.lv (F.PINS_CFG_FUNC p)

/-- Is the pin an enabled trip pair member (R234)? -/
def State.isTrip (s : State) (p : Nat) : Bool := s.lvFlag (F.PINS_PAIR_EN (p / 2))

/-- The sampled ball level, as PINS_LEVEL shows it (R230). -/
def State.ball (s : State) (p : Nat) : Bool := (s.reg (A.PINS_LEVEL (p / 32))).getLsbD (p % 32)

/-- SUPPLY_OK of a group (R229). -/
def State.supplyOk (s : State) (g : Nat) : Bool := s.flag (F.PINS_GRP_STAT_SUPPLY_OK g)

/-- Set a W1C bit of a group and fire its source (PINS_GRP_IRQ_g). -/
def State.pinIrq (s : State) (f : Fld) (g : Nat) : State := (s.wr f 1).irq (64 + g)

/-! ## Events (R238, R239) -/

/-- The event record of R239. -/
def pinRecord (p : Nat) (level : Bool) (kind frac st : Nat) : Nat :=
  p * 2 ^ 56 + b2n level * 2 ^ 55 + kind * 2 ^ 53 + frac % 256 * 2 ^ 40 + st % 2 ^ 40

/-- Append an event of the group to its packer channel as one 8-byte write; a disabled channel counts EVT_LOST. LEVEL is the ball level (R231). -/
def State.pinEvent (s : State) (p kind frac st : Nat) : State :=
  let g := p / 8
  if !s.lvFlag (F.PINS_GRP_CFG_EVT_EN g) || s.mode == .curtain then s
  else
    let c := s.lv (F.PINS_GRP_CFG_EVT_CHAN g)
    if s.packerOn c then s.packerAppend c (leBytes 8 (pinRecord p (s.ball p) kind frac st)) else s.sat (F.PINS_GRP_STAT_EVT_LOST g)

/-! ## What drives the ball (R229 to R231, R242 to R244) -/

/-- The level a commanded level puts on the ball: INV inverts it, and open drain releases high (R231). -/
def State.driven (s : State) (p : Nat) (cmd : Option Bool) : Option Bool :=
  match cmd with
  | none => none
  | some c =>
    let v := c != s.lvFlag (F.PINS_CFG_INV p)
    if v && s.lvFlag (F.PINS_CFG_OD p) then none else some v

/-- Are the pin's drivers on: a PINS commit has been made, its group is supplied and has waited 10 µs, the pin is an output, and the device has its
power (R229, R244, R411)? -/
def State.pinLive (s : State) (p : Nat) : Bool :=
  s.pin.configured && !s.pin.dead && s.pin.drive.contains (p / 8) && decide (2 ≤ s.pinFunc p) && decide (s.pinFunc p ≤ 4)

/-- Does the pin drive its commanded level (R242)? -/
def State.drivesCmd (s : State) (p : Nat) : Bool := s.pinLive p && !s.pin.held && (s.driven p (s.pinOf p).cmd).isSome

/-- What the pin's own driver puts on the ball; none is high impedance (R242). An open-drain pin releases its ball for a safe state of high (R231). -/
def State.pinDrive (s : State) (p : Nat) : Option Bool :=
  if !s.pinLive p then none
  else if s.pin.held then
    let safe := s.lv (F.PINS_CFG_SAFE p)
    if safe = 0 then some false else if safe = 1 then (if s.lvFlag (F.PINS_CFG_OD p) then none else some true)
    else if safe = 2 then s.driven p (s.pinOf p).hold else none
  else s.driven p (s.pinOf p).cmd

/-! ## Inputs (R237) -/

/-- Can the pin produce input edges now (R229, R230, R242)? -/
def State.inputOn (s : State) (p : Nat) : Bool :=
  (s.pinFunc p == 1 || s.pinFunc p == 5) && s.supplyOk (p / 8) && !s.pin.dead && s.mode != .curtain

/-- The filter time of a pin in ticks. -/
def State.filterTicks (s : State) (p : Nat) : Nat :=
  s.lv (F.PINS_CFG_FILT p) * (if s.lvFlag (F.PINS_CFG_FUNIT p) then ticksPerUs else 1)

/-- The offset of a timestamp from the nearest whole second, in units of 7.8125 ps; halfway, the side is free (R240). -/
def ppsOffset (x free : Nat) : Int :=
  let sec := ticksPerSecond * 256
  let r := x % sec
  if 2 * r < sec ∨ (2 * r = sec ∧ free % 2 = 0) then r else (r : Int) - sec

/-- An edge is accepted at its stamp: interrupt, event, and the 1PPS input's offset (R237, R238, R240). -/
def State.acceptEdge (s : State) (p st frac : Nat) : State :=
  let lvl := s.ball p
  let s := (s.setPin p { s.pinOf p with acc := lvl, cand := none }).disarm (.pinFilter p)
  let irq := s.lv (F.PINS_CFG_IRQ p)
  let s := if bit irq (if lvl then 0 else 1) then s.pinIrq (F.PINS_GRP_IRQ_EDGE (p / 8)) (p / 8) else s
  let s := s.pinEvent p 0 frac st
  if s.pinFunc p = 5 ∧ lvl then
    State.next (s.setReg A.PINS_PPS_OFS (BitVec.ofInt 32 (clampInt (-2147483648) 2147483647 (ppsOffset (st * 256 + frac) s.draw))))
  else s

/-- The ball of an input changed, stamped in steps of 250 ps: the filter starts or starts again, a reverted change is discarded, and FILT = 0 accepts every change. -/
def State.inputChange (s : State) (p frac : Nat) : State :=
  let x := s.pinOf p
  let frac := frac / 32 * 32
  let lvl := s.ball p
  if !s.inputOn p then (s.setPin p { x with acc := lvl, cand := none }).disarm (.pinFilter p)
  else if lvl = x.acc then (s.setPin p { x with cand := none }).disarm (.pinFilter p)
  else if s.filterTicks p = 0 then s.acceptEdge p s.now frac
  else (s.setPin p { x with cand := some (s.now, frac) }).arm (.pinFilter p) (s.filterTicks p)

/-- The filter time has run out with the level held: the edge is accepted (R237). -/
def State.filterDone (s : State) (p : Nat) : State :=
  match (s.pinOf p).cand with
  | some (st, frac) => if s.inputOn p then s.acceptEdge p st frac else s
  | none => s

/-! ## Readback (R236) -/

/-- Show the pair's mismatch bit. -/
def State.showRb (s : State) (k : Nat) : State :=
  let on := (s.pinOf (2 * k)).mis || (s.pinOf (2 * k + 1)).mis
  let w := s.reg (A.PINS_RB (k / 32))
  s.setReg (A.PINS_RB (k / 32)) (setBits w (k % 32) (k % 32) (b2n on))

/-- Compare the ball with the commanded level once the settling time is over: a difference starts the 16-tick wait, agreement ends it. -/
def State.rbCheck (s : State) (p : Nat) : State :=
  let x := s.pinOf p
  let off := fun (s : State) => ((s.setPin p { s.pinOf p with rbStart := none, mis := false }).disarm (.pinRb p)).showRb (p / 2)
  match x.rbFrom with
  | none => s
  | some f =>
    if !(s.drivesCmd p && s.isTrip p) then off s
    else if s.driven p x.cmd == some (s.ball p) then off s
    else if x.rbStart.isSome then s
    else
      let st := max s.now f
      { s.setPin p { x with rbStart := some st } with timers := (.pinRb p, st + 16) :: s.timers.filter fun t => t.1 != .pinRb p }

/-- A difference has lasted 16 ticks (R236). -/
def State.rbMismatch (s : State) (p : Nat) : State :=
  let x := s.pinOf p
  match x.rbStart with
  | none => s
  | some st =>
    let s := (s.setPin p { x with mis := true, booked := true }).showRb (p / 2)
    let s := (s.pinEvent p 2 0 st).pinIrq (F.PINS_GRP_IRQ_RB (p / 8)) (p / 8)
    if x.booked then s else s.postU 0x7002 6 [p]

/-- Work out the ball of a pin again: an external circuit decides it, else the pin's driver, else the weak pull-down (R230, R244). When driving of the
commanded level of a trip pair member begins or resumes, readback starts again after the settling time (R236). -/
def State.refreshPinAt (s : State) (frac p : Nat) : State :=
  let x := s.pinOf p
  let lvl := match x.ext with
    | some l => l
    | none => (s.pinDrive p).getD false
  let old := s.ball p
  let w := s.reg (A.PINS_LEVEL (p / 32))
  let s := s.setReg (A.PINS_LEVEL (p / 32)) (setBits w (p % 32) (p % 32) (b2n lvl))
  let s := if lvl = old then s else s.inputChange p frac
  let on := s.drivesCmd p && s.isTrip p
  let s := if on && !x.drv then
      s.setPin p { s.pinOf p with drv := on, rbFrom := some (s.now + 4 * s.lv (F.PINS_PAIR_RB_WINDOW (p / 2))), rbStart := none }
    else s.setPin p { s.pinOf p with drv := on }
  s.rbCheck p

/-- Work out the ball of a pin again. -/
def State.refreshPin (s : State) (p : Nat) : State := s.refreshPinAt 0 p

/-- Every pin of a group. -/
def State.refreshGroup (s : State) (g : Nat) : State := ((List.range 8).map (8 * g + ·)).foldl State.refreshPin s

/-- Every pin. -/
def State.refreshPins (s : State) : State := (List.range 256).foldl State.refreshPin s

/-- An external circuit drives the ball, or lets go of it. -/
def State.pinExternal (s : State) (p : Nat) (level : Option Bool) (frac : Nat) : State :=
  (s.setPin p { s.pinOf p with ext := level }).refreshPinAt frac p

/-- Entry to and leaving of a held mode (R242, R243): hold keeps the commanded level as it stands on entry. -/
def State.setHeld (s : State) (h : Bool) : State :=
  if s.pin.held = h then s
  else
    let s := (List.range 256).foldl (fun s p => s.setPin p { s.pinOf p with hold := if h then (s.pinOf p).cmd else none }) s
    State.refreshPins { s with pin.held := h }

/-! ## Cue outputs (R232, R233) -/

/-- A pin's new commanded level; of a trip pair member it starts readback, and a mismatch may be booked again (R236). -/
def State.setCmd (s : State) (p : Nat) (l : Bool) : State :=
  let x := s.pinOf p
  if s.isTrip p && x.cmd != some l then
    let win := s.lv (F.PINS_PAIR_RB_WINDOW (p / 2))
    (s.setPin p { x with cmd := some l, rbFrom := some (s.now + 4 * win), rbStart := none, mis := false, booked := false }).disarm (.pinRb p)
  else s.setPin p { x with cmd := some l }

/-- Give a pin a commanded level. -/
def State.command (s : State) (p : Nat) (l : Bool) : State :=
  let s := (s.setCmd p l).refreshPin p
  if s.isTrip p then s.showRb (p / 2) else s

/-- The mode lets cues and commits of this device change commanded levels (R242): not in UNDERSTUDY and not in CURTAIN. -/
def State.ownCues (s : State) : Bool := s.mode != .understudy && s.mode != .curtain

/-- A PIN_SET takes effect at the pin (R232, R233): 0 low, 1 high, 2 toggle, 3 a pulse of `w` ticks. -/
def State.pinSet (s : State) (p op w : Nat) : State :=
  if !s.ownCues then s
  else if op = 3 then (if w = 0 then s else (s.command p true).arm (.pulse p) w)
  else (s.disarm (.pulse p)).command p (if op = 2 then !((s.pinOf p).cmd.getD false) else op = 1)

/-- The pre-issued cues of a group that are not yet effective (PENDING). -/
def State.pinPending (s : State) (g : Nat) : Nat := (s.pin.pre.filter fun c => c.pin / 8 == g).length

/-- A pre-issued PIN_SET reaches its time (R232, R233). -/
def State.pinCueEffect (s : State) (c : PinCue) : State :=
  let s := { s with pin.pre := s.pin.pre.erase c }
  let s := s.wr (F.PINS_GRP_STAT_PENDING (c.pin / 8)) (s.pinPending (c.pin / 8))
  if s.pinFunc c.pin = 2 then (s.pinSet c.pin c.op c.width).complete c.ticket false
  else ((s.sat (F.PINS_GRP_STAT_CUE_DROP (c.pin / 8))).pinIrq (F.PINS_GRP_IRQ_CUE (c.pin / 8)) (c.pin / 8)).complete c.ticket true

/-- The pulse of a pin ends: the output returns low (R232), if it is a cue output still (R235) and the mode lets this device's cues command it (R242). -/
def State.pulseEnd (s : State) (p : Nat) : State := if s.ownCues && s.pinFunc p == 2 then s.command p false else s

/-! ## Trip pairs (R235) -/

/-- A trip pair member takes an agreed level at the commit time; its change starts readback and writes an event. -/
def State.tripPin (s : State) (p : Nat) (l : Bool) : State :=
  if (s.pinOf p).cmd = some l then s else (s.command p l).pinEvent p 1 0 s.now

/-- Every enabled pair of group `g` takes the decision word (R235): pin A its bit, pin B that bit XOR B_INV. -/
def State.tripCommit (s : State) (g : Nat) (word : Word) : State :=
  (List.range 128).foldl (fun s k =>
    if s.lvFlag (F.PINS_PAIR_EN k) && s.lv (F.PINS_PAIR_GROUP k) == g then
      let b := word.getLsbD (s.lv (F.PINS_PAIR_BIT k))
      (s.tripPin (2 * k) b).tripPin (2 * k + 1) (b != s.lvFlag (F.PINS_PAIR_B_INV k))
    else s) s

/-! ## Supplies (R229) -/

/-- Is the group's supply within the range for VSEL? The supply is 1 in the 1.8 V range, 2 in the 3.3 V range, else absent or out of range; a group
whose supply nothing has reported is supplied as VSEL asks. -/
def State.supplyGood (s : State) (g : Nat) : Bool :=
  match find? s.pin.supply g with
  | none => true
  | some v => v == 1 + s.lv (F.PINS_GRP_CFG_VSEL g)

/-- A change of SUPPLY_OK (R229): its bit, source and record; the loss makes the group high impedance at once, and its return drives it 10 µs
later. -/
def State.supplyChange (s : State) (g : Nat) (ok : Bool) : State :=
  let s := (s.wr (F.PINS_GRP_STAT_SUPPLY_OK g) (b2n ok)).pinIrq (F.PINS_GRP_IRQ_SUPPLY g) g
  let s := s.postU 0x7001 5 [g, b2n ok]
  if ok then s.arm (.supplyOn g) (10 * ticksPerUs)
  else
    let s := { s.disarm (.supplyOn g) with pin.drive := s.pin.drive.filter (· != g) }
    ((List.range 8).map (8 * g + ·)).foldl (fun s p => s.inputChange p 0) (s.refreshGroup g)

/-- Check the group's supply; the check runs from the first PINS commit. -/
def State.checkSupply (s : State) (g : Nat) : State :=
  if s.pin.configured && s.supplyOk g != s.supplyGood g then s.supplyChange g (s.supplyGood g) else s

/-- 10 µs after SUPPLY_OK returned the group's outputs drive (R229). -/
def State.supplyDrive (s : State) (g : Nat) : State :=
  State.refreshGroup { s with pin.drive := if s.pin.drive.contains g then s.pin.drive else s.pin.drive ++ [g] } g

/-! ## The PINS commit (R245, R402) -/

/-- How many staged pins have FUNC `f`. -/
def State.countFunc (s : State) (f : Nat) : Nat := ((List.range 256).filter fun p => s.rd (F.PINS_CFG_FUNC p) == f).length

/-- May a PINS GO be accepted (R245)? -/
def State.pinsGoOk (s : State) : Bool :=
  ((List.range 128).all fun k =>
    let a := s.rd (F.PINS_CFG_FUNC (2 * k)) == 3
    let b := s.rd (F.PINS_CFG_FUNC (2 * k + 1)) == 3
    if s.rd (F.PINS_PAIR_EN k) == 1 then a && b else !a && !b)
  && decide (s.countFunc 5 ≤ 1) && decide (s.countFunc 6 ≤ 1) && s.countFunc 7 == 0
  && ((List.range 32).all fun g => decide (s.rd (F.PINS_GRP_CFG_EVT_CHAN g) ≤ 47)) && s.rd F.PINS_PPS_CFG_WIDTH != 0

/-- The first PINS commit after a reset gives each output its commanded level and starts the supply checks (R229, R402). -/
def State.pinsFirst (s : State) : State :=
  let s := (List.range 256).foldl (fun s p =>
    let safe := s.lv (F.PINS_CFG_SAFE p)
    if decide (2 ≤ s.pinFunc p) && decide (s.pinFunc p ≤ 4) && decide (safe ≤ 1) then
      s.setPin p { s.pinOf p with cmd := some ((safe == 1) != s.lvFlag (F.PINS_CFG_INV p)) }
    else s) { s with pin.configured := true }
  (List.range 32).foldl (fun s g =>
    if s.supplyGood g then { s.wr (F.PINS_GRP_STAT_SUPPLY_OK g) 1 with pin.drive := s.pin.drive ++ [g] }
    else (s.pinIrq (F.PINS_GRP_IRQ_SUPPLY g) g).postU 0x7001 5 [g, 0]) s

/-- The live set of the pins has changed from `old` (R229, R233, R402): a pin whose function changed starts from the ball as it stands, readback ends
on pins that left a pair, and supplies are checked against VSEL. -/
def State.pinsApplied (s : State) (old : List (Nat × Word)) : State :=
  let s := if s.pin.configured then s else s.pinsFirst
  let s := (List.range 256).foldl (fun s p =>
    let was := getBits (look regReset old (A.PINS_CFG p)) 31 29
    let s := if was = s.pinFunc p then s else (s.setPin p { s.pinOf p with acc := s.ball p, cand := none }).disarm (.pinFilter p)
    if s.isTrip p then s
    else if (s.pinOf p).rbFrom.isSome then
      ((s.setPin p { s.pinOf p with rbFrom := none, rbStart := none, mis := false }).disarm (.pinRb p)).showRb (p / 2)
    else s) s
  ((List.range 32).foldl State.checkSupply s).refreshPins

/-! ## 1PPS (R240) -/

/-- The pins with FUNC 0b100. -/
def State.ppsPins (s : State) : List Nat := (List.range 256).filter fun p => s.pinFunc p == 4

/-- The next whole TAI second, not counting one already marked. -/
def State.nextSecond (s : State) : Nat :=
  if s.now % ticksPerSecond = 0 ∧ s.pin.ppsLast ≠ some s.now then s.now else (s.now / ticksPerSecond + 1) * ticksPerSecond

/-- The 1PPS outputs take a level, in the modes in which this device commands its pins (R242). -/
def State.ppsCommand (s : State) (l : Bool) : State := if s.ownCues then s.ppsPins.foldl (fun s p => s.command p l) s else s

/-- A whole TAI second: every 1PPS output rises, but with SYNC_ONLY = 1 stays low while unsynchronised. -/
def State.ppsRise (s : State) : State :=
  if !s.timeRuns then s
  else
    let t := s.nextSecond
    let s := { s.reachST t with pin.ppsLast := some t }
    let up := !(s.lvFlag F.PINS_PPS_CFG_SYNC_ONLY && s.unsynced)
    (s.ppsCommand up).arm .ppsFall (s.lv F.PINS_PPS_CFG_WIDTH * ticksPerUs)

/-- WIDTH µs later they fall. -/
def State.ppsFall (s : State) : State := s.ppsCommand false

/-! ## IRIG-B (R241) -/

/-- What a high time in µs counts as: 0, 1, 2 for a marker, none if not well formed. -/
def irigBit (us : Nat) : Option Nat :=
  if 1000 ≤ us ∧ us ≤ 3000 then some 0 else if 4000 ≤ us ∧ us ≤ 6000 then some 1 else if 7000 ≤ us ∧ us ≤ 9000 then some 2 else none

/-- Where the markers stand: Pr and every tenth bit. -/
def irigMarker (i : Nat) : Bool := i == 0 || i % 10 == 9

/-- A BCD digit of the frame, least significant bit first. -/
def irigDigit (b : List Nat) (at_ n : Nat) : Nat := (List.range n).foldl (fun a k => a + nth b (at_ + k) * 2 ^ k) 0

/-- Days from 1970-01-01 to 1 January of year `y`. -/
def yearDays (y : Nat) : Int :=
  (y - 1970 : Int) * 365 + ((y - 1) / 4 - (y - 1) / 100 + (y - 1) / 400 : Nat) - 477

/-- The year of a number of days since 1970. -/
def yearOfDays (d : Nat) : Nat :=
  let y := 1970 + d * 400 / 146097
  if (d : Int) < yearDays y then y - 1 else if yearDays (y + 1) ≤ d then y + 1 else y

/-- What a frame of 100 bits says: day of year, seconds of the day and the two-digit year; none if it is not good (R241). -/
def irigDecode (fmt : Nat) (highs : List Nat) : Option (Nat × Nat × Option Nat) :=
  let b := highs.map irigBit
  if highs.length = 100 ∧ b.all Option.isSome ∧ ((List.range 100).all fun i => irigMarker i == (b.getD i none == some 2)) then
    let v := b.map fun o => o.getD 0
    let digits := [irigDigit v 1 4, irigDigit v 6 3, irigDigit v 10 4, irigDigit v 15 3, irigDigit v 20 4, irigDigit v 25 2, irigDigit v 30 4,
                   irigDigit v 35 4, irigDigit v 40 2]
    let yr := [irigDigit v 50 4, irigDigit v 55 4]
    if digits.all (fun d => decide (d ≤ 9)) && (decide (fmt < 4) || yr.all fun d => decide (d ≤ 9)) then
      some (nth digits 6 + 10 * nth digits 7 + 100 * nth digits 8,
            nth digits 0 + 10 * nth digits 1 + 60 * (nth digits 2 + 10 * nth digits 3) + 3600 * (nth digits 4 + 10 * nth digits 5),
            if 4 ≤ fmt then some (nth yr 0 + 10 * nth yr 1) else none)
    else none
  else none

/-- The year that makes a frame time lie nearest to `now` seconds: this year or an adjacent one; with a two-digit year, the century. -/
def irigYear (now : Nat) (t : Nat) (yy : Option Nat) : Nat :=
  let y := yearOfDays (now / 86400)
  let near := fun (a b : Nat) => (yearDays a * 86400 + t - now).natAbs ≤ (yearDays b * 86400 + t - now).natAbs
  let pick := fun (a b c : Nat) => if near b a && near b c then b else if near a c then a else c
  match yy with
  | none => pick (y - 1) y (y + 1)
  | some k => let c := y / 100 * 100 + k; pick (c - 100) c (c + 100)

/-- TAI seconds of the on-time mark of a good frame (R241). -/
def State.irigSeconds (s : State) (day sec : Nat) (yy : Option Nat) : Int :=
  let t := (day - 1) * 86400 + sec
  let y := irigYear (s.now / ticksPerSecond) t yy
  yearDays y * 86400 + (day - 1 : Int) * 86400 + sec - signed 11 (s.lv F.PINS_IRIG_CFG_LOCAL_MIN) * 60 + s.lv F.PINS_IRIG_CFG_TAI_UTC

/-- The pin of the decoder. -/
def State.irigPin (s : State) : Option Nat := (List.range 256).find? fun p => s.pinFunc p == 6

/-- A frame that is not good: counted, VALID falls, TIMING is set and a record is written at most once a second. -/
def State.irigBad (s : State) (p : Nat) : State :=
  let s := { s with pin.irigRun := 0, pin.irigLast := none, stime.irigMarks := [] }
  let s := (s.sat F.PINS_IRIG_STAT_BAD).wr F.PINS_IRIG_STAT_VALID 0
  (s.pinIrq (F.PINS_GRP_IRQ_TIMING (p / 8)) (p / 8)).postLimU 0x70030000 0x7003 4 [p]

/-- A good frame whose on-time mark stood at `mark` (7.8125 ps units): counted, VALID after three that step by 1 s until one is not good, and a sample while VALID. It ends
at the next on-time mark (R44, R241). -/
def State.irigGoodFrame (s : State) (mark : Nat) (t : Int) : State :=
  let run := if s.pin.irigLast = some (t - 1) then s.pin.irigRun + 1 else 1
  let s := { s.wrap F.PINS_IRIG_STAT_GOOD with pin.irigRun := run, pin.irigLast := some t }
  let s := if 3 ≤ run then s.wr F.PINS_IRIG_STAT_VALID 1 else s
  if s.flag F.PINS_IRIG_STAT_VALID then
    let s := State.irigMark { s with stime.irigMarks := (((mark : Int) / 256) :: s.stime.irigMarks).take 3 }
    let e : Int := (mark : Int) - t * 128000000000
    if 2 ≤ s.rd F.STIME_CTRL_SRC then s.deliverSample srcIRIG e else s
  else s

/-- An IRIG-B frame ends (R241): the high times of its 100 bits and the timestamp of its on-time mark. -/
def State.irigFrame (s : State) (highs : List Nat) (mark : Nat) : State :=
  match s.irigPin with
  | none => s
  | some p =>
    if !s.supplyOk (p / 8) || s.pin.dead || s.mode == .curtain then s
    else match irigDecode (s.lv F.PINS_IRIG_CFG_FORMAT) highs with
      | none => s.irigBad p
      | some (day, sec, yy) => s.irigGoodFrame mark (s.irigSeconds day sec yy)

end Sys2Proof.Machine
end

