-- ==== Sys2Proof/Machine/CueTable.lean ====
section
/-! DEFINITION. The cue table (R52 to R56, R68 to R70): entries, the ranges of each action, occurrences and their order, the change list, the load
path, completion writes. -/

namespace Sys2Proof.Machine

/-- A cue entry (R52). -/
structure CueEnt where
  v : Bool
  standing : Bool
  prio : Nat
  action : Nat
  tkt : Bool
  latepol : Nat
  deadline : Nat
  tindex : Nat
  arg : Nat
  arg16 : Nat
  phase : Nat
  pexp : Nat
  offset : Nat
  time : Nat
  deriving DecidableEq, Repr

/-- Read an entry from its four words. -/
def CueEnt.of (w0 w1 w2 w3 : Word) : CueEnt where
  v := w0.getLsbD 31
  standing := w0.getLsbD 30
  prio := getBits w0 29 27
  action := getBits w0 26 23
  tkt := w0.getLsbD 22
  latepol := getBits w0 21 20
  deadline := getBits w0 19 0
  tindex := getBits w1 25 8
  arg := getBits w1 7 0
  arg16 := getBits w3 31 16
  phase := getBits w2 31 24
  pexp := getBits w2 23 20
  offset := getBits w2 16 0
  time := w2.toNat + 2 ^ 32 * getBits w3 15 0

/-- TINDEX, ARG and ARG16 are in range for the action, and every bit without a meaning is 0 (R56). An EGRESS_RELEASE may name the upper port of a pair. Mark: DESIGN CHOICE (log 135). -/
def CueEnt.argsOk (e : CueEnt) : Bool :=
  match e.action with
  | 0x0 => e.tindex == 0 && e.arg == 0 && e.arg16 == 0
  | 0x1 => decide (e.tindex ≤ 23) && e.arg == 0 && e.arg16 == 0
  | 0x2 => decide (e.tindex ≤ 255) && e.arg == 0 && e.arg16 == 0
  | 0x3 => decide (e.tindex ≤ 255) && decide (e.arg ≤ 3) && (e.arg == 3 || e.arg16 == 0)
  | 0x4 => decide (e.tindex ≤ 15) && e.arg == 0 && e.arg16 == 0
  | 0x5 => decide (e.tindex ≤ 3) && e.arg16 == 0
  | 0x6 => e.tindex == 0 && e.arg == 0 && e.arg16 == 0
  | 0x7 => e.arg == 0 && e.arg16 == 0
  | 0x8 => decide (e.tindex ≤ 47) && e.arg == 0 && e.arg16 == 0
  | 0x9 => decide (e.tindex ≤ 31) && e.arg == 0 && e.arg16 == 0
  | 0xA => e.tindex == 0 && e.arg == 0
  | 0xB => e.tindex == 0 && decide (e.arg ≤ 7)
  | _ => false

/-- The reason 0x3 to 0x6 that a push of the entry would be refused for, 0 for none (R69). -/
def CueEnt.reason (e : CueEnt) (rate : Nat) : Nat :=
  if !e.argsOk then 3
  else if e.standing && decide (rateInt rate ≤ e.offset) then 4
  else if e.standing && (decide (8 < e.pexp) || decide (2 ^ e.pexp ≤ e.phase)) then 5
  else if e.latepol = 3 then 6
  else 0

/-- Word `k` of live entry `i`. -/
def State.cueWord (s : State) (i k : Nat) : Word := look (fun _ => 0#32) s.cue.table (4 * i + k)

/-- Write a live word. -/
def State.setCueWord (s : State) (i k : Nat) (w : Word) : State :=
  { s with cue.table := put (fun _ => 0#32) s.cue.table (4 * i + k) w }

/-- Live entry `i`. -/
def State.cueEnt (s : State) (i : Nat) : CueEnt := CueEnt.of (s.cueWord i 0) (s.cueWord i 1) (s.cueWord i 2) (s.cueWord i 3)

/-- The engine treats the entry as in use: V = 1 and no reason 0x3 to 0x6 (R70). -/
def State.cueInUse (s : State) (i : Nat) : Bool := (s.cueEnt i).v && (s.cueEnt i).reason s.rate == 0

/-- The indexes with a listed live word. -/
def State.cueIndexes (s : State) : List Nat := (s.cue.table.map fun p => p.1 / 4).eraseDups

/-- CUE_STAT.STANDING: the standing cues of the live table, those loaded while RUN = 0 too. Mark: DESIGN CHOICE (log 134). -/
def State.standingCues (s : State) : Nat := (s.cueIndexes.filter fun i => s.cueInUse i && (s.cueEnt i).standing).length

/-! ## Occurrences (R53 to R55, R58, R60) -/

/-- Is the action pre-issued (R56)? -/
def preIssued (action : Nat) : Bool := action == 3 || action == 5

/-- Ticks ahead of its time at which the engine handles an action (R60). -/
def leadTicks (action : Nat) : Nat := if preIssued action then 128 else 0

/-- The time of a standing cue in frame `n`, if it falls due there (R53). -/
def State.standingAt (s : State) (e : CueEnt) (n : Int) : Option Nat :=
  if 0 ≤ n ∧ n.toNat % 2 ^ e.pexp = e.phase then some (boundaryAt s.call s.rate n + e.offset).toNat else none

/-- The next occurrence of a one-shot cue (R54): 48 bits of its time stand in the entry. -/
def State.oneShotAt (s : State) (e : CueEnt) : Nat :=
  let d := (s.now + 2 ^ 48 - e.time) % 2 ^ 48
  if d < 2 ^ 47 then s.now - d else s.now + (2 ^ 48 - d)

/-- The next time of live entry `i` that has not been dispatched: a one-shot cue's own; a standing cue's in the current frame, or in the next for an action
pre-issued before the boundary. -/
def State.nextTime (s : State) (i : Nat) : Option Nat :=
  let e := s.cueEnt i
  if !e.standing then some (s.oneShotAt e)
  else if !s.stime.valid then none
  else
    let fresh := fun (t : Nat) => decide (s.cue.floor ≤ t) && !s.cue.standDone.contains (i, t)
    match (s.standingAt e s.stime.gridN).filter fresh with
    | some t => some t
    | none => if preIssued e.action && decide (e.offset < 128) then (s.standingAt e (s.stime.gridN + 1)).filter fresh else none

/-- An occurrence of live entry `i`. -/
def State.occOf (s : State) (i t : Nat) : Occ :=
  { idx := i, time := t, at_ := t - leadTicks (s.cueEnt i).action, w0 := s.cueWord i 0, w1 := s.cueWord i 1, w2 := s.cueWord i 2, w3 := s.cueWord i 3 }

/-- The entry of an occurrence. -/
def Occ.ent (o : Occ) : CueEnt := CueEnt.of o.w0 o.w1 o.w2 o.w3

/-- Dispatch order (R58): the earlier first; then lower PRIO, standing before one-shot, lower index. One-shot cues that a step passed over keep this order among each
other (R51). Mark: DESIGN CHOICE (log 132). -/
def Occ.before (a b : Occ) : Bool :=
  if a.at_ != b.at_ then decide (a.at_ < b.at_)
  else if a.ent.prio != b.ent.prio then decide (a.ent.prio < b.ent.prio)
  else if a.ent.standing != b.ent.standing then a.ent.standing
  else decide (a.idx < b.idx)

/-- Insert in dispatch order. -/
def insertOcc (o : Occ) : List Occ → List Occ
  | [] => [o]
  | x :: t => if o.before x then o :: x :: t else x :: insertOcc o t

/-- An occurrence of entry `i` at `t` waits for room with its scheduler (R60). -/
def State.waits_ (s : State) (i t : Nat) : Bool := s.cue.waiting.any fun o => o.idx == i && o.time == t

/-- The next occurrence of every live cue that is not waiting for room, in dispatch order. -/
def State.occurrences (s : State) : List Occ :=
  s.cueIndexes.foldl (fun l i =>
    if s.cueInUse i then
      match s.nextTime i with
      | some t => if s.waits_ i t then l else insertOcc (s.occOf i t) l
      | none => l
    else l) []

/-! ## Editing (R68, R69, R475) -/

/-- Refuse a push with a reason. -/
def State.cueEditRefuse (s : State) (reason : Nat) : State :=
  ((s.wr F.CUE_EDIT_STAT_LAST_REFUSED 1).wr F.CUE_EDIT_STAT_REASON reason).sat (F.BLOCK_REFUSED_STAGE_WRITES Base.CUE)

/-- A push of words for index `i` (R69, R475): 0 words are a deletion. -/
def State.cuePush (s : State) (i : Nat) (ws : List Word) : State :=
  let e := CueEnt.of (ws.getD 0 0) (ws.getD 1 0) (ws.getD 2 0) (ws.getD 3 0)
  let ws := if e.v then ws else List.replicate 4 0#32
  let listed := s.cue.changes.any fun c => c.1 == i
  let r := if e.v then (if e.reason s.rate ≠ 0 then e.reason s.rate else if e.action = 3 ∧ s.isTrip e.tindex then 7 else 0) else 0
  if s.flag (F.BLOCK_COMMIT_STATUS_PENDING Base.CUE) then s.cueEditRefuse 2
  else if !listed && decide (256 ≤ s.cue.changes.length) then s.cueEditRefuse 1
  else if r ≠ 0 then s.cueEditRefuse r
  else
    let l := if listed then s.cue.changes.map fun c => if c.1 = i then (i, ws) else c else s.cue.changes ++ [(i, ws)]
    State.wr { s.wr F.CUE_EDIT_STAT_LAST_REFUSED 0 with cue.changes := l } F.CUE_EDIT_STAT_LIST_COUNT l.length

/-- A write of CUE_EDIT_PUSH. -/
def State.cueEditWrite (s : State) (w : Word) : State :=
  if w.getLsbD 31 then
    s.cuePush (getBits w 13 0)
      (if w.getLsbD 30 then List.replicate 4 0#32 else (List.range 4).map fun k => s.reg (A.CUE_EDIT_W k))
  else s

/-- The table after the change list has been applied. -/
def State.cueMerged (s : State) : State :=
  s.cue.changes.foldl (fun s c => (List.range 4).foldl (fun s k => s.setCueWord c.1 k (c.2.getD k 0)) s) s

/-- May a CUE GO be accepted (R69)? -/
def State.cueGoOk (s : State) : Bool := decide (s.cueMerged.standingCues ≤ 4096)

/-- An occurrence that waits for room is not yet with its scheduler, so a change of its entry `i` ends the wait (R60, R61). Mark: DEDUCED (log 133). -/
def State.dropWaiting (s : State) (i : Nat) : State := { s with cue.waiting := s.cue.waiting.filter fun o => o.idx != i }

/-- The change list becomes live; the list is emptied and source 27 fires (R57, R68). -/
def State.cueApply (s : State) : State :=
  let s := s.cue.changes.foldl (fun (s : State) c => s.dropWaiting c.1) s
  let s := { s.cueMerged with cue.changes := [] }
  (s.wr F.CUE_EDIT_STAT_LIST_COUNT 0).irq 27

/-- A standing cue, live or in the change list, whose OFFSET does not fit the INT of a rate (R48). -/
def State.offsetTooBig (s : State) (rate : Nat) : Bool :=
  let big := fun (e : CueEnt) => e.v && e.standing && decide (rateInt rate ≤ e.offset)
  (s.cueIndexes.any fun i => s.cueInUse i && big (s.cueEnt i))
    || s.cue.changes.any fun c => big (CueEnt.of (c.2.getD 0 0) (c.2.getD 1 0) (c.2.getD 2 0) (c.2.getD 3 0))

/-! ## The load path (R70) -/

/-- WORD advances after each access, and INDEX after word 3. -/
def State.loadAdvance (s : State) : State :=
  let k := s.rd F.CUE_LOAD_IDX_WORD
  let s := s.wr F.CUE_LOAD_IDX_WORD (k + 1)
  if k = 3 then s.wrap F.CUE_LOAD_IDX_INDEX else s

/-- A refused direct write to a live paired field: counted and booked once a second per block (R25). -/
def State.refuseLive (s : State) (base m : Nat) : State :=
  (s.sat (F.BLOCK_REFUSED_LIVE_WRITES base)).postLim (0x10F00000 + base / 0x10000 % 0x100) 0x10F0 4 m [base]

/-- A CUE_LOAD_DATA write by master `m`. A refused one leaves WORD and INDEX. Mark: DESIGN CHOICE (log 134). -/
def State.cueLoadWrite (s : State) (m : Nat) (w : Word) : State :=
  if s.flag F.CUE_CTRL_RUN then s.refuseLive Base.CUE m
  else ((s.dropWaiting (s.rd F.CUE_LOAD_IDX_INDEX)).setCueWord (s.rd F.CUE_LOAD_IDX_INDEX) (s.rd F.CUE_LOAD_IDX_WORD) w).loadAdvance

/-- A CUE_LOAD_DATA read: the live word, and the index advances. -/
def State.cueLoadRead (s : State) : Word × State :=
  (s.cueWord (s.rd F.CUE_LOAD_IDX_INDEX) (s.rd F.CUE_LOAD_IDX_WORD), s.loadAdvance)

/-! ## Engine control (R61, R66, R70) -/

/-- A write of CUE_CTRL: CLR_CNT zeroes the counters; clearing RUN stops dispatch; setting it resumes, standing cues from the next boundary (R61), so that those
that fell due before it are not dispatched. RUN is forced to 0 in CURTAIN. Mark: DEDUCED (log 29). -/
def State.cueCtrlWrite (s : State) (w : Word) : State :=
  let s := if w.getLsbD 8 then ((s.setReg A.CUE_CNT_A 0).setReg A.CUE_CNT_B 0).setReg A.CUE_CNT_C 0 else s
  let run := w.getLsbD 0 && s.mode != .curtain
  let starts := run && !s.flag F.CUE_CTRL_RUN
  let s := if starts && s.stime.valid then { s with cue.floor := s.nextBoundary.toNat } else s
  let s : State := if starts then { s with cue.runSince := s.now, cue.carry := [], cue.waiting := s.cue.waiting.filter fun o => !o.ent.standing } else s
  s.wr F.CUE_CTRL_RUN (b2n run)

/-- A write of CUE_TICKET_DONE by master `m` (R66). -/
def State.ticketDoneWrite (s : State) (m : Nat) (w : Word) : State :=
  let st := getBits w 31 28
  let t := getBits w 9 0
  if 2 ≤ st then s.sat F.CUE_CNT_C_TKT_STRAY
  else match s.ticket t with
    | some k => if m = 8 ∨ k.owner = some m then s.completeNum t k (st == 1) else s.sat F.CUE_CNT_C_TKT_STRAY
    | none => s.sat F.CUE_CNT_C_TKT_STRAY

end Sys2Proof.Machine
end

