-- ==== Sys2Proof/Machine/SwitchTables.lean ====
section
/-! DEFINITION. The switch tables and the stream keys (R79 to R88, R91, R97, R99, R110, R475): live entries, change lists, lookups, key states. -/

namespace Sys2Proof.Machine

/-! ## Switch tables (R79, R81, R99, R110) -/

/-- Entries of each table: classifier, stream, release descriptor, release list, VLAN. -/
def swSize (t : Nat) : Nat := if t = 0 then 16384 else if t = 1 then 4096 else if t = 2 then 2048 else if t = 3 then 256 else if t = 4 then 4096 else 0

/-- Words of an entry of each table. -/
def swWords (t : Nat) : Nat := if t ≤ 1 then 4 else if t = 2 then 2 else 1

/-- The bits of word `k` of an entry that are not reserved (R79, R81, R99, R110); reserved bits read 0. -/
def swMask (t k : Nat) : Word :=
  if t = 1 then (if k = 0 then 0xFE03FFFF#32 else if k = 2 then 0xFFF3FFFF#32 else if k = 3 then 0#32 else 0xFFFFFFFF#32)
  else if t = 2 then (if k = 1 then 0xF00FFFFF#32 else 0xFFFFFFFF#32)
  else if t = 3 then 0xFC0007FF#32
  else if t = 4 then 0x000000FF#32
  else 0xFFFFFFFF#32

/-- Where word `k` of entry `i` of table `t` is kept. -/
def swKey (t i k : Nat) : Nat := (t * 16384 + i) * 4 + k

/-- A live word. -/
def State.swWord (s : State) (t i k : Nat) : Word := look (fun _ => 0#32) s.sw.table (swKey t i k)

/-- Is the entry's encoding free of reserved values (R79, R81)? A reserved AUTH has a reason of its own, judged with V = 1 alone. -/
def swEncodingOk (t : Nat) (ws : List Word) : Bool :=
  let w := fun k => ws.getD k 0#32
  if t = 0 then decide (getBits (w 3) 30 29 ≤ 1)
  else if t = 1 then decide (getBits (w 0) 28 27 ≤ 2)
  else true

/-- The fields of a classifier entry that a frame is matched against (R79). -/
def clsMatch (ws : List Word) : List Nat :=
  let w := fun k => ws.getD k 0#32
  [(w 0).toNat, (w 1).toNat, if (w 3).getLsbD 28 then 0 else (w 2).toNat, getBits (w 3) 30 29, getBits (w 3) 28 28, getBits (w 3) 27 16,
   getBits (w 3) 15 12]

/-- The indexes of the listed live classifier entries. -/
def State.clsIndexes (s : State) : List Nat := ((s.sw.table.map fun p => p.1 / 4).filter fun i => decide (i < 16384)).eraseDups

/-- The words of a live entry. -/
def State.swEntry (s : State) (t i : Nat) : List Word := (List.range 4).map fun k => if k < swWords t then s.swWord t i k else 0#32

/-- Does another classifier entry, live or listed, have the same match fields (reason 0x5)? A live entry that the list replaces counts as
listed. -/
def State.clsClash (s : State) (i : Nat) (ws : List Word) : Bool :=
  let same := fun (x : List Word) => (x.getD 3 0#32).getLsbD 31 && clsMatch x == clsMatch ws
  let listed := fun (j : Nat) => s.sw.changes.any fun c => c.1 == swKey 0 j 0
  (s.clsIndexes.any fun j => j != i && !listed j && same (s.swEntry 0 j))
    || s.sw.changes.any fun c => decide (c.1 < 65536) && c.1 != swKey 0 i 0 && same c.2

/-- The reason a push is refused for, after 0x2 and 0x1 have been judged; 0 for none (R110, R475). -/
def State.swReason (s : State) (t i : Nat) (del : Bool) (ws : List Word) : Nat :=
  if swSize t ≤ i ∨ (t = 4 ∧ i = 4095) then 3
  else if del then 0
  else if !swEncodingOk t ws then 4
  else if t = 0 ∧ (ws.getD 3 0#32).getLsbD 31 ∧ s.clsClash i ws then 5
  else if t = 1 ∧ (ws.getD 0 0#32).getLsbD 31 ∧ (getBits (ws.getD 0 0#32) 30 29 = 0 ∨ getBits (ws.getD 0 0#32) 30 29 = 3) then 6
  else 0

/-- Refuse a push. -/
def State.swRefuse (s : State) (r : Nat) : State :=
  ((s.wr F.SWITCH_EDIT_STAT_LAST_REFUSED 1).wr F.SWITCH_EDIT_STAT_REASON r).sat (F.BLOCK_REFUSED_STAGE_WRITES Base.SWITCH)

/-- A write of SWITCH_EDIT_PUSH (R110, R475). A push to a table that does not exist is beyond the tables. -/
def State.swEditWrite (s : State) (w : Word) : State :=
  if !w.getLsbD 31 then s
  else
    let t := getBits w 29 27
    let i := getBits w 13 0
    let del := w.getLsbD 30
    let ws := if del then List.replicate 4 0#32 else (List.range 4).map fun k => if k < swWords t then s.reg (A.SWITCH_EDIT_W k) &&& swMask t k else 0#32
    let key := swKey t i 0
    let listed := s.sw.changes.any fun c => c.1 == key
    if s.flag (F.BLOCK_COMMIT_STATUS_PENDING Base.SWITCH) then s.swRefuse 2
    else if !listed && decide (256 ≤ s.sw.changes.length) then s.swRefuse 1
    else if s.swReason t i del ws ≠ 0 then s.swRefuse (s.swReason t i del ws)
    else
      let l := if listed then s.sw.changes.map fun c => if c.1 = key then (key, ws) else c else s.sw.changes ++ [(key, ws)]
      State.wr { s.wr F.SWITCH_EDIT_STAT_LAST_REFUSED 0 with sw.changes := l } F.SWITCH_EDIT_STAT_LIST_COUNT l.length

/-- The SWITCH change list becomes live (R110). -/
def State.swApply (s : State) : State :=
  let t := s.sw.changes.foldl (fun t c => (List.range 4).foldl (fun t k => put (fun _ => 0#32) t (c.1 + k) (c.2.getD k 0#32)) t) s.sw.table
  State.irq (State.wr { s with sw.table := t, sw.changes := [] } F.SWITCH_EDIT_STAT_LIST_COUNT 0) 110

/-- SWITCH_READ_DATA: a word of a live entry. -/
def State.swReadData (s : State) : Word :=
  let w := s.reg A.SWITCH_READ_SEL
  s.swWord (getBits w 29 27) (getBits w 13 0) (getBits w 17 16)

/-- Does classifier entry `i` match a frame, its identifier aside (R80)? -/
def State.clsHit (s : State) (i port ty dmac appid vid : Nat) : Bool :=
  let w3 := s.swWord 0 i 3
  w3.getLsbD 31 && bit (getBits w3 15 12) port && getBits w3 30 29 == ty && getBits w3 27 16 == vid
    && (s.swWord 0 i 0).toNat == dmac / 65536 && getBits (s.swWord 0 i 1) 31 16 == dmac % 65536 && getBits (s.swWord 0 i 1) 15 0 == appid

/-- The stream a frame matches (R80): an entry with ANYID = 0 is used before one with ANYID = 1. -/
def State.classify (s : State) (port ty dmac appid vid hash : Nat) : Option Nat :=
  let hits := s.clsIndexes.filter fun i => s.clsHit i port ty dmac appid vid
  match hits.find? fun i => !(s.swWord 0 i 3).getLsbD 28 && (s.swWord 0 i 2).toNat == hash with
  | some i => some (getBits (s.swWord 0 i 3) 11 0)
  | none => (hits.find? fun i => (s.swWord 0 i 3).getLsbD 28).map fun i => getBits (s.swWord 0 i 3) 11 0

/-- MEMBER of a VLAN entry (R110). -/
def State.vlanMember (s : State) (vid : Nat) : Nat := getBits (s.swWord 4 vid 0) 3 0

/-- Do the VLAN's frames leave port `k` untagged (R97)? -/
def State.vlanUntag (s : State) (vid k : Nat) : Bool := bit (getBits (s.swWord 4 vid 0) 7 4) k

/-! ## Stream keys (R87, R88, R91) -/

/-- States of a stream-key entry. -/
abbrev skEMPTY : Nat := 0
/-- ONE. -/
abbrev skONE : Nat := 1
/-- PENDING. -/
abbrev skPENDING : Nat := 2
/-- RETIRING. -/
abbrev skRETIRING : Nat := 3

/-- Stream-key entry `i`. -/
def State.streamKey (s : State) (i : Nat) : StreamKey := look (fun _ => StreamKey.empty) s.sol.keys i

/-- Replace a stream-key entry. -/
def State.setStreamKey (s : State) (i : Nat) (k : StreamKey) : State := { s with sol.keys := put (fun _ => StreamKey.empty) s.sol.keys i k }

/-- The key that a KID names in an inbound frame of frame number `n`, with its KEYSEL; `inl` gives the drop reason (R87). -/
def StreamKey.accept (k : StreamKey) (kid : Nat) (n : Int) : Sum Nat (Nat × KeyVal) :=
  if k.state = skEMPTY then .inl 0x0C
  else
    let other := fun (_ : Unit) =>
      match k.other with
      | some o =>
        if o.kid = kid ∧ k.state = skPENDING ∧ (k.change : Int) - k.overlap ≤ n then Sum.inr (1, o)
        else if o.kid = kid ∧ k.state = skRETIRING ∧ n < (k.change : Int) + k.overlap then Sum.inr (2, o)
        else Sum.inl 0x0D
      | none => Sum.inl 0x0D
    match k.cur with
    | some c => if c.kid = kid then .inr (0, c) else other ()
    | none => other ()

/-- Refuse a stream-key push. -/
def State.solRefuse (s : State) (r : Nat) : State :=
  ((s.wr F.SOLOIST_KEY_STAT_LAST_REFUSED 1).wr F.SOLOIST_KEY_STAT_REASON r).sat (F.BLOCK_REFUSED_STAGE_WRITES Base.SOLOIST)

/-- The staged key value: the words of SOLOIST_KEY_VAL, least significant first. -/
def State.stagedStreamKey (s : State) : KeyVal :=
  let long := s.flag F.SOLOIST_KEY_ATTR_LEN256
  { kid := s.rd F.SOLOIST_KEY_KID_KID, len256 := long,
    value := (List.range (if long then 8 else 4)).foldl (fun a k => a + (s.reg (A.SOLOIST_KEY_VAL k)).toNat * 2 ^ (32 * k)) 0 }

/-- The staged key value is zeroised. -/
def State.wipeStagedKey (s : State) : State := (List.range 8).foldl (fun s k => s.setReg (A.SOLOIST_KEY_VAL k) 0) s

/-- The reason a stream-key push is refused for, after 0x2 and 0x1. -/
def State.solReason (s : State) (i : Nat) (erase : Bool) : Nat :=
  let k := s.streamKey i
  let next := s.flag F.SOLOIST_KEY_IDX_SLOT
  if erase then 0
  else if !next ∧ k.state ≠ skEMPTY then 3
  else if next ∧ k.cur.any (fun c => c.kid == s.rd F.SOLOIST_KEY_KID_KID) then 4
  else if next ∧ (k.state = skPENDING ∨ k.state = skRETIRING) then 5
  else if !s.flag F.SOLOIST_KEY_ATTR_LEN256 ∧ ([4, 5, 6, 7].any fun j => s.reg (A.SOLOIST_KEY_VAL j) != 0) then 6
  else 0

/-- A write of SOLOIST_KEY_PUSH (R91, R475). -/
def State.solPush (s : State) (w : Word) : State :=
  if !w.getLsbD 31 then s
  else
    let i := s.rd F.SOLOIST_KEY_IDX_INDEX
    let erase := w.getLsbD 30
    let listed := s.sol.changes.any fun c => c.1 == i
    let r := s.solReason i erase
    if s.flag (F.BLOCK_COMMIT_STATUS_PENDING Base.SOLOIST) then s.solRefuse 2
    else if !listed && decide (256 ≤ s.sol.changes.length) then s.solRefuse 1
    else if r ≠ 0 then s.solRefuse r
    else
      let p : KeyPush := if erase then { erase := true, next := false, key := none, change := 0, overlap := 0 }
        else { erase := false, next := s.flag F.SOLOIST_KEY_IDX_SLOT, key := some s.stagedStreamKey,
               change := (s.reg A.SOLOIST_KEY_CHG_LO).toNat + 2 ^ 32 * getBits (s.reg A.SOLOIST_KEY_CHG_HI) 15 0,
               overlap := s.rd F.SOLOIST_KEY_ATTR_OVERLAP }
      let l := if listed then s.sol.changes.map fun c => if c.1 = i then (i, p) else c else s.sol.changes ++ [(i, p)]
      let s := { s.wr F.SOLOIST_KEY_STAT_LAST_REFUSED 0 with sol.changes := l }
      (s.wr F.SOLOIST_KEY_STAT_LIST_COUNT l.length).wipeStagedKey

/-- A push takes effect on its entry (R87, R91): a zeroisation, a current key, or a next key; a change frame already past is booked. -/
def State.solApplyOne (s : State) (i : Nat) (p : KeyPush) : State :=
  if p.erase then s.setStreamKey i StreamKey.empty
  else if p.next then
    let s := s.setStreamKey i { s.streamKey i with state := skPENDING, other := p.key, change := p.change, overlap := p.overlap }
    if s.stime.valid && decide ((p.change : Int) ≤ s.stime.gridN) then s.post 0xA002 4 9 [i, p.change % 2 ^ 32, p.change / 2 ^ 32] else s
  else s.setStreamKey i { state := skONE, cur := p.key, other := none, change := 0, overlap := 0 }

/-- The SOLOIST change list becomes live. Mark: DESIGN CHOICE (log 38). -/
def State.solApply (s : State) : State :=
  let s := s.sol.changes.foldl (fun s c => s.solApplyOne c.1 c.2) s
  State.wr { s with sol.changes := [] } F.SOLOIST_KEY_STAT_LIST_COUNT 0

/-- A change-over is booked and fires source 123 (R88). -/
def State.keyChanged (s : State) (i : Nat) (n : Nat) : State := (s.irq 123).post 0xA001 3 9 [i, n % 2 ^ 32, n / 2 ^ 32]

/-- The change-overs due at boundary B(n), in step 2 of R50 (R88): PENDING becomes RETIRING at C, RETIRING becomes ONE at C + V. Mark: DESIGN CHOICE (log 38). -/
def State.keyBoundary (s : State) (n : Nat) : State :=
  (s.sol.keys.map fun p => p.1).foldl (fun s i =>
    let k := s.streamKey i
    let s := if k.state = skPENDING ∧ k.change ≤ n then
        (s.setStreamKey i { k with state := skRETIRING, cur := k.other, other := k.cur }).keyChanged i n else s
    let k := s.streamKey i
    if k.state = skRETIRING ∧ k.change + k.overlap ≤ n then (s.setStreamKey i { k with state := skONE, other := none }).keyChanged i n else s) s

end Sys2Proof.Machine
end

