-- ==== Sys2Proof/Machine/Ports.lean ====
section
/-! DEFINITION. Station ports, inbound (R71 to R78, R82 to R97, R111 to R116): links, counters, the nine stages of a frame, the authentication buffer,
duplicate discard, records. -/

namespace Sys2Proof.Machine

/-- Port `n`. -/
def State.port (s : State) (n : Nat) : Port := look (fun _ => Port.reset) s.ports.port n

/-- Replace port `n`. -/
def State.setPort (s : State) (n : Nat) (p : Port) : State := { s with ports.port := put (fun _ => Port.reset) s.ports.port n p }

/-- Is the link up? Mark: DEDUCED (log 36). -/
def State.linkUp (s : State) (n : Nat) : Bool := s.flag (F.SP_LINK_STAT_UP n)

/-- The port's MAC address. -/
def State.portMac (s : State) (n : Nat) : Nat := s.rd (F.SP_MAC_LO_MAC n) + 2 ^ 32 * getBits (s.reg (A.SP_MAC_HI n)) 15 0

/-- Redundancy mode of the pair of a port: 1 = PRP, 2 = HSR (R92). -/
def State.redMode (s : State) (n : Nat) : Nat := s.rd (F.SWITCH_RED_CFG_MODE (n / 2))

/-- The other port of a pair. -/
def otherPort (n : Nat) : Nat := if n % 2 = 0 then n + 1 else n - 1

/-! ## Drops and counters (R111 to R115) -/

/-- A limited record of a drop: at most one a second per port per reason, with the number of drops since the last and a stream index (R113). -/
def State.postDrop (s : State) (key code sev src stream : Nat) : State :=
  match find? s.book.ruleLim key with
  | some (last, folded) =>
    if s.now < last + ticksPerSecond then
      { s.sat F.PBOOK_DROP_B_SUPPRESSED with book.ruleLim := put noneAt s.book.ruleLim key (some (last, folded + 1)) }
    else
      State.postRec { s with book.ruleLim := put noneAt s.book.ruleLim key (some (s.now, 0)) }
        { st := s.st, seq := 0, code, sev, sum := false, src, rep := min folded 63,
          words := [BitVec.ofNat 32 (folded + 1), BitVec.ofNat 32 stream] }
  | none => State.post { s with book.ruleLim := put noneAt s.book.ruleLim key (some (s.now, 0)) } code sev src [1, stream]

/-- Severity of the record of a receive reason, if it has one (R111). -/
def dropSeverity (r : Nat) : Option Nat :=
  if r = 0x09 ∨ r = 0x0A then some 4
  else if 0x0B ≤ r ∧ r ≤ 0x0E then some 5
  else if r = 0x10 ∨ r = 0x11 then some 4
  else if r = 0x12 then some 3
  else if 0x13 ≤ r ∧ r ≤ 0x15 then some 4
  else none

/-- A frame of port `n` is dropped with receive reason `r`; `stream` is reported for reasons 0x0B to 0x0E (R76, R111, R113). -/
def State.rxDrop (s : State) (n r stream : Nat) : State :=
  let s := s.satCnt (F.SP_DROP_COUNT n r)
  let s := if bit (s.reg (A.SP_ALARM_MASK n)).toNat r && decide (1 ≤ r) && decide (r ≤ 0x15) then s.irq (97 + 2 * n) else s
  let s := if 0x09 ≤ r ∧ r ≤ 0x0E then s.observe 4 n 1 else s
  match dropSeverity r with
  | some sev => s.postDrop (0x30000000 + n * 256 + r) (0x3000 + r) sev (12 + n) (if 0x0B ≤ r ∧ r ≤ 0x0E then stream else 0)
  | none => s

/-- A frame is dropped on transmission with reason `r`; WITHHELD, FETCH_ERR and UNSIGNED fire source 111 (R112). -/
def State.txDrop (s : State) (n r : Nat) : State :=
  let s := s.satCnt (F.SP_TXDROP_COUNT n r)
  if r = 2 ∨ r = 5 ∨ r = 6 then s.irq 111 else s

/-- LINK_DOWN. -/
abbrev txLINK_DOWN : Nat := 1
/-- UNSIGNED. -/
abbrev txUNSIGNED : Nat := 2
/-- KEY_INVALID. -/
abbrev txKEY_INVALID : Nat := 3
/-- SUPPRESSED. -/
abbrev txSUPPRESSED : Nat := 4
/-- WITHHELD. -/
abbrev txWITHHELD : Nat := 5
/-- FETCH_ERR. -/
abbrev txFETCH_ERR : Nat := 6
/-- LENGTH. -/
abbrev txLENGTH : Nat := 7

/-- The live counters of a port, which SNAP copies and CLR zeroes (R115). -/
def portCounters (n : Nat) : List Nat :=
  (List.range 6).map (fun i => A.SP_RX_FRAMES n + 4 * i) ++ (List.range 32).map (A.SP_DROP n) ++ (List.range 8).map (A.SP_TXDROP n)

/-- SNAP: every counter is copied into its read register in one cycle. -/
def State.snapAll (s : State) (l : List Nat) : State := l.foldl (fun s a => s.setReg a (s.cntReg a)) s

/-- CLR: the live counters return to zero. -/
def State.clearAll (s : State) (l : List Nat) : State := l.foldl (fun s a => s.setCnt a 0) s

/-- A write of SPn_CNT_CTRL: SNAP before CLR, so that no count is lost. -/
def State.portCntWrite (s : State) (n : Nat) (w : Word) : State :=
  let s := if w.getLsbD 31 then s.snapAll (portCounters n) else s
  if w.getLsbD 30 then (s.clearAll (portCounters n)).wr (F.SP_LINK_STAT_DOWN_COUNT n) 0 else s

/-! ## Links (R71 to R73, R116) -/

/-- Is a port held down by its mode (R72)? -/
def State.portHeld (s : State) (n : Nat) : Bool :=
  let m := s.rd (F.SP_LINK_CFG_MODE n)
  (s.mode == .factory || s.mode == .rehearsal) && (m == 3 || m == 4)

/-- The recovered clock is lost (R397): the PLL returns to XTAL_IN, counted and booked. -/
def State.recoveredGone (s : State) : State :=
  (((s.wr F.SYS_CLK_STAT_ON_RECOVERED 0).sat F.SYS_CLK_STAT_FALLBACKS).postU 0x1005 3 [0]).postU 0x1006 5 []

/-- The link goes down: counted, announced, and what waits for egress is dropped with LINK_DOWN (R73). -/
def State.linkDrop (s : State) (n : Nat) : State :=
  let s := if s.linkUp n then
      ((s.wr (F.SP_LINK_STAT_UP n) 0).wr (F.SP_LINK_STAT_ACTIVE n) 0).sat (F.SP_LINK_STAT_DOWN_COUNT n) |>.irq (96 + 2 * n)
    else s
  let s := if s.flag F.SYS_CLK_STAT_ON_RECOVERED && s.rd F.SYS_CLK_CFG_PORT == n then s.recoveredGone else s
  let s := ((s.wr (F.SP_LINK_STAT_BLOCK_LOCK n) 0).wr (F.SP_LINK_STAT_AN_DONE n) 0).wr (F.SP_LINK_STAT_ACTIVE n) 0
  let p := s.port n
  let waiting := p.fwd.length + p.twins.length + (p.jobs.map fun j => j.frames.length).foldl (· + ·) 0
  let s := (List.range waiting).foldl (fun s _ => s.txDrop n txLINK_DOWN) s
  let s := s.setPort n { p with fwd := [], twins := [], jobs := [], busy := 0 }
  p.jobs.foldl (fun s j => { s with ports.ended := s.ports.ended ++ [j.rel] }) s

/-- A frame being received when the link drops is counted under RX_ERR. -/
def State.linkLost (s : State) (n : Nat) (midFrame : Bool) : State :=
  if !s.linkUp n then s
  else
    let s := if midFrame then (s.satCnt (F.SP_RX_FRAMES_COUNT n)).rxDrop n 0x01 0 else s
    s.linkDrop n

/-- The link comes up: the PCS has locked, with `ok` false when an SGMII PHY reports 10 or 100 Mb/s (R71); a restart keeps it down for 1 ms; a mode
may hold it, and in CURTAIN no port comes up (R72). Mark: DEDUCED (log 36). -/
def State.linkRise (s : State) (n : Nat) (ok : Bool) : State :=
  let m := s.rd (F.SP_LINK_CFG_MODE n)
  if m = 0 ∨ s.linkUp n ∨ (m = 2 ∧ !ok) then s
  else
    let s := if s.armed (.linkRestart n) then (s.reachST (s.dueAt (.linkRestart n))).disarm (.linkRestart n) else s
    let s := (s.wr (F.SP_LINK_STAT_BLOCK_LOCK n) 1).wr (F.SP_LINK_STAT_AN_DONE n) (b2n ((m == 1 && s.flag (F.SP_LINK_CFG_AN n)) || m == 2))
    if s.portHeld n then s.wr (F.SP_LINK_STAT_HELD n) 1
    else if s.mode == .curtain then s
    else (((s.wr (F.SP_LINK_STAT_HELD n) 0).wr (F.SP_LINK_STAT_UP n) 1).wr (F.SP_LINK_STAT_ACTIVE n) m).irq (96 + 2 * n)

/-- What a change of mode does to a port (R72): a held port goes down; on entry to LEAD, UNDERSTUDY or INTERVAL a held one is released and comes up if it has lock. CURTAIN leaves it as
it is. -/
def State.portMode (s : State) (n : Nat) : State :=
  if s.portHeld n then
    let s := if s.linkUp n then s.linkDrop n else s
    s.wr (F.SP_LINK_STAT_HELD n) 1
  else if s.flag (F.SP_LINK_STAT_HELD n) && s.mode != .curtain then
    let s := s.wr (F.SP_LINK_STAT_HELD n) 0
    if s.flag (F.SP_LINK_STAT_BLOCK_LOCK n) then
      ((s.wr (F.SP_LINK_STAT_UP n) 1).wr (F.SP_LINK_STAT_ACTIVE n) (s.rd (F.SP_LINK_CFG_MODE n))).irq (96 + 2 * n)
    else s
  else s

/-- A write of SPn_LINK_CFG: a change of MODE or AN drops the link for 1 ms and restarts it, and DOWN_COUNT counts it, up or not (R73). Whether a frame was being received is free. Mark:
DESIGN CHOICE (log 148). Mark: DESIGN CHOICE (log 148). -/
def State.linkCfgWrite (s : State) (n : Nat) (w : Word) : State :=
  let m := s.rd (F.SP_LINK_CFG_MODE n)
  let an := s.rd (F.SP_LINK_CFG_AN n)
  let m' := if getBits w 2 0 ≤ 4 then getBits w 2 0 else m
  let an' := getBits w 4 4
  if m' = m ∧ an' = an then s
  else
    let s := if s.linkUp n then s.next.linkLost n (s.draw % 2 == 1) else (s.linkDrop n).sat (F.SP_LINK_STAT_DOWN_COUNT n)
    let s := (s.wr (F.SP_LINK_CFG_MODE n) m').wr (F.SP_LINK_CFG_AN n) an'
    let s := s.wr (F.SP_LINK_STAT_HELD n) (b2n (s.portHeld n))
    if m' = 0 then s.disarm (.linkRestart n) else s.arm (.linkRestart n) ticksPerMs

/-- The supervision interval of a pair in ticks (R95). -/
def State.supTicks (s : State) (p : Nat) : Nat := s.rd (F.SWITCH_RED_CFG_SUP_INTERVAL p) * 100 * ticksPerMs

/-- A write of SWITCH_RED_CFG_p: accepted only while both ports of the pair are off (R96). Supervision runs in PRP and HSR (R95). -/
def State.redCfgWrite (s : State) (p : Nat) (w : Word) : State :=
  if s.rd (F.SP_LINK_CFG_MODE (2 * p)) = 0 ∧ s.rd (F.SP_LINK_CFG_MODE (2 * p + 1)) = 0 then
    let mode := if getBits w 31 30 = 3 then s.rd (F.SWITCH_RED_CFG_MODE p) else getBits w 31 30
    let s := s.setReg (A.SWITCH_RED_CFG p) (setBits (setBits (setBits 0#32 31 30 mode) 23 16 (getBits w 23 16)) 15 0 (getBits w 15 0))
    if mode = 0 then s.disarm (.supSend p) else s.arm (.supSend p) (s.supTicks p)
  else s.sat (F.BLOCK_REFUSED_LIVE_WRITES Base.SWITCH)

/-! ## CRC-32C (R80) -/

/-- One bit of the reflected CRC-32C. -/
def crcBit (c : Nat) : Nat := if c % 2 = 1 then (c / 2) ^^^ 0x82F63B78 else c / 2

/-- One octet. -/
def crcByte (c : Nat) (b : Byte) : Nat := (List.range 8).foldl (fun c _ => crcBit c) (c ^^^ b.toNat)

/-- CRC-32C: polynomial 0x1EDC6F41 reflected, initial value and final XOR all ones. -/
def crc32c (bs : List Byte) : Nat := bs.foldl crcByte 0xFFFFFFFF ^^^ 0xFFFFFFFF

/-! ## Redundancy (R92 to R95) -/

/-- Forget the oldest duplicate entry of a pair (R93). -/
def State.ddForget (s : State) (p : Nat) : State :=
  { s with ports.dd := put (fun _ => []) s.ports.dd p ((look (fun _ => []) s.ports.dd p).drop 1) }

/-- The duplicate-discard table of a pair, oldest first. -/
def State.ddTable (s : State) (p : Nat) : List DdEntry := look (fun _ => []) s.ports.dd p

/-- Entries that are past DD_AGE are forgotten. -/
def State.ddExpire (s : State) (p : Nat) : State :=
  let l := (s.ddTable p).filter fun e => decide (s.now < e.made + s.rd (F.SWITCH_RED_CFG_DD_AGE p) * ticksPerMs)
  { s with ports.dd := put (fun _ => []) s.ports.dd p l }

/-- The oldest entry reaches DD_AGE and is forgotten. -/
def State.ddAge (s : State) (p : Nat) : State :=
  match s.ddTable p with
  | e :: _ => (s.reachST (e.made + s.rd (F.SWITCH_RED_CFG_DD_AGE p) * ticksPerMs)).ddForget p
  | [] => s

/-- Stage 7 (R77, R93): true when the frame is a duplicate; a new one is entered, the oldest leaving a full table. -/
def State.duplicate (s : State) (p smac seq : Nat) : Bool × State :=
  let s := s.ddExpire p
  if (s.ddTable p).any fun e => e.smac == smac && e.seq == seq then (true, s)
  else
    let s := if 4096 ≤ (s.ddTable p).length then
        ((s.ddForget p).sat (if p = 0 then F.SWITCH_DD_EVICT_EVICT_0 else F.SWITCH_DD_EVICT_EVICT_1)).irq 108
      else s
    (false, { s with ports.dd := put (fun _ => []) s.ports.dd p (s.ddTable p ++ [{ smac, seq, made := s.now }]) })

/-- The SEEN flag of a pair. -/
def seenFld (p : Nat) : Fld := if p = 0 then F.SWITCH_RED_STAT_SEEN_0 else F.SWITCH_RED_STAT_SEEN_1

/-- A supervision frame of the partner node is heard (R95). -/
def State.supHeard (s : State) (p : Nat) : State :=
  let s := if s.flag (seenFld p) then s else (s.wr (seenFld p) 1).irq 107
  s.arm (.supervision p) (3 * s.supTicks p)

/-- Three intervals without one (R95). -/
def State.supLost (s : State) (p : Nat) : State := if s.flag (seenFld p) then (s.wr (seenFld p) 0).irq 107 else s

/-! ## Records (R83, R84) -/

/-- OR of bits 13:0 of every quality word of a seqData. -/
def qorOf (d : List Byte) : Nat :=
  (List.range (d.length / 8)).foldl (fun a k => a ||| beNat (sliceB d (8 * k + 4) 4) % 16384) 0

/-- Pad a payload with zeros to the next 8-byte boundary. -/
def pad8 (bs : List Byte) : List Byte := padTo (roundUp bs.length 8) bs

/-- What a record carries besides its own ASDU. -/
structure RecHead where
  stream : Nat
  port : Nat
  keysel : Nat
  sim : Bool
  st : Nat
  frac : Nat
  ty : Nat
  seq : Nat
  path : Nat
  deriving DecidableEq, Repr

/-- A record: the 32-byte descriptor and the payload. -/
def recordBytes (h : RecHead) (asdu w3 w4 w5 w6 : Nat) (payload : List Byte) : List Byte :=
  leBytes 4 (h.stream * 2 ^ 20 + asdu * 2 ^ 17 + h.port * 2 ^ 15 + h.keysel * 2 ^ 13 + b2n h.sim * 2 ^ 12 + payload.length % 2048)
    ++ leBytes 4 (h.st % 2 ^ 32) ++ leBytes 4 (h.st / 2 ^ 32 % 2 ^ 16 * 2 ^ 16 + h.frac * 2 ^ 8 + h.ty)
    ++ leBytes 4 w3 ++ leBytes 4 w4 ++ leBytes 4 w5 ++ leBytes 4 w6 ++ leBytes 4 (h.seq * 2 ^ 16 + h.path * 2 ^ 14) ++ pad8 payload

/-- The record of one SV ASDU. -/
def svRecord (h : RecHead) (k : Nat) (a : Asdu) : List Byte :=
  recordBytes h k (a.smpCnt * 2 ^ 16 + a.smpSynch * 2 ^ 8) a.confRev (a.seqData.length / 8 % 256 * 2 ^ 24 + qorOf a.seqData) 0 a.seqData

/-- The record of a GOOSE frame. -/
def gooseRecord (h : RecHead) (g : Goose) : List Byte := recordBytes h 0 g.stNum g.confRev g.sqNum g.ttl g.allData

/-! ## Inbound frames (R75) -/

/-- SV or GOOSE. -/
def isGrid (etype : Nat) : Bool := etype == 0x88BA || etype == 0x88B8

/-- The ports that the switch forwards a frame to (R97): the members of its VLAN but for the other port of a redundant pair. -/
def State.forwardTo (s : State) (n : Nat) (f : RxFrame) : List Nat :=
  (List.range 4).filter fun k => k != n && bit (s.vlanMember (f.vid.getD 0)) k && !(s.redMode n != 0 && k == otherPort n)

/-- The ring port that HSR forwards a frame to, unless it is addressed to this node alone (R94). -/
def State.ringTo (s : State) (n : Nat) (f : RxFrame) : List Nat := if s.redMode n = 2 ∧ f.dmac ≠ s.portMac n then [otherPort n] else []

/-- Egress queue of a forwarded frame (SWITCH_PCP_MAP). -/
def State.pcpQueue (s : State) (pcp : Nat) : Nat := min (s.rd F.SWITCH_PCP_MAP_MAP / 2 ^ (3 * pcp) % 8) 6

/-- A frame without its 802.1Q tag. -/
def untagged (b : List Byte) : List Byte := if beNat (sliceB b 12 2) = 0x8100 then b.take 12 ++ b.drop 16 else b

/-- The arrival timestamp: Stage Time and fraction at the ball, adjusted (R107). -/
def State.arrival (s : State) (n frac : Nat) : Nat := ((s.now * 256 + frac : Nat) + signed 16 (s.rd (F.SP_TS_ADJ_RX_ADJ n))).toNat

/-- Hand copies to the ports they are forwarded to, untagged where the VLAN says so; a port whose link is down drops its copy. The ring copy is left as it is. -/
def State.forward (s : State) (n frac : Nat) (f : RxFrame) (dst ring : List Nat) : State :=
  let ptp := if f.etype = 0x88F7 ∧ s.flag F.SWITCH_PTP_CFG_EN ∧ s.rd F.SWITCH_PTP_CFG_CLOCK = 2 then some ((s.arrival n frac : Int) - (s.port n).delay) else none
  let queue := s.pcpQueue f.pcp
  (dst.map (fun k => (k, if s.vlanUntag (f.vid.getD 0) k then untagged f.raw else f.raw)) ++ ring.map fun k => (k, f.raw)).foldl (fun s c =>
    if s.linkUp c.1 then s.setPort c.1 { s.port c.1 with fwd := (s.port c.1).fwd ++ [{ queue, bytes := c.2, ptp, own := false }] } else s.txDrop c.1 txLINK_DOWN) s

/-- The Chorus does the Soloists' work for the ports in FACTORY and REHEARSAL (R90). -/
def State.chorusPorts (s : State) : Bool := s.mode == .factory || s.mode == .rehearsal

/-- Tokens of a bucket of 20 frames, one frame each 25,000 ticks (R90), and whether one is left to take. -/
def tokens (now credit since : Nat) : Bool × Nat :=
  let c := min 500000 (credit + (now - since))
  if c < 25000 then (false, c) else (true, c - 25000)

/-- An inbound frame takes a token of its port (R90). -/
def State.tokenTake (s : State) (n : Nat) : Bool × State :=
  let p := s.port n
  let t := tokens s.now p.credit p.creditAt
  (t.1, s.setPort n { p with credit := t.2, creditAt := s.now })

/-- An outbound signing takes a token of its port (R90). -/
def State.signTake (s : State) (n : Nat) : Bool × State :=
  let p := s.port n
  let t := tokens s.now p.signCredit p.signAt
  (t.1, s.setPort n { p with signCredit := t.2, signAt := s.now })

/-- The authentication buffer of Soloist `k`, oldest first. -/
def State.authBuf (s : State) (k : Nat) : List AuthItem := look (fun _ => []) s.ports.auth k

/-- Stages 3 to 5 of an SV or GOOSE frame: classifier, stream, mode, admission. The frame goes on with the stream entry as stage 4 reads it (R26, R75). -/
def State.rxGrid (s : State) (n frac : Nat) (f : RxFrame) (forwarded : Bool) : State :=
  let ty := if f.etype = 0x88BA then 0 else 1
  match s.classify n ty f.dmac f.appid (f.vid.getD 0) (crc32c f.idOctets) with
  | none => if forwarded then s else s.rxDrop n 0x06 0
  | some st =>
    if !(s.swWord 1 st 0).getLsbD 31 then s.rxDrop n 0x07 st
    else if s.mode == .curtain then s.rxDrop n 0x08 st
    else
      let (ok, s) := if s.chorusPorts then s.tokenTake n else (true, s)
      if !ok then s.rxDrop n 0x09 st
      else
        let buf := s.authBuf (n / 2)
        let fill := (buf.map fun i => i.frame.len).foldl (· + ·) 0
        if 65536 < fill + f.len then s.rxDrop n 0x0A st
        else
          let x := s.arrival n frac
          let i : AuthItem := { port := n, frame := f, stream := st, words := s.swEntry 1 st, st := x / 256, frac := x % 256 }
          { s with ports.auth := put (fun _ => []) s.ports.auth (n / 2) (buf ++ [i]) }

/-- A frame of another EtherType that the switch does not forward (R85); one that the ring forwards is no OTHER_ETYPE (R111). -/
def State.rxOther (s : State) (n : Nat) (f : RxFrame) (ring : Bool) : State :=
  if f.etype = 0x88F7 then
    let ty := byteAt f.octets 0 % 16
    if ty = 0xB ∨ ty = 0xC ∨ ty = 0xD then State.irq { s with ports.ptpMsgs := s.ports.ptpMsgs ++ [f.octets] } 105 else s
  else if f.etype = 0x88B5 ∧ f.vid.getD 0 = s.lv F.TROUPE_CFG_A_VID then s
  else if f.etype = 0x88FB then s.supHeard (n / 2)
  else if ring then s
  else s.rxDrop n 0x05 0

/-- An inbound frame of port `n` whose start of frame stands at fraction `frac` of the current tick (R75, stages 1 to 5). Mark: DEDUCED (log 33). -/
def State.rxFrame (s : State) (n frac : Nat) (f : RxFrame) : State :=
  if !s.linkUp n then s
  else
    let s := (s.satCnt (F.SP_RX_FRAMES_COUNT n)).wrapCnt (F.SP_RX_BYTES_COUNT n) f.len
    if f.errored then s.rxDrop n 0x01 0
    else if f.len < 64 ∨ 2000 < f.len then s.rxDrop n 0x02 0
    else if s.redMode n = 2 ∧ f.smac = s.portMac n then s.rxDrop n 0x03 0
    else if !bit (s.vlanMember (f.vid.getD 0)) n then s.rxDrop n 0x04 0
    else
      let dst := s.forwardTo n f
      let ring := s.ringTo n f
      let s := s.forward n frac f dst ring
      if isGrid f.etype then s.rxGrid n frac f (!(dst ++ ring).isEmpty)
      else if dst.isEmpty then s.rxOther n f (!ring.isEmpty) else s

/-! ## Authentication (R86, R87, R311) -/

/-- A Soloist counts a fault (R311): source 120 or 121, and at FAULT_LIMIT faults within 1 s FAILED and the alarm. -/
def State.soloistFault (s : State) (k : Nat) : State :=
  let s := s.sat (F.SOLOIST_CNT_FAULT k)
  let s := if k ≤ 1 then s.irq (120 + k) else s
  let recent := s.now :: (look (fun _ => []) s.sol.faults k).filter fun t => decide (s.now < t + ticksPerSecond)
  let s := { s with sol.faults := put (fun _ => []) s.sol.faults k recent }
  if max 1 (s.rd F.SOLOIST_CFG_FAULT_LIMIT) ≤ recent.length then
    let s := s.setReg A.SOLOIST_STAT (s.reg A.SOLOIST_STAT ||| BitVec.twoPow 32 k)
    { s with alarms := s.alarms ++ [0x0A] }
  else s

/-- Parity mismatches of a Soloist on one frame (R311): none, one that the second computation repairs, or a fault. True when the block failed. -/
def State.soloistParity (s : State) (k mismatches : Nat) : Bool × State :=
  if mismatches = 0 then (false, s)
  else if mismatches = 1 then (false, s.sat (F.SOLOIST_CNT_RETRY k))
  else (true, (s.sat (F.SOLOIST_CNT_RETRY k)).soloistFault k)

/-- A parity error in Chorus core `k` (R300): a core that is already out of service runs nothing that could fail. -/
def State.coreFault (s : State) (k : Nat) : State :=
  if bit (s.rd F.CHORUS_STAT_CORE_FAULT) (k % 8) then s
  else
    let s := s.setReg A.CHORUS_STAT (s.reg A.CHORUS_STAT ||| BitVec.twoPow 32 (24 + k % 8))
    ((s.sat F.CHORUS_CNT_FAULTS).irq 117).post 0xA003 6 9 [k % 8]

/-- What the check or signature of a frame meets (R90, R300, R311), true when it fails. In FACTORY and REHEARSAL the Chorus does it: 0 no error, `k + 1` a parity error in core `k`, and
with all eight cores out it fails. In the other modes the Soloist does. Mark: DEDUCED (log 149). -/
def State.cipherMeets (s : State) (k mismatches : Nat) : Bool × State :=
  if s.chorusPorts then
    if s.rd F.CHORUS_STAT_CORE_FAULT = 255 then (true, s)
    else if mismatches = 0 ∨ bit (s.rd F.CHORUS_STAT_CORE_FAULT) ((mismatches - 1) % 8) then (false, s)
    else (true, s.coreFault (mismatches - 1))
  else s.soloistParity k mismatches

/-- Bytes of the tag that are compared (R81). -/
def tagBytes (code : Nat) : Nat := if code = 0 then 16 else if code = 1 then 12 else 8

/-- The AES-GMAC tag of octets under a stream key, with the IV of IEC 62351-6 (R86). The key's most significant byte is the first of FIPS 197. Mark: DEDUCED (log 67). -/
def KeyVal.gmac (k : KeyVal) (octets : List Byte) : List Byte :=
  gcmSeal (beBytes (if k.len256 then 32 else 16) k.value) (padTo 12 (Config.gmacIv octets)) octets []

/-- The frame signed with a stream key (R99). -/
def KeyVal.sign (k : KeyVal) (b : List Byte) : List Byte := Config.signedFrame k.kid (k.gmac (Config.gmacOctets k.kid b)) b

/-- Does the tag of a frame verify under a key (R86)? The octets and the IV are those of IEC 62351-6. -/
def macPasses (k : KeyVal) (f : RxFrame) (x : RxExt) (n : Nat) : Bool := (k.gmac f.octets).take n == x.tag.take n && decide (n ≤ x.tag.length)

/-- The confRevs of a frame. -/
def confRevsOf (f : RxFrame) : List Nat :=
  match f.apdu with
  | .sv as => as.map (·.confRev)
  | .goose g => [g.confRev]
  | .malformed => []

/-- The drop reason of stage 8, 0 for none (R82, R84), under the stream entry `ws`: `entry` is the entry size of a queue with V = 1. -/
def extractReason (ws : List Word) (f : RxFrame) (entry : Option Nat) : Nat :=
  let w0 := ws.getD 0 0#32
  let plens := match f.apdu with
    | .sv as => as.map fun (a : Asdu) => a.seqData.length
    | .goose g => [g.allData.length]
    | .malformed => []
  if f.apdu == .malformed || (f.etype == 0x88BA && (plens.isEmpty || decide (8 < plens.length))) then 0x10
  else if w0.getLsbD 25 && (confRevsOf f).any (fun r => r != (ws.getD 1 0#32).toNat) then 0x11
  else if f.sim && !w0.getLsbD 26 then 0x12
  else match entry with
    | some e => if plens.any fun p => decide (e < p + 32) then 0x13 else 0
    | none => 0

/-- Stage 9 (R83, R84): one record per ASDU goes to the queue; a refused enqueue drops the frame with `full`. -/
def State.writeRecords (s : State) (n q full : Nat) (h : RecHead) (trace : Bool) : List (Nat × List Byte) → State
  | [] => s
  | (k, bs) :: t =>
    match s.enqueue (12 + n) q bs with
    | (false, s) => s.rxDrop n full h.stream
    | (true, s) =>
      let s := if trace then
          (s.traceItem 3 (leBytes 8 (h.stream * 2 ^ 52 + n * 2 ^ 50 + k * 2 ^ 47 + h.st % 2 ^ 32))).observe 3 0 1 else s
      State.writeRecords s n q full h trace t

/-- Stages 8 and 9. The lower port of a pair is LAN A or port A of the ring (R92). -/
def State.deliver (s : State) (i : AuthItem) (q full keysel : Nat) (trace : Bool) : State :=
  let n := i.port
  let f := i.frame
  let r := extractReason i.words f (if (s.queue q).v then some (s.queue q).entry else none)
  if r ≠ 0 then s.rxDrop n r i.stream
  else
    let red := if s.redMode n = 0 then none else f.red
    let h : RecHead := { stream := i.stream, port := n, keysel, sim := f.sim, st := i.st, frac := i.frac, ty := if f.etype = 0x88BA then 0 else 1,
                         seq := red.getD 0, path := if red.isNone then 0 else if n % 2 = 0 then 1 else 2 }
    let recs := match f.apdu with
      | .sv as => as.mapIdx fun k (a : Asdu) => (k, svRecord h k a)
      | .goose g => [(0, gooseRecord h g)]
      | .malformed => []
    s.writeRecords n q full h trace recs

/-- Stage 6 on, for the oldest frame of a Soloist's buffer (R75, R86 to R91); `mismatches` is what its parity check met (R311). The KEYSEL of a record that
nothing has verified is free. -/
def State.authFrame (s : State) (k mismatches : Nat) : State :=
  match s.authBuf k with
  | [] => s
  | i :: rest =>
    let s := { s with ports.auth := put (fun _ => []) s.ports.auth k rest }
    let n := i.port
    let f := i.frame
    let w := fun (k : Nat) => i.words.getD k 0#32
    match f.ext with
    | none => s.rxDrop n 0x0B i.stream
    | some x =>
      if getBits (w 0) 30 29 = 2 then
        (s.next).deliver i (getBits (w 2) 17 0) 0x15 (s.draw % 4) false
      else
        match (s.streamKey (getBits (w 2) 31 20)).accept x.kid (frameAt s.call s.rate i.st) with
        | .inl r => s.rxDrop n r i.stream
        | .inr (sel, key) =>
          match s.cipherMeets k mismatches with
          | (true, s) => s.rxDrop n 0x0E i.stream
          | (false, s) =>
            if !macPasses key f x (tagBytes (getBits (w 0) 28 27)) then s.rxDrop n 0x0E i.stream
            else
              let s := s.satCnt (F.SP_AUTH_PASS_COUNT n)
              let q := getBits (w 0) 17 0
              match f.red with
              | some seq =>
                if s.redMode n = 0 then s.deliver i q 0x14 sel true
                else match s.duplicate (n / 2) f.smac seq with
                  | (true, s) => s.rxDrop n 0x0F i.stream
                  | (false, s) => s.deliver i q 0x14 sel true
              | none => s.deliver i q 0x14 sel true

end Sys2Proof.Machine
end

