-- ==== Sys2Proof/Machine/Egress.lean ====
section
/-! DEFINITION. Station ports, outbound (R97 to R105): egress queues, descriptors, signing, guard windows, release lists. -/

namespace Sys2Proof.Machine

/-- What leaves the device on a channel. Mark: DESIGN CHOICE (log 118). -/
def State.send (s : State) (chan kind : Nat) (body : List Byte) : State := { s with wire := s.wire ++ [{ chan, kind, body }] }

/-- An egress descriptor (R99). -/
structure EgDesc where
  v : Bool
  last : Bool
  sign : Bool
  presigned : Bool
  key : Nat
  len : Nat
  addr : Nat
  deriving DecidableEq, Repr

/-- Read an egress descriptor. -/
def EgDesc.of (d : Nat) : EgDesc where
  v := bit d 63
  last := bit d 62
  sign := bit d 61
  presigned := bit d 60
  key := d / 2 ^ 40 % 4096
  len := d / 2 ^ 29 % 2048
  addr := d % 2 ^ 29 * 8

/-- EtherType of a frame buffer, behind an 802.1Q tag if it has one. -/
def etypeOf (b : List Byte) : Nat := if beNat (sliceB b 12 2) = 0x8100 then beNat (sliceB b 16 2) else beNat (sliceB b 12 2)

/-- SV and GOOSE egress is suppressed (R101): in FACTORY, UNDERSTUDY, CURTAIN, and INTERVAL while a partner holds protection. -/
def State.egressHeld (s : State) : Bool :=
  s.mode == .factory || s.mode == .understudy || s.mode == .curtain || (s.mode == .interval && s.pin.held)

/-- The bytes of an outbound frame on the wire: the extension when it is signed, then the HSR tag or PRP trailer (R94, R99). -/
def State.wireBytes (s : State) (n : Nat) (d : EgDesc) (b : List Byte) (seq : Nat) : List Byte :=
  let b := if d.sign then
      match (s.streamKey d.key).cur with
      | some k => k.sign b
      | none => b
    else b
  if s.redMode n = 0 then b else Config.redundant (s.redMode n) (n % 2) seq b

/-- Is a frame of an EtherType kept back (R101)? SV and GOOSE wherever egress is suppressed, every other frame in CURTAIN. -/
def State.egressCut (s : State) (etype : Nat) : Bool := s.mode == .curtain || (isGrid etype && s.egressHeld)

/-- A frame without FCS leaves on channel `n`, and is counted (R115). -/
def State.emit (s : State) (n kind : Nat) (b : List Byte) : State :=
  ((s.satCnt (F.SP_TX_FRAMES_COUNT n)).wrapCnt (F.SP_TX_BYTES_COUNT n) (b.length + 4)).send n kind b

/-- Is a frame signed (R90, R300, R311)? True when it is not: no token is left in FACTORY or REHEARSAL, or its cipher failed. Mark: DESIGN CHOICE (log 164). -/
def State.signFails (s : State) (n mismatches : Nat) : Bool × State :=
  if s.chorusPorts then
    match s.signTake n with
    | (false, s) => (true, s)
    | (true, s) => s.cipherMeets (n / 2) mismatches
  else s.cipherMeets (n / 2) mismatches

/-- Start a frame on port `n`, or drop it (R100, R101, R105, R112); true when it is on the wire. `mismatches` is what the cipher met on a signed frame. -/
def State.startFrame (s : State) (n : Nat) (e : EgFrame) (seq kind mismatches : Nat) : Bool × State :=
  let d := EgDesc.of e.desc
  if !s.linkUp n then (false, s.txDrop n txLINK_DOWN)
  else if d.len < 60 ∨ 2000 < d.len then (false, s.txDrop n txLENGTH)
  else match e.data with
    | none => (false, s.txDrop n txFETCH_ERR)
    | some b =>
      if s.egressCut (etypeOf b) then (false, s.txDrop n txSUPPRESSED)
      else if isGrid (etypeOf b) && !d.sign && !(d.presigned && Config.hasExtension b) then (false, s.txDrop n txUNSIGNED)
      else if d.sign && (s.streamKey d.key).cur.isNone then (false, s.txDrop n txKEY_INVALID)
      else
        match (if d.sign then s.signFails n mismatches else (false, s)) with
        | (true, s) => (false, s.txDrop n txUNSIGNED)
        | (false, s) =>
          (true, (s.setPort n { s.port n with busy := kind }).emit n 0 (s.wireBytes n d b seq))

/-- Read the buffer of a descriptor under the port's identity (R100). Mark: DEDUCED (log 34). -/
def State.fetchFrame (s : State) (n : Nat) (d : Nat) : EgFrame × State :=
  let e := EgDesc.of d
  if e.len < 60 ∨ 2000 < e.len then ({ desc := d, data := none }, s)
  else match s.dmaRead (12 + n) e.addr e.len with
    | (.ok b, s) => ({ desc := d, data := some b }, s)
    | (.error _, s) => ({ desc := d, data := none }, s)

/-- One redundancy sequence number of a pair (R94). -/
def State.nextSeq (s : State) (p : Nat) : Nat × State :=
  let q := look (fun _ => 0) s.ports.seq p
  (q, { s with ports.seq := put (fun _ => 0) s.ports.seq p ((q + 1) % 65536) })

/-! ## Queues 0 to 6 (R98, R104) -/

/-- Does a guard window of the port stand open now (R104)? OFFSET reaches beyond three frames, so the windows of earlier frames count too. -/
def State.guarded (s : State) (n : Nat) : Bool :=
  (List.range 8).any fun k =>
    s.flag (F.SWITCH_GUARD_EN n k) && (List.range 8).any fun j =>
      let b := boundaryAt s.call s.rate (s.stime.gridN - 5 + j) + s.rd (F.SWITCH_GUARD_OFFSET n k)
      decide (b - s.rd (F.SWITCH_GUARD_LENGTH n k) ≤ s.now) && decide ((s.now : Int) < b)

/-- Does egress queue `k` of the port have a descriptor waiting in its Wings queue? -/
def State.txqReady (s : State) (n k : Nat) : Bool :=
  s.flag (F.SP_TXQ_EN n k) &&
    let q := s.queue (s.rd (F.SP_TXQ_QUEUE n k))
    q.v && decide (0 < q.fill) && s.mayConsume (12 + n) q

/-- The other port of a redundant pair takes its copy of a frame of queue `k` (R92), or drops it with its link down. Mark: DEDUCED (log 150). -/
def State.twinTo (s : State) (n k seq : Nat) (e : EgFrame) : State :=
  if s.linkUp n then s.setPort n { s.port n with twins := (s.port n).twins ++ [{ queue := k, frame := e, seq }] } else s.txDrop n txLINK_DOWN

/-- Dequeue one descriptor of egress queue `k` and send it, or drop it. A redundant pair sends the frame on both ports under one sequence number (R92, R94). -/
def State.sendQueued (s : State) (n k mismatches : Nat) : State :=
  let q := s.rd (F.SP_TXQ_QUEUE n k)
  let (r, s) := s.readEntry (12 + n) q 0 8
  let d := match r with
    | .ok b => leNat b
    | .error _ => 0
  let s := s.releaseEntries q 1
  if !(EgDesc.of d).v then s.txDrop n txFETCH_ERR
  else
    let (e, s) := s.fetchFrame n d
    if s.redMode n = 0 then (s.startFrame n e 0 1 mismatches).2
    else
      let (seq, s) := s.nextSeq (n / 2)
      ((s.twinTo (otherPort n) k seq e).startFrame n e seq 1 mismatches).2

/-- Send the copy of a frame that the other port of the pair dequeued. -/
def State.sendTwin (s : State) (n mismatches : Nat) (t : Twin) : State :=
  ((s.setPort n { s.port n with twins := (s.port n).twins.erase t }).startFrame n t.frame t.seq 1 mismatches).2

/-- Where a frame's payload starts: behind its 802.1Q tag and its HSR tag, if it has them. -/
def payloadAt (b : List Byte) : Nat :=
  let o := if beNat (sliceB b 12 2) = 0x8100 then 4 else 0
  if beNat (sliceB b (12 + o) 2) = 0x892F then 20 + o else 14 + o

/-- Add `d`, in units of 7.8125 ps, to the correctionField of the PTP message at `o` (R108). -/
def addCorrection (b : List Byte) (o : Nat) (d : Int) : List Byte :=
  b.take (o + 8) ++ beBytes 8 ((((beNat (sliceB b (o + 8) 8) : Nat) : Int) + d * 512) % 2 ^ 64).toNat ++ b.drop (o + 16)

/-- The transmit timestamp of the port. -/
def State.departure (s : State) (n frac : Nat) : Nat := ((s.now * 256 + frac : Nat) + signed 16 (s.rd (F.SP_TS_ADJ_TX_ADJ n))).toNat

/-- A transparent clock corrects a PTP message that leaves port `n` for its residence time and the link it came over (R106): a Sync in place when one-step, a two-step one in its
Follow_Up. The fraction of its departure is free. Mark: PRESUMED (log 151). -/
def State.corrected (s : State) (n : Nat) (f : FwdFrame) : List Byte × State :=
  match f.ptp with
  | none => (f.bytes, s)
  | some t =>
    let o := payloadAt f.bytes
    let key := sliceB f.bytes (o + 20) 12
    let ty := byteAt f.bytes o % 16
    if ty = 0 then
      let d : Int := s.departure n (s.draw % 256) - t
      if s.flag F.SWITCH_PTP_CFG_ONE_STEP || !bit (byteAt f.bytes (o + 6)) 1 then (addCorrection f.bytes o d, s.next)
      else (f.bytes, s.next.setPort n { s.port n with resid := (key, d) :: (s.port n).resid.filter fun r => r.1 != key })
    else if ty = 8 then
      match (s.port n).resid.find? fun r => r.1 == key with
      | some r => (addCorrection f.bytes o r.2, s.setPort n { s.port n with resid := (s.port n).resid.erase r })
      | none => (f.bytes, s)
    else (f.bytes, s)

/-- Send a forwarded frame unchanged but for its PTP correction (R97, R106); in CURTAIN only a frame of the Troupe agent leaves (R101). -/
def State.sendForwarded (s : State) (n : Nat) (f : FwdFrame) : State :=
  let s := s.setPort n { s.port n with fwd := (s.port n).fwd.erase f }
  if s.mode == .curtain && !f.own then s.txDrop n txSUPPRESSED
  else
    let r := s.corrected n f
    (r.2.setPort n { r.2.port n with busy := 1 }).emit n 0 r.1

/-- An idle port takes the next frame of queues 0 to 6, the highest first, outside guard windows (R98, R104). Between a forwarded frame and a descriptor of one
queue the manual gives no order; the second copy of a pair's frame goes before both (log 150). A port that is down still takes the frames that its pair sends on the other port.
Mark: DEDUCED (log 34). -/
def State.egressQueue (s : State) (n mismatches : Nat) : State :=
  let p := s.port n
  if p.busy ≠ 0 ∨ !p.jobs.isEmpty ∨ !(s.linkUp n || (s.redMode n != 0 && s.linkUp (otherPort n))) ∨ s.guarded n then s
  else
    let k? := [6, 5, 4, 3, 2, 1, 0].find? fun k => (p.twins.any fun t => t.queue == k) || (p.fwd.any fun f => f.queue == k) || s.txqReady n k
    match k? with
    | none => s
    | some k =>
      match p.twins.find? fun t => t.queue == k with
      | some t => s.sendTwin n mismatches t
      | none => match p.fwd.find? fun f => f.queue == k with
        | some f => if s.txqReady n k && s.draw % 2 == 1 then s.next.sendQueued n k mismatches else s.next.sendForwarded n f
        | none => s.sendQueued n k mismatches

/-! ## Release lists (R102, R103, R105) -/

/-- The descriptors of a release list from its first on: up to the first with LAST = 1, or the end of the table. -/
def State.listFrom (s : State) : Nat → Nat → List Nat
  | 0, _ => []
  | fuel + 1, i =>
    let d := (s.swWord 2 i 0).toNat + 2 ^ 32 * (s.swWord 2 i 1).toNat
    if (EgDesc.of d).last then [d] else d :: State.listFrom s fuel (i + 1)

/-- The descriptors of release list `l`; none when the list or its first descriptor has V = 0. -/
def State.listDescs (s : State) (l : Nat) : Option (List Nat) :=
  let w := s.swWord 3 l 0
  let i := getBits w 10 0
  if w.getLsbD 31 && (EgDesc.of ((s.swWord 2 i 0).toNat + 2 ^ 32 * (s.swWord 2 i 1).toNat)).v then some (s.listFrom (2048 - i) i) else none

/-- The ports a release goes to: both ports of a PRP or HSR pair named by its lower port (R102). -/
def State.relPorts (s : State) (n : Nat) : List Nat := if s.redMode n ≠ 0 ∧ n % 2 = 0 then [n, n + 1] else [n]

/-- Fetch the frames of a list for one port; a descriptor with V = 0 has no frame. -/
def State.fetchList (s : State) (n : Nat) (ds : List Nat) : List EgFrame × State :=
  ds.foldl (fun acc d =>
    if (EgDesc.of d).v then let r := acc.2.fetchFrame n d; (acc.1 ++ [r.1], r.2)
    else (acc.1 ++ [{ desc := d, data := none }], acc.2)) ([], s)

/-- Room for another pre-issued list at the port (R60). -/
def State.relRoom (s : State) (n : Nat) : Bool := decide ((s.port n).pre.length < 16)

/-- Pre-issue a release list (R102): its entry and descriptors are taken as they stand (R26), its frames fetched from this moment on. Mark: DESIGN CHOICE (log 40). -/
def State.relIssue (s : State) (n l t : Nat) (ticket : Option TicketRef) : State :=
  let word := s.swWord 3 l 0
  let ds := s.listDescs l
  let (fr, s) := s.fetchList n (ds.getD [])
  let (fr2, s) := if (s.relPorts n).length = 2 then s.fetchList (n + 1) (ds.getD []) else ([], s)
  s.setPort n { s.port n with pre := (s.port n).pre ++ [{ list := l, time := t, ticket, word, descs := ds, frames := fr, frames2 := fr2 }] }

/-- The port's part of a release has ended; with the last part the ticket completes. Its status is free where not every frame was sent. -/
def State.relEnd (s : State) (id : Nat) : State :=
  match s.ports.rels.find? fun r => r.id == id with
  | none => s
  | some r =>
    let rest := s.ports.rels.filter fun x => x.id != id
    if 1 < r.left then { s with ports.rels := { r with left := r.left - 1 } :: rest }
    else State.complete (State.next { s with ports.rels := rest }) r.ticket (r.dropped && s.draw % 2 == 1)

/-- Note that a frame of a release was dropped. -/
def State.relDropped (s : State) (id : Nat) : State :=
  { s with ports.rels := s.ports.rels.map fun r => if r.id = id then { r with dropped := true } else r }

/-- Send the next frame of the port's first list that can be sent; lists whose frames are gone end (R102, R105). -/
def State.runJobs (s : State) (n mismatches : Nat) : Nat → State
  | 0 => s
  | fuel + 1 =>
    let p := s.port n
    match p.jobs with
    | [] => s.setPort n { p with busy := 0 }
    | j :: rest =>
      match j.frames with
      | [] => State.runJobs ((s.setPort n { p with jobs := rest }).relEnd j.rel) n mismatches fuel
      | e :: es =>
        let s := s.setPort n { p with jobs := { j with frames := es } :: rest }
        match s.startFrame n e.1 e.2 2 mismatches with
        | (true, s) => s
        | (false, s) => State.runJobs (s.relDropped j.rel) n mismatches fuel

/-- Steps that the port's lists can take at most. -/
def Port.work (p : Port) : Nat := (p.jobs.map fun j => j.frames.length + 1).foldl (· + ·) 0 + 1

/-- Hand a list to a port: it starts now, or is late behind a frame or a list (R105). -/
def State.relStart (s : State) (n mismatches : Nat) (j : RelJob) : State :=
  let p := s.port n
  let idle := p.busy == 0 && p.jobs.isEmpty
  let s := s.setPort n { p with jobs := p.jobs ++ [j] }
  if idle then s.runJobs n mismatches (s.port n).work else (s.satCnt (F.SP_REL_LATE_COUNT n)).irq 109

/-- Both paths of Double-take have agreed for this frame (R103). -/
def State.agreed (s : State) (g : Nat) : Bool :=
  s.rd (F.DTAKE_VERDICT_VERDICT g) == 1 && find? s.dtake.frames g == some s.frame

/-- The earliest pre-issued list of a port. -/
def Port.firstRel (p : Port) : Option RelPre :=
  p.pre.foldl (fun a r => match a with
    | some x => if r.time < x.time then some r else a
    | none => some r) none

/-- A release goes out on the ports of its pair: it takes a number, each frame its sequence number where the pair is redundant, and each port its frames. -/
def State.relBegin (s : State) (n mismatches : Nat) (r : RelPre) (ds : List Nat) : State :=
  let id := s.ports.nextId
  let s := { s with ports.nextId := id + 1, ports.rels := s.ports.rels ++ [(⟨id, r.ticket, (s.relPorts n).length, false⟩ : RelOpen)] }
  let later := s.draw % 2 == 1
  let s := s.next
  let (seqs, s) := if s.redMode n = 0 then (ds.map fun _ => 0, s)
    else ds.foldl (fun acc _ => let q := acc.2.nextSeq (n / 2); (acc.1 ++ [q.1], q.2)) ([], s)
  (s.relPorts n).foldl (fun s k =>
    let (fr, s) := if later then s.fetchList k ds else ((if k = n then r.frames else r.frames2), s)
    s.relStart k mismatches { rel := id, frames := fr.zip seqs }) s

/-- The cue time of the port's earliest pre-issued list (R102, R103, R105). A buffer written after the pre-issue may or may not be in the frame sent. -/
def State.releaseStart (s : State) (n mismatches : Nat) : State :=
  match (s.port n).firstRel with
  | none => s
  | some r =>
    let s := s.reachST r.time
    let s := s.setPort n { s.port n with pre := (s.port n).pre.erase r }
    let ports := s.relPorts n
    match r.descs with
    | none =>
      let s := ports.foldl (fun s k => s.txDrop k txFETCH_ERR) s
      State.complete s.next r.ticket (s.draw % 2 == 1)
    | some ds =>
      if r.word.getLsbD 30 && !s.agreed (getBits r.word 29 26) then
        let s := (ports.foldl (fun s k => s.txDrop k txWITHHELD) s).irq 109
        State.complete s.next r.ticket (s.draw % 2 == 1)
      else
        s.relBegin n mismatches r ds

/-- A frame has left the port (R102, R105): a list goes on, a waiting list starts, or the port is idle. -/
def State.txEnd (s : State) (n mismatches : Nat) : State :=
  let p := s.port n
  if p.busy = 0 then s else (s.setPort n { p with busy := 0 }).runJobs n mismatches (p.work)

/-- Releases ended by a link that went down complete. -/
def State.relFlush (s : State) : State :=
  let l := s.ports.ended
  l.foldl (fun s id => (s.relDropped id).relEnd id) ({ s with ports.ended := [] } : State)

/-- CURTAIN (R105, R336): pre-issued and waiting lists are not sent and their frames are counted SUPPRESSED. -/
def State.egressCurtain (s : State) : State :=
  (List.range 4).foldl (fun s n =>
    let p := s.port n
    let k := (p.pre.map fun r => r.frames.length).foldl (· + ·) 0 + (p.jobs.map fun j => j.frames.length).foldl (· + ·) 0
    let k2 := (p.pre.map fun r => r.frames2.length).foldl (· + ·) 0
    let s := (List.range k).foldl (fun s _ => s.txDrop n txSUPPRESSED) s
    let s := (List.range k2).foldl (fun s _ => s.txDrop (otherPort n) txSUPPRESSED) s
    s.setPort n { p with pre := [], jobs := [] }) ({ s with ports.rels := [] } : State)

/-- The interval of supervision elapses (R95, R101): a frame of the pair leaves on both ports, tagged and under one number of its counter (R94), and the next interval starts. -/
def State.supSend (s : State) (p : Nat) : State :=
  let s := s.arm (.supSend p) (s.supTicks p)
  if s.mode = .curtain then s
  else
    let b := Config.supFrame (s.redMode (2 * p)) (s.portMac (2 * p)) s.draw
    let q := s.next.nextSeq p
    [2 * p, 2 * p + 1].foldl (fun s n => if s.linkUp n then s.emit n 1 (Config.redundant (s.redMode n) (n % 2) q.1 b) else s) q.2

/-! ## PTP (R106 to R109) -/

/-- State of a port: 1 = master, 2 = slave, 3 = passive. -/
def State.ptpState (s : State) (n : Nat) : Nat := s.rd F.SWITCH_PTP_PORT_STATE / 4 ^ n % 4

/-- The PTP engine runs on the port. -/
def State.ptpOn (s : State) (n : Nat) : Bool := s.flag F.SWITCH_PTP_CFG_EN && s.linkUp n && s.ptpState n != 0 && s.mode != .curtain

/-- A Sync on the slave port with its origin time and correction gives an offset sample (R106); `corr` is in units of 2^-16 ns. -/
def State.ptpSync (s : State) (n frac domain sec ns : Nat) (corr : Int) : State :=
  if s.ptpOn n && s.ptpState n == 2 && domain == s.rd F.SWITCH_PTP_CFG_DOMAIN then
    let src : Int := (sec * 1000000000 + ns : Nat) * 128 + corr / 512 + (if corr % 512 ≠ 0 ∧ s.draw % 2 = 1 then 1 else 0)
      + s.rd F.SWITCH_PTP_STAT_PATH_DELAY
    let e : Int := s.arrival n frac - src
    let s := ((s.next.wrap F.SWITCH_PTP_STAT_SAMPLES).irq 104).deliverSample srcPTP e
    s.arm .syncTimeout (3 * s.syncTicks)
  else s

/-- The PTP form of a timestamp (R108): seconds and nanoseconds, as PTP messages carry them. -/
def ptpStamp (x : Nat) : List Byte := beBytes 6 (x / 256 / 500000000) ++ beBytes 4 (2 * (x / 256 % 500000000) + x % 256 / 128)

/-- The remainder of a timestamp for correctionField, in units of 2^-16 ns (R108). -/
def ptpRest (x : Nat) : Int := (x % 128 * 512 : Nat)

/-- A port's identity in PTP: the clock identity made of port 0's MAC address, and the port number. -/
def State.ptpIdentity (s : State) (n : Nat) : List Byte :=
  let mac := beBytes 6 (s.portMac 0)
  mac.take 3 ++ [0xFF#8, 0xFE#8] ++ mac.drop 3 ++ beBytes 2 (n + 1)

/-- A PTP message of type `ty` as it leaves port `n` without FCS: the two addresses of R106, EtherType 0x88F7, the header of IEEE 1588 with the domain of SWITCH_PTP_CFG and `corr` in
correctionField, and its body. Mark: PRESUMED (log 151). -/
def State.ptpFrame (s : State) (n ty : Nat) (twoStep : Bool) (corr : Int) (seq log : Nat) (body : List Byte) : List Byte :=
  let dst := if ty = 2 ∨ ty = 3 ∨ ty = 10 then 0x0180C200000E else 0x011B19000000
  let ctl := if ty = 0 then 0 else if ty = 8 then 2 else 5
  let b := beBytes 6 dst ++ beBytes 6 (s.portMac n) ++ beBytes 2 0x88F7 ++ beBytes 1 ty ++ beBytes 1 0x12 ++ beBytes 2 (34 + body.length)
    ++ beBytes 1 (s.rd F.SWITCH_PTP_CFG_DOMAIN) ++ beBytes 1 0 ++ beBytes 1 (if twoStep then 2 else 0) ++ beBytes 1 8 ++ beBytes 8 (corr % 2 ^ 64).toNat
    ++ beBytes 4 0 ++ s.ptpIdentity n ++ beBytes 2 seq ++ beBytes 1 ctl ++ beBytes 1 log ++ body
  if b.length < 60 then padTo 60 b else b

/-- A frame that the port originates leaves, with the tag or trailer and the next number of a redundant pair (R94), and is counted. -/
def State.originate (s : State) (n kind : Nat) (b : List Byte) : State :=
  if s.redMode n = 0 then s.emit n kind b
  else
    let q := s.nextSeq (n / 2)
    q.2.emit n kind (Config.redundant (s.redMode n) (n % 2) q.1 b)

/-- The Sync interval of a master port elapses: it sends Sync, and Follow_Up when two-step (R106), and the next interval starts. -/
def State.ptpSendSync (s : State) (n frac : Nat) : State :=
  let s := s.arm (.syncSend n) s.syncTicks
  if s.ptpOn n && s.ptpState n == 1 then
    let t := s.departure n frac
    let seq := (s.port n).syncSeq
    let s := s.setPort n { s.port n with syncSeq := (seq + 1) % 65536 }
    let log := 240 + s.rd F.SWITCH_PTP_CFG_LOG_SYNC
    let log := if s.rd F.SWITCH_PTP_CFG_LOG_SYNC = 0 then 0 else log
    if s.flag F.SWITCH_PTP_CFG_ONE_STEP then s.originate n 2 (s.ptpFrame n 0 false (ptpRest t) seq log (ptpStamp t))
    else
      (s.originate n 2 (s.ptpFrame n 0 true 0 seq log (List.replicate 10 0#8))).originate n 3 (s.ptpFrame n 8 false (ptpRest t) seq log (ptpStamp t))
  else s

/-- The port measures its link: Pdelay_Req leaves. -/
def State.pdelayReq (s : State) (n frac : Nat) : State :=
  if s.ptpOn n then
    let seq := (s.port n).reqSeq
    (s.setPort n { s.port n with t1 := some (s.departure n frac), reqSeq := (seq + 1) % 65536 }).originate n 4
      (s.ptpFrame n 2 false 0 seq 127 (List.replicate 20 0#8))
  else s

/-- A Pdelay_Req of the domain is answered with its receive and transmit times, in one step or two. `asker` is the identity of the asking port and the sequence number of its request;
the answer leaves `turnaround` units of 7.8125 ps after the request. -/
def State.pdelayAnswer (s : State) (n rxFrac domain : Nat) (asker : List Byte) (turnaround : Nat) : State :=
  if s.ptpOn n && domain == s.rd F.SWITCH_PTP_CFG_DOMAIN then
    let t2 := s.arrival n rxFrac
    let t3 := (s.departure n rxFrac) + turnaround
    let seq := beNat (sliceB asker 10 2)
    let who := padTo 10 asker
    if s.flag F.SWITCH_PTP_CFG_ONE_STEP then s.originate n 5 (s.ptpFrame n 3 false (((t3 : Int) - t2) * 512) seq 127 (List.replicate 10 0#8 ++ who))
    else
      (s.originate n 5 (s.ptpFrame n 3 true (-ptpRest t2) seq 127 (ptpStamp t2 ++ who))).originate n 6
        (s.ptpFrame n 10 false (ptpRest t3) seq 127 (ptpStamp t3 ++ who))
  else s

/-- A Pdelay_Resp of the domain updates the mean link delay: half the round trip less the responder's turnaround. A delay that does not fit the field is free. -/
def State.pdelayResp (s : State) (n frac domain : Nat) (turnaround : Int) : State :=
  match (s.port n).t1 with
  | none => s
  | some t1 =>
    if s.ptpOn n && domain == s.rd F.SWITCH_PTP_CFG_DOMAIN then
      let d : Int := ((s.arrival n frac : Int) - t1 - turnaround) / 2
      let v := if 0 ≤ d ∧ d < 16777216 then d.toNat else s.draw % 16777216
      let s := s.next.setPort n { s.port n with t1 := none, delay := v }
      if s.ptpState n = 2 then s.wr F.SWITCH_PTP_STAT_PATH_DELAY v else s
    else s

/-- The slave port while the PTP engine runs. -/
def State.ptpSlave (s : State) : Option Nat := if s.flag F.SWITCH_PTP_CFG_EN then (List.range 4).find? fun n => s.ptpState n == 2 else none

/-- After a write to the PTP engine's registers (R106, R109): a port that has become the slave must hear a Sync within three intervals, and a port that has become a master sends one each
interval; `was` is the slave before the write. -/
def State.ptpWatch (s : State) (was : Option Nat) : State :=
  let s := if s.ptpSlave.isNone then s.disarm .syncTimeout else if s.ptpSlave = was then s else s.arm .syncTimeout (3 * s.syncTicks)
  (List.range 4).foldl (fun s n =>
    if s.flag F.SWITCH_PTP_CFG_EN && s.ptpState n == 1 then (if s.armed (.syncSend n) then s else s.arm (.syncSend n) s.syncTicks)
    else s.disarm (.syncSend n)) s

/-- A write of SWITCH_PTP_PORT: two slaves are refused (R109). -/
def State.ptpPortWrite (s : State) (w : Word) : State :=
  let v := getBits w 7 0
  if 2 ≤ ((List.range 4).filter fun n => v / 4 ^ n % 4 == 2).length then s.sat (F.BLOCK_REFUSED_LIVE_WRITES Base.SWITCH)
  else
    let was := s.ptpSlave
    let s := s.wr F.SWITCH_PTP_PORT_STATE v
    let s := match (List.range 4).find? fun n => v / 4 ^ n % 4 == 2 with
      | some n => s.wr F.SWITCH_PTP_STAT_PATH_DELAY (s.port n).delay
      | none => s
    s.ptpWatch was

end Sys2Proof.Machine
end

