-- ==== Sys2Proof/Machine/Badge.lean ====
section
/-! DEFINITION. The badge port (R429 to R446): reader operations and pings, the tag's field sessions, the mailbox journal, host commits of the status summary. -/

namespace Sys2Proof.Machine

/-- Channels of the badge port: the reader's carrier and the tag's answers. -/
abbrev chanReader : Nat := 8
/-- The tag. -/
abbrev chanTag : Nat := 9

/-! ## Reader (R430 to R434) -/

/-- Reader statuses (BADGE_RD_STAT). -/
abbrev rdDONE : Nat := 0
/-- EXT_FIELD. -/
abbrev rdEXT : Nat := 4
/-- PROTOCOL. -/
abbrev rdPROTOCOL : Nat := 5
/-- WRONG_MODE. -/
abbrev rdMODE : Nat := 6

/-- Reader operations (R433). -/
abbrev rdFIELD_ON : Nat := 1
/-- FIELD_OFF. -/
abbrev rdFIELD_OFF : Nat := 2
/-- ACTIVATE. -/
abbrev rdACTIVATE : Nat := 3
/-- EXCHANGE. -/
abbrev rdEXCHANGE : Nat := 4
/-- DESELECT. -/
abbrev rdDESELECT : Nat := 5

/-- Two seconds of carrier without an operation. -/
def carrierTicks : Nat := 2 * ticksPerSecond

/-- Switch the carrier. -/
def State.setCarrier (s : State) (on : Bool) : State :=
  if s.badge.carrier = on then s else ({ s with badge.carrier := on } : State).send chanReader (b2n on) []

/-- An operation ends with a status: source 176. -/
def State.readerEnd (s : State) (st : Nat) : State :=
  let s : State := { s with badge.op := none }
  let s := ((s.wr F.BADGE_RD_STAT_BUSY 0).wr F.BADGE_RD_STAT_STATUS st).irq 176
  if s.badge.carrier then s.arm .carrier carrierTicks else s

/-- May the reader run (R431, R467)? -/
def State.readerOk (s : State) : Bool := s.flag F.BADGE_CFG_READER_EN && s.mode != .curtain && s.badge.vdd

/-- What an EXCHANGE of `len` bytes sends. -/
def State.sentToCard (s : State) (len : Nat) : List Byte := (List.range len).map fun i => look (fun _ => 0#8) s.badge.tx i

/-- A write of BADGE_RD_CTRL: GO starts OP, one operation at a time. FIELD_ON gives the card 5 ms. -/
def State.readerGo (s : State) (w : Word) : State :=
  let old := s.reg A.BADGE_RD_CTRL
  let len := if 256 < getBits w 8 0 then getBits old 8 0 else getBits w 8 0
  let s := s.setReg A.BADGE_RD_CTRL (setBits (w &&& 0x7C0001FF#32) 8 0 len)
  if !w.getLsbD 31 || s.badge.op.isSome then s
  else
    let op := getBits w 30 28
    let s := (s.disarm .carrier).disarm .cardPower
    if !s.readerOk then s.readerEnd rdMODE
    else if s.flag F.BADGE_STAT_EXT_FIELD then s.readerEnd rdEXT
    else if op = 0 ∨ 5 < op then s.readerEnd rdPROTOCOL
    else
      let s := { s.wr F.BADGE_RD_STAT_BUSY 1 with badge.op := some op }
      let s := if op = rdFIELD_ON then (s.setCarrier true).arm .cardPower (5 * ticksPerMs) else s
      if op = rdEXCHANGE then s.send chanReader op (s.sentToCard len) else s

/-- The carrier is switched off after 2 s without an operation. -/
def State.carrierIdle (s : State) : State := s.setCarrier false

/-- A reader that may no longer run ends its operation with WRONG_MODE and its carrier goes off (R431, R467). -/
def State.readerStop (s : State) : State :=
  let s := if s.badge.op.isSome then s.readerEnd rdMODE else s
  (s.setCarrier false).disarm .carrier

/-- A detuning ping of amplitude `amp` (R432): it triggers when it differs from the mean of the last 8 that did not by PING_THRESH × 0.5 % or more. The next follows PING_MS × 10 ms later. -/
def State.ping (s : State) (amp : Nat) : State :=
  if !s.flag F.BADGE_CFG_PING_EN || !s.readerOk || s.flag F.BADGE_STAT_EXT_FIELD || s.badge.op.isSome then s
  else
    let s := ((s.fire .pingHold id).fire .ping id).arm .ping (max 1 (s.rd F.BADGE_CFG_PING_MS) * (10 * ticksPerMs))
    let n := s.badge.pings.length
    let sum := s.badge.pings.foldl (· + ·) 0
    let diff := if amp * n < sum then sum - amp * n else amp * n - sum
    if n ≠ 0 ∧ sum * max 1 (s.rd F.BADGE_CFG_PING_THRESH) ≤ diff * 200 then (s.wr F.BADGE_STAT_CARD 1).irq 176
    else { s with badge.pings := (amp :: s.badge.pings).take 8 }

/-! ## Host commits (R444, R445) -/

/-- Pages of a summary of 3,629 bytes. -/
def summaryPages : Nat := 227

/-- The generation record in force. -/
def State.tagGen (s : State) : TagGen := if s.badge.g1.gen < s.badge.g0.gen then s.badge.g0 else if s.badge.g0.gen < s.badge.g1.gen then s.badge.g1 else s.badge.g0

/-- First page of a copy of the summary. -/
def copyPage (c : Nat) : Nat := if c = 0 then 1024 else 1280

/-- The copy a commit programs. -/
def State.idleCopy (s : State) : Nat := 1 - s.tagGen.copy

/-- A page takes 100 µs. -/
def tagPageTicks : Nat := 50000

/-- Pages programmed by now. -/
def State.tagProgress (s : State) : Nat :=
  if s.flag F.BADGE_TS_STAT_PENDING && !s.flag F.BADGE_TS_STAT_PAUSED then min summaryPages (s.badge.done + (s.now - s.badge.since) / tagPageTicks) else s.badge.done

/-- Put bytes into the tag store. -/
def State.tagPoke (s : State) (page : Nat) (bs : List Byte) : State :=
  { s with badge.store := (List.range bs.length).foldl (fun m i => put (fun _ => 0#8) m (page * 16 + i) (bs.getD i 0)) s.badge.store }

/-- A stored page. -/
def State.tagPeek (s : State) (page : Nat) : List Byte := (List.range 16).map fun i => look (fun _ => 0#8) s.badge.store (page * 16 + i)

/-- Bring the inactive copy to what has been programmed by now. -/
def State.tagSync (s : State) : State :=
  let n := s.tagProgress
  let b := copyPage s.idleCopy
  let s := (List.range (n - s.badge.done)).foldl (fun s i =>
    let p := s.badge.done + i
    s.tagPoke (b + p) ((List.range 16).map fun k => look (fun _ => 0#8) s.badge.staging (16 * p + k))) s
  ({ s with badge.since := s.badge.since + (n - s.badge.done) * tagPageTicks, badge.done := n } : State).wr F.BADGE_TS_STAT_PROGRESS n

/-- Is the copy a commit would program held by a field session? -/
def State.copyHeld (s : State) : Bool := s.badge.latched == some s.idleCopy

/-- A write of BADGE_TS_COMMIT: ABORT, then GO. -/
def State.tsCommit (s : State) (w : Word) : State :=
  let s := s.tagSync
  let s := if w.getLsbD 30 && s.flag F.BADGE_TS_STAT_PENDING then (s.wr F.BADGE_TS_STAT_PENDING 0).wr F.BADGE_TS_STAT_PAUSED 0 else s
  if !w.getLsbD 31 then s
  else if s.flag F.BADGE_TS_STAT_PENDING then (s.wr F.BADGE_TS_STAT_REFUSED 1).irq 178
  else
    let s := ((s.wr F.BADGE_TS_STAT_PENDING 1).wr F.BADGE_TS_STAT_PROGRESS 0).wr F.BADGE_TS_STAT_PAUSED (b2n s.copyHeld)
    { s with badge.newMax := getBits w 15 0, badge.done := 0, badge.since := s.now }

/-- Is the field idle or absent: no exchange for 1 ms? -/
def State.fieldQuiet (s : State) : State := if s.badge.field then s.fire .fieldIdle id else s

/-- A paused commit resumes. -/
def State.tsResume (s : State) : State :=
  if s.flag F.BADGE_TS_STAT_PENDING && s.flag F.BADGE_TS_STAT_PAUSED && !s.copyHeld then
    let s := s.fieldQuiet.wr F.BADGE_TS_STAT_PAUSED 0
    { s with badge.since := s.now }
  else s

/-! ## The status summary (R438, R439) -/

/-- The serial in 16 bytes. -/
def serial16 : List Byte := padTo 16 Config.serial

/-- The image slot of a KIND. -/
def State.img (s : State) (k : Nat) : Img := look (fun _ => Img.none) s.desk.images k

/-- Replace an image slot. -/
def State.setImg (s : State) (k : Nat) (x : Img) : State := { s with desk.images := put (fun _ => Img.none) s.desk.images k x }

/-- KIND of the act that runs: the early act until the start has settled, then the full act that was used (R401, R407). -/
def State.actKind (s : State) : Nat := if s.flag F.SYS_BOOT_EARLY_OK || s.rd F.SYS_BOOT_STAGE != 6 then 0 else 1 + s.rd F.SYS_BOOT_FULL_SLOT

/-- The SHA-384 digests of the active act, configuration and cue table. -/
def State.idDigests (s : State) : List Byte := padTo 48 (s.img s.actKind).digest ++ beBytes 48 s.cfg ++ padTo 48 (s.img 4).digest

/-- The challenge as 32 bytes: byte 4k + i is byte i of CURTAIN_CHAL_k. Mark: DESIGN CHOICE (log 88). -/
def State.challenge (s : State) : List Byte := (List.range 8).flatMap fun k => leBytes 4 (s.reg (A.CURTAIN_CHAL k)).toNat

/-- A register's word, most significant byte first. -/
def State.beReg (s : State) (a : Nat) : List Byte := beBytes 4 (s.reg a).toNat

/-- The first 256 bytes of a status summary (R438). -/
def State.summaryBody (s : State) : List Byte :=
  beBytes 4 0x564E5355 ++ beBytes 4 0x01000000 ++ serial16 ++ s.beReg A.SYS_STATE ++ s.beReg A.SYS_BOOT ++ beBytes 8 s.now
    ++ s.beReg A.REFUGE_STAT ++ s.beReg A.CURTAIN_STAT ++ s.beReg A.CURTAIN_HIST ++ (if s.mode = .curtain then s.challenge else List.replicate 32 0#8)
    ++ s.beReg A.UNDERSTUDY_HEALTH ++ s.idDigests ++ beBytes 4 (s.badge.lastBadge.getD 0xFFFFFFFF) ++ List.replicate 20 0#8

/-- A signature of `n` bytes over `m` with key register `j`, by the Massif operation `op`. -/
def State.summarySign (s : State) (op j n : Nat) (m : List Byte) : List Byte :=
  padTo n (Config.pkOut op (((find? s.massif.keys j).map (·.bytes)).getD []) m [] s.draw)

/-- A whole summary: 3,629 bytes, the ECDSA P-256 and the ML-DSA-65 signature over its first 256 (R438). -/
def State.summaryImage (s : State) : List Byte :=
  s.summaryBody ++ s.summarySign 0x10 3 64 s.summaryBody ++ s.next.summarySign 0x29 4 3309 s.summaryBody

/-- The Stage Manager commits the summary it owes, once it runs, has its keys and no commit is pending (R439, R444). Mark: DEDUCED (log 146). -/
def State.summaryTry (s : State) : State :=
  if s.badge.summaryDue && s.desk.running && !s.flag F.BADGE_TS_STAT_PENDING && (find? s.massif.keys 3).isSome && (find? s.massif.keys 4).isSome then
    let m := s.summaryImage
    State.tsCommit { s.next.next with
      badge.staging := (List.range m.length).foldl (fun l i => put (fun _ => 0#8) l i (m.getD i 0)) []
      badge.summaryDue := false } (BitVec.ofNat 32 (2 ^ 31 + s.tagGen.mbMax))
  else s

/-- An event after which the Stage Manager commits a new summary (R439): settlement, a mode change, a new challenge, an authenticated badge. Mark: DEDUCED (log 146). -/
def State.summaryOwed (s : State) : State := State.summaryTry { s with badge.summaryDue := true }

/-- The generation flips once every page is programmed and the field is idle or absent (R444): the older record takes GEN + 1. -/
def State.tsFlip (s : State) : State :=
  if s.flag F.BADGE_TS_STAT_PENDING && !s.flag F.BADGE_TS_STAT_PAUSED then
    let s := (s.fieldQuiet.reachST (s.badge.since + (summaryPages - s.badge.done) * tagPageTicks)).tagSync
    if s.tagProgress < summaryPages then s
    else
      let g := s.tagGen
      let n : TagGen := { gen := g.gen + 1, copy := s.idleCopy, mbMax := s.badge.newMax, mbWr := s.flag F.BADGE_CFG_MB_WR }
      let s : State := if s.badge.g0.gen ≤ s.badge.g1.gen ∧ g = s.badge.g1 ∧ s.badge.g0 ≠ s.badge.g1 then { s with badge.g0 := n }
        else if g = s.badge.g0 then { s with badge.g1 := n } else { s with badge.g0 := n }
      ((s.wr F.BADGE_TS_STAT_PENDING 0).irq 178).summaryTry
  else s

/-- The running operation ends with a status and what it received; `auth` tells that the Stage Manager took the reply as a badge's answer to a challenge (R433, R434). -/
def State.readerDone (s : State) (st : Nat) (rx : List Byte) (auth : Bool) : State :=
  match s.badge.op with
  | none => s
  | some op =>
    let ok := st == rdDONE
    let s := if op = rdFIELD_ON then s.fire .cardPower id else s
    let s := if op = rdFIELD_OFF ∨ op = rdDESELECT then s.setCarrier false else s
    let s := if ok && op == rdACTIVATE then
        s.wr F.BADGE_RD_STAT_RATE (min (s.rd F.BADGE_RD_CTRL_RATE) (s.rd F.BADGE_CFG_RATE_MAX)) else s
    let rx := rx.take 256
    let s := if ok && (op == rdACTIVATE || op == rdEXCHANGE) then
        ({ s with badge.rx := rx } : State).wr F.BADGE_RD_STAT_RX_LEN rx.length else s
    let s := s.readerEnd st
    if ok && op == rdEXCHANGE && auth then
      match Config.badgeEntry s.cfg (s.sentToCard (s.rd F.BADGE_RD_CTRL_LEN) ++ serial16) rx with
      | some e => (State.post { s with badge.lastBadge := some e } 0xD004 3 19 [e]).summaryOwed
      | none => s.post 0xD005 5 19 []
    else s

/-! ## The tag in the field (R429, R440 to R443) -/

/-- An exchange in the field pauses a commit that programs; the field is idle 1 ms after it. -/
def State.exchange (s : State) : State :=
  let s := if s.flag F.BADGE_TS_STAT_PENDING && !s.flag F.BADGE_TS_STAT_PAUSED && decide (s.tagProgress < summaryPages) then
      s.tagSync.wr F.BADGE_TS_STAT_PAUSED 1 else s
  s.arm .fieldIdle ticksPerMs

/-- The tag answers in a field of another reader: it is powered, and this device's own reader field is off (R430). -/
def State.tagAnswers (s : State) : Bool := s.badge.tag != 0 && !s.badge.carrier && !s.badge.silent

/-- The tag sends an answer. -/
def State.tagSend (s : State) (bs : List Byte) : State := s.exchange.send chanTag 0 bs

/-- Set the protocol state. -/
def State.setTag (s : State) (t : Nat) : State := { s with badge.tag := t }

/-- A field session ends: source 177. -/
def State.sessionEnd (s : State) : State :=
  if s.badge.latched.isSome then ({ s.wr F.BADGE_STAT_SESSION 0 with badge.latched := none } : State).irq 177 else s

/-- REQA: ATQA 0x0044. Mark: PRESUMED (log 54). -/
def State.reqa (s : State) : State := if s.tagAnswers && s.badge.tag == 1 then ({ s.setTag 2 with badge.level := 0 } : State).tagSend [0x44#8, 0x00#8] else s

/-- WUPA also wakes a tag that was deselected. -/
def State.wupa (s : State) : State :=
  if s.tagAnswers && (s.badge.tag == 1 || s.badge.tag == 5) then ({ s.setTag 2 with badge.level := 0 } : State).tagSend [0x44#8, 0x00#8] else s

/-- The UID: the first seven bytes of the header pages. -/
def State.uid (s : State) : List Byte := (s.tagPeek 0).take 7

/-- What the tag sends in anticollision at a cascade level: cascade tag and UID bytes, with their exclusive-or. -/
def State.uidPart (s : State) (level : Nat) : List Byte :=
  let b := if level = 0 then 0x88#8 :: s.uid.take 3 else s.uid.drop 3
  b ++ [b.foldl (· ^^^ ·) 0#8]

/-- Anticollision. Mark: PRESUMED (log 54). -/
def State.anticollision (s : State) : State := if s.tagAnswers && s.badge.tag == 2 then s.tagSend (s.uidPart s.badge.level) else s

/-- SELECT with a cascade level's bytes: SAK 0x20 once the UID is complete. -/
def State.tagSelect (s : State) (bs : List Byte) : State :=
  if s.tagAnswers && s.badge.tag == 2 then
    if bs ≠ (s.uidPart s.badge.level).take 4 then s.setTag 1
    else if s.badge.level = 0 then ({ s with badge.level := 1 } : State).tagSend [0x04#8]
    else (s.setTag 3).tagSend [0x20#8]
  else s

/-- RATS: the ATS (FSCI 8, 106 kbit/s only, FWI 3, SFGI 0, no CID, no NAD); a session opens on the active generation (R440). Mark: PRESUMED (log 54). -/
def State.rats (s : State) : State :=
  if s.tagAnswers && s.badge.tag == 3 then
    let s := { (s.setTag 4).wr F.BADGE_STAT_SESSION 1 with badge.latched := some s.tagGen.copy }
    (s.irq 177).tagSend [0x05#8, 0x78#8, 0x00#8, 0x30#8, 0x00#8]
  else s

/-- PPS at 106 kbit/s. -/
def State.tagPps (s : State) : State := if s.tagAnswers && s.badge.tag == 4 then s.tagSend [0xD0#8] else s

/-- HLTA: the session ends and the tag keeps silent for 2.0 to 2.4 s (R442); how long within that is free. -/
def State.hlta (s : State) : State :=
  if s.tagAnswers && decide (2 ≤ s.badge.tag) then
    let s := { (s.sessionEnd.setTag 1).wr F.BADGE_STAT_HALTED 1 with badge.silent := true }
    s.next.arm .haltSilence (2 * ticksPerSecond + s.draw % 200000001)
  else s

/-- The silence ends: the tag is idle. -/
def State.silenceEnd (s : State) : State :=
  if s.badge.silent then { (s.reachST (if s.armed .haltSilence then s.dueAt .haltSilence else 0)).wr F.BADGE_STAT_HALTED 0 with badge.silent := false } else s

/-- DESELECT ends the session. -/
def State.tagDeselect (s : State) : State := if s.tagAnswers && s.badge.tag == 4 then (s.sessionEnd.setTag 5).tagSend [0xC2#8] else s

/-- The field disappears. -/
def State.fieldLoss (s : State) : State :=
  let s : State := { s.sessionEnd.disarm .fieldIdle with badge.field := false }
  s.setTag (if s.badge.vdd then 1 else 0)

/-- An external field appears or disappears: no carrier is emitted while it is there, a reader operation ends with EXT_FIELD, and pings wait (R430, R432). Mark: DEDUCED (log 162). -/
def State.fieldChange (s : State) (present : Bool) : State :=
  let s : State := { s.wr F.BADGE_STAT_EXT_FIELD (b2n present) with badge.field := present }
  if present then
    let s := if s.badge.op.isSome then s.readerEnd rdEXT else s
    (s.setCarrier false).disarm .carrier
  else s.arm .pingHold (100 * ticksPerMs)

/-- What a page reads as (R436). -/
def State.tagPage (s : State) (p : Nat) : List Byte :=
  if p = 4 then Config.tagRecord 4 [s.badge.g0.gen, s.badge.g0.copy, s.badge.g0.mbMax, b2n s.badge.g0.mbWr]
  else if p = 5 then Config.tagRecord 5 [s.badge.g1.gen, s.badge.g1.copy, s.badge.g1.mbMax, b2n s.badge.g1.mbWr]
  else if p = 6 then (if s.power then Config.tagRecord 6 [1, (s.reg A.SYS_STATE).toNat, (s.reg A.SYS_BOOT).toNat] else List.replicate 16 0#8)
  else if p = 24 then Config.tagRecord 24 [s.badge.mbCount]
  else if p = 7 ∨ (88 ≤ p ∧ p < 256) then List.replicate 16 0#8
  else if 8 ≤ p ∧ p < 24 then
    match look noneAt s.badge.slots ((p - 8) / 8) with
    | some t => Config.tagRecord p ([t.dest, t.data.length, t.count, t.seq] ++ t.data.map (·.toNat))
    | none => Config.tagRecord p []
  else s.tagPeek p

/-- READ of pages from the field (R441): status, then the pages. -/
def State.tagRead (s : State) (p n : Nat) : State :=
  if s.tagAnswers && s.badge.tag == 4 then
    let ps := (List.range n).map (p + ·)
    let idle := copyPage (1 - s.badge.latched.getD 0)
    let bad := n = 0 ∨ 15 < n ∨ ps.any fun q => decide (1536 ≤ q) || (decide (8 ≤ q) && decide (q < 24)) || (decide (idle ≤ q) && decide (q < idle + 256))
    if bad then s.tagSend [0x01#8]
    else if ps.any s.badge.badPages.contains then (s.irq 179).tagSend [0x05#8]
    else s.tagSend (0x00#8 :: ps.flatMap s.tagPage)
  else s

/-- A slot's data go home: mailbox pages, then MB_COUNT; the marker is cleared (R443, steps 4 and 5). -/
def State.slotHome (s : State) (k : Nat) (t : TagSlot) : State :=
  let s := s.tagPoke t.dest t.data
  { s with badge.mbCount := t.count, badge.slots := put noneAt s.badge.slots k none }

/-- A mailbox write is booked with MB_COUNT (R446). -/
def State.mailBooked (s : State) : State := (s.irq 177).post 0xD006 3 19 [s.badge.mbCount]

/-- The journal's slot for the next write: the one whose marker is clear, alternating when both are. -/
def State.freeSlot (s : State) : Nat :=
  if (look noneAt s.badge.slots s.badge.nextSlot).isNone then s.badge.nextSlot else 1 - s.badge.nextSlot

/-- WRITE_MB (R441, R443): `strong` tells of a field of 2.0 A/m; `lost` is the step in which the field collapses, 0 where it does not; in step 3 the marker is torn or complete, which is free. With VDD_BADGE present a write that has
begun goes on (R445). Mark: DEDUCED (log 56). -/
def State.writeMb (s : State) (p n : Nat) (data : List Byte) (strong : Bool) (lost : Nat) : State :=
  if s.tagAnswers && s.badge.tag == 4 then
    let g := s.tagGen
    if lost = 1 then s.fieldLoss
    else if !strong then (s.irq 179).tagSend [0x02#8]
    else if n = 0 ∨ 4 < n ∨ p < 25 ∨ 88 < p + n ∨ data.length ≠ 16 * n then s.tagSend [0x01#8]
    else if !g.mbWr then s.tagSend [0x04#8]
    else if g.mbMax ≤ s.badge.mbCount then s.tagSend [0x03#8]
    else
      let k := s.freeSlot
      let t : TagSlot := { dest := p, data, count := s.badge.mbCount + 1, seq := s.badge.slotSeq + 1 }
      let cut := if s.badge.vdd then 0 else lost
      let torn := cut = 2 ∨ cut = 3 ∧ s.draw % 2 = 0
      let s := if cut = 3 then s.next else s
      if torn then s.fieldLoss
      else
        let s : State := { s with badge.slots := put noneAt s.badge.slots k (some t), badge.slotSeq := t.seq, badge.nextSlot := 1 - k }
        let s := if lost = 2 ∨ lost = 3 then s else s.tagSend [0x00#8]
        if cut = 3 ∨ cut = 4 ∨ cut = 5 then s.fieldLoss
        else
          let s := (s.slotHome k t).mailBooked
          if lost = 0 then s else s.fieldLoss
  else s

/-- A valid slot rolls forward at power-up: the page goes to its home (R443). -/
def State.slotRedo (s : State) (k : Nat) : State :=
  match look noneAt s.badge.slots k with
  | some t => ((s.slotHome k t).sat F.BADGE_STAT_RECOVERIES).irq 179 |>.mailBooked
  | none => s

/-- The tag domain powers up, from VDD_BADGE or from the field (R443): valid slots roll forward, lower sequence first. -/
def State.tagPowerUp (s : State) (supply : Bool) : State :=
  let s : State := if supply then { s with badge.vdd := true } else { s with badge.field := true }
  let seqOf : Nat → Nat := fun k => ((look noneAt s.badge.slots k).map (·.seq)).getD 0
  let s := if seqOf 1 < seqOf 0 then (s.slotRedo 1).slotRedo 0 else (s.slotRedo 0).slotRedo 1
  if s.badge.tag = 0 then s.setTag 1 else s

/-- VDD_BADGE is absent (R467): the reader's operations end, the tag runs from the field or powers down. -/
def State.badgeSupplyLoss (s : State) : State :=
  let s := ({ s with badge.vdd := false } : State).readerStop
  if s.badge.field then s else s.sessionEnd.setTag 0

/-- A read of BADGE_STAT clears RECOVERIES. -/
def State.badgeStatRead (s : State) : Word × State := (s.reg A.BADGE_STAT, s.wr F.BADGE_STAT_RECOVERIES 0)

/-- A main-domain reset or a power failure: reader, buffers and a pending commit are lost; store and tag stay. -/
def Badge.resetMain (b : Badge) : Badge :=
  { b with staging := [], newMax := 0, done := 0, since := 0, tx := [], rx := [], carrier := false, op := none, pings := [], lastBadge := none }

end Sys2Proof.Machine
end

