-- ==== Sys2Proof/Machine/Bedrock.lean ====
section
/-! DEFINITION. Bedrock flash commands (R360 to R369): arming a command page, checks, starts, ends, interruptions, patrol. -/

namespace Sys2Proof.Machine

/-! ## Arming (R360) -/

/-- Unlock progress of page `n`. -/
def State.brkArmed (s : State) (n : Nat) : Nat := look (fun _ => 0) s.brk.armed n

/-- Set the unlock progress. -/
def State.setArmed (s : State) (n v : Nat) : State := { s with brk.armed := put (fun _ => 0) s.brk.armed n v }

/-- A write of BRK_UNLOCK: the two unlock words arm the page for 1 ms; any other value disarms it. -/
def State.brkUnlock (s : State) (n : Nat) (w : Word) : State :=
  if w = 0x0000A5F0#32 then (s.setArmed n 1).disarm (.brkArm n)
  else if w = 0x00000F5A#32 ∧ s.brkArmed n = 1 then (s.setArmed n 2).arm (.brkArm n) ticksPerMs
  else (s.setArmed n 0).disarm (.brkArm n)

/-- Another access to the page between the unlock words breaks them. Mark: DEDUCED (log 76). -/
def State.brkTouch (s : State) (n : Nat) : State := if s.brkArmed n = 1 then s.setArmed n 0 else s

/-- The page disarms. Mark: DEDUCED (log 76). -/
def State.brkDisarm (s : State) (n : Nat) : State := (s.setArmed n 0).disarm (.brkArm n)

/-! ## Checks (R362) -/

/-- State of a page: 0 EMPTY, 1 DONE, 2 TORN. -/
def State.pageState (s : State) (a : Nat) : Nat := look (fun _ => 0) s.brk.pages a

/-- Set the state of a page. -/
def State.setPage (s : State) (a st : Nat) : State := { s with brk.pages := put (fun _ => 0) s.brk.pages a st }

/-- The bank of a core's latest instruction fetch as BRK_FETCH shows it (R363): 0 none, 1 B0, 2 B1. -/
def State.fetchBank (s : State) (n : Nat) : Nat := s.rd ⟨A.BRK_FETCH, 2 * n + 1, 2 * n⟩

/-- Record the bank of a fetch. -/
def State.setFetchBank (s : State) (n a : Nat) : State :=
  s.wr ⟨A.BRK_FETCH, 2 * n + 1, 2 * n⟩ (if inBedrock a && codeBank (bedBank a) then bedBank a + 1 else 0)

/-- Check 5: alignment and page states. -/
def State.brkParamOk (s : State) (op a : Nat) : Bool :=
  let b := bedBank a
  inBedrock a &&
    if op = opPROGRAM then
      a % pageLen b == 0 && s.pageState a == 0 && (codeBank b || a / pageLen b % 2 == 0 || s.pageState (a - pageLen b) == 1)
    else if op = opSAFE then a % (2 * pageLen b) == 0 && s.pageState a == 0 && s.pageState (a + pageLen b) == 0
    else a % blockLen b == 0

/-- The checks of R362 after the first, in order: the status, ACCEPTED where all pass. -/
def State.brkCheck (s : State) (m op a : Nat) : Nat :=
  if op = 0 ∨ 5 < op then scBAD_OPCODE
  else if s.mode = .curtain ∧ m ≠ 8 then scCURTAINED
  else if inBedrock a ∧ codeBank (bedBank a) ∧ !(s.mode == .factory || s.mode == .rehearsal || s.mode == .interval || s.mode == .curtain) then scWRONG_MODE
  else if !s.brkParamOk op a then scBAD_PARAM
  else if a < 0x20010000 ∧ 2 ≤ s.lifecycle.code then scDENIED
  else if !(bedDecider s a).grants m .write then scDENIED
  else if m < 9 ∧ s.fetchBank m = bedBank a + 1 then scSELF_TARGET
  else if s.brk.cmds.any fun c => c.bank == bedBank a then scBUSY
  else scACCEPTED

/-- Did the command fail at check 7 of R362, the Bedrock Col's? -/
def State.brkColDenied (s : State) (m op a : Nat) (st : Nat) : Bool :=
  st == scDENIED && !(decide (a < 0x20010000) && decide (2 ≤ s.lifecycle.code)) && !(bedDecider s a).grants m .write && decide (1 ≤ op ∧ op ≤ 5)

/-- A command refused at its checks (R362): source 150, and of a refusal by the Bedrock Col the violation record, source 187 and the record of R225. -/
def State.brkRefuse (s : State) (m op a st : Nat) : State :=
  let s := if s.brkColDenied m op a st then
      s.violate { unit := 2, index := 0, av := true, kind := 3, straddle := false, master := m, region := (bedDecider s a).region, hard := false, addr := BitVec.ofNat 32 a }
    else s
  s.irq 150

/-! ## Issue, start and end (R361, R362, R364) -/

/-- Show a page's result. -/
def State.brkResult (s : State) (page : Option Nat) (pending : Bool) (st : Nat) : State :=
  match page with
  | some n => (s.wr (F.BRK_RESULT_PENDING n) (b2n pending)).wr (F.BRK_RESULT_RESULT n) st
  | none => s

/-- Bytes of source of an operation. -/
def brkSrcLen (op b : Nat) : Nat := if op = opPROGRAM then pageLen b else if op = opSAFE then 2 * pageLen b else 0

/-- A command leaves its bank. -/
def State.brkRemove (s : State) (c : BrkCmd) (st : Nat) : State :=
  let s := { s with brk.cmds := s.brk.cmds.filter fun x => x.bank != c.bank }
  let s := ((s.wr (F.BRK_STATUS_BUSY c.bank) 0).wr (F.BRK_STATUS_SUSPENDED c.bank) 0).wr (F.BRK_STATUS_WAITING c.bank) 0
  ((s.wr (F.BRK_STATUS_RESULT c.bank) st).brkResult c.page false st).disarm (.brkResume c.bank)

/-- A command ends: source 144 with OK, else 145. -/
def State.brkEnd (s : State) (c : BrkCmd) (st : Nat) : State := (s.brkRemove c st).irq (if st = scOK then 144 else 145)

/-- A command starts: its source, which has to lie in one Col region, is read whole under the issuing master's identity; a refused read ends it DENIED
(R360). Mark: DESIGN CHOICE (log 40), DEDUCED (log 123). -/
def State.brkBegin (s : State) (c : BrkCmd) : State :=
  let s := (s.wr (F.BRK_STATUS_BUSY c.bank) 1).wr (F.BRK_STATUS_WAITING c.bank) 0
  let go := fun (s : State) (d : Option (List Byte)) =>
    { s with brk.cmds := s.brk.cmds.map fun x => if x.bank = c.bank then { x with started := true, data := d } else x }
  match c.data with
  | some d => go s (some d)
  | none =>
    if brkSrcLen c.op c.bank = 0 then go s none
    else match colCheck s c.master c.src (brkSrcLen c.op c.bank) .read with
      | some v => (s.violate v).brkEnd c scDENIED
      | none => match s.dmaRead c.master c.src (brkSrcLen c.op c.bank) with
        | (.error _, s) => s.brkEnd c scDENIED
        | (.ok d, s) => go s (some d)

/-- Banks that program or erase (R364); INSPECT does neither. -/
def State.brkBusy (s : State) : Nat := (s.brk.cmds.filter fun c => c.started && c.op != opINSPECT).length

/-- A command that passed its checks: it starts, or waits while two banks are busy or another waits. -/
def State.brkAccept (s : State) (c : BrkCmd) : State :=
  let waits := decide (2 ≤ s.brkBusy) || s.brk.cmds.any fun x => !x.started
  let s := { s with brk.cmds := s.brk.cmds ++ [c] }
  let s := ((s.wr (F.BRK_STATUS_OP c.bank) c.op).wr (F.BRK_STATUS_MASTER c.bank) c.master).wr (F.BRK_STATUS_RESULT c.bank) scACCEPTED
  let s := s.brkResult c.page true scACCEPTED
  if waits then s.wr (F.BRK_STATUS_WAITING c.bank) 1 else s.brkBegin c

/-- A write of BRK_CMD of page `n` by master `m`. BRK_RESULT shows the page's last command, so an earlier one that still runs shows there no more. Mark: DEDUCED (log 76). -/
def State.brkCmd (s : State) (m n : Nat) (w : Word) : State :=
  let armed := s.brkArmed n = 2
  let s := s.brkDisarm n
  if !w.getLsbD 31 then s
  else
    let a := (s.reg (A.BRK_ADDR n)).toNat
    let op := getBits w 3 0
    let s := { s with brk.cmds := s.brk.cmds.map fun (c : BrkCmd) => if c.page = some n then { c with page := none } else c }
    let st := if armed then s.brkCheck m op a else scDENIED
    if st = scACCEPTED then
      s.brkAccept { master := m, page := some n, op, bank := bedBank a, addr := a, src := (s.reg (A.BRK_SRC n)).toNat / 8 * 8, data := none,
                    started := false }
    else (s.brkResult (some n) false st).brkRefuse m (if armed then op else 0) a st

/-- A command that a unit issues through an internal port, its data with it: the status of the checks (R360, R423). -/
def State.brkIssue (s : State) (m op a : Nat) (d : List Byte) : Nat × State :=
  let st := s.brkCheck m op a
  if st = scACCEPTED then
    (st, s.brkAccept { master := m, page := none, op, bank := bedBank a, addr := a, src := 0, data := if brkSrcLen op (bedBank a) = 0 then none else some d, started := false })
  else (st, s.brkRefuse m op a st)

/-- The first waiting command starts once fewer than two banks are busy. -/
def State.brkStart (s : State) : State :=
  match s.brk.cmds.find? fun c => !c.started with
  | some c => if s.brkBusy < 2 then s.brkBegin c else s
  | none => s

/-- Contents that an interrupted pulse leaves: the manual does not give them, so each byte is free. Mark: DESIGN CHOICE (log 77). -/
def State.scramble (s : State) (a n : Nat) : State :=
  { s.poke a ((List.range n).map fun i => BitVec.ofNat 8 (Config.freeValue (s.fresh + i))) with fresh := s.fresh + n }

/-- A page is left TORN. -/
def State.tearPage (s : State) (a : Nat) : State := (s.scramble a (pageLen (bedBank a))).setPage a 2

/-- One page is programmed whole: its data and its done marker. -/
def State.writePage (s : State) (a : Nat) (d : List Byte) : State := (s.poke a (padTo (pageLen (bedBank a)) d)).setPage a 1

/-- Erase count of a block, or of a bank's spare. -/
def State.eraseCount (s : State) (k : Nat) : Nat := look (fun _ => 0) s.brk.erases k

/-- One erase more; above 90 % of the endurance source 151 fires. Mark: DESIGN CHOICE (log 77). -/
def State.countErase (s : State) (k b : Nat) : State :=
  let n := s.eraseCount k + 1
  let s := { s with brk.erases := put (fun _ => 0) s.brk.erases k n }
  if (if codeBank b then 9000 else 2700) < n then s.irq 151 else s

/-- The lines of the block at `a` hold no correctable errors any more: it was erased, or rewritten through the spare block (R369). -/
def State.dropSoft (s : State) (a : Nat) : State :=
  { s with brk.softLines := s.brk.softLines.filter fun l => !(decide (a / 64 ≤ l) && decide (l < (a + blockLen (bedBank a)) / 64)) }

/-- A block is erased: all ones, every page EMPTY. -/
def State.wipeBlock (s : State) (a : Nat) : State :=
  let hi := a + blockLen (bedBank a)
  { (s.dropSoft a).wipe a hi with brk.pages := clearRange s.brk.pages a hi, brk.badLines := s.brk.badLines.filter fun l => !(decide (a / 64 ≤ l) && decide (l < hi / 64)) }

/-- A block that holds neither old nor erased data. -/
def State.tearBlock (s : State) (a : Nat) : State :=
  (List.range 32).foldl (fun s i => s.tearPage (a + i * pageLen (bedBank a))) s

/-- What a command leaves when it ends; `ok` is false where a page or an erase failed to verify: of a pair it is free which page failed, the lower one before the upper is begun. Mark: DEDUCED (log 123). -/
def State.brkEffect (s : State) (c : BrkCmd) (ok : Bool) : Nat × State :=
  let d := c.data.getD []
  if c.op = opPROGRAM then (if ok then (scOK, s.writePage c.addr d) else (scVERIFY_FAIL, s.tearPage c.addr))
  else if c.op = opSAFE then
    let n := pageLen c.bank
    if ok then (scOK, (s.writePage c.addr d).writePage (c.addr + n) (d.drop n))
    else if s.draw % 2 = 0 then (scVERIFY_FAIL, s.next.tearPage c.addr)
    else (scVERIFY_FAIL, (s.next.writePage c.addr d).tearPage (c.addr + n))
  else if c.op = opERASE then
    if ok then (scOK, (s.wipeBlock c.addr).countErase c.addr c.bank) else (scSTORAGE_FAIL, s.tearBlock c.addr)
  else if c.op = opINSPECT then
    let s := (List.range 32).foldl (fun s j =>
      s.wr ⟨A.BRK_PAGE_STATE (j / 16), 2 * (j % 16) + 1, 2 * (j % 16)⟩ (s.pageState (c.addr + j * pageLen c.bank))) s
    (scOK, s.setReg A.BRK_BLOCK_SEL (BitVec.ofNat 32 (c.bank * 2 ^ 24 + (c.addr - bedBase c.bank) / blockLen c.bank)))
  else (if ok then (scOK, ((s.dropSoft c.addr).countErase c.addr c.bank).countErase c.bank c.bank) else (scSTORAGE_FAIL, s))

/-- The lines of every instruction cache that lie in `n` bytes at `a` are invalidated (R157). -/
def State.icacheDrop (s : State) (a n : Nat) : State :=
  (List.range 9).foldl (fun (s : State) k =>
    let c := s.core k
    s.setCore k { c with icache := c.icache.filter fun l => !(decide (a ≤ l) && decide (l < a + n)) }) s

/-- Bytes that an operation at `a` programs or erases: a page, a pair or a block. -/
def brkSpan (op b : Nat) : Nat := if op = opPROGRAM then pageLen b else if op = opSAFE then 2 * pageLen b else blockLen b

/-- The end of a program, an erase or a refresh of a code bank invalidates the cached lines of what it wrote (R157). -/
def State.brkInvalidate (s : State) (op a : Nat) : State :=
  if op = opINSPECT ∨ !codeBank (bedBank a) then s else s.icacheDrop a (brkSpan op (bedBank a))

/-- A suspended erase resumes. -/
def State.brkResume (s : State) (b : Nat) : State := s.wr (F.BRK_STATUS_SUSPENDED b) 0

/-- The command of bank `b` ends; a suspended erase has resumed before it does (R365). -/
def State.brkDone (s : State) (b : Nat) (ok : Bool) : State :=
  match s.brkRunning b with
  | some c =>
    let s := s.fire (.brkResume b) (·.brkResume b)
    let r := s.brkEffect c ok
    (r.2.brkInvalidate c.op c.addr).brkEnd c r.1
  | none => s

/-- A page of an interrupted pair reads as TORN or fails ECC (R367): which of the two is free. Mark: DESIGN CHOICE (log 77). -/
def State.failPage (s : State) (a : Nat) : State :=
  if s.draw % 2 = 0 then s.next else { s.next with brk.badLines := s.brk.badLines ++ bedLines a (pageLen (bedBank a)) }

/-- What a power loss or a main-domain reset leaves of a command that ran (R366, R367). How far an interrupted refresh had come is free. -/
def State.brkInterrupt (s : State) (c : BrkCmd) : State :=
  if !c.started then s
  else if c.op = opPROGRAM then
    let s := s.tearPage c.addr
    if codeBank c.bank ∨ c.addr / pageLen c.bank % 2 = 0 then s
    else ((s.tearPage (c.addr - pageLen c.bank)).failPage c.addr).failPage (c.addr - pageLen c.bank)
  else if c.op = opSAFE then (s.tearPage c.addr).tearPage (c.addr + pageLen c.bank)
  else if c.op = opERASE then s.tearBlock c.addr
  else if c.op = opREFRESH then
    let s := if s.draw % 2 = 1 then (s.dropSoft c.addr).countErase c.addr c.bank else s
    s.next.countErase c.bank c.bank
  else s

/-- Every command is abandoned. -/
def State.brkAbandon (s : State) : State :=
  let l := s.brk.cmds
  l.foldl State.brkInterrupt { s with brk.cmds := [], brk.armed := [], brk.patrol := [], brk.patrolOvf := false, brk.passAt := [] }

/-! ## Patrol (R368) -/

/-- A line of the block at `a` shows errors to patrol: which line it is is free; later reads of it meet them too (R356). Mark: DESIGN CHOICE (log 77). -/
def State.spotLine (s : State) (a bits : Nat) : State :=
  let l := a / 64 + s.draw % (blockLen (bedBank a) / 64)
  if bits = 0 then s
  else if bits = 15 then { s.next with brk.badLines := s.brk.badLines.filter (· != l) ++ [l] }
  else { s.next with brk.softLines := s.brk.softLines.filter (· != l) ++ [l] }

/-- The most corrections in one line of a block that its lines are known to need: 15 where one does not correct, 1 where one does. Mark: DESIGN CHOICE (log 159). -/
def State.knownBits (s : State) (a : Nat) : Nat :=
  let inBlock := fun (l : Nat) => decide (a / 64 ≤ l) && decide (l < (a + blockLen (bedBank a)) / 64)
  if s.brk.badLines.any inBlock then 15 else if s.brk.softLines.any inBlock then 1 else 0

/-- Ticks of patrol's pass over bank `b`: CODE_DAYS or DATA_DAYS. -/
def State.passTicks (s : State) (b : Nat) : Nat := max 1 (s.rd (if codeBank b then F.BRK_CFG_CODE_DAYS else F.BRK_CFG_DATA_DAYS)) * 86400 * ticksPerSecond

/-- Patrol's pass over bank `b` is complete: one in CODE_DAYS or DATA_DAYS (R368), so it ends that long after the last. Mark: DESIGN CHOICE (log 159). -/
def State.passEnd (s : State) (b : Nat) : State :=
  let s := s.reachST (look (fun _ => 0) s.brk.passAt b + s.passTicks b)
  State.irq { s with brk.passAt := put (fun _ => 0) s.brk.passAt b s.now } 149

/-- Patrol reads a block: `bits` is the most corrections of a line that it finds, 15 where one is uncorrectable, beside what is known of it; `pass` tells that the bank's pass is complete. -/
def State.patrolRead (s : State) (b blk bits : Nat) (pass : Bool) : State :=
  if !s.flag F.BRK_CFG_PATROL_EN || s.mode == .curtain || (s.brkRunning b).isSome then s
  else
    let known := s.knownBits (bedBase b + blk * blockLen b)
    let s := if known < bits then s.spotLine (bedBase b + blk * blockLen b) bits else s
    let bits := max known bits
    let s := if bits = 15 then ((s.sat F.BRK_ECC_UE).irq 147).post 0xC001 6 23 [bedBase b + blk * blockLen b]
             else if bits = 0 then s else s.sat F.BRK_ECC_CE
    let lim := max 1 (s.rd (if codeBank b then F.BRK_CFG_REFRESH_CODE else F.BRK_CFG_REFRESH_DATA))
    let s := if lim ≤ bits then
        State.irq (if s.brk.patrol.length < 16 then { s with brk.patrol := s.brk.patrol ++ [(b, blk, bits)] } else { s with brk.patrolOvf := true }) 148
      else s
    if pass then s.passEnd b else s

/-- A read of BRK_PATROL_POP. -/
def State.patrolPop (s : State) : Word × State :=
  match s.brk.patrol with
  | [] => (0, s)
  | (b, blk, bits) :: rest =>
    (BitVec.ofNat 32 (2 ^ 31 + b2n s.brk.patrolOvf * 2 ^ 30 + b * 2 ^ 24 + blk * 2 ^ 16 + bits), { s with brk.patrol := rest, brk.patrolOvf := false })

/-- BRK_BLOCK_INFO of the selected block. -/
def State.blockInfo (s : State) : Word :=
  let b := s.rd F.BRK_BLOCK_SEL_BANK
  let a := bedBase b + s.rd F.BRK_BLOCK_SEL_BLOCK * blockLen b
  let busy := s.brk.cmds.any fun c => c.started && c.op == opREFRESH && c.addr == a
  BitVec.ofNat 32 (min (s.eraseCount a) 65535 * 2 ^ 16 + b2n busy * 2 ^ 15)

end Sys2Proof.Machine
end

