-- ==== Sys2Proof/Machine/Hash.lean ====
section
/-! DEFINITION. The hash functions of the Massif's hash lane (R317): SHA-2 as in FIPS 180-4, SHA-3 and SHAKE as in FIPS 202, HMAC. -/

namespace Sys2Proof.Machine

/-! ## SHA-2 (FIPS 180-4) -/

/-- The round constants of SHA-512; their upper halves are those of SHA-256. -/
def shaK1 : List Nat := [
    0x428A2F98D728AE22, 0x7137449123EF65CD, 0xB5C0FBCFEC4D3B2F, 0xE9B5DBA58189DBBC, 0x3956C25BF348B538,
    0x59F111F1B605D019, 0x923F82A4AF194F9B, 0xAB1C5ED5DA6D8118, 0xD807AA98A3030242, 0x12835B0145706FBE,
    0x243185BE4EE4B28C, 0x550C7DC3D5FFB4E2, 0x72BE5D74F27B896F, 0x80DEB1FE3B1696B1, 0x9BDC06A725C71235,
    0xC19BF174CF692694, 0xE49B69C19EF14AD2, 0xEFBE4786384F25E3, 0x0FC19DC68B8CD5B5, 0x240CA1CC77AC9C65,
    0x2DE92C6F592B0275, 0x4A7484AA6EA6E483, 0x5CB0A9DCBD41FBD4, 0x76F988DA831153B5, 0x983E5152EE66DFAB,
    0xA831C66D2DB43210, 0xB00327C898FB213F, 0xBF597FC7BEEF0EE4, 0xC6E00BF33DA88FC2, 0xD5A79147930AA725,
    0x06CA6351E003826F, 0x142929670A0E6E70, 0x27B70A8546D22FFC, 0x2E1B21385C26C926, 0x4D2C6DFC5AC42AED,
    0x53380D139D95B3DF, 0x650A73548BAF63DE, 0x766A0ABB3C77B2A8, 0x81C2C92E47EDAEE6, 0x92722C851482353B]

/-- The second half of them. -/
def shaK2 : List Nat := [
    0xA2BFE8A14CF10364, 0xA81A664BBC423001, 0xC24B8B70D0F89791, 0xC76C51A30654BE30, 0xD192E819D6EF5218,
    0xD69906245565A910, 0xF40E35855771202A, 0x106AA07032BBD1B8, 0x19A4C116B8D2D0C8, 0x1E376C085141AB53,
    0x2748774CDF8EEB99, 0x34B0BCB5E19B48A8, 0x391C0CB3C5C95A63, 0x4ED8AA4AE3418ACB, 0x5B9CCA4F7763E373,
    0x682E6FF3D6B2B8A3, 0x748F82EE5DEFB2FC, 0x78A5636F43172F60, 0x84C87814A1F0AB72, 0x8CC702081A6439EC,
    0x90BEFFFA23631E28, 0xA4506CEBDE82BDE9, 0xBEF9A3F7B2C67915, 0xC67178F2E372532B, 0xCA273ECEEA26619C,
    0xD186B8C721C0C207, 0xEADA7DD6CDE0EB1E, 0xF57D4F7FEE6ED178, 0x06F067AA72176FBA, 0x0A637DC5A2C898A6,
    0x113F9804BEF90DAE, 0x1B710B35131C471B, 0x28DB77F523047D84, 0x32CAAB7B40C72493, 0x3C9EBE0A15C9BEBC,
    0x431D67C49C100D4C, 0x4CC5D4BECB3E42B6, 0x597F299CFC657E2A, 0x5FCB6FAB3AD6FAEC, 0x6C44198C4A475817]

/-- The initial hash of SHA-512; the upper halves are that of SHA-256. -/
def shaIv512 : List Nat := [
    0x6A09E667F3BCC908, 0xBB67AE8584CAA73B, 0x3C6EF372FE94F82B, 0xA54FF53A5F1D36F1, 0x510E527FADE682D1,
    0x9B05688C2B3E6C1F, 0x1F83D9ABFB41BD6B, 0x5BE0CD19137E2179]

/-- The initial hash of SHA-384. -/
def shaIv384 : List Nat := [
    0xCBBB9D5DC1059ED8, 0x629A292A367CD507, 0x9159015A3070DD17, 0x152FECD8F70E5939, 0x67332667FFC00B31,
    0x8EB44A8768581511, 0xDB0C2E0D64F98FA7, 0x47B5481DBEFA4FA4]

/-- Rotate right in a word of `w` bits. -/
def rotr (w a k : Nat) : Nat := a / 2 ^ k + a % 2 ^ k * 2 ^ (w - k)

/-- What distinguishes the 32-bit functions from the 64-bit ones: word size, block bytes, rounds, constants, rotations. -/
structure ShaKind where
  w : Nat
  block : Nat
  k : List Nat
  big0 : List Nat
  big1 : List Nat
  small0 : List Nat
  small1 : List Nat

/-- SHA-256. -/
def sha32 : ShaKind where
  w := 32
  block := 64
  k := ((shaK1 ++ shaK2).take 64).map (· / 2 ^ 32)
  big0 := [2, 13, 22]
  big1 := [6, 11, 25]
  small0 := [7, 18, 3]
  small1 := [17, 19, 10]

/-- SHA-384 and SHA-512. -/
def sha64 : ShaKind where
  w := 64
  block := 128
  k := shaK1 ++ shaK2
  big0 := [28, 34, 39]
  big1 := [14, 18, 41]
  small0 := [1, 8, 7]
  small1 := [19, 61, 6]

/-- Three rotations. -/
def ShaKind.big (h : ShaKind) (r : List Nat) (x : Nat) : Nat := rotr h.w x (nth r 0) ^^^ rotr h.w x (nth r 1) ^^^ rotr h.w x (nth r 2)

/-- Two rotations and a shift. -/
def ShaKind.small (h : ShaKind) (r : List Nat) (x : Nat) : Nat := rotr h.w x (nth r 0) ^^^ rotr h.w x (nth r 1) ^^^ x / 2 ^ nth r 2

/-- The message schedule, newest word first. -/
def ShaKind.schedule (h : ShaKind) (blk : List Byte) : List Nat :=
  let b := h.w / 8
  let first := (List.range 16).foldl (fun ws i => beNat (sliceB blk (b * i) b) :: ws) ([] : List Nat)
  (List.range (h.k.length - 16)).foldl (fun ws _ =>
    (h.small h.small1 (nth ws 1) + nth ws 6 + h.small h.small0 (nth ws 14) + nth ws 15) % 2 ^ h.w :: ws) first

/-- One block into the hash. -/
def ShaKind.compress (h : ShaKind) (iv : List Nat) (blk : List Byte) : List Nat :=
  let m := 2 ^ h.w
  let out := ((h.schedule blk).reverse.zip h.k).foldl (fun (v : List Nat) wk =>
    let e := nth v 4
    let a := nth v 0
    let t1 := nth v 7 + h.big h.big1 e + ((e &&& nth v 5) ^^^ ((m - 1 - e) &&& nth v 6)) + wk.2 + wk.1
    let t2 := h.big h.big0 a + ((a &&& nth v 1) ^^^ (a &&& nth v 2) ^^^ (nth v 1 &&& nth v 2))
    [(t1 + t2) % m, a, nth v 1, nth v 2, (nth v 3 + t1) % m, e, nth v 5, nth v 6]) iv
  (iv.zip out).map fun p => (p.1 + p.2) % m

/-- Pad a message and hash it. -/
def ShaKind.hash (h : ShaKind) (iv : List Nat) (outLen : Nat) (bs : List Byte) : List Byte :=
  let lenB := h.block / 8
  let z := (h.block - (bs.length + 1 + lenB) % h.block) % h.block
  let m := bs ++ [0x80#8] ++ List.replicate z 0#8 ++ beBytes lenB (8 * bs.length)
  (((List.range (m.length / h.block)).foldl (fun v i => h.compress v (sliceB m (h.block * i) h.block)) iv).flatMap (beBytes (h.w / 8))).take outLen

/-- SHA-256. Mark: PRESUMED (log 168). -/
def sha256 (bs : List Byte) : List Byte := sha32.hash (shaIv512.map (· / 2 ^ 32)) 32 bs

/-- SHA-384. -/
def sha384 (bs : List Byte) : List Byte := sha64.hash shaIv384 48 bs

/-- SHA-512. -/
def sha512 (bs : List Byte) : List Byte := sha64.hash shaIv512 64 bs

/-- HMAC-SHA-256. Mark: PRESUMED (log 168). -/
def hmac256 (key bs : List Byte) : List Byte :=
  let k := padTo 64 (if 64 < key.length then sha256 key else key)
  sha256 (k.map (· ^^^ 0x5C#8) ++ sha256 (k.map (· ^^^ 0x36#8) ++ bs))

/-! ## SHA-3 and SHAKE (FIPS 202) -/

/-- Rotate a lane left. -/
def rotl64 (a k : Nat) : Nat := (a * 2 ^ k + a / 2 ^ (64 - k)) % 2 ^ 64

/-- The bit generator of iota takes a step: the polynomial x^8 + x^6 + x^5 + x^4 + 1. -/
def iotaNext (r : Nat) : Nat := if r < 128 then 2 * r else (2 * r) ^^^ 0x171

/-- What iota puts into lane 0 in the round that begins with the generator at `r`: seven of its bits, at places 2^j - 1; and the generator after them. -/
def iotaMask (r : Nat) : Nat × Nat := (List.range 7).foldl (fun w j => (w.1 + w.2 % 2 * 2 ^ (2 ^ j - 1), iotaNext w.2)) (0, r)

/-- Theta: each lane takes the parities of the column to its left and, turned by one, of the column to its right. -/
def keccakTheta (s : List Nat) : List Nat :=
  let par := (List.range 5).map fun x => (List.range 5).foldl (fun p y => p ^^^ nth s (5 * y + x)) 0
  s.mapIdx fun i l => l ^^^ nth par ((i + 4) % 5) ^^^ rotl64 (nth par ((i + 1) % 5)) 1

/-- Rho and pi in one walk over the 24 lanes beside lane 0: from (x, y) to (y, 2x + 3y), step t turning the lane it carries there by (t + 1)(t + 2) / 2. -/
def keccakRhoPi (s : List Nat) : List Nat :=
  ((List.range 24).foldl (fun (w : (Nat × Nat) × List Nat) t =>
    let nxt := (w.1.2, (2 * w.1.1 + 3 * w.1.2) % 5)
    (nxt, setNth w.2 (nxt.1 + 5 * nxt.2) (rotl64 (nth s (w.1.1 + 5 * w.1.2)) ((t + 1) * (t + 2) / 2 % 64)))) ((1, 0), s)).2

/-- Chi along each row of five lanes. -/
def keccakChi (s : List Nat) : List Nat :=
  s.mapIdx fun i l => l ^^^ ((2 ^ 64 - 1 - nth s (5 * (i / 5) + (i % 5 + 1) % 5)) &&& nth s (5 * (i / 5) + (i % 5 + 2) % 5))

/-- The permutation on 25 lanes: 24 rounds, with the generator of iota running on from round to round. -/
def keccakF (s : List Nat) : List Nat :=
  ((List.range 24).foldl (fun (w : Nat × List Nat) _ =>
    let m := iotaMask w.1
    let b := keccakChi (keccakRhoPi (keccakTheta w.2))
    (m.2, setNth b 0 (nth b 0 ^^^ m.1))) (1, s)).2

/-- Absorb one block of `rate` bytes. -/
def absorb (rate : Nat) (s : List Nat) (blk : List Byte) : List Nat :=
  keccakF ((List.range 25).map fun i => if i < rate / 8 then nth s i ^^^ leAt blk (8 * i) 8 else nth s i)

/-- Squeeze `k` blocks of `rate` bytes. -/
def squeeze (rate : Nat) : Nat → List Nat → List Byte
  | 0, _ => []
  | k + 1, s => (s.flatMap (leBytes 8)).take rate ++ squeeze rate k (keccakF s)

/-- The sponge: rate in bytes, domain suffix, output bytes. -/
def sponge (rate suffix n : Nat) (bs : List Byte) : List Byte :=
  let z := rate - 1 - bs.length % rate
  let m := if z = 0 then bs ++ [BitVec.ofNat 8 (suffix + 128)] else bs ++ [BitVec.ofNat 8 suffix] ++ List.replicate (z - 1) 0#8 ++ [0x80#8]
  let s := (List.range (m.length / rate)).foldl (fun s i => absorb rate s (sliceB m (rate * i) rate)) (List.replicate 25 0)
  (squeeze rate (n / rate + 1) s).take n

/-- SHA3-224, 256, 384, 512 by output bytes. -/
def sha3 (n : Nat) (bs : List Byte) : List Byte := sponge (200 - 2 * n) 6 n bs

/-- SHAKE128. -/
def shake128 (n : Nat) (bs : List Byte) : List Byte := sponge 168 0x1F n bs

/-- SHAKE256. Mark: PRESUMED (log 168). -/
def shake256 (n : Nat) (bs : List Byte) : List Byte := sponge 136 0x1F n bs

end Sys2Proof.Machine
end

