-- ==== Sys2Proof/Machine/Link.lean ====
section
/-! DEFINITION. The Understudy link (R246 to R253, R273): what the partner is known to do, the health word, control frames, breaking the pair, pairing. -/

namespace Sys2Proof.Machine

/-! ## The partner -/

/-- The pair is KEYED (R253). -/
def State.keyed (s : State) : Bool := s.rd F.UNDERSTUDY_STAT_STATE == 3

/-- This device is the principal (R246). -/
def State.isPrincipal (s : State) : Bool := s.rd F.SYS_STATE_PAIR_ROLE == 1

/-- This device is the secondary. -/
def State.isSecondary (s : State) : Bool := s.rd F.SYS_STATE_PAIR_ROLE == 2

/-- The partner's latest health word is valid. -/
def State.peerKnown (s : State) : Bool := (s.reg A.UNDERSTUDY_PEER_HEALTH).getLsbD 31

/-- The mode in the partner's latest health word (R273). -/
def State.peerMode (s : State) : Mode := Mode.ofCode (getBits (s.reg A.UNDERSTUDY_PEER_HEALTH) 30 28)

/-- The partner leads: its latest health word is valid and shows LEAD, and it has not failed. -/
def State.peerLeads (s : State) : Bool := s.keyed && !s.us.failed && s.peerKnown && s.peerMode == .lead

/-- A healthy partner holds protection (R16): it leads, or takes LEAD at the switch that this device has committed to. -/
def State.partnerHolds (s : State) : Bool := s.peerLeads || s.us.ho == 3

/-- Are the Understudy lanes enabled (R248)? -/
def State.lanesOn (s : State) : Bool :=
  ((s.mode == .lead || s.mode == .understudy || s.mode == .interval) && s.rd F.SYS_STATE_PAIR_ROLE != 0) || (s.mode == .rehearsal && s.us.joined)

/-- One of the cases of R261: STALE is set and source 156 fires, whatever it was. -/
def State.markStale (s : State) : State := (s.wr F.SYS_STATE_STALE 1).irq 156

/-- Set STALE; a change fires source 156 (R274). -/
def State.setStale (s : State) (b : Bool) : State := if s.stale == b then s else (s.wr F.SYS_STATE_STALE (b2n b)).irq 156

/-- The pairing state changes: source 152 (R274). -/
def State.pairState (s : State) (st reason : Nat) : State :=
  if s.rd F.UNDERSTUDY_STAT_STATE = st ∧ s.rd F.UNDERSTUDY_STAT_REASON = reason then s
  else ((s.wr F.UNDERSTUDY_STAT_STATE st).wr F.UNDERSTUDY_STAT_REASON reason).irq 152

/-! ## The health word (R273) -/

/-- The newest applied frame A. -/
def State.appliedFrame (s : State) : Nat := (s.reg A.UNDERSTUDY_APPLIED_LO).toNat + 2 ^ 32 * getBits (s.reg A.UNDERSTUDY_APPLIED_HI) 15 0

/-- The active holds (UNDERSTUDY_HOLD). -/
def State.holds (s : State) : Word := s.reg A.UNDERSTUDY_HOLD

/-- LAG: the current frame minus A, saturating; 0 while leading. -/
def State.lag (s : State) : Nat := if s.mode == .lead then 0 else min (s.frame - s.appliedFrame) 255

/-- CORES_OK: no core 0 to 7 is stopped (R184). -/
def State.coresOk (s : State) : Bool := (List.range 8).all fun n => !s.flag (F.IRQ_CORE_STAT_STOPPED n)

/-- The health word as it stands. -/
def State.health (s : State) : Word :=
  BitVec.ofNat 32 (2 ^ 31 + s.mode.code * 2 ^ 28 + b2n s.stale * 2 ^ 27 + b2n (!s.unsynced) * 2 ^ 26 + min s.us.lanes.length 2 * 2 ^ 24
    + b2n s.us.peerPulse * 2 ^ 23 + b2n s.us.peerAlive * 2 ^ 22 + b2n s.us.sealOk * 2 ^ 21 + b2n (s.us.shadowWait == 0) * 2 ^ 20
    + b2n s.us.unfit * 2 ^ 19 + b2n s.us.failing.isEmpty * 2 ^ 18 + b2n s.coresOk * 2 ^ 17 + b2n (s.holds != 0) * 2 ^ 16
    + s.us.failCode * 2 ^ 12 + s.lag * 2 ^ 4 + s.us.ho * 2 + b2n (s.stale && s.mode != .lead))

/-- The health word is formed every frame. -/
def State.formHealth (s : State) : State := s.setReg A.UNDERSTUDY_HEALTH s.health

/-! ## Sealing (R249, R251) -/

/-- The IV of a message: sender, kind, frame, count. -/
def State.linkIv (s : State) (kind frame count : Nat) : List Byte :=
  beBytes 12 ((if s.isPrincipal then 0x50 else 0x53) * 2 ^ 88 + kind * 2 ^ 80 + frame % 2 ^ 48 * 2 ^ 32 + count % 2 ^ 32)

/-- The plaintext of a control frame. -/
def State.controlBody (s : State) (ty : Nat) : List Byte :=
  leBytes 1 ty ++ leBytes 1 0 ++ leBytes 6 s.frame ++ leBytes 8 s.now ++ leBytes 4 (s.reg A.UNDERSTUDY_HEALTH).toNat
    ++ leBytes 6 (if s.mode == .lead then 0 else s.appliedFrame) ++ leBytes 6 (if s.us.ho = 0 then 0 else s.us.hoSwitch)
    ++ leBytes 4 s.holds.toNat ++ List.replicate 12 0#8

/-- Channel of the Understudy link: control frames. -/
abbrev chanControl : Nat := 4
/-- Mirror transfers and pairing messages. -/
abbrev chanMirror : Nat := 5

/-- Post a control frame (R249): 1 = PULSE, 2 = READY, 3 = ABORT, 4 = CANCEL. Its bytes count against the mirror budget. -/
def State.sendControl (s : State) (ty : Nat) : State :=
  if s.keyed && !s.us.lanes.isEmpty then
    let m := gcmSeal (sliceB s.us.keys 64 32) (s.linkIv 0x43 s.frame s.us.ctlSent) [] (s.controlBody ty)
    let s := s.send chanControl ty m
    { s with us.ctlSent := s.us.ctlSent + 1, us.xfer := s.us.xfer.map fun x => { x with control := x.control + 64 } }
  else s

/-! ## Pairing (R253, R254) -/

/-- Reasons for BROKEN. -/
abbrev whyROLE : Nat := 1
/-- IDENTITY. -/
abbrev whyIDENTITY : Nat := 2
/-- CIPHER. -/
abbrev whyCIPHER : Nat := 3
/-- Lanes down. -/
abbrev whyLANES : Nat := 4
/-- Grid change. -/
abbrev whyGRID : Nat := 5
/-- UNPAIR. -/
abbrev whyUNPAIR : Nat := 6

/-- Lines that a transfer cut off has read go back to their current sets and are carried (R216). -/
def State.unreadLinesBack (s : State) : State :=
  match s.us.xfer with
  | some x => x.lines.foldl (fun (s : State) l => (s.setDirty l.bank l.line).satCnt F.TERRACE_DIRTY_CNT_CARRIED) s
  | none => s

/-- Forget the keys and messages of a pairing; an epoch that was open under its keys is no longer (R262). Mark: DEDUCED (log 60). -/
def State.forgetPairing (s : State) : State :=
  { s.unreadLinesBack with us.keys := [], us.helloP := [], us.helloS := [], us.keyMsg := [], us.authOk := false, us.xfer := none, us.arrived := [], us.parked := [],
                           us.epochOpen := false }

/-- The pair becomes BROKEN (R246, R250, R253, R254). IDENTITY pairs again after 1 s, ROLE never, every other reason as soon as a lane is up. Mark: DEDUCED (log 60, 61). -/
def State.breakPair (s : State) (reason : Nat) : State :=
  let s := (s.forgetPairing.pairState 4 reason).disarm .pairRetry
  let s := if reason = whyIDENTITY ∨ reason = whyCIPHER then s.postU 0x8001 6 [reason] else s
  if reason = whyIDENTITY then s.arm .pairRetry ticksPerSecond
  else if reason = whyROLE ∨ s.us.lanes.isEmpty then s else s.arm .pairRetry 0

/-- A grid change breaks a pair on either device (R254). -/
def State.gridBreak (s : State) : State := if s.keyed then s.breakPair whyGRID else s

/-- Pairing begins: KEYING, and HELLO leaves (R253, step 1). -/
def State.beginPairing (s : State) : State :=
  let s := (s.forgetPairing.pairState 2 (s.rd F.UNDERSTUDY_STAT_REASON)).disarm .pairRetry
  let h := leBytes 1 (s.rd F.SYS_STATE_PAIR_ROLE) ++ Config.pairHello s.isPrincipal s.draw
  let s := s.next.send chanMirror 1 h
  if s.isPrincipal then { s with us.helloP := h } else { s with us.helloS := h }

/-- A lane comes up (R247); without keys it starts pairing. -/
def State.laneUp (s : State) (n : Nat) : State :=
  if !s.lanesOn || s.us.lanes.contains n then s
  else
    let s : State := { s with us.lanes := s.us.lanes ++ [n] }
    if s.keyed || s.rd F.UNDERSTUDY_STAT_STATE == 2 then s else s.beginPairing

/-- A lane goes down (R247); with both down the pair is BROKEN (R254). -/
def State.laneDown (s : State) (n : Nat) : State :=
  if !s.us.lanes.contains n then s
  else
    let s : State := { s with us.lanes := s.us.lanes.filter (· != n) }
    if s.us.lanes.isEmpty then s.breakPair whyLANES else s

/-- A fault inside S2 (R250). -/
def State.s2Fault (s : State) : State := (State.irq { s with us.lanes := [] } 122).breakPair whyCIPHER

/-- Is pairing under way? -/
def State.pairing (s : State) : Bool := s.rd F.UNDERSTUDY_STAT_STATE == 2

/-- T of step 3: SHA-256 of the pairing messages in the order they were sent. -/
def State.pairDigest (s : State) : List Byte := sha256 (s.us.helloP ++ s.us.helloS ++ s.us.keyMsg)

/-- AUTH leaves: both signatures over T. -/
def State.sendAuth (s : State) : State := s.send chanMirror 3 (Config.identitySign s.pairDigest)

/-- A HELLO on a KEYED pair shows that the partner's side has broken, by a grid change there among other causes (R254): this side breaks too. The REASON it shows then is
free. Mark: DESIGN CHOICE (log 136). -/
def State.partnerBroke (s : State) : State := if s.keyed then s.next.forgetPairing.pairState 4 (1 + s.draw % 6) else s

/-- The partner's HELLO arrives (R246, R253): one role on both devices is BROKEN with reason ROLE; the secondary answers with KEY and signs. -/
def State.helloRx (s : State) (role : Nat) (body : List Byte) : State :=
  if s.us.lanes.isEmpty then s
  else
    let s := s.partnerBroke
    let s := if s.pairing then s else s.beginPairing
    if role = s.rd F.SYS_STATE_PAIR_ROLE then s.breakPair whyROLE
    else
      let m := leBytes 1 role ++ body
      if s.isSecondary then
        let k := Config.pairKem m s.draw
        State.sendAuth ({ s.next with us.helloP := m, us.keyMsg := k }.send chanMirror 2 k)
      else { s with us.helloS := m }

/-- KEY arrives at the principal, which then signs. -/
def State.keyRx (s : State) (body : List Byte) : State :=
  if s.pairing && s.isPrincipal && !s.us.helloS.isEmpty then State.sendAuth { s with us.keyMsg := body } else s

/-- AUTH arrives: both signatures are verified against the configured partner (R253, step 4). -/
def State.authRx (s : State) (body : List Byte) : State :=
  if !s.pairing || s.us.keyMsg.isEmpty then s
  else if Config.partnerVerifies s.pairDigest body then { s with us.authOk := true }
  else s.breakPair whyIDENTITY

/-- Link keys are derived and loaded and the pair becomes KEYED (R253, step 5): a device that does not lead becomes STALE, a leading one owes a new epoch (R261, R262). -/
def State.pairKeyed (s : State) : State :=
  if !(s.pairing && s.us.authOk) then s
  else
    let t := s.pairDigest
    let k := shake256 96 (Config.pairSecrets (s.us.helloP ++ s.us.helloS ++ s.us.keyMsg) s.draw ++ t)
    let s := { s.next with us.keys := k, us.epochReq := true, us.firstFull := false, us.epochWhole := false, us.failed := false, us.badMode := 0 }
    let s := [0, 1, 2].foldl (fun s i =>
      { s with chorus.slots := put (fun _ => KeySlot.empty) s.chorus.slots (253 + i)
                 { loaded := true, len := 2, use := 0, users := 0, key := sliceB k (32 * i) 32, epoch := (look (fun _ => KeySlot.empty) s.chorus.slots (253 + i)).epoch + 1 } }) s
    let s := s.pairState 3 0
    if s.mode == .lead then s else s.markStale

/-- Pairing is attempted again. -/
def State.pairRetry (s : State) : State := if s.us.lanes.isEmpty || s.keyed then s else s.beginPairing

/-- Lanes follow their enable: they train when it comes and are down without it (R248). -/
def State.lanesFollow (s : State) : State :=
  if s.lanesOn then (if s.rd F.UNDERSTUDY_STAT_STATE = 0 then s.pairState 1 0 else s)
  else { (s.forgetPairing.pairState 0 0).disarm .pairRetry with us.lanes := [] }

end Sys2Proof.Machine
end

