-- ==== Sys2Proof/Machine/DoubleTake.lean ====
section
/-! DEFINITION. Double-take (R342 to R347): decision blocks, the outcome of a path, verdicts, the threshold, commits of trip pairs. -/

namespace Sys2Proof.Machine

/-- Verdict codes (DTAKE_VERDICT_g). -/
abbrev dtAGREE : Nat := 1
/-- STALE. -/
abbrev dtSTALE : Nat := 2
/-- DISAGREE. -/
abbrev dtDISAGREE : Nat := 3
/-- CHECK_FAIL. -/
abbrev dtCHECK_FAIL : Nat := 4
/-- DISABLED. -/
abbrev dtDISABLED : Nat := 5

/-- A disagreement of any decision (R342, R347): counted, source 133, booked, and at LIMIT within the window the Curtain source DT_THRESH. -/
def State.dtDisagree (s : State) : State :=
  let s := ((s.sat F.DTAKE_CNT_A_DISAGREE).irq 133).postU 0xB101 5 []
  let win := max 1 (s.rd F.DTAKE_CFG_WINDOW_MS) * ticksPerMs
  let ts := s.now :: s.dtake.times.filter fun t => decide (s.now < t + win)
  let s := { s with dtake.times := ts }
  if max 1 (s.rd F.DTAKE_CFG_LIMIT) ≤ ts.length then { s with alarms := s.alarms ++ [0x0D] } else s

/-- A decision other than a commit taken twice: true when both paths agree. -/
def State.twice (s : State) (agree : Bool) : Bool × State := if agree then (true, s) else (false, s.dtDisagree)

/-- Where the decision block of group `g` lies (R343). -/
def State.dtBlock (s : State) (g : Nat) : Nat :=
  0x08000000 + s.lv (F.DTAKE_GROUP_A_DCORE g) * 0x40000 + 0x10000 + s.lv (F.DTAKE_GROUP_A_DOFS g) * 16

/-- A path reads the whole block in one access (R343). The value of an uncorrectable word is free. -/
def State.dtRead (s : State) (a : Nat) : List Byte × State :=
  [a, a + 8].foldl (fun acc w =>
    let s := acc.2
    if s.terr.bad.contains w then (acc.1 ++ leBytes 8 s.draw, s.next.reportUE 0 w true) else (acc.1 ++ s.peek w 8, s)) ([], s)

/-- Rule 1 of R344: the act's cue dispatched in this frame and its ticket is OPEN or LATE, or it launched without one. -/
def State.actOpen (s : State) (g : Nat) : Bool :=
  let c := s.lv (F.DTAKE_GROUP_B_ACT_CUE g)
  s.lvFlag (F.DTAKE_GROUP_B_ACTCHK g) &&
    match find? s.dtake.acts c with
    | some (frame, none) => frame == s.frame
    | some (frame, some r) => frame == s.frame && (s.ticketHeld r).isSome
    | none => false

/-- The outcome of one path (R344), on the set of live values `l`: its code and, for AGREE, the masked word. -/
def State.dtPath (s : State) (g : Nat) (l : List (Nat × Word)) : (Nat × Nat) × State :=
  let q : State := { s with live := l }
  if !q.lvFlag (F.DTAKE_GROUP_A_EN g) then ((dtDISABLED, 0), s)
  else
    let open_ := q.actOpen g
    let (b, s) := s.dtRead (q.dtBlock g)
    let word := leAt b 0 4
    if open_ then ((dtSTALE, 0), s)
    else if leAt b 8 4 ≠ s.frame % 2 ^ 32 then ((dtSTALE, 0), s)
    else if leAt b 4 4 ≠ 2 ^ 32 - 1 - word then ((dtCHECK_FAIL, 0), s)
    else ((dtAGREE, word &&& q.lv (F.DTAKE_MASK_MASK g)), s)

/-- A COMMIT cue of time `due` launches Double-take for its group (R56, R345, steps 1 and 2): path 1 reads the block, and the delay to path 2 is drawn, 16 to 255 ns. -/
def State.dtLaunch (s : State) (g due : Nat) (t : Option TicketRef) : State :=
  let d := 16 + s.draw % 240
  let (o, s) := s.next.dtPath g s.live
  { s with dtake.evals := s.dtake.evals ++ [{ group := g, due, start := s.now, delay := d, frame := s.frame, ticket := t, first := o, old := none, counted := false }] }

/-- Path 2, on the set the evaluation began on (R26). Mark: DESIGN CHOICE (log 92). -/
def State.dtPath2 (s : State) (g : Nat) (old : Option (List (Nat × Word))) : (Nat × Nat) × State := s.dtPath g (old.getD s.live)

/-- The common outcome of the two paths, or DISAGREE (R344). -/
def dtVerdict (a b : Nat × Nat) : Nat × Nat := if a = b then a else (dtDISAGREE, 0)

/-- What a verdict records (R342, R344, R346). Mark: DESIGN CHOICE (log 65). -/
def State.dtRecord (s : State) (g v : Nat) : State :=
  if v = dtDISAGREE then { s.dtDisagree with dtake.ownDisagree := s.dtake.ownDisagree || s.mode == .understudy }
  else if v = dtSTALE ∨ v = dtCHECK_FAIL then (s.sat F.DTAKE_CNT_A_STALE).postU 0xB102 5 [g, v]
  else s

/-- An agreed word, or a hold, met while HANDING stops the handover (R267, step 3). -/
def State.dtHandover (s : State) (g v w : Nat) : State :=
  if s.us.ho = 1 ∧ (s.rd F.UNDERSTUDY_HOLD_HOLD ≠ 0 ∨ (v = dtAGREE ∧ s.rd (F.DTAKE_WORD_WORD g) ≠ w)) then
    let s := (s.sat F.UNDERSTUDY_CNT_C_GB_ABORT).sendControl 3
    State.irq { s with us.ho := 0, us.hoRequest := false, us.hoNext := s.frame + s.lv F.UNDERSTUDY_CFG_C_GB_SETTLE } 155
  else s

/-- Path 2 has finished (R345, step 4): the verdict is written, the ticket completes, and an agreed word waits for the commit time. The status of a ticket whose verdict
is not AGREE, and what a verdict of STALE, CHECK_FAIL or DISABLED contributes to DIGEST (R269), are free. Mark: DEDUCED (log 91). -/
def State.dtFinish (s : State) (g : Nat) : State :=
  match s.dtake.evals.find? fun e => e.group == g with
  | none => s
  | some e =>
    let s := s.reachST (e.start + (8 + e.delay + 40 + 1) / 2)
    let s := { s with dtake.evals := s.dtake.evals.erase e }
    let (o, s) := s.dtPath2 g e.old
    let (v, w) := dtVerdict e.first o
    let s := (s.wr (F.DTAKE_VERDICT_VERDICT g) v).wr (F.DTAKE_VERDICT_FRAME g) (e.frame % 65536)
    let s := { s with
      dtake.frames := put noneAt s.dtake.frames g (some e.frame)
      us.commits := if e.counted then s.us.commits else s.us.commits ++ [(g, if v = dtAGREE then w else if v = dtDISAGREE then 0xFFFFFFFF else s.draw % 2 ^ 32)] }
    let s := s.next
    let s := if v = dtAGREE then { s with dtake.agreed := s.dtake.agreed ++ [(g, e.due + 512, w)] } else s
    let s := (s.dtHandover g v w).dtRecord g v
    State.complete s.next e.ticket (v != dtAGREE && s.draw % 2 == 1)

/-- The commit time of group `g` (R235, R242, R345): enabled pairs take the agreed word; in UNDERSTUDY it enters shadow-compare alone. -/
def State.dtCommit (s : State) (g : Nat) : State :=
  match s.dtake.agreed.find? fun a => a.1 == g with
  | none => s
  | some (_, t, w) =>
    let s := { s.reachST t with dtake.agreed := s.dtake.agreed.filter fun a => !(a.1 == g && a.2.1 == t) }
    if s.mode == .curtain then s
    else
      let s := s.wr (F.DTAKE_WORD_WORD g) w
      if s.mode == .understudy then s else s.tripCommit g (BitVec.ofNat 32 w)

/-- May a DTAKE GO be accepted (R346)? -/
def State.dtGoOk (s : State) : Bool :=
  let on := (List.range 16).filter fun g => s.rd (F.DTAKE_GROUP_A_EN g) == 1
  (on.all fun g => decide (s.rd (F.DTAKE_GROUP_A_DCORE g) ≤ 7) && decide (s.rd (F.DTAKE_GROUP_A_DOFS g) * 16 < 0xFE00))
    && (on.all fun g => on.all fun h => g == h || s.rd (F.DTAKE_GROUP_A_DCORE g) != s.rd (F.DTAKE_GROUP_A_DCORE h)
      || s.rd (F.DTAKE_GROUP_A_DOFS g) != s.rd (F.DTAKE_GROUP_A_DOFS h))

end Sys2Proof.Machine
end

