-- ==== Sys2Proof/Machine/MemCmd.lean ====
section
/-! DEFINITION. What Terrace does on its own (R201, R203, R206, R215, R478): ends of waking, zeroing and resuming, requests served at a sub-bank, write-backs, writes that waited for the
rescue buffer. -/

namespace Sys2Proof.Machine

/-- A store of core `n` to Terrace was refused after it had been posted: a late error without an address (R191, R206, R225). -/
def State.lateStore (s : State) (m k len a : Nat) : State := if m ≤ 8 then s.lateError m false k len a else s

/-- Ticks of a bank's waking, zeroing and resuming (R206): 2 µs, 16.384 µs, 1 µs. -/
def wakeTicks : Nat := 1000
/-- 16.384 µs. Mark: DESIGN CHOICE (log 116). -/
def zeroTicks : Nat := 8192
/-- 1 µs. -/
def resumeTicks : Nat := 500

/-! ## Bank power and ownership (R206 to R209, R478) -/

/-- Put bank `n` into a state. -/
def State.setBank (s : State) (n st : Nat) : State := s.wr (F.TERRACE_BANK_LIVE_STATE n) st

/-- Stop whatever the bank was doing. -/
def State.bankStop (s : State) (n : Nat) : State := ((s.disarm (.bankWake n)).disarm (.bankZero n)).disarm (.bankResume n)

/-- Every line of the bank goes into its current set while the bank is mirrored (R212). -/
def State.dirtyAll (s : State) (n : Nat) : State :=
  if s.lvFlag (F.TERRACE_BANK_MIRROR n) then { s with terr.cur := put (fun _ => 0) s.terr.cur n (BitVec.allOnes 4096) } else s

/-- Both bitmaps of the bank are cleared (R212). -/
def State.dirtyNone (s : State) (n : Nat) : State := { s with terr.cur := drop s.terr.cur n, terr.send := drop s.terr.send n }

/-- The bank leaves ON: its unsent lines are dropped (R216). -/
def State.dropSending (s : State) (n : Nat) : State := { s with terr.send := drop s.terr.send n }

/-- Zero the contents of bank `n` and clear any bad word in it (R206). -/
def State.zeroBank (s : State) (n : Nat) : State :=
  let lo := 0x10000000 + n * 0x40000
  { s.wipe lo (lo + 0x40000) with
    terr.bad := s.terr.bad.filter fun w => !(decide (lo ≤ w) && decide (w < lo + 0x40000))
    terr.writeback := s.terr.writeback.filter fun w => !(decide (lo ≤ w) && decide (w < lo + 0x40000)) }

/-- The bank starts zeroing: its contents go, and every line of a mirrored bank becomes dirty (R206, R212). Mark: DESIGN CHOICE (log 116). -/
def State.startZero (s : State) (n : Nat) : State :=
  ((((s.bankStop n).setBank n bankZEROING).zeroBank n).dropSending n).dirtyAll n |>.arm (.bankZero n) zeroTicks

/-- The bank is switched off: its contents are lost (R206). -/
def State.bankOff (s : State) (n : Nat) : State :=
  ((((s.bankStop n).setBank n bankOFF).zeroBank n).dropSending n).wr (F.TERRACE_BANK_LIVE_ZERO_DUE n) 0

/-- A write that waited is served: it is checked now, and refused where it writes a part of an uncorrectable word (R202). -/
def State.serveWaiting (s : State) (w : Nat × Nat × List Byte) : State :=
  let bad := (wordsOf w.2.1 w.2.2.length).filter fun k => s.terr.bad.contains k && !wholeWord w.2.1 w.2.2.length k
  if !bad.isEmpty then (s.reportBad w.1 w.2.1 w.2.1 bad).lateStore w.1 kindMem w.2.2.length w.2.1
  else s.ramStore w.2.1 w.2.2

/-- Requests queued at a bank are served before it leaves ON (R209): the writes that wait for the rescue buffer take effect. The lines they would have rescued leave
with the bank's sending set (R216). -/
def State.flushBank (s : State) (n : Nat) : State :=
  let mine := s.terr.blocked.filter fun w => (lineOf w.2.1).1 == n
  mine.foldl State.serveWaiting ({ s with terr.blocked := s.terr.blocked.filter fun w => (lineOf w.2.1).1 != n } : State)

/-- Is the change from `old` to `new` of TERRACE_BANK_n a handover (R207)? -/
def isHandover (old new : Word) : Bool :=
  getBits old 28 28 != getBits new 28 28 || (getBits old 28 28 == 1 && getBits new 28 28 == 1 && getBits old 20 16 != getBits new 20 16)

/-- Bank `n` takes the live word `new` (R206, R207, R212, R478): the handover, the power change and the mirror flag, each as the bank's state
decides. -/
def State.bankCommit (s : State) (n : Nat) (new : Word) : State :=
  let old := s.liveReg (A.TERRACE_BANK n)
  let ho := isHandover old new
  let pow := getBits new 31 30
  let st := s.bankState n
  let s := if ho || pow != 2 then s.flushBank n else s
  let s := s.setLive (A.TERRACE_BANK n) (if pow = 1 ∧ st = bankOFF then setBits new 31 30 0 else new)
  let s := if getBits old 29 29 = 0 ∧ getBits new 29 29 = 1 then s.dirtyAll n
           else if getBits old 29 29 = 1 ∧ getBits new 29 29 = 0 then s.dirtyNone n else s
  if pow = 0 then s.bankOff n
  else if pow = 1 then
    if st = bankON then
      let s := (s.setBank n bankRET).dropSending n
      if ho then s.wr (F.TERRACE_BANK_LIVE_ZERO_DUE n) 1 else s
    else if st = bankRET then (if ho then (s.bankStop n).wr (F.TERRACE_BANK_LIVE_ZERO_DUE n) 1 else s.bankStop n)
    else if st = bankZEROING ∧ ho then s.startZero n
    else s
  else
    if st = bankOFF then ((s.bankStop n).setBank n bankWAKING).arm (.bankWake n) wakeTicks
    else if st = bankON then (if ho then s.startZero n else s)
    else if st = bankZEROING then (if ho then s.startZero n else s)
    else if st = bankRET then
      if s.flag (F.TERRACE_BANK_LIVE_ZERO_DUE n) || ho then (s.wr (F.TERRACE_BANK_LIVE_ZERO_DUE n) 0).startZero n
      else (s.arm (.bankResume n) resumeTicks)
    else s

/-- A bank has woken: it zeroes (R206). -/
def State.bankWoken (s : State) (n : Nat) : State := if s.bankState n = bankWAKING then s.startZero n else s

/-- A bank has been zeroed (R206, R478): ON and source 201, and RETENTION at once where that was committed meanwhile. -/
def State.bankZeroed (s : State) (n : Nat) : State :=
  if s.bankState n = bankZEROING then
    let s := (s.setBank n bankON).irq 201
    if s.lv (F.TERRACE_BANK_POWER n) = 1 then (s.setBank n bankRET).dropSending n else s
  else s

/-- A bank has resumed from RETENTION with its contents unchanged. -/
def State.bankResumed (s : State) (n : Nat) : State := if s.bankState n = bankRET then s.setBank n bankON else s

/-! ## Requests at a sub-bank (R201) -/

/-- The class of a master's requests. -/
def masterClass (m : Nat) : Nat :=
  if m = 11 ∨ (12 ≤ m ∧ m ≤ 15) ∨ m = 17 ∨ m = 22 then 0 else if m ≤ 10 ∨ m = 19 ∨ m = 20 ∨ m = 21 ∨ m = 24 then 1 else 2

/-- The class a request counts as: rescue reads are class 0, and class 1 is promoted once it has waited PROMOTE cycles. -/
def State.reqClass (s : State) (r : TReq) : Nat :=
  if r.rescue then 0
  else if masterClass r.master = 1 ∧ max 1 (s.rd F.TERRACE_CFG_PROMOTE) ≤ r.waited then 0
  else masterClass r.master

/-- Is `a` served before `b`: class, then age, then the lower master? -/
def State.servedBefore (s : State) (a b : TReq) : Bool :=
  let ca := s.reqClass a
  let cb := s.reqClass b
  decide (ca < cb) || (ca == cb && (decide (b.waited < a.waited) || (a.waited == b.waited && decide (a.master < b.master))))

/-- The request that is served first. -/
def State.winner (s : State) : List TReq → Option TReq
  | [] => none
  | r :: rs => match s.winner rs with
    | none => some r
    | some w => if s.servedBefore w r then some w else some r

/-- The words of sub-bank `b` that a request touches. -/
def TReq.wordsIn (r : TReq) (b : Nat) : Nat := ((wordsOf r.addr r.len).filter fun w => w / 8 % 4 == b).length

/-- The sub-bank at which requests meet: the lowest-numbered that each of them touches; a rescue read touches all four. -/
def meetAt (rs : List TReq) : Nat := ((List.range 4).find? fun b => rs.all fun r => r.rescue || r.atomic != 0 || r.wordsIn b != 0).getD 0

/-- Slots a request takes in sub-bank `b` (R200): two for an atomic, for a store of less than a word and for a rescue read, else one for each of its words there. -/
def TReq.slots (r : TReq) (b : Nat) : Nat :=
  if r.rescue ∨ r.atomic ≠ 0 ∨ (r.write ∧ r.len < 8) then 2 else max 1 (r.wordsIn b)

/-- A request of master `m` waits `n` cycles: TERRACE_CONFLICT counts, and source 206 fires when the frame's wait passes ALARM. -/
def State.reqWaits (s : State) (m n : Nat) : State :=
  let s := s.satCnt (F.TERRACE_CONFLICT_WAIT m) n
  let w := look (fun _ => 0) s.waits m + n
  let s : State := { s with waits := put (fun _ => 0) s.waits m w }
  let a := s.rd F.TERRACE_CFG_ALARM
  if a ≠ 0 ∧ a < w ∧ w ≤ a + n then s.irq 206 else s

/-- What the check bits find at the request's word (R203). -/
def State.reqEcc (s : State) (r : TReq) : State :=
  let w := physAddr r.master r.addr / 8 * 8
  if r.ecc = 1 then s.reportCE w
  else if r.ecc = 2 then { s with terr.bad := if s.terr.bad.contains w then s.terr.bad else s.terr.bad ++ [w] }
  else s

/-- What an atomic makes of the doubleword it finds (R161); none leaves it. -/
def TReq.update (r : TReq) (old : DWord) : Option DWord :=
  let b := BitVec.ofNat 64 (leAt r.data 0 8)
  if r.atomic = 1 then some b else if r.atomic = 2 then some (old + b) else if old = b then some (BitVec.ofNat 64 (leAt r.data 8 8)) else none

/-- A request is served. What a read or an atomic returned is in `rdata`. -/
def State.serveOne (s : State) (r : TReq) : State :=
  if r.rescue then
    let l := lineOf r.addr
    if s.sendingLine l.1 l.2 && decide (s.terr.rescue.length < 64) then s.rescue l.1 l.2 else s
  else if r.atomic ≠ 0 then
    match (s.reqEcc r).busAtomic r.master r.addr r.update with
    | (.ok d, s) => { s with rdata := d }
    | (.error _, s) => s
  else if r.write then
    match (s.reqEcc r).unitWrite r.master r.addr (padTo r.len r.data) with
    | (some k, s) => s.lateStore r.master k r.len r.addr
    | (none, s) => s
  else match (s.reqEcc r).unitRead r.master r.addr r.len with
    | (.ok bs, s) => { s with rdata := BitVec.ofNat 64 (leNat bs) }
    | (.error _, s) => s

/-- A sub-bank serves one of the requests that wait for it; the others wait through its slots, four cycles each (R200, R201). Mark: DESIGN CHOICE (log 120). -/
def State.serveRequest (s : State) (rs : List TReq) : State :=
  match s.winner rs with
  | none => s
  | some w => ((rs.erase w).foldl (fun (s : State) r => s.reqWaits r.master (4 * w.slots (meetAt rs))) s).serveOne w

/-- The next corrected word is written back in a free slot (R203). -/
def State.eccWriteback (s : State) : State := { s with terr.writeback := s.terr.writeback.drop 1 }

/-- A write that waited for the rescue buffer proceeds once it has room (R215). -/
def State.rescueResume (s : State) : State :=
  match s.terr.blocked with
  | [] => s
  | w :: rest =>
    let ls := s.unreadLines w.2.1 w.2.2.length
    if s.terr.rescue.length + ls.length ≤ 64 then
      (ls.foldl (fun (s : State) l => s.rescue l.1 l.2) ({ s with terr.blocked := rest } : State)).serveWaiting w
    else s

end Sys2Proof.Machine
end

