-- ==== Sys2Proof/Machine/Modes.lean ====
section
/-! DEFINITION. Operating modes (R16 to R20): which transitions exist, requests, and what entering a mode changes. -/

namespace Sys2Proof.Machine

/-- Are cue-pin outputs held in safe states in a mode (R242)? -/
def State.heldIn (s : State) (m : Mode) : Bool :=
  m == .factory || m == .understudy || m == .curtain || (m == .interval && s.partnerHolds)

/-- The act verified, Stage Time fit to lead: locked, or free-run permitted by the configuration (R17). -/
def State.timeFit (s : State) : Bool := s.servo == servoLOCKED || s.flag F.STIME_CTRL_FREE_OK

/-- The early act's area of Bedrock (R400). -/
def State.earlyArea (s : State) : List Byte := s.peek 0x20080000 0x40000

/-- The early act verifies, so that it can hold protection in INTERVAL (R17, R401). Mark: DEDUCED (log 129). -/
def State.earlyReady (s : State) : Bool := Config.actOk s.cfg s.earlyArea

/-- Does R17 list the transition that is requested through SYS_MODE_REQ, and does its condition hold? Mark: DEDUCED (log 24), DESIGN CHOICE (log 124). -/
def State.requestOk (s : State) (m : Mode) : Bool :=
  match s.mode, m with
  | .rehearsal, .lead => s.flag F.SYS_BOOT_FULL_OK && s.timeFit && !s.peerLeads
  | .rehearsal, .understudy => s.flag F.SYS_BOOT_FULL_OK && s.keyed && s.peerLeads && s.us.firstFull
  | .lead, .interval => (s.rd F.SYS_STATE_PAIR_ROLE == 0 || s.us.force) && s.earlyReady
  | .understudy, .interval => s.peerLeads
  | .interval, .lead => s.flag F.SYS_BOOT_FULL_OK && !s.peerLeads
  | .interval, .understudy => s.flag F.SYS_BOOT_FULL_OK && s.peerLeads && s.us.firstFull
  | _, _ => false

/-- A refused request is counted and booked at severity 4 (R17). -/
def State.refuseMode (s : State) (t : Nat) : State := (s.sat F.SYS_MODE_REQ_REFUSED).post 0x1002 4 8 [s.mode.code, t]

/-- A SYS_MODE_REQ write (R17, R19, R20): an accepted request waits for the next boundary and clears REFUSED. One that is accepted before that boundary takes the place of
the one that waits. Mark: DESIGN CHOICE (log 126). -/
def State.modeReqWrite (s : State) (w : Word) : State :=
  if !w.getLsbD 31 then s
  else
    let t := getBits w 2 0
    if 6 ≤ t ∨ !s.requestOk (Mode.ofCode t) then s.refuseMode t
    else { s.wr F.SYS_MODE_REQ_REFUSED 0 with modeReq := some (Mode.ofCode t) }

/-- Causes of a transition, as a record names them; the manual gives them no codes, so each code is free. -/
abbrev causeRequest : Nat := 0
/-- Takeover. -/
abbrev causeTakeover : Nat := 1
/-- Handover switch. -/
abbrev causeSwitch : Nat := 2
/-- Dual-lead resolution. -/
abbrev causeDual : Nat := 3
/-- Safety Curtain. -/
abbrev causeCurtain : Nat := 4
/-- Troupe coordinated INTERVAL. -/
abbrev causeTroupe : Nat := 5

/-- Bank `n` is set ON, unmirrored and owned by the link, and master 16 alone may access it (R258). -/
def State.landBank (s : State) (n : Nat) : State :=
  let w : Word := 0x90100000#32
  let s := (s.bankCommit n w).setReg (A.TERRACE_BANK n) w
  [A.COL_TRUNK_BANK_RMASK n, A.COL_TRUNK_BANK_WMASK n].foldl (fun s a => (s.setReg a 0x00010000#32).setLive a 0x00010000#32) s

/-- The UNDERSTUDY block commits the four landing banks itself, in a single commit of TERRACE and COL (R258). -/
def State.landBanks (s : State) : State :=
  let n := s.lv F.UNDERSTUDY_CFG_A_LAND
  (([n, n + 1, n + 2, n + 3].foldl State.landBank s).ownCommit Base.TERRACE).ownCommit Base.COL

/-- Do the modes of a KIND of image hold a mode (R386)? Full acts and the early act: FACTORY, REHEARSAL, INTERVAL; configuration and cue table also LEAD and UNDERSTUDY. -/
def imageModes (kind : Nat) (m : Mode) : Bool := m == .factory || m == .rehearsal || m == .interval || (decide (3 ≤ kind) && (m == .lead || m == .understudy))

/-- Image transfers whose KIND the mode does not allow are abandoned (R387): their state becomes 4. -/
def State.dropTransfers (s : State) : State :=
  { s with desk.images := s.desk.images.map fun p => if p.2.state = 1 && !imageModes p.1 s.mode then (p.1, { p.2 with state := 4 }) else p }

/-- Enter a mode (R18, R19, R72, R193, R242, R243): its record, the ports it holds or frees, the gears, the pins, the lanes; a Director owes a roll call (R280). A request that still waits is dropped, with no
refusal and no record. Mark: DESIGN CHOICE (log 126). -/
def State.enterMode (s : State) (m : Mode) (cause : Nat) : State :=
  let old := s.mode
  let s := { s.wr F.SYS_STATE_MODE m.code with modeReq := none, troupe.rollDue := !(m == Mode.factory) }
  let s := s.post 0x1001 3 8 [old.code, m.code, Config.modeCause cause]
  let s := if m == .lead || m == .understudy || m == .interval then s.setGears 0#32 else s
  let s := (List.range 4).foldl State.portMode s
  let s := s.setHeld (s.heldIn m)
  let s := s.lanesFollow.dropTransfers
  let s := if (m == .lead || m == .understudy || m == .interval) && s.rd F.SYS_STATE_PAIR_ROLE != 0 then s.landBanks else s
  s.summaryOwed

end Sys2Proof.Machine
end

