-- ==== Sys2Proof/Machine/Understudy.lean ====
section
/-! DEFINITION. The Understudy (R246 to R274): the heartbeat, mirror transfers in both directions, STALE and epochs, failure detection and takeover, handover, shadow
execution, self-test. -/

namespace Sys2Proof.Machine

/-! ## Heartbeat (R252) -/

/-- At a boundary UL_ALIVE_OUT toggles while the mode leads, follows or waits and FEED was written within ALIVE_FEED frames. -/
def State.aliveBoundary (s : State) : State :=
  let on := s.mode == .lead || s.mode == .understudy || s.mode == .interval
  match s.us.feedAge with
  | some a =>
    let s : State := { s with us.feedAge := some (a + 1) }
    if on && !s.boot.auxLost && decide (a < s.lv F.UNDERSTUDY_CFG_C_ALIVE_FEED) then { s with us.aliveOut := !s.us.aliveOut } else s
  | none => s

/-! ## Windows and digests (R269) -/

/-- Keep groups in ascending order. Mark: DESIGN CHOICE (log 65). -/
def insCommit (c : Nat × Nat) : List (Nat × Nat) → List (Nat × Nat)
  | [] => [c]
  | a :: t => if c.1 < a.1 then c :: a :: t else a :: insCommit c t

/-- DIGEST: CRC-32C over the commits in ascending group order, each its group and its word. -/
def digestOf (l : List (Nat × Nat)) : Nat :=
  crc32c ((l.foldl (fun a c => insCommit c a) []).flatMap fun c => leBytes 1 c.1 ++ leBytes 4 c.2)

/-- PDIGEST: the same CRC over PRESENT, HELD and MARKED of every gather. -/
def pdigestOf (l : List (Nat × Nat × Nat)) : Nat := crc32c (l.flatMap fun g => leBytes 8 g.1 ++ leBytes 8 g.2.1 ++ leBytes 8 g.2.2)

/-! ## What a transfer carries (R255, R256) -/

/-- The block number, index and word offset of a mirrored register. An ensemble's registers stand under their window's offset. -/
def cfgItem (key index : Nat) (v : Word) : CfgItem :=
  let a := if 0x100000000 ≤ key then Base.ENSEMBLE + key % 0x1000 else key
  { block := (a - 0x40000000) / 0x10000, index, offset := a % 0x10000 / 4, value := v }

/-- The register key an item names. -/
def CfgItem.key (i : CfgItem) : Nat :=
  if i.block = 11 then 0x100000000 + i.index * 0x1000 + i.offset * 4 else 0x40000000 + i.block * 0x10000 + i.offset * 4

/-- Keys of the mirrored registers with their INDEX (R256), block by block. -/
def mirroredKeys : List (Nat × Nat) :=
  (List.range 64).map (fun n => (A.TERRACE_BANK n, n))
    ++ [(A.CUE_CTRL, 0), (A.CUE_TKT_CFG, 0), (A.STIME_CALL_LO, 0), (A.STIME_CALL_HI, 0), (A.STIME_FRAME_CFG, 0)]
    ++ (List.range 256).flatMap (fun e =>
        ([F.ENSEMBLE_CFG_A_EN, F.ENSEMBLE_CFG_B_MATRIX, F.ENSEMBLE_CFG_C_LAG].map fun f => ((f.ens e).addr, e))
          ++ (List.range 64).map fun k => (((F.ENSEMBLE_MEMBER_QUEUE k).ens e).addr, e))
    ++ (List.range 48).flatMap (fun c => [(A.PACKER_CFG c, c), (A.PACKER_BASE c, c)])
    ++ (List.range 256).map (fun p => (A.PINS_CFG p, p)) ++ (List.range 128).map (fun k => (A.PINS_PAIR k, k))
    ++ (List.range 32).map (fun g => (A.PINS_GRP_CFG g, g)) ++ [(A.PINS_PPS_CFG, 0), (A.PINS_IRIG_CFG, 0)]

/-- The value that is mirrored for a key: the live copy, or the register where it has none; of CUE_CTRL, RUN alone. -/
def State.mirrorValue (s : State) (key : Nat) : Word :=
  if key = A.CUE_CTRL then BitVec.ofNat 32 (s.rd F.CUE_CTRL_RUN) else if key = A.CUE_TKT_CFG then s.reg key else s.liveReg key

/-- Configuration items that differ from what the partner holds. -/
def State.changedConfig (s : State) : List CfgItem :=
  (mirroredKeys.filter fun k => look noneAt s.us.sentConfig k.1 != some (s.mirrorValue k.1)).map fun k => cfgItem k.1 k.2 (s.mirrorValue k.1)

/-- Cue entries that differ from what the partner holds. -/
def State.changedCues (s : State) : List (Nat × List Word) :=
  ((List.range 16384).map fun i => (i, (List.range 4).map (s.cueWord i))).filter fun c => look noneAt s.us.sentCues c.1 != some c.2

/-- Does the queue's ring lie in a mirrored bank? -/
def State.queueMirrored (s : State) (r : QRec) : Bool :=
  r.v && match targetOf 25 (r.base * 64) with
    | .terrace n _ => s.lvFlag (F.TERRACE_BANK_MIRROR n)
    | _ => false

/-- Queues whose HEAD, TAIL or FULLCNT differ from what the partner holds. -/
def State.changedQueues (s : State) : List (Nat × Nat × Nat × Nat) :=
  (s.wing.queues.filter fun q => s.queueMirrored q.2 && look noneAt s.us.sentQueues q.1 != some (q.2.head, q.2.tail, q.2.fullcnt)).map
    fun q => (q.1, q.2.head, q.2.tail, q.2.fullcnt)

/-- The commanded levels, 32 bytes. -/
def State.pinLevels (s : State) : List Byte :=
  leBytes 32 ((List.range 256).foldl (fun a p => a + b2n ((s.pinOf p).cmd.getD false) * 2 ^ p) 0)

/-- Address of a core's checkpoint block in its window (R197). -/
def checkpointAddr (core : Nat) : Nat := 0x08000000 + core * 0x40000 + 0x1FE00

/-! ## Bytes of a transfer (R255) -/

/-- A record: TYPE in bits 63:56 of its header, padded to a multiple of 8. -/
def recordOf (ty hdr : Nat) (body : List Byte) : List Byte := leBytes 8 (ty * 2 ^ 56 + hdr % 2 ^ 56) ++ pad8 body

/-- Cut a list into pieces of at most `k`. -/
def chunks {α : Type} (k : Nat) : Nat → List α → List (List α)
  | 0, _ => []
  | fuel + 1, l => if l.isEmpty then [] else l.take k :: chunks k fuel (l.drop k)

/-- Runs of lines that one LINES record carries: consecutive lines of one bank, at most 64. -/
def lineRuns : List (Nat × Nat × Bool × List Byte) → List (List (Nat × Nat × Bool × List Byte))
  | [] => []
  | l :: t => match lineRuns t with
    | (m :: r) :: rest => if m.1 = l.1 ∧ m.2.1 = l.2.1 + 1 ∧ r.length < 63 then (l :: m :: r) :: rest else [l] :: (m :: r) :: rest
    | other => [l] :: other

/-- The LINES record of a run. -/
def linesRecord (r : List (Nat × Nat × Bool × List Byte)) : List Byte :=
  match r with
  | [] => []
  | l :: _ =>
    recordOf 7 (l.1 * 2 ^ 48 + l.2.1 * 2 ^ 36 + r.length)
      (leBytes 8 ((r.mapIdx fun i x => b2n x.2.2.1 * 2 ^ i).foldl (· + ·) 0) ++ r.flatMap fun x => x.2.2.2)

/-- The records of a transfer, END last. -/
def MirrorMsg.records (m : MirrorMsg) : List (List Byte) :=
  let open_ := recordOf 1 m.frame (leBytes 8 m.st ++ leBytes 4 m.digest ++ leBytes 4 m.pdigest ++ leBytes 4 m.hold ++ leBytes 4 m.health
    ++ leBytes 4 (m.epoch * 65536 + b2n m.resync + b2n m.handover * 2 + b2n m.departure * 4) ++ leBytes 4 m.switch)
  let pins := match m.pins with
    | some b => [recordOf 2 0 b]
    | none => []
  let cfg := (chunks 65535 (m.config.length + 1) m.config).map fun l =>
    recordOf 3 l.length (l.flatMap fun i => leBytes 8 (i.block * 2 ^ 59 + i.index * 2 ^ 51 + i.offset * 2 ^ 32 + i.value.toNat))
  let cues := (chunks 16383 (m.cues.length + 1) m.cues).map fun l =>
    recordOf 4 l.length (l.flatMap fun c => leBytes 4 c.1 ++ c.2.flatMap fun w => leBytes 4 w.toNat)
  let queues := (chunks 262143 (m.queues.length + 1) m.queues).map fun l =>
    recordOf 5 l.length (l.flatMap fun q => leBytes 4 q.1 ++ leBytes 4 (q.2.2.1 * 65536 + q.2.1) ++ leBytes 4 q.2.2.2 ++ leBytes 4 0)
  let cps := m.checkpoints.map fun c => recordOf 6 c.1 c.2
  let lines := (lineRuns m.lines).map linesRecord
  let all := open_ :: (pins ++ cfg ++ cues ++ queues ++ cps ++ lines)
  all ++ [recordOf 0xF (all.length + 1) []]

/-- The plaintext of a transfer. -/
def MirrorMsg.octets (m : MirrorMsg) : List Byte := m.records.flatten

/-- The clear seal header (R255): FRAME and EPOCH, BYTES, FLAGS. -/
def MirrorMsg.sealHeader (m : MirrorMsg) (len : Nat) : List Byte :=
  leBytes 8 (m.epoch * 2 ^ 48 + m.frame) ++ leBytes 4 len ++ leBytes 4 (b2n m.trunc + b2n m.resync * 2)

/-! ## The budget (R257) -/

/-- Bytes that placing one more item of size `n` in a record with header `h` and room for `k` items takes. -/
def addItem (h n k placed : Nat) : Nat := if placed % k = 0 then h + n else n

/-- Take items while they fit into `room`; answers what was taken, what was left, and the room left. Items of 20 bytes are padded to 8 by record. -/
def takeItems {α : Type} (h n k : Nat) : Nat → Nat → List α → List α × List α × Nat
  | _, room, [] => ([], [], room)
  | placed, room, a :: t =>
    let c := addItem h n k placed + (if n % 8 = 4 then (if placed % k % 2 = 0 then 4 else 0) else 0)
    let c := if n % 8 = 4 ∧ placed % k % 2 = 1 then c - 4 else c
    if c ≤ room then
      let r := takeItems h n k (placed + 1) (room - c) t
      (a :: r.1, r.2.1, r.2.2)
    else ([], a :: t, room)

/-- Take lines while they fit: 64 bytes each, and 16 for each record a run opens. -/
def takeLines : Option (Nat × Nat × Nat) → Nat → List MirrorLine → List MirrorLine × List MirrorLine
  | _, _, [] => ([], [])
  | prev, room, l :: t =>
    let run := match prev with
      | some (b, n, k) => if b = l.bank ∧ n + 1 = l.line ∧ k < 64 then k + 1 else 1
      | none => 1
    let c := if run = 1 then 80 else 64
    if c ≤ room then
      let r := takeLines (some (l.bank, l.line, run)) (room - c) t
      (l :: r.1, r.2)
    else ([], l :: t)

/-- Order lines by bank and line. -/
def insLine (l : MirrorLine) : List MirrorLine → List MirrorLine
  | [] => [l]
  | a :: t => if l.bank < a.bank ∨ (l.bank = a.bank ∧ l.line < a.line) then l :: a :: t else a :: insLine l t

/-- The budget of a transfer in bytes. -/
def State.mirrorBudget (s : State) : Nat := min (5 * s.lv F.UNDERSTUDY_CFG_B_WINDOW) 524288

/-- Bytes the link carries in `t` ticks: 5 per tick with both lanes up, 2.5 with one, none with none (R247). -/
def State.linkBytes (s : State) (t : Nat) : Nat := if 2 ≤ s.us.lanes.length then 5 * t else if s.us.lanes.length = 1 then 5 * t / 2 else 0

/-- Ticks the link takes for `n` bytes. -/
def State.linkTicks (s : State) (n : Nat) : Nat := if 2 ≤ s.us.lanes.length then (n + 4) / 5 else (2 * n + 4) / 5

/-- Lines of the sending sets that have not been read. -/
def State.unreadSending (s : State) : Nat := s.terr.send.foldl (fun a p => a + ((List.range 4096).filter fun i => p.2.getLsbD i).length) 0

/-- A line goes back to the current set and is carried to a later mirror (R216). -/
def State.carryLine (s : State) (bank line : Nat) : State := (s.setDirty bank line).satCnt F.TERRACE_DIRTY_CNT_CARRIED

/-- The lines of every sending set not yet read, in bank and line order. -/
def State.sendingLines (s : State) : List (Nat × Nat) :=
  s.terr.send.flatMap fun p => ((List.range 4096).filter fun i => p.2.getLsbD i).map fun i => (p.1, i)

/-- What is still in the sending sets merges into the current ones. -/
def State.mergeSending (s : State) : State :=
  s.sendingLines.foldl (fun s l => s.carryLine l.1 l.2) ({ s with terr.send := [] } : State)

/-- What of a message fits in `room` bytes (R257): items in record order while they fit, then lines; the message, the lines left, and whether items were left. -/
def mirrorCut (m : MirrorMsg) (room : Nat) (sorted : List MirrorLine) : MirrorMsg × List MirrorLine × Bool :=
  let (pins, pinsLeft, keep) := match m.pins with
    | some b => if 40 ≤ room then (some b, false, room - 40) else (none, true, room)
    | none => (none, false, room)
  let (cfg, cfgLeft, keep) := if pinsLeft then ([], m.config, keep) else takeItems 8 8 65535 0 keep m.config
  let (cues, cuesLeft, keep) := if pinsLeft || !cfgLeft.isEmpty then ([], m.cues, keep) else takeItems 8 20 16383 0 keep m.cues
  let (qs, qsLeft, keep) := if pinsLeft || !cfgLeft.isEmpty || !cuesLeft.isEmpty then ([], m.queues, keep) else takeItems 8 16 262143 0 keep m.queues
  let stop := pinsLeft || !cfgLeft.isEmpty || !cuesLeft.isEmpty || !qsLeft.isEmpty
  let cut : List MirrorLine × List MirrorLine := if stop then ([], sorted) else takeLines none keep sorted
  ({ m with pins := pins, config := cfg, cues := cues, queues := qs,
            lines := cut.1.map fun (l : MirrorLine) => (l.bank, l.line, !l.poison.isEmpty, l.bytes) }, cut.2, stop)

/-- Bytes of the items of `all` that did not go into `sent`, as the records carry them (R255): the truncated byte count apart from lines. -/
def leftBytes (all sent : MirrorMsg) : Nat :=
  (if all.pins.isSome && sent.pins.isNone then 32 else 0) + (all.config.length - sent.config.length) * 8 + (all.cues.length - sent.cues.length) * 20
    + (all.queues.length - sent.queues.length) * 16

/-- The transfer ends within `cap` bytes (R257): the message is cut to its room, the checkpoints always go, END and the seal; what stays unsent remains changed, TRUNC says
so, and the cue's ticket completes with the seal. -/
def State.mirrorSeal (s : State) (x : Xfer) (cap : Nat) : State :=
  let unread := s.sendingLines.length
  let c := mirrorCut x.msg (cap - 40 - x.control - 40 - 4160) ((s.terr.rescue ++ x.lines).foldl (fun a l => insLine l a) [])
  let trunc := c.2.2 || !c.2.1.isEmpty || unread != 0
  let msg := { c.1 with trunc := trunc }
  let pt := msg.octets
  let aad := msg.sealHeader pt.length
  let key := if s.isPrincipal then sliceB s.us.keys 0 32 else sliceB s.us.keys 32 32
  let s := s.send chanMirror 0x4D (aad ++ gcmSeal key (s.linkIv 0x4D x.msg.frame 0) aad pt)
  let s := c.2.1.foldl (fun s l => s.carryLine l.bank l.line) ({ s with terr.rescue := [], us.xfer := none } : State)
  let s := s.mergeSending
  let s : State := { s with
    us.sentPins := if msg.pins.isSome then msg.pins else s.us.sentPins
    us.sentConfig := msg.config.foldl (fun t i => put noneAt t i.key (some i.value)) s.us.sentConfig
    us.sentCues := msg.cues.foldl (fun t c => put noneAt t c.1 (some c.2)) s.us.sentCues
    us.sentQueues := msg.queues.foldl (fun t q => put noneAt t q.1 (some q.2)) s.us.sentQueues
    us.epochOpen := s.us.epochOpen && trunc }
  let s := (s.wr F.UNDERSTUDY_XFER_STAT_TRUNC (b2n trunc)).wr F.UNDERSTUDY_XFER_STAT_BYTES (pt.length / 64)
  let s := s.observe 8 0 (pt.length / 64)
  let s := if trunc then (s.sat F.UNDERSTUDY_CNT_A_TRUNCATED).postU 0x8003 4 [leftBytes x.msg msg + (c.2.1.length + unread) * 64] else s
  s.complete x.ticket false

/-- The transfer ends (R257): at its budget, at WINDOW, or earlier when everything has been sent. -/
def State.mirrorEnd (s : State) : State :=
  match s.us.xfer with
  | none => s
  | some x =>
    let w := s.lv F.UNDERSTUDY_CFG_B_WINDOW
    let done := s.sendingLines.isEmpty
    let n := (x.lines.length + s.terr.rescue.length) * 64 + x.msg.octets.length + x.control
    let s := s.reachST (x.start + (if done then min (s.linkTicks n) w else w))
    s.mirrorSeal x (min s.mirrorBudget (s.linkBytes w))

/-- A new epoch starts (R262): everything counts as changed. -/
def State.openEpoch (s : State) : State :=
  let s := s.wr F.UNDERSTUDY_STAT_EPOCH (s.rd F.UNDERSTUDY_STAT_EPOCH + 1)
  let s := (List.range 64).foldl (fun s n => s.dirtyAll n) s
  { s with us.epochReq := false, us.epochOpen := true, us.sentPins := none, us.sentConfig := [], us.sentCues := [], us.sentQueues := [] }

/-! ## Handover (R267, R268) -/

/-- The principal's health word lets a give-back start (R267). -/
def State.peerHealthy (s : State) : Bool :=
  let h := s.reg A.UNDERSTUDY_PEER_HEALTH
  h.getLsbD 31 && s.peerMode == .understudy && !h.getLsbD 27 && h.getLsbD 26 && getBits h 25 24 == 2 && h.getLsbD 21
    && (h.getLsbD 20 || !s.lvFlag F.UNDERSTUDY_CFG_A_SHADOW_EN) && h.getLsbD 18 && h.getLsbD 17 && !h.getLsbD 19 && decide (getBits h 11 4 ≤ 2)

/-- This device would answer READY: the conditions of R267 on itself. -/
def State.selfHealthy (s : State) : Bool :=
  s.mode == .understudy && !s.stale && !s.unsynced && s.us.lanes.length == 2 && s.us.sealOk
    && (s.us.shadowWait == 0 || !s.lvFlag F.UNDERSTUDY_CFG_A_SHADOW_EN) && s.us.failing.isEmpty && s.coresOk && !s.us.unfit && decide (s.lag ≤ 2)

/-- A handover is due: a requested departure, or the give-back of a secondary whose principal has been healthy long enough. -/
def State.handoverDue (s : State) : Option Bool :=
  if s.mode != .lead || !s.keyed || s.us.ho != 0 || decide (s.frame < s.us.hoNext) then none
  else if s.us.hoRequest then some true
  else if s.isSecondary && s.lvFlag F.UNDERSTUDY_CFG_A_AUTO_GB && decide (s.lv F.UNDERSTUDY_CFG_C_GB_SETTLE ≤ s.us.goodPulses) && s.peerHealthy then
    some false
  else none

/-- The lead's mirror cue in frame G starts a due handover, or books its wait for the holds (R267, step 1). -/
def State.handoverCue (s : State) : State :=
  match s.handoverDue with
  | none => s
  | some dep =>
    if s.holds != 0 then
      if s.us.hoWaiting then s else State.irq (State.postU { s with us.hoWaiting := true } 0x8008 3 [b2n dep]) 155
    else
      let s := if s.us.hoWaiting then s.postU 0x8008 3 [b2n dep] else s
      State.irq { s with us.ho := 1, us.hoDeparture := dep, us.hoSwitch := s.frame + 2, us.hoReady := false, us.hoWaiting := false } 155

/-- A handover ends without a switch (R267): counted, source 155; the next attempt comes GB_SETTLE frames later. -/
def State.handoverDrop (s : State) : State :=
  let s := s.sat F.UNDERSTUDY_CNT_C_GB_ABORT
  State.irq { s with us.ho := 0, us.hoRequest := false, us.hoNext := s.frame + s.lv F.UNDERSTUDY_CFG_C_GB_SETTLE } 155

/-- B(G + 2) − 10 µs (R267, step 4): the lead commits to the switch, or cancels. -/
def State.handoverCheck (s : State) : State :=
  if s.us.ho = 1 ∧ s.mode = .lead ∧ s.us.hoSwitch = s.frame + 1 then
    let s := s.reachST (s.nextBoundary - 5000).toNat
    if s.us.hoReady then { s with us.ho := 3 } else (s.sendControl 4).handoverDrop
  else s

/-! ## Control frames received (R251, R264, R265, R267) -/

/-- READY for the switch frame arrives at the lead. -/
def State.readyRx (s : State) (switch : Nat) : State :=
  if s.us.ho = 1 ∧ s.us.hoSwitch = switch then { s with us.hoReady := true } else s

/-- ABORT or CANCEL ends this device's readiness: source 155 (R267, R274). -/
def State.unready (s : State) : State := if s.us.ho = 2 then State.irq { s with us.ho := 0 } 155 else s

/-- A PULSE arrives that was sent at `sent` on the partner's Stage Time, with a measured link delay of `delay` ticks: the partner's health, the give-back count, a request for a
new epoch (R262), and how far the two Stage Times stand apart (R272). -/
def State.pulseRx (s : State) (health : Word) (sent delay : Nat) : State :=
  if !s.keyed then s
  else
    let s := { s.setReg A.UNDERSTUDY_PEER_HEALTH health with us.pulseSeen := true, us.pulseDiff := (sent : Int) + delay - s.now }
    let s := if s.us.failed then { s with us.failed := false } else s
    let s : State := { s with us.goodPulses := if s.peerHealthy then s.us.goodPulses + 1 else 0 }
    if health.getLsbD 0 && s.mode == .lead && !s.us.epochOpen then { s with us.epochReq := true } else s

/-- A PULSE leaves at B(N) + 1 µs while KEYED (R251). -/
def State.pulseSend (s : State) : State :=
  if s.keyed then (s.reachST (s.frameStart + 500).toNat).sendControl 1 else s

/-! ## Shadow compare (R269 to R271) -/

/-- One comparison of the understudy's frame `own` with the mirror `lead` of the frame before it. -/
def State.shadowCompare (s : State) (own prev : Digests) (lead : Digests) : State :=
  if prev.pdigest ≠ lead.pdigest then s.sat F.UNDERSTUDY_CNT_C_INPUT_DIFF
  else if own.digest = lead.digest then
    { s with us.mismatches := 0, us.shadowWait := s.us.shadowWait - 1 }
  else
    let s := ((s.sat F.UNDERSTUDY_CNT_B_MISMATCH).irq 158).postU 0x8009 5 [own.digest, lead.digest]
    let s : State := { s with us.mismatches := s.us.mismatches + 1, us.shadowWait := 64 }
    if max 1 (s.lv F.UNDERSTUDY_CFG_C_SHADOW_LIMIT) ≤ s.us.mismatches ∧ !s.us.unfit then State.postU { s with us.unfit := true } 0x800A 6 [] else s

/-- Frame M is compared once its own digest and the verified mirror M − 1 are both there (R270). -/
def State.shadowTry (s : State) (frame : Nat) : State :=
  if s.mode != .understudy || !s.lvFlag F.UNDERSTUDY_CFG_A_SHADOW_EN then s
  else
    match s.us.own.find? (fun d => d.frame == frame), s.us.own.find? (fun d => d.frame + 1 == frame), s.us.received.find? (fun d => d.frame + 1 == frame) with
    | some o, some p, some l =>
      let inTime := s.us.applies.any fun a => a.1 + 2 == frame &&
        decide ((a.2 : Int) ≤ boundaryAt s.call s.rate frame + s.lv F.UNDERSTUDY_CFG_D_READY_OFS)
      let s : State := { s with us.received := s.us.received.filter fun d => d.frame + 1 != frame }
      if inTime then s.shadowCompare o p l else s.sat F.UNDERSTUDY_CNT_B_SKIP
    | _, _, _ => s

/-! ## The mirror cue (R213, R255, R269) -/

/-- The current sets become the sending sets; what stood unsent is carried (R213, R216). -/
def State.startSending (s : State) : State :=
  let s := s.mergeSending
  { s with terr.send := s.terr.cur, terr.cur := [] }

/-- COMMIT cues dispatched in the window whose paths have not both finished: each counts in it, with a word that is free as no verdict is there yet (R269). Mark: DESIGN
CHOICE (log 138). -/
def State.countOpen (s : State) : State :=
  let late := s.dtake.evals.filter fun e => !e.counted
  { late.foldl (fun (s : State) e => { s.next with us.commits := s.us.commits ++ [(e.group, s.draw % 2 ^ 32)] }) s with
    dtake.evals := s.dtake.evals.map fun e => { e with counted := true } }

/-- The windows close with their digests. -/
def State.closeWindows (s : State) : Digests × State :=
  let s := s.countOpen
  let d : Digests := { frame := s.frame, digest := digestOf s.us.commits, pdigest := pdigestOf s.us.gathers }
  (d, { s with us.commits := [], us.gathers := [], us.own := d :: s.us.own.take 3, us.cueFrame := s.frame })

/-- The checkpoint blocks as master 16 reads them at the dispatch (R197, R218); a block whose read is refused is left out. Mark: DESIGN CHOICE (log 141). -/
def State.readCheckpoints (s : State) : List (Nat × List Byte) × State :=
  (List.range 8).foldl (fun acc c => match acc.2.dmaRead 16 (checkpointAddr c) 512 with
    | (.ok b, s) => (acc.1 ++ [(c, b)], s)
    | (.error _, s) => (acc.1, s)) ([], s)

/-- The mirror cue dispatches (R56, R213, R255): a leading device of a KEYED pair captures a transfer; without a pair, and on a device that does not lead, nothing is
sent and the sending sets are discarded. -/
def State.mirrorCue (s : State) (t : Option TicketRef) : State :=
  let s := match s.us.xfer with
    | some x => s.mirrorSeal x (min s.mirrorBudget (s.linkBytes (s.now - x.start)))
    | none => s
  let (d, s) := s.closeWindows
  let s := s.shadowTry s.frame
  if s.mode != .lead || !s.keyed then State.complete { s.startSending with terr.send := [], terr.rescue := [] } t false
  else
    let s := s.handoverCue
    let fresh := s.us.epochReq && !s.us.epochOpen
    let s := (if fresh then s.openEpoch else { s with us.epochReq := false }).startSending
    let lv := s.pinLevels
    let (cps, s) := s.readCheckpoints
    let m : MirrorMsg :=
      { frame := s.frame, epoch := s.rd F.UNDERSTUDY_STAT_EPOCH, trunc := false, resync := fresh, st := s.now, digest := d.digest, pdigest := d.pdigest,
        hold := s.holds.toNat, health := (s.reg A.UNDERSTUDY_HEALTH).toNat, handover := s.us.ho == 1, departure := s.us.hoDeparture,
        switch := if s.us.ho = 1 then s.us.hoSwitch % 2 ^ 32 else 0, pins := if s.us.sentPins = some lv then none else some lv,
        config := s.changedConfig, cues := s.changedCues, queues := s.changedQueues,
        checkpoints := cps, lines := [] }
    { s with us.xfer := some { start := s.now, ticket := t, msg := m, lines := [], control := 0 } }

/-- The mirror engine reads the next line of the sending sets, a rescued one first (R213, R215). -/
def State.mirrorLineRead (s : State) : State :=
  match s.us.xfer with
  | none => s
  | some x =>
    match s.terr.rescue with
    | l :: rest => { s with terr.rescue := rest, us.xfer := some { x with lines := x.lines ++ [l] } }
    | [] => match s.sendingLines with
      | (b, l) :: _ =>
        let r := s.readLine b l
        { r.2 with us.xfer := some { x with lines := x.lines ++ r.1.toList } }
      | [] => s

/-! ## Mirrors received (R258 to R263) -/

/-- A transfer is written into half N mod 2 of the landing area under master 16 (R258), and awaits its seal's check. -/
def State.mirrorLand (s : State) (m : MirrorMsg) (sealOk : Bool) : State :=
  let base := 0x10000000 + (s.lv F.UNDERSTUDY_CFG_A_LAND + 2 * (m.frame % 2)) * 0x40000
  let s := (s.dmaWrite 16 base (m.octets.take 524288)).2
  { s with us.arrived := s.us.arrived ++ [(m, sealOk)] }

/-- An apply still uses the half of the landing area that mirror `n` needs (R260). -/
def State.halfBusy (s : State) (n : Nat) : Bool :=
  (match s.us.applying with
    | some m => m.frame % 2 == n % 2
    | none => false) || (s.us.accepted.any fun m => m.frame % 2 == n % 2) || !s.us.parked.isEmpty

/-- A whole transfer arrives (R258 to R260): it lands, or waits in the receive buffer, and beyond its 64 KiB at the paused sender, until its half is free. A leading device, and
one whose partner has failed (R266), discards it. -/
def State.mirrorRx (s : State) (m : MirrorMsg) (sealOk : Bool) : State :=
  if !s.keyed || s.mode == .lead || s.us.takeDue.isSome then s
  else if s.halfBusy m.frame then { s with us.parked := s.us.parked ++ [(m, sealOk)] }
  else s.mirrorLand m sealOk

/-- Mirrors that wait for their half land once it is free (R260). -/
def State.landParked (s : State) : State :=
  match s.us.parked with
  | [] => s
  | (m, ok) :: rest =>
    let u : State := { s with us.parked := [] }
    if u.halfBusy m.frame then s else { u.mirrorLand m ok with us.parked := rest }

/-- The first record of mirror N + 2 arrives while the apply of N still uses its half: that apply is promoted (R260). -/
def State.mirrorFirst (s : State) (n : Nat) : State :=
  match s.us.applying with
  | some m => if m.frame + 2 = n then { s with us.promoted := true } else s
  | none => s

/-- A mirror is discarded (R259, R261). -/
def State.mirrorDiscard (s : State) (n : Nat) : State :=
  State.markStale (State.postU ({ s.sat F.UNDERSTUDY_CNT_A_SEAL_FAIL with us.sealOk := false, us.epochWhole := false }.irq 157) 0x8002 5
    [n % 2 ^ 32, n / 2 ^ 32])

/-- The newest frame accepted or applied. -/
def State.newestMirror (s : State) : Nat := s.us.accepted.foldl (fun a m => max a m.frame) (max s.appliedFrame ((s.us.applying.map (·.frame)).getD 0))

/-- The current epoch: that of the newest mirror accepted, or of the newest applied (R259). -/
def State.currentEpoch (s : State) : Nat :=
  match s.us.accepted.getLast?, s.us.applying with
  | some m, _ => m.epoch
  | none, some m => m.epoch
  | none, none => s.rd F.UNDERSTUDY_STAT_EPOCH

/-- The SWITCH frame that OPEN names by its low 32 bits: the first such frame from the current one on. -/
def State.switchFrame (s : State) (low : Nat) : Nat := s.frame + (low + 2 ^ 32 - s.frame % 2 ^ 32) % 2 ^ 32

/-- The seal is verified within 1 µs (R259, R267 step 2, R270): the mirror is accepted for its apply or discarded. -/
def State.sealVerify (s : State) : State :=
  match s.us.arrived with
  | [] => s
  | (m, ok) :: rest =>
    let s : State := { s with us.arrived := rest }
    if s.mode == .lead then s
    else if ok && decide (s.newestMirror < m.frame) && (m.epoch == s.currentEpoch || m.resync) then
      let s : State := { s with
        us.accepted := s.us.accepted ++ [m], us.sealOk := true
        us.received := { frame := m.frame, digest := m.digest, pdigest := m.pdigest } :: s.us.received.take 3 }
      let s := (s.setReg A.UNDERSTUDY_PEER_HEALTH (BitVec.ofNat 32 m.health)).shadowTry (m.frame + 1)
      if m.handover && s.selfHealthy && (m.departure || s.isPrincipal) then
        let s : State := { s with us.ho := 2, us.hoSwitch := s.switchFrame m.switch, us.hoDeparture := m.departure }
        s.sendControl 2
      else s
    else s.mirrorDiscard m.frame

/-- Put a mirrored value into a register: its live copy and its staging copy. -/
def State.setMirrored (s : State) (key : Nat) (v : Word) : State := (s.setReg key v).setLive key v

/-- Step 1: TERRACE_BANK items (R259). -/
def State.applyBanks (s : State) (items : List CfgItem) : State :=
  let l := items.filter fun i => i.block == 2
  let s := l.foldl (fun s i => (s.bankCommit (i.index % 64) i.value).setReg (A.TERRACE_BANK (i.index % 64)) i.value) s
  if l.isEmpty then s else s.ownCommit Base.TERRACE

/-- Is a bank named by the mirror still waking or zeroing? -/
def State.banksBusy (s : State) (items : List CfgItem) : Bool :=
  items.any fun i => i.block == 2 && (s.bankState (i.index % 64) == bankWAKING || s.bankState (i.index % 64) == bankZEROING)

/-- Steps 2 and 3: lines and checkpoints under master 16. -/
def State.applyMemory (s : State) (m : MirrorMsg) : State :=
  let s := m.lines.foldl (fun s l => (s.dmaWrite 16 (0x10000000 + l.1 * 0x40000 + l.2.1 * 64) l.2.2.2).2) s
  m.checkpoints.foldl (fun s c => (s.dmaWrite 16 (checkpointAddr c.1) c.2).2) s

/-- Step 4, queues. -/
def State.applyQueues (s : State) (m : MirrorMsg) : State :=
  m.queues.foldl (fun s q =>
    (s.setQueue q.1 { s.queue q.1 with head := q.2.1 % 65536, tail := q.2.2.1 % 65536, fullcnt := q.2.2.2 % 65536 }).restartIdle q.1) s

/-- The pins that are outputs (R229). -/
def State.outputPins (s : State) : List Nat := (List.range 256).filter fun p => decide (2 ≤ s.pinFunc p) && decide (s.pinFunc p ≤ 4)

/-- Step 4, pins: the commanded level of the outputs among `l`. -/
def State.applyPins (s : State) (l : List Nat) (pins : Option (List Byte)) : State :=
  match pins with
  | none => s
  | some b => l.foldl (fun s p => s.command p (bit (byteAt b (p / 8)) (p % 8))) s

/-- The blocks that step 5 commits: those whose paired set an item changes. -/
def affectedBlocks (items : List CfgItem) (cues : List (Nat × List Word)) : List Nat :=
  (if cues.isEmpty then [] else [Base.CUE]) ++
    ([(5, Base.STIME), (11, Base.ENSEMBLE), (12, Base.PACKER), (22, Base.PINS)].filter fun b => items.any fun i => i.block == b.1).map (·.2)

/-- Step 5: the other configuration and cue items, as one commit of each affected block (R259). -/
def State.applyConfig (s : State) (items : List CfgItem) (cues : List (Nat × List Word)) : State :=
  let pinsOld := s.live
  let frame := s.frame
  let grid := items.any fun i => i.block == 5 && s.liveReg i.key != i.value
  let s := items.foldl (fun s i =>
    if i.block = 4 then
      (if i.key = A.CUE_CTRL then s.cueCtrlWrite (BitVec.ofNat 32 (b2n (i.value.getLsbD 0))) else s.setReg i.key i.value)
    else if i.block = 11 then
      (s.setMirrored i.key i.value).ensFresh i.index
    else if i.block = 12 then
      (if i.key = A.PACKER_CFG i.index then (s.packerCommit i.index i.value (s.liveReg (A.PACKER_BASE i.index))).setReg i.key i.value
       else (s.packerCommit i.index (s.liveReg (A.PACKER_CFG i.index)) i.value).setReg i.key i.value)
    else if i.block = 5 ∨ i.block = 22 then s.setMirrored i.key i.value
    else s) s
  let s := cues.foldl (fun s c => (List.range 4).foldl (fun s k => s.setCueWord c.1 k (c.2.getD k 0#32)) s) s
  let s := cues.foldl (fun s c => s.dropWaiting c.1) s
  let s := if items.any fun i => i.block == 22 then s.pinsApplied pinsOld else s
  let s := if grid then (s.gridChanged frame).gridBreak else s
  (affectedBlocks items cues).foldl State.ownCommit s

/-- Steps 4 and 5 for pins, configuration and cues: the level of a pin that step 5 makes an output is commanded with it (R243, R259). -/
def State.applyRest (s : State) (pins : Option (List Byte)) (items : List CfgItem) (cues : List (Nat × List Word)) : State :=
  let was := s.outputPins
  let s := (s.applyPins was pins).applyConfig items cues
  s.applyPins (s.outputPins.filter fun p => !was.contains p) pins

/-- The newest value of each item is kept (R259). -/
def State.keepItems (s : State) (m : MirrorMsg) : State :=
  let k := s.us.kept
  { s with us.kept := {
      pins := if m.pins.isSome then m.pins else k.pins
      config := (k.config.filter fun i => !(m.config.any fun j => j.key == i.key)) ++ m.config.filter fun i => i.block != 2
      cues := (k.cues.filter fun c => !(m.cues.any fun d => d.1 == c.1)) ++ m.cues } }

/-- In INTERVAL only cues and commits change commanded levels (R242), so the newest levels of the mirrors wait there too for the entry to UNDERSTUDY. Mark: DEDUCED (log 152). -/
def State.keepPins (s : State) (pins : Option (List Byte)) : State := if pins.isSome then { s with us.kept := { s.us.kept with pins } } else s

/-- The kept items are applied as one set when the device enters UNDERSTUDY (R259). -/
def State.applyKept (s : State) : State :=
  let k := s.us.kept
  let s : State := { s with us.kept := { pins := none, config := [], cues := [] } }
  s.applyRest k.pins k.config k.cues

/-- A := N, and what completeness of the epoch brings (R259, R261, R263). -/
def State.applied (s : State) (m : MirrorMsg) : State :=
  let a := s.appliedFrame
  let first := m.resync
  let inRow := first || m.frame == a + 1
  let whole := first || (s.us.epochWhole && m.frame == a + 1)
  let s := (s.wr F.UNDERSTUDY_STAT_EPOCH m.epoch).setReg A.UNDERSTUDY_APPLIED_LO (BitVec.ofNat 32 m.frame)
  let s := s.setReg A.UNDERSTUDY_APPLIED_HI (BitVec.ofNat 32 (m.frame / 2 ^ 32 % 65536))
  let s := (s.wr F.UNDERSTUDY_XFER_STAT_TRUNC (b2n m.trunc)).wr F.UNDERSTUDY_XFER_STAT_BYTES (m.octets.length / 64)
  let s : State := { s with
    us.applying := none, us.promoted := false, us.openHold := BitVec.ofNat 32 m.hold, us.epochWhole := whole
    us.applies := (m.frame, s.now) :: s.us.applies.take 3 }
  let s := s.landParked
  if !m.trunc && whole then State.setStale { s with us.firstFull := true } false
  else if m.trunc || !inRow then s.markStale else s

/-- May the apply of a mirror begin (R270)? With shadow execution it waits for the understudy's mirror cue of the next frame. -/
def State.applyMay (s : State) (m : MirrorMsg) : Bool :=
  !(s.mode == .understudy && s.lvFlag F.UNDERSTUDY_CFG_A_SHADOW_EN) || decide (m.frame + 1 ≤ s.us.cueFrame)

/-- The steps of an apply that has begun (R259); it stands where banks wake or zero. -/
def State.applySteps (s : State) (m : MirrorMsg) : State :=
  if s.banksBusy m.config then s
  else
    let s := (s.applyMemory m).applyQueues m
    let s := if s.mode == .rehearsal then s.keepItems m
      else if s.mode == .interval then (s.keepPins m.pins).applyRest none m.config m.cues
      else s.applyRest m.pins m.config m.cues
    s.applied m

/-- An accepted mirror is applied, oldest first (R259). One that has begun always completes; none begins once a failure has been declared (R266). -/
def State.mirrorApply (s : State) : State :=
  if s.mode == .curtain then s
  else
    match s.us.applying with
    | some m => s.applySteps m
    | none => if s.mode == .lead || s.us.takeDue.isSome then s else match s.us.accepted with
      | [] => s
      | m :: rest =>
        if s.applyMay m then (State.applyBanks { s with us.accepted := rest, us.applying := some m } m.config).applySteps m else s

/-! ## Failure detection and takeover (R264 to R266) -/

/-- Add one to a miss counter that saturates at 15, or clear it. -/
def State.missCount (s : State) (f : Fld) (seen : Bool) : State := if seen then s.wr f 0 else s.wr f (min (s.rd f + 1) 15)

/-- The PEER flags of the health word (R265, R273): 1 once a pulse, or an edge, has arrived before a check, 0 once its miss counter has reached its limit. A change, or a limit
reached (`lost`), fires source 153. Mark: DEDUCED (log 137). -/
def State.peerFlags (s : State) (pulse alive lost : Bool) : State :=
  let changed := s.us.peerPulse != pulse || s.us.peerAlive != alive
  let s : State := { s with us.peerPulse := pulse, us.peerAlive := alive }
  if changed || lost then s.irq 153 else s

/-- LINK_MISS has reached L_LIMIT. -/
def State.linkLostNow (s : State) : Bool := decide (max 1 (s.lv F.UNDERSTUDY_CFG_A_L_LIMIT) ≤ s.rd F.UNDERSTUDY_STAT_LINK_MISS)

/-- ALIVE_MISS has reached A_LIMIT. -/
def State.aliveLostNow (s : State) : Bool := decide (max 1 (s.lv F.UNDERSTUDY_CFG_A_A_LIMIT) ≤ s.rd F.UNDERSTUDY_STAT_ALIVE_MISS)

/-- The partner has failed (R265): source 154 once; an understudy's takeover is due, a lead's handover is abandoned. -/
def State.declareFailure (s : State) : State :=
  let s := if s.us.failed then s else State.irq { s with us.failed := true } 154
  if s.mode == .understudy then { s with us.takeDue := if s.us.takeDue.isSome then s.us.takeDue else some s.frame, us.arrived := [], us.parked := [] }
  else if s.us.ho = 1 then s.handoverDrop else s

/-- Resolve the check of R265. `seen` says whether a pulse and an edge arrived since the last check, `lost` whether the limits were already reached at it. Mark: DEDUCED (log 137). -/
def State.resolveCheck (s : State) (seen lost : Bool × Bool) : State :=
  let link := s.linkLostNow
  let alive := s.aliveLostNow
  let linkNew := link && !lost.1
  let aliveNew := alive && !lost.2
  let s := s.peerFlags (if link then false else s.us.peerPulse || seen.1) (if alive then false else s.us.peerAlive || seen.2) (linkNew || aliveNew)
  if link && alive then s.declareFailure
  else if link then
    let s := if s.mode == .lead then s else if linkNew then s.markStale else s.setStale true
    if linkNew then s.postU 0x8004 5 [0] else s
  else
    let s := if aliveNew then s.postU 0x8004 5 [1] else s
    let wrong := s.mode == .understudy && s.peerKnown && s.peerMode != .lead && s.peerMode != .interval
    let s : State := { s with us.badMode := if wrong then s.us.badMode + 1 else 0 }
    if 2 ≤ s.us.badMode then s.declareFailure
    else if s.mode == .understudy && s.peerKnown && s.peerMode == .interval && s.us.ho != 2 then
      (if s.us.peerInterval then s else State.postU { s with us.peerInterval := true } 0x8006 5 [])
    else if s.mode == .lead && s.peerKnown && s.peerMode == .lead then
      let s : State := if s.isSecondary then { s with us.dualDue := true } else s
      if s.us.dual then s else State.postU { s with us.dual := true } 0x8005 6 []
    else { s with us.dual := false, us.peerInterval := false }

/-- The check at B(M) + 10 µs (R264). -/
def State.failureCheck (s : State) : State :=
  if !(s.mode == .lead || s.mode == .understudy || s.mode == .interval) || s.rd F.SYS_STATE_PAIR_ROLE == 0 then s
  else
    let s := s.reachST (s.frameStart + 5000).toNat
    let seen := (s.us.pulseSeen, s.us.aliveSeen)
    let lost := (s.linkLostNow, s.aliveLostNow)
    let s := (s.missCount F.UNDERSTUDY_STAT_LINK_MISS seen.1).missCount F.UNDERSTUDY_STAT_ALIVE_MISS seen.2
    let s := State.resolveCheck { s with us.pulseSeen := false, us.aliveSeen := false } seen lost
    let s := if s.mode == .understudy && s.us.failed && s.us.takeDue.isNone then { s with us.takeDue := some s.frame } else s
    s.setHeld (s.heldIn s.mode)

/-- The half of a checkpoint block with the larger frame number (R198). -/
def State.checkpointHalf (s : State) (core : Nat) : Nat :=
  let num := fun (a : Nat) => leNat (s.peek a 4) + 2 ^ 32 * leNat (s.peek (a + 4) 2)
  if num (checkpointAddr core) < num (checkpointAddr core + 256) then checkpointAddr core + 256 else checkpointAddr core

/-- The Stage Manager restarts core `n` from its checkpoint (R198). -/
def State.resumeCore (s : State) (n : Nat) : State :=
  let a := s.checkpointHalf n
  let pc := leNat (s.peek (a + 8) 4) / 4
  let s := (s.wr (F.IRQ_CORE_CTRL_PC n) pc).startCore n (4 * pc)
  let c := (s.core n).set 62 (BitVec.ofNat 64 (leNat (s.peek (a + 12) 4)))
  (s.wr (F.IRQ_CORE_CTRL_HOLD n) 0).setCore n c

/-- A device that takes over starts with no open tickets, and its first gathers mark what is missing (R61, R134, R266). -/
def State.freshLead (s : State) : State :=
  { s with
    cue.tickets := [], ens.held := []
    timers := s.timers.filter fun p => match p.1 with
      | .ticket _ => false
      | _ => true }

/-- The effects of taking over in LEAD (R266): mode, holds of frame A, record, cores, a new epoch, empty service queues (R390); tickets are not carried over. An apply that has begun goes on (R259). -/
def State.lead (s : State) (f cause : Nat) : State :=
  let s := match s.us.applying with
    | some m => s.applySteps m
    | none => s
  let s : State := { s.freshLead with us.takeDue := none, us.arrived := [], us.parked := [], us.accepted := [], us.ho := 0, us.hoWaiting := false,
                                      us.hoRequest := false, us.epochReq := true, us.epochOpen := false, us.goodPulses := 0, us.hoNext := 0 }
  let a := s.appliedFrame
  let stale := s.stale
  let s := (List.range 9).foldl State.loseRequests ((s.setReg A.UNDERSTUDY_HOLD s.us.openHold).enterMode .lead cause)
  let s := if cause = causeTakeover then (s.postU 0x8007 6 [f % 2 ^ 32, a % 2 ^ 32, b2n stale, b2n s.us.unfit]).irq 154 else s.irq 155
  (List.range 8).foldl State.resumeCore s

/-- The takeover instant (R266): B(F) + 11 µs, or the end of an apply that has begun; `agree` is Double-take's outcome on the transition, retried at the next check. -/
def State.takeover (s : State) (agree : Bool) : State :=
  match s.us.takeDue with
  | none => s
  | some f =>
    if s.mode != .understudy then { s with us.takeDue := none }
    else
      let s := s.reachST (s.frameStart + 5500).toNat
      let s := match s.us.applying with
        | some m => s.applySteps m
        | none => s
      if s.us.applying.isSome then s
      else match s.twice agree with
        | (true, s) => s.lead f causeTakeover
        | (false, s) => { s with us.takeDue := none }

/-! ## Self-test (R272) -/

/-- What a self-test finds (R272): a failing one is listed, its code kept, source 159 and a record. Test 1 also fails on an uncorrectable word; test 4 is the disagreements on this
understudy's own commits and test 5 the last pulse's ST against this device's, 1 µs apart at most. -/
def State.selftestOne (s : State) (test : Nat) (pass : Bool) : Bool × State :=
  let s := if test = 1 then s.terr.bad.foldl (fun s w => s.reportUE 0 w true) s else s
  let ok := if test = 1 then pass && s.terr.bad.isEmpty else if test = 4 then !s.dtake.ownDisagree else if test = 5 then decide (s.us.pulseDiff.natAbs ≤ 500) else pass
  let s : State := if test = 4 then { s with dtake.ownDisagree := false } else s
  if ok then (true, { s with us.failing := s.us.failing.filter (· != test) })
  else
    (false, State.postU (State.irq { s with us.failCode := test, us.failing := if s.us.failing.contains test then s.us.failing else s.us.failing ++ [test] } 159)
      0x800B 6 [test])

/-- A periodic self-test of the Understudy. -/
def State.selftestRun (s : State) (test : Nat) (pass : Bool) : State :=
  if s.mode != .understudy || test = 0 || decide (5 < test) then s else (s.selftestOne test pass).2

/-! ## Registers -/

/-- A write of UNDERSTUDY_CTRL. -/
def State.usCtrlWrite (s : State) (w : Word) : State :=
  let s : State := if w.getLsbD 31 then { s with us.feedAge := some 0 } else s
  let s := if w.getLsbD 30 && s.mode == .rehearsal && !s.us.joined then
      State.lanesFollow { s with us.joined := true }
    else s
  let s := if w.getLsbD 30 then s.landBanks else s
  let s : State := if w.getLsbD 29 && s.mode == .lead then { s with us.hoRequest := true } else s
  let s : State := if w.getLsbD 28 then { s with us.epochReq := true } else s
  let s := if w.getLsbD 27 && (s.keyed || s.pairing) then s.breakPair whyUNPAIR else s
  if w.getLsbD 26 && s.mode == .lead then s.setStale false else s

/-- Writes of the hold registers. -/
def State.holdSet (s : State) (w : Word) : State := s.setReg A.UNDERSTUDY_HOLD (s.holds ||| w)

/-- Holds cleared. -/
def State.holdClr (s : State) (w : Word) : State := s.setReg A.UNDERSTUDY_HOLD (s.holds &&& ~~~w)

/-- May an UNDERSTUDY GO be accepted? LAND is a multiple of 4 and WINDOW less than INT. -/
def State.usGoOk (s : State) : Bool := s.rd F.UNDERSTUDY_CFG_A_LAND % 4 == 0 && decide (s.rd F.UNDERSTUDY_CFG_B_WINDOW < rateInt s.rate)

end Sys2Proof.Machine
end

