-- ==== Sys2Proof/Machine/Troupe.lean ====
section
/-! DEFINITION. The troupe (R275 to R289): messages, roll call and attestation, call time, group keys, health, summaries, coordinated INTERVAL. -/

namespace Sys2Proof.Machine

/-! ## Roles and state (R275) -/

/-- The own slot. -/
def State.tSlot (s : State) : Nat := s.lv F.TROUPE_CFG_A_SLOT

/-- This device is the Director and takes part. -/
def State.isDirector (s : State) : Bool := s.lvFlag F.TROUPE_CFG_A_EN && s.rd F.SYS_STATE_TROUPE_ROLE == 1 && s.tSlot == 0

/-- This device is a Player and takes part. -/
def State.isPlayer (s : State) : Bool := s.lvFlag F.TROUPE_CFG_A_EN && s.rd F.SYS_STATE_TROUPE_ROLE == 2 && s.tSlot != 0

/-- The session key with a slot. -/
def State.session (s : State) (slot : Nat) : Option (List Byte) := look noneAt s.troupe.sessions slot

/-- TROUPE_STAT.STATE: alone, joining, member or Director, refused (R275). -/
def State.troupeState (s : State) : Nat :=
  let role := s.rd F.SYS_STATE_TROUPE_ROLE
  if !s.lvFlag F.TROUPE_CFG_A_EN || (role != 1 && role != 2) then 0
  else if s.isDirector then 2
  else if s.isPlayer then (if (s.session 0).isSome then 2 else 1)
  else 3

/-- The status register follows the agent's state. -/
def State.troupeShow (s : State) : State :=
  let n := ((List.range 64).filter fun k => k != 0 && (s.rd (F.TROUPE_MEMBER_STATE k) == 1 || s.rd (F.TROUPE_MEMBER_STATE k) == 3)).length
  (((s.wr F.TROUPE_STAT_STATE s.troupeState).wr F.TROUPE_STAT_BKEY (b2n s.troupe.bkey.isSome))).wr F.TROUPE_STAT_PRESENT (if s.isDirector then n else 0)

/-! ## Messages (R277, R278) -/

/-- SHA-256 over the two identity public keys (R275, R330). -/
def State.fingerprint (s : State) : List Byte :=
  let pub := fun (j : Nat) => match find? s.massif.keys j with
    | some k => Config.pkPublic k.type k.bytes
    | none => []
  sha256 (pub 3 ++ pub 4)

/-- The 28-byte header. -/
def State.troupeHead (s : State) (ty frag prot len seq : Nat) : List Byte :=
  beBytes 1 1 ++ beBytes 1 ty ++ beBytes 1 (s.lv F.TROUPE_CFG_A_TROUPE_ID) ++ beBytes 1 s.tSlot ++ beBytes 1 frag ++ beBytes 1 prot ++ beBytes 2 len
    ++ beBytes 4 seq ++ beBytes 6 s.frame ++ beBytes 2 0 ++ beBytes 8 s.now

/-- The frame of a message on port `n` without FCS (R277): to the multicast address or a slot's roster MAC, the 802.1Q tag with PCP 6 and the troupe VID, EtherType 0x88B5, at least 60
bytes. -/
def State.troupeFrame (s : State) (n : Nat) (dest : Option Nat) (b : List Byte) : List Byte :=
  let dst := match dest with
    | none => 0x011B19005400
    | some k => Config.rosterMac s.cfg k
  let f := beBytes 6 dst ++ beBytes 6 (s.portMac n) ++ beBytes 2 0x8100 ++ beBytes 2 (6 * 2 ^ 13 + s.lv F.TROUPE_CFG_A_VID) ++ beBytes 2 0x88B5 ++ b
  if f.length < 60 then padTo 60 f else f

/-- A frame of the agent waits at port `n` in the queue of PCP 6 (R98, R288), or is dropped with its link down. -/
def State.troupeQueue (s : State) (n : Nat) (b : List Byte) : State :=
  if s.linkUp n then
    let b := if s.vlanUntag (s.lv F.TROUPE_CFG_A_VID) n then untagged b else b
    s.setPort n { s.port n with fwd := (s.port n).fwd ++ [{ queue := s.pcpQueue 6, bytes := b, ptp := none, own := true }] }
  else s.txDrop n txLINK_DOWN

/-- A message goes to the ports of the troupe VLAN; a redundant pair takes it on both, tagged, under one number (R92, R94). Mark: DEDUCED (log 153). -/
def State.troupePost (s : State) (dest : Option Nat) (b : List Byte) : State :=
  let member := s.vlanMember (s.lv F.TROUPE_CFG_A_VID)
  [0, 1].foldl (fun s p =>
    if s.redMode (2 * p) = 0 then ([2 * p, 2 * p + 1].filter (bit member)).foldl (fun s n => s.troupeQueue n (s.troupeFrame n dest b)) s
    else if bit member (2 * p) || bit member (2 * p + 1) then
      let q := s.nextSeq p
      [2 * p, 2 * p + 1].foldl (fun s n => s.troupeQueue n (Config.redundant (s.redMode n) (n % 2) q.1 (s.troupeFrame n dest b))) q.2
    else s) s

/-- The fragments of a payload (R277, R279): two of an ATTEST or WELCOME, else of at most 1,900 bytes, four at most. Mark: DEDUCED (log 153). -/
def fragments (ty : Nat) (p : List Byte) : List (List Byte) :=
  if ty = 2 ∨ ty = 3 then [p.take ((p.length + 1) / 2), p.drop ((p.length + 1) / 2)]
  else if p.isEmpty then [[]] else (chunks 1900 (p.length + 1) p).take 4

/-- In CURTAIN only the roll call and command replies leave (R16, R101, R288). -/
def State.troupeMay (s : State) (ty : Nat) : Bool := s.mode != .curtain || ty == 1 || ty == 2 || ty == 3 || ty == 0x0B

/-- Send a message to a slot, or to all, each fragment sealed under `key` when it is protected. Mark: DESIGN CHOICE (log 18). -/
def State.troupeSend (s : State) (ty prot : Nat) (dest : Option Nat) (key payload : List Byte) : State :=
  if !s.troupeMay ty then s
  else
    let parts := fragments ty payload
    (parts.mapIdx fun i p => (i, p)).foldl (fun s p =>
      let seq := s.troupe.seq + 1
      let h := s.troupeHead ty (p.1 * 16 + parts.length) prot p.2.length seq
      let iv := beBytes 12 (0x54 * 2 ^ 88 + s.tSlot * 2 ^ 80 + s.frame * 2 ^ 32 + seq % 2 ^ 32)
      let body := if prot = 0 then p.2 else gcmSeal key iv h p.2
      State.troupePost { s with troupe.seq := seq } dest (h ++ body)) s

/-- A message is refused: counted, source 166 (R276, R278, R281). -/
def State.troupeRefuse (s : State) : State := (s.sat F.TROUPE_CNT_REFUSED).irq 166

/-- The session key before a member's present one is still held, for its open KEY exchange alone (R280). -/
def State.oldHeld (s : State) (slot : Nat) : Bool :=
  if s.isDirector then s.troupe.exchanges.any fun e => e.slot == slot && s.session slot != some e.key else (look noneAt s.troupe.oldSessions slot).isSome

/-- The key a protected message needs is held; `exch` says that it belongs to a KEY exchange. -/
def State.troupeKeyed (s : State) (h : THead) (exch : Bool) : Bool :=
  if h.prot = 1 then (if h.old then exch && s.oldHeld h.slot else (s.session h.slot).isSome) else if h.prot = 2 then s.troupe.bkey.isSome else true

/-- Is the header one of this troupe's (R277)? -/
def State.troupeOurs (s : State) (h : THead) : Bool :=
  h.ver == 1 && h.id == s.lv F.TROUPE_CFG_A_TROUPE_ID && decide (1 ≤ h.frag) && decide (h.frag ≤ 4) && decide (h.len ≤ 1900)

/-- The key a message came under, in the table of last sequence numbers. -/
def THead.keyOf (h : THead) : Nat := h.slot * 4 + if h.prot = 1 ∧ h.old then 3 else h.prot

/-- Does a message pass R276 to R278? `director` says that it comes from the Director, `prot` what its type requires, `exch` that it belongs to a KEY exchange. -/
def State.troupeAccept (s : State) (h : THead) (prot : Nat) (director exch : Bool) : Bool × State :=
  let last := look (fun _ => 0) s.troupe.lastSeq h.keyOf
  if !(s.isDirector || s.isPlayer) || !s.troupeOurs h then (false, s)
  else if s.isDirector && h.slot == 0 then (false, s.troupeRefuse.post 0x9002 6 21 [])
  else if director && (!s.isPlayer || h.slot != 0) then (false, s.troupeRefuse)
  else if !director && !s.isDirector then (false, s)
  else if h.prot != prot || (prot != 0 && (!s.troupeKeyed h exch || !h.tagOk || decide (h.seq ≤ last))) then (false, s.troupeRefuse)
  else if prot = 0 then (true, s)
  else (true, { s with troupe.lastSeq := put (fun _ => 0) s.troupe.lastSeq h.keyOf h.seq })

/-- A valid Director message was heard: DIR_SEEN, and the wait for the next starts (R288). -/
def State.directorHeard (s : State) : State :=
  (s.wr F.TROUPE_STAT_DIR_SEEN 1).arm .dirSilent
    (max 1 (s.lv F.TROUPE_CFG_C_SILENT_LIMIT) * s.lv F.TROUPE_CFG_B_HEALTH_PERIOD * ticksPerMs)

/-! ## Members (R281) -/

/-- Member states. -/
abbrev tmABSENT : Nat := 0
/-- PRESENT. -/
abbrev tmPRESENT : Nat := 1
/-- STRANGER. -/
abbrev tmSTRANGER : Nat := 2
/-- MISALIGNED. -/
abbrev tmMISALIGNED : Nat := 3
/-- SILENT. -/
abbrev tmSILENT : Nat := 4

/-- The state of a member. -/
def State.member (s : State) (k : Nat) : Nat := s.rd (F.TROUPE_MEMBER_STATE k)

/-- A member's state changes: source 160 or the one named, and a record with slot and new state at severity 3 or the one named. -/
def State.memberGo (s : State) (k st : Nat) : State :=
  if s.member k = st then s
  else
    let s := s.wr (F.TROUPE_MEMBER_STATE k) st
    let s := if st = tmMISALIGNED then (s.irq 162).post 0x9001 5 21 [k, st]
      else if st = tmSILENT then (s.irq 163).post 0x9001 5 21 [k, st]
      else s.post 0x9001 3 21 [k, st]
    (s.irq 160).troupeShow

/-- A STRANGER is found (R281): sources 160 and 161, and a record of severity 6 with slot, state and sender MAC in its first two words and the leading words of the received and the
roster fingerprint; 16 bytes hold no more. Mark: DESIGN CHOICE (log 154). -/
def State.strangerFound (s : State) (k mac : Nat) (print : List Byte) : State :=
  if s.member k = tmSTRANGER then s
  else
    let s := s.wr (F.TROUPE_MEMBER_STATE k) tmSTRANGER
    let roster := (Config.rosterPrint s.cfg k).getD []
    let s := (s.irq 161).post 0x9001 6 21 [k + tmSTRANGER * 2 ^ 8 + mac / 2 ^ 32 % 2 ^ 16 * 2 ^ 16, mac % 2 ^ 32, leAt print 0 4, leAt roster 0 4]
    (s.irq 160).troupeShow

/-- The slots that hold a group key: PRESENT members. -/
def State.presentSlots (s : State) : List Nat := (List.range 64).filter fun k => s.member k == tmPRESENT

/-! ## Roll call (R280) -/

/-- Replace the session key with slot `k`. The Director's open KEY exchanges keep the key they began under. A Player keeps its old key for as long as an exchange under it can be open:
the 4 s of a KEY and its three retries. Mark: DEDUCED (log 155). -/
def State.newSession (s : State) (k : Nat) (key : Option (List Byte)) : State :=
  let keep := s.isPlayer && (s.session k).isSome
  let last := look (fun _ => 0) s.troupe.lastSeq (k * 4 + 1)
  let t := if s.session k = none then s.troupe.lastSeq else put (fun _ => 0) s.troupe.lastSeq (k * 4 + 3) last
  let s : State := { s with
    troupe.oldSessions := if keep then put noneAt s.troupe.oldSessions k (s.session k) else s.troupe.oldSessions
    troupe.sessions := put noneAt s.troupe.sessions k key
    troupe.lastSeq := put (fun _ => 0) t (k * 4 + 1) 0 }
  if keep then s.arm (.keyRetry 0) (4 * ticksPerSecond) else s

/-- A roll call: ROLL with a fresh nonce, a new broadcast key, ROLL_WAIT, and the next one ROLL_PERIOD later (R280). -/
def State.rollBegin (s : State) : State :=
  if !s.isDirector || s.mode == .factory then s
  else
    let n := s.draw
    let k := Config.freshKey s.next.draw
    let s : State := { s.next.next with troupe.seq := 0, troupe.nonce := n, troupe.rolling := true, troupe.oldBkey := s.troupe.bkey, troupe.bkey := some k,
                                        troupe.answered := [], troupe.welcomed := [], troupe.rollDue := false }
    let s := (s.troupeSend 1 0 none [] (beBytes 32 n)).arm .rollWait (s.lv F.TROUPE_CFG_C_ROLL_WAIT * ticksPerMs)
    (s.arm .rollPeriod (s.lv F.TROUPE_CFG_B_ROLL_PERIOD * ticksPerSecond)).troupeShow

/-- The Director's next roll call: at once after its entry to a mode, else when ROLL_PERIOD has passed (R280). -/
def State.rollCall (s : State) : State :=
  if !s.isDirector || s.mode == .factory then s
  else State.rollBegin (if s.troupe.rollDue || !s.armed .rollPeriod then s else s.reachST (s.dueAt .rollPeriod))

/-- ATTEST leaves a Player: nonce, fingerprint, ephemeral keys, health word, and the signatures over them and the header (R279). -/
def State.sendAttest (s : State) (nonce : Nat) : State :=
  let body := beBytes 32 nonce ++ s.fingerprint ++ Config.troupeKeys s.draw ++ beBytes 4 (s.reg A.UNDERSTUDY_HEALTH).toNat
  let p := body ++ Config.identitySign (s.troupeHead 2 2 0 0 (s.troupe.seq + 1) ++ body)
  State.troupeSend { s.next with troupe.nonce := nonce, troupe.attest := p, troupe.attestDraw := s.draw } 2 0 (some 0) [] p

/-- A Player receives ROLL and answers ATTEST; its ROLL_WAIT starts (R280). -/
def State.rollRx (s : State) (h : THead) (nonce : Nat) : State :=
  match s.troupeAccept h 0 true false with
  | (false, s) => s
  | (true, s) =>
    let s : State := { s.directorHeard with troupe.seq := 0, troupe.rolling := true, troupe.welcomed := [] }
    (s.sendAttest nonce).arm .rollWait (s.lv F.TROUPE_CFG_C_ROLL_WAIT * ticksPerMs)

/-- The old broadcast key is zeroised once every PRESENT member has its WELCOME. -/
def State.oldKeyDone (s : State) : State :=
  if s.troupe.rolling && s.presentSlots.all s.troupe.welcomed.contains then { s with troupe.oldBkey := none } else s

/-- The session key of R280. H covers the ATTEST payload and the WELCOME up to its ciphertext, since the rest of the WELCOME is wrapped under the key. Mark: DEDUCED (log 155). -/
def sessionKey (z attest hello : List Byte) : List Byte := shake256 32 (z ++ sha256 (attest ++ hello))

/-- The Director welcomes a verified member: WELCOME with the Player's nonce, its own part of the key agreement, the broadcast key wrapped under the new session key, and both
signatures (R279, R280). -/
def State.welcome (s : State) (k : Nat) (attest : List Byte) : State :=
  let hello := padTo 32 attest ++ Config.troupeReply attest s.draw
  let key := sessionKey (Config.troupeSecrets true attest s.draw) attest hello
  let s := (s.next.newSession k (some key)).memberGo k tmPRESENT
  let s : State := { s with troupe.welcomed := s.troupe.welcomed ++ [k], troupe.missed := put (fun _ => 0) s.troupe.missed k 0 }
  let body := hello ++ kwWrap key (s.troupe.bkey.getD [])
  (s.troupeSend 3 0 (some k) [] (body ++ Config.identitySign (s.troupeHead 3 2 0 0 (s.troupe.seq + 1) ++ body))).oldKeyDone

/-- The Director verifies an ATTEST (R280 to R282): failing signatures, or at a roll call another nonce, refuse it; a fingerprint that is not the slot's makes a STRANGER, which keeps no
session key; else the member is welcomed. Mark: DEDUCED (log 62, 155). -/
def State.attestRx (s : State) (h : THead) (payload : List Byte) (sigOk : Bool) : State :=
  match s.troupeAccept h 0 false false with
  | (false, s) => s
  | (true, s) =>
    let s : State := { s with troupe.answered := s.troupe.answered ++ [h.slot] }
    if !sigOk || (s.troupe.rolling && beNat (sliceB payload 0 32) != s.troupe.nonce) then s.troupeRefuse
    else if Config.rosterPrint s.cfg h.slot ≠ some (sliceB payload 32 32) then (s.newSession h.slot none).strangerFound h.slot h.mac (sliceB payload 32 32)
    else s.welcome h.slot payload

/-- A Player takes WELCOME (R276, R280): signed by the slot 0 fingerprint of its roster over its nonce, it yields the session key and under it the broadcast key. -/
def State.welcomeRx (s : State) (h : THead) (hello wrapped print : List Byte) (sigOk : Bool) : State :=
  match s.troupeAccept h 0 true false with
  | (false, s) => s
  | (true, s) =>
    let key := sessionKey (Config.troupeSecrets false hello s.troupe.attestDraw) s.troupe.attest hello
    match (if sigOk && Config.rosterPrint s.cfg 0 == some print && beNat (sliceB hello 0 32) == s.troupe.nonce && !s.troupe.attest.isEmpty then kwUnwrap key wrapped else none) with
    | none => s.troupeRefuse
    | some b =>
      let s := s.newSession 0 (some key)
      State.troupeShow ({ s with troupe.bkey := some b, troupe.attest := [], troupe.welcomed := [0],
                                 troupe.lastSeq := put (fun _ => 0) s.troupe.lastSeq 2 0 }.directorHeard)

/-- ROLL_WAIT ends (R280 to R282). On the Director, members that sent no ATTEST are ABSENT, a STRANGER stays one, and every member without a WELCOME loses its session key; a Player
without one loses its own. Mark: DEDUCED (log 63). -/
def State.rollWaitEnd (s : State) : State :=
  let slots := if s.isDirector then (List.range 64).filter (· != 0) else [0]
  let s := (slots.filter fun k => !s.troupe.welcomed.contains k).foldl (fun s k => s.newSession k none) s
  let s := if s.isDirector then
      (slots.filter fun k => !s.troupe.answered.contains k).foldl (fun s k => if s.member k = tmSTRANGER then s else s.memberGo k tmABSENT) s
    else s
  State.troupeShow { s with troupe.rolling := false, troupe.oldBkey := none }

/-! ## Call time (R283, R284) -/

/-- The next HEALTH_PERIOD starts: the Director broadcasts CALL; members not heard since the last one miss a period (R279, R281). Mark: DEDUCED (log 63). -/
def State.healthPeriod (s : State) : State :=
  if !s.isDirector then s
  else
    let s := if s.armed .healthPeriod then s.reachST (s.dueAt .healthPeriod) else s
    let s := s.arm .healthPeriod (s.lv F.TROUPE_CFG_B_HEALTH_PERIOD * ticksPerMs)
    let s := match s.troupe.bkey with
      | some k => s.troupeSend 4 2 none k (beBytes 8 s.call ++ beBytes 1 s.rate ++ beBytes 2 s.troupe.epoch)
      | none => s
    let s := (List.range 64).foldl (fun s k =>
      if (s.member k = tmPRESENT ∨ s.member k = tmMISALIGNED) ∧ !s.troupe.heard.contains k then
        { s with troupe.missed := put (fun _ => 0) s.troupe.missed k (look (fun _ => 0) s.troupe.missed k + 1) }
      else { s with troupe.missed := put (fun _ => 0) s.troupe.missed k 0 }) s
    { s with troupe.heard := [] }

/-- A commit waits for its WHEN (R28): PENDING, ABORTED cleared. -/
def State.goPend (s : State) (base when_ cue : Nat) : State :=
  let s := ((s.wr (F.BLOCK_COMMIT_STATUS_PENDING base) 1).wr (F.BLOCK_COMMIT_STATUS_ABORTED base) 0).wr (F.BLOCK_COMMIT_STATUS_PEND_WHEN base) when_
  { s with pendCue := put (fun _ => 0) s.pendCue base cue }

/-- A commit is pending in a block. -/
def State.pendingIn (s : State) (base : Nat) : Bool := s.flag (F.BLOCK_COMMIT_STATUS_PENDING base)

/-- No commit of a block is pending any more. -/
def State.unpend (s : State) (base : Nat) : State := (s.wr (F.BLOCK_COMMIT_STATUS_PENDING base) 0).wr (F.BLOCK_COMMIT_STATUS_PEND_WHEN base) 0

/-- HEALTH leaves a Player. -/
def State.sendHealth (s : State) : State :=
  match s.session 0 with
  | none => s
  | some k =>
    let drops := (List.range 5).flatMap fun r =>
      beBytes 4 ((List.range 4).foldl (fun a n => a + (s.cntReg (A.SP_DROP n (0x0A + r))).toNat) 0)
    s.troupeSend 5 1 (some 0) k (beBytes 4 (s.reg A.UNDERSTUDY_HEALTH).toNat ++ beBytes 1 s.mode.code ++ beBytes 4 (s.reg A.STIME_OFFSET).toNat ++ beBytes 8 s.call
      ++ beBytes 1 s.rate ++ beBytes 4 s.holds.toNat ++ drops)

/-- The Director receives HEALTH (R281, R284): FRAME is held against its own frame number at its own ST. -/
def State.healthRx (s : State) (h : THead) (x : THealth) : State :=
  match s.troupeAccept h 1 false false with
  | (false, s) => s
  | (true, s) =>
    let s : State := { s with
      troupe.heard := s.troupe.heard ++ [h.slot], troupe.missed := put (fun _ => 0) s.troupe.missed h.slot 0
      troupe.healthAt := put noneAt s.troupe.healthAt h.slot (some s.now) }
    let s := s.wr (F.TROUPE_MEMBER_MODE h.slot) x.mode
    let off := x.call != s.call || x.rate != s.rate || decide (s.lv F.TROUPE_CFG_C_ALIGN_NS * 128 < x.offset.natAbs)
      || decide (frameAt s.call s.rate s.now ≠ (h.frame : Int))
    if s.member h.slot = tmPRESENT ∧ off then s.memberGo h.slot tmMISALIGNED else s

/-- SILENT_LIMIT periods without HEALTH (R281). Mark: DEDUCED (log 62). -/
def State.memberSilent (s : State) (k : Nat) : State :=
  if (s.member k = tmPRESENT ∨ s.member k = tmMISALIGNED) ∧ max 1 (s.lv F.TROUPE_CFG_C_SILENT_LIMIT) ≤ look (fun _ => 0) s.troupe.missed k then
    s.memberGo k tmSILENT
  else s

/-- The Director has been silent (R288). -/
def State.directorSilent (s : State) : State :=
  if s.isPlayer then ((s.wr F.TROUPE_STAT_DIR_SEEN 0).irq 163).post 0x9004 5 21 [] else s

/-! ## Group keys (R285) -/

/-- The timer of an exchange, by slot and entry. -/
def keyTimer (slot entry : Nat) : Timer := .keyRetry (entry * 64 + slot)

/-- KEY leaves for one member, and its 1 s starts. -/
def State.sendKey (s : State) (e : KeyExch) : State := (s.troupeSend 6 1 (some e.slot) e.key e.body).arm (keyTimer e.slot e.entry) ticksPerSecond

/-- The key with a KID that a stream-key entry holds. -/
def StreamKey.byKid (v : StreamKey) (kid : Nat) : Option KeyVal := (v.cur.toList ++ v.other.toList).find? fun k => k.kid == kid

/-- The Director sends a group key to each PRESENT member, at least 10 s before frame C - V (R285). Mark: DEDUCED (log 156). -/
def State.keySend (s : State) (entry kid change overlap : Nat) : State :=
  if !s.isDirector || decide (boundaryAt s.call s.rate ((change : Int) - overlap) < (s.now + 10 * ticksPerSecond : Nat)) then s
  else match (s.streamKey entry).byKid kid with
    | none => s
    | some v => s.presentSlots.foldl (fun s k =>
        match s.session k with
        | none => s
        | some key =>
          let body := beBytes 2 entry ++ beBytes 4 kid ++ beBytes 6 change ++ beBytes 2 overlap ++ kwWrap key (beBytes (if v.len256 then 32 else 16) v.value)
          let e : KeyExch := { slot := k, entry, kid, change, overlap, retries := 0, key, body }
          State.sendKey { s with troupe.exchanges := (s.troupe.exchanges.filter fun x => x.slot != k || x.entry != entry) ++ [e]
                                 troupe.keysFailed := s.troupe.keysFailed.filter (· != (k, entry)) } e) s

/-- A Player unwraps a KEY, pushes it as the next key of its entry and commits, and answers KEY_ACK under the key it came under; an old session key ends with it (R280, R285, R288).
The status is OK or BAD_PARAM. -/
def State.troupeKeyRx (s : State) (h : THead) (k : TKey) : State :=
  match s.troupeAccept h 1 true true with
  | (false, s) => s
  | (true, s) =>
    if s.mode == .curtain then s
    else
      let s := s.directorHeard
      let s := (s.wr F.SOLOIST_KEY_IDX_INDEX k.entry).wr F.SOLOIST_KEY_IDX_SLOT 1
      let s := (s.wr F.SOLOIST_KEY_KID_KID k.kid).wr F.SOLOIST_KEY_ATTR_LEN256 (b2n k.len256)
      let s := s.wr F.SOLOIST_KEY_ATTR_OVERLAP k.overlap
      let s := (List.range 8).foldl (fun s i => s.setReg (A.SOLOIST_KEY_VAL i) (BitVec.ofNat 32 (k.value / 2 ^ (32 * i)))) s
      let s := (s.setReg A.SOLOIST_KEY_CHG_LO (BitVec.ofNat 32 k.change)).setReg A.SOLOIST_KEY_CHG_HI (BitVec.ofNat 32 (k.change / 2 ^ 32 % 65536))
      let s := if k.wrapOk then s.solPush (BitVec.twoPow 32 31) else s.wipeStagedKey
      let good := k.wrapOk && !s.flag F.SOLOIST_KEY_STAT_LAST_REFUSED
      let s := if good && !s.pendingIn Base.SOLOIST then (s.solApply).wrap (F.BLOCK_COMMIT_STATUS_APPLIED Base.SOLOIST) else s
      match (if h.old then look noneAt s.troupe.oldSessions 0 else s.session 0) with
      | some key =>
        let s := s.troupeSend 7 1 (some 0) key (beBytes 4 k.kid ++ beBytes 1 (if good then scOK else scBAD_PARAM))
        if h.old then State.disarm { s with troupe.oldSessions := put noneAt s.troupe.oldSessions 0 none } (.keyRetry 0) else s
      | none => s

/-- An exchange ends; the session key it kept goes with it (R280, R288). -/
def State.exchangeEnd (s : State) (k entry : Nat) : State :=
  State.disarm { s with troupe.exchanges := s.troupe.exchanges.filter fun e => e.slot != k || e.entry != entry } (keyTimer k entry)

/-- The Director receives KEY_ACK: KEYS_OK when no KEY to the member is left unacknowledged. -/
def State.keyAckRx (s : State) (h : THead) (kid : Nat) : State :=
  match s.troupeAccept h 1 false true with
  | (false, s) => s
  | (true, s) =>
    match s.troupe.exchanges.find? fun e => e.slot == h.slot && e.kid == kid with
    | none => s
    | some e =>
      let s := s.exchangeEnd h.slot e.entry
      if (s.troupe.exchanges.any fun x => x.slot == h.slot) || s.troupe.keysFailed.any fun f => f.1 == h.slot then s
      else s.wr (F.TROUPE_MEMBER_KEYS_OK h.slot) 1

/-- A KEY stands unacknowledged for 1 s: it is sent again, at most three times; then KEYS_OK clears (R285). On a Player the time of an old session key is over. Mark: DEDUCED
(log 63). -/
def State.troupeKeyRetry (s : State) (n : Nat) : State :=
  match s.troupe.exchanges.find? fun e => e.entry * 64 + e.slot == n with
  | none => if n = 0 then { s with troupe.oldSessions := put noneAt s.troupe.oldSessions 0 none } else s
  | some e =>
    if e.retries < 3 then
      let e' := { e with retries := e.retries + 1 }
      State.sendKey { s with troupe.exchanges := s.troupe.exchanges.map fun x => if x = e then e' else x } e'
    else
      let s := (s.exchangeEnd e.slot e.entry).wr (F.TROUPE_MEMBER_KEYS_OK e.slot) 0
      (State.irq { s with troupe.keysFailed := (e.slot, e.entry) :: s.troupe.keysFailed } 164).post 0x9003 5 21 [e.slot, e.kid]

/-- The exchange of slot `k` whose time runs out first. -/
def State.keyRetryNext (s : State) (k : Nat) : Option Nat :=
  (s.timers.foldl (fun (a : Option (Nat × Nat)) t => match t.1 with
    | .keyRetry n => if n % 64 = k ∧ a.all (fun b => decide (t.2 < b.2)) then some (n, t.2) else a
    | _ => a) none).map (·.1)

/-- The time of an exchange of slot `k` runs out (R285). -/
def State.keyRetryDue (s : State) (k : Nat) : State :=
  match s.keyRetryNext k with
  | some n => s.fire (.keyRetry n) (·.troupeKeyRetry n)
  | none => s

/-! ## Coordinated INTERVAL (R287) -/

/-- Does a slot mask name both members of a pair (R287)? -/
def State.namesPair (s : State) (mask : Nat) : Bool :=
  (List.range 64).any fun k => bit mask k && (Config.rosterPartner s.cfg k).any (bit mask)

/-- The Director broadcasts INTERVAL. -/
def State.intervalCall (s : State) (mask start stop : Nat) : State :=
  match s.troupe.bkey with
  | some k => State.troupeSend { s with troupe.acks := [] } 8 2 none k (beBytes 8 mask ++ beBytes 6 start ++ beBytes 6 stop)
  | none => s

/-- A Player receives INTERVAL and answers with OK, WRONG_MODE, BUSY or DENIED (R372). -/
def State.intervalRx (s : State) (h : THead) (mask start stop : Nat) : State :=
  match s.troupeAccept h 2 true false with
  | (false, s) => s
  | (true, s) =>
    let s := s.directorHeard
    if !bit mask s.tSlot then s
    else
      let both := match Config.rosterPartner s.cfg s.tSlot with
        | some p => bit mask p
        | none => false
      let departs := s.mode == .lead && s.peerHealthy
      let enters := s.mode == .understudy && s.peerLeads
      let status := if both then scDENIED else if !departs && !enters then scWRONG_MODE else if s.holds ≠ 0 then scBUSY else scOK
      let s : State := if both then s
        else if departs then { s with us.hoRequest := true, us.hoNext := max s.us.hoNext (start - 2), troupe.interval := some (start, stop, false) }
        else if enters then { s with troupe.interval := some (start, stop, false) } else s
      match s.session 0 with
      | some key => s.troupeSend 9 1 (some 0) key (beBytes 6 start ++ beBytes 1 status)
      | none => s

/-- The Director receives INTERVAL_ACK: source 165. -/
def State.intervalAckRx (s : State) (h : THead) (status : Nat) : State :=
  match s.troupeAccept h 1 false false with
  | (false, s) => s
  | (true, s) => State.irq { s with troupe.acks := (h.slot, status) :: s.troupe.acks.filter fun a => a.1 != h.slot } 165

/-- At the boundary of frame `n` a named understudy whose partner leads enters INTERVAL, from frame S on (R17, R287). -/
def State.intervalAt (s : State) (n : Nat) : Bool :=
  match s.troupe.interval with
  | some (st, _, false) => s.mode == .understudy && s.peerLeads && decide (st ≤ n)
  | _ => false

/-- It has entered. -/
def State.intervalEntered (s : State) : State := { s with troupe.interval := s.troupe.interval.map fun i => (i.1, i.2.1, true) }

/-! ## Summaries (R286, R417) -/

/-- Records one second may carry. -/
def sumLimit : Nat := 64

/-- A record as 32 bytes. -/
def Rec.bytes (r : Rec) : List Byte :=
  leBytes 8 r.st.toNat ++ leBytes 4 r.seq.toNat
    ++ leBytes 4 (r.code % 65536 * 65536 + r.sev % 8 * 8192 + b2n r.sum * 4096 + r.src % 64 * 64 + r.rep % 64)
    ++ padTo 16 (r.words.flatMap fun w => leBytes 4 w.toNat)

/-- A Player sends its waiting records, at most 56 in a message and 64 in a second; records beyond are counted in SUM_DROP. -/
def State.summarySend (s : State) : State :=
  match s.session 0 with
  | none => s
  | some k =>
    if !s.isPlayer || s.mode == .curtain || s.troupe.sumQueue.isEmpty then s
    else
      let sec := s.now / ticksPerSecond
      let used := if s.troupe.sumAt = sec then s.troupe.sumCount else 0
      let n := min (min 56 s.troupe.sumQueue.length) (sumLimit - used)
      let out := s.troupe.sumQueue.take n
      let rest := s.troupe.sumQueue.drop n
      let dropped := if used + n = sumLimit then rest.length else 0
      let s : State := { s with troupe.sumAt := sec, troupe.sumCount := used + n, troupe.sumQueue := if used + n = sumLimit then [] else rest }
      let s := s.sat F.TROUPE_CNT_SUM_DROP dropped
      if out.isEmpty then s else s.troupeSend 0xA 1 (some 0) k (out.flatMap Rec.bytes)

/-- The Director books each record of a SUMMARY with SUM = 1 and the sender's slot. -/
def State.summaryRx (s : State) (h : THead) (recs : List TRec) : State :=
  match s.troupeAccept h 1 false false with
  | (false, s) => s
  | (true, s) => (recs.take 56).foldl (fun s (r : TRec) =>
      s.postRec { st := r.st, seq := 0, code := r.code, sev := r.sev, sum := true, src := h.slot, rep := r.rep, words := r.words.take 4 }) s

/-- AGE of a member in seconds since its last HEALTH. -/
def State.memberAge (s : State) (k : Nat) : Nat :=
  match look noneAt s.troupe.healthAt k with
  | some t => min ((s.now - t) / ticksPerSecond) 65535
  | none => 0

/-- May a TROUPE GO be accepted: VID 0 and 4,095 and zero periods are refused. -/
def State.troupeGoOk (s : State) : Bool :=
  s.rd F.TROUPE_CFG_A_VID != 0 && s.rd F.TROUPE_CFG_A_VID != 4095 && s.rd F.TROUPE_CFG_B_ROLL_PERIOD != 0 && s.rd F.TROUPE_CFG_B_HEALTH_PERIOD != 0

end Sys2Proof.Machine
end

