-- ==== Sys2Proof/Machine/Book.lean ====
section
/-! DEFINITION. The Prompt Book's ring, limiter, read pages and archive (R414 to R424), the trace port and the observation counters (R425 to R428). -/

namespace Sys2Proof.Machine

/-! ## The ring (R415, R416) -/

/-- Records of the ring not yet archived. -/
def State.unarchived (s : State) : Nat := (s.book.ring.filter fun x => !x.2).length

/-- PBOOK_STAT and PBOOK_SEQ follow the ring; source 171 fires when the unarchived records rise to FILL_ALARM. -/
def State.bookShow (s : State) : State :=
  let n := s.unarchived
  let s := ((s.wr F.PBOOK_STAT_FILL s.book.ring.length).wr F.PBOOK_STAT_UNARCH n).setReg A.PBOOK_SEQ (BitVec.ofNat 32 s.book.nextSeq)
  let full := decide (s.rd F.PBOOK_CFG_FILL_ALARM * 16 ≤ n)
  let s := if full && !s.book.full then s.irq 171 else s
  { s with book.full := full }

/-- Take the first record that satisfies a test out of the ring. -/
def ringTake (p : Rec × Bool → Bool) : List (Rec × Bool) → Option (List (Rec × Bool))
  | [] => none
  | x :: t => if p x then some t else (ringTake p t).map (x :: ·)

/-- The record takes its sequence number and place at the end of `ring` (R414): an alert, the trace, and the summary queue see it. -/
def State.ringPut (s : State) (r : Rec) (ring : List (Rec × Bool)) : State :=
  let r := { r with seq := BitVec.ofNat 32 s.book.nextSeq }
  let s := { s with book.ring := ring ++ [(r, false)], book.nextSeq := s.book.nextSeq + 1 }
  let s := if s.rd F.PBOOK_CFG_IRQ_SEV ≤ r.sev then s.irq 168 else s
  let s := s.traceItem 1 r.bytes
  let s := if s.isPlayer && s.mode != .curtain && decide (s.lv F.TROUPE_CFG_C_SUM_SEV ≤ r.sev) then { s with troupe.sumQueue := s.troupe.sumQueue ++ [r] } else s
  s.bookShow

/-- A record enters the ring (R416): in a full ring it displaces one by the first rule that finds one, or is dropped. -/
def State.ringEnter (s : State) (r : Rec) : State :=
  if s.book.ring.length < 4096 then s.ringPut r s.book.ring
  else match ringTake (·.2) s.book.ring with
    | some l => s.ringPut r l
    | none => match ringTake (fun x => decide (x.1.sev < r.sev)) s.book.ring with
      | some l => ((s.sat F.PBOOK_DROP_A_OVERWRITTEN).irq 169).ringPut r l
      | none => match (if r.sev = 7 then ringTake (fun x => x.1.sev == 7) s.book.ring else none) with
        | some l => ((s.sat F.PBOOK_DROP_B_LOST_7).irq 169).ringPut r l
        | none => (s.sat F.PBOOK_DROP_A_DROPPED).irq 169

/-! ## The limiter (R418) -/

/-- The window of a class in ticks. -/
def State.limTicks (s : State) (code : Nat) : Nat := max 1 (s.rd (F.PBOOK_RATE_WINDOW_MS (code / 4096 % 16))) * ticksPerMs

/-- The limiter's entry of a key. -/
def State.limKey (s : State) (code src : Nat) : Option LimKey := s.book.keys.find? fun k => k.code == code && k.src == src

/-- Put an entry, or none, for a key. -/
def State.setLim (s : State) (code src : Nat) (k : Option LimKey) : State :=
  { s with book.keys := (s.book.keys.filter fun x => !(x.code == code && x.src == src)) ++ k.toList }

/-- The key idle longest is retired; its held record is written first. -/
def State.limRetire (s : State) : State :=
  match s.book.keys with
  | [] => s
  | k :: t =>
    let old := t.foldl (fun a b => if b.seen < a.seen then b else a) k
    let s := s.setLim old.code old.src none
    match old.held with
    | some r => s.ringEnter r
    | none => s

/-- A window ends (R418): the held record is written and opens the next window. -/
def State.limEnd (s : State) (k : LimKey) : State :=
  match k.held with
  | some r => (s.setLim k.code k.src (some { k with stop := k.stop + s.limTicks k.code, count := 1, held := none, seen := k.stop })).ringEnter r
  | none => s.setLim k.code k.src none

/-- The key's window, where its time is over: a held record is written and opens the next. -/
def State.limClose (s : State) (code src : Nat) : State :=
  match s.limKey code src with
  | some k => if k.stop ≤ s.now then s.limEnd k else s
  | none => s

/-- A record passes the limiter, after the windows that time has ended: at most two, as one that opened with a held record holds no other. -/
def State.limPass (s : State) (r : Rec) : State :=
  if 6 ≤ r.sev ∨ r.sum then s.ringEnter r
  else
    let s := (s.limClose r.code r.src).limClose r.code r.src
    match s.limKey r.code r.src with
    | some k =>
      let burst := s.rd (F.PBOOK_RATE_BURST (r.code / 4096 % 16))
      if burst = 0 ∨ k.count < burst then (s.setLim r.code r.src (some { k with count := k.count + 1, seen := s.now })).ringEnter r
      else match k.held with
        | some h =>
          (s.setLim r.code r.src (some { k with held := some { r with rep := min 63 (r.rep + h.rep + 1) }, seen := s.now })).sat F.PBOOK_DROP_B_SUPPRESSED
        | none => s.setLim r.code r.src (some { k with held := some r, seen := s.now })
    | none =>
      let s := if 256 ≤ s.book.keys.length then s.limRetire else s
      (s.setLim r.code r.src (some { code := r.code, src := r.src, stop := s.now + s.limTicks r.code, count := 1, held := none, seen := s.now })).ringEnter r

/-- The first record of the input FIFO reaches the limiter and the ring (R414). Mark: DEDUCED (log 78). -/
def State.recordEnter (s : State) : State :=
  match s.book.inFifo with
  | [] => s
  | r :: t => State.limPass { s with book.inFifo := t } r

/-- The window of a key ends with time. -/
def State.windowEnd (s : State) (code src : Nat) : State :=
  match s.limKey code src with
  | some k => (s.reachST k.stop).limEnd k
  | none => s

/-! ## Reading and clearing (R420, R422) -/

/-- The record a page has latched. -/
def State.latchedRec (s : State) (p : Nat) : Option Rec := look noneAt s.book.latched p

/-- The record with the smallest SEQ at or above a cursor. -/
def State.recAt (s : State) (cursor : Nat) : Option Rec :=
  (s.book.ring.find? fun x => decide (cursor ≤ x.1.seq.toNat)).map (·.1)

/-- A read of PBOOK_REC_r_0 latches a record. Mark: DEDUCED (log 80). -/
def State.recLatch (s : State) (p : Nat) : State :=
  let c := (s.reg (A.PBOOK_CURSOR p)).toNat
  let r := s.recAt c
  let gap := match r with
    | some r => decide (max c 1 < r.seq.toNat)
    | none => false
  (({ s with book.latched := put noneAt s.book.latched p r } : State).wr (F.PBOOK_RSTAT_V p) (b2n r.isSome)).wr (F.PBOOK_RSTAT_GAP p) (b2n gap)

/-- Word `k` of the latched record. -/
def State.recWord (s : State) (p k : Nat) : Word :=
  match s.latchedRec p with
  | some r => BitVec.ofNat 32 (leAt r.bytes (4 * k) 4)
  | none => 0

/-- A read of PBOOK_REC_r_7 moves the cursor past the latched record. -/
def State.recNext (s : State) (p : Nat) : State :=
  match s.latchedRec p with
  | some r => s.setReg (A.PBOOK_CURSOR p) (r.seq + 1)
  | none => s

/-- Index of the archive pair being written next. -/
def State.archAt (s : State) : Nat := s.rd F.PBOOK_ARCH_BLOCK * 16 + s.rd F.PBOOK_ARCH_PAIR

/-- SEQs held in a pair of the archive. -/
def State.pairSeqs (s : State) (i : Nat) : List Nat := look (fun _ => []) s.book.archived i

/-- PBOOK_ARCH_SEQ: the oldest SEQ held in the archive. -/
def State.archShow (s : State) : State :=
  let all := s.book.archived.flatMap (·.2)
  match all with
  | [] => s.setReg A.PBOOK_ARCH_SEQ 0
  | q :: t => s.setReg A.PBOOK_ARCH_SEQ (BitVec.ofNat 32 (t.foldl min q))

/-- A write of PBOOK_CLEAR with GO by master 8 (R422). Mark: DEDUCED (log 53). -/
def State.bookClear (s : State) (w : Word) : State :=
  if !w.getLsbD 31 then s
  else
    let upto := (s.reg A.PBOOK_CLEAR_UPTO).toNat
    let keep := s.book.ring.filter fun x => decide (upto < x.1.seq.toNat) || (!x.2 && decide (6 ≤ x.1.sev))
    let n := s.book.ring.length - keep.length
    let blocks := (List.range 64).filter fun b => b != s.rd F.PBOOK_ARCH_BLOCK &&
      (let qs := (List.range 16).flatMap fun p => s.pairSeqs (b * 16 + p); !qs.isEmpty && qs.all fun q => decide (q ≤ upto))
    let s := { s with book.ring := keep, book.toClear := if w.getLsbD 30 then s.book.toClear ++ blocks.filter (!s.book.toClear.contains ·) else s.book.toClear }
    s.bookShow.post 0x0002 3 18 [upto, n]

/-! ## The archive (R423, R424) -/

/-- Address of a pair of the archive. -/
def pairAddr (i : Nat) : Nat := 0x21800000 + i * 4096

/-- The next block in the ring that this pass does not skip. -/
def State.nextBlock (s : State) : Nat :=
  let b := s.rd F.PBOOK_ARCH_BLOCK
  (((List.range 63).map fun i => (b + 1 + i) % 64).find? fun x => !s.book.skipped.contains x).getD ((b + 1) % 64)

/-- A filler record (code 0x0001, severity 0). -/
def fillerRec : Rec := { st := 0, seq := 0, code := 1, sev := 0, sum := false, src := 18, rep := 0, words := [] }

/-- Is a pair due: 128 unarchived records, or the oldest of them ARCH_S seconds old? -/
def State.pairDue (s : State) : Bool :=
  match s.book.ring.find? fun x => !x.2 with
  | some (r, _) => decide (128 ≤ s.unarchived) || decide (r.st.toNat + max 1 (s.rd F.PBOOK_CFG_ARCH_S) * ticksPerSecond ≤ s.now)
  | none => false

/-- Hand a command to the Bedrock controller as master 18. Mark: DEDUCED (log 79). -/
def State.archIssue (s : State) (job op a : Nat) (d : List Byte) (seqs : List Nat) : State :=
  match s.brkIssue 18 op a d with
  | (st, s) => if st = scACCEPTED then { s.wr F.PBOOK_ARCH_BUSY 1 with book.archJob := job, book.archSeqs := seqs } else s

/-- The Prompt Book's next archive command: a block to clear, the next block to erase when one is begun, or a pair of 128 records. -/
def State.archivePair (s : State) : State :=
  if s.book.archJob ≠ 0 ∨ (s.brk.cmds.any fun c => c.bank == 4) then s
  else match s.book.toClear with
    | b :: _ => s.archIssue 3 opERASE (pairAddr (16 * b)) [] [b]
    | [] =>
      if !s.flag F.PBOOK_CFG_ARCH_EN || !s.pairDue then s
      else if s.rd F.PBOOK_ARCH_PAIR = 0 ∧ !s.book.nextErased then s.archIssue 1 opERASE (pairAddr (16 * s.nextBlock)) [] [s.nextBlock]
      else
        let rs := ((s.book.ring.filter fun x => !x.2).map (·.1)).take 128
        let bs := (rs ++ List.replicate (128 - rs.length) fillerRec).flatMap Rec.bytes
        s.archIssue 2 opSAFE (pairAddr s.archAt) bs (rs.map (·.seq.toNat))

/-- The archive moves to its next pair. -/
def State.archAdvance (s : State) : State :=
  if s.rd F.PBOOK_ARCH_PAIR < 15 then s.wr F.PBOOK_ARCH_PAIR (s.rd F.PBOOK_ARCH_PAIR + 1)
  else
    let b := s.nextBlock
    let s : State := { s with book.nextErased := false, book.skipped := if b ≤ s.rd F.PBOOK_ARCH_BLOCK then [] else s.book.skipped }
    (s.wr F.PBOOK_ARCH_PAIR 0).wr F.PBOOK_ARCH_BLOCK b

/-- An archive command failed: code 0x0003 and source 170. -/
def State.archFail (s : State) (st a : Nat) : State :=
  ((s.wr F.PBOOK_ARCH_ERR 1).post 0x0003 5 18 [st, a - 0x21800000, s.book.archSeqs.headD 0]).irq 170

/-- The records of an archived pair are marked so in the ring, and the pair holds them. -/
def State.archMark (s : State) (i : Nat) (seqs : List Nat) : State :=
  { s with book.ring := s.book.ring.map fun x => if seqs.contains x.1.seq.toNat then (x.1, true) else x
           book.archived := put (fun _ => []) s.book.archived i seqs }

/-- The archive's command has ended with a status. -/
def State.archDone (s : State) (st : Nat) : State :=
  let job := s.book.archJob
  let seqs := s.book.archSeqs
  let s := { s.wr F.PBOOK_ARCH_BUSY 0 with book.archJob := 0 }
  if job = 2 then
    let i := s.archAt
    if st = scOK then
      (s.archMark i seqs).archAdvance.bookShow.archShow
    else (s.archFail st (pairAddr i)).archAdvance
  else
    let b := seqs.headD 0
    if st = scOK then
      State.archShow { s with book.archived := clearRange s.book.archived (16 * b) (16 * b + 16)
                              book.nextErased := s.book.nextErased || job == 1, book.toClear := s.book.toClear.filter (· != b) }
    else State.archFail { s with book.skipped := s.book.skipped ++ [b], book.toClear := s.book.toClear.filter (· != b) } st (pairAddr (16 * b))

/-- A Bedrock command ends: the archive takes note of its own. -/
def State.bedrockDone (s : State) (b : Nat) (ok : Bool) : State :=
  let mine := (s.brkRunning b).any fun c => c.master == 18
  let s := s.brkDone b ok
  if mine then s.archDone (s.rd (F.BRK_STATUS_RESULT b)) else s

/-! ## Trace port and counters (R426 to R428) -/

/-- Channel of the trace port. -/
abbrev chanTrace : Nat := 7

/-- The first item leaves on the trace port; an OVERFLOW packet follows as soon as room returns. -/
def State.traceSend (s : State) : State :=
  match s.trace.items with
  | [] => s
  | (ty, b) :: t =>
    if s.mode == .curtain || !s.flag F.OBSERVE_TRACE_CFG_EN then s
    else
      let s := (s.send chanTrace ty b)
      let s := { s with trace.items := t, trace.fill := s.trace.fill - (b.length + 1) }
      if s.trace.overflow = 0 then s
      else { s with trace.items := s.trace.items ++ [(0xF, leBytes 8 (s.trace.overflow % 2 ^ 32))], trace.fill := s.trace.fill + 9, trace.overflow := 0 }

/-- A write of OBSERVE_TRACE_CFG by master 8: each change is booked and fires source 210. Mark: DEDUCED (log 53). -/
def State.traceCfg (s : State) (w : Word) : State :=
  let new := w &&& 0x80000F0F#32
  let new := if 8 < getBits w 11 8 then setBits new 11 8 (s.rd F.OBSERVE_TRACE_CFG_CORE) else new
  if s.reg A.OBSERVE_TRACE_CFG = new then s
  else ((s.setReg A.OBSERVE_TRACE_CFG new).post 0x0004 4 18 [new.toNat]).irq 210

/-- A write of OBSERVE_CNT_CTRL: SNAP copies every counter, CLR zeroes the live ones. -/
def State.observeCtrl (s : State) (w : Word) : State :=
  let s := if w.getLsbD 31 then (List.range 8).foldl (fun s k => s.setReg (A.OBSERVE_CNT k) (s.cntReg (A.OBSERVE_CNT k))) s else s
  if w.getLsbD 30 then (List.range 8).foldl (fun s k => s.setCnt (A.OBSERVE_CNT k) 0) s else s

/-- A power-on or pin reset clears the ring; SEQ goes on one above the highest SEQ in the archive (R415). A warm reset keeps ring and SEQ. -/
def State.bookReset (s : State) (warm : Bool) : Book :=
  if warm then { s.book with inFifo := [], ruleLim := [], keys := [], latched := [], archJob := 0, archSeqs := [], toClear := [] }
  else { Book.new with archived := s.book.archived, nextSeq := (s.book.archived.flatMap (·.2)).foldl max 0 + 1, nextErased := s.book.nextErased }

end Sys2Proof.Machine
end

