-- ==== Sys2Proof/Machine/Volume.lean ====
section
/-! DEFINITION. The layout of a card (R455 to R458): its journal, what mounting finds, where a new extent goes, and what data blocks look like on the data lines (R449). -/

namespace Sys2Proof.Machine

/-! ## Data blocks (R449) -/

/-- CRC16 of the bits of one data line: the polynomial x^16 + x^12 + x^5 + 1. -/
def crc16 (bits : List Bool) : Nat :=
  bits.foldl (fun c b => if c / 32768 = b2n b then 2 * c % 65536 else (2 * c % 65536) ^^^ 0x1021) 0

/-- The bits that line `i` of four carries of a block: the upper half of a byte first. -/
def lineBits (bs : List Byte) (i : Nat) : List Bool := bs.flatMap fun b => [b.getLsbD (4 + i), b.getLsbD i]

/-- The CRCs of a block as they leave with it: one line's two bytes, or of four lines side by side, as the data are. -/
def blockCrc (wide : Bool) (bs : List Byte) : List Byte :=
  if wide then
    let c := (List.range 4).map fun i => crc16 (lineBits bs i)
    (List.range 8).map fun j => BitVec.ofNat 8 ((List.range 4).foldl (fun v i => v + (b2n (bit (nth c i) (15 - 2 * j)) * 2 ^ (4 + i) + b2n (bit (nth c i) (14 - 2 * j)) * 2 ^ i)) 0)
  else beBytes 2 (crc16 (bs.flatMap fun b => (List.range 8).map fun i => b.getLsbD (7 - i)))

/-- Blocks of 512 bytes, each with its CRCs. -/
def blockFrames (wide : Bool) : Nat → List Byte → List Byte
  | 0, _ => []
  | n + 1, bs => padTo 512 bs ++ blockCrc wide (padTo 512 bs) ++ blockFrames wide n (bs.drop 512)

/-! ## The journal (R455, R457) -/

/-- Blocks that a number of bytes takes. -/
def blocksOf (n : Nat) : Nat := (n + 511) / 512

/-- The first block of the data extents. -/
abbrev dataBase : Nat := 2050

/-- A superblock (R455). The widths of its fields are the model's. Mark: DESIGN CHOICE (log 161). -/
def superBlock (id : List Byte) (count : Nat) : List Byte :=
  let b := leBytes 4 0x43525456 ++ leBytes 4 1 ++ padTo 16 id ++ leBytes 4 2 ++ leBytes 4 dataBase ++ leBytes 4 count
  padTo 512 (b ++ leBytes 4 (crc32c b))

/-- Does a block hold a superblock whose CRC fits? -/
def superOk (b : List Byte) : Bool := leAt b 0 4 == 0x43525456 && leAt b 4 4 == 1 && leAt b 36 4 == crc32c (b.take 36)

/-- The block that a record fills. The widths of its fields are the model's. Mark: DESIGN CHOICE (log 161). -/
def JRec.block (r : JRec) : List Byte :=
  let b := leBytes 4 0x4A524E4C ++ leBytes 8 r.seq ++ padTo 16 r.name ++ leBytes 4 r.gen ++ leBytes 4 (b2n r.gone) ++ leBytes 4 r.len ++ leBytes 4 r.first
    ++ leBytes 4 r.blocks ++ leBytes 4 r.crc
  padTo 512 (b ++ leBytes 4 (crc32c b))

/-- The record a block of the ring holds; none where its own CRC fails. -/
def readRec (pos : Nat) (b : List Byte) : Option JRec :=
  if leAt b 0 4 = 0x4A524E4C ∧ leAt b 52 4 = crc32c (b.take 52) then
    some { pos, seq := leAt b 4 8, name := sliceB b 12 16, gen := leAt b 28 4, gone := bit (leAt b 32 4) 0, len := leAt b 36 4, first := leAt b 40 4
           blocks := leAt b 44 4, crc := leAt b 48 4 }
  else none

/-- A block of a card whose blocks are listed; a block not listed is all 0x00. -/
def cardBlock (m : List (Nat × List Byte)) (lba : Nat) : List Byte := padTo 512 (look (fun _ => []) m lba)

/-- The valid records of the ring. -/
def ringRecs (m : List (Nat × List Byte)) : List JRec :=
  m.filterMap fun p => if 2 ≤ p.1 ∧ p.1 < dataBase then readRec (p.1 - 2) (padTo 512 p.2) else none

/-- For each name the record with the highest SEQ decides (R457): what is live. -/
def liveRecs (rs : List JRec) : List JRec := rs.filter fun r => !r.gone && !rs.any fun q => q.name == r.name && decide (r.seq < q.seq)

/-- A live file as its extent holds it. -/
def fileAt (m : List (Nat × List Byte)) (r : JRec) : VFile :=
  let d := ((List.range r.blocks).flatMap fun i => cardBlock m (r.first + i)).take r.len
  { name := r.name, gen := r.gen, data := d, crcOk := crc32c d == r.crc }

/-- Do LBAs 0 to 63 read all 0x00 or all 0xFF (R458)? -/
def cardBlank (m : List (Nat × List Byte)) : Bool :=
  [0x00#8, 0xFF#8].any fun x => (List.range 64).all fun i => (cardBlock m i).all (· == x)

/-- The record with the highest SEQ. -/
def newestRec : List JRec → Option JRec
  | [] => none
  | r :: t => match newestRec t with
    | some q => some (if r.seq < q.seq then q else r)
    | none => some r

/-! ## Extents (R455, R456) -/

/-- The blocks a file that is still being written keeps for itself: those of 256 MiB. -/
abbrev maxExtent : Nat := 524288

/-- The first block at or above `a` that an extent begins at, or the end of the card. -/
def gapEnd (used : List (Nat × Nat)) (count a : Nat) : Nat := used.foldl (fun e x => if a ≤ x.1 ∧ x.1 < e then x.1 else e) count

/-- The start of the largest free stretch of a card: a new extent goes there. Mark: DESIGN CHOICE (log 161). -/
def newExtent (used : List (Nat × Nat)) (count : Nat) : Nat :=
  let starts := (dataBase :: used.map fun x => x.1 + x.2).filter fun a => !used.any fun x => decide (x.1 ≤ a) && decide (a < x.1 + x.2)
  starts.foldl (fun best a => if gapEnd used count best - best < gapEnd used count a - a then a else best) dataBase

/-- Is a stretch of blocks free, and on the card? -/
def extentFree (used : List (Nat × Nat)) (count first n : Nat) : Bool :=
  decide (first + n ≤ count) && used.all fun x => decide (first + n ≤ x.1) || decide (x.1 + x.2 ≤ first)

end Sys2Proof.Machine
end

