-- ==== Sys2Proof/Machine/Cartridge.lean ====
section
/-! DEFINITION. The cartridge port (R447 to R459): insertion, identification, operations and their ends, removal, and the mounted volume. -/

namespace Sys2Proof.Machine

/-- Channel of the cartridge port. -/
abbrev chanCart : Nat := 10

/-- Results (CART_STAT). -/
abbrev ctDONE : Nat := 0
/-- NO_CARD. -/
abbrev ctNO_CARD : Nat := 1
/-- WRITE_PROTECTED. -/
abbrev ctPROTECTED : Nat := 5
/-- CARD_ERROR. -/
abbrev ctCARD_ERROR : Nat := 6
/-- LOCKED. -/
abbrev ctLOCKED : Nat := 7
/-- WRITE_NOT_DONE. -/
abbrev ctNOT_DONE : Nat := 8
/-- WRITE_INDETERMINATE. -/
abbrev ctINDET : Nat := 9
/-- REMOVED. -/
abbrev ctREMOVED : Nat := 10
/-- BAD_PARAM. -/
abbrev ctBAD : Nat := 11

/-- CT_CLK runs during an operation, and while idle with CLK_KEEP = 1 (R451). -/
def State.cartClock (s : State) : State :=
  s.wr F.CART_STAT_CLK_RUN (b2n (s.cart.op.isSome || (s.flag F.CART_CFG_EN && s.flag F.CART_CFG_CLK_KEEP && s.flag F.CART_STAT_PRESENT)))

/-! ## Commands on CT_CMD (R449, R450) -/

/-- CRC7 of a frame: the polynomial x^7 + x^3 + 1, most significant bit first. -/
def crc7 (bs : List Byte) : Nat :=
  bs.foldl (fun c b => (List.range 8).foldl (fun c i => if c / 64 = b2n (b.getLsbD (7 - i)) then 2 * c % 128 else (2 * c % 128) ^^^ 9) c) 0

/-- The 48-bit frame of a command. -/
def cartFrame (cmd arg : Nat) : List Byte :=
  let f := BitVec.ofNat 8 (64 + cmd) :: beBytes 4 (arg % 2 ^ 32)
  f ++ [BitVec.ofNat 8 (2 * crc7 f + 1)]

/-- A command goes out on CT_CMD. -/
def State.cartIssue (s : State) (cmd arg : Nat) : State := s.send chanCart (2 ^ 32 + cmd) (cartFrame cmd arg)

/-- The relative address of a card in a command's upper half. -/
def State.cartRca (s : State) (card : Nat) : Nat := getBits (s.reg (A.CART_CARD card)) 15 0 * 65536

/-- The address a command names a block by: its byte for an SDSC card and for an MMC card that is addressed by bytes (R447). Mark: DESIGN CHOICE (log 144). -/
def State.cartAddr (s : State) (card lba : Nat) : Nat :=
  let ty := s.rd (F.CART_CARD_TYPE card)
  if ty = 1 ∨ (ty = 3 ∧ !Config.mmcBySector card) then 512 * lba else lba

/-- The command that begins an operation: CMD17 or CMD18, CMD24 or CMD25, CMD13, and of an eject CMD7 to address 0 (R447, R454); a card that shares its bus is selected first. Mark: DESIGN CHOICE (log 144). -/
def State.cartOpen (s : State) (op card blocks lba : Nat) : State :=
  let s := if (op = 1 ∨ op = 2) ∧ s.rd (F.CART_CARD_TYPE card) = 3 then s.cartIssue 7 (s.cartRca card) else s
  if op = 1 then s.cartIssue (if blocks = 1 then 17 else 18) (s.cartAddr card lba)
  else if op = 2 then s.cartIssue (if blocks = 1 then 24 else 25) (s.cartAddr card lba)
  else if op = 3 then s.cartIssue 13 (s.cartRca card)
  else if op = 4 then s.cartIssue 7 0
  else s

/-- Results that show the card of an operation removed (R453). -/
def goneResult (res : Nat) : Bool := res == ctREMOVED || res == ctNOT_DONE || res == ctINDET

/-- What ends a transfer (R450): CMD12 after more than one block, and CMD13 after a write; a card that was pulled gets neither (R453), and in CURTAIN nothing further is
issued (R454). Mark: DESIGN CHOICE (log 144). -/
def State.cartClose (s : State) (op card blocks res : Nat) : State :=
  if (op = 1 ∨ op = 2) ∧ goneResult res = false ∧ s.mode ≠ .curtain then
    let s := if 1 < blocks then s.cartIssue 12 0 else s
    if op = 2 then s.cartIssue 13 (s.cartRca card) else s
  else s

/-- An operation ends with a result (R453, R459): sources 180, 182, 183; uncertain writes are booked with the card, the first uncertain LBA and DONE_BLOCKS. -/
def State.cartEnd (s : State) (card lba res done : Nat) : State :=
  let s : State := { s with cart.op := none }
  let s := ((s.wr F.CART_STAT_BUSY 0).wr F.CART_STAT_RESULT res).wr F.CART_STAT_DONE_BLOCKS done
  let s := s.irq 180
  let s := if res = ctNOT_DONE ∨ res = ctINDET then (s.irq 182).post 0xD007 4 20 [card, lba + done, done] else s
  let s := if res = ctPROTECTED ∨ res = ctLOCKED ∨ res = ctCARD_ERROR then s.irq 183 else s
  s.cartClock

/-- Start an operation: the checks that end it before any command (R449, R452). -/
def State.cartStart (s : State) (op card blocks lba buf : Nat) : State :=
  let s := (s.wr F.CART_STAT_DONE_BLOCKS 0)
  let needs := op = 1 ∨ op = 2 ∨ op = 3
  if 4 < op ∨ ((op = 1 ∨ op = 2) ∧ blocks = 0) then s.cartEnd card lba ctBAD 0
  else if !s.flag F.CART_CFG_EN ∨ !s.flag F.CART_STAT_PRESENT ∨ (needs ∧ !s.flag (F.CART_CARD_V card)) then s.cartEnd card lba ctNO_CARD 0
  else if needs ∧ s.flag (F.CART_CARD_LOCKED card) then s.cartEnd card lba ctLOCKED 0
  else if op = 2 ∧ (s.flag (F.CART_CARD_PERM_WP card) ∨ s.flag (F.CART_CARD_TMP_WP card)) then s.cartEnd card lba ctPROTECTED 0
  else (({ s.wr F.CART_STAT_BUSY 1 with cart.op := some (op, card, blocks, lba, buf) } : State).cartOpen op card blocks lba).cartClock

/-- A write of CART_XFER: GO starts OP; it is refused while one runs. In CURTAIN the port issues nothing (R454). Mark: DEDUCED (log 58). -/
def State.cartXfer (s : State) (w : Word) : State :=
  let op := if 4 < getBits w 30 28 then s.rd F.CART_XFER_OP else getBits w 30 28
  let s := s.setReg A.CART_XFER (setBits (w &&& 0x7C00FFFF#32) 30 28 op)
  if !w.getLsbD 31 || s.mode == .curtain then s
  else if s.cart.op.isSome then s.wr F.CART_STAT_RESULT ctBAD
  else s.cartStart op (getBits w 27 26) (getBits w 15 0) (s.reg A.CART_LBA).toNat ((s.reg A.CART_BUF).toNat / 8 * 8)

/-- One card of an MMC bus is treated as removed (R453): it is forgotten alone, and volume 1 with it where it is the first. -/
def State.cardGone (s : State) (card : Nat) : State :=
  let s : State := if card = 0 then { s with cart := Cart.off } else s
  (s.setReg (A.CART_CARD card) 0).irq 181

/-- The running operation ends: `data` is what a read brought, `done` the blocks completed (R449, R450, R453). A refusal of the buffer by memory has no result of its own in the
manual: the result is free. A card of an MMC bus that no longer answers is forgotten alone. Mark: DESIGN CHOICE (log 57). -/
def State.cartDone (s : State) (res done : Nat) (data : List Byte) : State :=
  match s.cart.op with
  | none => s
  | some (op, card, blocks, lba, buf) =>
    let done := min done blocks
    let (bad, s) := if op = 1 then
        let (r, s) := s.dmaWrite 20 buf (data.take (512 * done))
        (r.isSome, s)
      else if op = 2 then
        match s.dmaRead 20 buf (512 * done) with
        | (.ok b, s) => (false, s.send chanCart lba (blockFrames (s.flag (F.CART_CARD_WIDE card)) done b))
        | (.error _, s) => (true, s)
      else (false, s)
    let s := (if op = 4 then s.wr F.CART_STAT_CLK_RUN 0 else s).cartClose op card blocks res
    if bad then s.next.cartEnd card lba (s.draw % 16) 0
    else
      let s := s.cartEnd card lba res done
      if goneResult res = true ∧ s.rd (F.CART_CARD_TYPE card) = 3 then s.cardGone card else s

/-- CT_CD falls: identification follows 100 ms later (R448, R454). Mark: DESIGN CHOICE (log 57). -/
def State.cardInsert (s : State) : State :=
  if s.flag F.CART_CFG_EN then (s.wr F.CART_STAT_PRESENT 1).cartClock.arm .cartIns (100 * ticksPerMs) else s

/-- Is a file name valid in a list; the live file of a name. -/
def fileOf (l : List VFile) (n : List Byte) : Option VFile := l.find? fun f => f.name == n

/-- What CART_CARD_c shows of a card that was found (R447, R448): one SD card with the width and speed that CART_CFG allows, or MMC cards with the addresses given to them in turn. -/
def State.cardWord (s : State) (cards : List Word) (c : Nat) : Word :=
  let w := cards.getD c 0 &&& 0xFF00FFFF#32
  let ty := getBits (cards.getD 0 0) 30 29
  if !w.getLsbD 31 then 0
  else if ty = 1 ∨ ty = 2 then
    if c ≠ 0 then 0
    else (if s.flag F.CART_CFG_WIDE_EN then w else w &&& 0xFDFFFFFF#32) &&& (if s.flag F.CART_CFG_HS_EN then w else w &&& 0xFEFFFFFF#32)
  else if getBits w 30 29 = 3 then setBits (w &&& 0xFCFFFFFF#32) 15 0 (c + 1)
  else 0

/-- The commands of an identification, one turn of a loop shown (R448); their arguments are the card standards'. Mark: PRESUMED (log 167). -/
def State.identCmds (s : State) (extra : Bool) : List (Nat × Nat) :=
  let found := (List.range 4).filter fun c => s.flag (F.CART_CARD_V c)
  let ty := s.rd (F.CART_CARD_TYPE 0)
  let rca := s.cartRca 0
  [(0, 0), (8, 0x1AA), (55, 0)] ++
  (if s.flag (F.CART_CARD_V 0) && (ty == 1 || ty == 2) then
    [(41, 0x40FF8000), (2, 0), (3, 0), (9, rca), (7, rca), (55, rca), (42, 0)]
      ++ (if s.flag (F.CART_CARD_WIDE 0) then [(55, rca), (6, 2)] else [])
      ++ (if s.flag (F.CART_CARD_HS 0) then [(6, 0x80FFFFF1)] else [])
      ++ (if ty = 1 then [(16, 512)] else [])
  else
    [(1, 0x40FF8000)] ++ (found.flatMap fun c => [(2, 0), (3, s.cartRca c)]) ++ (if found.length < 4 || extra then [(2, 0)] else [])
      ++ found.flatMap fun c => [(9, s.cartRca c), (7, s.cartRca c), (16, 512)])

/-- Mounting (R457): the journal's valid records decide what is live; `count` is the card's number of blocks and `m` lists what they hold. -/
def mounted (count : Nat) (m : List (Nat × List Byte)) : Cart :=
  let rs := ringRecs m
  let top := newestRec rs
  let formatted := superOk (cardBlock m 0) || superOk (cardBlock m 1)
  let live := if formatted then liveRecs rs else []
  { Cart.off with mounted := true, formatted, blank := cardBlank m, count, seq := (top.map (·.seq)).getD 0, head := (top.map fun r => (r.pos + 1) % 2048).getD 0
                  recs := live, files := live.map (fileAt m) }

/-- Identification ends (R448, R452, R457): the cards found, whether a fifth MMC card was left, and of volume 1 the number of its blocks and what they hold. It follows an insertion
or an operation; a card that is locked is not mounted. -/
def State.cartIdentify (s : State) (cards : List Word) (extra : Bool) (count : Nat) (medium : List (Nat × List Byte)) : State :=
  let byOp := s.cart.op.any fun o => o.1 == 0
  if !(s.armed .cartIns || byOp) || s.mode == .curtain then s
  else
    let s := if s.armed .cartIns then s.fire .cartIns id else s
    let s := (List.range 4).foldl (fun s c => s.setReg (A.CART_CARD c) (s.cardWord cards c)) s
    let s := (s.identCmds extra).foldl (fun s c => s.cartIssue c.1 c.2) s
    let s := if extra then s.wr F.CART_STAT_EXTRA 1 else s
    let found := s.flag (F.CART_CARD_V 0)
    let s : State := { s with cart := { if found && !s.flag (F.CART_CARD_LOCKED 0) then mounted count medium else Cart.off with op := s.cart.op } }
    let s := if byOp then s.cartEnd 0 0 (if found then ctDONE else ctNO_CARD) 0 else s
    if found then (s.irq 181).cartClock else s

/-! ## The Stage Manager's own transfers (R456) -/

/-- One WRITE of the Stage Manager to volume 1. Mark: DESIGN CHOICE (log 161). -/
def State.cardWrite (s : State) (lba : Nat) (bs : List Byte) : State :=
  let n := blocksOf bs.length
  if n = 0 then s
  else ((s.cartOpen 2 0 n lba).send chanCart lba (blockFrames (s.flag (F.CART_CARD_WIDE 0)) n bs)).cartClose 2 0 n ctDONE

/-- Write a journal record at the head of the ring with the next SEQ. -/
def State.putRec (s : State) (r : JRec) : State :=
  let r := { r with pos := s.cart.head, seq := s.cart.seq + 1 }
  { s.cardWrite (2 + r.pos) r.block with
    cart.seq := r.seq, cart.head := (r.pos + 1) % 2048, cart.recs := (s.cart.recs.filter fun q => q.name != r.name) ++ (if r.gone then [] else [r]) }

/-- Before the head overwrites a record that is still live, that record is rewritten at the head with its SEQ renewed (R456). -/
def State.renewHead : Nat → State → State
  | 0, s => s
  | n + 1, s => match s.cart.recs.find? fun r => r.pos == s.cart.head with
    | some r => State.renewHead n (s.putRec r)
    | none => s

/-- The commit of a file or of its deletion: one journal record, which lies where no live one does (R456). -/
def State.putJournal (s : State) (r : JRec) : State := (s.renewHead 257).putRec r

/-- Extents that live records and the other files being written take. -/
def State.usedExtents (s : State) (name : List Byte) : List (Nat × Nat) :=
  (s.cart.recs.map fun r => (r.first, r.blocks)) ++ ((s.cart.exts.filter fun x => x.1 != name).map fun x => (x.2, maxExtent))

/-- Where the extent of a name's new generation begins: a write at offset 0 begins another. -/
def State.extentOf (s : State) (name : List Byte) (o : Nat) : Nat :=
  match (if o = 0 then none else s.cart.exts.find? fun x => x.1 == name) with
  | some x => x.2
  | none => newExtent (s.usedExtents name) s.cart.count

/-- The data of a FILE_WRITE go to the card: `d` is the whole of the new generation so far, new from offset `o` on; none where the card has no room. -/
def State.putData (s : State) (name : List Byte) (o : Nat) (d : List Byte) : Option State :=
  let first := s.extentOf name o
  if extentFree (s.usedExtents name) s.cart.count first (blocksOf d.length) then
    some { s.cardWrite (first + o / 512) (d.drop (o / 512 * 512)) with cart.exts := (s.cart.exts.filter fun x => x.1 != name) ++ [(name, first)] }
  else none

/-- The block that a FILE_WRITE on volume 1 is at, where one runs. -/
def State.writingAt (s : State) : Option Nat :=
  (s.desk.cmds.find? fun c => c.op == 0x0A03 && c.phase == 2 && byteAt c.body 0 == 1).map fun c =>
    s.extentOf (sliceB c.body 1 16) (beAt c.body 17 4) + beAt c.body 17 4 / 512

/-- A removal (R453): `phase` is 0 idle or a command without data, 1 read data, 2 a write before the first data bit of a block, 3 a write from there on; `done` blocks had ended. -/
def State.cardRemoval (s : State) (phase done : Nat) : State :=
  if !s.flag F.CART_CFG_EN then s
  else
    let res := fun (op : Nat) => if op = 2 ∧ phase = 2 then ctNOT_DONE else if op = 2 ∧ 3 ≤ phase then ctINDET else ctREMOVED
    let s := match s.cart.op with
      | some (op, card, blocks, lba, _) => s.cartEnd card lba (res op) (min done blocks)
      | none => match s.writingAt with
        | some lba => if 2 ≤ phase then s.cartEnd 0 lba (res 2) done else s
        | none => s
    let s := (List.range 4).foldl (fun s c => s.setReg (A.CART_CARD c) 0) s
    let s : State := { (s.wr F.CART_STAT_PRESENT 0).wr F.CART_STAT_CLK_RUN 0 with cart := Cart.off }
    let s := if s.armed .cartIns then s.arm .cartIns (100 * ticksPerMs) else s
    s.irq 181

end Sys2Proof.Machine
end

