-- ==== Sys2Proof/Machine/Chorus.lean ====
section
/-! DEFINITION. The Chorus (R290 to R309): key slots and their change list, channels and jobs, release gates, contexts. -/

namespace Sys2Proof.Machine

/-! ## Key slots (R301, R302) -/

/-- Slot `i`. -/
def State.keySlot (s : State) (i : Nat) : KeySlot := look (fun _ => KeySlot.empty) s.chorus.slots i

/-- Replace slot `i`. -/
def State.setKeySlot (s : State) (i : Nat) (k : KeySlot) : State := { s with chorus.slots := put (fun _ => KeySlot.empty) s.chorus.slots i k }

/-- Key bytes of a LEN code. Mark: DEDUCED (log 67). -/
def keyBytes (len : Nat) : Nat := if len = 0 then 16 else if len = 1 then 24 else 32

/-- Bits of USE. -/
abbrev useENC : Nat := 0
/-- DEC. -/
abbrev useDEC : Nat := 1
/-- GATE. -/
abbrev useGATE : Nat := 2
/-- WRAP. -/
abbrev useWRAP : Nat := 3

/-- The forms R302 allows; slots 253 to 255 take none. -/
def useOk (slot use : Nat) : Bool := (use ≤ 3 || use == 4 || use == 8) && !(decide (253 ≤ slot) && use != 0)

/-- Refuse a key-slot push. -/
def State.chorusRefuse (s : State) (r : Nat) : State :=
  ((s.wr F.CHORUS_KEY_STAT_LAST_REFUSED 1).wr F.CHORUS_KEY_STAT_REASON r).sat (F.BLOCK_REFUSED_STAGE_WRITES Base.CHORUS)

/-- USE as staged. -/
def State.stagedUse (s : State) : Nat := getBits (s.reg A.CHORUS_KEY_ATTR) 3 0

/-- The key value staged in the registers, least significant word first; its most significant byte is the first of FIPS 197. -/
def State.stagedSlotKey (s : State) : List Byte :=
  beBytes (keyBytes (s.rd F.CHORUS_KEY_ATTR_LEN)) ((List.range 8).foldl (fun a k => a + (s.reg (A.CHORUS_KEY_VAL k)).toNat * 2 ^ (32 * k)) 0)

/-- The reason a push is refused for, after 0x2 and 0x1 (R475). -/
def State.chorusReason (s : State) : Nat :=
  let len := s.rd F.CHORUS_KEY_ATTR_LEN
  let src := s.rd F.CHORUS_KEY_ATTR_FROM
  if !useOk (s.rd F.CHORUS_KEY_IDX_SLOT) s.stagedUse then 3
  else if len = 3 ∨ src = 3 then 4
  else if src = 1 ∧ (s.chorus.unwrap.map (·.length)) ≠ some (keyBytes len) then 5
  else if src = 2 ∧ s.chorus.bus.isEmpty then 6
  else 0

/-- A write of CHORUS_KEY_PUSH (R301): an accepted push takes the key and consumes its source. -/
def State.chorusPush (s : State) (w : Word) : State :=
  if !w.getLsbD 31 then s
  else
    let i := s.rd F.CHORUS_KEY_IDX_SLOT
    let erase := w.getLsbD 30
    let listed := s.chorus.changes.any fun c => c.1 == i
    let r := if erase then 0 else s.chorusReason
    if s.pendingIn Base.CHORUS then s.chorusRefuse 2
    else if !listed && decide (256 ≤ s.chorus.changes.length) then s.chorusRefuse 1
    else if r ≠ 0 then s.chorusRefuse r
    else
      let src := s.rd F.CHORUS_KEY_ATTR_FROM
      let key := if src = 1 then s.chorus.unwrap.getD [] else if src = 2 then s.chorus.bus.headD [] else s.stagedSlotKey
      let p : SlotPush := if erase then { erase := true, len := 0, use := 0, users := 0, key := [] }
        else { erase := false, len := s.rd F.CHORUS_KEY_ATTR_LEN, use := s.stagedUse, users := (s.reg A.CHORUS_KEY_USERS).toNat,
               key := key.take (keyBytes (s.rd F.CHORUS_KEY_ATTR_LEN)) }
      let s : State := if erase then s else if src = 1 then { s with chorus.unwrap := none }
        else if src = 2 then { s with chorus.bus := s.chorus.bus.drop 1 } else s
      let s := (List.range 8).foldl (fun s k => s.setReg (A.CHORUS_KEY_VAL k) 0) s
      let l := if listed then s.chorus.changes.map fun c => if c.1 = i then (i, p) else c else s.chorus.changes ++ [(i, p)]
      let s : State := { s.wr F.CHORUS_KEY_STAT_LAST_REFUSED 0 with chorus.changes := l }
      s.wr F.CHORUS_KEY_STAT_LIST_COUNT l.length

/-! ## Channels -/

/-- Replace a gate and show its registers: state, bytes, and H while the session is open. -/
def State.setGate (s : State) (c : Nat) (g : Gate) : State :=
  let s := s.setChan c { s.chan c with gate := g }
  let s := s.wr (F.CHORUS_CH_GATE_STAT_STATE c) g.state
  (List.range 4).foldl (fun s k =>
    s.setReg (A.CHORUS_CH_GATE_H c k) (if g.state = gOPEN then BitVec.ofNat 32 (leAt g.h (4 * k) 4) else 0)) s

/-- Base of a channel's window. -/
def gateBase (c : Nat) : Nat := 0x38000000 + 0x10000 * c

/-- A read for a job of up to 16 bytes under its requester's identity (R293): what that master's own burst would read. -/
def State.jobRead (s : State) (m a n : Nat) : Except Nat (List Byte) × State := s.unitRead m a n

/-- A write for a job under its requester's identity (R293): what that master's own store would do. A gate's data area ignores stores (R292), a packer window appends, and an enqueue or
release of 8 bytes acts on its queue (R121). -/
def State.jobWrite (s : State) (m a : Nat) (bs : List Byte) : Option Nat × State :=
  let aligned := bs.length = 8 ∧ a % 8 = 0
  match targetOf m a with
  | .gate _ => if a % 0x10000 < 0x1000 then (some kindSize, s) else s.colAdmit m a bs.length .write
  | .wEnq => match s.colAdmit m a bs.length .write with
    | (some k, s) => (some k, s)
    | (none, s) => if aligned then (none, s.enqueueStore m ((a - 0x34000000) / 8) (BitVec.ofNat 64 (leNat bs))) else (some kindSize, s)
  | .wDeq => match s.colAdmit m a bs.length .write with
    | (some k, s) => (some k, s)
    | (none, s) => if aligned then (none, s.releaseStore m ((a - 0x34400000) / 8) (BitVec.ofNat 64 (leNat bs))) else (some kindSize, s)
  | .block _ => match s.colAdmit m a bs.length .write with
    | (some k, s) => (some k, s)
    | (none, s) =>
      if packerIn 0 ≤ a ∧ a < packerIn 48 then
        let c := (a - packerIn 0) / 8
        (none, if a % 8 = 0 then s.packerAppend c bs else if s.packerOn c then s.packerLose c bs.length else s)
      else (some kindSize, s)
  | _ => s.unitWrite m a bs

/-- Read `n` bytes for a job, 16 at a time; the first refusal ends it. -/
def State.jobFetch (s : State) (m a n : Nat) : Except Nat (List Byte) × State :=
  (List.range ((n + 15) / 16)).foldl (fun acc i =>
    match acc with
    | (.error k, s) => (.error k, s)
    | (.ok bs, s) => match s.jobRead m (a + 16 * i) (min 16 (n - 16 * i)) with
      | (.error k, s) => (.error k, s)
      | (.ok b, s) => (.ok (bs ++ b), s)) (.ok [], s)

/-- Write a list of bytes, 16 at a time; answers the refusal, if any, and the bytes written before it. -/
def State.jobCopy (s : State) (m a : Nat) (bs : List Byte) : (Option Nat × Nat) × State :=
  (chunks 16 (bs.length + 1) bs).foldl (fun acc b =>
    match acc with
    | ((some k, n), s) => ((some k, n), s)
    | ((none, n), s) => match s.jobWrite m (a + n) b with
      | (some k, s) => ((some k, n), s)
      | (none, s) => ((none, n + b.length), s)) ((none, 0), s)

/-- Job statuses (R296). -/
abbrev jDONE : Nat := 0
/-- DENIED. -/
abbrev jDENIED : Nat := 1
/-- BUS_ERR. -/
abbrev jBUS : Nat := 2
/-- FAULT. -/
abbrev jFAULT : Nat := 3
/-- BAD_OP. -/
abbrev jBAD : Nat := 4
/-- ABORTED. -/
abbrev jABORT : Nat := 5
/-- UNWRAP_FAIL. -/
abbrev jUNWRAP : Nat := 6
/-- CTX_FAIL. -/
abbrev jCTX : Nat := 7

/-- A write of CHORUS_CH_OP by master `m` (R292): the KIND of a refusal, or the job queued. -/
def State.chorusOp (s : State) (m c : Nat) (w : Word) : Option Nat × State :=
  if w.getLsbD 31 && decide (4 ≤ (s.chan c).queue.length) then (some kindTarget, s)
  else
    let s := s.setReg (A.CHORUS_CH_OP c) (w &&& 0x0FFF1FFF#32)
    if w.getLsbD 31 then
      let j : ChJob := { op := getBits w 27 24, slot := getBits w 23 16, nblk := getBits w 12 0, src := (s.reg (A.CHORUS_CH_SRC c)).toNat,
                         dst := (s.reg (A.CHORUS_CH_DST c)).toNat, xsrc := (s.reg (A.CHORUS_CH_XSRC c)).toNat, req := m, key := [], status := none,
                         blocks := 0 }
      let x := s.chan c
      (none, (s.setChan c { x with queue := x.queue ++ [j] }).wr (F.CHORUS_CH_STAT_QUEUED c) (x.queue.length + 1))
    else (none, s)

/-! ## Gates (R304 to R307) -/

/-- Zero a channel's data area. -/
def State.wipeData (s : State) (c : Nat) : State := s.wipe (gateBase c + 0x1000) (gateBase c + 0x10000)

/-- The verdict record of R306. -/
def verdictWord (pass fault : Bool) (c slot seq bytes : Nat) : Nat :=
  2 ^ 63 + b2n pass * 2 ^ 62 + b2n fault * 2 ^ 61 + c * 2 ^ 58 + slot * 2 ^ 48 + seq % 65536 * 2 ^ 32 + bytes % 2 ^ 32

/-- Write the verdict record to CHORUS_CH_VADDR under a requester's identity. -/
def State.putVerdict (s : State) (c m v : Nat) : Option Nat × State :=
  s.jobWrite m (getBits (s.reg (A.CHORUS_CH_VADDR c)) 31 3 * 8) (leBytes 8 v)

/-- A FAIL verdict fires source 113 and is booked once a second per channel (R306). -/
def State.failVerdict (s : State) (c : Nat) : State := (s.irq 113).postLim (0xA0040000 + c) 0xA004 4 9 [c]

/-- An open session ends as FAIL: everything is wiped, then the verdict is written (R305, R307). -/
def State.gateFail (s : State) (c m : Nat) (fault : Bool) : Option Nat × State :=
  let g := s.gateOf c
  let s := (s.wipeData c).setGate c { g with state := gIDLE, hold := [], h := [], ej0 := [], j0 := [] }
  let (r, s) := s.putVerdict c m (verdictWord false fault c g.slot g.seq 0)
  (r, s.failVerdict c)

/-- Limit of a session in bytes (R305). -/
def Gate.limit (g : Gate) : Nat := if g.compat then 8192 else 0x10000 - g.dst

/-- GATE_OPEN (R304, step 1). -/
def State.gateOpen (s : State) (c : Nat) (j : ChJob) : (Nat × Nat) × State :=
  let s := if (s.gateOf c).state = gOPEN then (s.gateFail c (s.gateOf c).req false).2 else s
  match s.jobRead j.req j.src 16 with
  | (.error _, s) => ((jBUS, 0), s)
  | (.ok j0, s) =>
    let g := s.gateOf c
    let s := (s.wipeData c).wr (F.CHORUS_CH_GATE_STAT_BYTES c) 0
    ((jDONE, 0), s.setGate c
      { state := gOPEN, slot := j.slot, req := j.req, compat := s.flag (F.CHORUS_CH_GATE_CFG_COMPAT c), j0, ej0 := aesEnc j.key j0,
        h := aesEnc j.key (List.replicate 16 0#8), count := 0, dst := j.dst, seq := (g.seq + 1) % 65536, hold := [],
        epoch := (s.keySlot j.slot).epoch })

/-- The next block of a GATE_CTR (R304, step 2): jDONE where it is decrypted, else the status that the job ends with. What is left of the job has to fit the session (R305); a parity
error that strikes the block ends the session as FAIL (R307). -/
def State.gateBlock (s : State) (c : Nat) (j : ChJob) (err : Bool) : Nat × State :=
  let g := s.gateOf c
  if g.state ≠ gOPEN ∨ j.slot ≠ g.slot then (jBAD, s)
  else if g.limit < 16 * (g.count + (j.nblk - j.blocks)) then (jBAD, (s.gateFail c j.req true).2)
  else if err then (jFAULT, (s.gateFail c j.req true).2)
  else match s.jobRead j.req (j.src + 16 * j.blocks) 16 with
    | (.error _, s) => (jBUS, s)
    | (.ok ct, s) =>
      let p := xorB (aesEnc j.key (inc32 g.j0 (g.count + 1))) ct
      let s := if g.compat then s else s.poke (gateBase c + g.dst + 16 * g.count) p
      let s := s.setGate c { g with count := g.count + 1, hold := if g.compat then g.hold ++ p else g.hold }
      (jDONE, s.wr (F.CHORUS_CH_GATE_STAT_BYTES c) (16 * (g.count + 1)))

/-- Compared bytes of a TLEN code. -/
def tlenBytes (t : Nat) : Nat := if t = 1 then 12 else if t = 2 then 8 else 16

/-- GATE_VERDICT (R304 step 3, R305): LEN stands in XSRC. -/
def State.gateVerdict (s : State) (c : Nat) (j : ChJob) : (Nat × Nat) × State :=
  let g := s.gateOf c
  if g.state ≠ gOPEN ∨ j.slot ≠ g.slot then ((jBAD, 0), s)
  else match s.jobRead j.req j.src 16 with
    | (.error _, s) => ((jBUS, 0), s)
    | (.ok sv, s) => match s.jobRead j.req (j.src + 16) 16 with
      | (.error _, s) => ((jBUS, 0), s)
      | (.ok tv, s) =>
        let len := j.xsrc
        let t := tlenBytes (s.rd (F.CHORUS_CH_GATE_CFG_TLEN c))
        let ended := fun (r : Option Nat) => if r.isSome then jBUS else jDONE
        if 16 * g.count < len then ((jBAD, 0), (s.gateFail c j.req true).2)
        else if (xorB g.ej0 sv).take t ≠ tv.take t then
          let (r, s) := s.gateFail c j.req false
          ((ended r, 0), s)
        else if g.compat then
          let ((r, n), s) := s.jobCopy j.req g.dst (g.hold.take len)
          let s := s.setGate c { g with state := gIDLE, hold := [], h := [], ej0 := [], j0 := [] }
          let (v, s) := s.putVerdict c j.req (verdictWord true false c g.slot g.seq n)
          ((if r.isSome then jBUS else ended v, 0), s)
        else
          let s := s.wipe (gateBase c + g.dst + len) (gateBase c + g.dst + 16 * g.count)
          let (v, s) := s.putVerdict c j.req (verdictWord true false c g.slot g.seq len)
          ((ended v, 0), s.setGate c { g with state := gREADY, h := [], ej0 := [], j0 := [] })

/-! ## Contexts (R308, R309) -/

/-- The header of a context: FORMAT, CHAN, body length, save count. Mark: DESIGN CHOICE (log 66). -/
def ctxHeader (fmt c len saves : Nat) : List Byte := padTo 16 (leBytes 1 fmt ++ leBytes 1 c ++ leBytes 2 len ++ leBytes 6 saves)

/-- What a context starts with: DONE_Q, GATE_CFG, VADDR, gate state, slot, SEQ, destination, block count, slot change count. Mark: DESIGN CHOICE (log 66). -/
def State.ctxState (s : State) (c : Nat) : List Byte :=
  let g := s.gateOf c
  leBytes 4 (s.reg (A.CHORUS_CH_DONE_Q c)).toNat ++ leBytes 4 (s.reg (A.CHORUS_CH_GATE_CFG c)).toNat ++ leBytes 4 (s.reg (A.CHORUS_CH_VADDR c)).toNat
    ++ leBytes 1 g.state ++ leBytes 1 g.slot ++ leBytes 2 g.seq ++ leBytes 4 g.dst ++ leBytes 4 g.count ++ leBytes 4 g.epoch ++ leBytes 1 g.req

/-- CTX_SAVE_CLEAR: 64 bytes; refused while a session is open. -/
def State.ctxSaveClear (s : State) (c : Nat) (j : ChJob) : (Nat × Nat) × State :=
  if (s.gateOf c).state = gOPEN then ((jBAD, 0), s)
  else
    let ((r, n), s) := s.jobCopy j.req j.dst (padTo 64 (ctxHeader 1 c 48 s.chorus.saves ++ s.ctxState c))
    ((if r.isSome then jBUS else jDONE, n / 16), s)

/-- CTX_SAVE_WRAPPED: header, body under the context key, tag; refused while a native session is open. -/
def State.ctxSaveWrapped (s : State) (c : Nat) (j : ChJob) : (Nat × Nat) × State :=
  let g := s.gateOf c
  if g.state = gOPEN ∧ !g.compat then ((jBAD, 0), s)
  else
    let s : State := { s with chorus.saves := s.chorus.saves + 1 }
    let hold := padTo (roundUp g.hold.length 16) g.hold
    let body := padTo 96 (padTo 44 (s.ctxState c) ++ padTo 16 g.j0 ++ padTo 16 g.ej0 ++ padTo 16 g.h ++ leBytes 2 g.hold.length) ++ hold
    let h := ctxHeader 2 c body.length s.chorus.saves
    let blob := h ++ gcmSeal s.chorus.ctxKey (leBytes 12 s.chorus.saves) h body
    let ((r, n), s) := s.jobCopy j.req j.dst blob
    ((if r.isSome then jBUS else jDONE, n / 16), s)

/-- The value a word gives CHORUS_CH_GATE_CFG over channel `c`'s own: only the writable bits, and a reserved TLEN keeps the old one (R5). -/
def State.gateCfgOf (s : State) (c : Nat) (w : Word) : Word :=
  let t := if getBits w 29 28 = 3 then s.rd (F.CHORUS_CH_GATE_CFG_TLEN c) else getBits w 29 28
  setBits (setBits 0#32 31 31 (getBits w 31 31)) 29 28 t

/-- Put a saved state back into channel `c`: a READY gate comes back READY, since no session is open under it. The registers take their writable bits. Mark: DESIGN CHOICE (log 66). -/
def State.ctxPut (s : State) (c : Nat) (b secrets hold : List Byte) (compat : Bool) : State :=
  let s := (s.setReg (A.CHORUS_CH_DONE_Q c) (BitVec.ofNat 32 (leAt b 0 4) &&& 0x8003FFFF#32)).setReg (A.CHORUS_CH_GATE_CFG c) (s.gateCfgOf c (BitVec.ofNat 32 (leAt b 4 4)))
  let s := s.setReg (A.CHORUS_CH_VADDR c) (BitVec.ofNat 32 (leAt b 8 4) &&& 0xFFFFFFF8#32)
  let st := byteAt b 12
  let g : Gate := { state := st, slot := byteAt b 13, seq := leAt b 14 2, dst := leAt b 16 4, count := leAt b 20 4, epoch := leAt b 24 4, req := byteAt b 28,
                    compat, j0 := sliceB secrets 0 16, ej0 := sliceB secrets 16 16, h := sliceB secrets 32 16, hold }
  let s := (s.setGate c (if st = gOPEN then g else { g with state := if st = gREADY then gREADY else gIDLE, j0 := [], ej0 := [], h := [] })).wr (F.CHORUS_CH_GATE_STAT_BYTES c) (16 * g.count)
  if st = gOPEN ∧ (s.keySlot g.slot).epoch ≠ g.epoch then (s.gateFail c g.req true).2 else s

/-- CTX_RESTORE (R309). A clear blob of an OPEN or VERIFYING gate has a wrong format, since no clear context holds gate secrets (R308). Mark: DEDUCED (log 66). -/
def State.ctxRestore (s : State) (c : Nat) (j : ChJob) : (Nat × Nat) × State :=
  let bad := fun (s : State) => ((jCTX, 0), s.irq 116)
  if (s.gateOf c).state = gOPEN then bad s
  else match s.jobRead j.req j.src 16 with
    | (.error _, s) => ((jBUS, 0), s)
    | (.ok h, s) =>
      let n := leAt h 2 2
      if byteAt h 0 = 1 ∧ n = 48 then
        match s.jobFetch j.req (j.src + 16) 48 with
        | (.error _, s) => ((jBUS, 0), s)
        | (.ok b, s) => if byteAt b 12 = gIDLE ∨ byteAt b 12 = gREADY then ((jDONE, 0), s.ctxPut c b [] [] false) else bad s
      else if byteAt h 0 = 2 ∧ 96 ≤ n ∧ n ≤ 8288 ∧ n % 16 = 0 then
        match s.jobFetch j.req (j.src + 16) (n + 16) with
        | (.error _, s) => ((jBUS, 0), s)
        | (.ok x, s) => match gcmOpen s.chorus.ctxKey (leBytes 12 (leAt h 4 6)) h x with
          | none => bad s
          | some b => ((jDONE, 0), s.ctxPut c b (sliceB b 44 48) ((b.drop 96).take (leAt b 92 2)) (bit (leAt b 4 4) 31))
      else bad s

/-! ## Jobs (R294 to R297) -/

/-- A master's job breaks its row of R294; a native gate's DST is an offset in its data area (R305). -/
def ChJob.bad (j : ChJob) (compat : Bool) : Bool :=
  let al := fun (a : Nat) => a % 16 == 0
  let n := decide (1 ≤ j.nblk) && decide (j.nblk ≤ 4096)
  !(match j.op with
    | 1 | 2 => n && al j.src && al j.dst
    | 3 => n && al j.src && al j.dst && al j.xsrc
    | 4 => al j.src && al j.dst && (compat || (decide (0x1000 ≤ j.dst) && decide (j.dst ≤ 0xFFF0)))
    | 5 => n && al j.src
    | 6 => al j.src
    | 7 => j.req == 8 && decide (2 ≤ j.nblk) && decide (j.nblk ≤ 8) && al j.src && al j.dst
    | 8 => j.req == 8 && decide (3 ≤ j.nblk) && decide (j.nblk ≤ 9) && al j.src && al j.dst
    | 9 | 10 => al j.dst
    | 11 => al j.src
    | _ => false)

/-- The USE bit an operation needs; none for context operations. -/
def opUse (op : Nat) : Option Nat :=
  if op = 1 ∨ op = 3 then some useENC else if op = 2 then some useDEC else if op = 4 ∨ op = 5 ∨ op = 6 then some useGATE
  else if op = 7 ∨ op = 8 then some useWRAP else none

/-- The slot check of R295. -/
def State.slotAllows (s : State) (j : ChJob) : Bool :=
  match opUse j.op with
  | none => true
  | some u => let k := s.keySlot j.slot
    k.loaded && bit k.use u && decide (j.req < 25) && bit k.users j.req

/-- Are all eight cores out of service (R300)? -/
def State.coresOut (s : State) : Bool := s.rd F.CHORUS_STAT_CORE_FAULT == 255

/-- Put the running job of a channel. -/
def State.setRunning (s : State) (c : Nat) (j : Option ChJob) : State :=
  (s.setChan c { s.chan c with running := j }).wr (F.CHORUS_CH_STAT_BUSY c) (b2n j.isSome)

/-- The next queued job of a channel starts (R294, R295): checks its row, takes the slot check twice, and takes its key. With all eight cores out every job ends with FAULT (R300). -/
def State.jobStart (s : State) (c : Nat) (agree : Bool) : State :=
  let x := s.chan c
  match x.running, x.queue with
  | none, j :: rest =>
    let s := (s.setChan c { x with queue := rest }).wr (F.CHORUS_CH_STAT_QUEUED c) rest.length
    if j.status.isSome then s.setRunning c (some j)
    else if s.coresOut then s.setRunning c (some { j with status := some jFAULT })
    else if j.bad (s.flag (F.CHORUS_CH_GATE_CFG_COMPAT c)) then s.setRunning c (some { j with status := some jBAD })
    else if (opUse j.op).isSome && !agree then
      ((s.sat F.CHORUS_CNT_DT_DISAGREE).irq 118).dtDisagree.setRunning c (some { j with status := some jFAULT })
    else if !s.slotAllows j then s.setRunning c (some { j with status := some jDENIED })
    else s.setRunning c (some { j with key := (s.keySlot j.slot).key })
  | _, _ => s

/-- The next block of an ENC, DEC or ENC_XOR job (R294): read, transformed and written. Answers jDONE where it is written, else the status that the job ends with; a block that a parity
error strikes is not written (R300). -/
def State.cryptBlock (s : State) (j : ChJob) (err : Bool) : Nat × State :=
  match s.jobRead j.req (j.src + 16 * j.blocks) 16 with
  | (.error _, s) => (jBUS, s)
  | (.ok b, s) => match (if j.op = 3 then s.jobRead j.req (j.xsrc + 16 * j.blocks) 16 else (.ok (List.replicate 16 0#8), s)) with
    | (.error _, s) => (jBUS, s)
    | (.ok x, s) =>
      if err then (jFAULT, s)
      else match s.jobWrite j.req (j.dst + 16 * j.blocks) (xorB (if j.op = 2 then aesDec j.key b else aesEnc j.key b) x) with
        | (some _, s) => (jBUS, s)
        | (none, s) => (jDONE, s)

/-! ### The scheduler (R298) -/

/-- A started job that has blocks left to schedule: ENC, DEC, ENC_XOR, GATE_CTR. -/
def ChJob.blocky (j : ChJob) : Bool := (j.op == 1 || j.op == 2 || j.op == 3 || j.op == 5) && j.status.isNone

/-- Has channel `c` a block to schedule? -/
def State.hasBlock (s : State) (c : Nat) : Bool :=
  match (s.chan c).running with
  | some j => j.blocky
  | none => false

/-- Blocks left to schedule, over all channels. -/
def State.blocksLeft (s : State) : Nat :=
  (List.range 8).foldl (fun a c => match (s.chan c).running with
    | some j => if j.blocky then a + (j.nblk - j.blocks) + 1 else a
    | none => a) 0

/-- The first class: does a frame of the station ports wait for its check by the Chorus (R90)? Then no channel's block is taken up. Mark: DESIGN CHOICE (log 157). -/
def State.framesFirst (s : State) : Bool :=
  s.chorusPorts && [0, 1].any fun k => (s.authBuf k).any fun i => i.frame.ext.isSome && getBits (i.words.getD 0 0#32) 30 29 != 2

/-- The channel of a class whose turn it is: the next with a block after the one served last. Mark: DESIGN CHOICE (log 157). -/
def State.classNext (s : State) (high : Bool) : Option Nat :=
  let last := if high then s.chorus.turnHigh else s.chorus.turnLow
  ((List.range 8).map fun i => (last + 1 + i) % 8).find? fun c => s.hasBlock c && bit (s.rd F.CHORUS_CFG_CHP) c == high

/-- The block that the scheduler hands out next: its class and its channel. Channels whose bit is set in CHP come first. -/
def State.nextTurn (s : State) : Option (Bool × Nat) :=
  match s.classNext true with
  | some c => some (true, c)
  | none => (s.classNext false).map fun c => (false, c)

/-- Channel `c` has had its turn. -/
def State.tookTurn (s : State) (high : Bool) (c : Nat) : State :=
  if high then { s with chorus.turnHigh := c } else { s with chorus.turnLow := c }

/-- The core that a parity error strikes, unless it is out of service already (R300). -/
def State.coreErr (s : State) (core : Nat) : Option Nat := if bit (s.rd F.CHORUS_STAT_CORE_FAULT) (core % 8) then none else some core

/-- One turn of channel `c`: one block of its job; `core` is the core that errs at it. The job has ended when it has a status. -/
def State.turn (s : State) (c : Nat) (core : Option Nat) : State :=
  match (s.chan c).running with
  | some j =>
    let (st, s) := if s.coresOut then (jFAULT, s) else if j.op = 5 then s.gateBlock c j core.isSome else s.cryptBlock j core.isSome
    let s := match core with
      | some k => if st = jFAULT then s.coreFault k else s
      | none => s
    let n := if st = jDONE then j.blocks + 1 else j.blocks
    s.setRunning c (some { j with blocks := n, status := if st ≠ jDONE then some st else if j.nblk ≤ n then some jDONE else none })
  | none => s

/-- The core that errs at the next block of channel `d`, where `fault` names a block of channel `c` and a core. -/
def State.strikes (s : State) (c d : Nat) (fault : Option (Nat × Nat)) : Option Nat :=
  match fault, (s.chan d).running with
  | some (b, core), some j => if d = c ∧ b = j.blocks then s.coreErr core else none
  | _, _ => none

/-- The scheduler's turns until the job of channel `c` has ended (R298); the jobs of other channels advance on the way. Mark: DESIGN CHOICE (log 157). -/
def State.turns (c : Nat) (fault : Option (Nat × Nat)) : Nat → State → State
  | 0, s => s
  | fuel + 1, s =>
    if s.hasBlock c then
      match s.nextTurn with
      | some (high, d) => State.turns c fault fuel ((s.tookTurn high d).turn d (s.strikes c d fault))
      | none => s
    else s

/-- Run the blocks of channel `c` if the OP of its job is `op`; `fault` is the block and the core of a parity error. -/
def State.blockRun (s : State) (c op : Nat) (fault : Option (Nat × Nat)) : State :=
  match (s.chan c).running with
  | some j => if j.op = op ∧ j.status = none ∧ !s.framesFirst then State.turns c fault s.blocksLeft s else s
  | none => s

/-- WRAP (R294): NBLK semiblocks from SRC, NBLK + 1 to DST. -/
def State.jobWrap (s : State) (j : ChJob) : (Nat × Nat) × State :=
  match s.jobFetch j.req j.src (8 * j.nblk) with
  | (.error _, s) => ((jBUS, 0), s)
  | (.ok b, s) =>
    let ((r, n), s) := s.jobCopy j.req j.dst (kwWrap j.key b)
    ((if r.isSome then jBUS else jDONE, n / 16), s)

/-- UNWRAP (R294): to DST, or into the unwrap buffer when DST = 0; a failed integrity check writes nothing. -/
def State.jobUnwrap (s : State) (j : ChJob) : (Nat × Nat) × State :=
  match s.jobFetch j.req j.src (8 * j.nblk) with
  | (.error _, s) => ((jBUS, 0), s)
  | (.ok b, s) => match kwUnwrap j.key b with
    | none => ((jUNWRAP, 0), s.irq 115)
    | some p =>
      if j.dst = 0 then ((jDONE, 0), { s with chorus.unwrap := some p })
      else
        let ((r, n), s) := s.jobCopy j.req j.dst p
        ((if r.isSome then jBUS else jDONE, n / 16), s)

/-- Run the job of channel `c`, an operation of a single pass, if its OP is `op`: a parity error in a core that is in service ends the whole, and so does that no core is left (R300). -/
def State.jobRun (s : State) (c op : Nat) (fault : Option (Nat × Nat)) (k : ChJob → State → (Nat × Nat) × State) : State :=
  match (s.chan c).running with
  | some j =>
    if j.op = op ∧ j.status = none then
      if s.coresOut then s.setRunning c (some { j with status := some jFAULT })
      else match fault.bind fun f => s.coreErr f.2 with
        | some core => (s.coreFault core).setRunning c (some { j with status := some jFAULT })
        | none =>
          let ((st, n), s) := k j s
          s.setRunning c (some { j with status := some st, blocks := n })
    else s
  | none => s

/-- The job of channel `c` has ended (R296, R297): its status shows, a completion record is written by master 9, other statuses than DONE fire source 112. Mark: DESIGN CHOICE (log 119). -/
def State.jobDone (s : State) (c : Nat) : State :=
  match (s.chan c).running with
  | some j =>
    match j.status with
    | some st =>
      let s := s.setRunning c none
      let s := ((s.wr (F.CHORUS_CH_STAT_STATUS c) st).wr (F.CHORUS_CH_STAT_REQ c) j.req).wr (F.CHORUS_CH_STAT_BLOCKS c) j.blocks
      let s := if st = jDONE then s else s.irq 112
      if s.flag (F.CHORUS_CH_DONE_Q_EN c) then
        (s.enqueue 9 (s.rd (F.CHORUS_CH_DONE_Q_QUEUE c))
          (leBytes 8 (2 ^ 63 + st * 2 ^ 59 + c * 2 ^ 56 + j.op * 2 ^ 52 + j.slot * 2 ^ 44 + j.req * 2 ^ 39 + j.blocks * 2 ^ 19))).2
      else s
    | none => s
  | none => s

/-! ## Commits of key slots (R302, R303) -/

/-- A gate session of channel `c` that is open on slot `i` ends as FAIL, and the GATE_CTR and GATE_VERDICT jobs that wait on it end with ABORTED (R303), a started one that has not ended
among them: the session it would go on with is gone. Mark: DEDUCED (log 166). -/
def State.slotSession (s : State) (i c : Nat) : State :=
  let g := s.gateOf c
  if g.state = gOPEN ∧ g.slot = i then
    let s := (s.gateFail c g.req true).2
    let end1 := fun (j : ChJob) => if j.slot = i ∧ (j.op = 5 ∨ j.op = 6) ∧ j.status = none then { j with status := some jABORT } else j
    let x := s.chan c
    s.setChan c { x with queue := x.queue.map end1, running := x.running.map end1 }
  else s

/-- One slot takes its new content: sessions on it end as FAIL, and a link slot changes S2's key; an ERASE of a link slot takes the link down as R250 has it. A shorter link key stands in
the first bytes of its 32. Mark: DESIGN CHOICE (log 157). -/
def State.slotApply (s : State) (i : Nat) (p : SlotPush) : State :=
  let e := (s.keySlot i).epoch + 1
  let s := s.setKeySlot i (if p.erase then { KeySlot.empty with epoch := e }
    else { loaded := true, len := p.len, use := p.use, users := p.users, key := p.key, epoch := e })
  let s := (List.range 8).foldl (fun s c => s.slotSession i c) s
  if i < 253 then s
  else
    let s := { s with us.keys := padTo (32 * (i - 253)) s.us.keys ++ padTo 32 p.key ++ s.us.keys.drop (32 * (i - 253) + 32) }
    if p.erase then s.s2Fault else s

/-- The CHORUS change list becomes live: source 114. -/
def State.chorusApply (s : State) : State :=
  let s := s.chorus.changes.foldl (fun s c => s.slotApply c.1 c.2) s
  State.irq (State.wr { s with chorus.changes := [] } F.CHORUS_KEY_STAT_LIST_COUNT 0) 114

/-- CHORUS_KEY_STAT as it is read: LOADED, LEN and USE of the live slot. -/
def State.chorusKeyStat (s : State) : Word :=
  let k := s.keySlot (s.rd F.CHORUS_KEY_IDX_SLOT)
  setBits (setBits (setBits (s.reg A.CHORUS_KEY_STAT) 31 31 (b2n k.loaded)) 23 22 k.len) 19 16 k.use

/-- A write of CHORUS_CFG: a DMAX below DMIN leaves DMAX unchanged, reserved values leave their fields unchanged. -/
def State.chorusCfgWrite (s : State) (w : Word) : State :=
  let s := s.wr F.CHORUS_CFG_CHP (getBits w 15 8)
  let locked := s.lifecycle == .issued || s.lifecycle == .returned || s.lifecycle == .decommissioned
  let s := if getBits w 2 0 ≤ 4 ∧ !locked then s.wr F.CHORUS_CFG_DMIN (getBits w 2 0) else s
  if getBits w 6 4 ≤ 4 ∧ s.rd F.CHORUS_CFG_DMIN ≤ getBits w 6 4 then s.wr F.CHORUS_CFG_DMAX (getBits w 6 4) else s

/-- A write of CHORUS_CH_GATE_CFG is ignored while the gate is open (R307). -/
def State.gateCfgWrite (s : State) (c : Nat) (w : Word) : State :=
  if (s.gateOf c).state = gOPEN then s
  else
    s.setReg (A.CHORUS_CH_GATE_CFG c) (s.gateCfgOf c w)

/-- CURTAIN (R296, R303): jobs end ABORTED without records, gates are wiped without verdicts. A channel shows the last of its jobs, which is the last to end. -/
def State.chorusCurtain (s : State) : State :=
  let any := (List.range 8).any fun c => (s.chan c).running.isSome || !(s.chan c).queue.isEmpty
  let s := (List.range 8).foldl (fun s c =>
    let x := s.chan c
    let s := match (x.running.toList ++ x.queue).getLast? with
      | some j => ((s.wr (F.CHORUS_CH_STAT_STATUS c) jABORT).wr (F.CHORUS_CH_STAT_REQ c) j.req).wr (F.CHORUS_CH_STAT_BLOCKS c) j.blocks
      | none => s
    let s := (s.setChan c { x with queue := [], running := none }).wr (F.CHORUS_CH_STAT_BUSY c) 0
    ((s.wr (F.CHORUS_CH_STAT_QUEUED c) 0).wipeData c).setGate c { Gate.idle with seq := x.gate.seq }) s
  if any then s.irq 112 else s

end Sys2Proof.Machine
end

