-- ==== Sys2Proof/Machine/Drbg.lean ====
section
/-! DEFINITION. The generator of SP 800-90A that R326 names, CTR_DRBG with AES-256 and the derivation function, and the continuous health tests of SP 800-90B (R325). The manual gives
neither by formula: they are the standards'. Mark: PRESUMED (log 165). -/

namespace Sys2Proof.Machine

/-! ## CTR_DRBG (SP 800-90A, 10.2.1 and 10.3) -/

/-- The counter `k` steps on, modulo 2^128. -/
def ctrStep (v : List Byte) (k : Nat) : List Byte := beBytes 16 ((beNat v + k) % 2 ^ 128)

/-- Three blocks of keystream after counter `v`: a seed's 48 bytes. -/
def ctrSeedLen (key v : List Byte) : List Byte := aesEnc key (ctrStep v 1) ++ aesEnc key (ctrStep v 2) ++ aesEnc key (ctrStep v 3)

/-- CTR_DRBG_Update: the new key and counter. Mark: PRESUMED (log 165). -/
def DrbgState.update (d : DrbgState) (provided : List Byte) : DrbgState :=
  let t := xorB (ctrSeedLen d.key d.v) provided
  { d with key := t.take 32, v := t.drop 32 }

/-- BCC: the chained encryption of whole blocks. -/
def bcc (key data : List Byte) : List Byte := (blocks16 data).foldl (fun c b => aesEnc key (xorB c b)) (List.replicate 16 0#8)

/-- Block_Cipher_df to 48 bytes. Mark: PRESUMED (log 165). -/
def drbgDf (input : List Byte) : List Byte :=
  let body := beBytes 4 input.length ++ beBytes 4 48 ++ input ++ [0x80#8]
  let key := (List.range 32).map (BitVec.ofNat 8 ·)
  let t := (List.range 3).flatMap fun i => bcc key (beBytes 4 i ++ List.replicate 12 0#8 ++ body)
  let k := t.take 32
  let x := (t.drop 32).take 16
  aesEnc k x ++ aesEnc k (aesEnc k x) ++ aesEnc k (aesEnc k (aesEnc k x))

/-- Instantiation from entropy, nonce and personalisation. -/
def drbgInstantiate (entropy nonce pers : List Byte) : DrbgState :=
  DrbgState.update { live := true, key := List.replicate 32 0#8, v := List.replicate 16 0#8 } (drbgDf (entropy ++ nonce ++ pers))

/-- A reseed. -/
def DrbgState.reseed (d : DrbgState) (entropy : List Byte) : DrbgState := d.update (drbgDf entropy)

/-- A generate request of `n` bytes: the bytes, and the state after it. Mark: PRESUMED (log 165). -/
def DrbgState.generate (d : DrbgState) (n : Nat) : List Byte × DrbgState :=
  let k := (n + 15) / 16
  (((List.range k).flatMap fun i => aesEnc d.key (ctrStep d.v (i + 1))).take n, DrbgState.update { d with v := ctrStep d.v k } (List.replicate 48 0#8))

/-! ## Health tests (SP 800-90B, 4.4; R325) -/

/-- What one raw bit does to a source's tests: the repetition count, and the proportion in a window of 1,024 bits whose first bit is the one counted. Mark: PRESUMED (log 165). -/
def NoiseTrack.bit (t : NoiseTrack) (b : Bool) : NoiseTrack :=
  let run := if t.seen && t.last == b then t.run + 1 else 1
  if t.pos = 0 then { seen := true, last := b, run, pos := 1, first := b, same := 1 }
  else { seen := true, last := b, run, pos := (t.pos + 1) % 1024, first := t.first, same := t.same + b2n (t.first == b) }

/-- The bits of a word in arrival order, and whether the repetition count or the proportion reached its cutoff in it. -/
def NoiseTrack.word (t : NoiseTrack) (rct apt : Nat) (w : Word) : NoiseTrack × Bool × Bool :=
  (List.range 32).foldl (fun r i =>
    let t := r.1.bit (w.getLsbD i)
    (t, r.2.1 || decide (rct ≤ t.run), r.2.2 || decide (apt ≤ t.same))) (t, false, false)

end Sys2Proof.Machine
end

