-- ==== Sys2Proof/Machine/Scree.lean ====
section
/-! DEFINITION. The Scree (R325 to R329): noise sources, conditioning, the two generators. -/

namespace Sys2Proof.Machine

/-- Is noise source `k` in service? -/
def State.sourceUp (s : State) (k : Nat) : Bool := bit (s.rd F.SCREE_STAT_HEALTHY) k

/-- Put source `k` into or out of service. -/
def State.setSource (s : State) (k : Nat) (up : Bool) : State := s.wr ⟨A.SCREE_STAT, 16 + k % 8, 16 + k % 8⟩ (b2n up)

/-- Sources in service. Mark: DEDUCED (log 74). -/
def State.healthyCount (s : State) : Nat := ((List.range 8).filter s.sourceUp).length

/-- The instances can be seeded and instance 1 delivers (R327, R329). -/
def State.entropyOk (s : State) : Bool := !s.flag F.SCREE_STAT_FAILED && s.flag F.SCREE_STAT_INSTANTIATED

/-- Generator `i`. -/
def State.drbg (s : State) (i : Nat) : DrbgState := look (fun _ => DrbgState.off) s.scree.inst i

/-- Put generator `i`. -/
def State.setDrbg (s : State) (i : Nat) (d : DrbgState) : State := { s with scree.inst := put (fun _ => DrbgState.off) s.scree.inst i d }

/-- The bytes of a raw word, the first bit to arrive the least significant of the first byte. Mark: DESIGN CHOICE (log 147). -/
def rawBytes (ws : List Word) : List Byte := ws.flatMap fun w => leBytes 4 w.toNat

/-- 576 raw bits: 18 test words while they replace the sources, else noise, which is free; none while test words are short. -/
def State.rawBits (s : State) : Option (List Byte × State) :=
  if s.flag F.SCREE_TEST_EN then
    (if s.scree.test.length < 18 then none else some (rawBytes (s.scree.test.take 18), { s with scree.test := s.scree.test.drop 18 }))
  else some (padTo 72 (Config.noise s.fresh), s.next)

/-- The personalisation string: the serial, then SCREE_PERS_0 to 3, each least significant byte first (R327). -/
def State.persString (s : State) : List Byte := serial16 ++ (List.range 4).flatMap fun k => leBytes 4 (s.reg (A.SCREE_PERS k)).toNat

/-- Instance `i` takes 256 conditioned bits (R326, R327): the SHA-256 of 576 raw ones. It is instantiated where `anew` says so or it never was, and reseeded else; the instance waits where
no raw bits are there. The nonce of an instantiation is free. Mark: DESIGN CHOICE (log 147). -/
def State.takeSeed (s : State) (i : Nat) (anew : Bool) : State :=
  match s.rawBits with
  | none => { s with scree.owed := s.scree.owed.filter (·.1 != i) ++ [(i, anew || !(s.drbg i).live)] }
  | some (raw, s) =>
    let e := sha256 raw
    let d := if anew || !(s.drbg i).live then drbgInstantiate e (padTo 16 (Config.drbgNonce s.fresh)) (if i = 1 then s.persString else []) else (s.drbg i).reseed e
    let s := s.next.setDrbg i d
    { s with scree.seeded := put (fun _ => 0) s.scree.seeded i s.now, scree.requests := if i = 1 then 0 else s.scree.requests
             scree.owed := s.scree.owed.filter (·.1 != i) }

/-- Instance `i` takes fresh entropy; instance 1 not before it was first instantiated (R327). -/
def State.seedInstance (s : State) (i : Nat) : State :=
  if i = 1 ∧ !s.flag F.SCREE_STAT_INSTANTIATED then s else s.takeSeed i false

/-- R329, first and fourth rows. A source still in its start-up samples counts as one that may yet serve. -/
def State.screeJudge (s : State) : State :=
  let failed := s.flag F.SCREE_STAT_FAILED
  let need := s.rd F.SCREE_HEALTH_MIN_SRC
  if !failed && decide (s.healthyCount + s.scree.starting.length < need) then
    let s := (s.wr F.SCREE_STAT_FAILED 1).irq 129
    { s with alarms := s.alarms ++ [0x0C] }
  else if failed && decide (need ≤ s.healthyCount) then
    ((((s.wr F.SCREE_STAT_FAILED 0).wr F.SCREE_STAT_CM_STALE 0).seedInstance 0).seedInstance 1).irq 130
  else s

/-- Source `k` has passed its 1,024 start-up samples; instance 0 is instantiated once enough sources serve. Mark: DESIGN CHOICE (log 75). -/
def State.screeStarted (s : State) (k : Nat) : State :=
  if s.scree.starting.contains k then
    let s := State.screeJudge (State.setSource { s with scree.starting := s.scree.starting.filter (· != k) } k true)
    if !(s.drbg 0).live && decide (s.rd F.SCREE_HEALTH_MIN_SRC ≤ s.healthyCount) && !s.flag F.SCREE_STAT_FAILED then s.seedInstance 0 else s
  else s

/-- Ticks of the 4,096 samples of a retest, at 2 Mb/s. Mark: DEDUCED (log 74). -/
def sampleTicks : Nat := 4096 * 250

/-- A retest of a source ends after 1 s and 4,096 samples. Mark: DEDUCED (log 74). -/
def retestTicks : Nat := ticksPerSecond + sampleTicks

/-- Source `k` is out of service and its tests do not run: it is retired, or its second out of service has not passed (R325). Mark: DESIGN CHOICE (log 158). -/
def State.sourceIdle (s : State) (k : Nat) : Bool :=
  bit (s.rd F.SCREE_STAT_RETIRED) k || (s.armed (.screeRetest k) && decide (s.now + sampleTicks < s.dueAt (.screeRetest k)))

/-- Source `k` fails a test (R325): out of service, counted, source 128; after its third failure it stays out. -/
def State.sourceFail (s : State) (k : Nat) (apt : Bool) : State :=
  if s.sourceIdle k then s
  else
    let n := look (fun _ => 0) s.scree.fails k + 1
    let s : State := { s with scree.fails := put (fun _ => 0) s.scree.fails k n, scree.starting := s.scree.starting.filter (· != k) }
    let s := ((s.setSource k false).sat (if apt then F.SCREE_CNT_APT_FAIL else F.SCREE_CNT_RCT_FAIL)).irq 128
    let s := if 3 ≤ n then (s.wr ⟨A.SCREE_STAT, 8 + k % 8, 8 + k % 8⟩ 1).disarm (.screeRetest k) else s.arm (.screeRetest k) retestTicks
    s.screeJudge

/-- Source `k` is readmitted. -/
def State.sourceRetest (s : State) (k : Nat) : State := s.fire (.screeRetest k) fun s => (s.setSource k true).screeJudge

/-- Ticks between two seedings of an instance: 1 ms, or RESEED_MS. -/
def State.reseedTicks (s : State) (i : Nat) : Nat := if i = 0 then ticksPerMs else max 1 (s.rd F.SCREE_DRBG_RESEED_MS) * ticksPerMs

/-- Instance `i` reseeds by its time, or instance 1 by its requests (R326); a failed Scree cannot. -/
def State.drbgReseed (s : State) (i : Nat) : State :=
  let byCount := i == 1 && decide (2 ^ s.rd F.SCREE_DRBG_RESEED_REQ ≤ s.scree.requests)
  let s := if byCount then s else s.reachST (look (fun _ => 0) s.scree.seeded i + s.reseedTicks i)
  if s.flag F.SCREE_STAT_FAILED then s else s.seedInstance i

/-- A 256-bit seed of instance 0 for a countermeasure stream. -/
def State.cmSeed (s : State) : State :=
  let r := (s.drbg 0).generate 32
  { s.setDrbg 0 r.2 with scree.cm := s.scree.cm ++ [r.1] }

/-- Every 1 µs the twelve countermeasure streams are due their seeds (R326); while FAILED, and before instance 0 is instantiated, they go on from their last (R22, R329). Mark: DESIGN CHOICE (log 158). -/
def State.cmSeedDraw (s : State) : State :=
  let s := s.reachST (s.scree.cmAt + ticksPerMs / 1000)
  if s.flag F.SCREE_STAT_FAILED then s.wr F.SCREE_STAT_CM_STALE 1
  else if !(s.drbg 0).live then s
  else (List.range 12).foldl (fun s _ => s.cmSeed) { s with scree.cm := [], scree.cmAt := s.now }

/-- A write of SCREE_CTRL. -/
def State.screeCtrl (s : State) (w : Word) : State :=
  let s := if w.getLsbD 31 then (s.wr F.SCREE_STAT_INSTANTIATED 1).takeSeed 1 true else s
  let s := if w.getLsbD 30 && !s.flag F.SCREE_STAT_FAILED then (s.seedInstance 0).seedInstance 1 else s
  if w.getLsbD 29 then s.setReg A.SCREE_CNT 0 else s

/-- A write of SCREE_TEST (R328): test words replace the noise sources only in a BLANK or FACTORY device. -/
def State.screeTest (s : State) (w : Word) : State :=
  if s.lifecycle == .blank || s.lifecycle == .factory then
    let on := w.getLsbD 31
    let s := if on && !s.flag F.SCREE_TEST_EN then s.irq 131 else s
    (s.wr F.SCREE_TEST_EN (b2n on)).wr F.SCREE_STAT_TEST (b2n on)
  else s

/-- The health tests of the source that a test word stands for: the sources are taken in turn (R326, R328). Mark: DESIGN CHOICE (log 147). -/
def State.testHealth (s : State) (w : Word) : State :=
  let k := s.scree.words % 8
  let r := NoiseTrack.word (look (fun _ => NoiseTrack.new) s.scree.tracks k) (s.rd F.SCREE_HEALTH_RCT_CUTOFF) (s.rd F.SCREE_HEALTH_APT_CUTOFF) w
  let s : State := { s with scree.words := s.scree.words + 1
                            scree.tracks := put (fun _ => NoiseTrack.new) s.scree.tracks k (if r.2.1 || r.2.2 then NoiseTrack.new else r.1) }
  if r.2.1 then s.sourceFail k false else if r.2.2 then s.sourceFail k true else s

/-- A write of SCREE_TEST_DATA: 32 raw bits, consumed in arrival order while EN = 1 by the health tests, the conditioning and the instances that wait for them (R328). -/
def State.screeTestData (s : State) (w : Word) : State :=
  if s.flag F.SCREE_TEST_EN then
    let s := State.testHealth { s with scree.test := s.scree.test ++ [w] } w
    match s.scree.owed with
    | (i, anew) :: _ => if s.scree.test.length < 18 then s else s.takeSeed i anew
    | [] => s
  else s

/-- Instance 1 serves a request of `n` bytes (R326): with prediction resistance fresh entropy comes first, and else a reseed that its requests have made due. Mark: DESIGN CHOICE (log 158). -/
def State.drbgServe (s : State) (n : Nat) (fresh : Bool) : List Byte × State :=
  let s := if fresh || decide (2 ^ s.rd F.SCREE_DRBG_RESEED_REQ ≤ s.scree.requests) then s.seedInstance 1 else s
  let r := (s.drbg 1).generate n
  (r.1, { s.setDrbg 1 r.2 with scree.requests := s.scree.requests + 1 })

/-- A read of SCREE_RAND (R326, R329): 32 fresh bits of instance 1, or KIND 0x5. Mark: DESIGN CHOICE (log 147). -/
def State.screeRand (s : State) : Except Nat Word × State :=
  if s.entropyOk then
    let r := s.drbgServe 4 false
    (.ok (BitVec.ofNat 32 (leNat r.1)), r.2)
  else (.error kindTarget, s)

end Sys2Proof.Machine
end

