-- ==== Sys2Proof/Machine/Massif.lean ====
section
/-! DEFINITION. The Massif (R313 to R324, R330, R331): key registers, submissions, jobs and their ends. The public-key algorithms are those of the standards that R314
names; here they are uninterpreted functions of their inputs. Hashing and derivation are computed. -/

namespace Sys2Proof.Machine

/-! ## Key registers (R318) -/

/-- Types of a key register: a root (DERIVE parent). -/
abbrev kROOT : Nat := 0
/-- P-256 private key. -/
abbrev kP256 : Nat := 1
/-- P-384 private key. -/
abbrev kP384 : Nat := 2
/-- Ed25519 seed. -/
abbrev kED : Nat := 3
/-- X25519 private key. -/
abbrev kX25519 : Nat := 4
/-- ML-KEM-768 seed. -/
abbrev kKEM768 : Nat := 5
/-- ML-KEM-1024 seed. -/
abbrev kKEM1024 : Nat := 6
/-- ML-DSA-65 seed. -/
abbrev kDSA65 : Nat := 7
/-- ML-DSA-87 seed. -/
abbrev kDSA87 : Nat := 8
/-- A shared or derived secret. -/
abbrev kSECRET : Nat := 9

/-- Key register `j`. -/
def State.mkey (s : State) (j : Nat) : Option MKey := find? s.massif.keys j

/-- Write key register `j`; MASSIF_KEY_MAP shows what is loaded. -/
def State.setMKey (s : State) (j : Nat) (k : Option MKey) : State :=
  let s : State := { s with massif.keys := put noneAt s.massif.keys j k }
  if j < 32 then s.wr ⟨A.MASSIF_KEY_MAP_LO, j, j⟩ (b2n k.isSome) else s.wr ⟨A.MASSIF_KEY_MAP_HI, j - 32, j - 32⟩ (b2n k.isSome)

/-- The types an operation's KEYREF may have; none where it takes no key register. -/
def opTypes (op : Nat) : List Nat :=
  match op with
  | 0x10 | 0x11 | 0x16 => [kP256]
  | 0x12 | 0x13 => [kP384]
  | 0x14 | 0x15 => [kED]
  | 0x17 => [kX25519]
  | 0x22 => [kKEM768]
  | 0x25 => [kKEM1024]
  | 0x29 | 0x2A => [kDSA65]
  | 0x2C | 0x2D => [kDSA87]
  | 0x40 => [kROOT, kSECRET]
  | 0x41 => [kSECRET]
  | 0x44 => [kP256, kP384, kED, kX25519, kKEM768, kKEM1024, kDSA65, kDSA87]
  | _ => []

/-- The type of the key an operation writes into DKEY. -/
def opResult (op : Nat) : Option Nat :=
  match op with
  | 0x16 | 0x17 | 0x21 | 0x22 | 0x24 | 0x25 | 0x40 => some kSECRET
  | 0x18 => some kP256
  | 0x20 => some kKEM768
  | 0x23 => some kKEM1024
  | 0x28 => some kDSA65
  | 0x2B => some kDSA87
  | _ => none

/-- An 8-byte label: its ASCII octets padded on the right with zeros (R315). -/
def label (l : List Nat) : List Byte := padTo 8 (l.map (BitVec.ofNat 8 ·))

/-- DERIVE (R315). Mark: DEDUCED (log 69). -/
def derive (k lab ctx : List Byte) (n : Nat) : List Byte := shake256 n (k ++ lab ++ ctx ++ beBytes 2 n)

/-- The order of P-256. -/
def p256Order : Nat := 0xFFFFFFFF00000000FFFFFFFFFFFFFFFFBCE6FAADA7179E84F3B9CAC2FC632551

/-- The start sequence rebuilds registers 1, 3 and 4, and register 2 where the Refuge share allows (R330, R331). -/
def State.rebuildKeys (s : State) (share : Option (List Byte)) : State :=
  let otp := padTo 32 Config.otpShare
  let irk := shake256 32 (otp ++ label [0x49, 0x52, 0x4B])
  let s := s.setMKey 1 (some { type := kROOT, bytes := irk })
  let s := s.setMKey 2 (share.map fun r => { type := kROOT, bytes := shake256 32 (otp ++ r ++ label [0x43, 0x52, 0x4B]) })
  let ec := beNat (derive irk (label [0x49, 0x44, 0x45, 0x43]) [] 48) % (p256Order - 1) + 1
  let s := s.setMKey 3 (some { type := kP256, bytes := beBytes 32 ec })
  s.setMKey 4 (some { type := kDSA65, bytes := derive irk (label [0x49, 0x44, 0x4D, 0x4C]) [] 32 })

/-! ## Queues (R317, R323) -/

/-- Classes: SHORT. -/
abbrev cSHORT : Nat := 0
/-- LONG. -/
abbrev cLONG : Nat := 1
/-- HASH. -/
abbrev cHASH : Nat := 2

/-- The class of an operation (R314); none where it is reserved. -/
def opClass (op : Nat) : Option Nat :=
  if 1 ≤ op ∧ op ≤ 8 then some cHASH
  else if op = 0x12 ∨ op = 0x29 ∨ op = 0x2C ∨ op = 0x30 ∨ op = 0x31 ∨ op = 0x32 ∨ op = 0x38 ∨ op = 0x39 then some cLONG
  else if (0x10 ≤ op ∧ op ≤ 0x18) ∨ (0x20 ≤ op ∧ op ≤ 0x25) ∨ (0x28 ≤ op ∧ op ≤ 0x2D) ∨ (0x40 ≤ op ∧ op ≤ 0x44) then some cSHORT
  else none

/-- The jobs waiting in a class. -/
def State.mqueue (s : State) (c : Nat) : List MJob := look (fun _ => []) s.massif.queues c

/-- The job running in a class. -/
def State.mrunning (s : State) (c : Nat) : Option MJob := find? s.massif.running c

/-- Capacity of a class's queue. -/
def classRoom (c : Nat) : Nat := if c = cSHORT then 16 else if c = cLONG then 8 else 32

/-- MASSIF_STAT follows the queues, the running jobs and the key bus. -/
def State.massifShow (s : State) : State :=
  let busy := fun c => b2n (s.mrunning c).isSome
  let s := ((s.wr F.MASSIF_STAT_BUSY_LONG (busy cLONG)).wr F.MASSIF_STAT_BUSY_SHORT (busy cSHORT)).wr F.MASSIF_STAT_BUSY_HASH (busy cHASH)
  let s := ((s.wr F.MASSIF_STAT_Q_LONG (s.mqueue cLONG).length).wr F.MASSIF_STAT_Q_SHORT (s.mqueue cSHORT).length).wr F.MASSIF_STAT_Q_HASH (s.mqueue cHASH).length
  (s.wr F.MASSIF_STAT_YIELDED (b2n s.massif.yielded)).wr F.MASSIF_STAT_BUS_KEYS s.chorus.bus.length

/-- Replace a class's queue. -/
def State.setMQueue (s : State) (c : Nat) (l : List MJob) : State :=
  State.massifShow { s with massif.queues := put (fun _ => []) s.massif.queues c l }

/-- Replace the running job of a class. -/
def State.setMRunning (s : State) (c : Nat) (j : Option MJob) : State :=
  State.massifShow { s with massif.running := put noneAt s.massif.running c j }

/-- Put a key on the Massif key bus (R315). -/
def State.busKeys (s : State) (ks : List (List Byte)) : State := State.massifShow { s with chorus.bus := s.chorus.bus ++ ks }

/-- Statuses (R319). -/
abbrev mDONE : Nat := 0
/-- DENIED. -/
abbrev mDENIED : Nat := 1
/-- BUS_ERR. -/
abbrev mBUS : Nat := 2
/-- FAULT. -/
abbrev mFAULT : Nat := 3
/-- BAD_OP. -/
abbrev mBAD : Nat := 4
/-- BAD_INPUT. -/
abbrev mINPUT : Nat := 6
/-- INVARIANT. -/
abbrev mINV : Nat := 7
/-- MODE. -/
abbrev mMODE : Nat := 8
/-- NO_ENTROPY. -/
abbrev mENT : Nat := 9
/-- RETRY_LIMIT. -/
abbrev mRETRY : Nat := 10

/-- A job ends (R319): its completion record is written by master 10; every status but DONE fires source 124. -/
def State.massifEnd (s : State) (j : MJob) (st : Nat) (valid : Bool) : State :=
  let s := if st = mDONE then s else s.irq 124
  if s.flag (F.MASSIF_DONE_Q_EN j.page) then
    (s.enqueue 10 (s.rd (F.MASSIF_DONE_Q_QUEUE j.page))
      (leBytes 8 (2 ^ 63 + st * 2 ^ 59 + b2n valid * 2 ^ 58 + j.page * 2 ^ 56 + j.op * 2 ^ 48 + j.req * 2 ^ 43 + j.tag))).2
  else s

/-- The job of a descriptor (R316). -/
def mjobOf (p m : Nat) (b : List Byte) : MJob :=
  let w0 := leAt b 0 4
  { op := w0 / 2 ^ 24, keyref := w0 / 2 ^ 16 % 256, dkey := w0 / 2 ^ 8 % 256, twice := bit w0 7, keybus := bit w0 6, nout := w0 / 8 % 8,
    src := leAt b 4 4, srclen := leAt b 8 4, dst := leAt b 12 4, dstlen := leAt b 16 4, ctx := leAt b 20 4, tag := leAt b 24 4, page := p, req := m,
    key := [], key2 := [], status := none, valid := false }

/-- A write of MASSIF_SUBMIT_p by master `m` (R317): the KIND of a refusal, or the job queued. A descriptor that cannot be read and a reserved OP have no class: their
jobs end at once. -/
def State.massifSubmit (s : State) (m p a : Nat) : Option Nat × State :=
  match s.dmaRead m (a / 8 * 8) 32 with
  | (.error _, s) => (none, s.massifEnd (mjobOf p m []) mBUS false)
  | (.ok b, s) =>
    let j := mjobOf p m b
    match opClass j.op with
    | none => (none, s.massifEnd j mBAD false)
    | some c =>
      if classRoom c ≤ (s.mqueue c).length then (some kindTarget, s.irq 127)
      else (none, s.setMQueue c (s.mqueue c ++ [j]))

/-! ## Starting a job (R317, R318, R321, R324, R329) -/

/-- An operation that verifies. -/
def isVerify (op : Nat) : Bool := [0x11, 0x13, 0x15, 0x2A, 0x2D, 0x30, 0x38, 0x39].contains op

/-- An operation that signs. -/
def isSign (op : Nat) : Bool := [0x10, 0x12, 0x14, 0x29, 0x2C].contains op

/-- May the job run in CURTAIN (R324)? -/
def MJob.curtainOk (j : MJob) : Bool :=
  let vol := fun k => decide (8 ≤ k) && decide (k ≤ 63)
  j.req == 8 && j.keyref != 2 && j.dkey != 2 && (decide (1 ≤ j.op ∧ j.op ≤ 8) || isVerify j.op || j.op == 0x44
    || (isSign j.op && (j.keyref == 3 || j.keyref == 4))
    || ([0x16, 0x17, 0x18, 0x20, 0x21, 0x22, 0x23, 0x24, 0x25].contains j.op && vol j.dkey)
    || (j.op == 0x41 && vol j.keyref && vol j.dkey))

/-- A key use that only requester 8 may make (R317). -/
def MJob.guarded (j : MJob) : Bool := j.keyref != 0 || j.dkey != 0 || j.keybus || decide (0x40 ≤ j.op ∧ j.op ≤ 0x44)

/-- The result of the operation is checked before it is written (R320): signatures, the RSA private operation, key agreement on a curve, key generation. -/
def isChecked (op : Nat) : Bool := isSign op || [0x16, 0x17, 0x18, 0x20, 0x23, 0x28, 0x2B, 0x31].contains op

/-- The job needs randomness (R326, R329): key generation, nonces, encapsulation. -/
def needsEntropy (op : Nat) : Bool := [0x10, 0x12, 0x18, 0x20, 0x21, 0x23, 0x24, 0x28, 0x29, 0x2B, 0x2C].contains op

/-- A length or field outside the operation's row (R314). Mark: DEDUCED (log 70). -/
def MJob.badRow (j : MJob) : Bool :=
  decide (63 < j.keyref) || decide (63 < j.dkey)
    || ((opResult j.op).isSome && j.dkey == 0 && !(j.op == 0x40 && j.keybus))
    || ((j.op == 6 || j.op == 7) && decide (65536 < j.dstlen))
    || (j.op == 0x40 && (decide (32 < j.srclen) || decide (65536 < j.dstlen) || (j.keybus && j.dstlen != 32)))
    || (j.op == 0x41 && (decide (64 < j.srclen) || j.nout == 0 || decide (4 < j.nout)))
    || ((j.op == 0x42 || j.op == 0x43) && j.dkey == 0)

/-- The registers a job reads fit its operation (R318, R324): registers 3 and 4 sign and show their public key only. Mark: DEDUCED (log 71). -/
def State.keysFit (s : State) (j : MJob) : Bool :=
  let fits := fun r => match s.mkey r with
    | some k => (opTypes j.op).contains k.type && !((r == 3 || r == 4) && !(isSign j.op || j.op == 0x44))
    | none => false
  let refOk := if j.keyref = 0 then !(j.op == 0x40 || j.op == 0x41 || j.op == 0x44) else fits j.keyref
  let dOk := if j.op = 0x41 then fits j.dkey
    else if (opResult j.op).isSome ∧ !j.keybus ∨ j.op = 0x42 ∨ j.op = 0x43 then decide (8 ≤ j.dkey) else true
  refOk && dOk

/-- The status with which a job ends before it runs; `agree` tells whether Double-take's two paths agree on its key check. Mark: DEDUCED (log 70). -/
def State.massifGate (s : State) (j : MJob) (agree : Bool) : Option Nat × State :=
  if s.mode == .curtain && !j.curtainOk then (some mMODE, s)
  else if (j.keyref ≠ 0 ∨ j.dkey ≠ 0) ∧ !agree then (some mFAULT, ((s.sat F.MASSIF_CNT_DT_DISAGREE).irq 126).dtDisagree)
  else if j.req ≠ 8 ∧ j.guarded then (some mDENIED, s)
  else if j.badRow then (some mBAD, s)
  else if needsEntropy j.op && !s.entropyOk then (some mENT, s)
  else if !s.keysFit j then (some mDENIED, s)
  else (none, s)

/-- The bytes of a key register. -/
def State.mbytes (s : State) (j : Nat) : List Byte := ((s.mkey j).map (·.bytes)).getD []

/-- The jobs whose operands still stand in a partition, each with whether it named a key register. -/
def State.partition (s : State) (c : Nat) : List (Nat × Bool) := look (fun _ => []) s.massif.parts c

/-- A job enters its partition, which is wiped before it where the job before it had another requester or named a key register (R322). The hash lane keeps nothing. Mark: DESIGN CHOICE (log 158). -/
def State.enterPart (s : State) (c : Nat) (j : MJob) : State :=
  if c = cHASH then s
  else
    let kept := if (s.partition c).all fun p => p.1 == j.req && !p.2 then s.partition c else []
    { s with massif.parts := put (fun _ => []) s.massif.parts c (kept ++ [(j.req, j.keyref != 0 || j.dkey != 0)]) }

/-- The next job of a class starts (R323). A SHORT job starts between LONG jobs or at a yield point of the one that runs; a LONG job waits for the SHORT job that runs. The
partition is wiped first where R322 says. -/
def State.massifStart (s : State) (c : Nat) (agree : Bool) : State :=
  match s.mrunning c, s.mqueue c with
  | none, j :: rest =>
    if c = cLONG ∧ (s.mrunning cSHORT).isSome then s
    else
      let s := (s.setMQueue c rest).enterPart c j
      let s : State := if c = cSHORT ∧ (s.mrunning cLONG).isSome then { s with massif.yielded := true } else s
      let (st, s) := s.massifGate j agree
      s.setMRunning c (some { j with status := st, key := if j.keyref = 0 then [] else s.mbytes j.keyref, key2 := if j.op = 0x41 then s.mbytes j.dkey else [] })
  | _, _ => s

/-- The yielded LONG job resumes once the SHORT queue is empty. -/
def State.longResume (s : State) : State :=
  if s.massif.yielded && (s.mqueue cSHORT).isEmpty && (s.mrunning cSHORT).isNone then State.massifShow { s with massif.yielded := false } else s

/-! ## What an operation computes -/

/-- Write a result to DST; room is checked first. -/
def State.massifOut (s : State) (j : MJob) (bs : List Byte) : Nat × State :=
  if j.dstlen < bs.length then (mBAD, s)
  else
    let (r, s) := s.dmaWrite j.req j.dst bs
    (if r.isSome then mBUS else mDONE, s)

/-- The digest of a hash operation. -/
def hashOp (op n : Nat) (bs : List Byte) : List Byte :=
  if op = 1 then sha256 bs else if op = 2 then sha384 bs else if op = 3 then sha512 bs else if op = 4 then sha3 32 bs else if op = 5 then sha3 64 bs
  else if op = 6 then shake128 n bs else shake256 n bs

/-- HASH operations 0x01 to 0x07. -/
def State.runHash (s : State) (j : MJob) : (Nat × Bool) × State :=
  match s.dmaRead j.req j.src j.srclen with
  | (.error _, s) => ((mBUS, false), s)
  | (.ok b, s) =>
    let (st, s) := s.massifOut j (hashOp j.op j.dstlen b)
    ((st, false), s)

/-- HMAC-SHA-256. No field gives the length of the key at CTX: it is free between 1 and 64. Mark: DESIGN CHOICE (log 68). -/
def State.runHmac (s : State) (j : MJob) : (Nat × Bool) × State :=
  let n := 1 + s.draw % 64
  match s.next.dmaRead j.req j.ctx n with
  | (.error _, s) => ((mBUS, false), s)
  | (.ok k, s) => match s.dmaRead j.req j.src j.srclen with
    | (.error _, s) => ((mBUS, false), s)
    | (.ok b, s) =>
      let (st, s) := s.massifOut j (hmac256 k b)
      ((st, false), s)

/-- DERIVE: label and context stand at CTX; SRCLEN gives the context's length. Mark: DEDUCED (log 69). -/
def State.runDerive (s : State) (j : MJob) : (Nat × Bool) × State :=
  match s.dmaRead j.req j.ctx (8 + j.srclen) with
  | (.error _, s) => ((mBUS, false), s)
  | (.ok b, s) =>
    let k := derive j.key (b.take 8) (b.drop 8) j.dstlen
    if j.keybus then
      if 4 ≤ s.chorus.bus.length then ((mBAD, false), s) else ((mDONE, false), s.busKeys [k])
    else ((mDONE, false), s.setMKey j.dkey (some { type := kSECRET, bytes := k }))

/-- COMBINE. -/
def State.runCombine (s : State) (j : MJob) : (Nat × Bool) × State :=
  match s.dmaRead j.req j.src j.srclen with
  | (.error _, s) => ((mBUS, false), s)
  | (.ok b, s) =>
    if 4 < s.chorus.bus.length + j.nout then ((mBAD, false), s)
    else
      let o := shake256 (32 * j.nout) (j.key ++ j.key2 ++ b)
      ((mDONE, false), s.busKeys ((List.range j.nout).map fun i => sliceB o (32 * i) 32))

/-- Bytes of an imported key of a type. -/
def importLen (t : Nat) : Option Nat :=
  if t = kP256 ∨ t = kED ∨ t = kX25519 ∨ t = kDSA65 ∨ t = kDSA87 then some 32 else if t = kKEM768 ∨ t = kKEM1024 then some 64 else none

/-- IMPORT: the Chorus unwrap buffer goes into DKEY. -/
def State.runImport (s : State) (j : MJob) : (Nat × Bool) × State :=
  let t := Config.importType j.ctx
  match s.chorus.unwrap with
  | none => ((mBAD, false), s)
  | some b =>
    if importLen t = some b.length then ((mDONE, false), State.setMKey { s with chorus.unwrap := none } j.dkey (some { type := t, bytes := b }))
    else ((mBAD, false), s)

/-- A public-key operation (R314, R320): a withheld result writes nothing. Its randomness comes from instance 1, with prediction resistance for key generation and nonces (R326). -/
def State.runPk (s : State) (j : MJob) (inv : Bool) : (Nat × Bool) × State :=
  match s.dmaRead j.req j.src j.srclen with
  | (.error _, s) => ((mBUS, false), s)
  | (.ok b, s) => match (if j.ctx = 0 then (.ok [], s) else s.dmaRead j.req j.ctx 32) with
    | (.error _, s) => ((mBUS, false), s)
    | (.ok c, s) =>
      let r := if needsEntropy j.op then s.drbgServe 32 (!(j.op == 0x21 || j.op == 0x24)) else ([], s)
      let f := leNat r.1
      let s := r.2
      if Config.pkBad j.op j.key b c then ((mINPUT, false), s)
      else if isVerify j.op then ((mDONE, Config.pkValid j.op j.key b c), s)
      else if (j.op = 0x29 ∨ j.op = 0x2C) ∧ Config.signRetries j.op j.key b f then ((mRETRY, false), s)
      else if inv && isChecked j.op then
        let ws := s.now :: s.massif.withheld.filter fun t => decide (s.now < t + ticksPerSecond)
        let s := (State.irq (State.sat { s with massif.withheld := ws } F.MASSIF_CNT_INVARIANT) 125).post 0xA005 6 10 [j.op, j.req]
        ((mINV, false), if max 1 (s.rd F.MASSIF_CFG_INV_LIMIT) ≤ ws.length then { s with alarms := s.alarms ++ [0x0B] } else s)
      else
        let o := Config.pkOut j.op j.key b c f
        let (st, s) := s.massifOut j o
        if st = mDONE then
          match opResult j.op with
          | some t => ((mDONE, false), s.setMKey j.dkey (some { type := t, bytes := Config.pkSecret j.op j.key b c f }))
          | none => ((mDONE, false), s)
        else ((st, false), s)

/-- PUBLIC: the public key of KEYREF to DST. -/
def State.runPublic (s : State) (j : MJob) : (Nat × Bool) × State :=
  let t := ((s.mkey j.keyref).map (·.type)).getD kROOT
  let (st, s) := s.massifOut j (Config.pkPublic t j.key)
  ((st, false), s)

/-- What a job computes, by its operation. -/
def State.massifCompute (s : State) (j : MJob) (inv : Bool) : (Nat × Bool) × State :=
  match j.op with
  | 1 | 2 | 3 | 4 | 5 | 6 | 7 => s.runHash j
  | 8 => s.runHmac j
  | 0x40 => s.runDerive j
  | 0x41 => s.runCombine j
  | 0x42 => s.runImport j
  | 0x43 => ((mDONE, false), s.setMKey j.dkey none)
  | 0x44 => s.runPublic j
  | _ => s.runPk j inv

/-- The class in which a job with one of the operations runs and is not paused or ended. -/
def State.runningClass (s : State) (ops : List Nat) : Option Nat :=
  [cSHORT, cLONG, cHASH].find? fun c =>
    !(c == cLONG && s.massif.yielded) && match s.mrunning c with
      | some j => ops.contains j.op && j.status.isNone
      | none => false

/-- A running job with one of the operations computes. `inv` tells of a failed end-of-job check, `parity` of a parity error, `agree` of Double-take's agreement on the final
comparison of a verify with TWICE = 1 (R320, R321). -/
def State.massifRun (s : State) (ops : List Nat) (inv parity agree : Bool) : State :=
  match s.runningClass ops with
  | none => s
  | some c =>
    match s.mrunning c with
    | none => s
    | some j =>
      if parity then ((s.irq 126).post 0xA006 6 10 [j.op, j.req]).setMRunning c (some { j with status := some mFAULT })
      else if isVerify j.op && j.twice && !agree then
        (((s.sat F.MASSIF_CNT_DT_DISAGREE).irq 126).dtDisagree).setMRunning c (some { j with status := some mFAULT })
      else
        let ((st, v), s) := s.massifCompute j inv
        s.setMRunning c (some { j with status := some st, valid := v })

/-- The job of a class has ended (R319). Mark: DESIGN CHOICE (log 119). -/
def State.massifDone (s : State) (c : Nat) : State :=
  match s.mrunning c with
  | some j =>
    match j.status with
    | some st => (s.setMRunning c none).massifEnd j st j.valid
    | none => s
  | none => s

/-- Queues, partitions and the volatile keys are cleared: registers 2 and 8 to 63 (R322, R324). -/
def State.massifClear (s : State) : State :=
  let s := (List.range 64).foldl (fun (s : State) j => if j = 2 ∨ 8 ≤ j then s.setMKey j none else s) s
  State.massifShow { s with massif.queues := [], massif.running := [], massif.yielded := false, massif.parts := [] }

/-- Entry to CURTAIN (R324): running and queued jobs end ABORTED, with no completion record. -/
def State.massifCurtain (s : State) : State :=
  let any := [cSHORT, cLONG, cHASH].any fun c => (s.mrunning c).isSome || !(s.mqueue c).isEmpty
  let s := s.massifClear
  if any then s.irq 124 else s

end Sys2Proof.Machine
end

