-- ==== Sys2Proof/Machine/Curtain.lean ====
section
/-! DEFINITION. The Safety Curtain and the Refuge (R333 to R341, R348 to R354): sources, classes, the response, the unlock, the Refuge's share, log and clock. -/

namespace Sys2Proof.Machine

/-! ## The Refuge clock and log (R348, R351) -/

/-- The Refuge clock, in counts of 1/32,768 s. While Stage Time stands still the time that passes is not observed here, so how far the clock has gone on is free. Mark: DESIGN CHOICE (log 86). -/
def State.rtcNow (s : State) : Nat × State :=
  if s.timeRuns then (s.refuge.rtc + (s.now - s.refuge.rtcAt) * 32768 / ticksPerSecond, s)
  else
    let t := s.refuge.rtc + (s.now - s.refuge.rtcAt) * 32768 / ticksPerSecond + s.draw
    (t, { s.next with refuge.rtc := t, refuge.rtcAt := s.now })

/-- Bring the base of the clock up to now. Mark: DESIGN CHOICE (log 86). -/
def State.rtcFold (s : State) : State :=
  let (t, s) := s.rtcNow
  { s with refuge.rtc := t, refuge.rtcAt := s.now }

/-- REFUGE_STAT.NEW follows the log. -/
def State.logShow (s : State) : State := s.wr F.REFUGE_STAT_NEW (s.refuge.log.filter fun e => !e.copied).length

/-- Room for an entry in a log of 16: the oldest copied entry goes, or the oldest (R351). -/
def logRoom (l : List RLog) : List RLog :=
  if l.length < 16 then l
  else match l.find? (·.copied) with
    | some e => l.erase e
    | none => l.drop 1

/-- A Refuge log entry is written: TOTAL counts and source 142 fires (R351). Mark: DESIGN CHOICE (log 83). -/
def State.logEntry (s : State) (cause : Nat) (detail : Word) : State :=
  let (t, s) := s.rtcNow
  let s := s.sat F.REFUGE_STAT_TOTAL
  let e : RLog := { sec := t / 32768 % 2 ^ 32, sub := t % 32768, cell := s.refuge.onCell, cause, total := s.rd F.REFUGE_STAT_TOTAL, copied := false, detail }
  let s := State.logShow { s with refuge.log := logRoom s.refuge.log ++ [e] }
  if s.power then s.irq 142 else s

/-- An entry whose detail the manual does not state: it is free. -/
def State.logFree (s : State) (cause : Nat) : State := s.next.logEntry cause (BitVec.ofNat 32 s.draw)

/-- Word Wk of a log entry. -/
def RLog.word (e : RLog) (k : Nat) : Word :=
  if k = 0 then BitVec.ofNat 32 e.sec
  else if k = 1 then setBits (setBits (setBits 0#32 31 17 e.sub) 16 16 (b2n e.cell)) 15 8 e.cause
  else if k = 2 then setBits (setBits 0#32 31 16 e.total) 0 0 (b2n e.copied)
  else e.detail

/-- Set COPIED on entry `k`, 0 = oldest. -/
def State.markCopied (s : State) (k : Nat) : State :=
  State.logShow { s with refuge.log := (s.refuge.log.zip (List.range 16)).map fun p => if p.2 = k then { p.1 with copied := true } else p.1 }

/-- A write of REFUGE_LOG_SEL: bit 31 marks the entry that INDEX names. -/
def State.logSel (s : State) (w : Word) : State :=
  let s := s.setReg A.REFUGE_LOG_SEL w
  if w.getLsbD 31 then s.markCopied (getBits w 3 0) else s

/-- The Refuge share is zeroised. -/
def State.zeroShare (s : State) : State := { s.wr F.REFUGE_STAT_SHARE_OK 0 with refuge.share := none }

/-- 32 bytes that the Curtain or COMMISSION draws from instance 1 (R326, R331, R340); free while it delivers nothing. -/
def State.draw32 (s : State) (fresh : Bool) : List Byte × State :=
  if s.entropyOk then s.drbgServe 32 fresh else (padTo 32 (Config.freshKey s.fresh), s.next)

/-- A new share is drawn, with prediction resistance (COMMISSION, R331): entry 0x33. -/
def State.newShare (s : State) : State :=
  let r := (s.wr F.REFUGE_STAT_SHARE_OK 1).draw32 true
  State.logFree { r.2 with refuge.share := some r.1 } 0x33

/-- A write of REFUGE_RTC_SET loads the seconds: RTC_OK, entry 0x32 and source 143 (R351). -/
def State.rtcSet (s : State) (w : Word) : State :=
  State.irq (State.logFree { s.wr F.REFUGE_STAT_RTC_OK 1 with refuge.rtc := w.toNat * 32768, refuge.rtcAt := s.now } 0x32) 143

/-- A write of REFUGE_CFG sets loop enables; writing 0 is ignored (R349). -/
def State.refugeCfg (s : State) (w : Word) : State := s.setReg A.REFUGE_CFG (s.reg A.REFUGE_CFG ||| (w &&& 0xC0000000#32))

/-! ## Commits and the challenge -/

/-- A pending commit of a block is aborted (R28, R29). -/
def State.abortPend (s : State) (base : Nat) : State :=
  if s.pendingIn base then (s.unpend base).wr (F.BLOCK_COMMIT_STATUS_ABORTED base) 1 else s

/-- The Curtain draws a challenge of 32 bytes (R340), and the Stage Manager owes a summary with it (R439). -/
def State.drawChallenge (s : State) : State :=
  let r := s.draw32 false
  ((List.range 8).foldl (fun (s : State) k => s.setReg (A.CURTAIN_CHAL k) (BitVec.ofNat 32 (leAt r.1 (4 * k) 4))) r.2).summaryOwed

/-! ## The response (R336) -/

/-- Steps 2 and 3: pulses, pre-issued cues and commits under evaluation go, the cue engine stops and tickets are discarded; cores 0 to 7 are held with empty late-error queues; egress
and the heartbeat stop. Sessions close and commands in flight end without a reply (R382, R389). Mark: DEDUCED (log 52). -/
def State.curtainStop (s : State) : State :=
  let s : State := { s with
    timers := s.timers.filter fun p => match p.1 with
      | .pulse _ | .ticket _ | .sessPending _ | .sessIdle _ | .relay _ => false
      | _ => true
    desk.sessions := []
    desk.cmds := []
    pin.pre := []
    dtake.evals := []
    dtake.agreed := []
    cue.waiting := []
    cue.tickets := [] }
  let s := s.wr F.CUE_CTRL_RUN 0
  let s := (List.range 8).foldl (fun (s : State) n =>
    let s := (s.holdCore n).wr (F.IRQ_CORE_STAT_STOPPED n) 1
    s.setCore n { s.core n with late := [], lateLost := false }) s
  let s := (List.range 32).foldl (fun (s : State) g => s.wr (F.PINS_GRP_STAT_PENDING g) 0) s
  { s.egressCurtain with us.aliveOut := false, us.ho := 0, us.hoRequest := false }

/-- Step 4: key slots, stream keys and volatile key registers are zeroised, jobs end. -/
def State.curtainKeys (s : State) : State :=
  let s := s.chorusCurtain.massifCurtain
  { s.next with
    chorus.slots := [], chorus.unwrap := none, chorus.bus := [], chorus.ctxKey := padTo 32 (Config.freshKey s.fresh)
    sol.keys := [], us.keys := [], troupe.bkey := none, troupe.oldBkey := none, troupe.sessions := [], troupe.oldSessions := [], troupe.exchanges := [] }

/-- Step 5 for bank `n`: zeroing starts 2 µs after the entry and takes 16.384 µs. -/
def State.curtainBank (s : State) (n : Nat) : State :=
  let st := s.bankState n
  if st = bankON ∨ st = bankWAKING then (s.startZero n).arm (.bankZero n) 9192
  else if st = bankRET then
    let s := s.bankOff n
    (s.setLive (A.TERRACE_BANK n) (setBits (s.liveReg (A.TERRACE_BANK n)) 31 30 0)).setReg (A.TERRACE_BANK n) (setBits (s.reg (A.TERRACE_BANK n)) 31 30 0)
  else s

/-- Step 5: banks, and the core-local RAM of cores 0 to 7. -/
def State.curtainRam (s : State) : State :=
  let s := (List.range 64).foldl State.curtainBank s
  (List.range 8).foldl (fun (s : State) n =>
    let lo := 0x08000000 + n * 0x40000
    { s.wipe lo (lo + 0x40000) with
      terr.bad := s.terr.bad.filter fun w => !(decide (lo ≤ w) && decide (w < lo + 0x40000))
      terr.writeback := s.terr.writeback.filter fun w => !(decide (lo ≤ w) && decide (w < lo + 0x40000)) }) s

/-- 18.4 µs from detection to the end of the zeroing. -/
def curtainTicks : Nat := 9200

/-- Entry to CURTAIN for cause `id` (R336, R337). Mark: DESIGN CHOICE (log 89), DEDUCED (log 90). -/
def State.curtainEnter (s : State) (id : Nat) (z : Bool) : State :=
  let s := (((s.wr F.CURTAIN_STAT_FIRST id).wr F.CURTAIN_STAT_LATCH 1).wr F.SYS_STATE_CURTAIN_LATCH 1).wr F.REFUGE_STAT_LATCH 1
  let s := if z then (s.zeroShare).wr F.CURTAIN_STAT_CLASS_Z 1 else s
  let s := (s.logFree id).drawChallenge
  let withheld := !s.dtake.evals.isEmpty || !s.dtake.agreed.isEmpty
  let s := pairedBlocks.foldl State.abortPend s
  let s : State := { s with pendCue := [], alarms := [], curtain := some { cause := id, z, withheld } }
  let s := s.curtainStop.enterMode .curtain causeCurtain
  (s.curtainKeys.curtainRam.readerStop).arm .curtainZero curtainTicks

/-- A Curtain source asserts (R333 to R337). `z` says that the assertion is a Class Z alarm whatever its class bit (R349). -/
def State.curtainAssertZ (s : State) (id : Nat) (z : Bool) : State :=
  let s := (s.wr ⟨A.CURTAIN_STAT, id, id⟩ 1).wr ⟨A.CURTAIN_HIST, id, id⟩ 1
  if s.lifecycle = .blank then (s.irq 132).postU 0xB105 4 [id]
  else if s.mode = .curtain then
    let s := s.logFree id
    if z then (s.zeroShare.setMKey 2 none).wr F.CURTAIN_STAT_CLASS_Z 1 else s
  else s.curtainEnter id z

/-- The class of source `id`. Mark: DEDUCED (log 82). -/
def State.classZ (s : State) (id : Nat) : Bool := bit (s.rd F.CURTAIN_CFG_CLASS) id

/-- A Curtain source asserts under the class in force. Mark: DEDUCED (log 87). -/
def State.curtainAssert (s : State) (id : Nat) : State := if s.power then s.curtainAssertZ id (s.classZ id) else s

/-- Releases that a dropped link ended complete, and the sources that units asserted in the command under way take effect. Mark: DESIGN CHOICE (log 117). -/
def State.settle (s : State) : State :=
  s.relFlush.alarms.foldl State.curtainAssert { s.relFlush with alarms := [] }

/-- A source's condition stops holding. -/
def State.curtainClear (s : State) (id : Nat) : State := s.wr ⟨A.CURTAIN_STAT, id, id⟩ 0

/-- Step 6: zeroing is complete (R336, R23): source 134, and the records. Mark: DESIGN CHOICE (log 89), DEDUCED (log 91). -/
def State.curtainZeroDone (s : State) : State :=
  match s.curtain with
  | none => s
  | some c =>
    let s := ({ s with curtain := none } : State).irq 134
    let s := s.postU (0xB000 + c.cause) 7 [c.cause, b2n c.z]
    if c.withheld then s.postU 0xB103 6 [] else s

/-- CURTAIN_CFG takes one write after each main-domain reset (R334); later ones are counted. -/
def State.curtainCfg (s : State) (w : Word) : State :=
  if s.flag F.CURTAIN_CFG_LOCKED then s.sat (F.BLOCK_REFUSED_LIVE_WRITES Base.CURTAIN)
  else (s.wr F.CURTAIN_CFG_CLASS ((getBits w 15 0 ||| 0xC01E) / 2 * 2)).wr F.CURTAIN_CFG_LOCKED 1

/-- The junction leaves −40 to 125 °C (R333). -/
def State.junctionWarn (s : State) (hot : Bool) : State := (s.wr (if hot then F.CURTAIN_WARN_HOT else F.CURTAIN_WARN_COLD) 1).irq 137

/-! ## The unlock (R338 to R341) -/

/-- Results of CURTAIN_UNLOCK_STAT. -/
abbrev ulACCEPTED : Nat := 1
/-- Signature. -/
abbrev ulSIGNATURE : Nat := 2
/-- Field mismatch. -/
abbrev ulFIELD : Nat := 3
/-- Source asserting. -/
abbrev ulSOURCE : Nat := 4
/-- Lifecycle. -/
abbrev ulLIFECYCLE : Nat := 5
/-- Blocked. -/
abbrev ulBLOCKED : Nat := 6
/-- Double-take disagreement. -/
abbrev ulTWICE : Nat := 7

/-- A token is refused (R341): counted, source 135, booked, a new challenge; the eighth refusal in a row starts the wait of 3,600 s. -/
def State.unlockRefuse (s : State) (r : Nat) : State :=
  let s := (((s.wr F.CURTAIN_UNLOCK_STAT_RESULT r).sat F.CURTAIN_UNLOCK_STAT_FAILS).irq 135).postU 0xB104 6 [r]
  let s := s.drawChallenge
  if 8 ≤ s.rd F.CURTAIN_UNLOCK_STAT_FAILS ∧ !s.flag F.CURTAIN_STAT_UNLOCK_BLOCKED then
    (s.wr F.CURTAIN_STAT_UNLOCK_BLOCKED 1).arm .unlockBlock (3600 * ticksPerSecond)
  else s

/-- Do the fields of a token body match the device (R338)? -/
def State.tokenFits (s : State) (b : List Byte) : Bool :=
  b.length == 64 && beNat (sliceB b 0 4) == 0x554E4C4B && byteAt b 4 == 1 && sliceB b 8 16 == padTo 16 Config.serial
    && sliceB b 24 32 == s.challenge && beNat (sliceB b 56 4) == s.rd F.REFUGE_STAT_TOTAL

/-- Why the Curtain refuses a verified body, in the order it looks (R340, step 4, and R341). Mark: DEDUCED (log 85). -/
def State.unlockReason (s : State) (b : List Byte) : Option Nat :=
  if s.flag F.CURTAIN_STAT_UNLOCK_BLOCKED then some ulBLOCKED
  else if !s.tokenFits b then some ulFIELD
  else if s.rd F.CURTAIN_STAT_ACTIVE ≠ 0 then some ulSOURCE
  else if s.lifecycle ≠ .issued then some ulLIFECYCLE
  else none

/-- The Curtain accepts a body: both latches and the history clear, the log is kept, LOOPS_CLR is applied (R340, step 5). -/
def State.unlockAccept (s : State) (b : List Byte) : State :=
  let s := ((s.wr F.CURTAIN_STAT_LATCH 0).wr F.CURTAIN_STAT_CLASS_Z 0).wr F.CURTAIN_STAT_FIRST 0
  let s := ((s.wr F.REFUGE_STAT_LATCH 0).wr F.SYS_STATE_CURTAIN_LATCH 0).setReg A.CURTAIN_HIST 0
  let s := if bit (byteAt b 5) 0 then s.setReg A.REFUGE_CFG 0 else s
  let s := (s.wr F.CURTAIN_UNLOCK_STAT_RESULT ulACCEPTED).wr F.CURTAIN_UNLOCK_STAT_FAILS 0
  (s.logFree 0x35).irq 136

/-- The Curtain checks a body from the unlock path (R340, R342); the decision is taken twice. Mark: DEDUCED (log 85). -/
def State.unlockCheck (s : State) (b : List Byte) (agree : Bool) : State :=
  if s.mode ≠ .curtain then s
  else match s.unlockReason b with
    | some r => s.unlockRefuse r
    | none => match s.twice agree with
      | (true, s) => s.unlockAccept b
      | (false, s) => s.unlockRefuse ulTWICE

/-- The wait of R341 ends. -/
def State.unlockFree (s : State) : State := s.wr F.CURTAIN_STAT_UNLOCK_BLOCKED 0

/-! ## The Refuge's own sources, cell and supply (R348 to R353) -/

/-- An alarm raised while only the cell powers the Refuge (R350). -/
def State.cellAlarm (s : State) (cause : Nat) (detail : Word) : State :=
  let s := (s.zeroShare.logEntry cause detail).wr F.REFUGE_STAT_LATCH 1
  { s with refuge.cellAlarm := true }

/-- One condition of R349 as a check finds it: a failure that was not there before is a Class Z alarm. Under main power it asserts its source, which is new where its ACTIVE bit is 0, so that one
still there at a power-up or after a reset asserts again (R333). Mark: DEDUCED (log 81, 82). -/
def State.refugeSee (s : State) (cause : Nat) (fails : Bool) (detail : Word) : State :=
  let was := s.refuge.failing.contains cause
  let s : State := { s with refuge.failing := if fails then (if was then s.refuge.failing else s.refuge.failing ++ [cause]) else s.refuge.failing.filter (· != cause) }
  if s.power then
    if cause = 0x23 ∨ cause = 0x24 then s
    else
      let id := cause - 0x19
      if !fails then s.curtainClear id
      else if bit (s.rd F.CURTAIN_STAT_ACTIVE) id then s
      else s.curtainAssertZ id true
  else if fails && !was then s.cellAlarm cause detail else s

/-- A check of the loops, the mesh and VBAT (R349). Mark: DEDUCED (log 81). -/
def State.refugeCheck (s : State) (loop0 loop1 mesh : Bool) (pos : Word) (vbat : Nat) : State :=
  let s := s.refugeSee 0x21 (s.flag F.REFUGE_CFG_LOOP0_EN && loop0) pos
  let s := s.refugeSee 0x22 (s.flag F.REFUGE_CFG_LOOP1_EN && loop1) pos
  let s := s.refugeSee 0x23 mesh pos
  s.refugeSee 0x24 (decide (vbat < 2200)) (BitVec.ofNat 32 vbat)

/-- VBAT is `mv` millivolts: the bits of REFUGE_STAT that show it. -/
def State.cellLevel (s : State) (mv : Nat) : State := (s.wr F.REFUGE_STAT_CELL_PRESENT (b2n (decide (2000 ≤ mv)))).wr F.REFUGE_STAT_VBAT_LOW (b2n (decide (mv < 2600)))

/-- With main power off, VBAT falls below 2.0 V or the cell is absent: the Refuge loses its contents (R352). Mark: DEDUCED (log 84). -/
def State.refugeLose (s : State) : State :=
  let s := s.cellLevel 0
  if s.power then s
  else
    let s := (((s.zeroShare.wr F.REFUGE_STAT_LATCH 0).wr F.REFUGE_STAT_RTC_OK 0).wr F.REFUGE_STAT_LOST 1).wr F.REFUGE_STAT_TOTAL 0
    let s := s.setReg A.REFUGE_CFG 0
    State.logShow { s with refuge := { share := none, log := [], rtc := 0, rtcAt := s.now, failing := [], cellAlarm := false, lostNew := true, onCell := s.refuge.onCell } }

/-- The cell is taken out (R351, R352): under main power an entry 0x30 and source 141, otherwise the Refuge loses its contents. -/
def State.cellRemoved (s : State) (mv : Nat) : State :=
  if s.power then ((s.cellLevel 0).logEntry 0x30 (BitVec.ofNat 32 mv)).irq 141 else s.refugeLose

/-- A cell is put in (R351); with main power off the Refuge starts empty and its log stays so (R352). Mark: DESIGN CHOICE (log 83). -/
def State.cellInserted (s : State) (mv : Nat) : State :=
  let s := s.cellLevel mv
  if s.power then (s.logEntry 0x31 (BitVec.ofNat 32 mv)).irq 141 else s

/-- VBAT falls below 2.6 V under main power (R351): entry 0x34, sources 140 and 137. -/
def State.vbatLow (s : State) (mv : Nat) : State :=
  if mv < 2600 then
    let s := s.cellLevel mv
    if s.power then (((s.wr F.CURTAIN_WARN_VBAT_LOW 1).irq 137).irq 140).logEntry 0x34 (BitVec.ofNat 32 mv) else s
  else s

/-- The Refuge takes the supply that main power leaves it (R348). -/
def State.supplySwitch (s : State) : State := { s with refuge.onCell := !s.power }

/-- At a start with power the Stage Manager copies every entry whose COPIED = 0 into the Prompt Book at severity 7 and marks it (R350). -/
def State.copyLog (s : State) : State :=
  let s := s.refuge.log.foldl (fun (s : State) e => if e.copied then s else s.post (0xB000 + e.cause) 7 8 ((List.range 4).map fun k => (e.word k).toNat)) s
  State.logShow { s with refuge.log := s.refuge.log.map fun e => { e with copied := true } }

end Sys2Proof.Machine
end

