-- ==== Sys2Proof/Machine/Commit.lean ====
section
/-! DEFINITION. Stage and commit (R24 to R29): the GO checks of every block, aborting, what applying a staged set does, and when commits fall due. -/

namespace Sys2Proof.Machine

/-! ## GO checks -/

/-- The span of a leaf unit (R219): first address and length. -/
def leafSpan (u : Nat) : Nat × Nat :=
  if u < 30 then (0x40000000 + u * 0x10000, 0x10000)
  else if u < 39 then (0x08000000 + (u - 30) * 0x40000, 0x20000)
  else if u = 39 then (0x30000000, 0x400000)
  else if u = 40 then (0x34000000, 0x200000)
  else if u = 41 then (0x34400000, 0x200000)
  else if u = 42 then (0x28000000, 0x1000)
  else (0x38000000 + (u - 43) * 0x10000, 0x10000)

/-- A staged region is disabled, or its SIZE is in range, its BASE aligned and its span within `lo` to `lo + n` (R227). -/
def regionFits (w0 : Word) (small big lo n : Nat) : Bool :=
  let sz := getBits w0 4 0
  let b := getBits w0 31 6 * 64
  getBits w0 5 5 == 0 || (decide (small ≤ sz) && decide (sz ≤ big) && b % 2 ^ sz == 0 && decide (lo ≤ b) && decide (b + 2 ^ sz ≤ lo + n))

/-- The length of a Bedrock bank (R30). -/
def bedLen (b : Nat) : Nat := if b < 2 then 0x400000 else 0x800000

/-- A staged Bedrock region lies in the bank of its base. -/
def bedRegionFits (w0 : Word) : Bool :=
  let b := getBits w0 31 6 * 64
  getBits w0 5 5 == 0 || (inBedrock b && regionFits w0 12 23 (bedBase (bedBank b)) (bedLen (bedBank b)))

/-- A staged trunk region lies in the bank of its base. -/
def trunkRegionFits (w0 : Word) : Bool :=
  let b := getBits w0 31 6 * 64
  getBits w0 5 5 == 0 || (decide (0x10000000 ≤ b) && decide (b < 0x11000000) && regionFits w0 6 18 (b / 0x40000 * 0x40000) 0x40000)

/-- May a COL GO be accepted (R227)? -/
def State.colGoOk (s : State) : Bool :=
  ((List.range 64).all fun r => trunkRegionFits (s.reg (A.COL_TRUNK_REG_W0 r)))
  && ((List.range 51).all fun u => (List.range 8).all fun r => regionFits (s.reg (A.COL_LEAF_REG_W0 u r)) 12 22 (leafSpan u).1 (leafSpan u).2)
  && (List.range 32).all fun r => bedRegionFits (s.reg (A.COL_BED_REG_W0 r))

/-- WHEN and CUE of a block's pending commit. -/
def State.pendWhen (s : State) (base : Nat) : Nat × Nat :=
  let w := s.rd (F.BLOCK_COMMIT_STATUS_PEND_WHEN base)
  (w, if w = 2 then look (fun _ => 0) s.pendCue base else 0)

/-- Does the staged word of bank `n` make a handover? -/
def State.handoverStaged (s : State) (n : Nat) : Bool := isHandover (s.liveReg (A.TERRACE_BANK n)) (s.reg (A.TERRACE_BANK n))

/-- COL holds a pending commit that writes the entry of bank `n`, with this WHEN and CUE (R208). -/
def State.colPaired (s : State) (n : Nat) (w : Nat × Nat) : Bool :=
  s.pendingIn Base.COL && s.written.contains (A.COL_TRUNK_BANK_RMASK n) && s.pendWhen Base.COL == w

/-- Every staged handover is paired with a COL commit (R208). -/
def State.handoversPaired (s : State) (w : Nat × Nat) : Bool := (List.range 64).all fun n => !s.handoverStaged n || s.colPaired n w

/-- Banks T16 to T63 whose power a TERRACE GO would change to other than OFF, in FACTORY and REHEARSAL; banks that the UNDERSTUDY block or a mirror already powers are not a
master's commit (R211). Mark: DEDUCED (log 23). -/
def State.powerStaged (s : State) : Bool :=
  (s.mode == .factory || s.mode == .rehearsal) && (List.range 48).any fun k =>
    s.rd (F.TERRACE_BANK_POWER (16 + k)) != 0 && s.reg (A.TERRACE_BANK (16 + k)) != s.liveReg (A.TERRACE_BANK (16 + k))

/-- May a TERRACE GO be accepted (R206, R208, R211)? Mark: DEDUCED (log 23). -/
def State.terraceGoOk (s : State) (w : Nat × Nat) : Bool :=
  s.handoversPaired w && !s.powerStaged
  && (List.range 64).all fun n =>
    (s.rd (F.TERRACE_BANK_OWNED n) == 0 || bit (s.reg (A.COL_TRUNK_BANK_WMASK n)).toNat (s.rd (F.TERRACE_BANK_OWNER n)))
    && !(s.rd (F.TERRACE_BANK_POWER n) == 1 && s.bankState n == bankOFF)

/-- The staged ensembles written since the last commit. -/
def State.ensWritten (s : State) : List Nat := (List.range 256).filter fun e => s.written.contains (0x100000000 + e * 0x1000)

/-- Frames per second at the live rate. -/
def State.frameRate (s : State) : Nat := rateDen s.rate

/-- An ensemble's staged configuration. -/
def State.ensStaged (s : State) (e : Nat) : EnsCfg := ({ s with live := s.regs } : State).ensCfg e

/-- May an ENSEMBLE GO be accepted (R130)? -/
def State.ensGoOk (s : State) : Bool := s.ensWritten.all fun e => (s.ensStaged e).ok s.frameRate

/-- May an STIME GO be accepted (R48)? -/
def State.stimeGoOk (s : State) (when_ : Nat) : Bool :=
  s.mode != .lead && s.mode != .understudy && when_ == 1 && !s.offsetTooBig (s.rd F.STIME_FRAME_CFG_RATE)

/-- Does a block accept a GO? -/
def State.goOk (s : State) (base when_ cue : Nat) : Bool :=
  if base = Base.COL then s.colGoOk
  else if base = Base.TERRACE then s.terraceGoOk (when_, if when_ = 2 then cue else 0)
  else if base = Base.CUE then s.cueGoOk
  else if base = Base.STIME then s.stimeGoOk when_
  else if base = Base.ENSEMBLE then s.ensGoOk
  else if base = Base.PACKER then (List.range 48).all s.packerGoOk
  else if base = Base.UNDERSTUDY then s.usGoOk
  else if base = Base.TROUPE then s.troupeGoOk
  else if base = Base.PINS then s.pinsGoOk
  else if base = Base.DTAKE then s.dtGoOk
  else true

/-- A refused GO, or a commit refused when it falls due, is counted (R29). -/
def State.refuseGo (s : State) (base : Nat) : State := (s.sat (F.BLOCK_REFUSED_STAGE_WRITES base)).fireCommit base

/-! ## Abort and GO (R28) -/

/-- A pending TERRACE commit with a handover whose COL commit is gone is aborted (R209). -/
def State.pairBreak (s : State) : State :=
  if s.pendingIn Base.TERRACE && !s.handoversPaired (s.pendWhen Base.TERRACE) then s.abortPend Base.TERRACE else s

/-- ABORT. -/
def State.blockAbort (s : State) (base : Nat) : State :=
  let s := s.abortPend base
  if base = Base.COL then s.pairBreak else s

/-- GO. -/
def State.blockGo (s : State) (base when_ cue : Nat) : State :=
  if s.pendingIn base || when_ == 3 || !s.goOk base when_ cue then s.refuseGo base else s.goPend base when_ cue

/-- A write of BLOCK_COMMIT: CLRCNT, then ABORT, then GO. -/
def State.blockCommit (s : State) (base : Nat) (w : Word) : State :=
  let s := if w.getLsbD 27 then s.setReg (A.BLOCK_REFUSED base) 0 else s
  let s := if w.getLsbD 30 then s.blockAbort base else s
  if w.getLsbD 31 then s.blockGo base (getBits w 29 28) (getBits w 13 0) else s

/-! ## Applying (R24, R26, R27, R29) -/

/-- The staged words of a block become live. -/
def State.spliceLive (s : State) (base : Nat) : State := { s with live := splice s.live s.regs base (base + 0x10000) }

/-- A grid commit (R48, R51, R254): nothing changes for the grid where CALL and RATE keep their values. -/
def State.gridCommit (s : State) : State :=
  let old := s.frame
  let same := s.call == ((s.reg A.STIME_CALL_LO).toNat + 2 ^ 32 * (s.reg A.STIME_CALL_HI).toNat) && s.rate == s.rd F.STIME_FRAME_CFG_RATE
  let s := s.spliceLive Base.STIME
  if same then s else (s.gridChanged old).gridBreak

/-- What applying a block's staged set does. -/
def State.blockApply (s : State) (base : Nat) : State :=
  if base = Base.CUE then s.cueApply
  else if base = Base.SWITCH then s.swApply
  else if base = Base.SOLOIST then s.solApply
  else if base = Base.CHORUS then s.chorusApply
  else if base = Base.STIME then s.gridCommit
  else if base = Base.TERRACE then
    ((List.range 64).foldl (fun (s : State) n =>
      if s.reg (A.TERRACE_BANK n) = s.liveReg (A.TERRACE_BANK n) then s else s.bankCommit n (s.reg (A.TERRACE_BANK n))) s).irq 207
  else if base = Base.PACKER then
    (List.range 48).foldl (fun (s : State) c =>
      if s.reg (A.PACKER_CFG c) = s.liveReg (A.PACKER_CFG c) ∧ s.reg (A.PACKER_BASE c) = s.liveReg (A.PACKER_BASE c) then s
      else s.packerCommit c (s.reg (A.PACKER_CFG c)) (s.reg (A.PACKER_BASE c))) s
  else if base = Base.ENSEMBLE then
    let s := s.ensWritten.foldl State.ensApply s
    { s with written := s.written.filter fun k => decide (k < 0x100000000) }
  else if base = Base.PINS then
    let old := s.live
    (s.spliceLive base).pinsApplied old
  else if base = Base.DTAKE then
    let old := s.live
    (({ s with dtake.evals := s.dtake.evals.map fun e => if e.old.isSome then e else { e with old := some old } } : State).spliceLive base).irq 138
  else if base = Base.COL then
    State.irq { s.spliceLive base with written := s.written.filter fun k => !(decide (Base.COL ≤ k) && decide (k < Base.COL + 0x10000)) } 190
  else if base = Base.TROUPE then (s.spliceLive base).troupeShow.irq 167
  else s.spliceLive base

/-- A check of the GO that depends on the mode would refuse it now (R29, R48, R211). -/
def State.dueRefused (s : State) (base : Nat) : Bool :=
  (base == Base.STIME && (s.mode == .lead || s.mode == .understudy)) || (base == Base.TERRACE && s.powerStaged)

/-- A pending commit that is due is applied, or refused when due. -/
def State.commitBlock (s : State) (base : Nat) : State :=
  if !s.pendingIn base then s
  else if s.dueRefused base then (s.blockAbort base).refuseGo base
  else
    let s := (s.unpend base).blockApply base
    s.wrap (F.BLOCK_COMMIT_STATUS_APPLIED base)

/-- Commits of one cycle are applied together (R27); a TERRACE handover left without its COL commit is aborted (R209). -/
def State.commitAll (s : State) (bases : List Nat) : State := (bases.foldl State.commitBlock s).pairBreak

/-- Blocks whose pending commit waits for `when_`. -/
def State.waitingFor (s : State) (when_ : Nat) : List Nat := pairedBlocks.filter fun b => s.pendingIn b && (s.pendWhen b).1 == when_

/-- An operation of the block is under way (R26, R28). Mark: DEDUCED (log 22). -/
def State.opUnderWay (s : State) (base : Nat) : Bool :=
  if base = Base.ENSEMBLE then !s.ens.running.isEmpty
  else if base = Base.DTAKE then !s.dtake.evals.isEmpty
  else if base = Base.UNDERSTUDY then s.us.xfer.isSome
  else if base = Base.CHORUS then (List.range 8).any fun c => (s.chan c).running.isSome
  else false

/-- A commit with WHEN = 0b00 is applied in the first cycle in which no operation of the block is under way. Mark: DEDUCED (log 22). -/
def State.commitDue (s : State) (base : Nat) : State :=
  if s.pendingIn base && (s.pendWhen base).1 == 0 && !s.opUnderWay base then s.commitAll [base] else s

/-- Commits with WHEN = 0b01 at a boundary, the grid apart (R50, step 2). -/
def State.commitFrame (s : State) : State := s.commitAll ((s.waitingFor 1).filter (· != Base.STIME))

/-- Commits with WHEN = 0b10 whose cue the engine handles in this cycle (R27, R61). -/
def State.commitCues (s : State) (idx : List Nat) : State :=
  s.commitAll ((s.waitingFor 2).filter fun b => idx.contains (s.pendWhen b).2)

end Sys2Proof.Machine
end

