-- ==== Sys2Proof/Machine/CueEngine.lean ====
section
/-! DEFINITION. Dispatch (R54 to R63, R392): the next occurrence, lateness, collisions, pre-issue, and what each action launches. -/

namespace Sys2Proof.Machine

/-! ## Which occurrence is next (R58, R59) -/

/-- Every occurrence to be handled, in dispatch order: those a boundary overtook among the next one of every live cue. Mark: DEDUCED (log 28). -/
def State.dueList (s : State) : List Occ := s.cue.carry.foldl (fun l o => insertOcc o l) s.occurrences

/-- The tick from `t` on at which the engine has one of its eight places left (R59). -/
def State.placeAt (s : State) (t : Nat) : Nat := if s.cue.dispTick = t ∧ 8 ≤ s.cue.dispCnt then t + 1 else t

/-- The tick at which the engine can handle an occurrence: from its time on, and not more than eight in one tick. -/
def State.launchTick (s : State) (o : Occ) : Nat := s.placeAt (max s.now o.at_)

/-- Take one of the eight places of the tick that the engine works on. Only a launch or an issue takes one. Mark: DEDUCED (log 133). -/
def State.takePlace (s : State) : State := { s with cue.dispCnt := s.cue.dispCnt + 1 }

/-- The occurrence has been dispatched or skipped: V of a one-shot cue clears (R54), a standing one is not dispatched again in this frame (R55). -/
def State.occDone (s : State) (o : Occ) : State :=
  if s.cue.carry.contains o then { s with cue.carry := s.cue.carry.erase o }
  else if o.ent.standing then { s with cue.standDone := (o.idx, o.time) :: s.cue.standDone }
  else s.setCueWord o.idx 0 (setBits (s.cueWord o.idx 0) 31 31 0)

/-! ## What an action launches (R56) -/

/-- Who may complete the ticket of an action by a write (R56, R62): the core of a CORE_IRQ, the Steward for STEWARD_JOB. -/
def State.ticketOwner (s : State) (e : CueEnt) : Option Nat :=
  if e.action = 1 then some (s.routeCore e.tindex) else if e.action = 0xA then some 8 else none

/-- CORE_IRQ: the cue source, its ticket register, and what R344 asks of the act. -/
def State.launchIrq (s : State) (o : Occ) (t : Option TicketRef) : State :=
  let n := o.ent.tindex
  let s := (s.wr (F.CUE_SRC_TICKET_VALID n) (b2n t.isSome)).wr (F.CUE_SRC_TICKET_TICKET n) ((t.map (·.num)).getD 0)
  { s.irq n with dtake.acts := put noneAt s.dtake.acts o.idx (some (s.frame, t)) }

/-- PIN_SET: handed to its group's scheduler, to take effect at `at_`. -/
def State.launchPin (s : State) (o : Occ) (at_ : Nat) (t : Option TicketRef) : State :=
  let p := o.ent.tindex
  let s : State := { s with pin.pre := s.pin.pre ++ [({ pin := p, op := o.ent.arg % 4, width := o.ent.arg16, time := at_, ticket := t } : PinCue)] }
  (s.setPin p { s.pinOf p with lastCue := some o.time }).wr (F.PINS_GRP_STAT_PENDING (p / 8)) (s.pinPending (p / 8))

/-- The 64 bytes of a STEWARD_JOB request (R391, R392). -/
def jobRequest (o : Occ) (t : Option TicketRef) (frame : Nat) : List Byte :=
  leBytes 4 (o.ent.arg16 * 65536 + o.idx % 65536) ++ leBytes 4 (match t with
    | some r => 2 ^ 31 + r.num
    | none => 0) ++ List.replicate 20 0#8 ++ leBytes 4 o.time ++ leBytes 4 frame ++ List.replicate 28 0#8

/-- STEWARD_JOB: a request to queue Q + 8 as master 17; a refused one leaves the ticket to its deadline (R392). -/
def State.launchJob (s : State) (o : Occ) (t : Option TicketRef) : State :=
  (s.enqueue 17 (Config.serviceQueue s.cfg + 8) (jobRequest o t s.frame)).2

/-- PBOOK_MARK: a record of class 0xE (R413). Mark: DESIGN CHOICE (log 30). -/
def State.launchMark (s : State) (o : Occ) : State := s.post (0xE000 + o.ent.arg16 % 4096) (min 5 (o.ent.arg % 8)) 17 []

/-- Launch an occurrence's action with its ticket; `at_` is when a pre-issued action takes effect. Mark: DEDUCED (log 31). -/
def State.launch (s : State) (o : Occ) (at_ : Nat) (t : Option TicketRef) : State :=
  let e := o.ent
  match e.action with
  | 0 => s.complete t false
  | 1 => s.launchIrq o t
  | 2 => s.gatherLaunch e.tindex t
  | 3 => s.launchPin o at_ t
  | 4 => s.dtLaunch e.tindex o.time t
  | 5 => s.relIssue e.tindex e.arg at_ t
  | 6 => s.mirrorCue t
  | 7 => (if 0 < (s.queue e.tindex).fill then s.notifyQueue e.tindex else s).complete t false
  | 8 => s.packerCue e.tindex t
  | 9 => (s.irq (216 + e.tindex)).complete t false
  | 10 => s.launchJob o t
  | 11 => s.launchMark o |>.complete t false
  | _ => s

/-- A launch: its place in the tick, its ticket, its count, its trace item, its action (R56, R59, R62, R426, R428). -/
def State.launchOcc (s : State) (o : Occ) (at_ : Nat) : State :=
  let s := s.takePlace
  let e := o.ent
  let r := if e.tkt then s.allocTicket o.idx o.time e.deadline (s.ticketOwner e) else (none, s)
  let t : Option TicketRef := r.1
  let s : State := r.2
  let s := (s.observe 1 0 1).traceItem 2 (cueItem o.idx 0 ((t.map (·.num)).getD 0) 0 s.now)
  s.launch o at_ t

/-- A late cue is counted, and fires source 25 under LATEPOL 0b10 (R59). -/
def State.countLate (s : State) (e : CueEnt) : State :=
  let s := s.sat F.CUE_CNT_A_LATE
  if e.latepol = 2 then s.irq 25 else s

/-- A PIN_SET that the engine drops (R61): its pin belongs to a trip pair, or a cue of the same time has taken it. -/
def State.pinDrops (s : State) (o : Occ) : Bool :=
  o.ent.action == 3 && (s.isTrip o.ent.tindex || (s.pinOf o.ent.tindex).lastCue == some o.time)

/-- Room with the scheduler of a pre-issued action (R60). -/
def State.preRoom (s : State) (e : CueEnt) : Bool :=
  if e.action = 3 then decide (s.pinPending (e.tindex / 8) < 16) else if e.action = 5 then s.relRoom e.tindex else true

/-- An occurrence handled now is late (R59, R61): more than 8 ns after its time, a one-shot cue that fell due while RUN was clear, or one that a step passed over (R51).
Mark: DEDUCED (log 29). -/
def State.isLate (s : State) (o : Occ) : Bool :=
  decide (o.time + 4 < s.now) || (!o.ent.standing && decide (o.time < s.cue.runSince)) || s.cue.stepped.contains (o.idx, o.time)

/-- An occurrence finds no room with its scheduler and waits in the engine (R60): it is neither dispatched nor counted, and its entry stays in use. -/
def State.wait (s : State) (o : Occ) : State :=
  let s : State := { s with cue.waiting := s.cue.waiting ++ [o], cue.carry := s.cue.carry.erase o }
  if o.ent.action = 3 then s.setPin o.ent.tindex { s.pinOf o.ent.tindex with lastCue := some o.time } else s

/-- What the engine does with an occurrence at this tick (R51, R59 to R61). -/
inductive Fate where
  | drop | skip | wait | go (late : Bool)
  deriving DecidableEq, Repr

/-- The fate of an occurrence handled now. -/
def State.fate (s : State) (o : Occ) : Fate :=
  if s.pinDrops o then .drop
  else if s.isLate o && o.ent.latepol == 1 then .skip
  else if !s.preRoom o.ent then .wait
  else .go (s.isLate o)

/-- The engine handles an occurrence at this tick (R59 to R61). Mark: DEDUCED (log 29). -/
def State.handle (s : State) (o : Occ) : State :=
  match s.fate o with
  | .drop => (s.occDone o).sat F.CUE_CNT_A_PIN_COLLIDE
  | .skip => (s.occDone o).countLate o.ent
  | .wait => s.wait o
  | .go late => (if late then (s.occDone o).countLate o.ent else s.occDone o).launchOcc o (max o.time s.now)

/-- The cues that the engine handles together, given the places left: a dropped or skipped one takes none, one that waits is not handled. -/
def State.together (s : State) : Nat → List Occ → List Nat
  | _, [] => []
  | k, o :: t => match s.fate o, k with
    | .wait, k => s.together k t
    | .go _, 0 => []
    | .go _, k + 1 => o.idx :: s.together k t
    | _, k => o.idx :: s.together k t

/-- The indexes the engine handles together at tick `t`: waiting cues that have room now and those that are due. -/
def State.batch (s : State) (t : Nat) : List Nat :=
  ((s.cue.waiting.filter fun o => s.preRoom o.ent).map (·.idx)) ++ s.together 8 (s.dueList.filter fun o => decide (o.at_ ≤ t))

/-- The engine comes to tick `t`: sets committed to a cue that it handles there are applied first, once (R61). Mark: DEDUCED (log 133). -/
def State.openTick (s : State) (t : Nat) : State :=
  let s := s.reachST t
  if s.cue.dispTick = t then s else ({ s with cue.dispTick := t, cue.dispCnt := 0 } : State).commitCues (s.batch t)

/-- One dispatch of action `action` from entry `i`: it is the next occurrence in dispatch order. Sets committed to a cue of the same tick are applied first (R61). Mark: DESIGN CHOICE (log 3), DEDUCED (log 28). -/
def State.dispatch (s : State) (action i : Nat) : State :=
  if !s.flag F.CUE_CTRL_RUN then s
  else match s.dueList with
    | [] => s
    | o :: _ =>
      if o.idx ≠ i ∨ o.ent.action ≠ action then s
      else
        let s := s.openTick (s.launchTick o)
        match s.dueList with
        | [] => s
        | o :: _ => if o.idx ≠ i ∨ o.ent.action ≠ action then s else s.handle o

/-- A waiting pre-issued cue is offered again while RUN = 1 (R60, R61): it is issued once its scheduler has room, and late, counted once, if its time has passed. -/
def State.retryPre (s : State) (i : Nat) : State :=
  if !s.flag F.CUE_CTRL_RUN then s
  else match s.cue.waiting.find? fun o => o.idx == i with
  | none => s
  | some o =>
    if !s.preRoom o.ent then s
    else
      let s := (s.openTick (s.placeAt s.now)).commitCues [i]
      if !(s.cue.waiting.contains o && s.preRoom o.ent) then s
      else
        let e := o.ent
        let s := State.occDone { s with cue.waiting := s.cue.waiting.erase o } o
        let late := decide (o.time < s.now) || s.isLate o
        let s := if late then s.countLate e else s
        if late && e.latepol == 1 then s else s.launchOcc o (max o.time s.now)

/-- The earliest pre-issued PIN_SET of a pin reaches its time. -/
def State.pinCueDue (s : State) (p : Nat) : State :=
  match (s.pin.pre.filter fun c => c.pin == p).foldl (fun (a : Option PinCue) c => match a with
      | some x => if c.time < x.time then some c else a
      | none => some c) none with
  | none => s
  | some c => (s.reachST c.time).pinCueEffect c

end Sys2Proof.Machine
end

