-- ==== Sys2Proof/Machine/Frame.lean ====
section
/-! DEFINITION. The frame boundary (R18, R19, R47, R49 to R51): mode changes, steps and grid commits, sets committed for the boundary, the frame number, and what each frame
starts afresh. -/

namespace Sys2Proof.Machine

/-! ## Mode changes at a boundary (R18, R19) -/

/-- The transition due at the boundary of frame `n`: its target and its cause. Mark: DEDUCED (log 24). -/
def State.modeDue (s : State) (n : Nat) : Option (Mode × Nat) :=
  if s.us.ho = 3 ∧ s.us.hoSwitch = n ∧ s.mode = .lead then some (if s.us.hoDeparture then .interval else .understudy, causeSwitch)
  else if s.us.ho = 2 ∧ s.us.hoSwitch = n ∧ s.mode = .understudy ∧ !s.stale ∧ (s.us.hoDeparture ∨ s.isPrincipal) then some (.lead, causeSwitch)
  else if s.us.dualDue ∧ s.mode = .lead then some (.understudy, causeDual)
  else if s.intervalAt n then some (.interval, causeTroupe)
  else s.modeReq.map fun m => (m, causeRequest)

/-- The transition is made (R18, R19, R259, R265, R267). -/
def State.modeChange (s : State) (m : Mode) (cause : Nat) : State :=
  let was := s.mode
  if m = .lead ∧ cause = causeSwitch then s.lead s.frame causeSwitch
  else
    let s := s.enterMode m cause
    let s : State := { s with us.ho := 0, us.hoRequest := false, us.dualDue := false, us.force := false }
    let s := if cause = causeSwitch then s.irq 155 else s
    let s := if cause = causeDual ∨ (cause = causeSwitch ∧ m = .understudy) then s.setStale true else s
    let s := if cause = causeTroupe then s.intervalEntered else s
    if m = .understudy ∧ (was = .rehearsal ∨ was = .interval) then s.applyKept else { s with us.kept := { pins := none, config := [], cues := [] } }

/-- The mode change of a boundary; a request that R17 no longer allows is refused, and one on which Double-take disagrees is not made. -/
def State.modeStep (s : State) (n : Nat) (agree : Bool) : State :=
  match s.modeDue n with
  | none => s
  | some (m, cause) =>
    let s : State := { s with modeReq := none }
    if cause = causeRequest ∧ !s.requestOk m then s.refuseMode m.code
    else match s.twice agree with
      | (true, s) => s.modeChange m cause
      | (false, s) => { s with us.dualDue := false }

/-! ## Steps and grid commits (R50, step 1) -/

/-- A pending step moves Stage Time: a change of the grid, which breaks a pair; timers count elapsed time, and tickets keep their absolute deadlines (R51, R254). -/
def State.stepTime (s : State) : State :=
  if s.flag F.STIME_STATE_STEP_PENDING then
    let t0 := s.now
    let s' := s.rtcFold.applyStep
    if s'.now = t0 then s'
    else
      let d : Int := (s'.now : Int) - t0
      let s' : State := { s' with
        refuge.rtcAt := s'.now
        stime.holdSince := s'.stime.holdSince + d
        stime.lastAt := s'.stime.lastAt.map (· + d)
        stime.ptpLast := s'.stime.ptpLast.map (· + d)
        stime.irigMarks := s'.stime.irigMarks.map (· + d)
        boot.zeroAt := s'.boot.zeroAt + d
        boot.joinedAt := s'.boot.joinedAt.map fun x => ((x : Int) + d).toNat
        boot.aliveAt := s'.boot.aliveAt.map fun x => ((x : Int) + d).toNat
        timers := s'.timers.map fun p => match p.1 with
          | .ticket _ => p
          | _ => (p.1, ((p.2 : Int) + d).toNat) }
      s'.gridBreak
  else s

/-- Step 1: a pending step, then a grid commit. -/
def State.gridStep (s : State) : State :=
  let s := s.stepTime
  if (s.waitingFor 1).contains Base.STIME then s.commitAll [Base.STIME] else s

/-! ## The boundary (R50) -/

/-- Occurrences that the boundary at `b` overtakes keep their place before those of the new frame. -/
def State.carryOver (s : State) (b : Nat) : State :=
  if s.flag F.CUE_CTRL_RUN && s.stime.valid then
    let left := s.occurrences.filter fun o => o.ent.standing && decide (o.time < b)
    { s with cue.carry := s.cue.carry ++ left }
  else s

/-- Step 3: the frame number advances, source 29 fires, standing cues rearm; what is counted by the frame starts afresh. -/
def State.newFrame (s : State) (n : Int) : State :=
  let s : State := { s with stime.gridN := n, stime.valid := decide (0 ≤ n), frameOnce := [], waits := [], us.ctlSent := 0 }
  if n < 0 then s.ageTickets
  else
    let s : State := { s with cue.standDone := s.cue.standDone.filter fun d => decide ((s.frameStart : Int) ≤ (d.2 : Int)) }
    (((s.irq 29).ageTickets).aliveBoundary).formHealth

/-- Stage Time reaches the next frame boundary (R50). The frame number after it is the next one of the old grid, unless a step or a grid commit at this boundary moves the
grid (R51). Mark: DEDUCED (log 28). -/
def State.boundary (s : State) (agree : Bool) : State :=
  if !s.timeRuns then s
  else
    let n := s.stime.gridN + 1
    let b := s.nextBoundary.toNat
    let s := (s.carryOver b).reachST b
    let s := s.modeStep n.toNat agree
    let g := s.stime.gridN
    let c := s.call
    let r := s.rate
    let t := s.now
    let s := s.gridStep
    let moved := s.now != t || s.call != c || s.rate != r || s.stime.gridN != g
    let s := if 0 ≤ n then (s.commitFrame).keyBoundary (if moved then s.frame else n.toNat) else s.commitFrame
    s.newFrame (if moved then s.stime.gridN else n)

end Sys2Proof.Machine
end

