-- ==== Sys2Proof/Machine/Life.lean ====
section
/-! DEFINITION. The lifecycle (R2, R21) and the requests for a reset (SYS_RESET). -/

namespace Sys2Proof.Machine

/-- Key registers 3 and 4 are loaded and OTP holds the digest of the identity certificate (R21, R330). -/
def State.identityReady (s : State) : Bool := (s.mkey 3).isSome && (s.mkey 4).isSome && s.otp.cert

/-- The lifecycle that the OTP cells hold, which the next main-domain reset brings into force: it only moves forward (R2, R21). -/
def State.otpLc (s : State) : Lifecycle := Lifecycle.ofCode (s.rd F.SYS_LC_STAT_PENDING_LC)

/-- Is a TARGET accepted, from what the cells hold (R2, R21)? Mark: DEDUCED (log 127). -/
def State.lcOk (s : State) (t : Nat) : Bool :=
  match s.otpLc with
  | .blank => t == 1
  | .factory => (t == 2 && s.identityReady) || t == 4
  | .issued => t == 3 || t == 4
  | .returned => t == 4
  | .decommissioned => false

/-- A SYS_LC_ADV write: an accepted TARGET programs the OTP cells in 2 ms; any other write is refused, and so is one while BUSY = 1. Mark: DESIGN CHOICE (log 163). -/
def State.lcAdvWrite (s : State) (w : Word) : State :=
  let t := getBits w 2 0
  if getBits w 31 16 = 0x4C43 ∧ s.lcOk t ∧ !s.flag F.SYS_LC_STAT_BUSY then
    State.arm { s.wr F.SYS_LC_STAT_BUSY 1 with lcTarget := t } .lcProgram (2 * ticksPerMs)
  else s.wr F.SYS_LC_STAT_REFUSED 1

/-- The cells are programmed: DONE, and in force at the next main-domain reset, which follows where a command asked for it (R387). Mark: DEDUCED (log 104). -/
def State.lcDone (s : State) : State :=
  let s := ((s.wr F.SYS_LC_STAT_BUSY 0).wr F.SYS_LC_STAT_DONE 1).wr F.SYS_LC_STAT_PENDING_LC s.lcTarget
  if s.boot.lcReset then { s with boot.warmDue := true, boot.lcReset := false } else s

/-- A SYS_RESET write: the reset it asks for follows within 1 µs; WARM with STEWARD is a warm reset. -/
def State.resetWrite (s : State) (w : Word) : State :=
  if w.getLsbD 31 then { s with boot.warmDue := true }
  else if w.getLsbD 30 then { s with boot.stwDue := some 3 }
  else s

end Sys2Proof.Machine
end

