-- ==== Sys2Proof/Machine/RegRead.lean ====
section
/-! DEFINITION. What a 32-bit load of a register answers (R3, R4), and the registers whose reading shows other state or changes it. -/

namespace Sys2Proof.Machine

/-- The bits of a register that a read shows: write-only and reserved bits read as 0 (R3, R4). -/
def RDesc.readMask (d : RDesc) : Word :=
  d.flds.foldl (fun w f => if f.acc = .wo then w else setBits w f.hi f.lo (2 ^ (f.hi + 1 - f.lo) - 1)) 0#32

/-- The word that stands in a register, as a read shows it. -/
def State.shown (s : State) (a : Nat) : Word :=
  match descOf a with
  | some d => s.reg a &&& d.readMask
  | none => 0#32

/-- Index of a register of an array at `base` with stride `st`. -/
def regIdx (a base st : Nat) : Nat := (a - base) / st

/-- Key of a windowed register of the ENSEMBLE block for the ensemble that ENSEMBLE_SEL names (R137). -/
def State.ensKey (s : State) (a : Nat) : Nat := (Fld.ens ⟨a, 31, 0⟩ (s.rd F.ENSEMBLE_SEL_INDEX)).addr

/-- Is this a windowed register of the ENSEMBLE block? -/
def ensWindowed (a : Nat) : Bool := decide (A.ENSEMBLE_CFG_A ≤ a) && decide (a < Base.ENSEMBLE + 0x200)

/-- Number of bits set in a dirty set. -/
def popDirty (b : BitVec 4096) : Nat := (List.range 4096).foldl (fun n i => if b.getLsbD i then n + 1 else n) 0

/-- Lines in all the sets of one kind. -/
def linesIn (l : List (Nat × BitVec 4096)) : Nat := l.foldl (fun n p => n + popDirty p.2) 0

/-- TERRACE_DIRTY_STAT (R216). -/
def State.dirtyStat (s : State) : Word :=
  setBits (setBits 0#32 31 14 (min (linesIn s.terr.cur) 262143)) 13 0 (min (linesIn s.terr.send / 16) 16383)

/-- TERRACE_BANK_LIVE_n (R211). -/
def State.bankLive (s : State) (n : Nat) : Word :=
  setBits (s.reg (A.TERRACE_BANK_LIVE n)) 31 16 (getBits (s.liveReg (A.TERRACE_BANK n)) 31 16)

/-- PACKER_STAT_c (R144). -/
def State.packerStat (s : State) (c : Nat) : Word :=
  let p := s.packer c
  setBits (setBits (setBits 0#32 31 31 p.cur) 30 30 (b2n p.otherFree)) 14 0 p.fill

/-- IRQ_CLAIM of core `n` (R187). -/
def State.claim (s : State) (n : Nat) : Word :=
  match s.chosenSource n with
  | some k => BitVec.ofNat 32 (2 ^ 31 + k)
  | none => 0#32

/-- A read of IRQ_LATE_POP of core `n` (R192). Mark: DEDUCED (log 19). -/
def State.latePop (s : State) (n : Nat) : Word × State :=
  let c := s.core n
  match c.late with
  | [] => (0#32, s.setCore n { c with lateAddr := 0 })
  | e :: t => (e.word c.lateLost n, s.setCore n { c with late := t, lateLost := false, lateAddr := e.addr })

/-- A read of WINGS_NOTIFY_POP of line `l` (R128): the oldest queue number, and OVF, which the read clears. -/
def State.notifyPop (s : State) (l : Nat) : Word × State :=
  let ovf := look (fun _ => false) s.wing.ovf l
  let t : State := { s with wing.ovf := put (fun _ => false) s.wing.ovf l false }
  match s.notify l with
  | [] => (BitVec.ofNat 32 (b2n ovf * 2 ^ 30), t)
  | q :: rest =>
    (BitVec.ofNat 32 (2 ^ 31 + b2n ovf * 2 ^ 30 + q), { t with wing.notify := put (fun _ => []) t.wing.notify l rest })

/-- The word of COL_VIOL_POP for a violation record; `ovf`: records were lost since the last pop (R226). -/
def Viol.word (v : Viol) (ovf : Bool) : Word :=
  BitVec.ofNat 32 (2 ^ 31 + b2n ovf * 2 ^ 30 + v.unit * 2 ^ 28 + v.index * 2 ^ 22 + b2n v.av * 2 ^ 21 + v.kind * 2 ^ 19 + b2n v.straddle * 2 ^ 18
    + v.master * 2 ^ 13 + v.region * 2 ^ 6 + b2n v.hard * 2 ^ 5)

/-- A read of COL_VIOL_POP by master `m`: the oldest record goes, and COL_VIOL_ADDR shows that master its address or count. Mark: DEDUCED (log 19), DESIGN CHOICE (log 20). -/
def State.violPop (s : State) (m : Nat) : Word × State :=
  match s.viol with
  | [] => (0#32, s)
  | v :: t => (v.word s.violOvf, { s with viol := t, violOvf := false, violAddr := put (fun _ => 0#32) s.violAddr m v.addr })

/-- SOLOIST_KEY_STAT of the selected entry (R91). -/
def State.soloistStat (s : State) : Word := setBits (s.reg A.SOLOIST_KEY_STAT) 31 30 (s.streamKey (s.rd F.SOLOIST_KEY_IDX_INDEX)).state

/-- KID of a key, 0 where there is none. -/
def kidOf (k : Option KeyVal) : Word :=
  match k with
  | some k => BitVec.ofNat 32 k.kid
  | none => 0#32

/-- SWITCH_RED_STAT with the fills of the duplicate tables, whose entries are forgotten at DD_AGE (R93, R96). -/
def State.redStat (s : State) : Word × State :=
  let s := (s.ddExpire 0).ddExpire 1
  (setBits (setBits (s.reg A.SWITCH_RED_STAT) 28 16 (s.ddTable 1).length) 12 0 (s.ddTable 0).length, s)

/-- CHORUS_STAT: while a job runs, which cores hold a block is not stated, so BUSY is free; with none running no core holds one. -/
def State.chorusStat (s : State) : Word × State :=
  if (List.range 8).any fun c => (s.chan c).running.isSome then (setBits (s.reg A.CHORUS_STAT) 23 16 s.draw, s.next)
  else (setBits (s.reg A.CHORUS_STAT) 23 16 0, s)

/-- The badge's windows (R445): the reader's buffers, the staging buffer and the tag store, by the word at an address. -/
def State.badgeWindow (s : State) (a : Nat) : Option (Word × State) :=
  let o := a - Base.BADGE
  let word := fun (g : Nat → Byte) (i : Nat) => BitVec.ofNat 32 (leNat ((List.range 4).map fun k => g (i + k)))
  if 0x100 ≤ o ∧ o < 0x200 then some (word (look (fun _ => 0#8) s.badge.tx) (o - 0x100), s)
  else if 0x200 ≤ o ∧ o < 0x300 then some (word (fun i => s.badge.rx.getD i 0#8) (o - 0x200), s)
  else if 0x1000 ≤ o ∧ o < 0x2000 then some (word (look (fun _ => 0#8) s.badge.staging) (o - 0x1000), s)
  else if 0x2000 ≤ o ∧ o < 0x8000 then
    let s := s.tagSync
    some (word (fun i => (s.tagPage (i / 16)).getD (i % 16) 0#8) (o - 0x2000), s)
  else none

/-- Latch the high word that a read of a low word gives master `m`. -/
def latchHi (l : List (Nat × Word)) (m : Nat) (w : Word) : List (Nat × Word) := put (fun _ => 0#32) l m w

/-- Reads of the STIME block (R38, R44, R45, R49). -/
def State.readStime (s : State) (m a : Nat) : Option (Word × State) :=
  if a = A.STIME_NOW_LO then
    some (BitVec.ofNat 32 s.now, { s with stime.nowHi := latchHi s.stime.nowHi m (BitVec.ofNat 32 (s.now / 2 ^ 32)) })
  else if a = A.STIME_NOW_HI then some (look (fun _ => 0#32) s.stime.nowHi m, s)
  else if a = A.STIME_COARSE_LO then some (s.reg a, { s with stime.coarseHi := latchHi s.stime.coarseHi m (s.reg A.STIME_COARSE_HI) })
  else if a = A.STIME_COARSE_HI then some (look (fun _ => 0#32) s.stime.coarseHi m, s)
  else if a = A.STIME_FRAME_LO then
    some (BitVec.ofNat 32 s.frame, { s with stime.frameHi := latchHi s.stime.frameHi m s.frameHi })
  else if a = A.STIME_FRAME_HI then some (look (fun _ => 0#32) s.stime.frameHi m, s)
  else if a = A.STIME_FRAME_ACC then some (s.frameAcc, s)
  else if a = A.STIME_STATE then some (setBits (s.shown a) 18 3 s.holdElapsed, s)
  else none

/-- Reads of the CUE, SWITCH and SOLOIST blocks (R70, R91, R96, R110). -/
def State.readTables (s : State) (a : Nat) : Option (Word × State) :=
  if a = A.CUE_STAT then some (setBits (setBits 0#32 28 16 s.standingCues) 10 0 s.openTickets, s)
  else if a = A.CUE_LOAD_DATA then some s.cueLoadRead
  else if a = A.SWITCH_RED_STAT then some s.redStat
  else if a = A.SWITCH_READ_DATA then some (s.swReadData, s)
  else if a = A.SOLOIST_KEY_STAT then some (s.soloistStat, s)
  else if a = A.SOLOIST_KEY_CUR_KID then some (kidOf (s.streamKey (s.rd F.SOLOIST_KEY_IDX_INDEX)).cur, s)
  else if a = A.SOLOIST_KEY_OTHER_KID then some (kidOf (s.streamKey (s.rd F.SOLOIST_KEY_IDX_INDEX)).other, s)
  else none

/-- Reads of the COL, TERRACE, WINGS, ENSEMBLE, PACKER and IRQ blocks (R129, R137, R144, R190, R192, R211, R216, R226). -/
def State.readMemory (s : State) (m a : Nat) : Option (Word × State) :=
  if a = A.COL_VIOL_POP then some (s.violPop m)
  else if a = A.COL_VIOL_ADDR then some (look (fun _ => 0#32) s.violAddr m, s)
  else if A.TERRACE_BANK_LIVE 0 ≤ a ∧ a < A.TERRACE_BANK_LIVE 64 then some (s.bankLive (regIdx a (A.TERRACE_BANK_LIVE 0) 4), s)
  else if a = A.TERRACE_DIRTY_STAT then some (s.dirtyStat, s)
  else if A.WINGS_NOTIFY_POP 0 ≤ a ∧ a < A.WINGS_NOTIFY_POP 32 then some (s.notifyPop (regIdx a (A.WINGS_NOTIFY_POP 0) 4))
  else if ensWindowed a then some (s.reg (s.ensKey a), s)
  else if A.PACKER_CFG 0 ≤ a ∧ a < A.PACKER_CFG 48 ∧ a % 0x20 = 0xC then some (s.packerStat (regIdx a (A.PACKER_CFG 0) 0x20), s)
  else if A.IRQ_CLAIM 0 ≤ a ∧ a < A.IRQ_CLAIM 9 ∧ a % 0x1000 = 0 then some (s.claim (regIdx a (A.IRQ_CLAIM 0) 0x1000), s)
  else if A.IRQ_CLAIM 0 ≤ a ∧ a < A.IRQ_CLAIM 9 ∧ a % 0x1000 = 0x10 then some (s.latePop (regIdx a (A.IRQ_CLAIM 0) 0x1000))
  else if A.IRQ_CLAIM 0 ≤ a ∧ a < A.IRQ_CLAIM 9 ∧ a % 0x1000 = 0x14 then some ((s.core (regIdx a (A.IRQ_CLAIM 0) 0x1000)).lateAddr, s)
  else none

/-- Reads of the UNDERSTUDY, TROUPE and CHORUS blocks (R273, R288, R300, R303). -/
def State.readPartners (s : State) (m a : Nat) : Option (Word × State) :=
  if a = A.UNDERSTUDY_APPLIED_LO then
    some (s.reg a, { s with us.hiLatch := latchHi s.us.hiLatch m (s.reg A.UNDERSTUDY_APPLIED_HI) })
  else if a = A.UNDERSTUDY_APPLIED_HI then some (look (fun _ => 0#32) s.us.hiLatch m, s)
  else if A.TROUPE_MEMBER 0 ≤ a ∧ a < A.TROUPE_MEMBER 64 then
    some (setBits (s.shown a) 15 0 (s.memberAge (regIdx a (A.TROUPE_MEMBER 0) 4)), s)
  else if a = A.CHORUS_KEY_STAT then some (s.chorusKeyStat, s)
  else if a = A.CHORUS_STAT then some s.chorusStat
  else none

/-- The Badge's registers and its memory windows. -/
def State.readBadge (s : State) (a : Nat) : Option (Word × State) :=
  if a = A.BADGE_STAT then some s.badgeStatRead
  else if a = A.BADGE_TS_STAT then
    let s := s.tagSync
    some (s.shown a, s)
  else if a = A.BADGE_TS_GEN then some (BitVec.ofNat 32 s.tagGen.gen, s)
  else if a = A.BADGE_TS_MB then some (BitVec.ofNat 32 (s.badge.mbCount * 2 ^ 16 + s.tagGen.mbMax), s)
  else s.badgeWindow a

/-- Reads of the safety, storage and observation blocks (R340, R351, R353, R368, R420, R428, R443, R445). -/
def State.readKeepers (s : State) (a : Nat) : Option (Word × State) :=
  if A.CURTAIN_CHAL 0 ≤ a ∧ a < A.CURTAIN_CHAL 8 then some (if s.mode = .curtain then s.reg a else 0#32, s)
  else if a = A.REFUGE_RTC_SEC then
    let s := s.rtcFold
    some (BitVec.ofNat 32 (s.refuge.rtc / 32768), s)
  else if a = A.REFUGE_RTC_SUB then
    let s := s.rtcFold
    some (BitVec.ofNat 32 (s.refuge.rtc % 32768), s)
  else if A.REFUGE_LOG_DATA 0 ≤ a ∧ a < A.REFUGE_LOG_DATA 4 then
    some (match s.refuge.log[(s.reg A.REFUGE_LOG_SEL).toNat % 16]? with
      | some e => e.word (regIdx a (A.REFUGE_LOG_DATA 0) 4)
      | none => 0#32, s)
  else if a = A.BRK_PATROL_POP then some s.patrolPop
  else if a = A.BRK_BLOCK_INFO then some (s.blockInfo, s)
  else if A.PBOOK_CURSOR 0 ≤ a ∧ a < A.PBOOK_CURSOR 4 ∧ 0x10 ≤ a % 0x1000 ∧ a % 0x1000 < 0x30 then
    let p := regIdx a (A.PBOOK_CURSOR 0) 0x1000
    let k := (a % 0x1000 - 0x10) / 4
    let s := if k = 0 then s.recLatch p else s
    some (s.recWord p k, if k = 7 then s.recNext p else s)
  else if a = A.OBSERVE_TRACE_STAT then some (setBits (s.shown a) 14 0 s.trace.fill, s)
  else if Base.BADGE ≤ a ∧ a < Base.BADGE + 0x8000 then s.readBadge a
  else none

/-- A read of a Bedrock command page comes between the unlock words (R360). -/
def State.touchPage (s : State) (a : Nat) : State :=
  let n := (a - 0x40131000) / 0x1000
  if 0x40131000 ≤ a ∧ n < 9 then s.brkTouch n else s

/-- What a 32-bit load of a register answers master `m`: registers that show other state or change by being read; then the registers as they stand; an
address of a block where no register stands has no stated value, so it reads free. CURTAIN, which has no paired
fields, shows its BLOCK_REFUSED at +0xFF08 and 0 beside it. Mark: DESIGN CHOICE (log 12, 143). -/
def State.regRead (s : State) (m a : Nat) : Except Nat Word × State :=
  if a = A.SCREE_RAND then s.screeRand
  else
    let s := s.touchPage a
    let r : Option (Word × State) := match s.readStime m a with
      | some r => some r
      | none => match s.readTables a with
        | some r => some r
        | none => match s.readMemory m a with
          | some r => some r
          | none => match s.readPartners m a with
            | some r => some r
            | none => s.readKeepers a
    match r with
    | some (w, s) => (.ok w, s)
    | none =>
      if a = A.BLOCK_REFUSED Base.CURTAIN then (.ok (s.reg a), s)
      else if (descOf a).isSome || 0xFF00 ≤ a % 0x10000 && a % 0x10000 < 0xFF0C then (.ok (s.shown a), s)
      else if packerIn 0 ≤ a ∧ a < packerIn 48 then (.ok 0#32, s)
      else (.ok (BitVec.ofNat 32 s.draw), s.next)

end Sys2Proof.Machine
end

