-- ==== Sys2Proof/Machine/RegWrite.lean ====
section
/-! DEFINITION. What a 32-bit store to a register does (R3, R5, R24, R28, R29): the access codes, the staging copies, and the registers whose writing does more. -/

namespace Sys2Proof.Machine

/-! ## Access codes -/

/-- LK fields are read-only from ISSUED onward (R3). Mark: DEDUCED (log 15). -/
def State.lkClosed (s : State) : Bool := !(s.lifecycle == .blank || s.lifecycle == .factory)

/-- A value that the field's encodings do not reserve. Mark: DEDUCED (log 14, 145). -/
def FDesc.legalVal (f : FDesc) (v : Nat) : Bool := f.legal.isEmpty || f.legal.any fun r => decide (r.1 ≤ v) && decide (v ≤ r.2)

/-- What a write of `w` leaves in a register that held `old`, field `f` (R3, R5). Mark: DEDUCED (log 14). -/
def FDesc.write (f : FDesc) (closed : Bool) (w old : Word) : Word :=
  if f.lk && closed then old
  else match f.acc with
    | .ro => old
    | .rw => if f.legalVal (getBits w f.hi f.lo) then setBits old f.hi f.lo (getBits w f.hi f.lo) else old
    | .wo => if f.st then setBits old f.hi f.lo (getBits w f.hi f.lo) else old
    | .w1c => setBits old f.hi f.lo (getBits (old &&& ~~~w) f.hi f.lo)

/-- What a write of `w` leaves in a register (R3, R5). -/
def RDesc.write (d : RDesc) (closed : Bool) (w old : Word) : Word := d.flds.foldl (fun o f => f.write closed w o) old

/-- Does a register hold staged fields? -/
def RDesc.staged (d : RDesc) : Bool := d.flds.any (·.st)

/-- The store of a register without effects of its own at key `k` (the key of the register, or of a windowed register's ensemble). -/
def State.plainWrite (s : State) (d : RDesc) (k : Nat) (w : Word) : State := s.setReg k (d.write s.lkClosed w (s.reg k))

/-- Note which ensembles and trunk bank entries have been staged (R130, R208). -/
def State.noteStaged (s : State) (k : Nat) : State :=
  let mark : Option Nat :=
    if 0x100000000 ≤ k then some (k / 0x1000 * 0x1000)
    else if A.COL_TRUNK_BANK_RMASK 0 ≤ k ∧ k < A.COL_TRUNK_BANK_RMASK 64 then some (k / 8 * 8)
    else none
  match mark with
  | some m => if s.written.contains m then s else { s with written := m :: s.written }
  | none => s

/-- A staging write (R24, R29): refused and counted while a commit of the block is pending. Mark: DEDUCED (log 21). -/
def State.stageWrite (s : State) (base : Nat) (d : RDesc) (k : Nat) (w : Word) : State :=
  if s.pendingIn base then s.sat (F.BLOCK_REFUSED_STAGE_WRITES base) else (s.plainWrite d k w).noteStaged k

/-! ## Registers whose writing does more -/

/-- STIME_CTRL (R44, R48): SRC and FREE_OK, and STEP_GO. With SRC = 0b00 the servo runs free. -/
def State.stimeCtrlWrite (s : State) (w : Word) : State :=
  let s := (s.wr F.STIME_CTRL_FREE_OK (getBits w 4 4)).wr F.STIME_CTRL_SRC (getBits w 1 0)
  let s := if getBits w 1 0 = 0 then s.servoGo servoFREERUN else s
  if w.getLsbD 31 then
    if s.mode == .lead || s.mode == .understudy then s.wr F.STIME_STATE_STEP_REFUSED 1 else s.wr F.STIME_STATE_STEP_PENDING 1
  else s

/-- STIME_HOLD: new limits, and UNSYNCED as R43 gives it under them. -/
def State.stimeHoldWrite (s : State) (w : Word) : State :=
  let s := s.setReg A.STIME_HOLD w
  let s := if s.armed .holdLimit then
      { s.disarm .holdLimit with timers := (.holdLimit, (s.stime.holdSince + (getBits w 31 16 * 50000000 : Nat)).toNat) :: (s.disarm .holdLimit).timers } else s
  let s : State := match s.armed .servoLoss, s.stime.lastAt with
    | true, some t => { s.disarm .servoLoss with timers := (.servoLoss, (t + (getBits w 15 0 * ticksPerMs : Nat)).toNat) :: (s.disarm .servoLoss).timers }
    | _, _ => s
  s.refreshUnsynced

/-- ENSEMBLE_SEL: INDEX, and CLR zeroes the counters of that ensemble. -/
def State.ensSelWrite (s : State) (w : Word) : State :=
  let s := s.wr F.ENSEMBLE_SEL_INDEX (getBits w 7 0)
  if w.getLsbD 31 then
    (s.setReg (s.ensKey A.ENSEMBLE_STAT_A) 0).setReg (s.ensKey A.ENSEMBLE_STAT_B) 0
  else s

/-- PACKER_CTRL_c (R141, R142): RET, then SWAP. A refused swap is counted as a lost descriptor. -/
def State.packerCtrl (s : State) (c : Nat) (w : Word) : State :=
  let s := if w.getLsbD 30 then s.packerReturn c (getBits w 29 29) else s
  if w.getLsbD 31 && s.packerOn c then (s.packerSwap c false).2 else s

/-- IRQ_ROUTE_s: sources 132 to 143 and 192 to 200 keep their core; 248 to 255 ignore writes (R35). -/
def State.routeWrite (s : State) (src : Nat) (w : Word) : State :=
  if 248 ≤ src then s
  else
    let fixed := (decide (132 ≤ src) && decide (src < 144)) || (decide (192 ≤ src) && decide (src < 201))
    let s := if fixed || decide (8 < getBits w 11 8) then s else s.wr (F.IRQ_ROUTE_CORE src) (getBits w 11 8)
    s.wr (F.IRQ_ROUTE_LINE src) (getBits w 4 0)

/-- IRQ_PEND_k: writing 1 clears a latch, subject to R186. -/
def State.pendWrite (s : State) (k : Nat) (w : Word) : State :=
  (List.range 32).foldl (fun (s : State) j => if w.getLsbD j then s.clearLatch (32 * k + j) else s) s

/-- IRQ_CORE_CTRL_n: HOLD, START and PC; CURTAIN forces HOLD to 1 (R184, R194). Mark: DEDUCED (log 51). -/
def State.coreCtrl (s : State) (n : Nat) (w : Word) : State :=
  let hold := w.getLsbD 31 || s.mode == .curtain
  let s := (s.wr (F.IRQ_CORE_CTRL_PC n) (getBits w 29 0))
  if hold then s.holdCore n
  else
    let s := s.wr (F.IRQ_CORE_CTRL_HOLD n) 0
    if w.getLsbD 30 then s.startCore n (getBits w 29 0 * 4) else s.wr (F.IRQ_CORE_STAT_HELD n) 0

/-- IRQ_ACK of core `n`: clears the latch of SRC if it is routed to core `n`. -/
def State.ackWrite (s : State) (n : Nat) (w : Word) : State :=
  let k := getBits w 7 0
  if s.routeCore k = n then s.clearLatch k else s

/-- IRQ_DOORBELL: bit j latches source 216 + j. -/
def State.doorbell (s : State) (w : Word) : State :=
  (List.range 32).foldl (fun (s : State) j => if w.getLsbD j then s.irq (216 + j) else s) s

/-- The counters that TERRACE_CNT_CTRL copies and clears (R216). -/
def terraceCounters : List Nat := [A.TERRACE_DIRTY_CNT, A.TERRACE_ECC_STAT] ++ (List.range 25).map A.TERRACE_CONFLICT

/-- TERRACE_CNT_CTRL: SNAP, then CLR, in the same cycle. -/
def State.terraceCtrl (s : State) (w : Word) : State :=
  let s := if w.getLsbD 31 then s.snapAll terraceCounters else s
  if w.getLsbD 30 then s.clearAll terraceCounters else s

/-- PINS_GRP_IRQ_g: CLR zeroes CUE_DROP and EVT_LOST; ones clear the bits below. -/
def State.grpIrq (s : State) (g : Nat) (w : Word) : State :=
  let s := if w.getLsbD 31 then (s.wr (F.PINS_GRP_STAT_CUE_DROP g) 0).wr (F.PINS_GRP_STAT_EVT_LOST g) 0 else s
  s.setReg (A.PINS_GRP_IRQ g) (s.reg (A.PINS_GRP_IRQ g) &&& ~~~(w &&& 0x1F#32))

/-- SYS_CLK_CFG (R397): without RECOVERED the PLL follows XTAL_IN and DIFF reads 0, and a new PORT has still to qualify. A move is booked. -/
def State.clkCfgWrite (s : State) (w : Word) : State :=
  let stays := w.getLsbD 31 && getBits w 1 0 == s.rd F.SYS_CLK_CFG_PORT
  let s := s.setReg A.SYS_CLK_CFG (w &&& 0x80000003#32)
  if stays then s
  else
    let s := s.wr F.SYS_CLK_STAT_DIFF 0
    if s.flag F.SYS_CLK_STAT_ON_RECOVERED then (s.wr F.SYS_CLK_STAT_ON_RECOVERED 0).postU 0x1005 3 [0] else s

/-- The badge's windows (R445): BADGE_RD_TX, the staging buffer, and the identity pages, which only master 8 may write while the lifecycle is BLANK or FACTORY. -/
def State.badgeWindowWrite (s : State) (m a : Nat) (w : Word) : State :=
  let o := a - Base.BADGE
  let put4 := fun (l : List (Nat × Byte)) (i : Nat) => (List.range 4).foldl (fun l k => put (fun _ => 0#8) l (i + k) ((leBytes 4 w.toNat).getD k 0)) l
  if 0x100 ≤ o ∧ o < 0x200 then { s with badge.tx := put4 s.badge.tx (o - 0x100) }
  else if 0x1000 ≤ o ∧ o < 0x2000 then
    let s := s.tagSync
    { s with badge.staging := put4 s.badge.staging (o - 0x1000) }
  else if 0x2000 ≤ o ∧ o < 0x8000 then
    let p := (o - 0x2000) / 16
    if m = 8 ∧ !s.lkClosed ∧ (p < 4 ∨ (256 ≤ p ∧ p < 1024)) then { s with badge.store := put4 s.badge.store (o - 0x2000) } else s
  else s

/-- BADGE_CFG: clearing READER_EN ends the reader's work (R431). -/
def State.badgeCfgWrite (s : State) (w : Word) : State :=
  let rate := if 3 < getBits w 2 0 then s.rd F.BADGE_CFG_RATE_MAX else getBits w 2 0
  let s := s.setReg A.BADGE_CFG (setBits (w &&& 0xE0FFFF07#32) 2 0 rate)
  if s.readerOk then s else s.readerStop

/-- UNDERSTUDY_CTRL; JOIN starts the times of R406. -/
def State.usCtrl (s : State) (w : Word) : State :=
  let was := s.us.joined
  let s := s.usCtrlWrite w
  if !was && s.us.joined then { s with boot.joinedAt := some s.now } else s

/-- SWITCH_PTP_CFG: what its EN and LOG_SYNC start and stop (R106, R109). -/
def State.ptpCfgWrite (s : State) (w : Word) : State :=
  match descOf A.SWITCH_PTP_CFG with
  | some d => (s.plainWrite d A.SWITCH_PTP_CFG w).ptpWatch s.ptpSlave
  | none => s

/-- Writes of the blocks SYS, STIME, CUE, SP, SOLOIST and SWITCH. -/
def State.writeStation (s : State) (m a : Nat) (w : Word) : Option State :=
  let n := a / 0x10000 - 0x4006
  if a = A.SYS_MODE_REQ then some (s.modeReqWrite w)
  else if a = A.SYS_LC_ADV then some (s.lcAdvWrite w)
  else if a = A.SYS_RESET then some (s.resetWrite w)
  else if a = A.SYS_CLK_CFG then some (s.clkCfgWrite w)
  else if a = A.STIME_CTRL then some (s.stimeCtrlWrite w)
  else if a = A.STIME_HOLD then some (s.stimeHoldWrite w)
  else if a = A.CUE_CTRL then some (s.cueCtrlWrite w)
  else if a = A.CUE_EDIT_PUSH then some (s.cueEditWrite w)
  else if a = A.CUE_LOAD_DATA then some (s.cueLoadWrite m w)
  else if a = A.CUE_TICKET_DONE then some (s.ticketDoneWrite m w)
  else if n < 4 ∧ a = A.SP_LINK_CFG n then some (s.linkCfgWrite n w)
  else if n < 4 ∧ a = A.SP_CNT_CTRL n then some (s.portCntWrite n w)
  else if a = A.SOLOIST_KEY_PUSH then some (s.solPush w)
  else if A.SOLOIST_CNT 0 ≤ a ∧ a < A.SOLOIST_CNT 3 then some (s.setReg a 0)
  else if a = A.SWITCH_RED_CFG 0 ∨ a = A.SWITCH_RED_CFG 1 then some (s.redCfgWrite (regIdx a (A.SWITCH_RED_CFG 0) 4) w)
  else if a = A.SWITCH_EDIT_PUSH then some (s.swEditWrite w)
  else if a = A.SWITCH_PTP_CFG then some (s.ptpCfgWrite w)
  else if a = A.SWITCH_PTP_PORT then some (s.ptpPortWrite w)
  else none

/-- Writes of the blocks WINGS, ENSEMBLE, PACKER, IRQ, TERRACE and PINS. -/
def State.writeFrame (s : State) (a : Nat) (w : Word) : Option State :=
  if a = A.WINGS_ERR_CLR then some (if w.getLsbD 31 then (s.setReg A.WINGS_ERR_A 0).setReg A.WINGS_ERR_B 0 else s)
  else if a = A.ENSEMBLE_SEL then some (s.ensSelWrite w)
  else if A.PACKER_CFG 0 ≤ a ∧ a < A.PACKER_CFG 48 ∧ a % 0x20 = 0x8 then some (s.packerCtrl (regIdx a (A.PACKER_CFG 0) 0x20) w)
  else if A.PACKER_CFG 0 ≤ a ∧ a < A.PACKER_CFG 48 ∧ (a % 0x20 = 0x10 ∨ a % 0x20 = 0x14) then
    let c := regIdx a (A.PACKER_CFG 0) 0x20
    some ((s.setReg (A.PACKER_CNT_A c) 0).setReg (A.PACKER_CNT_B c) 0)
  else if A.IRQ_ROUTE 0 ≤ a ∧ a < A.IRQ_ROUTE 256 then some (s.routeWrite (regIdx a (A.IRQ_ROUTE 0) 4) w)
  else if A.IRQ_PEND 0 ≤ a ∧ a < A.IRQ_PEND 8 then some (s.pendWrite (regIdx a (A.IRQ_PEND 0) 4) w)
  else if A.IRQ_CORE_STAT 0 ≤ a ∧ a < A.IRQ_CORE_STAT 8 ∧ a % 8 = 4 then some (s.coreCtrl (regIdx a (A.IRQ_CORE_STAT 0) 8) w)
  else if A.IRQ_CLAIM 0 ≤ a ∧ a < A.IRQ_CLAIM 9 ∧ a % 0x1000 = 4 then some (s.ackWrite (regIdx a (A.IRQ_CLAIM 0) 0x1000) w)
  else if a = A.IRQ_DOORBELL then some (s.doorbell w)
  else if a = A.TERRACE_CNT_CTRL then some (s.terraceCtrl w)
  else if A.PINS_GRP_CFG 0 ≤ a ∧ a < A.PINS_GRP_CFG 32 ∧ a % 0x10 = 8 then some (s.grpIrq (regIdx a (A.PINS_GRP_CFG 0) 0x10) w)
  else none

/-- Writes of the blocks UNDERSTUDY, TROUPE, CHORUS, MASSIF, SCREE, DTAKE, CURTAIN and REFUGE. -/
def State.writeTrust (s : State) (a : Nat) (w : Word) : Option State :=
  if a = A.UNDERSTUDY_CTRL then some (s.usCtrl w)
  else if a = A.UNDERSTUDY_HOLD_SET then some (s.holdSet w)
  else if a = A.UNDERSTUDY_HOLD_CLR then some (s.holdClr w)
  else if a = A.UNDERSTUDY_CNT_A ∨ a = A.UNDERSTUDY_CNT_B ∨ a = A.UNDERSTUDY_CNT_C then some (s.setReg a 0)
  else if a = A.TROUPE_CNT ∨ a = A.CHORUS_CNT ∨ a = A.MASSIF_CNT ∨ a = A.DTAKE_CNT_A then some (s.setReg a 0)
  else if a = A.CHORUS_CFG then some (s.chorusCfgWrite w)
  else if a = A.CHORUS_KEY_PUSH then some (s.chorusPush w)
  else if a = A.SCREE_CTRL then some (s.screeCtrl w)
  else if a = A.SCREE_TEST then some (s.screeTest w)
  else if a = A.SCREE_TEST_DATA then some (s.screeTestData w)
  else if a = A.REFUGE_CFG then some (s.refugeCfg w)
  else if a = A.REFUGE_RTC_SET then some (s.rtcSet w)
  else if a = A.REFUGE_LOG_SEL then some (s.logSel w)
  else if a = A.CURTAIN_CFG then some (s.curtainCfg w)
  else none

/-- Writes of the blocks BEDROCK, HOST, PBOOK, OBSERVE, BADGE and CARTRIDGE. -/
def State.writeKeepers (s : State) (m a : Nat) (w : Word) : Option State :=
  let n := (a - 0x40131000) / 0x1000
  if 0x40131000 ≤ a ∧ n < 9 ∧ a % 0x1000 < 0x10 then
    some (if a % 0x1000 = 0 then s.brkUnlock n w
      else if a % 0x1000 = 0xC then s.brkCmd m n w
      else (s.brkTouch n).setReg a w)
  else if a = A.BRK_ECC ∨ a = A.HOST_CNT then some (s.setReg a 0)
  else if a = A.PBOOK_CLEAR then some (if m = 8 then s.bookClear w else s)
  else if a = A.PBOOK_DROP_A ∨ a = A.PBOOK_DROP_B then some (s.setReg a 0)
  else if a = A.OBSERVE_TRACE_CFG then some (if m = 8 then s.traceCfg w else s)
  else if a = A.OBSERVE_TRACE_STAT then some (s.wr F.OBSERVE_TRACE_STAT_LOST 0)
  else if a = A.OBSERVE_CNT_CTRL then some (s.observeCtrl w)
  else if a = A.BADGE_CFG then some (s.badgeCfgWrite w)
  else if a = A.BADGE_RD_CTRL then some (s.readerGo w)
  else if a = A.BADGE_TS_COMMIT then some (s.tsCommit w)
  else if a = A.CART_CFG then some ((s.setReg a (w &&& 0xF0000000#32)).cartClock)
  else if a = A.CART_XFER then some (s.cartXfer w)
  else if Base.BADGE + 0x100 ≤ a ∧ a < Base.BADGE + 0x8000 then some (s.badgeWindowWrite m a w)
  else none

/-- A 32-bit store of `w` to a register by master `m`: the KIND of a refusal by the register, if any, and the state after it. Mark: DESIGN CHOICE (log 12). -/
def State.regWrite (s : State) (m a : Nat) (w : Word) : Option Nat × State :=
  let base := a / 0x10000 * 0x10000
  let p := (a - A.MASSIF_SUBMIT 0) / 0x1000
  let c := (a - 0x38000000) / 0x10000
  if a % 0x10000 = 0xFF00 ∧ pairedBlocks.contains base then (none, s.blockCommit base w)
  else if A.MASSIF_SUBMIT 0 ≤ a ∧ p < 4 ∧ a = A.MASSIF_SUBMIT p then s.massifSubmit m p w.toNat
  else if a < Base.SYS ∧ c < 8 ∧ a = A.CHORUS_CH_OP c then s.chorusOp m c w
  else if a < Base.SYS ∧ c < 8 ∧ a = A.CHORUS_CH_GATE_CFG c then (none, s.gateCfgWrite c w)
  else
    let r : Option State := match s.writeStation m a w with
      | some s => some s
      | none => match s.writeFrame a w with
        | some s => some s
        | none => match s.writeTrust a w with
          | some s => some s
          | none => s.writeKeepers m a w
    match r with
    | some s => (none, s)
    | none => match descOf a with
      | none => (none, s)
      | some d =>
        let k := if ensWindowed a then s.ensKey a else a
        if d.staged then (none, s.stageWrite base d k w)
        else
          let s := s.plainWrite d k w
          (none, if a = A.SCREE_HEALTH then s.screeJudge else s)

end Sys2Proof.Machine
end

