-- ==== Sys2Proof/Machine/Bus.lean ====
section
/-! DEFINITION. Loads and stores of a master (R30, R160, R161, R191, R206, R225): the address map, the Col units, then the target. -/

namespace Sys2Proof.Machine

/-- The main domain runs: it has power and is not held in reset. -/
def State.live? (s : State) : Bool := s.power && !s.boot.held

/-! ## Targets -/

/-- A load of `n` bytes that the Col units have passed, by target. Register blocks and channel registers take aligned 32-bit loads, the Wings windows aligned 8-byte loads (R121, R160, R292). Mark: DEDUCED (log 13). -/
def State.targetLoad (s : State) (m a n : Nat) : Except Nat (List Byte) × State :=
  let single := match targetOf m a with
    | .gate _ => decide (a % 0x10000 < 0x1000)
    | .block _ => !(decide (packerIn 0 ≤ a) && decide (a < packerIn 48))
    | _ => false
  if single then
    if n = 4 ∧ a % 4 = 0 then
      match s.regRead m a with
      | (.ok w, s) => (.ok (leBytes 4 w.toNat), s)
      | (.error k, s) => (.error k, s)
    else (.error kindSize, s)
  else s.burstTarget m a n

/-- A store that the Col units have passed, by target. Bedrock, the boot ROM and the OTP window are not written by stores. -/
def State.targetStore (s : State) (m a : Nat) (bs : List Byte) : Option Nat × State :=
  let n := bs.length
  match targetOf m a with
  | .clr _ _ | .terrace _ _ => s.ramWrite m a (physAddr m a) bs
  | .bedrock _ _ | .rom | .otp => (some kindTarget, s)
  | .wState => if n = 4 ∧ a % 4 = 0 then (none, s.queueWrite ((a - 0x30000000) / 16) (a / 4 % 4) (BitVec.ofNat 32 (leNat bs))) else (some kindSize, s)
  | .wEnq => if n = 8 ∧ a % 8 = 0 then (none, s.enqueueStore m ((a - 0x34000000) / 8) (BitVec.ofNat 64 (leNat bs))) else (some kindSize, s)
  | .wDeq => if n = 8 ∧ a % 8 = 0 then (none, s.releaseStore m ((a - 0x34400000) / 8) (BitVec.ofNat 64 (leNat bs))) else (some kindSize, s)
  | .gate _ =>
    if a % 0x10000 < 0x1000 then
      if n = 4 ∧ a % 4 = 0 then s.regWrite m a (BitVec.ofNat 32 (leNat bs)) else (some kindSize, s)
    else (none, s)
  | .block _ =>
    if packerIn 0 ≤ a ∧ a < packerIn 48 then
      let c := (a - packerIn 0) / 8
      (none, if a % 8 = 0 then s.packerAppend c bs else if s.packerOn c then s.packerLose c n else s)
    else if n = 4 ∧ a % 4 = 0 then s.regWrite m a (BitVec.ofNat 32 (leNat bs))
    else (some kindSize, s)
  | .nothing => (some kindNoTarget, s)

/-- A load of `n` bytes by master `m` (R30, R206, R225): the bytes, or the KIND of the refusal. Mark: DEDUCED (log 13). -/
def State.busLoad (s : State) (m a n : Nat) : Except Nat (List Byte) × State :=
  match s.colAdmit m a n .read with
  | (some k, s) => (.error k, s)
  | (none, s) => s.targetLoad m a n

/-- A store by master `m`: the KIND of the refusal, if any. -/
def State.busStore (s : State) (m a : Nat) (bs : List Byte) : Option Nat × State :=
  match s.colAdmit m a bs.length .write with
  | (some k, s) => (some k, s)
  | (none, s) => s.targetStore m a bs

/-- Is a core's refused store to `a` reported without its address? The trunk posts a store to Terrace (R191, R206). -/
def postedAt (a : Nat) : Bool := decide (0x10000000 ≤ a) && decide (a < 0x11000000)

/-- A store whose refusal is answered to its master: a core's refused store is lost and becomes a late bus error (R191, R225); the sources that the store made assert take effect. -/
def State.storeBytes (s : State) (m a : Nat) (bs : List Byte) : State :=
  if !s.live? then s
  else match s.busStore m a bs with
    | (none, s) => s.settle
    | (some k, s) => (if m ≤ 8 then s.lateError m (!postedAt a) k bs.length a else s).settle

/-- A 32-bit store. Mark: DESIGN CHOICE (log 11). -/
def State.store (s : State) (m a : Nat) (w : Word) : State := s.storeBytes m a (leBytes 4 w.toNat)

/-- A 64-bit store. -/
def State.store8 (s : State) (m a : Nat) (d : DWord) : State := s.storeBytes m a (leBytes 8 d.toNat)

/-- A store of `n` bytes, 1 to 8. -/
def State.storeN (s : State) (m a n : Nat) (d : DWord) : State := s.storeBytes m a (leBytes n d.toNat)

/-- A load of `n` bytes whose value the interface keeps; a refused one leaves it as it was. -/
def State.loadN (s : State) (m a n : Nat) : State :=
  if !s.live? then s
  else match s.busLoad m a n with
    | (.ok b, s) => State.settle { s with rdata := BitVec.ofNat 64 (leNat b) }
    | (.error _, s) => s.settle

/-- A 32-bit load. Mark: DESIGN CHOICE (log 11). -/
def State.load (s : State) (m a : Nat) : State := s.loadN m a 4

/-- A 64-bit load. -/
def State.load8 (s : State) (m a : Nat) : State := s.loadN m a 8

end Sys2Proof.Machine
end

