-- ==== Sys2Proof/Machine/RidgeAlu.lean ====
section
/-! DEFINITION. What the A, M and X syllables of a Ridge bundle compute (R162, R163, R168, R169), as functions of their operands: `a` and `b` the
source registers, `d` the destination before the bundle, `i` the immediate. -/

namespace Sys2Proof.Machine

/-- sext32 of the low 32 bits. -/
def sext32 (x : DWord) : DWord := (x.setWidth 32).signExtend 64

/-- zext32 of a 32-bit word. -/
def zext32 (x : Word) : DWord := x.setWidth 64

/-- A truth value as 1 or 0. -/
def flag64 (b : Bool) : DWord := if b then 1#64 else 0#64

/-- The A-unit instructions in Form T, by opcode (R162). -/
def aluT (op : Nat) (a b d : DWord) : DWord :=
  let sh := b.toNat % 64
  if op = 0x00 then a + b else if op = 0x01 then a - b
  else if op = 0x02 then sext32 (a + b) else if op = 0x03 then sext32 (a - b)
  else if op = 0x04 then a &&& b else if op = 0x05 then a ||| b else if op = 0x06 then a ^^^ b else if op = 0x07 then a &&& ~~~b
  else if op = 0x08 then a <<< sh else if op = 0x09 then a >>> sh else if op = 0x0A then a.sshiftRight sh
  else if op = 0x0B then a.rotateLeft sh
  else if op = 0x0C then flag64 (a == b) else if op = 0x0D then flag64 (a != b)
  else if op = 0x0E then flag64 (a.slt b) else if op = 0x0F then flag64 (a.ult b)
  else if op = 0x10 then flag64 (a.sle b) else if op = 0x11 then flag64 (a.ule b)
  else if op = 0x12 then (if a = 0 then d else b) else if op = 0x13 then (if a = 0 then b else d)
  else if op = 0x14 then (if a.slt b then a else b) else if op = 0x15 then (if a.slt b then b else a)
  else if op = 0x16 then (if a.ult b then a else b) else if op = 0x17 then (if a.ult b then b else a)
  else if op = 0x18 then (a.setWidth 8).signExtend 64 else if op = 0x19 then (a.setWidth 16).signExtend 64
  else if op = 0x1A then sext32 a else zext32 (a.setWidth 32)

/-- The A-unit instructions in Form I, by opcode (R162); `A` is the bundle's address. -/
def aluI (op : Nat) (a i : DWord) (A : Word) : DWord :=
  let sh := i.toNat % 64
  if op = 0x20 then a + i else if op = 0x21 then sext32 (a + i)
  else if op = 0x22 then a &&& i else if op = 0x23 then a ||| i else if op = 0x24 then a ^^^ i
  else if op = 0x25 then a <<< sh else if op = 0x26 then a >>> sh else if op = 0x27 then a.sshiftRight sh
  else if op = 0x28 then flag64 (a == i) else if op = 0x29 then flag64 (a != i)
  else if op = 0x2A then flag64 (a.slt i) else if op = 0x2B then flag64 (a.ult i)
  else if op = 0x2C then flag64 (a.sle i) else if op = 0x2D then flag64 (a.ule i)
  else if op = 0x2E then flag64 (i.slt a) else if op = 0x2F then flag64 (i.ult a)
  else zext32 A + i

/-- The M-unit instructions, by opcode (R163, R165). -/
def mulOp (op : Nat) (a b d : DWord) : DWord :=
  let wa : Word := a.setWidth 32
  let wb : Word := b.setWidth 32
  let fa := F32.ofWord wa
  let fb := F32.ofWord wb
  let fd := F32.ofWord (d.setWidth 32)
  if op = 0x00 then a * b
  else if op = 0x01 then (wa * wb).signExtend 64
  else if op = 0x02 then BitVec.ofInt 64 (a.toInt * b.toInt / 2 ^ 64)
  else if op = 0x03 then BitVec.ofNat 64 (a.toNat * b.toNat / 2 ^ 64)
  else if op = 0x04 then d + a * b
  else if op = 0x05 then (d.setWidth 32 + wa * wb).signExtend 64
  else if op = 0x06 then d - a * b
  else if op = 0x08 then zext32 (addF fa fb)
  else if op = 0x09 then zext32 (addF fa (negX fb))
  else if op = 0x0A then zext32 (packX (mulX fa fb))
  else if op = 0x0B then zext32 (addF fd (mulX fa fb))
  else if op = 0x0C then zext32 (addF fd (negX (mulX fa fb)))
  else if op = 0x0D then zext32 (minF wa wb)
  else if op = 0x0E then zext32 (maxF wa wb)
  else if op = 0x0F then zext32 (divF fa fb)
  else if op = 0x10 then zext32 (sqrtF fa)
  else if op = 0x11 then flag64 (eqF wa wb)
  else if op = 0x12 then flag64 (ltF wa wb)
  else if op = 0x13 then flag64 (ltF wa wb || eqF wa wb)
  else if op = 0x14 then flag64 (isNan wa || isNan wb)
  else if op = 0x15 then zext32 (roundInt wa.toInt 0 false)
  else if op = 0x16 then BitVec.ofInt 64 (cvtWS false fa)
  else BitVec.ofInt 64 (cvtWS true fa)

/-- One step of a reflected CRC (R169). -/
def crcStep (poly : Word) (c : Word) (x : Bool) : Word :=
  let c := c ^^^ (if x then 1#32 else 0#32)
  if c.getLsbD 0 then (c >>> 1) ^^^ poly else c >>> 1

/-- The reflected CRC of the low `n` bits of `x`, least significant first (R169). -/
def crcBits (poly c : Word) (x : DWord) (n : Nat) : Word := (List.range n).foldl (fun c k => crcStep poly c (x.getLsbD k)) c

/-- The XOR of the low `n` bits. -/
def parity (x : DWord) (n : Nat) : Bool := (List.range n).foldl (fun p k => p != x.getLsbD k) false

/-- Reverse the bits within each group of `n` bits. -/
def brev (x : DWord) (n : Nat) : DWord :=
  (List.range 64).foldl (fun y k => if x.getLsbD (k / n * n + (n - 1 - k % n)) then y ||| BitVec.twoPow 64 k else y) 0#64

/-- Swap the low `n` bytes, the rest 0. -/
def bswap (x : DWord) (n : Nat) : DWord := BitVec.ofNat 64 (beNat (leBytes n x.toNat))

/-- The carry-less product, 128 bits. -/
def clmul (a b : DWord) : BitVec 128 :=
  (List.range 64).foldl (fun p k => if b.getLsbD k then p ^^^ ((a.setWidth 128) <<< k) else p) 0#128

/-- Leading zeros of the low `n` bits. -/
def clz (x : DWord) (n : Nat) : Nat := ((List.range n).find? fun k => x.getLsbD (n - 1 - k)).getD n

/-- Trailing zeros of the low `n` bits. -/
def ctz (x : DWord) (n : Nat) : Nat := ((List.range n).find? fun k => x.getLsbD k).getD n

/-- One bits among the low `n`. -/
def popc (x : DWord) (n : Nat) : Nat := ((List.range n).filter fun k => x.getLsbD k).length

/-- Length of a field that begins at `pos`: it ends at bit 63 at the latest (R168). -/
def fieldLen (pos len : Nat) : Nat := min len (64 - pos)

/-- Zero-extended field. -/
def extU (a : DWord) (pos len : Nat) : DWord := BitVec.ofNat 64 (a.toNat / 2 ^ pos % 2 ^ fieldLen pos len)

/-- Sign-extended field. -/
def extS (a : DWord) (pos len : Nat) : DWord := BitVec.ofInt 64 (signed (fieldLen pos len) (a.toNat / 2 ^ pos))

/-- The field replaced by the low bits of `a`. -/
def insF (d a : DWord) (pos len : Nat) : DWord :=
  let n := fieldLen pos len
  let mask : DWord := BitVec.ofNat 64 ((2 ^ n - 1) * 2 ^ pos)
  (d &&& ~~~mask) ||| ((a <<< pos) &&& mask)

/-- `len` of the register forms: b[13:8], where 0 means 64 (R168). -/
def lenReg (b : DWord) : Nat := if b.toNat / 256 % 64 = 0 then 64 else b.toNat / 256 % 64

/-- The X-unit instructions, by opcode; `pos` and `len` are the fields of Form F (R168, R169). -/
def xOp (op : Nat) (a b d : DWord) (poly : Word) (pos len : Nat) : DWord :=
  let c : Word := a.setWidth 32
  if op = 0x00 then zext32 (crcBits poly c b 8) else if op = 0x01 then zext32 (crcBits poly c b 16)
  else if op = 0x02 then zext32 (crcBits poly c b 32) else if op = 0x03 then zext32 (crcBits poly c b 64)
  else if op = 0x04 then flag64 (parity a 8) else if op = 0x05 then flag64 (parity a 16)
  else if op = 0x06 then flag64 (parity a 32) else if op = 0x07 then flag64 (parity a 64)
  else if op = 0x08 then brev a 8 else if op = 0x09 then brev a 16
  else if op = 0x0A then zext32 ((brev a 32).setWidth 32) else if op = 0x0B then brev a 64
  else if op = 0x0C then bswap a 2 else if op = 0x0D then bswap a 4 else if op = 0x0E then bswap a 8
  else if op = 0x0F then (clmul a b).setWidth 64 else if op = 0x10 then ((clmul a b) >>> 64).setWidth 64
  else if op = 0x11 then BitVec.ofNat 64 (clz a 32) else if op = 0x12 then BitVec.ofNat 64 (clz a 64)
  else if op = 0x13 then BitVec.ofNat 64 (ctz a 32) else if op = 0x14 then BitVec.ofNat 64 (ctz a 64)
  else if op = 0x15 then BitVec.ofNat 64 (popc a 32) else if op = 0x16 then BitVec.ofNat 64 (popc a 64)
  else if op = 0x18 then extU a pos len else if op = 0x19 then extS a pos len else if op = 0x1A then insF d a pos len
  else if op = 0x1B then extU a (b.toNat % 64) (lenReg b) else if op = 0x1C then extS a (b.toNat % 64) (lenReg b)
  else insF d a (b.toNat % 64) (lenReg b)

end Sys2Proof.Machine
end

