-- ==== Sys2Proof/Machine/RidgeDecode.lean ====
section
/-! DEFINITION. Bundles of the Ridge instruction set: syllables and their fields, immediates (R149, R150), bundle legality (R151) and opcode legality (R152). -/

namespace Sys2Proof.Machine

/-- A syllable other than K: its address, its word, and the K syllables after it. -/
structure Syl where
  addr : Nat
  word : Word
  ks : List Word
  deriving DecidableEq, Repr

/-- Unit code of a syllable word. -/
def unitOf (w : Word) : Nat := getBits w 30 28
/-- STOP. -/
def stopOf (w : Word) : Bool := w.getLsbD 31
/-- Unit code. -/
def Syl.unit (y : Syl) : Nat := unitOf y.word
/-- OP. -/
def Syl.op (y : Syl) : Nat := getBits y.word 27 22
/-- DST. -/
def Syl.dst (y : Syl) : Nat := getBits y.word 21 16
/-- SRC1. -/
def Syl.src1 (y : Syl) : Nat := getBits y.word 15 10
/-- SRC2, and POS of Form F. -/
def Syl.src2 (y : Syl) : Nat := getBits y.word 9 4
/-- MOD, and LENM1 of Form F. -/
def Syl.mod (y : Syl) : Nat := getBits y.word 3 0
/-- IMM10. -/
def Syl.imm10 (y : Syl) : Nat := getBits y.word 9 0

/-- Unit codes: A0 and A1, M, L, X, B, K. -/
def isA (u : Nat) : Bool := decide (u < 2)
/-- M. -/
abbrev uM : Nat := 2
/-- L. -/
abbrev uL : Nat := 3
/-- X. -/
abbrev uX : Nat := 4
/-- B. -/
abbrev uB : Nat := 5
/-- K. -/
abbrev uK : Nat := 6

/-- The immediate of a Form I or Form B syllable (R150). -/
def Syl.imm (y : Syl) : DWord :=
  let r : Nat × Nat := match y.ks with
    | [] => (y.imm10, 10)
    | [k] => (getBits k 21 0 * 2 ^ 10 + y.imm10, 32)
    | k :: l :: _ => (getBits l 27 0 * 2 ^ 32 + getBits k 21 0 * 2 ^ 10 + y.imm10, 60)
  if isA y.unit ∧ 0x22 ≤ y.op ∧ y.op ≤ 0x24 then BitVec.ofNat 64 r.1 else BitVec.ofInt 64 (signed r.2 r.1)

/-- Does the instruction take an immediate that K syllables may extend? Shift immediates do not. -/
def takesK (u op : Nat) : Bool :=
  if isA u then (decide (0x20 ≤ op) && decide (op ≤ 0x24)) || (decide (0x28 ≤ op) && decide (op ≤ 0x30))
  else if u = uL then decide (op ≤ 6) || (decide (8 ≤ op) && decide (op ≤ 0xB)) || op == 0x20
  else if u = uB then decide (op ≤ 3) || op == 6
  else false

/-- Is the opcode one of its unit's (R162, R163, R166, R168, R170)? -/
def opKnown (u op : Nat) : Bool :=
  if isA u then decide (op ≤ 0x1B) || (decide (0x20 ≤ op) && decide (op ≤ 0x30))
  else if u = uM then decide (op ≤ 0x17) && op != 7
  else if u = uL then decide (op ≤ 6) || (decide (8 ≤ op) && decide (op ≤ 0xB)) || (decide (0x10 ≤ op) && decide (op ≤ 0x16))
    || (decide (0x18 ≤ op) && decide (op ≤ 0x1B)) || op == 0x20 || (decide (0x24 ≤ op) && decide (op ≤ 0x26)) || op == 0x28 || op == 0x29
  else if u = uX then decide (op ≤ 0x16) || (decide (0x18 ≤ op) && decide (op ≤ 0x1D))
  else decide (op ≤ 0xA)

/-- Is the instruction in Form T? -/
def formT (u op : Nat) : Bool :=
  if isA u then decide (op < 0x20)
  else if u = uM then true
  else if u = uL then (decide (0x10 ≤ op) && op != 0x20)
  else if u = uX then !(decide (0x18 ≤ op) && decide (op ≤ 0x1A))
  else decide (4 ≤ op) && op != 6

/-- Must DST be 0? -/
def zeroDst (u op : Nat) : Bool :=
  (u == uL && (op == 0x28 || op == 0x29)) || (u == uB && (decide (op ≤ 5) || op == 7 || op == 0xA))

/-- Must SRC1 be 0? -/
def zeroSrc1 (u op : Nat) : Bool :=
  (isA u && op == 0x30) || (u == uL && (op == 0x28 || op == 0x29)) || (u == uB && (op == 0 || op == 3 || op == 6 || op == 7 || op == 0xA))

/-- Must SRC2 be 0? -/
def zeroSrc2 (u op : Nat) : Bool :=
  (isA u && decide (0x18 ≤ op) && decide (op ≤ 0x1B)) || (u == uM && (op == 0x10 || op == 0x15 || op == 0x16 || op == 0x17))
    || (u == uL && (op == 0x28 || op == 0x29)) || (u == uX && ((decide (4 ≤ op) && decide (op ≤ 0xE)) || (decide (0x11 ≤ op) && decide (op ≤ 0x16))))
    || (u == uB && (op == 4 || op == 5 || decide (7 ≤ op)))

/-- Does a legal bundle's syllable raise the illegal-opcode exception (R152)? -/
def Syl.illegal (y : Syl) : Bool :=
  let u := y.unit
  let op := y.op
  !opKnown u op || (formT u op && y.mod != 0) || (zeroDst u op && y.dst != 0) || (zeroSrc1 u op && y.src1 != 0) || (zeroSrc2 u op && formT u op && y.src2 != 0)
    || (isA u && decide (0x25 ≤ op) && decide (op ≤ 0x27) && decide (64 ≤ y.imm10))
    || (u == uB && op == 8 && decide (12 < y.src1))
    || (u == uB && op == 9 && (decide (12 < y.dst) || y.dst == 0 || y.dst == 9 || y.dst == 12))

/-- The general register a syllable writes, if any. -/
def Syl.writes (y : Syl) : Option Nat :=
  let op := y.op
  if y.unit = uL then
    if op ≤ 6 ∨ (0x10 ≤ op ∧ op ≤ 0x16) ∨ op = 0x20 ∨ (0x24 ≤ op ∧ op ≤ 0x26) then some y.dst else none
  else if y.unit = uB then (if op = 3 ∨ op = 5 then some 63 else if op = 6 ∨ op = 8 then some y.dst else none)
  else some y.dst

/-- Is a syllable a control transfer (R151)? -/
def Syl.transfer (y : Syl) : Bool := y.unit == uB && decide (y.op ≤ 7)

/-- The syllables of a bundle with their K syllables; none where a K syllable stands first. Mark: DEDUCED (log 47). -/
def groupK (ws : List (Nat × Word)) : Option (List Syl) :=
  ws.foldl (fun acc w => match acc with
    | none => none
    | some l =>
      if unitOf w.2 = uK then
        match l.getLast? with
        | some y => some (l.dropLast ++ [{ y with ks := y.ks ++ [w.2] }])
        | none => none
      else some (l ++ [{ addr := w.1, word := w.2, ks := [] }])) (some [])

/-- Are the unit codes strictly ascending, none of them reserved (R146, R151)? -/
def ascending : List Nat → Bool
  | [] => true
  | [u] => decide (u < 7)
  | u :: v :: t => decide (u < v) && ascending (v :: t)

/-- No value stands twice in a list. -/
def distinct : List Nat → Bool
  | [] => true
  | r :: t => !t.contains r && distinct t

/-- The syllables of a bundle that R151 finds legal; `delay` tells that it is the delay bundle of a control transfer. Mark: DEDUCED (log 47). -/
def bundleOf (ws : List (Nat × Word)) (delay : Bool) : Option (List Syl) :=
  match groupK ws with
  | none => none
  | some l =>
    if ascending (l.map Syl.unit)
      && decide ((ws.filter fun w => unitOf w.2 == uK).length ≤ 2)
      && l.all (fun y => y.ks.isEmpty || takesK y.unit y.op)
      && l.all (fun y => match y.ks with
        | k :: _ => getBits k 27 22 == 0
        | [] => true)
      && distinct ((l.filterMap Syl.writes).filter (· != 0))
      && !(delay && l.any Syl.transfer)
    then some l else none

end Sys2Proof.Machine
end

