-- ==== Sys2Proof/Machine/RidgeCore.lean ====
section
/-! DEFINITION. A Ridge core (R145 to R194): fetching, issuing a bundle, exceptions and interrupts, the store buffer. -/

namespace Sys2Proof.Machine

/-! ## The store buffer (R159, R191) -/

/-- The oldest store in the buffer of core `n` goes to its target; a refused one becomes a late bus error. Mark: DESIGN CHOICE (log 48). -/
def State.drainStore (s : State) (n : Nat) : State :=
  let c := s.core n
  match c.stores with
  | [] => s
  | b :: t => (s.setCore n { c with stores := t }).storeN n b.addr.toNat b.size b.data

/-- The `k` oldest stores go. -/
def State.drainStores (s : State) (n k : Nat) : State := (List.range k).foldl (fun s _ => s.drainStore n) s

/-! ## Exceptions (R174, R179, R184, R185) -/

/-- xcause codes. -/
abbrev cILLEGAL_BUNDLE : Nat := 1
/-- ILLEGAL_OPCODE. -/
abbrev cILLEGAL_OPCODE : Nat := 2
/-- FETCH_MISALIGN. -/
abbrev cFETCH_MISALIGN : Nat := 3
/-- DATA_MISALIGN. -/
abbrev cDATA_MISALIGN : Nat := 4
/-- FETCH_BUS_ERROR. -/
abbrev cFETCH_BUS : Nat := 5
/-- LOAD_BUS_ERROR. -/
abbrev cLOAD_BUS : Nat := 6
/-- STORE_BUS_ERROR. -/
abbrev cSTORE_BUS : Nat := 7
/-- INTERRUPT. -/
abbrev cINTERRUPT : Nat := 8

/-- xstat.EXL. -/
def CoreSt.exl (c : CoreSt) : Bool := c.xstat.getLsbD 2
/-- xstat.IE. -/
def CoreSt.ie (c : CoreSt) : Bool := c.xstat.getLsbD 0

/-- xstat after an entry (R179): PIE := IE, IE := 0, PSS := SS, SS := NOT SS, EXL := 1, DS as given. -/
def xstatEntry (x : Word) (ds : Bool) : Word :=
  BitVec.ofNat 32 (b2n ds * 32 + getBits x 3 3 * 16 + (1 - getBits x 3 3) * 8 + 4 + getBits x 0 0 * 2)

/-- xstat after rfe (R180): EXL := 0, IE := PIE, SS := PSS, DS := 0. -/
def xstatReturn (x : Word) : Word := BitVec.ofNat 32 (getBits x 4 4 * 16 + getBits x 4 4 * 8 + getBits x 1 1 * 2 + getBits x 1 1)

/-- Entry into a handler (R179): `xcause` is the new word, `cause` chooses the vector, `addr` is the new xaddr. -/
def CoreSt.enter (c : CoreSt) (cause : Nat) (xcause addr : Word) : CoreSt :=
  { c with xpc := c.pc, xtgt := c.delay.getD 0#32, xcause := xcause, xaddr := addr, xstat := xstatEntry c.xstat c.delay.isSome
           pc := c.xvec + BitVec.ofNat 32 (cause * 0x40), delay := none, waiting := false, shield := false }

/-- A precise cause on the bundle at the pc of core `n`: the handler is entered, or with EXL = 1 the core stops (0 to 7) or the Steward restarts (8). Mark: DEDUCED (log 50). -/
def State.precise (s : State) (n cause kind addr : Nat) : State :=
  let c := s.core n
  if !c.exl then s.setCore n (c.enter cause (BitVec.ofNat 32 (kind * 256 + cause)) (BitVec.ofNat 32 addr))
  else if n = 8 then { s.setCore n { c with running := false } with boot.stwDue := some 4 }
  else
    let s := ((s.wr (F.IRQ_CORE_STAT_STOPPED n) 1).wr (F.IRQ_CORE_STAT_FATAL_CAUSE n) cause).wr (F.IRQ_CORE_STAT_FIRST_CAUSE n) (getBits c.xcause 5 0)
    (s.irq 208).post 0x5001 6 n [getBits c.xcause 5 0, c.xpc.toNat, cause, addr]

/-! ## Interrupts (R187 to R190) -/

/-- The source whose interrupt core `n` takes at this boundary. -/
def State.interruptDue (s : State) (n : Nat) : Option Nat :=
  let c := s.core n
  if s.live? && !s.coreHeld n && !c.exl && c.ie && !c.shield then s.chosenSource n else none

/-- Core `n` takes its interrupt. -/
def State.interruptEntry (s : State) (n : Nat) : State :=
  match s.interruptDue n with
  | some k =>
    let c := s.core n
    s.setCore n (c.enter cINTERRUPT (BitVec.ofNat 32 (2 ^ 31 + k * 2 ^ 16 + cINTERRUPT)) c.xaddr)
  | none => s

/-- A wait continues once a source enabled in ienable is pending, whatever IE and EXL say (R189). -/
def State.waitResume (s : State) (n : Nat) : State :=
  let c := s.core n
  if c.waiting && (s.chosenSource n).isSome then s.setCore n { c with waiting := false } else s

/-! ## Fetch (R156, R157) -/

/-- May core `n` fetch from an address? Its own CLR-I, Bedrock B0 and B1, and the Steward its boot ROM. -/
def canFetch (n a : Nat) : Bool :=
  decide (a < 0x10000) || (n == 8 && decide (0x20000 ≤ a) && decide (a < 0x30000)) || (inBedrock a && codeBank (bedBank a))

/-- Set of the instruction cache that a line falls in: 16 KiB in 4 ways of 64-byte lines has 64 sets. -/
def icSet (l : Nat) : Nat := l / 64 % 64

/-- The cache after the use of line `l`: it becomes the newest of its set, and the oldest of five in the set leaves. -/
def icTouch (ic : List Nat) (l : Nat) : List Nat :=
  let rest := ic.filter (· != l)
  let mine := rest.filter fun x => icSet x == icSet l
  let out := mine.drop 3
  l :: rest.filter fun x => !out.contains x

/-- One word of instructions: the word, or the KIND of the refusal. Mark: DESIGN CHOICE (log 45). -/
def State.fetchWord (s : State) (n a : Nat) : Except Nat Word × State :=
  let c := s.core n
  if !canFetch n a then (.error (if targetOf n a = .nothing then kindNoTarget else kindTarget), s)
  else if inBedrock a then
    let l := a / 64 * 64
    if c.icache.contains l then (.ok (BitVec.ofNat 32 (leNat (s.peek a 4))), s.setCore n { c with icache := icTouch c.icache l })
    else match s.colAdmit n l 64 .fetch with
      | (some k, s) => (.error k, s)
      | (none, s) => match s.bedRead l 64 with
        | (.error k, s) => (.error k, s)
        | (.ok _, s) => (.ok (BitVec.ofNat 32 (leNat (s.peek a 4))), s.setCore n { (s.core n) with icache := icTouch (s.core n).icache l })
  else match targetOf n a with
    | .clr _ _ => match s.ramRead n a (physAddr n a) 4 with
      | (.error k, s) => (.error k, s)
      | (.ok b, s) => (.ok (BitVec.ofNat 32 (leNat b)), s)
    | _ => (.ok (BitVec.ofNat 32 (leNat (s.peek a 4))), s)

/-- The syllables from `a` to the first stop bit, at most `fuel` and none beyond the 64-byte boundary; none as a result tells that no stop bit stands there. A refused fetch
answers its KIND and address. Mark: DEDUCED (log 44). -/
def State.fetchFrom (n : Nat) : Nat → Nat → List (Nat × Word) → State → Except (Nat × Nat) (Option (List (Nat × Word))) × State
  | 0, _, _, s => (.ok none, s)
  | fuel + 1, a, acc, s =>
    match s.fetchWord n a with
    | (.error k, s) => (.error (k, a), s)
    | (.ok w, s) =>
      if stopOf w then (.ok (some (acc ++ [(a, w)])), s)
      else if (a + 4) % 64 = 0 then (.ok none, s)
      else State.fetchFrom n fuel (a + 4) (acc ++ [(a, w)]) s

/-- Length in bytes of the bundle that stands at `a`, as memory holds it; none where it cannot be told. Mark: DESIGN CHOICE (log 42). -/
def State.bundleLen (s : State) (n a : Nat) : Option Nat :=
  if !canFetch n a then none
  else
    let room := min 8 ((64 - a % 64) / 4)
    ((List.range room).find? fun k => (s.mb (physAddr n (a + 4 * k + 3))).getLsbD 7).map fun k => 4 * (k + 1)

/-! ## Control registers (R154, R155) -/

/-- What mfc reads. -/
def State.creg (s : State) (n k : Nat) : DWord :=
  let c := s.core n
  if k = 0 then BitVec.ofNat 64 n else if k = 1 then zext32 c.cgear else if k = 2 then zext32 c.xvec else if k = 3 then zext32 c.xpc
  else if k = 4 then zext32 c.xtgt else if k = 5 then zext32 c.xcause else if k = 6 then zext32 c.xaddr else if k = 7 then zext32 c.xstat
  else if k = 8 then zext32 c.ienable else if k = 9 then zext32 (s.ipend n) else if k = 10 then zext32 c.cpoly else if k = 11 then c.ccount
  else s.st

/-- What mtc writes; a GEAR of 0 is ignored in FACTORY and REHEARSAL (R193). -/
def CoreSt.setCreg (c : CoreSt) (slow : Bool) (k : Nat) (v : DWord) : CoreSt :=
  let w : Word := v.setWidth 32
  if k = 1 then { c with cgear := if slow then c.cgear else w &&& 1#32 }
  else if k = 2 then { c with xvec := w &&& 0xFFFFF000#32 } else if k = 3 then { c with xpc := w } else if k = 4 then { c with xtgt := w }
  else if k = 5 then { c with xcause := w &&& 0x80FF0F3F#32 } else if k = 6 then { c with xaddr := w }
  else if k = 7 then { c with xstat := (w &&& 0x3B#32) ||| (c.xstat &&& 4#32) }
  else if k = 8 then { c with ienable := w } else if k = 10 then { c with cpoly := w } else if k = 11 then { c with ccount := v }
  else c

/-! ## Issuing (R147, R166 to R172, R175, R176) -/

/-- Access size of an L syllable. -/
def Syl.bytes (y : Syl) : Nat :=
  let op := y.op
  if op = 6 ∨ op = 0x16 ∨ 0x24 ≤ op then 8
  else if 8 ≤ op ∧ op ≤ 0xB then 2 ^ (op - 8)
  else if 0x18 ≤ op then 2 ^ (op - 0x18)
  else 2 ^ (op % 0x10 / 2)

/-- What an L syllable does. -/
inductive LKind where
  | load | store | atomic | lea | fence | fenceI
  deriving DecidableEq, Repr

/-- The kind of an L syllable's opcode. -/
def Syl.lkind (y : Syl) : LKind :=
  let op := y.op
  if op ≤ 6 ∨ (0x10 ≤ op ∧ op ≤ 0x16) then .load
  else if op = 0x20 then .lea
  else if op = 0x28 then .fence
  else if op = 0x29 then .fenceI
  else if 0x24 ≤ op then .atomic
  else .store

/-- Effective address, bits 31:0 of the sum. -/
def Syl.ea (y : Syl) (c : CoreSt) : Nat :=
  let a := c.get y.src1
  let sum : DWord := if y.lkind = .atomic then a else if y.op < 0x10 then a + y.imm else a + c.get y.src2 * BitVec.ofNat 64 y.bytes
  (sum.setWidth 32).toNat

/-- A loaded value, extended as the opcode says. -/
def Syl.extend (y : Syl) (v : Nat) : DWord :=
  let k := y.op % 0x10
  if k = 0 ∨ k = 2 ∨ k = 4 then BitVec.ofInt 64 (signed (8 * y.bytes) v) else BitVec.ofNat 64 v

/-- Does an L syllable address memory? -/
def Syl.touches (y : Syl) : Bool := y.lkind == .load || y.lkind == .store || y.lkind == .atomic

/-- How many of the oldest buffered stores must leave before the L syllable goes on (R159, R161, R166). -/
def drainsFor (c : CoreSt) (y : Syl) : Nat :=
  match y.lkind with
  | .load =>
    let e := y.ea c / 8
    ((List.range c.stores.length).filter fun k => match c.stores[k]? with
      | some b => b.addr.toNat / 8 == e
      | none => false).foldl (fun m k => max m (k + 1)) 0
  | .atomic | .fence => c.stores.length
  | .store => if y.ea c < 0x20000 then 0 else c.stores.length - 7
  | .lea | .fenceI => 0

/-- The access of an L syllable of core `n`: the value for its destination, or cause, KIND and address of the exception. -/
def State.access (s : State) (n : Nat) (c : CoreSt) (y : Syl) : Except (Nat × Nat × Nat) DWord × State :=
  let e := y.ea c
  match y.lkind with
  | .load => match s.busLoad n e y.bytes with
    | (.error k, s) => (.error (cLOAD_BUS, k, e), s)
    | (.ok b, s) => (.ok (y.extend (leNat b)), s)
  | .atomic =>
    let b := c.get y.src2
    let d := c.get y.dst
    match s.busAtomic n e (fun old => if y.op = 0x24 then some b else if y.op = 0x25 then some (old + b) else if old = b then some d else none) with
    | (.error k, s) => (.error (cLOAD_BUS, k, e), s)
    | (.ok old, s) => (.ok old, s)
  | .store =>
    let d := c.get y.dst
    if e < 0x20000 then
      match s.busStore n e (leBytes y.bytes d.toNat) with
      | (some k, s) => (.error (cSTORE_BUS, k, e), s)
      | (none, s) => (.ok 0, s)
    else
      let c' := s.core n
      (.ok 0, s.setCore n { c' with stores := c'.stores ++ [{ addr := BitVec.ofNat 32 e, size := y.bytes, data := d }] })
  | .lea => (.ok (c.get y.src1 + y.imm), s)
  | .fence => (.ok 0, s)
  | .fenceI => (.ok 0, s.setCore n { (s.core n) with icache := [] })

/-- The value a syllable of units A, M, L and X writes; `lv` is what its L syllable brought, `A` the bundle's address. -/
def Syl.result (y : Syl) (c : CoreSt) (A : Word) (lv : DWord) : DWord :=
  let a := c.get y.src1
  let b := c.get y.src2
  let d := c.get y.dst
  if isA y.unit then (if y.op < 0x20 then aluT y.op a b d else aluI y.op a y.imm A)
  else if y.unit = uM then mulOp y.op a b d
  else if y.unit = uL then lv
  else xOp y.op a b d c.cpoly y.src2 (y.mod + 1)

/-- The target of a taken transfer. -/
def Syl.target (y : Syl) (c : CoreSt) : Word :=
  if y.op = 4 ∨ y.op = 5 then (c.get y.src1).setWidth 32 else c.pc + ((y.imm <<< 2).setWidth 32)

/-- Is a transfer taken? -/
def Syl.taken (y : Syl) (c : CoreSt) : Bool :=
  if y.op = 1 then c.get y.src1 == 0 else if y.op = 2 then c.get y.src1 != 0 else if y.op = 6 then c.get y.dst - 1 != 0 else true

/-- The B syllable's part after the other writes: `c` is the core before the bundle, `k` the core that takes the writes; `lnk` is the address after the delay bundle, `nxt` the
address after this bundle. Where rfe continues at an address that is no multiple of 4, its bits 1:0 do not count. Mark: DESIGN CHOICE (log 41). -/
def State.finishB (s : State) (n : Nat) (c k : CoreSt) (y : Syl) (lnk nxt : Word) : State :=
  let op := y.op
  let slow := s.mode == .factory || s.mode == .rehearsal
  if op = 7 then
    s.setCore n { k with pc := c.xpc &&& 0xFFFFFFFC#32, delay := if c.xstat.getLsbD 5 then some (c.xtgt &&& 0xFFFFFFFC#32) else none
                         xstat := xstatReturn c.xstat, shield := true }
  else if op ≤ 6 then
    let k := if op = 3 ∨ op = 5 then k.set 63 (zext32 lnk) else if op = 6 then k.set y.dst (c.get y.dst - 1) else k
    s.setCore n { k with pc := nxt, delay := some (if y.taken c then y.target c else lnk), shield := false }
  else
    let k := { k with pc := c.delay.getD nxt, delay := none, shield := false }
    if op = 8 then s.setCore n (k.set y.dst (s.creg n y.src1))
    else if op = 9 then s.setCore n (k.setCreg slow y.dst (c.get y.src1))
    else s.setCore n { k with waiting := true }

/-- All the writes of a bundle whose checks and access have passed: every syllable reads before any writes (R147). The address after a delay bundle that cannot be read is free. -/
def State.retire (s : State) (n : Nat) (c : CoreSt) (ys : List Syl) (len : Nat) (lv : DWord) : State :=
  let k := ys.foldl (fun (k : CoreSt) y => if y.unit = uB then k else match y.writes with
    | some r => k.set r (y.result c c.pc lv)
    | none => k) (s.core n)
  let nxt : Word := c.pc + BitVec.ofNat 32 len
  match ys.find? fun y => y.unit == uB with
  | none => s.setCore n { k with pc := c.delay.getD nxt, delay := none, shield := false }
  | some y =>
    if 6 < y.op then s.finishB n c k y nxt nxt
    else match s.bundleLen n nxt.toNat with
    | some l => s.finishB n c k y (nxt + BitVec.ofNat 32 l) nxt
    | none => s.next.finishB n c k y (BitVec.ofNat 32 (s.draw / 4 * 4)) nxt

/-- A decoded bundle runs: rfe outside a handler, misalignment, then the access, then the writes. Which cause comes first where a bundle has both misalignments is not
stated. Mark: DESIGN CHOICE (log 11, 42, 43). -/
def State.runBundle (s : State) (n : Nat) (ys : List Syl) (len : Nat) : State :=
  let c := s.core n
  let jr := ys.find? fun y => y.unit == uB && (y.op == 4 || y.op == 5) && decide ((y.target c).toNat % 4 ≠ 0)
  let mem := ys.find? fun y => y.unit == uL && y.touches && decide (y.ea c % y.bytes ≠ 0)
  match ys.find? fun y => y.unit == uB && y.op == 7 && !c.exl with
  | some y => s.precise n cILLEGAL_OPCODE 0 y.addr
  | none => match jr, mem with
    | some y, none => s.precise n cFETCH_MISALIGN 0 (y.target c).toNat
    | none, some y => s.precise n cDATA_MISALIGN 0 (y.ea c)
    | some y, some z => if s.draw % 2 = 0 then s.next.precise n cFETCH_MISALIGN 0 (y.target c).toNat else s.next.precise n cDATA_MISALIGN 0 (z.ea c)
    | none, none =>
      match ys.find? fun y => y.unit == uL with
      | none => s.retire n c ys len 0
      | some y =>
        let s := s.drainStores n (drainsFor c y)
        if s.coreHeld n || (s.core n).pc != c.pc then s
        else
          let c := s.core n
          match s.access n c y with
          | (.error (cause, k, a), s) => s.precise n cause k a
          | (.ok v, s) => s.retire n c ys len v

/-- Core `n` issues the bundle at its pc. `cycles` is how many of its clock cycles passed since the last bundle issued, and `drains` how many stores left its buffer meanwhile: the
manual gives the times, the model takes them from outside. Every cycle but the bundle's own is a stall cycle, and a bundle that is fit to issue counts as issued (R428). Nothing issues while the core is held, stopped or waiting, or takes an interrupt instead (R190). Mark: DESIGN CHOICE (log 48, 49). -/
def State.bundleIssue (s : State) (n cycles drains : Nat) : State :=
  let s := if s.live? then s.drainStores n drains else s
  let c := s.core n
  if !s.live? || s.coreHeld n || c.waiting || (s.interruptDue n).isSome then s
  else
    let s := (s.setCore n { c with ccount := c.ccount + BitVec.ofNat 64 cycles }).observe 6 n (cycles - 1)
    let s := s.setFetchBank n c.pc.toNat
    State.settle (match State.fetchFrom n 8 c.pc.toNat [] s with
      | (.error (k, a), s) => s.precise n cFETCH_BUS k a
      | (.ok none, s) => s.precise n cILLEGAL_BUNDLE 0 c.pc.toNat
      | (.ok (some ws), s) =>
        match bundleOf ws c.delay.isSome with
        | none => s.precise n cILLEGAL_BUNDLE 0 c.pc.toNat
        | some ys => match ys.find? Syl.illegal with
          | some y => s.precise n cILLEGAL_OPCODE 0 y.addr
          | none => (s.observe 5 n 1).runBundle n ys (4 * ws.length))

/-! ## Copy enqueues (R122) -/

/-- The oldest copy enqueue under way is done: its bytes go to the slot at TAIL under Wings' own identity, and TAIL advances; a queue that is full by now counts it. -/
def State.copyDone (s : State) : State :=
  match s.wing.copies with
  | [] => s
  | c :: t => (State.place { s with wing.copies := t } 11 c.queue c.bytes).2

end Sys2Proof.Machine
end

