-- ==== Sys2Proof/Machine/Desk.lean ====
section
/-! DEFINITION. Command packets (R371 to R385): the host port's buffers, sessions, the checks a packet meets, commands in flight, replies. -/

namespace Sys2Proof.Machine

/-- Channel of the host port. -/
abbrev chanHost : Nat := 11

/-! ## Opcodes (R386) -/

/-- Rights, as bits of RIGHTS: R. Mark: PRESUMED (log 97). -/
abbrev rR : Nat := 1
/-- C. Mark: PRESUMED (log 97). -/
abbrev rC : Nat := 2
/-- K. Mark: PRESUMED (log 97). -/
abbrev rK : Nat := 4
/-- L. Mark: PRESUMED (log 97). -/
abbrev rL : Nat := 8

/-- A row of R386: opcode, right needed (0: none), modes by their codes, whether FACTORY stands in its Modes column, whether it is a Director's. -/
structure OpRow where
  op : Nat
  right : Nat
  modes : List Nat
  fa : Bool
  director : Bool
  deriving DecidableEq, Repr

/-- Every mode but CURTAIN. -/
def mAll : List Nat := [0, 1, 2, 3, 4]
/-- Every mode. -/
def mAny : List Nat := [0, 1, 2, 3, 4, 5]
/-- REHEARSAL, LEAD, UNDERSTUDY, INTERVAL. -/
def mRun : List Nat := [1, 2, 3, 4]
/-- REHEARSAL and INTERVAL. -/
def mRI : List Nat := [1, 4]

/-- A row that neither names FACTORY nor is a Director's. -/
def opRow (op right : Nat) (modes : List Nat) : OpRow := { op, right, modes, fa := false, director := false }

/-- The table of R386. The image opcodes stand with the modes of KIND 3 and 4; KIND 0 to 2 are checked on their own. -/
def opRows : List OpRow :=
  [opRow 0x0101 0 mAll, opRow 0x0102 0 mAll, opRow 0x0103 0 mAll, opRow 0x0104 rR mAll, opRow 0x0105 0 mAll,
   opRow 0x0201 0 mAny, opRow 0x0202 0 mAny, opRow 0x0203 0 mAny, opRow 0x0204 0 mAny,
   { opRow 0x0301 rC mAll with fa := true }, { opRow 0x0302 rC mAll with fa := true }, { opRow 0x0303 rC mAll with fa := true },
   opRow 0x0304 rC mRI, opRow 0x0305 rR mAll,
   opRow 0x0401 rC mRI, opRow 0x0402 rR mAll, { opRow 0x0403 rC [0, 1, 4] with fa := true }, opRow 0x0404 rC mAll,
   opRow 0x0501 rR mAll, opRow 0x0502 rC mRun, opRow 0x0503 rC mRun, opRow 0x0504 rC mRun, opRow 0x0505 rR mAll] ++
  [opRow 0x0601 rK mRun, opRow 0x0602 rK mRun, opRow 0x0603 rR mAll, opRow 0x0604 rK mRun, opRow 0x0605 rK [4], opRow 0x0606 rK mRun,
   opRow 0x0701 rC mRI, opRow 0x0702 rC [2], opRow 0x0703 rC [2, 3, 4], opRow 0x0704 rR mAll,
   opRow 0x0801 rC mRI, opRow 0x0802 rR mAll, { opRow 0x0803 rC mRun with director := true }, { opRow 0x0804 rC [2, 3] with director := true },
   { opRow 0x0805 0 mAll with director := true },
   opRow 0x0901 rR mAll, opRow 0x0902 rR mAll, opRow 0x0903 rC mAll, opRow 0x0904 rK mRI,
   opRow 0x0A01 rR mAll, opRow 0x0A02 rR mAll, opRow 0x0A03 rC mAll, opRow 0x0A04 rC mAll, opRow 0x0A05 rC mAll] ++
  [opRow 0x0B01 rR mAll, opRow 0x0B02 rR mAll, opRow 0x0B03 rC mRI, opRow 0x0B04 rC mAll, opRow 0x0B05 rC mRI,
   opRow 0x0C01 rK mRI, opRow 0x0C02 0 [5], opRow 0x0C03 rC mRun, opRow 0x0C04 rC [1, 3, 4], opRow 0x0C05 rL mRI, opRow 0x0C06 rL mRI,
   { opRow 0x0C07 rL [0] with fa := true }]

/-- The row of an opcode. -/
def opFind (op : Nat) : Option OpRow := opRows.find? fun r => r.op == op

/-- The group of an opcode. -/
def opGroup (op : Nat) : Nat := op / 256

/-- Groups served as they arrive (R375): identity and diagnostics. Mark: DEDUCED (log 93). -/
def freeGroup (g : Nat) : Bool := g == 2 || g == 0xB

/-- Opcodes that need no session (R380, R385). -/
def openOp (op : Nat) : Bool := op == 0x0101 || opGroup op == 2 || op == 0x0C02

/-- A length between two bounds. -/
def within (lo hi n : Nat) : Bool := decide (lo ≤ n) && decide (n ≤ hi)

/-- Does LEN fit the opcode's payload (R386)? A claim's SESSION_AUTH carries its public keys ahead of the signatures, in a length the manual does not give. -/
def lenFits (op n : Nat) (claim : Bool) : Bool :=
  if 8192 < n then false
  else if op = 0x0101 then n == 1282
  else if op = 0x0102 then (if claim then decide (3373 ≤ n) else n == 3373 || n == 4691)
  else if op = 0x0105 then decide (n ≤ 64)
  else if op = 0x0202 ∨ op = 0x0602 then n == 4
  else if op = 0x0203 then n == 32
  else if op = 0x0301 then n == 53
  else if op = 0x0302 then within 5 4100 n
  else if op = 0x0303 then n == 3373 || n == 4691
  else if op = 0x0304 ∨ op = 0x0701 ∨ op = 0x0703 ∨ op = 0x0801 ∨ op = 0x0A01 ∨ op = 0x0B03 then n == 1
  else if op = 0x0403 then n == 8
  else if op = 0x0501 ∨ op = 0x0503 then n == 3
  else if op = 0x0502 then n % 19 == 1 && within 20 1217 n
  else if op = 0x0601 then within 45 77 n && n % 8 == 5
  else if op = 0x0604 then n == 38 || n == 54
  else if op = 0x0606 then decide (n ≤ 4096)
  else if op = 0x0804 then n == 20
  else if op = 0x0805 then decide (17 ≤ n)
  else if op = 0x0901 ∨ op = 0x0902 ∨ op = 0x0904 ∨ op = 0x0B02 then n == 5
  else if op = 0x0903 then n == 19
  else if op = 0x0A02 then n == 23
  else if op = 0x0A03 then within 23 4118 n
  else if op = 0x0A04 then n == 17
  else if op = 0x0B04 then n == 3
  else if op = 0x0B05 then n == 7
  else if op = 0x0C01 then n == 80
  else if op = 0x0C02 then n == 3437
  else if op = 0x0C03 then n == 4
  else if op = 0x0C05 ∨ op = 0x0C06 then n == 16
  else if op = 0x0C07 then n == 17
  else n == 0

/-- Greatest length of an image of a KIND (R387, R400). -/
def imageRoom (kind : Nat) : Nat := if kind = 0 then 0x40000 else if kind ≤ 2 then 0x300000 else if kind = 3 then 0x40000 else 0x50000

/-- Is every field of a payload in range (R386)? -/
def fieldsFit (op : Nat) (b : List Byte) : Bool :=
  if op = 0x0301 then decide (byteAt b 0 ≤ 4) && within 1 (imageRoom (byteAt b 0)) (beAt b 1 4)
  else if op = 0x0302 then beAt b 0 4 % 4096 == 0
  else if op = 0x0304 then within 1 2 (byteAt b 0)
  else if op = 0x0501 then within 1 64 (byteAt b 2) && decide (beAt b 0 2 + byteAt b 2 ≤ 16384)
  else if op = 0x0502 then byteAt b 0 * 19 + 1 == b.length && (List.range (byteAt b 0)).all fun k => decide (beAt b (1 + 19 * k) 2 < 16384) && decide (byteAt b (3 + 19 * k) ≤ 1)
  else if op = 0x0503 then decide (byteAt b 0 ≤ 2) && decide (beAt b 1 2 < 16384)
  else if op = 0x0701 ∨ op = 0x0801 then decide (byteAt b 0 ≤ 2)
  else if op = 0x0703 then decide (byteAt b 0 < 8)
  else if op = 0x0805 then within 1 63 (byteAt b 0)
  else if op = 0x0901 then within 1 128 (byteAt b 4)
  else if op = 0x0902 then within 1 128 (byteAt b 4) && decide (beAt b 0 4 ≤ 131071)
  else if op = 0x0903 then decide (byteAt b 0 ≤ 5)
  else if op = 0x0904 then decide (byteAt b 4 < 2)
  else if op = 0x0A01 ∨ op = 0x0A04 then decide (byteAt b 0 ≤ 1)
  else if op = 0x0A02 then decide (byteAt b 0 ≤ 1) && within 1 4096 (beAt b 21 2)
  else if op = 0x0A03 then decide (byteAt b 0 ≤ 1) && decide (byteAt b 21 ≤ 1)
  else if op = 0x0B02 then within 1 64 (byteAt b 4) && beAt b 0 4 % 4 == 0
  else if op = 0x0B04 then decide (byteAt b 0 < 16) && decide (byteAt b 1 ≤ 8) && decide (byteAt b 2 ≤ 1)
  else if op = 0x0B05 then decide (byteAt b 0 ≤ 7) && decide (byteAt b 1 ≤ 1) && decide (byteAt b 2 ≤ 1) && byteAt b 6 % 4 == 0
  else if op = 0x0C03 then decide (byteAt b 0 ≤ 5) && decide (byteAt b 1 ≤ 1) && beAt b 2 2 == 0
  else if op = 0x0C07 then within 1 2 (byteAt b 16)
  else true

/-! ## Sessions (R379 to R383) -/

/-- Session `n`. -/
def State.sess (s : State) (n : Nat) : Option Sess := find? s.desk.sessions n

/-- Put session `n`. -/
def State.setSess (s : State) (n : Nat) (x : Option Sess) : State := { s with desk.sessions := put noneAt s.desk.sessions n x }

/-- Session `n` closes (R382): its keys go, its waiting commands are dropped, those that execute finish without a reply. -/
def State.closeSess (s : State) (n : Nat) : State :=
  match s.sess n with
  | none => s
  | some _ =>
    let s := ((s.setSess n none).disarm (.sessPending n)).disarm (.sessIdle n)
    { s with desk.cmds := (s.desk.cmds.filter fun c => !(c.sess == n && c.phase == 0)).map fun c => if c.sess = n then { c with mute := true } else c }

/-- Every session closes. -/
def State.closeAll (s : State) : State := (List.range 8).foldl State.closeSess s

/-- Is a session open on a transport? -/
def State.openOn (s : State) (n : Nat) (troupe : Bool) : Bool := (s.sess n).any fun x => x.state == 2 && x.troupe == troupe

/-- SEQ passes R383. -/
def Sess.fresh (x : Sess) (seq : Nat) : Bool :=
  seq != 0 && x.high != 0xFFFFFFFF && decide (x.high < seq + 64) && !(seq == x.high || x.seen.contains seq)

/-- SEQ is accepted: H and the map move. Mark: DEDUCED (log 94). -/
def Sess.take (x : Sess) (seq : Nat) : Sess :=
  let h := max x.high seq
  { x with high := h, seen := (if x.seen.contains x.high then seq :: x.seen else seq :: x.high :: x.seen).filter fun k => decide (h < k + 64) }

/-- The initialisation vector of a packet (R373). -/
def packetIv (reply : Bool) (n seq : Nat) : List Byte := beBytes 1 (if reply then 0x44 else 0x48) ++ beBytes 1 n ++ beBytes 6 0 ++ beBytes 4 seq

/-! ## Replies (R371, R374, R377) -/

/-- Bytes that replies hold in the outbound buffer. -/
def outFill (l : List (List Byte)) : Nat := l.foldl (fun n b => n + b.length) 0

/-- Replies that wait for room enter the outbound buffer of 32 KiB, in order. -/
def pullHeld : Nat → List (List Byte) → List (List Byte) → List (List Byte) × List (List Byte)
  | 0, out, held => (out, held)
  | _ + 1, out, [] => (out, [])
  | k + 1, out, b :: t => if outFill out + b.length ≤ 32768 then pullHeld k (out ++ [b]) t else (out, b :: t)

/-- Replies enter the buffer as room allows. -/
def State.fillOut (s : State) : State :=
  let r := pullHeld s.desk.held.length s.desk.out s.desk.held
  { s with desk.out := r.1, desk.held := r.2 }

/-- A reply packet leaves on its transport: into the host port's outbound buffer, or to the Director in a COMMAND message. Mark: DESIGN CHOICE (log 95). -/
def State.replyOut (s : State) (troupe : Bool) (p : List Byte) : State :=
  if troupe then
    match s.session 0 with
    | some k => s.troupeSend 0x0B 1 (some 0) k p
    | none => s
  else State.fillOut { s with desk.held := s.desk.held ++ [p] }

/-- Header of a reply. -/
def replyHead (prot : Bool) (n st op len seq rseq : Nat) : List Byte :=
  beBytes 1 1 ++ beBytes 1 (128 + 64 * b2n prot) ++ beBytes 1 n ++ beBytes 1 st ++ beBytes 2 op ++ beBytes 2 len ++ beBytes 4 seq ++ beBytes 4 rseq

/-- A reply under session `n`, encrypted and counted; none where the session has gone. -/
def State.replyProt (s : State) (n op seq st : Nat) (payload : List Byte) : State :=
  match s.sess n with
  | none => s
  | some x =>
    let r := x.rseq + 1
    let h := replyHead true n st op payload.length seq r
    (s.setSess n (some { x with rseq := r })).replyOut x.troupe (h ++ gcmSeal x.krep (packetIv true n r) h payload)

/-- A reply with PROT = 0: within an open session its RSEQ counts; outside any, the manual gives RSEQ no value. -/
def State.replyClear (s : State) (troupe : Bool) (n op seq st : Nat) (payload : List Byte) : State :=
  if s.openOn n troupe then
    match s.sess n with
    | some x => (s.setSess n (some { x with rseq := x.rseq + 1 })).replyOut troupe (replyHead false n st op payload.length seq (x.rseq + 1) ++ payload)
    | none => s
  else s.next.replyOut troupe (replyHead false n st op payload.length seq s.draw ++ payload)

/-- The reply to a command in flight. -/
def State.answer (s : State) (c : Cmd) (st : Nat) (payload : List Byte) : State :=
  if c.mute then s
  else if c.prot then s.replyProt c.sess c.op c.seq st payload
  else s.next.replyOut c.troupe (replyHead false c.sess st c.op payload.length c.seq s.draw ++ payload)

/-- An AUTH_FAIL or REPLAY of session `n` is counted and booked; the sixteenth AUTH_FAIL closes it (R382, R384). -/
def State.countBad (s : State) (n : Nat) (auth : Bool) : State :=
  let s := s.postLim 0xD0030000 0xD003 5 8 [n, b2n auth]
  match s.sess n with
  | none => s
  | some x =>
    if auth then
      let s := s.setSess n (some { x with fails := x.fails + 1 })
      if 16 ≤ x.fails + 1 then s.closeSess n else s
    else s.setSess n (some { x with replays := x.replays + 1 })

/-! ## A packet arrives (R384) -/

/-- A Stage Manager status for an image opcode in a mode that its KIND does not allow; IMG_WRITE and IMG_COMMIT act on the transfer last begun. -/
def State.imageModeOk (s : State) (op : Nat) (b : List Byte) : Bool :=
  if op = 0x0301 then imageModes (byteAt b 0) s.mode
  else if op = 0x0302 ∨ op = 0x0303 then imageModes (s.desk.xfer.getD 3) s.mode
  else true

/-- Row 7: the rights. `x` is the session, if the command came under one. In FACTORY, the opcodes listed for it are served to Octust's service sessions only. -/
def State.rightsOk (s : State) (r : OpRow) (x : Option Sess) : Bool :=
  match x with
  | none => r.right == 0
  | some x =>
    (r.right == 0 || x.rights / r.right % 2 == 1 || (r.op == 0x0C01 && x.entry == 255)) && (!(r.fa && s.mode == .factory) || x.service)

/-- Row 8: the mode, and for some opcodes the Director's role. Mark: DESIGN CHOICE (log 124). -/
def State.modeOk (s : State) (r : OpRow) (b : List Byte) : Bool :=
  r.modes.contains s.mode.code && s.imageModeOk r.op b && (!r.director || s.isDirector)

/-- Rows 9 and 10. -/
def State.roomOk (s : State) (op : Nat) : Bool := decide (s.desk.cmds.length < 64) && (op != 0x0101 || (List.range 8).any fun n => (s.sess n).isNone)

/-- Rows 7 to 10 for a command whose payload is readable: 0 where all pass. Mark: DEDUCED (log 94). -/
def State.lateChecks (s : State) (r : OpRow) (x : Option Sess) (b : List Byte) : Nat :=
  if !s.rightsOk r x then scDENIED
  else if !s.modeOk r b then scWRONG_MODE
  else if !s.roomOk r.op then scBUSY
  else if !lenFits r.op b.length (x.any fun x => x.entry == 255) then scBAD_LENGTH
  else if !fieldsFit r.op b then scBAD_PARAM
  else scOK

/-- A command goes in flight: it waits in its group, or executes at once where its group is served as it arrives. -/
def State.takeCmd (s : State) (c : Cmd) : State :=
  { s with desk.cmds := s.desk.cmds ++ [if freeGroup (opGroup c.op) then { c with phase := 1, size := 0 } else c] }

/-- A packet that arrived on a transport meets the checks of R384; `size` is what it holds of the inbound buffer while it waits. Mark: DESIGN CHOICE (log 95). -/
def State.packet (s : State) (troupe : Bool) (p : List Byte) (size : Nat) : State :=
  let prot := bit (byteAt p 1) 6
  let n := byteAt p 2
  let op := beAt p 4 2
  let seq := beAt p 8 4
  let len := beAt p 6 2
  if p.length ≠ 16 + len + 16 * b2n prot then s.replyClear troupe n op seq scBAD_LENGTH []
  else if s.mode = .curtain ∧ !(opGroup op == 2 || op == 0x0C02) then s.replyClear troupe n op seq scCURTAINED []
  else match opFind op with
    | none => s.replyClear troupe n op seq scBAD_OPCODE []
    | some r =>
      let x := if prot then (s.sess n).filter fun x => x.troupe == troupe && x.state == (if op = 0x0102 then 1 else 2) else none
      match x with
      | none =>
        if prot || !openOp op then s.replyClear troupe n op seq scNO_SESSION []
        else
          let b := p.drop 16
          let st := s.lateChecks r none b
          if st ≠ scOK then s.replyClear troupe 255 op seq st []
          else s.takeCmd { op, sess := 255, troupe, prot := false, seq, body := b, size, phase := 0, mute := false, note := [] }
      | some x =>
        match gcmOpen x.kcmd (packetIv false n seq) (p.take 16) (p.drop 16) with
        | none => (s.replyClear troupe n op seq scAUTH_FAIL []).countBad n true
        | some b =>
          if !x.fresh seq then (s.replyClear troupe n op seq scREPLAY []).countBad n false
          else
            let s := s.setSess n (some (x.take seq))
            let s := if x.state = 2 then s.arm (.sessIdle n) (600 * ticksPerSecond) else s
            let st := s.lateChecks r (some x) b
            if st ≠ scOK then s.replyProt n op seq st []
            else s.takeCmd { op, sess := n, troupe, prot := true, seq, body := b, size, phase := 0, mute := false, note := [] }

/-! ## The host port (R376, R377) -/

/-- Bytes that waiting packets hold of the inbound buffer. -/
def State.inFill (s : State) : Nat := s.desk.cmds.foldl (fun n c => n + c.size) 0

/-- The port answers: it is enabled and supplied. -/
def State.hostOn (s : State) : Bool := s.live? && s.flag F.HOST_CFG_EN && !s.boot.auxLost

/-- RX_READY: room for a packet of 8,224 bytes, and the Stage Manager runs. -/
def State.rxReady (s : State) : Bool := s.hostOn && s.desk.running && decide (s.inFill + 8224 ≤ 32768)

/-- The status word of READ_STATUS. -/
def State.hostStatus (s : State) : Word :=
  BitVec.ofNat 32 (b2n s.rxReady * 2 ^ 31 + b2n (!s.desk.out.isEmpty) * 2 ^ 30 + b2n s.desk.err * 2 ^ 29 + (s.desk.out.headD []).length)

/-- The level of HOST_INTN: low while a reply waits or ERR is set. -/
def State.hostIntN (s : State) : Bool := s.desk.out.isEmpty && !s.desk.err

/-- ERR is set: counted, source 174. Mark: DESIGN CHOICE (log 96). -/
def State.hostErr (s : State) : State := State.irq { s.sat F.HOST_CNT_FRAME_ERR with desk.err := true } 174

/-- WRITE or QWRITE of bytes. Mark: DESIGN CHOICE (log 96). -/
def State.hostWrite (s : State) (quad : Bool) (p : List Byte) : State :=
  if !s.live? || s.boot.auxLost || (quad && !s.flag F.HOST_CFG_QUAD_EN) then s
  else if !s.rxReady || decide (p.length < 16) || byteAt p 0 != 1 then s.hostErr
  else if p.length ≠ 16 + beAt p 6 2 + 16 * b2n (bit (byteAt p 1) 6) then s.hostErr.packet false p 0
  else ((s.wrap F.HOST_CNT_PACKETS).irq 172).packet false p p.length

/-- READ or QREAD that clocks out `n` bytes after the dummy clocks: the oldest reply, then 0x00, removed once its last byte is out; source 173 as the buffer drains below 16 KiB. -/
def State.hostRead (s : State) (quad : Bool) (n : Nat) : State :=
  if !s.hostOn || (quad && !s.flag F.HOST_CFG_QUAD_EN) then s
  else match s.desk.out with
    | [] => s.send chanHost (if quad then 0x6B else 0x03) (List.replicate n 0#8)
    | b :: t =>
      let s := s.send chanHost (if quad then 0x6B else 0x03) (padTo n b)
      if n < b.length then s
      else
        let was := outFill s.desk.out
        let s := State.fillOut { s with desk.out := t }
        if 16384 ≤ was ∧ outFill s.desk.out < 16384 then s.irq 173 else s

/-- READ_STATUS: the status word, and ERR clears. -/
def State.hostReadStatus (s : State) : State :=
  if !s.hostOn then s
  else
    let w := s.hostStatus
    let s := s.send chanHost 0x05 (beBytes 4 w.toNat)
    { s with rdata := zext32 w, desk.err := false }

/-! ## Execution (R374, R375, R384) -/

/-- What a command comes to: a final status with its payload, or ACCEPTED with a payload and what its completion needs. -/
inductive Ans where
  | done (st : Nat) (payload : List Byte)
  | accepted (note : List Nat) (payload : List Byte)
  deriving DecidableEq, Repr

/-- A final reply without a payload. -/
def fin (st : Nat) : Ans := .done st []

/-- The place of the oldest command of an opcode that executes. -/
def State.executing (s : State) (op : Nat) : Option Nat := (List.range s.desk.cmds.length).find? fun i => s.desk.cmds[i]?.any fun c => c.op == op && c.phase == 1

/-- The executing command of an opcode. -/
def State.execCmd (s : State) (op : Nat) : Option Cmd := (s.executing op).bind fun i => s.desk.cmds[i]?

/-- A command in flight with an answer: the final reply ends it, ACCEPTED leaves it in flight. Mark: DEDUCED (log 93). -/
def State.conclude (s : State) (i : Nat) (c : Cmd) (a : Ans) : State :=
  match a with
  | .done st p => if st = scAUTH_FAIL ∧ c.op ≠ 0x0102 ∧ !c.mute then (s.answer c st p).countBad c.sess true else s.answer c st p
  | .accepted note p =>
    let s := s.answer c scACCEPTED p
    { s with desk.cmds := s.desk.cmds.take i ++ { c with phase := 2, note := note } :: s.desk.cmds.drop i }

/-- Take the command at a place out of flight. -/
def State.dropCmd (s : State) (i : Nat) : State := { s with desk.cmds := s.desk.cmds.eraseIdx i }

/-- The oldest executing command of an opcode is served by `f`. -/
def State.serve (s : State) (op : Nat) (f : State → Cmd → Ans × State) : State :=
  match s.executing op with
  | none => s
  | some i => match s.desk.cmds[i]? with
    | none => s
    | some c =>
      let r := f (s.dropCmd i) c
      r.2.conclude i c r.1

/-- The base queue of the service queues. -/
def State.svcBase (s : State) : Nat := Config.serviceQueue s.cfg

/-- A service request waits in a queue. -/
def State.svcWaits (s : State) : Bool := (List.range 9).any fun n => (s.queue (s.svcBase + n)).v && decide (0 < (s.queue (s.svcBase + n)).fill)

/-- A command that waited in group `g` starts, once no other of its group executes and no act's service request waits (R23, R375); rights and mode are checked again. -/
def State.startCmd (s : State) (g : Nat) : State :=
  if s.svcWaits || s.desk.cmds.any fun c => opGroup c.op == g && c.phase == 1 then s
  else match (List.range s.desk.cmds.length).find? fun i => s.desk.cmds[i]?.any fun c => opGroup c.op == g && c.phase == 0 with
    | none => s
    | some i => match s.desk.cmds[i]? with
      | none => s
      | some c =>
        let x := if c.sess < 8 then s.sess c.sess else none
        let st := match opFind c.op with
          | none => scBAD_OPCODE
          | some r => if !s.rightsOk r x then scDENIED else if !s.modeOk r c.body then scWRONG_MODE else scOK
        if st ≠ scOK then (s.dropCmd i).answer c st []
        else { s with desk.cmds := setNth s.desk.cmds i { c with phase := 1, size := 0 } }

/-- A PENDING session is freed 10 s after its reply (R380). -/
def State.pendingOver (s : State) (n : Nat) : State := s.closeSess n

/-- A session ends after 600 s without a command (R382). -/
def State.idleOver (s : State) (n : Nat) : State := s.closeSess n

end Sys2Proof.Machine
end

