-- ==== Sys2Proof/Machine/DeskA.lean ====
section
/-! DEFINITION. The opcodes of groups 0x01 to 0x06 (R380 to R387): sessions, identity, images, configuration and time, cues, keys. -/

namespace Sys2Proof.Machine

/-! ## Helpers -/

/-- Words of registers as master 8 reads them, big-endian, in order. -/
def State.words (s : State) (l : List Nat) : List Byte × State :=
  l.foldl (fun acc a => match acc.2.regRead 8 a with
    | (.ok w, s) => (acc.1 ++ beBytes 4 w.toNat, s)
    | (.error _, s) => (acc.1 ++ beBytes 4 0, s)) ([], s)

/-- A register write of the Stage Manager. -/
def State.put8 (s : State) (a : Nat) (w : Word) : State := (s.regWrite 8 a w).2

/-- A status that the manual does not state: one of the codes of R372. Mark: DESIGN CHOICE (log 102). -/
def State.freeStatus (s : State) : Nat :=
  let l := [scOK, scBAD_OPCODE, scBAD_LENGTH, scBAD_PARAM, scAUTH_FAIL, scNO_SESSION, scREPLAY, scWRONG_MODE, scBUSY, scDENIED, scSELF_TARGET, scVERIFY_FAIL,
    scSTORAGE_FAIL, scCURTAINED]
  l.getD (s.draw % l.length) scOK

/-- CRK stands: register 2 is loaded (R331). -/
def State.crk (s : State) : Option (List Byte) := (s.mkey 2).map (·.bytes)

/-- The storage key-encryption key of a generation (R330). -/
def kekOf (crk : List Byte) (g : Nat) : List Byte := derive crk (label [0x4B, 0x45, 0x4B]) (beBytes 4 g) 32

/-! ## Sessions (R380 to R382) -/

/-- RIGHTS of an operator entry on a transport and whether it is a service session of Octust; none where it may not open a session: the claim while OTP is blank, Octust's entries in
FACTORY, the entries of the configuration, and without any configuration the owner (R379, R381, R386, R408). Mark: DESIGN CHOICE (log 105). -/
def State.entryRights (s : State) (e : Nat) (troupe : Bool) : Option (Nat × Bool) :=
  if e = 255 then (if s.otp.owner.isEmpty && !troupe then some (rR, false) else none)
  else
    let v := if s.mode = .factory then Config.serviceEntry e else if s.cfg = 0 then (if s.otp.owner.isEmpty then 0 else rR + rC + 16 + 32) else if 16 ≤ e then 0 else Config.opEntry s.cfg e
    if bit v (if troupe then 5 else 4) then some (v % 16, s.mode == .factory) else none

/-- SESSION_OPEN: a PENDING session, its keys, and the reply that signs T. While the Scree delivers nothing no nonce and no keys can be drawn (R329), and the status is not stated. Mark: DESIGN CHOICE (log 102). -/
def State.sessionOpen (s : State) : State :=
  s.serve 0x0101 fun s c =>
    let e := byteAt c.body 0
    match s.entryRights e c.troupe with
    | none => (fin scDENIED, s)
    | some (r, svc) =>
      if !s.entropyOk then (fin s.freeStatus, s.next)
      else match (List.range 8).find? fun n => (s.sess n).isNone with
      | none => (fin scBUSY, s)
      | some n =>
        let p := beBytes 1 n ++ padTo 1185 (Config.sessReply c.body s.draw)
        let t := sha256 (c.body ++ p)
        let k := shake256 96 (padTo 64 (Config.sessSecrets c.body s.draw) ++ t)
        let x : Sess := { state := 1, troupe := c.troupe, entry := e, service := svc, rights := r, kcmd := sliceB k 0 32, krep := sliceB k 32 32, kxfer := sliceB k 64 32,
                          digest := t, high := 0, seen := [], rseq := 0, fails := 0, replays := 0 }
        let s := ((s.next.setSess n (some x)).arm (.sessPending n) (10 * ticksPerSecond))
        (.done scOK (p ++ padTo 3373 (Config.identitySign t)), s)

/-- The opener's signatures verify: over T and the four bytes 0x41_55_54_48. Mark: DESIGN CHOICE (log 105). -/
def State.openerOk (s : State) (x : Sess) (b : List Byte) : Bool :=
  let m := x.digest ++ beBytes 4 0x41555448
  if x.entry = 255 then Config.claimVerifies m b
  else if s.cfg = 0 ∧ s.mode ≠ .factory then Config.ownerVerifies s.otp.owner m b
  else Config.operatorVerifies s.cfg x.entry m b

/-- SESSION_AUTH: the session opens, or is freed; the verification is taken twice (R332), and `agree` tells that both agree. -/
def State.sessionAuth (s : State) (agree : Bool) : State :=
  let c := s.execCmd 0x0102
  let n := (c.map (·.sess)).getD 255
  let s := s.serve 0x0102 fun s c =>
    match s.sess c.sess with
    | none => (fin scNO_SESSION, s)
    | some x =>
      let r := s.twice agree
      if r.1 && s.openerOk x c.body then
        let s := ((r.2.setSess c.sess (some { x with state := 2 })).disarm (.sessPending c.sess)).arm (.sessIdle c.sess) (600 * ticksPerSecond)
        (.done scOK (beBytes 1 x.rights), s.post 0xD001 3 8 [x.entry])
      else (fin scAUTH_FAIL, r.2.post 0xD002 5 8 [x.entry])
  if (s.sess n).any fun x => x.state == 1 then s.closeSess n else s

/-- SESSION_CLOSE: the reply, then the close. -/
def State.sessionClose (s : State) : State :=
  match s.execCmd 0x0103 with
  | none => s
  | some c => (s.serve 0x0103 fun s _ => (fin scOK, s)).closeSess (if c.mute then 255 else c.sess)

/-- SESSION_INFO: for each open session its transport (0 host port, 1 station bus), operator entry, RIGHTS and commands in flight (a byte each), and H (4). -/
def State.sessionInfo (s : State) : State :=
  s.serve 0x0104 fun s _ =>
    let row := fun n => match s.sess n with
      | some x => if x.state = 2 then
          beBytes 1 (b2n x.troupe) ++ beBytes 1 x.entry ++ beBytes 1 x.rights ++ beBytes 1 (s.desk.cmds.filter fun c => c.sess == n).length ++ beBytes 4 x.high
        else []
      | none => []
    (.done scOK ((List.range 8).flatMap row), s)

/-- PING. -/
def State.pingCmd (s : State) : State := s.serve 0x0105 fun s c => (.done scOK c.body, s)

/-! ## Identity -/

/-- ID_GET. -/
def State.idGet (s : State) : State :=
  s.serve 0x0201 fun s _ =>
    (.done scOK (serial16 ++ beBytes 1 s.lifecycle.code ++ beBytes 1 s.mode.code ++ beBytes 1 (s.rd F.SYS_STATE_PAIR_ROLE) ++ beBytes 1 (s.rd F.SYS_STATE_TROUPE_ROLE)
      ++ s.fingerprint ++ beBytes 4 (Config.stewardVersion (s.rd F.SYS_BOOT_SM_COPY)) ++ s.idDigests), s)

/-- ID_CERT: the certificate stands at the start of Bedrock B0 (R400). -/
def State.idCert (s : State) : State :=
  s.serve 0x0202 fun s c =>
    let o := beAt c.body 0 4
    let len := Config.certLength (s.peek 0x20000000 0x10000) % 65537
    if len < o then (fin scBAD_PARAM, s) else (.done scOK (beBytes 4 len ++ s.peek (0x20000000 + o) (min 4096 (len - o))), s)

/-- ID_ATTEST. -/
def State.idAttest (s : State) : State :=
  s.serve 0x0203 fun s c =>
    let m := serial16 ++ c.body ++ beBytes 4 (s.reg A.SYS_STATE).toNat ++ beBytes 8 s.now ++ beBytes 4 (s.reg A.REFUGE_STAT).toNat ++ s.idDigests
    (.done scOK (m ++ padTo 3373 (Config.identitySign m)), s.next)

/-- ID_CHALLENGE. -/
def State.idChallenge (s : State) : State :=
  s.serve 0x0204 fun s _ =>
    let ch := if s.mode = .curtain then s.challenge else List.replicate 32 0#8
    (.done scOK (ch ++ beBytes 4 (s.rd F.REFUGE_STAT_TOTAL) ++ beBytes 4 (s.reg A.CURTAIN_STAT).toNat ++ beBytes 4 (s.reg A.CURTAIN_HIST).toNat), s)

/-! ## Images (R387, R400) -/

/-- Where an image of a KIND lies. -/
def imageBase (kind : Nat) : Nat :=
  if kind = 0 then 0x20080000 else if kind = 1 then 0x200C0000 else if kind = 2 then 0x204C0000 else if kind = 3 then 0x20800000 else 0x20880000

/-- One program command of the Stage Manager, run to its end; `ok` is false where it does not verify. -/
def State.brkNow (s : State) (op a : Nat) (d : List Byte) (ok : Bool) : Nat × State :=
  let st := s.brkCheck 8 op a
  if st ≠ scACCEPTED then (st, s.brkRefuse 8 op a st)
  else
    let r := s.brkEffect { master := 8, page := none, op, bank := bedBank a, addr := a, src := 0, data := some d, started := true } ok
    let s := r.2.brkInvalidate op a
    (r.1, s.irq (if r.1 = scOK then 144 else 145))

/-- IMG_BEGIN erases the area that the image takes, since a page is programmed only once it is EMPTY (R362, R366); the first result other than OK ends it and is its status. Mark: DESIGN CHOICE (log 99). -/
def State.eraseArea (s : State) (kind : Nat) : Nat × State :=
  let b := blockLen (bedBank (imageBase kind))
  (List.range (imageRoom kind / b)).foldl (fun acc i => if acc.1 = scOK then acc.2.brkNow opERASE (imageBase kind + i * b) [] true else acc) (scOK, s)

/-- IMG_BEGIN. -/
def State.imgBegin (s : State) : State :=
  s.serve 0x0301 fun s c =>
    let k := byteAt c.body 0
    if (k = 1 ∨ k = 2) ∧ s.actKind = k ∨ k = 0 ∧ s.actKind = 0 ∧ s.flag F.SYS_BOOT_EARLY_OK then (fin scSELF_TARGET, s)
    else
      let r := s.eraseArea k
      let s := r.2.setImg k { state := if r.1 = scOK then 1 else 3, len := beAt c.body 1 4, digest := sliceB c.body 5 48, version := 0 }
      (fin r.1, { s with desk.xfer := some k })

/-- Program bytes page by page, or pair by pair in a data bank; the first result other than OK ends it. Mark: DESIGN CHOICE (log 99). -/
def State.programAt (s : State) (a : Nat) (d : List Byte) (ok : Bool) : Nat × State :=
  let b := bedBank a
  let n := if codeBank b then pageLen b else 2 * pageLen b
  (List.range ((d.length + n - 1) / n)).foldl (fun acc i =>
    if acc.1 = scOK then acc.2.brkNow (if codeBank b then opPROGRAM else opSAFE) (a + i * n) (sliceB d (i * n) n) ok else acc) (scOK, s)

/-- IMG_WRITE continues the transfer last begun. Mark: DESIGN CHOICE (log 99). -/
def State.imgWrite (s : State) (ok : Bool) : State :=
  s.serve 0x0302 fun s c =>
    match s.desk.xfer with
    | none => (fin scBAD_PARAM, s)
    | some k =>
      let x := s.img k
      let o := beAt c.body 0 4
      if x.state = 4 then (fin scWRONG_MODE, (s.setImg k Img.none))
      else if x.state ≠ 1 ∨ x.len < o + (c.body.length - 4) then (fin scBAD_PARAM, s)
      else
        let r := s.programAt (imageBase k + o) (c.body.drop 4) ok
        (fin r.1, r.2)

/-- IMG_COMMIT is answered ACCEPTED; the verification follows. -/
def State.imgCommit (s : State) : State :=
  s.serve 0x0303 fun s _ =>
    match s.desk.xfer with
    | none => (fin scBAD_PARAM, s)
    | some k => if (s.img k).state = 4 then (fin scWRONG_MODE, s.setImg k Img.none) else if (s.img k).state ≠ 1 then (fin scBAD_PARAM, s) else (.accepted [k] [], s)

/-- The verification of IMG_COMMIT: the image reads back without an uncorrectable line, its digest, then both signatures, taken twice. A configuration is checked under the owner, acts and cue tables under the active configuration. -/
def State.imgCommitEnd (s : State) (c : Cmd) (agree : Bool) : Ans × State :=
  let k := nth c.note 0
  let x := s.img k
  let bytes := s.peek (imageBase k) x.len
  let r := s.twice agree
  let good := !((bedLines (imageBase k) x.len).any s.brk.badLines.contains) && sha384 bytes == x.digest && Config.imageVerifies k (if k = 3 then 0 else s.cfg) (if k = 3 then s.otp.owner else []) x.digest c.body
  if r.1 && good then
    let s := r.2.setImg k { x with state := 2, version := Config.imageVersion k x.digest }
    (fin scOK, { s with desk.xfer := none, desk.storedCfg := if k = 3 then beNat x.digest else s.desk.storedCfg })
  else (fin scVERIFY_FAIL, { r.2.setImg k { x with state := 3 } with desk.xfer := none })

/-- IMG_SELECT. -/
def State.imgSelect (s : State) : State := s.serve 0x0304 fun s c => (fin scOK, { s with desk.selected := byteAt c.body 0 })

/-- IMG_LIST: for each KIND its state, length (4), digest (48), version (4), selected flag. -/
def State.imgList (s : State) : State :=
  s.serve 0x0305 fun s _ =>
    (.done scOK ((List.range 5).flatMap fun k =>
      let x := s.img k
      beBytes 1 x.state ++ beBytes 4 x.len ++ padTo 48 x.digest ++ beBytes 4 x.version ++ beBytes 1 (b2n (k == s.desk.selected))), s)

/-! ## Configuration and time -/

/-- The blocks whose staging copies a configuration writes. -/
def cfgBlocks (n : Nat) : List Nat := pairedBlocks.filter fun b => (Config.cfgWrites n).any fun w => decide (b ≤ w.1) && decide (w.1 < b + 0x10000)

/-- The register writes of a configuration. -/
def State.cfgStage (s : State) (n : Nat) : State := (Config.cfgWrites n).foldl (fun (s : State) w => s.put8 w.1 (BitVec.ofNat 32 w.2)) s

/-- The configuration that is applied becomes the previous one, whose area then holds the stored one's pages (R400). Mark: DEDUCED (log 160). -/
def State.keepConfig (s : State) (n : Nat) : State :=
  if s.desk.prevCfg = n then s
  else
    let s := (List.range 4).foldl (fun (s : State) i => (s.wipeBlock (0x20840000 + 0x10000 * i)).countErase (0x20840000 + 0x10000 * i) 2) s
    (List.range 128).foldl (fun (s : State) i =>
      if s.pageState (0x20800000 + 2048 * i) = 1 then s.writePage (0x20840000 + 2048 * i) (s.peek (0x20800000 + 2048 * i) 2048) else s) { s with desk.prevCfg := n }

/-- CFG_APPLY: the staging copies, then a GO with WHEN = 0b01 for every block concerned. -/
def State.cfgApply (s : State) : State :=
  s.serve 0x0401 fun s _ =>
    let n := s.desk.storedCfg
    if n = 0 ∨ (s.img 3).state ≠ 2 then (fin scVERIFY_FAIL, s)
    else if (cfgBlocks n).any s.pendingIn then (fin scBUSY, s)
    else
      let s := (cfgBlocks n).foldl (fun (s : State) b => s.blockGo b 1 0) (s.cfgStage n)
      if (cfgBlocks n).all s.pendingIn then (.accepted [n] [], s) else (fin s.freeStatus, s.next)

/-- Sessions whose operator entry the configuration no longer holds close. -/
def State.dropEntries (s : State) : State :=
  (List.range 8).foldl (fun (s : State) n => match s.sess n with
    | some x => if x.entry ≠ 255 ∧ (s.entryRights x.entry x.troupe).isNone then s.closeSess n else s
    | none => s) s

/-- The configuration is in force once no commit of it is pending any more. -/
def State.cfgApplyEnd (s : State) (c : Cmd) : Option (Ans × State) :=
  let n := nth c.note 0
  if (cfgBlocks n).any s.pendingIn then none
  else if (cfgBlocks n).any fun b => s.flag (F.BLOCK_COMMIT_STATUS_ABORTED b) then some (fin s.freeStatus, s.next)
  else some (fin scOK, State.dropEntries { s.keepConfig n with cfg := n })

/-- CFG_INFO: stored and active digests (48) and versions (4), and RIGHTS of the 16 operator entries. -/
def State.cfgInfo (s : State) : State :=
  s.serve 0x0402 fun s _ =>
    let d := fun n => beBytes 48 n ++ beBytes 4 (Config.imageVersion 3 (beBytes 48 n))
    (.done scOK (d s.desk.storedCfg ++ d s.cfg ++ (List.range 16).flatMap fun e => beBytes 1 (Config.opEntry s.cfg e % 16)), s)

/-- TIME_STEP: STIME_STEP and STEP_GO (R48). -/
def State.timeStep (s : State) : State :=
  s.serve 0x0403 fun s c =>
    if s.flag F.STIME_STATE_STEP_PENDING then (fin scBUSY, s)
    else
      let s := (s.setReg A.STIME_STEP_LO (BitVec.ofNat 32 (beAt c.body 4 4))).setReg A.STIME_STEP_HI (BitVec.ofNat 32 (beAt c.body 0 4))
      (.accepted [] [], s.put8 A.STIME_CTRL (setBits (s.reg A.STIME_CTRL) 31 31 1))

/-- Seconds of Stage Time. -/
def State.seconds (s : State) : Word := BitVec.ofNat 32 (s.now / ticksPerSecond)

/-- RTC_SET. -/
def State.rtcSetCmd (s : State) : State := s.serve 0x0404 fun s _ => (.done scOK (beBytes 4 s.seconds.toNat), s.rtcSet s.seconds)

/-! ## Cues -/

/-- CUE_GET: live entries, W0 to W3. -/
def State.cueGet (s : State) : State :=
  s.serve 0x0501 fun s c =>
    (.done scOK ((List.range (byteAt c.body 2)).flatMap fun i => (List.range 4).flatMap fun k => beBytes 4 (s.cueWord (beAt c.body 0 2 + i) k).toNat), s)

/-- The pushes of CUE_PUSH, in order until one is refused: how many were taken, and the refused INDEX and REASON. -/
def State.cuePushes (s : State) : List (List Byte) → Nat → (Nat × Option (Nat × Nat)) × State
  | [], n => ((n, none), s)
  | e :: t, n =>
    let i := beAt e 0 2
    let ws := (List.range 4).map fun k => BitVec.ofNat 32 (beAt e (3 + 4 * k) 4)
    let act := (CueEnt.of (ws.getD 0 0) (ws.getD 1 0) (ws.getD 2 0) (ws.getD 3 0)).action
    if (s.mode == .lead || s.mode == .understudy) && byteAt e 2 == 0 && [1, 2, 4, 5, 6].contains act then ((n, some (i, s.draw % 16)), s.next)
    else
      let s := s.cuePush i (if byteAt e 2 = 1 then List.replicate 4 0#32 else ws)
      if s.flag F.CUE_EDIT_STAT_LAST_REFUSED then ((n, some (i, s.rd F.CUE_EDIT_STAT_REASON)), s)
      else State.cuePushes s t (n + 1)

/-- CUE_PUSH. Mark: DESIGN CHOICE (log 32). -/
def State.cuePushCmd (s : State) : State :=
  s.serve 0x0502 fun s c =>
    match s.cuePushes ((List.range (byteAt c.body 0)).map fun k => sliceB c.body (1 + 19 * k) 19) 0 with
    | ((n, none), s) => (.done scOK (beBytes 1 n), s)
    | ((n, some (i, r)), s) => (.done scBAD_PARAM (beBytes 1 n ++ beBytes 2 i ++ beBytes 1 r), s)

/-- CUE_COMMIT. -/
def State.cueCommit (s : State) : State :=
  s.serve 0x0503 fun s c =>
    if s.pendingIn Base.CUE then (fin scBUSY, s)
    else
      let s := s.blockGo Base.CUE (byteAt c.body 0) (beAt c.body 1 2)
      if s.pendingIn Base.CUE then (.accepted [] [], s) else (fin scBAD_PARAM, s)

/-- CUE_ABORT. -/
def State.cueAbort (s : State) : State := s.serve 0x0504 fun s _ => (fin scOK, s.blockAbort Base.CUE)

/-- CUE_STATUS. -/
def State.cueStatus (s : State) : State :=
  s.serve 0x0505 fun s _ =>
    let r := s.words [A.CUE_STAT, A.CUE_CNT_A, A.CUE_CNT_B, A.CUE_CNT_C, A.CUE_EDIT_STAT]
    (.done scOK r.1, r.2)

/-! ## Keys -/

/-- The transfer key of a command's session. -/
def State.xferKey (s : State) (c : Cmd) : List Byte := ((s.sess c.sess).map (·.kxfer)).getD []

/-- KEY_PROVISION: unwrapped, checked for its type, wrapped under the current KEK and kept in volume 0; `ok` is false where storage fails. Mark: DEDUCED (log 100). -/
def State.keyProvision (s : State) (ok : Bool) : State :=
  s.serve 0x0601 fun s c =>
    let t := byteAt c.body 4
    match kwUnwrap (s.xferKey c) (c.body.drop 5), s.crk with
    | none, _ => (fin scAUTH_FAIL, s)
    | some _, none => (fin scDENIED, s)
    | some k, some crk =>
      if importLen t ≠ some k.length ∧ !(t = kSECRET ∧ k.length = 32) then (fin scBAD_PARAM, s)
      else if !ok then (fin scSTORAGE_FAIL, s)
      else
        let pub := if t = kSECRET then [] else sha256 (Config.pkPublic t k)
        let e : StoredKey := { id := beAt c.body 0 4, type := t, gen := s.desk.kek, blob := kwWrap (kekOf crk s.desk.kek) k, pub := pub }
        (.done scOK pub, { s with desk.keys := (s.desk.keys.filter fun x => x.id != e.id) ++ [e] })

/-- KEY_ERASE. -/
def State.keyErase (s : State) (ok : Bool) : State :=
  s.serve 0x0602 fun s c =>
    let i := beAt c.body 0 4
    if !(s.desk.keys.any fun x => x.id == i) then (fin scBAD_PARAM, s)
    else if !ok then (fin scSTORAGE_FAIL, s)
    else (fin scOK, { s with desk.keys := s.desk.keys.filter fun x => x.id != i })

/-- KEY_LIST. -/
def State.keyList (s : State) : State :=
  s.serve 0x0603 fun s _ => (.done scOK (s.desk.keys.flatMap fun k => beBytes 4 k.id ++ beBytes 1 k.type ++ beBytes 4 k.gen ++ padTo 32 k.pub), s)

/-- A stream key is installed under R87: as the current key of an EMPTY entry, else as the next key; the commit has WHEN = 0b00. The result is the REASON of a refusal, 0 without. -/
def State.installKey (s : State) (entry kid change overlap : Nat) (long : Bool) (value : Nat) : Nat × State :=
  let slot := if (s.streamKey entry).state = skEMPTY then 0 else 1
  let s := ((s.wr F.SOLOIST_KEY_IDX_INDEX entry).wr F.SOLOIST_KEY_IDX_SLOT slot).wr F.SOLOIST_KEY_KID_KID kid
  let s := (s.wr F.SOLOIST_KEY_ATTR_LEN256 (b2n long)).wr F.SOLOIST_KEY_ATTR_OVERLAP overlap
  let s := (List.range 8).foldl (fun (s : State) i => s.setReg (A.SOLOIST_KEY_VAL i) (BitVec.ofNat 32 (value / 2 ^ (32 * i)))) s
  let s := (s.setReg A.SOLOIST_KEY_CHG_LO (BitVec.ofNat 32 change)).setReg A.SOLOIST_KEY_CHG_HI (BitVec.ofNat 32 (change / 2 ^ 32 % 65536))
  let s := s.solPush (BitVec.twoPow 32 31)
  if s.flag F.SOLOIST_KEY_STAT_LAST_REFUSED then (s.rd F.SOLOIST_KEY_STAT_REASON, s)
  else
    let s := { s with desk.streams := put noneAt s.desk.streams entry (some { kid, len256 := long, value }) }
    (0, (s.blockGo Base.SOLOIST 0 0).commitDue Base.SOLOIST)

/-- KEY_STREAM. Mark: DEDUCED (log 100). -/
def State.keyStream (s : State) : State :=
  s.serve 0x0604 fun s c =>
    match kwUnwrap (s.xferKey c) (c.body.drop 14) with
    | none => (fin scAUTH_FAIL, s)
    | some k =>
      if 4096 ≤ beAt c.body 0 2 then (fin scBAD_PARAM, s)
      else match s.installKey (beAt c.body 0 2) (beAt c.body 2 4) (beAt c.body 6 6) (beAt c.body 12 2) (k.length == 32) (beNat k) with
        | (0, s) => (fin scOK, s)
        | (r, s) => (.done scBAD_PARAM (beBytes 1 r), s)

/-- KEK_ROLL. -/
def State.kekRoll (s : State) : State := s.serve 0x0605 fun s _ => if s.crk.isNone then (fin scDENIED, s) else (.accepted [] [], s)

/-- Every stored key moves to the next KEK generation. -/
def State.kekRollEnd (s : State) (ok : Bool) : Ans × State :=
  match s.crk with
  | none => (fin scDENIED, s)
  | some crk =>
    if !ok then (fin scSTORAGE_FAIL, s)
    else
      let g := s.desk.kek + 1
      let move := fun (k : StoredKey) => match kwUnwrap (kekOf crk k.gen) k.blob with
        | some b => { k with gen := g, blob := kwWrap (kekOf crk g) b }
        | none => k
      (.done scOK (beBytes 4 g), { s with desk.kek := g, desk.keys := s.desk.keys.map move })

/-- KDC_RELAY: ACCEPTED with the next message for the centre. Mark: DESIGN CHOICE (log 101). -/
def State.kdcRelay (s : State) : State := s.serve 0x0606 fun s c => (.accepted [] (Config.kdcMessage s.cfg c.body s.draw), s.next)

/-- The keys that the centre's message yields are installed; the reply names their entries. -/
def State.kdcEnd (s : State) (c : Cmd) : Ans × State :=
  let r := (Config.kdcKeys s.cfg c.body).foldl (fun (acc : List Byte × State) k =>
    let i := acc.2.installKey (nth k 0 % 4096) (nth k 1) (nth k 4) (nth k 5) (nth k 3 == 1) (nth k 2)
    (if i.1 = 0 then acc.1 ++ beBytes 2 (nth k 0 % 4096) else acc.1, i.2)) ([], s)
  (.done scOK r.1, r.2)

end Sys2Proof.Machine
end

