-- ==== Sys2Proof/Machine/Acts.lean ====
section
/-! DEFINITION. The acts as the Stage Manager runs them (R401, R407): cue tables through the load path, cores at entry points, the early act, and the handover to the full act. -/

namespace Sys2Proof.Machine

/-- Entries go into the live table through the load path (R70). Mark: DEDUCED (log 114). -/
def State.loadCues (s : State) (l : List (Nat × List Nat)) : State :=
  l.foldl (fun (s : State) e =>
    let s := s.put8 A.CUE_LOAD_IDX (BitVec.ofNat 32 (e.1 % 16384))
    (List.range 4).foldl (fun (s : State) k => s.put8 A.CUE_LOAD_DATA (BitVec.ofNat 32 (nth e.2 k))) s) s

/-- Cores 0 to 7 start at an act's entry points. -/
def State.startAct (s : State) (area : List Byte) : State :=
  (Config.actEntries area).foldl (fun (s : State) e => if e.1 < 8 then s.put8 (A.IRQ_CORE_CTRL e.1) (BitVec.ofNat 32 (2 ^ 30 + e.2 / 4 % 2 ^ 30)) else s) s

/-- A full act's area. -/
def State.fullArea (s : State) (sel : Nat) : List Byte := s.peek (imageBase sel) 0x300000

/-- The early act runs: its cue table is loaded with RUN = 0, its cores start, RUN is set. -/
def State.runEarly (s : State) : State :=
  let s := (s.put8 A.CUE_CTRL 0).loadCues (Config.cueImage s.earlyArea)
  ((s.startAct s.earlyArea).put8 A.CUE_CTRL 1).wr F.SYS_BOOT_EARLY_OK 1

/-- The device comes to run on the early act in INTERVAL (R16, R387): cores 0 to 7 are held first. Mark: DEDUCED (log 129). -/
def State.toEarly (s : State) : State := ((List.range 8).foldl State.holdCore s).runEarly

/-- In the frame before the change the early act gives way (R407): its cues stop and its cores are held, the full cue table is loaded, the mode is requested and the engine
runs again. -/
def State.handToFull (s : State) (m : Mode) : State :=
  let s := s.put8 A.CUE_CTRL 0
  let s := (List.range 8).foldl State.holdCore s
  let s := s.loadCues (Config.cueImage (s.peek 0x20880000 0x50000))
  let s := s.put8 A.SYS_MODE_REQ (BitVec.ofNat 32 (2 ^ 31 + m.code))
  { s.put8 A.CUE_CTRL 1 with boot.settling := true }

/-- The Stage Manager asks for a mode; leaving INTERVAL for LEAD or UNDERSTUDY the early act, where it runs, hands over (R407). Mark: DEDUCED (log 129). -/
def State.askMode (s : State) (t : Nat) : State :=
  if s.mode == .interval && s.flag F.SYS_BOOT_EARLY_OK && (t == 2 || t == 3) then s.handToFull (Mode.ofCode t)
  else s.put8 A.SYS_MODE_REQ (BitVec.ofNat 32 (2 ^ 31 + t))

/-- Frame E: the Player's own Stage Manager asks to return (R287, R17). -/
def State.intervalEnd (s : State) : State :=
  match s.troupe.interval with
  | some (_, e, _) =>
    if e ≤ s.frame then
      let s : State := { s with troupe.interval := none }
      if s.mode == .interval then s.askMode (if s.peerLeads then 3 else 2) else s
    else s
  | none => s

end Sys2Proof.Machine
end

