-- ==== Sys2Proof/Machine/DeskB.lean ====
section
/-! DEFINITION. The opcodes of groups 0x07 to 0x0C (R386 to R388): pair, troupe, book, files, diagnostics, lifecycle; relayed packets; final replies. -/

namespace Sys2Proof.Machine

/-! ## Pair and Troupe -/

/-- PAIR_ROLE (R246): the lanes follow the role. -/
def State.pairRole (s : State) : State := s.serve 0x0701 fun s c => (fin scOK, (s.wr F.SYS_STATE_PAIR_ROLE (byteAt c.body 0)).lanesFollow)

/-- HANDOVER (R267). -/
def State.handoverCmd (s : State) : State := s.serve 0x0702 fun s _ => (.accepted [] [], s.put8 A.UNDERSTUDY_CTRL 0x20000000#32)

/-- The departure is over: OK at the switch, BUSY if it was cancelled. -/
def State.handoverEnd (s : State) : Option (Ans × State) :=
  if s.mode ≠ .lead then some (fin scOK, s) else if s.us.hoRequest ∨ s.us.ho ≠ 0 then none else some (fin scBUSY, s)

/-- PAIR_CTRL: RESYNC, UNPAIR, ACK_STALE. -/
def State.pairCtrl (s : State) : State :=
  s.serve 0x0703 fun s c =>
    let f := byteAt c.body 0
    (fin scOK, s.put8 A.UNDERSTUDY_CTRL (BitVec.ofNat 32 (f % 2 * 2 ^ 28 + f / 2 % 2 * 2 ^ 27 + f / 4 % 2 * 2 ^ 26)))

/-- PAIR_STATUS. -/
def State.pairStatus (s : State) : State :=
  s.serve 0x0704 fun s _ =>
    let r := s.words [A.UNDERSTUDY_STAT, A.UNDERSTUDY_HEALTH, A.UNDERSTUDY_PEER_HEALTH]
    let a := r.2.words [A.UNDERSTUDY_APPLIED_LO]
    let b := a.2.words [A.UNDERSTUDY_APPLIED_HI]
    let c := b.2.words [A.UNDERSTUDY_CNT_A, A.UNDERSTUDY_CNT_B, A.UNDERSTUDY_CNT_C]
    (.done scOK (r.1 ++ b.1 ++ a.1 ++ c.1), c.2)

/-- TROUPE_ROLE (R275). -/
def State.troupeRole (s : State) : State := s.serve 0x0801 fun s c => (fin scOK, (s.wr F.SYS_STATE_TROUPE_ROLE (byteAt c.body 0)).troupeShow)

/-- TROUPE_STATUS. -/
def State.troupeStatus (s : State) : State :=
  s.serve 0x0802 fun s _ =>
    let r := s.words (A.TROUPE_STAT :: (List.range 64).map A.TROUPE_MEMBER)
    (.done scOK r.1, r.2)

/-- ROLL_NOW. -/
def State.rollNow (s : State) : State := s.serve 0x0803 fun s _ => if s.troupe.rolling then (fin scBUSY, s) else (.accepted [] [], s.rollBegin)

/-- Frames that 2 × ROLL_WAIT lasts, rounded up. -/
def State.rollFrames (s : State) : Nat := (2 * s.lv F.TROUPE_CFG_C_ROLL_WAIT * s.frameRate + 999) / 1000

/-- INTERVAL_CALL (R287): a mask that names both members of a pair is refused. Mark: DEDUCED (log 156). -/
def State.intervalCmd (s : State) : State :=
  s.serve 0x0804 fun s c =>
    let m := beAt c.body 0 8
    let st := beAt c.body 8 6
    let e := beAt c.body 14 6
    if st < s.frame + s.rollFrames ∨ e ≤ st ∨ s.namesPair m then (fin scBAD_PARAM, s)
    else if s.troupe.bkey.isNone then (fin scBUSY, s)
    else (.accepted [m, st] [], s.intervalCall m st e)

/-- Every named slot has answered, or frame S has come: a status for each slot; the status of a slot that sent none is not stated. -/
def State.intervalCmdEnd (s : State) (c : Cmd) : Option (Ans × State) :=
  let m := nth c.note 0
  let got := fun k => s.troupe.acks.find? fun a => a.1 == k
  if s.frame < nth c.note 1 ∧ (List.range 64).any fun k => bit m k && (got k).isNone then none
  else
    let row := fun k => match got k with
      | some a => a.2
      | none => Config.freeValue (s.fresh + k)
    some (.done scOK ((List.range 64).flatMap fun k => beBytes 1 (row k)), { s with fresh := s.fresh + 64 })

/-- RELAY (R388): the inner packet goes to the Player; the wait of 10 s starts. -/
def State.relayCmd (s : State) : State :=
  s.serve 0x0805 fun s c =>
    let k := byteAt c.body 0
    let p := c.body.drop 1
    match s.session k with
    | none => (fin scNO_SESSION, s)
    | some key => (.accepted [s.fresh, k, beAt p 8 4] [], ((s.next.troupeSend 0x0B 1 (some k) key p).arm (.relay s.fresh) (10 * ticksPerSecond)))

/-- The place of the RELAY that an inner reply from slot `k` belongs to: the oldest one to that slot with its SEQ. -/
def State.relayOf (s : State) (k seq : Nat) : Option Nat :=
  (List.range s.desk.cmds.length).find? fun i => s.desk.cmds[i]?.any fun c => c.op == 0x0805 && c.phase == 2 && nth c.note 1 == k && nth c.note 2 == seq

/-- An inner reply is returned as the payload of a RELAY reply; one with a status other than ACCEPTED ends the RELAY. -/
def State.relayReply (s : State) (k : Nat) (p : List Byte) : State :=
  match s.relayOf k (beAt p 8 4) with
  | none => s
  | some i => match s.desk.cmds[i]? with
    | none => s
    | some c =>
      if byteAt p 3 = scACCEPTED then s.answer c scOK p else ((s.dropCmd i).disarm (.relay (nth c.note 0))).answer c scOK p

/-- 10 s without a final inner reply: the RELAY at a place ends with BUSY. -/
def State.relayTimeout (s : State) (i : Nat) : State :=
  match s.desk.cmds[i]? with
  | none => s
  | some c => if c.op = 0x0805 ∧ c.phase = 2 then s.fire (.relay (nth c.note 0)) fun s => (s.dropCmd i).answer c scBUSY [] else s

/-- A COMMAND message (R279, R378): a Player takes a packet from the Director, the Director a reply to a command it relayed. -/
def State.commandRx (s : State) (h : THead) (p : List Byte) : State :=
  match s.troupeAccept h 1 (h.slot == 0) false with
  | (false, s) => s
  | (true, s) =>
    if s.isDirector then s.relayReply h.slot p
    else
      let s := s.directorHeard
      if s.desk.running ∧ 16 ≤ p.length ∧ byteAt p 0 = 1 then s.packet true p 0 else s

/-! ## Prompt Book (R420 to R422) -/

/-- BOOK_READ: records of the ring with SEQ at or above the cursor. -/
def State.bookRead (s : State) : State :=
  s.serve 0x0901 fun s c =>
    let cur := beAt c.body 0 4
    let l := ((s.book.ring.map (·.1)).filter fun r => decide (cur ≤ r.seq.toNat)).take (byteAt c.body 4)
    let nxt := match l.getLast? with
      | some r => r.seq.toNat + 1
      | none => cur
    (.done scOK (beBytes 4 nxt ++ l.flatMap Rec.bytes), s)

/-- BOOK_ARCHIVE: records of Bedrock B4 through its Col unit. -/
def State.bookArchive (s : State) : State :=
  s.serve 0x0902 fun s c =>
    match s.dmaRead 8 (0x21800000 + 32 * beAt c.body 0 4) (32 * min (byteAt c.body 4) (131072 - beAt c.body 0 4)) with
    | (.ok b, s) => (.done scOK b, s)
    | (.error k, s) => (fin (if k = kindCol then scDENIED else scSTORAGE_FAIL), s)

/-- BOOK_NOTE: a record of class 0xE (R413). -/
def State.bookNote (s : State) : State :=
  s.serve 0x0903 fun s c =>
    (fin scOK, s.post (0xE000 + beAt c.body 1 2 % 4096) (min 5 (byteAt c.body 0)) 8 ((List.range 4).map fun k => leAt c.body (3 + 4 * k) 4))

/-- BOOK_CLEAR: PBOOK_CLEAR_UPTO, then PBOOK_CLEAR with GO. -/
def State.bookClearCmd (s : State) : State :=
  s.serve 0x0904 fun s c =>
    let s := s.setReg A.PBOOK_CLEAR_UPTO (BitVec.ofNat 32 (beAt c.body 0 4))
    (fin scOK, s.put8 A.PBOOK_CLEAR (BitVec.ofNat 32 (2 ^ 31 + byteAt c.body 4 % 2 * 2 ^ 30)))

/-! ## Files (R386, R455 to R458) -/

/-- The live files of a volume; none where the cartridge has no mounted, formatted card. -/
def State.volume (s : State) (v : Nat) : Option (List VFile) := if v = 0 then some s.desk.files else if s.cart.mounted && s.cart.formatted then some s.cart.files else none

/-- Replace the files of a volume. -/
def State.setVolume (s : State) (v : Nat) (l : List VFile) : State := if v = 0 then { s with desk.files := l } else { s with cart.files := l }

/-- FILE_LIST. -/
def State.fileList (s : State) : State :=
  s.serve 0x0A01 fun s c => match s.volume (byteAt c.body 0) with
    | none => (fin scSTORAGE_FAIL, s)
    | some l => (.done scOK (l.flatMap fun f => padTo 16 f.name ++ beBytes 4 f.data.length ++ beBytes 4 f.gen), s)

/-- FILE_READ; `ok` is false where the store fails to read. A read that reaches the end checks DATA_CRC. -/
def State.fileRead (s : State) (ok : Bool) : State :=
  s.serve 0x0A02 fun s c => match s.volume (byteAt c.body 0) with
    | none => (fin scSTORAGE_FAIL, s)
    | some l => match fileOf l (sliceB c.body 1 16) with
      | none => (fin scBAD_PARAM, s)
      | some f =>
        let o := beAt c.body 17 4
        let n := beAt c.body 21 2
        if f.data.length < o then (fin scBAD_PARAM, s)
        else if !ok ∨ (f.data.length ≤ o + n ∧ !f.crcOk) then (fin scSTORAGE_FAIL, s)
        else (.done scOK (sliceB f.data o n), s)

/-- The extent being written on a volume under a name. -/
def State.partOf (s : State) (v : Nat) (name : List Byte) : List Byte :=
  (((if v = 0 then s.desk.parts else s.cart.parts).find? fun p => p.1 == name).map (·.2)).getD []

/-- Replace or drop it. -/
def State.setPart (s : State) (v : Nat) (name : List Byte) (d : Option (List Byte)) : State :=
  let f := fun (l : List (List Byte × List Byte)) => (l.filter fun p => p.1 != name) ++ (d.map fun x => (name, x)).toList
  if v = 0 then { s with desk.parts := f s.desk.parts }
  else { s with cart.parts := f s.cart.parts, cart.exts := if d.isSome then s.cart.exts else s.cart.exts.filter fun x => x.1 != name }

/-- The first FILE_WRITE on a blank card formats it (R458): both superblocks, with a volume identifier from Scree instance 1 (R455). -/
def State.formatCard (s : State) : State :=
  let r := s.draw32 false
  let b := superBlock (r.1.take 16) s.cart.count
  let s := (r.2.cardWrite 0 b).cardWrite 1 b
  { s with cart.formatted := true, cart.seq := 0, cart.head := 0, cart.recs := [], cart.files := [] }

/-- What a FILE_WRITE does to its volume before its commit; none where it has no room. -/
def State.writeData (s : State) (v : Nat) (name : List Byte) (o : Nat) (d : List Byte) : Option State :=
  if v = 1 then (if s.cart.formatted then s else s.formatCard).putData name o d else some s

/-- The commit of a file's new generation on its volume (R456). -/
def State.commitFile (s : State) (v : Nat) (name : List Byte) (gen : Nat) (d : List Byte) : State :=
  let s := if v = 1 then
      s.putJournal { pos := 0, seq := 0, name, gen, gone := false, len := d.length, first := s.extentOf name 1, blocks := blocksOf d.length, crc := crc32c d }
    else s
  (s.setVolume v ((((s.volume v).getD []).filter fun f => f.name != name) ++ [{ name, gen, data := d, crcOk := true }])).setPart v name none

/-- The deletion of a file (R456). -/
def State.dropFile (s : State) (v : Nat) (f : VFile) : State :=
  let s := if v = 1 then s.putJournal { pos := 0, seq := 0, name := f.name, gen := f.gen, gone := true, len := 0, first := 0, blocks := 0, crc := 0 } else s
  s.setVolume v (((s.volume v).getD []).filter fun g => g.name != f.name)

/-- FILE_WRITE is answered ACCEPTED where the volume takes writes: a write-protected card and one that holds another file system are refused. Mark: DESIGN CHOICE (log 59). -/
def State.fileWrite (s : State) : State :=
  s.serve 0x0A03 fun s c =>
    let v := byteAt c.body 0
    let o := beAt c.body 17 4
    let have_ := s.partOf v (sliceB c.body 1 16)
    if v = 1 ∧ (s.flag (F.CART_CARD_PERM_WP 0) ∨ s.flag (F.CART_CARD_TMP_WP 0)) then (fin scDENIED, s)
    else if v = 1 ∧ !s.cart.mounted then (fin scSTORAGE_FAIL, s)
    else if v = 1 ∧ !s.cart.formatted ∧ !s.cart.blank then (fin scDENIED, s)
    else if o ≠ 0 ∧ o ≠ have_.length ∨ 2 ^ 28 < o + (c.body.length - 22) then (fin scBAD_PARAM, s)
    else (.accepted [] [], s)

/-- The data of a FILE_WRITE are written, and with FINAL = 1 its journal record: the name's generation rises by one. A failure leaves the previous generation. -/
def State.fileWriteEnd (s : State) (c : Cmd) (ok : Bool) : Ans × State :=
  let v := byteAt c.body 0
  let name := sliceB c.body 1 16
  let o := beAt c.body 17 4
  let d := (s.partOf v name).take o ++ c.body.drop 22
  match (if ok && (v != 1 || s.cart.mounted) then s.writeData v name o d else none) with
  | none => (fin scSTORAGE_FAIL, s.setPart v name none)
  | some s =>
    if byteAt c.body 21 = 0 then (fin scOK, s.setPart v name (some d))
    else
      let l := (s.volume v).getD []
      let g := match fileOf l name with
        | some f => f.gen + 1
        | none => 1
      if (fileOf l name).isNone ∧ 256 ≤ l.length then (fin scBUSY, s.setPart v name none)
      else (fin scOK, s.commitFile v name g d)

/-- FILE_DELETE. -/
def State.fileDelete (s : State) (ok : Bool) : State :=
  s.serve 0x0A04 fun s c =>
    let v := byteAt c.body 0
    let name := sliceB c.body 1 16
    match s.volume v with
    | none => (fin scSTORAGE_FAIL, s)
    | some l => match fileOf l name with
      | none => (fin scBAD_PARAM, s)
      | some f =>
        if v = 1 ∧ (s.flag (F.CART_CARD_PERM_WP 0) ∨ s.flag (F.CART_CARD_TMP_WP 0)) then (fin scDENIED, s)
        else if !ok then (fin scSTORAGE_FAIL, s)
        else (fin scOK, s.dropFile v f)

/-- MEDIA_EJECT. -/
def State.mediaEject (s : State) : State := s.serve 0x0A05 fun s _ => (.accepted [] [], s)

/-- The running operation completes, every card is deselected, the clock stops (R454). -/
def State.mediaEjectEnd (s : State) : Option (Ans × State) := if s.cart.op.isSome then none else some (fin scOK, (s.cartIssue 7 0).wr F.CART_STAT_CLK_RUN 0)

/-! ## Diagnostics -/

/-- STATUS. -/
def State.statusCmd (s : State) : State :=
  s.serve 0x0B01 fun s _ =>
    let r := s.words [A.SYS_STATE, A.STIME_STATE, A.STIME_OFFSET]
    let d := (List.range 4).flatMap fun n => (List.range 5).flatMap fun k => beBytes 4 (s.cntReg (A.SP_DROP n (0x0A + k))).toNat
    (.done scOK (r.1 ++ d), r.2)

/-- Words that a read by master 8 brings, until one is refused. -/
def State.readWords (s : State) : List Nat → List Byte → Except Nat (List Byte) × State
  | [], acc => (.ok acc, s)
  | a :: t, acc => match s.busLoad 8 a 4 with
    | (.ok b, s) => State.readWords s t (acc ++ b.reverse)
    | (.error k, s) => (.error k, s)

/-- REG_READ; a refused read is answered DENIED for a Col refusal, else BAD_PARAM. Mark: DESIGN CHOICE (log 102). -/
def State.regReadCmd (s : State) : State :=
  s.serve 0x0B02 fun s c =>
    match s.readWords ((List.range (byteAt c.body 4)).map fun k => beAt c.body 0 4 + 4 * k) [] with
    | (.ok b, s) => (.done scOK b, s)
    | (.error k, s) => (fin (if k = kindCol then scDENIED else scBAD_PARAM), s)

/-- SELFTEST: bit t − 1 of MASK and of the reply is test t of R272; `results` is what the tests that depend on nothing modelled find. Mark: PRESUMED (log 103). -/
def State.selftestCmd (s : State) (results : Nat) : State :=
  s.serve 0x0B03 fun s c =>
    let r := [1, 2, 3, 4, 5].foldl (fun (acc : Nat × State) t =>
      if bit (byteAt c.body 0) (t - 1) then
        let x := acc.2.selftestOne t (bit results (t - 1))
        (acc.1 + b2n x.1 * 2 ^ (t - 1), x.2)
      else acc) (0, s)
    (.done scOK (beBytes 1 r.1), r.2)

/-- TRACE (R427). -/
def State.traceCmd (s : State) : State :=
  s.serve 0x0B04 fun s c => (fin scOK, s.traceCfg (BitVec.ofNat 32 (byteAt c.body 2 * 2 ^ 31 + byteAt c.body 1 * 256 + byteAt c.body 0)))

/-- CORE_CTRL. -/
def State.coreCtrlCmd (s : State) : State :=
  s.serve 0x0B05 fun s c =>
    (fin scOK, s.put8 (A.IRQ_CORE_CTRL (byteAt c.body 0)) (BitVec.ofNat 32 (byteAt c.body 1 * 2 ^ 31 + byteAt c.body 2 * 2 ^ 30 + beAt c.body 3 4 / 4)))

/-! ## Lifecycle (R340, R387) -/

/-- COMMISSION: the checks come first, the work follows its ACCEPTED. Mark: DESIGN CHOICE (log 102). -/
def State.commission (s : State) : State :=
  s.serve 0x0C01 fun s c =>
    let o := sliceB c.body 16 32
    let u := sliceB c.body 48 32
    let zero := List.replicate 32 0#8
    if sliceB c.body 0 16 ≠ serial16 then (fin scBAD_PARAM, s)
    else if !s.otp.owner.isEmpty ∧ !((o = s.otp.owner ∧ u = s.otp.unlock) ∨ (o = zero ∧ u = zero)) then (fin scBAD_PARAM, s)
    else (.accepted [] [], s)

/-- While the Scree delivers nothing no share can be drawn (R329): nothing is written, and the status is not stated. Mark: DESIGN CHOICE (log 102). Otherwise blank fingerprints are written, a new Refuge share is drawn, CRK is rebuilt (R331). Mark: DESIGN CHOICE (log 102). -/
def State.commissionEnd (s : State) (c : Cmd) : Ans × State :=
  if !s.entropyOk then (fin s.freeStatus, s.next)
  else
    let s : State := if s.otp.owner.isEmpty then { s with otp.owner := sliceB c.body 16 32, otp.unlock := sliceB c.body 48 32 } else s
    let s : State := { s.newShare with desk.streams := [] }
    (fin scOK, s.setMKey 2 (s.refuge.share.map fun r => { type := kROOT, bytes := shake256 32 (padTo 32 Config.otpShare ++ r ++ label [0x43, 0x52, 0x4B]) }))

/-- UNLOCK: both signatures, then the Curtain's check; an accepted token leads to a warm reset. `verified` tells that both verifications agree, `agree` that both paths of the
Curtain's decision do. Mark: DESIGN CHOICE (log 102). -/
def State.unlockCmd (s : State) (verified agree : Bool) : State :=
  s.serve 0x0C02 fun s c =>
    let b := c.body.take 64
    if s.lifecycle = .returned ∨ s.lifecycle = .decommissioned then (fin scDENIED, s.unlockRefuse ulLIFECYCLE)
    else
      let r := s.twice verified
      if !(r.1 && Config.unlockVerifies s.otp.unlock b (c.body.drop 64)) then (fin scVERIFY_FAIL, r.2.unlockRefuse ulSIGNATURE)
      else
        let s := r.2.unlockCheck b agree
        let res := s.rd F.CURTAIN_UNLOCK_STAT_RESULT
        if res = ulACCEPTED then (fin scOK, { s with boot.warmDue := true })
        else if res = ulFIELD then (fin scBAD_PARAM, s)
        else if res = ulSOURCE then (fin scBUSY, s)
        else if res = ulLIFECYCLE then (fin scDENIED, s)
        else (fin s.freeStatus, s.next)

/-- MODE_REQ (R17, R267, R387). The note holds TARGET and whether a departure was started. -/
def State.modeReqCmd (s : State) : State :=
  s.serve 0x0C03 fun s c =>
    let t := byteAt c.body 0
    if s.modeReq.isSome ∨ s.desk.cmds.any fun x => x.op == 0x0C03 && x.phase == 2 then (fin scBUSY, s)
    else if t = 4 ∧ s.mode = .lead then
      if s.rd F.SYS_STATE_PAIR_ROLE = 0 then (.accepted [t, 0] [], s.askMode t)
      else if s.peerHealthy then (.accepted [t, 1] [], s.put8 A.UNDERSTUDY_CTRL 0x20000000#32)
      else if byteAt c.body 1 = 1 then (.accepted [t, 0] [], State.askMode { s with us.force := true } t)
      else (fin scBUSY, s)
    else if !s.requestOk (Mode.ofCode t) then (fin scWRONG_MODE, s)
    else (.accepted [t, 0] [], s.askMode t)

/-- The mode is entered, or the request came to nothing. -/
def State.modeReqEnd (s : State) (c : Cmd) : Option (Ans × State) :=
  if s.mode.code = nth c.note 0 then some (fin scOK, s)
  else if nth c.note 1 = 1 then (if s.us.hoRequest ∨ s.us.ho ≠ 0 then none else some (fin scBUSY, s))
  else if s.modeReq.isSome then none
  else some (fin scWRONG_MODE, s)

/-- RESET: OK, then a warm reset within 1 ms. -/
def State.resetCmd (s : State) : State := s.serve 0x0C04 fun s _ => (fin scOK, { s with boot.warmDue := true })

/-- An advance of the lifecycle through SYS_LC_ADV; a reset follows once the cells are programmed. -/
def State.lcCmd (s : State) (c : Cmd) (t : Nat) : Ans × State :=
  if sliceB c.body 0 16 ≠ serial16 then (fin scBAD_PARAM, s)
  else if s.flag F.SYS_LC_STAT_BUSY ∨ !s.lcOk t then (fin scDENIED, s.lcAdvWrite (BitVec.ofNat 32 (0x4C43 * 65536 + t)))
  else (fin scOK, { s.lcAdvWrite (BitVec.ofNat 32 (0x4C43 * 65536 + t)) with boot.lcReset := true })

/-- RETURN. Mark: DEDUCED (log 104). -/
def State.returnCmd (s : State) : State := s.serve 0x0C05 fun s c => s.lcCmd c 3

/-- DECOMMISSION. -/
def State.decommissionCmd (s : State) : State := s.serve 0x0C06 fun s c => s.lcCmd c 4

/-- ISSUE. -/
def State.issueCmd (s : State) : State := s.serve 0x0C07 fun s c => s.lcCmd c (byteAt c.body 16)

/-! ## Final replies (R374) -/

/-- What completes an ACCEPTED command now: none where its condition has not come. `ok` is false where storage fails, `agree` tells that a verification taken twice agrees. -/
def State.finalOf (s : State) (c : Cmd) (ok agree : Bool) : Option (Ans × State) :=
  if c.op = 0x0303 then some (s.imgCommitEnd c agree)
  else if c.op = 0x0401 then s.cfgApplyEnd c
  else if c.op = 0x0403 then (if s.flag F.STIME_STATE_STEP_PENDING then none else if c.note.isEmpty then some (fin scOK, s) else some (fin s.freeStatus, s.next))
  else if c.op = 0x0503 then
    (if s.pendingIn Base.CUE then none else if s.flag (F.BLOCK_COMMIT_STATUS_ABORTED Base.CUE) then some (fin s.freeStatus, s.next) else some (fin scOK, s))
  else if c.op = 0x0605 then some (s.kekRollEnd ok)
  else if c.op = 0x0606 then some (s.kdcEnd c)
  else if c.op = 0x0702 then s.handoverEnd
  else if c.op = 0x0803 then (if s.troupe.rolling then none else some (.done scOK (beBytes 1 s.presentSlots.length), s))
  else if c.op = 0x0804 then s.intervalCmdEnd c
  else if c.op = 0x0A03 then some (s.fileWriteEnd c ok)
  else if c.op = 0x0A05 then s.mediaEjectEnd
  else if c.op = 0x0C01 then some (s.commissionEnd c)
  else if c.op = 0x0C03 then s.modeReqEnd c
  else none

/-- The ACCEPTED command at a place completes, and its final reply is queued. Mark: DESIGN CHOICE (log 18). -/
def State.finalReply (s : State) (i : Nat) (ok agree : Bool) : State :=
  match s.desk.cmds[i]? with
  | none => s
  | some c =>
    if c.phase ≠ 2 then s
    else match (s.dropCmd i).finalOf c ok agree with
      | none => s
      | some r => r.2.conclude i c r.1

end Sys2Proof.Machine
end

