-- ==== Sys2Proof/Machine/Services.lean ====
section
/-! DEFINITION. The Steward service queues (R390 to R394). -/

namespace Sys2Proof.Machine

/-- A request entry (R391) and the queue it came from: 0 to 7 a core's, 8 the cue engine's. -/
structure SvcReq where
  origin : Nat
  svc : Nat
  tag : Nat
  tktv : Bool
  ticket : Nat
  inA : Nat
  inLen : Nat
  outA : Nat
  outLen : Nat
  key : Nat
  args : List Byte
  deriving DecidableEq, Repr

/-- Service codes. -/
def svcKnown (c : Nat) : Bool := (decide (1 ≤ c) && decide (c ≤ 5)) || (decide (0x8001 ≤ c) && decide (c ≤ 0x8003))

/-- Read a request. -/
def SvcReq.of (o : Nat) (b : List Byte) : SvcReq where
  origin := o
  svc := leAt b 2 2
  tag := leAt b 0 2
  tktv := bit (leAt b 4 4) 31
  ticket := leAt b 4 4 % 1024
  inA := leAt b 8 4
  inLen := leAt b 12 4
  outA := leAt b 16 4
  outLen := leAt b 20 4
  key := leAt b 24 4
  args := sliceB b 28 36

/-- The request to serve next: the queues are visited in ascending number, each in order of arrival. Mark: DEDUCED (log 106). -/
def State.svcHead (s : State) : Option SvcReq :=
  if !s.desk.running || s.mode == .curtain then none
  else
    ((List.range 9).find? fun n => (s.queue (s.svcBase + n)).v && decide (0 < (s.queue (s.svcBase + n)).fill)).map fun n =>
      SvcReq.of n (padTo 64 (s.entryAt (s.svcBase + n) 0))

/-- Do the live Col masks let the requesting core reach a byte range of memory, in one region (R393)? -/
def State.svcReach (s : State) (n a len : Nat) (k : AccKind) : Bool :=
  len == 0 || ((isRam (physAddr n a) || inBedrock a) && targetOf n a != .nothing && (colCheck s n a len k).isNone)

/-- The input of a request, read by the Stage Manager. -/
def State.svcIn (s : State) (r : SvcReq) : Option (List Byte) × State :=
  if !s.svcReach r.origin r.inA r.inLen .read then (none, s)
  else match s.dmaRead 8 (physAddr r.origin r.inA) r.inLen with
    | (.ok b, s) => (some b, s)
    | (.error _, s) => (none, s)

/-- The output of a request: its status and the bytes written. The whole room of OUT is checked (R393). -/
def State.svcOut (s : State) (r : SvcReq) (b : List Byte) : (Nat × Nat) × State :=
  if !s.svcReach r.origin r.outA r.outLen .write then ((scDENIED, 0), s)
  else if r.outLen < b.length then ((scBAD_LENGTH, 0), s)
  else match s.dmaWrite 8 (physAddr r.origin r.outA) b with
    | (none, s) => ((scOK, b.length), s)
    | (some _, s) => ((scDENIED, 0), s)

/-- The request at the head is answered with a status and the bytes written: it leaves its queue; a core gets a reply entry, a failure of the cue queue is booked; the ticket completes. -/
def State.svcDone (s : State) (r : SvcReq) (st n : Nat) : State :=
  let q := s.svcBase + r.origin
  let s := s.releaseEntries q 1
  let s := if r.origin < 8 then
      (s.enqueue 8 (s.svcBase + 9 + r.origin) (leBytes 2 r.tag ++ leBytes 2 r.svc ++ leBytes 4 st ++ leBytes 4 n ++ leBytes 4 (s.now % 2 ^ 32))).2
    else if st = scOK then s else s.post 0x2006 4 8 [r.svc, r.tag, st]
  if r.tktv then s.ticketDoneWrite 8 (BitVec.ofNat 32 ((if st = scOK then 0 else 1) * 2 ^ 28 + r.ticket)) else s

/-- Service `svc` takes the request at the head, if it is one of its own: `f` gives the status, the bytes written and the state. An unknown code is answered BAD_OPCODE by whichever service
comes, a code in the wrong kind of queue DENIED. -/
def State.svcRun (s : State) (svc : Nat) (f : State → SvcReq → (Nat × Nat) × State) : State :=
  match s.svcHead with
  | none => s
  | some r =>
    if !svcKnown r.svc then s.svcDone r scBAD_OPCODE 0
    else if r.svc ≠ svc then s
    else if (0x8000 ≤ r.svc) ≠ (r.origin = 8) then s.svcDone r scDENIED 0
    else
      let x := f s r
      x.2.svcDone r x.1.1 x.1.2

/-- NOTE: ARGS[0] holds the event code in bits 15:0 and the severity in bits 18:16. Mark: PRESUMED (log 103). -/
def State.svcNote (s : State) : State :=
  s.svcRun 1 fun s r =>
    if 16 < r.inLen then ((scBAD_LENGTH, 0), s)
    else match s.svcIn r with
      | (none, s) => ((scDENIED, 0), s)
      | (some b, s) =>
        ((scOK, 0), s.post (0xE000 + leAt r.args 0 2 % 4096) (min 5 (byteAt r.args 2 % 8)) r.origin ((List.range 4).map fun k => leAt (padTo 16 b) (4 * k) 4))

/-- The customer key of a KEYID, unwrapped under its KEK. -/
def State.customerKey (s : State) (id : Nat) : Option (List Byte) :=
  match s.desk.keys.find? fun k => k.id == id, s.crk with
  | some k, some crk => kwUnwrap (kekOf crk k.gen) k.blob
  | _, _ => none

/-- SIGN. Mark: DEDUCED (log 107). -/
def State.svcSign (s : State) : State :=
  s.svcRun 2 fun s r =>
    if 65536 < r.inLen then ((scBAD_LENGTH, 0), s)
    else match s.customerKey r.key with
      | none => ((scDENIED, 0), s)
      | some k => match s.svcIn r with
        | (none, s) => ((scDENIED, 0), s)
        | (some b, s) => s.next.svcOut r (Config.customerSign k b s.draw)

/-- VERIFY, taken twice. -/
def State.svcVerify (s : State) (agree : Bool) : State :=
  s.svcRun 3 fun s r =>
    match s.svcIn r with
    | (none, s) => ((scDENIED, 0), s)
    | (some b, s) =>
      let t := s.twice agree
      ((if t.1 && Config.listedVerifies s.cfg r.key b then scOK else scVERIFY_FAIL, 0), t.2)

/-- STORE; `ok` is false where Bedrock fails. Mark: DESIGN CHOICE (log 59). -/
def State.svcStore (s : State) (ok : Bool) : State :=
  s.svcRun 4 fun s r =>
    match s.svcIn r with
    | (none, s) => ((scDENIED, 0), s)
    | (some b, s) =>
      if !ok then ((scSTORAGE_FAIL, 0), s)
      else
        let name := Config.actFile (r.args.take 16)
        let g := match fileOf s.desk.files name with
          | some f => f.gen + 1
          | none => 1
        ((scOK, 0), { s with desk.files := (s.desk.files.filter fun f => f.name != name) ++ [{ name, gen := g, data := b, crcOk := true }] })

/-- LOAD. -/
def State.svcLoad (s : State) : State :=
  s.svcRun 5 fun s r =>
    match fileOf s.desk.files (Config.actFile (r.args.take 16)) with
    | none => ((scBAD_PARAM, 0), s)
    | some f => s.svcOut r f.data

/-- FEED. -/
def State.svcFeed (s : State) : State := s.svcRun 0x8001 fun s _ => ((scOK, 0), s.put8 A.UNDERSTUDY_CTRL 0x80000000#32)

/-- PATROL: one reported block is refreshed; with nothing reported there is nothing to do. Mark: DEDUCED (log 107). -/
def State.svcPatrol (s : State) : State :=
  s.svcRun 0x8002 fun s _ =>
    match s.brk.patrol with
    | [] => ((scOK, 0), s)
    | (b, blk, _) :: _ =>
      let r := (s.patrolPop.2).brkIssue 8 opREFRESH (bedBase b + blk * blockLen b) []
      ((if r.1 = scACCEPTED then scOK else r.1, 0), r.2)

/-- RTC_SYNC. -/
def State.svcRtc (s : State) : State := s.svcRun 0x8003 fun s _ => if s.unsynced then ((scBUSY, 0), s) else ((scOK, 0), s.put8 A.REFUGE_RTC_SET s.seconds)

end Sys2Proof.Machine
end

