-- ==== Sys2Proof/Machine/Boot.lean ====
section
/-! DEFINITION. Start-up, clocks and reset (R395 to R411, R466, R467): what each kind of reset clears and keeps, the staged start, the Steward's restart, the root PLL, role
settlement and the supplies. -/

namespace Sys2Proof.Machine

/-! ## What a main-domain reset clears (R398, R399) -/

/-- RESET_OUT_N is high: the main domain is powered and released (R463). -/
def State.resetOutN (s : State) : Bool := s.live?

/-- The lifecycle that OTP holds: the one being programmed where DONE shows it; a programming that the reset interrupts leaves the old or the new one (R21). -/
def State.otpLifecycle (s : State) : Nat :=
  if s.flag F.SYS_LC_STAT_BUSY then (if s.draw % 2 = 1 then s.lcTarget else s.rd F.SYS_LC_STAT_PENDING_LC) else s.rd F.SYS_LC_STAT_PENDING_LC

/-- A curtain latch is set in the main domain or the Refuge. -/
def State.curtainLatched (s : State) : Bool := s.flag F.CURTAIN_STAT_LATCH || s.flag F.REFUGE_STAT_LATCH

/-- The mode that the reset rows of R17 choose. Mark: DEDUCED (log 110). -/
def bootMode (lc : Lifecycle) (latched : Bool) : Mode :=
  match lc with
  | .blank | .factory => .factory
  | .issued => if latched then .curtain else .rehearsal
  | .returned | .decommissioned => .curtain

/-- Registers outside the main domain's reset (R398): CURTAIN_HIST and the Refuge's; a warm reset keeps SYS_CLK_CFG, and the PLL, whose port goes down with the main domain, stays locked to XTAL_IN. Mark: DEDUCED (log 110). -/
def keptRegs (warm : Bool) : List Nat :=
  [A.CURTAIN_HIST, A.REFUGE_STAT, A.REFUGE_CFG] ++ (if warm then [A.SYS_CLK_CFG] else [])

/-- Timers of the tag domain go on over a reset; Stage Time starts again at 0. -/
def State.tagTimers (s : State) : List (Timer × Nat) :=
  s.timers.filterMap fun p => match p.1 with
    | .haltSilence | .fieldIdle => some (p.1, p.2 - s.now)
    | _ => none

/-- Bytes of Bedrock are kept; CLR and Terrace are zeroed (R210). -/
def State.keptMem (s : State) : List Host.Cell := s.mem.filter fun c => decide (0x20000000 ≤ c.1) && decide (c.1 < 0x22000000)

/-- What the Stage Manager keeps in Bedrock: images, keys, files, configurations. A transfer that the reset cuts off leaves its slot invalid. -/
def Desk.kept (d : Desk) : Desk :=
  { Desk.new with
    images := d.images.map fun p => if p.2.state = 1 ∨ p.2.state = 4 then (p.1, { p.2 with state := 3 }) else p
    selected := d.selected, keys := d.keys, kek := d.kek, streams := d.streams, files := d.files, storedCfg := d.storedCfg, prevCfg := d.prevCfg }

/-- The state after the main domain has been cleared: everything at reset but what R398 keeps. -/
def State.cleared (s : State) (warm : Bool) : State :=
  { State.reset with
    regs := s.regs.filter fun p => (keptRegs warm).contains p.1
    mem := s.keptMem
    power := s.power
    timers := s.tagTimers
    fresh := s.fresh + 2
    wire := s.wire
    pending := s.pending
    book := s.bookReset warm
    pin := { State.reset.pin with pins := s.pin.pins.map (fun p => (p.1, { PinSt.off with ext := p.2.ext })), supply := s.pin.supply, dead := s.pin.dead }
    chorus := { State.reset.chorus with ctxKey := padTo 32 (Config.freshKey (s.fresh + 1)) }
    brk := s.brk
    badge := { s.badge.resetMain with summaryDue := s.badge.summaryDue || s.flag F.BADGE_TS_STAT_PENDING }
    refuge := { s.refuge with rtcAt := 0 }
    desk := s.desk.kept
    otp := s.otp
    boot := { Boot.reset with held := s.boot.held, auxLost := s.boot.auxLost } }

/-- SYS_STATE, CURTAIN_STAT.LATCH, the lifecycle and the tag's bits after a reset (R17, R399). -/
def State.resetShow (s : State) (lc pair troupe tag : Nat) : State :=
  let latched := s.flag F.REFUGE_STAT_LATCH || s.flag F.CURTAIN_STAT_LATCH
  let s := ((s.wr F.SYS_STATE_PAIR_ROLE pair).wr F.SYS_STATE_TROUPE_ROLE troupe).wr F.SYS_STATE_LIFECYCLE lc
  let s := (s.wr F.SYS_LC_STAT_PENDING_LC lc).wr F.SYS_STATE_CURTAIN_LATCH (b2n latched)
  let s := (s.wr F.CURTAIN_STAT_LATCH (b2n latched)).wr F.SYS_STATE_MODE (bootMode (Lifecycle.ofCode lc) latched).code
  let s := s.wr ⟨A.BADGE_STAT, 31, 29⟩ tag
  s.setHeld (s.heldIn s.mode)

/-- The archive goes on after the pair with the highest SEQ (R415, R423). Mark: DEDUCED (log 79). -/
def State.archResume (s : State) : State :=
  let top := s.book.archived.foldl (fun (b : Nat × Nat) p => let q := p.2.foldl max 0; if b.2 < q then (p.1 + 1, q) else b) (0, 0)
  let at_ := top.1 % 1024
  ((s.wr F.PBOOK_ARCH_BLOCK (at_ / 16)).wr F.PBOOK_ARCH_PAIR (at_ % 16)).archShow.bookShow

/-- What a lifecycle that comes into force destroys (R2): RETURNED the customer keys, which are those in volume 0, the stream keys and the Refuge share that CRK rests on;
DECOMMISSIONED these and, at every start, the keys of the Massif. Mark: DEDUCED (log 128). -/
def State.destroyKeys (s : State) : State :=
  if s.lifecycle = .returned ∨ s.lifecycle = .decommissioned then { s.zeroShare with desk.keys := [], desk.streams := [] } else s

/-- A main-domain reset (R398): a running Bedrock command is abandoned, the rest is cleared, and `cause` is shown. Mark: DEDUCED (log 108), DESIGN CHOICE (log 109). -/
def State.mainReset (s : State) (cause : Nat) (warm : Bool) : State :=
  let s := s.rtcFold.brkAbandon
  let lc := s.otpLifecycle
  let main := s.flag F.CURTAIN_STAT_LATCH
  let pair := s.rd F.SYS_STATE_PAIR_ROLE
  let troupe := s.rd F.SYS_STATE_TROUPE_ROLE
  let tag := s.rd ⟨A.BADGE_STAT, 31, 29⟩
  let s := (s.cleared warm).wr F.CURTAIN_STAT_LATCH (b2n main)
  let s := ((s.resetShow lc pair troupe tag).destroyKeys).wr F.SYS_RESET_CAUSE_CAUSE cause
  s.archResume.refreshPins

/-- A source that a power-up finds in the Refuge (R333, R350, R352): both latches, a Class Z response, an entry of the Refuge log. In a BLANK device it is booked only (R334). -/
def State.wakeSource (s : State) (id : Nat) : State :=
  let s := s.wr ⟨A.CURTAIN_HIST, id, id⟩ 1
  if s.lifecycle = .blank then (s.irq 132).postU 0xB105 4 [id]
  else
    let s := if s.flag F.CURTAIN_STAT_CLASS_Z then s else (s.wr F.CURTAIN_STAT_FIRST id).wr F.CURTAIN_STAT_CLASS_Z 1
    let s := ((s.wr F.CURTAIN_STAT_LATCH 1).wr F.REFUGE_STAT_LATCH 1).wr F.SYS_STATE_CURTAIN_LATCH 1
    let s := s.zeroShare.logFree id
    let s := s.wr F.SYS_STATE_MODE (bootMode s.lifecycle true).code
    s.setHeld (s.heldIn s.mode)

/-- What the Refuge has to report at a power-up; a clock that was lost is announced too (R354). -/
def State.wakeRefuge (s : State) : State :=
  let lost := s.refuge.lostNew
  let alarm := s.refuge.cellAlarm
  let s : State := { s with refuge.lostNew := false, refuge.cellAlarm := false }
  let s := if lost then (s.wakeSource 0x0E).irq 143 else s
  if alarm then s.wakeSource 0x0F else s

/-! ## The kinds of reset -/

/-- The supplies have been in range together for 100 µs (R398, R466): a power-on reset; the PLL has still to lock. -/
def State.powerOnReset (s : State) : State :=
  let s := State.supplySwitch { s with power := true, pin.dead := false, boot.auxLost := false, boot.held := true }
  (s.mainReset 0 false).wakeRefuge

/-- RESET_N is honoured (R467): VDDIO_AUX is there, and has been for 100 µs since it came back. -/
def State.resetHeard (s : State) : Bool :=
  !s.boot.auxLost && (match s.boot.auxBack with | some t => decide (t + 100 * ticksPerUs ≤ s.now) || s.mode == .curtain | none => true)

/-- RESET_N low for 1 µs or more: as a power-on. -/
def State.pinReset (s : State) : State :=
  if s.power && s.resetHeard then State.mainReset { s with boot.held := true } 1 false else s

/-! ## The staged start (R401, R408) -/

/-- SYS_BOOT.STAGE changes; ELAPSED is the time since the release of reset. -/
def State.stage (s : State) (n : Nat) : State :=
  (s.wr F.SYS_BOOT_STAGE n).wr F.SYS_BOOT_ELAPSED (min (((s.now : Int) - s.boot.zeroAt).toNat / ticksPerMs) 65535)

/-- The Stage Manager copy that runs: of those that verify, the one with the higher version (R408). -/
def State.stewardCopy (s : State) : Option Nat :=
  let ok := fun (a : Nat) => Config.stewardOk (s.peek a 0x70000)
  match ok 0x20010000, ok 0x20410000 with
  | true, true => some (if Config.stewardVersion 0 < Config.stewardVersion 1 then 1 else 0)
  | true, false => some 0
  | false, true => some 1
  | false, false => none

/-- The Stage Manager starts from the copy that verified, or the Steward halts in the boot ROM (R401, step 5; R408). -/
def State.stewardStart (s : State) (k : State → State) : State :=
  match s.stewardCopy with
  | none => (s.setCore 8 { s.core 8 with running := false }).stage 0xE
  | some c => (k { s.wr F.SYS_BOOT_SM_COPY c with desk.running := true }).summaryTry

/-- The configuration that a start applies: the stored one if it verifies, else the previous one, with whether it is that (R408). Mark: DEDUCED (log 112). -/
def State.startConfig (s : State) : Option (Nat × Bool) :=
  if s.desk.storedCfg ≠ 0 ∧ Config.configOk s.desk.storedCfg (s.peek 0x20800000 0x40000) then some (s.desk.storedCfg, false)
  else if s.desk.prevCfg ≠ 0 ∧ Config.configOk s.desk.prevCfg (s.peek 0x20840000 0x40000) then some (s.desk.prevCfg, true)
  else none

/-- A commit of the start: at once, but the grid at its boundary. -/
def State.startCommit (s : State) (b : Nat) : State := if b = Base.STIME then s.blockGo b 1 0 else (s.blockGo b 0 0).commitDue b

/-- The blocks a start commits: COL first, then PINS (R244, R402). -/
def startBlocks (n : Nat) : List Nat := [Base.COL, Base.PINS] ++ (cfgBlocks n).filter fun b => b != Base.COL && b != Base.PINS

/-- Stream keys are loaded from volume 0 under the current KEK; without CRK none is (R408). -/
def State.loadStreams (s : State) : State :=
  if s.crk.isNone then s.post 0x100C 6 8 []
  else s.desk.streams.foldl (fun (s : State) p => match p.2 with
    | some k => (s.installKey p.1 k.kid 0 0 k.len256 k.value).2
    | none => s) s

/-- Steps 6 and 7 of a start into REHEARSAL. -/
def State.startRehearsal (s : State) : State :=
  let s := match s.startConfig with
    | none => s.put8 A.SCREE_CTRL (BitVec.twoPow 32 31)
    | some (n, old) =>
      let s := if old then (s.wr F.SYS_BOOT_CFG_FALLBACK 1).post 0x1008 6 8 [] else s
      let s := State.cfgStage { s.keepConfig n with cfg := n } n
      ((startBlocks n).foldl State.startCommit s).put8 A.SCREE_CTRL (BitVec.twoPow 32 31)
  let s := s.loadStreams
  if s.isDirector then s.rollCall else s

/-- A start into CURTAIN: the configuration verifies, Col defaults and PINS are committed, the Refuge log is copied (R401, R350). Mark: DESIGN CHOICE (log 88). -/
def State.startCurtain (s : State) : State :=
  let s := match s.startConfig with
    | none => s
    | some (n, _) =>
      ((Config.cfgWrites n).filter fun (w : Nat × Nat) => decide (Base.PINS ≤ w.1) && decide (w.1 < Base.PINS + 0x10000)).foldl
        (fun (s : State) (w : Nat × Nat) => s.put8 w.1 (BitVec.ofNat 32 w.2)) { s with cfg := n }
  (((s.startCommit Base.COL).startCommit Base.PINS).copyLog).stage 0xF

/-- The cause of a transition that a reset forces. -/
abbrev causeReset : Nat := 6

/-- The share that the start sends to the Massif: none while it is zero or a latch is set (R331). -/
def State.crkShare (s : State) : Option (List Byte) := if s.flag F.REFUGE_STAT_LATCH then none else s.refuge.share

/-- What the record of a transition forced by a reset gives as the old mode: CURTAIN for the row CURTAIN to REHEARSAL of R17, which a warm reset completes; for the rows that
begin at Reset the manual names no mode, so it is free. Mark: DESIGN CHOICE (log 111). -/
def State.oldMode (s : State) (was : Option Mode) : Nat :=
  match was, s.mode with
  | some .curtain, .rehearsal => Mode.curtain.code
  | _, _ => s.draw

/-- Steps 3 to 7 (R401), `was` the mode before a warm reset. The mode is booked as R19 asks. In CURTAIN a challenge is drawn (R340). A DECOMMISSIONED device has no keys to
rebuild (R2). Mark: DESIGN CHOICE (log 111), DEDUCED (log 112, 128). -/
def State.startUp (s : State) (was : Option Mode) : State :=
  let s := (s.next.post 0x1001 3 8 [s.oldMode was, s.mode.code, Config.modeCause causeReset]).stage 1
  let s := if s.mode == .curtain then s.drawChallenge else s
  let s := s.startCore 8 0x20000
  let s := (if s.lifecycle = .decommissioned then s else s.rebuildKeys s.crkShare).stage 2
  s.stewardStart fun s =>
    let s := (s.wr F.HOST_CFG_EN 1).stage 3
    if s.mode == .curtain then s.startCurtain else if s.mode == .rehearsal then s.startRehearsal else s

/-- The root PLL locks to XTAL_IN: the main domain is released and the start goes on (R401, steps 2 to 7). Mark: DESIGN CHOICE (log 2), DEDUCED (log 108). -/
def State.pllLock (s : State) : State :=
  if !s.power || s.rd F.SYS_BOOT_STAGE != 0 || s.desk.running then s
  else State.startUp { s with boot.held := false } none

/-- A warm reset that SYS_RESET asked for (R398): the PLL stays locked. -/
def State.warmReset (s : State) : State :=
  if s.live? && s.boot.warmDue then (s.mainReset 2 true).startUp (some s.mode) else s

/-! ## The early act (R401 to R404) -/

/-- Until the servo first leaves FREERUN, Stage Time is stepped by 1 s at the next boundary before the table is loaded, and the grid is kept on the merging units (R404). -/
def State.alignStart (s : State) : State :=
  if s.servo ≠ servoFREERUN then s
  else
    let s := (s.setReg A.STIME_STEP_LO (BitVec.ofNat 32 ticksPerSecond)).setReg A.STIME_STEP_HI 0
    { s.put8 A.STIME_CTRL (setBits (s.reg A.STIME_CTRL) 31 31 1) with boot.aligning := true, boot.aligned := false }

/-- UL_ALIVE_IN has accepted an edge within the last 1 ms. -/
def State.partnerAlive (s : State) : Bool :=
  s.rd F.SYS_STATE_PAIR_ROLE != 0 && (match s.boot.aliveAt with | some t => decide (s.now ≤ t + ticksPerMs) | none => false)

/-- Step 8 (R401, R403, R408): the early act starts, is withheld while the partner holds protection, or fails to verify. Mark: DEDUCED (log 113). -/
def State.earlyActStart (s : State) : State :=
  if s.mode != .rehearsal || !s.desk.running || s.rd F.SYS_BOOT_STAGE != 3 || s.cfg == 0 then s
  else
    let s :=
      if !Config.actOk s.cfg s.earlyArea then s.post 0x1009 6 8 []
      else if s.partnerAlive then (s.wr F.SYS_BOOT_EARLY_HELD 1).post 0x100D 3 8 []
      else s.alignStart.runEarly
    s.stage 4

/-- A grid commit of the Stage Manager for the next boundary. -/
def State.commitCall (s : State) (c : Int) : State :=
  let s := (s.setReg A.STIME_CALL_LO (BitVec.ofInt 32 c)).setReg A.STIME_CALL_HI (BitVec.ofInt 32 (c / 4294967296))
  s.blockGo Base.STIME 1 0

/-- R404: the first sample (smpCnt `smp`, arrival `arr`) sets CALL; then whenever the arrival offset, averaged over 16 frames (`avg` ticks after the boundary), leaves 10 to 30 µs, CALL brings it
back to 20 µs. -/
def State.callAlign (s : State) (smp arr avg : Nat) : State :=
  if !s.boot.aligning || !s.desk.running || s.servo != servoFREERUN || s.pendingIn Base.STIME then s
  else if !s.boot.aligned then
    ({ s with boot.aligned := true } : State).commitCall ((arr : Int) - 10000 - boundaryAt 0 s.rate smp)
  else if avg < 10 * ticksPerUs ∨ 30 * ticksPerUs < avg then s.commitCall ((s.call : Int) + avg - 20 * ticksPerUs)
  else s

/-- R405: at the first PTP offset sample Stage Time is stepped by −C and the grid is committed with it: a Player keeps the Director's CALL, any other device takes a whole TAI second. The
alignment of R404 stops. -/
def State.gridToPtp (s : State) : State :=
  if s.boot.onPtp || s.stime.ptpSeen == 0 || !s.desk.running || s.mode != .rehearsal then s
  else
    let c : Int := (s.reg A.STIME_COARSE_HI).toInt * 4294967296 + (s.reg A.STIME_COARSE_LO).toNat
    let s := (s.setReg A.STIME_STEP_LO (BitVec.ofInt 32 (-c))).setReg A.STIME_STEP_HI (BitVec.ofInt 32 (-c / 4294967296))
    let s := s.put8 A.STIME_CTRL (setBits (s.reg A.STIME_CTRL) 31 31 1)
    let s : State := { s with boot.onPtp := true, boot.aligning := false }
    let t := ((s.now : Int) - c).toNat / ticksPerSecond
    if s.isPlayer then s else (s.blockAbort Base.STIME).commitCall (Config.gridCall t % (t + 1) * ticksPerSecond : Nat)

/-! ## Role settlement (R406, R407) -/

/-- Step 9 (R401, R408): the selected full act and the cue table verify, or the other copy is used; a paired device writes JOIN. -/
def State.verifyFull (s : State) : State :=
  if s.rd F.SYS_BOOT_STAGE ≠ 4 ∨ s.boot.judged then s
  else
    let cues := Config.cuesOk s.cfg (s.peek 0x20880000 0x50000)
    let ok := fun (sel : Nat) => cues && Config.actOk s.cfg (s.fullArea sel)
    let a := s.desk.selected
    let b := 3 - a
    let s : State := { s with boot.judged := true }
    if !ok a && !ok b then s.post 0x100B 6 8 []
    else
      let s : State := if ok a then s else State.post { s with desk.selected := b } 0x100A 5 8 []
      let s := ((s.wr F.SYS_BOOT_FULL_OK 1).wr F.SYS_BOOT_FULL_SLOT (s.desk.selected - 1)).stage 5
      if s.rd F.SYS_STATE_PAIR_ROLE ≠ 0 then s.put8 A.UNDERSTUDY_CTRL (BitVec.twoPow 32 30) else s

/-- `t` has passed since JOIN. -/
def State.sinceJoin (s : State) (t : Nat) : Bool := match s.boot.joinedAt with | some j => decide (j + t ≤ s.now) | none => false

/-- The mode that the table of R406 requests now. -/
def State.settledMode (s : State) : Option Mode :=
  if s.rd F.SYS_STATE_PAIR_ROLE = 0 then some .lead
  else if s.peerLeads then (if s.us.firstFull then some .understudy else none)
  else if s.keyed then
    if !s.peerKnown then none
    else if s.isPrincipal then some .lead
    else if s.sinceJoin (30 * ticksPerSecond) then some .lead else none
  else if s.sinceJoin (2 * ticksPerSecond) then some .lead
  else none

/-- The early act's COMMIT cues have completed their tickets. -/
def State.commitsDone (s : State) : Bool :=
  s.cue.tickets.all fun p => match p.2 with
    | some t => (s.cueEnt t.cue).action != 4
    | none => true

/-- R406, R407: once the full act has verified and time is fit, the Stage Manager stops the early act's cues and cores, loads the full cue table, requests the mode and lets the engine run. Mark: DEDUCED (log 113). -/
def State.roleSettlement (s : State) : State :=
  if s.mode != .rehearsal || !s.desk.running || s.boot.settling then s
  else
    let s := s.verifyFull
    if s.rd F.SYS_BOOT_STAGE ≠ 5 ∨ !s.timeFit ∨ !s.commitsDone ∨ s.modeReq.isSome then s
    else match s.settledMode with
      | none => s
      | some m => s.handToFull m

/-- The power of a full act's banks T16 to T63 is committed with WHEN = 0b00. -/
def State.powerAct (s : State) (area : List Byte) : State :=
  let s := (Config.actBanks area).foldl (fun (s : State) b => if 16 ≤ b.1 ∧ b.1 < 64 then s.put8 (A.TERRACE_BANK b.1) (BitVec.ofNat 32 b.2) else s) s
  (s.blockGo Base.TERRACE 0 0).commitDue Base.TERRACE

/-- The start-up settles; the Stage Manager commits a summary (R439). -/
def State.settled (s : State) : State := State.summaryOwed { s with boot.settling := false }

/-- In INTERVAL the early act holds protection while no healthy partner does (R16): it is started at the boundary. Mark: DEDUCED (log 129). -/
def State.intervalAct (s : State) : State :=
  if s.mode == .interval && !s.partnerHolds && !s.flag F.SYS_BOOT_EARLY_OK && s.desk.running && s.earlyReady then s.toEarly else s

/-- After a boundary (R407): with the mode changed, cores 0 to 7 start at the full act's entry points, or for UNDERSTUDY from the applied checkpoints, and its banks are powered; a refused request
brings the early act back. -/
def State.afterBoundary (s : State) : State :=
  if !s.boot.settling then s.intervalAct
  else
    let area := s.fullArea (1 + s.rd F.SYS_BOOT_FULL_SLOT)
    if s.mode == .lead then (((s.settled.startAct area).powerAct area).wr F.SYS_BOOT_EARLY_OK 0).stage 6
    else if s.mode == .understudy then (((((List.range 8).foldl State.resumeCore s.settled)).powerAct area).wr F.SYS_BOOT_EARLY_OK 0).stage 6
    else if (s.mode == .rehearsal || s.mode == .interval) && s.modeReq.isSome then s
    else if s.mode == .rehearsal || s.mode == .interval then
      let s := if s.flag F.SYS_BOOT_EARLY_OK then s.settled.runEarly else s.settled
      s.post 0x100E 5 8 []
    else s.settled

/-! ## The Steward's restart (R410) -/

/-- The Steward's core-local RAM is zeroed, and its command in hand and those that wait are lost. -/
def State.stewardWipe (s : State) : State :=
  let lo := 0x08000000 + 8 * 0x40000
  { s.wipe lo (lo + 0x40000) with
    boot.stwDue := none
    desk.running := false
    desk.cmds := []
    terr.bad := s.terr.bad.filter fun w => !(decide (lo ≤ w) && decide (w < lo + 0x40000))
    terr.writeback := s.terr.writeback.filter fun w => !(decide (lo ≤ w) && decide (w < lo + 0x40000)) }

/-- A restart counts among those of the last ten minutes. -/
def State.stewardCount (s : State) : State :=
  { s with boot.restarts := s.now :: s.boot.restarts.filter fun t => decide (s.now < t + 600 * ticksPerSecond) }

/-- The Steward restarts: its registers and core-local RAM, sessions and commands in flight are cleared. Mark: DEDUCED (log 50). -/
def State.stewardRestart (s : State) : State :=
  match s.boot.stwDue with
  | none => s
  | some cause =>
    if !s.live? then s
    else
      let s := s.stewardWipe.closeAll.setCore 8 { CoreSt.reset with pc := 0x20000#32, running := true, cgear := (s.core 8).cgear }
      let s := (s.wr F.SYS_RESET_CAUSE_CAUSE cause).sat F.SYS_RESET_CAUSE_STW_RESTARTS
      let s := if cause = 4 then s.post 0x1003 7 8 [] else s
      let s := s.stewardCount
      if s.boot.restarts.length < 3 then s
      else
        let s := State.post { s with boot.restarts := [] } 0x1004 7 8 []
        if s.mode == .lead && s.peerHealthy then { s with us.hoRequest := true } else s

/-- The service queues are emptied: their requests are not answered. -/
def State.emptyServices (s : State) : State := (List.range 9).foldl State.loseRequests s

/-- The Stage Manager, verified again, reattaches: it reads the live state, applies nothing and restarts no core. -/
def State.stewardReattach (s : State) : State :=
  if !s.live? || s.desk.running || s.rd F.SYS_BOOT_STAGE < 3 || s.rd F.SYS_BOOT_STAGE == 0xE then s
  else s.stewardStart fun s => ({ s.closeAll with desk.cmds := [] } : State).emptyServices

/-! ## The root PLL (R397, R408) -/

/-- A recovered clock `diff` × 0.01 ppm above XTAL_IN has been held for 100 ms: within ±100 ppm and with the link up, the PLL moves to it. -/
def State.recoveredQualify (s : State) (diff : Int) : State :=
  if !s.live? || !s.flag F.SYS_CLK_CFG_RECOVERED then s
  else
    let s := s.wr F.SYS_CLK_STAT_DIFF (unsigned 16 diff)
    if s.flag F.SYS_CLK_STAT_ON_RECOVERED || !s.linkUp (s.rd F.SYS_CLK_CFG_PORT) || decide (10000 < diff.natAbs) then s
    else (s.wr F.SYS_CLK_STAT_ON_RECOVERED 1).postU 0x1005 3 [1]

/-- The port lost its lock or left ±100 ppm: the PLL returns to XTAL_IN. Mark: DEDUCED (log 115). -/
def State.recoveredLoss (s : State) : State :=
  if !s.live? || !s.flag F.SYS_CLK_STAT_ON_RECOVERED then s
  else s.recoveredGone

/-- The PLL has not locked for 10 ms: the main domain stays in reset and the lock is tried again. -/
def State.pllRetry (s : State) : State := s

/-! ## Supplies (R411, R467) -/

/-- Main power fails (R411): every cue pin goes to high impedance, what runs in Bedrock is abandoned, the main domain is held in reset and the Refuge moves to VBAT. Mark: DEDUCED (log 108). -/
def State.powerFailure (s : State) : State :=
  if !s.power then s
  else
    let s := State.refreshPins { s with pin.dead := true, boot.held := true }
    State.supplySwitch { s.mainReset 0 false with power := false }

/-- VDDIO_AUX is lost while the main domain runs: no reset; a record. -/
def State.auxLoss (s : State) : State :=
  if !s.live? || s.boot.auxLost then s else State.postU { s with boot.auxLost := true, boot.auxBack := none } 0x1007 5 []

/-- VDDIO_AUX is back: RESET_N is honoured again after 100 µs. -/
def State.auxReturn (s : State) : State := if s.boot.auxLost then { s with boot.auxLost := false, boot.auxBack := some s.now } else s

/-- The balls of VDDIO_AUX stand still while it is lost. -/
def State.aux (s : State) (k : State → State) : State := if s.boot.auxLost then s else k s

/-- UL_ALIVE_IN has accepted an edge (R252, R403). -/
def State.aliveEdge (s : State) : State := { s with us.aliveSeen := true, boot.aliveAt := some s.now }

/-- An event of a main domain that runs. -/
def State.awake (s : State) (k : State → State) : State := if s.live? then k s else s

/-- A source of R333 asserts. CLOCK is armed at the first lock after a reset (R396); the two Refuge sources are found at a power-up and by nobody else. Mark: DEDUCED (log 87). -/
def State.sourceAssert (s : State) (id : Nat) : State :=
  if id = 0 ∨ 0x0E ≤ id ∨ (id = 6 ∧ s.boot.held) then s else s.curtainAssert id

/-- A group supply changes (R229): 1 the 1.8 V range, 2 the 3.3 V range, any other value neither. -/
def State.supplyEvent (s : State) (g v : Nat) : State := State.checkSupply { s with pin.supply := put noneAt s.pin.supply g (some v) } g

/-- The paired block of a number: the blocks with a BLOCK_COMMIT register, in the order of the register map. -/
def pairedBase (b : Nat) : Nat := pairedBlocks.getD b Base.COL

end Sys2Proof.Machine
end

