-- ==== Sys2Proof/Machine/ExecBadgeCmd.lean ====
section
/-! DEFINITION. Meanings of the commands of the family BadgeCmd: each is one shared operation with the command's operands. -/

namespace Sys2Proof.Machine

/-- FIELD_ON: Reader carrier on, giving the card 5 ms to power (R433). -/
def execFieldOn (m : Nat) (s : State) : Host.Outcome State Fault Refusal :=
  .next (s.store m A.BADGE_RD_CTRL (BitVec.ofNat 32 (2 ^ 31 + 1 * 2 ^ 28)))

/-- FIELD_OFF: Reader carrier off (R433). -/
def execFieldOff (m : Nat) (s : State) : Host.Outcome State Fault Refusal :=
  .next (s.store m A.BADGE_RD_CTRL (BitVec.ofNat 32 (2 ^ 31 + 2 * 2 ^ 28)))

/-- ACTIVATE: Reader activation through REQA to PPS (R433). -/
def execActivate (m : Nat) (rate : Nat) (s : State) : Host.Outcome State Fault Refusal :=
  .next (s.store m A.BADGE_RD_CTRL (BitVec.ofNat 32 (2 ^ 31 + 3 * 2 ^ 28 + rate * 2 ^ 26)))

/-- EXCHANGE: Reader sends one ISO-DEP message and receives the reply (R433). -/
def execExchange (m : Nat) (len : Nat) (s : State) : Host.Outcome State Fault Refusal :=
  .next (s.store m A.BADGE_RD_CTRL (BitVec.ofNat 32 (2 ^ 31 + 4 * 2 ^ 28 + len)))

/-- DESELECT: Reader DESELECT then carrier off (R433). -/
def execDeselect (m : Nat) (s : State) : Host.Outcome State Fault Refusal :=
  .next (s.store m A.BADGE_RD_CTRL (BitVec.ofNat 32 (2 ^ 31 + 5 * 2 ^ 28)))

/-- READER_OP_DONE: A reader operation ends with its status and fires source 176 (R433). -/
def execReaderOpDone (st : Nat) (rx : List Byte) (badge : Bool) (s : State) : Host.Outcome State Fault Refusal :=
  .next (s.readerDone st rx badge)

/-- CARRIER_IDLE_OFF: A carrier left on for 2 s without an operation is switched off (R433). -/
def execCarrierIdleOff (s : State) : Host.Outcome State Fault Refusal :=
  .next (s.fire .carrier State.carrierIdle)

/-- DETUNING_PING: A periodic carrier burst measures the antenna and may set CARD (R432). -/
def execDetuningPing (amp : Nat) (s : State) : Host.Outcome State Fault Refusal :=
  .next (s.ping amp)

/-- EXT_FIELD_CHANGE: An external field appears or disappears, suppressing or resuming the reader (R430). -/
def execExtFieldChange (present : Bool) (s : State) : Host.Outcome State Fault Refusal :=
  .next (s.fieldChange present)

/-- TAG_POWER_UP: The tag domain powers up and rolls forward valid journal slots (R443). -/
def execTagPowerUp (supply : Bool) (s : State) : Host.Outcome State Fault Refusal :=
  .next (s.tagPowerUp supply)

/-- REQA: The tag answers REQA with ATQA unless halted (R429). -/
def execReqa (s : State) : Host.Outcome State Fault Refusal :=
  .next (s.reqa)

/-- WUPA: The tag answers WUPA unless in halt silence (R442). -/
def execWupa (s : State) : Host.Outcome State Fault Refusal :=
  .next (s.wupa)

/-- ANTICOLLISION: The tag takes part in anticollision with its UID (R429). -/
def execAnticollision (s : State) : Host.Outcome State Fault Refusal :=
  .next (s.anticollision)

/-- SELECT: The tag is selected and answers SAK (R429). -/
def execSelect (uid : List Byte) (s : State) : Host.Outcome State Fault Refusal :=
  .next (s.tagSelect uid)

/-- RATS: The tag answers ATS and opens a field session latching the generation (R440). -/
def execRats (s : State) : Host.Outcome State Fault Refusal :=
  .next (s.rats)

/-- PPS: The tag answers PPS at 106 kbit/s (R429). -/
def execPps (s : State) : Host.Outcome State Fault Refusal :=
  .next (s.tagPps)

/-- HLTA: The tag halts and starts its 2.0–2.4 s silence (R442). -/
def execHlta (s : State) : Host.Outcome State Fault Refusal :=
  .next (s.hlta)

/-- TAG_DESELECT: The tag is deselected and its session ends (R440). -/
def execTagDeselect (s : State) : Host.Outcome State Fault Refusal :=
  .next (s.tagDeselect)

/-- TAG_READ: The tag returns up to 15 store pages (R441). -/
def execTagRead (p : Nat) (n : Nat) (s : State) : Host.Outcome State Fault Refusal :=
  .next (s.tagRead p n)

/-- WRITE_MB: The tag journals a mailbox write, replies OK and copies it home (R443). -/
def execWriteMb (p : Nat) (n : Nat) (data : List Byte) (strong : Bool) (lost : Nat) (s : State) : Host.Outcome State Fault Refusal :=
  .next (s.writeMb p n data strong lost)

/-- FIELD_LOSS: The field disappears and the tag session ends (R440). -/
def execFieldLoss (s : State) : Host.Outcome State Fault Refusal :=
  .next (s.fieldLoss)

/-- HALT_SILENCE_END: The halt silence timer ends and the tag is idle (R442). -/
def execHaltSilenceEnd (s : State) : Host.Outcome State Fault Refusal :=
  .next (s.silenceEnd)

/-- BADGE_TS_COMMIT: GO starts programming the inactive summary copy, or is refused while pending (R444). -/
def execBadgeTsCommit (m : Nat) (max : Nat) (s : State) : Host.Outcome State Fault Refusal :=
  .next (s.store m A.BADGE_TS_COMMIT (BitVec.ofNat 32 (2 ^ 31 + max)))

/-- BADGE_TS_ABORT: ABORT stops a commit before its flip (R445). -/
def execBadgeTsAbort (m : Nat) (s : State) : Host.Outcome State Fault Refusal :=
  .next (s.store m A.BADGE_TS_COMMIT (BitVec.twoPow 32 30))

/-- TS_COMMIT_RESUME: A paused host commit resumes programming once the field is idle or absent (R445). -/
def execTsCommitResume (s : State) : Host.Outcome State Fault Refusal :=
  .next (s.tsResume)

/-- TS_FLIP: The generation record flips to the new copy once the field has been idle 1 ms (R444). -/
def execTsFlip (s : State) : Host.Outcome State Fault Refusal :=
  .next (s.tsFlip)

/-- BADGE_STAT_READ: A read of BADGE_STAT returns status and clears RECOVERIES (R443). -/
def execBadgeStatRead (m : Nat) (s : State) : Host.Outcome State Fault Refusal :=
  .next (s.load m A.BADGE_STAT)

/-- VDD_BADGE_LOSS: VDD_BADGE becomes absent: reader operations end with WRONG_MODE and the tag domain runs from the field or powers down (R467). -/
def execVddBadgeLoss (s : State) : Host.Outcome State Fault Refusal :=
  .next (s.badgeSupplyLoss)

end Sys2Proof.Machine
end

