-- ==== Sys2Proof/Machine/ExecBedrockCmd.lean ====
section
/-! DEFINITION. Meanings of the commands of the family BedrockCmd: each is one shared operation with the command's operands. -/

namespace Sys2Proof.Machine

/-- BRK_UNLOCK: Writes of the two unlock words arm the command page (R360). -/
def execBrkUnlock (m : Nat) (n : Nat) (w : Word) (s : State) : Host.Outcome State Fault Refusal :=
  .next (s.store m (A.BRK_UNLOCK n) w)

/-- UNLOCK_ARM_EXPIRY: An armed command page disarms after 1 ms (R360). -/
def execUnlockArmExpiry (n : Nat) (s : State) : Host.Outcome State Fault Refusal :=
  .next (s.fire (.brkArm n) (·.brkDisarm n))

/-- PROGRAM: Bedrock PROGRAM of one page, checked then accepted (R361). -/
def execProgram (m : Nat) (n : Nat) (a : Word) (src : Word) (s : State) : Host.Outcome State Fault Refusal :=
  .next (((s.store m (A.BRK_ADDR n) a).store m (A.BRK_SRC n) src).store m (A.BRK_CMD n) 0x80000001#32)

/-- PROGRAM_SAFE: Bedrock PROGRAM_SAFE of a page pair (R361). -/
def execProgramSafe (m : Nat) (n : Nat) (a : Word) (src : Word) (s : State) : Host.Outcome State Fault Refusal :=
  .next (((s.store m (A.BRK_ADDR n) a).store m (A.BRK_SRC n) src).store m (A.BRK_CMD n) 0x80000002#32)

/-- ERASE: Bedrock ERASE of a block (R361). -/
def execErase (m : Nat) (n : Nat) (a : Word) (s : State) : Host.Outcome State Fault Refusal :=
  .next ((s.store m (A.BRK_ADDR n) a).store m (A.BRK_CMD n) 0x80000003#32)

/-- INSPECT: Reports the state of each page of a block (R361). -/
def execInspect (m : Nat) (n : Nat) (a : Word) (s : State) : Host.Outcome State Fault Refusal :=
  .next ((s.store m (A.BRK_ADDR n) a).store m (A.BRK_CMD n) 0x80000004#32)

/-- REFRESH: Rewrites a block through the spare block in four phases (R369). -/
def execRefresh (m : Nat) (n : Nat) (a : Word) (s : State) : Host.Outcome State Fault Refusal :=
  .next ((s.store m (A.BRK_ADDR n) a).store m (A.BRK_CMD n) 0x80000005#32)

/-- BEDROCK_CMD_START: A waiting accepted command starts once fewer than two banks are busy (R364). -/
def execBedrockCmdStart (s : State) : Host.Outcome State Fault Refusal :=
  .next (s.brkStart)

/-- BEDROCK_CMD_DONE: A Bedrock command ends with OK, DENIED, VERIFY_FAIL or STORAGE_FAIL (R362). -/
def execBedrockCmdDone (b : Nat) (ok : Bool) (s : State) : Host.Outcome State Fault Refusal :=
  .next (s.bedrockDone b ok)

/-- ERASE_RESUME: 4 µs without a read resumes a suspended erase (R365). -/
def execEraseResume (b : Nat) (s : State) : Host.Outcome State Fault Refusal :=
  .next (s.fire (.brkResume b) (·.brkResume b))

/-- PATROL_READ: Patrol reads idle-bank lines and reports blocks needing refresh (R368). -/
def execPatrolRead (b : Nat) (blk : Nat) (bits : Nat) (pass : Bool) (s : State) : Host.Outcome State Fault Refusal :=
  .next (s.patrolRead b blk bits pass)

/-- PATROL_POP: A read of BRK_PATROL_POP pops a reported block (R368). -/
def execPatrolPop (m : Nat) (s : State) : Host.Outcome State Fault Refusal :=
  .next (s.load m A.BRK_PATROL_POP)

/-- BRK_ECC_CLEAR: A write to BRK_ECC zeroes both fields (R356). -/
def execBrkEccClear (m : Nat) (w : Word) (s : State) : Host.Outcome State Fault Refusal :=
  .next (s.store m A.BRK_ECC w)

end Sys2Proof.Machine
end

