-- ==== Sys2Proof/Machine/ExecBookCmd.lean ====
section
/-! DEFINITION. Meanings of the commands of the family BookCmd: each is one shared operation with the command's operands. -/

namespace Sys2Proof.Machine

/-- RECORD_ENTER_RING: A posted record enters the ring with the next SEQ, displacing one under R416 or dropping (R414). -/
def execRecordEnterRing (s : State) : Host.Outcome State Fault Refusal :=
  .next (s.recordEnter)

/-- LIMIT_WINDOW_END: A limiter window ends and any held record is written, opening the next window (R418). -/
def execLimitWindowEnd (code : Nat) (src : Nat) (s : State) : Host.Outcome State Fault Refusal :=
  .next (s.windowEnd code src)

/-- ARCHIVE_PAIR: With 128 unarchived records or ARCH_S elapsed, a pair is programmed into B4 (R423). -/
def execArchivePair (s : State) : Host.Outcome State Fault Refusal :=
  .next (s.archivePair)

/-- REC_LATCH_READ: A read of PBOOK_REC_r_0 latches the next record at or above the cursor (R420). -/
def execRecLatchRead (m : Nat) (r : Nat) (s : State) : Host.Outcome State Fault Refusal :=
  .next (s.load m (A.PBOOK_REC r 0))

/-- REC_FINAL_READ: A read of PBOOK_REC_r_7 advances the cursor past the latched record (R420). -/
def execRecFinalRead (m : Nat) (r : Nat) (s : State) : Host.Outcome State Fault Refusal :=
  .next (s.load m (A.PBOOK_REC r 7))

/-- PBOOK_CLEAR: A PBOOK_CLEAR write with GO removes records up to UPTO and books code 0x0002 (R422). -/
def execPbookClear (m : Nat) (upto : Word) (archive : Bool) (s : State) : Host.Outcome State Fault Refusal :=
  .next ((s.store m A.PBOOK_CLEAR_UPTO upto).store m A.PBOOK_CLEAR (BitVec.ofNat 32 (2 ^ 31 + b2n archive * 2 ^ 30)))

/-- PBOOK_DROP_CLEAR: A write to PBOOK_DROP_A or B zeroes it (R428). -/
def execPbookDropClear (m : Nat) (k : Nat) (w : Word) (s : State) : Host.Outcome State Fault Refusal :=
  .next (s.store m (A.PBOOK_DROP_A + 4 * k) w)

/-- TRACE_CFG_WRITE: A master-8 write of OBSERVE_TRACE_CFG changes trace sources and books code 0x0004 (R427). -/
def execTraceCfgWrite (m : Nat) (w : Word) (s : State) : Host.Outcome State Fault Refusal :=
  .next (s.store m A.OBSERVE_TRACE_CFG w)

/-- TRACE_PACKET_SEND: A queued trace item leaves on the trace port, or an OVERFLOW packet once room returns (R426). -/
def execTracePacketSend (s : State) : Host.Outcome State Fault Refusal :=
  .next (s.aux State.traceSend)

/-- OBSERVE_CNT_SNAP: SNAP copies every OBSERVE_CNT_k in one cycle (R428). -/
def execObserveCntSnap (m : Nat) (s : State) : Host.Outcome State Fault Refusal :=
  .next (s.store m A.OBSERVE_CNT_CTRL (BitVec.twoPow 32 31))

/-- OBSERVE_CNT_CLR: CLR zeroes the observation counters (R428). -/
def execObserveCntClr (m : Nat) (s : State) : Host.Outcome State Fault Refusal :=
  .next (s.store m A.OBSERVE_CNT_CTRL (BitVec.twoPow 32 30))

/-- TRACE_STAT_CLEAR: A write to OBSERVE_TRACE_STAT zeroes LOST (R426). -/
def execTraceStatClear (m : Nat) (w : Word) (s : State) : Host.Outcome State Fault Refusal :=
  .next (s.store m A.OBSERVE_TRACE_STAT w)

end Sys2Proof.Machine
end

