-- ==== Sys2Proof/Machine/ExecCartridgeCmd.lean ====
section
/-! DEFINITION. Meanings of the commands of the family CartridgeCmd: each is one shared operation with the command's operands. -/

namespace Sys2Proof.Machine

/-- CARD_INSERT: CT_CD falls and identification begins 100 ms later (R448). -/
def execCardInsert (s : State) : Host.Outcome State Fault Refusal :=
  .next (s.aux State.cardInsert)

/-- CARD_REMOVAL: CT_CD high for 1 ms stops the clock, releases lines and ends any operation (R453). -/
def execCardRemoval (phase : Nat) (done : Nat) (s : State) : Host.Outcome State Fault Refusal :=
  .next (s.aux (·.cardRemoval phase done))

/-- IDENTIFY: Cartridge identification of SD or MMC cards and mount (R448). -/
def execIdentify (cards : List Word) (extra : Bool) (count : Nat) (medium : List (Nat × List Byte)) (s : State) : Host.Outcome State Fault Refusal :=
  .next (s.aux (·.cartIdentify cards extra count medium))

/-- CART_READ: Cartridge block read into the buffer (R449). -/
def execCartRead (m : Nat) (card : Nat) (blocks : Nat) (lba : Word) (buf : Word) (s : State) : Host.Outcome State Fault Refusal :=
  .next (((s.store m A.CART_LBA lba).store m A.CART_BUF buf).store m A.CART_XFER (BitVec.ofNat 32 (2 ^ 31 + 1 * 2 ^ 28 + card * 2 ^ 26 + blocks)))

/-- CART_WRITE: Cartridge block write ending with CMD13 (R450). -/
def execCartWrite (m : Nat) (card : Nat) (blocks : Nat) (lba : Word) (buf : Word) (s : State) : Host.Outcome State Fault Refusal :=
  .next (((s.store m A.CART_LBA lba).store m A.CART_BUF buf).store m A.CART_XFER (BitVec.ofNat 32 (2 ^ 31 + 2 * 2 ^ 28 + card * 2 ^ 26 + blocks)))

/-- CMD13_STATUS: Cartridge card status read (R450). -/
def execCmd13Status (m : Nat) (card : Nat) (s : State) : Host.Outcome State Fault Refusal :=
  .next (s.store m A.CART_XFER (BitVec.ofNat 32 (2 ^ 31 + 3 * 2 ^ 28 + card * 2 ^ 26)))

/-- EJECT: Cartridge deselects every card and stops the clock (R454). -/
def execEject (m : Nat) (s : State) : Host.Outcome State Fault Refusal :=
  .next (s.store m A.CART_XFER (BitVec.ofNat 32 (2 ^ 31 + 4 * 2 ^ 28)))

/-- CART_OP_DONE: A cartridge operation ends with RESULT and DONE_BLOCKS, or times out (R449). -/
def execCartOpDone (res : Nat) (done : Nat) (data : List Byte) (s : State) : Host.Outcome State Fault Refusal :=
  .next (s.cartDone res done data)

end Sys2Proof.Machine
end

