-- ==== Sys2Proof/Machine/ExecChorusCmd.lean ====
section
/-! DEFINITION. Meanings of the commands of the family ChorusCmd: each is one shared operation with the command's operands. -/

namespace Sys2Proof.Machine

/-- ENC: A Chorus job encrypts NBLK blocks (R294). -/
def execEnc (c : Nat) (fault : Option (Nat × Nat)) (s : State) : Host.Outcome State Fault Refusal :=
  .next (s.blockRun c 1 fault)

/-- DEC: A Chorus job decrypts NBLK blocks (R294). -/
def execDec (c : Nat) (fault : Option (Nat × Nat)) (s : State) : Host.Outcome State Fault Refusal :=
  .next (s.blockRun c 2 fault)

/-- ENC_XOR: A Chorus job encrypts blocks and XORs them with XSRC (R294). -/
def execEncXor (c : Nat) (fault : Option (Nat × Nat)) (s : State) : Host.Outcome State Fault Refusal :=
  .next (s.blockRun c 3 fault)

/-- GATE_OPEN: Opens a gate session, computing H and EJ0 and wiping the previous session (R304). -/
def execGateOpen (c : Nat) (fault : Option (Nat × Nat)) (s : State) : Host.Outcome State Fault Refusal :=
  .next (s.jobRun c 4 fault fun j s => s.gateOpen c j)

/-- GATE_CTR: Decrypts ciphertext blocks into the gate in counter mode (R304). -/
def execGateCtr (c : Nat) (fault : Option (Nat × Nat)) (s : State) : Host.Outcome State Fault Refusal :=
  .next (s.blockRun c 5 fault)

/-- GATE_VERDICT: Compares the tag and releases or wipes the plaintext, writing a verdict record (R305). -/
def execGateVerdict (c : Nat) (s : State) : Host.Outcome State Fault Refusal :=
  .next (s.jobRun c 6 none fun j s => s.gateVerdict c j)

/-- WRAP: Key-wraps semiblocks under a WRAP slot for master 8 (R294). -/
def execWrap (c : Nat) (fault : Option (Nat × Nat)) (s : State) : Host.Outcome State Fault Refusal :=
  .next (s.jobRun c 7 fault fun j s => s.jobWrap j)

/-- UNWRAP: Key-unwraps semiblocks to DST or the unwrap buffer, or ends UNWRAP_FAIL (R294). -/
def execUnwrap (c : Nat) (fault : Option (Nat × Nat)) (s : State) : Host.Outcome State Fault Refusal :=
  .next (s.jobRun c 8 fault fun j s => s.jobUnwrap j)

/-- CTX_SAVE_CLEAR: Saves a channel context in clear, refused while a session is open (R308). -/
def execCtxSaveClear (c : Nat) (s : State) : Host.Outcome State Fault Refusal :=
  .next (s.jobRun c 9 none fun j s => s.ctxSaveClear c j)

/-- CTX_SAVE_WRAPPED: Saves a channel context wrapped under the context key (R308). -/
def execCtxSaveWrapped (c : Nat) (fault : Option (Nat × Nat)) (s : State) : Host.Outcome State Fault Refusal :=
  .next (s.jobRun c 10 fault fun j s => s.ctxSaveWrapped c j)

/-- CTX_RESTORE: Restores a channel context, or ends CTX_FAIL (R309). -/
def execCtxRestore (c : Nat) (fault : Option (Nat × Nat)) (s : State) : Host.Outcome State Fault Refusal :=
  .next (s.jobRun c 11 fault fun j s => s.ctxRestore c j)

/-- CHORUS_JOB_START: A queued Chorus job starts after the slot check taken twice by Double-take (R295). -/
def execChorusJobStart (c : Nat) (agree : Bool) (s : State) : Host.Outcome State Fault Refusal :=
  .next ((s.jobStart c agree).settle)

/-- CHORUS_JOB_DONE: A Chorus job ends with a status and writes a completion record (R296). -/
def execChorusJobDone (c : Nat) (s : State) : Host.Outcome State Fault Refusal :=
  .next (s.jobDone c)

/-- CHORUS_KEY_PUSH: A push appends a key slot load to the Chorus change list, or is refused (R301). -/
def execChorusKeyPush (m : Nat) (s : State) : Host.Outcome State Fault Refusal :=
  .next (s.store m A.CHORUS_KEY_PUSH (BitVec.twoPow 32 31))

/-- CHORUS_KEY_ERASE: A push with ERASE appends a slot zeroisation (R301). -/
def execChorusKeyErase (m : Nat) (s : State) : Host.Outcome State Fault Refusal :=
  .next (s.store m A.CHORUS_KEY_PUSH 0xC0000000#32)

/-- CHORUS_CNT_CLEAR: A write to CHORUS_CNT zeroes both fields (R300). -/
def execChorusCntClear (m : Nat) (w : Word) (s : State) : Host.Outcome State Fault Refusal :=
  .next (s.store m A.CHORUS_CNT w)

end Sys2Proof.Machine
end

