-- ==== Sys2Proof/Machine/ExecCues.lean ====
section
/-! DEFINITION. Meanings of the commands of the family Cues: each is one shared operation with the command's operands. -/

namespace Sys2Proof.Machine

/-- MARK: A MARK cue dispatches, is counted and serves as the named point for WHEN=0b10 commits (R56). -/
def execMark (i : Nat) (s : State) : Host.Outcome State Fault Refusal :=
  .next ((s.dispatch 0 i).settle)

/-- CORE_IRQ: A CORE_IRQ cue raises its cue interrupt source and records its ticket in CUE_SRC_TICKET_n (R56). -/
def execCoreIrq (i : Nat) (s : State) : Host.Outcome State Fault Refusal :=
  .next ((s.dispatch 1 i).settle)

/-- GATHER: A GATHER cue requests the ensemble's sample matrix from a gatherer (R56). -/
def execGather (i : Nat) (s : State) : Host.Outcome State Fault Refusal :=
  .next ((s.dispatch 2 i).settle)

/-- PIN_SET: A PIN_SET cue is pre-issued to its pin group 128 ticks ahead, or dropped for a collision or trip-pair pin (R60). -/
def execPinSet (i : Nat) (s : State) : Host.Outcome State Fault Refusal :=
  .next ((s.dispatch 3 i).settle)

/-- COMMIT: A COMMIT cue launches Double-take for its group, with commit time 512 ticks later (R56). -/
def execCommit (i : Nat) (s : State) : Host.Outcome State Fault Refusal :=
  .next ((s.dispatch 4 i).settle)

/-- EGRESS_RELEASE: An EGRESS_RELEASE cue pre-issues a release list to its port or pair 256 ns ahead (R102). -/
def execEgressRelease (i : Nat) (s : State) : Host.Outcome State Fault Refusal :=
  .next ((s.dispatch 5 i).settle)

/-- MIRROR: A MIRROR cue swaps current and sending dirty sets, forms DIGEST and starts the transfer to the partner (R213). -/
def execMirror (i : Nat) (s : State) : Host.Outcome State Fault Refusal :=
  .next ((s.dispatch 6 i).settle)

/-- QUEUE_KICK: A QUEUE_KICK cue makes a non-empty armed queue notify as the idle timeout would (R128). -/
def execQueueKick (i : Nat) (s : State) : Host.Outcome State Fault Refusal :=
  .next ((s.dispatch 7 i).settle)

/-- PACKER_SWAP: A PACKER_SWAP cue swaps the channel's banks, or completes its ticket with DONE_ERR (R141). -/
def execPackerSwap (i : Nat) (s : State) : Host.Outcome State Fault Refusal :=
  .next ((s.dispatch 8 i).settle)

/-- DOORBELL: A DOORBELL cue latches software doorbell source 216 + TINDEX (R56). -/
def execDoorbell (i : Nat) (s : State) : Host.Outcome State Fault Refusal :=
  .next ((s.dispatch 9 i).settle)

/-- STEWARD_JOB: A STEWARD_JOB cue writes a 64-byte request to queue Q+8 as master 17 (R392). -/
def execStewardJob (i : Nat) (s : State) : Host.Outcome State Fault Refusal :=
  .next ((s.dispatch 10 i).settle)

/-- PBOOK_MARK: A PBOOK_MARK cue writes a Prompt Book record of class 0xE (R56). -/
def execPbookMark (i : Nat) (s : State) : Host.Outcome State Fault Refusal :=
  .next ((s.dispatch 11 i).settle)

/-- PRE_ISSUE_RETRY: A pre-issued cue that found no room is issued when room frees, late if after its time (R60). -/
def execPreIssueRetry (i : Nat) (s : State) : Host.Outcome State Fault Refusal :=
  .next (s.retryPre i)

/-- PIN_CUE_EFFECT: A pre-issued PIN_SET reaches its time and changes the commanded level, or is dropped if FUNC is no longer cue output (R232). -/
def execPinCueEffect (p : Nat) (s : State) : Host.Outcome State Fault Refusal :=
  .next (s.pinCueDue p)

/-- PULSE_END: ARG16 ticks after a pulse began, the output returns low unless cancelled (R232). -/
def execPulseEnd (p : Nat) (s : State) : Host.Outcome State Fault Refusal :=
  .next (s.fire (.pulse p) (·.pulseEnd p))

/-- TICKET_DEADLINE: ST passes an OPEN ticket's deadline and the ticket becomes LATE with record, count, interrupt and booking (R64). -/
def execTicketDeadline (t : Nat) (s : State) : Host.Outcome State Fault Refusal :=
  .next (s.fire (.ticket t) (·.ticketLate t))

/-- TICKET_RECLAIM: RECLAIM_FRAMES boundaries after launch or lateness, a ticket is freed with status RECLAIMED (R65). -/
def execTicketReclaim (t : Nat) (s : State) : Host.Outcome State Fault Refusal :=
  .next (s.reclaim t)

/-- CUE_TICKET_DONE: A write to CUE_TICKET_DONE completes a ticket from its entitled master or master 8, or is counted stray (R66). -/
def execCueTicketDone (m : Nat) (t : Nat) (st : Nat) (s : State) : Host.Outcome State Fault Refusal :=
  .next (s.store m A.CUE_TICKET_DONE (BitVec.ofNat 32 (st * 2 ^ 28 + t)))

/-- CUE_EDIT_PUSH: A push appends or replaces a cue entry in the change list, or is refused with a REASON (R69). -/
def execCueEditPush (m : Nat) (i : Nat) (s : State) : Host.Outcome State Fault Refusal :=
  .next (s.store m A.CUE_EDIT_PUSH (BitVec.ofNat 32 (2 ^ 31 + i)))

/-- CUE_EDIT_DELETE: A push with DELETE appends a deletion of the cue index to the change list (R68). -/
def execCueEditDelete (m : Nat) (i : Nat) (s : State) : Host.Outcome State Fault Refusal :=
  .next (s.store m A.CUE_EDIT_PUSH (BitVec.ofNat 32 (2 ^ 31 + 2 ^ 30 + i)))

/-- CUE_LOAD_DATA_WRITE: A CUE_LOAD_DATA write stores a live word while RUN=0 and advances the load index, or is refused as live while RUN=1 (R70). -/
def execCueLoadDataWrite (m : Nat) (w : Word) (s : State) : Host.Outcome State Fault Refusal :=
  .next (s.store m A.CUE_LOAD_DATA w)

/-- CUE_LOAD_DATA_READ: A CUE_LOAD_DATA read returns the live word and advances WORD and INDEX (R70). -/
def execCueLoadDataRead (m : Nat) (s : State) : Host.Outcome State Fault Refusal :=
  .next (s.load m A.CUE_LOAD_DATA)

/-- CUE_RUN_SET: Setting RUN resumes dispatch, with one-shot cues due meanwhile treated as late (R61). -/
def execCueRunSet (m : Nat) (s : State) : Host.Outcome State Fault Refusal :=
  .next (s.store m A.CUE_CTRL 1#32)

/-- CUE_RUN_CLEAR: Clearing RUN stops further dispatch while pre-issued cues still take effect (R61). -/
def execCueRunClear (m : Nat) (s : State) : Host.Outcome State Fault Refusal :=
  .next (s.store m A.CUE_CTRL 0#32)

/-- CUE_CLR_CNT: A CUE_CTRL write with CLR_CNT clears CUE_CNT_A to C (R70). -/
def execCueClrCnt (m : Nat) (s : State) : Host.Outcome State Fault Refusal :=
  .next (s.store m A.CUE_CTRL (setBits (setBits 0#32 8 8 1) 0 0 (s.rd F.CUE_CTRL_RUN)))

end Sys2Proof.Machine
end

