-- ==== Sys2Proof/Machine/ExecCurtainCmd.lean ====
section
/-! DEFINITION. Meanings of the commands of the family CurtainCmd: each is one shared operation with the command's operands. -/

namespace Sys2Proof.Machine

/-- CURTAIN_SOURCE_ASSERT: A Curtain source asserts and the device enters CURTAIN with its Class Z or W response (R336). -/
def execCurtainSourceAssert (id : Nat) (s : State) : Host.Outcome State Fault Refusal :=
  .next (s.sourceAssert id)

/-- CURTAIN_ZERO_DONE: Zeroing completes at t+18.4 µs, source 134 fires and the entry is booked (R336). -/
def execCurtainZeroDone (s : State) : Host.Outcome State Fault Refusal :=
  .next (s.fire .curtainZero State.curtainZeroDone)

/-- JUNCTION_TEMP_WARN: Junction outside −40 to 125 °C sets CURTAIN_WARN without a response (R333). -/
def execJunctionTempWarn (hot : Bool) (s : State) : Host.Outcome State Fault Refusal :=
  .next (s.awake (·.junctionWarn hot))

/-- CURTAIN_CFG_WRITE: The one CURTAIN_CFG write after reset sets the classes and LOCKED; later writes are refused (R334). -/
def execCurtainCfgWrite (m : Nat) (w : Word) (s : State) : Host.Outcome State Fault Refusal :=
  .next (s.store m A.CURTAIN_CFG w)

/-- UNLOCK_BODY_CHECK: The Curtain checks a verified token body on the unlock path and clears the latches or refuses (R340). -/
def execUnlockBodyCheck (body : List Byte) (agree : Bool) (s : State) : Host.Outcome State Fault Refusal :=
  .next ((s.unlockCheck body agree).settle)

/-- UNLOCK_BLOCK_EXPIRY: 3,600 s of Refuge clock after 8 refusals, tokens are accepted again (R341). -/
def execUnlockBlockExpiry (s : State) : Host.Outcome State Fault Refusal :=
  .next (s.fire .unlockBlock State.unlockFree)

/-- DTAKE_CNT_CLEAR: A write to DTAKE_CNT_A zeroes both fields (R347). -/
def execDtakeCntClear (m : Nat) (w : Word) (s : State) : Host.Outcome State Fault Refusal :=
  .next (s.store m A.DTAKE_CNT_A w)

/-- REFUGE_LOOP_CHECK: The Refuge checks its loops, mesh and VBAT each period and raises a Class Z alarm on failure (R349). -/
def execRefugeLoopCheck (loop0 : Bool) (loop1 : Bool) (mesh : Bool) (pos : Word) (vbat : Nat) (s : State) : Host.Outcome State Fault Refusal :=
  .next (s.refugeCheck loop0 loop1 mesh pos vbat)

/-- REFUGE_SUPPLY_SWITCH: The Refuge switches between internal supply and VBAT within 1 µs (R348). -/
def execRefugeSupplySwitch (s : State) : Host.Outcome State Fault Refusal :=
  .next (s.supplySwitch)

/-- CELL_REMOVED: Cell removal under main power writes log entry 0x30 (R351). -/
def execCellRemoved (mv : Nat) (s : State) : Host.Outcome State Fault Refusal :=
  .next (s.cellRemoved mv)

/-- CELL_INSERTED: Cell insertion writes log entry 0x31 (R351). -/
def execCellInserted (mv : Nat) (s : State) : Host.Outcome State Fault Refusal :=
  .next (s.cellInserted mv)

/-- VBAT_LOW: VBAT below 2.6 V under main power writes log entry 0x34 (R351). -/
def execVbatLow (mv : Nat) (s : State) : Host.Outcome State Fault Refusal :=
  .next (s.vbatLow mv)

/-- REFUGE_RTC_SET: A write to REFUGE_RTC_SET loads the seconds, sets RTC_OK and logs 0x32 (R351). -/
def execRefugeRtcSet (m : Nat) (w : Word) (s : State) : Host.Outcome State Fault Refusal :=
  .next (s.store m A.REFUGE_RTC_SET w)

/-- REFUGE_LOOP_ENABLE: A REFUGE_CFG write sets loop enables, which clear only by unlock or loss (R349). -/
def execRefugeLoopEnable (m : Nat) (w : Word) (s : State) : Host.Outcome State Fault Refusal :=
  .next (s.store m A.REFUGE_CFG w)

/-- LOG_MARK_COPIED: A REFUGE_LOG_SEL write with bit 31 sets COPIED on the selected entry (R351). -/
def execLogMarkCopied (m : Nat) (i : Nat) (s : State) : Host.Outcome State Fault Refusal :=
  .next (s.store m A.REFUGE_LOG_SEL (BitVec.ofNat 32 (2 ^ 31 + i)))

/-- REFUGE_POWER_LOSS: With main power off, VBAT falls below 2.0 V or the cell is absent and the Refuge loses its share, latch, log and clock, to report LOST at the next power-up (R352). -/
def execRefugePowerLoss (s : State) : Host.Outcome State Fault Refusal :=
  .next (s.refugeLose)

/-- CURTAIN_SOURCE_CLEARS: A Curtain source's condition stops holding, so its CURTAIN_STAT.ACTIVE bit clears and an unlock is no longer refused with BUSY (R333). -/
def execCurtainSourceClears (id : Nat) (s : State) : Host.Outcome State Fault Refusal :=
  .next (s.curtainClear id)

end Sys2Proof.Machine
end

