-- ==== Sys2Proof/Machine/ExecFrame.lean ====
section
/-! DEFINITION. Meanings of the commands of the family Frame: each is one shared operation with the command's operands. -/

namespace Sys2Proof.Machine

/-- FRAME_BOUNDARY: Stage Time reaches a frame boundary: a due mode change, pending step or grid commit, WHEN=0b01 sets, frame advance, standing-cue rearm and offset-0 cues take effect in order (R50). -/
def execFrameBoundary (agree : Bool) (s : State) : Host.Outcome State Fault Refusal :=
  .next (((s.boundary agree).afterBoundary).settle)

/-- REGISTER_WRITE: A write to a register with no row of its own obeys its access code, going to the staging copy for ST fields (R3). -/
def execRegisterWrite (m : Nat) (a : Nat) (w : Word) (s : State) : Host.Outcome State Fault Refusal :=
  .next (s.store m a w)

/-- MODE_REQ_GO: A SYS_MODE_REQ write with GO requests a transition at the next boundary, or is refused and counted (R17). -/
def execModeReqGo (m : Nat) (t : Nat) (s : State) : Host.Outcome State Fault Refusal :=
  .next (s.store m A.SYS_MODE_REQ (BitVec.ofNat 32 (2 ^ 31 + t)))

/-- LC_ADV_WRITE: A SYS_LC_ADV write with the key and an accepted TARGET starts OTP lifecycle programming, or is refused (R21). -/
def execLcAdvWrite (m : Nat) (w : Word) (s : State) : Host.Outcome State Fault Refusal :=
  .next (s.store m A.SYS_LC_ADV w)

/-- LC_PROGRAM_DONE: OTP lifecycle programming ends after 2 ms and sets DONE, effective at the next main-domain reset (R21). -/
def execLcProgramDone (s : State) : Host.Outcome State Fault Refusal :=
  .next (s.fire .lcProgram State.lcDone)

/-- COMMIT_GO: A BLOCK_COMMIT write with GO makes the staged set pending for its WHEN, or is refused and counted (R28). -/
def execCommitGo (m : Nat) (b : Nat) (when_ : Nat) (c : Nat) (s : State) : Host.Outcome State Fault Refusal :=
  .next (s.store m (A.BLOCK_COMMIT (pairedBase b)) (BitVec.ofNat 32 (2 ^ 31 + when_ * 2 ^ 28 + c)))

/-- COMMIT_ABORT: A BLOCK_COMMIT write with ABORT discards a pending commit and sets ABORTED (R28). -/
def execCommitAbort (m : Nat) (b : Nat) (s : State) : Host.Outcome State Fault Refusal :=
  .next (s.store m (A.BLOCK_COMMIT (pairedBase b)) (BitVec.ofNat 32 (2 ^ 30)))

/-- COMMIT_CLRCNT: A BLOCK_COMMIT write with CLRCNT clears BLOCK_REFUSED (R28). -/
def execCommitClrcnt (m : Nat) (b : Nat) (s : State) : Host.Outcome State Fault Refusal :=
  .next (s.store m (A.BLOCK_COMMIT (pairedBase b)) (BitVec.ofNat 32 (2 ^ 27)))

/-- COMMIT_APPLY: A WHEN=0b00 commit is applied in the first cycle in which no operation of the block is under way (R26). -/
def execCommitApply (b : Nat) (s : State) : Host.Outcome State Fault Refusal :=
  .next (s.commitDue (pairedBase b))

/-- STIME_NOW_READ: A read of STIME_NOW_LO returns ST[31:0] and latches ST[63:32] for the reading master (R36). -/
def execStimeNowRead (m : Nat) (s : State) : Host.Outcome State Fault Refusal :=
  .next (s.load m A.STIME_NOW_LO)

/-- STIME_FRAME_READ: A read of STIME_FRAME_LO returns the frame number's low bits and latches STIME_FRAME_HI (R49). -/
def execStimeFrameRead (m : Nat) (s : State) : Host.Outcome State Fault Refusal :=
  .next (s.load m A.STIME_FRAME_LO)

/-- STIME_COARSE_READ: A read of STIME_COARSE_LO latches STIME_COARSE_HI for the reading master (R45). -/
def execStimeCoarseRead (m : Nat) (s : State) : Host.Outcome State Fault Refusal :=
  .next (s.load m A.STIME_COARSE_LO)

/-- STEP_GO: A STIME_CTRL write with STEP_GO sets a step pending for the next boundary, or is refused in LEAD and UNDERSTUDY (R40). -/
def execStepGo (m : Nat) (s : State) : Host.Outcome State Fault Refusal :=
  .next (s.store m A.STIME_CTRL (setBits (s.reg A.STIME_CTRL) 31 31 1))

/-- SERVO_LOSS_TIMEOUT: No sample for LOSS_TIMEOUT moves the servo to HOLDOVER (R41). -/
def execServoLossTimeout (s : State) : Host.Outcome State Fault Refusal :=
  .next (s.fire .servoLoss State.servoLoss)

/-- HOLD_LIMIT_EXPIRY: HOLD_ELAPSED reaches HOLD_LIMIT in HOLDOVER and UNSYNCED is set (R43). -/
def execHoldLimitExpiry (s : State) : Host.Outcome State Fault Refusal :=
  .next (s.fire .holdLimit State.refreshUnsynced)

/-- SERVO_SRC_SWITCH: With SRC=0b11 the servo switches to IRIG-B at the next on-time mark, or back to PTP after LOCK_COUNT intervals (R44). -/
def execServoSrcSwitch (s : State) : Host.Outcome State Fault Refusal :=
  .next (s.servoSwitch)

end Sys2Proof.Machine
end

