-- ==== Sys2Proof/Machine/ExecHostCmd.lean ====
section
/-! DEFINITION. Meanings of the commands of the family HostCmd: each is one shared operation with the command's operands. -/

namespace Sys2Proof.Machine

/-- READ_STATUS: Host instruction returning the status word and clearing ERR (R376). -/
def execReadStatus (s : State) : Host.Outcome State Fault Refusal :=
  .next (s.hostReadStatus)

/-- WRITE: Host instruction writing one packet on one line (R377). -/
def execWrite (packet : List Byte) (s : State) : Host.Outcome State Fault Refusal :=
  .next (s.hostWrite false packet)

/-- QWRITE: Host instruction writing one packet on four lines (R377). -/
def execQwrite (packet : List Byte) (s : State) : Host.Outcome State Fault Refusal :=
  .next (s.hostWrite true packet)

/-- READ: Host instruction reading the oldest reply, removed once fully clocked out (R377). -/
def execRead (n : Nat) (s : State) : Host.Outcome State Fault Refusal :=
  .next (s.hostRead false n)

/-- QREAD: Host instruction reading the oldest reply on four lines (R377). -/
def execQread (n : Nat) (s : State) : Host.Outcome State Fault Refusal :=
  .next (s.hostRead true n)

/-- HOST_CNT_CLEAR: A write to HOST_CNT zeroes both fields (R377). -/
def execHostCntClear (m : Nat) (w : Word) (s : State) : Host.Outcome State Fault Refusal :=
  .next (s.store m A.HOST_CNT w)

/-- COMMAND_EXEC_START: A command waiting in its group starts, rechecked for rights and mode (R375). -/
def execCommandExecStart (g : Nat) (s : State) : Host.Outcome State Fault Refusal :=
  .next (s.startCmd g)

/-- COMMAND_FINAL_REPLY: An ACCEPTED command completes and its final reply is queued (R374). -/
def execCommandFinalReply (i : Nat) (ok : Bool) (agree : Bool) (s : State) : Host.Outcome State Fault Refusal :=
  .next ((s.finalReply i ok agree).settle)

/-- SESSION_PENDING_TIMEOUT: A PENDING session is freed 10 s after its reply (R380). -/
def execSessionPendingTimeout (n : Nat) (s : State) : Host.Outcome State Fault Refusal :=
  .next (s.fire (.sessPending n) (·.pendingOver n))

/-- SESSION_IDLE_TIMEOUT: A session closes after 600 s without a command (R382). -/
def execSessionIdleTimeout (n : Nat) (s : State) : Host.Outcome State Fault Refusal :=
  .next (s.fire (.sessIdle n) (·.idleOver n))

end Sys2Proof.Machine
end

