-- ==== Sys2Proof/Machine/ExecMassifCmd.lean ====
section
/-! DEFINITION. Meanings of the commands of the family MassifCmd: each is one shared operation with the command's operands. -/

namespace Sys2Proof.Machine

/-- CM_SEED_DRAW: Every 1 µs each countermeasure stream draws a fresh seed from instance 0 (R326). -/
def execCmSeedDraw (s : State) : Host.Outcome State Fault Refusal :=
  .next (s.awake State.cmSeedDraw)

/-- HASH_OPS: SHA-2, SHA-3 and SHAKE jobs on the hash lane (R314). -/
def execHashOps (inv : Bool) (parity : Bool) (agree : Bool) (s : State) : Host.Outcome State Fault Refusal :=
  .next ((s.massifRun [1, 2, 3, 4, 5, 6, 7] inv parity agree).settle)

/-- HMAC_SHA256: HMAC-SHA-256 job (R314). -/
def execHmacSha256 (inv : Bool) (parity : Bool) (agree : Bool) (s : State) : Host.Outcome State Fault Refusal :=
  .next ((s.massifRun [8] inv parity agree).settle)

/-- ECDSA_P256: ECDSA P-256 sign or verify job (R314). -/
def execEcdsaP256 (inv : Bool) (parity : Bool) (agree : Bool) (s : State) : Host.Outcome State Fault Refusal :=
  .next ((s.massifRun [0x10, 0x11] inv parity agree).settle)

/-- ECDSA_P384: ECDSA P-384 sign or verify job (R314). -/
def execEcdsaP384 (inv : Bool) (parity : Bool) (agree : Bool) (s : State) : Host.Outcome State Fault Refusal :=
  .next ((s.massifRun [0x12, 0x13] inv parity agree).settle)

/-- ED25519: Ed25519 sign or verify job (R314). -/
def execEd25519 (inv : Bool) (parity : Bool) (agree : Bool) (s : State) : Host.Outcome State Fault Refusal :=
  .next ((s.massifRun [0x14, 0x15] inv parity agree).settle)

/-- ECDH: ECDH P-256 or X25519 into a key register (R314). -/
def execEcdh (inv : Bool) (parity : Bool) (agree : Bool) (s : State) : Host.Outcome State Fault Refusal :=
  .next ((s.massifRun [0x16, 0x17] inv parity agree).settle)

/-- P256_KEYGEN: P-256 key generation into a key register (R314). -/
def execP256Keygen (inv : Bool) (parity : Bool) (agree : Bool) (s : State) : Host.Outcome State Fault Refusal :=
  .next ((s.massifRun [0x18] inv parity agree).settle)

/-- ML_KEM_768: ML-KEM-768 key generation, encapsulation or decapsulation (R314). -/
def execMlKem768 (inv : Bool) (parity : Bool) (agree : Bool) (s : State) : Host.Outcome State Fault Refusal :=
  .next ((s.massifRun [0x20, 0x21, 0x22] inv parity agree).settle)

/-- ML_KEM_1024: ML-KEM-1024 key generation, encapsulation or decapsulation (R314). -/
def execMlKem1024 (inv : Bool) (parity : Bool) (agree : Bool) (s : State) : Host.Outcome State Fault Refusal :=
  .next ((s.massifRun [0x23, 0x24, 0x25] inv parity agree).settle)

/-- ML_DSA_65: ML-DSA-65 key generation, sign or verify (R314). -/
def execMlDsa65 (inv : Bool) (parity : Bool) (agree : Bool) (s : State) : Host.Outcome State Fault Refusal :=
  .next ((s.massifRun [0x28, 0x29, 0x2A] inv parity agree).settle)

/-- ML_DSA_87: ML-DSA-87 key generation, sign or verify (R314). -/
def execMlDsa87 (inv : Bool) (parity : Bool) (agree : Bool) (s : State) : Host.Outcome State Fault Refusal :=
  .next ((s.massifRun [0x2B, 0x2C, 0x2D] inv parity agree).settle)

/-- RSA_VERIFY: RSA signature verify (R314). -/
def execRsaVerify (inv : Bool) (parity : Bool) (agree : Bool) (s : State) : Host.Outcome State Fault Refusal :=
  .next ((s.massifRun [0x30] inv parity agree).settle)

/-- RSA_PRIVATE: RSA private operation by CRT with operand keys (R314). -/
def execRsaPrivate (inv : Bool) (parity : Bool) (agree : Bool) (s : State) : Host.Outcome State Fault Refusal :=
  .next ((s.massifRun [0x31] inv parity agree).settle)

/-- MODEXP: Modular exponentiation up to 8,192 bits (R314). -/
def execModexp (inv : Bool) (parity : Bool) (agree : Bool) (s : State) : Host.Outcome State Fault Refusal :=
  .next ((s.massifRun [0x32] inv parity agree).settle)

/-- LMS_XMSS_VERIFY: LMS or XMSS signature verify (R314). -/
def execLmsXmssVerify (inv : Bool) (parity : Bool) (agree : Bool) (s : State) : Host.Outcome State Fault Refusal :=
  .next ((s.massifRun [0x38, 0x39] inv parity agree).settle)

/-- DERIVE: SHAKE256 derivation from a parent key register to DKEY or the key bus (R315). -/
def execDeriveKey (inv : Bool) (parity : Bool) (agree : Bool) (s : State) : Host.Outcome State Fault Refusal :=
  .next ((s.massifRun [0x40] inv parity agree).settle)

/-- COMBINE: SHAKE256 over two key registers placing NOUT keys on the key bus (R315). -/
def execCombine (inv : Bool) (parity : Bool) (agree : Bool) (s : State) : Host.Outcome State Fault Refusal :=
  .next ((s.massifRun [0x41] inv parity agree).settle)

/-- IMPORT: Takes a seed or scalar from the unwrap buffer into DKEY (R318). -/
def execImportKey (inv : Bool) (parity : Bool) (agree : Bool) (s : State) : Host.Outcome State Fault Refusal :=
  .next ((s.massifRun [0x42] inv parity agree).settle)

/-- MASSIF_ERASE: Zeroises a volatile key register, DENIED for registers 1–7 (R318). -/
def execMassifErase (inv : Bool) (parity : Bool) (agree : Bool) (s : State) : Host.Outcome State Fault Refusal :=
  .next ((s.massifRun [0x43] inv parity agree).settle)

/-- PUBLIC: Writes the public key of a key register to DST (R314). -/
def execPublicKey (inv : Bool) (parity : Bool) (agree : Bool) (s : State) : Host.Outcome State Fault Refusal :=
  .next ((s.massifRun [0x44] inv parity agree).settle)

/-- MASSIF_JOB_START: A queued Massif job starts in its partition after any wipe (R323). -/
def execMassifJobStart (c : Nat) (agree : Bool) (s : State) : Host.Outcome State Fault Refusal :=
  .next ((s.massifStart c agree).settle)

/-- LONG_JOB_RESUME: A yielded LONG job resumes when the SHORT queue is empty (R323). -/
def execLongJobResume (s : State) : Host.Outcome State Fault Refusal :=
  .next (s.longResume)

/-- MASSIF_JOB_DONE: A Massif job passes its end-of-job check and ends with a status and completion record (R319). -/
def execMassifJobDone (c : Nat) (s : State) : Host.Outcome State Fault Refusal :=
  .next (s.massifDone c)

/-- MASSIF_CNT_CLEAR: A write to MASSIF_CNT zeroes both fields (R321). -/
def execMassifCntClear (m : Nat) (w : Word) (s : State) : Host.Outcome State Fault Refusal :=
  .next (s.store m A.MASSIF_CNT w)

end Sys2Proof.Machine
end

