-- ==== Sys2Proof/Machine/ExecMemory.lean ====
section
/-! DEFINITION. Meanings of the commands of the family Memory: each is one shared operation with the command's operands. -/

namespace Sys2Proof.Machine

/-- BANK_WAKE_DONE: 2 µs after waking a bank goes from WAKING to ZEROING (R206). -/
def execBankWakeDone (n : Nat) (s : State) : Host.Outcome State Fault Refusal :=
  .next (s.fire (.bankWake n) (·.bankWoken n))

/-- BANK_ZERO_DONE: 16.384 µs after zeroing starts the bank is ON and source 201 fires (R206). -/
def execBankZeroDone (n : Nat) (s : State) : Host.Outcome State Fault Refusal :=
  .next (s.fire (.bankZero n) (·.bankZeroed n))

/-- BANK_RESUME_DONE: 1 µs after a POWER=ON commit a retained bank is ON with contents kept (R206). -/
def execBankResumeDone (n : Nat) (s : State) : Host.Outcome State Fault Refusal :=
  .next (s.fire (.bankResume n) (·.bankResumed n))

/-- TERRACE_REQUEST_SERVED: A waiting request is served at its sub-bank slot by class and age (R201). -/
def execTerraceRequestServed (reqs : List TReq) (s : State) : Host.Outcome State Fault Refusal :=
  .next ((s.serveRequest reqs).settle)

/-- ECC_WRITEBACK: A corrected word is written back in the next free slot of its sub-bank (R203). -/
def execEccWriteback (s : State) : Host.Outcome State Fault Refusal :=
  .next (s.eccWriteback)

/-- MIRROR_LINE_READ: The mirror engine reads a line of a sending set at class 2 and passes it to the link (R213). -/
def execMirrorLineRead (s : State) : Host.Outcome State Fault Refusal :=
  .next (s.mirrorLineRead)

/-- RESCUED_WRITE_RESUME: A write waiting for rescue-buffer space proceeds once the link drains a line (R215). -/
def execRescuedWriteResume (s : State) : Host.Outcome State Fault Refusal :=
  .next (s.rescueResume)

/-- TERRACE_CNT_SNAP: SNAP copies the conflict, dirty and ECC counters into their read registers (R216). -/
def execTerraceCntSnap (m : Nat) (s : State) : Host.Outcome State Fault Refusal :=
  .next (s.store m A.TERRACE_CNT_CTRL (setBits 0#32 F.TERRACE_CNT_CTRL_SNAP.hi F.TERRACE_CNT_CTRL_SNAP.lo 1))

/-- TERRACE_CNT_CLR: CLR zeroes the Terrace live counters (R216). -/
def execTerraceCntClr (m : Nat) (s : State) : Host.Outcome State Fault Refusal :=
  .next (s.store m A.TERRACE_CNT_CTRL (setBits 0#32 F.TERRACE_CNT_CTRL_CLR.hi F.TERRACE_CNT_CTRL_CLR.lo 1))

/-- COL_VIOL_POP: A read of COL_VIOL_POP pops a violation record and latches COL_VIOL_ADDR (R226). -/
def execColViolPop (m : Nat) (s : State) : Host.Outcome State Fault Refusal :=
  .next (s.load m A.COL_VIOL_POP)

end Sys2Proof.Machine
end

