-- ==== Sys2Proof/Machine/ExecPacketsA.lean ====
section
/-! DEFINITION. Meanings of the commands of the family PacketsA: each is one shared operation with the command's operands. -/

namespace Sys2Proof.Machine

/-- SESSION_OPEN: Allocates a PENDING session and replies with key agreement and identity signatures (R380). -/
def execSessionOpen (s : State) : Host.Outcome State Fault Refusal :=
  .next (s.sessionOpen)

/-- SESSION_AUTH: Verifies the opener's signatures and opens the session with RIGHTS (R380). -/
def execSessionAuth (agree : Bool) (s : State) : Host.Outcome State Fault Refusal :=
  .next ((s.sessionAuth agree).settle)

/-- SESSION_CLOSE: Closes the session and zeroises its keys (R382). -/
def execSessionClose (s : State) : Host.Outcome State Fault Refusal :=
  .next (s.sessionClose)

/-- SESSION_INFO: Returns the open sessions (R386). -/
def execSessionInfo (s : State) : Host.Outcome State Fault Refusal :=
  .next (s.sessionInfo)

/-- PING: Echoes up to 64 bytes (R386). -/
def execPing (s : State) : Host.Outcome State Fault Refusal :=
  .next (s.pingCmd)

/-- ID_GET: Returns serial, roles, fingerprint and image digests (R386). -/
def execIdGet (s : State) : Host.Outcome State Fault Refusal :=
  .next (s.idGet)

/-- ID_CERT: Returns part of the identity certificate (R386). -/
def execIdCert (s : State) : Host.Outcome State Fault Refusal :=
  .next (s.idCert)

/-- ID_ATTEST: Returns a signed statement over a nonce and state (R386). -/
def execIdAttest (s : State) : Host.Outcome State Fault Refusal :=
  .next (s.idAttest)

/-- ID_CHALLENGE: Returns CURTAIN_CHAL, TOTAL and Curtain state (R386). -/
def execIdChallenge (s : State) : Host.Outcome State Fault Refusal :=
  .next (s.idChallenge)

/-- IMG_BEGIN: Starts an image transfer of a KIND (R387). -/
def execImgBegin (s : State) : Host.Outcome State Fault Refusal :=
  .next (s.imgBegin)

/-- IMG_WRITE: Programs part of an image into Bedrock (R387). -/
def execImgWrite (ok : Bool) (s : State) : Host.Outcome State Fault Refusal :=
  .next (s.imgWrite ok)

/-- IMG_COMMIT: Reads back, digests and verifies an image's signatures (R387). -/
def execImgCommit (s : State) : Host.Outcome State Fault Refusal :=
  .next (s.imgCommit)

/-- IMG_SELECT: Selects full act A or B (R386). -/
def execImgSelect (s : State) : Host.Outcome State Fault Refusal :=
  .next (s.imgSelect)

/-- IMG_LIST: Lists image slots (R386). -/
def execImgList (s : State) : Host.Outcome State Fault Refusal :=
  .next (s.imgList)

/-- CFG_APPLY: Commits the verified configuration with WHEN=0b01 and closes removed operators' sessions (R387). -/
def execCfgApply (s : State) : Host.Outcome State Fault Refusal :=
  .next (s.cfgApply)

/-- CFG_INFO: Returns configuration digests and operator entries (R386). -/
def execCfgInfo (s : State) : Host.Outcome State Fault Refusal :=
  .next (s.cfgInfo)

/-- TIME_STEP: Steps Stage Time at the next frame boundary (R386). -/
def execTimeStep (s : State) : Host.Outcome State Fault Refusal :=
  .next (s.timeStep)

/-- RTC_SET: Writes the Refuge clock from Stage Time (R386). -/
def execRtcSet (s : State) : Host.Outcome State Fault Refusal :=
  .next (s.rtcSetCmd)

/-- CUE_GET: Returns live cue entries (R386). -/
def execCueGet (s : State) : Host.Outcome State Fault Refusal :=
  .next (s.cueGet)

/-- CUE_PUSH: Pushes cue entries into the change list, refusing protected actions in LE and UN (R387). -/
def execCuePush (s : State) : Host.Outcome State Fault Refusal :=
  .next (s.cuePushCmd)

/-- CUE_COMMIT: Commits the cue change list (R386). -/
def execCueCommit (s : State) : Host.Outcome State Fault Refusal :=
  .next (s.cueCommit)

/-- CUE_ABORT: Aborts a pending cue commit (R386). -/
def execCueAbort (s : State) : Host.Outcome State Fault Refusal :=
  .next (s.cueAbort)

/-- CUE_STATUS: Returns cue engine status and counters (R386). -/
def execCueStatus (s : State) : Host.Outcome State Fault Refusal :=
  .next (s.cueStatus)

/-- KEY_PROVISION: Installs a customer key wrapped under the transfer key (R386). -/
def execKeyProvision (ok : Bool) (s : State) : Host.Outcome State Fault Refusal :=
  .next (s.keyProvision ok)

/-- KEY_ERASE: Erases a customer key (R386). -/
def execKeyErase (ok : Bool) (s : State) : Host.Outcome State Fault Refusal :=
  .next (s.keyErase ok)

/-- KEY_LIST: Lists customer keys (R386). -/
def execKeyList (s : State) : Host.Outcome State Fault Refusal :=
  .next (s.keyList)

/-- KEY_STREAM: Installs a stream key into a stream-key entry (R386). -/
def execKeyStream (s : State) : Host.Outcome State Fault Refusal :=
  .next (s.keyStream)

/-- KEK_ROLL: Moves stored keys to a new KEK generation (R386). -/
def execKekRoll (s : State) : Host.Outcome State Fault Refusal :=
  .next (s.kekRoll)

/-- KDC_RELAY: Carries an IEC 62351-9 group-key exchange and installs the keys (R387). -/
def execKdcRelay (s : State) : Host.Outcome State Fault Refusal :=
  .next (s.kdcRelay)

end Sys2Proof.Machine
end

