-- ==== Sys2Proof/Machine/ExecPacketsB.lean ====
section
/-! DEFINITION. Meanings of the commands of the family PacketsB: each is one shared operation with the command's operands. -/

namespace Sys2Proof.Machine

/-- PAIR_ROLE: Sets the pair role (R246). -/
def execPairRole (s : State) : Host.Outcome State Fault Refusal :=
  .next (s.pairRole)

/-- HANDOVER: Requests a departure, answered at the switch or BUSY if cancelled (R267). -/
def execHandover (s : State) : Host.Outcome State Fault Refusal :=
  .next (s.handoverCmd)

/-- PAIR_CTRL: Writes RESYNC, UNPAIR or ACK_STALE (R386). -/
def execPairCtrl (s : State) : Host.Outcome State Fault Refusal :=
  .next (s.pairCtrl)

/-- PAIR_STATUS: Returns Understudy status and counters (R386). -/
def execPairStatus (s : State) : Host.Outcome State Fault Refusal :=
  .next (s.pairStatus)

/-- TROUPE_ROLE: Sets the troupe role (R275). -/
def execTroupeRole (s : State) : Host.Outcome State Fault Refusal :=
  .next (s.troupeRole)

/-- TROUPE_STATUS: Returns troupe status and members (R386). -/
def execTroupeStatus (s : State) : Host.Outcome State Fault Refusal :=
  .next (s.troupeStatus)

/-- ROLL_NOW: Director holds a roll call now (R386). -/
def execRollNow (s : State) : Host.Outcome State Fault Refusal :=
  .next (s.rollNow)

/-- INTERVAL_CALL: Director broadcasts a coordinated INTERVAL (R287). -/
def execIntervalCall (s : State) : Host.Outcome State Fault Refusal :=
  .next (s.intervalCmd)

/-- RELAY: Director relays an inner packet to a Player and returns its replies (R388). -/
def execRelay (s : State) : Host.Outcome State Fault Refusal :=
  .next (s.relayCmd)

/-- RELAY_TIMEOUT: RELAY ends with BUSY after 10 s without a final inner reply (R388). -/
def execRelayTimeout (i : Nat) (s : State) : Host.Outcome State Fault Refusal :=
  .next (s.relayTimeout i)

/-- BOOK_READ: Returns ring records from a cursor (R420). -/
def execBookRead (s : State) : Host.Outcome State Fault Refusal :=
  .next (s.bookRead)

/-- BOOK_ARCHIVE: Returns archive records from an offset (R421). -/
def execBookArchive (s : State) : Host.Outcome State Fault Refusal :=
  .next (s.bookArchive)

/-- BOOK_NOTE: Writes an operator note record of class 0xE (R413). -/
def execBookNote (s : State) : Host.Outcome State Fault Refusal :=
  .next (s.bookNote)

/-- BOOK_CLEAR: Clears records up to a SEQ through PBOOK_CLEAR (R422). -/
def execBookClear (s : State) : Host.Outcome State Fault Refusal :=
  .next (s.bookClearCmd)

/-- FILE_LIST: Lists files on a volume (R386). -/
def execFileList (s : State) : Host.Outcome State Fault Refusal :=
  .next (s.fileList)

/-- FILE_READ: Reads file bytes, checking DATA_CRC at the end (R457). -/
def execFileRead (ok : Bool) (s : State) : Host.Outcome State Fault Refusal :=
  .next (s.fileRead ok)

/-- FILE_WRITE: Writes a new extent and commits a journal record on FINAL (R456). -/
def execFileWrite (s : State) : Host.Outcome State Fault Refusal :=
  .next (s.fileWrite)

/-- FILE_DELETE: Writes a DELETE journal record (R456). -/
def execFileDelete (ok : Bool) (s : State) : Host.Outcome State Fault Refusal :=
  .next (s.fileDelete ok)

/-- MEDIA_EJECT: Deselects every card so it may be removed (R454). -/
def execMediaEject (s : State) : Host.Outcome State Fault Refusal :=
  .next (s.mediaEject)

/-- STATUS: Returns mode, time state and drop counts (R386). -/
def execStatus (s : State) : Host.Outcome State Fault Refusal :=
  .next (s.statusCmd)

/-- REG_READ: Returns register words read by master 8 (R386). -/
def execRegRead (s : State) : Host.Outcome State Fault Refusal :=
  .next (s.regReadCmd)

/-- SELFTEST: Runs selected self-tests (R386). -/
def execSelftest (results : Nat) (s : State) : Host.Outcome State Fault Refusal :=
  .next ((s.selftestCmd results).settle)

/-- TRACE: Writes OBSERVE_TRACE_CFG (R427). -/
def execTrace (s : State) : Host.Outcome State Fault Refusal :=
  .next (s.traceCmd)

/-- CORE_CTRL: Holds or starts a core 0–7 (R386). -/
def execCoreCtrl (s : State) : Host.Outcome State Fault Refusal :=
  .next (s.coreCtrlCmd)

/-- COMMISSION: Writes fingerprints to OTP if blank, draws a new Refuge share and rebuilds CRK (R387). -/
def execCommission (s : State) : Host.Outcome State Fault Refusal :=
  .next (s.commission)

/-- UNLOCK: Verifies an unlock token and passes it to the Curtain (R340). -/
def execUnlock (verified : Bool) (agree : Bool) (s : State) : Host.Outcome State Fault Refusal :=
  .next ((s.unlockCmd verified agree).settle)

/-- MODE_REQ: Requests a mode under R17, starting a departure for INTERVAL from LEAD (R387). -/
def execModeReq (s : State) : Host.Outcome State Fault Refusal :=
  .next (s.modeReqCmd)

/-- RESET: Replies OK and issues a warm reset (R386). -/
def execReset (s : State) : Host.Outcome State Fault Refusal :=
  .next (s.resetCmd)

/-- RETURN: Advances the lifecycle to RETURNED (R387). -/
def execReturnLc (s : State) : Host.Outcome State Fault Refusal :=
  .next (s.returnCmd)

/-- DECOMMISSION: Advances the lifecycle to DECOMMISSIONED (R387). -/
def execDecommission (s : State) : Host.Outcome State Fault Refusal :=
  .next (s.decommissionCmd)

/-- ISSUE: Advances a factory device to FACTORY or ISSUED and warm-resets (R387). -/
def execIssue (s : State) : Host.Outcome State Fault Refusal :=
  .next (s.issueCmd)

end Sys2Proof.Machine
end

