-- ==== Sys2Proof/Machine/ExecPinsCmd.lean ====
section
/-! DEFINITION. Meanings of the commands of the family PinsCmd: each is one shared operation with the command's operands. -/

namespace Sys2Proof.Machine

/-- GROUP_SUPPLY_CHANGE: A group supply enters or leaves its range, changing SUPPLY_OK and tri-stating or restoring the group (R229). -/
def execGroupSupplyChange (g : Nat) (v : Nat) (s : State) : Host.Outcome State Fault Refusal :=
  .next (s.supplyEvent g v)

/-- SUPPLY_RESTORE_DRIVE: 10 µs after SUPPLY_OK returns, outputs drive their commanded levels (R229). -/
def execSupplyRestoreDrive (g : Nat) (s : State) : Host.Outcome State Fault Refusal :=
  .next (s.fire (.supplyOn g) (·.supplyDrive g))

/-- PIN_INPUT_CHANGE: A ball level change starts or restarts the input filter (R237). -/
def execPinInputChange (p : Nat) (level : Option Bool) (frac : Nat) (s : State) : Host.Outcome State Fault Refusal :=
  .next (s.pinExternal p level frac)

/-- EDGE_ACCEPT: The level holds for FILT and the edge is accepted, stamped and may raise an event and interrupt (R237). -/
def execEdgeAccept (p : Nat) (s : State) : Host.Outcome State Fault Refusal :=
  .next (s.fire (.pinFilter p) (·.filterDone p))

/-- DT_VERDICT: Path 2 finishes, the paths are compared and the verdict is written and the COMMIT ticket completes (R345). -/
def execDtVerdict (g : Nat) (s : State) : Host.Outcome State Fault Refusal :=
  .next ((s.dtFinish g).settle)

/-- TRIP_PAIR_COMMIT: At the commit time the enabled trip pairs take the agreed levels, or keep their levels (R235). -/
def execTripPairCommit (g : Nat) (s : State) : Host.Outcome State Fault Refusal :=
  .next (s.dtCommit g)

/-- READBACK_MISMATCH: A trip pin's ball differs from its commanded level for 16 ticks after RB_WINDOW (R236). -/
def execReadbackMismatch (p : Nat) (s : State) : Host.Outcome State Fault Refusal :=
  .next (s.fire (.pinRb p) (·.rbMismatch p))

/-- PPS_OUT_RISE: A 1PPS output rises at each whole TAI second (R240). -/
def execPpsOutRise (s : State) : Host.Outcome State Fault Refusal :=
  .next (s.ppsRise)

/-- PPS_OUT_FALL: A 1PPS output falls WIDTH µs after it rose (R240). -/
def execPpsOutFall (s : State) : Host.Outcome State Fault Refusal :=
  .next (s.fire .ppsFall State.ppsFall)

/-- IRIG_FRAME_END: An IRIG-B frame ends, is judged good or not and may deliver an offset sample (R241). -/
def execIrigFrameEnd (highs : List Nat) (edge : Nat) (s : State) : Host.Outcome State Fault Refusal :=
  .next (s.irigFrame highs edge)

/-- GRP_CNT_CLR: A PINS_GRP_IRQ write with CLR zeroes CUE_DROP and EVT_LOST (R233). -/
def execGrpCntClr (m : Nat) (g : Nat) (s : State) : Host.Outcome State Fault Refusal :=
  .next (s.store m (A.PINS_GRP_IRQ g) (BitVec.twoPow 32 31))

end Sys2Proof.Machine
end

