-- ==== Sys2Proof/Machine/ExecPorts.lean ====
section
/-! DEFINITION. Meanings of the commands of the family Ports: each is one shared operation with the command's operands. -/

namespace Sys2Proof.Machine

/-- LINK_CFG_WRITE: A write changing MODE or AN drops the link for 1 ms and restarts it (R73). -/
def execLinkCfgWrite (m : Nat) (n : Nat) (w : Word) (s : State) : Host.Outcome State Fault Refusal :=
  .next (s.store m (A.SP_LINK_CFG n) w)

/-- LINK_UP: A port's PCS locks and the link comes up, unless held by mode (R116). -/
def execLinkUp (n : Nat) (ok : Bool) (s : State) : Host.Outcome State Fault Refusal :=
  .next (s.linkRise n ok)

/-- LINK_DOWN: A port's link drops, counting DOWN_COUNT and dropping queued egress as LINK_DOWN (R73). -/
def execLinkDown (n : Nat) (midFrame : Bool) (s : State) : Host.Outcome State Fault Refusal :=
  .next ((s.linkLost n midFrame).settle)

/-- RX_FRAME: An inbound frame is timestamped, de-duplicated, classified and admitted to the authentication buffer, or dropped with one reason (R75). -/
def execRxFrame (n : Nat) (frac : Nat) (f : RxFrame) (s : State) : Host.Outcome State Fault Refusal :=
  .next (s.rxFrame n frac f)

/-- FRAME_AUTHENTICATE: A buffered frame's GMAC is checked by its Soloist (or the Chorus), and then duplicate discard, extraction and the Wings write follow (R86). -/
def execFrameAuthenticate (k : Nat) (mismatches : Nat) (s : State) : Host.Outcome State Fault Refusal :=
  .next ((s.authFrame k mismatches).settle)

/-- DD_ENTRY_AGE: A duplicate-discard entry is forgotten DD_AGE ms after it was made (R93). -/
def execDdEntryAge (p : Nat) (s : State) : Host.Outcome State Fault Refusal :=
  .next (s.ddAge p)

/-- SUPERVISION_TX: The redundancy unit sends a supervision frame every SUP_INTERVAL (R95). -/
def execSupervisionTx (p : Nat) (s : State) : Host.Outcome State Fault Refusal :=
  .next (s.fire (.supSend p) (·.supSend p))

/-- SUPERVISION_TIMEOUT: Three intervals without partner supervision clear SEEN and fire source 107 (R95). -/
def execSupervisionTimeout (p : Nat) (s : State) : Host.Outcome State Fault Refusal :=
  .next (s.fire (.supervision p) (·.supLost p))

/-- EGRESS_QUEUE_TX: A port dequeues a descriptor from queues 0–6 and sends, signs or drops the frame outside guard windows (R98). -/
def execEgressQueueTx (n : Nat) (mismatches : Nat) (s : State) : Host.Outcome State Fault Refusal :=
  .next ((s.egressQueue n mismatches).settle)

/-- RELEASE_START: At the cue time the port samples the group verdict and sends the release list back to back, or withholds it (R103). -/
def execReleaseStart (n : Nat) (mismatches : Nat) (s : State) : Host.Outcome State Fault Refusal :=
  .next ((s.releaseStart n mismatches).settle)

/-- PTP_SYNC_RX: A Sync on the slave port yields an offset sample written to STIME_OFFSET and STIME_COARSE (R106). -/
def execPtpSyncRx (n : Nat) (frac : Nat) (domain : Nat) (sec : Nat) (ns : Nat) (corr : Int) (s : State) : Host.Outcome State Fault Refusal :=
  .next ((s.ptpSync n frac domain sec ns corr).gridToPtp)

/-- PTP_SYNC_TX: A master port sends Sync and Follow_Up at each sync interval (R106). -/
def execPtpSyncTx (n : Nat) (frac : Nat) (s : State) : Host.Outcome State Fault Refusal :=
  .next (s.fire (.syncSend n) (·.ptpSendSync n frac))

/-- PDELAY_REQ_TX: The PTP engine sends a Pdelay_Req to measure link delay (R106). -/
def execPdelayReqTx (n : Nat) (frac : Nat) (s : State) : Host.Outcome State Fault Refusal :=
  .next (s.pdelayReq n frac)

/-- PDELAY_REQ_RX: A received Pdelay_Req is answered with Pdelay_Resp and Follow_Up in hardware (R106). -/
def execPdelayReqRx (n : Nat) (frac : Nat) (domain : Nat) (asker : List Byte) (turnaround : Nat) (s : State) : Host.Outcome State Fault Refusal :=
  .next (s.pdelayAnswer n frac domain asker turnaround)

/-- PDELAY_RESP_RX: A received Pdelay_Resp updates the mean link delay (R106). -/
def execPdelayRespRx (n : Nat) (frac : Nat) (domain : Nat) (turnaround : Int) (s : State) : Host.Outcome State Fault Refusal :=
  .next (s.pdelayResp n frac domain turnaround)

/-- SYNC_TIMEOUT: The slave port misses three sync intervals and source 106 fires (R109). -/
def execSyncTimeout (s : State) : Host.Outcome State Fault Refusal :=
  .next (s.fire .syncTimeout (·.irq 106))

/-- RED_CFG_WRITE: A SWITCH_RED_CFG write is accepted only while both ports of the pair are off (R96). -/
def execRedCfgWrite (m : Nat) (p : Nat) (w : Word) (s : State) : Host.Outcome State Fault Refusal :=
  .next (s.store m (A.SWITCH_RED_CFG p) w)

/-- PTP_PORT_WRITE: A SWITCH_PTP_PORT write sets port states, ignored if it names two slaves (R109). -/
def execPtpPortWrite (m : Nat) (w : Word) (s : State) : Host.Outcome State Fault Refusal :=
  .next (s.store m A.SWITCH_PTP_PORT w)

/-- PORT_CNT_SNAP: SNAP copies every counter of the port into its read registers in one cycle (R115). -/
def execPortCntSnap (m : Nat) (n : Nat) (s : State) : Host.Outcome State Fault Refusal :=
  .next (s.store m (A.SP_CNT_CTRL n) (BitVec.twoPow 32 31))

/-- PORT_CNT_CLR: CLR zeroes the port's live counters and DOWN_COUNT (R115). -/
def execPortCntClr (m : Nat) (n : Nat) (s : State) : Host.Outcome State Fault Refusal :=
  .next (s.store m (A.SP_CNT_CTRL n) (BitVec.twoPow 32 30))

/-- SOLOIST_KEY_PUSH: A push appends a staged current or next key to the SOLOIST change list, or is refused with a REASON (R475). -/
def execSoloistKeyPush (m : Nat) (s : State) : Host.Outcome State Fault Refusal :=
  .next (s.store m A.SOLOIST_KEY_PUSH (BitVec.twoPow 32 31))

/-- SOLOIST_KEY_ERASE: A push with ERASE appends a zeroisation of a stream-key entry (R475). -/
def execSoloistKeyErase (m : Nat) (s : State) : Host.Outcome State Fault Refusal :=
  .next (s.store m A.SOLOIST_KEY_PUSH (BitVec.ofNat 32 (2 ^ 31 + 2 ^ 30)))

/-- SOLOIST_CNT_CLEAR: A write to SOLOIST_CNT_s zeroes its RETRY and FAULT counts (R311). -/
def execSoloistCntClear (m : Nat) (k : Nat) (w : Word) (s : State) : Host.Outcome State Fault Refusal :=
  .next (s.store m (A.SOLOIST_CNT k) w)

/-- SWITCH_EDIT_PUSH: A push appends a switch-table entry to the change list, or is refused with a REASON (R110). -/
def execSwitchEditPush (m : Nat) (t : Nat) (i : Nat) (s : State) : Host.Outcome State Fault Refusal :=
  .next (s.store m A.SWITCH_EDIT_PUSH (BitVec.ofNat 32 (2 ^ 31 + t * 2 ^ 27 + i)))

/-- SWITCH_EDIT_DELETE: A push with DELETE appends a deletion of a switch-table entry (R110). -/
def execSwitchEditDelete (m : Nat) (t : Nat) (i : Nat) (s : State) : Host.Outcome State Fault Refusal :=
  .next (s.store m A.SWITCH_EDIT_PUSH (BitVec.ofNat 32 (2 ^ 31 + 2 ^ 30 + t * 2 ^ 27 + i)))

/-- TX_FRAME_END: A frame finishes leaving a port: a release list waiting behind a queue 0–6 frame starts, the next list frame follows, or the last frame of a list completes the EGRESS_RELEASE ticket (R105). -/
def execTxFrameEnd (n : Nat) (mismatches : Nat) (s : State) : Host.Outcome State Fault Refusal :=
  .next ((s.txEnd n mismatches).settle)

end Sys2Proof.Machine
end

