-- ==== Sys2Proof/Machine/ExecRidge.lean ====
section
/-! DEFINITION. Meanings of the commands of the family Ridge: each is one shared operation with the command's operands. -/

namespace Sys2Proof.Machine

/-- BUNDLE_ISSUE: A core decodes and issues one bundle whose syllables read operands together and write in program order (R148). -/
def execBundleIssue (n : Nat) (cycles : Nat) (drains : Nat) (s : State) : Host.Outcome State Fault Refusal :=
  .next (s.bundleIssue n cycles drains)

/-- INTERRUPT_ENTRY: At a bundle boundary with IE=1, EXL=0 and an enabled pending line, the core enters the interrupt vector (R187). -/
def execInterruptEntry (n : Nat) (s : State) : Host.Outcome State Fault Refusal :=
  .next (s.interruptEntry n)

/-- WAIT_RESUME: A core stalled in wait continues when an enabled source is pending (R189). -/
def execWaitResume (n : Nat) (s : State) : Host.Outcome State Fault Refusal :=
  .next (s.waitResume n)

/-- LATE_BUS_ERROR: A posted store refused by its target or a Col unit enters the core's late-error queue (R191). -/
def execLateBusError (n : Nat) (s : State) : Host.Outcome State Fault Refusal :=
  .next (s.drainStore n)

/-- LATE_ERROR_POP: A read of IRQ_LATE_POP pops the oldest late-error entry and latches its address (R192). -/
def execLateErrorPop (m : Nat) (n : Nat) (s : State) : Host.Outcome State Fault Refusal :=
  .next (s.load m (A.IRQ_LATE_POP n))

/-- IRQ_PEND_CLEAR: A W1C write to IRQ_PEND clears latches, which relatch while their FIFO is non-empty (R186). -/
def execIrqPendClear (m : Nat) (k : Nat) (w : Word) (s : State) : Host.Outcome State Fault Refusal :=
  .next (s.store m (A.IRQ_PEND k) w)

/-- IRQ_ACK: A write to IRQ_ACK clears a source's latch if it is routed to the core (R186). -/
def execIrqAck (m : Nat) (n : Nat) (w : Word) (s : State) : Host.Outcome State Fault Refusal :=
  .next (s.store m (A.IRQ_ACK n) w)

/-- IRQ_DOORBELL: A write to IRQ_DOORBELL latches software doorbell sources (R186). -/
def execIrqDoorbell (m : Nat) (w : Word) (s : State) : Host.Outcome State Fault Refusal :=
  .next (s.store m A.IRQ_DOORBELL w)

/-- IRQ_ROUTE_WRITE: A route write moves a pending latch to the new core and line (R190). -/
def execIrqRouteWrite (m : Nat) (k : Nat) (w : Word) (s : State) : Host.Outcome State Fault Refusal :=
  .next (s.store m (A.IRQ_ROUTE k) w)

/-- CORE_HOLD: IRQ_CORE_CTRL.HOLD holds or releases a core in reset (R184). -/
def execCoreHold (m : Nat) (n : Nat) (hold : Bool) (s : State) : Host.Outcome State Fault Refusal :=
  .next (s.store m (A.IRQ_CORE_CTRL n) (setBits 0#32 (F.IRQ_CORE_CTRL_HOLD n).hi (F.IRQ_CORE_CTRL_HOLD n).lo (b2n hold)))

/-- CORE_START: IRQ_CORE_CTRL.START resets a core, empties its late-error queue and starts it at PC (R184). -/
def execCoreStart (m : Nat) (n : Nat) (pc : Word) (s : State) : Host.Outcome State Fault Refusal :=
  .next (s.store m (A.IRQ_CORE_CTRL n) (setBits pc (F.IRQ_CORE_CTRL_START n).hi (F.IRQ_CORE_CTRL_START n).lo 1))

end Sys2Proof.Machine
end

