-- ==== Sys2Proof/Machine/ExecScreeCmd.lean ====
section
/-! DEFINITION. Meanings of the commands of the family ScreeCmd: each is one shared operation with the command's operands. -/

namespace Sys2Proof.Machine

/-- SCREE_INST: SCREE_CTRL.INST instantiates DRBG instance 1 with the personalisation (R327). -/
def execScreeInst (m : Nat) (s : State) : Host.Outcome State Fault Refusal :=
  .next (s.store m A.SCREE_CTRL (BitVec.twoPow 32 31))

/-- SCREE_RESEED: SCREE_CTRL.RESEED reseeds both instances now (R326). -/
def execScreeReseed (m : Nat) (s : State) : Host.Outcome State Fault Refusal :=
  .next (s.store m A.SCREE_CTRL (BitVec.twoPow 32 30))

/-- SCREE_CLR_CNT: SCREE_CTRL.CLR_CNT zeroes SCREE_CNT (R325). -/
def execScreeClrCnt (m : Nat) (s : State) : Host.Outcome State Fault Refusal :=
  .next (s.store m A.SCREE_CTRL (BitVec.twoPow 32 29))

/-- SCREE_STARTUP_DONE: A noise source passes its start-up samples and enters service (R325). -/
def execScreeStartupDone (k : Nat) (s : State) : Host.Outcome State Fault Refusal :=
  .next ((s.awake (·.screeStarted k)).settle)

/-- SOURCE_HEALTH_FAIL: A noise source fails RCT or APT, is taken out and may bring FAILED and an entropy alarm (R325). -/
def execSourceHealthFail (k : Nat) (apt : Bool) (s : State) : Host.Outcome State Fault Refusal :=
  .next ((s.awake (·.sourceFail k apt)).settle)

/-- SOURCE_RETEST: 1 s after a failure a source is tested again and readmitted after 4,096 passing samples (R325). -/
def execSourceRetest (k : Nat) (s : State) : Host.Outcome State Fault Refusal :=
  .next ((s.sourceRetest k).settle)

/-- DRBG_RESEED: Instance 0 every 1 ms, or instance 1 after its count or time, reseeds (R326). -/
def execDrbgReseed (i : Nat) (s : State) : Host.Outcome State Fault Refusal :=
  .next (s.awake (·.drbgReseed i))

/-- SCREE_RAND_READ: A read of SCREE_RAND returns 32 fresh bits, or a bus error when FAILED (R326). -/
def execScreeRandRead (m : Nat) (s : State) : Host.Outcome State Fault Refusal :=
  .next (s.load m A.SCREE_RAND)

/-- SCREE_TEST_DATA: A write feeds 32 raw test bits in place of the noise sources (R328). -/
def execScreeTestData (m : Nat) (w : Word) (s : State) : Host.Outcome State Fault Refusal :=
  .next (s.store m A.SCREE_TEST_DATA w)

end Sys2Proof.Machine
end

