-- ==== Sys2Proof/Machine/ExecServicesCmd.lean ====
section
/-! DEFINITION. Meanings of the commands of the family ServicesCmd: each is one shared operation with the command's operands. -/

namespace Sys2Proof.Machine

/-- NOTE: Service writing a Prompt Book note (R394). -/
def execNote (s : State) : Host.Outcome State Fault Refusal :=
  .next (s.svcNote)

/-- SIGN: Service signing IN with a customer key pair (R394). -/
def execSign (s : State) : Host.Outcome State Fault Refusal :=
  .next (s.svcSign)

/-- VERIFY: Service verifying signatures with TWICE=1 (R394). -/
def execVerify (agree : Bool) (s : State) : Host.Outcome State Fault Refusal :=
  .next ((s.svcVerify agree).settle)

/-- STORE: Service writing an act file with PROGRAM_SAFE (R394). -/
def execStore (ok : Bool) (s : State) : Host.Outcome State Fault Refusal :=
  .next (s.svcStore ok)

/-- LOAD: Service reading an act file into OUT (R394). -/
def execLoad (s : State) : Host.Outcome State Fault Refusal :=
  .next (s.svcLoad)

/-- FEED: Cue-queue service writing UNDERSTUDY_CTRL.FEED (R394). -/
def execFeed (s : State) : Host.Outcome State Fault Refusal :=
  .next (s.svcFeed)

/-- PATROL: Cue-queue service popping a patrol entry and starting REFRESH (R394). -/
def execPatrol (s : State) : Host.Outcome State Fault Refusal :=
  .next (s.svcPatrol)

/-- RTC_SYNC: Cue-queue service setting the Refuge clock from ST while synchronised (R394). -/
def execRtcSync (s : State) : Host.Outcome State Fault Refusal :=
  .next (s.svcRtc)

end Sys2Proof.Machine
end

