-- ==== Sys2Proof/Machine/ExecStartUp.lean ====
section
/-! DEFINITION. Meanings of the commands of the family StartUp: each is one shared operation with the command's operands. -/

namespace Sys2Proof.Machine

/-- POWER_ON_RESET: Supplies held for 100 µs release a main-domain power-on reset and the staged start (R398). -/
def execPowerOnReset (s : State) : Host.Outcome State Fault Refusal :=
  .next (s.powerOnReset)

/-- PIN_RESET: RESET_N low for 1 µs or more resets the main domain (R398). -/
def execPinReset (s : State) : Host.Outcome State Fault Refusal :=
  .next (s.pinReset)

/-- WARM_RESET: SYS_RESET.WARM resets the main domain keeping the PLL and Prompt Book ring (R398). -/
def execWarmReset (s : State) : Host.Outcome State Fault Refusal :=
  .next (s.warmReset)

/-- STEWARD_RESTART: SYS_RESET.STEWARD or a Steward fatal cause restarts the Steward alone (R410). -/
def execStewardRestart (s : State) : Host.Outcome State Fault Refusal :=
  .next (s.stewardRestart)

/-- STEWARD_REATTACH: The reverified Stage Manager reattaches to live state and closes sessions (R410). -/
def execStewardReattach (s : State) : Host.Outcome State Fault Refusal :=
  .next (s.stewardReattach)

/-- POWER_FAILURE: VDD_CORE below 0.855 V for 1 µs tri-states pins, stops engines and holds the main domain in reset (R411). -/
def execPowerFailure (s : State) : Host.Outcome State Fault Refusal :=
  .next (s.powerFailure)

/-- AUX_SUPPLY_LOSS: VDDIO_AUX below 2.90 V stops the auxiliary balls without a reset (R467). -/
def execAuxSupplyLoss (s : State) : Host.Outcome State Fault Refusal :=
  .next (s.auxLoss)

/-- PLL_LOCK: The root PLL locks to XTAL_IN and arms the CLOCK source (R401). -/
def execPllLock (s : State) : Host.Outcome State Fault Refusal :=
  .next (s.pllLock)

/-- PLL_LOCK_RETRY: Every 10 ms without lock the main domain retries the PLL lock (R408). -/
def execPllLockRetry (s : State) : Host.Outcome State Fault Refusal :=
  .next (s.pllRetry)

/-- RECOVERED_QUALIFY: A port qualifies after 100 ms and the PLL slews onto its recovered clock (R397). -/
def execRecoveredQualify (diff : Int) (s : State) : Host.Outcome State Fault Refusal :=
  .next (s.recoveredQualify diff)

/-- RECOVERED_LOSS: The recovered clock fails and the PLL returns to XTAL_IN within 200 ns (R397). -/
def execRecoveredLoss (s : State) : Host.Outcome State Fault Refusal :=
  .next (s.recoveredLoss)

/-- EARLY_ACT_START: The verified early act's cue table is loaded and its cores started, unless withheld (R401). -/
def execEarlyActStart (s : State) : Host.Outcome State Fault Refusal :=
  .next (s.earlyActStart)

/-- CALL_ALIGN: The Stage Manager commits a CALL aligning the free-running grid to merging-unit arrivals (R404). -/
def execCallAlign (smp : Nat) (arr : Nat) (avg : Nat) (s : State) : Host.Outcome State Fault Refusal :=
  .next (s.callAlign smp arr avg)

/-- ROLE_SETTLEMENT: Once the full act verifies and time is locked, the Stage Manager requests the settled mode (R406). -/
def execRoleSettlement (s : State) : Host.Outcome State Fault Refusal :=
  .next (s.roleSettlement)

/-- VDDIO_AUX_RETURN: VDDIO_AUX returns above 2.90 V: host, cartridge, trace and heartbeat balls resume, and RESET_N is honoured again after 100 µs (R467). -/
def execVddioAuxReturn (s : State) : Host.Outcome State Fault Refusal :=
  .next (s.auxReturn)

end Sys2Proof.Machine
end

