-- ==== Sys2Proof/Machine/TroupeGrid.lean ====
section
/-! DEFINITION. CALL at a Player (R279, R280, R283): answering it and adopting its grid through the STIME block's own staging and GO. -/

namespace Sys2Proof.Machine

/-- The Stage Manager stages a word of a paired set: refused and counted while a commit of the block is pending (R29). -/
def State.stage8 (s : State) (base a : Nat) (w : Word) : State := if s.pendingIn base then s.sat (F.BLOCK_REFUSED_STAGE_WRITES base) else s.setReg a w

/-- A Player adopts a differing grid in REHEARSAL or INTERVAL (R283): it stages CALL and RATE and gives GO with WHEN = 0b01, which the block may refuse (R29, R48). -/
def State.adoptGrid (s : State) (call rate : Nat) : State :=
  if (s.mode == .rehearsal || s.mode == .interval) && (s.call != call || s.rate != rate) then
    let s := (s.stage8 Base.STIME A.STIME_CALL_LO (BitVec.ofNat 32 call)).stage8 Base.STIME A.STIME_CALL_HI (BitVec.ofNat 32 (call / 2 ^ 32))
    let w := setBits (s.reg A.STIME_FRAME_CFG) F.STIME_FRAME_CFG_RATE.hi F.STIME_FRAME_CFG_RATE.lo rate
    (s.stage8 Base.STIME A.STIME_FRAME_CFG w).blockGo Base.STIME 1 0
  else s

/-- A Player receives CALL (R279, R280, R283): without a session key it attests unasked, under a nonce of its own; otherwise it answers HEALTH and may adopt the grid. Mark: DEDUCED
(log 155). -/
def State.callRx (s : State) (h : THead) (call rate epoch : Nat) : State :=
  if s.isPlayer && (s.session 0).isNone then
    if !s.troupeOurs h then s
    else if h.slot != 0 || h.prot != 2 then s.troupeRefuse
    else s.next.sendAttest s.draw
  else match s.troupeAccept h 2 true false with
    | (false, s) => s
    | (true, s) =>
      let s := s.directorHeard
      let s : State := { s with troupe.epoch := epoch }
      let s := if s.mode == .curtain then s else s.sendHealth
      s.adoptGrid call rate

end Sys2Proof.Machine
end

