-- ==== Sys2Proof/Machine/ExecTroupeCmd.lean ====
section
/-! DEFINITION. Meanings of the commands of the family TroupeCmd: each is one shared operation with the command's operands. -/

namespace Sys2Proof.Machine

/-- ROLL_CALL: The Director broadcasts ROLL every ROLL_PERIOD or at mode entry (R280). -/
def execRollCall (s : State) : Host.Outcome State Fault Refusal :=
  .next (s.rollCall)

/-- ROLL: A Player receives ROLL and answers ATTEST (R280). -/
def execRoll (h : THead) (nonce : Nat) (s : State) : Host.Outcome State Fault Refusal :=
  .next (s.rollRx h nonce)

/-- ATTEST: The Director verifies an ATTEST and sets the member PRESENT or STRANGER, or refuses it (R281). -/
def execAttest (h : THead) (payload : List Byte) (sigOk : Bool) (s : State) : Host.Outcome State Fault Refusal :=
  .next (s.attestRx h payload sigOk)

/-- WELCOME: A Player takes WELCOME, derives its session key and the broadcast key (R280). -/
def execWelcome (h : THead) (hello : List Byte) (wrapped : List Byte) (print : List Byte) (sigOk : Bool) (s : State) : Host.Outcome State Fault Refusal :=
  .next (s.welcomeRx h hello wrapped print sigOk)

/-- ROLL_WAIT_EXPIRY: ROLL_WAIT ends, non-answering members go ABSENT and old keys are zeroised (R280). -/
def execRollWaitExpiry (s : State) : Host.Outcome State Fault Refusal :=
  .next (s.fire .rollWait State.rollWaitEnd)

/-- HEALTH_PERIOD_TICK: The Director broadcasts CALL at the start of each HEALTH_PERIOD (R279). -/
def execHealthPeriodTick (s : State) : Host.Outcome State Fault Refusal :=
  .next (s.healthPeriod)

/-- CALL_BROADCAST: A Player receives CALL, answers HEALTH and adopts a differing grid where its mode allows (R283). -/
def execCallBroadcast (h : THead) (call : Nat) (rate : Nat) (epoch : Nat) (s : State) : Host.Outcome State Fault Refusal :=
  .next (s.callRx h call rate epoch)

/-- HEALTH: The Director receives HEALTH and may mark the member MISALIGNED (R281). -/
def execHealth (h : THead) (x : THealth) (s : State) : Host.Outcome State Fault Refusal :=
  .next (s.healthRx h x)

/-- MEMBER_SILENT: SILENT_LIMIT periods without HEALTH mark a member SILENT (R281). -/
def execMemberSilent (k : Nat) (s : State) : Host.Outcome State Fault Refusal :=
  .next (s.memberSilent k)

/-- DIRECTOR_SILENT: A Player hears no Director for SILENT_LIMIT periods and clears DIR_SEEN (R288). -/
def execDirectorSilent (s : State) : Host.Outcome State Fault Refusal :=
  .next (s.fire .dirSilent State.directorSilent)

/-- KEY_SEND: The Director sends a group KEY to each PRESENT member ahead of frame C−V (R285). -/
def execKeySend (entry : Nat) (kid : Nat) (change : Nat) (overlap : Nat) (s : State) : Host.Outcome State Fault Refusal :=
  .next (s.keySend entry kid change overlap)

/-- KEY: A Player unwraps a KEY, pushes it as next key and answers KEY_ACK (R285). -/
def execKey (h : THead) (k : TKey) (s : State) : Host.Outcome State Fault Refusal :=
  .next (s.troupeKeyRx h k)

/-- KEY_ACK: The Director receives KEY_ACK for a member's key (R285). -/
def execKeyAck (h : THead) (kid : Nat) (s : State) : Host.Outcome State Fault Refusal :=
  .next (s.keyAckRx h kid)

/-- KEY_RETRY: A KEY unacknowledged for 1 s is resent, and after three attempts KEYS_OK clears (R285). -/
def execKeyRetry (k : Nat) (s : State) : Host.Outcome State Fault Refusal :=
  .next (s.keyRetryDue k)

/-- INTERVAL: A named Player receives INTERVAL, arranges its departure or entry and answers INTERVAL_ACK (R287). -/
def execInterval (h : THead) (mask : Nat) (start : Nat) (stop : Nat) (s : State) : Host.Outcome State Fault Refusal :=
  .next (s.intervalRx h mask start stop)

/-- INTERVAL_ACK: The Director receives an INTERVAL_ACK status (R287). -/
def execIntervalAck (h : THead) (code : Nat) (s : State) : Host.Outcome State Fault Refusal :=
  .next (s.intervalAckRx h code)

/-- INTERVAL_START: Frame S arrives: its boundary is taken, and a named understudy enters INTERVAL there (R287, R18). Mark: DEDUCED (log 139). -/
def execIntervalStart (agree : Bool) (s : State) : Host.Outcome State Fault Refusal :=
  .next (if s.intervalAt (s.stime.gridN + 1).toNat then ((s.boundary agree).afterBoundary).settle else s)

/-- INTERVAL_END: Frame E arrives and each Player returns through R17 (R287). -/
def execIntervalEnd (s : State) : Host.Outcome State Fault Refusal :=
  .next (s.intervalEnd)

/-- SUMMARY_SEND: A Player sends qualifying Prompt Book records in SUMMARY within 1 s (R286). -/
def execSummarySend (s : State) : Host.Outcome State Fault Refusal :=
  .next (s.summarySend)

/-- SUMMARY: The Director books each Player's summary record with SUM=1 (R417). -/
def execSummary (h : THead) (recs : List TRec) (s : State) : Host.Outcome State Fault Refusal :=
  .next (s.summaryRx h recs)

/-- COMMAND: A Troupe COMMAND message carries a command packet or a relayed reply (R378). -/
def execCommand (h : THead) (packet : List Byte) (s : State) : Host.Outcome State Fault Refusal :=
  .next (s.commandRx h packet)

/-- TROUPE_CNT_CLEAR: A write to TROUPE_CNT zeroes REFUSED and SUM_DROP (R288). -/
def execTroupeCntClear (m : Nat) (w : Word) (s : State) : Host.Outcome State Fault Refusal :=
  .next (s.store m A.TROUPE_CNT w)

end Sys2Proof.Machine
end

