-- ==== Sys2Proof/Machine/ExecUnderstudyCmd.lean ====
section
/-! DEFINITION. Meanings of the commands of the family UnderstudyCmd: each is one shared operation with the command's operands. -/

namespace Sys2Proof.Machine

/-- LANE_UP: An Understudy lane is up after 1 ms of block lock, starting pairing if not KEYED (R247). -/
def execLaneUp (n : Nat) (s : State) : Host.Outcome State Fault Refusal :=
  .next (s.laneUp n)

/-- LANE_DOWN: 32 bad sync headers take a lane down, breaking the pair when both are down (R247). -/
def execLaneDown (n : Nat) (s : State) : Host.Outcome State Fault Refusal :=
  .next (s.laneDown n)

/-- S2_FAULT: A Soloist S2 fault takes both lanes down and breaks the pair with CIPHER (R250). -/
def execS2Fault (s : State) : Host.Outcome State Fault Refusal :=
  .next (s.s2Fault)

/-- HELLO: A partner HELLO is received during pairing (R253). -/
def execHello (role : Nat) (body : List Byte) (s : State) : Host.Outcome State Fault Refusal :=
  .next (s.helloRx role body)

/-- KEY_MESSAGE: The secondary's KEY with the ML-KEM ciphertext is received (R253). -/
def execKeyMessage (body : List Byte) (s : State) : Host.Outcome State Fault Refusal :=
  .next (s.keyRx body)

/-- AUTH: The partner's AUTH signatures are received and verified against the configured identity (R253). -/
def execAuth (body : List Byte) (s : State) : Host.Outcome State Fault Refusal :=
  .next (s.authRx body)

/-- PAIRING_KEYED: Both signatures verify, link keys are derived and loaded and the pair becomes KEYED (R253). -/
def execPairingKeyed (s : State) : Host.Outcome State Fault Refusal :=
  .next (s.pairKeyed)

/-- PAIRING_RETRY: 1 s after an IDENTITY failure pairing is attempted again (R253). -/
def execPairingRetry (s : State) : Host.Outcome State Fault Refusal :=
  .next (s.fire .pairRetry State.pairRetry)

/-- PULSE_SEND: While KEYED, each device sends PULSE at B(N)+1 µs (R251). -/
def execPulseSend (s : State) : Host.Outcome State Fault Refusal :=
  .next (s.pulseSend)

/-- PULSE: A partner PULSE is received, updating peer health and give-back counting (R251). -/
def execPulse (w : Word) (sent : Nat) (delay : Nat) (s : State) : Host.Outcome State Fault Refusal :=
  .next (s.pulseRx w sent delay)

/-- READY: A READY for the switch frame is received by the lead (R267). -/
def execReady (switch : Nat) (s : State) : Host.Outcome State Fault Refusal :=
  .next (s.readyRx switch)

/-- ABORT: An ABORT is received, ending the understudy's readiness for the handover (R267). -/
def execAbort (s : State) : Host.Outcome State Fault Refusal :=
  .next (s.unready)

/-- CANCEL: A CANCEL is received, so the understudy does not take LEAD at the switch (R267). -/
def execCancel (s : State) : Host.Outcome State Fault Refusal :=
  .next (s.unready)

/-- ALIVE_EDGE: An edge on UL_ALIVE_IN passes the 100 ns filter (R252). -/
def execAliveEdge (s : State) : Host.Outcome State Fault Refusal :=
  .next (s.aux State.aliveEdge)

/-- MIRROR_TRANSFER_END: The transfer ends at the budget, WINDOW or the next mirror cue, and END and the seal are sent (R257). -/
def execMirrorTransferEnd (s : State) : Host.Outcome State Fault Refusal :=
  .next (s.mirrorEnd)

/-- MIRROR_RX: A whole mirror transfer arrives into the landing area (R259). -/
def execMirrorRx (msg : MirrorMsg) (sealOk : Bool) (s : State) : Host.Outcome State Fault Refusal :=
  .next (s.mirrorRx msg sealOk)

/-- SEAL_VERIFY: The seal is verified and the mirror accepted or discarded, with shadow compare and READY as due (R259). -/
def execSealVerify (s : State) : Host.Outcome State Fault Refusal :=
  .next (s.sealVerify)

/-- MIRROR_APPLY: An accepted mirror is applied in its five steps once allowed, setting A on completion (R259). -/
def execMirrorApply (s : State) : Host.Outcome State Fault Refusal :=
  .next (s.mirrorApply)

/-- FAILURE_CHECK: At B(M)+10 µs the miss counters update and R265 declares failures or alarms (R264). -/
def execFailureCheck (s : State) : Host.Outcome State Fault Refusal :=
  .next (s.failureCheck)

/-- TAKEOVER: At instant T the understudy enters LEAD, drives its pins and restarts cores from checkpoints (R266). -/
def execTakeover (agree : Bool) (s : State) : Host.Outcome State Fault Refusal :=
  .next ((s.takeover agree).settle)

/-- HANDOVER_COMMIT_CHECK: At B(G+2)−10 µs the lead commits to the switch or sends CANCEL (R267). -/
def execHandoverCommitCheck (s : State) : Host.Outcome State Fault Refusal :=
  .next (s.handoverCheck)

/-- SELFTEST_RUN: A periodic UNDERSTUDY self-test runs and sets SELFTEST_OK (R272). -/
def execSelftestRun (test : Nat) (pass : Bool) (s : State) : Host.Outcome State Fault Refusal :=
  .next ((s.selftestRun test pass).settle)

/-- UNDERSTUDY_FEED: UNDERSTUDY_CTRL.FEED feeds the heartbeat (R252). -/
def execUnderstudyFeed (m : Nat) (s : State) : Host.Outcome State Fault Refusal :=
  .next (s.store m A.UNDERSTUDY_CTRL (BitVec.twoPow 32 31))

/-- UNDERSTUDY_JOIN: JOIN enables the lanes in REHEARSAL and commits the landing banks (R248). -/
def execUnderstudyJoin (m : Nat) (s : State) : Host.Outcome State Fault Refusal :=
  .next (s.store m A.UNDERSTUDY_CTRL (BitVec.twoPow 32 30))

/-- UNDERSTUDY_HANDOVER: HANDOVER requests a departure of the lead (R267). -/
def execUnderstudyHandover (m : Nat) (s : State) : Host.Outcome State Fault Refusal :=
  .next (s.store m A.UNDERSTUDY_CTRL (BitVec.twoPow 32 29))

/-- UNDERSTUDY_RESYNC: RESYNC starts a new epoch at the next mirror cue (R262). -/
def execUnderstudyResync (m : Nat) (s : State) : Host.Outcome State Fault Refusal :=
  .next (s.store m A.UNDERSTUDY_CTRL (BitVec.twoPow 32 28))

/-- UNDERSTUDY_UNPAIR: UNPAIR breaks the pair (R254). -/
def execUnderstudyUnpair (m : Nat) (s : State) : Host.Outcome State Fault Refusal :=
  .next (s.store m A.UNDERSTUDY_CTRL (BitVec.twoPow 32 27))

/-- UNDERSTUDY_ACK_STALE: ACK_STALE clears STALE on a leading device (R263). -/
def execUnderstudyAckStale (m : Nat) (s : State) : Host.Outcome State Fault Refusal :=
  .next (s.store m A.UNDERSTUDY_CTRL (BitVec.twoPow 32 26))

/-- HOLD_SET: A write to UNDERSTUDY_HOLD_SET sets act-declared holds (R267). -/
def execHoldSet (m : Nat) (w : Word) (s : State) : Host.Outcome State Fault Refusal :=
  .next (s.store m A.UNDERSTUDY_HOLD_SET w)

/-- HOLD_CLR: A write to UNDERSTUDY_HOLD_CLR clears holds, letting a waiting handover proceed (R267). -/
def execHoldClr (m : Nat) (w : Word) (s : State) : Host.Outcome State Fault Refusal :=
  .next (s.store m A.UNDERSTUDY_HOLD_CLR w)

/-- UNDERSTUDY_CNT_CLEAR: A write to an UNDERSTUDY_CNT register zeroes it (R273). -/
def execUnderstudyCntClear (m : Nat) (k : Nat) (w : Word) (s : State) : Host.Outcome State Fault Refusal :=
  .next (s.store m (A.UNDERSTUDY_CNT_A + 4 * k) w)

/-- MIRROR_FIRST_RECORD_ARRIVES: The first record of mirror N+2 arrives while the apply of mirror N still uses the same landing half, and that apply is promoted to class 0 (R260). -/
def execMirrorFirstRecordArrives (frame : Nat) (s : State) : Host.Outcome State Fault Refusal :=
  .next (s.mirrorFirst frame)

end Sys2Proof.Machine
end

