-- ==== Sys2Proof/Machine/ExecWingsCmd.lean ====
section
/-! DEFINITION. Meanings of the commands of the family WingsCmd: each is one shared operation with the command's operands. -/

namespace Sys2Proof.Machine

/-- QUEUE_ENABLE: A W1 write with V=1 on a disabled queue enables it with HEAD=TAIL=0, or is refused (R118). -/
def execQueueEnable (m : Nat) (q : Nat) (w : Word) (s : State) : Host.Outcome State Fault Refusal :=
  .next (s.store m (0x30000000 + 16 * q + 4) (setBits w 31 31 1))

/-- QUEUE_DISABLE: A W1 write with V=0 disables the queue and abandons its entries (R118). -/
def execQueueDisable (m : Nat) (q : Nat) (w : Word) (s : State) : Host.Outcome State Fault Refusal :=
  .next (s.store m (0x30000000 + 16 * q + 4) (setBits w 31 31 0))

/-- ENQUEUE_STORE: An 8-byte store to the enqueue window of an 8-byte queue writes the entry at TAIL, or is refused (R122). -/
def execEnqueueStore (m : Nat) (q : Nat) (d : DWord) (s : State) : Host.Outcome State Fault Refusal :=
  .next (s.store8 m (0x34000000 + 8 * q) d)

/-- COPY_ENQUEUE: A copy descriptor stored to the enqueue window starts a Wings DMA copy, or is refused (R123). -/
def execCopyEnqueue (m : Nat) (q : Nat) (src : Nat) (len : Nat) (s : State) : Host.Outcome State Fault Refusal :=
  .next (s.store8 m (0x34000000 + 8 * q) (BitVec.ofNat 64 (len * 2 ^ 32 + src)))

/-- COPY_ENQUEUE_DONE: A copy completes and takes the slot at TAIL (R126). -/
def execCopyEnqueueDone (s : State) : Host.Outcome State Fault Refusal :=
  .next (s.copyDone)

/-- ENQUEUE_WINDOW_LOAD: A load from the enqueue window returns V and FREE (R122). -/
def execEnqueueWindowLoad (m : Nat) (q : Nat) (s : State) : Host.Outcome State Fault Refusal :=
  .next (s.load8 m (0x34000000 + 8 * q))

/-- DEQUEUE_LOAD: A load from the dequeue window returns V, FILL and the address at HEAD without moving HEAD (R125). -/
def execDequeueLoad (m : Nat) (q : Nat) (s : State) : Host.Outcome State Fault Refusal :=
  .next (s.load8 m (0x34400000 + 8 * q))

/-- RELEASE: A store to the dequeue window advances HEAD by COUNT and rearms notification, or is refused (R125). -/
def execRelease (m : Nat) (q : Nat) (n : Nat) (s : State) : Host.Outcome State Fault Refusal :=
  .next (s.store8 m (0x34400000 + 8 * q) (BitVec.ofNat 64 n))

/-- QUEUE_IDLE_TIMEOUT: IDLE µs after the last enqueue with a partial fill, an armed queue notifies (R128). -/
def execQueueIdleTimeout (q : Nat) (s : State) : Host.Outcome State Fault Refusal :=
  .next (s.fire (.queueIdle q) (·.notifyQueue q))

/-- NOTIFY_POP: A read of WINGS_NOTIFY_POP pops the oldest queue number and clears OVF (R129). -/
def execNotifyPop (m : Nat) (l : Nat) (s : State) : Host.Outcome State Fault Refusal :=
  .next (s.load m (A.WINGS_NOTIFY_POP l))

/-- WINGS_ERR_CLR: A write with CLR zeroes WINGS_ERR_A and WINGS_ERR_B (R123). -/
def execWingsErrClr (m : Nat) (s : State) : Host.Outcome State Fault Refusal :=
  .next (s.store m A.WINGS_ERR_CLR (BitVec.twoPow 32 31))

/-- GATHER_START: A waiting gather starts when a gatherer frees, in dispatch order (R135). -/
def execGatherStart (s : State) : Host.Outcome State Fault Refusal :=
  .next (s.gatherNext)

/-- GATHER_COMPLETE: A gather finishes writing rows and header with COMPLETE=1 and its ticket completes (R137). -/
def execGatherComplete (e : Nat) (s : State) : Host.Outcome State Fault Refusal :=
  .next (s.gatherEnd e)

/-- ENSEMBLE_CNT_CLR: An ENSEMBLE_SEL write with CLR zeroes the selected ensemble's counters (R130). -/
def execEnsembleCntClr (m : Nat) (e : Nat) (s : State) : Host.Outcome State Fault Refusal :=
  .next (s.store m A.ENSEMBLE_SEL (BitVec.ofNat 32 (2 ^ 31 + e)))

/-- PACKER_WRITE: A store to PACKER_IN appends bytes to the current bank, writing full words and swapping when it does not fit (R144). -/
def execPackerWrite (m : Nat) (c : Nat) (size : Nat) (d : DWord) (s : State) : Host.Outcome State Fault Refusal :=
  .next (s.storeN m (packerIn c) (2 ^ size) d)

/-- PACKER_CTRL_SWAP: A PACKER_CTRL write with SWAP swaps now, or is refused if the other bank is not returned (R141). -/
def execPackerCtrlSwap (m : Nat) (c : Nat) (s : State) : Host.Outcome State Fault Refusal :=
  .next (s.store m (A.PACKER_CTRL c) (setBits 0#32 (F.PACKER_CTRL_SWAP c).hi (F.PACKER_CTRL_SWAP c).lo 1))

/-- PACKER_RETURN: A PACKER_CTRL write with RET returns a bank, swapping a waiting full bank at once (R142). -/
def execPackerReturn (m : Nat) (c : Nat) (w : Word) (s : State) : Host.Outcome State Fault Refusal :=
  .next (s.store m (A.PACKER_CTRL c) w)

/-- PACKER_CNT_CLEAR: A store to either packer counter register zeroes both (R143). -/
def execPackerCntClear (m : Nat) (c : Nat) (w : Word) (s : State) : Host.Outcome State Fault Refusal :=
  .next (s.store m (A.PACKER_CNT_A c) w)

end Sys2Proof.Machine
end

