-- ==== Sys2Proof/Machine/Dispatch.lean ====
section
/-! DEFINITION. The dispatcher: one arm per command. -/

namespace Sys2Proof.Machine

def exec (i : Instr) (s : State) : Host.Outcome State Fault Refusal :=
  match i with
  | .frameBoundary agree => Sys2Proof.Machine.execFrameBoundary agree s
  | .registerWrite m a w => Sys2Proof.Machine.execRegisterWrite m a w s
  | .modeReqGo m t => Sys2Proof.Machine.execModeReqGo m t s
  | .lcAdvWrite m w => Sys2Proof.Machine.execLcAdvWrite m w s
  | .lcProgramDone => Sys2Proof.Machine.execLcProgramDone s
  | .commitGo m b when_ c => Sys2Proof.Machine.execCommitGo m b when_ c s
  | .commitAbort m b => Sys2Proof.Machine.execCommitAbort m b s
  | .commitClrcnt m b => Sys2Proof.Machine.execCommitClrcnt m b s
  | .commitApply b => Sys2Proof.Machine.execCommitApply b s
  | .stimeNowRead m => Sys2Proof.Machine.execStimeNowRead m s
  | .stimeFrameRead m => Sys2Proof.Machine.execStimeFrameRead m s
  | .stimeCoarseRead m => Sys2Proof.Machine.execStimeCoarseRead m s
  | .stepGo m => Sys2Proof.Machine.execStepGo m s
  | .servoLossTimeout => Sys2Proof.Machine.execServoLossTimeout s
  | .holdLimitExpiry => Sys2Proof.Machine.execHoldLimitExpiry s
  | .servoSrcSwitch => Sys2Proof.Machine.execServoSrcSwitch s
  | .mark x => Sys2Proof.Machine.execMark x s
  | .coreIrq x => Sys2Proof.Machine.execCoreIrq x s
  | .gather x => Sys2Proof.Machine.execGather x s
  | .pinSet x => Sys2Proof.Machine.execPinSet x s
  | .commit x => Sys2Proof.Machine.execCommit x s
  | .egressRelease x => Sys2Proof.Machine.execEgressRelease x s
  | .mirror x => Sys2Proof.Machine.execMirror x s
  | .queueKick x => Sys2Proof.Machine.execQueueKick x s
  | .packerSwap x => Sys2Proof.Machine.execPackerSwap x s
  | .doorbell x => Sys2Proof.Machine.execDoorbell x s
  | .stewardJob x => Sys2Proof.Machine.execStewardJob x s
  | .pbookMark x => Sys2Proof.Machine.execPbookMark x s
  | .preIssueRetry x => Sys2Proof.Machine.execPreIssueRetry x s
  | .pinCueEffect p => Sys2Proof.Machine.execPinCueEffect p s
  | .pulseEnd p => Sys2Proof.Machine.execPulseEnd p s
  | .ticketDeadline t => Sys2Proof.Machine.execTicketDeadline t s
  | .ticketReclaim t => Sys2Proof.Machine.execTicketReclaim t s
  | .cueTicketDone m t st => Sys2Proof.Machine.execCueTicketDone m t st s
  | .cueEditPush m x => Sys2Proof.Machine.execCueEditPush m x s
  | .cueEditDelete m x => Sys2Proof.Machine.execCueEditDelete m x s
  | .cueLoadDataWrite m w => Sys2Proof.Machine.execCueLoadDataWrite m w s
  | .cueLoadDataRead m => Sys2Proof.Machine.execCueLoadDataRead m s
  | .cueRunSet m => Sys2Proof.Machine.execCueRunSet m s
  | .cueRunClear m => Sys2Proof.Machine.execCueRunClear m s
  | .cueClrCnt m => Sys2Proof.Machine.execCueClrCnt m s
  | .linkCfgWrite m n w => Sys2Proof.Machine.execLinkCfgWrite m n w s
  | .linkUp n ok => Sys2Proof.Machine.execLinkUp n ok s
  | .linkDown n midFrame => Sys2Proof.Machine.execLinkDown n midFrame s
  | .rxFrame n frac f => Sys2Proof.Machine.execRxFrame n frac f s
  | .frameAuthenticate k mismatches => Sys2Proof.Machine.execFrameAuthenticate k mismatches s
  | .ddEntryAge p => Sys2Proof.Machine.execDdEntryAge p s
  | .supervisionTx p => Sys2Proof.Machine.execSupervisionTx p s
  | .supervisionTimeout p => Sys2Proof.Machine.execSupervisionTimeout p s
  | .egressQueueTx n mismatches => Sys2Proof.Machine.execEgressQueueTx n mismatches s
  | .releaseStart n mismatches => Sys2Proof.Machine.execReleaseStart n mismatches s
  | .ptpSyncRx n frac domain sec ns corr => Sys2Proof.Machine.execPtpSyncRx n frac domain sec ns corr s
  | .ptpSyncTx n frac => Sys2Proof.Machine.execPtpSyncTx n frac s
  | .pdelayReqTx n frac => Sys2Proof.Machine.execPdelayReqTx n frac s
  | .pdelayReqRx n frac domain asker turnaround => Sys2Proof.Machine.execPdelayReqRx n frac domain asker turnaround s
  | .pdelayRespRx n frac domain turnaround => Sys2Proof.Machine.execPdelayRespRx n frac domain turnaround s
  | .syncTimeout => Sys2Proof.Machine.execSyncTimeout s
  | .redCfgWrite m p w => Sys2Proof.Machine.execRedCfgWrite m p w s
  | .ptpPortWrite m w => Sys2Proof.Machine.execPtpPortWrite m w s
  | .portCntSnap m n => Sys2Proof.Machine.execPortCntSnap m n s
  | .portCntClr m n => Sys2Proof.Machine.execPortCntClr m n s
  | .soloistKeyPush m => Sys2Proof.Machine.execSoloistKeyPush m s
  | .soloistKeyErase m => Sys2Proof.Machine.execSoloistKeyErase m s
  | .soloistCntClear m k w => Sys2Proof.Machine.execSoloistCntClear m k w s
  | .switchEditPush m t x => Sys2Proof.Machine.execSwitchEditPush m t x s
  | .switchEditDelete m t x => Sys2Proof.Machine.execSwitchEditDelete m t x s
  | .queueEnable m q w => Sys2Proof.Machine.execQueueEnable m q w s
  | .queueDisable m q w => Sys2Proof.Machine.execQueueDisable m q w s
  | .enqueueStore m q d => Sys2Proof.Machine.execEnqueueStore m q d s
  | .copyEnqueue m q src len => Sys2Proof.Machine.execCopyEnqueue m q src len s
  | .copyEnqueueDone => Sys2Proof.Machine.execCopyEnqueueDone s
  | .enqueueWindowLoad m q => Sys2Proof.Machine.execEnqueueWindowLoad m q s
  | .dequeueLoad m q => Sys2Proof.Machine.execDequeueLoad m q s
  | .release m q n => Sys2Proof.Machine.execRelease m q n s
  | .queueIdleTimeout q => Sys2Proof.Machine.execQueueIdleTimeout q s
  | .notifyPop m l => Sys2Proof.Machine.execNotifyPop m l s
  | .wingsErrClr m => Sys2Proof.Machine.execWingsErrClr m s
  | .gatherStart => Sys2Proof.Machine.execGatherStart s
  | .gatherComplete e => Sys2Proof.Machine.execGatherComplete e s
  | .ensembleCntClr m e => Sys2Proof.Machine.execEnsembleCntClr m e s
  | .packerWrite m c size d => Sys2Proof.Machine.execPackerWrite m c size d s
  | .packerCtrlSwap m c => Sys2Proof.Machine.execPackerCtrlSwap m c s
  | .packerReturn m c w => Sys2Proof.Machine.execPackerReturn m c w s
  | .packerCntClear m c w => Sys2Proof.Machine.execPackerCntClear m c w s
  | .bankWakeDone n => Sys2Proof.Machine.execBankWakeDone n s
  | .bankZeroDone n => Sys2Proof.Machine.execBankZeroDone n s
  | .bankResumeDone n => Sys2Proof.Machine.execBankResumeDone n s
  | .terraceRequestServed reqs => Sys2Proof.Machine.execTerraceRequestServed reqs s
  | .eccWriteback => Sys2Proof.Machine.execEccWriteback s
  | .mirrorLineRead => Sys2Proof.Machine.execMirrorLineRead s
  | .rescuedWriteResume => Sys2Proof.Machine.execRescuedWriteResume s
  | .terraceCntSnap m => Sys2Proof.Machine.execTerraceCntSnap m s
  | .terraceCntClr m => Sys2Proof.Machine.execTerraceCntClr m s
  | .colViolPop m => Sys2Proof.Machine.execColViolPop m s
  | .bundleIssue n cycles drains => Sys2Proof.Machine.execBundleIssue n cycles drains s
  | .interruptEntry n => Sys2Proof.Machine.execInterruptEntry n s
  | .waitResume n => Sys2Proof.Machine.execWaitResume n s
  | .lateBusError n => Sys2Proof.Machine.execLateBusError n s
  | .lateErrorPop m n => Sys2Proof.Machine.execLateErrorPop m n s
  | .irqPendClear m k w => Sys2Proof.Machine.execIrqPendClear m k w s
  | .irqAck m n w => Sys2Proof.Machine.execIrqAck m n w s
  | .irqDoorbell m w => Sys2Proof.Machine.execIrqDoorbell m w s
  | .irqRouteWrite m k w => Sys2Proof.Machine.execIrqRouteWrite m k w s
  | .coreHold m n hold => Sys2Proof.Machine.execCoreHold m n hold s
  | .coreStart m n pc => Sys2Proof.Machine.execCoreStart m n pc s
  | .groupSupplyChange g v => Sys2Proof.Machine.execGroupSupplyChange g v s
  | .supplyRestoreDrive g => Sys2Proof.Machine.execSupplyRestoreDrive g s
  | .pinInputChange p level frac => Sys2Proof.Machine.execPinInputChange p level frac s
  | .edgeAccept p => Sys2Proof.Machine.execEdgeAccept p s
  | .dtVerdict g => Sys2Proof.Machine.execDtVerdict g s
  | .tripPairCommit g => Sys2Proof.Machine.execTripPairCommit g s
  | .readbackMismatch p => Sys2Proof.Machine.execReadbackMismatch p s
  | .ppsOutRise => Sys2Proof.Machine.execPpsOutRise s
  | .ppsOutFall => Sys2Proof.Machine.execPpsOutFall s
  | .irigFrameEnd highs edge => Sys2Proof.Machine.execIrigFrameEnd highs edge s
  | .grpCntClr m g => Sys2Proof.Machine.execGrpCntClr m g s
  | .laneUp n => Sys2Proof.Machine.execLaneUp n s
  | .laneDown n => Sys2Proof.Machine.execLaneDown n s
  | .s2Fault => Sys2Proof.Machine.execS2Fault s
  | .hello role body => Sys2Proof.Machine.execHello role body s
  | .keyMessage body => Sys2Proof.Machine.execKeyMessage body s
  | .auth body => Sys2Proof.Machine.execAuth body s
  | .pairingKeyed => Sys2Proof.Machine.execPairingKeyed s
  | .pairingRetry => Sys2Proof.Machine.execPairingRetry s
  | .pulseSend => Sys2Proof.Machine.execPulseSend s
  | .pulse w sent delay => Sys2Proof.Machine.execPulse w sent delay s
  | .ready switch => Sys2Proof.Machine.execReady switch s
  | .abort => Sys2Proof.Machine.execAbort s
  | .cancel => Sys2Proof.Machine.execCancel s
  | .aliveEdge => Sys2Proof.Machine.execAliveEdge s
  | .mirrorTransferEnd => Sys2Proof.Machine.execMirrorTransferEnd s
  | .mirrorRx msg sealOk => Sys2Proof.Machine.execMirrorRx msg sealOk s
  | .sealVerify => Sys2Proof.Machine.execSealVerify s
  | .mirrorApply => Sys2Proof.Machine.execMirrorApply s
  | .failureCheck => Sys2Proof.Machine.execFailureCheck s
  | .takeover agree => Sys2Proof.Machine.execTakeover agree s
  | .handoverCommitCheck => Sys2Proof.Machine.execHandoverCommitCheck s
  | .selftestRun test pass => Sys2Proof.Machine.execSelftestRun test pass s
  | .understudyFeed m => Sys2Proof.Machine.execUnderstudyFeed m s
  | .understudyJoin m => Sys2Proof.Machine.execUnderstudyJoin m s
  | .understudyHandover m => Sys2Proof.Machine.execUnderstudyHandover m s
  | .understudyResync m => Sys2Proof.Machine.execUnderstudyResync m s
  | .understudyUnpair m => Sys2Proof.Machine.execUnderstudyUnpair m s
  | .understudyAckStale m => Sys2Proof.Machine.execUnderstudyAckStale m s
  | .holdSet m w => Sys2Proof.Machine.execHoldSet m w s
  | .holdClr m w => Sys2Proof.Machine.execHoldClr m w s
  | .understudyCntClear m k w => Sys2Proof.Machine.execUnderstudyCntClear m k w s
  | .rollCall => Sys2Proof.Machine.execRollCall s
  | .roll h nonce => Sys2Proof.Machine.execRoll h nonce s
  | .attest h payload sigOk => Sys2Proof.Machine.execAttest h payload sigOk s
  | .welcome h hello wrapped print sigOk => Sys2Proof.Machine.execWelcome h hello wrapped print sigOk s
  | .rollWaitExpiry => Sys2Proof.Machine.execRollWaitExpiry s
  | .healthPeriodTick => Sys2Proof.Machine.execHealthPeriodTick s
  | .callBroadcast h call rate epoch => Sys2Proof.Machine.execCallBroadcast h call rate epoch s
  | .health h x => Sys2Proof.Machine.execHealth h x s
  | .memberSilent k => Sys2Proof.Machine.execMemberSilent k s
  | .directorSilent => Sys2Proof.Machine.execDirectorSilent s
  | .keySend entry kid change overlap => Sys2Proof.Machine.execKeySend entry kid change overlap s
  | .key h k => Sys2Proof.Machine.execKey h k s
  | .keyAck h kid => Sys2Proof.Machine.execKeyAck h kid s
  | .keyRetry k => Sys2Proof.Machine.execKeyRetry k s
  | .interval h mask start stop => Sys2Proof.Machine.execInterval h mask start stop s
  | .intervalAck h code => Sys2Proof.Machine.execIntervalAck h code s
  | .intervalStart agree => Sys2Proof.Machine.execIntervalStart agree s
  | .intervalEnd => Sys2Proof.Machine.execIntervalEnd s
  | .summarySend => Sys2Proof.Machine.execSummarySend s
  | .summary h recs => Sys2Proof.Machine.execSummary h recs s
  | .command h packet => Sys2Proof.Machine.execCommand h packet s
  | .troupeCntClear m w => Sys2Proof.Machine.execTroupeCntClear m w s
  | .enc c fault => Sys2Proof.Machine.execEnc c fault s
  | .dec c fault => Sys2Proof.Machine.execDec c fault s
  | .encXor c fault => Sys2Proof.Machine.execEncXor c fault s
  | .gateOpen c fault => Sys2Proof.Machine.execGateOpen c fault s
  | .gateCtr c fault => Sys2Proof.Machine.execGateCtr c fault s
  | .gateVerdict c => Sys2Proof.Machine.execGateVerdict c s
  | .wrap c fault => Sys2Proof.Machine.execWrap c fault s
  | .unwrap c fault => Sys2Proof.Machine.execUnwrap c fault s
  | .ctxSaveClear c => Sys2Proof.Machine.execCtxSaveClear c s
  | .ctxSaveWrapped c fault => Sys2Proof.Machine.execCtxSaveWrapped c fault s
  | .ctxRestore c fault => Sys2Proof.Machine.execCtxRestore c fault s
  | .chorusJobStart c agree => Sys2Proof.Machine.execChorusJobStart c agree s
  | .chorusJobDone c => Sys2Proof.Machine.execChorusJobDone c s
  | .chorusKeyPush m => Sys2Proof.Machine.execChorusKeyPush m s
  | .chorusKeyErase m => Sys2Proof.Machine.execChorusKeyErase m s
  | .chorusCntClear m w => Sys2Proof.Machine.execChorusCntClear m w s
  | .cmSeedDraw => Sys2Proof.Machine.execCmSeedDraw s
  | .hashOps inv parity agree => Sys2Proof.Machine.execHashOps inv parity agree s
  | .hmacSha256 inv parity agree => Sys2Proof.Machine.execHmacSha256 inv parity agree s
  | .ecdsaP256 inv parity agree => Sys2Proof.Machine.execEcdsaP256 inv parity agree s
  | .ecdsaP384 inv parity agree => Sys2Proof.Machine.execEcdsaP384 inv parity agree s
  | .ed25519 inv parity agree => Sys2Proof.Machine.execEd25519 inv parity agree s
  | .ecdh inv parity agree => Sys2Proof.Machine.execEcdh inv parity agree s
  | .p256Keygen inv parity agree => Sys2Proof.Machine.execP256Keygen inv parity agree s
  | .mlKem768 inv parity agree => Sys2Proof.Machine.execMlKem768 inv parity agree s
  | .mlKem1024 inv parity agree => Sys2Proof.Machine.execMlKem1024 inv parity agree s
  | .mlDsa65 inv parity agree => Sys2Proof.Machine.execMlDsa65 inv parity agree s
  | .mlDsa87 inv parity agree => Sys2Proof.Machine.execMlDsa87 inv parity agree s
  | .rsaVerify inv parity agree => Sys2Proof.Machine.execRsaVerify inv parity agree s
  | .rsaPrivate inv parity agree => Sys2Proof.Machine.execRsaPrivate inv parity agree s
  | .modexp inv parity agree => Sys2Proof.Machine.execModexp inv parity agree s
  | .lmsXmssVerify inv parity agree => Sys2Proof.Machine.execLmsXmssVerify inv parity agree s
  | .deriveKey inv parity agree => Sys2Proof.Machine.execDeriveKey inv parity agree s
  | .combine inv parity agree => Sys2Proof.Machine.execCombine inv parity agree s
  | .importKey inv parity agree => Sys2Proof.Machine.execImportKey inv parity agree s
  | .massifErase inv parity agree => Sys2Proof.Machine.execMassifErase inv parity agree s
  | .publicKey inv parity agree => Sys2Proof.Machine.execPublicKey inv parity agree s
  | .massifJobStart c agree => Sys2Proof.Machine.execMassifJobStart c agree s
  | .longJobResume => Sys2Proof.Machine.execLongJobResume s
  | .massifJobDone c => Sys2Proof.Machine.execMassifJobDone c s
  | .massifCntClear m w => Sys2Proof.Machine.execMassifCntClear m w s
  | .screeInst m => Sys2Proof.Machine.execScreeInst m s
  | .screeReseed m => Sys2Proof.Machine.execScreeReseed m s
  | .screeClrCnt m => Sys2Proof.Machine.execScreeClrCnt m s
  | .screeStartupDone k => Sys2Proof.Machine.execScreeStartupDone k s
  | .sourceHealthFail k apt => Sys2Proof.Machine.execSourceHealthFail k apt s
  | .sourceRetest k => Sys2Proof.Machine.execSourceRetest k s
  | .drbgReseed x => Sys2Proof.Machine.execDrbgReseed x s
  | .screeRandRead m => Sys2Proof.Machine.execScreeRandRead m s
  | .screeTestData m w => Sys2Proof.Machine.execScreeTestData m w s
  | .curtainSourceAssert id => Sys2Proof.Machine.execCurtainSourceAssert id s
  | .curtainZeroDone => Sys2Proof.Machine.execCurtainZeroDone s
  | .junctionTempWarn hot => Sys2Proof.Machine.execJunctionTempWarn hot s
  | .curtainCfgWrite m w => Sys2Proof.Machine.execCurtainCfgWrite m w s
  | .unlockBodyCheck body agree => Sys2Proof.Machine.execUnlockBodyCheck body agree s
  | .unlockBlockExpiry => Sys2Proof.Machine.execUnlockBlockExpiry s
  | .dtakeCntClear m w => Sys2Proof.Machine.execDtakeCntClear m w s
  | .refugeLoopCheck loop0 loop1 mesh pos vbat => Sys2Proof.Machine.execRefugeLoopCheck loop0 loop1 mesh pos vbat s
  | .refugeSupplySwitch => Sys2Proof.Machine.execRefugeSupplySwitch s
  | .cellRemoved mv => Sys2Proof.Machine.execCellRemoved mv s
  | .cellInserted mv => Sys2Proof.Machine.execCellInserted mv s
  | .vbatLow mv => Sys2Proof.Machine.execVbatLow mv s
  | .refugeRtcSet m w => Sys2Proof.Machine.execRefugeRtcSet m w s
  | .refugeLoopEnable m w => Sys2Proof.Machine.execRefugeLoopEnable m w s
  | .logMarkCopied m x => Sys2Proof.Machine.execLogMarkCopied m x s
  | .brkUnlock m n w => Sys2Proof.Machine.execBrkUnlock m n w s
  | .unlockArmExpiry n => Sys2Proof.Machine.execUnlockArmExpiry n s
  | .program m n a src => Sys2Proof.Machine.execProgram m n a src s
  | .programSafe m n a src => Sys2Proof.Machine.execProgramSafe m n a src s
  | .erase m n a => Sys2Proof.Machine.execErase m n a s
  | .inspect m n a => Sys2Proof.Machine.execInspect m n a s
  | .refresh m n a => Sys2Proof.Machine.execRefresh m n a s
  | .bedrockCmdStart => Sys2Proof.Machine.execBedrockCmdStart s
  | .bedrockCmdDone b ok => Sys2Proof.Machine.execBedrockCmdDone b ok s
  | .eraseResume b => Sys2Proof.Machine.execEraseResume b s
  | .patrolRead b blk bits pass => Sys2Proof.Machine.execPatrolRead b blk bits pass s
  | .patrolPop m => Sys2Proof.Machine.execPatrolPop m s
  | .brkEccClear m w => Sys2Proof.Machine.execBrkEccClear m w s
  | .readStatus => Sys2Proof.Machine.execReadStatus s
  | .write packet => Sys2Proof.Machine.execWrite packet s
  | .qwrite packet => Sys2Proof.Machine.execQwrite packet s
  | .read n => Sys2Proof.Machine.execRead n s
  | .qread n => Sys2Proof.Machine.execQread n s
  | .hostCntClear m w => Sys2Proof.Machine.execHostCntClear m w s
  | .sessionOpen => Sys2Proof.Machine.execSessionOpen s
  | .sessionAuth agree => Sys2Proof.Machine.execSessionAuth agree s
  | .sessionClose => Sys2Proof.Machine.execSessionClose s
  | .sessionInfo => Sys2Proof.Machine.execSessionInfo s
  | .ping => Sys2Proof.Machine.execPing s
  | .idGet => Sys2Proof.Machine.execIdGet s
  | .idCert => Sys2Proof.Machine.execIdCert s
  | .idAttest => Sys2Proof.Machine.execIdAttest s
  | .idChallenge => Sys2Proof.Machine.execIdChallenge s
  | .imgBegin => Sys2Proof.Machine.execImgBegin s
  | .imgWrite ok => Sys2Proof.Machine.execImgWrite ok s
  | .imgCommit => Sys2Proof.Machine.execImgCommit s
  | .imgSelect => Sys2Proof.Machine.execImgSelect s
  | .imgList => Sys2Proof.Machine.execImgList s
  | .cfgApply => Sys2Proof.Machine.execCfgApply s
  | .cfgInfo => Sys2Proof.Machine.execCfgInfo s
  | .timeStep => Sys2Proof.Machine.execTimeStep s
  | .rtcSet => Sys2Proof.Machine.execRtcSet s
  | .cueGet => Sys2Proof.Machine.execCueGet s
  | .cuePush => Sys2Proof.Machine.execCuePush s
  | .cueCommit => Sys2Proof.Machine.execCueCommit s
  | .cueAbort => Sys2Proof.Machine.execCueAbort s
  | .cueStatus => Sys2Proof.Machine.execCueStatus s
  | .keyProvision ok => Sys2Proof.Machine.execKeyProvision ok s
  | .keyErase ok => Sys2Proof.Machine.execKeyErase ok s
  | .keyList => Sys2Proof.Machine.execKeyList s
  | .keyStream => Sys2Proof.Machine.execKeyStream s
  | .kekRoll => Sys2Proof.Machine.execKekRoll s
  | .kdcRelay => Sys2Proof.Machine.execKdcRelay s
  | .pairRole => Sys2Proof.Machine.execPairRole s
  | .handover => Sys2Proof.Machine.execHandover s
  | .pairCtrl => Sys2Proof.Machine.execPairCtrl s
  | .pairStatus => Sys2Proof.Machine.execPairStatus s
  | .troupeRole => Sys2Proof.Machine.execTroupeRole s
  | .troupeStatus => Sys2Proof.Machine.execTroupeStatus s
  | .rollNow => Sys2Proof.Machine.execRollNow s
  | .intervalCall => Sys2Proof.Machine.execIntervalCall s
  | .relay => Sys2Proof.Machine.execRelay s
  | .relayTimeout x => Sys2Proof.Machine.execRelayTimeout x s
  | .bookRead => Sys2Proof.Machine.execBookRead s
  | .bookArchive => Sys2Proof.Machine.execBookArchive s
  | .bookNote => Sys2Proof.Machine.execBookNote s
  | .bookClear => Sys2Proof.Machine.execBookClear s
  | .fileList => Sys2Proof.Machine.execFileList s
  | .fileRead ok => Sys2Proof.Machine.execFileRead ok s
  | .fileWrite => Sys2Proof.Machine.execFileWrite s
  | .fileDelete ok => Sys2Proof.Machine.execFileDelete ok s
  | .mediaEject => Sys2Proof.Machine.execMediaEject s
  | .status => Sys2Proof.Machine.execStatus s
  | .regRead => Sys2Proof.Machine.execRegRead s
  | .selftest results => Sys2Proof.Machine.execSelftest results s
  | .trace => Sys2Proof.Machine.execTrace s
  | .coreCtrl => Sys2Proof.Machine.execCoreCtrl s
  | .commission => Sys2Proof.Machine.execCommission s
  | .unlock verified agree => Sys2Proof.Machine.execUnlock verified agree s
  | .modeReq => Sys2Proof.Machine.execModeReq s
  | .reset => Sys2Proof.Machine.execReset s
  | .returnLc => Sys2Proof.Machine.execReturnLc s
  | .decommission => Sys2Proof.Machine.execDecommission s
  | .issue => Sys2Proof.Machine.execIssue s
  | .commandExecStart g => Sys2Proof.Machine.execCommandExecStart g s
  | .commandFinalReply x ok agree => Sys2Proof.Machine.execCommandFinalReply x ok agree s
  | .sessionPendingTimeout n => Sys2Proof.Machine.execSessionPendingTimeout n s
  | .sessionIdleTimeout n => Sys2Proof.Machine.execSessionIdleTimeout n s
  | .note => Sys2Proof.Machine.execNote s
  | .sign => Sys2Proof.Machine.execSign s
  | .verify agree => Sys2Proof.Machine.execVerify agree s
  | .store ok => Sys2Proof.Machine.execStore ok s
  | .load => Sys2Proof.Machine.execLoad s
  | .feed => Sys2Proof.Machine.execFeed s
  | .patrol => Sys2Proof.Machine.execPatrol s
  | .rtcSync => Sys2Proof.Machine.execRtcSync s
  | .recordEnterRing => Sys2Proof.Machine.execRecordEnterRing s
  | .limitWindowEnd code src => Sys2Proof.Machine.execLimitWindowEnd code src s
  | .archivePair => Sys2Proof.Machine.execArchivePair s
  | .recLatchRead m r => Sys2Proof.Machine.execRecLatchRead m r s
  | .recFinalRead m r => Sys2Proof.Machine.execRecFinalRead m r s
  | .pbookClear m upto archive => Sys2Proof.Machine.execPbookClear m upto archive s
  | .pbookDropClear m k w => Sys2Proof.Machine.execPbookDropClear m k w s
  | .traceCfgWrite m w => Sys2Proof.Machine.execTraceCfgWrite m w s
  | .tracePacketSend => Sys2Proof.Machine.execTracePacketSend s
  | .observeCntSnap m => Sys2Proof.Machine.execObserveCntSnap m s
  | .observeCntClr m => Sys2Proof.Machine.execObserveCntClr m s
  | .traceStatClear m w => Sys2Proof.Machine.execTraceStatClear m w s
  | .fieldOn m => Sys2Proof.Machine.execFieldOn m s
  | .fieldOff m => Sys2Proof.Machine.execFieldOff m s
  | .activate m rate => Sys2Proof.Machine.execActivate m rate s
  | .exchange m len => Sys2Proof.Machine.execExchange m len s
  | .deselect m => Sys2Proof.Machine.execDeselect m s
  | .readerOpDone st rx badge => Sys2Proof.Machine.execReaderOpDone st rx badge s
  | .carrierIdleOff => Sys2Proof.Machine.execCarrierIdleOff s
  | .detuningPing amp => Sys2Proof.Machine.execDetuningPing amp s
  | .extFieldChange present => Sys2Proof.Machine.execExtFieldChange present s
  | .tagPowerUp supply => Sys2Proof.Machine.execTagPowerUp supply s
  | .reqa => Sys2Proof.Machine.execReqa s
  | .wupa => Sys2Proof.Machine.execWupa s
  | .anticollision => Sys2Proof.Machine.execAnticollision s
  | .select uid => Sys2Proof.Machine.execSelect uid s
  | .rats => Sys2Proof.Machine.execRats s
  | .pps => Sys2Proof.Machine.execPps s
  | .hlta => Sys2Proof.Machine.execHlta s
  | .tagDeselect => Sys2Proof.Machine.execTagDeselect s
  | .tagRead p n => Sys2Proof.Machine.execTagRead p n s
  | .writeMb p n data strong lost => Sys2Proof.Machine.execWriteMb p n data strong lost s
  | .fieldLoss => Sys2Proof.Machine.execFieldLoss s
  | .haltSilenceEnd => Sys2Proof.Machine.execHaltSilenceEnd s
  | .badgeTsCommit m max => Sys2Proof.Machine.execBadgeTsCommit m max s
  | .badgeTsAbort m => Sys2Proof.Machine.execBadgeTsAbort m s
  | .tsCommitResume => Sys2Proof.Machine.execTsCommitResume s
  | .tsFlip => Sys2Proof.Machine.execTsFlip s
  | .badgeStatRead m => Sys2Proof.Machine.execBadgeStatRead m s
  | .cardInsert => Sys2Proof.Machine.execCardInsert s
  | .cardRemoval phase done => Sys2Proof.Machine.execCardRemoval phase done s
  | .identify cards extra count medium => Sys2Proof.Machine.execIdentify cards extra count medium s
  | .cartRead m card blocks lba buf => Sys2Proof.Machine.execCartRead m card blocks lba buf s
  | .cartWrite m card blocks lba buf => Sys2Proof.Machine.execCartWrite m card blocks lba buf s
  | .cmd13Status m card => Sys2Proof.Machine.execCmd13Status m card s
  | .eject m => Sys2Proof.Machine.execEject m s
  | .cartOpDone res done data => Sys2Proof.Machine.execCartOpDone res done data s
  | .powerOnReset => Sys2Proof.Machine.execPowerOnReset s
  | .pinReset => Sys2Proof.Machine.execPinReset s
  | .warmReset => Sys2Proof.Machine.execWarmReset s
  | .stewardRestart => Sys2Proof.Machine.execStewardRestart s
  | .stewardReattach => Sys2Proof.Machine.execStewardReattach s
  | .powerFailure => Sys2Proof.Machine.execPowerFailure s
  | .auxSupplyLoss => Sys2Proof.Machine.execAuxSupplyLoss s
  | .pllLock => Sys2Proof.Machine.execPllLock s
  | .pllLockRetry => Sys2Proof.Machine.execPllLockRetry s
  | .recoveredQualify diff => Sys2Proof.Machine.execRecoveredQualify diff s
  | .recoveredLoss => Sys2Proof.Machine.execRecoveredLoss s
  | .earlyActStart => Sys2Proof.Machine.execEarlyActStart s
  | .callAlign smp arr avg => Sys2Proof.Machine.execCallAlign smp arr avg s
  | .roleSettlement => Sys2Proof.Machine.execRoleSettlement s
  | .txFrameEnd n mismatches => Sys2Proof.Machine.execTxFrameEnd n mismatches s
  | .vddioAuxReturn => Sys2Proof.Machine.execVddioAuxReturn s
  | .vddBadgeLoss => Sys2Proof.Machine.execVddBadgeLoss s
  | .refugePowerLoss => Sys2Proof.Machine.execRefugePowerLoss s
  | .curtainSourceClears id => Sys2Proof.Machine.execCurtainSourceClears id s
  | .mirrorFirstRecordArrives frame => Sys2Proof.Machine.execMirrorFirstRecordArrives frame s

end Sys2Proof.Machine
end

