-- ==== Sys2Proof/WellFormed.lean ====
section
/-! DEFINITION. When a command is well formed: every operand that names one of a fixed number of things names one of them (R34: masters 0 to 24; the counts of ports, cores, queues, banks, cues,
tickets, pins and the rest). -/

namespace Sys2Proof

/-- Every operand of the command is in its range. -/
def Instr.wellFormed (i : Instr) : Bool :=
  match i with
  | .frameBoundary _ => true
  | .registerWrite m _ _ => decide (m < 25)
  | .modeReqGo m t => decide (m < 25) && decide (t < 8)
  | .lcAdvWrite m _ => decide (m < 25)
  | .lcProgramDone => true
  | .commitGo m b when_ c => decide (m < 25) && decide (b < 13) && decide (when_ < 4) && decide (c < 16384)
  | .commitAbort m b => decide (m < 25) && decide (b < 13)
  | .commitClrcnt m b => decide (m < 25) && decide (b < 13)
  | .commitApply b => decide (b < 13)
  | .stimeNowRead m => decide (m < 25)
  | .stimeFrameRead m => decide (m < 25)
  | .stimeCoarseRead m => decide (m < 25)
  | .stepGo m => decide (m < 25)
  | .servoLossTimeout => true
  | .holdLimitExpiry => true
  | .servoSrcSwitch => true
  | .mark i => decide (i < 16384)
  | .coreIrq i => decide (i < 16384)
  | .gather i => decide (i < 16384)
  | .pinSet i => decide (i < 16384)
  | .commit i => decide (i < 16384)
  | .egressRelease i => decide (i < 16384)
  | .mirror i => decide (i < 16384)
  | .queueKick i => decide (i < 16384)
  | .packerSwap i => decide (i < 16384)
  | .doorbell i => decide (i < 16384)
  | .stewardJob i => decide (i < 16384)
  | .pbookMark i => decide (i < 16384)
  | .preIssueRetry i => decide (i < 16384)
  | .pinCueEffect p => decide (p < 256)
  | .pulseEnd p => decide (p < 256)
  | .ticketDeadline t => decide (t < 1024)
  | .ticketReclaim t => decide (t < 1024)
  | .cueTicketDone m t st => decide (m < 25) && decide (t < 1024) && decide (st < 16)
  | .cueEditPush m i => decide (m < 25) && decide (i < 16384)
  | .cueEditDelete m i => decide (m < 25) && decide (i < 16384)
  | .cueLoadDataWrite m _ => decide (m < 25)
  | .cueLoadDataRead m => decide (m < 25)
  | .cueRunSet m => decide (m < 25)
  | .cueRunClear m => decide (m < 25)
  | .cueClrCnt m => decide (m < 25)
  | .linkCfgWrite m n _ => decide (m < 25) && decide (n < 4)
  | .linkUp n _ => decide (n < 4)
  | .linkDown n _ => decide (n < 4)
  | .rxFrame n frac _ => decide (n < 4) && decide (frac < 256)
  | .frameAuthenticate k mismatches => decide (k < 2) && decide (mismatches ≤ 8)
  | .ddEntryAge p => decide (p < 2)
  | .supervisionTx p => decide (p < 2)
  | .supervisionTimeout p => decide (p < 2)
  | .egressQueueTx n mismatches => decide (n < 4) && decide (mismatches ≤ 8)
  | .releaseStart n mismatches => decide (n < 4) && decide (mismatches ≤ 8)
  | .ptpSyncRx n frac domain _ _ _ => decide (n < 4) && decide (frac < 256) && decide (domain < 256)
  | .ptpSyncTx n frac => decide (n < 4) && decide (frac < 256)
  | .pdelayReqTx n frac => decide (n < 4) && decide (frac < 256)
  | .pdelayReqRx n frac domain asker _ => decide (n < 4) && decide (frac < 256) && decide (domain < 256) && decide (asker.length = 12)
  | .pdelayRespRx n frac domain _ => decide (n < 4) && decide (frac < 256) && decide (domain < 256)
  | .syncTimeout => true
  | .redCfgWrite m p _ => decide (m < 25) && decide (p < 2)
  | .ptpPortWrite m _ => decide (m < 25)
  | .portCntSnap m n => decide (m < 25) && decide (n < 4)
  | .portCntClr m n => decide (m < 25) && decide (n < 4)
  | .soloistKeyPush m => decide (m < 25)
  | .soloistKeyErase m => decide (m < 25)
  | .soloistCntClear m k _ => decide (m < 25) && decide (k < 3)
  | .switchEditPush m t i => decide (m < 25) && decide (t < 8) && decide (i < 16384)
  | .switchEditDelete m t i => decide (m < 25) && decide (t < 8) && decide (i < 16384)
  | .queueEnable m q _ => decide (m < 25) && decide (q < 262144)
  | .queueDisable m q _ => decide (m < 25) && decide (q < 262144)
  | .enqueueStore m q _ => decide (m < 25) && decide (q < 262144)
  | .copyEnqueue m q src len => decide (m < 25) && decide (q < 262144) && decide (src < 2 ^ 32) && decide (len < 65536)
  | .copyEnqueueDone => true
  | .enqueueWindowLoad m q => decide (m < 25) && decide (q < 262144)
  | .dequeueLoad m q => decide (m < 25) && decide (q < 262144)
  | .release m q _ => decide (m < 25) && decide (q < 262144)
  | .queueIdleTimeout q => decide (q < 262144)
  | .notifyPop m l => decide (m < 25) && decide (l < 32)
  | .wingsErrClr m => decide (m < 25)
  | .gatherStart => true
  | .gatherComplete e => decide (e < 256)
  | .ensembleCntClr m e => decide (m < 25) && decide (e < 256)
  | .packerWrite m c size _ => decide (m < 25) && decide (c < 48) && decide (size < 4)
  | .packerCtrlSwap m c => decide (m < 25) && decide (c < 48)
  | .packerReturn m c _ => decide (m < 25) && decide (c < 48)
  | .packerCntClear m c _ => decide (m < 25) && decide (c < 48)
  | .bankWakeDone n => decide (n < 64)
  | .bankZeroDone n => decide (n < 64)
  | .bankResumeDone n => decide (n < 64)
  | .terraceRequestServed _ => true
  | .eccWriteback => true
  | .mirrorLineRead => true
  | .rescuedWriteResume => true
  | .terraceCntSnap m => decide (m < 25)
  | .terraceCntClr m => decide (m < 25)
  | .colViolPop m => decide (m < 25)
  | .bundleIssue n _ _ => decide (n < 9)
  | .interruptEntry n => decide (n < 9)
  | .waitResume n => decide (n < 9)
  | .lateBusError n => decide (n < 9)
  | .lateErrorPop m n => decide (m < 25) && decide (n < 9)
  | .irqPendClear m k _ => decide (m < 25) && decide (k < 8)
  | .irqAck m n _ => decide (m < 25) && decide (n < 9)
  | .irqDoorbell m _ => decide (m < 25)
  | .irqRouteWrite m k _ => decide (m < 25) && decide (k < 256)
  | .coreHold m n _ => decide (m < 25) && decide (n < 8)
  | .coreStart m n _ => decide (m < 25) && decide (n < 8)
  | .groupSupplyChange g v => decide (g < 32) && decide (v < 3)
  | .supplyRestoreDrive g => decide (g < 32)
  | .pinInputChange p _ frac => decide (p < 256) && decide (frac < 256)
  | .edgeAccept p => decide (p < 256)
  | .dtVerdict g => decide (g < 16)
  | .tripPairCommit g => decide (g < 16)
  | .readbackMismatch p => decide (p < 256)
  | .ppsOutRise => true
  | .ppsOutFall => true
  | .irigFrameEnd _ _ => true
  | .grpCntClr m g => decide (m < 25) && decide (g < 32)
  | .laneUp n => decide (n < 2)
  | .laneDown n => decide (n < 2)
  | .s2Fault => true
  | .hello role _ => decide (role < 4)
  | .keyMessage _ => true
  | .auth _ => true
  | .pairingKeyed => true
  | .pairingRetry => true
  | .pulseSend => true
  | .pulse _ sent _ => decide (sent < 2 ^ 64)
  | .ready _ => true
  | .abort => true
  | .cancel => true
  | .aliveEdge => true
  | .mirrorTransferEnd => true
  | .mirrorRx _ _ => true
  | .sealVerify => true
  | .mirrorApply => true
  | .failureCheck => true
  | .takeover _ => true
  | .handoverCommitCheck => true
  | .selftestRun test _ => decide (test < 6)
  | .understudyFeed m => decide (m < 25)
  | .understudyJoin m => decide (m < 25)
  | .understudyHandover m => decide (m < 25)
  | .understudyResync m => decide (m < 25)
  | .understudyUnpair m => decide (m < 25)
  | .understudyAckStale m => decide (m < 25)
  | .holdSet m _ => decide (m < 25)
  | .holdClr m _ => decide (m < 25)
  | .understudyCntClear m k _ => decide (m < 25) && decide (k < 3)
  | .rollCall => true
  | .roll _ _ => true
  | .attest _ _ _ => true
  | .welcome _ _ _ _ _ => true
  | .rollWaitExpiry => true
  | .healthPeriodTick => true
  | .callBroadcast _ _ rate _ => decide (rate < 4)
  | .health _ _ => true
  | .memberSilent k => decide (k < 64)
  | .directorSilent => true
  | .keySend entry kid _ overlap => decide (entry < 4096) && decide (kid < 2 ^ 32) && decide (overlap < 65536)
  | .key _ _ => true
  | .keyAck _ kid => decide (kid < 2 ^ 32)
  | .keyRetry k => decide (k < 64)
  | .interval _ _ _ _ => true
  | .intervalAck _ code => decide (code < 256)
  | .intervalStart _ => true
  | .intervalEnd => true
  | .summarySend => true
  | .summary _ _ => true
  | .command _ _ => true
  | .troupeCntClear m _ => decide (m < 25)
  | .enc c _ => decide (c < 8)
  | .dec c _ => decide (c < 8)
  | .encXor c _ => decide (c < 8)
  | .gateOpen c _ => decide (c < 8)
  | .gateCtr c _ => decide (c < 8)
  | .gateVerdict c => decide (c < 8)
  | .wrap c _ => decide (c < 8)
  | .unwrap c _ => decide (c < 8)
  | .ctxSaveClear c => decide (c < 8)
  | .ctxSaveWrapped c _ => decide (c < 8)
  | .ctxRestore c _ => decide (c < 8)
  | .chorusJobStart c _ => decide (c < 8)
  | .chorusJobDone c => decide (c < 8)
  | .chorusKeyPush m => decide (m < 25)
  | .chorusKeyErase m => decide (m < 25)
  | .chorusCntClear m _ => decide (m < 25)
  | .cmSeedDraw => true
  | .hashOps _ _ _ => true
  | .hmacSha256 _ _ _ => true
  | .ecdsaP256 _ _ _ => true
  | .ecdsaP384 _ _ _ => true
  | .ed25519 _ _ _ => true
  | .ecdh _ _ _ => true
  | .p256Keygen _ _ _ => true
  | .mlKem768 _ _ _ => true
  | .mlKem1024 _ _ _ => true
  | .mlDsa65 _ _ _ => true
  | .mlDsa87 _ _ _ => true
  | .rsaVerify _ _ _ => true
  | .rsaPrivate _ _ _ => true
  | .modexp _ _ _ => true
  | .lmsXmssVerify _ _ _ => true
  | .deriveKey _ _ _ => true
  | .combine _ _ _ => true
  | .importKey _ _ _ => true
  | .massifErase _ _ _ => true
  | .publicKey _ _ _ => true
  | .massifJobStart c _ => decide (c < 3)
  | .longJobResume => true
  | .massifJobDone c => decide (c < 3)
  | .massifCntClear m _ => decide (m < 25)
  | .screeInst m => decide (m < 25)
  | .screeReseed m => decide (m < 25)
  | .screeClrCnt m => decide (m < 25)
  | .screeStartupDone k => decide (k < 8)
  | .sourceHealthFail k _ => decide (k < 8)
  | .sourceRetest k => decide (k < 8)
  | .drbgReseed i => decide (i < 2)
  | .screeRandRead m => decide (m < 25)
  | .screeTestData m _ => decide (m < 25)
  | .curtainSourceAssert id => decide (id < 16)
  | .curtainZeroDone => true
  | .junctionTempWarn _ => true
  | .curtainCfgWrite m _ => decide (m < 25)
  | .unlockBodyCheck _ _ => true
  | .unlockBlockExpiry => true
  | .dtakeCntClear m _ => decide (m < 25)
  | .refugeLoopCheck _ _ _ _ _ => true
  | .refugeSupplySwitch => true
  | .cellRemoved _ => true
  | .cellInserted _ => true
  | .vbatLow _ => true
  | .refugeRtcSet m _ => decide (m < 25)
  | .refugeLoopEnable m _ => decide (m < 25)
  | .logMarkCopied m i => decide (m < 25) && decide (i < 16)
  | .brkUnlock m n _ => decide (m < 25) && decide (n < 9)
  | .unlockArmExpiry n => decide (n < 9)
  | .program m n _ _ => decide (m < 25) && decide (n < 9)
  | .programSafe m n _ _ => decide (m < 25) && decide (n < 9)
  | .erase m n _ => decide (m < 25) && decide (n < 9)
  | .inspect m n _ => decide (m < 25) && decide (n < 9)
  | .refresh m n _ => decide (m < 25) && decide (n < 9)
  | .bedrockCmdStart => true
  | .bedrockCmdDone b _ => decide (b < 5)
  | .eraseResume b => decide (b < 5)
  | .patrolRead b blk bits _ => decide (b < 5) && decide (blk < 256) && decide (bits < 16)
  | .patrolPop m => decide (m < 25)
  | .brkEccClear m _ => decide (m < 25)
  | .readStatus => true
  | .write _ => true
  | .qwrite _ => true
  | .read _ => true
  | .qread _ => true
  | .hostCntClear m _ => decide (m < 25)
  | .sessionOpen => true
  | .sessionAuth _ => true
  | .sessionClose => true
  | .sessionInfo => true
  | .ping => true
  | .idGet => true
  | .idCert => true
  | .idAttest => true
  | .idChallenge => true
  | .imgBegin => true
  | .imgWrite _ => true
  | .imgCommit => true
  | .imgSelect => true
  | .imgList => true
  | .cfgApply => true
  | .cfgInfo => true
  | .timeStep => true
  | .rtcSet => true
  | .cueGet => true
  | .cuePush => true
  | .cueCommit => true
  | .cueAbort => true
  | .cueStatus => true
  | .keyProvision _ => true
  | .keyErase _ => true
  | .keyList => true
  | .keyStream => true
  | .kekRoll => true
  | .kdcRelay => true
  | .pairRole => true
  | .handover => true
  | .pairCtrl => true
  | .pairStatus => true
  | .troupeRole => true
  | .troupeStatus => true
  | .rollNow => true
  | .intervalCall => true
  | .relay => true
  | .relayTimeout i => decide (i < 64)
  | .bookRead => true
  | .bookArchive => true
  | .bookNote => true
  | .bookClear => true
  | .fileList => true
  | .fileRead _ => true
  | .fileWrite => true
  | .fileDelete _ => true
  | .mediaEject => true
  | .status => true
  | .regRead => true
  | .selftest _ => true
  | .trace => true
  | .coreCtrl => true
  | .commission => true
  | .unlock _ _ => true
  | .modeReq => true
  | .reset => true
  | .returnLc => true
  | .decommission => true
  | .issue => true
  | .commandExecStart g => decide (g < 16)
  | .commandFinalReply i _ _ => decide (i < 64)
  | .sessionPendingTimeout n => decide (n < 8)
  | .sessionIdleTimeout n => decide (n < 8)
  | .note => true
  | .sign => true
  | .verify _ => true
  | .store _ => true
  | .load => true
  | .feed => true
  | .patrol => true
  | .rtcSync => true
  | .recordEnterRing => true
  | .limitWindowEnd code src => decide (code < 65536) && decide (src < 32)
  | .archivePair => true
  | .recLatchRead m r => decide (m < 25) && decide (r < 4)
  | .recFinalRead m r => decide (m < 25) && decide (r < 4)
  | .pbookClear m _ _ => decide (m < 25)
  | .pbookDropClear m k _ => decide (m < 25) && decide (k < 2)
  | .traceCfgWrite m _ => decide (m < 25)
  | .tracePacketSend => true
  | .observeCntSnap m => decide (m < 25)
  | .observeCntClr m => decide (m < 25)
  | .traceStatClear m _ => decide (m < 25)
  | .fieldOn m => decide (m < 25)
  | .fieldOff m => decide (m < 25)
  | .activate m rate => decide (m < 25) && decide (rate < 4)
  | .exchange m len => decide (m < 25) && decide (len < 257)
  | .deselect m => decide (m < 25)
  | .readerOpDone st _ _ => decide (st < 16)
  | .carrierIdleOff => true
  | .detuningPing _ => true
  | .extFieldChange _ => true
  | .tagPowerUp _ => true
  | .reqa => true
  | .wupa => true
  | .anticollision => true
  | .select _ => true
  | .rats => true
  | .pps => true
  | .hlta => true
  | .tagDeselect => true
  | .tagRead p n => decide (p < 65536) && decide (n < 256)
  | .writeMb p n _ _ lost => decide (p < 65536) && decide (n < 256) && decide (lost < 6)
  | .fieldLoss => true
  | .haltSilenceEnd => true
  | .badgeTsCommit m max => decide (m < 25) && decide (max < 65536)
  | .badgeTsAbort m => decide (m < 25)
  | .tsCommitResume => true
  | .tsFlip => true
  | .badgeStatRead m => decide (m < 25)
  | .cardInsert => true
  | .cardRemoval phase done => decide (phase < 4) && decide (done < 65536)
  | .identify _ _ count _ => decide (count < 2 ^ 32)
  | .cartRead m card blocks _ _ => decide (m < 25) && decide (card < 4) && decide (blocks < 65536)
  | .cartWrite m card blocks _ _ => decide (m < 25) && decide (card < 4) && decide (blocks < 65536)
  | .cmd13Status m card => decide (m < 25) && decide (card < 4)
  | .eject m => decide (m < 25)
  | .cartOpDone res done _ => decide (res < 12) && decide (done < 65536)
  | .powerOnReset => true
  | .pinReset => true
  | .warmReset => true
  | .stewardRestart => true
  | .stewardReattach => true
  | .powerFailure => true
  | .auxSupplyLoss => true
  | .pllLock => true
  | .pllLockRetry => true
  | .recoveredQualify _ => true
  | .recoveredLoss => true
  | .earlyActStart => true
  | .callAlign smp _ _ => decide (smp < 65536)
  | .roleSettlement => true
  | .txFrameEnd n mismatches => decide (n < 4) && decide (mismatches < 3)
  | .vddioAuxReturn => true
  | .vddBadgeLoss => true
  | .refugePowerLoss => true
  | .curtainSourceClears id => decide (id < 16)
  | .mirrorFirstRecordArrives _ => true

end Sys2Proof
end

