-- ==== Sys2Proof/Safety.lean ====
section
/-! DEFINITION. What statements about runs rest on: the invariants of a state, and what the outside world sees of it. -/

namespace Sys2Proof.Machine

/-- Memory is in its canonical form: addresses rising, no entry equal to what an unlisted address reads as. -/
def State.memOk (s : State) : Bool := Memory.wf s.mem

/-- The sparse stores that hold the device's contents are canonical, so that equal contents are equal data: memory, registers, live copies, counters. -/
def storesOk (mem : List Host.Cell) (regs live cnt : List (Nat × Word)) : Prop :=
  Memory.wf mem = true ∧ canonical regReset regs = true ∧ canonical regReset live = true ∧ canonical (fun _ => 0#32) cnt = true

/-- No buffer of the device holds more than it has room for: 32 violation records (R226), 64 records in the Prompt Book's input FIFO and 4,096 in its ring (R413, R414),
64 lines in the rescue buffer (R215), 4 running gathers (R135). -/
def buffersOk (viol : List Viol) (inFifo : List Rec) (ring : List (Rec × Bool)) (rescue : List MirrorLine) (running : List Gather) : Prop :=
  viol.length ≤ 32 ∧ inFifo.length ≤ 64 ∧ ring.length ≤ 4096 ∧ rescue.length ≤ 64 ∧ running.length ≤ 4

/-- The invariant of the device: its stores are canonical and its buffers within their room. -/
def State.Inv (s : State) : Prop :=
  storesOk s.mem s.regs s.live s.cnt ∧ buffersOk s.viol s.book.inFifo s.book.ring s.terr.rescue s.ens.running

/-- A 32-bit store of master `m` to register `a` reaches it: the main domain runs and the Col units let the store in (R219 to R223). -/
def State.mayWrite (s : State) (m a : Nat) : Bool := s.live? && (colCheck s m a 4 .write).isNone

/-- A 32-bit load of master `m` from register `a` reaches it (R219 to R223). -/
def State.mayRead (s : State) (m a : Nat) : Bool := s.live? && (colCheck s m a 4 .read).isNone

/-- An access of `n` bytes of kind `k` by master `m` at `a` is admitted, of an address whose target exists (R30, R219 to R223). -/
def State.admits (s : State) (m a n : Nat) (k : AccKind) : Bool := s.live? && (colCheck s m a n k).isNone

/-- The state at the moment a running timer elapses: Stage Time has reached it and the timer is spent. -/
def State.elapsed (s : State) (t : Timer) : State := (s.reachST (s.dueAt t)).disarm t

/-- Nothing that an earlier command raised waits to take effect: no Curtain source asserted inside a unit, and no release that a dropped link ended (log 117). Mark: DESIGN CHOICE (log 117). -/
abbrev State.Quiet (s : State) : Prop := s.alarms = [] ∧ s.ports.ended = []

/-- No block has a commit pending (R28). -/
def State.nothingPends (s : State) : Bool := pairedBlocks.all fun b => !s.pendingIn b

/-- The tick at which the engine comes to an occurrence, opened: Stage Time has reached it, and the sets committed to a cue handled there are applied (R59, R61). -/
def State.tickOf (s : State) (o : Occ) : State := s.openTick (s.launchTick o)

/-- The occurrence `o` is the next one, and at its tick it is launched: it is not late, its pin is free and its scheduler has room (R58 to R61). -/
def State.dueNow (s : State) (o : Occ) : Bool :=
  s.flag F.CUE_CTRL_RUN && s.dueList.head? == some o && (s.tickOf o).dueList.head? == some o && (s.tickOf o).fate o == .go false

/-- The launch of an occurrence up to its action: its entry done, its place in the tick, its ticket if it takes one, its count and its trace item (R56, R59, R62). -/
def State.atLaunch (s : State) (o : Occ) : Option TicketRef × State :=
  let u := ((s.tickOf o).occDone o).takePlace
  let r := if o.ent.tkt then u.allocTicket o.idx o.time o.ent.deadline (u.ticketOwner o.ent) else (none, u)
  (r.1, (r.2.observe 1 0 1).traceItem 2 (cueItem o.idx 0 ((r.1.map (·.num)).getD 0) 0 r.2.now))

/-- The live levels of all 256 cue pins: what each ball is driven to, none where it is high impedance (R229). -/
def State.driveAll (s : State) : List (Option Bool) := (List.range 256).map s.pinDrive

/-- The registers that only master 8 may write, whatever the Col tables say: Col itself, the Curtain, the Refuge, Double Take, the first 8 KiB of the system page,
the Chorus key pages and the guarded pages of the Soloist (R223). -/
def hardProtected (a : Nat) : Prop :=
  (Base.COL ≤ a ∧ a < Base.COL + 0x10000) ∨ (Base.CURTAIN ≤ a ∧ a < Base.CURTAIN + 0x10000) ∨ (Base.REFUGE ≤ a ∧ a < Base.REFUGE + 0x10000)
    ∨ (Base.DTAKE ≤ a ∧ a < Base.DTAKE + 0x10000) ∨ (Base.SYS ≤ a ∧ a < Base.SYS + 0x2000) ∨ (Base.CHORUS + 0x4000 ≤ a ∧ a < Base.CHORUS + 0x8000)
    ∨ (Base.SOLOIST + 0x1000 ≤ a ∧ a < Base.SOLOIST + 0x2000) ∨ (Base.SOLOIST + 0xF000 ≤ a ∧ a < Base.SOLOIST + 0x10000)

/-- The byte `a` belongs to the page of Bedrock that starts at `p` (R361). -/
def inPage (p a : Nat) : Prop := p ≤ a ∧ a < p + pageLen (bedBank p)

/-- The bytes that a Bedrock command changes: its page, its two pages, or its block (R361, R362, R364, R366). -/
def brkStores (c : BrkCmd) (a : Nat) : Prop :=
  (c.op = opPROGRAM ∧ inPage c.addr a) ∨ (c.op = opSAFE ∧ (inPage c.addr a ∨ inPage (c.addr + pageLen c.bank) a))
    ∨ (c.op = opERASE ∧ ((c.addr ≤ a ∧ a < c.addr + blockLen (bedBank c.addr)) ∨ ∃ i, i < 32 ∧ inPage (c.addr + i * pageLen (bedBank c.addr)) a))

end Sys2Proof.Machine
end

