-- ==== Sys2Proof/Certificates/Slice0/Obligations.lean ====
section
/-! DEFINITION. The statements for the provers. The first ones formalise rules of the manual or promises that follow from them; the others say, command by command,
where each command completes and in which state. -/

set_option maxRecDepth 8000

open Sys2Proof Sys2Proof.Machine

/-- A step with a command at the front of the queue is exec of that command on the state with the rest of the queue. Derived from spec/00_scope.md. The queue of commands is the model's own (log 2). -/
def Obligations.StepRunsFrontCommand : Prop :=
  ∀ (s : State) (c : Instr) (rest : List Instr), s.pending = c :: rest → step s = exec c { s with pending := rest }

/-- With an empty queue a step is one clock cycle of Stage Time, and nothing where Stage Time stands (DESIGN CHOICE, log 1). Derived from spec/02_stage_time_and_cues.md. DESIGN CHOICE, log 1. -/
def Obligations.IdleStepIsOneClockCycle : Prop :=
  ∀ s : State, s.pending = [] → step s = .next s.tick ∧ (s.timeRuns = false → s.tick = s)

/-- The invariant of the device holds at reset. Derived from spec/00_scope.md. -/
def Obligations.InvHoldsAtReset : Prop :=
  State.reset.Inv

/-- Every step from every state that meets the invariant keeps it: canonical stores, and no buffer above its room. Derived from spec/04_wings_queues_ensembles_packers.md, spec/07_terrace_memory_and_col_units.md, spec/17_prompt_book_and_observation.md. -/
def Obligations.EveryStepKeepsInv : Prop :=
  ∀ s t : State, s.Inv → step s = .next t → t.Inv

/-- Reserved mask bits 25 to 31 void both masks of a Col decider and grant nothing in a Wings profile or Chorus USERS. Formalises R33. -/
def Obligations.VoidedMasksGrantNothing : Prop :=
  (∀ (d : Decider) (m i : Nat) (k : AccKind), 25 ≤ i → i ≤ 31 → d.rmask.getLsbD i = true ∨ d.wmask.getLsbD i = true → d.grants m k = false)
  ∧ (∀ (s : State) (m a n len : Nat) (o i : Nat) (k : AccKind), targetOf m a = .terrace n o → 25 ≤ i → i ≤ 31 →
      (trunkDecider s a).rmask.getLsbD i = true ∨ (trunkDecider s a).wmask.getLsbD i = true →
      ∃ v, colCheck s m a len k = some v ∧ v.region = (trunkDecider s a).region)
  ∧ (∀ (s : State) (m a b len : Nat) (o i : Nat) (k : AccKind), targetOf m a = .bedrock b o → 25 ≤ i → i ≤ 31 →
      (bedDecider s a).rmask.getLsbD i = true ∨ (bedDecider s a).wmask.getLsbD i = true →
      ∃ v, colCheck s m a len k = some v ∧ v.region = (bedDecider s a).region)
  ∧ (∀ (s : State) (m a u len : Nat) (i : Nat) (k : AccKind), 0x30000 ≤ a → leafUnit a = some u → 25 ≤ i → i ≤ 31 →
      (leafDecider s u a).rmask.getLsbD i = true ∨ (leafDecider s u a).wmask.getLsbD i = true →
      ∃ v, colCheck s m a len k = some v ∧ v.region = (leafDecider s u a).region)
  ∧ (∀ (s : State) (m : Nat) (r : QRec), s.mayProduce m r = (decide (m < 25) && (s.reg (A.WINGS_PROFILE_PM r.profile)).getLsbD m)
      ∧ s.mayConsume m r = (decide (m < 25) && (s.reg (A.WINGS_PROFILE_CM r.profile)).getLsbD m))
  ∧ (∀ (s : State) (j : ChJob) (u : Nat), opUse j.op = some u → s.slotAllows j =
      ((s.keySlot j.slot).loaded && bit (s.keySlot j.slot).use u && decide (j.req < 25) && bit (s.keySlot j.slot).users j.req))

/-- The violation FIFO: 32 records, merging of core trunk stores, address or count, loss and OVF when full, and the pop. Formalises R226. -/
def Obligations.ViolationFifo : Prop :=
  (∀ (s : State) (v : Viol), s.viol.length < 32 → (v.av = true ∨ ∀ w, s.viol.getLast? = some w → w.av = true ∨ w.master ≠ v.master) →
    s.pushViol v = { s with viol := s.viol ++ [if v.av then v else { v with addr := 1 }] })
  ∧ (∀ (s : State) (v w : Viol) (l : List Viol), v.av = false → w.av = false → w.master = v.master → s.viol = l ++ [w] →
    s.pushViol v = { s with viol := l ++ [{ w with addr := BitVec.ofNat 32 (min (w.addr.toNat + 1) 0xFFFF) }] })
  ∧ (∀ (s : State) (v : Viol), s.viol.length = 32 → (v.av = true ∨ ∀ w, s.viol.getLast? = some w → w.av = true ∨ w.master ≠ v.master) →
    s.pushViol v = State.irq { s with violOvf := true } 189)
  ∧ (∀ (s : State) (m n o len : Nat) (a : Nat) (v : Viol) (k : AccKind), targetOf m a = .terrace n o → colCheck s m a len k = some v →
    v.master = m ∧ v.addr = BitVec.ofNat 32 a ∧ (v.av = false ↔ k = .write ∧ m ≤ 8))
  ∧ (∀ (s : State) (m len : Nat) (a : Nat) (v : Viol) (k : AccKind), (∀ n o, targetOf m a ≠ .terrace n o) → colCheck s m a len k = some v →
    v.master = m ∧ v.addr = BitVec.ofNat 32 a ∧ v.av = true)
  ∧ (∀ (s : State) (m : Nat) (v : Viol) (rest : List Viol), s.Quiet → s.mayRead m A.COL_VIOL_POP = true → s.viol = v :: rest →
    exec (.colViolPop m) s = .next { s with viol := rest, violOvf := false, violAddr := put (fun _ => 0#32) s.violAddr m v.addr,
                                            rdata := BitVec.ofNat 64 (v.word s.violOvf).toNat })

/-- Writes by masters other than 8 to the protected register pages are refused whatever the masks say, fire 191 and book a severity 6 record. Formalises R223. -/
def Obligations.HardRefusals : Prop :=
  (∀ (s : State) (m a : Nat) (w : Word), s.live? = true → m ≠ 8 → hardProtected a → ∃ v : Viol,
    v.hard = true ∧ v.unit = 0 ∧ v.master = m ∧ v.av = true ∧ v.addr = BitVec.ofNat 32 a ∧ v.kind = 1 ∧
    exec (.registerWrite m a w) s = .next (if m ≤ 8 then (s.violate v).lateError m true kindCol 4 a else s.violate v).settle)
  ∧ (∀ (s : State) (v : Viol), v.hard = true → (s.violate v).latched 191 = true ∧
      (∀ a, hardProtected a → (s.violate v).reg a = s.reg a) ∧
      (s.book.inFifo.length < 63 → ∃ r, (s.violate v).book.inFifo.getLast? = some r ∧ r.code = 0x6003 ∧ r.sev = 6 ∧ r.src = v.master))

/-- An enqueue to a full queue is refused and counted in FULLCNT, and the producer receives no error. Formalises R124. -/
def Obligations.FullQueueRefusesEnqueue : Prop :=
  (∀ (s : State) (m q : Nat) (d : DWord), q < 262144 → s.Quiet → s.admits m (0x34000000 + 8 * q) 8 .write = true → (s.queue q).v = true →
    s.mayProduce m (s.queue q) = true → (s.queue q).esize = 0 → (s.queue q).fill = (s.queue q).ringLen →
    exec (.enqueueStore m q d) s = .next (s.setQueue q { s.queue q with fullcnt := min ((s.queue q).fullcnt + 1) 0xFFFF }))
  ∧ (∀ (s : State) (c : Copy) (rest : List Copy), s.wing.copies = c :: rest → (s.queue c.queue).v = true → (s.queue c.queue).fill = (s.queue c.queue).ringLen →
    exec .copyEnqueueDone s = .next (State.setQueue { s with wing.copies := rest } c.queue
      { s.queue c.queue with fullcnt := min ((s.queue c.queue).fullcnt + 1) 0xFFFF }))
  ∧ (∀ (s : State) (w q : Nat) (bs : List Byte), (s.queue q).v = true → (s.queue q).fill = (s.queue q).ringLen →
    s.place w q bs = (false, s.setQueue q { s.queue q with fullcnt := min ((s.queue q).fullcnt + 1) 0xFFFF }))

/-- An enqueue store places one 8-byte entry at slot TAIL, moves TAIL by one and changes no other queue and no other byte. Derived from spec/04_wings_queues_ensembles_packers.md. -/
def Obligations.EnqueueStoresOneEntry : Prop :=
  ∀ (s t u : State) (m q : Nat) (d : DWord), q < 262144 → s.Quiet → s.admits m (0x34000000 + 8 * q) 8 .write = true → (s.queue q).v = true →
    s.mayProduce m (s.queue q) = true → (s.queue q).esize = 0 → (s.queue q).fill ≠ (s.queue q).ringLen →
    s.dmaWrite m ((s.queue q).slot (s.queue q).tail) (leBytes 8 d.toNat) = (none, u) → exec (.enqueueStore m q d) s = .next t →
    (∀ a b : Nat, a = physAddr m ((s.queue q).slot (s.queue q).tail) → ¬(a ≤ b ∧ b < a + 8) → t.mb b = s.mb b)
    ∧ (t.queue q).tail = ((s.queue q).tail + 1) % 65536 ∧ (t.queue q).head = (s.queue q).head
    ∧ (∀ r, r ≠ q → t.queue r = s.queue r)
    ∧ (∀ a i : Nat, a = physAddr m ((s.queue q).slot (s.queue q).tail) → t.terr.blocked = s.terr.blocked → i < 8 → t.mb (a + i) = (leBytes 8 d.toNat).getD i 0)

/-- g0 reads as 0, and a core reset sets g1 to g63 and both sets of g48 to g63 to 0. Formalises R153. -/
def Obligations.ZeroRegisterAndCoreReset : Prop :=
  (∀ c : CoreSt, c.get 0 = 0)
  ∧ (∀ (s t : State) (m n r : Nat) (pc xstat : Word), n < 8 → s.Quiet → s.mayWrite m (A.IRQ_CORE_CTRL n) = true → s.mode ≠ .curtain →
      pc.getLsbD 31 = false → exec (.coreStart m n pc) s = .next t →
      (t.core n).xstat = 0 ∧ CoreSt.get { t.core n with xstat := xstat } r = 0)
  ∧ (∀ (n r : Nat) (xstat : Word), CoreSt.get { State.reset.core n with xstat := xstat } r = 0)

/-- When a core takes an interrupt, which source it takes, and that entry does not clear the latch. Formalises R187. -/
def Obligations.InterruptTakenAtBoundary : Prop :=
  (∀ (s : State) (n : Nat), s.live? = true → s.coreHeld n = false → (s.core n).shield = false →
    (s.core n).exl = false → (s.core n).ie = true → (∃ l, l < 32 ∧ (s.ipend n).getLsbD l = true ∧ (s.core n).ienable.getLsbD l = true) →
    ∃ l k xc, l < 32 ∧ (s.core n).ienable.getLsbD l = true ∧ s.lineHas n l k = true ∧ k < 256
      ∧ (∀ j, j < l → ((s.ipend n).getLsbD j && (s.core n).ienable.getLsbD j) = false) ∧ (∀ j, j < k → s.lineHas n l j = false)
      ∧ getBits xc 23 16 = k ∧ xc.getLsbD 31 = true ∧ getBits xc 5 0 = cINTERRUPT
      ∧ exec (.interruptEntry n) s = .next (s.setCore n ((s.core n).enter cINTERRUPT xc (s.core n).xaddr)))
  ∧ (∀ (s : State) (n : Nat), (s.core n).exl = true ∨ (s.core n).ie = false ∨ (∀ l, l < 32 → ((s.ipend n).getLsbD l && (s.core n).ienable.getLsbD l) = false) →
    exec (.interruptEntry n) s = .next s)
  ∧ (∀ (s t : State) (n src : Nat), exec (.interruptEntry n) s = .next t → t.latched src = s.latched src)

/-- Exception entry saves and switches what its steps say, and rfe right after restores it (rfe drops the low address bits: log 41). Derived from spec/06_ridge_exceptions_and_conventions.md. DESIGN CHOICE for the low two bits, log 41. -/
def Obligations.ExceptionEntryAndReturn : Prop :=
  (∀ (c : CoreSt) (cause : Nat) (xc ad : Word),
    (c.enter cause xc ad).pc = c.xvec + BitVec.ofNat 32 (cause * 0x40) ∧ (c.enter cause xc ad).xpc = c.pc ∧ (c.enter cause xc ad).xtgt = c.delay.getD 0
    ∧ (c.enter cause xc ad).xcause = xc ∧ (c.enter cause xc ad).xaddr = ad
    ∧ (c.enter cause xc ad).xstat.getLsbD 0 = false ∧ (c.enter cause xc ad).xstat.getLsbD 1 = c.xstat.getLsbD 0
    ∧ (c.enter cause xc ad).xstat.getLsbD 2 = true ∧ (c.enter cause xc ad).xstat.getLsbD 3 = !c.xstat.getLsbD 3
    ∧ (c.enter cause xc ad).xstat.getLsbD 4 = c.xstat.getLsbD 3 ∧ (c.enter cause xc ad).xstat.getLsbD 5 = c.delay.isSome
    ∧ (c.enter cause xc ad).g = c.g)
  ∧ (∀ (s : State) (n cause : Nat) (c k : CoreSt) (xc ad lnk nxt : Word) (y : Syl), y.op = 7 →
    ((s.finishB n (c.enter cause xc ad) k y lnk nxt).core n).pc = c.pc &&& 0xFFFFFFFC#32
    ∧ ((s.finishB n (c.enter cause xc ad) k y lnk nxt).core n).delay = c.delay.map (· &&& 0xFFFFFFFC#32)
    ∧ ((s.finishB n (c.enter cause xc ad) k y lnk nxt).core n).xstat.getLsbD 0 = c.xstat.getLsbD 0
    ∧ ((s.finishB n (c.enter cause xc ad) k y lnk nxt).core n).xstat.getLsbD 3 = c.xstat.getLsbD 3
    ∧ ((s.finishB n (c.enter cause xc ad) k y lnk nxt).core n).xstat.getLsbD 2 = false
    ∧ ((s.finishB n (c.enter cause xc ad) k y lnk nxt).core n).xstat.getLsbD 5 = false
    ∧ ((s.finishB n (c.enter cause xc ad) k y lnk nxt).core n).g = k.g)

/-- The outcome of a Double-take path, the verdict of two paths, and that STALE and CHECK_FAIL commit nothing and book severity 5. Derived from spec/13_safety_curtain_and_refuge.md. -/
def Obligations.DoubleTakeOutcomes : Prop :=
  (∀ (s : State) (g : Nat) (l : List (Nat × Word)) (q : State), q = { s with live := l } →
    (q.lvFlag (F.DTAKE_GROUP_A_EN g) = false → s.dtPath g l = ((dtDISABLED, 0), s))
    ∧ (q.lvFlag (F.DTAKE_GROUP_A_EN g) = true → s.terr.bad.contains (q.dtBlock g) = false → s.terr.bad.contains (q.dtBlock g + 8) = false →
      ∀ bs : List Byte, bs = s.peek (q.dtBlock g) 8 ++ s.peek (q.dtBlock g + 8) 8 →
      s.dtPath g l = (if q.actOpen g then (dtSTALE, 0) else if leAt bs 8 4 ≠ s.frame % 2 ^ 32 then (dtSTALE, 0)
        else if leAt bs 4 4 ≠ 2 ^ 32 - 1 - leAt bs 0 4 then (dtCHECK_FAIL, 0) else (dtAGREE, leAt bs 0 4 &&& q.lv (F.DTAKE_MASK_MASK g)), s)))
  ∧ (∀ a : Nat × Nat, dtVerdict a a = a) ∧ (∀ a b : Nat × Nat, a ≠ b → dtVerdict a b = (dtDISAGREE, 0))
  ∧ (∀ (s : State) (g v : Nat), v = dtSTALE ∨ v = dtCHECK_FAIL → (s.dtRecord g v).dtake = s.dtake ∧ (s.dtRecord g v).alarms = s.alarms
      ∧ (s.book.inFifo.length < 64 → ∃ r, (s.dtRecord g v).book.inFifo = s.book.inFifo ++ [r] ∧ r.code = 0xB102 ∧ r.sev = 5))

/-- The replay window of a session: which SEQ is answered REPLAY, and that a SEQ once accepted is never accepted again. Derived from spec/15_command_packets.md. -/
def Obligations.ReplayWindow : Prop :=
  (∀ (x : Sess) (seq : Nat), x.high ≠ 0xFFFFFFFF →
    (x.fresh seq = false ↔ seq = 0 ∨ seq + 64 ≤ x.high ∨ seq = x.high ∨ x.seen.contains seq = true))
  ∧ (∀ (x : Sess) (seq : Nat), x.high = 0xFFFFFFFF → x.fresh seq = false)
  ∧ (∀ (x : Sess) (seq : Nat), (x.take seq).high = max x.high seq)
  ∧ (∀ (x : Sess) (seq : Nat), x.fresh seq = true → (x.take seq).fresh seq = false)
  ∧ (∀ (x : Sess) (seq k : Nat), x.fresh seq = true → x.fresh k = false → x.high ≠ 0xFFFFFFFF → (x.take seq).fresh k = false)
  ∧ (∀ (x : Sess) (seq k : Nat), x.fresh seq = true → x.fresh k = true → k ≠ seq → seq ≠ 0xFFFFFFFF → max x.high seq < k + 64 → (x.take seq).fresh k = true)

/-- A record that finds the Prompt Book input FIFO full is dropped and counted; otherwise it enters with the ST of its event. Derived from spec/17_prompt_book_and_observation.md. -/
def Obligations.InputFifoFull : Prop :=
  (∀ (s : State) (code sev src : Nat) (ws : List Nat), s.book.inFifo.length = 64 → s.post code sev src ws = s.sat F.PBOOK_DROP_A_DROPPED
    ∧ (s.post code sev src ws).rd F.PBOOK_DROP_A_DROPPED = min (s.rd F.PBOOK_DROP_A_DROPPED + 1) 65535)
  ∧ (∀ (s : State) (code sev src : Nat) (ws : List Nat), s.book.inFifo.length < 64 → s.post code sev src ws = { s with
      book.inFifo := s.book.inFifo ++ [{ st := s.st, seq := 0, code, sev, sum := false, src, rep := 0, words := (ws.take 4).map (BitVec.ofNat 32 ·) }] })

/-- Badge reader and tag never run at once: no tag answer while the reader field is on, EXT_FIELD while an external field is present. Formalises R430. -/
def Obligations.ReaderAndTagExclude : Prop :=
  (∀ (s : State) (c : Instr) (uid data : List Byte) (p n lost : Nat) (strong : Bool), s.badge.carrier = true →
    c ∈ [.reqa, .wupa, .anticollision, .select uid, .rats, .pps, .hlta, .tagDeselect, .tagRead p n, .writeMb p n data strong lost] → exec c s = .next s)
  ∧ (∀ (s t : State) (c : Instr) (m rate len : Nat), rate < 4 → len ≤ 256 → c ∈ [.fieldOn m, .fieldOff m, .activate m rate, .exchange m len, .deselect m] →
    s.Quiet → s.mayWrite m A.BADGE_RD_CTRL = true → s.badge.op = none → s.readerOk = true → s.flag F.BADGE_STAT_EXT_FIELD = true → exec c s = .next t →
    t.rd F.BADGE_RD_STAT_STATUS = rdEXT ∧ t.rd F.BADGE_RD_STAT_BUSY = 0 ∧ t.badge.op = none ∧ t.badge.carrier = s.badge.carrier ∧ t.wire = s.wire ∧ t.mem = s.mem)

/-- A write to a protected or locked card ends with its result before anything is sent to the card. Derived from spec/19_cartridge_port.md. -/
def Obligations.WriteProtectedCard : Prop :=
  (∀ (s a b c d : State) (m card blocks : Nat) (lba buf : Word), card < 4 → 1 ≤ blocks → blocks < 65536 → s.mayWrite m A.CART_LBA = true →
    a = (s.setReg A.CART_LBA lba).settle → a.mayWrite m A.CART_BUF = true → b = (a.setReg A.CART_BUF buf).settle → b.mayWrite m A.CART_XFER = true →
    c = b.setReg A.CART_XFER (setBits (BitVec.ofNat 32 (2 ^ 31 + 2 * 2 ^ 28 + card * 2 ^ 26 + blocks) &&& 0x7C00FFFF#32) 30 28 2) → c.mode ≠ .curtain → c.cart.op = none →
    d = c.wr F.CART_STAT_DONE_BLOCKS 0 → d.flag F.CART_CFG_EN = true → d.flag F.CART_STAT_PRESENT = true → d.flag (F.CART_CARD_V card) = true →
    (d.flag (F.CART_CARD_LOCKED card) = false → d.flag (F.CART_CARD_PERM_WP card) = true ∨ d.flag (F.CART_CARD_TMP_WP card) = true →
      exec (.cartWrite m card blocks lba buf) s = .next (State.settle (d.cartEnd card (c.reg A.CART_LBA).toNat ctPROTECTED 0)))
    ∧ (d.flag (F.CART_CARD_LOCKED card) = true →
      exec (.cartWrite m card blocks lba buf) s = .next (State.settle (d.cartEnd card (c.reg A.CART_LBA).toNat ctLOCKED 0))))
  ∧ (∀ (s : State) (card lba res : Nat), res = ctPROTECTED ∨ res = ctLOCKED → (s.cartEnd card lba res 0).rd F.CART_STAT_RESULT = res
      ∧ (s.cartEnd card lba res 0).cart.op = none ∧ (s.cartEnd card lba res 0).wire = s.wire ∧ (s.cartEnd card lba res 0).mem = s.mem)

/-- The duplicate-discard table: 4,096 entries keyed by source MAC and sequence number, ageing, eviction of the oldest, EVICT and source 108. Formalises R93. -/
def Obligations.DuplicateDiscard : Prop :=
  (∀ (s : State) (p : Nat) (e : DdEntry), e ∈ (s.ddExpire p).ddTable p ↔ e ∈ s.ddTable p ∧ s.now < e.made + s.rd (F.SWITCH_RED_CFG_DD_AGE p) * ticksPerMs)
  ∧ (∀ (s : State) (p smac seq : Nat) (u : State), u = s.ddExpire p → (∃ e ∈ u.ddTable p, e.smac = smac ∧ e.seq = seq) → s.duplicate p smac seq = (true, u))
  ∧ (∀ (s : State) (p smac seq : Nat) (u : State), u = s.ddExpire p → (∀ e ∈ u.ddTable p, ¬(e.smac = smac ∧ e.seq = seq)) → (u.ddTable p).length < 4096 →
      (s.duplicate p smac seq).1 = false ∧ (s.duplicate p smac seq).2.ddTable p = u.ddTable p ++ [{ smac, seq, made := s.now }]
      ∧ (s.duplicate p smac seq).2.regs = s.regs)
  ∧ (∀ (s : State) (p smac seq : Nat) (u : State) (f : Fld), u = s.ddExpire p → f = (if p = 0 then F.SWITCH_DD_EVICT_EVICT_0 else F.SWITCH_DD_EVICT_EVICT_1) →
      (∀ e ∈ u.ddTable p, ¬(e.smac = smac ∧ e.seq = seq)) → (u.ddTable p).length = 4096 →
      (s.duplicate p smac seq).1 = false ∧ (s.duplicate p smac seq).2.ddTable p = (u.ddTable p).tail ++ [{ smac, seq, made := s.now }]
      ∧ (s.duplicate p smac seq).2.rd f = min (s.rd f + 1) 65535 ∧ (s.duplicate p smac seq).2.latched 108 = true)

/-- A launch takes the lowest-numbered free ticket and records its cue, owner and deadline; with none free it goes without and source 26 fires. Derived from spec/02_stage_time_and_cues.md. -/
def Obligations.TicketLowestFree : Prop :=
  (∀ (s : State) (cue due deadline t : Nat) (owner : Option Nat), t < 1024 → s.ticket t = none → (∀ j, j < t → s.ticket j ≠ none) →
    ∃ (r : TicketRef) (u : State) (k : Ticket), s.allocTicket cue due deadline owner = (some r, u) ∧ r.num = t ∧ u.ticket t = some k ∧ k.cue = cue ∧ k.owner = owner
      ∧ k.deadline = (if deadline = 0 then none else some (due + deadline)) ∧ k.late = false ∧ (∀ j, j ≠ t → u.ticket j = s.ticket j) ∧ u.regs = s.regs ∧ u.mem = s.mem)
  ∧ (∀ (s : State) (cue due deadline : Nat) (owner : Option Nat), (∀ j, j < 1024 → s.ticket j ≠ none) →
    ∃ u, s.allocTicket cue due deadline owner = (none, u) ∧ (∀ j, u.ticket j = s.ticket j) ∧ u.latched 26 = true)

/-- A staged write reaches the staging copy alone; while a commit pends it is refused and counted, and so is a second GO. Derived from spec/01_one_frame_through_the_device.md. -/
def Obligations.StagedWrites : Prop :=
  (∀ (s : State) (base k : Nat) (d : RDesc) (w : Word), s.pendingIn base = true → s.stageWrite base d k w = s.sat (F.BLOCK_REFUSED_STAGE_WRITES base))
  ∧ (∀ (s : State) (base k : Nat) (d : RDesc) (w : Word), s.pendingIn base = false → (s.stageWrite base d k w).reg k = d.write s.lkClosed w (s.reg k)
      ∧ (∀ a, a ≠ k → (s.stageWrite base d k w).reg a = s.reg a) ∧ (s.stageWrite base d k w).live = s.live ∧ (s.stageWrite base d k w).mem = s.mem)
  ∧ (∀ (s : State) (m b w c : Nat), b < 13 → w < 4 → c < 16384 → s.Quiet → s.mayWrite m (A.BLOCK_COMMIT (pairedBase b)) = true →
      s.pendingIn (pairedBase b) = true → exec (.commitGo m b w c) s = .next (s.refuseGo (pairedBase b)))

/-- For every register and field: a reserved encoding, a read-only or a closed LK field keeps its value, a legal value is stored, W1C clears. Derived from spec/00_scope.md. -/
def Obligations.ReservedEncodingsKeepField : Prop :=
  ∀ (s : State) (a : Nat) (d : RDesc) (f : FDesc) (w : Word), descOf a = some d → f ∈ d.flds →
    ((f.acc = .rw ∧ f.legalVal (getBits w f.hi f.lo) = false) ∨ f.acc = .ro ∨ (f.lk = true ∧ s.lkClosed = true) →
      getBits ((s.plainWrite d a w).reg a) f.hi f.lo = getBits (s.reg a) f.hi f.lo)
    ∧ (f.acc = .rw → f.legalVal (getBits w f.hi f.lo) = true → (f.lk = false ∨ s.lkClosed = false) →
      getBits ((s.plainWrite d a w).reg a) f.hi f.lo = getBits w f.hi f.lo)
    ∧ (f.acc = .w1c → (f.lk = false ∨ s.lkClosed = false) → getBits ((s.plainWrite d a w).reg a) f.hi f.lo = getBits (s.reg a &&& ~~~w) f.hi f.lo)

/-- Frame of ten reads with side effects: each changes the read word, its own latch or queue, and nothing else. Derived from spec/02_stage_time_and_cues.md, spec/07_terrace_memory_and_col_units.md, spec/14_bedrock_flash.md, spec/06_ridge_exceptions_and_conventions.md, spec/04_wings_queues_ensembles_packers.md, spec/12_massif_scree_and_keys.md, spec/18_badge_port.md. -/
def Obligations.RegisterReadsFrame : Prop :=
  (∀ (s t : State) (m : Nat), s.Quiet → s.mayRead m A.STIME_NOW_LO = true → exec (.stimeNowRead m) s = .next t →
    t = { s with rdata := t.rdata, stime := { s.stime with nowHi := t.stime.nowHi } })
  ∧ (∀ (s t : State) (m : Nat), s.Quiet → s.mayRead m A.STIME_FRAME_LO = true → exec (.stimeFrameRead m) s = .next t →
    t = { s with rdata := t.rdata, stime := { s.stime with frameHi := t.stime.frameHi } })
  ∧ (∀ (s t : State) (m : Nat), s.Quiet → s.mayRead m A.STIME_COARSE_LO = true → exec (.stimeCoarseRead m) s = .next t →
    t = { s with rdata := t.rdata, stime := { s.stime with coarseHi := t.stime.coarseHi } })
  ∧ (∀ (s t : State) (m : Nat), s.Quiet → s.mayRead m A.COL_VIOL_POP = true → exec (.colViolPop m) s = .next t →
    t = { s with rdata := t.rdata, viol := s.viol.tail, violOvf := t.violOvf, violAddr := t.violAddr })
  ∧ (∀ (s t : State) (m : Nat), s.Quiet → s.mayRead m A.BRK_PATROL_POP = true → exec (.patrolPop m) s = .next t →
    t = { s with rdata := t.rdata, brk := { s.brk with patrol := s.brk.patrol.tail, patrolOvf := t.brk.patrolOvf } })
  ∧ (∀ (s t : State) (m n : Nat), n < 9 → s.Quiet → s.mayRead m (A.IRQ_LATE_POP n) = true → exec (.lateErrorPop m n) s = .next t →
    t = { s with rdata := t.rdata, cores := t.cores } ∧ (∀ k, k ≠ n → t.core k = s.core k) ∧ (t.core n).late = (s.core n).late.tail
      ∧ (t.core n).g = (s.core n).g ∧ (t.core n).pc = (s.core n).pc)
  ∧ (∀ (s t : State) (m q : Nat), q < 262144 → s.Quiet → s.admits m (0x34000000 + 8 * q) 8 .read = true → exec (.enqueueWindowLoad m q) s = .next t →
    t = { s with rdata := t.rdata })
  ∧ (∀ (s t : State) (m q : Nat), q < 262144 → s.Quiet → s.admits m (0x34400000 + 8 * q) 8 .read = true → (s.queue q).v = true →
    s.mayConsume m (s.queue q) = true → exec (.dequeueLoad m q) s = .next t → t = { s with rdata := t.rdata })
  ∧ (∀ (s t : State) (m : Nat), s.Quiet → s.mayRead m A.SCREE_RAND = true → s.entropyOk = true → exec (.screeRandRead m) s = .next t →
    t = { s with rdata := t.rdata, fresh := t.fresh, scree := t.scree }
    ∧ (s.scree.requests < 2 ^ s.rd F.SCREE_DRBG_RESEED_REQ →
      t.fresh = s.fresh ∧ t.scree = { s.scree with inst := t.scree.inst, requests := s.scree.requests + 1 }))
  ∧ (∀ (s t : State) (m : Nat), s.Quiet → s.mayRead m A.BADGE_STAT = true → exec (.badgeStatRead m) s = .next t →
    t = { s with rdata := t.rdata, regs := t.regs } ∧ ∀ a, a ≠ A.BADGE_STAT → t.reg a = s.reg a)

/-- Frame of eight counter clears: the counter register reads 0 and nothing else changes. Derived from spec/03_station_ports.md, spec/09_understudy.md, spec/10_troupe.md, spec/11_chorus_and_soloists.md, spec/12_massif_scree_and_keys.md, spec/13_safety_curtain_and_refuge.md, spec/14_bedrock_flash.md, spec/15_command_packets.md. -/
def Obligations.CounterClearsFrame : Prop :=
  ∀ (s t : State) (c : Instr) (m k a : Nat) (w : Word), k < 3 →
    (c, a) ∈ [(Instr.soloistCntClear m k w, A.SOLOIST_CNT k), (.understudyCntClear m k w, A.UNDERSTUDY_CNT_A + 4 * k), (.troupeCntClear m w, A.TROUPE_CNT),
      (.chorusCntClear m w, A.CHORUS_CNT), (.massifCntClear m w, A.MASSIF_CNT), (.dtakeCntClear m w, A.DTAKE_CNT_A), (.brkEccClear m w, A.BRK_ECC),
      (.hostCntClear m w, A.HOST_CNT)] →
    s.Quiet → s.mayWrite m a = true → exec c s = .next t →
    t.reg a = 0 ∧ (∀ b, b ≠ a → t.reg b = s.reg b) ∧ t = { s with regs := t.regs }

/-- A Bedrock command changes no byte outside its page, its pair or its block, whether it succeeds or tears. Derived from spec/14_bedrock_flash.md. -/
def Obligations.BedrockCommandFrame : Prop :=
  ∀ (s t : State) (b : Nat) (ok : Bool) (c : BrkCmd), s.brkRunning b = some c → exec (.bedrockCmdDone b ok) s = .next t →
    ∀ a, ¬brkStores c a → t.mb a = s.mb a

/-- Completion of the register, commit, mode-request, lifecycle and Stage Time commands: a register write stores through the register map, a commit pends, aborts or applies its block, a mode request and a lifecycle advance are taken up, a Stage Time read returns a tick or frame word and latches the high word, the servo events and the frame boundary run their rule, and exec answers exactly that state. Derived from spec/00_scope.md, spec/01_one_frame_through_the_device.md, spec/02_stage_time_and_cues.md.
The clauses name shared operations of the model; where those rest on choices of the model, see log 3, 21, 22, 24, 26, 125. -/
def Obligations.FrameAndTimeCommands : Prop :=
  -- REGISTER_WRITE (R3)
    (∀ (s t : State) (m a : Nat) (w : Word), s.mayWrite m a = true → 0x40000000 ≤ a → a < 0x401E0000 → a % 4 = 0 →
      ¬(packerIn 0 ≤ a ∧ a < packerIn 48) → s.regWrite m a w = (none, t) → exec (.registerWrite m a w) s = .next t.settle)
  ∧ -- COMMIT_GO (R28)
    (∀ (s : State) (m b when_ c : Nat), b < 13 → when_ < 3 → c < 16384 → s.mayWrite m (A.BLOCK_COMMIT (pairedBase b)) = true →
      s.pendingIn (pairedBase b) = false → s.goOk (pairedBase b) when_ c = true →
      exec (.commitGo m b when_ c) s = .next (s.goPend (pairedBase b) when_ c).settle)
  ∧ -- COMMIT_ABORT (R28)
    (∀ (s : State) (m b : Nat), b < 13 → s.mayWrite m (A.BLOCK_COMMIT (pairedBase b)) = true →
      exec (.commitAbort m b) s = .next (s.blockAbort (pairedBase b)).settle)
  ∧ -- COMMIT_CLRCNT (R28)
    (∀ (s : State) (m b : Nat), b < 13 → s.mayWrite m (A.BLOCK_COMMIT (pairedBase b)) = true →
      exec (.commitClrcnt m b) s = .next (s.setReg (A.BLOCK_REFUSED (pairedBase b)) 0).settle)
  ∧ -- COMMIT_APPLY (R26)
    (∀ (s : State) (b : Nat), b < 13 → s.pendingIn (pairedBase b) = true → (s.pendWhen (pairedBase b)).1 = 0 →
      s.opUnderWay (pairedBase b) = false → s.dueRefused (pairedBase b) = false →
      exec (.commitApply b) s = .next ((((s.unpend (pairedBase b)).blockApply (pairedBase b)).wrap (F.BLOCK_COMMIT_STATUS_APPLIED (pairedBase b))).pairBreak))
  ∧ -- MODE_REQ_GO (R17)
    (∀ (s : State) (m t : Nat), t < 6 → s.mayWrite m A.SYS_MODE_REQ = true → s.requestOk (Mode.ofCode t) = true →
      exec (.modeReqGo m t) s = .next (State.settle { s.wr F.SYS_MODE_REQ_REFUSED 0 with modeReq := some (Mode.ofCode t) }))
  ∧ -- LC_ADV_WRITE (R21)
    (∀ (s : State) (m : Nat) (w : Word), s.mayWrite m A.SYS_LC_ADV = true → getBits w 31 16 = 0x4C43 → s.lcOk (getBits w 2 0) = true →
      s.flag F.SYS_LC_STAT_BUSY = false →
      exec (.lcAdvWrite m w) s = .next (State.arm { s.wr F.SYS_LC_STAT_BUSY 1 with lcTarget := getBits w 2 0 } .lcProgram (2 * ticksPerMs)).settle)
  ∧ -- LC_PROGRAM_DONE (R21)
    (∀ s : State, s.armed .lcProgram = true → exec .lcProgramDone s = .next (s.elapsed .lcProgram).lcDone)
  ∧ -- STIME_NOW_READ (R36)
    (∀ (s : State) (m : Nat), s.mayRead m A.STIME_NOW_LO = true →
      exec (.stimeNowRead m) s = .next (State.settle { s with
        stime.nowHi := latchHi s.stime.nowHi m (BitVec.ofNat 32 (s.now / 2 ^ 32)), rdata := BitVec.ofNat 64 (BitVec.ofNat 32 s.now).toNat }))
  ∧ -- STIME_FRAME_READ (R49)
    (∀ (s : State) (m : Nat), s.mayRead m A.STIME_FRAME_LO = true →
      exec (.stimeFrameRead m) s = .next (State.settle { s with
        stime.frameHi := latchHi s.stime.frameHi m s.frameHi, rdata := BitVec.ofNat 64 (BitVec.ofNat 32 s.frame).toNat }))
  ∧ -- STIME_COARSE_READ (R45)
    (∀ (s : State) (m : Nat), s.mayRead m A.STIME_COARSE_LO = true →
      exec (.stimeCoarseRead m) s = .next (State.settle { s with
        stime.coarseHi := latchHi s.stime.coarseHi m (s.reg A.STIME_COARSE_HI), rdata := BitVec.ofNat 64 (s.reg A.STIME_COARSE_LO).toNat }))
  ∧ -- SERVO_LOSS_TIMEOUT (R41)
    (∀ s : State, s.armed .servoLoss = true → (s.elapsed .servoLoss).servo = servoLOCKED ∨ (s.elapsed .servoLoss).servo = servoACQUIRE →
      exec .servoLossTimeout s = .next { (s.elapsed .servoLoss).servoGo servoHOLDOVER with stime.ptpSeen := 0 })
  ∧ -- HOLD_LIMIT_EXPIRY (R43)
    (∀ s : State, s.armed .holdLimit = true → (s.elapsed .holdLimit).unsynced = false → (s.elapsed .holdLimit).unsyncedRule = true →
      exec .holdLimitExpiry s = .next (((s.elapsed .holdLimit).wr F.SYS_STATE_UNSYNCED 1).irq 28))
  ∧ -- SERVO_SRC_SWITCH (R44)
    (∀ s : State, s.rd F.STIME_CTRL_SRC = 3 →
      (s.stime.switchDue = true → s.servo = servoHOLDOVER → ∀ u : State, u = s.reachST s.nextMark →
        exec .servoSrcSwitch s = .next (State.post { u.wr F.STIME_STATE_SRC_ACTIVE srcIRIG with stime.ptpSeen := 0, stime.switchDue := false } 0x2004 4 17 [srcIRIG])) ∧
      (s.stime.switchDue = false → s.rd F.STIME_STATE_SRC_ACTIVE = srcIRIG → s.ptpBack = true →
        exec .servoSrcSwitch s = .next ((s.wr F.STIME_STATE_SRC_ACTIVE srcPTP).post 0x2004 4 17 [srcPTP])))
  ∧ -- STEP_GO (R40)
    (∀ (s : State) (m : Nat), s.mayWrite m A.STIME_CTRL = true → s.mode ≠ .lead → s.mode ≠ .understudy → s.rd F.STIME_CTRL_SRC ≠ 0 →
      exec (.stepGo m) s = .next (((s.wr F.STIME_CTRL_FREE_OK (s.rd F.STIME_CTRL_FREE_OK)).wr F.STIME_CTRL_SRC (s.rd F.STIME_CTRL_SRC)).wr
        F.STIME_STATE_STEP_PENDING 1).settle)
  ∧ -- FRAME_BOUNDARY (R50)
    (∀ (s : State) (agree : Bool), s.timeRuns = true → s.us.ho = 0 → s.us.dualDue = false → s.modeReq = none → s.troupe.interval = none → 0 ≤ s.stime.gridN + 1 →
      s.nothingPends = true → s.flag F.STIME_STATE_STEP_PENDING = false →
      exec (.frameBoundary agree) s = .next
        ((((((s.carryOver s.nextBoundary.toNat).reachST s.nextBoundary.toNat).keyBoundary (s.stime.gridN + 1).toNat).newFrame (s.stime.gridN + 1)).afterBoundary).settle))

/-- Completion of the twelve cue dispatch commands, one per action: a due occurrence is taken in its place, its ticket is allocated where it asks for one, it is counted and traced, and its action is launched, and exec answers exactly that state. Derived from spec/02_stage_time_and_cues.md.
The clauses name shared operations of the model; where those rest on choices of the model, see log 3, 28, 29, 30, 31, 125. -/
def Obligations.CueDispatchCommands : Prop :=
  -- MARK (R56)
    (∀ (s : State) (o : Occ), s.dueNow o = true → o.ent.action = 0 →
      exec (.mark o.idx) s = .next ((s.atLaunch o).2.complete (s.atLaunch o).1 false).settle)
  ∧ -- CORE_IRQ (R56)
    (∀ (s : State) (o : Occ), s.dueNow o = true → o.ent.action = 1 →
      exec (.coreIrq o.idx) s = .next ((s.atLaunch o).2.launchIrq o (s.atLaunch o).1).settle)
  ∧ -- GATHER (R56)
    (∀ (s : State) (o : Occ), s.dueNow o = true → o.ent.action = 2 →
      exec (.gather o.idx) s = .next ((s.atLaunch o).2.gatherLaunch o.ent.tindex (s.atLaunch o).1).settle)
  ∧ -- PIN_SET (R60)
    (∀ (s : State) (o : Occ), s.dueNow o = true → o.ent.action = 3 →
      exec (.pinSet o.idx) s = .next ((s.atLaunch o).2.launchPin o (max o.time (s.tickOf o).now) (s.atLaunch o).1).settle)
  ∧ -- COMMIT (R56)
    (∀ (s : State) (o : Occ), s.dueNow o = true → o.ent.action = 4 →
      exec (.commit o.idx) s = .next ((s.atLaunch o).2.dtLaunch o.ent.tindex o.time (s.atLaunch o).1).settle)
  ∧ -- EGRESS_RELEASE (R102)
    (∀ (s : State) (o : Occ), s.dueNow o = true → o.ent.action = 5 →
      exec (.egressRelease o.idx) s = .next ((s.atLaunch o).2.relIssue o.ent.tindex o.ent.arg (max o.time (s.tickOf o).now) (s.atLaunch o).1).settle)
  ∧ -- MIRROR (R213)
    (∀ (s : State) (o : Occ), s.dueNow o = true → o.ent.action = 6 →
      exec (.mirror o.idx) s = .next ((s.atLaunch o).2.mirrorCue (s.atLaunch o).1).settle)
  ∧ -- QUEUE_KICK (R128)
    (∀ (s : State) (o : Occ), s.dueNow o = true → o.ent.action = 7 → 0 < ((s.atLaunch o).2.queue o.ent.tindex).fill →
      exec (.queueKick o.idx) s = .next (((s.atLaunch o).2.notifyQueue o.ent.tindex).complete (s.atLaunch o).1 false).settle)
  ∧ -- PACKER_SWAP (R141)
    (∀ (s : State) (o : Occ), s.dueNow o = true → o.ent.action = 8 →
      exec (.packerSwap o.idx) s = .next ((s.atLaunch o).2.packerCue o.ent.tindex (s.atLaunch o).1).settle)
  ∧ -- DOORBELL (R56)
    (∀ (s : State) (o : Occ), s.dueNow o = true → o.ent.action = 9 →
      exec (.doorbell o.idx) s = .next (((s.atLaunch o).2.irq (216 + o.ent.tindex)).complete (s.atLaunch o).1 false).settle)
  ∧ -- STEWARD_JOB (R392)
    (∀ (s : State) (o : Occ), s.dueNow o = true → o.ent.action = 10 →
      exec (.stewardJob o.idx) s = .next ((s.atLaunch o).2.launchJob o (s.atLaunch o).1).settle)
  ∧ -- PBOOK_MARK (R56)
    (∀ (s : State) (o : Occ), s.dueNow o = true → o.ent.action = 11 →
      exec (.pbookMark o.idx) s = .next (((s.atLaunch o).2.launchMark o).complete (s.atLaunch o).1 false).settle)

/-- Completion of the cue table, ticket, pre-issue and pulse commands: pushes enter the change list, a table load moves its words, tickets end by DONE, deadline or reclaim, RUN is set and cleared, pre-issued pin cues take effect, and exec answers exactly that state. Derived from spec/02_stage_time_and_cues.md, spec/08_cue_pins.md.
The clauses name shared operations of the model; where those rest on choices of the model, see log 3, 28, 29, 125. -/
def Obligations.CueTableCommands : Prop :=
  -- PRE_ISSUE_RETRY (R60)
    (∀ (s u w : State) (i : Nat) (o : Occ), s.flag F.CUE_CTRL_RUN = true → (s.cue.waiting.find? fun x => x.idx == i) = some o →
      s.preRoom o.ent = true → u = (s.openTick (s.placeAt s.now)).commitCues [i] → u.cue.waiting.contains o = true → u.preRoom o.ent = true →
      w = State.occDone { u with cue.waiting := u.cue.waiting.erase o } o → w.now ≤ o.time → w.isLate o = false →
      exec (.preIssueRetry i) s = .next (w.launchOcc o (max o.time w.now)))
  ∧ -- PIN_CUE_EFFECT (R232)
    (∀ (s : State) (p : Nat) (c : PinCue), (s.pin.pre.filter fun x => x.pin == p) = [c] → s.pinFunc p = 2 →
      ∃ u : State, exec (.pinCueEffect p) s = .next ((u.pinSet p c.op c.width).complete c.ticket false) ∧ u.pin.pre = s.pin.pre.erase c ∧ u.mem = s.mem ∧ u.cue = s.cue)
  ∧ -- PULSE_END (R232)
    (∀ (s u : State) (p : Nat), s.armed (.pulse p) = true → u = s.elapsed (.pulse p) → u.ownCues = true → u.pinFunc p = 2 →
      exec (.pulseEnd p) s = .next (u.command p false))
  ∧ -- TICKET_DEADLINE (R64)
    (∀ (s : State) (t : Nat) (k : Ticket), s.armed (.ticket t) = true → (s.elapsed (.ticket t)).ticket t = some k → k.late = false →
      exec (.ticketDeadline t) s = .next
        ((((((((s.elapsed (.ticket t)).setTicket t (some { k with late := true, since := (s.elapsed (.ticket t)).now, age := 0 })).sat
          F.CUE_CNT_B_DEADLINE_MISS).irq 24).post 0x2002 4 17 [t, k.cue]).ticketStatus t k.cue tkLATE)).observe 2 0 1))
  ∧ -- TICKET_RECLAIM (R65)
    (∀ (s : State) (t : Nat) (k : Ticket), s.ticket t = some k → s.reclaimable k = true →
      exec (.ticketReclaim t) s = .next (((s.setTicket t none).disarm (.ticket t)).ticketStatus t k.cue tkRECLAIMED))
  ∧ -- CUE_TICKET_DONE (R66)
    (∀ (s : State) (m t st : Nat) (k : Ticket), s.mayWrite m A.CUE_TICKET_DONE = true → t < 1024 → st < 2 → s.ticket t = some k →
      m = 8 ∨ k.owner = some m → exec (.cueTicketDone m t st) s = .next (s.completeNum t k (st == 1)).settle)
  ∧ -- CUE_EDIT_PUSH (R69)
    (∀ (s : State) (m i : Nat), s.mayWrite m A.CUE_EDIT_PUSH = true → i < 16384 →
      exec (.cueEditPush m i) s = .next (s.cuePush i ((List.range 4).map fun k => s.reg (A.CUE_EDIT_W k))).settle)
  ∧ -- CUE_EDIT_DELETE (R68)
    (∀ (s : State) (m i : Nat), s.mayWrite m A.CUE_EDIT_PUSH = true → i < 16384 →
      exec (.cueEditDelete m i) s = .next (s.cuePush i (List.replicate 4 0#32)).settle)
  ∧ -- CUE_LOAD_DATA_WRITE (R70)
    (∀ (s : State) (m : Nat) (w : Word), s.mayWrite m A.CUE_LOAD_DATA = true → s.flag F.CUE_CTRL_RUN = false →
      exec (.cueLoadDataWrite m w) s = .next ((s.dropWaiting (s.rd F.CUE_LOAD_IDX_INDEX)).setCueWord (s.rd F.CUE_LOAD_IDX_INDEX) (s.rd F.CUE_LOAD_IDX_WORD) w).loadAdvance.settle)
  ∧ -- CUE_LOAD_DATA_READ (R70)
    (∀ (s : State) (m : Nat), s.mayRead m A.CUE_LOAD_DATA = true →
      exec (.cueLoadDataRead m) s = .next (State.settle { s.loadAdvance with
        rdata := BitVec.ofNat 64 (s.cueWord (s.rd F.CUE_LOAD_IDX_INDEX) (s.rd F.CUE_LOAD_IDX_WORD)).toNat }))
  ∧ -- CUE_RUN_SET (R61)
    (∀ (s : State) (m : Nat), s.mayWrite m A.CUE_CTRL = true → s.mode ≠ .curtain → s.flag F.CUE_CTRL_RUN = false →
      exec (.cueRunSet m) s = .next (State.settle (State.wr { s with
        cue.floor := if s.stime.valid then s.nextBoundary.toNat else s.cue.floor, cue.runSince := s.now, cue.carry := [],
        cue.waiting := s.cue.waiting.filter fun o => !o.ent.standing } F.CUE_CTRL_RUN 1)))
  ∧ -- CUE_RUN_CLEAR (R61)
    (∀ (s : State) (m : Nat), s.mayWrite m A.CUE_CTRL = true →
      exec (.cueRunClear m) s = .next (s.wr F.CUE_CTRL_RUN 0).settle)
  ∧ -- CUE_CLR_CNT (R70)
    (∀ (s : State) (m : Nat), s.mayWrite m A.CUE_CTRL = true → s.flag F.CUE_CTRL_RUN = false →
      exec (.cueClrCnt m) s = .next ((((s.setReg A.CUE_CNT_A 0).setReg A.CUE_CNT_B 0).setReg A.CUE_CNT_C 0).wr F.CUE_CTRL_RUN 0).settle)

/-- Completion of the station port register, key list and switch list commands: a write of a port register, a counter snapshot or clear, and a push into the key or switch change list have the effect their clause states, and exec answers exactly that state. Derived from spec/03_station_ports.md.
The clauses name shared operations of the model; where those rest on choices of the model, see log 12, 125. -/
def Obligations.PortRegisterCommands : Prop :=
  -- LINK_CFG_WRITE (R73)
    (∀ (s : State) (m n : Nat) (w : Word), n < 4 → s.mayWrite m (A.SP_LINK_CFG n) = true → getBits w 2 0 ≤ 4 →
      (getBits w 2 0 ≠ s.rd (F.SP_LINK_CFG_MODE n) ∨ getBits w 4 4 ≠ s.rd (F.SP_LINK_CFG_AN n)) →
      ∀ u : State, u = ((if s.linkUp n then s.next.linkLost n (s.draw % 2 == 1) else (s.linkDrop n).sat (F.SP_LINK_STAT_DOWN_COUNT n)).wr
        (F.SP_LINK_CFG_MODE n) (getBits w 2 0)).wr (F.SP_LINK_CFG_AN n) (getBits w 4 4) →
      exec (.linkCfgWrite m n w) s = .next (if getBits w 2 0 = 0 then (u.wr (F.SP_LINK_STAT_HELD n) (b2n (u.portHeld n))).disarm (.linkRestart n)
        else (u.wr (F.SP_LINK_STAT_HELD n) (b2n (u.portHeld n))).arm (.linkRestart n) ticksPerMs).settle)
  ∧ -- RED_CFG_WRITE (R96)
    (∀ (s : State) (m p : Nat) (w : Word), p < 2 → s.mayWrite m (A.SWITCH_RED_CFG p) = true → s.rd (F.SP_LINK_CFG_MODE (2 * p)) = 0 →
      s.rd (F.SP_LINK_CFG_MODE (2 * p + 1)) = 0 → getBits w 31 30 ≠ 3 → ∀ u : State, u = s.setReg (A.SWITCH_RED_CFG p)
        (setBits (setBits (setBits 0#32 31 30 (getBits w 31 30)) 23 16 (getBits w 23 16)) 15 0 (getBits w 15 0)) →
      exec (.redCfgWrite m p w) s = .next (if getBits w 31 30 = 0 then u.disarm (.supSend p) else u.arm (.supSend p) (u.supTicks p)).settle)
  ∧ -- PTP_PORT_WRITE (R109)
    (∀ (s : State) (m n : Nat) (w : Word), s.mayWrite m A.SWITCH_PTP_PORT = true →
      (List.range 4).filter (fun k => getBits w 7 0 / 4 ^ k % 4 == 2) = [n] →
      exec (.ptpPortWrite m w) s = .next (((s.wr F.SWITCH_PTP_PORT_STATE (getBits w 7 0)).wr F.SWITCH_PTP_STAT_PATH_DELAY (s.port n).delay).ptpWatch s.ptpSlave).settle)
  ∧ -- PORT_CNT_SNAP (R115)
    (∀ (s : State) (m n : Nat), n < 4 → s.mayWrite m (A.SP_CNT_CTRL n) = true →
      exec (.portCntSnap m n) s = .next (s.snapAll (portCounters n)).settle)
  ∧ -- PORT_CNT_CLR (R115)
    (∀ (s : State) (m n : Nat), n < 4 → s.mayWrite m (A.SP_CNT_CTRL n) = true →
      exec (.portCntClr m n) s = .next ((s.clearAll (portCounters n)).wr (F.SP_LINK_STAT_DOWN_COUNT n) 0).settle)
  ∧ -- SOLOIST_KEY_PUSH (R475)
    (∀ (s : State) (m : Nat), s.mayWrite m A.SOLOIST_KEY_PUSH = true → s.flag (F.BLOCK_COMMIT_STATUS_PENDING Base.SOLOIST) = false →
      s.sol.changes = [] → s.solReason (s.rd F.SOLOIST_KEY_IDX_INDEX) false = 0 →
      exec (.soloistKeyPush m) s = .next ((State.wr { s.wr F.SOLOIST_KEY_STAT_LAST_REFUSED 0 with
        sol.changes := [(s.rd F.SOLOIST_KEY_IDX_INDEX, KeyPush.mk false (s.flag F.SOLOIST_KEY_IDX_SLOT) (some s.stagedStreamKey)
          ((s.reg A.SOLOIST_KEY_CHG_LO).toNat + 2 ^ 32 * getBits (s.reg A.SOLOIST_KEY_CHG_HI) 15 0) (s.rd F.SOLOIST_KEY_ATTR_OVERLAP))] }
        F.SOLOIST_KEY_STAT_LIST_COUNT 1).wipeStagedKey).settle)
  ∧ -- SOLOIST_KEY_ERASE (R475)
    (∀ (s : State) (m : Nat), s.mayWrite m A.SOLOIST_KEY_PUSH = true → s.flag (F.BLOCK_COMMIT_STATUS_PENDING Base.SOLOIST) = false →
      s.sol.changes = [] → s.solReason (s.rd F.SOLOIST_KEY_IDX_INDEX) true = 0 →
      exec (.soloistKeyErase m) s = .next ((State.wr { s.wr F.SOLOIST_KEY_STAT_LAST_REFUSED 0 with
        sol.changes := [(s.rd F.SOLOIST_KEY_IDX_INDEX, KeyPush.mk true false none 0 0)] }
        F.SOLOIST_KEY_STAT_LIST_COUNT 1).wipeStagedKey).settle)
  ∧ -- SOLOIST_CNT_CLEAR (R311)
    (∀ (s : State) (m k : Nat) (w : Word), k < 3 → s.mayWrite m (A.SOLOIST_CNT k) = true →
      exec (.soloistCntClear m k w) s = .next (s.setReg (A.SOLOIST_CNT k) 0).settle)
  ∧ -- SWITCH_EDIT_PUSH (R110)
    (∀ (s : State) (m t i : Nat), s.mayWrite m A.SWITCH_EDIT_PUSH = true → t < 8 → i < 16384 →
      s.flag (F.BLOCK_COMMIT_STATUS_PENDING Base.SWITCH) = false → s.sw.changes = [] →
      ∀ ws : List Word, ws = ((List.range 4).map fun k => if k < swWords t then s.reg (A.SWITCH_EDIT_W k) &&& swMask t k else 0#32) → s.swReason t i false ws = 0 →
      exec (.switchEditPush m t i) s = .next (State.wr { s.wr F.SWITCH_EDIT_STAT_LAST_REFUSED 0 with sw.changes := [(swKey t i 0, ws)] }
        F.SWITCH_EDIT_STAT_LIST_COUNT 1).settle)
  ∧ -- SWITCH_EDIT_DELETE (R110)
    (∀ (s : State) (m t i : Nat), s.mayWrite m A.SWITCH_EDIT_PUSH = true → t < 8 → i < 16384 →
      s.flag (F.BLOCK_COMMIT_STATUS_PENDING Base.SWITCH) = false → s.sw.changes = [] → s.swReason t i true (List.replicate 4 0#32) = 0 →
      exec (.switchEditDelete m t i) s = .next (State.wr { s.wr F.SWITCH_EDIT_STAT_LAST_REFUSED 0 with sw.changes := [(swKey t i 0, List.replicate 4 0#32)] }
        F.SWITCH_EDIT_STAT_LIST_COUNT 1).settle)

/-- Completion of the link, frame, redundancy, egress and PTP commands: a link comes up and goes down, a received frame runs its stages, a buffered frame is authenticated, entries age, queued and released frames leave, and PTP events take their samples, and exec answers exactly that state. Derived from spec/03_station_ports.md.
The clauses name shared operations of the model; where those rest on choices of the model, see log 3, 9, 33, 34, 36, 118, 125. -/
def Obligations.PortTrafficAndPtpCommands : Prop :=
  -- LINK_UP (R116)
    (∀ (s : State) (n : Nat) (ok : Bool), s.rd (F.SP_LINK_CFG_MODE n) ≠ 0 → (s.rd (F.SP_LINK_CFG_MODE n) = 2 → ok = true) → s.linkUp n = false →
      s.armed (.linkRestart n) = false → ∀ u : State, u.mode ≠ .curtain → u = (s.wr (F.SP_LINK_STAT_BLOCK_LOCK n) 1).wr (F.SP_LINK_STAT_AN_DONE n)
        (b2n ((s.rd (F.SP_LINK_CFG_MODE n) == 1 && s.flag (F.SP_LINK_CFG_AN n)) || s.rd (F.SP_LINK_CFG_MODE n) == 2)) → u.portHeld n = false →
      exec (.linkUp n ok) s = .next ((((u.wr (F.SP_LINK_STAT_HELD n) 0).wr (F.SP_LINK_STAT_UP n) 1).wr (F.SP_LINK_STAT_ACTIVE n) (s.rd (F.SP_LINK_CFG_MODE n))).irq (96 + 2 * n)))
  ∧ -- LINK_DOWN (R73)
    (∀ (s : State) (n : Nat) (midFrame : Bool), s.linkUp n = true →
      exec (.linkDown n midFrame) s = .next (((if midFrame then (s.satCnt (F.SP_RX_FRAMES_COUNT n)).rxDrop n 0x01 0 else s).linkDrop n).settle))
  ∧ -- RX_FRAME (R75)
    (∀ (s : State) (n frac : Nat) (f : RxFrame), s.linkUp n = true → f.errored = false → 64 ≤ f.len → f.len ≤ 2000 →
      ∀ u : State, u = (s.satCnt (F.SP_RX_FRAMES_COUNT n)).wrapCnt (F.SP_RX_BYTES_COUNT n) f.len → ¬(u.redMode n = 2 ∧ f.smac = u.portMac n) →
      bit (u.vlanMember (f.vid.getD 0)) n = true → isGrid f.etype = true →
      exec (.rxFrame n frac f) s = .next ((u.forward n frac f (u.forwardTo n f) (u.ringTo n f)).rxGrid n frac f
        (!(u.forwardTo n f ++ u.ringTo n f).isEmpty)))
  ∧ -- FRAME_AUTHENTICATE (R86)
    (∀ (s v u : State) (k mismatches : Nat) (i : AuthItem) (rest : List AuthItem) (x : RxExt) (sel : Nat) (key : KeyVal),
      s.authBuf k = i :: rest → v = { s with ports.auth := put (fun _ => []) s.ports.auth k rest } → i.frame.ext = some x → i.frame.red = none →
      getBits (i.words.getD 0 0#32) 30 29 ≠ 2 →
      (v.streamKey (getBits (i.words.getD 2 0#32) 31 20)).accept x.kid (frameAt v.call v.rate i.st) = .inr (sel, key) →
      v.cipherMeets k mismatches = (false, u) →
      exec (.frameAuthenticate k mismatches) s = .next (State.settle (if macPasses key i.frame x (tagBytes (getBits (i.words.getD 0 0#32) 28 27)) then
        (u.satCnt (F.SP_AUTH_PASS_COUNT i.port)).deliver i (getBits (i.words.getD 0 0#32) 17 0) 0x14 sel true else u.rxDrop i.port 0x0E i.stream)))
  ∧ -- DD_ENTRY_AGE (R93)
    (∀ (s : State) (p : Nat) (e : DdEntry) (l : List DdEntry), s.ddTable p = e :: l →
      exec (.ddEntryAge p) s = .next ((s.reachST (e.made + s.rd (F.SWITCH_RED_CFG_DD_AGE p) * ticksPerMs)).ddForget p))
  ∧ -- SUPERVISION_TX (R95)
    (∀ (s a b u v : State) (p q : Nat) (fr : List Byte), s.armed (.supSend p) = true → a = s.elapsed (.supSend p) →
      b = a.arm (.supSend p) (a.supTicks p) → b.mode ≠ .curtain → fr = Config.supFrame (b.redMode (2 * p)) (b.portMac (2 * p)) b.draw → b.next.nextSeq p = (q, u) →
      u.linkUp (2 * p) = true → v = u.emit (2 * p) 1 (Config.redundant (u.redMode (2 * p)) (2 * p % 2) q fr) → v.linkUp (2 * p + 1) = true →
      exec (.supervisionTx p) s = .next (v.emit (2 * p + 1) 1 (Config.redundant (v.redMode (2 * p + 1)) ((2 * p + 1) % 2) q fr)))
  ∧ -- SUPERVISION_TIMEOUT (R95)
    (∀ (s : State) (p : Nat), s.armed (.supervision p) = true → (s.elapsed (.supervision p)).flag (seenFld p) = true →
      exec (.supervisionTimeout p) s = .next (((s.elapsed (.supervision p)).wr (seenFld p) 0).irq 107))
  ∧ -- EGRESS_QUEUE_TX (R98)
    (∀ (s : State) (n mismatches k : Nat), (s.port n).busy = 0 → (s.port n).jobs = [] → (s.port n).fwd = [] → (s.port n).twins = [] →
      s.linkUp n = true → s.guarded n = false → ([6, 5, 4, 3, 2, 1, 0].find? fun k => s.txqReady n k) = some k →
      exec (.egressQueueTx n mismatches) s = .next (s.sendQueued n k mismatches).settle)
  ∧ -- RELEASE_START (R103)
    (∀ (s : State) (n mismatches : Nat) (r : RelPre) (ds : List Nat) (u : State), (s.port n).firstRel = some r → r.descs = some ds →
      u = (s.reachST r.time).setPort n { (s.reachST r.time).port n with pre := ((s.reachST r.time).port n).pre.erase r } →
      (r.word.getLsbD 30 = true → u.agreed (getBits r.word 29 26) = true) →
      exec (.releaseStart n mismatches) s = .next (u.relBegin n mismatches r ds).settle)
  ∧ -- TX_FRAME_END (R105)
    (∀ (s : State) (n mismatches : Nat), (s.port n).busy ≠ 0 →
      exec (.txFrameEnd n mismatches) s = .next ((s.setPort n { s.port n with busy := 0 }).runJobs n mismatches (s.port n).work).settle)
  ∧ -- PTP_SYNC_RX (R106)
    (∀ (s : State) (n frac domain sec ns : Nat) (corr : Int), s.ptpOn n = true → s.ptpState n = 2 → domain = s.rd F.SWITCH_PTP_CFG_DOMAIN →
      exec (.ptpSyncRx n frac domain sec ns corr) s = .next
        (((((s.next.wrap F.SWITCH_PTP_STAT_SAMPLES).irq 104).deliverSample srcPTP
          ((s.arrival n frac : Int) - ((sec * 1000000000 + ns : Nat) * 128 + corr / 512 + (if corr % 512 ≠ 0 ∧ s.draw % 2 = 1 then 1 else 0) + s.rd F.SWITCH_PTP_STAT_PATH_DELAY))).arm
            .syncTimeout (3 * State.syncTicks (((s.next.wrap F.SWITCH_PTP_STAT_SAMPLES).irq 104).deliverSample srcPTP
          ((s.arrival n frac : Int) - ((sec * 1000000000 + ns : Nat) * 128 + corr / 512 + (if corr % 512 ≠ 0 ∧ s.draw % 2 = 1 then 1 else 0) + s.rd F.SWITCH_PTP_STAT_PATH_DELAY))))).gridToPtp))
  ∧ -- PTP_SYNC_TX (R106)
    (∀ (s a b : State) (n frac t log : Nat), s.armed (.syncSend n) = true → a = (s.elapsed (.syncSend n)).arm (.syncSend n) (s.elapsed (.syncSend n)).syncTicks →
      a.ptpOn n = true → a.ptpState n = 1 → t = a.departure n frac → b = a.setPort n { a.port n with syncSeq := ((a.port n).syncSeq + 1) % 65536 } →
      log = (if b.rd F.SWITCH_PTP_CFG_LOG_SYNC = 0 then 0 else 240 + b.rd F.SWITCH_PTP_CFG_LOG_SYNC) →
      ∀ c : State, c = b.originate n 2 (b.ptpFrame n 0 true 0 (a.port n).syncSeq log (List.replicate 10 0#8)) →
      exec (.ptpSyncTx n frac) s = .next (if b.flag F.SWITCH_PTP_CFG_ONE_STEP then b.originate n 2 (b.ptpFrame n 0 false (ptpRest t) (a.port n).syncSeq log (ptpStamp t))
        else c.originate n 3 (b.ptpFrame n 8 false (ptpRest t) (a.port n).syncSeq log (ptpStamp t))))
  ∧ -- PDELAY_REQ_TX (R106)
    (∀ (s u : State) (n frac : Nat), s.ptpOn n = true →
      u = s.setPort n { s.port n with t1 := some (s.departure n frac), reqSeq := ((s.port n).reqSeq + 1) % 65536 } →
      exec (.pdelayReqTx n frac) s = .next (u.originate n 4 (s.ptpFrame n 2 false 0 (s.port n).reqSeq 127 (List.replicate 20 0#8))))
  ∧ -- PDELAY_REQ_RX (R106)
    (∀ (s : State) (n frac domain turnaround t2 t3 seq : Nat) (asker who : List Byte), s.ptpOn n = true → domain = s.rd F.SWITCH_PTP_CFG_DOMAIN →
      t2 = s.arrival n frac → t3 = s.departure n frac + turnaround → seq = beNat (sliceB asker 10 2) → who = padTo 10 asker →
      exec (.pdelayReqRx n frac domain asker turnaround) s = .next (if s.flag F.SWITCH_PTP_CFG_ONE_STEP then
          s.originate n 5 (s.ptpFrame n 3 false (((t3 : Int) - t2) * 512) seq 127 (List.replicate 10 0#8 ++ who))
        else (s.originate n 5 (s.ptpFrame n 3 true (-ptpRest t2) seq 127 (ptpStamp t2 ++ who))).originate n 6 (s.ptpFrame n 10 false (ptpRest t3) seq 127 (ptpStamp t3 ++ who))))
  ∧ -- PDELAY_RESP_RX (R106)
    (∀ (s : State) (n frac domain t1 : Nat) (turnaround : Int), (s.port n).t1 = some t1 → s.ptpOn n = true → domain = s.rd F.SWITCH_PTP_CFG_DOMAIN →
      0 ≤ ((s.arrival n frac : Int) - t1 - turnaround) / 2 → ((s.arrival n frac : Int) - t1 - turnaround) / 2 < 16777216 →
      ∀ u : State, u = s.next.setPort n { s.port n with t1 := none, delay := (((s.arrival n frac : Int) - t1 - turnaround) / 2).toNat } →
      exec (.pdelayRespRx n frac domain turnaround) s = .next
        (if u.ptpState n = 2 then u.wr F.SWITCH_PTP_STAT_PATH_DELAY (((s.arrival n frac : Int) - t1 - turnaround) / 2).toNat else u))
  ∧ -- SYNC_TIMEOUT (R109)
    (∀ s : State, s.armed .syncTimeout = true → exec .syncTimeout s = .next ((s.elapsed .syncTimeout).irq 106))

/-- Completion of the Wings queue, copy and notification commands: a queue is enabled and disabled, entries enter and leave, copies are placed, the windows answer their words, idle time-outs notify, and error counters clear, and exec answers exactly that state. Derived from spec/04_wings_queues_ensembles_packers.md.
The clauses name shared operations of the model; where those rest on choices of the model, see log 40, 122, 125. -/
def Obligations.QueueCommands : Prop :=
  -- QUEUE_ENABLE (R118)
    (∀ (s : State) (m q : Nat) (w v : Word), q < 262144 → s.admits m (0x30000000 + 16 * q + 4) 4 .write = true → v = setBits w 31 31 1 →
      (s.queue q).v = false → (s.queue q).enableOk (getBits v 30 27) (getBits v 26 23) = true →
      exec (.queueEnable m q w) s = .next (State.settle ((s.setQueue q { (s.queue q).take with
        v := true, esize := getBits v 30 27, depth := getBits v 26 23, head := 0, tail := 0, fullcnt := 0, armed := true }).disarm (.queueIdle q))))
  ∧ -- QUEUE_DISABLE (R118)
    (∀ (s : State) (m q : Nat) (w v : Word), q < 262144 → s.admits m (0x30000000 + 16 * q + 4) 4 .write = true → v = setBits w 31 31 0 →
      exec (.queueDisable m q w) s = .next (State.settle ((s.setQueue q { s.queue q with
        v := false, esize := if getBits v 30 27 ≤ 8 then getBits v 30 27 else (s.queue q).esize, depth := getBits v 26 23,
        head := (s.queue q).tail }).disarm (.queueIdle q))))
  ∧ -- ENQUEUE_STORE (R122)
    (∀ (s : State) (m q : Nat) (d : DWord), q < 262144 → s.admits m (0x34000000 + 8 * q) 8 .write = true → (s.queue q).v = true →
      s.mayProduce m (s.queue q) = true → (s.queue q).esize = 0 → (s.queue q).full = false →
      ∀ u : State, s.dmaWrite m ((s.queue q).slot (s.queue q).tail) (leBytes 8 d.toNat) = (none, u) →
      exec (.enqueueStore m q d) s = .next (u.advanceTail q).settle)
  ∧ -- COPY_ENQUEUE (R123)
    (∀ (s : State) (m q src len : Nat), q < 262144 → s.admits m (0x34000000 + 8 * q) 8 .write = true → (s.queue q).v = true →
      s.mayProduce m (s.queue q) = true → (s.queue q).esize ≠ 0 → src < 2 ^ 32 → src % 8 = 0 → len < 2 ^ 12 → len ≤ (s.queue q).entry →
      ∀ (u : State) (bs : List Byte), s.dmaRead m src (if len = 0 then (s.queue q).entry else len) = (.ok bs, u) →
      exec (.copyEnqueue m q src len) s = .next (State.settle { u with
        wing.copies := u.wing.copies ++ [{ queue := q, master := m, bytes := bs }] }))
  ∧ -- COPY_ENQUEUE_DONE (R126)
    (∀ (s u : State) (c : Copy) (l : List Copy), s.wing.copies = c :: l → (s.queue c.queue).v = true → (s.queue c.queue).full = false →
      State.dmaWrite { s with wing.copies := l } 11 ((s.queue c.queue).slot (s.queue c.queue).tail) c.bytes = (none, u) →
      exec .copyEnqueueDone s = .next (u.advanceTail c.queue))
  ∧ -- ENQUEUE_WINDOW_LOAD (R122)
    (∀ (s : State) (m q : Nat), q < 262144 → s.admits m (0x34000000 + 8 * q) 8 .read = true →
      exec (.enqueueWindowLoad m q) s = .next (State.settle { s with rdata :=
        (if (s.queue q).v && s.mayProduce m (s.queue q) then
          BitVec.ofNat 64 (2 ^ 63 + ((s.queue q).ringLen - (s.queue q).fill) * 2 ^ 32) else 0) }))
  ∧ -- DEQUEUE_LOAD (R125)
    (∀ (s : State) (m q : Nat), q < 262144 → s.admits m (0x34400000 + 8 * q) 8 .read = true → (s.queue q).v = true → s.mayConsume m (s.queue q) = true →
      exec (.dequeueLoad m q) s = .next (State.settle { s with rdata :=
        (if s.visible (s.queue q) = 0 then 0 else
          BitVec.ofNat 64 (2 ^ 63 + s.visible (s.queue q) * 2 ^ 32 + (s.queue q).slot (s.queue q).head)) }))
  ∧ -- RELEASE (R125)
    (∀ (s : State) (m q n : Nat), q < 262144 → s.admits m (0x34400000 + 8 * q) 8 .write = true → (s.queue q).v = true → s.mayConsume m (s.queue q) = true →
      n ≠ 0 → n < 2 ^ 64 → n ≤ (s.queue q).fill → exec (.release m q n) s = .next (s.releaseEntries q n).settle)
  ∧ -- QUEUE_IDLE_TIMEOUT (R128)
    (∀ (s : State) (q : Nat), s.armed (.queueIdle q) = true →
      exec (.queueIdleTimeout q) s = .next ((s.elapsed (.queueIdle q)).notifyQueue q))
  ∧ -- NOTIFY_POP (R129)
    (∀ (s : State) (m l q : Nat) (rest : List Nat), l < 32 → s.mayRead m (A.WINGS_NOTIFY_POP l) = true → s.notify l = q :: rest →
      exec (.notifyPop m l) s = .next (State.settle { s with
        wing.ovf := put (fun _ => false) s.wing.ovf l false, wing.notify := put (fun _ => []) s.wing.notify l rest,
        rdata := BitVec.ofNat 64 (BitVec.ofNat 32 (2 ^ 31 + b2n (look (fun _ => false) s.wing.ovf l) * 2 ^ 30 + q)).toNat }))
  ∧ -- WINGS_ERR_CLR (R123)
    (∀ (s : State) (m : Nat), s.mayWrite m A.WINGS_ERR_CLR = true →
      exec (.wingsErrClr m) s = .next ((s.setReg A.WINGS_ERR_A 0).setReg A.WINGS_ERR_B 0).settle)

/-- Completion of the ensemble gather and packer commands: a gather starts and ends, counters clear, stores append to a packer bank, banks swap and return, and exec answers exactly that state. Derived from spec/04_wings_queues_ensembles_packers.md.
The clauses name shared operations of the model; where those rest on choices of the model, see log 35, 39, 119, 125. -/
def Obligations.GatherAndPackerCommands : Prop :=
  -- GATHER_START (R135)
    (∀ (s : State) (g : Gather) (rest : List Gather), s.ens.waiting = g :: rest → s.gathererFree g.ens = true → (s.ensCfg g.ens).en = true →
      exec .gatherStart s = .next (State.gatherBegin { s with ens.waiting := rest }
        { g with cfg := s.ensCfg g.ens, epoch := look (fun _ => 0) s.ens.epochs g.ens }))
  ∧ -- GATHER_COMPLETE (R137)
    (∀ (s : State) (e : Nat) (g : Gather), (s.ens.running.find? fun x => x.ens == e) = some g →
      exec (.gatherComplete e) s = .next ((s.dropRunning g).gatherFinish g))
  ∧ -- ENSEMBLE_CNT_CLR (R130)
    (∀ (s : State) (m e : Nat), e < 256 → s.mayWrite m A.ENSEMBLE_SEL = true →
      ∀ u : State, u = s.wr F.ENSEMBLE_SEL_INDEX e →
      exec (.ensembleCntClr m e) s = .next ((u.setReg (u.ensKey A.ENSEMBLE_STAT_A) 0).setReg (u.ensKey A.ENSEMBLE_STAT_B) 0).settle)
  ∧ -- PACKER_WRITE (R144)
    (∀ (s : State) (m c size : Nat) (d : DWord), c < 48 → size < 4 → s.admits m (packerIn c) (2 ^ size) .write = true → s.packerOn c = true →
      2 ^ size ≤ bankBytes (s.liveReg (A.PACKER_CFG c)) - (s.packer c).fill →
      exec (.packerWrite m c size d) s = .next (s.packerPut c (leBytes (2 ^ size) d.toNat)).settle)
  ∧ -- PACKER_CTRL_SWAP (R141)
    (∀ (s : State) (m c : Nat), c < 48 → s.mayWrite m (A.PACKER_CTRL c) = true → s.packerOn c = true → (s.packer c).fill ≠ 0 → (s.packer c).otherFree = true →
      exec (.packerCtrlSwap m c) s = .next (s.packerSwap c false).2.settle)
  ∧ -- PACKER_RETURN (R142)
    (∀ (s : State) (m c : Nat) (w : Word), c < 48 → s.mayWrite m (A.PACKER_CTRL c) = true → w.getLsbD 30 = true → w.getLsbD 31 = false →
      s.packerOn c = true → (s.packer c).cur ≠ getBits w 29 29 → (s.packer c).otherFree = false → (s.packer c).blocked = false →
      exec (.packerReturn m c w) s = .next (s.setPacker c { s.packer c with otherFree := true }).settle)
  ∧ -- PACKER_CNT_CLEAR (R143)
    (∀ (s : State) (m c : Nat) (w : Word), c < 48 → s.mayWrite m (A.PACKER_CNT_A c) = true →
      exec (.packerCntClear m c w) s = .next ((s.setReg (A.PACKER_CNT_A c) 0).setReg (A.PACKER_CNT_B c) 0).settle)

/-- Completion of the Terrace bank, request, mirror-line, counter and violation commands: banks wake, zero and resume, one waiting request is served, a corrected word is written back, mirror lines are read, rescued writes resume, counters latch and clear, a violation record is popped, and exec answers exactly that state. Derived from spec/07_terrace_memory_and_col_units.md.
The clauses name shared operations of the model; where those rest on choices of the model, see log 3, 20, 116, 120, 125. -/
def Obligations.TerraceAndColCommands : Prop :=
  -- BANK_WAKE_DONE (R206)
    (∀ (s : State) (n : Nat), s.armed (.bankWake n) = true → (s.elapsed (.bankWake n)).bankState n = bankWAKING →
      exec (.bankWakeDone n) s = .next ((s.elapsed (.bankWake n)).startZero n))
  ∧ -- BANK_ZERO_DONE (R206)
    (∀ (s : State) (n : Nat), s.armed (.bankZero n) = true → (s.elapsed (.bankZero n)).bankState n = bankZEROING →
      ∀ u : State, u = ((s.elapsed (.bankZero n)).setBank n bankON).irq 201 →
      exec (.bankZeroDone n) s = .next (if u.lv (F.TERRACE_BANK_POWER n) = 1 then (u.setBank n bankRET).dropSending n else u))
  ∧ -- BANK_RESUME_DONE (R206)
    (∀ (s : State) (n : Nat), s.armed (.bankResume n) = true → (s.elapsed (.bankResume n)).bankState n = bankRET →
      exec (.bankResumeDone n) s = .next ((s.elapsed (.bankResume n)).setBank n bankON))
  ∧ -- TERRACE_REQUEST_SERVED (R201)
    (∀ (s : State) (rs : List TReq) (w : TReq), s.winner rs = some w →
      exec (.terraceRequestServed rs) s = .next (((rs.erase w).foldl (fun (s : State) r => s.reqWaits r.master (4 * w.slots (meetAt rs))) s).serveOne w).settle)
  ∧ -- ECC_WRITEBACK (R203)
    (∀ s : State, exec .eccWriteback s = .next { s with terr.writeback := s.terr.writeback.drop 1 })
  ∧ -- MIRROR_LINE_READ (R213)
    (∀ (s : State) (x : Xfer), s.us.xfer = some x →
      (∀ (l : MirrorLine) (rest : List MirrorLine), s.terr.rescue = l :: rest →
        exec .mirrorLineRead s = .next { s with terr.rescue := rest, us.xfer := some { x with lines := x.lines ++ [l] } }) ∧
      (∀ (b l : Nat) (rest : List (Nat × Nat)), s.terr.rescue = [] → s.sendingLines = (b, l) :: rest →
        exec .mirrorLineRead s = .next { (s.readLine b l).2 with us.xfer := some { x with lines := x.lines ++ (s.readLine b l).1.toList } }))
  ∧ -- RESCUED_WRITE_RESUME (R215)
    (∀ (s : State) (w : Nat × Nat × List Byte) (rest : List (Nat × Nat × List Byte)), s.terr.blocked = w :: rest →
      s.terr.rescue.length + (s.unreadLines w.2.1 w.2.2.length).length ≤ 64 →
      exec .rescuedWriteResume s = .next (State.serveWaiting ((s.unreadLines w.2.1 w.2.2.length).foldl (fun (s : State) l => s.rescue l.1 l.2)
        ({ s with terr.blocked := rest } : State)) w))
  ∧ -- TERRACE_CNT_SNAP (R216)
    (∀ (s : State) (m : Nat), s.mayWrite m A.TERRACE_CNT_CTRL = true →
      exec (.terraceCntSnap m) s = .next (s.snapAll terraceCounters).settle)
  ∧ -- TERRACE_CNT_CLR (R216)
    (∀ (s : State) (m : Nat), s.mayWrite m A.TERRACE_CNT_CTRL = true →
      exec (.terraceCntClr m) s = .next (s.clearAll terraceCounters).settle)
  ∧ -- COL_VIOL_POP (R226)
    (∀ (s : State) (m : Nat), s.mayRead m A.COL_VIOL_POP = true →
      (s.viol = [] → exec (.colViolPop m) s = .next (State.settle { s with rdata := 0 })) ∧
      (∀ (v : Viol) (t : List Viol), s.viol = v :: t → exec (.colViolPop m) s = .next (State.settle { s with
        viol := t, violOvf := false, violAddr := put (fun _ => 0#32) s.violAddr m v.addr, rdata := BitVec.ofNat 64 (v.word s.violOvf).toNat })))

/-- Completion of the Ridge core, late-error, interrupt-controller and core-control commands: a bundle issues, an interrupt is entered, a waiting core resumes, a buffered store drains, a late error is popped, latches clear, acknowledge, raise and route, a core is held and started, and exec answers exactly that state. Derived from spec/05_ridge_instruction_set.md, spec/06_ridge_exceptions_and_conventions.md.
The clauses name shared operations of the model; where those rest on choices of the model, see log 41, 42, 43, 45, 48, 49, 51, 125. -/
def Obligations.RidgeCoreCommands : Prop :=
  -- BUNDLE_ISSUE (R148)
    (∀ (s u v : State) (n cycles drains : Nat) (ws : List (Nat × Word)) (ys : List Syl), s.live? = true → v = s.drainStores n drains →
      v.live? = true → v.coreHeld n = false → (v.core n).waiting = false → v.interruptDue n = none →
      State.fetchFrom n 8 (v.core n).pc.toNat [] (((v.setCore n { v.core n with
        ccount := (v.core n).ccount + BitVec.ofNat 64 cycles }).observe 6 n (cycles - 1)).setFetchBank n (v.core n).pc.toNat) = (.ok (some ws), u) →
      bundleOf ws (v.core n).delay.isSome = some ys → ys.find? Syl.illegal = none →
      exec (.bundleIssue n cycles drains) s = .next ((u.observe 5 n 1).runBundle n ys (4 * ws.length)).settle)
  ∧ -- INTERRUPT_ENTRY (R187)
    (∀ (s : State) (n k : Nat), s.interruptDue n = some k →
      exec (.interruptEntry n) s = .next (s.setCore n ((s.core n).enter cINTERRUPT (BitVec.ofNat 32 (2 ^ 31 + k * 2 ^ 16 + cINTERRUPT)) (s.core n).xaddr)))
  ∧ -- WAIT_RESUME (R189)
    (∀ (s : State) (n : Nat), (s.core n).waiting = true → (s.chosenSource n).isSome = true →
      exec (.waitResume n) s = .next (s.setCore n { s.core n with waiting := false }))
  ∧ -- LATE_BUS_ERROR (R191)
    (∀ (s : State) (n : Nat) (b : BufStore) (t : List BufStore), (s.core n).stores = b :: t →
      exec (.lateBusError n) s = .next ((s.setCore n { s.core n with stores := t }).storeN n b.addr.toNat b.size b.data))
  ∧ -- LATE_ERROR_POP (R192)
    (∀ (s : State) (m n : Nat), n < 9 → s.mayRead m (A.IRQ_LATE_POP n) = true →
      ((s.core n).late = [] → exec (.lateErrorPop m n) s = .next (State.settle { s.setCore n { s.core n with lateAddr := 0 } with rdata := 0 })) ∧
      (∀ (e : LateErr) (t : List LateErr), (s.core n).late = e :: t → exec (.lateErrorPop m n) s = .next (State.settle { s.setCore n { s.core n with
        late := t, lateLost := false, lateAddr := e.addr } with rdata := BitVec.ofNat 64 (e.word (s.core n).lateLost n).toNat })))
  ∧ -- IRQ_PEND_CLEAR (R186)
    (∀ (s : State) (m k : Nat) (w : Word), k < 8 → s.mayWrite m (A.IRQ_PEND k) = true →
      exec (.irqPendClear m k w) s = .next ((List.range 32).foldl (fun (s : State) j => if w.getLsbD j then s.clearLatch (32 * k + j) else s) s).settle)
  ∧ -- IRQ_ACK (R186)
    (∀ (s : State) (m n : Nat) (w : Word), n < 9 → s.mayWrite m (A.IRQ_ACK n) = true → s.routeCore (getBits w 7 0) = n →
      exec (.irqAck m n w) s = .next (s.clearLatch (getBits w 7 0)).settle)
  ∧ -- IRQ_DOORBELL (R186)
    (∀ (s : State) (m : Nat) (w : Word), s.mayWrite m A.IRQ_DOORBELL = true →
      exec (.irqDoorbell m w) s = .next ((List.range 32).foldl (fun (s : State) j => if w.getLsbD j then s.irq (216 + j) else s) s).settle)
  ∧ -- IRQ_ROUTE_WRITE (R190)
    (∀ (s : State) (m k : Nat) (w : Word), k < 248 → s.mayWrite m (A.IRQ_ROUTE k) = true →
      (((132 ≤ k ∧ k < 144) ∨ (192 ≤ k ∧ k < 201) ∨ 8 < getBits w 11 8) →
        exec (.irqRouteWrite m k w) s = .next (s.wr (F.IRQ_ROUTE_LINE k) (getBits w 4 0)).settle) ∧
      (¬((132 ≤ k ∧ k < 144) ∨ (192 ≤ k ∧ k < 201) ∨ 8 < getBits w 11 8) →
        exec (.irqRouteWrite m k w) s = .next ((s.wr (F.IRQ_ROUTE_CORE k) (getBits w 11 8)).wr (F.IRQ_ROUTE_LINE k) (getBits w 4 0)).settle))
  ∧ -- CORE_HOLD (R184)
    (∀ (s : State) (m n : Nat) (b : Bool), n < 8 → s.mayWrite m (A.IRQ_CORE_CTRL n) = true → s.mode ≠ .curtain →
      exec (.coreHold m n b) s = .next (State.settle (if b then (s.wr (F.IRQ_CORE_CTRL_PC n) 0).holdCore n
        else ((s.wr (F.IRQ_CORE_CTRL_PC n) 0).wr (F.IRQ_CORE_CTRL_HOLD n) 0).wr (F.IRQ_CORE_STAT_HELD n) 0)))
  ∧ -- CORE_START (R184)
    (∀ (s : State) (m n : Nat) (pc w : Word), n < 8 → s.mayWrite m (A.IRQ_CORE_CTRL n) = true → s.mode ≠ .curtain →
      w = setBits pc 30 30 1 → w.getLsbD 31 = false → exec (.coreStart m n pc) s =
        .next (((s.wr (F.IRQ_CORE_CTRL_PC n) (getBits w 29 0)).wr (F.IRQ_CORE_CTRL_HOLD n) 0).startCore n (getBits w 29 0 * 4)).settle)

/-- Completion of the cue pin, supply, trip pair, readback, PPS and IRIG commands: supplies come and go, inputs change and are accepted, a verdict commits its pair, readback mismatches book, the 1PPS output rises and falls, an IRIG-B frame ends, group counters clear, and exec answers exactly that state. Derived from spec/08_cue_pins.md, spec/13_safety_curtain_and_refuge.md.
The clauses name shared operations of the model; where those rest on choices of the model, see log 3, 33, 92, 125. -/
def Obligations.PinsAndTripPairCommands : Prop :=
  -- GROUP_SUPPLY_CHANGE (R229)
    (∀ (s : State) (g v : Nat), s.pin.configured = true → ∀ u : State, u = { s with pin.supply := put noneAt s.pin.supply g (some v) } →
      (u.supplyOk g ≠ u.supplyGood g → exec (.groupSupplyChange g v) s = .next (u.supplyChange g (u.supplyGood g))) ∧
      (u.supplyOk g = u.supplyGood g → exec (.groupSupplyChange g v) s = .next u))
  ∧ -- SUPPLY_RESTORE_DRIVE (R229)
    (∀ (s u : State) (g : Nat), s.armed (.supplyOn g) = true → u = s.elapsed (.supplyOn g) →
      exec (.supplyRestoreDrive g) s = .next (State.refreshGroup { u with pin.drive := if u.pin.drive.contains g then u.pin.drive else u.pin.drive ++ [g] } g))
  ∧ -- PIN_INPUT_CHANGE (R237)
    (∀ (s : State) (p frac : Nat) (level : Option Bool),
      exec (.pinInputChange p level frac) s = .next ((s.setPin p { s.pinOf p with ext := level }).refreshPinAt frac p))
  ∧ -- EDGE_ACCEPT (R237)
    (∀ (s : State) (p st frac : Nat), s.armed (.pinFilter p) = true → ((s.elapsed (.pinFilter p)).pinOf p).cand = some (st, frac) →
      (s.elapsed (.pinFilter p)).inputOn p = true → exec (.edgeAccept p) s = .next ((s.elapsed (.pinFilter p)).acceptEdge p st frac))
  ∧ -- DT_VERDICT (R345)
    (∀ (s u a b c d : State) (g v w : Nat) (e : DtEval) (o : Nat × Nat), (s.dtake.evals.find? fun e => e.group == g) = some e →
      u = s.reachST (e.start + (8 + e.delay + 40 + 1) / 2) →
      State.dtPath2 { u with dtake.evals := u.dtake.evals.erase e } g e.old = (o, a) → dtVerdict e.first o = (v, w) →
      b = (a.wr (F.DTAKE_VERDICT_VERDICT g) v).wr (F.DTAKE_VERDICT_FRAME g) (e.frame % 65536) →
      c = State.next { b with
        dtake.frames := put noneAt b.dtake.frames g (some e.frame),
        us.commits := if e.counted then b.us.commits else b.us.commits ++ [(g, if v = dtAGREE then w else if v = dtDISAGREE then 0xFFFFFFFF else b.draw % 2 ^ 32)] } →
      d = State.dtRecord (State.dtHandover (if v = dtAGREE then { c with dtake.agreed := c.dtake.agreed ++ [(g, e.due + 512, w)] } else c) g v w) g v →
      exec (.dtVerdict g) s = .next (State.complete d.next e.ticket (v != dtAGREE && d.draw % 2 == 1)).settle)
  ∧ -- TRIP_PAIR_COMMIT (R235)
    (∀ (s u : State) (g k t w : Nat), (s.dtake.agreed.find? fun a => a.1 == g) = some (k, t, w) →
      u = { s.reachST t with dtake.agreed := s.dtake.agreed.filter fun a => !(a.1 == g && a.2.1 == t) } → u.mode ≠ .curtain →
      (u.mode ≠ .understudy → exec (.tripPairCommit g) s = .next ((u.wr (F.DTAKE_WORD_WORD g) w).tripCommit g (BitVec.ofNat 32 w))) ∧
      (u.mode = .understudy → exec (.tripPairCommit g) s = .next (u.wr (F.DTAKE_WORD_WORD g) w)))
  ∧ -- READBACK_MISMATCH (R236)
    (∀ (s u v : State) (p st : Nat), s.armed (.pinRb p) = true → u = s.elapsed (.pinRb p) → (u.pinOf p).rbStart = some st →
      v = (((u.setPin p { u.pinOf p with mis := true, booked := true }).showRb (p / 2)).pinEvent p 2 0 st).pinIrq (F.PINS_GRP_IRQ_RB (p / 8)) (p / 8) →
      exec (.readbackMismatch p) s = .next (if (u.pinOf p).booked then v else v.postU 0x7002 6 [p]))
  ∧ -- PPS_OUT_RISE (R240)
    (∀ (s u : State), s.timeRuns = true → u = { s.reachST s.nextSecond with pin.ppsLast := some s.nextSecond } →
      exec .ppsOutRise s = .next ((u.ppsCommand (!(u.lvFlag F.PINS_PPS_CFG_SYNC_ONLY && u.unsynced))).arm .ppsFall
        (u.lv F.PINS_PPS_CFG_WIDTH * ticksPerUs)))
  ∧ -- PPS_OUT_FALL (R240)
    (∀ s : State, s.armed .ppsFall = true →
      exec .ppsOutFall s = .next ((s.elapsed .ppsFall).ppsCommand false))
  ∧ -- IRIG_FRAME_END (R241)
    (∀ (s : State) (highs : List Nat) (edge p : Nat), s.irigPin = some p → s.supplyOk (p / 8) = true → s.pin.dead = false → s.mode ≠ .curtain →
      (irigDecode (s.lv F.PINS_IRIG_CFG_FORMAT) highs = none → exec (.irigFrameEnd highs edge) s = .next (s.irigBad p)) ∧
      (∀ (day sec : Nat) (yy : Option Nat), irigDecode (s.lv F.PINS_IRIG_CFG_FORMAT) highs = some (day, sec, yy) →
        exec (.irigFrameEnd highs edge) s = .next (s.irigGoodFrame edge (s.irigSeconds day sec yy))))
  ∧ -- GRP_CNT_CLR (R233)
    (∀ (s : State) (m g : Nat), g < 32 → s.mayWrite m (A.PINS_GRP_IRQ g) = true → ∀ u : State,
      u = (s.wr (F.PINS_GRP_STAT_CUE_DROP g) 0).wr (F.PINS_GRP_STAT_EVT_LOST g) 0 →
      exec (.grpCntClr m g) s = .next (u.setReg (A.PINS_GRP_IRQ g) (u.reg (A.PINS_GRP_IRQ g))).settle)

/-- Completion of the Understudy link, pairing and control-frame commands: lanes come up and go down, pairing messages arrive and are answered, a pair is keyed or retried, pulses and control frames are sent and received, and exec answers exactly that state. Derived from spec/09_understudy.md.
The clauses name shared operations of the model; where those rest on choices of the model, see log 60, 61, 64, 125. -/
def Obligations.PairingCommands : Prop :=
  -- LANE_UP (R247)
    (∀ (s u : State) (n : Nat), s.lanesOn = true → s.us.lanes.contains n = false → u = { s with us.lanes := s.us.lanes ++ [n] } →
      exec (.laneUp n) s = .next (if u.keyed || u.rd F.UNDERSTUDY_STAT_STATE == 2 then u else u.beginPairing))
  ∧ -- LANE_DOWN (R247)
    (∀ (s u : State) (n : Nat), s.us.lanes.contains n = true → u = { s with us.lanes := s.us.lanes.filter (· != n) } →
      exec (.laneDown n) s = .next (if u.us.lanes.isEmpty then u.breakPair whyLANES else u))
  ∧ -- S2_FAULT (R250)
    (∀ s : State, exec .s2Fault s = .next ((State.irq { s with us.lanes := [] } 122).breakPair whyCIPHER))
  ∧ -- HELLO (R253)
    (∀ (s u : State) (role : Nat) (body : List Byte), s.us.lanes.isEmpty = false →
      u = (if s.partnerBroke.pairing then s.partnerBroke else s.partnerBroke.beginPairing) →
      (role = u.rd F.SYS_STATE_PAIR_ROLE → exec (.hello role body) s = .next (u.breakPair whyROLE)) ∧
      (role ≠ u.rd F.SYS_STATE_PAIR_ROLE → u.isSecondary = false → exec (.hello role body) s = .next { u with us.helloS := leBytes 1 role ++ body }) ∧
      (role ≠ u.rd F.SYS_STATE_PAIR_ROLE → u.isSecondary = true → ∀ k : List Byte, k = Config.pairKem (leBytes 1 role ++ body) u.draw →
        exec (.hello role body) s = .next (State.sendAuth (State.send { u.next with us.helloP := leBytes 1 role ++ body, us.keyMsg := k } chanMirror 2 k))))
  ∧ -- KEY_MESSAGE (R253)
    (∀ (s : State) (body : List Byte), s.pairing = true → s.isPrincipal = true → s.us.helloS.isEmpty = false →
      exec (.keyMessage body) s = .next (State.sendAuth { s with us.keyMsg := body }))
  ∧ -- AUTH (R253)
    (∀ (s : State) (body : List Byte), s.pairing = true → s.us.keyMsg.isEmpty = false →
      exec (.auth body) s = .next (if Config.partnerVerifies s.pairDigest body then { s with us.authOk := true } else s.breakPair whyIDENTITY))
  ∧ -- PAIRING_KEYED (R253)
    (∀ (s u v : State) (k : List Byte), s.pairing = true → s.us.authOk = true →
      k = shake256 96 (Config.pairSecrets (s.us.helloP ++ s.us.helloS ++ s.us.keyMsg) s.draw ++ s.pairDigest) →
      u = { s.next with us.keys := k, us.epochReq := true, us.firstFull := false, us.epochWhole := false, us.failed := false, us.badMode := 0 } →
      v = State.pairState ([0, 1, 2].foldl (fun s i => { s with chorus.slots := put (fun _ => KeySlot.empty) s.chorus.slots (253 + i) (KeySlot.mk true 2 0 0 (sliceB k (32 * i) 32) ((look (fun _ => KeySlot.empty) s.chorus.slots (253 + i)).epoch + 1)) }) u) 3 0 →
      exec .pairingKeyed s = .next (if v.mode == .lead then v else v.markStale))
  ∧ -- PAIRING_RETRY (R253)
    (∀ s : State, s.armed .pairRetry = true → (s.elapsed .pairRetry).us.lanes.isEmpty = false → (s.elapsed .pairRetry).keyed = false →
      exec .pairingRetry s = .next (s.elapsed .pairRetry).beginPairing)
  ∧ -- PULSE_SEND (R251)
    (∀ s : State, s.keyed = true → exec .pulseSend s = .next ((s.reachST (s.frameStart + 500).toNat).sendControl 1))
  ∧ -- PULSE (R251)
    (∀ (s a b c : State) (w : Word) (sent delay : Nat), s.keyed = true →
      a = { s.setReg A.UNDERSTUDY_PEER_HEALTH w with us.pulseSeen := true, us.pulseDiff := (sent : Int) + delay - s.now } →
      b = (if a.us.failed then { a with us.failed := false } else a) → c = { b with us.goodPulses := if b.peerHealthy then b.us.goodPulses + 1 else 0 } →
      exec (.pulse w sent delay) s = .next (if w.getLsbD 0 && c.mode == .lead && !c.us.epochOpen then { c with us.epochReq := true } else c))
  ∧ -- READY (R267)
    (∀ (s : State) (n : Nat), s.us.ho = 1 → s.us.hoSwitch = n → exec (.ready n) s = .next { s with us.hoReady := true })
  ∧ -- ABORT (R267)
    (∀ s : State, s.us.ho = 2 → exec .abort s = .next (State.irq { s with us.ho := 0 } 155))
  ∧ -- CANCEL (R267)
    (∀ s : State, s.us.ho = 2 → exec .cancel s = .next (State.irq { s with us.ho := 0 } 155))
  ∧ -- ALIVE_EDGE (R252)
    (∀ s : State, s.boot.auxLost = false → exec .aliveEdge s = .next { s with us.aliveSeen := true, boot.aliveAt := some s.now })

/-- Completion of the mirror transfer, failure check, takeover, handover and self-test commands: a mirror transfer ends, arrives, is verified and applied, a failure check counts, a takeover and a handover act, self-tests run, and exec answers exactly that state. Derived from spec/09_understudy.md.
The clauses name shared operations of the model; where those rest on choices of the model, see log 3, 40, 65, 125. -/
def Obligations.MirrorAndFailoverCommands : Prop :=
  -- MIRROR_TRANSFER_END (R257)
    (∀ (s u : State) (x : Xfer) (w n : Nat), s.us.xfer = some x → w = s.lv F.UNDERSTUDY_CFG_B_WINDOW →
      n = (x.lines.length + s.terr.rescue.length) * 64 + x.msg.octets.length + x.control →
      u = s.reachST (x.start + (if s.sendingLines.isEmpty then min (s.linkTicks n) w else w)) →
      exec .mirrorTransferEnd s = .next (u.mirrorSeal x (min u.mirrorBudget (u.linkBytes w))))
  ∧ -- MIRROR_RX (R259)
    (∀ (s : State) (msg : MirrorMsg) (ok : Bool), s.keyed = true → s.mode ≠ .lead → s.us.takeDue = none →
      (s.halfBusy msg.frame = true → exec (.mirrorRx msg ok) s = .next { s with us.parked := s.us.parked ++ [(msg, ok)] }) ∧
      (s.halfBusy msg.frame = false → ∀ u : State,
        u = (s.dmaWrite 16 (0x10000000 + (s.lv F.UNDERSTUDY_CFG_A_LAND + 2 * (msg.frame % 2)) * 0x40000) (msg.octets.take 524288)).2 →
        exec (.mirrorRx msg ok) s = .next { u with us.arrived := u.us.arrived ++ [(msg, ok)] }))
  ∧ -- SEAL_VERIFY (R259)
    (∀ (s u : State) (m : MirrorMsg) (ok : Bool) (rest : List (MirrorMsg × Bool)), s.us.arrived = (m, ok) :: rest →
      u = { s with us.arrived := rest } → u.mode ≠ .lead →
      ((ok && decide (u.newestMirror < m.frame) && (m.epoch == u.currentEpoch || m.resync)) = false →
        exec .sealVerify s = .next (u.mirrorDiscard m.frame)) ∧
      ((ok && decide (u.newestMirror < m.frame) && (m.epoch == u.currentEpoch || m.resync)) = true →
        ∀ x v : State, x = { u with
          us.accepted := u.us.accepted ++ [m], us.sealOk := true, us.received := { frame := m.frame, digest := m.digest, pdigest := m.pdigest } :: u.us.received.take 3 } →
        v = (x.setReg A.UNDERSTUDY_PEER_HEALTH (BitVec.ofNat 32 m.health)).shadowTry (m.frame + 1) →
        exec .sealVerify s = .next (if m.handover && v.selfHealthy && (m.departure || v.isPrincipal) then
          State.sendControl { v with us.ho := 2, us.hoSwitch := v.switchFrame m.switch, us.hoDeparture := m.departure } 2 else v)))
  ∧ -- MIRROR_APPLY (R259)
    (∀ s : State, s.mode ≠ .curtain →
      (∀ m : MirrorMsg, s.us.applying = some m → exec .mirrorApply s = .next (s.applySteps m)) ∧
      (∀ (m : MirrorMsg) (rest : List MirrorMsg), s.us.applying = none → s.mode ≠ .lead → s.us.takeDue = none → s.us.accepted = m :: rest → s.applyMay m = true →
        exec .mirrorApply s = .next ((State.applyBanks { s with us.accepted := rest, us.applying := some m } m.config).applySteps m)))
  ∧ -- MIRROR_FIRST_RECORD_ARRIVES (R260)
    (∀ (s : State) (n : Nat) (m : MirrorMsg), s.us.applying = some m → m.frame + 2 = n →
      exec (.mirrorFirstRecordArrives n) s = .next { s with us.promoted := true })
  ∧ -- FAILURE_CHECK (R264)
    (∀ (s a b c d : State), s.mode = .lead ∨ s.mode = .understudy ∨ s.mode = .interval → s.rd F.SYS_STATE_PAIR_ROLE ≠ 0 →
      a = s.reachST (s.frameStart + 5000).toNat →
      b = (a.missCount F.UNDERSTUDY_STAT_LINK_MISS a.us.pulseSeen).missCount F.UNDERSTUDY_STAT_ALIVE_MISS a.us.aliveSeen →
      c = State.resolveCheck { b with us.pulseSeen := false, us.aliveSeen := false } (a.us.pulseSeen, a.us.aliveSeen) (a.linkLostNow, a.aliveLostNow) →
      d = (if c.mode == .understudy && c.us.failed && c.us.takeDue.isNone then { c with us.takeDue := some c.frame } else c) →
      exec .failureCheck s = .next (d.setHeld (d.heldIn d.mode)))
  ∧ -- TAKEOVER (R266)
    (∀ (s u v : State) (agree : Bool) (f : Nat), s.us.takeDue = some f → s.mode = .understudy → u = s.reachST (s.frameStart + 5500).toNat →
      ((u.us.applying = none ∧ v = u) ∨ ∃ m, u.us.applying = some m ∧ v = u.applySteps m) → v.us.applying = none →
      exec (.takeover agree) s = .next (State.settle (if agree then v.lead f causeTakeover else { v.dtDisagree with us.takeDue := none })))
  ∧ -- HANDOVER_COMMIT_CHECK (R267)
    (∀ (s u : State), s.us.ho = 1 → s.mode = .lead → s.us.hoSwitch = s.frame + 1 → u = s.reachST (s.nextBoundary - 5000).toNat →
      exec .handoverCommitCheck s = .next (if u.us.hoReady then { u with us.ho := 3 } else (u.sendControl 4).handoverDrop))
  ∧ -- SELFTEST_RUN (R272)
    (∀ (s : State) (test : Nat) (pass : Bool), s.mode = .understudy → 1 ≤ test → test ≤ 5 →
      exec (.selftestRun test pass) s = .next (s.selftestOne test pass).2.settle)

/-- Completion of the Understudy control, hold and counter register commands: FEED, JOIN, HANDOVER, RESYNC, UNPAIR and stale acknowledgement take effect, holds set and clear, counters clear, and exec answers exactly that state. Derived from spec/09_understudy.md.
The clauses name shared operations of the model; where those rest on choices of the model, see log 60, 125. -/
def Obligations.UnderstudyRegisterCommands : Prop :=
  -- UNDERSTUDY_FEED (R252)
    (∀ (s : State) (m : Nat), s.mayWrite m A.UNDERSTUDY_CTRL = true →
      exec (.understudyFeed m) s = .next (State.settle { s with us.feedAge := some 0 }))
  ∧ -- UNDERSTUDY_JOIN (R248)
    (∀ (s u : State) (m : Nat), s.mayWrite m A.UNDERSTUDY_CTRL = true → s.mode = .rehearsal → s.us.joined = false →
      u = (State.lanesFollow { s with us.joined := true }).landBanks →
      exec (.understudyJoin m) s = .next (State.settle (if u.us.joined then { u with boot.joinedAt := some u.now } else u)))
  ∧ -- UNDERSTUDY_HANDOVER (R267)
    (∀ (s : State) (m : Nat), s.mayWrite m A.UNDERSTUDY_CTRL = true → s.mode = .lead →
      exec (.understudyHandover m) s = .next (State.settle { s with us.hoRequest := true }))
  ∧ -- UNDERSTUDY_RESYNC (R262)
    (∀ (s : State) (m : Nat), s.mayWrite m A.UNDERSTUDY_CTRL = true →
      exec (.understudyResync m) s = .next (State.settle { s with us.epochReq := true }))
  ∧ -- UNDERSTUDY_UNPAIR (R254)
    (∀ (s u : State) (m : Nat), s.mayWrite m A.UNDERSTUDY_CTRL = true → s.keyed = true ∨ s.pairing = true → u = s.breakPair whyUNPAIR →
      exec (.understudyUnpair m) s = .next (State.settle (if !s.us.joined && u.us.joined then { u with boot.joinedAt := some u.now } else u)))
  ∧ -- UNDERSTUDY_ACK_STALE (R263)
    (∀ (s u : State) (m : Nat), s.mayWrite m A.UNDERSTUDY_CTRL = true → s.mode = .lead → u = s.setStale false →
      exec (.understudyAckStale m) s = .next (State.settle (if !s.us.joined && u.us.joined then { u with boot.joinedAt := some u.now } else u)))
  ∧ -- HOLD_SET (R267)
    (∀ (s : State) (m : Nat) (w : Word), s.mayWrite m A.UNDERSTUDY_HOLD_SET = true →
      exec (.holdSet m w) s = .next (s.setReg A.UNDERSTUDY_HOLD (s.holds ||| w)).settle)
  ∧ -- HOLD_CLR (R267)
    (∀ (s : State) (m : Nat) (w : Word), s.mayWrite m A.UNDERSTUDY_HOLD_CLR = true →
      exec (.holdClr m w) s = .next (s.setReg A.UNDERSTUDY_HOLD (s.holds &&& ~~~w)).settle)
  ∧ -- UNDERSTUDY_CNT_CLEAR (R273)
    (∀ (s : State) (m k : Nat) (w : Word), k < 3 → s.mayWrite m (A.UNDERSTUDY_CNT_A + 4 * k) = true →
      exec (.understudyCntClear m k w) s = .next (s.setReg (A.UNDERSTUDY_CNT_A + 4 * k) 0).settle)

/-- Completion of the Troupe roll call, session, health and grid broadcast commands: a roll call opens and is answered, sessions are made, CALL is broadcast and adopted, HEALTH is judged, members and the Director fall silent, and exec answers exactly that state. Derived from spec/10_troupe.md.
The clauses name shared operations of the model; where those rest on choices of the model, see log 62, 63, 64, 125. -/
def Obligations.TroupeSessionCommands : Prop :=
  -- ROLL_CALL (R280)
    (∀ (s a u v w : State), s.isDirector = true → s.mode ≠ .factory →
      a = (if s.troupe.rollDue || !s.armed .rollPeriod then s else s.reachST (s.dueAt .rollPeriod)) → a.isDirector = true → a.mode ≠ .factory →
      u = { a.next.next with troupe.seq := 0, troupe.nonce := a.draw, troupe.rolling := true, troupe.oldBkey := a.troupe.bkey, troupe.bkey := some (Config.freshKey a.next.draw), troupe.answered := [], troupe.welcomed := [], troupe.rollDue := false } →
      v = u.troupeSend 1 0 none [] (beBytes 32 a.draw) → w = v.arm .rollWait (u.lv F.TROUPE_CFG_C_ROLL_WAIT * ticksPerMs) →
      exec .rollCall s = .next (w.arm .rollPeriod (w.lv F.TROUPE_CFG_B_ROLL_PERIOD * ticksPerSecond)).troupeShow)
  ∧ -- ROLL (R280)
    (∀ (s u d v w : State) (h : THead) (nonce : Nat), s.troupeAccept h 0 true false = (true, u) →
      d = u.directorHeard → v = { d with troupe.seq := 0, troupe.rolling := true, troupe.welcomed := [] } → w = v.sendAttest nonce →
      exec (.roll h nonce) s = .next (w.arm .rollWait (v.lv F.TROUPE_CFG_C_ROLL_WAIT * ticksPerMs)))
  ∧ -- ATTEST (R281)
    (∀ (s u v : State) (h : THead) (p : List Byte) (sigOk : Bool), s.troupeAccept h 0 false false = (true, u) →
      v = { u with troupe.answered := u.troupe.answered ++ [h.slot] } →
      (sigOk = false ∨ (v.troupe.rolling = true ∧ beNat (sliceB p 0 32) ≠ v.troupe.nonce) → exec (.attest h p sigOk) s = .next v.troupeRefuse) ∧
      (sigOk = true → (v.troupe.rolling = true → beNat (sliceB p 0 32) = v.troupe.nonce) → exec (.attest h p sigOk) s = .next
        (if Config.rosterPrint v.cfg h.slot ≠ some (sliceB p 32 32) then (v.newSession h.slot none).strangerFound h.slot h.mac (sliceB p 32 32) else v.welcome h.slot p)))
  ∧ -- WELCOME (R280)
    (∀ (s u v : State) (h : THead) (hello wrapped print key : List Byte) (sigOk : Bool) (got : Option (List Byte)), s.troupeAccept h 0 true false = (true, u) →
      key = sessionKey (Config.troupeSecrets false hello u.troupe.attestDraw) u.troupe.attest hello →
      got = (if sigOk = true ∧ Config.rosterPrint u.cfg 0 = some print ∧ beNat (sliceB hello 0 32) = u.troupe.nonce ∧ u.troupe.attest ≠ [] then kwUnwrap key wrapped else none) →
      v = u.newSession 0 (some key) →
      exec (.welcome h hello wrapped print sigOk) s = .next (got.elim u.troupeRefuse fun b => State.troupeShow (State.directorHeard
        { v with troupe.bkey := some b, troupe.attest := [], troupe.welcomed := [0], troupe.lastSeq := put (fun _ => 0) v.troupe.lastSeq 2 0 })))
  ∧ -- ROLL_WAIT_EXPIRY (R280)
    (∀ (s u v w : State) (slots : List Nat), s.armed .rollWait = true → u = s.elapsed .rollWait →
      slots = (if u.isDirector then (List.range 64).filter (· != 0) else [0]) →
      v = (slots.filter fun k => !u.troupe.welcomed.contains k).foldl (fun s k => s.newSession k none) u →
      w = (if v.isDirector then (slots.filter fun k => !v.troupe.answered.contains k).foldl (fun s k => if s.member k = tmSTRANGER then s else s.memberGo k tmABSENT) v else v) →
      exec .rollWaitExpiry s = .next (State.troupeShow { w with troupe.rolling := false, troupe.oldBkey := none }))
  ∧ -- HEALTH_PERIOD_TICK (R279)
    (∀ (s a b : State) (k : List Byte), s.isDirector = true → a = (if s.armed .healthPeriod then s.reachST (s.dueAt .healthPeriod) else s) →
      b = a.arm .healthPeriod (a.lv F.TROUPE_CFG_B_HEALTH_PERIOD * ticksPerMs) → b.troupe.bkey = some k → ∀ c d : State,
      c = b.troupeSend 4 2 none k (beBytes 8 b.call ++ beBytes 1 b.rate ++ beBytes 2 b.troupe.epoch) →
      d = (List.range 64).foldl (fun s k =>
        if (s.member k = tmPRESENT ∨ s.member k = tmMISALIGNED) ∧ !s.troupe.heard.contains k then
          { s with troupe.missed := put (fun _ => 0) s.troupe.missed k (look (fun _ => 0) s.troupe.missed k + 1) }
        else { s with troupe.missed := put (fun _ => 0) s.troupe.missed k 0 }) c →
      exec .healthPeriodTick s = .next { d with troupe.heard := [] })
  ∧ -- CALL_BROADCAST (R283)
    (∀ (s u v : State) (h : THead) (call rate epoch : Nat), s.troupeAccept h 2 true false = (true, u) → (s.isPlayer && (s.session 0).isNone) = false →
      v = { u.directorHeard with troupe.epoch := epoch } →
      exec (.callBroadcast h call rate epoch) s = .next ((if v.mode == .curtain then v else v.sendHealth).adoptGrid call rate))
  ∧ -- HEALTH (R281)
    (∀ (s u v : State) (h : THead) (x : THealth), s.troupeAccept h 1 false false = (true, u) →
      v = State.wr { u with troupe.heard := u.troupe.heard ++ [h.slot], troupe.missed := put (fun _ => 0) u.troupe.missed h.slot 0,
                            troupe.healthAt := put noneAt u.troupe.healthAt h.slot (some u.now) } (F.TROUPE_MEMBER_MODE h.slot) x.mode →
      exec (.health h x) s = .next (if v.member h.slot = tmPRESENT ∧ (x.call != v.call || x.rate != v.rate ||
          decide (v.lv F.TROUPE_CFG_C_ALIGN_NS * 128 < x.offset.natAbs) || decide (frameAt v.call v.rate v.now ≠ (h.frame : Int))) then
        v.memberGo h.slot tmMISALIGNED else v))
  ∧ -- MEMBER_SILENT (R281)
    (∀ (s : State) (k : Nat), s.member k = tmPRESENT ∨ s.member k = tmMISALIGNED →
      max 1 (s.lv F.TROUPE_CFG_C_SILENT_LIMIT) ≤ look (fun _ => 0) s.troupe.missed k → exec (.memberSilent k) s = .next (s.memberGo k tmSILENT))
  ∧ -- DIRECTOR_SILENT (R288)
    (∀ s : State, s.armed .dirSilent = true → (s.elapsed .dirSilent).isPlayer = true →
      exec .directorSilent s = .next ((((s.elapsed .dirSilent).wr F.TROUPE_STAT_DIR_SEEN 0).irq 163).post 0x9004 5 21 []))
  ∧ -- TROUPE_CNT_CLEAR (R288)
    (∀ (s : State) (m : Nat) (w : Word), s.mayWrite m A.TROUPE_CNT = true →
      exec (.troupeCntClear m w) s = .next (s.setReg A.TROUPE_CNT 0).settle)

/-- Completion of the Troupe key, interval, summary and command commands: KEY exchanges run to their acknowledgement or retry, intervals are called, started and ended, summaries are sent and received, command fragments arrive, and exec answers exactly that state. Derived from spec/10_troupe.md.
The clauses name shared operations of the model; where those rest on choices of the model, see log 63, 64, 125. -/
def Obligations.TroupeKeyAndIntervalCommands : Prop :=
  -- KEY_SEND (R285)
    (∀ (s : State) (entry kid change overlap : Nat) (v : KeyVal), s.isDirector = true →
      ((s.now + 10 * ticksPerSecond : Nat) : Int) ≤ boundaryAt s.call s.rate ((change : Int) - overlap) → (s.streamKey entry).byKid kid = some v →
      exec (.keySend entry kid change overlap) s = .next (s.presentSlots.foldl (fun s k =>
          match s.session k with
          | none => s
          | some key =>
            let body := beBytes 2 entry ++ beBytes 4 kid ++ beBytes 6 change ++ beBytes 2 overlap ++ kwWrap key (beBytes (if v.len256 then 32 else 16) v.value)
            let e : KeyExch := { slot := k, entry, kid, change, overlap, retries := 0, key, body }
            State.sendKey { s with troupe.exchanges := (s.troupe.exchanges.filter fun x => x.slot != k || x.entry != entry) ++ [e]
                                   troupe.keysFailed := s.troupe.keysFailed.filter (· != (k, entry)) } e) s))
  ∧ -- KEY (R285)
    (∀ (s u a b c d e : State) (h : THead) (k : TKey) (good : Bool) (key : List Byte), s.troupeAccept h 1 true true = (true, u) → u.mode ≠ .curtain →
      a = ((((u.directorHeard.wr F.SOLOIST_KEY_IDX_INDEX k.entry).wr F.SOLOIST_KEY_IDX_SLOT 1).wr F.SOLOIST_KEY_KID_KID k.kid).wr
        F.SOLOIST_KEY_ATTR_LEN256 (b2n k.len256)).wr F.SOLOIST_KEY_ATTR_OVERLAP k.overlap →
      b = (((List.range 8).foldl (fun s i => s.setReg (A.SOLOIST_KEY_VAL i) (BitVec.ofNat 32 (k.value / 2 ^ (32 * i)))) a).setReg
        A.SOLOIST_KEY_CHG_LO (BitVec.ofNat 32 k.change)).setReg A.SOLOIST_KEY_CHG_HI (BitVec.ofNat 32 (k.change / 2 ^ 32 % 65536)) →
      c = (if k.wrapOk then b.solPush (BitVec.twoPow 32 31) else b.wipeStagedKey) → good = (k.wrapOk && !c.flag F.SOLOIST_KEY_STAT_LAST_REFUSED) →
      d = (if good && !c.pendingIn Base.SOLOIST then c.solApply.wrap (F.BLOCK_COMMIT_STATUS_APPLIED Base.SOLOIST) else c) →
      (if h.old then look noneAt d.troupe.oldSessions 0 else d.session 0) = some key →
      e = d.troupeSend 7 1 (some 0) key (beBytes 4 k.kid ++ beBytes 1 (if good then scOK else scBAD_PARAM)) →
      exec (.key h k) s = .next (if h.old then State.disarm { e with troupe.oldSessions := put noneAt e.troupe.oldSessions 0 none } (.keyRetry 0) else e))
  ∧ -- KEY_ACK (R285)
    (∀ (s u v : State) (h : THead) (kid : Nat) (e : KeyExch), s.troupeAccept h 1 false true = (true, u) →
      (u.troupe.exchanges.find? fun e => e.slot == h.slot && e.kid == kid) = some e → v = u.exchangeEnd h.slot e.entry →
      exec (.keyAck h kid) s = .next (if (v.troupe.exchanges.any fun x => x.slot == h.slot) || v.troupe.keysFailed.any fun f => f.1 == h.slot then v
        else v.wr (F.TROUPE_MEMBER_KEYS_OK h.slot) 1))
  ∧ -- KEY_RETRY (R285)
    (∀ (s u v : State) (k n : Nat) (e : KeyExch), s.keyRetryNext k = some n → s.armed (.keyRetry n) = true → u = s.elapsed (.keyRetry n) →
      (u.troupe.exchanges.find? fun e => e.entry * 64 + e.slot == n) = some e → v = (u.exchangeEnd e.slot e.entry).wr (F.TROUPE_MEMBER_KEYS_OK e.slot) 0 →
      (e.retries < 3 → exec (.keyRetry k) s = .next (State.sendKey { u with
        troupe.exchanges := u.troupe.exchanges.map fun x => if x = e then { e with retries := e.retries + 1 } else x } { e with retries := e.retries + 1 })) ∧
      (3 ≤ e.retries → exec (.keyRetry k) s = .next
        ((State.irq { v with troupe.keysFailed := (e.slot, e.entry) :: v.troupe.keysFailed } 164).post 0x9003 5 21 [e.slot, e.kid])))
  ∧ -- INTERVAL (R287)
    (∀ (s u v w : State) (h : THead) (mask start stop status : Nat) (both : Bool) (key : List Byte), s.troupeAccept h 2 true false = (true, u) →
      v = u.directorHeard → bit mask v.tSlot = true → both = ((Config.rosterPartner v.cfg v.tSlot).map (bit mask)).getD false →
      status = (if both then scDENIED else if !(v.mode == .lead && v.peerHealthy) && !(v.mode == .understudy && v.peerLeads) then scWRONG_MODE
        else if v.holds ≠ 0 then scBUSY else scOK) →
      w = (if both then v
        else if v.mode == .lead && v.peerHealthy then
          { v with us.hoRequest := true, us.hoNext := max v.us.hoNext (start - 2), troupe.interval := some (start, stop, false) }
        else if v.mode == .understudy && v.peerLeads then { v with troupe.interval := some (start, stop, false) } else v) →
      w.session 0 = some key → exec (.interval h mask start stop) s = .next (w.troupeSend 9 1 (some 0) key (beBytes 6 start ++ beBytes 1 status)))
  ∧ -- INTERVAL_ACK (R287)
    (∀ (s u : State) (h : THead) (code : Nat), s.troupeAccept h 1 false false = (true, u) → exec (.intervalAck h code) s =
      .next (State.irq { u with troupe.acks := (h.slot, code) :: u.troupe.acks.filter fun a => a.1 != h.slot } 165))
  ∧ -- INTERVAL_START (R287)
    (∀ (s v w x : State) (agree : Bool), s.timeRuns = true → s.intervalAt (s.stime.gridN + 1).toNat = true → 0 ≤ s.stime.gridN + 1 →
      v = (s.carryOver s.nextBoundary.toNat).reachST s.nextBoundary.toNat → v.modeDue (s.stime.gridN + 1).toNat = some (.interval, causeTroupe) →
      w = (if agree then { v with modeReq := none } else State.dtDisagree { v with modeReq := none }) →
      x = (if agree then w.modeChange .interval causeTroupe else { w with us.dualDue := false }) →
      x.nothingPends = true → x.flag F.STIME_STATE_STEP_PENDING = false → x.stime.gridN = s.stime.gridN →
      exec (.intervalStart agree) s = .next ((((x.keyBoundary (s.stime.gridN + 1).toNat).newFrame (s.stime.gridN + 1)).afterBoundary).settle))
  ∧ -- INTERVAL_END (R287)
    (∀ (s u : State) (st e : Nat) (b : Bool), s.troupe.interval = some (st, e, b) → e ≤ s.frame → u = { s with troupe.interval := none } →
      exec .intervalEnd s = .next (if u.mode == .interval then (if u.flag F.SYS_BOOT_EARLY_OK then u.handToFull (if u.peerLeads then .understudy else .lead)
        else u.put8 A.SYS_MODE_REQ (BitVec.ofNat 32 (2 ^ 31 + (if u.peerLeads then 3 else 2)))) else u))
  ∧ -- SUMMARY_SEND (R286)
    (∀ (s : State) (k : List Byte) (used n : Nat) (out rest : List Rec), s.session 0 = some k → s.isPlayer = true → s.mode ≠ .curtain →
      s.troupe.sumQueue.isEmpty = false → used = (if s.troupe.sumAt = s.now / ticksPerSecond then s.troupe.sumCount else 0) →
      n = min (min 56 s.troupe.sumQueue.length) (sumLimit - used) → out = s.troupe.sumQueue.take n → rest = s.troupe.sumQueue.drop n → ∀ u : State,
      u = State.sat { s with troupe.sumAt := s.now / ticksPerSecond, troupe.sumCount := used + n, troupe.sumQueue := if used + n = sumLimit then [] else rest }
        F.TROUPE_CNT_SUM_DROP (if used + n = sumLimit then rest.length else 0) →
      exec .summarySend s = .next (if out.isEmpty then u else u.troupeSend 0xA 1 (some 0) k (out.flatMap Rec.bytes)))
  ∧ -- SUMMARY (R417)
    (∀ (s u : State) (h : THead) (recs : List TRec), s.troupeAccept h 1 false false = (true, u) →
      exec (.summary h recs) s = .next ((recs.take 56).foldl (fun s (r : TRec) => s.postRec (Rec.mk r.st 0 r.code r.sev true h.slot r.rep (r.words.take 4))) u))
  ∧ -- COMMAND (R378)
    (∀ (s u : State) (h : THead) (p : List Byte), s.troupeAccept h 1 (h.slot == 0) false = (true, u) →
      (u.isDirector = true → exec (.command h p) s = .next (u.relayReply h.slot p)) ∧
      (u.isDirector = false → u.directorHeard.desk.running = true → 16 ≤ p.length → byteAt p 0 = 1 →
        exec (.command h p) s = .next (u.directorHeard.packet true p 0)))

/-- Completion of the Chorus cipher, gate, wrap, context, job and key-slot commands: a job is queued, starts and ends with its data and its completion record, a gate opens, decrypts and gives its verdict, slots are pushed and erased, and exec answers exactly that state. Derived from spec/11_chorus_and_soloists.md.
The clauses name shared operations of the model; where those rest on choices of the model, see log 66, 67, 119, 125. -/
def Obligations.ChorusCommands : Prop :=
  -- ENC (R294)
    (∀ (s : State) (c : Nat) (fault : Option (Nat × Nat)) (j : ChJob), (s.chan c).running = some j → j.op = 1 → j.status = none → s.framesFirst = false →
      exec (.enc c fault) s = .next (State.turns c fault s.blocksLeft s))
  ∧ -- DEC (R294)
    (∀ (s : State) (c : Nat) (fault : Option (Nat × Nat)) (j : ChJob), (s.chan c).running = some j → j.op = 2 → j.status = none → s.framesFirst = false →
      exec (.dec c fault) s = .next (State.turns c fault s.blocksLeft s))
  ∧ -- ENC_XOR (R294)
    (∀ (s : State) (c : Nat) (fault : Option (Nat × Nat)) (j : ChJob), (s.chan c).running = some j → j.op = 3 → j.status = none → s.framesFirst = false →
      exec (.encXor c fault) s = .next (State.turns c fault s.blocksLeft s))
  ∧ -- GATE_CTR (R304)
    (∀ (s : State) (c : Nat) (fault : Option (Nat × Nat)) (j : ChJob), (s.chan c).running = some j → j.op = 5 → j.status = none → s.framesFirst = false →
      exec (.gateCtr c fault) s = .next (State.turns c fault s.blocksLeft s))
  ∧ -- GATE_OPEN (R304)
    (∀ (s : State) (c : Nat) (fault : Option (Nat × Nat)) (j : ChJob), (s.chan c).running = some j → j.op = 4 → j.status = none → s.coresOut = false →
      (∀ (u : State) (n st : Nat), (fault.bind fun f => s.coreErr f.2) = none → s.gateOpen c j = ((st, n), u) →
        exec (.gateOpen c fault) s = .next (u.setRunning c (some { j with status := some st, blocks := n }))) ∧
      (∀ cn : Nat, (fault.bind fun f => s.coreErr f.2) = some cn →
        exec (.gateOpen c fault) s = .next ((s.coreFault cn).setRunning c (some { j with status := some jFAULT }))))
  ∧ -- WRAP (R294)
    (∀ (s : State) (c : Nat) (fault : Option (Nat × Nat)) (j : ChJob), (s.chan c).running = some j → j.op = 7 → j.status = none → s.coresOut = false →
      (∀ (u : State) (n st : Nat), (fault.bind fun f => s.coreErr f.2) = none → s.jobWrap j = ((st, n), u) →
        exec (.wrap c fault) s = .next (u.setRunning c (some { j with status := some st, blocks := n }))) ∧
      (∀ cn : Nat, (fault.bind fun f => s.coreErr f.2) = some cn →
        exec (.wrap c fault) s = .next ((s.coreFault cn).setRunning c (some { j with status := some jFAULT }))))
  ∧ -- UNWRAP (R294)
    (∀ (s : State) (c : Nat) (fault : Option (Nat × Nat)) (j : ChJob), (s.chan c).running = some j → j.op = 8 → j.status = none → s.coresOut = false →
      (∀ (u : State) (n st : Nat), (fault.bind fun f => s.coreErr f.2) = none → s.jobUnwrap j = ((st, n), u) →
        exec (.unwrap c fault) s = .next (u.setRunning c (some { j with status := some st, blocks := n }))) ∧
      (∀ cn : Nat, (fault.bind fun f => s.coreErr f.2) = some cn →
        exec (.unwrap c fault) s = .next ((s.coreFault cn).setRunning c (some { j with status := some jFAULT }))))
  ∧ -- CTX_SAVE_WRAPPED (R308)
    (∀ (s : State) (c : Nat) (fault : Option (Nat × Nat)) (j : ChJob), (s.chan c).running = some j → j.op = 10 → j.status = none → s.coresOut = false →
      (∀ (u : State) (n st : Nat), (fault.bind fun f => s.coreErr f.2) = none → s.ctxSaveWrapped c j = ((st, n), u) →
        exec (.ctxSaveWrapped c fault) s = .next (u.setRunning c (some { j with status := some st, blocks := n }))) ∧
      (∀ cn : Nat, (fault.bind fun f => s.coreErr f.2) = some cn →
        exec (.ctxSaveWrapped c fault) s = .next ((s.coreFault cn).setRunning c (some { j with status := some jFAULT }))))
  ∧ -- CTX_RESTORE (R309)
    (∀ (s : State) (c : Nat) (fault : Option (Nat × Nat)) (j : ChJob), (s.chan c).running = some j → j.op = 11 → j.status = none → s.coresOut = false →
      (∀ (u : State) (n st : Nat), (fault.bind fun f => s.coreErr f.2) = none → s.ctxRestore c j = ((st, n), u) →
        exec (.ctxRestore c fault) s = .next (u.setRunning c (some { j with status := some st, blocks := n }))) ∧
      (∀ cn : Nat, (fault.bind fun f => s.coreErr f.2) = some cn →
        exec (.ctxRestore c fault) s = .next ((s.coreFault cn).setRunning c (some { j with status := some jFAULT }))))
  ∧ -- GATE_VERDICT (R305)
    (∀ (s u : State) (c n st : Nat) (j : ChJob), (s.chan c).running = some j → j.op = 6 → j.status = none → s.coresOut = false →
      s.gateVerdict c j = ((st, n), u) → exec (.gateVerdict c) s = .next (u.setRunning c (some { j with status := some st, blocks := n })))
  ∧ -- CTX_SAVE_CLEAR (R308)
    (∀ (s u : State) (c n st : Nat) (j : ChJob), (s.chan c).running = some j → j.op = 9 → j.status = none → s.coresOut = false →
      s.ctxSaveClear c j = ((st, n), u) → exec (.ctxSaveClear c) s = .next (u.setRunning c (some { j with status := some st, blocks := n })))
  ∧ -- CHORUS_JOB_START (R295)
    (∀ (s u : State) (c : Nat) (agree : Bool) (j : ChJob) (rest : List ChJob), (s.chan c).running = none → (s.chan c).queue = j :: rest →
      u = (s.setChan c { s.chan c with queue := rest }).wr (F.CHORUS_CH_STAT_QUEUED c) rest.length →
      exec (.chorusJobStart c agree) s = .next (State.settle (if j.status.isSome then u.setRunning c (some j)
        else if u.coresOut then u.setRunning c (some { j with status := some jFAULT })
        else if j.bad (u.flag (F.CHORUS_CH_GATE_CFG_COMPAT c)) then u.setRunning c (some { j with status := some jBAD })
        else if (opUse j.op).isSome && !agree then
          ((u.sat F.CHORUS_CNT_DT_DISAGREE).irq 118).dtDisagree.setRunning c (some { j with status := some jFAULT })
        else if !u.slotAllows j then u.setRunning c (some { j with status := some jDENIED })
        else u.setRunning c (some { j with key := (u.keySlot j.slot).key }))))
  ∧ -- CHORUS_JOB_DONE (R296)
    (∀ (s u : State) (c st : Nat) (j : ChJob), (s.chan c).running = some j → j.status = some st →
      u = (((s.setRunning c none).wr (F.CHORUS_CH_STAT_STATUS c) st).wr (F.CHORUS_CH_STAT_REQ c) j.req).wr (F.CHORUS_CH_STAT_BLOCKS c) j.blocks → ∀ v : State,
      v = (if st = jDONE then u else u.irq 112) → exec (.chorusJobDone c) s = .next (if v.flag (F.CHORUS_CH_DONE_Q_EN c) then
        (v.enqueue 9 (v.rd (F.CHORUS_CH_DONE_Q_QUEUE c))
          (leBytes 8 (2 ^ 63 + st * 2 ^ 59 + c * 2 ^ 56 + j.op * 2 ^ 52 + j.slot * 2 ^ 44 + j.req * 2 ^ 39 + j.blocks * 2 ^ 19))).2 else v))
  ∧ -- CHORUS_KEY_PUSH (R301)
    (∀ (s : State) (m i : Nat), s.mayWrite m A.CHORUS_KEY_PUSH = true → i = s.rd F.CHORUS_KEY_IDX_SLOT → s.pendingIn Base.CHORUS = false →
      (s.chorus.changes.any fun c => c.1 == i) = true ∨ s.chorus.changes.length < 256 → s.chorusReason = 0 → ∀ (p : SlotPush) (u v : State),
      p = SlotPush.mk false (s.rd F.CHORUS_KEY_ATTR_LEN) s.stagedUse (s.reg A.CHORUS_KEY_USERS).toNat
        ((if s.rd F.CHORUS_KEY_ATTR_FROM = 1 then s.chorus.unwrap.getD [] else if s.rd F.CHORUS_KEY_ATTR_FROM = 2 then s.chorus.bus.headD [] else s.stagedSlotKey).take
          (keyBytes (s.rd F.CHORUS_KEY_ATTR_LEN))) →
      u = (if s.rd F.CHORUS_KEY_ATTR_FROM = 1 then { s with chorus.unwrap := none }
        else if s.rd F.CHORUS_KEY_ATTR_FROM = 2 then { s with chorus.bus := s.chorus.bus.drop 1 } else s) →
      v = (List.range 8).foldl (fun s k => s.setReg (A.CHORUS_KEY_VAL k) 0) u → ∀ l : List (Nat × SlotPush),
      l = (if s.chorus.changes.any fun c => c.1 == i then v.chorus.changes.map (fun c => if c.1 = i then (i, p) else c) else v.chorus.changes ++ [(i, p)]) →
      exec (.chorusKeyPush m) s = .next (State.wr { v.wr F.CHORUS_KEY_STAT_LAST_REFUSED 0 with chorus.changes := l } F.CHORUS_KEY_STAT_LIST_COUNT l.length).settle)
  ∧ -- CHORUS_KEY_ERASE (R301)
    (∀ (s : State) (m i : Nat), s.mayWrite m A.CHORUS_KEY_PUSH = true → i = s.rd F.CHORUS_KEY_IDX_SLOT → s.pendingIn Base.CHORUS = false →
      (s.chorus.changes.any fun c => c.1 == i) = true ∨ s.chorus.changes.length < 256 → ∀ (p : SlotPush) (v : State), p = SlotPush.mk true 0 0 0 [] →
      v = (List.range 8).foldl (fun s k => s.setReg (A.CHORUS_KEY_VAL k) 0) s → ∀ l : List (Nat × SlotPush),
      l = (if s.chorus.changes.any fun c => c.1 == i then v.chorus.changes.map (fun c => if c.1 = i then (i, p) else c) else v.chorus.changes ++ [(i, p)]) →
      exec (.chorusKeyErase m) s = .next (State.wr { v.wr F.CHORUS_KEY_STAT_LAST_REFUSED 0 with chorus.changes := l } F.CHORUS_KEY_STAT_LIST_COUNT l.length).settle)
  ∧ -- CHORUS_CNT_CLEAR (R300)
    (∀ (s : State) (m : Nat) (w : Word), s.mayWrite m A.CHORUS_CNT = true →
      exec (.chorusCntClear m w) s = .next (s.setReg A.CHORUS_CNT 0).settle)

/-- Completion of the Massif hash, HMAC, elliptic-curve and ML-KEM-768 jobs: a running job of the operation ends with the output, the verdict or the key register its clause gives, and its completion record, and exec answers exactly that state. Derived from spec/12_massif_scree_and_keys.md.
The clauses name shared operations of the model; where those rest on choices of the model, see log 8, 68, 69, 119, 125. -/
def Obligations.MassifOperationCommands : Prop :=
  -- HASH_OPS (R314)
    (∀ (s : State) (inv parity agree : Bool) (c : Nat) (j : MJob), s.runningClass [1, 2, 3, 4, 5, 6, 7] = some c → s.mrunning c = some j →
      (parity = true → exec (.hashOps inv parity agree) s = .next (((s.irq 126).post 0xA006 6 10 [j.op, j.req]).setMRunning c (some { j with status := some mFAULT })).settle) ∧
      (parity = false → ∀ (st : Nat) (v : Bool) (u : State), s.massifCompute j inv = ((st, v), u) →
        exec (.hashOps inv parity agree) s = .next (u.setMRunning c (some { j with status := some st, valid := v })).settle))
  ∧ -- HMAC_SHA256 (R314)
    (∀ (s : State) (inv parity agree : Bool) (c : Nat) (j : MJob), s.runningClass [8] = some c → s.mrunning c = some j →
      (parity = true → exec (.hmacSha256 inv parity agree) s = .next (((s.irq 126).post 0xA006 6 10 [j.op, j.req]).setMRunning c (some { j with status := some mFAULT })).settle) ∧
      (parity = false → ∀ (st : Nat) (v : Bool) (u : State), s.massifCompute j inv = ((st, v), u) →
        exec (.hmacSha256 inv parity agree) s = .next (u.setMRunning c (some { j with status := some st, valid := v })).settle))
  ∧ -- ECDSA_P256 (R314)
    (∀ (s : State) (inv parity agree : Bool) (c : Nat) (j : MJob), s.runningClass [0x10, 0x11] = some c → s.mrunning c = some j →
      (parity = true → exec (.ecdsaP256 inv parity agree) s = .next (((s.irq 126).post 0xA006 6 10 [j.op, j.req]).setMRunning c (some { j with status := some mFAULT })).settle) ∧
      (parity = false → isVerify j.op = true → j.twice = true → agree = false → exec (.ecdsaP256 inv parity agree) s =
        .next (((s.sat F.MASSIF_CNT_DT_DISAGREE).irq 126).dtDisagree.setMRunning c (some { j with status := some mFAULT })).settle) ∧
      (parity = false → (isVerify j.op && j.twice && !agree) = false → ∀ (st : Nat) (v : Bool) (u : State), s.massifCompute j inv = ((st, v), u) →
        exec (.ecdsaP256 inv parity agree) s = .next (u.setMRunning c (some { j with status := some st, valid := v })).settle))
  ∧ -- ECDSA_P384 (R314)
    (∀ (s : State) (inv parity agree : Bool) (c : Nat) (j : MJob), s.runningClass [0x12, 0x13] = some c → s.mrunning c = some j →
      (parity = true → exec (.ecdsaP384 inv parity agree) s = .next (((s.irq 126).post 0xA006 6 10 [j.op, j.req]).setMRunning c (some { j with status := some mFAULT })).settle) ∧
      (parity = false → isVerify j.op = true → j.twice = true → agree = false → exec (.ecdsaP384 inv parity agree) s =
        .next (((s.sat F.MASSIF_CNT_DT_DISAGREE).irq 126).dtDisagree.setMRunning c (some { j with status := some mFAULT })).settle) ∧
      (parity = false → (isVerify j.op && j.twice && !agree) = false → ∀ (st : Nat) (v : Bool) (u : State), s.massifCompute j inv = ((st, v), u) →
        exec (.ecdsaP384 inv parity agree) s = .next (u.setMRunning c (some { j with status := some st, valid := v })).settle))
  ∧ -- ED25519 (R314)
    (∀ (s : State) (inv parity agree : Bool) (c : Nat) (j : MJob), s.runningClass [0x14, 0x15] = some c → s.mrunning c = some j →
      (parity = true → exec (.ed25519 inv parity agree) s = .next (((s.irq 126).post 0xA006 6 10 [j.op, j.req]).setMRunning c (some { j with status := some mFAULT })).settle) ∧
      (parity = false → isVerify j.op = true → j.twice = true → agree = false → exec (.ed25519 inv parity agree) s =
        .next (((s.sat F.MASSIF_CNT_DT_DISAGREE).irq 126).dtDisagree.setMRunning c (some { j with status := some mFAULT })).settle) ∧
      (parity = false → (isVerify j.op && j.twice && !agree) = false → ∀ (st : Nat) (v : Bool) (u : State), s.massifCompute j inv = ((st, v), u) →
        exec (.ed25519 inv parity agree) s = .next (u.setMRunning c (some { j with status := some st, valid := v })).settle))
  ∧ -- ECDH (R314)
    (∀ (s : State) (inv parity agree : Bool) (c : Nat) (j : MJob), s.runningClass [0x16, 0x17] = some c → s.mrunning c = some j →
      (parity = true → exec (.ecdh inv parity agree) s = .next (((s.irq 126).post 0xA006 6 10 [j.op, j.req]).setMRunning c (some { j with status := some mFAULT })).settle) ∧
      (parity = false → ∀ (st : Nat) (v : Bool) (u : State), s.massifCompute j inv = ((st, v), u) →
        exec (.ecdh inv parity agree) s = .next (u.setMRunning c (some { j with status := some st, valid := v })).settle))
  ∧ -- P256_KEYGEN (R314)
    (∀ (s : State) (inv parity agree : Bool) (c : Nat) (j : MJob), s.runningClass [0x18] = some c → s.mrunning c = some j →
      (parity = true → exec (.p256Keygen inv parity agree) s = .next (((s.irq 126).post 0xA006 6 10 [j.op, j.req]).setMRunning c (some { j with status := some mFAULT })).settle) ∧
      (parity = false → ∀ (st : Nat) (v : Bool) (u : State), s.massifCompute j inv = ((st, v), u) →
        exec (.p256Keygen inv parity agree) s = .next (u.setMRunning c (some { j with status := some st, valid := v })).settle))
  ∧ -- ML_KEM_768 (R314)
    (∀ (s : State) (inv parity agree : Bool) (c : Nat) (j : MJob), s.runningClass [0x20, 0x21, 0x22] = some c → s.mrunning c = some j →
      (parity = true → exec (.mlKem768 inv parity agree) s = .next (((s.irq 126).post 0xA006 6 10 [j.op, j.req]).setMRunning c (some { j with status := some mFAULT })).settle) ∧
      (parity = false → ∀ (st : Nat) (v : Bool) (u : State), s.massifCompute j inv = ((st, v), u) →
        exec (.mlKem768 inv parity agree) s = .next (u.setMRunning c (some { j with status := some st, valid := v })).settle))

/-- Completion of the Massif post-quantum, RSA, derivation and key-register jobs: a running job of the operation ends with the output, the verdict or the key register its clause gives, and its completion record, and exec answers exactly that state. Derived from spec/12_massif_scree_and_keys.md.
The clauses name shared operations of the model; where those rest on choices of the model, see log 8, 69, 70, 71, 72, 119, 125. -/
def Obligations.MassifPostQuantumAndKeyCommands : Prop :=
  -- ML_KEM_1024 (R314)
    (∀ (s : State) (inv parity agree : Bool) (c : Nat) (j : MJob), s.runningClass [0x23, 0x24, 0x25] = some c → s.mrunning c = some j →
      (parity = true → exec (.mlKem1024 inv parity agree) s = .next (((s.irq 126).post 0xA006 6 10 [j.op, j.req]).setMRunning c (some { j with status := some mFAULT })).settle) ∧
      (parity = false → ∀ (st : Nat) (v : Bool) (u : State), s.massifCompute j inv = ((st, v), u) →
        exec (.mlKem1024 inv parity agree) s = .next (u.setMRunning c (some { j with status := some st, valid := v })).settle))
  ∧ -- ML_DSA_65 (R314)
    (∀ (s : State) (inv parity agree : Bool) (c : Nat) (j : MJob), s.runningClass [0x28, 0x29, 0x2A] = some c → s.mrunning c = some j →
      (parity = true → exec (.mlDsa65 inv parity agree) s = .next (((s.irq 126).post 0xA006 6 10 [j.op, j.req]).setMRunning c (some { j with status := some mFAULT })).settle) ∧
      (parity = false → isVerify j.op = true → j.twice = true → agree = false → exec (.mlDsa65 inv parity agree) s =
        .next (((s.sat F.MASSIF_CNT_DT_DISAGREE).irq 126).dtDisagree.setMRunning c (some { j with status := some mFAULT })).settle) ∧
      (parity = false → (isVerify j.op && j.twice && !agree) = false → ∀ (st : Nat) (v : Bool) (u : State), s.massifCompute j inv = ((st, v), u) →
        exec (.mlDsa65 inv parity agree) s = .next (u.setMRunning c (some { j with status := some st, valid := v })).settle))
  ∧ -- ML_DSA_87 (R314)
    (∀ (s : State) (inv parity agree : Bool) (c : Nat) (j : MJob), s.runningClass [0x2B, 0x2C, 0x2D] = some c → s.mrunning c = some j →
      (parity = true → exec (.mlDsa87 inv parity agree) s = .next (((s.irq 126).post 0xA006 6 10 [j.op, j.req]).setMRunning c (some { j with status := some mFAULT })).settle) ∧
      (parity = false → isVerify j.op = true → j.twice = true → agree = false → exec (.mlDsa87 inv parity agree) s =
        .next (((s.sat F.MASSIF_CNT_DT_DISAGREE).irq 126).dtDisagree.setMRunning c (some { j with status := some mFAULT })).settle) ∧
      (parity = false → (isVerify j.op && j.twice && !agree) = false → ∀ (st : Nat) (v : Bool) (u : State), s.massifCompute j inv = ((st, v), u) →
        exec (.mlDsa87 inv parity agree) s = .next (u.setMRunning c (some { j with status := some st, valid := v })).settle))
  ∧ -- RSA_VERIFY (R314)
    (∀ (s : State) (inv parity agree : Bool) (c : Nat) (j : MJob), s.runningClass [0x30] = some c → s.mrunning c = some j →
      (parity = true → exec (.rsaVerify inv parity agree) s = .next (((s.irq 126).post 0xA006 6 10 [j.op, j.req]).setMRunning c (some { j with status := some mFAULT })).settle) ∧
      (parity = false → isVerify j.op = true → j.twice = true → agree = false → exec (.rsaVerify inv parity agree) s =
        .next (((s.sat F.MASSIF_CNT_DT_DISAGREE).irq 126).dtDisagree.setMRunning c (some { j with status := some mFAULT })).settle) ∧
      (parity = false → (isVerify j.op && j.twice && !agree) = false → ∀ (st : Nat) (v : Bool) (u : State), s.massifCompute j inv = ((st, v), u) →
        exec (.rsaVerify inv parity agree) s = .next (u.setMRunning c (some { j with status := some st, valid := v })).settle))
  ∧ -- RSA_PRIVATE (R314)
    (∀ (s : State) (inv parity agree : Bool) (c : Nat) (j : MJob), s.runningClass [0x31] = some c → s.mrunning c = some j →
      (parity = true → exec (.rsaPrivate inv parity agree) s = .next (((s.irq 126).post 0xA006 6 10 [j.op, j.req]).setMRunning c (some { j with status := some mFAULT })).settle) ∧
      (parity = false → ∀ (st : Nat) (v : Bool) (u : State), s.massifCompute j inv = ((st, v), u) →
        exec (.rsaPrivate inv parity agree) s = .next (u.setMRunning c (some { j with status := some st, valid := v })).settle))
  ∧ -- MODEXP (R314)
    (∀ (s : State) (inv parity agree : Bool) (c : Nat) (j : MJob), s.runningClass [0x32] = some c → s.mrunning c = some j →
      (parity = true → exec (.modexp inv parity agree) s = .next (((s.irq 126).post 0xA006 6 10 [j.op, j.req]).setMRunning c (some { j with status := some mFAULT })).settle) ∧
      (parity = false → ∀ (st : Nat) (v : Bool) (u : State), s.massifCompute j inv = ((st, v), u) →
        exec (.modexp inv parity agree) s = .next (u.setMRunning c (some { j with status := some st, valid := v })).settle))
  ∧ -- LMS_XMSS_VERIFY (R314)
    (∀ (s : State) (inv parity agree : Bool) (c : Nat) (j : MJob), s.runningClass [0x38, 0x39] = some c → s.mrunning c = some j →
      (parity = true → exec (.lmsXmssVerify inv parity agree) s = .next (((s.irq 126).post 0xA006 6 10 [j.op, j.req]).setMRunning c (some { j with status := some mFAULT })).settle) ∧
      (parity = false → isVerify j.op = true → j.twice = true → agree = false → exec (.lmsXmssVerify inv parity agree) s =
        .next (((s.sat F.MASSIF_CNT_DT_DISAGREE).irq 126).dtDisagree.setMRunning c (some { j with status := some mFAULT })).settle) ∧
      (parity = false → (isVerify j.op && j.twice && !agree) = false → ∀ (st : Nat) (v : Bool) (u : State), s.massifCompute j inv = ((st, v), u) →
        exec (.lmsXmssVerify inv parity agree) s = .next (u.setMRunning c (some { j with status := some st, valid := v })).settle))
  ∧ -- DERIVE (R315)
    (∀ (s : State) (inv parity agree : Bool) (c : Nat) (j : MJob), s.runningClass [0x40] = some c → s.mrunning c = some j →
      (parity = true → exec (.deriveKey inv parity agree) s = .next (((s.irq 126).post 0xA006 6 10 [j.op, j.req]).setMRunning c (some { j with status := some mFAULT })).settle) ∧
      (parity = false → ∀ (st : Nat) (v : Bool) (u : State), s.massifCompute j inv = ((st, v), u) →
        exec (.deriveKey inv parity agree) s = .next (u.setMRunning c (some { j with status := some st, valid := v })).settle))
  ∧ -- COMBINE (R315)
    (∀ (s : State) (inv parity agree : Bool) (c : Nat) (j : MJob), s.runningClass [0x41] = some c → s.mrunning c = some j →
      (parity = true → exec (.combine inv parity agree) s = .next (((s.irq 126).post 0xA006 6 10 [j.op, j.req]).setMRunning c (some { j with status := some mFAULT })).settle) ∧
      (parity = false → ∀ (st : Nat) (v : Bool) (u : State), s.massifCompute j inv = ((st, v), u) →
        exec (.combine inv parity agree) s = .next (u.setMRunning c (some { j with status := some st, valid := v })).settle))
  ∧ -- IMPORT (R318)
    (∀ (s : State) (inv parity agree : Bool) (c : Nat) (j : MJob), s.runningClass [0x42] = some c → s.mrunning c = some j →
      (parity = true → exec (.importKey inv parity agree) s = .next (((s.irq 126).post 0xA006 6 10 [j.op, j.req]).setMRunning c (some { j with status := some mFAULT })).settle) ∧
      (parity = false → ∀ (st : Nat) (v : Bool) (u : State), s.massifCompute j inv = ((st, v), u) →
        exec (.importKey inv parity agree) s = .next (u.setMRunning c (some { j with status := some st, valid := v })).settle))
  ∧ -- MASSIF_ERASE (R318)
    (∀ (s : State) (inv parity agree : Bool) (c : Nat) (j : MJob), s.runningClass [0x43] = some c → s.mrunning c = some j →
      (parity = true → exec (.massifErase inv parity agree) s = .next (((s.irq 126).post 0xA006 6 10 [j.op, j.req]).setMRunning c (some { j with status := some mFAULT })).settle) ∧
      (parity = false → ∀ (st : Nat) (v : Bool) (u : State), s.massifCompute j inv = ((st, v), u) →
        exec (.massifErase inv parity agree) s = .next (u.setMRunning c (some { j with status := some st, valid := v })).settle))
  ∧ -- PUBLIC (R314)
    (∀ (s : State) (inv parity agree : Bool) (c : Nat) (j : MJob), s.runningClass [0x44] = some c → s.mrunning c = some j →
      (parity = true → exec (.publicKey inv parity agree) s = .next (((s.irq 126).post 0xA006 6 10 [j.op, j.req]).setMRunning c (some { j with status := some mFAULT })).settle) ∧
      (parity = false → ∀ (st : Nat) (v : Bool) (u : State), s.massifCompute j inv = ((st, v), u) →
        exec (.publicKey inv parity agree) s = .next (u.setMRunning c (some { j with status := some st, valid := v })).settle))

/-- Completion of the Massif queue commands and of the Scree commands: a job starts, yields, resumes and ends, a countermeasure seed is drawn, the Scree is instantiated and reseeded, sources start, fail and are tested again, random and test words are read, and exec answers exactly that state. Derived from spec/12_massif_scree_and_keys.md.
The clauses name shared operations of the model; where those rest on choices of the model, see log 73, 74, 75, 125. -/
def Obligations.MassifQueueAndScreeCommands : Prop :=
  -- CM_SEED_DRAW (R326)
    (∀ (s u : State), s.live? = true → u = s.reachST (s.scree.cmAt + ticksPerMs / 1000) →
      (u.flag F.SCREE_STAT_FAILED = true → exec .cmSeedDraw s = .next (u.wr F.SCREE_STAT_CM_STALE 1)) ∧
      (u.flag F.SCREE_STAT_FAILED = false → (u.drbg 0).live = true →
        exec .cmSeedDraw s = .next ((List.range 12).foldl (fun s _ => s.cmSeed) { u with scree.cm := [], scree.cmAt := u.now })))
  ∧ -- MASSIF_JOB_START (R323)
    (∀ (s a b : State) (c : Nat) (agree : Bool) (j : MJob) (rest : List MJob), s.mrunning c = none → s.mqueue c = j :: rest →
      (c = cLONG → s.mrunning cSHORT = none) →
      a = (s.setMQueue c rest).enterPart c j →
      b = (if c = cSHORT ∧ (a.mrunning cLONG).isSome then { a with massif.yielded := true } else a) → ∀ (st : Option Nat) (u : State), b.massifGate j agree = (st, u) →
      exec (.massifJobStart c agree) s = .next (u.setMRunning c (some { j with
        status := st, key := (if j.keyref = 0 then [] else u.mbytes j.keyref), key2 := if j.op = 0x41 then u.mbytes j.dkey else [] })).settle)
  ∧ -- LONG_JOB_RESUME (R323)
    (∀ s : State, s.massif.yielded = true → (s.mqueue cSHORT).isEmpty = true → s.mrunning cSHORT = none →
      exec .longJobResume s = .next (State.massifShow { s with massif.yielded := false }))
  ∧ -- MASSIF_JOB_DONE (R319)
    (∀ (s : State) (c st : Nat) (j : MJob), s.mrunning c = some j → j.status = some st →
      exec (.massifJobDone c) s = .next ((s.setMRunning c none).massifEnd j st j.valid))
  ∧ -- MASSIF_CNT_CLEAR (R321)
    (∀ (s : State) (m : Nat) (w : Word), s.mayWrite m A.MASSIF_CNT = true →
      exec (.massifCntClear m w) s = .next (s.setReg A.MASSIF_CNT 0).settle)
  ∧ -- SCREE_INST (R327)
    (∀ (s : State) (m : Nat), s.mayWrite m A.SCREE_CTRL = true →
      exec (.screeInst m) s = .next ((s.wr F.SCREE_STAT_INSTANTIATED 1).takeSeed 1 true).settle)
  ∧ -- SCREE_RESEED (R326)
    (∀ (s : State) (m : Nat), s.mayWrite m A.SCREE_CTRL = true → s.flag F.SCREE_STAT_FAILED = false →
      exec (.screeReseed m) s = .next ((s.seedInstance 0).seedInstance 1).settle)
  ∧ -- SCREE_CLR_CNT (R325)
    (∀ (s : State) (m : Nat), s.mayWrite m A.SCREE_CTRL = true → exec (.screeClrCnt m) s = .next (s.setReg A.SCREE_CNT 0).settle)
  ∧ -- SCREE_STARTUP_DONE (R325)
    (∀ (s u : State) (k : Nat), s.live? = true → s.scree.starting.contains k = true →
      u = State.screeJudge (State.setSource { s with scree.starting := s.scree.starting.filter (· != k) } k true) →
      exec (.screeStartupDone k) s = .next (State.settle (if !(u.drbg 0).live && decide (u.rd F.SCREE_HEALTH_MIN_SRC ≤ u.healthyCount) && !u.flag F.SCREE_STAT_FAILED then u.seedInstance 0 else u)))
  ∧ -- SOURCE_HEALTH_FAIL (R325)
    (∀ (s a b : State) (k n : Nat) (apt : Bool), s.live? = true → s.sourceIdle k = false →
      n = look (fun _ => 0) s.scree.fails k + 1 →
      a = { s with scree.fails := put (fun _ => 0) s.scree.fails k n, scree.starting := s.scree.starting.filter (· != k) } →
      b = ((a.setSource k false).sat (if apt then F.SCREE_CNT_APT_FAIL else F.SCREE_CNT_RCT_FAIL)).irq 128 →
      exec (.sourceHealthFail k apt) s = .next (State.screeJudge (if 3 ≤ n then (b.wr ⟨A.SCREE_STAT, 8 + k % 8, 8 + k % 8⟩ 1).disarm (.screeRetest k)
        else b.arm (.screeRetest k) retestTicks)).settle)
  ∧ -- SOURCE_RETEST (R325)
    (∀ (s : State) (k : Nat), s.armed (.screeRetest k) = true →
      exec (.sourceRetest k) s = .next ((s.elapsed (.screeRetest k)).setSource k true).screeJudge.settle)
  ∧ -- DRBG_RESEED (R326)
    (∀ (s u : State) (i : Nat), s.live? = true →
      u = (if (i == 1 && decide (2 ^ s.rd F.SCREE_DRBG_RESEED_REQ ≤ s.scree.requests)) = true then s
        else s.reachST (look (fun _ => 0) s.scree.seeded i + s.reseedTicks i)) → u.flag F.SCREE_STAT_FAILED = false →
      exec (.drbgReseed i) s = .next (u.seedInstance i))
  ∧ -- SCREE_RAND_READ (R326)
    (∀ (s u : State) (m : Nat) (b : List Byte), s.mayRead m A.SCREE_RAND = true → s.entropyOk = true → s.drbgServe 4 false = (b, u) →
      exec (.screeRandRead m) s = .next (State.settle { u with rdata := BitVec.ofNat 64 (BitVec.ofNat 32 (leNat b)).toNat }))
  ∧ -- SCREE_TEST_DATA (R328)
    (∀ (s u : State) (m : Nat) (w : Word), s.mayWrite m A.SCREE_TEST_DATA = true → s.flag F.SCREE_TEST_EN = true →
      u = State.testHealth { s with scree.test := s.scree.test ++ [w] } w →
      (u.scree.owed = [] → exec (.screeTestData m w) s = .next u.settle) ∧
      (∀ (i : Nat) (anew : Bool) (rest : List (Nat × Bool)), u.scree.owed = (i, anew) :: rest →
        exec (.screeTestData m w) s = .next (State.settle (if u.scree.test.length < 18 then u else u.takeSeed i anew))))

/-- Completion of the Curtain source, zeroing and unlock commands and of the Refuge commands: a source asserts and clears, zeroing ends, an unlock body is judged and a block expires, loops, supply and cell of the Refuge change, its clock is set, its log is marked, and exec answers exactly that state. Derived from spec/13_safety_curtain_and_refuge.md.
The clauses name shared operations of the model; where those rest on choices of the model, see log 81, 82, 83, 84, 85, 86, 87, 88, 89, 125. -/
def Obligations.CurtainAndRefugeCommands : Prop :=
  -- CURTAIN_SOURCE_ASSERT (R336)
    (∀ (s : State) (id : Nat), 1 ≤ id → id < 14 → ¬(id = 6 ∧ s.boot.held = true) →
      exec (.curtainSourceAssert id) s = .next (s.curtainAssert id))
  ∧ -- CURTAIN_SOURCE_CLEARS (R333)
    (∀ (s : State) (id : Nat), exec (.curtainSourceClears id) s = .next (s.wr ⟨A.CURTAIN_STAT, id, id⟩ 0))
  ∧ -- CURTAIN_ZERO_DONE (R336)
    (∀ (s u v : State) (c : CurEntry), s.armed .curtainZero = true → u = s.elapsed .curtainZero → u.curtain = some c →
      v = State.postU (State.irq { u with curtain := none } 134) (0xB000 + c.cause) 7 [c.cause, b2n c.z] →
      exec .curtainZeroDone s = .next (if c.withheld then v.postU 0xB103 6 [] else v))
  ∧ -- JUNCTION_TEMP_WARN (R333)
    (∀ (s : State) (hot : Bool), s.live? = true →
      exec (.junctionTempWarn hot) s = .next ((s.wr (if hot then F.CURTAIN_WARN_HOT else F.CURTAIN_WARN_COLD) 1).irq 137))
  ∧ -- CURTAIN_CFG_WRITE (R334)
    (∀ (s : State) (m : Nat) (w : Word), s.mayWrite m A.CURTAIN_CFG = true → s.flag F.CURTAIN_CFG_LOCKED = false →
      exec (.curtainCfgWrite m w) s = .next ((s.wr F.CURTAIN_CFG_CLASS ((getBits w 15 0 ||| 0xC01E) / 2 * 2)).wr F.CURTAIN_CFG_LOCKED 1).settle)
  ∧ -- UNLOCK_BODY_CHECK (R340)
    (∀ (s : State) (body : List Byte) (agree : Bool), s.mode = .curtain → s.unlockReason body = none →
      exec (.unlockBodyCheck body agree) s = .next (State.settle (if agree then s.unlockAccept body else s.dtDisagree.unlockRefuse ulTWICE)))
  ∧ -- UNLOCK_BLOCK_EXPIRY (R341)
    (∀ s : State, s.armed .unlockBlock = true →
      exec .unlockBlockExpiry s = .next ((s.elapsed .unlockBlock).wr F.CURTAIN_STAT_UNLOCK_BLOCKED 0))
  ∧ -- DTAKE_CNT_CLEAR (R347)
    (∀ (s : State) (m : Nat) (w : Word), s.mayWrite m A.DTAKE_CNT_A = true →
      exec (.dtakeCntClear m w) s = .next (s.setReg A.DTAKE_CNT_A 0).settle)
  ∧ -- REFUGE_LOOP_CHECK (R349)
    (∀ (s a b c : State) (l0 l1 mesh : Bool) (pos : Word) (vbat : Nat), a = s.refugeSee 0x21 (s.flag F.REFUGE_CFG_LOOP0_EN && l0) pos →
      b = a.refugeSee 0x22 (a.flag F.REFUGE_CFG_LOOP1_EN && l1) pos → c = b.refugeSee 0x23 mesh pos →
      exec (.refugeLoopCheck l0 l1 mesh pos vbat) s = .next (c.refugeSee 0x24 (decide (vbat < 2200)) (BitVec.ofNat 32 vbat)))
  ∧ -- REFUGE_SUPPLY_SWITCH (R348)
    (∀ s : State, exec .refugeSupplySwitch s = .next { s with refuge.onCell := !s.power })
  ∧ -- CELL_REMOVED (R351)
    (∀ (s : State) (mv : Nat), (s.power = true → exec (.cellRemoved mv) s = .next (((s.cellLevel 0).logEntry 0x30 (BitVec.ofNat 32 mv)).irq 141)) ∧
      (s.power = false → exec (.cellRemoved mv) s = .next s.refugeLose))
  ∧ -- CELL_INSERTED (R351)
    (∀ (s : State) (mv : Nat), exec (.cellInserted mv) s =
      .next (if (s.cellLevel mv).power then ((s.cellLevel mv).logEntry 0x31 (BitVec.ofNat 32 mv)).irq 141 else s.cellLevel mv))
  ∧ -- VBAT_LOW (R351)
    (∀ (s : State) (mv : Nat), mv < 2600 → exec (.vbatLow mv) s = .next (if (s.cellLevel mv).power then
        ((((s.cellLevel mv).wr F.CURTAIN_WARN_VBAT_LOW 1).irq 137).irq 140).logEntry 0x34 (BitVec.ofNat 32 mv) else s.cellLevel mv))
  ∧ -- REFUGE_RTC_SET (R351)
    (∀ (s : State) (m : Nat) (w : Word), s.mayWrite m A.REFUGE_RTC_SET = true → exec (.refugeRtcSet m w) s =
      .next (State.irq (State.logFree { s.wr F.REFUGE_STAT_RTC_OK 1 with refuge.rtc := w.toNat * 32768, refuge.rtcAt := s.now } 0x32) 143).settle)
  ∧ -- REFUGE_LOOP_ENABLE (R349)
    (∀ (s : State) (m : Nat) (w : Word), s.mayWrite m A.REFUGE_CFG = true → exec (.refugeLoopEnable m w) s =
      .next (s.setReg A.REFUGE_CFG (s.reg A.REFUGE_CFG ||| (w &&& 0xC0000000#32))).settle)
  ∧ -- LOG_MARK_COPIED (R351)
    (∀ (s : State) (m i : Nat), i < 16 → s.mayWrite m A.REFUGE_LOG_SEL = true →
      exec (.logMarkCopied m i) s = .next ((s.setReg A.REFUGE_LOG_SEL (BitVec.ofNat 32 (2 ^ 31 + i))).markCopied i).settle)
  ∧ -- REFUGE_POWER_LOSS (R352)
    (∀ s : State, s.power = false → ∀ u : State,
      u = (((((s.cellLevel 0).zeroShare.wr F.REFUGE_STAT_LATCH 0).wr F.REFUGE_STAT_RTC_OK 0).wr F.REFUGE_STAT_LOST 1).wr F.REFUGE_STAT_TOTAL 0).setReg A.REFUGE_CFG 0 →
      exec .refugePowerLoss s = .next (State.logShow { u with
        refuge := Refuge.mk none [] 0 u.now [] false true u.refuge.onCell }))

/-- Completion of the Bedrock unlock, program, erase, inspect, refresh, patrol and counter commands: a command page is armed and expires, commands are accepted, start and end, an erase resumes, the patrol reads and its FIFO is popped, counters clear, and exec answers exactly that state. Derived from spec/14_bedrock_flash.md.
The clauses name shared operations of the model; where those rest on choices of the model, see log 76, 77, 123, 125. -/
def Obligations.BedrockCommands : Prop :=
  -- BRK_UNLOCK (R360)
    (∀ (s : State) (m n : Nat) (w : Word), n < 9 → s.mayWrite m (A.BRK_UNLOCK n) = true →
      (w = 0xA5F0#32 → exec (.brkUnlock m n w) s = .next ((s.setArmed n 1).disarm (.brkArm n)).settle) ∧
      (w = 0xF5A#32 → s.brkArmed n = 1 → exec (.brkUnlock m n w) s = .next ((s.setArmed n 2).arm (.brkArm n) ticksPerMs).settle) ∧
      (w ≠ 0xA5F0#32 → ¬(w = 0xF5A#32 ∧ s.brkArmed n = 1) → exec (.brkUnlock m n w) s = .next ((s.setArmed n 0).disarm (.brkArm n)).settle))
  ∧ -- UNLOCK_ARM_EXPIRY (R360)
    (∀ (s : State) (n : Nat), s.armed (.brkArm n) = true →
      exec (.unlockArmExpiry n) s = .next (((s.elapsed (.brkArm n)).setArmed n 0).disarm (.brkArm n)))
  ∧ -- PROGRAM (R361)
    (∀ (s u v w : State) (m n : Nat) (a src : Word), n < 9 → s.mayWrite m (A.BRK_ADDR n) = true → u = ((s.brkTouch n).setReg (A.BRK_ADDR n) a).settle →
      u.mayWrite m (A.BRK_SRC n) = true → v = ((u.brkTouch n).setReg (A.BRK_SRC n) src).settle →
      v.mayWrite m (A.BRK_CMD n) = true → v.brkArmed n = 2 → w = { v.brkDisarm n with brk.cmds := (v.brkDisarm n).brk.cmds.map fun (c : BrkCmd) => if c.page = some n then { c with page := none } else c } →
      w.brkCheck m 1 (w.reg (A.BRK_ADDR n)).toNat = scACCEPTED → exec (.program m n a src) s = .next (w.brkAccept (BrkCmd.mk m (some n) 1
        (bedBank (w.reg (A.BRK_ADDR n)).toNat) (w.reg (A.BRK_ADDR n)).toNat ((w.reg (A.BRK_SRC n)).toNat / 8 * 8) none false)).settle)
  ∧ -- PROGRAM_SAFE (R361)
    (∀ (s u v w : State) (m n : Nat) (a src : Word), n < 9 → s.mayWrite m (A.BRK_ADDR n) = true → u = ((s.brkTouch n).setReg (A.BRK_ADDR n) a).settle →
      u.mayWrite m (A.BRK_SRC n) = true → v = ((u.brkTouch n).setReg (A.BRK_SRC n) src).settle →
      v.mayWrite m (A.BRK_CMD n) = true → v.brkArmed n = 2 → w = { v.brkDisarm n with brk.cmds := (v.brkDisarm n).brk.cmds.map fun (c : BrkCmd) => if c.page = some n then { c with page := none } else c } →
      w.brkCheck m 2 (w.reg (A.BRK_ADDR n)).toNat = scACCEPTED → exec (.programSafe m n a src) s = .next (w.brkAccept (BrkCmd.mk m (some n) 2
        (bedBank (w.reg (A.BRK_ADDR n)).toNat) (w.reg (A.BRK_ADDR n)).toNat ((w.reg (A.BRK_SRC n)).toNat / 8 * 8) none false)).settle)
  ∧ -- ERASE (R361)
    (∀ (s u v w : State) (m n : Nat) (a : Word), n < 9 → s.mayWrite m (A.BRK_ADDR n) = true → u = ((s.brkTouch n).setReg (A.BRK_ADDR n) a).settle →
      v = u →
      v.mayWrite m (A.BRK_CMD n) = true → v.brkArmed n = 2 → w = { v.brkDisarm n with brk.cmds := (v.brkDisarm n).brk.cmds.map fun (c : BrkCmd) => if c.page = some n then { c with page := none } else c } →
      w.brkCheck m 3 (w.reg (A.BRK_ADDR n)).toNat = scACCEPTED → exec (.erase m n a) s = .next (w.brkAccept (BrkCmd.mk m (some n) 3
        (bedBank (w.reg (A.BRK_ADDR n)).toNat) (w.reg (A.BRK_ADDR n)).toNat ((w.reg (A.BRK_SRC n)).toNat / 8 * 8) none false)).settle)
  ∧ -- INSPECT (R361)
    (∀ (s u v w : State) (m n : Nat) (a : Word), n < 9 → s.mayWrite m (A.BRK_ADDR n) = true → u = ((s.brkTouch n).setReg (A.BRK_ADDR n) a).settle →
      v = u →
      v.mayWrite m (A.BRK_CMD n) = true → v.brkArmed n = 2 → w = { v.brkDisarm n with brk.cmds := (v.brkDisarm n).brk.cmds.map fun (c : BrkCmd) => if c.page = some n then { c with page := none } else c } →
      w.brkCheck m 4 (w.reg (A.BRK_ADDR n)).toNat = scACCEPTED → exec (.inspect m n a) s = .next (w.brkAccept (BrkCmd.mk m (some n) 4
        (bedBank (w.reg (A.BRK_ADDR n)).toNat) (w.reg (A.BRK_ADDR n)).toNat ((w.reg (A.BRK_SRC n)).toNat / 8 * 8) none false)).settle)
  ∧ -- REFRESH (R369)
    (∀ (s u v w : State) (m n : Nat) (a : Word), n < 9 → s.mayWrite m (A.BRK_ADDR n) = true → u = ((s.brkTouch n).setReg (A.BRK_ADDR n) a).settle →
      v = u →
      v.mayWrite m (A.BRK_CMD n) = true → v.brkArmed n = 2 → w = { v.brkDisarm n with brk.cmds := (v.brkDisarm n).brk.cmds.map fun (c : BrkCmd) => if c.page = some n then { c with page := none } else c } →
      w.brkCheck m 5 (w.reg (A.BRK_ADDR n)).toNat = scACCEPTED → exec (.refresh m n a) s = .next (w.brkAccept (BrkCmd.mk m (some n) 5
        (bedBank (w.reg (A.BRK_ADDR n)).toNat) (w.reg (A.BRK_ADDR n)).toNat ((w.reg (A.BRK_SRC n)).toNat / 8 * 8) none false)).settle)
  ∧ -- BEDROCK_CMD_START (R364)
    (∀ (s : State) (c : BrkCmd), (s.brk.cmds.find? fun c => !c.started) = some c → s.brkBusy < 2 →
      exec .bedrockCmdStart s = .next (s.brkBegin c))
  ∧ -- BEDROCK_CMD_DONE (R362)
    (∀ (s r u v : State) (b st : Nat) (ok : Bool) (c : BrkCmd), s.brkRunning b = some c →
      r = (if s.armed (.brkResume b) then (s.elapsed (.brkResume b)).brkResume b else s) → r.brkEffect c ok = (st, u) →
      v = (if c.op = opINSPECT ∨ !codeBank (bedBank c.addr) then u else u.icacheDrop c.addr (brkSpan c.op (bedBank c.addr))).brkEnd c st →
      exec (.bedrockCmdDone b ok) s = .next (if c.master = 18 then v.archDone (v.rd (F.BRK_STATUS_RESULT b)) else v))
  ∧ -- ERASE_RESUME (R365)
    (∀ (s : State) (b : Nat), s.armed (.brkResume b) = true →
      exec (.eraseResume b) s = .next ((s.elapsed (.brkResume b)).wr (F.BRK_STATUS_SUSPENDED b) 0))
  ∧ -- PATROL_READ (R368)
    (∀ (s x u v w : State) (b blk bits k n : Nat) (pass : Bool), s.flag F.BRK_CFG_PATROL_EN = true → s.mode ≠ .curtain → s.brkRunning b = none →
      k = s.knownBits (bedBase b + blk * blockLen b) → n = max k bits → x = (if k < bits then s.spotLine (bedBase b + blk * blockLen b) bits else s) →
      u = (if n = 15 then ((x.sat F.BRK_ECC_UE).irq 147).post 0xC001 6 23 [bedBase b + blk * blockLen b] else if n = 0 then x else x.sat F.BRK_ECC_CE) →
      v = (if max 1 (u.rd (if codeBank b then F.BRK_CFG_REFRESH_CODE else F.BRK_CFG_REFRESH_DATA)) ≤ n then
        State.irq (if u.brk.patrol.length < 16 then { u with brk.patrol := u.brk.patrol ++ [(b, blk, n)] } else { u with brk.patrolOvf := true }) 148 else u) →
      w = v.reachST (look (fun _ => 0) v.brk.passAt b + v.passTicks b) →
      exec (.patrolRead b blk bits pass) s = .next (if pass then State.irq { w with brk.passAt := put (fun _ => 0) w.brk.passAt b w.now } 149 else v))
  ∧ -- PATROL_POP (R368)
    (∀ (s : State) (m : Nat), s.mayRead m A.BRK_PATROL_POP = true →
      (s.brk.patrol = [] → exec (.patrolPop m) s = .next (State.settle { s with rdata := 0 })) ∧
      (∀ (b blk bits : Nat) (rest : List (Nat × Nat × Nat)), s.brk.patrol = (b, blk, bits) :: rest → exec (.patrolPop m) s = .next (State.settle { s with
        brk.patrol := rest, brk.patrolOvf := false,
        rdata := BitVec.ofNat 64 (BitVec.ofNat 32 (2 ^ 31 + b2n s.brk.patrolOvf * 2 ^ 30 + b * 2 ^ 24 + blk * 2 ^ 16 + bits)).toNat })))
  ∧ -- BRK_ECC_CLEAR (R356)
    (∀ (s : State) (m : Nat) (w : Word), s.mayWrite m A.BRK_ECC = true →
      exec (.brkEccClear m w) s = .next (s.setReg A.BRK_ECC 0).settle)

/-- Completion of the host port transfers, command execution and session time-out commands: packets are written and replies read, the status word is read, a waiting command starts and an accepted one ends, sessions expire, counters clear, and exec answers exactly that state. Derived from spec/15_command_packets.md.
The clauses name shared operations of the model; where those rest on choices of the model, see log 93, 94, 95, 96, 125. -/
def Obligations.HostLinkCommands : Prop :=
  -- READ_STATUS (R376)
    (∀ s : State, s.hostOn = true → exec .readStatus s = .next { s.send chanHost 0x05 (beBytes 4 s.hostStatus.toNat) with
      rdata := zext32 s.hostStatus, desk.err := false })
  ∧ -- WRITE (R377)
    (∀ (s : State) (p : List Byte), s.live? = true → s.boot.auxLost = false → s.rxReady = true → 16 ≤ p.length → byteAt p 0 = 1 →
      (p.length ≠ 16 + beAt p 6 2 + 16 * b2n (bit (byteAt p 1) 6) → exec (.write p) s = .next (s.hostErr.packet false p 0)) ∧
      (p.length = 16 + beAt p 6 2 + 16 * b2n (bit (byteAt p 1) 6) →
        exec (.write p) s = .next (((s.wrap F.HOST_CNT_PACKETS).irq 172).packet false p p.length)))
  ∧ -- QWRITE (R377)
    (∀ (s : State) (p : List Byte), s.live? = true → s.boot.auxLost = false → s.flag F.HOST_CFG_QUAD_EN = true → s.rxReady = true → 16 ≤ p.length →
      byteAt p 0 = 1 → (p.length ≠ 16 + beAt p 6 2 + 16 * b2n (bit (byteAt p 1) 6) → exec (.qwrite p) s = .next (s.hostErr.packet false p 0)) ∧
      (p.length = 16 + beAt p 6 2 + 16 * b2n (bit (byteAt p 1) 6) →
        exec (.qwrite p) s = .next (((s.wrap F.HOST_CNT_PACKETS).irq 172).packet false p p.length)))
  ∧ -- READ (R377)
    (∀ (s : State) (n : Nat), s.hostOn = true → s.desk.out = [] → exec (.read n) s = .next (s.send chanHost 0x03 (List.replicate n 0#8)))
  ∧ -- READ (R377)
    (∀ (s u v : State) (n : Nat) (b : List Byte) (t : List (List Byte)), s.hostOn = true → s.desk.out = b :: t →
      u = s.send chanHost 0x03 (padTo n b) → v = State.fillOut { u with desk.out := t } → (n < b.length → exec (.read n) s = .next u) ∧
      (b.length ≤ n → exec (.read n) s = .next (if 16384 ≤ outFill u.desk.out ∧ outFill v.desk.out < 16384 then v.irq 173 else v)))
  ∧ -- QREAD (R377)
    (∀ (s : State) (n : Nat), s.hostOn = true → s.flag F.HOST_CFG_QUAD_EN = true → s.desk.out = [] →
      exec (.qread n) s = .next (s.send chanHost 0x6B (List.replicate n 0#8)))
  ∧ -- QREAD (R377)
    (∀ (s u v : State) (n : Nat) (b : List Byte) (t : List (List Byte)), s.hostOn = true → s.flag F.HOST_CFG_QUAD_EN = true → s.desk.out = b :: t →
      u = s.send chanHost 0x6B (padTo n b) → v = State.fillOut { u with desk.out := t } → (n < b.length → exec (.qread n) s = .next u) ∧
      (b.length ≤ n → exec (.qread n) s = .next (if 16384 ≤ outFill u.desk.out ∧ outFill v.desk.out < 16384 then v.irq 173 else v)))
  ∧ -- HOST_CNT_CLEAR (R377)
    (∀ (s : State) (m : Nat) (w : Word), s.mayWrite m A.HOST_CNT = true →
      exec (.hostCntClear m w) s = .next (s.setReg A.HOST_CNT 0).settle)
  ∧ -- COMMAND_EXEC_START (R375)
    (∀ (s : State) (g i st : Nat) (c : Cmd) (x : Option Sess), s.svcWaits = false → (s.desk.cmds.any fun c => opGroup c.op == g && c.phase == 1) = false →
      ((List.range s.desk.cmds.length).find? fun i => s.desk.cmds[i]?.any fun c => opGroup c.op == g && c.phase == 0) = some i → s.desk.cmds[i]? = some c →
      x = (if c.sess < 8 then s.sess c.sess else none) →
      st = ((opFind c.op).map fun r => if !s.rightsOk r x then scDENIED else if !s.modeOk r c.body then scWRONG_MODE else scOK).getD scBAD_OPCODE →
      (st ≠ scOK → exec (.commandExecStart g) s = .next ((s.dropCmd i).answer c st [])) ∧
      (st = scOK → exec (.commandExecStart g) s = .next { s with desk.cmds := setNth s.desk.cmds i { c with phase := 1, size := 0 } }))
  ∧ -- COMMAND_FINAL_REPLY (R374)
    (∀ (s u : State) (i : Nat) (ok agree : Bool) (c : Cmd) (r : Ans), s.desk.cmds[i]? = some c → c.phase = 2 →
      (s.dropCmd i).finalOf c ok agree = some (r, u) → exec (.commandFinalReply i ok agree) s = .next (u.conclude i c r).settle)
  ∧ -- SESSION_PENDING_TIMEOUT (R380)
    (∀ (s u : State) (n : Nat) (x : Sess), s.armed (.sessPending n) = true → (s.elapsed (.sessPending n)).sess n = some x →
      u = (((s.elapsed (.sessPending n)).setSess n none).disarm (.sessPending n)).disarm (.sessIdle n) → exec (.sessionPendingTimeout n) s = .next { u with
        desk.cmds := (u.desk.cmds.filter fun c => !(c.sess == n && c.phase == 0)).map fun c => if c.sess = n then { c with mute := true } else c })
  ∧ -- SESSION_IDLE_TIMEOUT (R382)
    (∀ (s u : State) (n : Nat) (x : Sess), s.armed (.sessIdle n) = true → (s.elapsed (.sessIdle n)).sess n = some x →
      u = (((s.elapsed (.sessIdle n)).setSess n none).disarm (.sessPending n)).disarm (.sessIdle n) → exec (.sessionIdleTimeout n) s = .next { u with
        desk.cmds := (u.desk.cmds.filter fun c => !(c.sess == n && c.phase == 0)).map fun c => if c.sess = n then { c with mute := true } else c })

/-- Completion of the Stage Manager service requests: the request at the head of the service queues is served and its reply is placed, and exec answers exactly that state. Derived from spec/15_command_packets.md.
The clauses name shared operations of the model; where those rest on choices of the model, see log 103, 106, 107, 125. -/
def Obligations.ServiceCommands : Prop :=
  -- NOTE (R394)
    (∀ (s u : State) (r : SvcReq) (b : List Byte), s.svcHead = some r → r.svc = 1 → r.origin ≠ 8 → r.inLen ≤ 16 → s.svcIn r = (some b, u) →
      exec .note s = .next ((u.post (0xE000 + leAt r.args 0 2 % 4096) (min 5 (byteAt r.args 2 % 8)) r.origin
        ((List.range 4).map fun k => leAt (padTo 16 b) (4 * k) 4)).svcDone r scOK 0))
  ∧ -- SIGN (R394)
    (∀ (s u : State) (r : SvcReq) (b : List Byte), s.svcHead = some r → r.svc = 2 → r.origin ≠ 8 → r.inLen ≤ 65536 → s.svcIn r = (some b, u) →
      ∀ (st len : Nat) (v : State), ((match s.customerKey r.key with
        | none => ((scDENIED, 0), s)
        | some k => u.next.svcOut r (Config.customerSign k b u.draw)) : (Nat × Nat) × State) = ((st, len), v) →
      exec .sign s = .next (v.svcDone r st len))
  ∧ -- VERIFY (R394)
    (∀ (s u : State) (r : SvcReq) (b : List Byte) (agree : Bool), s.svcHead = some r → r.svc = 3 → r.origin ≠ 8 → s.svcIn r = (some b, u) →
      exec (.verify agree) s = .next (State.settle ((u.twice agree).2.svcDone r (if agree && Config.listedVerifies u.cfg r.key b then scOK else scVERIFY_FAIL) 0)))
  ∧ -- STORE (R394)
    (∀ (s u : State) (r : SvcReq) (b : List Byte), s.svcHead = some r → r.svc = 4 → r.origin ≠ 8 → s.svcIn r = (some b, u) →
      (exec (.store false) s = .next (u.svcDone r scSTORAGE_FAIL 0)) ∧
      (∀ g : Nat, g = ((fileOf u.desk.files (Config.actFile (r.args.take 16))).map fun f => f.gen + 1).getD 1 → exec (.store true) s = .next (State.svcDone { u with
        desk.files := (u.desk.files.filter fun f => f.name != Config.actFile (r.args.take 16)) ++ [VFile.mk (Config.actFile (r.args.take 16)) g b true] } r scOK 0)))
  ∧ -- LOAD (R394)
    (∀ (s : State) (r : SvcReq) (f : VFile), s.svcHead = some r → r.svc = 5 → r.origin ≠ 8 → fileOf s.desk.files (Config.actFile (r.args.take 16)) = some f →
      ∀ (st len : Nat) (u : State), s.svcOut r f.data = ((st, len), u) → exec .load s = .next (u.svcDone r st len))
  ∧ -- FEED (R394)
    (∀ (s : State) (r : SvcReq), s.svcHead = some r → r.svc = 0x8001 → r.origin = 8 →
      exec .feed s = .next ((s.put8 A.UNDERSTUDY_CTRL 0x80000000#32).svcDone r scOK 0))
  ∧ -- PATROL (R394)
    (∀ (s : State) (r : SvcReq), s.svcHead = some r → r.svc = 0x8002 → r.origin = 8 →
      (s.brk.patrol = [] → exec .patrol s = .next (s.svcDone r scOK 0)) ∧
      (∀ (b blk bits : Nat) (rest : List (Nat × Nat × Nat)), s.brk.patrol = (b, blk, bits) :: rest → ∀ (st : Nat) (u : State),
        (s.patrolPop.2).brkIssue 8 opREFRESH (bedBase b + blk * blockLen b) [] = (st, u) →
        exec .patrol s = .next (u.svcDone r (if st = scACCEPTED then scOK else st) 0)))
  ∧ -- RTC_SYNC (R394)
    (∀ (s : State) (r : SvcReq), s.svcHead = some r → r.svc = 0x8003 → r.origin = 8 →
      (s.unsynced = true → exec .rtcSync s = .next (s.svcDone r scBUSY 0)) ∧
      (s.unsynced = false → exec .rtcSync s = .next ((s.put8 A.REFUGE_RTC_SET s.seconds).svcDone r scOK 0)))

/-- Completion of the Prompt Book ring, limiter, archive and read-page commands: a record enters the ring, a limiter window ends, a pair is archived, a read page latches and moves on, the ring and the drop counters clear, and exec answers exactly that state. Derived from spec/17_prompt_book_and_observation.md.
The clauses name shared operations of the model; where those rest on choices of the model, see log 53, 78, 79, 80, 125. -/
def Obligations.PromptBookCommands : Prop :=
  -- RECORD_ENTER_RING (R414)
    (∀ (s : State) (r : Rec) (t : List Rec), s.book.inFifo = r :: t →
      exec .recordEnterRing s = .next (State.limPass { s with book.inFifo := t } r))
  ∧ -- LIMIT_WINDOW_END (R418)
    (∀ (s : State) (code src : Nat) (k : LimKey), s.limKey code src = some k →
      exec (.limitWindowEnd code src) s = .next ((s.reachST k.stop).limEnd k))
  ∧ -- ARCHIVE_PAIR (R423)
    (∀ s : State, s.book.archJob = 0 → (s.brk.cmds.any fun c => c.bank == 4) = false →
      (∀ (b : Nat) (rest : List Nat), s.book.toClear = b :: rest → exec .archivePair s = .next (s.archIssue 3 opERASE (pairAddr (16 * b)) [] [b])) ∧
      (s.book.toClear = [] → s.flag F.PBOOK_CFG_ARCH_EN = true → s.pairDue = true → s.rd F.PBOOK_ARCH_PAIR = 0 → s.book.nextErased = false →
        exec .archivePair s = .next (s.archIssue 1 opERASE (pairAddr (16 * s.nextBlock)) [] [s.nextBlock])) ∧
      (s.book.toClear = [] → s.flag F.PBOOK_CFG_ARCH_EN = true → s.pairDue = true → ¬(s.rd F.PBOOK_ARCH_PAIR = 0 ∧ s.book.nextErased = false) → ∀ rs : List Rec,
        rs = ((s.book.ring.filter fun x => !x.2).map (·.1)).take 128 → exec .archivePair s =
          .next (s.archIssue 2 opSAFE (pairAddr s.archAt) ((rs ++ List.replicate (128 - rs.length) fillerRec).flatMap Rec.bytes) (rs.map (·.seq.toNat)))))
  ∧ -- REC_LATCH_READ (R420)
    (∀ (s : State) (m r : Nat), r < 4 → s.mayRead m (A.PBOOK_REC r 0) = true →
      exec (.recLatchRead m r) s = .next (State.settle { s.recLatch r with rdata := BitVec.ofNat 64 ((s.recLatch r).recWord r 0).toNat }))
  ∧ -- REC_FINAL_READ (R420)
    (∀ (s : State) (m r : Nat), r < 4 → s.mayRead m (A.PBOOK_REC r 7) = true →
      exec (.recFinalRead m r) s = .next (State.settle { s.recNext r with rdata := BitVec.ofNat 64 (s.recWord r 7).toNat }))
  ∧ -- PBOOK_CLEAR (R422)
    (∀ (s v u : State) (upto : Word) (archive : Bool) (keep : List (Rec × Bool)), s.mayWrite 8 A.PBOOK_CLEAR_UPTO = true →
      v = (s.setReg A.PBOOK_CLEAR_UPTO upto).settle → v.mayWrite 8 A.PBOOK_CLEAR = true → v.reg A.PBOOK_CLEAR_UPTO = upto →
      keep = (v.book.ring.filter fun x => decide (upto.toNat < x.1.seq.toNat) || (!x.2 && decide (6 ≤ x.1.sev))) →
      u = { v with book.ring := keep, book.toClear := if archive then v.book.toClear ++ ((List.range 64).filter fun b => b != v.rd F.PBOOK_ARCH_BLOCK &&
        (!((List.range 16).flatMap fun p => v.pairSeqs (b * 16 + p)).isEmpty && ((List.range 16).flatMap fun p => v.pairSeqs (b * 16 + p)).all fun q => decide (q ≤ upto.toNat))).filter (!v.book.toClear.contains ·)
        else v.book.toClear } →
      exec (.pbookClear 8 upto archive) s = .next (u.bookShow.post 0x0002 3 18 [upto.toNat, v.book.ring.length - keep.length]).settle)
  ∧ -- PBOOK_DROP_CLEAR (R428)
    (∀ (s : State) (m k : Nat) (w : Word), k < 2 → s.mayWrite m (A.PBOOK_DROP_A + 4 * k) = true →
      exec (.pbookDropClear m k w) s = .next (s.setReg (A.PBOOK_DROP_A + 4 * k) 0).settle)

/-- Completion of the trace and observation counter commands: tracing is configured, trace packets leave, counters latch and clear, and exec answers exactly that state. Derived from spec/17_prompt_book_and_observation.md.
The clauses name shared operations of the model; where those rest on choices of the model, see log 53, 118, 125. -/
def Obligations.ObserveCommands : Prop :=
  -- TRACE_CFG_WRITE (R427)
    (∀ (s : State) (w new : Word), s.mayWrite 8 A.OBSERVE_TRACE_CFG = true →
      new = (if 8 < getBits w 11 8 then setBits (w &&& 0x80000F0F#32) 11 8 (s.rd F.OBSERVE_TRACE_CFG_CORE) else w &&& 0x80000F0F#32) →
      (s.reg A.OBSERVE_TRACE_CFG = new → exec (.traceCfgWrite 8 w) s = .next s.settle) ∧
      (s.reg A.OBSERVE_TRACE_CFG ≠ new → exec (.traceCfgWrite 8 w) s = .next (((s.setReg A.OBSERVE_TRACE_CFG new).post 0x0004 4 18 [new.toNat]).irq 210).settle))
  ∧ -- TRACE_PACKET_SEND (R426)
    (∀ (s u : State) (ty : Nat) (b : List Byte) (t : List (Nat × List Byte)), s.boot.auxLost = false → s.trace.items = (ty, b) :: t → s.mode ≠ .curtain →
      s.flag F.OBSERVE_TRACE_CFG_EN = true → u = { s.send chanTrace ty b with trace.items := t, trace.fill := s.trace.fill - (b.length + 1) } →
      (u.trace.overflow = 0 → exec .tracePacketSend s = .next u) ∧
      (u.trace.overflow ≠ 0 → exec .tracePacketSend s = .next { u with trace.items := u.trace.items ++ [(0xF, leBytes 8 (u.trace.overflow % 2 ^ 32))], trace.fill := u.trace.fill + 9, trace.overflow := 0 }))
  ∧ -- OBSERVE_CNT_SNAP (R428)
    (∀ (s : State) (m : Nat), s.mayWrite m A.OBSERVE_CNT_CTRL = true →
      exec (.observeCntSnap m) s = .next ((List.range 8).foldl (fun s k => s.setReg (A.OBSERVE_CNT k) (s.cntReg (A.OBSERVE_CNT k))) s).settle)
  ∧ -- OBSERVE_CNT_CLR (R428)
    (∀ (s : State) (m : Nat), s.mayWrite m A.OBSERVE_CNT_CTRL = true →
      exec (.observeCntClr m) s = .next ((List.range 8).foldl (fun s k => s.setCnt (A.OBSERVE_CNT k) 0) s).settle)
  ∧ -- TRACE_STAT_CLEAR (R426)
    (∀ (s : State) (m : Nat) (w : Word), s.mayWrite m A.OBSERVE_TRACE_STAT = true →
      exec (.traceStatClear m w) s = .next (s.wr F.OBSERVE_TRACE_STAT_LOST 0).settle)

/-- Completion of the cartridge port commands: cards come and go, are identified, read, written, asked for status and ejected, and an operation ends, and exec answers exactly that state. Derived from spec/19_cartridge_port.md.
The clauses name shared operations of the model; where those rest on choices of the model, see log 57, 58, 59, 125. -/
def Obligations.CartridgeCommands : Prop :=
  -- CARD_INSERT (R448)
    (∀ s : State, s.boot.auxLost = false → s.flag F.CART_CFG_EN = true →
      exec .cardInsert s = .next ((s.wr F.CART_STAT_PRESENT 1).cartClock.arm .cartIns (100 * ticksPerMs)))
  ∧ -- CARD_REMOVAL (R453)
    (∀ (s a b : State) (phase done : Nat), s.boot.auxLost = false → s.flag F.CART_CFG_EN = true →
      ((s.cart.op = none ∧ s.writingAt = none ∧ a = s) ∨ (s.cart.op = none ∧ ∃ lba, s.writingAt = some lba ∧
        a = if 2 ≤ phase then s.cartEnd 0 lba (if phase = 2 then ctNOT_DONE else if 3 ≤ phase then ctINDET else ctREMOVED) done else s) ∨ ∃ op card blocks lba buf, s.cart.op = some (op, card, blocks, lba, buf) ∧
        a = s.cartEnd card lba (if op = 2 ∧ phase = 2 then ctNOT_DONE else if op = 2 ∧ 3 ≤ phase then ctINDET else ctREMOVED) (min done blocks)) →
      b = (List.range 4).foldl (fun s c => s.setReg (A.CART_CARD c) 0) a → ∀ c : State,
      c = { (b.wr F.CART_STAT_PRESENT 0).wr F.CART_STAT_CLK_RUN 0 with cart := Cart.off } →
      exec (.cardRemoval phase done) s = .next ((if c.armed .cartIns then c.arm .cartIns (100 * ticksPerMs) else c).irq 181))
  ∧ -- IDENTIFY (R448)
    (∀ (s a b c d e : State) (cards : List Word) (extra byOp found : Bool) (count : Nat) (medium : List (Nat × List Byte)), s.boot.auxLost = false →
      s.mode ≠ .curtain → byOp = (s.cart.op.any fun o => o.1 == 0) → (s.armed .cartIns || byOp) = true → a = (if s.armed .cartIns then s.fire .cartIns id else s) →
      b = (List.range 4).foldl (fun s c => s.setReg (A.CART_CARD c) (s.cardWord cards c)) a → c = (b.identCmds extra).foldl (fun s c => s.cartIssue c.1 c.2) b →
      d = (if extra then c.wr F.CART_STAT_EXTRA 1 else c) → found = d.flag (F.CART_CARD_V 0) →
      e = { d with cart := { if found && !d.flag (F.CART_CARD_LOCKED 0) then mounted count medium else Cart.off with op := d.cart.op } } →
      ∀ u : State, u = (if byOp then e.cartEnd 0 0 (if found then ctDONE else ctNO_CARD) 0 else e) →
      exec (.identify cards extra count medium) s = .next (if found then (u.irq 181).cartClock else u))
  ∧ -- CART_READ (R449)
    (∀ (s a b c d : State) (m card blocks : Nat) (lba buf : Word), card < 4 → 1 ≤ blocks → blocks < 65536 → s.mayWrite m A.CART_LBA = true →
      a = (s.setReg A.CART_LBA lba).settle → a.mayWrite m A.CART_BUF = true → b = (a.setReg A.CART_BUF buf).settle → b.mayWrite m A.CART_XFER = true →
      c = b.setReg A.CART_XFER (setBits (BitVec.ofNat 32 (2 ^ 31 + 1 * 2 ^ 28 + card * 2 ^ 26 + blocks) &&& 0x7C00FFFF#32) 30 28 1) → c.mode ≠ .curtain → c.cart.op = none →
      d = c.wr F.CART_STAT_DONE_BLOCKS 0 → d.flag F.CART_CFG_EN = true → d.flag F.CART_STAT_PRESENT = true → d.flag (F.CART_CARD_V card) = true →
      d.flag (F.CART_CARD_LOCKED card) = false →
      exec (.cartRead m card blocks lba buf) s = .next (State.settle (State.cartClock (State.cartOpen { d.wr F.CART_STAT_BUSY 1 with
        cart.op := some (1, card, blocks, (c.reg A.CART_LBA).toNat, (c.reg A.CART_BUF).toNat / 8 * 8) } 1 card blocks (c.reg A.CART_LBA).toNat))))
  ∧ -- CART_WRITE (R450)
    (∀ (s a b c d : State) (m card blocks : Nat) (lba buf : Word), card < 4 → 1 ≤ blocks → blocks < 65536 → s.mayWrite m A.CART_LBA = true →
      a = (s.setReg A.CART_LBA lba).settle → a.mayWrite m A.CART_BUF = true → b = (a.setReg A.CART_BUF buf).settle → b.mayWrite m A.CART_XFER = true →
      c = b.setReg A.CART_XFER (setBits (BitVec.ofNat 32 (2 ^ 31 + 2 * 2 ^ 28 + card * 2 ^ 26 + blocks) &&& 0x7C00FFFF#32) 30 28 2) → c.mode ≠ .curtain → c.cart.op = none →
      d = c.wr F.CART_STAT_DONE_BLOCKS 0 → d.flag F.CART_CFG_EN = true → d.flag F.CART_STAT_PRESENT = true → d.flag (F.CART_CARD_V card) = true →
      d.flag (F.CART_CARD_LOCKED card) = false → d.flag (F.CART_CARD_PERM_WP card) = false → d.flag (F.CART_CARD_TMP_WP card) = false →
      exec (.cartWrite m card blocks lba buf) s = .next (State.settle (State.cartClock (State.cartOpen { d.wr F.CART_STAT_BUSY 1 with
        cart.op := some (2, card, blocks, (c.reg A.CART_LBA).toNat, (c.reg A.CART_BUF).toNat / 8 * 8) } 2 card blocks (c.reg A.CART_LBA).toNat))))
  ∧ -- CMD13_STATUS (R450)
    (∀ (s c d : State) (m card : Nat), card < 4 → s.mayWrite m A.CART_XFER = true →
      c = s.setReg A.CART_XFER (setBits (BitVec.ofNat 32 (2 ^ 31 + 3 * 2 ^ 28 + card * 2 ^ 26) &&& 0x7C00FFFF#32) 30 28 3) → c.mode ≠ .curtain → c.cart.op = none →
      d = c.wr F.CART_STAT_DONE_BLOCKS 0 → d.flag F.CART_CFG_EN = true → d.flag F.CART_STAT_PRESENT = true → d.flag (F.CART_CARD_V card) = true →
      d.flag (F.CART_CARD_LOCKED card) = false → exec (.cmd13Status m card) s = .next (State.settle (State.cartClock (State.cartOpen { d.wr F.CART_STAT_BUSY 1 with
        cart.op := some (3, card, 0, (c.reg A.CART_LBA).toNat, (c.reg A.CART_BUF).toNat / 8 * 8) } 3 card 0 (c.reg A.CART_LBA).toNat))))
  ∧ -- EJECT (R454)
    (∀ (s c d : State) (m : Nat), s.mayWrite m A.CART_XFER = true →
      c = s.setReg A.CART_XFER (setBits (BitVec.ofNat 32 (2 ^ 31 + 4 * 2 ^ 28) &&& 0x7C00FFFF#32) 30 28 4) → c.mode ≠ .curtain → c.cart.op = none →
      d = c.wr F.CART_STAT_DONE_BLOCKS 0 → d.flag F.CART_CFG_EN = true → d.flag F.CART_STAT_PRESENT = true →
      exec (.eject m) s = .next (State.settle (State.cartClock (State.cartOpen { d.wr F.CART_STAT_BUSY 1 with
        cart.op := some (4, 0, 0, (c.reg A.CART_LBA).toNat, (c.reg A.CART_BUF).toNat / 8 * 8) } 4 0 0 (c.reg A.CART_LBA).toNat))))
  ∧ -- CART_OP_DONE (R449)
    (∀ (s u w : State) (res done op card blocks lba buf : Nat) (data : List Byte) (bad : Bool), s.cart.op = some (op, card, blocks, lba, buf) →
      ((op = 1 ∧ ∃ r, s.dmaWrite 20 buf (data.take (512 * min done blocks)) = (r, u) ∧ bad = r.isSome) ∨
       (op = 2 ∧ ∃ b v, s.dmaRead 20 buf (512 * min done blocks) = (.ok b, v) ∧
         u = v.send chanCart lba (blockFrames (v.flag (F.CART_CARD_WIDE card)) (min done blocks) b) ∧ bad = false) ∨
       (op = 2 ∧ ∃ e, s.dmaRead 20 buf (512 * min done blocks) = (.error e, u) ∧ bad = true) ∨
       (op = 4 ∧ u = s.wr F.CART_STAT_CLK_RUN 0 ∧ bad = false) ∨ (op ≠ 1 ∧ op ≠ 2 ∧ op ≠ 4 ∧ u = s ∧ bad = false)) →
      w = u.cartClose op card blocks res →
      (bad = true → exec (.cartOpDone res done data) s = .next (w.next.cartEnd card lba (w.draw % 16) 0)) ∧
      (bad = false → ∀ v : State, v = w.cartEnd card lba res (min done blocks) → exec (.cartOpDone res done data) s =
        .next (if goneResult res = true ∧ v.rd (F.CART_CARD_TYPE card) = 3 then v.cardGone card else v)))

/-- Completion of the badge reader, detuning, field and supply commands: reader operations start and end, the carrier idles off, pings and the external field act, the status is read, and exec answers exactly that state. Derived from spec/18_badge_port.md.
The clauses name shared operations of the model; where those rest on choices of the model, see log 54, 125. -/
def Obligations.BadgeReaderCommands : Prop :=
  -- FIELD_ON (R433)
    (∀ (s a b c : State) (m : Nat), s.mayWrite m A.BADGE_RD_CTRL = true →
      a = s.setReg A.BADGE_RD_CTRL (setBits (BitVec.ofNat 32 (2 ^ 31 + 1 * 2 ^ 28) &&& 0x7C0001FF#32) 8 0 0) → a.badge.op = none → b = (a.disarm .carrier).disarm .cardPower → b.readerOk = true →
      b.flag F.BADGE_STAT_EXT_FIELD = false → c = { b.wr F.BADGE_RD_STAT_BUSY 1 with badge.op := some 1 } →
      exec (.fieldOn m) s = .next (State.settle ((c.setCarrier true).arm .cardPower (5 * ticksPerMs))))
  ∧ -- FIELD_OFF (R433)
    (∀ (s a b c : State) (m : Nat), s.mayWrite m A.BADGE_RD_CTRL = true →
      a = s.setReg A.BADGE_RD_CTRL (setBits (BitVec.ofNat 32 (2 ^ 31 + 2 * 2 ^ 28) &&& 0x7C0001FF#32) 8 0 0) → a.badge.op = none → b = (a.disarm .carrier).disarm .cardPower → b.readerOk = true →
      b.flag F.BADGE_STAT_EXT_FIELD = false → c = { b.wr F.BADGE_RD_STAT_BUSY 1 with badge.op := some 2 } →
      exec (.fieldOff m) s = .next (State.settle (c)))
  ∧ -- ACTIVATE (R433)
    (∀ (s a b c : State) (m rate : Nat), rate < 4 → s.mayWrite m A.BADGE_RD_CTRL = true →
      a = s.setReg A.BADGE_RD_CTRL (setBits (BitVec.ofNat 32 (2 ^ 31 + 3 * 2 ^ 28 + rate * 2 ^ 26) &&& 0x7C0001FF#32) 8 0 0) → a.badge.op = none → b = (a.disarm .carrier).disarm .cardPower → b.readerOk = true →
      b.flag F.BADGE_STAT_EXT_FIELD = false → c = { b.wr F.BADGE_RD_STAT_BUSY 1 with badge.op := some 3 } →
      exec (.activate m rate) s = .next (State.settle (c)))
  ∧ -- EXCHANGE (R433)
    (∀ (s a b c : State) (m len : Nat), len ≤ 256 → s.mayWrite m A.BADGE_RD_CTRL = true →
      a = s.setReg A.BADGE_RD_CTRL (setBits (BitVec.ofNat 32 (2 ^ 31 + 4 * 2 ^ 28 + len) &&& 0x7C0001FF#32) 8 0 len) → a.badge.op = none → b = (a.disarm .carrier).disarm .cardPower → b.readerOk = true →
      b.flag F.BADGE_STAT_EXT_FIELD = false → c = { b.wr F.BADGE_RD_STAT_BUSY 1 with badge.op := some 4 } →
      exec (.exchange m len) s = .next (State.settle (c.send chanReader 4 (c.sentToCard len))))
  ∧ -- DESELECT (R433)
    (∀ (s a b c : State) (m : Nat), s.mayWrite m A.BADGE_RD_CTRL = true →
      a = s.setReg A.BADGE_RD_CTRL (setBits (BitVec.ofNat 32 (2 ^ 31 + 5 * 2 ^ 28) &&& 0x7C0001FF#32) 8 0 0) → a.badge.op = none → b = (a.disarm .carrier).disarm .cardPower → b.readerOk = true →
      b.flag F.BADGE_STAT_EXT_FIELD = false → c = { b.wr F.BADGE_RD_STAT_BUSY 1 with badge.op := some 5 } →
      exec (.deselect m) s = .next (State.settle (c)))
  ∧ -- READER_OP_DONE (R433)
    (∀ (s r a b c d : State) (op st : Nat) (rx : List Byte) (auth : Bool), s.badge.op = some op →
      r = (if op = rdFIELD_ON then s.fire .cardPower id else s) → a = (if op = rdFIELD_OFF ∨ op = rdDESELECT then r.setCarrier false else r) →
      b = (if st == rdDONE && op == rdACTIVATE then a.wr F.BADGE_RD_STAT_RATE (min (a.rd F.BADGE_RD_CTRL_RATE) (a.rd F.BADGE_CFG_RATE_MAX)) else a) →
      c = (if st == rdDONE && (op == rdACTIVATE || op == rdEXCHANGE) then State.wr { b with badge.rx := rx.take 256 } F.BADGE_RD_STAT_RX_LEN (rx.take 256).length else b) →
      d = c.readerEnd st → ((st == rdDONE && op == rdEXCHANGE && auth) = false → exec (.readerOpDone st rx auth) s = .next d) ∧
      ((st == rdDONE && op == rdEXCHANGE && auth) = true → exec (.readerOpDone st rx auth) s = .next (match Config.badgeEntry d.cfg (d.sentToCard (d.rd F.BADGE_RD_CTRL_LEN) ++ serial16) (rx.take 256) with
        | some e => (State.post { d with badge.lastBadge := some e } 0xD004 3 19 [e]).summaryOwed
        | none => d.post 0xD005 5 19 [])))
  ∧ -- CARRIER_IDLE_OFF (R433)
    (∀ s : State, s.armed .carrier = true → exec .carrierIdleOff s = .next ((s.elapsed .carrier).setCarrier false))
  ∧ -- DETUNING_PING (R432)
    (∀ (s u : State) (amp n sum diff : Nat), s.flag F.BADGE_CFG_PING_EN = true → s.readerOk = true → s.flag F.BADGE_STAT_EXT_FIELD = false → s.badge.op = none →
      u = ((s.fire .pingHold id).fire .ping id).arm .ping (max 1 (s.rd F.BADGE_CFG_PING_MS) * (10 * ticksPerMs)) → n = u.badge.pings.length → sum = u.badge.pings.foldl (· + ·) 0 → diff = (if amp * n < sum then sum - amp * n else amp * n - sum) →
      exec (.detuningPing amp) s = .next (if n ≠ 0 ∧ sum * max 1 (u.rd F.BADGE_CFG_PING_THRESH) ≤ diff * 200 then (u.wr F.BADGE_STAT_CARD 1).irq 176
        else { u with badge.pings := (amp :: u.badge.pings).take 8 }))
  ∧ -- EXT_FIELD_CHANGE (R430)
    (∀ (s u : State) (p : Bool), u = { s.wr F.BADGE_STAT_EXT_FIELD (b2n p) with badge.field := p } →
      exec (.extFieldChange p) s = .next (if p then ((if u.badge.op.isSome then u.readerEnd rdEXT else u).setCarrier false).disarm .carrier
        else u.arm .pingHold (100 * ticksPerMs)))
  ∧ -- BADGE_STAT_READ (R443)
    (∀ (s : State) (m : Nat), s.mayRead m A.BADGE_STAT = true → exec (.badgeStatRead m) s =
      .next (State.settle { s.wr F.BADGE_STAT_RECOVERIES 0 with rdata := BitVec.ofNat 64 (s.reg A.BADGE_STAT).toNat }))
  ∧ -- VDD_BADGE_LOSS (R467)
    (∀ (s u : State), u = State.readerStop { s with badge.vdd := false } →
      exec .vddBadgeLoss s = .next (if u.badge.field then u else u.sessionEnd.setTag 0))

/-- Completion of the badge tag commands: the tag powers up, answers the activation, reads its pages, takes mailbox writes, and leaves its session, and exec answers exactly that state. Derived from spec/18_badge_port.md.
The clauses name shared operations of the model; where those rest on choices of the model, see log 54, 55, 56, 125. -/
def Obligations.BadgeTagCommands : Prop :=
  -- TAG_POWER_UP (R443)
    (∀ (s a b : State) (supply : Bool), a = (if supply then { s with badge.vdd := true } else { s with badge.field := true }) →
      b = (if ((look noneAt a.badge.slots 1).map (·.seq)).getD 0 < ((look noneAt a.badge.slots 0).map (·.seq)).getD 0 then (a.slotRedo 1).slotRedo 0
        else (a.slotRedo 0).slotRedo 1) → exec (.tagPowerUp supply) s = .next (if b.badge.tag = 0 then b.setTag 1 else b))
  ∧ -- REQA (R429)
    (∀ s : State, s.tagAnswers = true → s.badge.tag = 1 → exec .reqa s = .next (State.tagSend { s.setTag 2 with badge.level := 0 } [0x44#8, 0x00#8]))
  ∧ -- WUPA (R442)
    (∀ s : State, s.tagAnswers = true → s.badge.tag = 1 ∨ s.badge.tag = 5 →
      exec .wupa s = .next (State.tagSend { s.setTag 2 with badge.level := 0 } [0x44#8, 0x00#8]))
  ∧ -- ANTICOLLISION (R429)
    (∀ s : State, s.tagAnswers = true → s.badge.tag = 2 → exec .anticollision s = .next (s.tagSend (s.uidPart s.badge.level)))
  ∧ -- SELECT (R429)
    (∀ (s : State) (uid : List Byte), s.tagAnswers = true → s.badge.tag = 2 →
      (uid ≠ (s.uidPart s.badge.level).take 4 → exec (.select uid) s = .next (s.setTag 1)) ∧
      (uid = (s.uidPart s.badge.level).take 4 → s.badge.level = 0 → exec (.select uid) s = .next (State.tagSend { s with badge.level := 1 } [0x04#8])) ∧
      (uid = (s.uidPart s.badge.level).take 4 → s.badge.level ≠ 0 → exec (.select uid) s = .next ((s.setTag 3).tagSend [0x20#8])))
  ∧ -- RATS (R440)
    (∀ (s u : State), s.tagAnswers = true → s.badge.tag = 3 → u = { (s.setTag 4).wr F.BADGE_STAT_SESSION 1 with badge.latched := some s.tagGen.copy } →
      exec .rats s = .next ((u.irq 177).tagSend [0x05#8, 0x78#8, 0x00#8, 0x30#8, 0x00#8]))
  ∧ -- PPS (R429)
    (∀ s : State, s.tagAnswers = true → s.badge.tag = 4 → exec .pps s = .next (s.tagSend [0xD0#8]))
  ∧ -- HLTA (R442)
    (∀ (s u : State), s.tagAnswers = true → 2 ≤ s.badge.tag → u = { (s.sessionEnd.setTag 1).wr F.BADGE_STAT_HALTED 1 with badge.silent := true } →
      exec .hlta s = .next (u.next.arm .haltSilence (2 * ticksPerSecond + u.draw % 200000001)))
  ∧ -- TAG_DESELECT (R440)
    (∀ s : State, s.tagAnswers = true → s.badge.tag = 4 → exec .tagDeselect s = .next ((s.sessionEnd.setTag 5).tagSend [0xC2#8]))
  ∧ -- TAG_READ (R441)
    (∀ (s : State) (p n : Nat), s.tagAnswers = true → s.badge.tag = 4 → ∀ (ps : List Nat) (idle : Nat), ps = (List.range n).map (p + ·) →
      idle = copyPage (1 - s.badge.latched.getD 0) → ∀ bad : Prop,
      bad = (n = 0 ∨ 15 < n ∨ (ps.any fun q => decide (1536 ≤ q) || (decide (8 ≤ q) && decide (q < 24)) || (decide (idle ≤ q) && decide (q < idle + 256))) = true) →
      (bad → exec (.tagRead p n) s = .next (s.tagSend [0x01#8])) ∧
      (¬bad → ps.any s.badge.badPages.contains = true → exec (.tagRead p n) s = .next ((s.irq 179).tagSend [0x05#8])) ∧
      (¬bad → ps.any s.badge.badPages.contains = false → exec (.tagRead p n) s = .next (s.tagSend (0x00#8 :: ps.flatMap s.tagPage))))
  ∧ -- WRITE_MB (R443)
    (∀ (s : State) (p n : Nat) (data : List Byte) (strong : Bool), s.tagAnswers = true → s.badge.tag = 4 →
      (strong = false → exec (.writeMb p n data strong 0) s = .next ((s.irq 179).tagSend [0x02#8])) ∧
      (strong = true → (n = 0 ∨ 4 < n ∨ p < 25 ∨ 88 < p + n ∨ data.length ≠ 16 * n) → exec (.writeMb p n data strong 0) s = .next (s.tagSend [0x01#8])) ∧
      (strong = true → ¬(n = 0 ∨ 4 < n ∨ p < 25 ∨ 88 < p + n ∨ data.length ≠ 16 * n) → s.tagGen.mbWr = true → s.badge.mbCount < s.tagGen.mbMax →
        ∀ (k : Nat) (t : TagSlot) (u : State), k = s.freeSlot → t = TagSlot.mk p data (s.badge.mbCount + 1) (s.badge.slotSeq + 1) →
        u = { s with badge.slots := put noneAt s.badge.slots k (some t), badge.slotSeq := t.seq, badge.nextSlot := 1 - k } →
        exec (.writeMb p n data strong 0) s = .next ((u.tagSend [0x00#8]).slotHome k t).mailBooked))
  ∧ -- FIELD_LOSS (R440)
    (∀ (s u : State), u = { s.sessionEnd.disarm .fieldIdle with badge.field := false } →
      exec .fieldLoss s = .next (u.setTag (if u.badge.vdd then 1 else 0)))
  ∧ -- HALT_SILENCE_END (R442)
    (∀ s : State, s.badge.silent = true → exec .haltSilenceEnd s =
      .next { (s.reachST (if s.armed .haltSilence then s.dueAt .haltSilence else 0)).wr F.BADGE_STAT_HALTED 0 with badge.silent := false })

/-- Completion of the tag store summary commit commands: a summary commit starts, is aborted, resumes and flips the generation, and exec answers exactly that state. Derived from spec/18_badge_port.md.
The clauses name shared operations of the model; where those rest on choices of the model, see log 55, 125. -/
def Obligations.BadgeSummaryCommands : Prop :=
  -- BADGE_TS_COMMIT (R444)
    (∀ (s a b : State) (m max : Nat), max < 65536 → s.mayWrite m A.BADGE_TS_COMMIT = true → a = s.tagSync →
      (a.flag F.BADGE_TS_STAT_PENDING = true → exec (.badgeTsCommit m max) s = .next ((a.wr F.BADGE_TS_STAT_REFUSED 1).irq 178).settle) ∧
      (a.flag F.BADGE_TS_STAT_PENDING = false →
        b = ((a.wr F.BADGE_TS_STAT_PENDING 1).wr F.BADGE_TS_STAT_PROGRESS 0).wr F.BADGE_TS_STAT_PAUSED (b2n a.copyHeld) →
        exec (.badgeTsCommit m max) s = .next (State.settle { b with
          badge.newMax := max, badge.done := 0, badge.since := b.now })))
  ∧ -- BADGE_TS_ABORT (R445)
    (∀ (s a : State) (m : Nat), s.mayWrite m A.BADGE_TS_COMMIT = true → a = s.tagSync →
      exec (.badgeTsAbort m) s = .next (State.settle (if a.flag F.BADGE_TS_STAT_PENDING then (a.wr F.BADGE_TS_STAT_PENDING 0).wr F.BADGE_TS_STAT_PAUSED 0 else a)))
  ∧ -- TS_COMMIT_RESUME (R445)
    (∀ (s u : State), s.flag F.BADGE_TS_STAT_PENDING = true → s.flag F.BADGE_TS_STAT_PAUSED = true → s.copyHeld = false →
      u = s.fieldQuiet.wr F.BADGE_TS_STAT_PAUSED 0 → exec .tsCommitResume s = .next { u with badge.since := u.now })
  ∧ -- TS_FLIP (R444)
    (∀ (s u v : State) (n : TagGen), s.flag F.BADGE_TS_STAT_PENDING = true → s.flag F.BADGE_TS_STAT_PAUSED = false →
      u = (s.fieldQuiet.reachST (s.badge.since + (summaryPages - s.badge.done) * tagPageTicks)).tagSync → summaryPages ≤ u.tagProgress →
      n = TagGen.mk (u.tagGen.gen + 1) u.idleCopy u.badge.newMax (u.flag F.BADGE_CFG_MB_WR) →
      v = (if u.badge.g0.gen ≤ u.badge.g1.gen ∧ u.tagGen = u.badge.g1 ∧ u.badge.g0 ≠ u.badge.g1 then { u with badge.g0 := n }
        else if u.tagGen = u.badge.g0 then { u with badge.g1 := n } else { u with badge.g0 := n }) →
      exec .tsFlip s = .next (State.summaryTry ((v.wr F.BADGE_TS_STAT_PENDING 0).irq 178)))

/-- Completion of the session, identity and image packets: the executing packet has its effect and is answered with the status and payload its clause gives, and exec answers exactly that state. Derived from spec/15_command_packets.md.
The clauses name shared operations of the model; where those rest on choices of the model, see log 98, 99, 105, 125. -/
def Obligations.SessionAndImageCommands : Prop :=
  -- SESSION_OPEN (R380)
    (∀ (s u : State) (i : Nat) (c : Cmd) (r : Nat) (n : Nat) (svc : Bool) (p k : List Byte) (x : Sess), s.executing 0x0101 = some i → s.desk.cmds[i]? = some c → u = s.dropCmd i → u.entryRights (byteAt c.body 0) c.troupe = some (r, svc) → u.entropyOk = true → ((List.range 8).find? fun n => (u.sess n).isNone) = some n → p = beBytes 1 n ++ padTo 1185 (Config.sessReply c.body u.draw) → k = shake256 96 (padTo 64 (Config.sessSecrets c.body u.draw) ++ sha256 (c.body ++ p)) → x = Sess.mk 1 c.troupe (byteAt c.body 0) svc r (sliceB k 0 32) (sliceB k 32 32) (sliceB k 64 32) (sha256 (c.body ++ p)) 0 [] 0 0 0 →
      exec .sessionOpen s = .next (State.conclude (State.arm (State.setSess u.next n (some x)) (.sessPending n) (10 * ticksPerSecond)) i c (.done scOK (p ++ padTo 3373 (Config.identitySign (sha256 (c.body ++ p)))))))
  ∧ -- SESSION_AUTH (R380)
    (∀ (s u v : State) (i : Nat) (c : Cmd) (x : Sess), s.executing 0x0102 = some i → s.desk.cmds[i]? = some c → u = s.dropCmd i →
      u.sess c.sess = some x → v = (if u.openerOk x c.body then State.conclude (State.post ((((u.setSess c.sess (some { x with state := 2 })).disarm (.sessPending c.sess)).arm
        (.sessIdle c.sess) (600 * ticksPerSecond))) 0xD001 3 8 [x.entry]) i c (.done scOK (beBytes 1 x.rights))
        else State.conclude (u.post 0xD002 5 8 [x.entry]) i c (.done scAUTH_FAIL [])) →
      exec (.sessionAuth true) s = .next (State.settle (if (v.sess c.sess).any (fun x => x.state == 1) then v.closeSess c.sess else v)))
  ∧ -- SESSION_CLOSE (R382)
    (∀ (s u : State) (i : Nat) (c : Cmd), s.executing 0x0103 = some i → s.desk.cmds[i]? = some c → u = s.dropCmd i →
      exec .sessionClose s = .next ((u.conclude i c (.done scOK [])).closeSess (if c.mute then 255 else c.sess)))
  ∧ -- SESSION_INFO (R386)
    (∀ (s u : State) (i : Nat) (c : Cmd), s.executing 0x0104 = some i → s.desk.cmds[i]? = some c → u = s.dropCmd i →
      exec .sessionInfo s = .next (State.conclude u i c (.done scOK ((List.range 8).flatMap fun n => ((u.sess n).map fun x => if x.state = 2 then
        beBytes 1 (b2n x.troupe) ++ beBytes 1 x.entry ++ beBytes 1 x.rights ++ beBytes 1 (u.desk.cmds.filter fun c => c.sess == n).length ++ beBytes 4 x.high else []).getD []))))
  ∧ -- PING (R386)
    (∀ (s u : State) (i : Nat) (c : Cmd), s.executing 0x0105 = some i → s.desk.cmds[i]? = some c → u = s.dropCmd i →
      exec .ping s = .next (State.conclude u i c (.done scOK c.body)))
  ∧ -- ID_GET (R386)
    (∀ (s u : State) (i : Nat) (c : Cmd), s.executing 0x0201 = some i → s.desk.cmds[i]? = some c → u = s.dropCmd i →
      exec .idGet s = .next (State.conclude u i c (.done scOK (serial16 ++ beBytes 1 u.lifecycle.code ++ beBytes 1 u.mode.code ++ beBytes 1 (u.rd F.SYS_STATE_PAIR_ROLE) ++
        beBytes 1 (u.rd F.SYS_STATE_TROUPE_ROLE) ++ u.fingerprint ++ beBytes 4 (Config.stewardVersion (u.rd F.SYS_BOOT_SM_COPY)) ++ u.idDigests))))
  ∧ -- ID_CERT (R386)
    (∀ (s u : State) (i : Nat) (c : Cmd) (o len : Nat), s.executing 0x0202 = some i → s.desk.cmds[i]? = some c → u = s.dropCmd i → o = beAt c.body 0 4 → len = Config.certLength (u.peek 0x20000000 0x10000) % 65537 → o ≤ len →
      exec .idCert s = .next (State.conclude u i c (.done scOK (beBytes 4 len ++ u.peek (0x20000000 + o) (min 4096 (len - o))))))
  ∧ -- ID_ATTEST (R386)
    (∀ (s u : State) (i : Nat) (c : Cmd) (m : List Byte), s.executing 0x0203 = some i → s.desk.cmds[i]? = some c → u = s.dropCmd i → m = serial16 ++ c.body ++ beBytes 4 (u.reg A.SYS_STATE).toNat ++ beBytes 8 u.now ++ beBytes 4 (u.reg A.REFUGE_STAT).toNat ++ u.idDigests →
      exec .idAttest s = .next (State.conclude u.next i c (.done scOK (m ++ padTo 3373 (Config.identitySign m)))))
  ∧ -- ID_CHALLENGE (R386)
    (∀ (s u : State) (i : Nat) (c : Cmd), s.executing 0x0204 = some i → s.desk.cmds[i]? = some c → u = s.dropCmd i →
      exec .idChallenge s = .next (State.conclude u i c (.done scOK ((if u.mode = .curtain then u.challenge else List.replicate 32 0#8) ++ beBytes 4 (u.rd F.REFUGE_STAT_TOTAL) ++
        beBytes 4 (u.reg A.CURTAIN_STAT).toNat ++ beBytes 4 (u.reg A.CURTAIN_HIST).toNat))))
  ∧ -- IMG_BEGIN (R387)
    (∀ (s u : State) (i : Nat) (c : Cmd) (k : Nat), s.executing 0x0301 = some i → s.desk.cmds[i]? = some c → u = s.dropCmd i → k = byteAt c.body 0 → ¬((k = 1 ∨ k = 2) ∧ u.actKind = k ∨ k = 0 ∧ u.actKind = 0 ∧ u.flag F.SYS_BOOT_EARLY_OK = true) →
      exec .imgBegin s = .next (State.conclude { (u.eraseArea k).2.setImg k (Img.mk (if (u.eraseArea k).1 = scOK then 1 else 3) (beAt c.body 1 4) (sliceB c.body 5 48) 0) with desk.xfer := some k } i c (fin (u.eraseArea k).1)))
  ∧ -- IMG_WRITE (R387)
    (∀ (s u : State) (i : Nat) (c : Cmd) (ok : Bool) (k st : Nat) (v : State), s.executing 0x0302 = some i → s.desk.cmds[i]? = some c → u = s.dropCmd i → u.desk.xfer = some k → (u.img k).state = 1 → beAt c.body 0 4 + (c.body.length - 4) ≤ (u.img k).len → u.programAt (imageBase k + beAt c.body 0 4) (c.body.drop 4) ok = (st, v) →
      exec (.imgWrite ok) s = .next (State.conclude v i c (.done st [])))
  ∧ -- IMG_COMMIT (R387)
    (∀ (s u : State) (i : Nat) (c : Cmd) (k : Nat), s.executing 0x0303 = some i → s.desk.cmds[i]? = some c → u = s.dropCmd i → u.desk.xfer = some k → (u.img k).state = 1 →
      exec .imgCommit s = .next (State.conclude u i c (.accepted [k] [])))
  ∧ -- IMG_SELECT (R386)
    (∀ (s u : State) (i : Nat) (c : Cmd), s.executing 0x0304 = some i → s.desk.cmds[i]? = some c → u = s.dropCmd i →
      exec .imgSelect s = .next (State.conclude { u with desk.selected := byteAt c.body 0 } i c (.done scOK [])))
  ∧ -- IMG_LIST (R386)
    (∀ (s u : State) (i : Nat) (c : Cmd), s.executing 0x0305 = some i → s.desk.cmds[i]? = some c → u = s.dropCmd i →
      exec .imgList s = .next (State.conclude u i c (.done scOK ((List.range 5).flatMap fun k => beBytes 1 (u.img k).state ++ beBytes 4 (u.img k).len ++ padTo 48 (u.img k).digest ++
        beBytes 4 (u.img k).version ++ beBytes 1 (b2n (k == u.desk.selected))))))

/-- Completion of the configuration, time, cue and key packets: the executing packet has its effect and is answered with the status and payload its clause gives, and exec answers exactly that state. Derived from spec/15_command_packets.md.
The clauses name shared operations of the model; where those rest on choices of the model, see log 18, 32, 100, 101, 102, 125. -/
def Obligations.ConfigurationCueAndKeyCommands : Prop :=
  -- CFG_APPLY (R387)
    (∀ (s u : State) (i : Nat) (c : Cmd) (n : Nat) (v : State), s.executing 0x0401 = some i → s.desk.cmds[i]? = some c → u = s.dropCmd i → n = u.desk.storedCfg → n ≠ 0 → (u.img 3).state = 2 → (cfgBlocks n).any u.pendingIn = false → v = (cfgBlocks n).foldl (fun (s : State) b => s.blockGo b 1 0) (u.cfgStage n) →
      exec .cfgApply s = .next (if (cfgBlocks n).all v.pendingIn then State.conclude v i c (.accepted [n] []) else State.conclude v.next i c (.done v.freeStatus [])))
  ∧ -- CFG_INFO (R386)
    (∀ (s u : State) (i : Nat) (c : Cmd), s.executing 0x0402 = some i → s.desk.cmds[i]? = some c → u = s.dropCmd i →
      exec .cfgInfo s = .next (State.conclude u i c (.done scOK ((beBytes 48 u.desk.storedCfg ++ beBytes 4 (Config.imageVersion 3 (beBytes 48 u.desk.storedCfg))) ++ (beBytes 48 u.cfg ++
        beBytes 4 (Config.imageVersion 3 (beBytes 48 u.cfg))) ++ (List.range 16).flatMap fun e => beBytes 1 (Config.opEntry u.cfg e % 16)))))
  ∧ -- TIME_STEP (R386)
    (∀ (s u : State) (i : Nat) (c : Cmd) (v : State), s.executing 0x0403 = some i → s.desk.cmds[i]? = some c → u = s.dropCmd i → u.flag F.STIME_STATE_STEP_PENDING = false → v = (u.setReg A.STIME_STEP_LO (BitVec.ofNat 32 (beAt c.body 4 4))).setReg A.STIME_STEP_HI (BitVec.ofNat 32 (beAt c.body 0 4)) →
      exec .timeStep s = .next (State.conclude (v.put8 A.STIME_CTRL (setBits (v.reg A.STIME_CTRL) 31 31 1)) i c (.accepted [] [])))
  ∧ -- RTC_SET (R386)
    (∀ (s u : State) (i : Nat) (c : Cmd), s.executing 0x0404 = some i → s.desk.cmds[i]? = some c → u = s.dropCmd i →
      exec .rtcSet s = .next (State.conclude (u.rtcSet u.seconds) i c (.done scOK (beBytes 4 u.seconds.toNat))))
  ∧ -- CUE_GET (R386)
    (∀ (s u : State) (i : Nat) (c : Cmd), s.executing 0x0501 = some i → s.desk.cmds[i]? = some c → u = s.dropCmd i →
      exec .cueGet s = .next (State.conclude u i c (.done scOK ((List.range (byteAt c.body 2)).flatMap fun i => (List.range 4).flatMap fun k => beBytes 4 (u.cueWord (beAt c.body 0 2 + i) k).toNat))))
  ∧ -- CUE_PUSH (R387)
    (∀ (s u : State) (i : Nat) (c : Cmd) (n : Nat) (v : State), s.executing 0x0502 = some i → s.desk.cmds[i]? = some c → u = s.dropCmd i → u.cuePushes ((List.range (byteAt c.body 0)).map fun k => sliceB c.body (1 + 19 * k) 19) 0 = ((n, none), v) →
      exec .cuePush s = .next (State.conclude v i c (.done scOK (beBytes 1 n))))
  ∧ -- CUE_COMMIT (R386)
    (∀ (s u : State) (i : Nat) (c : Cmd) (v : State), s.executing 0x0503 = some i → s.desk.cmds[i]? = some c → u = s.dropCmd i → u.pendingIn Base.CUE = false → v = u.blockGo Base.CUE (byteAt c.body 0) (beAt c.body 1 2) → v.pendingIn Base.CUE = true →
      exec .cueCommit s = .next (State.conclude v i c (.accepted [] [])))
  ∧ -- CUE_ABORT (R386)
    (∀ (s u : State) (i : Nat) (c : Cmd), s.executing 0x0504 = some i → s.desk.cmds[i]? = some c → u = s.dropCmd i →
      exec .cueAbort s = .next (State.conclude (u.blockAbort Base.CUE) i c (.done scOK [])))
  ∧ -- CUE_STATUS (R386)
    (∀ (s u : State) (i : Nat) (c : Cmd) (b : List Byte) (v : State), s.executing 0x0505 = some i → s.desk.cmds[i]? = some c → u = s.dropCmd i → u.words [A.CUE_STAT, A.CUE_CNT_A, A.CUE_CNT_B, A.CUE_CNT_C, A.CUE_EDIT_STAT] = (b, v) →
      exec .cueStatus s = .next (State.conclude v i c (.done scOK b)))
  ∧ -- KEY_PROVISION (R386)
    (∀ (s u v : State) (i : Nat) (c : Cmd) (crk : List Byte) (a : Ans), s.executing 0x0601 = some i → s.desk.cmds[i]? = some c → u = s.dropCmd i → u.crk = some crk →
      ((match kwUnwrap (u.xferKey c) (c.body.drop 5) with
        | none => (Ans.done scAUTH_FAIL [], u)
        | some k => if importLen (byteAt c.body 4) ≠ some k.length ∧ !(byteAt c.body 4 = kSECRET ∧ k.length = 32) then (Ans.done scBAD_PARAM [], u)
          else (Ans.done scOK (if byteAt c.body 4 = kSECRET then [] else sha256 (Config.pkPublic (byteAt c.body 4) k)), { u with
            desk.keys := (u.desk.keys.filter fun x => x.id != beAt c.body 0 4) ++ [StoredKey.mk (beAt c.body 0 4) (byteAt c.body 4) u.desk.kek (kwWrap (kekOf crk u.desk.kek) k) (if byteAt c.body 4 = kSECRET then [] else sha256 (Config.pkPublic (byteAt c.body 4) k))] })) : Ans × State) = (a, v) →
      exec (.keyProvision true) s = .next (State.conclude v i c a))
  ∧ -- KEY_ERASE (R386)
    (∀ (s u : State) (i : Nat) (c : Cmd), s.executing 0x0602 = some i → s.desk.cmds[i]? = some c → u = s.dropCmd i → (u.desk.keys.any fun x => x.id == beAt c.body 0 4) = true →
      exec (.keyErase true) s = .next (State.conclude { u with desk.keys := u.desk.keys.filter fun x => x.id != beAt c.body 0 4 } i c (.done scOK [])))
  ∧ -- KEY_LIST (R386)
    (∀ (s u : State) (i : Nat) (c : Cmd), s.executing 0x0603 = some i → s.desk.cmds[i]? = some c → u = s.dropCmd i →
      exec .keyList s = .next (State.conclude u i c (.done scOK (u.desk.keys.flatMap fun k => beBytes 4 k.id ++ beBytes 1 k.type ++ beBytes 4 k.gen ++ padTo 32 k.pub))))
  ∧ -- KEY_STREAM (R386)
    (∀ (s u v : State) (i : Nat) (c : Cmd) (a : Ans), s.executing 0x0604 = some i → s.desk.cmds[i]? = some c → u = s.dropCmd i → beAt c.body 0 2 < 4096 →
      ((match kwUnwrap (u.xferKey c) (c.body.drop 14) with
        | none => (Ans.done scAUTH_FAIL [], u)
        | some k => match u.installKey (beAt c.body 0 2) (beAt c.body 2 4) (beAt c.body 6 6) (beAt c.body 12 2) (k.length == 32) (beNat k) with
          | (0, x) => (Ans.done scOK [], x)
          | (r, x) => (Ans.done scBAD_PARAM (beBytes 1 r), x)) : Ans × State) = (a, v) →
      exec .keyStream s = .next (State.conclude v i c a))
  ∧ -- KEK_ROLL (R386)
    (∀ (s u : State) (i : Nat) (c : Cmd) (k : List Byte), s.executing 0x0605 = some i → s.desk.cmds[i]? = some c → u = s.dropCmd i → u.crk = some k →
      exec .kekRoll s = .next (State.conclude u i c (.accepted [] [])))
  ∧ -- KDC_RELAY (R387)
    (∀ (s u : State) (i : Nat) (c : Cmd), s.executing 0x0606 = some i → s.desk.cmds[i]? = some c → u = s.dropCmd i →
      exec .kdcRelay s = .next (State.conclude u.next i c (.accepted [] (Config.kdcMessage u.cfg c.body u.draw))))

/-- Completion of the pair, troupe, relay and record packets: the executing packet has its effect and is answered with the status and payload its clause gives, and exec answers exactly that state. Derived from spec/15_command_packets.md, spec/09_understudy.md, spec/10_troupe.md, spec/17_prompt_book_and_observation.md.
The clauses name shared operations of the model; where those rest on choices of the model, see log 18, 102, 125. -/
def Obligations.PairingTroupeAndRecordCommands : Prop :=
  -- PAIR_ROLE (R246)
    (∀ (s u : State) (i : Nat) (c : Cmd), s.executing 0x0701 = some i → s.desk.cmds[i]? = some c → u = s.dropCmd i →
      exec .pairRole s = .next (State.conclude (State.lanesFollow (u.wr F.SYS_STATE_PAIR_ROLE (byteAt c.body 0))) i c (.done scOK [])))
  ∧ -- HANDOVER (R267)
    (∀ (s u : State) (i : Nat) (c : Cmd), s.executing 0x0702 = some i → s.desk.cmds[i]? = some c → u = s.dropCmd i →
      exec .handover s = .next (State.conclude (u.put8 A.UNDERSTUDY_CTRL 0x20000000#32) i c (.accepted [] [])))
  ∧ -- PAIR_CTRL (R386)
    (∀ (s u : State) (i : Nat) (c : Cmd), s.executing 0x0703 = some i → s.desk.cmds[i]? = some c → u = s.dropCmd i →
      exec .pairCtrl s = .next (State.conclude (u.put8 A.UNDERSTUDY_CTRL (BitVec.ofNat 32 (byteAt c.body 0 % 2 * 2 ^ 28 + byteAt c.body 0 / 2 % 2 * 2 ^ 27 + byteAt c.body 0 / 4 % 2 * 2 ^ 26))) i c (.done scOK [])))
  ∧ -- PAIR_STATUS (R386)
    (∀ (s u : State) (i : Nat) (c : Cmd) (b1 b2 b3 b4 : List Byte) (v1 v2 v3 v4 : State), s.executing 0x0704 = some i → s.desk.cmds[i]? = some c → u = s.dropCmd i → u.words [A.UNDERSTUDY_STAT, A.UNDERSTUDY_HEALTH, A.UNDERSTUDY_PEER_HEALTH] = (b1, v1) → v1.words [A.UNDERSTUDY_APPLIED_LO] = (b2, v2) → v2.words [A.UNDERSTUDY_APPLIED_HI] = (b3, v3) → v3.words [A.UNDERSTUDY_CNT_A, A.UNDERSTUDY_CNT_B, A.UNDERSTUDY_CNT_C] = (b4, v4) →
      exec .pairStatus s = .next (State.conclude v4 i c (.done scOK (b1 ++ b3 ++ b2 ++ b4))))
  ∧ -- TROUPE_ROLE (R275)
    (∀ (s u : State) (i : Nat) (c : Cmd), s.executing 0x0801 = some i → s.desk.cmds[i]? = some c → u = s.dropCmd i →
      exec .troupeRole s = .next (State.conclude (State.troupeShow (u.wr F.SYS_STATE_TROUPE_ROLE (byteAt c.body 0))) i c (.done scOK [])))
  ∧ -- TROUPE_STATUS (R386)
    (∀ (s u : State) (i : Nat) (c : Cmd) (b : List Byte) (v : State), s.executing 0x0802 = some i → s.desk.cmds[i]? = some c → u = s.dropCmd i → u.words (A.TROUPE_STAT :: (List.range 64).map A.TROUPE_MEMBER) = (b, v) →
      exec .troupeStatus s = .next (State.conclude v i c (.done scOK b)))
  ∧ -- ROLL_NOW (R386)
    (∀ (s u : State) (i : Nat) (c : Cmd), s.executing 0x0803 = some i → s.desk.cmds[i]? = some c → u = s.dropCmd i → u.troupe.rolling = false →
      exec .rollNow s = .next (State.conclude u.rollBegin i c (.accepted [] [])))
  ∧ -- INTERVAL_CALL (R287)
    (∀ (s u : State) (i : Nat) (c : Cmd), s.executing 0x0804 = some i → s.desk.cmds[i]? = some c → u = s.dropCmd i → u.frame + u.rollFrames ≤ beAt c.body 8 6 → beAt c.body 8 6 < beAt c.body 14 6 → u.troupe.bkey.isNone = false → u.namesPair (beAt c.body 0 8) = false →
      exec .intervalCall s = .next (State.conclude (u.intervalCall (beAt c.body 0 8) (beAt c.body 8 6) (beAt c.body 14 6)) i c (.accepted [beAt c.body 0 8, beAt c.body 8 6] [])))
  ∧ -- RELAY (R388)
    (∀ (s u : State) (i : Nat) (c : Cmd) (key : List Byte), s.executing 0x0805 = some i → s.desk.cmds[i]? = some c → u = s.dropCmd i → u.session (byteAt c.body 0) = some key →
      exec .relay s = .next (State.conclude (State.arm (u.next.troupeSend 0x0B 1 (some (byteAt c.body 0)) key (c.body.drop 1)) (.relay u.fresh) (10 * ticksPerSecond)) i c (.accepted [u.fresh, byteAt c.body 0, beAt (c.body.drop 1) 8 4] [])))
  ∧ -- RELAY_TIMEOUT (R388)
    (∀ (s u : State) (i : Nat) (c : Cmd), s.desk.cmds[i]? = some c → c.op = 0x0805 → c.phase = 2 → s.armed (.relay (nth c.note 0)) = true →
      u = s.elapsed (.relay (nth c.note 0)) → exec (.relayTimeout i) s = .next ((u.dropCmd i).answer c scBUSY []))
  ∧ -- BOOK_READ (R420)
    (∀ (s u : State) (i : Nat) (c : Cmd) (l : List Rec), s.executing 0x0901 = some i → s.desk.cmds[i]? = some c → u = s.dropCmd i → l = ((u.book.ring.map (·.1)).filter fun r => decide (beAt c.body 0 4 ≤ r.seq.toNat)).take (byteAt c.body 4) →
      exec .bookRead s = .next (State.conclude u i c (.done scOK (beBytes 4 ((l.getLast?.map fun r => r.seq.toNat + 1).getD (beAt c.body 0 4)) ++ l.flatMap Rec.bytes))))
  ∧ -- BOOK_ARCHIVE (R421)
    (∀ (s u : State) (i : Nat) (c : Cmd) (b : List Byte) (v : State), s.executing 0x0902 = some i → s.desk.cmds[i]? = some c → u = s.dropCmd i → u.dmaRead 8 (0x21800000 + 32 * beAt c.body 0 4) (32 * min (byteAt c.body 4) (131072 - beAt c.body 0 4)) = (.ok b, v) →
      exec .bookArchive s = .next (State.conclude v i c (.done scOK b)))
  ∧ -- BOOK_NOTE (R413)
    (∀ (s u : State) (i : Nat) (c : Cmd), s.executing 0x0903 = some i → s.desk.cmds[i]? = some c → u = s.dropCmd i →
      exec .bookNote s = .next (State.conclude (u.post (0xE000 + beAt c.body 1 2 % 4096) (min 5 (byteAt c.body 0)) 8 ((List.range 4).map fun k => leAt c.body (3 + 4 * k) 4)) i c (.done scOK [])))
  ∧ -- BOOK_CLEAR (R422)
    (∀ (s u : State) (i : Nat) (c : Cmd), s.executing 0x0904 = some i → s.desk.cmds[i]? = some c → u = s.dropCmd i →
      exec .bookClear s = .next (State.conclude (State.put8 (u.setReg A.PBOOK_CLEAR_UPTO (BitVec.ofNat 32 (beAt c.body 0 4))) A.PBOOK_CLEAR (BitVec.ofNat 32 (2 ^ 31 + byteAt c.body 4 % 2 * 2 ^ 30))) i c (.done scOK [])))

/-- Completion of the file, status, register, self-test, trace and core-control packets: the executing packet has its effect and is answered with the status and payload its clause gives, and exec answers exactly that state. Derived from spec/15_command_packets.md, spec/19_cartridge_port.md.
The clauses name shared operations of the model; where those rest on choices of the model, see log 59, 102, 103, 125. -/
def Obligations.FileAndDiagnosticCommands : Prop :=
  -- FILE_LIST (R386)
    (∀ (s u : State) (i : Nat) (c : Cmd) (l : List VFile), s.executing 0x0A01 = some i → s.desk.cmds[i]? = some c → u = s.dropCmd i → u.volume (byteAt c.body 0) = some l →
      exec .fileList s = .next (State.conclude u i c (.done scOK (l.flatMap fun f => padTo 16 f.name ++ beBytes 4 f.data.length ++ beBytes 4 f.gen))))
  ∧ -- FILE_READ (R457)
    (∀ (s u : State) (i : Nat) (c : Cmd) (l : List VFile) (f : VFile), s.executing 0x0A02 = some i → s.desk.cmds[i]? = some c → u = s.dropCmd i → u.volume (byteAt c.body 0) = some l → fileOf l (sliceB c.body 1 16) = some f → beAt c.body 17 4 ≤ f.data.length → (f.data.length ≤ beAt c.body 17 4 + beAt c.body 21 2 → f.crcOk = true) →
      exec (.fileRead true) s = .next (State.conclude u i c (.done scOK (sliceB f.data (beAt c.body 17 4) (beAt c.body 21 2)))))
  ∧ -- FILE_WRITE (R456)
    (∀ (s u : State) (i : Nat) (c : Cmd) (v o n : Nat), s.executing 0x0A03 = some i → s.desk.cmds[i]? = some c → u = s.dropCmd i → v = byteAt c.body 0 → o = beAt c.body 17 4 → n = (u.partOf v (sliceB c.body 1 16)).length → (v = 1 → u.flag (F.CART_CARD_PERM_WP 0) = false ∧ u.flag (F.CART_CARD_TMP_WP 0) = false ∧ u.cart.mounted = true ∧ (u.cart.formatted = true ∨ u.cart.blank = true)) → o = 0 ∨ o = n → o + (c.body.length - 22) ≤ 2 ^ 28 →
      exec .fileWrite s = .next (State.conclude u i c (.accepted [] [])))
  ∧ -- FILE_DELETE (R456)
    (∀ (s u : State) (i : Nat) (c : Cmd) (v : Nat) (l : List VFile) (f : VFile), s.executing 0x0A04 = some i → s.desk.cmds[i]? = some c → u = s.dropCmd i → v = byteAt c.body 0 → u.volume v = some l → fileOf l (sliceB c.body 1 16) = some f → (v = 1 → u.flag (F.CART_CARD_PERM_WP 0) = false ∧ u.flag (F.CART_CARD_TMP_WP 0) = false) →
      exec (.fileDelete true) s = .next (State.conclude (u.dropFile v f) i c (.done scOK [])))
  ∧ -- MEDIA_EJECT (R454)
    (∀ (s u : State) (i : Nat) (c : Cmd), s.executing 0x0A05 = some i → s.desk.cmds[i]? = some c → u = s.dropCmd i →
      exec .mediaEject s = .next (State.conclude u i c (.accepted [] [])))
  ∧ -- STATUS (R386)
    (∀ (s u : State) (i : Nat) (c : Cmd) (b : List Byte) (v : State), s.executing 0x0B01 = some i → s.desk.cmds[i]? = some c → u = s.dropCmd i → u.words [A.SYS_STATE, A.STIME_STATE, A.STIME_OFFSET] = (b, v) → (List.range 4).flatMap (fun n => (List.range 5).flatMap fun k => beBytes 4 (u.cntReg (A.SP_DROP n (0x0A + k))).toNat) = (List.range 4).flatMap (fun n => (List.range 5).flatMap fun k => beBytes 4 (v.cntReg (A.SP_DROP n (0x0A + k))).toNat) →
      exec .status s = .next (State.conclude v i c (.done scOK (b ++ (List.range 4).flatMap fun n => (List.range 5).flatMap fun k => beBytes 4 (v.cntReg (A.SP_DROP n (0x0A + k))).toNat))))
  ∧ -- REG_READ (R386)
    (∀ (s u : State) (i : Nat) (c : Cmd) (b : List Byte) (v : State), s.executing 0x0B02 = some i → s.desk.cmds[i]? = some c → u = s.dropCmd i → u.readWords ((List.range (byteAt c.body 4)).map fun k => beAt c.body 0 4 + 4 * k) [] = (.ok b, v) →
      exec .regRead s = .next (State.conclude v i c (.done scOK b)))
  ∧ -- SELFTEST (R386)
    (∀ (s u : State) (i : Nat) (c : Cmd) (results : Nat) (n : Nat) (v : State), s.executing 0x0B03 = some i → s.desk.cmds[i]? = some c → u = s.dropCmd i → ([1, 2, 3, 4, 5].foldl (fun (acc : Nat × State) t =>
        if bit (byteAt c.body 0) (t - 1) then (acc.1 + b2n (acc.2.selftestOne t (bit results (t - 1))).1 * 2 ^ (t - 1), (acc.2.selftestOne t (bit results (t - 1))).2) else acc) (0, u) = (n, v)) →
      exec (.selftest results) s = .next (State.settle (State.conclude v i c (.done scOK (beBytes 1 n)))))
  ∧ -- TRACE (R427)
    (∀ (s u : State) (i : Nat) (c : Cmd), s.executing 0x0B04 = some i → s.desk.cmds[i]? = some c → u = s.dropCmd i →
      exec .trace s = .next (State.conclude (u.traceCfg (BitVec.ofNat 32 (byteAt c.body 2 * 2 ^ 31 + byteAt c.body 1 * 256 + byteAt c.body 0))) i c (.done scOK [])))
  ∧ -- CORE_CTRL (R386)
    (∀ (s u : State) (i : Nat) (c : Cmd), s.executing 0x0B05 = some i → s.desk.cmds[i]? = some c → u = s.dropCmd i →
      exec .coreCtrl s = .next (State.conclude (u.put8 (A.IRQ_CORE_CTRL (byteAt c.body 0)) (BitVec.ofNat 32 (byteAt c.body 1 * 2 ^ 31 + byteAt c.body 2 * 2 ^ 30 + beAt c.body 3 4 / 4))) i c (.done scOK [])))

/-- Completion of the commissioning, unlock, mode, reset and lifecycle packets: the executing packet has its effect and is answered with the status its clause gives, and exec answers exactly that state. Derived from spec/15_command_packets.md, spec/13_safety_curtain_and_refuge.md.
The clauses name shared operations of the model; where those rest on choices of the model, see log 85, 102, 104, 125. -/
def Obligations.LifecycleCommands : Prop :=
  -- COMMISSION (R387)
    (∀ (s u : State) (i : Nat) (c : Cmd), s.executing 0x0C01 = some i → s.desk.cmds[i]? = some c → u = s.dropCmd i → sliceB c.body 0 16 = serial16 → u.otp.owner.isEmpty = true ∨ (sliceB c.body 16 32 = u.otp.owner ∧ sliceB c.body 48 32 = u.otp.unlock) ∨ (sliceB c.body 16 32 = List.replicate 32 0#8 ∧ sliceB c.body 48 32 = List.replicate 32 0#8) →
      exec .commission s = .next (State.conclude u i c (.accepted [] [])))
  ∧ -- UNLOCK (R340)
    (∀ (s u : State) (i : Nat) (c : Cmd) (agree : Bool), s.executing 0x0C02 = some i → s.desk.cmds[i]? = some c → u = s.dropCmd i → u.lifecycle ≠ .returned → u.lifecycle ≠ .decommissioned → (u.unlockCheck (c.body.take 64) agree).rd F.CURTAIN_UNLOCK_STAT_RESULT = ulACCEPTED →
      exec (.unlock true agree) s = .next (State.settle (if Config.unlockVerifies u.otp.unlock (c.body.take 64) (c.body.drop 64) then
        State.conclude { u.unlockCheck (c.body.take 64) agree with boot.warmDue := true } i c (.done scOK []) else State.conclude (u.unlockRefuse ulSIGNATURE) i c (.done scVERIFY_FAIL []))))
  ∧ -- MODE_REQ (R387)
    (∀ (s u : State) (i : Nat) (c : Cmd), s.executing 0x0C03 = some i → s.desk.cmds[i]? = some c → u = s.dropCmd i → u.modeReq.isSome = false → (u.desk.cmds.any fun x => x.op == 0x0C03 && x.phase == 2) = false → ¬(byteAt c.body 0 = 4 ∧ u.mode = .lead) → u.requestOk (Mode.ofCode (byteAt c.body 0)) = true →
      exec .modeReq s = .next (State.conclude (u.askMode (byteAt c.body 0)) i c (.accepted [byteAt c.body 0, 0] [])))
  ∧ -- RESET (R386)
    (∀ (s u : State) (i : Nat) (c : Cmd), s.executing 0x0C04 = some i → s.desk.cmds[i]? = some c → u = s.dropCmd i →
      exec .reset s = .next (State.conclude { u with boot.warmDue := true } i c (.done scOK [])))
  ∧ -- RETURN (R387)
    (∀ (s u : State) (i : Nat) (c : Cmd) (a : Ans) (v : State), s.executing 0x0C05 = some i → s.desk.cmds[i]? = some c → u = s.dropCmd i → u.lcCmd c 3 = (a, v) →
      exec .returnLc s = .next (State.conclude v i c a))
  ∧ -- DECOMMISSION (R387)
    (∀ (s u : State) (i : Nat) (c : Cmd) (a : Ans) (v : State), s.executing 0x0C06 = some i → s.desk.cmds[i]? = some c → u = s.dropCmd i → u.lcCmd c 4 = (a, v) →
      exec .decommission s = .next (State.conclude v i c a))
  ∧ -- ISSUE (R387)
    (∀ (s u : State) (i : Nat) (c : Cmd) (a : Ans) (v : State), s.executing 0x0C07 = some i → s.desk.cmds[i]? = some c → u = s.dropCmd i → u.lcCmd c (byteAt c.body 16) = (a, v) →
      exec .issue s = .next (State.conclude v i c a))

/-- Completion of the reset, power, clock-source, start-up and settlement commands: each kind of reset clears what its rule says, power comes and goes, the PLL locks or is retried, the start and its settlement run, a recovered clock qualifies and is lost, and exec answers exactly that state. Derived from spec/16_start_up_clocks_and_reset.md.
The clauses name shared operations of the model; where those rest on choices of the model, see log 4, 108, 110, 112, 113, 115, 125. -/
def Obligations.ResetAndStartUpCommands : Prop :=
  -- POWER_ON_RESET (R398)
    (∀ s : State, exec .powerOnReset s = .next (State.wakeRefuge (State.mainReset (State.supplySwitch
      { s with power := true, pin.dead := false, boot.auxLost := false, boot.held := true }) 0 false)))
  ∧ -- PIN_RESET (R398)
    (∀ s : State, s.power = true → s.resetHeard = true → exec .pinReset s = .next (State.mainReset { s with boot.held := true } 1 false))
  ∧ -- WARM_RESET (R398)
    (∀ s : State, s.live? = true → s.boot.warmDue = true → exec .warmReset s = .next ((s.mainReset 2 true).startUp (some s.mode)))
  ∧ -- STEWARD_RESTART (R410)
    (∀ (s a b c : State) (cause : Nat), s.boot.stwDue = some cause → s.live? = true →
      a = s.stewardWipe.closeAll.setCore 8 { CoreSt.reset with pc := 0x20000#32, running := true, cgear := (s.core 8).cgear } →
      b = (a.wr F.SYS_RESET_CAUSE_CAUSE cause).sat F.SYS_RESET_CAUSE_STW_RESTARTS → c = State.stewardCount (if cause = 4 then b.post 0x1003 7 8 [] else b) →
      (c.boot.restarts.length < 3 → exec .stewardRestart s = .next c) ∧
      (3 ≤ c.boot.restarts.length → ∀ d : State, d = State.post { c with boot.restarts := [] } 0x1004 7 8 [] →
        exec .stewardRestart s = .next (if d.mode == .lead && d.peerHealthy then { d with us.hoRequest := true } else d)))
  ∧ -- STEWARD_REATTACH (R410)
    (∀ s : State, s.live? = true → s.desk.running = false → 3 ≤ s.rd F.SYS_BOOT_STAGE → s.rd F.SYS_BOOT_STAGE ≠ 14 →
      exec .stewardReattach s = .next (s.stewardStart fun s => ({ s.closeAll with desk.cmds := [] } : State).emptyServices))
  ∧ -- POWER_FAILURE (R411)
    (∀ (s u : State), s.power = true → u = State.refreshPins { s with pin.dead := true, boot.held := true } →
      exec .powerFailure s = .next (State.supplySwitch { u.mainReset 0 false with power := false }))
  ∧ -- AUX_SUPPLY_LOSS (R467)
    (∀ s : State, s.live? = true → s.boot.auxLost = false →
      exec .auxSupplyLoss s = .next (State.postU { s with boot.auxLost := true, boot.auxBack := none } 0x1007 5 []))
  ∧ -- VDDIO_AUX_RETURN (R467)
    (∀ s : State, s.boot.auxLost = true → exec .vddioAuxReturn s = .next { s with boot.auxLost := false, boot.auxBack := some s.now })
  ∧ -- PLL_LOCK (R401)
    (∀ s : State, s.power = true → s.rd F.SYS_BOOT_STAGE = 0 → s.desk.running = false →
      exec .pllLock s = .next (State.startUp { s with boot.held := false } none))
  ∧ -- PLL_LOCK_RETRY (R408)
    (∀ s : State, exec .pllLockRetry s = .next s)
  ∧ -- RECOVERED_QUALIFY (R397)
    (∀ (s u : State) (diff : Int), s.live? = true → s.flag F.SYS_CLK_CFG_RECOVERED = true → u = s.wr F.SYS_CLK_STAT_DIFF (unsigned 16 diff) →
      ((u.flag F.SYS_CLK_STAT_ON_RECOVERED || !u.linkUp (u.rd F.SYS_CLK_CFG_PORT) || decide (10000 < diff.natAbs)) = true → exec (.recoveredQualify diff) s = .next u) ∧
      ((u.flag F.SYS_CLK_STAT_ON_RECOVERED || !u.linkUp (u.rd F.SYS_CLK_CFG_PORT) || decide (10000 < diff.natAbs)) = false →
        exec (.recoveredQualify diff) s = .next ((u.wr F.SYS_CLK_STAT_ON_RECOVERED 1).postU 0x1005 3 [1])))
  ∧ -- RECOVERED_LOSS (R397)
    (∀ (s u : State), s.live? = true → s.flag F.SYS_CLK_STAT_ON_RECOVERED = true →
      u = (s.wr F.SYS_CLK_STAT_ON_RECOVERED 0).sat F.SYS_CLK_STAT_FALLBACKS → exec .recoveredLoss s = .next ((u.postU 0x1005 3 [0]).postU 0x1006 5 []))
  ∧ -- EARLY_ACT_START (R401)
    (∀ (s : State), s.mode = .rehearsal → s.desk.running = true → s.rd F.SYS_BOOT_STAGE = 3 → s.cfg ≠ 0 →
      exec .earlyActStart s = .next (State.stage (if !Config.actOk s.cfg s.earlyArea then s.post 0x1009 6 8 []
        else if s.partnerAlive then (s.wr F.SYS_BOOT_EARLY_HELD 1).post 0x100D 3 8 [] else s.alignStart.runEarly) 4))
  ∧ -- CALL_ALIGN (R404)
    (∀ (s : State) (smp arr avg : Nat), s.boot.aligning = true → s.desk.running = true → s.servo = servoFREERUN → s.pendingIn Base.STIME = false →
      (s.boot.aligned = false → exec (.callAlign smp arr avg) s = .next (State.commitCall { s with boot.aligned := true } ((arr : Int) - 10000 - boundaryAt 0 s.rate smp))) ∧
      (s.boot.aligned = true → (avg < 10 * ticksPerUs ∨ 30 * ticksPerUs < avg) → exec (.callAlign smp arr avg) s = .next (s.commitCall ((s.call : Int) + avg - 20 * ticksPerUs))) ∧
      (s.boot.aligned = true → ¬(avg < 10 * ticksPerUs ∨ 30 * ticksPerUs < avg) → exec (.callAlign smp arr avg) s = .next s))
  ∧ -- ROLE_SETTLEMENT (R406)
    (∀ (s u a b : State) (m : Mode), s.mode = .rehearsal → s.desk.running = true → s.boot.settling = false → u = s.verifyFull →
      u.rd F.SYS_BOOT_STAGE = 5 → u.timeFit = true → u.commitsDone = true → u.modeReq.isSome = false → u.settledMode = some m →
      a = State.loadCues ((List.range 8).foldl State.holdCore (u.put8 A.CUE_CTRL 0))
        (Config.cueImage (State.peek ((List.range 8).foldl State.holdCore (u.put8 A.CUE_CTRL 0)) 0x20880000 0x50000)) →
      b = a.put8 A.SYS_MODE_REQ (BitVec.ofNat 32 (2 ^ 31 + m.code)) → exec .roleSettlement s = .next { b.put8 A.CUE_CTRL 1 with boot.settling := true })
end

