-- ==== Sys2Proof/Laws/Bits.lean ====
section
/-! SUPPORT. Laws of the bit-field helpers: what reading a field gives after writing a field, and bytes after words. -/

namespace Sys2Proof.Machine

theorem getBits_testBit (w : Word) (hi lo i : Nat) : (getBits w hi lo).testBit i = (decide (i < hi + 1 - lo) && w.toNat.testBit (lo + i)) := by
  simp only [getBits, Nat.testBit_mod_two_pow, Nat.testBit_div_two_pow]
  congr 2; omega

theorem getBits_lt (w : Word) (hi lo : Nat) : getBits w hi lo < 2 ^ (hi + 1 - lo) := Nat.mod_lt _ (Nat.two_pow_pos _)

/-- The bits of a word after a field has been written. -/
theorem setBits_testBit (w : Word) (hi lo v i : Nat) (hl : lo ≤ hi + 1) (hh : hi < 32) :
    (setBits w hi lo v).toNat.testBit i = if lo ≤ i ∧ i ≤ hi then v.testBit (i - lo) else w.toNat.testBit i := by
  have hv : v % 2 ^ (hi + 1 - lo) * 2 ^ lo + w.toNat % 2 ^ lo < 2 ^ (hi + 1) := by
    have h1 : v % 2 ^ (hi + 1 - lo) < 2 ^ (hi + 1 - lo) := Nat.mod_lt _ (Nat.two_pow_pos _)
    have h2 : w.toNat % 2 ^ lo < 2 ^ lo := Nat.mod_lt _ (Nat.two_pow_pos _)
    have h3 : 2 ^ (hi + 1) = 2 ^ (hi + 1 - lo) * 2 ^ lo := by rw [← Nat.pow_add]; congr 1; omega
    have h4 : (v % 2 ^ (hi + 1 - lo) + 1) * 2 ^ lo ≤ 2 ^ (hi + 1 - lo) * 2 ^ lo := Nat.mul_le_mul_right _ h1
    rw [h3]; rw [Nat.add_mul] at h4; omega
  have hlt : w.toNat / 2 ^ (hi + 1) * 2 ^ (hi + 1) + v % 2 ^ (hi + 1 - lo) * 2 ^ lo + w.toNat % 2 ^ lo < 2 ^ 32 := by
    have h32 : 2 ^ 32 = 2 ^ (32 - (hi + 1)) * 2 ^ (hi + 1) := by rw [← Nat.pow_add]; congr 1; omega
    have h5 : w.toNat / 2 ^ (hi + 1) < 2 ^ (32 - (hi + 1)) := by
      rw [Nat.div_lt_iff_lt_mul (Nat.two_pow_pos _), ← h32]; exact w.isLt
    have h6 : (w.toNat / 2 ^ (hi + 1) + 1) * 2 ^ (hi + 1) ≤ 2 ^ (32 - (hi + 1)) * 2 ^ (hi + 1) := Nat.mul_le_mul_right _ h5
    rw [h32]; rw [Nat.add_mul] at h6; omega
  simp only [setBits, BitVec.toNat_ofNat, Nat.mod_eq_of_lt hlt]
  rw [Nat.add_assoc, Nat.mul_comm (w.toNat / _), Nat.testBit_two_pow_mul_add _ hv]
  have h2 : w.toNat % 2 ^ lo < 2 ^ lo := Nat.mod_lt _ (Nat.two_pow_pos _)
  rw [Nat.mul_comm (v % _), Nat.testBit_two_pow_mul_add _ h2, Nat.testBit_mod_two_pow, Nat.testBit_mod_two_pow, Nat.testBit_div_two_pow]
  by_cases c1 : i < hi + 1
  · by_cases c2 : i < lo
    · simp only [c1, c2, ↓reduceIte, decide_true, Bool.true_and]
      rw [if_neg (by omega)]
    · have c3 : i - lo < hi + 1 - lo := by omega
      simp only [c1, c2, ↓reduceIte, c3, decide_true, Bool.true_and]
      rw [if_pos (by omega)]
  · simp only [c1, ↓reduceIte]
    rw [if_neg (by omega)]
    congr 1; omega

/-- A field that was written reads as the value, cut to the field. -/
theorem getBits_setBits (w : Word) (hi lo v : Nat) (hl : lo ≤ hi + 1) (hh : hi < 32) : getBits (setBits w hi lo v) hi lo = v % 2 ^ (hi + 1 - lo) := by
  apply Nat.eq_of_testBit_eq
  intro i
  rw [getBits_testBit, setBits_testBit w hi lo v _ hl hh, Nat.testBit_mod_two_pow]
  by_cases h : i < hi + 1 - lo
  · rw [if_pos (by omega)]; simp
  · simp [h]

/-- Writing a field leaves a field that shares no bit with it. -/
theorem getBits_setBits_of_disjoint (w : Word) (hi lo v hi' lo' : Nat) (hl : lo ≤ hi + 1) (hh : hi < 32) (hd : hi < lo' ∨ hi' < lo) :
    getBits (setBits w hi lo v) hi' lo' = getBits w hi' lo' := by
  apply Nat.eq_of_testBit_eq
  intro i
  rw [getBits_testBit, getBits_testBit, setBits_testBit w hi lo v _ hl hh]
  by_cases h : i < hi' + 1 - lo'
  · rw [if_neg (by omega)]
  · simp [h]

theorem leBytes_length (n v : Nat) : (leBytes n v).length = n := by
  induction n generalizing v with
  | zero => rfl
  | succ n ih => simp [leBytes, ih]

/-- Bytes of a number spell that number. -/
theorem leNat_leBytes (n v : Nat) : leNat (leBytes n v) = v % 2 ^ (8 * n) := by
  induction n generalizing v with
  | zero => simp [leBytes, leNat, Nat.mod_one]
  | succ n ih =>
    simp only [leBytes, leNat, ih, BitVec.toNat_ofNat]
    have h : 2 ^ (8 * (n + 1)) = 2 ^ 8 * 2 ^ (8 * n) := by rw [← Nat.pow_add]; congr 1; omega
    rw [h, Nat.mod_mul]
    rfl

end Sys2Proof.Machine
end

