-- ==== Sys2Proof/Laws/Store.lean ====
section
/-! SUPPORT. Laws of the sparse stores: what a key reads as after each operation, and that every operation keeps the canonical form. -/

namespace Sys2Proof.Machine

variable {α : Type}

@[simp] theorem look_ins (d : Nat → α) (m : List (Nat × α)) (k : Nat) (v : α) (j : Nat) :
    look d (ins m k v) j = if j = k then v else look d m j := by
  induction m with
  | nil => simp [ins, look]
  | cons p t ih =>
    obtain ⟨a, w⟩ := p
    simp only [ins]
    split
    · simp [look]
    · split
      · rename_i h; subst h; simp only [look]; split <;> simp_all
      · rename_i h1 h2
        simp only [look, ih]
        split
        · rename_i h; subst h; simp [Ne.symm h2]
        · rfl

@[simp] theorem look_drop (d : Nat → α) (m : List (Nat × α)) (k j : Nat) :
    look d (drop m k) j = if j = k then d j else look d m j := by
  induction m with
  | nil => simp [drop, look]
  | cons p t ih =>
    obtain ⟨a, w⟩ := p
    simp only [drop] at ih
    by_cases h : a = k
    · subst h; simp only [drop, look, List.filter_cons, bne_self_eq_false, Bool.false_eq_true, ↓reduceIte, ih]; split <;> rfl
    · simp only [drop, List.filter_cons, ne_eq, h, not_false_eq_true, bne_iff_ne, ↓reduceIte, look, ih]
      split
      · rename_i hj; subst hj; simp [h]
      · rfl

/-- A written key reads as the value written, and every other key as before. -/
@[simp] theorem look_put [DecidableEq α] (d : Nat → α) (m : List (Nat × α)) (k : Nat) (v : α) (j : Nat) :
    look d (put d m k v) j = if j = k then v else look d m j := by
  unfold put
  split
  · rename_i h; rw [look_drop]; split
    · rename_i hj; subst hj; exact h.symm
    · rfl
  · rw [look_ins]

/-- A cleared range reads as its default, and every other key as before. -/
@[simp] theorem look_clearRange (d : Nat → α) (m : List (Nat × α)) (lo hi j : Nat) :
    look d (clearRange m lo hi) j = if lo ≤ j ∧ j < hi then d j else look d m j := by
  induction m with
  | nil => simp [clearRange, look]
  | cons p t ih =>
    obtain ⟨a, w⟩ := p
    simp only [clearRange] at ih
    by_cases h : lo ≤ a ∧ a < hi
    · simp only [clearRange, List.filter_cons, h, decide_true, Bool.and_self, Bool.not_true, Bool.false_eq_true, ↓reduceIte, ih, look]
      split
      · rfl
      · split
        · rename_i hj; subst hj; omega
        · rfl
    · have : (!(decide (lo ≤ a) && decide (a < hi))) = true := by simpa [-not_and, not_and_or] using h
      simp only [clearRange, List.filter_cons, this, ↓reduceIte, look, ih]
      split
      · rename_i hj; subst hj; simp [h]
      · rfl

theorem look_append (d : Nat → α) (a b : List (Nat × α)) (j : Nat) :
    look d (a ++ b) j = if a.any (fun p => p.1 == j) then look d a j else look d b j := by
  induction a with
  | nil => simp
  | cons p t ih =>
    obtain ⟨k, w⟩ := p
    by_cases h : j = k
    · subst h; simp [look]
    · have h' : (k == j) = false := by simpa using fun e => h e.symm
      simp only [List.cons_append, look, h, ↓reduceIte, ih, List.any_cons, h', Bool.false_or]

theorem look_filter (d : Nat → α) (m : List (Nat × α)) (f : Nat → Bool) (j : Nat) :
    look d (m.filter fun p => f p.1) j = if f j then look d m j else d j := by
  induction m with
  | nil => simp [look]
  | cons p t ih =>
    obtain ⟨k, w⟩ := p
    by_cases h : j = k
    · subst h; by_cases hf : f j <;> simp_all [look]
    · by_cases hf : f k <;> simp_all [look]

theorem look_of_not_any (d : Nat → α) (m : List (Nat × α)) (j : Nat) (h : m.any (fun p => p.1 == j) = false) : look d m j = d j := by
  induction m with
  | nil => rfl
  | cons p t ih =>
    obtain ⟨k, w⟩ := p
    simp only [List.any_cons, Bool.or_eq_false_iff, beq_eq_false_iff_ne, ne_eq] at h
    simp only [look, ih h.2, if_neg (fun e => h.1 (Eq.symm e))]

/-- A splice reads as its source inside the range and as its destination outside. -/
@[simp] theorem look_splice (d : Nat → α) (dst src : List (Nat × α)) (lo hi j : Nat) (hl : lo ≤ hi) :
    look d (splice dst src lo hi) j = if lo ≤ j ∧ j < hi then look d src j else look d dst j := by
  have e1 := look_filter d dst (fun k => decide (k < lo)) j
  have e2 := look_filter d src (fun k => decide (lo ≤ k) && decide (k < hi)) j
  have e3 := look_filter d dst (fun k => decide (hi ≤ k)) j
  simp only [splice, look_append]
  by_cases h1 : j < lo
  · have n2 : ¬ (lo ≤ j ∧ j < hi) := by omega
    have a2 : (src.filter fun p => decide (lo ≤ p.1) && decide (p.1 < hi)).any (fun p => p.1 == j) = false := by
      simp only [List.any_eq_false, List.mem_filter, Bool.and_eq_true, decide_eq_true_eq, beq_iff_eq]
      intro p hp; omega
    simp only [List.any_append, a2, Bool.or_false, n2, ↓reduceIte]
    by_cases h : (dst.filter fun p => decide (p.1 < lo)).any (fun p => p.1 == j) = true
    · simp only [h, ↓reduceIte, e1]; simp [h1]
    · have h' := Bool.eq_false_iff.2 h
      simp only [h', Bool.false_eq_true, ↓reduceIte]
      rw [e3, ← e1.symm.trans (look_of_not_any d _ j h')]
      have : ¬ hi ≤ j := by omega
      simp [this, h1]
  · have a1 : (dst.filter fun p => decide (p.1 < lo)).any (fun p => p.1 == j) = false := by
      simp only [List.any_eq_false, List.mem_filter, decide_eq_true_eq, beq_iff_eq]
      intro p hp; omega
    simp only [List.any_append, a1, Bool.false_or, Bool.false_eq_true, ↓reduceIte]
    by_cases h2 : j < hi
    · have n2 : lo ≤ j ∧ j < hi := by omega
      simp only [n2, and_self, ↓reduceIte]
      by_cases h : (src.filter fun p => decide (lo ≤ p.1) && decide (p.1 < hi)).any (fun p => p.1 == j) = true
      · simp only [h, ↓reduceIte, e2]; simp [n2.1, n2.2]
      · have h' := Bool.eq_false_iff.2 h
        simp only [h', Bool.false_eq_true, ↓reduceIte, e3]
        have hh : ¬ hi ≤ j := by omega
        have := e2.symm.trans (look_of_not_any d _ j h')
        simp [n2.1, n2.2] at this
        simp [hh, this]
    · have n2 : ¬ (lo ≤ j ∧ j < hi) := by omega
      have a2 : (src.filter fun p => decide (lo ≤ p.1) && decide (p.1 < hi)).any (fun p => p.1 == j) = false := by
        simp only [List.any_eq_false, List.mem_filter, Bool.and_eq_true, decide_eq_true_eq, beq_iff_eq]
        intro p hp; omega
      have hh : hi ≤ j := by omega
      simp only [a2, Bool.false_eq_true, ↓reduceIte, n2, e3]
      simp [hh]

/-! ## The canonical form -/

theorem risingFrom_mono {n k : Nat} {m : List (Nat × α)} (h : n ≤ k) (hm : risingFrom k m = true) : risingFrom n m = true := by
  cases m with
  | nil => rfl
  | cons p t => obtain ⟨a, w⟩ := p; simp only [risingFrom, Bool.and_eq_true, decide_eq_true_eq] at hm ⊢; exact ⟨by omega, hm.2⟩

theorem risingFrom_filter {n : Nat} {m : List (Nat × α)} (f : Nat × α → Bool) (h : risingFrom n m = true) : risingFrom n (m.filter f) = true := by
  induction m generalizing n with
  | nil => rfl
  | cons p t ih =>
    obtain ⟨a, w⟩ := p
    simp only [risingFrom, Bool.and_eq_true, decide_eq_true_eq] at h
    simp only [List.filter_cons]
    split
    · simp only [risingFrom, Bool.and_eq_true, decide_eq_true_eq]; exact ⟨h.1, ih h.2⟩
    · exact risingFrom_mono (by omega) (ih h.2)

theorem risingFrom_ins {n k : Nat} {v : α} {m : List (Nat × α)} (hk : n ≤ k) (h : risingFrom n m = true) : risingFrom n (ins m k v) = true := by
  induction m generalizing n with
  | nil => simp [ins, risingFrom, hk]
  | cons p t ih =>
    obtain ⟨a, w⟩ := p
    simp only [risingFrom, Bool.and_eq_true, decide_eq_true_eq] at h
    simp only [ins]
    split
    · simp only [risingFrom, Bool.and_eq_true, decide_eq_true_eq]; exact ⟨hk, by omega, h.2⟩
    · split
      · rename_i hka; subst hka; simp only [risingFrom, Bool.and_eq_true, decide_eq_true_eq]; exact ⟨h.1, h.2⟩
      · simp only [risingFrom, Bool.and_eq_true, decide_eq_true_eq]; exact ⟨h.1, ih (by omega) h.2⟩

theorem noDefault_ins [DecidableEq α] {d : Nat → α} {k : Nat} {v : α} {m : List (Nat × α)} (hv : v ≠ d k) (h : noDefault d m = true) :
    noDefault d (ins m k v) = true := by
  induction m with
  | nil => simp [ins, noDefault, hv]
  | cons p t ih =>
    obtain ⟨a, w⟩ := p
    simp only [noDefault, List.all_cons, Bool.and_eq_true, decide_eq_true_eq] at h ih
    simp only [ins]
    split
    · simp only [noDefault, List.all_cons, Bool.and_eq_true, decide_eq_true_eq]; exact ⟨hv, h⟩
    · split
      · simp only [noDefault, List.all_cons, Bool.and_eq_true, decide_eq_true_eq]; exact ⟨hv, h.2⟩
      · simp only [noDefault, List.all_cons, Bool.and_eq_true, decide_eq_true_eq]; exact ⟨h.1, ih h.2⟩

theorem canonical_filter [DecidableEq α] {d : Nat → α} {m : List (Nat × α)} (f : Nat × α → Bool) (h : canonical d m = true) :
    canonical d (m.filter f) = true := by
  simp only [canonical, Bool.and_eq_true] at h ⊢
  refine ⟨risingFrom_filter f h.1, ?_⟩
  have := h.2
  simp only [noDefault, List.all_eq_true, decide_eq_true_eq] at this ⊢
  intro p hp
  exact this p (List.mem_filter.1 hp).1

/-- The empty store is canonical. -/
theorem canonical_nil [DecidableEq α] (d : Nat → α) : canonical d [] = true := rfl

/-- Writing keeps the canonical form. -/
theorem canonical_put [DecidableEq α] {d : Nat → α} {m : List (Nat × α)} (k : Nat) (v : α) (h : canonical d m = true) :
    canonical d (put d m k v) = true := by
  unfold put
  split
  · exact canonical_filter _ h
  · rename_i hv
    simp only [canonical, Bool.and_eq_true] at h ⊢
    exact ⟨risingFrom_ins (Nat.zero_le _) h.1, noDefault_ins hv h.2⟩

/-- Clearing a range keeps the canonical form. -/
theorem canonical_clearRange [DecidableEq α] {d : Nat → α} {m : List (Nat × α)} (lo hi : Nat) (h : canonical d m = true) :
    canonical d (clearRange m lo hi) = true := canonical_filter _ h

theorem risingFrom_append {n k : Nat} {a b : List (Nat × α)} (ha : risingFrom n a = true) (hlt : ∀ p ∈ a, p.1 < k) (hn : n ≤ k)
    (hb : risingFrom k b = true) : risingFrom n (a ++ b) = true := by
  induction a generalizing n with
  | nil => exact risingFrom_mono hn hb
  | cons p t ih =>
    obtain ⟨x, w⟩ := p
    simp only [risingFrom, Bool.and_eq_true, decide_eq_true_eq] at ha
    have hx : x < k := hlt (x, w) (by simp)
    simp only [List.cons_append, risingFrom, Bool.and_eq_true, decide_eq_true_eq]
    exact ⟨ha.1, ih ha.2 (fun q hq => hlt q (by simp [hq])) (by omega)⟩

theorem risingFrom_of_le {n k : Nat} {m : List (Nat × α)} (h : risingFrom n m = true) (hk : ∀ p ∈ m, k ≤ p.1) : risingFrom k m = true := by
  cases m with
  | nil => rfl
  | cons p t =>
    obtain ⟨a, w⟩ := p
    simp only [risingFrom, Bool.and_eq_true, decide_eq_true_eq] at h ⊢
    exact ⟨hk (a, w) (by simp), h.2⟩

/-- A splice of canonical stores is canonical. -/
theorem canonical_splice [DecidableEq α] {d : Nat → α} {dst src : List (Nat × α)} {lo hi : Nat} (hl : lo ≤ hi) (hd : canonical d dst = true)
    (hs : canonical d src = true) : canonical d (splice dst src lo hi) = true := by
  simp only [canonical, Bool.and_eq_true] at hd hs ⊢
  refine ⟨?_, ?_⟩
  · unfold splice
    rw [List.append_assoc]
    refine risingFrom_append (k := lo) (risingFrom_filter _ hd.1) ?_ (Nat.zero_le _) ?_
    · intro p hp; simpa using (List.mem_filter.1 hp).2
    · refine risingFrom_append (k := hi) (risingFrom_of_le (risingFrom_filter _ hs.1) ?_) ?_ hl (risingFrom_of_le (risingFrom_filter _ hd.1) ?_)
      · intro p hp; have := (List.mem_filter.1 hp).2; simp at this; exact this.1
      · intro p hp; have := (List.mem_filter.1 hp).2; simp at this; exact this.2
      · intro p hp; simpa using (List.mem_filter.1 hp).2
  · have h1 := hd.2; have h2 := hs.2
    simp only [noDefault, List.all_eq_true, decide_eq_true_eq] at h1 h2 ⊢
    intro p hp
    simp only [splice, List.mem_append, List.mem_filter] at hp
    rcases hp with (⟨hp, -⟩ | ⟨hp, -⟩) | ⟨hp, -⟩
    · exact h1 p hp
    · exact h2 p hp
    · exact h1 p hp

end Sys2Proof.Machine
end

