-- ==== Sys2Proof/Laws/State.lean ====
section
/-! SUPPORT. Laws of the state's primitive updates: one lemma per field per update, what a register, a field, a counter or a byte reads as after each, and
that the memory operations keep the canonical form. -/

namespace Sys2Proof.Machine

/-! ## setReg changes `regs` alone -/

@[simp] theorem State.setReg_live (s : State) (a : Nat) (w : Word) : (s.setReg a w).live = s.live := rfl
@[simp] theorem State.setReg_cnt (s : State) (a : Nat) (w : Word) : (s.setReg a w).cnt = s.cnt := rfl
@[simp] theorem State.setReg_mem (s : State) (a : Nat) (w : Word) : (s.setReg a w).mem = s.mem := rfl
@[simp] theorem State.setReg_st (s : State) (a : Nat) (w : Word) : (s.setReg a w).st = s.st := rfl
@[simp] theorem State.setReg_power (s : State) (a : Nat) (w : Word) : (s.setReg a w).power = s.power := rfl
@[simp] theorem State.setReg_timers (s : State) (a : Nat) (w : Word) : (s.setReg a w).timers = s.timers := rfl
@[simp] theorem State.setReg_frameOnce (s : State) (a : Nat) (w : Word) : (s.setReg a w).frameOnce = s.frameOnce := rfl
@[simp] theorem State.setReg_fresh (s : State) (a : Nat) (w : Word) : (s.setReg a w).fresh = s.fresh := rfl
@[simp] theorem State.setReg_wire (s : State) (a : Nat) (w : Word) : (s.setReg a w).wire = s.wire := rfl
@[simp] theorem State.setReg_pending (s : State) (a : Nat) (w : Word) : (s.setReg a w).pending = s.pending := rfl
@[simp] theorem State.setReg_alarms (s : State) (a : Nat) (w : Word) : (s.setReg a w).alarms = s.alarms := rfl
@[simp] theorem State.setReg_viol (s : State) (a : Nat) (w : Word) : (s.setReg a w).viol = s.viol := rfl
@[simp] theorem State.setReg_violOvf (s : State) (a : Nat) (w : Word) : (s.setReg a w).violOvf = s.violOvf := rfl
@[simp] theorem State.setReg_violAddr (s : State) (a : Nat) (w : Word) : (s.setReg a w).violAddr = s.violAddr := rfl
@[simp] theorem State.setReg_cores (s : State) (a : Nat) (w : Word) : (s.setReg a w).cores = s.cores := rfl
@[simp] theorem State.setReg_packers (s : State) (a : Nat) (w : Word) : (s.setReg a w).packers = s.packers := rfl
@[simp] theorem State.setReg_book (s : State) (a : Nat) (w : Word) : (s.setReg a w).book = s.book := rfl
@[simp] theorem State.setReg_trace (s : State) (a : Nat) (w : Word) : (s.setReg a w).trace = s.trace := rfl
@[simp] theorem State.setReg_terr (s : State) (a : Nat) (w : Word) : (s.setReg a w).terr = s.terr := rfl
@[simp] theorem State.setReg_wing (s : State) (a : Nat) (w : Word) : (s.setReg a w).wing = s.wing := rfl
@[simp] theorem State.setReg_stime (s : State) (a : Nat) (w : Word) : (s.setReg a w).stime = s.stime := rfl
@[simp] theorem State.setReg_cue (s : State) (a : Nat) (w : Word) : (s.setReg a w).cue = s.cue := rfl
@[simp] theorem State.setReg_ens (s : State) (a : Nat) (w : Word) : (s.setReg a w).ens = s.ens := rfl
@[simp] theorem State.setReg_pin (s : State) (a : Nat) (w : Word) : (s.setReg a w).pin = s.pin := rfl
@[simp] theorem State.setReg_sw (s : State) (a : Nat) (w : Word) : (s.setReg a w).sw = s.sw := rfl
@[simp] theorem State.setReg_sol (s : State) (a : Nat) (w : Word) : (s.setReg a w).sol = s.sol := rfl
@[simp] theorem State.setReg_ports (s : State) (a : Nat) (w : Word) : (s.setReg a w).ports = s.ports := rfl
@[simp] theorem State.setReg_dtake (s : State) (a : Nat) (w : Word) : (s.setReg a w).dtake = s.dtake := rfl
@[simp] theorem State.setReg_us (s : State) (a : Nat) (w : Word) : (s.setReg a w).us = s.us := rfl
@[simp] theorem State.setReg_chorus (s : State) (a : Nat) (w : Word) : (s.setReg a w).chorus = s.chorus := rfl
@[simp] theorem State.setReg_pendCue (s : State) (a : Nat) (w : Word) : (s.setReg a w).pendCue = s.pendCue := rfl
@[simp] theorem State.setReg_modeReq (s : State) (a : Nat) (w : Word) : (s.setReg a w).modeReq = s.modeReq := rfl
@[simp] theorem State.setReg_lcTarget (s : State) (a : Nat) (w : Word) : (s.setReg a w).lcTarget = s.lcTarget := rfl
@[simp] theorem State.setReg_rdata (s : State) (a : Nat) (w : Word) : (s.setReg a w).rdata = s.rdata := rfl
@[simp] theorem State.setReg_troupe (s : State) (a : Nat) (w : Word) : (s.setReg a w).troupe = s.troupe := rfl
@[simp] theorem State.setReg_massif (s : State) (a : Nat) (w : Word) : (s.setReg a w).massif = s.massif := rfl
@[simp] theorem State.setReg_scree (s : State) (a : Nat) (w : Word) : (s.setReg a w).scree = s.scree := rfl
@[simp] theorem State.setReg_brk (s : State) (a : Nat) (w : Word) : (s.setReg a w).brk = s.brk := rfl
@[simp] theorem State.setReg_badge (s : State) (a : Nat) (w : Word) : (s.setReg a w).badge = s.badge := rfl
@[simp] theorem State.setReg_cart (s : State) (a : Nat) (w : Word) : (s.setReg a w).cart = s.cart := rfl
@[simp] theorem State.setReg_refuge (s : State) (a : Nat) (w : Word) : (s.setReg a w).refuge = s.refuge := rfl
@[simp] theorem State.setReg_curtain (s : State) (a : Nat) (w : Word) : (s.setReg a w).curtain = s.curtain := rfl
@[simp] theorem State.setReg_waits (s : State) (a : Nat) (w : Word) : (s.setReg a w).waits = s.waits := rfl
@[simp] theorem State.setReg_written (s : State) (a : Nat) (w : Word) : (s.setReg a w).written = s.written := rfl
@[simp] theorem State.setReg_cfg (s : State) (a : Nat) (w : Word) : (s.setReg a w).cfg = s.cfg := rfl
@[simp] theorem State.setReg_desk (s : State) (a : Nat) (w : Word) : (s.setReg a w).desk = s.desk := rfl
@[simp] theorem State.setReg_otp (s : State) (a : Nat) (w : Word) : (s.setReg a w).otp = s.otp := rfl
@[simp] theorem State.setReg_boot (s : State) (a : Nat) (w : Word) : (s.setReg a w).boot = s.boot := rfl

/-! ## wr changes `regs` alone -/

@[simp] theorem State.wr_live (s : State) (f : Fld) (v : Nat) : (s.wr f v).live = s.live := rfl
@[simp] theorem State.wr_cnt (s : State) (f : Fld) (v : Nat) : (s.wr f v).cnt = s.cnt := rfl
@[simp] theorem State.wr_mem (s : State) (f : Fld) (v : Nat) : (s.wr f v).mem = s.mem := rfl
@[simp] theorem State.wr_st (s : State) (f : Fld) (v : Nat) : (s.wr f v).st = s.st := rfl
@[simp] theorem State.wr_power (s : State) (f : Fld) (v : Nat) : (s.wr f v).power = s.power := rfl
@[simp] theorem State.wr_timers (s : State) (f : Fld) (v : Nat) : (s.wr f v).timers = s.timers := rfl
@[simp] theorem State.wr_frameOnce (s : State) (f : Fld) (v : Nat) : (s.wr f v).frameOnce = s.frameOnce := rfl
@[simp] theorem State.wr_fresh (s : State) (f : Fld) (v : Nat) : (s.wr f v).fresh = s.fresh := rfl
@[simp] theorem State.wr_wire (s : State) (f : Fld) (v : Nat) : (s.wr f v).wire = s.wire := rfl
@[simp] theorem State.wr_pending (s : State) (f : Fld) (v : Nat) : (s.wr f v).pending = s.pending := rfl
@[simp] theorem State.wr_alarms (s : State) (f : Fld) (v : Nat) : (s.wr f v).alarms = s.alarms := rfl
@[simp] theorem State.wr_viol (s : State) (f : Fld) (v : Nat) : (s.wr f v).viol = s.viol := rfl
@[simp] theorem State.wr_violOvf (s : State) (f : Fld) (v : Nat) : (s.wr f v).violOvf = s.violOvf := rfl
@[simp] theorem State.wr_violAddr (s : State) (f : Fld) (v : Nat) : (s.wr f v).violAddr = s.violAddr := rfl
@[simp] theorem State.wr_cores (s : State) (f : Fld) (v : Nat) : (s.wr f v).cores = s.cores := rfl
@[simp] theorem State.wr_packers (s : State) (f : Fld) (v : Nat) : (s.wr f v).packers = s.packers := rfl
@[simp] theorem State.wr_book (s : State) (f : Fld) (v : Nat) : (s.wr f v).book = s.book := rfl
@[simp] theorem State.wr_trace (s : State) (f : Fld) (v : Nat) : (s.wr f v).trace = s.trace := rfl
@[simp] theorem State.wr_terr (s : State) (f : Fld) (v : Nat) : (s.wr f v).terr = s.terr := rfl
@[simp] theorem State.wr_wing (s : State) (f : Fld) (v : Nat) : (s.wr f v).wing = s.wing := rfl
@[simp] theorem State.wr_stime (s : State) (f : Fld) (v : Nat) : (s.wr f v).stime = s.stime := rfl
@[simp] theorem State.wr_cue (s : State) (f : Fld) (v : Nat) : (s.wr f v).cue = s.cue := rfl
@[simp] theorem State.wr_ens (s : State) (f : Fld) (v : Nat) : (s.wr f v).ens = s.ens := rfl
@[simp] theorem State.wr_pin (s : State) (f : Fld) (v : Nat) : (s.wr f v).pin = s.pin := rfl
@[simp] theorem State.wr_sw (s : State) (f : Fld) (v : Nat) : (s.wr f v).sw = s.sw := rfl
@[simp] theorem State.wr_sol (s : State) (f : Fld) (v : Nat) : (s.wr f v).sol = s.sol := rfl
@[simp] theorem State.wr_ports (s : State) (f : Fld) (v : Nat) : (s.wr f v).ports = s.ports := rfl
@[simp] theorem State.wr_dtake (s : State) (f : Fld) (v : Nat) : (s.wr f v).dtake = s.dtake := rfl
@[simp] theorem State.wr_us (s : State) (f : Fld) (v : Nat) : (s.wr f v).us = s.us := rfl
@[simp] theorem State.wr_chorus (s : State) (f : Fld) (v : Nat) : (s.wr f v).chorus = s.chorus := rfl
@[simp] theorem State.wr_pendCue (s : State) (f : Fld) (v : Nat) : (s.wr f v).pendCue = s.pendCue := rfl
@[simp] theorem State.wr_modeReq (s : State) (f : Fld) (v : Nat) : (s.wr f v).modeReq = s.modeReq := rfl
@[simp] theorem State.wr_lcTarget (s : State) (f : Fld) (v : Nat) : (s.wr f v).lcTarget = s.lcTarget := rfl
@[simp] theorem State.wr_rdata (s : State) (f : Fld) (v : Nat) : (s.wr f v).rdata = s.rdata := rfl
@[simp] theorem State.wr_troupe (s : State) (f : Fld) (v : Nat) : (s.wr f v).troupe = s.troupe := rfl
@[simp] theorem State.wr_massif (s : State) (f : Fld) (v : Nat) : (s.wr f v).massif = s.massif := rfl
@[simp] theorem State.wr_scree (s : State) (f : Fld) (v : Nat) : (s.wr f v).scree = s.scree := rfl
@[simp] theorem State.wr_brk (s : State) (f : Fld) (v : Nat) : (s.wr f v).brk = s.brk := rfl
@[simp] theorem State.wr_badge (s : State) (f : Fld) (v : Nat) : (s.wr f v).badge = s.badge := rfl
@[simp] theorem State.wr_cart (s : State) (f : Fld) (v : Nat) : (s.wr f v).cart = s.cart := rfl
@[simp] theorem State.wr_refuge (s : State) (f : Fld) (v : Nat) : (s.wr f v).refuge = s.refuge := rfl
@[simp] theorem State.wr_curtain (s : State) (f : Fld) (v : Nat) : (s.wr f v).curtain = s.curtain := rfl
@[simp] theorem State.wr_waits (s : State) (f : Fld) (v : Nat) : (s.wr f v).waits = s.waits := rfl
@[simp] theorem State.wr_written (s : State) (f : Fld) (v : Nat) : (s.wr f v).written = s.written := rfl
@[simp] theorem State.wr_cfg (s : State) (f : Fld) (v : Nat) : (s.wr f v).cfg = s.cfg := rfl
@[simp] theorem State.wr_desk (s : State) (f : Fld) (v : Nat) : (s.wr f v).desk = s.desk := rfl
@[simp] theorem State.wr_otp (s : State) (f : Fld) (v : Nat) : (s.wr f v).otp = s.otp := rfl
@[simp] theorem State.wr_boot (s : State) (f : Fld) (v : Nat) : (s.wr f v).boot = s.boot := rfl

/-! ## sat changes `regs` alone -/

@[simp] theorem State.sat_live (s : State) (f : Fld) (n : Nat) : (s.sat f n).live = s.live := rfl
@[simp] theorem State.sat_cnt (s : State) (f : Fld) (n : Nat) : (s.sat f n).cnt = s.cnt := rfl
@[simp] theorem State.sat_mem (s : State) (f : Fld) (n : Nat) : (s.sat f n).mem = s.mem := rfl
@[simp] theorem State.sat_st (s : State) (f : Fld) (n : Nat) : (s.sat f n).st = s.st := rfl
@[simp] theorem State.sat_power (s : State) (f : Fld) (n : Nat) : (s.sat f n).power = s.power := rfl
@[simp] theorem State.sat_timers (s : State) (f : Fld) (n : Nat) : (s.sat f n).timers = s.timers := rfl
@[simp] theorem State.sat_frameOnce (s : State) (f : Fld) (n : Nat) : (s.sat f n).frameOnce = s.frameOnce := rfl
@[simp] theorem State.sat_fresh (s : State) (f : Fld) (n : Nat) : (s.sat f n).fresh = s.fresh := rfl
@[simp] theorem State.sat_wire (s : State) (f : Fld) (n : Nat) : (s.sat f n).wire = s.wire := rfl
@[simp] theorem State.sat_pending (s : State) (f : Fld) (n : Nat) : (s.sat f n).pending = s.pending := rfl
@[simp] theorem State.sat_alarms (s : State) (f : Fld) (n : Nat) : (s.sat f n).alarms = s.alarms := rfl
@[simp] theorem State.sat_viol (s : State) (f : Fld) (n : Nat) : (s.sat f n).viol = s.viol := rfl
@[simp] theorem State.sat_violOvf (s : State) (f : Fld) (n : Nat) : (s.sat f n).violOvf = s.violOvf := rfl
@[simp] theorem State.sat_violAddr (s : State) (f : Fld) (n : Nat) : (s.sat f n).violAddr = s.violAddr := rfl
@[simp] theorem State.sat_cores (s : State) (f : Fld) (n : Nat) : (s.sat f n).cores = s.cores := rfl
@[simp] theorem State.sat_packers (s : State) (f : Fld) (n : Nat) : (s.sat f n).packers = s.packers := rfl
@[simp] theorem State.sat_book (s : State) (f : Fld) (n : Nat) : (s.sat f n).book = s.book := rfl
@[simp] theorem State.sat_trace (s : State) (f : Fld) (n : Nat) : (s.sat f n).trace = s.trace := rfl
@[simp] theorem State.sat_terr (s : State) (f : Fld) (n : Nat) : (s.sat f n).terr = s.terr := rfl
@[simp] theorem State.sat_wing (s : State) (f : Fld) (n : Nat) : (s.sat f n).wing = s.wing := rfl
@[simp] theorem State.sat_stime (s : State) (f : Fld) (n : Nat) : (s.sat f n).stime = s.stime := rfl
@[simp] theorem State.sat_cue (s : State) (f : Fld) (n : Nat) : (s.sat f n).cue = s.cue := rfl
@[simp] theorem State.sat_ens (s : State) (f : Fld) (n : Nat) : (s.sat f n).ens = s.ens := rfl
@[simp] theorem State.sat_pin (s : State) (f : Fld) (n : Nat) : (s.sat f n).pin = s.pin := rfl
@[simp] theorem State.sat_sw (s : State) (f : Fld) (n : Nat) : (s.sat f n).sw = s.sw := rfl
@[simp] theorem State.sat_sol (s : State) (f : Fld) (n : Nat) : (s.sat f n).sol = s.sol := rfl
@[simp] theorem State.sat_ports (s : State) (f : Fld) (n : Nat) : (s.sat f n).ports = s.ports := rfl
@[simp] theorem State.sat_dtake (s : State) (f : Fld) (n : Nat) : (s.sat f n).dtake = s.dtake := rfl
@[simp] theorem State.sat_us (s : State) (f : Fld) (n : Nat) : (s.sat f n).us = s.us := rfl
@[simp] theorem State.sat_chorus (s : State) (f : Fld) (n : Nat) : (s.sat f n).chorus = s.chorus := rfl
@[simp] theorem State.sat_pendCue (s : State) (f : Fld) (n : Nat) : (s.sat f n).pendCue = s.pendCue := rfl
@[simp] theorem State.sat_modeReq (s : State) (f : Fld) (n : Nat) : (s.sat f n).modeReq = s.modeReq := rfl
@[simp] theorem State.sat_lcTarget (s : State) (f : Fld) (n : Nat) : (s.sat f n).lcTarget = s.lcTarget := rfl
@[simp] theorem State.sat_rdata (s : State) (f : Fld) (n : Nat) : (s.sat f n).rdata = s.rdata := rfl
@[simp] theorem State.sat_troupe (s : State) (f : Fld) (n : Nat) : (s.sat f n).troupe = s.troupe := rfl
@[simp] theorem State.sat_massif (s : State) (f : Fld) (n : Nat) : (s.sat f n).massif = s.massif := rfl
@[simp] theorem State.sat_scree (s : State) (f : Fld) (n : Nat) : (s.sat f n).scree = s.scree := rfl
@[simp] theorem State.sat_brk (s : State) (f : Fld) (n : Nat) : (s.sat f n).brk = s.brk := rfl
@[simp] theorem State.sat_badge (s : State) (f : Fld) (n : Nat) : (s.sat f n).badge = s.badge := rfl
@[simp] theorem State.sat_cart (s : State) (f : Fld) (n : Nat) : (s.sat f n).cart = s.cart := rfl
@[simp] theorem State.sat_refuge (s : State) (f : Fld) (n : Nat) : (s.sat f n).refuge = s.refuge := rfl
@[simp] theorem State.sat_curtain (s : State) (f : Fld) (n : Nat) : (s.sat f n).curtain = s.curtain := rfl
@[simp] theorem State.sat_waits (s : State) (f : Fld) (n : Nat) : (s.sat f n).waits = s.waits := rfl
@[simp] theorem State.sat_written (s : State) (f : Fld) (n : Nat) : (s.sat f n).written = s.written := rfl
@[simp] theorem State.sat_cfg (s : State) (f : Fld) (n : Nat) : (s.sat f n).cfg = s.cfg := rfl
@[simp] theorem State.sat_desk (s : State) (f : Fld) (n : Nat) : (s.sat f n).desk = s.desk := rfl
@[simp] theorem State.sat_otp (s : State) (f : Fld) (n : Nat) : (s.sat f n).otp = s.otp := rfl
@[simp] theorem State.sat_boot (s : State) (f : Fld) (n : Nat) : (s.sat f n).boot = s.boot := rfl

/-! ## wrap changes `regs` alone -/

@[simp] theorem State.wrap_live (s : State) (f : Fld) (n : Nat) : (s.wrap f n).live = s.live := rfl
@[simp] theorem State.wrap_cnt (s : State) (f : Fld) (n : Nat) : (s.wrap f n).cnt = s.cnt := rfl
@[simp] theorem State.wrap_mem (s : State) (f : Fld) (n : Nat) : (s.wrap f n).mem = s.mem := rfl
@[simp] theorem State.wrap_st (s : State) (f : Fld) (n : Nat) : (s.wrap f n).st = s.st := rfl
@[simp] theorem State.wrap_power (s : State) (f : Fld) (n : Nat) : (s.wrap f n).power = s.power := rfl
@[simp] theorem State.wrap_timers (s : State) (f : Fld) (n : Nat) : (s.wrap f n).timers = s.timers := rfl
@[simp] theorem State.wrap_frameOnce (s : State) (f : Fld) (n : Nat) : (s.wrap f n).frameOnce = s.frameOnce := rfl
@[simp] theorem State.wrap_fresh (s : State) (f : Fld) (n : Nat) : (s.wrap f n).fresh = s.fresh := rfl
@[simp] theorem State.wrap_wire (s : State) (f : Fld) (n : Nat) : (s.wrap f n).wire = s.wire := rfl
@[simp] theorem State.wrap_pending (s : State) (f : Fld) (n : Nat) : (s.wrap f n).pending = s.pending := rfl
@[simp] theorem State.wrap_alarms (s : State) (f : Fld) (n : Nat) : (s.wrap f n).alarms = s.alarms := rfl
@[simp] theorem State.wrap_viol (s : State) (f : Fld) (n : Nat) : (s.wrap f n).viol = s.viol := rfl
@[simp] theorem State.wrap_violOvf (s : State) (f : Fld) (n : Nat) : (s.wrap f n).violOvf = s.violOvf := rfl
@[simp] theorem State.wrap_violAddr (s : State) (f : Fld) (n : Nat) : (s.wrap f n).violAddr = s.violAddr := rfl
@[simp] theorem State.wrap_cores (s : State) (f : Fld) (n : Nat) : (s.wrap f n).cores = s.cores := rfl
@[simp] theorem State.wrap_packers (s : State) (f : Fld) (n : Nat) : (s.wrap f n).packers = s.packers := rfl
@[simp] theorem State.wrap_book (s : State) (f : Fld) (n : Nat) : (s.wrap f n).book = s.book := rfl
@[simp] theorem State.wrap_trace (s : State) (f : Fld) (n : Nat) : (s.wrap f n).trace = s.trace := rfl
@[simp] theorem State.wrap_terr (s : State) (f : Fld) (n : Nat) : (s.wrap f n).terr = s.terr := rfl
@[simp] theorem State.wrap_wing (s : State) (f : Fld) (n : Nat) : (s.wrap f n).wing = s.wing := rfl
@[simp] theorem State.wrap_stime (s : State) (f : Fld) (n : Nat) : (s.wrap f n).stime = s.stime := rfl
@[simp] theorem State.wrap_cue (s : State) (f : Fld) (n : Nat) : (s.wrap f n).cue = s.cue := rfl
@[simp] theorem State.wrap_ens (s : State) (f : Fld) (n : Nat) : (s.wrap f n).ens = s.ens := rfl
@[simp] theorem State.wrap_pin (s : State) (f : Fld) (n : Nat) : (s.wrap f n).pin = s.pin := rfl
@[simp] theorem State.wrap_sw (s : State) (f : Fld) (n : Nat) : (s.wrap f n).sw = s.sw := rfl
@[simp] theorem State.wrap_sol (s : State) (f : Fld) (n : Nat) : (s.wrap f n).sol = s.sol := rfl
@[simp] theorem State.wrap_ports (s : State) (f : Fld) (n : Nat) : (s.wrap f n).ports = s.ports := rfl
@[simp] theorem State.wrap_dtake (s : State) (f : Fld) (n : Nat) : (s.wrap f n).dtake = s.dtake := rfl
@[simp] theorem State.wrap_us (s : State) (f : Fld) (n : Nat) : (s.wrap f n).us = s.us := rfl
@[simp] theorem State.wrap_chorus (s : State) (f : Fld) (n : Nat) : (s.wrap f n).chorus = s.chorus := rfl
@[simp] theorem State.wrap_pendCue (s : State) (f : Fld) (n : Nat) : (s.wrap f n).pendCue = s.pendCue := rfl
@[simp] theorem State.wrap_modeReq (s : State) (f : Fld) (n : Nat) : (s.wrap f n).modeReq = s.modeReq := rfl
@[simp] theorem State.wrap_lcTarget (s : State) (f : Fld) (n : Nat) : (s.wrap f n).lcTarget = s.lcTarget := rfl
@[simp] theorem State.wrap_rdata (s : State) (f : Fld) (n : Nat) : (s.wrap f n).rdata = s.rdata := rfl
@[simp] theorem State.wrap_troupe (s : State) (f : Fld) (n : Nat) : (s.wrap f n).troupe = s.troupe := rfl
@[simp] theorem State.wrap_massif (s : State) (f : Fld) (n : Nat) : (s.wrap f n).massif = s.massif := rfl
@[simp] theorem State.wrap_scree (s : State) (f : Fld) (n : Nat) : (s.wrap f n).scree = s.scree := rfl
@[simp] theorem State.wrap_brk (s : State) (f : Fld) (n : Nat) : (s.wrap f n).brk = s.brk := rfl
@[simp] theorem State.wrap_badge (s : State) (f : Fld) (n : Nat) : (s.wrap f n).badge = s.badge := rfl
@[simp] theorem State.wrap_cart (s : State) (f : Fld) (n : Nat) : (s.wrap f n).cart = s.cart := rfl
@[simp] theorem State.wrap_refuge (s : State) (f : Fld) (n : Nat) : (s.wrap f n).refuge = s.refuge := rfl
@[simp] theorem State.wrap_curtain (s : State) (f : Fld) (n : Nat) : (s.wrap f n).curtain = s.curtain := rfl
@[simp] theorem State.wrap_waits (s : State) (f : Fld) (n : Nat) : (s.wrap f n).waits = s.waits := rfl
@[simp] theorem State.wrap_written (s : State) (f : Fld) (n : Nat) : (s.wrap f n).written = s.written := rfl
@[simp] theorem State.wrap_cfg (s : State) (f : Fld) (n : Nat) : (s.wrap f n).cfg = s.cfg := rfl
@[simp] theorem State.wrap_desk (s : State) (f : Fld) (n : Nat) : (s.wrap f n).desk = s.desk := rfl
@[simp] theorem State.wrap_otp (s : State) (f : Fld) (n : Nat) : (s.wrap f n).otp = s.otp := rfl
@[simp] theorem State.wrap_boot (s : State) (f : Fld) (n : Nat) : (s.wrap f n).boot = s.boot := rfl

/-! ## setLive changes `live` alone -/

@[simp] theorem State.setLive_regs (s : State) (a : Nat) (w : Word) : (s.setLive a w).regs = s.regs := rfl
@[simp] theorem State.setLive_cnt (s : State) (a : Nat) (w : Word) : (s.setLive a w).cnt = s.cnt := rfl
@[simp] theorem State.setLive_mem (s : State) (a : Nat) (w : Word) : (s.setLive a w).mem = s.mem := rfl
@[simp] theorem State.setLive_st (s : State) (a : Nat) (w : Word) : (s.setLive a w).st = s.st := rfl
@[simp] theorem State.setLive_power (s : State) (a : Nat) (w : Word) : (s.setLive a w).power = s.power := rfl
@[simp] theorem State.setLive_timers (s : State) (a : Nat) (w : Word) : (s.setLive a w).timers = s.timers := rfl
@[simp] theorem State.setLive_frameOnce (s : State) (a : Nat) (w : Word) : (s.setLive a w).frameOnce = s.frameOnce := rfl
@[simp] theorem State.setLive_fresh (s : State) (a : Nat) (w : Word) : (s.setLive a w).fresh = s.fresh := rfl
@[simp] theorem State.setLive_wire (s : State) (a : Nat) (w : Word) : (s.setLive a w).wire = s.wire := rfl
@[simp] theorem State.setLive_pending (s : State) (a : Nat) (w : Word) : (s.setLive a w).pending = s.pending := rfl
@[simp] theorem State.setLive_alarms (s : State) (a : Nat) (w : Word) : (s.setLive a w).alarms = s.alarms := rfl
@[simp] theorem State.setLive_viol (s : State) (a : Nat) (w : Word) : (s.setLive a w).viol = s.viol := rfl
@[simp] theorem State.setLive_violOvf (s : State) (a : Nat) (w : Word) : (s.setLive a w).violOvf = s.violOvf := rfl
@[simp] theorem State.setLive_violAddr (s : State) (a : Nat) (w : Word) : (s.setLive a w).violAddr = s.violAddr := rfl
@[simp] theorem State.setLive_cores (s : State) (a : Nat) (w : Word) : (s.setLive a w).cores = s.cores := rfl
@[simp] theorem State.setLive_packers (s : State) (a : Nat) (w : Word) : (s.setLive a w).packers = s.packers := rfl
@[simp] theorem State.setLive_book (s : State) (a : Nat) (w : Word) : (s.setLive a w).book = s.book := rfl
@[simp] theorem State.setLive_trace (s : State) (a : Nat) (w : Word) : (s.setLive a w).trace = s.trace := rfl
@[simp] theorem State.setLive_terr (s : State) (a : Nat) (w : Word) : (s.setLive a w).terr = s.terr := rfl
@[simp] theorem State.setLive_wing (s : State) (a : Nat) (w : Word) : (s.setLive a w).wing = s.wing := rfl
@[simp] theorem State.setLive_stime (s : State) (a : Nat) (w : Word) : (s.setLive a w).stime = s.stime := rfl
@[simp] theorem State.setLive_cue (s : State) (a : Nat) (w : Word) : (s.setLive a w).cue = s.cue := rfl
@[simp] theorem State.setLive_ens (s : State) (a : Nat) (w : Word) : (s.setLive a w).ens = s.ens := rfl
@[simp] theorem State.setLive_pin (s : State) (a : Nat) (w : Word) : (s.setLive a w).pin = s.pin := rfl
@[simp] theorem State.setLive_sw (s : State) (a : Nat) (w : Word) : (s.setLive a w).sw = s.sw := rfl
@[simp] theorem State.setLive_sol (s : State) (a : Nat) (w : Word) : (s.setLive a w).sol = s.sol := rfl
@[simp] theorem State.setLive_ports (s : State) (a : Nat) (w : Word) : (s.setLive a w).ports = s.ports := rfl
@[simp] theorem State.setLive_dtake (s : State) (a : Nat) (w : Word) : (s.setLive a w).dtake = s.dtake := rfl
@[simp] theorem State.setLive_us (s : State) (a : Nat) (w : Word) : (s.setLive a w).us = s.us := rfl
@[simp] theorem State.setLive_chorus (s : State) (a : Nat) (w : Word) : (s.setLive a w).chorus = s.chorus := rfl
@[simp] theorem State.setLive_pendCue (s : State) (a : Nat) (w : Word) : (s.setLive a w).pendCue = s.pendCue := rfl
@[simp] theorem State.setLive_modeReq (s : State) (a : Nat) (w : Word) : (s.setLive a w).modeReq = s.modeReq := rfl
@[simp] theorem State.setLive_lcTarget (s : State) (a : Nat) (w : Word) : (s.setLive a w).lcTarget = s.lcTarget := rfl
@[simp] theorem State.setLive_rdata (s : State) (a : Nat) (w : Word) : (s.setLive a w).rdata = s.rdata := rfl
@[simp] theorem State.setLive_troupe (s : State) (a : Nat) (w : Word) : (s.setLive a w).troupe = s.troupe := rfl
@[simp] theorem State.setLive_massif (s : State) (a : Nat) (w : Word) : (s.setLive a w).massif = s.massif := rfl
@[simp] theorem State.setLive_scree (s : State) (a : Nat) (w : Word) : (s.setLive a w).scree = s.scree := rfl
@[simp] theorem State.setLive_brk (s : State) (a : Nat) (w : Word) : (s.setLive a w).brk = s.brk := rfl
@[simp] theorem State.setLive_badge (s : State) (a : Nat) (w : Word) : (s.setLive a w).badge = s.badge := rfl
@[simp] theorem State.setLive_cart (s : State) (a : Nat) (w : Word) : (s.setLive a w).cart = s.cart := rfl
@[simp] theorem State.setLive_refuge (s : State) (a : Nat) (w : Word) : (s.setLive a w).refuge = s.refuge := rfl
@[simp] theorem State.setLive_curtain (s : State) (a : Nat) (w : Word) : (s.setLive a w).curtain = s.curtain := rfl
@[simp] theorem State.setLive_waits (s : State) (a : Nat) (w : Word) : (s.setLive a w).waits = s.waits := rfl
@[simp] theorem State.setLive_written (s : State) (a : Nat) (w : Word) : (s.setLive a w).written = s.written := rfl
@[simp] theorem State.setLive_cfg (s : State) (a : Nat) (w : Word) : (s.setLive a w).cfg = s.cfg := rfl
@[simp] theorem State.setLive_desk (s : State) (a : Nat) (w : Word) : (s.setLive a w).desk = s.desk := rfl
@[simp] theorem State.setLive_otp (s : State) (a : Nat) (w : Word) : (s.setLive a w).otp = s.otp := rfl
@[simp] theorem State.setLive_boot (s : State) (a : Nat) (w : Word) : (s.setLive a w).boot = s.boot := rfl

/-! ## setCnt changes `cnt` alone -/

@[simp] theorem State.setCnt_regs (s : State) (a : Nat) (w : Word) : (s.setCnt a w).regs = s.regs := rfl
@[simp] theorem State.setCnt_live (s : State) (a : Nat) (w : Word) : (s.setCnt a w).live = s.live := rfl
@[simp] theorem State.setCnt_mem (s : State) (a : Nat) (w : Word) : (s.setCnt a w).mem = s.mem := rfl
@[simp] theorem State.setCnt_st (s : State) (a : Nat) (w : Word) : (s.setCnt a w).st = s.st := rfl
@[simp] theorem State.setCnt_power (s : State) (a : Nat) (w : Word) : (s.setCnt a w).power = s.power := rfl
@[simp] theorem State.setCnt_timers (s : State) (a : Nat) (w : Word) : (s.setCnt a w).timers = s.timers := rfl
@[simp] theorem State.setCnt_frameOnce (s : State) (a : Nat) (w : Word) : (s.setCnt a w).frameOnce = s.frameOnce := rfl
@[simp] theorem State.setCnt_fresh (s : State) (a : Nat) (w : Word) : (s.setCnt a w).fresh = s.fresh := rfl
@[simp] theorem State.setCnt_wire (s : State) (a : Nat) (w : Word) : (s.setCnt a w).wire = s.wire := rfl
@[simp] theorem State.setCnt_pending (s : State) (a : Nat) (w : Word) : (s.setCnt a w).pending = s.pending := rfl
@[simp] theorem State.setCnt_alarms (s : State) (a : Nat) (w : Word) : (s.setCnt a w).alarms = s.alarms := rfl
@[simp] theorem State.setCnt_viol (s : State) (a : Nat) (w : Word) : (s.setCnt a w).viol = s.viol := rfl
@[simp] theorem State.setCnt_violOvf (s : State) (a : Nat) (w : Word) : (s.setCnt a w).violOvf = s.violOvf := rfl
@[simp] theorem State.setCnt_violAddr (s : State) (a : Nat) (w : Word) : (s.setCnt a w).violAddr = s.violAddr := rfl
@[simp] theorem State.setCnt_cores (s : State) (a : Nat) (w : Word) : (s.setCnt a w).cores = s.cores := rfl
@[simp] theorem State.setCnt_packers (s : State) (a : Nat) (w : Word) : (s.setCnt a w).packers = s.packers := rfl
@[simp] theorem State.setCnt_book (s : State) (a : Nat) (w : Word) : (s.setCnt a w).book = s.book := rfl
@[simp] theorem State.setCnt_trace (s : State) (a : Nat) (w : Word) : (s.setCnt a w).trace = s.trace := rfl
@[simp] theorem State.setCnt_terr (s : State) (a : Nat) (w : Word) : (s.setCnt a w).terr = s.terr := rfl
@[simp] theorem State.setCnt_wing (s : State) (a : Nat) (w : Word) : (s.setCnt a w).wing = s.wing := rfl
@[simp] theorem State.setCnt_stime (s : State) (a : Nat) (w : Word) : (s.setCnt a w).stime = s.stime := rfl
@[simp] theorem State.setCnt_cue (s : State) (a : Nat) (w : Word) : (s.setCnt a w).cue = s.cue := rfl
@[simp] theorem State.setCnt_ens (s : State) (a : Nat) (w : Word) : (s.setCnt a w).ens = s.ens := rfl
@[simp] theorem State.setCnt_pin (s : State) (a : Nat) (w : Word) : (s.setCnt a w).pin = s.pin := rfl
@[simp] theorem State.setCnt_sw (s : State) (a : Nat) (w : Word) : (s.setCnt a w).sw = s.sw := rfl
@[simp] theorem State.setCnt_sol (s : State) (a : Nat) (w : Word) : (s.setCnt a w).sol = s.sol := rfl
@[simp] theorem State.setCnt_ports (s : State) (a : Nat) (w : Word) : (s.setCnt a w).ports = s.ports := rfl
@[simp] theorem State.setCnt_dtake (s : State) (a : Nat) (w : Word) : (s.setCnt a w).dtake = s.dtake := rfl
@[simp] theorem State.setCnt_us (s : State) (a : Nat) (w : Word) : (s.setCnt a w).us = s.us := rfl
@[simp] theorem State.setCnt_chorus (s : State) (a : Nat) (w : Word) : (s.setCnt a w).chorus = s.chorus := rfl
@[simp] theorem State.setCnt_pendCue (s : State) (a : Nat) (w : Word) : (s.setCnt a w).pendCue = s.pendCue := rfl
@[simp] theorem State.setCnt_modeReq (s : State) (a : Nat) (w : Word) : (s.setCnt a w).modeReq = s.modeReq := rfl
@[simp] theorem State.setCnt_lcTarget (s : State) (a : Nat) (w : Word) : (s.setCnt a w).lcTarget = s.lcTarget := rfl
@[simp] theorem State.setCnt_rdata (s : State) (a : Nat) (w : Word) : (s.setCnt a w).rdata = s.rdata := rfl
@[simp] theorem State.setCnt_troupe (s : State) (a : Nat) (w : Word) : (s.setCnt a w).troupe = s.troupe := rfl
@[simp] theorem State.setCnt_massif (s : State) (a : Nat) (w : Word) : (s.setCnt a w).massif = s.massif := rfl
@[simp] theorem State.setCnt_scree (s : State) (a : Nat) (w : Word) : (s.setCnt a w).scree = s.scree := rfl
@[simp] theorem State.setCnt_brk (s : State) (a : Nat) (w : Word) : (s.setCnt a w).brk = s.brk := rfl
@[simp] theorem State.setCnt_badge (s : State) (a : Nat) (w : Word) : (s.setCnt a w).badge = s.badge := rfl
@[simp] theorem State.setCnt_cart (s : State) (a : Nat) (w : Word) : (s.setCnt a w).cart = s.cart := rfl
@[simp] theorem State.setCnt_refuge (s : State) (a : Nat) (w : Word) : (s.setCnt a w).refuge = s.refuge := rfl
@[simp] theorem State.setCnt_curtain (s : State) (a : Nat) (w : Word) : (s.setCnt a w).curtain = s.curtain := rfl
@[simp] theorem State.setCnt_waits (s : State) (a : Nat) (w : Word) : (s.setCnt a w).waits = s.waits := rfl
@[simp] theorem State.setCnt_written (s : State) (a : Nat) (w : Word) : (s.setCnt a w).written = s.written := rfl
@[simp] theorem State.setCnt_cfg (s : State) (a : Nat) (w : Word) : (s.setCnt a w).cfg = s.cfg := rfl
@[simp] theorem State.setCnt_desk (s : State) (a : Nat) (w : Word) : (s.setCnt a w).desk = s.desk := rfl
@[simp] theorem State.setCnt_otp (s : State) (a : Nat) (w : Word) : (s.setCnt a w).otp = s.otp := rfl
@[simp] theorem State.setCnt_boot (s : State) (a : Nat) (w : Word) : (s.setCnt a w).boot = s.boot := rfl

/-! ## satCnt changes `cnt` alone -/

@[simp] theorem State.satCnt_regs (s : State) (f : Fld) (n : Nat) : (s.satCnt f n).regs = s.regs := rfl
@[simp] theorem State.satCnt_live (s : State) (f : Fld) (n : Nat) : (s.satCnt f n).live = s.live := rfl
@[simp] theorem State.satCnt_mem (s : State) (f : Fld) (n : Nat) : (s.satCnt f n).mem = s.mem := rfl
@[simp] theorem State.satCnt_st (s : State) (f : Fld) (n : Nat) : (s.satCnt f n).st = s.st := rfl
@[simp] theorem State.satCnt_power (s : State) (f : Fld) (n : Nat) : (s.satCnt f n).power = s.power := rfl
@[simp] theorem State.satCnt_timers (s : State) (f : Fld) (n : Nat) : (s.satCnt f n).timers = s.timers := rfl
@[simp] theorem State.satCnt_frameOnce (s : State) (f : Fld) (n : Nat) : (s.satCnt f n).frameOnce = s.frameOnce := rfl
@[simp] theorem State.satCnt_fresh (s : State) (f : Fld) (n : Nat) : (s.satCnt f n).fresh = s.fresh := rfl
@[simp] theorem State.satCnt_wire (s : State) (f : Fld) (n : Nat) : (s.satCnt f n).wire = s.wire := rfl
@[simp] theorem State.satCnt_pending (s : State) (f : Fld) (n : Nat) : (s.satCnt f n).pending = s.pending := rfl
@[simp] theorem State.satCnt_alarms (s : State) (f : Fld) (n : Nat) : (s.satCnt f n).alarms = s.alarms := rfl
@[simp] theorem State.satCnt_viol (s : State) (f : Fld) (n : Nat) : (s.satCnt f n).viol = s.viol := rfl
@[simp] theorem State.satCnt_violOvf (s : State) (f : Fld) (n : Nat) : (s.satCnt f n).violOvf = s.violOvf := rfl
@[simp] theorem State.satCnt_violAddr (s : State) (f : Fld) (n : Nat) : (s.satCnt f n).violAddr = s.violAddr := rfl
@[simp] theorem State.satCnt_cores (s : State) (f : Fld) (n : Nat) : (s.satCnt f n).cores = s.cores := rfl
@[simp] theorem State.satCnt_packers (s : State) (f : Fld) (n : Nat) : (s.satCnt f n).packers = s.packers := rfl
@[simp] theorem State.satCnt_book (s : State) (f : Fld) (n : Nat) : (s.satCnt f n).book = s.book := rfl
@[simp] theorem State.satCnt_trace (s : State) (f : Fld) (n : Nat) : (s.satCnt f n).trace = s.trace := rfl
@[simp] theorem State.satCnt_terr (s : State) (f : Fld) (n : Nat) : (s.satCnt f n).terr = s.terr := rfl
@[simp] theorem State.satCnt_wing (s : State) (f : Fld) (n : Nat) : (s.satCnt f n).wing = s.wing := rfl
@[simp] theorem State.satCnt_stime (s : State) (f : Fld) (n : Nat) : (s.satCnt f n).stime = s.stime := rfl
@[simp] theorem State.satCnt_cue (s : State) (f : Fld) (n : Nat) : (s.satCnt f n).cue = s.cue := rfl
@[simp] theorem State.satCnt_ens (s : State) (f : Fld) (n : Nat) : (s.satCnt f n).ens = s.ens := rfl
@[simp] theorem State.satCnt_pin (s : State) (f : Fld) (n : Nat) : (s.satCnt f n).pin = s.pin := rfl
@[simp] theorem State.satCnt_sw (s : State) (f : Fld) (n : Nat) : (s.satCnt f n).sw = s.sw := rfl
@[simp] theorem State.satCnt_sol (s : State) (f : Fld) (n : Nat) : (s.satCnt f n).sol = s.sol := rfl
@[simp] theorem State.satCnt_ports (s : State) (f : Fld) (n : Nat) : (s.satCnt f n).ports = s.ports := rfl
@[simp] theorem State.satCnt_dtake (s : State) (f : Fld) (n : Nat) : (s.satCnt f n).dtake = s.dtake := rfl
@[simp] theorem State.satCnt_us (s : State) (f : Fld) (n : Nat) : (s.satCnt f n).us = s.us := rfl
@[simp] theorem State.satCnt_chorus (s : State) (f : Fld) (n : Nat) : (s.satCnt f n).chorus = s.chorus := rfl
@[simp] theorem State.satCnt_pendCue (s : State) (f : Fld) (n : Nat) : (s.satCnt f n).pendCue = s.pendCue := rfl
@[simp] theorem State.satCnt_modeReq (s : State) (f : Fld) (n : Nat) : (s.satCnt f n).modeReq = s.modeReq := rfl
@[simp] theorem State.satCnt_lcTarget (s : State) (f : Fld) (n : Nat) : (s.satCnt f n).lcTarget = s.lcTarget := rfl
@[simp] theorem State.satCnt_rdata (s : State) (f : Fld) (n : Nat) : (s.satCnt f n).rdata = s.rdata := rfl
@[simp] theorem State.satCnt_troupe (s : State) (f : Fld) (n : Nat) : (s.satCnt f n).troupe = s.troupe := rfl
@[simp] theorem State.satCnt_massif (s : State) (f : Fld) (n : Nat) : (s.satCnt f n).massif = s.massif := rfl
@[simp] theorem State.satCnt_scree (s : State) (f : Fld) (n : Nat) : (s.satCnt f n).scree = s.scree := rfl
@[simp] theorem State.satCnt_brk (s : State) (f : Fld) (n : Nat) : (s.satCnt f n).brk = s.brk := rfl
@[simp] theorem State.satCnt_badge (s : State) (f : Fld) (n : Nat) : (s.satCnt f n).badge = s.badge := rfl
@[simp] theorem State.satCnt_cart (s : State) (f : Fld) (n : Nat) : (s.satCnt f n).cart = s.cart := rfl
@[simp] theorem State.satCnt_refuge (s : State) (f : Fld) (n : Nat) : (s.satCnt f n).refuge = s.refuge := rfl
@[simp] theorem State.satCnt_curtain (s : State) (f : Fld) (n : Nat) : (s.satCnt f n).curtain = s.curtain := rfl
@[simp] theorem State.satCnt_waits (s : State) (f : Fld) (n : Nat) : (s.satCnt f n).waits = s.waits := rfl
@[simp] theorem State.satCnt_written (s : State) (f : Fld) (n : Nat) : (s.satCnt f n).written = s.written := rfl
@[simp] theorem State.satCnt_cfg (s : State) (f : Fld) (n : Nat) : (s.satCnt f n).cfg = s.cfg := rfl
@[simp] theorem State.satCnt_desk (s : State) (f : Fld) (n : Nat) : (s.satCnt f n).desk = s.desk := rfl
@[simp] theorem State.satCnt_otp (s : State) (f : Fld) (n : Nat) : (s.satCnt f n).otp = s.otp := rfl
@[simp] theorem State.satCnt_boot (s : State) (f : Fld) (n : Nat) : (s.satCnt f n).boot = s.boot := rfl

/-! ## wrapCnt changes `cnt` alone -/

@[simp] theorem State.wrapCnt_regs (s : State) (f : Fld) (n : Nat) : (s.wrapCnt f n).regs = s.regs := rfl
@[simp] theorem State.wrapCnt_live (s : State) (f : Fld) (n : Nat) : (s.wrapCnt f n).live = s.live := rfl
@[simp] theorem State.wrapCnt_mem (s : State) (f : Fld) (n : Nat) : (s.wrapCnt f n).mem = s.mem := rfl
@[simp] theorem State.wrapCnt_st (s : State) (f : Fld) (n : Nat) : (s.wrapCnt f n).st = s.st := rfl
@[simp] theorem State.wrapCnt_power (s : State) (f : Fld) (n : Nat) : (s.wrapCnt f n).power = s.power := rfl
@[simp] theorem State.wrapCnt_timers (s : State) (f : Fld) (n : Nat) : (s.wrapCnt f n).timers = s.timers := rfl
@[simp] theorem State.wrapCnt_frameOnce (s : State) (f : Fld) (n : Nat) : (s.wrapCnt f n).frameOnce = s.frameOnce := rfl
@[simp] theorem State.wrapCnt_fresh (s : State) (f : Fld) (n : Nat) : (s.wrapCnt f n).fresh = s.fresh := rfl
@[simp] theorem State.wrapCnt_wire (s : State) (f : Fld) (n : Nat) : (s.wrapCnt f n).wire = s.wire := rfl
@[simp] theorem State.wrapCnt_pending (s : State) (f : Fld) (n : Nat) : (s.wrapCnt f n).pending = s.pending := rfl
@[simp] theorem State.wrapCnt_alarms (s : State) (f : Fld) (n : Nat) : (s.wrapCnt f n).alarms = s.alarms := rfl
@[simp] theorem State.wrapCnt_viol (s : State) (f : Fld) (n : Nat) : (s.wrapCnt f n).viol = s.viol := rfl
@[simp] theorem State.wrapCnt_violOvf (s : State) (f : Fld) (n : Nat) : (s.wrapCnt f n).violOvf = s.violOvf := rfl
@[simp] theorem State.wrapCnt_violAddr (s : State) (f : Fld) (n : Nat) : (s.wrapCnt f n).violAddr = s.violAddr := rfl
@[simp] theorem State.wrapCnt_cores (s : State) (f : Fld) (n : Nat) : (s.wrapCnt f n).cores = s.cores := rfl
@[simp] theorem State.wrapCnt_packers (s : State) (f : Fld) (n : Nat) : (s.wrapCnt f n).packers = s.packers := rfl
@[simp] theorem State.wrapCnt_book (s : State) (f : Fld) (n : Nat) : (s.wrapCnt f n).book = s.book := rfl
@[simp] theorem State.wrapCnt_trace (s : State) (f : Fld) (n : Nat) : (s.wrapCnt f n).trace = s.trace := rfl
@[simp] theorem State.wrapCnt_terr (s : State) (f : Fld) (n : Nat) : (s.wrapCnt f n).terr = s.terr := rfl
@[simp] theorem State.wrapCnt_wing (s : State) (f : Fld) (n : Nat) : (s.wrapCnt f n).wing = s.wing := rfl
@[simp] theorem State.wrapCnt_stime (s : State) (f : Fld) (n : Nat) : (s.wrapCnt f n).stime = s.stime := rfl
@[simp] theorem State.wrapCnt_cue (s : State) (f : Fld) (n : Nat) : (s.wrapCnt f n).cue = s.cue := rfl
@[simp] theorem State.wrapCnt_ens (s : State) (f : Fld) (n : Nat) : (s.wrapCnt f n).ens = s.ens := rfl
@[simp] theorem State.wrapCnt_pin (s : State) (f : Fld) (n : Nat) : (s.wrapCnt f n).pin = s.pin := rfl
@[simp] theorem State.wrapCnt_sw (s : State) (f : Fld) (n : Nat) : (s.wrapCnt f n).sw = s.sw := rfl
@[simp] theorem State.wrapCnt_sol (s : State) (f : Fld) (n : Nat) : (s.wrapCnt f n).sol = s.sol := rfl
@[simp] theorem State.wrapCnt_ports (s : State) (f : Fld) (n : Nat) : (s.wrapCnt f n).ports = s.ports := rfl
@[simp] theorem State.wrapCnt_dtake (s : State) (f : Fld) (n : Nat) : (s.wrapCnt f n).dtake = s.dtake := rfl
@[simp] theorem State.wrapCnt_us (s : State) (f : Fld) (n : Nat) : (s.wrapCnt f n).us = s.us := rfl
@[simp] theorem State.wrapCnt_chorus (s : State) (f : Fld) (n : Nat) : (s.wrapCnt f n).chorus = s.chorus := rfl
@[simp] theorem State.wrapCnt_pendCue (s : State) (f : Fld) (n : Nat) : (s.wrapCnt f n).pendCue = s.pendCue := rfl
@[simp] theorem State.wrapCnt_modeReq (s : State) (f : Fld) (n : Nat) : (s.wrapCnt f n).modeReq = s.modeReq := rfl
@[simp] theorem State.wrapCnt_lcTarget (s : State) (f : Fld) (n : Nat) : (s.wrapCnt f n).lcTarget = s.lcTarget := rfl
@[simp] theorem State.wrapCnt_rdata (s : State) (f : Fld) (n : Nat) : (s.wrapCnt f n).rdata = s.rdata := rfl
@[simp] theorem State.wrapCnt_troupe (s : State) (f : Fld) (n : Nat) : (s.wrapCnt f n).troupe = s.troupe := rfl
@[simp] theorem State.wrapCnt_massif (s : State) (f : Fld) (n : Nat) : (s.wrapCnt f n).massif = s.massif := rfl
@[simp] theorem State.wrapCnt_scree (s : State) (f : Fld) (n : Nat) : (s.wrapCnt f n).scree = s.scree := rfl
@[simp] theorem State.wrapCnt_brk (s : State) (f : Fld) (n : Nat) : (s.wrapCnt f n).brk = s.brk := rfl
@[simp] theorem State.wrapCnt_badge (s : State) (f : Fld) (n : Nat) : (s.wrapCnt f n).badge = s.badge := rfl
@[simp] theorem State.wrapCnt_cart (s : State) (f : Fld) (n : Nat) : (s.wrapCnt f n).cart = s.cart := rfl
@[simp] theorem State.wrapCnt_refuge (s : State) (f : Fld) (n : Nat) : (s.wrapCnt f n).refuge = s.refuge := rfl
@[simp] theorem State.wrapCnt_curtain (s : State) (f : Fld) (n : Nat) : (s.wrapCnt f n).curtain = s.curtain := rfl
@[simp] theorem State.wrapCnt_waits (s : State) (f : Fld) (n : Nat) : (s.wrapCnt f n).waits = s.waits := rfl
@[simp] theorem State.wrapCnt_written (s : State) (f : Fld) (n : Nat) : (s.wrapCnt f n).written = s.written := rfl
@[simp] theorem State.wrapCnt_cfg (s : State) (f : Fld) (n : Nat) : (s.wrapCnt f n).cfg = s.cfg := rfl
@[simp] theorem State.wrapCnt_desk (s : State) (f : Fld) (n : Nat) : (s.wrapCnt f n).desk = s.desk := rfl
@[simp] theorem State.wrapCnt_otp (s : State) (f : Fld) (n : Nat) : (s.wrapCnt f n).otp = s.otp := rfl
@[simp] theorem State.wrapCnt_boot (s : State) (f : Fld) (n : Nat) : (s.wrapCnt f n).boot = s.boot := rfl

/-! ## setMb changes `mem` alone -/

@[simp] theorem State.setMb_regs (s : State) (a : Nat) (b : Byte) : (s.setMb a b).regs = s.regs := rfl
@[simp] theorem State.setMb_live (s : State) (a : Nat) (b : Byte) : (s.setMb a b).live = s.live := rfl
@[simp] theorem State.setMb_cnt (s : State) (a : Nat) (b : Byte) : (s.setMb a b).cnt = s.cnt := rfl
@[simp] theorem State.setMb_st (s : State) (a : Nat) (b : Byte) : (s.setMb a b).st = s.st := rfl
@[simp] theorem State.setMb_power (s : State) (a : Nat) (b : Byte) : (s.setMb a b).power = s.power := rfl
@[simp] theorem State.setMb_timers (s : State) (a : Nat) (b : Byte) : (s.setMb a b).timers = s.timers := rfl
@[simp] theorem State.setMb_frameOnce (s : State) (a : Nat) (b : Byte) : (s.setMb a b).frameOnce = s.frameOnce := rfl
@[simp] theorem State.setMb_fresh (s : State) (a : Nat) (b : Byte) : (s.setMb a b).fresh = s.fresh := rfl
@[simp] theorem State.setMb_wire (s : State) (a : Nat) (b : Byte) : (s.setMb a b).wire = s.wire := rfl
@[simp] theorem State.setMb_pending (s : State) (a : Nat) (b : Byte) : (s.setMb a b).pending = s.pending := rfl
@[simp] theorem State.setMb_alarms (s : State) (a : Nat) (b : Byte) : (s.setMb a b).alarms = s.alarms := rfl
@[simp] theorem State.setMb_viol (s : State) (a : Nat) (b : Byte) : (s.setMb a b).viol = s.viol := rfl
@[simp] theorem State.setMb_violOvf (s : State) (a : Nat) (b : Byte) : (s.setMb a b).violOvf = s.violOvf := rfl
@[simp] theorem State.setMb_violAddr (s : State) (a : Nat) (b : Byte) : (s.setMb a b).violAddr = s.violAddr := rfl
@[simp] theorem State.setMb_cores (s : State) (a : Nat) (b : Byte) : (s.setMb a b).cores = s.cores := rfl
@[simp] theorem State.setMb_packers (s : State) (a : Nat) (b : Byte) : (s.setMb a b).packers = s.packers := rfl
@[simp] theorem State.setMb_book (s : State) (a : Nat) (b : Byte) : (s.setMb a b).book = s.book := rfl
@[simp] theorem State.setMb_trace (s : State) (a : Nat) (b : Byte) : (s.setMb a b).trace = s.trace := rfl
@[simp] theorem State.setMb_terr (s : State) (a : Nat) (b : Byte) : (s.setMb a b).terr = s.terr := rfl
@[simp] theorem State.setMb_wing (s : State) (a : Nat) (b : Byte) : (s.setMb a b).wing = s.wing := rfl
@[simp] theorem State.setMb_stime (s : State) (a : Nat) (b : Byte) : (s.setMb a b).stime = s.stime := rfl
@[simp] theorem State.setMb_cue (s : State) (a : Nat) (b : Byte) : (s.setMb a b).cue = s.cue := rfl
@[simp] theorem State.setMb_ens (s : State) (a : Nat) (b : Byte) : (s.setMb a b).ens = s.ens := rfl
@[simp] theorem State.setMb_pin (s : State) (a : Nat) (b : Byte) : (s.setMb a b).pin = s.pin := rfl
@[simp] theorem State.setMb_sw (s : State) (a : Nat) (b : Byte) : (s.setMb a b).sw = s.sw := rfl
@[simp] theorem State.setMb_sol (s : State) (a : Nat) (b : Byte) : (s.setMb a b).sol = s.sol := rfl
@[simp] theorem State.setMb_ports (s : State) (a : Nat) (b : Byte) : (s.setMb a b).ports = s.ports := rfl
@[simp] theorem State.setMb_dtake (s : State) (a : Nat) (b : Byte) : (s.setMb a b).dtake = s.dtake := rfl
@[simp] theorem State.setMb_us (s : State) (a : Nat) (b : Byte) : (s.setMb a b).us = s.us := rfl
@[simp] theorem State.setMb_chorus (s : State) (a : Nat) (b : Byte) : (s.setMb a b).chorus = s.chorus := rfl
@[simp] theorem State.setMb_pendCue (s : State) (a : Nat) (b : Byte) : (s.setMb a b).pendCue = s.pendCue := rfl
@[simp] theorem State.setMb_modeReq (s : State) (a : Nat) (b : Byte) : (s.setMb a b).modeReq = s.modeReq := rfl
@[simp] theorem State.setMb_lcTarget (s : State) (a : Nat) (b : Byte) : (s.setMb a b).lcTarget = s.lcTarget := rfl
@[simp] theorem State.setMb_rdata (s : State) (a : Nat) (b : Byte) : (s.setMb a b).rdata = s.rdata := rfl
@[simp] theorem State.setMb_troupe (s : State) (a : Nat) (b : Byte) : (s.setMb a b).troupe = s.troupe := rfl
@[simp] theorem State.setMb_massif (s : State) (a : Nat) (b : Byte) : (s.setMb a b).massif = s.massif := rfl
@[simp] theorem State.setMb_scree (s : State) (a : Nat) (b : Byte) : (s.setMb a b).scree = s.scree := rfl
@[simp] theorem State.setMb_brk (s : State) (a : Nat) (b : Byte) : (s.setMb a b).brk = s.brk := rfl
@[simp] theorem State.setMb_badge (s : State) (a : Nat) (b : Byte) : (s.setMb a b).badge = s.badge := rfl
@[simp] theorem State.setMb_cart (s : State) (a : Nat) (b : Byte) : (s.setMb a b).cart = s.cart := rfl
@[simp] theorem State.setMb_refuge (s : State) (a : Nat) (b : Byte) : (s.setMb a b).refuge = s.refuge := rfl
@[simp] theorem State.setMb_curtain (s : State) (a : Nat) (b : Byte) : (s.setMb a b).curtain = s.curtain := rfl
@[simp] theorem State.setMb_waits (s : State) (a : Nat) (b : Byte) : (s.setMb a b).waits = s.waits := rfl
@[simp] theorem State.setMb_written (s : State) (a : Nat) (b : Byte) : (s.setMb a b).written = s.written := rfl
@[simp] theorem State.setMb_cfg (s : State) (a : Nat) (b : Byte) : (s.setMb a b).cfg = s.cfg := rfl
@[simp] theorem State.setMb_desk (s : State) (a : Nat) (b : Byte) : (s.setMb a b).desk = s.desk := rfl
@[simp] theorem State.setMb_otp (s : State) (a : Nat) (b : Byte) : (s.setMb a b).otp = s.otp := rfl
@[simp] theorem State.setMb_boot (s : State) (a : Nat) (b : Byte) : (s.setMb a b).boot = s.boot := rfl

/-! ## wipe changes `mem` alone -/

@[simp] theorem State.wipe_regs (s : State) (lo hi : Nat) : (s.wipe lo hi).regs = s.regs := rfl
@[simp] theorem State.wipe_live (s : State) (lo hi : Nat) : (s.wipe lo hi).live = s.live := rfl
@[simp] theorem State.wipe_cnt (s : State) (lo hi : Nat) : (s.wipe lo hi).cnt = s.cnt := rfl
@[simp] theorem State.wipe_st (s : State) (lo hi : Nat) : (s.wipe lo hi).st = s.st := rfl
@[simp] theorem State.wipe_power (s : State) (lo hi : Nat) : (s.wipe lo hi).power = s.power := rfl
@[simp] theorem State.wipe_timers (s : State) (lo hi : Nat) : (s.wipe lo hi).timers = s.timers := rfl
@[simp] theorem State.wipe_frameOnce (s : State) (lo hi : Nat) : (s.wipe lo hi).frameOnce = s.frameOnce := rfl
@[simp] theorem State.wipe_fresh (s : State) (lo hi : Nat) : (s.wipe lo hi).fresh = s.fresh := rfl
@[simp] theorem State.wipe_wire (s : State) (lo hi : Nat) : (s.wipe lo hi).wire = s.wire := rfl
@[simp] theorem State.wipe_pending (s : State) (lo hi : Nat) : (s.wipe lo hi).pending = s.pending := rfl
@[simp] theorem State.wipe_alarms (s : State) (lo hi : Nat) : (s.wipe lo hi).alarms = s.alarms := rfl
@[simp] theorem State.wipe_viol (s : State) (lo hi : Nat) : (s.wipe lo hi).viol = s.viol := rfl
@[simp] theorem State.wipe_violOvf (s : State) (lo hi : Nat) : (s.wipe lo hi).violOvf = s.violOvf := rfl
@[simp] theorem State.wipe_violAddr (s : State) (lo hi : Nat) : (s.wipe lo hi).violAddr = s.violAddr := rfl
@[simp] theorem State.wipe_cores (s : State) (lo hi : Nat) : (s.wipe lo hi).cores = s.cores := rfl
@[simp] theorem State.wipe_packers (s : State) (lo hi : Nat) : (s.wipe lo hi).packers = s.packers := rfl
@[simp] theorem State.wipe_book (s : State) (lo hi : Nat) : (s.wipe lo hi).book = s.book := rfl
@[simp] theorem State.wipe_trace (s : State) (lo hi : Nat) : (s.wipe lo hi).trace = s.trace := rfl
@[simp] theorem State.wipe_terr (s : State) (lo hi : Nat) : (s.wipe lo hi).terr = s.terr := rfl
@[simp] theorem State.wipe_wing (s : State) (lo hi : Nat) : (s.wipe lo hi).wing = s.wing := rfl
@[simp] theorem State.wipe_stime (s : State) (lo hi : Nat) : (s.wipe lo hi).stime = s.stime := rfl
@[simp] theorem State.wipe_cue (s : State) (lo hi : Nat) : (s.wipe lo hi).cue = s.cue := rfl
@[simp] theorem State.wipe_ens (s : State) (lo hi : Nat) : (s.wipe lo hi).ens = s.ens := rfl
@[simp] theorem State.wipe_pin (s : State) (lo hi : Nat) : (s.wipe lo hi).pin = s.pin := rfl
@[simp] theorem State.wipe_sw (s : State) (lo hi : Nat) : (s.wipe lo hi).sw = s.sw := rfl
@[simp] theorem State.wipe_sol (s : State) (lo hi : Nat) : (s.wipe lo hi).sol = s.sol := rfl
@[simp] theorem State.wipe_ports (s : State) (lo hi : Nat) : (s.wipe lo hi).ports = s.ports := rfl
@[simp] theorem State.wipe_dtake (s : State) (lo hi : Nat) : (s.wipe lo hi).dtake = s.dtake := rfl
@[simp] theorem State.wipe_us (s : State) (lo hi : Nat) : (s.wipe lo hi).us = s.us := rfl
@[simp] theorem State.wipe_chorus (s : State) (lo hi : Nat) : (s.wipe lo hi).chorus = s.chorus := rfl
@[simp] theorem State.wipe_pendCue (s : State) (lo hi : Nat) : (s.wipe lo hi).pendCue = s.pendCue := rfl
@[simp] theorem State.wipe_modeReq (s : State) (lo hi : Nat) : (s.wipe lo hi).modeReq = s.modeReq := rfl
@[simp] theorem State.wipe_lcTarget (s : State) (lo hi : Nat) : (s.wipe lo hi).lcTarget = s.lcTarget := rfl
@[simp] theorem State.wipe_rdata (s : State) (lo hi : Nat) : (s.wipe lo hi).rdata = s.rdata := rfl
@[simp] theorem State.wipe_troupe (s : State) (lo hi : Nat) : (s.wipe lo hi).troupe = s.troupe := rfl
@[simp] theorem State.wipe_massif (s : State) (lo hi : Nat) : (s.wipe lo hi).massif = s.massif := rfl
@[simp] theorem State.wipe_scree (s : State) (lo hi : Nat) : (s.wipe lo hi).scree = s.scree := rfl
@[simp] theorem State.wipe_brk (s : State) (lo hi : Nat) : (s.wipe lo hi).brk = s.brk := rfl
@[simp] theorem State.wipe_badge (s : State) (lo hi : Nat) : (s.wipe lo hi).badge = s.badge := rfl
@[simp] theorem State.wipe_cart (s : State) (lo hi : Nat) : (s.wipe lo hi).cart = s.cart := rfl
@[simp] theorem State.wipe_refuge (s : State) (lo hi : Nat) : (s.wipe lo hi).refuge = s.refuge := rfl
@[simp] theorem State.wipe_curtain (s : State) (lo hi : Nat) : (s.wipe lo hi).curtain = s.curtain := rfl
@[simp] theorem State.wipe_waits (s : State) (lo hi : Nat) : (s.wipe lo hi).waits = s.waits := rfl
@[simp] theorem State.wipe_written (s : State) (lo hi : Nat) : (s.wipe lo hi).written = s.written := rfl
@[simp] theorem State.wipe_cfg (s : State) (lo hi : Nat) : (s.wipe lo hi).cfg = s.cfg := rfl
@[simp] theorem State.wipe_desk (s : State) (lo hi : Nat) : (s.wipe lo hi).desk = s.desk := rfl
@[simp] theorem State.wipe_otp (s : State) (lo hi : Nat) : (s.wipe lo hi).otp = s.otp := rfl
@[simp] theorem State.wipe_boot (s : State) (lo hi : Nat) : (s.wipe lo hi).boot = s.boot := rfl

/-! ## arm changes `timers` alone -/

@[simp] theorem State.arm_regs (s : State) (t : Timer) (d : Nat) : (s.arm t d).regs = s.regs := rfl
@[simp] theorem State.arm_live (s : State) (t : Timer) (d : Nat) : (s.arm t d).live = s.live := rfl
@[simp] theorem State.arm_cnt (s : State) (t : Timer) (d : Nat) : (s.arm t d).cnt = s.cnt := rfl
@[simp] theorem State.arm_mem (s : State) (t : Timer) (d : Nat) : (s.arm t d).mem = s.mem := rfl
@[simp] theorem State.arm_st (s : State) (t : Timer) (d : Nat) : (s.arm t d).st = s.st := rfl
@[simp] theorem State.arm_power (s : State) (t : Timer) (d : Nat) : (s.arm t d).power = s.power := rfl
@[simp] theorem State.arm_frameOnce (s : State) (t : Timer) (d : Nat) : (s.arm t d).frameOnce = s.frameOnce := rfl
@[simp] theorem State.arm_fresh (s : State) (t : Timer) (d : Nat) : (s.arm t d).fresh = s.fresh := rfl
@[simp] theorem State.arm_wire (s : State) (t : Timer) (d : Nat) : (s.arm t d).wire = s.wire := rfl
@[simp] theorem State.arm_pending (s : State) (t : Timer) (d : Nat) : (s.arm t d).pending = s.pending := rfl
@[simp] theorem State.arm_alarms (s : State) (t : Timer) (d : Nat) : (s.arm t d).alarms = s.alarms := rfl
@[simp] theorem State.arm_viol (s : State) (t : Timer) (d : Nat) : (s.arm t d).viol = s.viol := rfl
@[simp] theorem State.arm_violOvf (s : State) (t : Timer) (d : Nat) : (s.arm t d).violOvf = s.violOvf := rfl
@[simp] theorem State.arm_violAddr (s : State) (t : Timer) (d : Nat) : (s.arm t d).violAddr = s.violAddr := rfl
@[simp] theorem State.arm_cores (s : State) (t : Timer) (d : Nat) : (s.arm t d).cores = s.cores := rfl
@[simp] theorem State.arm_packers (s : State) (t : Timer) (d : Nat) : (s.arm t d).packers = s.packers := rfl
@[simp] theorem State.arm_book (s : State) (t : Timer) (d : Nat) : (s.arm t d).book = s.book := rfl
@[simp] theorem State.arm_trace (s : State) (t : Timer) (d : Nat) : (s.arm t d).trace = s.trace := rfl
@[simp] theorem State.arm_terr (s : State) (t : Timer) (d : Nat) : (s.arm t d).terr = s.terr := rfl
@[simp] theorem State.arm_wing (s : State) (t : Timer) (d : Nat) : (s.arm t d).wing = s.wing := rfl
@[simp] theorem State.arm_stime (s : State) (t : Timer) (d : Nat) : (s.arm t d).stime = s.stime := rfl
@[simp] theorem State.arm_cue (s : State) (t : Timer) (d : Nat) : (s.arm t d).cue = s.cue := rfl
@[simp] theorem State.arm_ens (s : State) (t : Timer) (d : Nat) : (s.arm t d).ens = s.ens := rfl
@[simp] theorem State.arm_pin (s : State) (t : Timer) (d : Nat) : (s.arm t d).pin = s.pin := rfl
@[simp] theorem State.arm_sw (s : State) (t : Timer) (d : Nat) : (s.arm t d).sw = s.sw := rfl
@[simp] theorem State.arm_sol (s : State) (t : Timer) (d : Nat) : (s.arm t d).sol = s.sol := rfl
@[simp] theorem State.arm_ports (s : State) (t : Timer) (d : Nat) : (s.arm t d).ports = s.ports := rfl
@[simp] theorem State.arm_dtake (s : State) (t : Timer) (d : Nat) : (s.arm t d).dtake = s.dtake := rfl
@[simp] theorem State.arm_us (s : State) (t : Timer) (d : Nat) : (s.arm t d).us = s.us := rfl
@[simp] theorem State.arm_chorus (s : State) (t : Timer) (d : Nat) : (s.arm t d).chorus = s.chorus := rfl
@[simp] theorem State.arm_pendCue (s : State) (t : Timer) (d : Nat) : (s.arm t d).pendCue = s.pendCue := rfl
@[simp] theorem State.arm_modeReq (s : State) (t : Timer) (d : Nat) : (s.arm t d).modeReq = s.modeReq := rfl
@[simp] theorem State.arm_lcTarget (s : State) (t : Timer) (d : Nat) : (s.arm t d).lcTarget = s.lcTarget := rfl
@[simp] theorem State.arm_rdata (s : State) (t : Timer) (d : Nat) : (s.arm t d).rdata = s.rdata := rfl
@[simp] theorem State.arm_troupe (s : State) (t : Timer) (d : Nat) : (s.arm t d).troupe = s.troupe := rfl
@[simp] theorem State.arm_massif (s : State) (t : Timer) (d : Nat) : (s.arm t d).massif = s.massif := rfl
@[simp] theorem State.arm_scree (s : State) (t : Timer) (d : Nat) : (s.arm t d).scree = s.scree := rfl
@[simp] theorem State.arm_brk (s : State) (t : Timer) (d : Nat) : (s.arm t d).brk = s.brk := rfl
@[simp] theorem State.arm_badge (s : State) (t : Timer) (d : Nat) : (s.arm t d).badge = s.badge := rfl
@[simp] theorem State.arm_cart (s : State) (t : Timer) (d : Nat) : (s.arm t d).cart = s.cart := rfl
@[simp] theorem State.arm_refuge (s : State) (t : Timer) (d : Nat) : (s.arm t d).refuge = s.refuge := rfl
@[simp] theorem State.arm_curtain (s : State) (t : Timer) (d : Nat) : (s.arm t d).curtain = s.curtain := rfl
@[simp] theorem State.arm_waits (s : State) (t : Timer) (d : Nat) : (s.arm t d).waits = s.waits := rfl
@[simp] theorem State.arm_written (s : State) (t : Timer) (d : Nat) : (s.arm t d).written = s.written := rfl
@[simp] theorem State.arm_cfg (s : State) (t : Timer) (d : Nat) : (s.arm t d).cfg = s.cfg := rfl
@[simp] theorem State.arm_desk (s : State) (t : Timer) (d : Nat) : (s.arm t d).desk = s.desk := rfl
@[simp] theorem State.arm_otp (s : State) (t : Timer) (d : Nat) : (s.arm t d).otp = s.otp := rfl
@[simp] theorem State.arm_boot (s : State) (t : Timer) (d : Nat) : (s.arm t d).boot = s.boot := rfl

/-! ## disarm changes `timers` alone -/

@[simp] theorem State.disarm_regs (s : State) (t : Timer) : (s.disarm t).regs = s.regs := rfl
@[simp] theorem State.disarm_live (s : State) (t : Timer) : (s.disarm t).live = s.live := rfl
@[simp] theorem State.disarm_cnt (s : State) (t : Timer) : (s.disarm t).cnt = s.cnt := rfl
@[simp] theorem State.disarm_mem (s : State) (t : Timer) : (s.disarm t).mem = s.mem := rfl
@[simp] theorem State.disarm_st (s : State) (t : Timer) : (s.disarm t).st = s.st := rfl
@[simp] theorem State.disarm_power (s : State) (t : Timer) : (s.disarm t).power = s.power := rfl
@[simp] theorem State.disarm_frameOnce (s : State) (t : Timer) : (s.disarm t).frameOnce = s.frameOnce := rfl
@[simp] theorem State.disarm_fresh (s : State) (t : Timer) : (s.disarm t).fresh = s.fresh := rfl
@[simp] theorem State.disarm_wire (s : State) (t : Timer) : (s.disarm t).wire = s.wire := rfl
@[simp] theorem State.disarm_pending (s : State) (t : Timer) : (s.disarm t).pending = s.pending := rfl
@[simp] theorem State.disarm_alarms (s : State) (t : Timer) : (s.disarm t).alarms = s.alarms := rfl
@[simp] theorem State.disarm_viol (s : State) (t : Timer) : (s.disarm t).viol = s.viol := rfl
@[simp] theorem State.disarm_violOvf (s : State) (t : Timer) : (s.disarm t).violOvf = s.violOvf := rfl
@[simp] theorem State.disarm_violAddr (s : State) (t : Timer) : (s.disarm t).violAddr = s.violAddr := rfl
@[simp] theorem State.disarm_cores (s : State) (t : Timer) : (s.disarm t).cores = s.cores := rfl
@[simp] theorem State.disarm_packers (s : State) (t : Timer) : (s.disarm t).packers = s.packers := rfl
@[simp] theorem State.disarm_book (s : State) (t : Timer) : (s.disarm t).book = s.book := rfl
@[simp] theorem State.disarm_trace (s : State) (t : Timer) : (s.disarm t).trace = s.trace := rfl
@[simp] theorem State.disarm_terr (s : State) (t : Timer) : (s.disarm t).terr = s.terr := rfl
@[simp] theorem State.disarm_wing (s : State) (t : Timer) : (s.disarm t).wing = s.wing := rfl
@[simp] theorem State.disarm_stime (s : State) (t : Timer) : (s.disarm t).stime = s.stime := rfl
@[simp] theorem State.disarm_cue (s : State) (t : Timer) : (s.disarm t).cue = s.cue := rfl
@[simp] theorem State.disarm_ens (s : State) (t : Timer) : (s.disarm t).ens = s.ens := rfl
@[simp] theorem State.disarm_pin (s : State) (t : Timer) : (s.disarm t).pin = s.pin := rfl
@[simp] theorem State.disarm_sw (s : State) (t : Timer) : (s.disarm t).sw = s.sw := rfl
@[simp] theorem State.disarm_sol (s : State) (t : Timer) : (s.disarm t).sol = s.sol := rfl
@[simp] theorem State.disarm_ports (s : State) (t : Timer) : (s.disarm t).ports = s.ports := rfl
@[simp] theorem State.disarm_dtake (s : State) (t : Timer) : (s.disarm t).dtake = s.dtake := rfl
@[simp] theorem State.disarm_us (s : State) (t : Timer) : (s.disarm t).us = s.us := rfl
@[simp] theorem State.disarm_chorus (s : State) (t : Timer) : (s.disarm t).chorus = s.chorus := rfl
@[simp] theorem State.disarm_pendCue (s : State) (t : Timer) : (s.disarm t).pendCue = s.pendCue := rfl
@[simp] theorem State.disarm_modeReq (s : State) (t : Timer) : (s.disarm t).modeReq = s.modeReq := rfl
@[simp] theorem State.disarm_lcTarget (s : State) (t : Timer) : (s.disarm t).lcTarget = s.lcTarget := rfl
@[simp] theorem State.disarm_rdata (s : State) (t : Timer) : (s.disarm t).rdata = s.rdata := rfl
@[simp] theorem State.disarm_troupe (s : State) (t : Timer) : (s.disarm t).troupe = s.troupe := rfl
@[simp] theorem State.disarm_massif (s : State) (t : Timer) : (s.disarm t).massif = s.massif := rfl
@[simp] theorem State.disarm_scree (s : State) (t : Timer) : (s.disarm t).scree = s.scree := rfl
@[simp] theorem State.disarm_brk (s : State) (t : Timer) : (s.disarm t).brk = s.brk := rfl
@[simp] theorem State.disarm_badge (s : State) (t : Timer) : (s.disarm t).badge = s.badge := rfl
@[simp] theorem State.disarm_cart (s : State) (t : Timer) : (s.disarm t).cart = s.cart := rfl
@[simp] theorem State.disarm_refuge (s : State) (t : Timer) : (s.disarm t).refuge = s.refuge := rfl
@[simp] theorem State.disarm_curtain (s : State) (t : Timer) : (s.disarm t).curtain = s.curtain := rfl
@[simp] theorem State.disarm_waits (s : State) (t : Timer) : (s.disarm t).waits = s.waits := rfl
@[simp] theorem State.disarm_written (s : State) (t : Timer) : (s.disarm t).written = s.written := rfl
@[simp] theorem State.disarm_cfg (s : State) (t : Timer) : (s.disarm t).cfg = s.cfg := rfl
@[simp] theorem State.disarm_desk (s : State) (t : Timer) : (s.disarm t).desk = s.desk := rfl
@[simp] theorem State.disarm_otp (s : State) (t : Timer) : (s.disarm t).otp = s.otp := rfl
@[simp] theorem State.disarm_boot (s : State) (t : Timer) : (s.disarm t).boot = s.boot := rfl

/-! ## next changes `fresh` alone -/

@[simp] theorem State.next_regs (s : State) : (s.next).regs = s.regs := rfl
@[simp] theorem State.next_live (s : State) : (s.next).live = s.live := rfl
@[simp] theorem State.next_cnt (s : State) : (s.next).cnt = s.cnt := rfl
@[simp] theorem State.next_mem (s : State) : (s.next).mem = s.mem := rfl
@[simp] theorem State.next_st (s : State) : (s.next).st = s.st := rfl
@[simp] theorem State.next_power (s : State) : (s.next).power = s.power := rfl
@[simp] theorem State.next_timers (s : State) : (s.next).timers = s.timers := rfl
@[simp] theorem State.next_frameOnce (s : State) : (s.next).frameOnce = s.frameOnce := rfl
@[simp] theorem State.next_wire (s : State) : (s.next).wire = s.wire := rfl
@[simp] theorem State.next_pending (s : State) : (s.next).pending = s.pending := rfl
@[simp] theorem State.next_alarms (s : State) : (s.next).alarms = s.alarms := rfl
@[simp] theorem State.next_viol (s : State) : (s.next).viol = s.viol := rfl
@[simp] theorem State.next_violOvf (s : State) : (s.next).violOvf = s.violOvf := rfl
@[simp] theorem State.next_violAddr (s : State) : (s.next).violAddr = s.violAddr := rfl
@[simp] theorem State.next_cores (s : State) : (s.next).cores = s.cores := rfl
@[simp] theorem State.next_packers (s : State) : (s.next).packers = s.packers := rfl
@[simp] theorem State.next_book (s : State) : (s.next).book = s.book := rfl
@[simp] theorem State.next_trace (s : State) : (s.next).trace = s.trace := rfl
@[simp] theorem State.next_terr (s : State) : (s.next).terr = s.terr := rfl
@[simp] theorem State.next_wing (s : State) : (s.next).wing = s.wing := rfl
@[simp] theorem State.next_stime (s : State) : (s.next).stime = s.stime := rfl
@[simp] theorem State.next_cue (s : State) : (s.next).cue = s.cue := rfl
@[simp] theorem State.next_ens (s : State) : (s.next).ens = s.ens := rfl
@[simp] theorem State.next_pin (s : State) : (s.next).pin = s.pin := rfl
@[simp] theorem State.next_sw (s : State) : (s.next).sw = s.sw := rfl
@[simp] theorem State.next_sol (s : State) : (s.next).sol = s.sol := rfl
@[simp] theorem State.next_ports (s : State) : (s.next).ports = s.ports := rfl
@[simp] theorem State.next_dtake (s : State) : (s.next).dtake = s.dtake := rfl
@[simp] theorem State.next_us (s : State) : (s.next).us = s.us := rfl
@[simp] theorem State.next_chorus (s : State) : (s.next).chorus = s.chorus := rfl
@[simp] theorem State.next_pendCue (s : State) : (s.next).pendCue = s.pendCue := rfl
@[simp] theorem State.next_modeReq (s : State) : (s.next).modeReq = s.modeReq := rfl
@[simp] theorem State.next_lcTarget (s : State) : (s.next).lcTarget = s.lcTarget := rfl
@[simp] theorem State.next_rdata (s : State) : (s.next).rdata = s.rdata := rfl
@[simp] theorem State.next_troupe (s : State) : (s.next).troupe = s.troupe := rfl
@[simp] theorem State.next_massif (s : State) : (s.next).massif = s.massif := rfl
@[simp] theorem State.next_scree (s : State) : (s.next).scree = s.scree := rfl
@[simp] theorem State.next_brk (s : State) : (s.next).brk = s.brk := rfl
@[simp] theorem State.next_badge (s : State) : (s.next).badge = s.badge := rfl
@[simp] theorem State.next_cart (s : State) : (s.next).cart = s.cart := rfl
@[simp] theorem State.next_refuge (s : State) : (s.next).refuge = s.refuge := rfl
@[simp] theorem State.next_curtain (s : State) : (s.next).curtain = s.curtain := rfl
@[simp] theorem State.next_waits (s : State) : (s.next).waits = s.waits := rfl
@[simp] theorem State.next_written (s : State) : (s.next).written = s.written := rfl
@[simp] theorem State.next_cfg (s : State) : (s.next).cfg = s.cfg := rfl
@[simp] theorem State.next_desk (s : State) : (s.next).desk = s.desk := rfl
@[simp] theorem State.next_otp (s : State) : (s.next).otp = s.otp := rfl
@[simp] theorem State.next_boot (s : State) : (s.next).boot = s.boot := rfl

/-! ## Registers -/

/-- A written register reads as the word written; every other register is unchanged. -/
@[simp] theorem State.reg_setReg (s : State) (a : Nat) (w : Word) (b : Nat) : (s.setReg a w).reg b = if b = a then w else s.reg b := by
  simp [State.reg, State.setReg]

@[simp] theorem State.reg_wr (s : State) (f : Fld) (v b : Nat) :
    (s.wr f v).reg b = if b = f.addr then setBits (s.reg f.addr) f.hi f.lo v else s.reg b := by
  simp [State.wr]

/-- A written field reads as the value, cut to its width. -/
theorem State.rd_wr (s : State) (f : Fld) (v : Nat) (hl : f.lo ≤ f.hi + 1) (hh : f.hi < 32) : (s.wr f v).rd f = v % 2 ^ (f.hi + 1 - f.lo) := by
  simp [State.rd, getBits_setBits _ _ _ _ hl hh]

/-- Writing a field leaves every field of another register. -/
theorem State.rd_wr_of_ne (s : State) (f g : Fld) (v : Nat) (h : g.addr ≠ f.addr) : (s.wr f v).rd g = s.rd g := by
  simp [State.rd, h]

/-- Writing a field leaves the other fields of its register. -/
theorem State.rd_wr_of_disjoint (s : State) (f g : Fld) (v : Nat) (hl : f.lo ≤ f.hi + 1) (hh : f.hi < 32) (hd : f.hi < g.lo ∨ g.hi < f.lo) :
    (s.wr f v).rd g = s.rd g := by
  by_cases h : g.addr = f.addr
  · simp [State.rd, h, getBits_setBits_of_disjoint _ _ _ _ _ _ hl hh hd]
  · exact State.rd_wr_of_ne s f g v h

@[simp] theorem State.reg_setLive (s : State) (a : Nat) (w : Word) (b : Nat) : (s.setLive a w).reg b = s.reg b := rfl
@[simp] theorem State.reg_setCnt (s : State) (a : Nat) (w : Word) (b : Nat) : (s.setCnt a w).reg b = s.reg b := rfl
@[simp] theorem State.reg_arm (s : State) (t : Timer) (d b : Nat) : (s.arm t d).reg b = s.reg b := rfl
@[simp] theorem State.reg_disarm (s : State) (t : Timer) (b : Nat) : (s.disarm t).reg b = s.reg b := rfl
@[simp] theorem State.reg_next (s : State) (b : Nat) : s.next.reg b = s.reg b := rfl
@[simp] theorem State.reg_setMb (s : State) (a : Nat) (v : Byte) (b : Nat) : (s.setMb a v).reg b = s.reg b := rfl
@[simp] theorem State.reg_wipe (s : State) (lo hi b : Nat) : (s.wipe lo hi).reg b = s.reg b := rfl

@[simp] theorem State.liveReg_setLive (s : State) (a : Nat) (w : Word) (b : Nat) : (s.setLive a w).liveReg b = if b = a then w else s.liveReg b := by
  simp [State.liveReg, State.setLive]
@[simp] theorem State.liveReg_setReg (s : State) (a : Nat) (w : Word) (b : Nat) : (s.setReg a w).liveReg b = s.liveReg b := rfl
@[simp] theorem State.liveReg_wr (s : State) (f : Fld) (v b : Nat) : (s.wr f v).liveReg b = s.liveReg b := rfl

@[simp] theorem State.cntReg_setCnt (s : State) (a : Nat) (w : Word) (b : Nat) : (s.setCnt a w).cntReg b = if b = a then w else s.cntReg b := by
  simp [State.cntReg, State.setCnt]
@[simp] theorem State.cntReg_setReg (s : State) (a : Nat) (w : Word) (b : Nat) : (s.setReg a w).cntReg b = s.cntReg b := rfl
@[simp] theorem State.cntReg_wr (s : State) (f : Fld) (v b : Nat) : (s.wr f v).cntReg b = s.cntReg b := rfl

/-! ## Memory -/

/-- A written byte reads back, and every other byte is unchanged. -/
@[simp] theorem State.mb_setMb (s : State) (a : Nat) (v : Byte) (b : Nat) : (s.setMb a v).mb b = if b = a then v else s.mb b := by
  simp [State.mb, State.setMb]

/-- A wiped range reads as nothing listed, and every other byte is unchanged. -/
@[simp] theorem State.mb_wipe (s : State) (lo hi b : Nat) : (s.wipe lo hi).mb b = if lo ≤ b ∧ b < hi then memDefault b else s.mb b := by
  simp [State.mb, State.wipe]

@[simp] theorem State.mb_setReg (s : State) (a : Nat) (w : Word) (b : Nat) : (s.setReg a w).mb b = s.mb b := rfl
@[simp] theorem State.mb_wr (s : State) (f : Fld) (v b : Nat) : (s.wr f v).mb b = s.mb b := rfl

/-- Poked bytes read back, and every byte outside them is unchanged. -/
theorem State.mb_poke (s : State) (a : Nat) (bs : List Byte) (b : Nat) :
    (s.poke a bs).mb b = if h : a ≤ b ∧ b < a + bs.length then bs[b - a]'(by omega) else s.mb b := by
  induction bs generalizing s a with
  | nil => simp [State.poke]
  | cons x t ih =>
    rw [State.poke, ih]
    by_cases h1 : a + 1 ≤ b ∧ b < a + 1 + t.length
    · have h2 : a ≤ b ∧ b < a + (x :: t).length := by simp; omega
      rw [dif_pos h1, dif_pos h2]
      obtain ⟨k, hk⟩ : ∃ k, b - a = k + 1 := ⟨b - a - 1, by omega⟩
      have hk' : b - (a + 1) = k := by omega
      simp [hk, hk']
    · rw [dif_neg h1, State.mb_setMb]
      by_cases h3 : b = a
      · subst h3; simp
      · rw [if_neg h3, dif_neg (by simp; omega)]

/-- Poking changes memory alone. -/
theorem State.poke_eq (s : State) (a : Nat) (bs : List Byte) : s.poke a bs = { s with mem := (s.poke a bs).mem } := by
  induction bs generalizing s a with
  | nil => rfl
  | cons x t ih => rw [State.poke, ih]; rfl

/-- Writing a byte keeps the canonical form. -/
theorem State.setMb_wf (s : State) (a : Nat) (b : Byte) (h : Memory.wf s.mem = true) : Memory.wf (s.setMb a b).mem = true := canonical_put _ _ h

/-- Poking bytes keeps the canonical form. -/
theorem State.poke_wf (s : State) (a : Nat) (bs : List Byte) (h : Memory.wf s.mem = true) : Memory.wf (s.poke a bs).mem = true := by
  induction bs generalizing s a with
  | nil => exact h
  | cons x t ih => exact ih _ _ (State.setMb_wf s a x h)

/-- Wiping a range keeps the canonical form. -/
theorem State.wipe_wf (s : State) (lo hi : Nat) (h : Memory.wf s.mem = true) : Memory.wf (s.wipe lo hi).mem = true := canonical_clearRange _ _ h

end Sys2Proof.Machine
end

