-- ==== Sys2Proof/Laws/Access.lean ====
section
/-! SUPPORT. An admitted access of a register block is the register's own read or write; it says so once, for every register. -/

namespace Sys2Proof.Machine

/-- Is `a` the address of a 32-bit register of a block, the packers' input windows apart? -/
def isReg (a : Nat) : Bool :=
  decide (0x40000000 ≤ a) && decide (a < 0x401E0000) && decide (a % 4 = 0) && !(decide (packerIn 0 ≤ a) && decide (a < packerIn 48))

theorem isReg_iff {a : Nat} : isReg a = true ↔ (0x40000000 ≤ a ∧ a < 0x401E0000) ∧ a % 4 = 0 ∧ ¬(packerIn 0 ≤ a ∧ a < packerIn 48) := by
  simp only [isReg, Bool.and_eq_true, decide_eq_true_eq, Bool.not_eq_true', Bool.and_eq_false_iff, decide_eq_false_iff_not]
  tauto

theorem targetOf_reg {m a : Nat} (h1 : 0x40000000 ≤ a) (h2 : a < 0x401E0000) : targetOf m a = .block ((a - 0x40000000) / 0x10000) := by
  unfold targetOf
  repeat rw [if_neg (by omega)]
  rw [if_pos ⟨h1, h2⟩]

theorem leNat_word (w : Word) : leNat (leBytes 4 w.toNat) = w.toNat := by
  rw [leNat_leBytes, Nat.mod_eq_of_lt w.isLt]

theorem ofNat_leNat_word (w : Word) : BitVec.ofNat 32 (leNat (leBytes 4 w.toNat)) = w := by
  rw [leNat_word]
  exact BitVec.eq_of_toNat_eq (by rw [BitVec.toNat_ofNat, Nat.mod_eq_of_lt w.isLt])

/-- An admitted store to a register is the register's own write, and then the alarms it raised take effect. -/
theorem store_reg {s t : State} {m a : Nat} {w : Word} (h : s.mayWrite m a = true) (hr : isReg a = true) (hw : s.regWrite m a w = (none, t)) :
    s.store m a w = t.settle := by
  obtain ⟨⟨h1, h2⟩, h4, hp⟩ := isReg_iff.1 hr
  simp only [State.mayWrite, Bool.and_eq_true, Option.isNone_iff_eq_none] at h
  unfold State.store State.storeBytes
  rw [if_neg (by simp [h.1])]
  have ha : s.colAdmit m a (leBytes 4 w.toNat).length .write = (none, s) := by
    unfold State.colAdmit
    rw [targetOf_reg h1 h2, leBytes_length]
    simp only [h.2]
  have hb : s.busStore m a (leBytes 4 w.toNat) = (none, t) := by
    unfold State.busStore
    rw [ha]
    show s.targetStore m a (leBytes 4 w.toNat) = _
    unfold State.targetStore
    rw [targetOf_reg h1 h2]
    simp only [leBytes_length, ofNat_leNat_word]
    rw [if_neg hp, if_pos ⟨trivial, h4⟩, hw]
  rw [hb]

/-- An admitted load of a register is the register's own read. -/
theorem load_reg {s t : State} {m a : Nat} {w : Word} (h : s.mayRead m a = true) (hr : isReg a = true) (hw : s.regRead m a = (.ok w, t)) :
    s.load m a = State.settle { t with rdata := BitVec.ofNat 64 w.toNat } := by
  obtain ⟨⟨h1, h2⟩, h4, hp⟩ := isReg_iff.1 hr
  simp only [State.mayRead, Bool.and_eq_true, Option.isNone_iff_eq_none] at h
  unfold State.load State.loadN
  rw [if_neg (by simp [h.1])]
  have ha : s.colAdmit m a 4 .read = (none, s) := by
    unfold State.colAdmit
    rw [targetOf_reg h1 h2]
    simp only [h.2]
  have hb : s.busLoad m a 4 = (.ok (leBytes 4 w.toNat), t) := by
    unfold State.busLoad
    rw [ha]
    show s.targetLoad m a 4 = _
    unfold State.targetLoad
    rw [targetOf_reg h1 h2]
    have hs : (!(decide (packerIn 0 ≤ a) && decide (a < packerIn 48))) = true := by
      rw [Bool.not_eq_true', Bool.and_eq_false_imp, decide_eq_true_eq, decide_eq_false_iff_not]
      exact fun h1 h2 => hp ⟨h1, h2⟩
    simp only [hs, if_true]
    rw [if_pos ⟨trivial, h4⟩, hw]
  rw [hb]
  show State.settle { t with rdata := BitVec.ofNat 64 (leNat (leBytes 4 w.toNat)) } = _
  rw [leNat_word]

/-- The word that a command makes of its operands, bit by bit. -/
theorem getLsbD_ofNat32 (n i : Nat) (hi : i < 32) : (BitVec.ofNat 32 n).getLsbD i = decide (n / 2 ^ i % 2 = 1) := by
  rw [BitVec.getLsbD_ofNat, Nat.testBit_eq_decide_div_mod_eq]
  simp [hi]

/-- The fields of the word that a command makes of its operands. -/
theorem getBits_ofNat32 (n hi lo : Nat) (hn : n < 2 ^ 32) : getBits (BitVec.ofNat 32 n) hi lo = n / 2 ^ lo % 2 ^ (hi + 1 - lo) := by
  rw [getBits, BitVec.toNat_ofNat, Nat.mod_eq_of_lt hn]

/-- A bit of a word of which a field has been replaced. -/
theorem getLsbD_setBits (w : Word) (hi lo v i : Nat) (hl : lo ≤ hi + 1) (hh : hi < 32) :
    (setBits w hi lo v).getLsbD i = if lo ≤ i ∧ i ≤ hi then v.testBit (i - lo) else w.getLsbD i := by
  show (setBits w hi lo v).toNat.testBit i = _
  rw [setBits_testBit w hi lo v i hl hh]
  rfl

/-- A write of another register leaves the mode. -/
theorem mode_wr {s : State} {f : Fld} {v : Nat} (h : A.SYS_STATE ≠ f.addr) : (s.wr f v).mode = s.mode := by
  unfold State.mode
  rw [State.rd_wr_of_ne _ _ _ _ h]

/-- The commit register of a paired block. -/
theorem isReg_commit {b : Nat} (hb : b < 13) : isReg (A.BLOCK_COMMIT (pairedBase b)) = true := by
  interval_cases b <;> decide

/-- A write of the commit register of a paired block. -/
theorem regWrite_commit {s : State} {m b : Nat} {w : Word} (hb : b < 13) :
    s.regWrite m (A.BLOCK_COMMIT (pairedBase b)) w = (none, s.blockCommit (pairedBase b) w) := by
  interval_cases b <;> rfl

/-- With nothing pending no block waits for any moment. -/
theorem waitingFor_of_nothingPends {s : State} {w : Nat} (h : s.nothingPends = true) : s.waitingFor w = [] := by
  unfold State.waitingFor
  rw [List.filter_eq_nil_iff]
  intro b hb
  unfold State.nothingPends at h
  have := List.all_eq_true.1 h b hb
  rw [Bool.not_eq_true'] at this
  rw [this]; simp

/-- With nothing pending committing nothing changes nothing. -/
theorem commitAll_nil {s : State} (h : s.nothingPends = true) : s.commitAll [] = s := by
  show s.pairBreak = s
  unfold State.pairBreak
  unfold State.nothingPends at h
  have := List.all_eq_true.1 h Base.TERRACE (by decide)
  rw [Bool.not_eq_true'] at this
  rw [this]; rfl

theorem leNat_dword (d : DWord) : leNat (leBytes 8 d.toNat) = d.toNat := by
  rw [leNat_leBytes, Nat.mod_eq_of_lt d.isLt]

theorem ofNat_leNat_dword (d : DWord) : BitVec.ofNat 64 (leNat (leBytes 8 d.toNat)) = d := by
  rw [leNat_dword]
  exact BitVec.eq_of_toNat_eq (by rw [BitVec.toNat_ofNat, Nat.mod_eq_of_lt d.isLt])

theorem targetOf_wState {m q k : Nat} (hq : q < 262144) (hk : k < 4) : targetOf m (0x30000000 + 16 * q + 4 * k) = .wState := by
  unfold targetOf
  repeat rw [if_neg (by omega)]
  rw [if_pos (by omega)]

theorem targetOf_wEnq {m q : Nat} (hq : q < 262144) : targetOf m (0x34000000 + 8 * q) = .wEnq := by
  unfold targetOf
  repeat rw [if_neg (by omega)]
  rw [if_pos (by omega)]

theorem targetOf_wDeq {m q : Nat} (hq : q < 262144) : targetOf m (0x34400000 + 8 * q) = .wDeq := by
  unfold targetOf
  repeat rw [if_neg (by omega)]
  rw [if_pos (by omega)]

/-- An admitted store of bytes is what its target does with them, and then the alarms it raised take effect. -/
theorem storeBytes_target {s t : State} {m a : Nat} {bs : List Byte} (h : s.admits m a bs.length .write = true) (hn : targetOf m a ≠ .nothing)
    (ht : ∀ n o, targetOf m a ≠ .terrace n o) (hw : s.targetStore m a bs = (none, t)) : s.storeBytes m a bs = t.settle := by
  simp only [State.admits, Bool.and_eq_true, Option.isNone_iff_eq_none] at h
  unfold State.storeBytes
  rw [if_neg (by simp [h.1])]
  have ha : s.colAdmit m a bs.length .write = (none, s) := by
    unfold State.colAdmit
    cases hx : targetOf m a <;> simp only [h.2]
    · exact absurd hx (ht _ _)
    · exact absurd hx hn
  have hb : s.busStore m a bs = (none, t) := by
    unfold State.busStore
    rw [ha]
    exact hw
  rw [hb]

/-- An admitted load is what its target answers. -/
theorem loadN_target {s t : State} {m a n : Nat} {b : List Byte} (h : s.admits m a n .read = true) (hn : targetOf m a ≠ .nothing)
    (ht : ∀ k o, targetOf m a ≠ .terrace k o) (hw : s.targetLoad m a n = (.ok b, t)) :
    s.loadN m a n = State.settle { t with rdata := BitVec.ofNat 64 (leNat b) } := by
  simp only [State.admits, Bool.and_eq_true, Option.isNone_iff_eq_none] at h
  unfold State.loadN
  rw [if_neg (by simp [h.1])]
  have ha : s.colAdmit m a n .read = (none, s) := by
    unfold State.colAdmit
    cases hx : targetOf m a <;> simp only [h.2]
    · exact absurd hx (ht _ _)
    · exact absurd hx hn
  have hb : s.busLoad m a n = (.ok b, t) := by
    unfold State.busLoad
    rw [ha]
    exact hw
  rw [hb]

/-- A word of a queue's state. -/
theorem store_queue {s : State} {m q k : Nat} {w : Word} (hq : q < 262144) (hk : k < 4) (h : s.admits m (0x30000000 + 16 * q + 4 * k) 4 .write = true) :
    s.store m (0x30000000 + 16 * q + 4 * k) w = (s.queueWrite q k w).settle := by
  have ht := targetOf_wState (m := m) hq hk
  refine storeBytes_target (by rw [leBytes_length]; exact h) (by rw [ht]; simp) (by rw [ht]; simp) ?_
  unfold State.targetStore
  rw [ht]
  simp only [leBytes_length, ofNat_leNat_word]
  rw [if_pos ⟨trivial, by omega⟩, show (0x30000000 + 16 * q + 4 * k - 0x30000000) / 16 = q by omega, show (0x30000000 + 16 * q + 4 * k) / 4 % 4 = k by omega]

/-- The enqueue window of a queue. -/
theorem store8_enqueue {s : State} {m q : Nat} {d : DWord} (hq : q < 262144) (h : s.admits m (0x34000000 + 8 * q) 8 .write = true) :
    s.store8 m (0x34000000 + 8 * q) d = (s.enqueueStore m q d).settle := by
  have ht := targetOf_wEnq (m := m) hq
  refine storeBytes_target (by rw [leBytes_length]; exact h) (by rw [ht]; simp) (by rw [ht]; simp) ?_
  unfold State.targetStore
  rw [ht]
  simp only [leBytes_length, ofNat_leNat_dword]
  rw [if_pos ⟨trivial, by omega⟩, show (0x34000000 + 8 * q - 0x34000000) / 8 = q by omega]

/-- The dequeue window of a queue: a store releases. -/
theorem store8_dequeue {s : State} {m q : Nat} {d : DWord} (hq : q < 262144) (h : s.admits m (0x34400000 + 8 * q) 8 .write = true) :
    s.store8 m (0x34400000 + 8 * q) d = (s.releaseStore m q d).settle := by
  have ht := targetOf_wDeq (m := m) hq
  refine storeBytes_target (by rw [leBytes_length]; exact h) (by rw [ht]; simp) (by rw [ht]; simp) ?_
  unfold State.targetStore
  rw [ht]
  simp only [leBytes_length, ofNat_leNat_dword]
  rw [if_pos ⟨trivial, by omega⟩, show (0x34400000 + 8 * q - 0x34400000) / 8 = q by omega]

/-- A load from the enqueue window. -/
theorem load8_enqueue {s : State} {m q : Nat} (hq : q < 262144) (h : s.admits m (0x34000000 + 8 * q) 8 .read = true) :
    s.load8 m (0x34000000 + 8 * q) = State.settle { s with rdata := s.enqueueLoad m q } := by
  have ht := targetOf_wEnq (m := m) hq
  rw [State.load8, loadN_target (t := s) (b := leBytes 8 (s.enqueueLoad m q).toNat) h (by rw [ht]; simp) (by rw [ht]; simp) ?_]
  · rw [ofNat_leNat_dword]
  · unfold State.targetLoad
    rw [ht]
    simp only
    rw [if_neg (by decide)]
    unfold State.burstTarget
    rw [ht]
    simp only
    rw [if_pos ⟨trivial, by omega⟩, show (0x34000000 + 8 * q - 0x34000000) / 8 = q by omega]

/-- A load from the dequeue window. -/
theorem load8_dequeue {s : State} {m q : Nat} (hq : q < 262144) (h : s.admits m (0x34400000 + 8 * q) 8 .read = true) :
    s.load8 m (0x34400000 + 8 * q) = State.settle { (s.dequeueLoad m q).2 with rdata := (s.dequeueLoad m q).1 } := by
  have ht := targetOf_wDeq (m := m) hq
  rw [State.load8, loadN_target (t := (s.dequeueLoad m q).2) (b := leBytes 8 (s.dequeueLoad m q).1.toNat) h (by rw [ht]; simp) (by rw [ht]; simp) ?_]
  · rw [ofNat_leNat_dword]
  · unfold State.targetLoad
    rw [ht]
    simp only
    rw [if_neg (by decide)]
    unfold State.burstTarget
    rw [ht]
    simp only
    rw [if_pos ⟨trivial, by omega⟩, show (0x34400000 + 8 * q - 0x34400000) / 8 = q by omega]

/-- A packer's input window. -/
theorem storeN_packer {s : State} {m c n : Nat} {d : DWord} (hc : c < 48) (h : s.admits m (packerIn c) n .write = true) :
    s.storeN m (packerIn c) n d = (s.packerAppend c (leBytes n d.toNat)).settle := by
  have ht : targetOf m (packerIn c) = .block ((packerIn c - 0x40000000) / 0x10000) :=
    targetOf_reg (by unfold packerIn; omega) (by unfold packerIn; omega)
  refine storeBytes_target (by rw [leBytes_length]; exact h) (by rw [ht]; simp) (by rw [ht]; simp) ?_
  unfold State.targetStore
  rw [ht]
  simp only
  rw [if_pos (by unfold packerIn; omega), if_pos (by unfold packerIn; omega), show (packerIn c - packerIn 0) / 8 = c by unfold packerIn; omega]

/-- With no release ended by a link that went down, none is left to complete. -/
theorem relFlush_quiet {s : State} (h : s.ports.ended = []) : s.relFlush = s := by
  unfold State.relFlush
  simp only [h, List.foldl_nil]
  show ({ s with ports := { s.ports with ended := [] } } : State) = s
  rw [← h]

/-- With no alarm raised and no release to complete nothing more takes effect. -/
theorem settle_quiet {s : State} (h : s.alarms = []) (he : s.ports.ended = []) : s.settle = s := by
  unfold State.settle
  rw [relFlush_quiet he, h]
  show ({ s with alarms := [] } : State) = s
  rw [← h]

/-- A row that lets a running timer elapse. -/
theorem fire_next {s u : State} {t : Timer} {k : State → State} (h : s.armed t = true) (hk : k (s.elapsed t) = u) :
    (Host.Outcome.next (s.fire t k) : Host.Outcome State Fault Refusal) = .next u := by
  unfold State.fire
  rw [if_pos h]
  exact congrArg _ hk

/-- A timer that runs and elapses. -/
theorem fire_armed {s : State} {t : Timer} {k : State → State} (h : s.armed t = true) : s.fire t k = k (s.elapsed t) := by
  unfold State.fire
  rw [if_pos h]
  rfl

/-- Replacing all the bits of a word by another word's gives that word. -/
theorem setBits_full (old w : Word) : setBits old 31 0 (getBits w 31 0) = w := by
  apply BitVec.eq_of_toNat_eq
  apply Nat.eq_of_testBit_eq
  intro i
  rw [setBits_testBit _ _ _ _ _ (by omega) (by omega)]
  by_cases h : i < 32
  · rw [if_pos (by omega), getBits_testBit]
    simp
    intro _
    omega
  · rw [if_neg (by omega), Nat.testBit_lt_two_pow (lt_of_lt_of_le old.isLt (Nat.pow_le_pow_right (by omega) (by omega))),
      Nat.testBit_lt_two_pow (lt_of_lt_of_le w.isLt (Nat.pow_le_pow_right (by omega) (by omega)))]

/-- A write of a register whose one field takes up all its bits, readable and writable. -/
theorem plainWrite_full (s : State) (n : String) (a : Nat) (ds : List (Nat × Nat)) (r : Word) (k : Nat) (w : Word) :
    s.plainWrite ⟨n, a, ds, r, [⟨31, 0, .rw, false, false, []⟩]⟩ k w = s.setReg k w := by
  unfold State.plainWrite
  congr 1
  exact setBits_full _ _

end Sys2Proof.Machine
end

