-- ==== Sys2Proof/Laws/InvBase.lean ====
section
/-! SUPPORT. How the invariant passes through the forms in which the model is written: local names, choices, folds, pairs; and through the primitive updates. -/

namespace Sys2Proof.Machine

theorem inv_ite {c : Prop} [Decidable c] {a b : State} (ha : c → a.Inv) (hb : ¬c → b.Inv) : (if c then a else b).Inv := by
  split
  · exact ha ‹_›
  · exact hb ‹_›

/-- The invariant of an answer that carries a state. -/
def PInv {α : Type} (p : α × State) : Prop := p.2.Inv

theorem inv_ite2 {α : Type} {c : Prop} [Decidable c] {a b : α × State} (ha : c → PInv a) (hb : ¬c → PInv b) : PInv (if c then a else b) := by
  split
  · exact ha ‹_›
  · exact hb ‹_›

theorem inv_pair {α : Type} {a : α} {s : State} (h : s.Inv) : PInv (a, s) := h

theorem inv_snd {α : Type} {p : α × State} (h : PInv p) : p.2.Inv := h

/-- The invariant of the outcome of a command. -/
def KInv (o : Host.Outcome State Fault Refusal) : Prop := ∀ t, o = .next t → t.Inv

theorem kinv_next {s : State} (h : s.Inv) : KInv (.next s) := fun _ e => by cases e; exact h

theorem keep_id {s : State} (h : s.Inv) : (id s).Inv := h

theorem inv_unpair {α : Type} {a : α} {s : State} (h : PInv (a, s)) : s.Inv := h

theorem inv_of_eq {α : Type} {p : α × State} {a : α} {t : State} (e : p = (a, t)) (h : PInv p) : t.Inv := by rw [e] at h; exact h

theorem inv_foldl {β : Type} {f : State → β → State} {l : List β} {s : State} (h : s.Inv) (hf : ∀ (x : State) (b : β), x.Inv → (f x b).Inv) :
    (l.foldl f s).Inv := by
  induction l generalizing s with
  | nil => exact h
  | cons b t ih => exact ih (hf s b h)

theorem inv_foldl2 {α β : Type} {f : α × State → β → α × State} {l : List β} {p : α × State} (h : PInv p)
    (hf : ∀ (x : α × State) (b : β), PInv x → PInv (f x b)) : PInv (l.foldl f p) := by
  induction l generalizing p with
  | nil => exact h
  | cons b t ih => exact ih (hf p b h)

/-- The invariant of an answer that may hold no state. -/
def OInv (o : Option State) : Prop := ∀ t, o = some t → t.Inv

/-- The invariant of an answer that may hold a value and a state. -/
def OInv2 {α : Type} (o : Option (α × State)) : Prop := ∀ t, o = some t → PInv t

theorem oinv_none : OInv none := fun _ e => nomatch e

theorem oinv_some {s : State} (h : s.Inv) : OInv (some s) := fun _ e => by cases e; exact h

theorem oinv_use {o : Option State} {t : State} (e : o = some t) (h : OInv o) : t.Inv := h t e

theorem oinv_ite {c : Prop} [Decidable c] {a b : Option State} (ha : c → OInv a) (hb : ¬c → OInv b) : OInv (if c then a else b) := by
  split
  · exact ha ‹_›
  · exact hb ‹_›

theorem oinv2_none {α : Type} : OInv2 (none : Option (α × State)) := fun _ e => nomatch e

theorem oinv2_some {α : Type} {p : α × State} (h : PInv p) : OInv2 (some p) := fun _ e => by cases e; exact h

theorem oinv_use2 {α : Type} {o : Option (α × State)} {a : α} {t : State} (e : o = some (a, t)) (h : OInv2 o) : t.Inv := h (a, t) e

theorem oinv2_ite {α : Type} {c : Prop} [Decidable c] {a b : Option (α × State)} (ha : c → OInv2 a) (hb : ¬c → OInv2 b) :
    OInv2 (if c then a else b) := by
  split
  · exact ha ‹_›
  · exact hb ‹_›

/-- An update of fields that the invariant does not speak of keeps it. -/
theorem inv_mk {s0 : State} {regs : List (Nat × Word)} {live : List (Nat × Word)} {cnt : List (Nat × Word)} {mem : List Host.Cell} {st : DWord} {power : Bool} {timers : List (Timer × Nat)} {frameOnce : List Nat} {fresh : Nat} {wire : List Sent} {pending : List Instr} {alarms : List Nat} {viol : List Viol} {violOvf : Bool} {violAddr : List (Nat × Word)} {cores : List (Nat × CoreSt)} {packers : List (Nat × Packer)} {book : Book} {trace : Trace} {terr : Terr} {wing : Wing} {stime : STime} {cue : Cue} {ens : Ens} {pin : PinsSt} {sw : Sw} {sol : Sol} {ports : PortsSt} {dtake : Dtake} {us : Und} {chorus : Chorus} {pendCue : List (Nat × Nat)} {modeReq : Option Mode} {lcTarget : Nat} {rdata : DWord} {troupe : Troupe} {massif : Massif} {scree : Scree} {brk : Brk} {badge : Badge} {cart : Cart} {refuge : Refuge} {curtain : Option CurEntry} {waits : List (Nat × Nat)} {written : List Nat} {cfg : Nat} {desk : Desk} {otp : Otp} {boot : Boot}
    (h : s0.Inv) (e1 : mem = s0.mem) (e2 : regs = s0.regs) (e3 : live = s0.live) (e4 : cnt = s0.cnt) (e5 : viol = s0.viol)
    (e6 : book.inFifo = s0.book.inFifo) (e7 : book.ring = s0.book.ring) (e8 : terr.rescue = s0.terr.rescue) (e9 : ens.running = s0.ens.running) :
    (State.mk regs live cnt mem st power timers frameOnce fresh wire pending alarms viol violOvf violAddr cores packers book trace terr wing stime cue ens pin sw sol ports dtake us chorus pendCue modeReq lcTarget rdata troupe massif scree brk badge cart refuge curtain waits written cfg desk otp boot).Inv := by
  unfold State.Inv at *
  rw [← e1, ← e2, ← e3, ← e4, ← e5, ← e6, ← e7, ← e8, ← e9] at h
  exact h

/-! ## The primitive updates -/

theorem keep_setReg {s : State} {a : Nat} {w : Word} (h : s.Inv) : (s.setReg a w).Inv := And.intro ⟨h.1.1, canonical_put _ _ h.1.2.1, h.1.2.2⟩ h.2

theorem keep_wr {s : State} {f : Fld} {v : Nat} (h : s.Inv) : (s.wr f v).Inv := keep_setReg h

theorem keep_setLive {s : State} {a : Nat} {w : Word} (h : s.Inv) : (s.setLive a w).Inv :=
  And.intro ⟨h.1.1, h.1.2.1, canonical_put _ _ h.1.2.2.1, h.1.2.2.2⟩ h.2

theorem keep_setCnt {s : State} {a : Nat} {w : Word} (h : s.Inv) : (s.setCnt a w).Inv :=
  And.intro ⟨h.1.1, h.1.2.1, h.1.2.2.1, canonical_put _ _ h.1.2.2.2⟩ h.2

theorem keep_setMb {s : State} {a : Nat} {b : Byte} (h : s.Inv) : (s.setMb a b).Inv := And.intro ⟨canonical_put _ _ h.1.1, h.1.2⟩ h.2

theorem keep_wipe {s : State} {lo hi : Nat} (h : s.Inv) : (s.wipe lo hi).Inv := And.intro ⟨canonical_clearRange _ _ h.1.1, h.1.2⟩ h.2

theorem keep_poke {s : State} {a : Nat} {bs : List Byte} (h : s.Inv) : (s.poke a bs).Inv := by
  induction bs generalizing s a with
  | nil => exact h
  | cons b t ih => exact ih (keep_setMb h)

theorem keep_fire {s : State} {t : Timer} {k : State → State} (h : s.Inv) (hk : ∀ x : State, x.Inv → (k x).Inv) : (s.fire t k).Inv := by
  unfold State.fire State.reachST
  split
  · apply hk
    split <;> exact h
  · exact h

theorem keep_postRec {s : State} {r : Rec} (h : s.Inv) : (s.postRec r).Inv := by
  unfold State.postRec
  split
  · rename_i hl
    refine And.intro h.1 ⟨h.2.1, ?_, h.2.2.2⟩
    simpa using hl
  · exact keep_wr h

end Sys2Proof.Machine
end

