-- ==== Sys2Proof/Laws/CompleteBadge.lean ====
section
/-! SUPPORT. Completion lemmas: for each command of the BadgeReader, BadgeTag, BadgeSummary rows, the next state that `exec` answers, under
hypotheses on the state and the operands alone. One lemma per clause of the completion statements. -/

set_option maxRecDepth 8000

namespace Sys2Proof.Machine

theorem readerGo_eq {s a b c : State} {w : Word} {op len : Nat} (h31 : w.getLsbD 31 = true) (ho : getBits w 30 28 = op) (hl : getBits w 8 0 = len) (hlen : len ≤ 256)
    (ha : a = s.setReg A.BADGE_RD_CTRL (setBits (w &&& 0x7C0001FF#32) 8 0 len)) (h : a.badge.op = none) (hb : b = (a.disarm .carrier).disarm .cardPower) (h1 : b.readerOk = true)
    (h2 : b.flag F.BADGE_STAT_EXT_FIELD = false) (hop : 1 ≤ op ∧ op ≤ 5) (hc : c = { b.wr F.BADGE_RD_STAT_BUSY 1 with badge.op := some op }) :
    ∀ d : State, d = (if op = rdFIELD_ON then (c.setCarrier true).arm .cardPower (5 * ticksPerMs) else c) →
    s.readerGo w = if op = rdEXCHANGE then d.send chanReader op (d.sentToCard len) else d := by
  intro d hd
  unfold State.readerGo
  dsimp only at hc ⊢
  rw [hl, if_neg (by omega : ¬(256 < len)), ← ha, if_neg (by rw [h31, h]; decide), ← hb, if_neg (by rw [h1]; decide), if_neg (by rw [h2]; decide), ho, if_neg (by omega), ← hc, ← hd]

theorem complete_fieldOn : ∀ (s a b c : State) (m : Nat), s.mayWrite m A.BADGE_RD_CTRL = true →
    a = s.setReg A.BADGE_RD_CTRL (setBits (BitVec.ofNat 32 (2 ^ 31 + 1 * 2 ^ 28) &&& 0x7C0001FF#32) 8 0 0) → a.badge.op = none → b = (a.disarm .carrier).disarm .cardPower → b.readerOk = true →
    b.flag F.BADGE_STAT_EXT_FIELD = false → c = { b.wr F.BADGE_RD_STAT_BUSY 1 with badge.op := some 1 } →
    exec (.fieldOn m) s = .next (State.settle ((c.setCarrier true).arm .cardPower (5 * ticksPerMs))) := by
  intro s a b c m h ha h1 hb h2 h3 hc
  show Host.Outcome.next (s.store m A.BADGE_RD_CTRL (BitVec.ofNat 32 (2 ^ 31 + 1 * 2 ^ 28))) = _
  have e : ∀ x, s.regWrite m A.BADGE_RD_CTRL x = (none, s.readerGo x) := by
    intro x
    rfl
  have g := readerGo_eq (op := 1) (len := 0) (by rw [getLsbD_ofNat32 _ _ (by omega), decide_eq_true_eq]; omega) (by rw [getBits_ofNat32 _ _ _ (by omega)]; omega)
    (by rw [getBits_ofNat32 _ _ _ (by omega)]; omega) (by omega) ha h1 hb h2 h3 ⟨by decide, by decide⟩ hc ((c.setCarrier true).arm .cardPower (5 * ticksPerMs)) (if_pos rfl).symm
  rw [if_neg (by decide)] at g
  rw [store_reg h (by decide) (e _), g]

theorem complete_fieldOff : ∀ (s a b c : State) (m : Nat), s.mayWrite m A.BADGE_RD_CTRL = true →
    a = s.setReg A.BADGE_RD_CTRL (setBits (BitVec.ofNat 32 (2 ^ 31 + 2 * 2 ^ 28) &&& 0x7C0001FF#32) 8 0 0) → a.badge.op = none → b = (a.disarm .carrier).disarm .cardPower → b.readerOk = true →
    b.flag F.BADGE_STAT_EXT_FIELD = false → c = { b.wr F.BADGE_RD_STAT_BUSY 1 with badge.op := some 2 } →
    exec (.fieldOff m) s = .next (State.settle (c)) := by
  intro s a b c m h ha h1 hb h2 h3 hc
  show Host.Outcome.next (s.store m A.BADGE_RD_CTRL (BitVec.ofNat 32 (2 ^ 31 + 2 * 2 ^ 28))) = _
  have e : ∀ x, s.regWrite m A.BADGE_RD_CTRL x = (none, s.readerGo x) := by
    intro x
    rfl
  have g := readerGo_eq (op := 2) (len := 0) (by rw [getLsbD_ofNat32 _ _ (by omega), decide_eq_true_eq]; omega) (by rw [getBits_ofNat32 _ _ _ (by omega)]; omega)
    (by rw [getBits_ofNat32 _ _ _ (by omega)]; omega) (by omega) ha h1 hb h2 h3 ⟨by decide, by decide⟩ hc (c) (if_neg (by decide)).symm
  rw [if_neg (by decide)] at g
  rw [store_reg h (by decide) (e _), g]

theorem complete_activate : ∀ (s a b c : State) (m rate : Nat), rate < 4 → s.mayWrite m A.BADGE_RD_CTRL = true →
    a = s.setReg A.BADGE_RD_CTRL (setBits (BitVec.ofNat 32 (2 ^ 31 + 3 * 2 ^ 28 + rate * 2 ^ 26) &&& 0x7C0001FF#32) 8 0 0) → a.badge.op = none → b = (a.disarm .carrier).disarm .cardPower → b.readerOk = true →
    b.flag F.BADGE_STAT_EXT_FIELD = false → c = { b.wr F.BADGE_RD_STAT_BUSY 1 with badge.op := some 3 } →
    exec (.activate m rate) s = .next (State.settle (c)) := by
  intro s a b c m rate hr h ha h1 hb h2 h3 hc
  show Host.Outcome.next (s.store m A.BADGE_RD_CTRL (BitVec.ofNat 32 (2 ^ 31 + 3 * 2 ^ 28 + rate * 2 ^ 26))) = _
  have e : ∀ x, s.regWrite m A.BADGE_RD_CTRL x = (none, s.readerGo x) := by
    intro x
    rfl
  have g := readerGo_eq (op := 3) (len := 0) (by rw [getLsbD_ofNat32 _ _ (by omega), decide_eq_true_eq]; omega) (by rw [getBits_ofNat32 _ _ _ (by omega)]; omega)
    (by rw [getBits_ofNat32 _ _ _ (by omega)]; omega) (by omega) ha h1 hb h2 h3 ⟨by decide, by decide⟩ hc (c) (if_neg (by decide)).symm
  rw [if_neg (by decide)] at g
  rw [store_reg h (by decide) (e _), g]

theorem complete_exchange : ∀ (s a b c : State) (m len : Nat), len ≤ 256 → s.mayWrite m A.BADGE_RD_CTRL = true →
    a = s.setReg A.BADGE_RD_CTRL (setBits (BitVec.ofNat 32 (2 ^ 31 + 4 * 2 ^ 28 + len) &&& 0x7C0001FF#32) 8 0 len) → a.badge.op = none → b = (a.disarm .carrier).disarm .cardPower → b.readerOk = true →
    b.flag F.BADGE_STAT_EXT_FIELD = false → c = { b.wr F.BADGE_RD_STAT_BUSY 1 with badge.op := some 4 } →
    exec (.exchange m len) s = .next (State.settle (c.send chanReader 4 (c.sentToCard len))) := by
  intro s a b c m len hr h ha h1 hb h2 h3 hc
  show Host.Outcome.next (s.store m A.BADGE_RD_CTRL (BitVec.ofNat 32 (2 ^ 31 + 4 * 2 ^ 28 + len))) = _
  have e : ∀ x, s.regWrite m A.BADGE_RD_CTRL x = (none, s.readerGo x) := by
    intro x
    rfl
  have g := readerGo_eq (op := 4) (len := len) (by rw [getLsbD_ofNat32 _ _ (by omega), decide_eq_true_eq]; omega) (by rw [getBits_ofNat32 _ _ _ (by omega)]; omega)
    (by rw [getBits_ofNat32 _ _ _ (by omega)]; omega) (by omega) ha h1 hb h2 h3 ⟨by decide, by decide⟩ hc (c) (if_neg (by decide)).symm
  rw [if_pos rfl] at g
  rw [store_reg h (by decide) (e _), g]

theorem complete_deselect : ∀ (s a b c : State) (m : Nat), s.mayWrite m A.BADGE_RD_CTRL = true →
    a = s.setReg A.BADGE_RD_CTRL (setBits (BitVec.ofNat 32 (2 ^ 31 + 5 * 2 ^ 28) &&& 0x7C0001FF#32) 8 0 0) → a.badge.op = none → b = (a.disarm .carrier).disarm .cardPower → b.readerOk = true →
    b.flag F.BADGE_STAT_EXT_FIELD = false → c = { b.wr F.BADGE_RD_STAT_BUSY 1 with badge.op := some 5 } →
    exec (.deselect m) s = .next (State.settle (c)) := by
  intro s a b c m h ha h1 hb h2 h3 hc
  show Host.Outcome.next (s.store m A.BADGE_RD_CTRL (BitVec.ofNat 32 (2 ^ 31 + 5 * 2 ^ 28))) = _
  have e : ∀ x, s.regWrite m A.BADGE_RD_CTRL x = (none, s.readerGo x) := by
    intro x
    rfl
  have g := readerGo_eq (op := 5) (len := 0) (by rw [getLsbD_ofNat32 _ _ (by omega), decide_eq_true_eq]; omega) (by rw [getBits_ofNat32 _ _ _ (by omega)]; omega)
    (by rw [getBits_ofNat32 _ _ _ (by omega)]; omega) (by omega) ha h1 hb h2 h3 ⟨by decide, by decide⟩ hc (c) (if_neg (by decide)).symm
  rw [if_neg (by decide)] at g
  rw [store_reg h (by decide) (e _), g]

theorem complete_readerOpDone : ∀ (s r a b c d : State) (op st : Nat) (rx : List Byte) (auth : Bool), s.badge.op = some op →
    r = (if op = rdFIELD_ON then s.fire .cardPower id else s) → a = (if op = rdFIELD_OFF ∨ op = rdDESELECT then r.setCarrier false else r) →
    b = (if st == rdDONE && op == rdACTIVATE then a.wr F.BADGE_RD_STAT_RATE (min (a.rd F.BADGE_RD_CTRL_RATE) (a.rd F.BADGE_CFG_RATE_MAX)) else a) →
    c = (if st == rdDONE && (op == rdACTIVATE || op == rdEXCHANGE) then State.wr { b with badge.rx := rx.take 256 } F.BADGE_RD_STAT_RX_LEN (rx.take 256).length else b) →
    d = c.readerEnd st → ((st == rdDONE && op == rdEXCHANGE && auth) = false → exec (.readerOpDone st rx auth) s = .next d) ∧
    ((st == rdDONE && op == rdEXCHANGE && auth) = true → exec (.readerOpDone st rx auth) s = .next (match Config.badgeEntry d.cfg (d.sentToCard (d.rd F.BADGE_RD_CTRL_LEN) ++ serial16) (rx.take 256) with
      | some e => (State.post { d with badge.lastBadge := some e } 0xD004 3 19 [e]).summaryOwed
      | none => d.post 0xD005 5 19 [])) := by
  intro s r a b c d op st rx auth h hr ha hb hc hd
  have e : exec (.readerOpDone st rx auth) s = .next (if (st == rdDONE && op == rdEXCHANGE && auth) = true then (match Config.badgeEntry d.cfg (d.sentToCard (d.rd F.BADGE_RD_CTRL_LEN) ++ serial16) (rx.take 256) with
      | some e => (State.post { d with badge.lastBadge := some e } 0xD004 3 19 [e]).summaryOwed
      | none => d.post 0xD005 5 19 []) else d) := by
    show Host.Outcome.next (s.readerDone st rx auth) = _
    unfold State.readerDone
    rw [h]
    dsimp only at hc ⊢
    rw [← hr, ← ha, ← hb, ← hc, ← hd]
    all_goals rfl
  rw [e]
  exact ⟨fun q => congrArg _ (if_neg (by rw [q]; decide)), fun q => congrArg _ (if_pos q)⟩

theorem complete_carrierIdleOff : ∀ s : State, s.armed .carrier = true → exec .carrierIdleOff s = .next ((s.elapsed .carrier).setCarrier false) := by
  intro s h
  exact fire_next (k := State.carrierIdle) h rfl

theorem complete_detuningPing : ∀ (s u : State) (amp n sum diff : Nat), s.flag F.BADGE_CFG_PING_EN = true → s.readerOk = true → s.flag F.BADGE_STAT_EXT_FIELD = false → s.badge.op = none →
    u = ((s.fire .pingHold id).fire .ping id).arm .ping (max 1 (s.rd F.BADGE_CFG_PING_MS) * (10 * ticksPerMs)) → n = u.badge.pings.length → sum = u.badge.pings.foldl (· + ·) 0 → diff = (if amp * n < sum then sum - amp * n else amp * n - sum) →
    exec (.detuningPing amp) s = .next (if n ≠ 0 ∧ sum * max 1 (u.rd F.BADGE_CFG_PING_THRESH) ≤ diff * 200 then (u.wr F.BADGE_STAT_CARD 1).irq 176
      else { u with badge.pings := (amp :: u.badge.pings).take 8 }) := by
  intro s u amp n sum diff h h1 h2 h3 hu hn hs hd
  show Host.Outcome.next (s.ping amp) = _
  unfold State.ping
  rw [if_neg (by rw [h, h1, h2, h3]; decide)]
  dsimp only
  rw [← hu, ← hn, ← hs, ← hd]

theorem complete_extFieldChange : ∀ (s u : State) (p : Bool), u = { s.wr F.BADGE_STAT_EXT_FIELD (b2n p) with badge.field := p } →
    exec (.extFieldChange p) s = .next (if p then ((if u.badge.op.isSome then u.readerEnd rdEXT else u).setCarrier false).disarm .carrier
      else u.arm .pingHold (100 * ticksPerMs)) := by
  intro s u p hu
  show Host.Outcome.next (s.fieldChange p) = _
  unfold State.fieldChange
  subst hu
  rfl

theorem complete_badgeStatRead : ∀ (s : State) (m : Nat), s.mayRead m A.BADGE_STAT = true → exec (.badgeStatRead m) s =
    .next (State.settle { s.wr F.BADGE_STAT_RECOVERIES 0 with rdata := BitVec.ofNat 64 (s.reg A.BADGE_STAT).toNat }) := by
  intro s m h
  exact congrArg _ (load_reg h (by decide) rfl)

theorem complete_vddBadgeLoss : ∀ (s u : State), u = State.readerStop { s with badge.vdd := false } →
    exec .vddBadgeLoss s = .next (if u.badge.field then u else u.sessionEnd.setTag 0) := by
  intro s u hu
  show Host.Outcome.next s.badgeSupplyLoss = _
  unfold State.badgeSupplyLoss
  subst hu
  rfl

theorem complete_tagPowerUp : ∀ (s a b : State) (supply : Bool), a = (if supply then { s with badge.vdd := true } else { s with badge.field := true }) →
    b = (if ((look noneAt a.badge.slots 1).map (·.seq)).getD 0 < ((look noneAt a.badge.slots 0).map (·.seq)).getD 0 then (a.slotRedo 1).slotRedo 0
      else (a.slotRedo 0).slotRedo 1) → exec (.tagPowerUp supply) s = .next (if b.badge.tag = 0 then b.setTag 1 else b) := by
  intro s a b supply ha hb
  show Host.Outcome.next (s.tagPowerUp supply) = _
  unfold State.tagPowerUp
  subst hb
  subst ha
  rfl

theorem complete_reqa : ∀ s : State, s.tagAnswers = true → s.badge.tag = 1 → exec .reqa s = .next (State.tagSend { s.setTag 2 with badge.level := 0 } [0x44#8, 0x00#8]) := by
  intro s h h1
  show Host.Outcome.next s.reqa = _
  unfold State.reqa
  rw [if_pos (by rw [h, h1]; decide)]

theorem complete_wupa : ∀ s : State, s.tagAnswers = true → s.badge.tag = 1 ∨ s.badge.tag = 5 →
    exec .wupa s = .next (State.tagSend { s.setTag 2 with badge.level := 0 } [0x44#8, 0x00#8]) := by
  intro s h h1
  show Host.Outcome.next s.wupa = _
  unfold State.wupa
  rw [if_pos (by rcases h1 with h1 | h1 <;> (rw [h, h1]; decide))]

theorem complete_anticollision : ∀ s : State, s.tagAnswers = true → s.badge.tag = 2 → exec .anticollision s = .next (s.tagSend (s.uidPart s.badge.level)) := by
  intro s h h1
  show Host.Outcome.next s.anticollision = _
  unfold State.anticollision
  rw [if_pos (by rw [h, h1]; decide)]

theorem complete_select : ∀ (s : State) (uid : List Byte), s.tagAnswers = true → s.badge.tag = 2 →
    (uid ≠ (s.uidPart s.badge.level).take 4 → exec (.select uid) s = .next (s.setTag 1)) ∧
    (uid = (s.uidPart s.badge.level).take 4 → s.badge.level = 0 → exec (.select uid) s = .next (State.tagSend { s with badge.level := 1 } [0x04#8])) ∧
    (uid = (s.uidPart s.badge.level).take 4 → s.badge.level ≠ 0 → exec (.select uid) s = .next ((s.setTag 3).tagSend [0x20#8])) := by
  intro s uid h h1
  show (_ → Host.Outcome.next (s.tagSelect uid) = _) ∧ (_ → _ → Host.Outcome.next (s.tagSelect uid) = _) ∧ (_ → _ → Host.Outcome.next (s.tagSelect uid) = _)
  unfold State.tagSelect
  rw [if_pos (by rw [h, h1]; decide)]
  refine ⟨fun a => ?_, fun a b => ?_, fun a b => ?_⟩
  · rw [if_pos a]
  · rw [if_neg (by simp [a]), if_pos b]
  · rw [if_neg (by simp [a]), if_neg b]

theorem complete_rats : ∀ (s u : State), s.tagAnswers = true → s.badge.tag = 3 → u = { (s.setTag 4).wr F.BADGE_STAT_SESSION 1 with badge.latched := some s.tagGen.copy } →
    exec .rats s = .next ((u.irq 177).tagSend [0x05#8, 0x78#8, 0x00#8, 0x30#8, 0x00#8]) := by
  intro s u h h1 hu
  show Host.Outcome.next s.rats = _
  unfold State.rats
  rw [if_pos (by rw [h, h1]; decide)]
  subst hu
  rfl

theorem complete_pps : ∀ s : State, s.tagAnswers = true → s.badge.tag = 4 → exec .pps s = .next (s.tagSend [0xD0#8]) := by
  intro s h h1
  show Host.Outcome.next s.tagPps = _
  unfold State.tagPps
  rw [if_pos (by rw [h, h1]; decide)]

theorem complete_hlta : ∀ (s u : State), s.tagAnswers = true → 2 ≤ s.badge.tag → u = { (s.sessionEnd.setTag 1).wr F.BADGE_STAT_HALTED 1 with badge.silent := true } →
    exec .hlta s = .next (u.next.arm .haltSilence (2 * ticksPerSecond + u.draw % 200000001)) := by
  intro s u h h1 hu
  show Host.Outcome.next s.hlta = _
  unfold State.hlta
  rw [if_pos (by rw [h]; simpa using h1)]
  subst hu
  rfl

theorem complete_tagDeselect : ∀ s : State, s.tagAnswers = true → s.badge.tag = 4 → exec .tagDeselect s = .next ((s.sessionEnd.setTag 5).tagSend [0xC2#8]) := by
  intro s h h1
  show Host.Outcome.next s.tagDeselect = _
  unfold State.tagDeselect
  rw [if_pos (by rw [h, h1]; decide)]

theorem complete_tagRead : ∀ (s : State) (p n : Nat), s.tagAnswers = true → s.badge.tag = 4 → ∀ (ps : List Nat) (idle : Nat), ps = (List.range n).map (p + ·) →
    idle = copyPage (1 - s.badge.latched.getD 0) → ∀ bad : Prop,
    bad = (n = 0 ∨ 15 < n ∨ (ps.any fun q => decide (1536 ≤ q) || (decide (8 ≤ q) && decide (q < 24)) || (decide (idle ≤ q) && decide (q < idle + 256))) = true) →
    (bad → exec (.tagRead p n) s = .next (s.tagSend [0x01#8])) ∧
    (¬bad → ps.any s.badge.badPages.contains = true → exec (.tagRead p n) s = .next ((s.irq 179).tagSend [0x05#8])) ∧
    (¬bad → ps.any s.badge.badPages.contains = false → exec (.tagRead p n) s = .next (s.tagSend (0x00#8 :: ps.flatMap s.tagPage))) := by
  intro s p n h h1 ps idle hp hi bad hb
  show (_ → Host.Outcome.next (s.tagRead p n) = _) ∧ (_ → _ → Host.Outcome.next (s.tagRead p n) = _) ∧ (_ → _ → Host.Outcome.next (s.tagRead p n) = _)
  unfold State.tagRead
  rw [if_pos (by rw [h, h1]; decide)]
  subst hp
  subst hi
  subst hb
  refine ⟨fun a => ?_, fun a b => ?_, fun a b => ?_⟩
  · dsimp only
    rw [if_pos a]
  · dsimp only
    rw [if_neg a, if_pos b]
  · dsimp only
    rw [if_neg a, if_neg (by rw [b]; decide)]

theorem writeMb_go {s : State} {p n lost k : Nat} {data : List Byte} {strong : Bool} (h : s.tagAnswers = true) (h1 : s.badge.tag = 4) (hl : lost ≠ 1) (h2 : strong = true)
    (h3 : ¬(n = 0 ∨ 4 < n ∨ p < 25 ∨ 88 < p + n ∨ data.length ≠ 16 * n)) (h4 : s.tagGen.mbWr = true) (h5 : s.badge.mbCount < s.tagGen.mbMax) (hk : k = s.freeSlot) :
    ∀ (t : TagSlot) (u : State), t = TagSlot.mk p data (s.badge.mbCount + 1) (s.badge.slotSeq + 1) →
    u = { s with badge.slots := put noneAt s.badge.slots k (some t), badge.slotSeq := t.seq, badge.nextSlot := 1 - k } → (lost = 0 ∨ (6 ≤ lost)) →
    s.writeMb p n data strong lost = if lost = 0 then ((u.tagSend [0x00#8]).slotHome k t).mailBooked else ((u.tagSend [0x00#8]).slotHome k t).mailBooked.fieldLoss := by
  intro t u ht hu h6
  unfold State.writeMb
  rw [if_pos (by rw [h, h1]; decide)]
  subst hu
  subst ht
  subst hk
  dsimp only
  rw [if_neg hl, if_neg (by rw [h2]; decide), if_neg h3, if_neg (by rw [h4]; decide), if_neg (Nat.not_le_of_lt h5)]
  have c0 : ¬(if s.badge.vdd then 0 else lost) = 3 := by
    cases s.badge.vdd <;> simp <;> omega
  have c : ¬((if s.badge.vdd then 0 else lost) = 2 ∨ (if s.badge.vdd then 0 else lost) = 3 ∧ s.draw % 2 = 0) := by
    cases s.badge.vdd <;> simp <;> omega
  have c2 : ¬((if s.badge.vdd then 0 else lost) = 3 ∨ (if s.badge.vdd then 0 else lost) = 4 ∨ (if s.badge.vdd then 0 else lost) = 5) := by
    cases s.badge.vdd <;> simp <;> omega
  rw [if_neg c, if_neg c0, if_neg c2, if_neg (by omega : ¬(lost = 2 ∨ lost = 3))]

theorem complete_writeMb : ∀ (s : State) (p n : Nat) (data : List Byte) (strong : Bool), s.tagAnswers = true → s.badge.tag = 4 →
    (strong = false → exec (.writeMb p n data strong 0) s = .next ((s.irq 179).tagSend [0x02#8])) ∧
    (strong = true → (n = 0 ∨ 4 < n ∨ p < 25 ∨ 88 < p + n ∨ data.length ≠ 16 * n) → exec (.writeMb p n data strong 0) s = .next (s.tagSend [0x01#8])) ∧
    (strong = true → ¬(n = 0 ∨ 4 < n ∨ p < 25 ∨ 88 < p + n ∨ data.length ≠ 16 * n) → s.tagGen.mbWr = true → s.badge.mbCount < s.tagGen.mbMax →
      ∀ (k : Nat) (t : TagSlot) (u : State), k = s.freeSlot → t = TagSlot.mk p data (s.badge.mbCount + 1) (s.badge.slotSeq + 1) →
      u = { s with badge.slots := put noneAt s.badge.slots k (some t), badge.slotSeq := t.seq, badge.nextSlot := 1 - k } →
      exec (.writeMb p n data strong 0) s = .next ((u.tagSend [0x00#8]).slotHome k t).mailBooked) := by
  intro s p n data strong h h1
  show (_ → Host.Outcome.next (s.writeMb p n data strong 0) = _) ∧ (_ → _ → Host.Outcome.next (s.writeMb p n data strong 0) = _) ∧ (_ → _ → _ → _ → _)
  refine ⟨fun a => ?_, fun a b => ?_, fun a b c d k t u hk ht hu => ?_⟩
  · unfold State.writeMb
    dsimp only
    rw [if_pos (by rw [h, h1]; decide), if_neg (by decide), if_pos (by rw [a]; decide)]
  · unfold State.writeMb
    dsimp only
    rw [if_pos (by rw [h, h1]; decide), if_neg (by decide), if_neg (by rw [a]; decide), if_pos b]
  · exact congrArg _ ((writeMb_go (lost := 0) h h1 (by decide) a b c d hk t u ht hu (Or.inl rfl)).trans (if_pos rfl))

theorem complete_fieldLoss : ∀ (s u : State), u = { s.sessionEnd.disarm .fieldIdle with badge.field := false } →
    exec .fieldLoss s = .next (u.setTag (if u.badge.vdd then 1 else 0)) := by
  intro s u hu
  show Host.Outcome.next s.fieldLoss = _
  unfold State.fieldLoss
  subst hu
  rfl

theorem complete_haltSilenceEnd : ∀ s : State, s.badge.silent = true → exec .haltSilenceEnd s =
    .next { (s.reachST (if s.armed .haltSilence then s.dueAt .haltSilence else 0)).wr F.BADGE_STAT_HALTED 0 with badge.silent := false } := by
  intro s h
  show Host.Outcome.next s.silenceEnd = _
  unfold State.silenceEnd
  rw [if_pos h]

theorem complete_badgeTsCommit : ∀ (s a b : State) (m max : Nat), max < 65536 → s.mayWrite m A.BADGE_TS_COMMIT = true → a = s.tagSync →
    (a.flag F.BADGE_TS_STAT_PENDING = true → exec (.badgeTsCommit m max) s = .next ((a.wr F.BADGE_TS_STAT_REFUSED 1).irq 178).settle) ∧
    (a.flag F.BADGE_TS_STAT_PENDING = false →
      b = ((a.wr F.BADGE_TS_STAT_PENDING 1).wr F.BADGE_TS_STAT_PROGRESS 0).wr F.BADGE_TS_STAT_PAUSED (b2n a.copyHeld) →
      exec (.badgeTsCommit m max) s = .next (State.settle { b with
        badge.newMax := max, badge.done := 0, badge.since := b.now })) := by
  intro s a b m max hm h ha
  have e : ∀ x, s.regWrite m A.BADGE_TS_COMMIT x = (none, s.tsCommit x) := by
    intro x
    rfl
  show (_ → Host.Outcome.next (s.store m A.BADGE_TS_COMMIT (BitVec.ofNat 32 (2 ^ 31 + max))) = _) ∧ (_ → _ → Host.Outcome.next (s.store m A.BADGE_TS_COMMIT (BitVec.ofNat 32 (2 ^ 31 + max))) = _)
  have b30 : (BitVec.ofNat 32 (2 ^ 31 + max)).getLsbD 30 = false := by rw [getLsbD_ofNat32 _ _ (by omega)]; simp; omega
  have b31 : (BitVec.ofNat 32 (2 ^ 31 + max)).getLsbD 31 = true := by rw [getLsbD_ofNat32 _ _ (by omega)]; simp; omega
  have bm : getBits (BitVec.ofNat 32 (2 ^ 31 + max)) 15 0 = max := by rw [getBits_ofNat32 _ _ _ (by omega)]; omega
  rw [store_reg h (by decide) (e _)]
  unfold State.tsCommit
  rw [b30, b31, bm, ← ha]
  constructor
  · intro q
    dsimp only
    rw [Bool.false_and, if_neg (show ¬((!true) = true) by decide), if_neg (show ¬(false = true) by decide), if_pos q]
  · intro q hb
    subst hb
    dsimp only
    rw [Bool.false_and, if_neg (show ¬((!true) = true) by decide), if_neg (show ¬(false = true) by decide), if_neg (show ¬(a.flag F.BADGE_TS_STAT_PENDING = true) by rw [q]; decide)]

theorem complete_badgeTsAbort : ∀ (s a : State) (m : Nat), s.mayWrite m A.BADGE_TS_COMMIT = true → a = s.tagSync →
    exec (.badgeTsAbort m) s = .next (State.settle (if a.flag F.BADGE_TS_STAT_PENDING then (a.wr F.BADGE_TS_STAT_PENDING 0).wr F.BADGE_TS_STAT_PAUSED 0 else a)) := by
  intro s a m h ha
  have e : ∀ x, s.regWrite m A.BADGE_TS_COMMIT x = (none, s.tsCommit x) := by
    intro x
    rfl
  show Host.Outcome.next (s.store m A.BADGE_TS_COMMIT (BitVec.twoPow 32 30)) = _
  rw [store_reg h (by decide) (e _)]
  unfold State.tsCommit
  rw [show (BitVec.twoPow 32 30).getLsbD 30 = true from by decide, show (BitVec.twoPow 32 30).getLsbD 31 = false from by decide, ← ha]
  dsimp only
  rw [Bool.true_and, Bool.not_false, if_pos rfl]

theorem complete_tsCommitResume : ∀ (s u : State), s.flag F.BADGE_TS_STAT_PENDING = true → s.flag F.BADGE_TS_STAT_PAUSED = true → s.copyHeld = false →
    u = s.fieldQuiet.wr F.BADGE_TS_STAT_PAUSED 0 → exec .tsCommitResume s = .next { u with badge.since := u.now } := by
  intro s u h h1 h2 hu
  show Host.Outcome.next s.tsResume = _
  unfold State.tsResume
  rw [if_pos (by rw [h, h1, h2]; decide)]
  subst hu
  rfl

theorem complete_tsFlip : ∀ (s u v : State) (n : TagGen), s.flag F.BADGE_TS_STAT_PENDING = true → s.flag F.BADGE_TS_STAT_PAUSED = false →
    u = (s.fieldQuiet.reachST (s.badge.since + (summaryPages - s.badge.done) * tagPageTicks)).tagSync → summaryPages ≤ u.tagProgress →
    n = TagGen.mk (u.tagGen.gen + 1) u.idleCopy u.badge.newMax (u.flag F.BADGE_CFG_MB_WR) →
    v = (if u.badge.g0.gen ≤ u.badge.g1.gen ∧ u.tagGen = u.badge.g1 ∧ u.badge.g0 ≠ u.badge.g1 then { u with badge.g0 := n }
      else if u.tagGen = u.badge.g0 then { u with badge.g1 := n } else { u with badge.g0 := n }) →
    exec .tsFlip s = .next (State.summaryTry ((v.wr F.BADGE_TS_STAT_PENDING 0).irq 178)) := by
  intro s u v n h h1 hu h2 hn hv
  show Host.Outcome.next s.tsFlip = _
  unfold State.tsFlip
  dsimp only at hv ⊢
  rw [if_pos (by rw [h, h1]; decide)]
  rw [← hu, if_neg (by omega), ← hn, ← hv]

end Sys2Proof.Machine
end

