-- ==== Sys2Proof/Laws/CompleteBedrock.lean ====
section
/-! SUPPORT. Completion lemmas: for each command of the Bedrock rows, the next state that `exec` answers, under
hypotheses on the state and the operands alone. One lemma per clause of the completion statements. -/

set_option maxRecDepth 8000

namespace Sys2Proof.Machine

theorem brkCmd_accept {s : State} {m n op : Nat} {w : Word} (h : w.getLsbD 31 = true) (ho : getBits w 3 0 = op) (h1 : s.brkArmed n = 2) :
    ∀ u : State, u = { s.brkDisarm n with brk.cmds := (s.brkDisarm n).brk.cmds.map fun (c : BrkCmd) => if c.page = some n then { c with page := none } else c } → u.brkCheck m op (u.reg (A.BRK_ADDR n)).toNat = scACCEPTED →
    s.brkCmd m n w = u.brkAccept (BrkCmd.mk m (some n) op (bedBank (u.reg (A.BRK_ADDR n)).toNat) (u.reg (A.BRK_ADDR n)).toNat ((u.reg (A.BRK_SRC n)).toNat / 8 * 8) none false) := by
  intro u hu h2
  unfold State.brkCmd
  dsimp only at hu ⊢
  have r : ∀ a, (s.brkDisarm n).reg a = u.reg a := by
    intro a
    rw [hu]
    rfl
  rw [if_neg (by simp [h]), if_pos h1, ho, ← hu, r]
  exact if_pos h2

theorem writeKeepers_brkCmd {v : State} {m n : Nat} {x : Word} (hn : n < 9) : v.writeKeepers m (A.BRK_CMD n) x = some (v.brkCmd m n x) := by
  have e : (A.BRK_CMD n - 0x40131000) / 0x1000 = n := by unfold A.BRK_CMD; omega
  have e2 : A.BRK_CMD n % 0x1000 = 0xC := by unfold A.BRK_CMD; omega
  have e3 : 0x40131000 ≤ A.BRK_CMD n := by unfold A.BRK_CMD; omega
  unfold State.writeKeepers
  dsimp only
  rw [e, e2, if_pos ⟨e3, hn, by omega⟩, if_neg (by omega), if_pos rfl]

theorem regWrite_brkCmd {v : State} {m n : Nat} {x : Word} (hn : n < 9) : v.regWrite m (A.BRK_CMD n) x = (none, v.brkCmd m n x) := by
  have h1 : v.writeStation m (A.BRK_CMD n) x = none := by interval_cases n <;> rfl
  have h2 : v.writeFrame (A.BRK_CMD n) x = none := by interval_cases n <;> rfl
  have h3 : v.writeTrust (A.BRK_CMD n) x = none := by interval_cases n <;> rfl
  unfold State.regWrite
  dsimp only
  rw [if_neg (by interval_cases n <;> decide), if_neg (by interval_cases n <;> decide), if_neg (by interval_cases n <;> decide), if_neg (by interval_cases n <;> decide)]
  rw [h1, h2, h3, writeKeepers_brkCmd hn]

theorem store_brkCmd {v : State} {m n op : Nat} {x : Word} (hn : n < 9) (h2 : v.mayWrite m (A.BRK_CMD n) = true) (h3 : v.brkArmed n = 2)
    (hx : x.getLsbD 31 = true) (ho : getBits x 3 0 = op) : ∀ w : State, w = { v.brkDisarm n with brk.cmds := (v.brkDisarm n).brk.cmds.map fun (c : BrkCmd) => if c.page = some n then { c with page := none } else c } → w.brkCheck m op (w.reg (A.BRK_ADDR n)).toNat = scACCEPTED →
    v.store m (A.BRK_CMD n) x = (w.brkAccept (BrkCmd.mk m (some n) op (bedBank (w.reg (A.BRK_ADDR n)).toNat) (w.reg (A.BRK_ADDR n)).toNat
      ((w.reg (A.BRK_SRC n)).toNat / 8 * 8) none false)).settle := by
  intro w hw h4
  have e3 : v.regWrite m (A.BRK_CMD n) x = (none, v.brkCmd m n x) := regWrite_brkCmd hn
  have r3 : isReg (A.BRK_CMD n) = true := by interval_cases n <;> decide
  rw [store_reg h2 r3 e3, brkCmd_accept hx ho h3 w hw h4]

theorem store_brkAddr {s : State} {m n : Nat} {a : Word} (hn : n < 9) (h : s.mayWrite m (A.BRK_ADDR n) = true) :
    s.store m (A.BRK_ADDR n) a = ((s.brkTouch n).setReg (A.BRK_ADDR n) a).settle := by
  have e : s.regWrite m (A.BRK_ADDR n) a = (none, (s.brkTouch n).setReg (A.BRK_ADDR n) a) := by interval_cases n <;> rfl
  exact store_reg h (by interval_cases n <;> decide) e

theorem store_brkSrc {s : State} {m n : Nat} {a : Word} (hn : n < 9) (h : s.mayWrite m (A.BRK_SRC n) = true) :
    s.store m (A.BRK_SRC n) a = ((s.brkTouch n).setReg (A.BRK_SRC n) a).settle := by
  have e : s.regWrite m (A.BRK_SRC n) a = (none, (s.brkTouch n).setReg (A.BRK_SRC n) a) := by interval_cases n <;> rfl
  exact store_reg h (by interval_cases n <;> decide) e

theorem complete_brkUnlock : ∀ (s : State) (m n : Nat) (w : Word), n < 9 → s.mayWrite m (A.BRK_UNLOCK n) = true →
    (w = 0xA5F0#32 → exec (.brkUnlock m n w) s = .next ((s.setArmed n 1).disarm (.brkArm n)).settle) ∧
    (w = 0xF5A#32 → s.brkArmed n = 1 → exec (.brkUnlock m n w) s = .next ((s.setArmed n 2).arm (.brkArm n) ticksPerMs).settle) ∧
    (w ≠ 0xA5F0#32 → ¬(w = 0xF5A#32 ∧ s.brkArmed n = 1) → exec (.brkUnlock m n w) s = .next ((s.setArmed n 0).disarm (.brkArm n)).settle) := by
  intro s m n w hn h
  have e : s.regWrite m (A.BRK_UNLOCK n) w = (none, s.brkUnlock n w) := by interval_cases n <;> rfl
  have r : isReg (A.BRK_UNLOCK n) = true := by interval_cases n <;> decide
  have g : exec (.brkUnlock m n w) s = .next (s.brkUnlock n w).settle := congrArg _ (store_reg h r e)
  rw [g]
  unfold State.brkUnlock
  refine ⟨fun a => ?_, fun a b => ?_, fun a b => ?_⟩
  · rw [if_pos a]
  · rw [if_neg (by rw [a]; decide), if_pos ⟨a, b⟩]
  · rw [if_neg a, if_neg b]

theorem complete_unlockArmExpiry : ∀ (s : State) (n : Nat), s.armed (.brkArm n) = true →
    exec (.unlockArmExpiry n) s = .next (((s.elapsed (.brkArm n)).setArmed n 0).disarm (.brkArm n)) := by
  intro s n h
  exact fire_next (k := fun s => s.brkDisarm n) h rfl

theorem complete_program : ∀ (s u v w : State) (m n : Nat) (a src : Word), n < 9 → s.mayWrite m (A.BRK_ADDR n) = true → u = ((s.brkTouch n).setReg (A.BRK_ADDR n) a).settle →
    u.mayWrite m (A.BRK_SRC n) = true → v = ((u.brkTouch n).setReg (A.BRK_SRC n) src).settle →
    v.mayWrite m (A.BRK_CMD n) = true → v.brkArmed n = 2 → w = { v.brkDisarm n with brk.cmds := (v.brkDisarm n).brk.cmds.map fun (c : BrkCmd) => if c.page = some n then { c with page := none } else c } →
    w.brkCheck m 1 (w.reg (A.BRK_ADDR n)).toNat = scACCEPTED → exec (.program m n a src) s = .next (w.brkAccept (BrkCmd.mk m (some n) 1
      (bedBank (w.reg (A.BRK_ADDR n)).toNat) (w.reg (A.BRK_ADDR n)).toNat ((w.reg (A.BRK_SRC n)).toNat / 8 * 8) none false)).settle := by
  intro s u v w m n a src hn h hu h1 hv h2 h3 hw h4
  show Host.Outcome.next (((s.store m (A.BRK_ADDR n) a).store m (A.BRK_SRC n) src).store m (A.BRK_CMD n) 0x80000001#32) = _
  rw [store_brkAddr hn h, ← hu, store_brkSrc hn h1, ← hv, store_brkCmd hn h2 h3 (by decide) (by decide) w hw h4]

theorem complete_programSafe : ∀ (s u v w : State) (m n : Nat) (a src : Word), n < 9 → s.mayWrite m (A.BRK_ADDR n) = true → u = ((s.brkTouch n).setReg (A.BRK_ADDR n) a).settle →
    u.mayWrite m (A.BRK_SRC n) = true → v = ((u.brkTouch n).setReg (A.BRK_SRC n) src).settle →
    v.mayWrite m (A.BRK_CMD n) = true → v.brkArmed n = 2 → w = { v.brkDisarm n with brk.cmds := (v.brkDisarm n).brk.cmds.map fun (c : BrkCmd) => if c.page = some n then { c with page := none } else c } →
    w.brkCheck m 2 (w.reg (A.BRK_ADDR n)).toNat = scACCEPTED → exec (.programSafe m n a src) s = .next (w.brkAccept (BrkCmd.mk m (some n) 2
      (bedBank (w.reg (A.BRK_ADDR n)).toNat) (w.reg (A.BRK_ADDR n)).toNat ((w.reg (A.BRK_SRC n)).toNat / 8 * 8) none false)).settle := by
  intro s u v w m n a src hn h hu h1 hv h2 h3 hw h4
  show Host.Outcome.next (((s.store m (A.BRK_ADDR n) a).store m (A.BRK_SRC n) src).store m (A.BRK_CMD n) 0x80000002#32) = _
  rw [store_brkAddr hn h, ← hu, store_brkSrc hn h1, ← hv, store_brkCmd hn h2 h3 (by decide) (by decide) w hw h4]

theorem complete_erase : ∀ (s u v w : State) (m n : Nat) (a : Word), n < 9 → s.mayWrite m (A.BRK_ADDR n) = true → u = ((s.brkTouch n).setReg (A.BRK_ADDR n) a).settle →
    v = u →
    v.mayWrite m (A.BRK_CMD n) = true → v.brkArmed n = 2 → w = { v.brkDisarm n with brk.cmds := (v.brkDisarm n).brk.cmds.map fun (c : BrkCmd) => if c.page = some n then { c with page := none } else c } →
    w.brkCheck m 3 (w.reg (A.BRK_ADDR n)).toNat = scACCEPTED → exec (.erase m n a) s = .next (w.brkAccept (BrkCmd.mk m (some n) 3
      (bedBank (w.reg (A.BRK_ADDR n)).toNat) (w.reg (A.BRK_ADDR n)).toNat ((w.reg (A.BRK_SRC n)).toNat / 8 * 8) none false)).settle := by
  intro s u v w m n a hn h hu hv h2 h3 hw h4
  show Host.Outcome.next ((s.store m (A.BRK_ADDR n) a).store m (A.BRK_CMD n) 0x80000003#32) = _
  rw [store_brkAddr hn h, ← hu, ← hv, store_brkCmd hn h2 h3 (by decide) (by decide) w hw h4]

theorem complete_inspect : ∀ (s u v w : State) (m n : Nat) (a : Word), n < 9 → s.mayWrite m (A.BRK_ADDR n) = true → u = ((s.brkTouch n).setReg (A.BRK_ADDR n) a).settle →
    v = u →
    v.mayWrite m (A.BRK_CMD n) = true → v.brkArmed n = 2 → w = { v.brkDisarm n with brk.cmds := (v.brkDisarm n).brk.cmds.map fun (c : BrkCmd) => if c.page = some n then { c with page := none } else c } →
    w.brkCheck m 4 (w.reg (A.BRK_ADDR n)).toNat = scACCEPTED → exec (.inspect m n a) s = .next (w.brkAccept (BrkCmd.mk m (some n) 4
      (bedBank (w.reg (A.BRK_ADDR n)).toNat) (w.reg (A.BRK_ADDR n)).toNat ((w.reg (A.BRK_SRC n)).toNat / 8 * 8) none false)).settle := by
  intro s u v w m n a hn h hu hv h2 h3 hw h4
  show Host.Outcome.next ((s.store m (A.BRK_ADDR n) a).store m (A.BRK_CMD n) 0x80000004#32) = _
  rw [store_brkAddr hn h, ← hu, ← hv, store_brkCmd hn h2 h3 (by decide) (by decide) w hw h4]

theorem complete_refresh : ∀ (s u v w : State) (m n : Nat) (a : Word), n < 9 → s.mayWrite m (A.BRK_ADDR n) = true → u = ((s.brkTouch n).setReg (A.BRK_ADDR n) a).settle →
    v = u →
    v.mayWrite m (A.BRK_CMD n) = true → v.brkArmed n = 2 → w = { v.brkDisarm n with brk.cmds := (v.brkDisarm n).brk.cmds.map fun (c : BrkCmd) => if c.page = some n then { c with page := none } else c } →
    w.brkCheck m 5 (w.reg (A.BRK_ADDR n)).toNat = scACCEPTED → exec (.refresh m n a) s = .next (w.brkAccept (BrkCmd.mk m (some n) 5
      (bedBank (w.reg (A.BRK_ADDR n)).toNat) (w.reg (A.BRK_ADDR n)).toNat ((w.reg (A.BRK_SRC n)).toNat / 8 * 8) none false)).settle := by
  intro s u v w m n a hn h hu hv h2 h3 hw h4
  show Host.Outcome.next ((s.store m (A.BRK_ADDR n) a).store m (A.BRK_CMD n) 0x80000005#32) = _
  rw [store_brkAddr hn h, ← hu, ← hv, store_brkCmd hn h2 h3 (by decide) (by decide) w hw h4]

theorem complete_bedrockCmdStart : ∀ (s : State) (c : BrkCmd), (s.brk.cmds.find? fun c => !c.started) = some c → s.brkBusy < 2 →
    exec .bedrockCmdStart s = .next (s.brkBegin c) := by
  intro s c h h1
  show Host.Outcome.next s.brkStart = _
  unfold State.brkStart
  rw [h]
  exact congrArg _ (if_pos h1)

theorem complete_bedrockCmdDone : ∀ (s r u v : State) (b st : Nat) (ok : Bool) (c : BrkCmd), s.brkRunning b = some c →
    r = (if s.armed (.brkResume b) then (s.elapsed (.brkResume b)).brkResume b else s) → r.brkEffect c ok = (st, u) →
    v = (if c.op = opINSPECT ∨ !codeBank (bedBank c.addr) then u else u.icacheDrop c.addr (brkSpan c.op (bedBank c.addr))).brkEnd c st →
    exec (.bedrockCmdDone b ok) s = .next (if c.master = 18 then v.archDone (v.rd (F.BRK_STATUS_RESULT b)) else v) := by
  intro s r u v b st ok c h hr h1 hv
  show Host.Outcome.next (s.bedrockDone b ok) = _
  have e : s.brkDone b ok = v := by
    unfold State.brkDone
    rw [h]
    dsimp only
    rw [show s.fire (.brkResume b) (·.brkResume b) = r by
      rw [hr]
      cases q : s.armed (.brkResume b) with
      | true => exact fire_armed q
      | false => exact if_neg (by rw [q]; decide), h1, hv]
    rfl
  unfold State.bedrockDone
  dsimp only
  rw [e, h]
  by_cases q : c.master = 18
  · rw [if_pos q, if_pos (by simp [q])]
  · rw [if_neg q, if_neg (by simp [q])]

theorem complete_eraseResume : ∀ (s : State) (b : Nat), s.armed (.brkResume b) = true →
    exec (.eraseResume b) s = .next ((s.elapsed (.brkResume b)).wr (F.BRK_STATUS_SUSPENDED b) 0) := by
  intro s b h
  exact fire_next (k := fun s => s.brkResume b) h rfl

theorem complete_patrolRead : ∀ (s x u v w : State) (b blk bits k n : Nat) (pass : Bool), s.flag F.BRK_CFG_PATROL_EN = true → s.mode ≠ .curtain → s.brkRunning b = none →
    k = s.knownBits (bedBase b + blk * blockLen b) → n = max k bits → x = (if k < bits then s.spotLine (bedBase b + blk * blockLen b) bits else s) →
    u = (if n = 15 then ((x.sat F.BRK_ECC_UE).irq 147).post 0xC001 6 23 [bedBase b + blk * blockLen b] else if n = 0 then x else x.sat F.BRK_ECC_CE) →
    v = (if max 1 (u.rd (if codeBank b then F.BRK_CFG_REFRESH_CODE else F.BRK_CFG_REFRESH_DATA)) ≤ n then
      State.irq (if u.brk.patrol.length < 16 then { u with brk.patrol := u.brk.patrol ++ [(b, blk, n)] } else { u with brk.patrolOvf := true }) 148 else u) →
    w = v.reachST (look (fun _ => 0) v.brk.passAt b + v.passTicks b) →
    exec (.patrolRead b blk bits pass) s = .next (if pass then State.irq { w with brk.passAt := put (fun _ => 0) w.brk.passAt b w.now } 149 else v) := by
  intro s x u v w b blk bits k n pass h h1 h2 hk hn hx hu hv hw
  show Host.Outcome.next (s.patrolRead b blk bits pass) = _
  unfold State.patrolRead
  rw [if_neg (by simp [h, h1, h2])]
  unfold State.passEnd
  dsimp only at hv hw ⊢
  rw [← hk, ← hn, ← hx, ← hu, ← hv, ← hw]

theorem complete_patrolPop : ∀ (s : State) (m : Nat), s.mayRead m A.BRK_PATROL_POP = true →
    (s.brk.patrol = [] → exec (.patrolPop m) s = .next (State.settle { s with rdata := 0 })) ∧
    (∀ (b blk bits : Nat) (rest : List (Nat × Nat × Nat)), s.brk.patrol = (b, blk, bits) :: rest → exec (.patrolPop m) s = .next (State.settle { s with
      brk.patrol := rest, brk.patrolOvf := false,
      rdata := BitVec.ofNat 64 (BitVec.ofNat 32 (2 ^ 31 + b2n s.brk.patrolOvf * 2 ^ 30 + b * 2 ^ 24 + blk * 2 ^ 16 + bits)).toNat })) := by
  intro s m h
  have e : s.regRead m A.BRK_PATROL_POP = (.ok s.patrolPop.1, s.patrolPop.2) := rfl
  constructor
  · intro h1
    refine congrArg _ ((load_reg h (by decide) e).trans ?_)
    have q : s.patrolPop = (0, s) := by
      unfold State.patrolPop
      rw [h1]
    rw [q]
    rfl
  · intro b blk bits rest h1
    refine congrArg _ ((load_reg h (by decide) e).trans ?_)
    unfold State.patrolPop
    rw [h1]

theorem complete_brkEccClear : ∀ (s : State) (m : Nat) (w : Word), s.mayWrite m A.BRK_ECC = true →
    exec (.brkEccClear m w) s = .next (s.setReg A.BRK_ECC 0).settle := by
  intro s m w h
  exact congrArg _ (store_reg h (by decide) rfl)

end Sys2Proof.Machine
end

