-- ==== Sys2Proof/Laws/CompleteBook.lean ====
section
/-! SUPPORT. Completion lemmas: for each command of the PromptBook, Observe, Cartridge rows, the next state that `exec` answers, under
hypotheses on the state and the operands alone. One lemma per clause of the completion statements. -/

set_option maxRecDepth 8000

namespace Sys2Proof.Machine

theorem complete_recordEnterRing : ∀ (s : State) (r : Rec) (t : List Rec), s.book.inFifo = r :: t →
    exec .recordEnterRing s = .next (State.limPass { s with book.inFifo := t } r) := by
  intro s r t h
  show Host.Outcome.next s.recordEnter = _
  unfold State.recordEnter
  rw [h]

theorem complete_limitWindowEnd : ∀ (s : State) (code src : Nat) (k : LimKey), s.limKey code src = some k →
    exec (.limitWindowEnd code src) s = .next ((s.reachST k.stop).limEnd k) := by
  intro s code src k h
  show Host.Outcome.next (s.windowEnd code src) = _
  unfold State.windowEnd
  rw [h]

theorem complete_archivePair : ∀ s : State, s.book.archJob = 0 → (s.brk.cmds.any fun c => c.bank == 4) = false →
    (∀ (b : Nat) (rest : List Nat), s.book.toClear = b :: rest → exec .archivePair s = .next (s.archIssue 3 opERASE (pairAddr (16 * b)) [] [b])) ∧
    (s.book.toClear = [] → s.flag F.PBOOK_CFG_ARCH_EN = true → s.pairDue = true → s.rd F.PBOOK_ARCH_PAIR = 0 → s.book.nextErased = false →
      exec .archivePair s = .next (s.archIssue 1 opERASE (pairAddr (16 * s.nextBlock)) [] [s.nextBlock])) ∧
    (s.book.toClear = [] → s.flag F.PBOOK_CFG_ARCH_EN = true → s.pairDue = true → ¬(s.rd F.PBOOK_ARCH_PAIR = 0 ∧ s.book.nextErased = false) → ∀ rs : List Rec,
      rs = ((s.book.ring.filter fun x => !x.2).map (·.1)).take 128 → exec .archivePair s =
        .next (s.archIssue 2 opSAFE (pairAddr s.archAt) ((rs ++ List.replicate (128 - rs.length) fillerRec).flatMap Rec.bytes) (rs.map (·.seq.toNat)))) := by
  intro s h h1
  show (∀ b rest, _ → Host.Outcome.next s.archivePair = _) ∧ (_ → _ → _ → _ → _ → Host.Outcome.next s.archivePair = _) ∧
    (_ → _ → _ → _ → ∀ rs, _ → Host.Outcome.next s.archivePair = _)
  unfold State.archivePair
  rw [if_neg (by rw [h, h1]; decide)]
  refine ⟨fun b rest a => ?_, fun a b c d e => ?_, fun a b c d rs e => ?_⟩
  · rw [a]
  · rw [a]
    dsimp only
    rw [if_neg (by simp [b, c]), if_pos (by simp [d, e])]
  · rw [a]
    dsimp only
    rw [if_neg (by simp [b, c]), if_neg (by simpa using d), ← e]

theorem recRead_isReg {r k : Nat} (hr : r < 4) (hk : k < 8) : isReg (A.PBOOK_REC r k) = true := by
  interval_cases r <;> interval_cases k <;> decide

theorem complete_recLatchRead : ∀ (s : State) (m r : Nat), r < 4 → s.mayRead m (A.PBOOK_REC r 0) = true →
    exec (.recLatchRead m r) s = .next (State.settle { s.recLatch r with rdata := BitVec.ofNat 64 ((s.recLatch r).recWord r 0).toNat }) := by
  intro s m r hr h
  have e : s.regRead m (A.PBOOK_REC r 0) = (.ok ((s.recLatch r).recWord r 0), s.recLatch r) := by interval_cases r <;> rfl
  exact congrArg _ (load_reg h (recRead_isReg hr (by decide)) e)

theorem complete_recFinalRead : ∀ (s : State) (m r : Nat), r < 4 → s.mayRead m (A.PBOOK_REC r 7) = true →
    exec (.recFinalRead m r) s = .next (State.settle { s.recNext r with rdata := BitVec.ofNat 64 (s.recWord r 7).toNat }) := by
  intro s m r hr h
  have e : s.regRead m (A.PBOOK_REC r 7) = (.ok (s.recWord r 7), s.recNext r) := by interval_cases r <;> rfl
  exact congrArg _ (load_reg h (recRead_isReg hr (by decide)) e)

theorem regWrite_clearUpto (s : State) (m : Nat) (w : Word) : s.regWrite m A.PBOOK_CLEAR_UPTO w = (none, s.setReg A.PBOOK_CLEAR_UPTO w) := by
  exact (show _ = (none, s.plainWrite ⟨"PBOOK_CLEAR_UPTO", 0x40170024, [], 0#32, [⟨31, 0, .rw, false, false, []⟩]⟩ A.PBOOK_CLEAR_UPTO w) from rfl).trans
    (congrArg _ (plainWrite_full _ _ _ _ _ _ _))

theorem bookClear_go {s : State} {w : Word} (h : w.getLsbD 31 = true) : ∀ (upto : Nat) (keep : List (Rec × Bool)) (u : State), upto = (s.reg A.PBOOK_CLEAR_UPTO).toNat →
    keep = (s.book.ring.filter fun x => decide (upto < x.1.seq.toNat) || (!x.2 && decide (6 ≤ x.1.sev))) →
    u = { s with book.ring := keep, book.toClear := if w.getLsbD 30 then s.book.toClear ++ ((List.range 64).filter fun b => b != s.rd F.PBOOK_ARCH_BLOCK &&
      (!((List.range 16).flatMap fun p => s.pairSeqs (b * 16 + p)).isEmpty && ((List.range 16).flatMap fun p => s.pairSeqs (b * 16 + p)).all fun q => decide (q ≤ upto))).filter (!s.book.toClear.contains ·)
      else s.book.toClear } →
    s.bookClear w = u.bookShow.post 0x0002 3 18 [upto, s.book.ring.length - keep.length] := by
  intro upto keep u h1 h2 h3
  unfold State.bookClear
  rw [if_neg (by simp [h])]
  subst h3
  subst h2
  subst h1
  rfl

theorem regWrite_clear (s : State) (w : Word) : s.regWrite 8 A.PBOOK_CLEAR w = (none, s.bookClear w) := by
  exact (show _ = (none, if 8 = 8 then s.bookClear w else s) from rfl).trans (congrArg _ (if_pos rfl))

theorem complete_pbookClear : ∀ (s v u : State) (upto : Word) (archive : Bool) (keep : List (Rec × Bool)), s.mayWrite 8 A.PBOOK_CLEAR_UPTO = true →
    v = (s.setReg A.PBOOK_CLEAR_UPTO upto).settle → v.mayWrite 8 A.PBOOK_CLEAR = true → v.reg A.PBOOK_CLEAR_UPTO = upto →
    keep = (v.book.ring.filter fun x => decide (upto.toNat < x.1.seq.toNat) || (!x.2 && decide (6 ≤ x.1.sev))) →
    u = { v with book.ring := keep, book.toClear := if archive then v.book.toClear ++ ((List.range 64).filter fun b => b != v.rd F.PBOOK_ARCH_BLOCK &&
      (!((List.range 16).flatMap fun p => v.pairSeqs (b * 16 + p)).isEmpty && ((List.range 16).flatMap fun p => v.pairSeqs (b * 16 + p)).all fun q => decide (q ≤ upto.toNat))).filter (!v.book.toClear.contains ·)
      else v.book.toClear } →
    exec (.pbookClear 8 upto archive) s = .next (u.bookShow.post 0x0002 3 18 [upto.toNat, v.book.ring.length - keep.length]).settle := by
  intro s v u upto archive keep h hv h1 h2 h3 h4
  show Host.Outcome.next ((s.store 8 A.PBOOK_CLEAR_UPTO upto).store 8 A.PBOOK_CLEAR (BitVec.ofNat 32 (2 ^ 31 + b2n archive * 2 ^ 30))) = _
  rw [store_reg h (by decide) (regWrite_clearUpto s 8 upto), ← hv]
  have b : (BitVec.ofNat 32 (2 ^ 31 + b2n archive * 2 ^ 30)).getLsbD 30 = archive := by cases archive <;> decide
  rw [store_reg h1 (by decide) (regWrite_clear v _), bookClear_go (by cases archive <;> decide) upto.toNat keep u (by rw [h2]) h3 (by rw [b]; exact h4)]

theorem complete_pbookDropClear : ∀ (s : State) (m k : Nat) (w : Word), k < 2 → s.mayWrite m (A.PBOOK_DROP_A + 4 * k) = true →
    exec (.pbookDropClear m k w) s = .next (s.setReg (A.PBOOK_DROP_A + 4 * k) 0).settle := by
  intro s m k w hk h
  have e : s.regWrite m (A.PBOOK_DROP_A + 4 * k) w = (none, s.setReg (A.PBOOK_DROP_A + 4 * k) 0) := by interval_cases k <;> rfl
  exact congrArg _ (store_reg h (by interval_cases k <;> decide) e)

theorem complete_traceCfgWrite : ∀ (s : State) (w new : Word), s.mayWrite 8 A.OBSERVE_TRACE_CFG = true →
    new = (if 8 < getBits w 11 8 then setBits (w &&& 0x80000F0F#32) 11 8 (s.rd F.OBSERVE_TRACE_CFG_CORE) else w &&& 0x80000F0F#32) →
    (s.reg A.OBSERVE_TRACE_CFG = new → exec (.traceCfgWrite 8 w) s = .next s.settle) ∧
    (s.reg A.OBSERVE_TRACE_CFG ≠ new → exec (.traceCfgWrite 8 w) s = .next (((s.setReg A.OBSERVE_TRACE_CFG new).post 0x0004 4 18 [new.toNat]).irq 210).settle) := by
  intro s w new h hn
  have e : exec (.traceCfgWrite 8 w) s = .next (s.traceCfg w).settle := congrArg _ (store_reg h (by decide) rfl)
  rw [e]
  unfold State.traceCfg
  dsimp only
  rw [← hn]
  exact ⟨fun a => by rw [if_pos a], fun a => by rw [if_neg a]⟩

theorem complete_tracePacketSend : ∀ (s u : State) (ty : Nat) (b : List Byte) (t : List (Nat × List Byte)), s.boot.auxLost = false → s.trace.items = (ty, b) :: t → s.mode ≠ .curtain →
    s.flag F.OBSERVE_TRACE_CFG_EN = true → u = { s.send chanTrace ty b with trace.items := t, trace.fill := s.trace.fill - (b.length + 1) } →
    (u.trace.overflow = 0 → exec .tracePacketSend s = .next u) ∧
    (u.trace.overflow ≠ 0 → exec .tracePacketSend s = .next { u with trace.items := u.trace.items ++ [(0xF, leBytes 8 (u.trace.overflow % 2 ^ 32))], trace.fill := u.trace.fill + 9, trace.overflow := 0 }) := by
  intro s u ty b t h h1 h2 h3 hu
  have e : exec .tracePacketSend s = .next (if u.trace.overflow = 0 then u else { u with trace.items := u.trace.items ++ [(0xF, leBytes 8 (u.trace.overflow % 2 ^ 32))], trace.fill := u.trace.fill + 9, trace.overflow := 0 }) := by
    show Host.Outcome.next (s.aux State.traceSend) = _
    unfold State.aux
    rw [if_neg (by rw [h]; decide)]
    unfold State.traceSend
    rw [h1]
    dsimp -zeta only
    rw [if_neg (by simp [h2, h3])]
    subst hu
    rfl
  rw [e]
  exact ⟨fun a => congrArg _ (if_pos a), fun a => congrArg _ (if_neg a)⟩

theorem complete_observeCntSnap : ∀ (s : State) (m : Nat), s.mayWrite m A.OBSERVE_CNT_CTRL = true →
    exec (.observeCntSnap m) s = .next ((List.range 8).foldl (fun s k => s.setReg (A.OBSERVE_CNT k) (s.cntReg (A.OBSERVE_CNT k))) s).settle := by
  intro s m h
  refine congrArg _ (store_reg h (by decide) (show _ = (none, _) from congrArg (Prod.mk none) (show s.observeCtrl _ = _ from ?_)))
  unfold State.observeCtrl
  rw [if_neg (by decide), if_pos (by decide)]

theorem complete_observeCntClr : ∀ (s : State) (m : Nat), s.mayWrite m A.OBSERVE_CNT_CTRL = true →
    exec (.observeCntClr m) s = .next ((List.range 8).foldl (fun s k => s.setCnt (A.OBSERVE_CNT k) 0) s).settle := by
  intro s m h
  refine congrArg _ (store_reg h (by decide) (show _ = (none, _) from congrArg (Prod.mk none) (show s.observeCtrl _ = _ from ?_)))
  unfold State.observeCtrl
  rw [if_pos (by decide), if_neg (by decide)]

theorem complete_traceStatClear : ∀ (s : State) (m : Nat) (w : Word), s.mayWrite m A.OBSERVE_TRACE_STAT = true →
    exec (.traceStatClear m w) s = .next (s.wr F.OBSERVE_TRACE_STAT_LOST 0).settle := by
  intro s m w h
  exact congrArg _ (store_reg h (by decide) rfl)

theorem complete_cardInsert : ∀ s : State, s.boot.auxLost = false → s.flag F.CART_CFG_EN = true →
    exec .cardInsert s = .next ((s.wr F.CART_STAT_PRESENT 1).cartClock.arm .cartIns (100 * ticksPerMs)) := by
  intro s h h1
  show Host.Outcome.next (s.aux State.cardInsert) = _
  unfold State.aux
  rw [if_neg (by rw [h]; decide)]
  unfold State.cardInsert
  rw [if_pos h1]

theorem complete_cardRemoval : ∀ (s a b : State) (phase done : Nat), s.boot.auxLost = false → s.flag F.CART_CFG_EN = true →
    ((s.cart.op = none ∧ s.writingAt = none ∧ a = s) ∨ (s.cart.op = none ∧ ∃ lba, s.writingAt = some lba ∧
      a = if 2 ≤ phase then s.cartEnd 0 lba (if phase = 2 then ctNOT_DONE else if 3 ≤ phase then ctINDET else ctREMOVED) done else s) ∨ ∃ op card blocks lba buf, s.cart.op = some (op, card, blocks, lba, buf) ∧
      a = s.cartEnd card lba (if op = 2 ∧ phase = 2 then ctNOT_DONE else if op = 2 ∧ 3 ≤ phase then ctINDET else ctREMOVED) (min done blocks)) →
    b = (List.range 4).foldl (fun s c => s.setReg (A.CART_CARD c) 0) a → ∀ c : State,
    c = { (b.wr F.CART_STAT_PRESENT 0).wr F.CART_STAT_CLK_RUN 0 with cart := Cart.off } →
    exec (.cardRemoval phase done) s = .next ((if c.armed .cartIns then c.arm .cartIns (100 * ticksPerMs) else c).irq 181) := by
  intro s a b phase done h h1 ha hb c hc
  show Host.Outcome.next (s.aux (·.cardRemoval phase done)) = _
  unfold State.aux
  rw [if_neg (by rw [h]; decide)]
  show Host.Outcome.next (s.cardRemoval phase done) = _
  unfold State.cardRemoval
  rw [if_neg (by rw [h1]; decide)]
  rcases ha with ⟨q, r, rfl⟩ | ⟨q, lba, r, rfl⟩ | ⟨op, card, blocks, lba, buf, q, rfl⟩
  · rw [q]
    dsimp only at hc ⊢
    rw [r]
    dsimp only
    rw [← hb, ← hc]
  · rw [q]
    dsimp only at hc ⊢
    rw [r]
    dsimp only
    simp only [true_and] at hb ⊢
    rw [← hb, ← hc]
  · rw [q]
    dsimp only at hc ⊢
    rw [← hb, ← hc]

theorem complete_identify : ∀ (s a b c d e : State) (cards : List Word) (extra byOp found : Bool) (count : Nat) (medium : List (Nat × List Byte)), s.boot.auxLost = false →
    s.mode ≠ .curtain → byOp = (s.cart.op.any fun o => o.1 == 0) → (s.armed .cartIns || byOp) = true → a = (if s.armed .cartIns then s.fire .cartIns id else s) →
    b = (List.range 4).foldl (fun s c => s.setReg (A.CART_CARD c) (s.cardWord cards c)) a → c = (b.identCmds extra).foldl (fun s c => s.cartIssue c.1 c.2) b →
    d = (if extra then c.wr F.CART_STAT_EXTRA 1 else c) → found = d.flag (F.CART_CARD_V 0) →
    e = { d with cart := { if found && !d.flag (F.CART_CARD_LOCKED 0) then mounted count medium else Cart.off with op := d.cart.op } } →
    ∀ u : State, u = (if byOp then e.cartEnd 0 0 (if found then ctDONE else ctNO_CARD) 0 else e) →
    exec (.identify cards extra count medium) s = .next (if found then (u.irq 181).cartClock else u) := by
  intro s a b c d e cards extra byOp found count medium h h1 hy h2 ha hb hc hd hf he u hu
  show Host.Outcome.next (s.aux (·.cartIdentify cards extra count medium)) = _
  unfold State.aux
  rw [if_neg (by rw [h]; decide)]
  unfold State.cartIdentify
  dsimp only at he ⊢
  rw [← hy, if_neg (by simp [h1, h2]), ← ha, ← hb, ← hc, ← hd, ← hf, ← he, ← hu]

theorem regWrite_cartLba (s : State) (m : Nat) (w : Word) : s.regWrite m A.CART_LBA w = (none, s.setReg A.CART_LBA w) := by
  exact (show _ = (none, s.plainWrite ⟨"CART_LBA", 0x401A0024, [], 0#32, [⟨31, 0, .rw, false, false, []⟩]⟩ A.CART_LBA w) from rfl).trans
    (congrArg _ (plainWrite_full _ _ _ _ _ _ _))

theorem regWrite_cartBuf (s : State) (m : Nat) (w : Word) : s.regWrite m A.CART_BUF w = (none, s.setReg A.CART_BUF w) := by
  exact (show _ = (none, s.plainWrite ⟨"CART_BUF", 0x401A0028, [], 0#32, [⟨31, 0, .rw, false, false, []⟩]⟩ A.CART_BUF w) from rfl).trans
    (congrArg _ (plainWrite_full _ _ _ _ _ _ _))

theorem cartXfer_go {s v : State} {op card blocks n : Nat} (ho : op < 8) (hc : card < 4) (hb : blocks < 65536) (hn : n = 2 ^ 31 + op * 2 ^ 28 + card * 2 ^ 26 + blocks)
    (h4 : op ≤ 4) (hv : v = s.setReg A.CART_XFER (setBits (BitVec.ofNat 32 n &&& 0x7C00FFFF#32) 30 28 op)) (h : v.mode ≠ .curtain) (h1 : v.cart.op = none) :
    s.cartXfer (BitVec.ofNat 32 n) = v.cartStart op card blocks (v.reg A.CART_LBA).toNat ((v.reg A.CART_BUF).toNat / 8 * 8) := by
  have e1 : getBits (BitVec.ofNat 32 n) 30 28 = op := by rw [getBits_ofNat32 _ _ _ (by omega)]; omega
  unfold State.cartXfer
  dsimp only
  rw [e1, if_neg (by omega : ¬(4 < op)), ← hv, if_neg (by rw [getLsbD_ofNat32 _ _ (by omega)]; simp [h]; omega), if_neg (by rw [h1]; decide)]
  rw [getBits_ofNat32 _ _ _ (by omega), getBits_ofNat32 _ _ _ (by omega)]
  rw [show n / 2 ^ 26 % 2 ^ (27 + 1 - 26) = card by omega, show n / 2 ^ 0 % 2 ^ (15 + 1 - 0) = blocks by omega]

theorem cartStart_go {s u : State} {op card blocks lba buf : Nat} (ho : op ≤ 4) (hb : op = 1 ∨ op = 2 → blocks ≠ 0) (hu : u = s.wr F.CART_STAT_DONE_BLOCKS 0)
    (h : u.flag F.CART_CFG_EN = true) (h1 : u.flag F.CART_STAT_PRESENT = true) (h2 : op = 1 ∨ op = 2 ∨ op = 3 → u.flag (F.CART_CARD_V card) = true ∧ u.flag (F.CART_CARD_LOCKED card) = false)
    (h3 : op = 2 → u.flag (F.CART_CARD_PERM_WP card) = false ∧ u.flag (F.CART_CARD_TMP_WP card) = false) :
    s.cartStart op card blocks lba buf = State.cartClock (State.cartOpen { u.wr F.CART_STAT_BUSY 1 with cart.op := some (op, card, blocks, lba, buf) } op card blocks lba) := by
  unfold State.cartStart
  dsimp only
  rw [← hu, if_neg (by rintro (a | ⟨a, b⟩) <;> [omega; exact hb a b])]
  rw [if_neg (by rintro (a | a | ⟨a, b⟩) <;> [(rw [h] at a; exact absurd a (by decide)); (rw [h1] at a; exact absurd a (by decide)); (rw [(h2 a).1] at b; exact absurd b (by decide))])]
  rw [if_neg (by rintro ⟨a, b⟩; rw [(h2 a).2] at b; exact absurd b (by decide))]
  rw [if_neg (by rintro ⟨a, b | b⟩ <;> [(rw [(h3 a).1] at b; exact absurd b (by decide)); (rw [(h3 a).2] at b; exact absurd b (by decide))])]

theorem complete_cartRead : ∀ (s a b c d : State) (m card blocks : Nat) (lba buf : Word), card < 4 → 1 ≤ blocks → blocks < 65536 → s.mayWrite m A.CART_LBA = true →
    a = (s.setReg A.CART_LBA lba).settle → a.mayWrite m A.CART_BUF = true → b = (a.setReg A.CART_BUF buf).settle → b.mayWrite m A.CART_XFER = true →
    c = b.setReg A.CART_XFER (setBits (BitVec.ofNat 32 (2 ^ 31 + 1 * 2 ^ 28 + card * 2 ^ 26 + blocks) &&& 0x7C00FFFF#32) 30 28 1) → c.mode ≠ .curtain → c.cart.op = none →
    d = c.wr F.CART_STAT_DONE_BLOCKS 0 → d.flag F.CART_CFG_EN = true → d.flag F.CART_STAT_PRESENT = true → d.flag (F.CART_CARD_V card) = true →
    d.flag (F.CART_CARD_LOCKED card) = false →
    exec (.cartRead m card blocks lba buf) s = .next (State.settle (State.cartClock (State.cartOpen { d.wr F.CART_STAT_BUSY 1 with
      cart.op := some (1, card, blocks, (c.reg A.CART_LBA).toNat, (c.reg A.CART_BUF).toNat / 8 * 8) } 1 card blocks (c.reg A.CART_LBA).toNat))) := by
  intro s a b c d m card blocks lba buf hc hb1 hb2 h ha h1 hb h2 hv h3 h4 hd h5 h6 h7 h8
  show Host.Outcome.next (((s.store m A.CART_LBA lba).store m A.CART_BUF buf).store m A.CART_XFER (BitVec.ofNat 32 (2 ^ 31 + 1 * 2 ^ 28 + card * 2 ^ 26 + blocks))) = _
  rw [store_reg h (by decide) (regWrite_cartLba s m lba), ← ha, store_reg h1 (by decide) (regWrite_cartBuf a m buf), ← hb]
  refine congrArg _ (store_reg h2 (by decide) (show _ = (none, _) from congrArg (Prod.mk none) ?_))
  exact (cartXfer_go (by omega) hc hb2 rfl (by omega) hv h3 h4).trans (cartStart_go (by omega) (fun _ => by omega) hd h5 h6 (fun _ => ⟨h7, h8⟩) (fun q => absurd q (by omega)))

theorem complete_cartWrite : ∀ (s a b c d : State) (m card blocks : Nat) (lba buf : Word), card < 4 → 1 ≤ blocks → blocks < 65536 → s.mayWrite m A.CART_LBA = true →
    a = (s.setReg A.CART_LBA lba).settle → a.mayWrite m A.CART_BUF = true → b = (a.setReg A.CART_BUF buf).settle → b.mayWrite m A.CART_XFER = true →
    c = b.setReg A.CART_XFER (setBits (BitVec.ofNat 32 (2 ^ 31 + 2 * 2 ^ 28 + card * 2 ^ 26 + blocks) &&& 0x7C00FFFF#32) 30 28 2) → c.mode ≠ .curtain → c.cart.op = none →
    d = c.wr F.CART_STAT_DONE_BLOCKS 0 → d.flag F.CART_CFG_EN = true → d.flag F.CART_STAT_PRESENT = true → d.flag (F.CART_CARD_V card) = true →
    d.flag (F.CART_CARD_LOCKED card) = false → d.flag (F.CART_CARD_PERM_WP card) = false → d.flag (F.CART_CARD_TMP_WP card) = false →
    exec (.cartWrite m card blocks lba buf) s = .next (State.settle (State.cartClock (State.cartOpen { d.wr F.CART_STAT_BUSY 1 with
      cart.op := some (2, card, blocks, (c.reg A.CART_LBA).toNat, (c.reg A.CART_BUF).toNat / 8 * 8) } 2 card blocks (c.reg A.CART_LBA).toNat))) := by
  intro s a b c d m card blocks lba buf hc hb1 hb2 h ha h1 hb h2 hv h3 h4 hd h5 h6 h7 h8 h9 h10
  show Host.Outcome.next (((s.store m A.CART_LBA lba).store m A.CART_BUF buf).store m A.CART_XFER (BitVec.ofNat 32 (2 ^ 31 + 2 * 2 ^ 28 + card * 2 ^ 26 + blocks))) = _
  rw [store_reg h (by decide) (regWrite_cartLba s m lba), ← ha, store_reg h1 (by decide) (regWrite_cartBuf a m buf), ← hb]
  refine congrArg _ (store_reg h2 (by decide) (show _ = (none, _) from congrArg (Prod.mk none) ?_))
  exact (cartXfer_go (by omega) hc hb2 rfl (by omega) hv h3 h4).trans (cartStart_go (by omega) (fun _ => by omega) hd h5 h6 (fun _ => ⟨h7, h8⟩) (fun _ => ⟨h9, h10⟩))

theorem complete_cmd13Status : ∀ (s c d : State) (m card : Nat), card < 4 → s.mayWrite m A.CART_XFER = true →
    c = s.setReg A.CART_XFER (setBits (BitVec.ofNat 32 (2 ^ 31 + 3 * 2 ^ 28 + card * 2 ^ 26) &&& 0x7C00FFFF#32) 30 28 3) → c.mode ≠ .curtain → c.cart.op = none →
    d = c.wr F.CART_STAT_DONE_BLOCKS 0 → d.flag F.CART_CFG_EN = true → d.flag F.CART_STAT_PRESENT = true → d.flag (F.CART_CARD_V card) = true →
    d.flag (F.CART_CARD_LOCKED card) = false → exec (.cmd13Status m card) s = .next (State.settle (State.cartClock (State.cartOpen { d.wr F.CART_STAT_BUSY 1 with
      cart.op := some (3, card, 0, (c.reg A.CART_LBA).toNat, (c.reg A.CART_BUF).toNat / 8 * 8) } 3 card 0 (c.reg A.CART_LBA).toNat))) := by
  intro s c d m card hc h hv h3 h4 hd h5 h6 h7 h8
  refine congrArg _ (store_reg h (by decide) (show _ = (none, _) from congrArg (Prod.mk none) ?_))
  exact (cartXfer_go (op := 3) (blocks := 0) (by omega) hc (by omega) (by omega) (by omega) hv h3 h4).trans (cartStart_go (by omega) (fun q => absurd q (by omega)) hd h5 h6 (fun _ => ⟨h7, h8⟩) (fun q => absurd q (by omega)))

theorem complete_eject : ∀ (s c d : State) (m : Nat), s.mayWrite m A.CART_XFER = true →
    c = s.setReg A.CART_XFER (setBits (BitVec.ofNat 32 (2 ^ 31 + 4 * 2 ^ 28) &&& 0x7C00FFFF#32) 30 28 4) → c.mode ≠ .curtain → c.cart.op = none →
    d = c.wr F.CART_STAT_DONE_BLOCKS 0 → d.flag F.CART_CFG_EN = true → d.flag F.CART_STAT_PRESENT = true →
    exec (.eject m) s = .next (State.settle (State.cartClock (State.cartOpen { d.wr F.CART_STAT_BUSY 1 with
      cart.op := some (4, 0, 0, (c.reg A.CART_LBA).toNat, (c.reg A.CART_BUF).toNat / 8 * 8) } 4 0 0 (c.reg A.CART_LBA).toNat))) := by
  intro s c d m h hv h3 h4 hd h5 h6
  refine congrArg _ (store_reg h (by decide) (show _ = (none, _) from congrArg (Prod.mk none) ?_))
  exact (cartXfer_go (op := 4) (card := 0) (blocks := 0) (by omega) (by omega) (by omega) (by omega) (by omega) hv h3 h4).trans (cartStart_go (by omega) (fun q => absurd q (by omega)) hd h5 h6
    (fun q => absurd q (by omega)) (fun q => absurd q (by omega)))

theorem complete_cartOpDone : ∀ (s u w : State) (res done op card blocks lba buf : Nat) (data : List Byte) (bad : Bool), s.cart.op = some (op, card, blocks, lba, buf) →
    ((op = 1 ∧ ∃ r, s.dmaWrite 20 buf (data.take (512 * min done blocks)) = (r, u) ∧ bad = r.isSome) ∨
     (op = 2 ∧ ∃ b v, s.dmaRead 20 buf (512 * min done blocks) = (.ok b, v) ∧
       u = v.send chanCart lba (blockFrames (v.flag (F.CART_CARD_WIDE card)) (min done blocks) b) ∧ bad = false) ∨
     (op = 2 ∧ ∃ e, s.dmaRead 20 buf (512 * min done blocks) = (.error e, u) ∧ bad = true) ∨
     (op = 4 ∧ u = s.wr F.CART_STAT_CLK_RUN 0 ∧ bad = false) ∨ (op ≠ 1 ∧ op ≠ 2 ∧ op ≠ 4 ∧ u = s ∧ bad = false)) →
    w = u.cartClose op card blocks res →
    (bad = true → exec (.cartOpDone res done data) s = .next (w.next.cartEnd card lba (w.draw % 16) 0)) ∧
    (bad = false → ∀ v : State, v = w.cartEnd card lba res (min done blocks) → exec (.cartOpDone res done data) s =
      .next (if goneResult res = true ∧ v.rd (F.CART_CARD_TYPE card) = 3 then v.cardGone card else v)) := by
  intro s u w res done op card blocks lba buf data bad h hq hw
  have e : exec (.cartOpDone res done data) s = .next (if bad then w.next.cartEnd card lba (w.draw % 16) 0
      else if goneResult res = true ∧ State.rd (w.cartEnd card lba res (min done blocks)) (F.CART_CARD_TYPE card) = 3 then
        State.cardGone (w.cartEnd card lba res (min done blocks)) card else w.cartEnd card lba res (min done blocks)) := by
    show Host.Outcome.next (s.cartDone res done data) = _
    unfold State.cartDone
    rw [h]
    dsimp only
    subst hw
    rcases hq with ⟨rfl, r, q1, q2⟩ | ⟨rfl, b, v, q1, q2, q3⟩ | ⟨rfl, r, q1, q2⟩ | ⟨rfl, q1, q2⟩ | ⟨q1, q2, q3, q4, q5⟩
    · rw [if_pos (show 1 = 1 from rfl), if_neg (show ¬(1 = 4) by decide), q1, q2]
    · rw [if_neg (show ¬(2 = 1) by decide), if_pos (show 2 = 2 from rfl), if_neg (show ¬(2 = 4) by decide), q1, q2, q3]
    · rw [if_neg (show ¬(2 = 1) by decide), if_pos (show 2 = 2 from rfl), if_neg (show ¬(2 = 4) by decide), q1, q2]
    · rw [if_neg (show ¬(4 = 1) by decide), if_neg (show ¬(4 = 2) by decide), if_pos (show 4 = 4 from rfl), q1, q2]
    · rw [if_neg q1, if_neg q2, if_neg q3, q4, q5]
  rw [e]
  refine ⟨fun a => congrArg _ (if_pos a), fun a v hv => ?_⟩
  rw [hv]
  exact congrArg _ (if_neg (by rw [a]; decide))

end Sys2Proof.Machine
end

