-- ==== Sys2Proof/Laws/CompleteChorus.lean ====
section
/-! SUPPORT. Completion lemmas: for each command of the Chorus rows, the next state that `exec` answers, under
hypotheses on the state and the operands alone. One lemma per clause of the completion statements. -/

set_option maxRecDepth 8000

namespace Sys2Proof.Machine

theorem blockRun_eq {s : State} {c op : Nat} {fault : Option (Nat × Nat)} {j : ChJob} (h : (s.chan c).running = some j) (h1 : j.op = op) (h2 : j.status = none)
    (h3 : s.framesFirst = false) : s.blockRun c op fault = State.turns c fault s.blocksLeft s := by
  unfold State.blockRun
  rw [h]
  exact if_pos ⟨h1, h2, by rw [h3]; decide⟩

theorem jobRun_eq {s u : State} {c op n st : Nat} {k : ChJob → State → (Nat × Nat) × State} {j : ChJob} {fault : Option (Nat × Nat)}
    (h : (s.chan c).running = some j) (h1 : j.op = op) (h2 : j.status = none) (h3 : s.coresOut = false) (h4 : (fault.bind fun f => s.coreErr f.2) = none)
    (h5 : k j s = ((st, n), u)) : s.jobRun c op fault k = u.setRunning c (some { j with status := some st, blocks := n }) := by
  unfold State.jobRun
  rw [h]
  dsimp -zeta only
  rw [if_pos ⟨h1, h2⟩, if_neg (by rw [h3]; decide), h4]
  dsimp -zeta only
  rw [h5]

theorem jobRun_fault {s : State} {c op cn : Nat} {k : ChJob → State → (Nat × Nat) × State} {j : ChJob} {fault : Option (Nat × Nat)}
    (h : (s.chan c).running = some j) (h1 : j.op = op) (h2 : j.status = none) (h3 : s.coresOut = false) (h4 : (fault.bind fun f => s.coreErr f.2) = some cn) :
    s.jobRun c op fault k = (s.coreFault cn).setRunning c (some { j with status := some jFAULT }) := by
  unfold State.jobRun
  rw [h]
  dsimp -zeta only
  rw [if_pos ⟨h1, h2⟩, if_neg (by rw [h3]; decide), h4]

theorem complete_enc : ∀ (s : State) (c : Nat) (fault : Option (Nat × Nat)) (j : ChJob), (s.chan c).running = some j → j.op = 1 → j.status = none → s.framesFirst = false →
    exec (.enc c fault) s = .next (State.turns c fault s.blocksLeft s) := by
  intro s c fault j h h1 h2 h3
  exact congrArg _ (blockRun_eq h h1 h2 h3)

theorem complete_dec : ∀ (s : State) (c : Nat) (fault : Option (Nat × Nat)) (j : ChJob), (s.chan c).running = some j → j.op = 2 → j.status = none → s.framesFirst = false →
    exec (.dec c fault) s = .next (State.turns c fault s.blocksLeft s) := by
  intro s c fault j h h1 h2 h3
  exact congrArg _ (blockRun_eq h h1 h2 h3)

theorem complete_encXor : ∀ (s : State) (c : Nat) (fault : Option (Nat × Nat)) (j : ChJob), (s.chan c).running = some j → j.op = 3 → j.status = none → s.framesFirst = false →
    exec (.encXor c fault) s = .next (State.turns c fault s.blocksLeft s) := by
  intro s c fault j h h1 h2 h3
  exact congrArg _ (blockRun_eq h h1 h2 h3)

theorem complete_gateCtr : ∀ (s : State) (c : Nat) (fault : Option (Nat × Nat)) (j : ChJob), (s.chan c).running = some j → j.op = 5 → j.status = none → s.framesFirst = false →
    exec (.gateCtr c fault) s = .next (State.turns c fault s.blocksLeft s) := by
  intro s c fault j h h1 h2 h3
  exact congrArg _ (blockRun_eq h h1 h2 h3)

theorem complete_gateOpen : ∀ (s : State) (c : Nat) (fault : Option (Nat × Nat)) (j : ChJob), (s.chan c).running = some j → j.op = 4 → j.status = none → s.coresOut = false →
    (∀ (u : State) (n st : Nat), (fault.bind fun f => s.coreErr f.2) = none → s.gateOpen c j = ((st, n), u) →
      exec (.gateOpen c fault) s = .next (u.setRunning c (some { j with status := some st, blocks := n }))) ∧
    (∀ cn : Nat, (fault.bind fun f => s.coreErr f.2) = some cn →
      exec (.gateOpen c fault) s = .next ((s.coreFault cn).setRunning c (some { j with status := some jFAULT }))) := by
  intro s c fault j h h1 h2 h3
  exact ⟨fun u n st h4 h5 => congrArg _ (jobRun_eq h h1 h2 h3 h4 h5), fun cn h4 => congrArg _ (jobRun_fault h h1 h2 h3 h4)⟩

theorem complete_wrap : ∀ (s : State) (c : Nat) (fault : Option (Nat × Nat)) (j : ChJob), (s.chan c).running = some j → j.op = 7 → j.status = none → s.coresOut = false →
    (∀ (u : State) (n st : Nat), (fault.bind fun f => s.coreErr f.2) = none → s.jobWrap j = ((st, n), u) →
      exec (.wrap c fault) s = .next (u.setRunning c (some { j with status := some st, blocks := n }))) ∧
    (∀ cn : Nat, (fault.bind fun f => s.coreErr f.2) = some cn →
      exec (.wrap c fault) s = .next ((s.coreFault cn).setRunning c (some { j with status := some jFAULT }))) := by
  intro s c fault j h h1 h2 h3
  exact ⟨fun u n st h4 h5 => congrArg _ (jobRun_eq h h1 h2 h3 h4 h5), fun cn h4 => congrArg _ (jobRun_fault h h1 h2 h3 h4)⟩

theorem complete_unwrap : ∀ (s : State) (c : Nat) (fault : Option (Nat × Nat)) (j : ChJob), (s.chan c).running = some j → j.op = 8 → j.status = none → s.coresOut = false →
    (∀ (u : State) (n st : Nat), (fault.bind fun f => s.coreErr f.2) = none → s.jobUnwrap j = ((st, n), u) →
      exec (.unwrap c fault) s = .next (u.setRunning c (some { j with status := some st, blocks := n }))) ∧
    (∀ cn : Nat, (fault.bind fun f => s.coreErr f.2) = some cn →
      exec (.unwrap c fault) s = .next ((s.coreFault cn).setRunning c (some { j with status := some jFAULT }))) := by
  intro s c fault j h h1 h2 h3
  exact ⟨fun u n st h4 h5 => congrArg _ (jobRun_eq h h1 h2 h3 h4 h5), fun cn h4 => congrArg _ (jobRun_fault h h1 h2 h3 h4)⟩

theorem complete_ctxSaveWrapped : ∀ (s : State) (c : Nat) (fault : Option (Nat × Nat)) (j : ChJob), (s.chan c).running = some j → j.op = 10 → j.status = none → s.coresOut = false →
    (∀ (u : State) (n st : Nat), (fault.bind fun f => s.coreErr f.2) = none → s.ctxSaveWrapped c j = ((st, n), u) →
      exec (.ctxSaveWrapped c fault) s = .next (u.setRunning c (some { j with status := some st, blocks := n }))) ∧
    (∀ cn : Nat, (fault.bind fun f => s.coreErr f.2) = some cn →
      exec (.ctxSaveWrapped c fault) s = .next ((s.coreFault cn).setRunning c (some { j with status := some jFAULT }))) := by
  intro s c fault j h h1 h2 h3
  exact ⟨fun u n st h4 h5 => congrArg _ (jobRun_eq h h1 h2 h3 h4 h5), fun cn h4 => congrArg _ (jobRun_fault h h1 h2 h3 h4)⟩

theorem complete_ctxRestore : ∀ (s : State) (c : Nat) (fault : Option (Nat × Nat)) (j : ChJob), (s.chan c).running = some j → j.op = 11 → j.status = none → s.coresOut = false →
    (∀ (u : State) (n st : Nat), (fault.bind fun f => s.coreErr f.2) = none → s.ctxRestore c j = ((st, n), u) →
      exec (.ctxRestore c fault) s = .next (u.setRunning c (some { j with status := some st, blocks := n }))) ∧
    (∀ cn : Nat, (fault.bind fun f => s.coreErr f.2) = some cn →
      exec (.ctxRestore c fault) s = .next ((s.coreFault cn).setRunning c (some { j with status := some jFAULT }))) := by
  intro s c fault j h h1 h2 h3
  exact ⟨fun u n st h4 h5 => congrArg _ (jobRun_eq h h1 h2 h3 h4 h5), fun cn h4 => congrArg _ (jobRun_fault h h1 h2 h3 h4)⟩

theorem complete_gateVerdict : ∀ (s u : State) (c n st : Nat) (j : ChJob), (s.chan c).running = some j → j.op = 6 → j.status = none → s.coresOut = false →
    s.gateVerdict c j = ((st, n), u) → exec (.gateVerdict c) s = .next (u.setRunning c (some { j with status := some st, blocks := n })) := by
  intro s u c n st j h h1 h2 h3 h4
  exact congrArg _ (jobRun_eq (fault := none) (k := fun j s => s.gateVerdict c j) h h1 h2 h3 rfl h4)

theorem complete_ctxSaveClear : ∀ (s u : State) (c n st : Nat) (j : ChJob), (s.chan c).running = some j → j.op = 9 → j.status = none → s.coresOut = false →
    s.ctxSaveClear c j = ((st, n), u) → exec (.ctxSaveClear c) s = .next (u.setRunning c (some { j with status := some st, blocks := n })) := by
  intro s u c n st j h h1 h2 h3 h4
  exact congrArg _ (jobRun_eq (fault := none) (k := fun j s => s.ctxSaveClear c j) h h1 h2 h3 rfl h4)

theorem complete_chorusJobStart : ∀ (s u : State) (c : Nat) (agree : Bool) (j : ChJob) (rest : List ChJob), (s.chan c).running = none → (s.chan c).queue = j :: rest →
    u = (s.setChan c { s.chan c with queue := rest }).wr (F.CHORUS_CH_STAT_QUEUED c) rest.length →
    exec (.chorusJobStart c agree) s = .next (State.settle (if j.status.isSome then u.setRunning c (some j)
      else if u.coresOut then u.setRunning c (some { j with status := some jFAULT })
      else if j.bad (u.flag (F.CHORUS_CH_GATE_CFG_COMPAT c)) then u.setRunning c (some { j with status := some jBAD })
      else if (opUse j.op).isSome && !agree then
        ((u.sat F.CHORUS_CNT_DT_DISAGREE).irq 118).dtDisagree.setRunning c (some { j with status := some jFAULT })
      else if !u.slotAllows j then u.setRunning c (some { j with status := some jDENIED })
      else u.setRunning c (some { j with key := (u.keySlot j.slot).key }))) := by
  intro s u c agree j rest h h1 hu
  refine congrArg (fun x => Host.Outcome.next (State.settle x)) (show s.jobStart c agree = _ from ?_)
  unfold State.jobStart
  dsimp only at hu ⊢
  rw [h, h1]
  dsimp only
  rw [← h, ← hu]

theorem complete_chorusJobDone : ∀ (s u : State) (c st : Nat) (j : ChJob), (s.chan c).running = some j → j.status = some st →
    u = (((s.setRunning c none).wr (F.CHORUS_CH_STAT_STATUS c) st).wr (F.CHORUS_CH_STAT_REQ c) j.req).wr (F.CHORUS_CH_STAT_BLOCKS c) j.blocks → ∀ v : State,
    v = (if st = jDONE then u else u.irq 112) → exec (.chorusJobDone c) s = .next (if v.flag (F.CHORUS_CH_DONE_Q_EN c) then
      (v.enqueue 9 (v.rd (F.CHORUS_CH_DONE_Q_QUEUE c))
        (leBytes 8 (2 ^ 63 + st * 2 ^ 59 + c * 2 ^ 56 + j.op * 2 ^ 52 + j.slot * 2 ^ 44 + j.req * 2 ^ 39 + j.blocks * 2 ^ 19))).2 else v) := by
  intro s u c st j h h1 hu v hv
  refine congrArg _ (show s.jobDone c = _ from ?_)
  unfold State.jobDone
  rw [h]
  dsimp -zeta only
  rw [h1]
  dsimp only
  rw [← hu, ← hv]

theorem chorusPush_go {s : State} {w : Word} {i : Nat} (h : w.getLsbD 31 = true) (hi : i = s.rd F.CHORUS_KEY_IDX_SLOT) (h1 : s.pendingIn Base.CHORUS = false)
    (h2 : (s.chorus.changes.any fun c => c.1 == i) = true ∨ s.chorus.changes.length < 256) (h3 : w.getLsbD 30 = true ∨ s.chorusReason = 0) :
    ∀ (p : SlotPush) (u v : State), 
    p = (if w.getLsbD 30 then SlotPush.mk true 0 0 0 [] else SlotPush.mk false (s.rd F.CHORUS_KEY_ATTR_LEN) s.stagedUse (s.reg A.CHORUS_KEY_USERS).toNat
      ((if s.rd F.CHORUS_KEY_ATTR_FROM = 1 then s.chorus.unwrap.getD [] else if s.rd F.CHORUS_KEY_ATTR_FROM = 2 then s.chorus.bus.headD [] else s.stagedSlotKey).take
        (keyBytes (s.rd F.CHORUS_KEY_ATTR_LEN)))) →
    u = (if w.getLsbD 30 then s else if s.rd F.CHORUS_KEY_ATTR_FROM = 1 then { s with chorus.unwrap := none }
      else if s.rd F.CHORUS_KEY_ATTR_FROM = 2 then { s with chorus.bus := s.chorus.bus.drop 1 } else s) →
    v = (List.range 8).foldl (fun s k => s.setReg (A.CHORUS_KEY_VAL k) 0) u →
    ∀ l, l = (if s.chorus.changes.any fun c => c.1 == i then v.chorus.changes.map (fun c => if c.1 = i then (i, p) else c) else v.chorus.changes ++ [(i, p)]) →
    s.chorusPush w = State.wr { v.wr F.CHORUS_KEY_STAT_LAST_REFUSED 0 with chorus.changes := l } F.CHORUS_KEY_STAT_LIST_COUNT l.length := by
  intro p u v hp hu hv l hl
  unfold State.chorusPush
  rw [if_neg (by simp [h])]
  subst hi
  dsimp only at hp hu hv hl ⊢
  have hr : (if w.getLsbD 30 = true then 0 else s.chorusReason) = 0 := by
    rcases h3 with h3 | h3
    · rw [if_pos h3]
    · rw [h3, ite_self]
  rw [if_neg (by rw [h1]; decide), if_neg (by rcases h2 with h2 | h2 <;> [(rw [h2, Bool.not_true, Bool.false_and]; decide); (simp only [Bool.and_eq_true, decide_eq_true_eq]; intro q; omega)]),
    if_neg (by rw [hr]; decide), ← hp, ← hu, ← hv, ← hl]

theorem complete_chorusKeyPush : ∀ (s : State) (m i : Nat), s.mayWrite m A.CHORUS_KEY_PUSH = true → i = s.rd F.CHORUS_KEY_IDX_SLOT → s.pendingIn Base.CHORUS = false →
    (s.chorus.changes.any fun c => c.1 == i) = true ∨ s.chorus.changes.length < 256 → s.chorusReason = 0 → ∀ (p : SlotPush) (u v : State),
    p = SlotPush.mk false (s.rd F.CHORUS_KEY_ATTR_LEN) s.stagedUse (s.reg A.CHORUS_KEY_USERS).toNat
      ((if s.rd F.CHORUS_KEY_ATTR_FROM = 1 then s.chorus.unwrap.getD [] else if s.rd F.CHORUS_KEY_ATTR_FROM = 2 then s.chorus.bus.headD [] else s.stagedSlotKey).take
        (keyBytes (s.rd F.CHORUS_KEY_ATTR_LEN))) →
    u = (if s.rd F.CHORUS_KEY_ATTR_FROM = 1 then { s with chorus.unwrap := none }
      else if s.rd F.CHORUS_KEY_ATTR_FROM = 2 then { s with chorus.bus := s.chorus.bus.drop 1 } else s) →
    v = (List.range 8).foldl (fun s k => s.setReg (A.CHORUS_KEY_VAL k) 0) u → ∀ l : List (Nat × SlotPush),
    l = (if s.chorus.changes.any fun c => c.1 == i then v.chorus.changes.map (fun c => if c.1 = i then (i, p) else c) else v.chorus.changes ++ [(i, p)]) →
    exec (.chorusKeyPush m) s = .next (State.wr { v.wr F.CHORUS_KEY_STAT_LAST_REFUSED 0 with chorus.changes := l } F.CHORUS_KEY_STAT_LIST_COUNT l.length).settle := by
  intro s m i h hi h1 h2 h3 p u v hp hu hv l hl
  exact congrArg _ (store_reg h (by decide) (show _ = _ from congrArg (Prod.mk none)
    (chorusPush_go (by decide) hi h1 h2 (Or.inr h3) p u v (hp.trans (if_neg (by decide)).symm) (hu.trans (if_neg (by decide)).symm) hv l hl)))

theorem complete_chorusKeyErase : ∀ (s : State) (m i : Nat), s.mayWrite m A.CHORUS_KEY_PUSH = true → i = s.rd F.CHORUS_KEY_IDX_SLOT → s.pendingIn Base.CHORUS = false →
    (s.chorus.changes.any fun c => c.1 == i) = true ∨ s.chorus.changes.length < 256 → ∀ (p : SlotPush) (v : State), p = SlotPush.mk true 0 0 0 [] →
    v = (List.range 8).foldl (fun s k => s.setReg (A.CHORUS_KEY_VAL k) 0) s → ∀ l : List (Nat × SlotPush),
    l = (if s.chorus.changes.any fun c => c.1 == i then v.chorus.changes.map (fun c => if c.1 = i then (i, p) else c) else v.chorus.changes ++ [(i, p)]) →
    exec (.chorusKeyErase m) s = .next (State.wr { v.wr F.CHORUS_KEY_STAT_LAST_REFUSED 0 with chorus.changes := l } F.CHORUS_KEY_STAT_LIST_COUNT l.length).settle := by
  intro s m i h hi h1 h2 p v hp hv l hl
  exact congrArg _ (store_reg h (by decide) (show _ = _ from congrArg (Prod.mk none)
    (chorusPush_go (by decide) hi h1 h2 (Or.inl (by decide)) p s v (hp.trans (if_pos (by decide)).symm) (if_pos (by decide)).symm hv l hl)))

theorem complete_chorusCntClear : ∀ (s : State) (m : Nat) (w : Word), s.mayWrite m A.CHORUS_CNT = true →
    exec (.chorusCntClear m w) s = .next (s.setReg A.CHORUS_CNT 0).settle := by
  intro s m w h
  exact congrArg _ (store_reg h (by decide) rfl)

end Sys2Proof.Machine
end

