-- ==== Sys2Proof/Laws/CompleteCues.lean ====
section
/-! SUPPORT. Completion lemmas: for each command of the CueDispatch, CueTable rows, the next state that `exec` answers, under
hypotheses on the state and the operands alone. One lemma per clause of the completion statements. -/

set_option maxRecDepth 8000

namespace Sys2Proof.Machine

theorem dispatch_dueNow {s : State} {o : Occ} {a : Nat} (h : s.dueNow o = true) (ha : o.ent.action = a) :
    s.dispatch a o.idx = (s.atLaunch o).2.launch o (max o.time (s.tickOf o).now) (s.atLaunch o).1 := by
  unfold State.dueNow at h
  simp only [Bool.and_eq_true, beq_iff_eq] at h
  obtain ⟨⟨⟨h1, h2⟩, h3⟩, h4⟩ := h
  have head : ∀ l : List Occ, l.head? = some o → ∃ t, l = o :: t := by
    intro l hl
    cases l with
    | nil => cases hl
    | cons x t => cases hl; exact ⟨t, rfl⟩
  obtain ⟨t, ht⟩ := head _ h2
  obtain ⟨t', ht'⟩ := head _ h3
  unfold State.dispatch
  rw [if_neg (by rw [h1]; decide), ht]
  dsimp only
  rw [if_neg (by simp [ha]), show s.openTick (s.launchTick o) = s.tickOf o from rfl, ht']
  dsimp only
  rw [if_neg (by simp [ha])]
  unfold State.handle
  rw [h4]
  rfl

theorem complete_mark : ∀ (s : State) (o : Occ), s.dueNow o = true → o.ent.action = 0 →
    exec (.mark o.idx) s = .next ((s.atLaunch o).2.complete (s.atLaunch o).1 false).settle := by
  intro s o h ha
  show Host.Outcome.next (s.dispatch 0 o.idx).settle = _
  rw [dispatch_dueNow h ha]
  simp only [State.launch, ha]

theorem complete_coreIrq : ∀ (s : State) (o : Occ), s.dueNow o = true → o.ent.action = 1 →
    exec (.coreIrq o.idx) s = .next ((s.atLaunch o).2.launchIrq o (s.atLaunch o).1).settle := by
  intro s o h ha
  show Host.Outcome.next (s.dispatch 1 o.idx).settle = _
  rw [dispatch_dueNow h ha]
  simp only [State.launch, ha]

theorem complete_gather : ∀ (s : State) (o : Occ), s.dueNow o = true → o.ent.action = 2 →
    exec (.gather o.idx) s = .next ((s.atLaunch o).2.gatherLaunch o.ent.tindex (s.atLaunch o).1).settle := by
  intro s o h ha
  show Host.Outcome.next (s.dispatch 2 o.idx).settle = _
  rw [dispatch_dueNow h ha]
  simp only [State.launch, ha]

theorem complete_pinSet : ∀ (s : State) (o : Occ), s.dueNow o = true → o.ent.action = 3 →
    exec (.pinSet o.idx) s = .next ((s.atLaunch o).2.launchPin o (max o.time (s.tickOf o).now) (s.atLaunch o).1).settle := by
  intro s o h ha
  show Host.Outcome.next (s.dispatch 3 o.idx).settle = _
  rw [dispatch_dueNow h ha]
  simp only [State.launch, ha]

theorem complete_commit : ∀ (s : State) (o : Occ), s.dueNow o = true → o.ent.action = 4 →
    exec (.commit o.idx) s = .next ((s.atLaunch o).2.dtLaunch o.ent.tindex o.time (s.atLaunch o).1).settle := by
  intro s o h ha
  show Host.Outcome.next (s.dispatch 4 o.idx).settle = _
  rw [dispatch_dueNow h ha]
  simp only [State.launch, ha]

theorem complete_egressRelease : ∀ (s : State) (o : Occ), s.dueNow o = true → o.ent.action = 5 →
    exec (.egressRelease o.idx) s = .next ((s.atLaunch o).2.relIssue o.ent.tindex o.ent.arg (max o.time (s.tickOf o).now) (s.atLaunch o).1).settle := by
  intro s o h ha
  show Host.Outcome.next (s.dispatch 5 o.idx).settle = _
  rw [dispatch_dueNow h ha]
  simp only [State.launch, ha]

theorem complete_mirror : ∀ (s : State) (o : Occ), s.dueNow o = true → o.ent.action = 6 →
    exec (.mirror o.idx) s = .next ((s.atLaunch o).2.mirrorCue (s.atLaunch o).1).settle := by
  intro s o h ha
  show Host.Outcome.next (s.dispatch 6 o.idx).settle = _
  rw [dispatch_dueNow h ha]
  simp only [State.launch, ha]

theorem complete_queueKick : ∀ (s : State) (o : Occ), s.dueNow o = true → o.ent.action = 7 → 0 < ((s.atLaunch o).2.queue o.ent.tindex).fill →
    exec (.queueKick o.idx) s = .next (((s.atLaunch o).2.notifyQueue o.ent.tindex).complete (s.atLaunch o).1 false).settle := by
  intro s o h ha hf
  show Host.Outcome.next (s.dispatch 7 o.idx).settle = _
  rw [dispatch_dueNow h ha]
  simp only [State.launch, ha, if_pos hf]

theorem complete_packerSwap : ∀ (s : State) (o : Occ), s.dueNow o = true → o.ent.action = 8 →
    exec (.packerSwap o.idx) s = .next ((s.atLaunch o).2.packerCue o.ent.tindex (s.atLaunch o).1).settle := by
  intro s o h ha
  show Host.Outcome.next (s.dispatch 8 o.idx).settle = _
  rw [dispatch_dueNow h ha]
  simp only [State.launch, ha]

theorem complete_doorbell : ∀ (s : State) (o : Occ), s.dueNow o = true → o.ent.action = 9 →
    exec (.doorbell o.idx) s = .next (((s.atLaunch o).2.irq (216 + o.ent.tindex)).complete (s.atLaunch o).1 false).settle := by
  intro s o h ha
  show Host.Outcome.next (s.dispatch 9 o.idx).settle = _
  rw [dispatch_dueNow h ha]
  simp only [State.launch, ha]

theorem complete_stewardJob : ∀ (s : State) (o : Occ), s.dueNow o = true → o.ent.action = 10 →
    exec (.stewardJob o.idx) s = .next ((s.atLaunch o).2.launchJob o (s.atLaunch o).1).settle := by
  intro s o h ha
  show Host.Outcome.next (s.dispatch 10 o.idx).settle = _
  rw [dispatch_dueNow h ha]
  simp only [State.launch, ha]

theorem complete_pbookMark : ∀ (s : State) (o : Occ), s.dueNow o = true → o.ent.action = 11 →
    exec (.pbookMark o.idx) s = .next (((s.atLaunch o).2.launchMark o).complete (s.atLaunch o).1 false).settle := by
  intro s o h ha
  show Host.Outcome.next (s.dispatch 11 o.idx).settle = _
  rw [dispatch_dueNow h ha]
  simp only [State.launch, ha]

theorem complete_preIssueRetry : ∀ (s u w : State) (i : Nat) (o : Occ), s.flag F.CUE_CTRL_RUN = true → (s.cue.waiting.find? fun x => x.idx == i) = some o →
    s.preRoom o.ent = true → u = (s.openTick (s.placeAt s.now)).commitCues [i] → u.cue.waiting.contains o = true → u.preRoom o.ent = true →
    w = State.occDone { u with cue.waiting := u.cue.waiting.erase o } o → w.now ≤ o.time → w.isLate o = false →
    exec (.preIssueRetry i) s = .next (w.launchOcc o (max o.time w.now)) := by
  intro s u w i o h h1 h2 hu h3 h4 hw h5 h6
  show Host.Outcome.next (s.retryPre i) = _
  unfold State.retryPre
  rw [if_neg (by rw [h]; decide), h1]
  dsimp only at hw ⊢
  rw [if_neg (by rw [h2]; decide), ← hu, if_neg (by rw [h3, h4]; decide), ← hw]
  have hl : (decide (o.time < w.now) || w.isLate o) = false := by rw [h6, Bool.or_false]; exact decide_eq_false (Nat.not_lt.2 h5)
  rw [hl]
  rfl

theorem pinFunc_wr (s : State) (f : Fld) (v p : Nat) : (s.wr f v).pinFunc p = s.pinFunc p := rfl

theorem pinFunc_pre (s : State) (l : List PinCue) (p : Nat) : State.pinFunc { s with pin.pre := l } p = s.pinFunc p := rfl

theorem pinEffect_done {s : State} {c : PinCue} (h : s.pinFunc c.pin = 2) :
    ∃ u : State, s.pinCueEffect c = (u.pinSet c.pin c.op c.width).complete c.ticket false ∧ u.pin.pre = s.pin.pre.erase c ∧ u.mem = s.mem ∧ u.cue = s.cue := by
  refine ⟨State.wr { s with pin.pre := s.pin.pre.erase c } (F.PINS_GRP_STAT_PENDING (c.pin / 8)) (State.pinPending { s with pin.pre := s.pin.pre.erase c } (c.pin / 8)), ?_, ?_, ?_, ?_⟩
  · unfold State.pinCueEffect
    extract_lets q s1 s2
    exact if_pos ((pinFunc_wr _ _ _ _).trans ((pinFunc_pre _ _ _).trans h))
  · rw [State.wr_pin]
  · rw [State.wr_mem]
  · rw [State.wr_cue]

theorem complete_pinCueEffect : ∀ (s : State) (p : Nat) (c : PinCue), (s.pin.pre.filter fun x => x.pin == p) = [c] → s.pinFunc p = 2 →
    ∃ u : State, exec (.pinCueEffect p) s = .next ((u.pinSet p c.op c.width).complete c.ticket false) ∧ u.pin.pre = s.pin.pre.erase c ∧ u.mem = s.mem ∧ u.cue = s.cue := by
  intro s p c h1 h2
  have hp : c.pin = p := by
    have : c ∈ s.pin.pre.filter fun x => x.pin == p := by rw [h1]; exact List.mem_singleton.2 rfl
    simpa using (List.mem_filter.1 this).2
  subst hp
  have e : exec (.pinCueEffect c.pin) s = .next ((s.reachST c.time).pinCueEffect c) := by
    show Host.Outcome.next (s.pinCueDue c.pin) = _
    unfold State.pinCueDue
    rw [h1]
    rfl
  have hr : (s.reachST c.time).pinFunc c.pin = 2 ∧ (s.reachST c.time).pin = s.pin ∧ (s.reachST c.time).mem = s.mem ∧ (s.reachST c.time).cue = s.cue := by
    unfold State.reachST
    split <;> exact ⟨h2, rfl, rfl, rfl⟩
  obtain ⟨hf, hpin, hm, hc⟩ := hr
  obtain ⟨u, h1, h2, h3, h4⟩ := pinEffect_done hf
  exact ⟨u, e.trans (congrArg _ h1), h2.trans (by rw [hpin]), h3.trans hm, h4.trans hc⟩

theorem complete_pulseEnd : ∀ (s u : State) (p : Nat), s.armed (.pulse p) = true → u = s.elapsed (.pulse p) → u.ownCues = true → u.pinFunc p = 2 →
    exec (.pulseEnd p) s = .next (u.command p false) := by
  intro s u p h hu h1 h2
  subst hu
  refine fire_next (k := fun s => s.pulseEnd p) h ?_
  exact if_pos (by rw [h1, h2]; decide)

theorem complete_ticketDeadline : ∀ (s : State) (t : Nat) (k : Ticket), s.armed (.ticket t) = true → (s.elapsed (.ticket t)).ticket t = some k → k.late = false →
    exec (.ticketDeadline t) s = .next
      ((((((((s.elapsed (.ticket t)).setTicket t (some { k with late := true, since := (s.elapsed (.ticket t)).now, age := 0 })).sat
        F.CUE_CNT_B_DEADLINE_MISS).irq 24).post 0x2002 4 17 [t, k.cue]).ticketStatus t k.cue tkLATE)).observe 2 0 1) := by
  intro s t k h h1 h2
  show Host.Outcome.next (s.fire (.ticket t) (·.ticketLate t)) = _
  unfold State.fire
  rw [if_pos h]
  show Host.Outcome.next ((s.elapsed (.ticket t)).ticketLate t) = _
  unfold State.ticketLate
  rw [h1]
  simp only [h2, Bool.false_eq_true, if_false]

theorem complete_ticketReclaim : ∀ (s : State) (t : Nat) (k : Ticket), s.ticket t = some k → s.reclaimable k = true →
    exec (.ticketReclaim t) s = .next (((s.setTicket t none).disarm (.ticket t)).ticketStatus t k.cue tkRECLAIMED) := by
  intro s t k h1 h2
  show Host.Outcome.next (s.reclaim t) = _
  unfold State.reclaim
  rw [h1]
  simp only [h2, if_true]

theorem complete_cueTicketDone : ∀ (s : State) (m t st : Nat) (k : Ticket), s.mayWrite m A.CUE_TICKET_DONE = true → t < 1024 → st < 2 → s.ticket t = some k →
    m = 8 ∨ k.owner = some m → exec (.cueTicketDone m t st) s = .next (s.completeNum t k (st == 1)).settle := by
  intro s m t st k h ht hst hk ho
  refine congrArg _ (store_reg h (by decide) (show _ = _ from congrArg (Prod.mk none) ?_))
  show s.ticketDoneWrite m _ = _
  unfold State.ticketDoneWrite
  rw [getBits_ofNat32 _ _ _ (by omega), getBits_ofNat32 _ _ _ (by omega)]
  rw [show (st * 2 ^ 28 + t) / 2 ^ 28 % 2 ^ (31 + 1 - 28) = st by omega, show (st * 2 ^ 28 + t) / 2 ^ 0 % 2 ^ (9 + 1 - 0) = t by omega]
  simp only [if_neg (by omega : ¬ 2 ≤ st), hk, if_pos ho]

theorem complete_cueEditPush : ∀ (s : State) (m i : Nat), s.mayWrite m A.CUE_EDIT_PUSH = true → i < 16384 →
    exec (.cueEditPush m i) s = .next (s.cuePush i ((List.range 4).map fun k => s.reg (A.CUE_EDIT_W k))).settle := by
  intro s m i h hi
  refine congrArg _ (store_reg h (by decide) (show _ = _ from congrArg (Prod.mk none) ?_))
  show s.cueEditWrite _ = _
  unfold State.cueEditWrite
  rw [getLsbD_ofNat32 _ _ (by omega), getLsbD_ofNat32 _ _ (by omega), getBits_ofNat32 _ _ _ (by omega)]
  rw [if_pos (by simp; omega), if_neg (by simp; omega), show (2 ^ 31 + i) / 2 ^ 0 % 2 ^ (13 + 1 - 0) = i by omega]

theorem complete_cueEditDelete : ∀ (s : State) (m i : Nat), s.mayWrite m A.CUE_EDIT_PUSH = true → i < 16384 →
    exec (.cueEditDelete m i) s = .next (s.cuePush i (List.replicate 4 0#32)).settle := by
  intro s m i h hi
  refine congrArg _ (store_reg h (by decide) (show _ = _ from congrArg (Prod.mk none) ?_))
  show s.cueEditWrite _ = _
  unfold State.cueEditWrite
  rw [getLsbD_ofNat32 _ _ (by omega), getLsbD_ofNat32 _ _ (by omega), getBits_ofNat32 _ _ _ (by omega)]
  rw [if_pos (by simp; omega), if_pos (by simp; omega), show (2 ^ 31 + 2 ^ 30 + i) / 2 ^ 0 % 2 ^ (13 + 1 - 0) = i by omega]

theorem complete_cueLoadDataWrite : ∀ (s : State) (m : Nat) (w : Word), s.mayWrite m A.CUE_LOAD_DATA = true → s.flag F.CUE_CTRL_RUN = false →
    exec (.cueLoadDataWrite m w) s = .next ((s.dropWaiting (s.rd F.CUE_LOAD_IDX_INDEX)).setCueWord (s.rd F.CUE_LOAD_IDX_INDEX) (s.rd F.CUE_LOAD_IDX_WORD) w).loadAdvance.settle := by
  intro s m w h h1
  refine congrArg _ (store_reg h (by decide) (show _ = _ from congrArg (Prod.mk none) ?_))
  exact if_neg (by rw [h1]; decide)

theorem complete_cueLoadDataRead : ∀ (s : State) (m : Nat), s.mayRead m A.CUE_LOAD_DATA = true →
    exec (.cueLoadDataRead m) s = .next (State.settle { s.loadAdvance with
      rdata := BitVec.ofNat 64 (s.cueWord (s.rd F.CUE_LOAD_IDX_INDEX) (s.rd F.CUE_LOAD_IDX_WORD)).toNat }) := by
  intro s m h
  exact congrArg _ (load_reg h (by decide) rfl)

theorem complete_cueRunSet : ∀ (s : State) (m : Nat), s.mayWrite m A.CUE_CTRL = true → s.mode ≠ .curtain → s.flag F.CUE_CTRL_RUN = false →
    exec (.cueRunSet m) s = .next (State.settle (State.wr { s with
      cue.floor := if s.stime.valid then s.nextBoundary.toNat else s.cue.floor, cue.runSince := s.now, cue.carry := [],
      cue.waiting := s.cue.waiting.filter fun o => !o.ent.standing } F.CUE_CTRL_RUN 1)) := by
  intro s m h h1 h2
  refine congrArg _ (store_reg h (by decide) (show _ = _ from congrArg (Prod.mk none) ?_))
  show s.cueCtrlWrite _ = _
  unfold State.cueCtrlWrite
  have hm : (s.mode != .curtain) = true := bne_iff_ne.2 h1
  simp only [show (1#32).getLsbD 8 = false from rfl, show (1#32).getLsbD 0 = true from rfl, Bool.false_eq_true, if_false, hm, h2, Bool.true_and, Bool.not_false, if_true]
  cases s.stime.valid <;> rfl

theorem complete_cueRunClear : ∀ (s : State) (m : Nat), s.mayWrite m A.CUE_CTRL = true →
    exec (.cueRunClear m) s = .next (s.wr F.CUE_CTRL_RUN 0).settle := by
  intro s m h
  refine congrArg _ (store_reg h (by decide) (show _ = _ from congrArg (Prod.mk none) ?_))
  show s.cueCtrlWrite _ = _
  unfold State.cueCtrlWrite
  simp only [show (0#32).getLsbD 8 = false from rfl, show (0#32).getLsbD 0 = false from rfl, Bool.false_eq_true, if_false, Bool.false_and]
  rfl

theorem rd_zero_of_flag {s : State} (h : s.flag F.CUE_CTRL_RUN = false) : s.rd F.CUE_CTRL_RUN = 0 := by
  have := getBits_lt (s.reg A.CUE_CTRL) 0 0
  unfold State.flag at h
  rw [beq_eq_false_iff_ne] at h
  unfold State.rd at *
  simp only at *
  omega

theorem complete_cueClrCnt : ∀ (s : State) (m : Nat), s.mayWrite m A.CUE_CTRL = true → s.flag F.CUE_CTRL_RUN = false →
    exec (.cueClrCnt m) s = .next ((((s.setReg A.CUE_CNT_A 0).setReg A.CUE_CNT_B 0).setReg A.CUE_CNT_C 0).wr F.CUE_CTRL_RUN 0).settle := by
  intro s m h h1
  refine congrArg _ (store_reg h (by decide) (show _ = _ from congrArg (Prod.mk none) ?_))
  show s.cueCtrlWrite _ = _
  rw [rd_zero_of_flag h1]
  unfold State.cueCtrlWrite
  simp only [show (setBits (setBits 0#32 8 8 1) 0 0 0).getLsbD 8 = true from by decide, show (setBits (setBits 0#32 8 8 1) 0 0 0).getLsbD 0 = false from by decide,
    Bool.false_eq_true, if_false, Bool.false_and, if_true]
  rfl

end Sys2Proof.Machine
end

