-- ==== Sys2Proof/Laws/CompleteCurtain.lean ====
section
/-! SUPPORT. Completion lemmas: for each command of the Curtain, Refuge rows, the next state that `exec` answers, under
hypotheses on the state and the operands alone. One lemma per clause of the completion statements. -/

set_option maxRecDepth 8000

namespace Sys2Proof.Machine

theorem complete_curtainSourceAssert : ∀ (s : State) (id : Nat), 1 ≤ id → id < 14 → ¬(id = 6 ∧ s.boot.held = true) →
    exec (.curtainSourceAssert id) s = .next (s.curtainAssert id) := by
  intro s id h h1 h2
  exact congrArg _ (if_neg (by rintro (a | a | a) <;> [omega; omega; exact h2 a]))

theorem complete_curtainSourceClears : ∀ (s : State) (id : Nat), exec (.curtainSourceClears id) s = .next (s.wr ⟨A.CURTAIN_STAT, id, id⟩ 0) := by
  intro s id
  rfl

theorem complete_curtainZeroDone : ∀ (s u v : State) (c : CurEntry), s.armed .curtainZero = true → u = s.elapsed .curtainZero → u.curtain = some c →
    v = State.postU (State.irq { u with curtain := none } 134) (0xB000 + c.cause) 7 [c.cause, b2n c.z] →
    exec .curtainZeroDone s = .next (if c.withheld then v.postU 0xB103 6 [] else v) := by
  intro s u v c h hu h1 hv
  subst hu
  refine fire_next (k := State.curtainZeroDone) h ?_
  unfold State.curtainZeroDone
  rw [h1]
  subst hv
  rfl

theorem complete_junctionTempWarn : ∀ (s : State) (hot : Bool), s.live? = true →
    exec (.junctionTempWarn hot) s = .next ((s.wr (if hot then F.CURTAIN_WARN_HOT else F.CURTAIN_WARN_COLD) 1).irq 137) := by
  intro s hot h
  exact congrArg _ (if_pos h)

theorem complete_curtainCfgWrite : ∀ (s : State) (m : Nat) (w : Word), s.mayWrite m A.CURTAIN_CFG = true → s.flag F.CURTAIN_CFG_LOCKED = false →
    exec (.curtainCfgWrite m w) s = .next ((s.wr F.CURTAIN_CFG_CLASS ((getBits w 15 0 ||| 0xC01E) / 2 * 2)).wr F.CURTAIN_CFG_LOCKED 1).settle := by
  intro s m w h h1
  refine congrArg _ (store_reg h (by decide) (show _ = (none, _) from congrArg (Prod.mk none) (show s.curtainCfg w = _ from ?_)))
  unfold State.curtainCfg
  rw [if_neg (by rw [h1]; decide)]

theorem complete_unlockBodyCheck : ∀ (s : State) (body : List Byte) (agree : Bool), s.mode = .curtain → s.unlockReason body = none →
    exec (.unlockBodyCheck body agree) s = .next (State.settle (if agree then s.unlockAccept body else s.dtDisagree.unlockRefuse ulTWICE)) := by
  intro s body agree h h1
  refine congrArg (fun x => Host.Outcome.next (State.settle x)) ?_
  unfold State.unlockCheck
  rw [if_neg (by simp [h]), h1]
  dsimp only
  unfold State.twice
  cases agree
  · rw [if_neg (by decide), if_neg (by decide)]
  · rw [if_pos rfl, if_pos rfl]

theorem complete_unlockBlockExpiry : ∀ s : State, s.armed .unlockBlock = true →
    exec .unlockBlockExpiry s = .next ((s.elapsed .unlockBlock).wr F.CURTAIN_STAT_UNLOCK_BLOCKED 0) := by
  intro s h
  exact fire_next (k := State.unlockFree) h rfl

theorem complete_dtakeCntClear : ∀ (s : State) (m : Nat) (w : Word), s.mayWrite m A.DTAKE_CNT_A = true →
    exec (.dtakeCntClear m w) s = .next (s.setReg A.DTAKE_CNT_A 0).settle := by
  intro s m w h
  exact congrArg _ (store_reg h (by decide) rfl)

theorem complete_refugeLoopCheck : ∀ (s a b c : State) (l0 l1 mesh : Bool) (pos : Word) (vbat : Nat), a = s.refugeSee 0x21 (s.flag F.REFUGE_CFG_LOOP0_EN && l0) pos →
    b = a.refugeSee 0x22 (a.flag F.REFUGE_CFG_LOOP1_EN && l1) pos → c = b.refugeSee 0x23 mesh pos →
    exec (.refugeLoopCheck l0 l1 mesh pos vbat) s = .next (c.refugeSee 0x24 (decide (vbat < 2200)) (BitVec.ofNat 32 vbat)) := by
  intro s a b c l0 l1 mesh pos vbat ha hb hc
  subst ha
  subst hb
  subst hc
  rfl

theorem complete_refugeSupplySwitch : ∀ s : State, exec .refugeSupplySwitch s = .next { s with refuge.onCell := !s.power } := by
  intro s
  rfl

theorem complete_cellRemoved : ∀ (s : State) (mv : Nat), (s.power = true → exec (.cellRemoved mv) s = .next (((s.cellLevel 0).logEntry 0x30 (BitVec.ofNat 32 mv)).irq 141)) ∧
    (s.power = false → exec (.cellRemoved mv) s = .next s.refugeLose) := by
  intro s mv
  show (_ → Host.Outcome.next (s.cellRemoved mv) = _) ∧ (_ → Host.Outcome.next (s.cellRemoved mv) = _)
  refine ⟨fun a => ?_, fun a => ?_⟩
  · unfold State.cellRemoved
    rw [if_pos a]
  · unfold State.cellRemoved
    rw [if_neg (by rw [a]; decide)]

theorem complete_cellInserted : ∀ (s : State) (mv : Nat), exec (.cellInserted mv) s =
    .next (if (s.cellLevel mv).power then ((s.cellLevel mv).logEntry 0x31 (BitVec.ofNat 32 mv)).irq 141 else s.cellLevel mv) := by
  intro s mv
  rfl

theorem complete_vbatLow : ∀ (s : State) (mv : Nat), mv < 2600 → exec (.vbatLow mv) s = .next (if (s.cellLevel mv).power then
      ((((s.cellLevel mv).wr F.CURTAIN_WARN_VBAT_LOW 1).irq 137).irq 140).logEntry 0x34 (BitVec.ofNat 32 mv) else s.cellLevel mv) := by
  intro s mv h
  refine congrArg _ (show s.vbatLow mv = _ from ?_)
  unfold State.vbatLow
  rw [if_pos h]

theorem complete_refugeRtcSet : ∀ (s : State) (m : Nat) (w : Word), s.mayWrite m A.REFUGE_RTC_SET = true → exec (.refugeRtcSet m w) s =
    .next (State.irq (State.logFree { s.wr F.REFUGE_STAT_RTC_OK 1 with refuge.rtc := w.toNat * 32768, refuge.rtcAt := s.now } 0x32) 143).settle := by
  intro s m w h
  exact congrArg _ (store_reg h (by decide) rfl)

theorem complete_refugeLoopEnable : ∀ (s : State) (m : Nat) (w : Word), s.mayWrite m A.REFUGE_CFG = true → exec (.refugeLoopEnable m w) s =
    .next (s.setReg A.REFUGE_CFG (s.reg A.REFUGE_CFG ||| (w &&& 0xC0000000#32))).settle := by
  intro s m w h
  exact congrArg _ (store_reg h (by decide) rfl)

theorem complete_logMarkCopied : ∀ (s : State) (m i : Nat), i < 16 → s.mayWrite m A.REFUGE_LOG_SEL = true →
    exec (.logMarkCopied m i) s = .next ((s.setReg A.REFUGE_LOG_SEL (BitVec.ofNat 32 (2 ^ 31 + i))).markCopied i).settle := by
  intro s m i hi h
  refine congrArg _ (store_reg h (by decide) (show _ = _ from congrArg (Prod.mk none) ?_))
  show s.logSel _ = _
  unfold State.logSel
  rw [getLsbD_ofNat32 _ _ (by omega), getBits_ofNat32 _ _ _ (by omega), show (2 ^ 31 + i) / 2 ^ 0 % 2 ^ (3 + 1 - 0) = i by omega]
  exact if_pos (by simp; omega)

theorem cellLevel_power (s : State) (mv : Nat) : (s.cellLevel mv).power = s.power := by
  unfold State.cellLevel
  rw [State.wr_power, State.wr_power]

theorem complete_refugePowerLoss : ∀ s : State, s.power = false → ∀ u : State,
    u = (((((s.cellLevel 0).zeroShare.wr F.REFUGE_STAT_LATCH 0).wr F.REFUGE_STAT_RTC_OK 0).wr F.REFUGE_STAT_LOST 1).wr F.REFUGE_STAT_TOTAL 0).setReg A.REFUGE_CFG 0 →
    exec .refugePowerLoss s = .next (State.logShow { u with
      refuge := Refuge.mk none [] 0 u.now [] false true u.refuge.onCell }) := by
  intro s h u hu
  show Host.Outcome.next s.refugeLose = _
  have hp : (s.cellLevel 0).power = false := (cellLevel_power s 0).trans h
  unfold State.refugeLose
  dsimp only
  rw [if_neg (by rw [hp]; decide), ← hu]

end Sys2Proof.Machine
end

