-- ==== Sys2Proof/Laws/CompleteFrame.lean ====
section
/-! SUPPORT. Completion lemmas: for each command of the FrameAndTime rows, the next state that `exec` answers, under
hypotheses on the state and the operands alone. One lemma per clause of the completion statements. -/

set_option maxRecDepth 8000

namespace Sys2Proof.Machine

theorem complete_registerWrite : ∀ (s t : State) (m a : Nat) (w : Word), s.mayWrite m a = true → 0x40000000 ≤ a → a < 0x401E0000 → a % 4 = 0 →
    ¬(packerIn 0 ≤ a ∧ a < packerIn 48) → s.regWrite m a w = (none, t) → exec (.registerWrite m a w) s = .next t.settle := by
  intro s t m a w h h1 h2 h3 h4 hw
  exact congrArg _ (store_reg h (isReg_iff.2 ⟨⟨h1, h2⟩, h3, h4⟩) hw)

theorem complete_commitGo : ∀ (s : State) (m b when_ c : Nat), b < 13 → when_ < 3 → c < 16384 → s.mayWrite m (A.BLOCK_COMMIT (pairedBase b)) = true →
    s.pendingIn (pairedBase b) = false → s.goOk (pairedBase b) when_ c = true →
    exec (.commitGo m b when_ c) s = .next (s.goPend (pairedBase b) when_ c).settle := by
  intro s m b w c hb hw hc h hp hg
  refine congrArg _ (store_reg h (isReg_commit hb) ?_)
  rw [regWrite_commit hb]
  unfold State.blockCommit
  rw [getLsbD_ofNat32 _ _ (by omega), getLsbD_ofNat32 _ _ (by omega), getLsbD_ofNat32 _ _ (by omega), getBits_ofNat32 _ _ _ (by omega), getBits_ofNat32 _ _ _ (by omega)]
  rw [if_pos (by simp; omega), if_neg (by simp; omega), if_neg (by simp; omega)]
  rw [show (2 ^ 31 + w * 2 ^ 28 + c) / 2 ^ 28 % 2 ^ (29 + 1 - 28) = w by omega, show (2 ^ 31 + w * 2 ^ 28 + c) / 2 ^ 0 % 2 ^ (13 + 1 - 0) = c by omega]
  unfold State.blockGo
  rw [if_neg]
  simp [hp, hg]; omega

theorem complete_commitAbort : ∀ (s : State) (m b : Nat), b < 13 → s.mayWrite m (A.BLOCK_COMMIT (pairedBase b)) = true →
    exec (.commitAbort m b) s = .next (s.blockAbort (pairedBase b)).settle := by
  intro s m b hb h
  refine congrArg _ (store_reg h (isReg_commit hb) ((regWrite_commit hb).trans (congrArg _ ?_)))
  unfold State.blockCommit
  rw [getLsbD_ofNat32 _ _ (by omega), getLsbD_ofNat32 _ _ (by omega), getLsbD_ofNat32 _ _ (by omega)]
  rw [if_neg (by decide), if_pos (by decide), if_neg (by decide)]

theorem complete_commitClrcnt : ∀ (s : State) (m b : Nat), b < 13 → s.mayWrite m (A.BLOCK_COMMIT (pairedBase b)) = true →
    exec (.commitClrcnt m b) s = .next (s.setReg (A.BLOCK_REFUSED (pairedBase b)) 0).settle := by
  intro s m b hb h
  refine congrArg _ (store_reg h (isReg_commit hb) ((regWrite_commit hb).trans (congrArg _ ?_)))
  unfold State.blockCommit
  rw [getLsbD_ofNat32 _ _ (by omega), getLsbD_ofNat32 _ _ (by omega), getLsbD_ofNat32 _ _ (by omega)]
  rw [if_neg (by decide), if_neg (by decide), if_pos (by decide)]

theorem complete_commitApply : ∀ (s : State) (b : Nat), b < 13 → s.pendingIn (pairedBase b) = true → (s.pendWhen (pairedBase b)).1 = 0 →
    s.opUnderWay (pairedBase b) = false → s.dueRefused (pairedBase b) = false →
    exec (.commitApply b) s = .next ((((s.unpend (pairedBase b)).blockApply (pairedBase b)).wrap (F.BLOCK_COMMIT_STATUS_APPLIED (pairedBase b))).pairBreak) := by
  intro s b hb h1 h2 h3 h4
  show Host.Outcome.next (s.commitDue (pairedBase b)) = _
  congr 1
  unfold State.commitDue
  rw [if_pos (by simp [h1, h2, h3])]
  show ([pairedBase b].foldl State.commitBlock s).pairBreak = _
  rw [List.foldl_cons, List.foldl_nil]
  unfold State.commitBlock
  rw [if_neg (by simp [h1]), if_neg (by simp [h4])]

theorem complete_modeReqGo : ∀ (s : State) (m t : Nat), t < 6 → s.mayWrite m A.SYS_MODE_REQ = true → s.requestOk (Mode.ofCode t) = true →
    exec (.modeReqGo m t) s = .next (State.settle { s.wr F.SYS_MODE_REQ_REFUSED 0 with modeReq := some (Mode.ofCode t) }) := by
  intro s m t ht h hr
  refine congrArg _ (store_reg h (by decide) (show _ = _ from congrArg (Prod.mk none) ?_))
  show s.modeReqWrite _ = _
  unfold State.modeReqWrite
  interval_cases t <;> (rw [if_neg (by decide)]; exact if_neg (by rintro (h | h); (exact absurd h (by decide)); (rw [Bool.not_eq_true'] at h; exact absurd (hr.symm.trans h) (by decide))))

theorem complete_lcAdvWrite : ∀ (s : State) (m : Nat) (w : Word), s.mayWrite m A.SYS_LC_ADV = true → getBits w 31 16 = 0x4C43 → s.lcOk (getBits w 2 0) = true →
    s.flag F.SYS_LC_STAT_BUSY = false →
    exec (.lcAdvWrite m w) s = .next (State.arm { s.wr F.SYS_LC_STAT_BUSY 1 with lcTarget := getBits w 2 0 } .lcProgram (2 * ticksPerMs)).settle := by
  intro s m w h h1 h2 h3
  refine congrArg _ (store_reg h (by decide) (show _ = _ from congrArg (Prod.mk none) ?_))
  exact if_pos ⟨h1, h2, by rw [h3]; rfl⟩

theorem complete_lcProgramDone : ∀ s : State, s.armed .lcProgram = true → exec .lcProgramDone s = .next (s.elapsed .lcProgram).lcDone := by
  intro s h
  exact congrArg _ (if_pos h)

theorem complete_stimeNowRead : ∀ (s : State) (m : Nat), s.mayRead m A.STIME_NOW_LO = true →
    exec (.stimeNowRead m) s = .next (State.settle { s with
      stime.nowHi := latchHi s.stime.nowHi m (BitVec.ofNat 32 (s.now / 2 ^ 32)), rdata := BitVec.ofNat 64 (BitVec.ofNat 32 s.now).toNat }) := by
  intro s m h
  exact congrArg _ (load_reg h (by decide) rfl)

theorem complete_stimeFrameRead : ∀ (s : State) (m : Nat), s.mayRead m A.STIME_FRAME_LO = true →
    exec (.stimeFrameRead m) s = .next (State.settle { s with
      stime.frameHi := latchHi s.stime.frameHi m s.frameHi, rdata := BitVec.ofNat 64 (BitVec.ofNat 32 s.frame).toNat }) := by
  intro s m h
  exact congrArg _ (load_reg h (by decide) rfl)

theorem complete_stimeCoarseRead : ∀ (s : State) (m : Nat), s.mayRead m A.STIME_COARSE_LO = true →
    exec (.stimeCoarseRead m) s = .next (State.settle { s with
      stime.coarseHi := latchHi s.stime.coarseHi m (s.reg A.STIME_COARSE_HI), rdata := BitVec.ofNat 64 (s.reg A.STIME_COARSE_LO).toNat }) := by
  intro s m h
  exact congrArg _ (load_reg h (by decide) rfl)

theorem complete_servoLossTimeout : ∀ s : State, s.armed .servoLoss = true → (s.elapsed .servoLoss).servo = servoLOCKED ∨ (s.elapsed .servoLoss).servo = servoACQUIRE →
    exec .servoLossTimeout s = .next { (s.elapsed .servoLoss).servoGo servoHOLDOVER with stime.ptpSeen := 0 } := by
  intro s h h1
  exact congrArg _ ((if_pos h).trans (if_pos h1))

theorem complete_holdLimitExpiry : ∀ s : State, s.armed .holdLimit = true → (s.elapsed .holdLimit).unsynced = false → (s.elapsed .holdLimit).unsyncedRule = true →
    exec .holdLimitExpiry s = .next (((s.elapsed .holdLimit).wr F.SYS_STATE_UNSYNCED 1).irq 28) := by
  intro s h h1 h2
  show Host.Outcome.next (s.fire .holdLimit State.refreshUnsynced) = _
  unfold State.fire
  rw [if_pos h]
  show Host.Outcome.next (State.refreshUnsynced (s.elapsed .holdLimit)) = _
  generalize s.elapsed .holdLimit = u at *
  unfold State.refreshUnsynced
  rw [h1, h2, if_neg (by decide)]
  rfl

theorem complete_servoSrcSwitch : ∀ s : State, s.rd F.STIME_CTRL_SRC = 3 →
    (s.stime.switchDue = true → s.servo = servoHOLDOVER → ∀ u : State, u = s.reachST s.nextMark →
      exec .servoSrcSwitch s = .next (State.post { u.wr F.STIME_STATE_SRC_ACTIVE srcIRIG with stime.ptpSeen := 0, stime.switchDue := false } 0x2004 4 17 [srcIRIG])) ∧
    (s.stime.switchDue = false → s.rd F.STIME_STATE_SRC_ACTIVE = srcIRIG → s.ptpBack = true →
      exec .servoSrcSwitch s = .next ((s.wr F.STIME_STATE_SRC_ACTIVE srcPTP).post 0x2004 4 17 [srcPTP])) := by
  intro s h
  constructor
  · intro h1 h2 u hu
    have e : s.servoSwitch = (s.reachST s.nextMark).irigMark := (if_pos h).trans (if_pos (by rw [h1, h2]; decide))
    refine congrArg _ (e.trans ?_)
    obtain ⟨r, t⟩ : u.regs = s.regs ∧ u.stime = s.stime := by
      rw [hu]
      unfold State.reachST
      split <;> exact ⟨rfl, rfl⟩
    rw [← hu]
    unfold State.irigMark
    rw [if_pos]
    unfold State.servo State.rd State.reg at *
    rw [t, r, h1, h2, h]
    decide
  · intro h1 h2 h3
    exact congrArg _ ((if_pos h).trans ((if_neg (by rw [h1, Bool.false_and]; decide)).trans (if_pos ⟨h2, h3⟩)))

theorem complete_stepGo : ∀ (s : State) (m : Nat), s.mayWrite m A.STIME_CTRL = true → s.mode ≠ .lead → s.mode ≠ .understudy → s.rd F.STIME_CTRL_SRC ≠ 0 →
    exec (.stepGo m) s = .next (((s.wr F.STIME_CTRL_FREE_OK (s.rd F.STIME_CTRL_FREE_OK)).wr F.STIME_CTRL_SRC (s.rd F.STIME_CTRL_SRC)).wr
      F.STIME_STATE_STEP_PENDING 1).settle := by
  intro s m h h1 h2 h3
  refine congrArg _ (store_reg h (by decide) (show _ = _ from congrArg (Prod.mk none) ?_))
  show s.stimeCtrlWrite _ = _
  unfold State.stimeCtrlWrite
  rw [getBits_setBits_of_disjoint _ _ _ _ _ _ (by omega) (by omega) (by omega), getBits_setBits_of_disjoint _ _ _ _ _ _ (by omega) (by omega) (by omega),
    getLsbD_setBits _ _ _ _ _ (by omega) (by omega)]
  have e : ¬ getBits (s.reg A.STIME_CTRL) 1 0 = 0 := h3
  simp only [if_neg e, Nat.le_refl, and_self, if_true, Nat.sub_self, Nat.testBit_zero]
  rw [if_pos (by decide), if_neg]
  · rfl
  · rw [Bool.or_eq_true, beq_iff_eq, beq_iff_eq, mode_wr (by decide), mode_wr (by decide)]
    exact fun h => h.elim h1 h2

theorem carry_fields (s : State) (b : Nat) : ((s.carryOver b).reachST b).regs = s.regs ∧ ((s.carryOver b).reachST b).us = s.us ∧ ((s.carryOver b).reachST b).modeReq = s.modeReq
    ∧ ((s.carryOver b).reachST b).live = s.live ∧ ((s.carryOver b).reachST b).troupe = s.troupe := by
  unfold State.carryOver State.reachST
  split <;> split <;> exact ⟨rfl, rfl, rfl, rfl, rfl⟩

theorem quiet_steps {u : State} {n : Nat} {agree : Bool} (h2 : u.us.ho = 0) (h3 : u.us.dualDue = false) (h4 : u.modeReq = none) (ht : u.troupe.interval = none) (np : u.nothingPends = true)
    (f : u.flag F.STIME_STATE_STEP_PENDING = false) : u.modeStep n agree = u ∧ u.gridStep = u ∧ u.commitFrame = u := by
  refine ⟨?_, ?_, ?_⟩
  · unfold State.modeStep State.modeDue State.intervalAt
    rw [h2, h3, h4, ht]
    simp
  · have st : u.stepTime = u := by
      unfold State.stepTime
      rw [if_neg (by rw [f]; decide)]
    unfold State.gridStep
    simp only [st, waitingFor_of_nothingPends np]
    rfl
  · unfold State.commitFrame
    rw [waitingFor_of_nothingPends np]
    exact commitAll_nil np

theorem complete_frameBoundary : ∀ (s : State) (agree : Bool), s.timeRuns = true → s.us.ho = 0 → s.us.dualDue = false → s.modeReq = none → s.troupe.interval = none → 0 ≤ s.stime.gridN + 1 →
    s.nothingPends = true → s.flag F.STIME_STATE_STEP_PENDING = false →
    exec (.frameBoundary agree) s = .next
      ((((((s.carryOver s.nextBoundary.toNat).reachST s.nextBoundary.toNat).keyBoundary (s.stime.gridN + 1).toNat).newFrame (s.stime.gridN + 1)).afterBoundary).settle) := by
  intro s agree h1 h2 h3 h4 ht h5 h6 h7
  show Host.Outcome.next ((s.boundary agree).afterBoundary).settle = _
  congr 3
  unfold State.boundary
  rw [if_neg (by rw [h1]; decide)]
  obtain ⟨e1, e2, e3, e4, e5⟩ := carry_fields s s.nextBoundary.toNat
  obtain ⟨m, g, c⟩ := quiet_steps (u := (s.carryOver s.nextBoundary.toNat).reachST s.nextBoundary.toNat) (n := (s.stime.gridN + 1).toNat) (agree := agree)
    (by rw [e2]; exact h2) (by rw [e2]; exact h3) (by rw [e3]; exact h4) (by rw [e5]; exact ht)
    (by unfold State.nothingPends State.pendingIn State.flag State.rd State.reg at *; rw [e1]; exact h6)
    (by unfold State.flag State.rd State.reg at *; rw [e1]; exact h7)
  simp only [m, g, c, bne_self_eq_false, Bool.or_self, Bool.false_eq_true, if_false, if_pos h5]

end Sys2Proof.Machine
end

