-- ==== Sys2Proof/Laws/CompleteHost.lean ====
section
/-! SUPPORT. Completion lemmas: for each command of the HostLink, Service rows, the next state that `exec` answers, under
hypotheses on the state and the operands alone. One lemma per clause of the completion statements. -/

set_option maxRecDepth 8000

namespace Sys2Proof.Machine

theorem complete_readStatus : ∀ s : State, s.hostOn = true → exec .readStatus s = .next { s.send chanHost 0x05 (beBytes 4 s.hostStatus.toNat) with
    rdata := zext32 s.hostStatus, desk.err := false } := by
  intro s h
  show Host.Outcome.next s.hostReadStatus = _
  unfold State.hostReadStatus
  rw [if_neg (by simp [h])]

theorem hostWrite_ok {s : State} {p : List Byte} (quad : Bool) (h : s.live? = true) (h1 : s.boot.auxLost = false) (hq : quad = true → s.flag F.HOST_CFG_QUAD_EN = true)
    (h2 : s.rxReady = true) (h3 : 16 ≤ p.length) (h4 : byteAt p 0 = 1) :
    (p.length ≠ 16 + beAt p 6 2 + 16 * b2n (bit (byteAt p 1) 6) → s.hostWrite quad p = s.hostErr.packet false p 0) ∧
    (p.length = 16 + beAt p 6 2 + 16 * b2n (bit (byteAt p 1) 6) → s.hostWrite quad p = ((s.wrap F.HOST_CNT_PACKETS).irq 172).packet false p p.length) := by
  unfold State.hostWrite
  rw [if_neg (by cases quad <;> simp [h, h1, hq]), if_neg (by simp only [h2, h4, Bool.not_true, Bool.false_or, bne_self_eq_false, Bool.or_false, decide_eq_true_eq]; omega)]
  exact ⟨fun a => if_pos a, fun a => if_neg (by simp [a])⟩

theorem complete_write : ∀ (s : State) (p : List Byte), s.live? = true → s.boot.auxLost = false → s.rxReady = true → 16 ≤ p.length → byteAt p 0 = 1 →
    (p.length ≠ 16 + beAt p 6 2 + 16 * b2n (bit (byteAt p 1) 6) → exec (.write p) s = .next (s.hostErr.packet false p 0)) ∧
    (p.length = 16 + beAt p 6 2 + 16 * b2n (bit (byteAt p 1) 6) →
      exec (.write p) s = .next (((s.wrap F.HOST_CNT_PACKETS).irq 172).packet false p p.length)) := by
  intro s p h h1 h2 h3 h4
  have e := hostWrite_ok false h h1 (by simp) h2 h3 h4
  exact ⟨fun a => congrArg _ (e.1 a), fun a => congrArg _ (e.2 a)⟩

theorem complete_qwrite : ∀ (s : State) (p : List Byte), s.live? = true → s.boot.auxLost = false → s.flag F.HOST_CFG_QUAD_EN = true → s.rxReady = true → 16 ≤ p.length →
    byteAt p 0 = 1 → (p.length ≠ 16 + beAt p 6 2 + 16 * b2n (bit (byteAt p 1) 6) → exec (.qwrite p) s = .next (s.hostErr.packet false p 0)) ∧
    (p.length = 16 + beAt p 6 2 + 16 * b2n (bit (byteAt p 1) 6) →
      exec (.qwrite p) s = .next (((s.wrap F.HOST_CNT_PACKETS).irq 172).packet false p p.length)) := by
  intro s p h h1 hq h2 h3 h4
  have e := hostWrite_ok true h h1 (fun _ => hq) h2 h3 h4
  exact ⟨fun a => congrArg _ (e.1 a), fun a => congrArg _ (e.2 a)⟩

theorem hostRead_eq {s u v : State} {n op : Nat} {b : List Byte} {t : List (List Byte)} (quad : Bool) (ho : op = if quad then 0x6B else 0x03) (h : s.hostOn = true)
    (hq : quad = true → s.flag F.HOST_CFG_QUAD_EN = true) (h1 : s.desk.out = b :: t) (hu : u = s.send chanHost op (padTo n b)) (hv : v = State.fillOut { u with desk.out := t }) :
    (n < b.length → s.hostRead quad n = u) ∧
    (b.length ≤ n → s.hostRead quad n = if 16384 ≤ outFill u.desk.out ∧ outFill v.desk.out < 16384 then v.irq 173 else v) := by
  unfold State.hostRead
  rw [if_neg (by cases quad <;> simp [h, hq]), h1]
  dsimp only at hv ⊢
  rw [← ho, ← hu, ← hv]
  exact ⟨fun a => if_pos a, fun a => if_neg (by omega)⟩

theorem hostRead_none {s : State} {n op : Nat} (quad : Bool) (ho : op = if quad then 0x6B else 0x03) (h : s.hostOn = true)
    (hq : quad = true → s.flag F.HOST_CFG_QUAD_EN = true) (h1 : s.desk.out = []) : s.hostRead quad n = s.send chanHost op (List.replicate n 0#8) := by
  unfold State.hostRead
  rw [if_neg (by cases quad <;> simp [h, hq]), h1, ho]

theorem complete_readEmpty : ∀ (s : State) (n : Nat), s.hostOn = true → s.desk.out = [] → exec (.read n) s = .next (s.send chanHost 0x03 (List.replicate n 0#8)) := by
  intro s n h h1
  exact congrArg _ (hostRead_none false rfl h (by simp) h1)

theorem complete_read : ∀ (s u v : State) (n : Nat) (b : List Byte) (t : List (List Byte)), s.hostOn = true → s.desk.out = b :: t →
    u = s.send chanHost 0x03 (padTo n b) → v = State.fillOut { u with desk.out := t } → (n < b.length → exec (.read n) s = .next u) ∧
    (b.length ≤ n → exec (.read n) s = .next (if 16384 ≤ outFill u.desk.out ∧ outFill v.desk.out < 16384 then v.irq 173 else v)) := by
  intro s u v n b t h h1 hu hv
  have e := hostRead_eq false rfl h (by simp) h1 hu hv
  exact ⟨fun a => congrArg _ (e.1 a), fun a => congrArg _ (e.2 a)⟩

theorem complete_qreadEmpty : ∀ (s : State) (n : Nat), s.hostOn = true → s.flag F.HOST_CFG_QUAD_EN = true → s.desk.out = [] →
    exec (.qread n) s = .next (s.send chanHost 0x6B (List.replicate n 0#8)) := by
  intro s n h hq h1
  exact congrArg _ (hostRead_none true rfl h (fun _ => hq) h1)

theorem complete_qread : ∀ (s u v : State) (n : Nat) (b : List Byte) (t : List (List Byte)), s.hostOn = true → s.flag F.HOST_CFG_QUAD_EN = true → s.desk.out = b :: t →
    u = s.send chanHost 0x6B (padTo n b) → v = State.fillOut { u with desk.out := t } → (n < b.length → exec (.qread n) s = .next u) ∧
    (b.length ≤ n → exec (.qread n) s = .next (if 16384 ≤ outFill u.desk.out ∧ outFill v.desk.out < 16384 then v.irq 173 else v)) := by
  intro s u v n b t h hq h1 hu hv
  have e := hostRead_eq true rfl h (fun _ => hq) h1 hu hv
  exact ⟨fun a => congrArg _ (e.1 a), fun a => congrArg _ (e.2 a)⟩

theorem complete_hostCntClear : ∀ (s : State) (m : Nat) (w : Word), s.mayWrite m A.HOST_CNT = true →
    exec (.hostCntClear m w) s = .next (s.setReg A.HOST_CNT 0).settle := by
  intro s m w h
  exact congrArg _ (store_reg h (by decide) rfl)

theorem complete_commandExecStart : ∀ (s : State) (g i st : Nat) (c : Cmd) (x : Option Sess), s.svcWaits = false → (s.desk.cmds.any fun c => opGroup c.op == g && c.phase == 1) = false →
    ((List.range s.desk.cmds.length).find? fun i => s.desk.cmds[i]?.any fun c => opGroup c.op == g && c.phase == 0) = some i → s.desk.cmds[i]? = some c →
    x = (if c.sess < 8 then s.sess c.sess else none) →
    st = ((opFind c.op).map fun r => if !s.rightsOk r x then scDENIED else if !s.modeOk r c.body then scWRONG_MODE else scOK).getD scBAD_OPCODE →
    (st ≠ scOK → exec (.commandExecStart g) s = .next ((s.dropCmd i).answer c st [])) ∧
    (st = scOK → exec (.commandExecStart g) s = .next { s with desk.cmds := setNth s.desk.cmds i { c with phase := 1, size := 0 } }) := by
  intro s g i st c x h h1 h2 h3 hx hs
  have e : exec (.commandExecStart g) s = .next (if st ≠ scOK then (s.dropCmd i).answer c st [] else { s with desk.cmds := setNth s.desk.cmds i { c with phase := 1, size := 0 } }) := by
    show Host.Outcome.next (s.startCmd g) = _
    unfold State.startCmd
    rw [if_neg (by simp only [h, h1]; decide), h2]
    dsimp only
    rw [h3]
    dsimp only
    rw [← hx]
    cases q : opFind c.op with
    | none =>
      rw [q] at hs
      dsimp only [Option.map_none, Option.getD_none] at hs
      subst hs
      rfl
    | some r =>
      rw [q] at hs
      dsimp only [Option.map_some, Option.getD_some] at hs
      subst hs
      rfl
  rw [e]
  exact ⟨fun a => congrArg _ (if_pos a), fun a => congrArg _ (if_neg (by simp [a]))⟩

theorem complete_commandFinalReply : ∀ (s u : State) (i : Nat) (ok agree : Bool) (c : Cmd) (r : Ans), s.desk.cmds[i]? = some c → c.phase = 2 →
    (s.dropCmd i).finalOf c ok agree = some (r, u) → exec (.commandFinalReply i ok agree) s = .next (u.conclude i c r).settle := by
  intro s u i ok agree c r h h1 h2
  show Host.Outcome.next (s.finalReply i ok agree).settle = _
  unfold State.finalReply
  rw [h]
  dsimp only
  rw [if_neg (by simp [h1]), h2]

theorem closeSess_eq {s : State} {n : Nat} {x : Sess} (h : s.sess n = some x) : ∀ u : State, u = ((s.setSess n none).disarm (.sessPending n)).disarm (.sessIdle n) →
    s.closeSess n = { u with desk.cmds := (u.desk.cmds.filter fun c => !(c.sess == n && c.phase == 0)).map fun c => if c.sess = n then { c with mute := true } else c } := by
  intro u hu
  unfold State.closeSess
  rw [h]
  dsimp only
  rw [← hu]

theorem complete_sessionPendingTimeout : ∀ (s u : State) (n : Nat) (x : Sess), s.armed (.sessPending n) = true → (s.elapsed (.sessPending n)).sess n = some x →
    u = (((s.elapsed (.sessPending n)).setSess n none).disarm (.sessPending n)).disarm (.sessIdle n) → exec (.sessionPendingTimeout n) s = .next { u with
      desk.cmds := (u.desk.cmds.filter fun c => !(c.sess == n && c.phase == 0)).map fun c => if c.sess = n then { c with mute := true } else c } := by
  intro s u n x h h1 hu
  exact fire_next (k := fun s => s.pendingOver n) h (closeSess_eq h1 u hu)

theorem complete_sessionIdleTimeout : ∀ (s u : State) (n : Nat) (x : Sess), s.armed (.sessIdle n) = true → (s.elapsed (.sessIdle n)).sess n = some x →
    u = (((s.elapsed (.sessIdle n)).setSess n none).disarm (.sessPending n)).disarm (.sessIdle n) → exec (.sessionIdleTimeout n) s = .next { u with
      desk.cmds := (u.desk.cmds.filter fun c => !(c.sess == n && c.phase == 0)).map fun c => if c.sess = n then { c with mute := true } else c } := by
  intro s u n x h h1 hu
  exact fire_next (k := fun s => s.idleOver n) h (closeSess_eq h1 u hu)

theorem svcRun_eq {s : State} {svc : Nat} {f : State → SvcReq → (Nat × Nat) × State} {r : SvcReq} (h : s.svcHead = some r) (hk : svcKnown r.svc = true) (h1 : r.svc = svc)
    (h2 : (0x8000 ≤ r.svc) = (r.origin = 8)) : ∀ (st len : Nat) (u : State), f s r = ((st, len), u) → s.svcRun svc f = u.svcDone r st len := by
  intro st len u e
  unfold State.svcRun
  rw [h]
  dsimp only
  rw [if_neg (by rw [hk]; decide), if_neg (by simp [h1]), if_neg (by simp [h2]), e]

theorem complete_note : ∀ (s u : State) (r : SvcReq) (b : List Byte), s.svcHead = some r → r.svc = 1 → r.origin ≠ 8 → r.inLen ≤ 16 → s.svcIn r = (some b, u) →
    exec .note s = .next ((u.post (0xE000 + leAt r.args 0 2 % 4096) (min 5 (byteAt r.args 2 % 8)) r.origin
      ((List.range 4).map fun k => leAt (padTo 16 b) (4 * k) 4)).svcDone r scOK 0) := by
  intro s u r b h h1 h2 h3 h4
  show Host.Outcome.next s.svcNote = _
  unfold State.svcNote
  refine congrArg _ (svcRun_eq h (by rw [h1]; decide) h1 (by simp [h1, h2]) _ _ _ ?_)
  rw [if_neg (by omega), h4]

theorem complete_sign : ∀ (s u : State) (r : SvcReq) (b : List Byte), s.svcHead = some r → r.svc = 2 → r.origin ≠ 8 → r.inLen ≤ 65536 → s.svcIn r = (some b, u) →
    ∀ (st len : Nat) (v : State), ((match s.customerKey r.key with
      | none => ((scDENIED, 0), s)
      | some k => u.next.svcOut r (Config.customerSign k b u.draw)) : (Nat × Nat) × State) = ((st, len), v) →
    exec .sign s = .next (v.svcDone r st len) := by
  intro s u r b h h1 h2 h3 h5 st len v h6
  show Host.Outcome.next s.svcSign = _
  unfold State.svcSign
  refine congrArg _ (svcRun_eq h (by rw [h1]; decide) h1 (by simp [h1, h2]) _ _ _ ?_)
  rw [if_neg (by omega), ← h6]
  cases s.customerKey r.key with
  | none => rfl
  | some k => dsimp only; rw [h5]

theorem complete_verify : ∀ (s u : State) (r : SvcReq) (b : List Byte) (agree : Bool), s.svcHead = some r → r.svc = 3 → r.origin ≠ 8 → s.svcIn r = (some b, u) →
    exec (.verify agree) s = .next (State.settle ((u.twice agree).2.svcDone r (if agree && Config.listedVerifies u.cfg r.key b then scOK else scVERIFY_FAIL) 0)) := by
  intro s u r b agree h h1 h2 h3
  show Host.Outcome.next (s.svcVerify agree).settle = _
  unfold State.svcVerify
  refine congrArg (fun x => Host.Outcome.next (State.settle x)) (svcRun_eq h (by rw [h1]; decide) h1 (by simp [h1, h2]) _ _ _ ?_)
  rw [h3]
  dsimp only
  have e : (u.twice agree).1 = agree := by cases agree <;> rfl
  rw [e]

theorem complete_store : ∀ (s u : State) (r : SvcReq) (b : List Byte), s.svcHead = some r → r.svc = 4 → r.origin ≠ 8 → s.svcIn r = (some b, u) →
    (exec (.store false) s = .next (u.svcDone r scSTORAGE_FAIL 0)) ∧
    (∀ g : Nat, g = ((fileOf u.desk.files (Config.actFile (r.args.take 16))).map fun f => f.gen + 1).getD 1 → exec (.store true) s = .next (State.svcDone { u with
      desk.files := (u.desk.files.filter fun f => f.name != Config.actFile (r.args.take 16)) ++ [VFile.mk (Config.actFile (r.args.take 16)) g b true] } r scOK 0)) := by
  intro s u r b h h1 h2 h3
  constructor
  · show Host.Outcome.next (s.svcStore false) = _
    unfold State.svcStore
    refine congrArg _ (svcRun_eq h (by rw [h1]; decide) h1 (by simp [h1, h2]) _ _ _ ?_)
    rw [h3]
    rfl
  · intro g hg
    show Host.Outcome.next (s.svcStore true) = _
    unfold State.svcStore
    refine congrArg _ (svcRun_eq h (by rw [h1]; decide) h1 (by simp [h1, h2]) _ _ _ ?_)
    rw [h3]
    dsimp only
    rw [if_neg (by decide), hg]
    cases fileOf u.desk.files (Config.actFile (r.args.take 16)) <;> rfl

theorem complete_load : ∀ (s : State) (r : SvcReq) (f : VFile), s.svcHead = some r → r.svc = 5 → r.origin ≠ 8 → fileOf s.desk.files (Config.actFile (r.args.take 16)) = some f →
    ∀ (st len : Nat) (u : State), s.svcOut r f.data = ((st, len), u) → exec .load s = .next (u.svcDone r st len) := by
  intro s r f h h1 h2 h3 st len u h4
  show Host.Outcome.next s.svcLoad = _
  unfold State.svcLoad
  refine congrArg _ (svcRun_eq h (by rw [h1]; decide) h1 (by simp [h1, h2]) _ _ _ ?_)
  rw [h3]
  exact h4

theorem complete_feed : ∀ (s : State) (r : SvcReq), s.svcHead = some r → r.svc = 0x8001 → r.origin = 8 →
    exec .feed s = .next ((s.put8 A.UNDERSTUDY_CTRL 0x80000000#32).svcDone r scOK 0) := by
  intro s r h h1 h2
  show Host.Outcome.next s.svcFeed = _
  unfold State.svcFeed
  exact congrArg _ (svcRun_eq h (by rw [h1]; decide) h1 (by simp [h1, h2]) _ _ _ rfl)

theorem complete_patrol : ∀ (s : State) (r : SvcReq), s.svcHead = some r → r.svc = 0x8002 → r.origin = 8 →
    (s.brk.patrol = [] → exec .patrol s = .next (s.svcDone r scOK 0)) ∧
    (∀ (b blk bits : Nat) (rest : List (Nat × Nat × Nat)), s.brk.patrol = (b, blk, bits) :: rest → ∀ (st : Nat) (u : State),
      (s.patrolPop.2).brkIssue 8 opREFRESH (bedBase b + blk * blockLen b) [] = (st, u) →
      exec .patrol s = .next (u.svcDone r (if st = scACCEPTED then scOK else st) 0)) := by
  intro s r h h1 h2
  constructor
  · intro h3
    show Host.Outcome.next s.svcPatrol = _
    unfold State.svcPatrol
    refine congrArg _ (svcRun_eq h (by rw [h1]; decide) h1 (by simp [h1, h2]) _ _ _ ?_)
    rw [h3]
  · intro b blk bits rest h3 st u h4
    show Host.Outcome.next s.svcPatrol = _
    unfold State.svcPatrol
    refine congrArg _ (svcRun_eq h (by rw [h1]; decide) h1 (by simp [h1, h2]) _ _ _ ?_)
    rw [h3]
    dsimp only
    rw [h4]

theorem complete_rtcSync : ∀ (s : State) (r : SvcReq), s.svcHead = some r → r.svc = 0x8003 → r.origin = 8 →
    (s.unsynced = true → exec .rtcSync s = .next (s.svcDone r scBUSY 0)) ∧
    (s.unsynced = false → exec .rtcSync s = .next ((s.put8 A.REFUGE_RTC_SET s.seconds).svcDone r scOK 0)) := by
  intro s r h h1 h2
  constructor
  · intro h3
    show Host.Outcome.next s.svcRtc = _
    unfold State.svcRtc
    refine congrArg _ (svcRun_eq h (by rw [h1]; decide) h1 (by simp [h1, h2]) _ _ _ ?_)
    rw [if_pos h3]
  · intro h3
    show Host.Outcome.next s.svcRtc = _
    unfold State.svcRtc
    refine congrArg _ (svcRun_eq h (by rw [h1]; decide) h1 (by simp [h1, h2]) _ _ _ ?_)
    rw [if_neg (by rw [h3]; decide)]

end Sys2Proof.Machine
end

