-- ==== Sys2Proof/Laws/CompleteMassif.lean ====
section
/-! SUPPORT. Completion lemmas: for each command of the MassifOperation, MassifPostQuantumAndKey, MassifQueue, Scree rows, the next state that `exec` answers, under
hypotheses on the state and the operands alone. One lemma per clause of the completion statements. -/

set_option maxRecDepth 8000

namespace Sys2Proof.Machine

theorem massifRun_eq {s : State} {ops : List Nat} {c : Nat} {inv parity agree : Bool} {j : MJob} (h : s.runningClass ops = some c) (h1 : s.mrunning c = some j) :
    (parity = true → s.massifRun ops inv parity agree = ((s.irq 126).post 0xA006 6 10 [j.op, j.req]).setMRunning c (some { j with status := some mFAULT })) ∧
    (parity = false → isVerify j.op = true → j.twice = true → agree = false →
      s.massifRun ops inv parity agree = ((s.sat F.MASSIF_CNT_DT_DISAGREE).irq 126).dtDisagree.setMRunning c (some { j with status := some mFAULT })) ∧
    (parity = false → (isVerify j.op && j.twice && !agree) = false → ∀ (st : Nat) (v : Bool) (u : State), s.massifCompute j inv = ((st, v), u) →
      s.massifRun ops inv parity agree = u.setMRunning c (some { j with status := some st, valid := v })) := by
  unfold State.massifRun
  rw [h]
  dsimp -zeta only
  rw [h1]
  dsimp -zeta only
  refine ⟨fun a => if_pos a, fun a b d e => (if_neg (by simp [a])).trans (if_pos (by simp [b, d, e])), fun a b st v u e => ?_⟩
  rw [if_neg (by simp [a]), if_neg (by simp [b]), e]

theorem massif_plain {s : State} {ops : List Nat} {c : Nat} {agree : Bool} {j : MJob} (h : s.runningClass ops = some c) (h1 : s.mrunning c = some j)
    (hv : ops.all (fun o => !isVerify o) = true) : (isVerify j.op && j.twice && !agree) = false := by
  have e := List.find?_some h
  rw [h1] at e
  simp only [Bool.and_eq_true, List.contains_iff_mem] at e
  have := List.all_eq_true.1 hv _ e.2.1
  cases hj : isVerify j.op <;> simp_all

theorem complete_hashOps : ∀ (s : State) (inv parity agree : Bool) (c : Nat) (j : MJob), s.runningClass [1, 2, 3, 4, 5, 6, 7] = some c → s.mrunning c = some j →
    (parity = true → exec (.hashOps inv parity agree) s = .next (((s.irq 126).post 0xA006 6 10 [j.op, j.req]).setMRunning c (some { j with status := some mFAULT })).settle) ∧
    (parity = false → ∀ (st : Nat) (v : Bool) (u : State), s.massifCompute j inv = ((st, v), u) →
      exec (.hashOps inv parity agree) s = .next (u.setMRunning c (some { j with status := some st, valid := v })).settle) := by
  intro s inv parity agree c j h h1
  have e := massifRun_eq (inv := inv) (parity := parity) (agree := agree) h h1
  exact ⟨fun a => congrArg (fun x => Host.Outcome.next (State.settle x)) (e.1 a),
    fun a st v u f => congrArg (fun x => Host.Outcome.next (State.settle x)) (e.2.2 a (massif_plain h h1 (by decide)) st v u f)⟩

theorem complete_hmacSha256 : ∀ (s : State) (inv parity agree : Bool) (c : Nat) (j : MJob), s.runningClass [8] = some c → s.mrunning c = some j →
    (parity = true → exec (.hmacSha256 inv parity agree) s = .next (((s.irq 126).post 0xA006 6 10 [j.op, j.req]).setMRunning c (some { j with status := some mFAULT })).settle) ∧
    (parity = false → ∀ (st : Nat) (v : Bool) (u : State), s.massifCompute j inv = ((st, v), u) →
      exec (.hmacSha256 inv parity agree) s = .next (u.setMRunning c (some { j with status := some st, valid := v })).settle) := by
  intro s inv parity agree c j h h1
  have e := massifRun_eq (inv := inv) (parity := parity) (agree := agree) h h1
  exact ⟨fun a => congrArg (fun x => Host.Outcome.next (State.settle x)) (e.1 a),
    fun a st v u f => congrArg (fun x => Host.Outcome.next (State.settle x)) (e.2.2 a (massif_plain h h1 (by decide)) st v u f)⟩

theorem complete_ecdsaP256 : ∀ (s : State) (inv parity agree : Bool) (c : Nat) (j : MJob), s.runningClass [0x10, 0x11] = some c → s.mrunning c = some j →
    (parity = true → exec (.ecdsaP256 inv parity agree) s = .next (((s.irq 126).post 0xA006 6 10 [j.op, j.req]).setMRunning c (some { j with status := some mFAULT })).settle) ∧
    (parity = false → isVerify j.op = true → j.twice = true → agree = false → exec (.ecdsaP256 inv parity agree) s =
      .next (((s.sat F.MASSIF_CNT_DT_DISAGREE).irq 126).dtDisagree.setMRunning c (some { j with status := some mFAULT })).settle) ∧
    (parity = false → (isVerify j.op && j.twice && !agree) = false → ∀ (st : Nat) (v : Bool) (u : State), s.massifCompute j inv = ((st, v), u) →
      exec (.ecdsaP256 inv parity agree) s = .next (u.setMRunning c (some { j with status := some st, valid := v })).settle) := by
  intro s inv parity agree c j h h1
  have e := massifRun_eq (inv := inv) (parity := parity) (agree := agree) h h1
  exact ⟨fun a => congrArg (fun x => Host.Outcome.next (State.settle x)) (e.1 a), fun a b d f => congrArg (fun x => Host.Outcome.next (State.settle x)) (e.2.1 a b d f),
    fun a b st v u f => congrArg (fun x => Host.Outcome.next (State.settle x)) (e.2.2 a b st v u f)⟩

theorem complete_ecdsaP384 : ∀ (s : State) (inv parity agree : Bool) (c : Nat) (j : MJob), s.runningClass [0x12, 0x13] = some c → s.mrunning c = some j →
    (parity = true → exec (.ecdsaP384 inv parity agree) s = .next (((s.irq 126).post 0xA006 6 10 [j.op, j.req]).setMRunning c (some { j with status := some mFAULT })).settle) ∧
    (parity = false → isVerify j.op = true → j.twice = true → agree = false → exec (.ecdsaP384 inv parity agree) s =
      .next (((s.sat F.MASSIF_CNT_DT_DISAGREE).irq 126).dtDisagree.setMRunning c (some { j with status := some mFAULT })).settle) ∧
    (parity = false → (isVerify j.op && j.twice && !agree) = false → ∀ (st : Nat) (v : Bool) (u : State), s.massifCompute j inv = ((st, v), u) →
      exec (.ecdsaP384 inv parity agree) s = .next (u.setMRunning c (some { j with status := some st, valid := v })).settle) := by
  intro s inv parity agree c j h h1
  have e := massifRun_eq (inv := inv) (parity := parity) (agree := agree) h h1
  exact ⟨fun a => congrArg (fun x => Host.Outcome.next (State.settle x)) (e.1 a), fun a b d f => congrArg (fun x => Host.Outcome.next (State.settle x)) (e.2.1 a b d f),
    fun a b st v u f => congrArg (fun x => Host.Outcome.next (State.settle x)) (e.2.2 a b st v u f)⟩

theorem complete_ed25519 : ∀ (s : State) (inv parity agree : Bool) (c : Nat) (j : MJob), s.runningClass [0x14, 0x15] = some c → s.mrunning c = some j →
    (parity = true → exec (.ed25519 inv parity agree) s = .next (((s.irq 126).post 0xA006 6 10 [j.op, j.req]).setMRunning c (some { j with status := some mFAULT })).settle) ∧
    (parity = false → isVerify j.op = true → j.twice = true → agree = false → exec (.ed25519 inv parity agree) s =
      .next (((s.sat F.MASSIF_CNT_DT_DISAGREE).irq 126).dtDisagree.setMRunning c (some { j with status := some mFAULT })).settle) ∧
    (parity = false → (isVerify j.op && j.twice && !agree) = false → ∀ (st : Nat) (v : Bool) (u : State), s.massifCompute j inv = ((st, v), u) →
      exec (.ed25519 inv parity agree) s = .next (u.setMRunning c (some { j with status := some st, valid := v })).settle) := by
  intro s inv parity agree c j h h1
  have e := massifRun_eq (inv := inv) (parity := parity) (agree := agree) h h1
  exact ⟨fun a => congrArg (fun x => Host.Outcome.next (State.settle x)) (e.1 a), fun a b d f => congrArg (fun x => Host.Outcome.next (State.settle x)) (e.2.1 a b d f),
    fun a b st v u f => congrArg (fun x => Host.Outcome.next (State.settle x)) (e.2.2 a b st v u f)⟩

theorem complete_ecdh : ∀ (s : State) (inv parity agree : Bool) (c : Nat) (j : MJob), s.runningClass [0x16, 0x17] = some c → s.mrunning c = some j →
    (parity = true → exec (.ecdh inv parity agree) s = .next (((s.irq 126).post 0xA006 6 10 [j.op, j.req]).setMRunning c (some { j with status := some mFAULT })).settle) ∧
    (parity = false → ∀ (st : Nat) (v : Bool) (u : State), s.massifCompute j inv = ((st, v), u) →
      exec (.ecdh inv parity agree) s = .next (u.setMRunning c (some { j with status := some st, valid := v })).settle) := by
  intro s inv parity agree c j h h1
  have e := massifRun_eq (inv := inv) (parity := parity) (agree := agree) h h1
  exact ⟨fun a => congrArg (fun x => Host.Outcome.next (State.settle x)) (e.1 a),
    fun a st v u f => congrArg (fun x => Host.Outcome.next (State.settle x)) (e.2.2 a (massif_plain h h1 (by decide)) st v u f)⟩

theorem complete_p256Keygen : ∀ (s : State) (inv parity agree : Bool) (c : Nat) (j : MJob), s.runningClass [0x18] = some c → s.mrunning c = some j →
    (parity = true → exec (.p256Keygen inv parity agree) s = .next (((s.irq 126).post 0xA006 6 10 [j.op, j.req]).setMRunning c (some { j with status := some mFAULT })).settle) ∧
    (parity = false → ∀ (st : Nat) (v : Bool) (u : State), s.massifCompute j inv = ((st, v), u) →
      exec (.p256Keygen inv parity agree) s = .next (u.setMRunning c (some { j with status := some st, valid := v })).settle) := by
  intro s inv parity agree c j h h1
  have e := massifRun_eq (inv := inv) (parity := parity) (agree := agree) h h1
  exact ⟨fun a => congrArg (fun x => Host.Outcome.next (State.settle x)) (e.1 a),
    fun a st v u f => congrArg (fun x => Host.Outcome.next (State.settle x)) (e.2.2 a (massif_plain h h1 (by decide)) st v u f)⟩

theorem complete_mlKem768 : ∀ (s : State) (inv parity agree : Bool) (c : Nat) (j : MJob), s.runningClass [0x20, 0x21, 0x22] = some c → s.mrunning c = some j →
    (parity = true → exec (.mlKem768 inv parity agree) s = .next (((s.irq 126).post 0xA006 6 10 [j.op, j.req]).setMRunning c (some { j with status := some mFAULT })).settle) ∧
    (parity = false → ∀ (st : Nat) (v : Bool) (u : State), s.massifCompute j inv = ((st, v), u) →
      exec (.mlKem768 inv parity agree) s = .next (u.setMRunning c (some { j with status := some st, valid := v })).settle) := by
  intro s inv parity agree c j h h1
  have e := massifRun_eq (inv := inv) (parity := parity) (agree := agree) h h1
  exact ⟨fun a => congrArg (fun x => Host.Outcome.next (State.settle x)) (e.1 a),
    fun a st v u f => congrArg (fun x => Host.Outcome.next (State.settle x)) (e.2.2 a (massif_plain h h1 (by decide)) st v u f)⟩

theorem complete_mlKem1024 : ∀ (s : State) (inv parity agree : Bool) (c : Nat) (j : MJob), s.runningClass [0x23, 0x24, 0x25] = some c → s.mrunning c = some j →
    (parity = true → exec (.mlKem1024 inv parity agree) s = .next (((s.irq 126).post 0xA006 6 10 [j.op, j.req]).setMRunning c (some { j with status := some mFAULT })).settle) ∧
    (parity = false → ∀ (st : Nat) (v : Bool) (u : State), s.massifCompute j inv = ((st, v), u) →
      exec (.mlKem1024 inv parity agree) s = .next (u.setMRunning c (some { j with status := some st, valid := v })).settle) := by
  intro s inv parity agree c j h h1
  have e := massifRun_eq (inv := inv) (parity := parity) (agree := agree) h h1
  exact ⟨fun a => congrArg (fun x => Host.Outcome.next (State.settle x)) (e.1 a),
    fun a st v u f => congrArg (fun x => Host.Outcome.next (State.settle x)) (e.2.2 a (massif_plain h h1 (by decide)) st v u f)⟩

theorem complete_mlDsa65 : ∀ (s : State) (inv parity agree : Bool) (c : Nat) (j : MJob), s.runningClass [0x28, 0x29, 0x2A] = some c → s.mrunning c = some j →
    (parity = true → exec (.mlDsa65 inv parity agree) s = .next (((s.irq 126).post 0xA006 6 10 [j.op, j.req]).setMRunning c (some { j with status := some mFAULT })).settle) ∧
    (parity = false → isVerify j.op = true → j.twice = true → agree = false → exec (.mlDsa65 inv parity agree) s =
      .next (((s.sat F.MASSIF_CNT_DT_DISAGREE).irq 126).dtDisagree.setMRunning c (some { j with status := some mFAULT })).settle) ∧
    (parity = false → (isVerify j.op && j.twice && !agree) = false → ∀ (st : Nat) (v : Bool) (u : State), s.massifCompute j inv = ((st, v), u) →
      exec (.mlDsa65 inv parity agree) s = .next (u.setMRunning c (some { j with status := some st, valid := v })).settle) := by
  intro s inv parity agree c j h h1
  have e := massifRun_eq (inv := inv) (parity := parity) (agree := agree) h h1
  exact ⟨fun a => congrArg (fun x => Host.Outcome.next (State.settle x)) (e.1 a), fun a b d f => congrArg (fun x => Host.Outcome.next (State.settle x)) (e.2.1 a b d f),
    fun a b st v u f => congrArg (fun x => Host.Outcome.next (State.settle x)) (e.2.2 a b st v u f)⟩

theorem complete_mlDsa87 : ∀ (s : State) (inv parity agree : Bool) (c : Nat) (j : MJob), s.runningClass [0x2B, 0x2C, 0x2D] = some c → s.mrunning c = some j →
    (parity = true → exec (.mlDsa87 inv parity agree) s = .next (((s.irq 126).post 0xA006 6 10 [j.op, j.req]).setMRunning c (some { j with status := some mFAULT })).settle) ∧
    (parity = false → isVerify j.op = true → j.twice = true → agree = false → exec (.mlDsa87 inv parity agree) s =
      .next (((s.sat F.MASSIF_CNT_DT_DISAGREE).irq 126).dtDisagree.setMRunning c (some { j with status := some mFAULT })).settle) ∧
    (parity = false → (isVerify j.op && j.twice && !agree) = false → ∀ (st : Nat) (v : Bool) (u : State), s.massifCompute j inv = ((st, v), u) →
      exec (.mlDsa87 inv parity agree) s = .next (u.setMRunning c (some { j with status := some st, valid := v })).settle) := by
  intro s inv parity agree c j h h1
  have e := massifRun_eq (inv := inv) (parity := parity) (agree := agree) h h1
  exact ⟨fun a => congrArg (fun x => Host.Outcome.next (State.settle x)) (e.1 a), fun a b d f => congrArg (fun x => Host.Outcome.next (State.settle x)) (e.2.1 a b d f),
    fun a b st v u f => congrArg (fun x => Host.Outcome.next (State.settle x)) (e.2.2 a b st v u f)⟩

theorem complete_rsaVerify : ∀ (s : State) (inv parity agree : Bool) (c : Nat) (j : MJob), s.runningClass [0x30] = some c → s.mrunning c = some j →
    (parity = true → exec (.rsaVerify inv parity agree) s = .next (((s.irq 126).post 0xA006 6 10 [j.op, j.req]).setMRunning c (some { j with status := some mFAULT })).settle) ∧
    (parity = false → isVerify j.op = true → j.twice = true → agree = false → exec (.rsaVerify inv parity agree) s =
      .next (((s.sat F.MASSIF_CNT_DT_DISAGREE).irq 126).dtDisagree.setMRunning c (some { j with status := some mFAULT })).settle) ∧
    (parity = false → (isVerify j.op && j.twice && !agree) = false → ∀ (st : Nat) (v : Bool) (u : State), s.massifCompute j inv = ((st, v), u) →
      exec (.rsaVerify inv parity agree) s = .next (u.setMRunning c (some { j with status := some st, valid := v })).settle) := by
  intro s inv parity agree c j h h1
  have e := massifRun_eq (inv := inv) (parity := parity) (agree := agree) h h1
  exact ⟨fun a => congrArg (fun x => Host.Outcome.next (State.settle x)) (e.1 a), fun a b d f => congrArg (fun x => Host.Outcome.next (State.settle x)) (e.2.1 a b d f),
    fun a b st v u f => congrArg (fun x => Host.Outcome.next (State.settle x)) (e.2.2 a b st v u f)⟩

theorem complete_rsaPrivate : ∀ (s : State) (inv parity agree : Bool) (c : Nat) (j : MJob), s.runningClass [0x31] = some c → s.mrunning c = some j →
    (parity = true → exec (.rsaPrivate inv parity agree) s = .next (((s.irq 126).post 0xA006 6 10 [j.op, j.req]).setMRunning c (some { j with status := some mFAULT })).settle) ∧
    (parity = false → ∀ (st : Nat) (v : Bool) (u : State), s.massifCompute j inv = ((st, v), u) →
      exec (.rsaPrivate inv parity agree) s = .next (u.setMRunning c (some { j with status := some st, valid := v })).settle) := by
  intro s inv parity agree c j h h1
  have e := massifRun_eq (inv := inv) (parity := parity) (agree := agree) h h1
  exact ⟨fun a => congrArg (fun x => Host.Outcome.next (State.settle x)) (e.1 a),
    fun a st v u f => congrArg (fun x => Host.Outcome.next (State.settle x)) (e.2.2 a (massif_plain h h1 (by decide)) st v u f)⟩

theorem complete_modexp : ∀ (s : State) (inv parity agree : Bool) (c : Nat) (j : MJob), s.runningClass [0x32] = some c → s.mrunning c = some j →
    (parity = true → exec (.modexp inv parity agree) s = .next (((s.irq 126).post 0xA006 6 10 [j.op, j.req]).setMRunning c (some { j with status := some mFAULT })).settle) ∧
    (parity = false → ∀ (st : Nat) (v : Bool) (u : State), s.massifCompute j inv = ((st, v), u) →
      exec (.modexp inv parity agree) s = .next (u.setMRunning c (some { j with status := some st, valid := v })).settle) := by
  intro s inv parity agree c j h h1
  have e := massifRun_eq (inv := inv) (parity := parity) (agree := agree) h h1
  exact ⟨fun a => congrArg (fun x => Host.Outcome.next (State.settle x)) (e.1 a),
    fun a st v u f => congrArg (fun x => Host.Outcome.next (State.settle x)) (e.2.2 a (massif_plain h h1 (by decide)) st v u f)⟩

theorem complete_lmsXmssVerify : ∀ (s : State) (inv parity agree : Bool) (c : Nat) (j : MJob), s.runningClass [0x38, 0x39] = some c → s.mrunning c = some j →
    (parity = true → exec (.lmsXmssVerify inv parity agree) s = .next (((s.irq 126).post 0xA006 6 10 [j.op, j.req]).setMRunning c (some { j with status := some mFAULT })).settle) ∧
    (parity = false → isVerify j.op = true → j.twice = true → agree = false → exec (.lmsXmssVerify inv parity agree) s =
      .next (((s.sat F.MASSIF_CNT_DT_DISAGREE).irq 126).dtDisagree.setMRunning c (some { j with status := some mFAULT })).settle) ∧
    (parity = false → (isVerify j.op && j.twice && !agree) = false → ∀ (st : Nat) (v : Bool) (u : State), s.massifCompute j inv = ((st, v), u) →
      exec (.lmsXmssVerify inv parity agree) s = .next (u.setMRunning c (some { j with status := some st, valid := v })).settle) := by
  intro s inv parity agree c j h h1
  have e := massifRun_eq (inv := inv) (parity := parity) (agree := agree) h h1
  exact ⟨fun a => congrArg (fun x => Host.Outcome.next (State.settle x)) (e.1 a), fun a b d f => congrArg (fun x => Host.Outcome.next (State.settle x)) (e.2.1 a b d f),
    fun a b st v u f => congrArg (fun x => Host.Outcome.next (State.settle x)) (e.2.2 a b st v u f)⟩

theorem complete_deriveKey : ∀ (s : State) (inv parity agree : Bool) (c : Nat) (j : MJob), s.runningClass [0x40] = some c → s.mrunning c = some j →
    (parity = true → exec (.deriveKey inv parity agree) s = .next (((s.irq 126).post 0xA006 6 10 [j.op, j.req]).setMRunning c (some { j with status := some mFAULT })).settle) ∧
    (parity = false → ∀ (st : Nat) (v : Bool) (u : State), s.massifCompute j inv = ((st, v), u) →
      exec (.deriveKey inv parity agree) s = .next (u.setMRunning c (some { j with status := some st, valid := v })).settle) := by
  intro s inv parity agree c j h h1
  have e := massifRun_eq (inv := inv) (parity := parity) (agree := agree) h h1
  exact ⟨fun a => congrArg (fun x => Host.Outcome.next (State.settle x)) (e.1 a),
    fun a st v u f => congrArg (fun x => Host.Outcome.next (State.settle x)) (e.2.2 a (massif_plain h h1 (by decide)) st v u f)⟩

theorem complete_combine : ∀ (s : State) (inv parity agree : Bool) (c : Nat) (j : MJob), s.runningClass [0x41] = some c → s.mrunning c = some j →
    (parity = true → exec (.combine inv parity agree) s = .next (((s.irq 126).post 0xA006 6 10 [j.op, j.req]).setMRunning c (some { j with status := some mFAULT })).settle) ∧
    (parity = false → ∀ (st : Nat) (v : Bool) (u : State), s.massifCompute j inv = ((st, v), u) →
      exec (.combine inv parity agree) s = .next (u.setMRunning c (some { j with status := some st, valid := v })).settle) := by
  intro s inv parity agree c j h h1
  have e := massifRun_eq (inv := inv) (parity := parity) (agree := agree) h h1
  exact ⟨fun a => congrArg (fun x => Host.Outcome.next (State.settle x)) (e.1 a),
    fun a st v u f => congrArg (fun x => Host.Outcome.next (State.settle x)) (e.2.2 a (massif_plain h h1 (by decide)) st v u f)⟩

theorem complete_importKey : ∀ (s : State) (inv parity agree : Bool) (c : Nat) (j : MJob), s.runningClass [0x42] = some c → s.mrunning c = some j →
    (parity = true → exec (.importKey inv parity agree) s = .next (((s.irq 126).post 0xA006 6 10 [j.op, j.req]).setMRunning c (some { j with status := some mFAULT })).settle) ∧
    (parity = false → ∀ (st : Nat) (v : Bool) (u : State), s.massifCompute j inv = ((st, v), u) →
      exec (.importKey inv parity agree) s = .next (u.setMRunning c (some { j with status := some st, valid := v })).settle) := by
  intro s inv parity agree c j h h1
  have e := massifRun_eq (inv := inv) (parity := parity) (agree := agree) h h1
  exact ⟨fun a => congrArg (fun x => Host.Outcome.next (State.settle x)) (e.1 a),
    fun a st v u f => congrArg (fun x => Host.Outcome.next (State.settle x)) (e.2.2 a (massif_plain h h1 (by decide)) st v u f)⟩

theorem complete_massifErase : ∀ (s : State) (inv parity agree : Bool) (c : Nat) (j : MJob), s.runningClass [0x43] = some c → s.mrunning c = some j →
    (parity = true → exec (.massifErase inv parity agree) s = .next (((s.irq 126).post 0xA006 6 10 [j.op, j.req]).setMRunning c (some { j with status := some mFAULT })).settle) ∧
    (parity = false → ∀ (st : Nat) (v : Bool) (u : State), s.massifCompute j inv = ((st, v), u) →
      exec (.massifErase inv parity agree) s = .next (u.setMRunning c (some { j with status := some st, valid := v })).settle) := by
  intro s inv parity agree c j h h1
  have e := massifRun_eq (inv := inv) (parity := parity) (agree := agree) h h1
  exact ⟨fun a => congrArg (fun x => Host.Outcome.next (State.settle x)) (e.1 a),
    fun a st v u f => congrArg (fun x => Host.Outcome.next (State.settle x)) (e.2.2 a (massif_plain h h1 (by decide)) st v u f)⟩

theorem complete_publicKey : ∀ (s : State) (inv parity agree : Bool) (c : Nat) (j : MJob), s.runningClass [0x44] = some c → s.mrunning c = some j →
    (parity = true → exec (.publicKey inv parity agree) s = .next (((s.irq 126).post 0xA006 6 10 [j.op, j.req]).setMRunning c (some { j with status := some mFAULT })).settle) ∧
    (parity = false → ∀ (st : Nat) (v : Bool) (u : State), s.massifCompute j inv = ((st, v), u) →
      exec (.publicKey inv parity agree) s = .next (u.setMRunning c (some { j with status := some st, valid := v })).settle) := by
  intro s inv parity agree c j h h1
  have e := massifRun_eq (inv := inv) (parity := parity) (agree := agree) h h1
  exact ⟨fun a => congrArg (fun x => Host.Outcome.next (State.settle x)) (e.1 a),
    fun a st v u f => congrArg (fun x => Host.Outcome.next (State.settle x)) (e.2.2 a (massif_plain h h1 (by decide)) st v u f)⟩

theorem complete_cmSeedDraw : ∀ (s u : State), s.live? = true → u = s.reachST (s.scree.cmAt + ticksPerMs / 1000) →
    (u.flag F.SCREE_STAT_FAILED = true → exec .cmSeedDraw s = .next (u.wr F.SCREE_STAT_CM_STALE 1)) ∧
    (u.flag F.SCREE_STAT_FAILED = false → (u.drbg 0).live = true →
      exec .cmSeedDraw s = .next ((List.range 12).foldl (fun s _ => s.cmSeed) { u with scree.cm := [], scree.cmAt := u.now })) := by
  intro s u h hu
  have e : exec .cmSeedDraw s = .next s.cmSeedDraw := congrArg _ (if_pos h)
  rw [e]
  unfold State.cmSeedDraw
  dsimp only
  rw [← hu]
  constructor
  · intro h1
    rw [if_pos h1]
  · intro h1 h2
    rw [if_neg (by rw [h1]; decide), if_neg (by rw [h2]; decide)]

theorem complete_massifJobStart : ∀ (s a b : State) (c : Nat) (agree : Bool) (j : MJob) (rest : List MJob), s.mrunning c = none → s.mqueue c = j :: rest →
    (c = cLONG → s.mrunning cSHORT = none) →
    a = (s.setMQueue c rest).enterPart c j →
    b = (if c = cSHORT ∧ (a.mrunning cLONG).isSome then { a with massif.yielded := true } else a) → ∀ (st : Option Nat) (u : State), b.massifGate j agree = (st, u) →
    exec (.massifJobStart c agree) s = .next (u.setMRunning c (some { j with
      status := st, key := (if j.keyref = 0 then [] else u.mbytes j.keyref), key2 := if j.op = 0x41 then u.mbytes j.dkey else [] })).settle := by
  intro s a b c agree j rest h h1 h2 ha hb st u hg
  refine congrArg (fun x => Host.Outcome.next (State.settle x)) (show s.massifStart c agree = _ from ?_)
  unfold State.massifStart
  rw [h, h1]
  dsimp only at ha hb ⊢
  rw [if_neg (by rintro ⟨x, y⟩; rw [h2 x] at y; exact absurd y (by decide)), ← ha, ← hb, hg]

theorem complete_longJobResume : ∀ s : State, s.massif.yielded = true → (s.mqueue cSHORT).isEmpty = true → s.mrunning cSHORT = none →
    exec .longJobResume s = .next (State.massifShow { s with massif.yielded := false }) := by
  intro s h h1 h2
  show Host.Outcome.next s.longResume = _
  unfold State.longResume
  rw [if_pos (by rw [h, h1, h2]; rfl)]

theorem complete_massifJobDone : ∀ (s : State) (c st : Nat) (j : MJob), s.mrunning c = some j → j.status = some st →
    exec (.massifJobDone c) s = .next ((s.setMRunning c none).massifEnd j st j.valid) := by
  intro s c st j h h1
  refine congrArg _ (show s.massifDone c = _ from ?_)
  unfold State.massifDone
  rw [h]
  dsimp -zeta only
  rw [h1]

theorem complete_massifCntClear : ∀ (s : State) (m : Nat) (w : Word), s.mayWrite m A.MASSIF_CNT = true →
    exec (.massifCntClear m w) s = .next (s.setReg A.MASSIF_CNT 0).settle := by
  intro s m w h
  exact congrArg _ (store_reg h (by decide) rfl)

theorem complete_screeInst : ∀ (s : State) (m : Nat), s.mayWrite m A.SCREE_CTRL = true →
    exec (.screeInst m) s = .next ((s.wr F.SCREE_STAT_INSTANTIATED 1).takeSeed 1 true).settle := by
  intro s m h
  refine congrArg _ (store_reg h (by decide) (show _ = _ from congrArg (Prod.mk none) ?_))
  show s.screeCtrl _ = _
  unfold State.screeCtrl
  simp [show ∀ i, (BitVec.twoPow 32 31).getLsbD i = decide (31 = i) from by intro i; rw [BitVec.getLsbD_twoPow]; simp]

theorem complete_screeReseed : ∀ (s : State) (m : Nat), s.mayWrite m A.SCREE_CTRL = true → s.flag F.SCREE_STAT_FAILED = false →
    exec (.screeReseed m) s = .next ((s.seedInstance 0).seedInstance 1).settle := by
  intro s m h h1
  refine congrArg _ (store_reg h (by decide) (show _ = _ from congrArg (Prod.mk none) ?_))
  show s.screeCtrl _ = _
  unfold State.screeCtrl
  simp [show ∀ i, (BitVec.twoPow 32 30).getLsbD i = decide (30 = i) from by intro i; rw [BitVec.getLsbD_twoPow]; simp, h1]

theorem complete_screeClrCnt : ∀ (s : State) (m : Nat), s.mayWrite m A.SCREE_CTRL = true → exec (.screeClrCnt m) s = .next (s.setReg A.SCREE_CNT 0).settle := by
  intro s m h
  exact congrArg _ (store_reg h (by decide) rfl)

theorem complete_screeStartupDone : ∀ (s u : State) (k : Nat), s.live? = true → s.scree.starting.contains k = true →
    u = State.screeJudge (State.setSource { s with scree.starting := s.scree.starting.filter (· != k) } k true) →
    exec (.screeStartupDone k) s = .next (State.settle (if !(u.drbg 0).live && decide (u.rd F.SCREE_HEALTH_MIN_SRC ≤ u.healthyCount) && !u.flag F.SCREE_STAT_FAILED then u.seedInstance 0 else u)) := by
  intro s u k h h1 hu
  subst hu
  exact congrArg (fun x => Host.Outcome.next (State.settle x)) ((if_pos h).trans (if_pos h1))

theorem complete_sourceHealthFail : ∀ (s a b : State) (k n : Nat) (apt : Bool), s.live? = true → s.sourceIdle k = false →
    n = look (fun _ => 0) s.scree.fails k + 1 →
    a = { s with scree.fails := put (fun _ => 0) s.scree.fails k n, scree.starting := s.scree.starting.filter (· != k) } →
    b = ((a.setSource k false).sat (if apt then F.SCREE_CNT_APT_FAIL else F.SCREE_CNT_RCT_FAIL)).irq 128 →
    exec (.sourceHealthFail k apt) s = .next (State.screeJudge (if 3 ≤ n then (b.wr ⟨A.SCREE_STAT, 8 + k % 8, 8 + k % 8⟩ 1).disarm (.screeRetest k)
      else b.arm (.screeRetest k) retestTicks)).settle := by
  intro s a b k n apt h h1 hn ha hb
  refine congrArg (fun x => Host.Outcome.next (State.settle x)) ((if_pos h).trans ?_)
  show s.sourceFail k apt = _
  unfold State.sourceFail
  rw [if_neg (by rw [h1]; decide)]
  dsimp only at ha ⊢
  rw [← hn, ← ha, ← hb]

theorem complete_sourceRetest : ∀ (s : State) (k : Nat), s.armed (.screeRetest k) = true →
    exec (.sourceRetest k) s = .next ((s.elapsed (.screeRetest k)).setSource k true).screeJudge.settle := by
  intro s k h
  show Host.Outcome.next (State.settle (s.sourceRetest k)) = _
  unfold State.sourceRetest
  rw [fire_armed h]

theorem complete_drbgReseed : ∀ (s u : State) (i : Nat), s.live? = true →
    u = (if (i == 1 && decide (2 ^ s.rd F.SCREE_DRBG_RESEED_REQ ≤ s.scree.requests)) = true then s
      else s.reachST (look (fun _ => 0) s.scree.seeded i + s.reseedTicks i)) → u.flag F.SCREE_STAT_FAILED = false →
    exec (.drbgReseed i) s = .next (u.seedInstance i) := by
  intro s u i h hu h1
  refine congrArg _ ((if_pos h).trans ?_)
  show s.drbgReseed i = _
  unfold State.drbgReseed
  dsimp only
  rw [← hu, if_neg (by rw [h1]; decide)]

theorem complete_screeRandRead : ∀ (s u : State) (m : Nat) (b : List Byte), s.mayRead m A.SCREE_RAND = true → s.entropyOk = true → s.drbgServe 4 false = (b, u) →
    exec (.screeRandRead m) s = .next (State.settle { u with rdata := BitVec.ofNat 64 (BitVec.ofNat 32 (leNat b)).toNat }) := by
  intro s u m b h h1 h2
  refine congrArg _ (load_reg h (by decide) (show s.screeRand = _ from ?_))
  unfold State.screeRand
  rw [if_pos h1, h2]

theorem complete_screeTestData : ∀ (s u : State) (m : Nat) (w : Word), s.mayWrite m A.SCREE_TEST_DATA = true → s.flag F.SCREE_TEST_EN = true →
    u = State.testHealth { s with scree.test := s.scree.test ++ [w] } w →
    (u.scree.owed = [] → exec (.screeTestData m w) s = .next u.settle) ∧
    (∀ (i : Nat) (anew : Bool) (rest : List (Nat × Bool)), u.scree.owed = (i, anew) :: rest →
      exec (.screeTestData m w) s = .next (State.settle (if u.scree.test.length < 18 then u else u.takeSeed i anew))) := by
  intro s u m w h h1 hu
  have e : exec (.screeTestData m w) s = .next (State.settle (match u.scree.owed with
      | (i, anew) :: _ => if u.scree.test.length < 18 then u else u.takeSeed i anew
      | [] => u)) := by
    refine congrArg _ (store_reg h (by decide) (show _ = _ from congrArg (Prod.mk none) ?_))
    show s.screeTestData w = _
    unfold State.screeTestData
    rw [if_pos h1, ← hu]
    all_goals rfl
  rw [e]
  exact ⟨fun h2 => by rw [h2], fun i anew rest h2 => by rw [h2]⟩

end Sys2Proof.Machine
end

