-- ==== Sys2Proof/Laws/CompleteMemory.lean ====
section
/-! SUPPORT. Completion lemmas: for each command of the TerraceAndCol rows, the next state that `exec` answers, under
hypotheses on the state and the operands alone. One lemma per clause of the completion statements. -/

set_option maxRecDepth 8000

namespace Sys2Proof.Machine

theorem complete_bankWakeDone : ∀ (s : State) (n : Nat), s.armed (.bankWake n) = true → (s.elapsed (.bankWake n)).bankState n = bankWAKING →
    exec (.bankWakeDone n) s = .next ((s.elapsed (.bankWake n)).startZero n) := by
  intro s n h h1
  exact congrArg _ ((if_pos h).trans (if_pos h1))

theorem complete_bankZeroDone : ∀ (s : State) (n : Nat), s.armed (.bankZero n) = true → (s.elapsed (.bankZero n)).bankState n = bankZEROING →
    ∀ u : State, u = ((s.elapsed (.bankZero n)).setBank n bankON).irq 201 →
    exec (.bankZeroDone n) s = .next (if u.lv (F.TERRACE_BANK_POWER n) = 1 then (u.setBank n bankRET).dropSending n else u) := by
  intro s n h h1 u hu
  subst hu
  exact congrArg _ ((if_pos h).trans (if_pos h1))

theorem complete_bankResumeDone : ∀ (s : State) (n : Nat), s.armed (.bankResume n) = true → (s.elapsed (.bankResume n)).bankState n = bankRET →
    exec (.bankResumeDone n) s = .next ((s.elapsed (.bankResume n)).setBank n bankON) := by
  intro s n h h1
  exact congrArg _ ((if_pos h).trans (if_pos h1))

theorem complete_terraceRequestServed : ∀ (s : State) (rs : List TReq) (w : TReq), s.winner rs = some w →
    exec (.terraceRequestServed rs) s = .next (((rs.erase w).foldl (fun (s : State) r => s.reqWaits r.master (4 * w.slots (meetAt rs))) s).serveOne w).settle := by
  intro s rs w h
  show Host.Outcome.next (s.serveRequest rs).settle = _
  unfold State.serveRequest
  rw [h]

theorem complete_eccWriteback : ∀ s : State, exec .eccWriteback s = .next { s with terr.writeback := s.terr.writeback.drop 1 } := by
  intro s
  rfl

theorem complete_mirrorLineRead : ∀ (s : State) (x : Xfer), s.us.xfer = some x →
    (∀ (l : MirrorLine) (rest : List MirrorLine), s.terr.rescue = l :: rest →
      exec .mirrorLineRead s = .next { s with terr.rescue := rest, us.xfer := some { x with lines := x.lines ++ [l] } }) ∧
    (∀ (b l : Nat) (rest : List (Nat × Nat)), s.terr.rescue = [] → s.sendingLines = (b, l) :: rest →
      exec .mirrorLineRead s = .next { (s.readLine b l).2 with us.xfer := some { x with lines := x.lines ++ (s.readLine b l).1.toList } }) := by
  intro s x h
  constructor
  · intro l rest h1
    show Host.Outcome.next s.mirrorLineRead = _
    unfold State.mirrorLineRead
    rw [h]
    simp only
    rw [h1]
  · intro b l rest h1 h2
    show Host.Outcome.next s.mirrorLineRead = _
    unfold State.mirrorLineRead
    rw [h]
    simp only
    rw [h1]
    simp only
    rw [h2]

theorem complete_rescuedWriteResume : ∀ (s : State) (w : Nat × Nat × List Byte) (rest : List (Nat × Nat × List Byte)), s.terr.blocked = w :: rest →
    s.terr.rescue.length + (s.unreadLines w.2.1 w.2.2.length).length ≤ 64 →
    exec .rescuedWriteResume s = .next (State.serveWaiting ((s.unreadLines w.2.1 w.2.2.length).foldl (fun (s : State) l => s.rescue l.1 l.2)
      ({ s with terr.blocked := rest } : State)) w) := by
  intro s w rest h h1
  show Host.Outcome.next s.rescueResume = _
  unfold State.rescueResume
  rw [h]
  exact congrArg _ (if_pos h1)

theorem complete_terraceCntSnap : ∀ (s : State) (m : Nat), s.mayWrite m A.TERRACE_CNT_CTRL = true →
    exec (.terraceCntSnap m) s = .next (s.snapAll terraceCounters).settle := by
  intro s m h
  exact congrArg _ (store_reg h (by decide) rfl)

theorem complete_terraceCntClr : ∀ (s : State) (m : Nat), s.mayWrite m A.TERRACE_CNT_CTRL = true →
    exec (.terraceCntClr m) s = .next (s.clearAll terraceCounters).settle := by
  intro s m h
  exact congrArg _ (store_reg h (by decide) rfl)

theorem complete_colViolPop : ∀ (s : State) (m : Nat), s.mayRead m A.COL_VIOL_POP = true →
    (s.viol = [] → exec (.colViolPop m) s = .next (State.settle { s with rdata := 0 })) ∧
    (∀ (v : Viol) (t : List Viol), s.viol = v :: t → exec (.colViolPop m) s = .next (State.settle { s with
      viol := t, violOvf := false, violAddr := put (fun _ => 0#32) s.violAddr m v.addr, rdata := BitVec.ofNat 64 (v.word s.violOvf).toNat })) := by
  intro s m h
  have e : s.regRead m A.COL_VIOL_POP = (.ok (s.violPop m).1, (s.violPop m).2) := rfl
  constructor
  · intro h1
    refine congrArg _ ((load_reg h (by decide) e).trans ?_)
    have q : s.violPop m = (0#32, s) := by
      unfold State.violPop
      rw [h1]
    rw [q]
    rfl
  · intro v t h1
    refine congrArg _ ((load_reg h (by decide) e).trans ?_)
    unfold State.violPop
    rw [h1]

end Sys2Proof.Machine
end

