-- ==== Sys2Proof/Laws/CompletePacketsA.lean ====
section
/-! SUPPORT. Completion lemmas: for each command of the SessionAndImage, ConfigurationCueAndKey rows, the next state that `exec` answers, under
hypotheses on the state and the operands alone. One lemma per clause of the completion statements. -/

set_option maxRecDepth 8000

namespace Sys2Proof.Machine

theorem serve_eq {s u : State} {op i : Nat} {c : Cmd} {f : State → Cmd → Ans × State} (h : s.executing op = some i) (h1 : s.desk.cmds[i]? = some c) (hu : u = s.dropCmd i) :
    ∀ (a : Ans) (v : State), f u c = (a, v) → s.serve op f = v.conclude i c a := by
  intro a v e
  unfold State.serve
  rw [h]
  dsimp only
  rw [h1]
  dsimp only
  rw [← hu, e]

theorem complete_sessionOpen : ∀ (s u : State) (i : Nat) (c : Cmd) (r : Nat) (n : Nat) (svc : Bool) (p k : List Byte) (x : Sess), s.executing 0x0101 = some i → s.desk.cmds[i]? = some c → u = s.dropCmd i → u.entryRights (byteAt c.body 0) c.troupe = some (r, svc) → u.entropyOk = true → ((List.range 8).find? fun n => (u.sess n).isNone) = some n → p = beBytes 1 n ++ padTo 1185 (Config.sessReply c.body u.draw) → k = shake256 96 (padTo 64 (Config.sessSecrets c.body u.draw) ++ sha256 (c.body ++ p)) → x = Sess.mk 1 c.troupe (byteAt c.body 0) svc r (sliceB k 0 32) (sliceB k 32 32) (sliceB k 64 32) (sha256 (c.body ++ p)) 0 [] 0 0 0 →
    exec .sessionOpen s = .next (State.conclude (State.arm (State.setSess u.next n (some x)) (.sessPending n) (10 * ticksPerSecond)) i c (.done scOK (p ++ padTo 3373 (Config.identitySign (sha256 (c.body ++ p)))))) := by
  intro s u i c r n svc p k x h h1 hu h2 he h3 h4 h5 h6
  show Host.Outcome.next (s.sessionOpen) = _
  unfold State.sessionOpen
  refine congrArg _ (serve_eq h h1 hu _ _ ?_)
  dsimp only
  rw [h2]
  dsimp only
  rw [he, Bool.not_true, if_neg Bool.false_ne_true, h3]
  dsimp only
  subst h6
  subst h5
  subst h4
  rfl

theorem complete_sessionAuth : ∀ (s u v : State) (i : Nat) (c : Cmd) (x : Sess), s.executing 0x0102 = some i → s.desk.cmds[i]? = some c → u = s.dropCmd i →
    u.sess c.sess = some x → v = (if u.openerOk x c.body then State.conclude (State.post ((((u.setSess c.sess (some { x with state := 2 })).disarm (.sessPending c.sess)).arm
      (.sessIdle c.sess) (600 * ticksPerSecond))) 0xD001 3 8 [x.entry]) i c (.done scOK (beBytes 1 x.rights))
      else State.conclude (u.post 0xD002 5 8 [x.entry]) i c (.done scAUTH_FAIL [])) →
    exec (.sessionAuth true) s = .next (State.settle (if (v.sess c.sess).any (fun x => x.state == 1) then v.closeSess c.sess else v)) := by
  intro s u v i c x h h1 hu h2 hv
  refine congrArg (fun x => Host.Outcome.next (State.settle x)) (show s.sessionAuth true = (if (v.sess c.sess).any (fun x => x.state == 1) then v.closeSess c.sess else v) from ?_)
  have e : s.execCmd 0x0102 = some c := by
    unfold State.execCmd
    rw [h]
    exact h1
  unfold State.sessionAuth
  rw [e]
  dsimp only [Option.map_some, Option.getD_some]
  have t : u.twice true = (true, u) := if_pos rfl
  by_cases h3 : u.openerOk x c.body = true
  · rw [if_pos h3] at hv
    rw [serve_eq h h1 hu (.done scOK (beBytes 1 x.rights)) (State.post ((((u.setSess c.sess (some { x with state := 2 })).disarm (.sessPending c.sess)).arm
      (.sessIdle c.sess) (600 * ticksPerSecond))) 0xD001 3 8 [x.entry]) ?_, ← hv]
    rw [h2]
    dsimp only
    rw [t, h3]
    rfl
  · rw [if_neg h3] at hv
    rw [serve_eq h h1 hu (.done scAUTH_FAIL []) (u.post 0xD002 5 8 [x.entry]) ?_, ← hv]
    rw [h2]
    dsimp only
    rw [t]
    dsimp only
    rw [if_neg (by simpa using h3)]
    rfl

theorem complete_sessionClose : ∀ (s u : State) (i : Nat) (c : Cmd), s.executing 0x0103 = some i → s.desk.cmds[i]? = some c → u = s.dropCmd i →
    exec .sessionClose s = .next ((u.conclude i c (.done scOK [])).closeSess (if c.mute then 255 else c.sess)) := by
  intro s u i c h h1 hu
  show Host.Outcome.next s.sessionClose = _
  have e : s.execCmd 0x0103 = some c := by
    unfold State.execCmd
    rw [h]
    exact h1
  unfold State.sessionClose
  rw [e]
  dsimp only
  rw [serve_eq h h1 hu (.done scOK []) u rfl]

theorem complete_sessionInfo : ∀ (s u : State) (i : Nat) (c : Cmd), s.executing 0x0104 = some i → s.desk.cmds[i]? = some c → u = s.dropCmd i →
    exec .sessionInfo s = .next (State.conclude u i c (.done scOK ((List.range 8).flatMap fun n => ((u.sess n).map fun x => if x.state = 2 then
      beBytes 1 (b2n x.troupe) ++ beBytes 1 x.entry ++ beBytes 1 x.rights ++ beBytes 1 (u.desk.cmds.filter fun c => c.sess == n).length ++ beBytes 4 x.high else []).getD []))) := by
  intro s u i c h h1 hu 
  show Host.Outcome.next (s.sessionInfo) = _
  unfold State.sessionInfo
  refine congrArg _ (serve_eq h h1 hu _ _ ?_)
  have e : ∀ n, (match u.sess n with
      | some x => if x.state = 2 then
          beBytes 1 (b2n x.troupe) ++ beBytes 1 x.entry ++ beBytes 1 x.rights ++ beBytes 1 (u.desk.cmds.filter fun c => c.sess == n).length ++ beBytes 4 x.high
        else []
      | none => []) = ((u.sess n).map fun x => if x.state = 2 then
        beBytes 1 (b2n x.troupe) ++ beBytes 1 x.entry ++ beBytes 1 x.rights ++ beBytes 1 (u.desk.cmds.filter fun c => c.sess == n).length ++ beBytes 4 x.high else []).getD [] := by
    intro n
    cases u.sess n <;> rfl
  simp only [← e]
  all_goals rfl

theorem complete_ping : ∀ (s u : State) (i : Nat) (c : Cmd), s.executing 0x0105 = some i → s.desk.cmds[i]? = some c → u = s.dropCmd i →
    exec .ping s = .next (State.conclude u i c (.done scOK c.body)) := by
  intro s u i c h h1 hu 
  show Host.Outcome.next (s.pingCmd) = _
  unfold State.pingCmd
  refine congrArg _ (serve_eq h h1 hu _ _ ?_)
  rfl

theorem complete_idGet : ∀ (s u : State) (i : Nat) (c : Cmd), s.executing 0x0201 = some i → s.desk.cmds[i]? = some c → u = s.dropCmd i →
    exec .idGet s = .next (State.conclude u i c (.done scOK (serial16 ++ beBytes 1 u.lifecycle.code ++ beBytes 1 u.mode.code ++ beBytes 1 (u.rd F.SYS_STATE_PAIR_ROLE) ++
      beBytes 1 (u.rd F.SYS_STATE_TROUPE_ROLE) ++ u.fingerprint ++ beBytes 4 (Config.stewardVersion (u.rd F.SYS_BOOT_SM_COPY)) ++ u.idDigests))) := by
  intro s u i c h h1 hu 
  show Host.Outcome.next (s.idGet) = _
  unfold State.idGet
  refine congrArg _ (serve_eq h h1 hu _ _ ?_)
  rfl

theorem complete_idCert : ∀ (s u : State) (i : Nat) (c : Cmd) (o len : Nat), s.executing 0x0202 = some i → s.desk.cmds[i]? = some c → u = s.dropCmd i → o = beAt c.body 0 4 → len = Config.certLength (u.peek 0x20000000 0x10000) % 65537 → o ≤ len →
    exec .idCert s = .next (State.conclude u i c (.done scOK (beBytes 4 len ++ u.peek (0x20000000 + o) (min 4096 (len - o))))) := by
  intro s u i c o len h h1 hu h2 h3 h4
  show Host.Outcome.next (s.idCert) = _
  unfold State.idCert
  refine congrArg _ (serve_eq h h1 hu _ _ ?_)
  dsimp only
  rw [← h2, ← h3, if_neg (Nat.not_lt_of_le h4)]

theorem complete_idAttest : ∀ (s u : State) (i : Nat) (c : Cmd) (m : List Byte), s.executing 0x0203 = some i → s.desk.cmds[i]? = some c → u = s.dropCmd i → m = serial16 ++ c.body ++ beBytes 4 (u.reg A.SYS_STATE).toNat ++ beBytes 8 u.now ++ beBytes 4 (u.reg A.REFUGE_STAT).toNat ++ u.idDigests →
    exec .idAttest s = .next (State.conclude u.next i c (.done scOK (m ++ padTo 3373 (Config.identitySign m)))) := by
  intro s u i c m h h1 hu h2
  show Host.Outcome.next (s.idAttest) = _
  unfold State.idAttest
  refine congrArg _ (serve_eq h h1 hu _ _ ?_)
  dsimp only
  rw [← h2]

theorem complete_idChallenge : ∀ (s u : State) (i : Nat) (c : Cmd), s.executing 0x0204 = some i → s.desk.cmds[i]? = some c → u = s.dropCmd i →
    exec .idChallenge s = .next (State.conclude u i c (.done scOK ((if u.mode = .curtain then u.challenge else List.replicate 32 0#8) ++ beBytes 4 (u.rd F.REFUGE_STAT_TOTAL) ++
      beBytes 4 (u.reg A.CURTAIN_STAT).toNat ++ beBytes 4 (u.reg A.CURTAIN_HIST).toNat))) := by
  intro s u i c h h1 hu 
  show Host.Outcome.next (s.idChallenge) = _
  unfold State.idChallenge
  refine congrArg _ (serve_eq h h1 hu _ _ ?_)
  rfl

theorem complete_imgBegin : ∀ (s u : State) (i : Nat) (c : Cmd) (k : Nat), s.executing 0x0301 = some i → s.desk.cmds[i]? = some c → u = s.dropCmd i → k = byteAt c.body 0 → ¬((k = 1 ∨ k = 2) ∧ u.actKind = k ∨ k = 0 ∧ u.actKind = 0 ∧ u.flag F.SYS_BOOT_EARLY_OK = true) →
    exec .imgBegin s = .next (State.conclude { (u.eraseArea k).2.setImg k (Img.mk (if (u.eraseArea k).1 = scOK then 1 else 3) (beAt c.body 1 4) (sliceB c.body 5 48) 0) with desk.xfer := some k } i c (fin (u.eraseArea k).1)) := by
  intro s u i c k h h1 hu h2 h3
  show Host.Outcome.next (s.imgBegin) = _
  unfold State.imgBegin
  refine congrArg _ (serve_eq h h1 hu _ _ ?_)
  dsimp only
  rw [← h2, if_neg h3]

theorem complete_imgWrite : ∀ (s u : State) (i : Nat) (c : Cmd) (ok : Bool) (k st : Nat) (v : State), s.executing 0x0302 = some i → s.desk.cmds[i]? = some c → u = s.dropCmd i → u.desk.xfer = some k → (u.img k).state = 1 → beAt c.body 0 4 + (c.body.length - 4) ≤ (u.img k).len → u.programAt (imageBase k + beAt c.body 0 4) (c.body.drop 4) ok = (st, v) →
    exec (.imgWrite ok) s = .next (State.conclude v i c (.done st [])) := by
  intro s u i c ok k st v h h1 hu h2 h3 h4 h5
  show Host.Outcome.next (s.imgWrite ok) = _
  unfold State.imgWrite
  refine congrArg _ (serve_eq h h1 hu _ _ ?_)
  dsimp only
  rw [h2]
  dsimp only
  rw [if_neg (by omega), if_neg (by omega), h5]
  rfl

theorem complete_imgCommit : ∀ (s u : State) (i : Nat) (c : Cmd) (k : Nat), s.executing 0x0303 = some i → s.desk.cmds[i]? = some c → u = s.dropCmd i → u.desk.xfer = some k → (u.img k).state = 1 →
    exec .imgCommit s = .next (State.conclude u i c (.accepted [k] [])) := by
  intro s u i c k h h1 hu h2 h3
  show Host.Outcome.next (s.imgCommit) = _
  unfold State.imgCommit
  refine congrArg _ (serve_eq h h1 hu _ _ ?_)
  rw [h2]
  dsimp only
  rw [if_neg (by omega), if_neg (by omega)]

theorem complete_imgSelect : ∀ (s u : State) (i : Nat) (c : Cmd), s.executing 0x0304 = some i → s.desk.cmds[i]? = some c → u = s.dropCmd i →
    exec .imgSelect s = .next (State.conclude { u with desk.selected := byteAt c.body 0 } i c (.done scOK [])) := by
  intro s u i c h h1 hu 
  show Host.Outcome.next (s.imgSelect) = _
  unfold State.imgSelect
  refine congrArg _ (serve_eq h h1 hu _ _ ?_)
  rfl

theorem complete_imgList : ∀ (s u : State) (i : Nat) (c : Cmd), s.executing 0x0305 = some i → s.desk.cmds[i]? = some c → u = s.dropCmd i →
    exec .imgList s = .next (State.conclude u i c (.done scOK ((List.range 5).flatMap fun k => beBytes 1 (u.img k).state ++ beBytes 4 (u.img k).len ++ padTo 48 (u.img k).digest ++
      beBytes 4 (u.img k).version ++ beBytes 1 (b2n (k == u.desk.selected))))) := by
  intro s u i c h h1 hu 
  show Host.Outcome.next (s.imgList) = _
  unfold State.imgList
  refine congrArg _ (serve_eq h h1 hu _ _ ?_)
  rfl

theorem complete_cfgApply : ∀ (s u : State) (i : Nat) (c : Cmd) (n : Nat) (v : State), s.executing 0x0401 = some i → s.desk.cmds[i]? = some c → u = s.dropCmd i → n = u.desk.storedCfg → n ≠ 0 → (u.img 3).state = 2 → (cfgBlocks n).any u.pendingIn = false → v = (cfgBlocks n).foldl (fun (s : State) b => s.blockGo b 1 0) (u.cfgStage n) →
    exec .cfgApply s = .next (if (cfgBlocks n).all v.pendingIn then State.conclude v i c (.accepted [n] []) else State.conclude v.next i c (.done v.freeStatus [])) := by
  intro s u i c n v h h1 hu h2 h3 h4 h5 h6
  show Host.Outcome.next (s.cfgApply) = _
  unfold State.cfgApply
  by_cases h7 : (cfgBlocks n).all v.pendingIn = true
  · rw [if_pos h7]
    refine congrArg _ (serve_eq h h1 hu _ _ ?_)
    dsimp only
    rw [← h2, if_neg (by rintro (a | a) <;> [exact h3 a; exact a h4]), if_neg (by rw [h5]; decide), ← h6, if_pos h7]
  · rw [if_neg h7]
    refine congrArg _ (serve_eq h h1 hu _ _ ?_)
    dsimp only
    rw [← h2, if_neg (by rintro (a | a) <;> [exact h3 a; exact a h4]), if_neg (by rw [h5]; decide), ← h6, if_neg h7]
    rfl

theorem complete_cfgInfo : ∀ (s u : State) (i : Nat) (c : Cmd), s.executing 0x0402 = some i → s.desk.cmds[i]? = some c → u = s.dropCmd i →
    exec .cfgInfo s = .next (State.conclude u i c (.done scOK ((beBytes 48 u.desk.storedCfg ++ beBytes 4 (Config.imageVersion 3 (beBytes 48 u.desk.storedCfg))) ++ (beBytes 48 u.cfg ++
      beBytes 4 (Config.imageVersion 3 (beBytes 48 u.cfg))) ++ (List.range 16).flatMap fun e => beBytes 1 (Config.opEntry u.cfg e % 16)))) := by
  intro s u i c h h1 hu 
  show Host.Outcome.next (s.cfgInfo) = _
  unfold State.cfgInfo
  refine congrArg _ (serve_eq h h1 hu _ _ ?_)
  rfl

theorem complete_timeStep : ∀ (s u : State) (i : Nat) (c : Cmd) (v : State), s.executing 0x0403 = some i → s.desk.cmds[i]? = some c → u = s.dropCmd i → u.flag F.STIME_STATE_STEP_PENDING = false → v = (u.setReg A.STIME_STEP_LO (BitVec.ofNat 32 (beAt c.body 4 4))).setReg A.STIME_STEP_HI (BitVec.ofNat 32 (beAt c.body 0 4)) →
    exec .timeStep s = .next (State.conclude (v.put8 A.STIME_CTRL (setBits (v.reg A.STIME_CTRL) 31 31 1)) i c (.accepted [] [])) := by
  intro s u i c v h h1 hu h2 h3
  show Host.Outcome.next (s.timeStep) = _
  unfold State.timeStep
  refine congrArg _ (serve_eq h h1 hu _ _ ?_)
  dsimp only
  rw [if_neg (by rw [h2]; decide), ← h3]

theorem complete_rtcSet : ∀ (s u : State) (i : Nat) (c : Cmd), s.executing 0x0404 = some i → s.desk.cmds[i]? = some c → u = s.dropCmd i →
    exec .rtcSet s = .next (State.conclude (u.rtcSet u.seconds) i c (.done scOK (beBytes 4 u.seconds.toNat))) := by
  intro s u i c h h1 hu 
  show Host.Outcome.next (s.rtcSetCmd) = _
  unfold State.rtcSetCmd
  refine congrArg _ (serve_eq h h1 hu _ _ ?_)
  rfl

theorem complete_cueGet : ∀ (s u : State) (i : Nat) (c : Cmd), s.executing 0x0501 = some i → s.desk.cmds[i]? = some c → u = s.dropCmd i →
    exec .cueGet s = .next (State.conclude u i c (.done scOK ((List.range (byteAt c.body 2)).flatMap fun i => (List.range 4).flatMap fun k => beBytes 4 (u.cueWord (beAt c.body 0 2 + i) k).toNat))) := by
  intro s u i c h h1 hu 
  show Host.Outcome.next (s.cueGet) = _
  unfold State.cueGet
  refine congrArg _ (serve_eq h h1 hu _ _ ?_)
  rfl

theorem complete_cuePush : ∀ (s u : State) (i : Nat) (c : Cmd) (n : Nat) (v : State), s.executing 0x0502 = some i → s.desk.cmds[i]? = some c → u = s.dropCmd i → u.cuePushes ((List.range (byteAt c.body 0)).map fun k => sliceB c.body (1 + 19 * k) 19) 0 = ((n, none), v) →
    exec .cuePush s = .next (State.conclude v i c (.done scOK (beBytes 1 n))) := by
  intro s u i c n v h h1 hu h2
  show Host.Outcome.next (s.cuePushCmd) = _
  unfold State.cuePushCmd
  refine congrArg _ (serve_eq h h1 hu _ _ ?_)
  rw [h2]

theorem complete_cueCommit : ∀ (s u : State) (i : Nat) (c : Cmd) (v : State), s.executing 0x0503 = some i → s.desk.cmds[i]? = some c → u = s.dropCmd i → u.pendingIn Base.CUE = false → v = u.blockGo Base.CUE (byteAt c.body 0) (beAt c.body 1 2) → v.pendingIn Base.CUE = true →
    exec .cueCommit s = .next (State.conclude v i c (.accepted [] [])) := by
  intro s u i c v h h1 hu h2 h3 h4
  show Host.Outcome.next (s.cueCommit) = _
  unfold State.cueCommit
  refine congrArg _ (serve_eq h h1 hu _ _ ?_)
  dsimp only
  rw [if_neg (by rw [h2]; decide), ← h3, if_pos h4]

theorem complete_cueAbort : ∀ (s u : State) (i : Nat) (c : Cmd), s.executing 0x0504 = some i → s.desk.cmds[i]? = some c → u = s.dropCmd i →
    exec .cueAbort s = .next (State.conclude (u.blockAbort Base.CUE) i c (.done scOK [])) := by
  intro s u i c h h1 hu 
  show Host.Outcome.next (s.cueAbort) = _
  unfold State.cueAbort
  refine congrArg _ (serve_eq h h1 hu _ _ ?_)
  rfl

theorem complete_cueStatus : ∀ (s u : State) (i : Nat) (c : Cmd) (b : List Byte) (v : State), s.executing 0x0505 = some i → s.desk.cmds[i]? = some c → u = s.dropCmd i → u.words [A.CUE_STAT, A.CUE_CNT_A, A.CUE_CNT_B, A.CUE_CNT_C, A.CUE_EDIT_STAT] = (b, v) →
    exec .cueStatus s = .next (State.conclude v i c (.done scOK b)) := by
  intro s u i c b v h h1 hu h2
  show Host.Outcome.next (s.cueStatus) = _
  unfold State.cueStatus
  refine congrArg _ (serve_eq h h1 hu _ _ ?_)
  dsimp only
  rw [h2]

theorem complete_keyProvision : ∀ (s u v : State) (i : Nat) (c : Cmd) (crk : List Byte) (a : Ans), s.executing 0x0601 = some i → s.desk.cmds[i]? = some c → u = s.dropCmd i → u.crk = some crk →
    ((match kwUnwrap (u.xferKey c) (c.body.drop 5) with
      | none => (Ans.done scAUTH_FAIL [], u)
      | some k => if importLen (byteAt c.body 4) ≠ some k.length ∧ !(byteAt c.body 4 = kSECRET ∧ k.length = 32) then (Ans.done scBAD_PARAM [], u)
        else (Ans.done scOK (if byteAt c.body 4 = kSECRET then [] else sha256 (Config.pkPublic (byteAt c.body 4) k)), { u with
          desk.keys := (u.desk.keys.filter fun x => x.id != beAt c.body 0 4) ++ [StoredKey.mk (beAt c.body 0 4) (byteAt c.body 4) u.desk.kek (kwWrap (kekOf crk u.desk.kek) k) (if byteAt c.body 4 = kSECRET then [] else sha256 (Config.pkPublic (byteAt c.body 4) k))] })) : Ans × State) = (a, v) →
    exec (.keyProvision true) s = .next (State.conclude v i c a) := by
  intro s u v i c crk a h h1 hu h3 h4
  show Host.Outcome.next (s.keyProvision true) = _
  unfold State.keyProvision
  refine congrArg _ (serve_eq h h1 hu _ _ ?_)
  dsimp only
  rw [← h4, h3]
  cases kwUnwrap (u.xferKey c) (c.body.drop 5) <;> rfl

theorem complete_keyErase : ∀ (s u : State) (i : Nat) (c : Cmd), s.executing 0x0602 = some i → s.desk.cmds[i]? = some c → u = s.dropCmd i → (u.desk.keys.any fun x => x.id == beAt c.body 0 4) = true →
    exec (.keyErase true) s = .next (State.conclude { u with desk.keys := u.desk.keys.filter fun x => x.id != beAt c.body 0 4 } i c (.done scOK [])) := by
  intro s u i c h h1 hu h2
  show Host.Outcome.next (s.keyErase true) = _
  unfold State.keyErase
  refine congrArg _ (serve_eq h h1 hu _ _ ?_)
  dsimp only
  rw [if_neg (by rw [h2]; decide), if_neg (by decide)]
  rfl

theorem complete_keyList : ∀ (s u : State) (i : Nat) (c : Cmd), s.executing 0x0603 = some i → s.desk.cmds[i]? = some c → u = s.dropCmd i →
    exec .keyList s = .next (State.conclude u i c (.done scOK (u.desk.keys.flatMap fun k => beBytes 4 k.id ++ beBytes 1 k.type ++ beBytes 4 k.gen ++ padTo 32 k.pub))) := by
  intro s u i c h h1 hu 
  show Host.Outcome.next (s.keyList) = _
  unfold State.keyList
  refine congrArg _ (serve_eq h h1 hu _ _ ?_)
  rfl

theorem complete_keyStream : ∀ (s u v : State) (i : Nat) (c : Cmd) (a : Ans), s.executing 0x0604 = some i → s.desk.cmds[i]? = some c → u = s.dropCmd i → beAt c.body 0 2 < 4096 →
    ((match kwUnwrap (u.xferKey c) (c.body.drop 14) with
      | none => (Ans.done scAUTH_FAIL [], u)
      | some k => match u.installKey (beAt c.body 0 2) (beAt c.body 2 4) (beAt c.body 6 6) (beAt c.body 12 2) (k.length == 32) (beNat k) with
        | (0, x) => (Ans.done scOK [], x)
        | (r, x) => (Ans.done scBAD_PARAM (beBytes 1 r), x)) : Ans × State) = (a, v) →
    exec .keyStream s = .next (State.conclude v i c a) := by
  intro s u v i c a h h1 hu h3 h4
  show Host.Outcome.next (s.keyStream) = _
  unfold State.keyStream
  refine congrArg _ (serve_eq h h1 hu _ _ ?_)
  rw [← h4]
  cases kwUnwrap (u.xferKey c) (c.body.drop 14) with
  | none => rfl
  | some k => exact if_neg (Nat.not_le_of_lt h3)

theorem complete_kekRoll : ∀ (s u : State) (i : Nat) (c : Cmd) (k : List Byte), s.executing 0x0605 = some i → s.desk.cmds[i]? = some c → u = s.dropCmd i → u.crk = some k →
    exec .kekRoll s = .next (State.conclude u i c (.accepted [] [])) := by
  intro s u i c k h h1 hu h2
  show Host.Outcome.next (s.kekRoll) = _
  unfold State.kekRoll
  refine congrArg _ (serve_eq h h1 hu _ _ ?_)
  rw [h2]
  rfl

theorem complete_kdcRelay : ∀ (s u : State) (i : Nat) (c : Cmd), s.executing 0x0606 = some i → s.desk.cmds[i]? = some c → u = s.dropCmd i →
    exec .kdcRelay s = .next (State.conclude u.next i c (.accepted [] (Config.kdcMessage u.cfg c.body u.draw))) := by
  intro s u i c h h1 hu 
  show Host.Outcome.next (s.kdcRelay) = _
  unfold State.kdcRelay
  refine congrArg _ (serve_eq h h1 hu _ _ ?_)
  rfl

end Sys2Proof.Machine
end

