-- ==== Sys2Proof/Laws/CompletePacketsB.lean ====
section
/-! SUPPORT. Completion lemmas: for each command of the PairingTroupeAndRecord, FileAndDiagnostic, Lifecycle rows, the next state that `exec` answers, under
hypotheses on the state and the operands alone. One lemma per clause of the completion statements. -/

set_option maxRecDepth 8000

namespace Sys2Proof.Machine

theorem serve_eq_b {s u : State} {op i : Nat} {c : Cmd} {f : State → Cmd → Ans × State} (h : s.executing op = some i) (h1 : s.desk.cmds[i]? = some c) (hu : u = s.dropCmd i) :
    ∀ (a : Ans) (v : State), f u c = (a, v) → s.serve op f = v.conclude i c a := by
  intro a v e
  unfold State.serve
  rw [h]
  dsimp only
  rw [h1]
  dsimp only
  rw [← hu, e]

theorem complete_pairRole : ∀ (s u : State) (i : Nat) (c : Cmd), s.executing 0x0701 = some i → s.desk.cmds[i]? = some c → u = s.dropCmd i →
    exec .pairRole s = .next (State.conclude (State.lanesFollow (u.wr F.SYS_STATE_PAIR_ROLE (byteAt c.body 0))) i c (.done scOK [])) := by
  intro s u i c h h1 hu 
  show Host.Outcome.next (s.pairRole) = _
  unfold State.pairRole
  refine congrArg _ (serve_eq_b h h1 hu _ _ ?_)
  rfl

theorem complete_handover : ∀ (s u : State) (i : Nat) (c : Cmd), s.executing 0x0702 = some i → s.desk.cmds[i]? = some c → u = s.dropCmd i →
    exec .handover s = .next (State.conclude (u.put8 A.UNDERSTUDY_CTRL 0x20000000#32) i c (.accepted [] [])) := by
  intro s u i c h h1 hu 
  show Host.Outcome.next (s.handoverCmd) = _
  unfold State.handoverCmd
  refine congrArg _ (serve_eq_b h h1 hu _ _ ?_)
  rfl

theorem complete_pairCtrl : ∀ (s u : State) (i : Nat) (c : Cmd), s.executing 0x0703 = some i → s.desk.cmds[i]? = some c → u = s.dropCmd i →
    exec .pairCtrl s = .next (State.conclude (u.put8 A.UNDERSTUDY_CTRL (BitVec.ofNat 32 (byteAt c.body 0 % 2 * 2 ^ 28 + byteAt c.body 0 / 2 % 2 * 2 ^ 27 + byteAt c.body 0 / 4 % 2 * 2 ^ 26))) i c (.done scOK [])) := by
  intro s u i c h h1 hu 
  show Host.Outcome.next (s.pairCtrl) = _
  unfold State.pairCtrl
  refine congrArg _ (serve_eq_b h h1 hu _ _ ?_)
  rfl

theorem complete_pairStatus : ∀ (s u : State) (i : Nat) (c : Cmd) (b1 b2 b3 b4 : List Byte) (v1 v2 v3 v4 : State), s.executing 0x0704 = some i → s.desk.cmds[i]? = some c → u = s.dropCmd i → u.words [A.UNDERSTUDY_STAT, A.UNDERSTUDY_HEALTH, A.UNDERSTUDY_PEER_HEALTH] = (b1, v1) → v1.words [A.UNDERSTUDY_APPLIED_LO] = (b2, v2) → v2.words [A.UNDERSTUDY_APPLIED_HI] = (b3, v3) → v3.words [A.UNDERSTUDY_CNT_A, A.UNDERSTUDY_CNT_B, A.UNDERSTUDY_CNT_C] = (b4, v4) →
    exec .pairStatus s = .next (State.conclude v4 i c (.done scOK (b1 ++ b3 ++ b2 ++ b4))) := by
  intro s u i c b1 b2 b3 b4 v1 v2 v3 v4 h h1 hu h2 h3 h4 h5
  show Host.Outcome.next (s.pairStatus) = _
  unfold State.pairStatus
  refine congrArg _ (serve_eq_b h h1 hu _ _ ?_)
  dsimp only
  rw [h2, h3, h4, h5]

theorem complete_troupeRole : ∀ (s u : State) (i : Nat) (c : Cmd), s.executing 0x0801 = some i → s.desk.cmds[i]? = some c → u = s.dropCmd i →
    exec .troupeRole s = .next (State.conclude (State.troupeShow (u.wr F.SYS_STATE_TROUPE_ROLE (byteAt c.body 0))) i c (.done scOK [])) := by
  intro s u i c h h1 hu 
  show Host.Outcome.next (s.troupeRole) = _
  unfold State.troupeRole
  refine congrArg _ (serve_eq_b h h1 hu _ _ ?_)
  rfl

theorem complete_troupeStatus : ∀ (s u : State) (i : Nat) (c : Cmd) (b : List Byte) (v : State), s.executing 0x0802 = some i → s.desk.cmds[i]? = some c → u = s.dropCmd i → u.words (A.TROUPE_STAT :: (List.range 64).map A.TROUPE_MEMBER) = (b, v) →
    exec .troupeStatus s = .next (State.conclude v i c (.done scOK b)) := by
  intro s u i c b v h h1 hu h2
  show Host.Outcome.next (s.troupeStatus) = _
  unfold State.troupeStatus
  refine congrArg _ (serve_eq_b h h1 hu _ _ ?_)
  dsimp only
  rw [h2]

theorem complete_rollNow : ∀ (s u : State) (i : Nat) (c : Cmd), s.executing 0x0803 = some i → s.desk.cmds[i]? = some c → u = s.dropCmd i → u.troupe.rolling = false →
    exec .rollNow s = .next (State.conclude u.rollBegin i c (.accepted [] [])) := by
  intro s u i c h h1 hu h2
  show Host.Outcome.next (s.rollNow) = _
  unfold State.rollNow
  refine congrArg _ (serve_eq_b h h1 hu _ _ ?_)
  rw [if_neg (by rw [h2]; decide)]

theorem complete_intervalCall : ∀ (s u : State) (i : Nat) (c : Cmd), s.executing 0x0804 = some i → s.desk.cmds[i]? = some c → u = s.dropCmd i → u.frame + u.rollFrames ≤ beAt c.body 8 6 → beAt c.body 8 6 < beAt c.body 14 6 → u.troupe.bkey.isNone = false → u.namesPair (beAt c.body 0 8) = false →
    exec .intervalCall s = .next (State.conclude (u.intervalCall (beAt c.body 0 8) (beAt c.body 8 6) (beAt c.body 14 6)) i c (.accepted [beAt c.body 0 8, beAt c.body 8 6] [])) := by
  intro s u i c h h1 hu h2 h3 h4 h5
  show Host.Outcome.next (s.intervalCmd) = _
  unfold State.intervalCmd
  refine congrArg _ (serve_eq_b h h1 hu _ _ ?_)
  dsimp only
  rw [if_neg (by simp only [h5, Bool.false_eq_true, or_false]; omega), if_neg (by rw [h4]; decide)]

theorem complete_relay : ∀ (s u : State) (i : Nat) (c : Cmd) (key : List Byte), s.executing 0x0805 = some i → s.desk.cmds[i]? = some c → u = s.dropCmd i → u.session (byteAt c.body 0) = some key →
    exec .relay s = .next (State.conclude (State.arm (u.next.troupeSend 0x0B 1 (some (byteAt c.body 0)) key (c.body.drop 1)) (.relay u.fresh) (10 * ticksPerSecond)) i c (.accepted [u.fresh, byteAt c.body 0, beAt (c.body.drop 1) 8 4] [])) := by
  intro s u i c key h h1 hu h2
  show Host.Outcome.next (s.relayCmd) = _
  unfold State.relayCmd
  refine congrArg _ (serve_eq_b h h1 hu _ _ ?_)
  dsimp only
  rw [h2]

theorem complete_relayTimeout : ∀ (s u : State) (i : Nat) (c : Cmd), s.desk.cmds[i]? = some c → c.op = 0x0805 → c.phase = 2 → s.armed (.relay (nth c.note 0)) = true →
    u = s.elapsed (.relay (nth c.note 0)) → exec (.relayTimeout i) s = .next ((u.dropCmd i).answer c scBUSY []) := by
  intro s u i c h h1 h2 h3 hu
  show Host.Outcome.next (s.relayTimeout i) = _
  unfold State.relayTimeout
  rw [h]
  dsimp only
  rw [if_pos ⟨h1, h2⟩, fire_armed h3, hu]

theorem complete_bookRead : ∀ (s u : State) (i : Nat) (c : Cmd) (l : List Rec), s.executing 0x0901 = some i → s.desk.cmds[i]? = some c → u = s.dropCmd i → l = ((u.book.ring.map (·.1)).filter fun r => decide (beAt c.body 0 4 ≤ r.seq.toNat)).take (byteAt c.body 4) →
    exec .bookRead s = .next (State.conclude u i c (.done scOK (beBytes 4 ((l.getLast?.map fun r => r.seq.toNat + 1).getD (beAt c.body 0 4)) ++ l.flatMap Rec.bytes))) := by
  intro s u i c l h h1 hu h2
  show Host.Outcome.next (s.bookRead) = _
  unfold State.bookRead
  refine congrArg _ (serve_eq_b h h1 hu _ _ ?_)
  dsimp only
  rw [← h2]
  cases l.getLast? <;> rfl

theorem complete_bookArchive : ∀ (s u : State) (i : Nat) (c : Cmd) (b : List Byte) (v : State), s.executing 0x0902 = some i → s.desk.cmds[i]? = some c → u = s.dropCmd i → u.dmaRead 8 (0x21800000 + 32 * beAt c.body 0 4) (32 * min (byteAt c.body 4) (131072 - beAt c.body 0 4)) = (.ok b, v) →
    exec .bookArchive s = .next (State.conclude v i c (.done scOK b)) := by
  intro s u i c b v h h1 hu h2
  show Host.Outcome.next (s.bookArchive) = _
  unfold State.bookArchive
  refine congrArg _ (serve_eq_b h h1 hu _ _ ?_)
  rw [h2]

theorem complete_bookNote : ∀ (s u : State) (i : Nat) (c : Cmd), s.executing 0x0903 = some i → s.desk.cmds[i]? = some c → u = s.dropCmd i →
    exec .bookNote s = .next (State.conclude (u.post (0xE000 + beAt c.body 1 2 % 4096) (min 5 (byteAt c.body 0)) 8 ((List.range 4).map fun k => leAt c.body (3 + 4 * k) 4)) i c (.done scOK [])) := by
  intro s u i c h h1 hu 
  show Host.Outcome.next (s.bookNote) = _
  unfold State.bookNote
  refine congrArg _ (serve_eq_b h h1 hu _ _ ?_)
  rfl

theorem complete_bookClear : ∀ (s u : State) (i : Nat) (c : Cmd), s.executing 0x0904 = some i → s.desk.cmds[i]? = some c → u = s.dropCmd i →
    exec .bookClear s = .next (State.conclude (State.put8 (u.setReg A.PBOOK_CLEAR_UPTO (BitVec.ofNat 32 (beAt c.body 0 4))) A.PBOOK_CLEAR (BitVec.ofNat 32 (2 ^ 31 + byteAt c.body 4 % 2 * 2 ^ 30))) i c (.done scOK [])) := by
  intro s u i c h h1 hu 
  show Host.Outcome.next (s.bookClearCmd) = _
  unfold State.bookClearCmd
  refine congrArg _ (serve_eq_b h h1 hu _ _ ?_)
  rfl

theorem complete_fileList : ∀ (s u : State) (i : Nat) (c : Cmd) (l : List VFile), s.executing 0x0A01 = some i → s.desk.cmds[i]? = some c → u = s.dropCmd i → u.volume (byteAt c.body 0) = some l →
    exec .fileList s = .next (State.conclude u i c (.done scOK (l.flatMap fun f => padTo 16 f.name ++ beBytes 4 f.data.length ++ beBytes 4 f.gen))) := by
  intro s u i c l h h1 hu h2
  show Host.Outcome.next (s.fileList) = _
  unfold State.fileList
  refine congrArg _ (serve_eq_b h h1 hu _ _ ?_)
  rw [h2]

theorem complete_fileRead : ∀ (s u : State) (i : Nat) (c : Cmd) (l : List VFile) (f : VFile), s.executing 0x0A02 = some i → s.desk.cmds[i]? = some c → u = s.dropCmd i → u.volume (byteAt c.body 0) = some l → fileOf l (sliceB c.body 1 16) = some f → beAt c.body 17 4 ≤ f.data.length → (f.data.length ≤ beAt c.body 17 4 + beAt c.body 21 2 → f.crcOk = true) →
    exec (.fileRead true) s = .next (State.conclude u i c (.done scOK (sliceB f.data (beAt c.body 17 4) (beAt c.body 21 2)))) := by
  intro s u i c l f h h1 hu h2 h3 h4 h5
  show Host.Outcome.next (s.fileRead true) = _
  unfold State.fileRead
  refine congrArg _ (serve_eq_b h h1 hu _ _ ?_)
  dsimp only
  rw [h2]
  dsimp only
  rw [h3]
  dsimp only
  rw [if_neg (Nat.not_lt_of_le h4), if_neg (by rintro (a | ⟨a, b⟩) <;> [exact absurd a (by decide); (rw [h5 a] at b; exact absurd b (by decide))])]

theorem complete_fileWrite : ∀ (s u : State) (i : Nat) (c : Cmd) (v o n : Nat), s.executing 0x0A03 = some i → s.desk.cmds[i]? = some c → u = s.dropCmd i → v = byteAt c.body 0 → o = beAt c.body 17 4 → n = (u.partOf v (sliceB c.body 1 16)).length → (v = 1 → u.flag (F.CART_CARD_PERM_WP 0) = false ∧ u.flag (F.CART_CARD_TMP_WP 0) = false ∧ u.cart.mounted = true ∧ (u.cart.formatted = true ∨ u.cart.blank = true)) → o = 0 ∨ o = n → o + (c.body.length - 22) ≤ 2 ^ 28 →
    exec .fileWrite s = .next (State.conclude u i c (.accepted [] [])) := by
  intro s u i c v o n h h1 hu h2 h3 h4 h5 h6 h7
  show Host.Outcome.next (s.fileWrite) = _
  unfold State.fileWrite
  refine congrArg _ (serve_eq_b h h1 hu _ _ ?_)
  dsimp only
  rw [← h2, ← h3, ← h4]
  rw [if_neg (by rintro ⟨a, b⟩; obtain ⟨p, q, _⟩ := h5 a; rw [p, q] at b; exact absurd b (by decide))]
  rw [if_neg (by rintro ⟨a, b⟩; obtain ⟨_, _, p, _⟩ := h5 a; rw [p] at b; exact absurd b (by decide))]
  rw [if_neg (by rintro ⟨a, b, d⟩; obtain ⟨_, _, _, p | p⟩ := h5 a <;> [(rw [p] at b; exact absurd b (by decide)); (rw [p] at d; exact absurd d (by decide))])]
  rw [if_neg (by omega)]

theorem complete_fileDelete : ∀ (s u : State) (i : Nat) (c : Cmd) (v : Nat) (l : List VFile) (f : VFile), s.executing 0x0A04 = some i → s.desk.cmds[i]? = some c → u = s.dropCmd i → v = byteAt c.body 0 → u.volume v = some l → fileOf l (sliceB c.body 1 16) = some f → (v = 1 → u.flag (F.CART_CARD_PERM_WP 0) = false ∧ u.flag (F.CART_CARD_TMP_WP 0) = false) →
    exec (.fileDelete true) s = .next (State.conclude (u.dropFile v f) i c (.done scOK [])) := by
  intro s u i c v l f h h1 hu h2 h3 h4 h5
  show Host.Outcome.next (s.fileDelete true) = _
  unfold State.fileDelete
  refine congrArg _ (serve_eq_b h h1 hu _ _ ?_)
  dsimp only
  rw [← h2, h3]
  dsimp only
  rw [h4]
  dsimp only
  rw [if_neg (by rintro ⟨a, b⟩; obtain ⟨p, q⟩ := h5 a; rw [p, q] at b; exact absurd b (by decide)), if_neg (by decide)]
  rfl

theorem complete_mediaEject : ∀ (s u : State) (i : Nat) (c : Cmd), s.executing 0x0A05 = some i → s.desk.cmds[i]? = some c → u = s.dropCmd i →
    exec .mediaEject s = .next (State.conclude u i c (.accepted [] [])) := by
  intro s u i c h h1 hu 
  show Host.Outcome.next (s.mediaEject) = _
  unfold State.mediaEject
  refine congrArg _ (serve_eq_b h h1 hu _ _ ?_)
  rfl

theorem complete_status : ∀ (s u : State) (i : Nat) (c : Cmd) (b : List Byte) (v : State), s.executing 0x0B01 = some i → s.desk.cmds[i]? = some c → u = s.dropCmd i → u.words [A.SYS_STATE, A.STIME_STATE, A.STIME_OFFSET] = (b, v) → (List.range 4).flatMap (fun n => (List.range 5).flatMap fun k => beBytes 4 (u.cntReg (A.SP_DROP n (0x0A + k))).toNat) = (List.range 4).flatMap (fun n => (List.range 5).flatMap fun k => beBytes 4 (v.cntReg (A.SP_DROP n (0x0A + k))).toNat) →
    exec .status s = .next (State.conclude v i c (.done scOK (b ++ (List.range 4).flatMap fun n => (List.range 5).flatMap fun k => beBytes 4 (v.cntReg (A.SP_DROP n (0x0A + k))).toNat))) := by
  intro s u i c b v h h1 hu h2 h3
  show Host.Outcome.next (s.statusCmd) = _
  unfold State.statusCmd
  refine congrArg _ (serve_eq_b h h1 hu _ _ ?_)
  dsimp only
  rw [h3, h2]

theorem complete_regRead : ∀ (s u : State) (i : Nat) (c : Cmd) (b : List Byte) (v : State), s.executing 0x0B02 = some i → s.desk.cmds[i]? = some c → u = s.dropCmd i → u.readWords ((List.range (byteAt c.body 4)).map fun k => beAt c.body 0 4 + 4 * k) [] = (.ok b, v) →
    exec .regRead s = .next (State.conclude v i c (.done scOK b)) := by
  intro s u i c b v h h1 hu h2
  show Host.Outcome.next (s.regReadCmd) = _
  unfold State.regReadCmd
  refine congrArg _ (serve_eq_b h h1 hu _ _ ?_)
  rw [h2]

theorem complete_selftest : ∀ (s u : State) (i : Nat) (c : Cmd) (results : Nat) (n : Nat) (v : State), s.executing 0x0B03 = some i → s.desk.cmds[i]? = some c → u = s.dropCmd i → ([1, 2, 3, 4, 5].foldl (fun (acc : Nat × State) t =>
      if bit (byteAt c.body 0) (t - 1) then (acc.1 + b2n (acc.2.selftestOne t (bit results (t - 1))).1 * 2 ^ (t - 1), (acc.2.selftestOne t (bit results (t - 1))).2) else acc) (0, u) = (n, v)) →
    exec (.selftest results) s = .next (State.settle (State.conclude v i c (.done scOK (beBytes 1 n)))) := by
  intro s u i c results n v h h1 hu h2
  show Host.Outcome.next (State.settle (s.selftestCmd results)) = _
  unfold State.selftestCmd
  refine congrArg (fun x => Host.Outcome.next (State.settle x)) (serve_eq_b h h1 hu _ _ ?_)
  dsimp only
  rw [h2]

theorem complete_trace : ∀ (s u : State) (i : Nat) (c : Cmd), s.executing 0x0B04 = some i → s.desk.cmds[i]? = some c → u = s.dropCmd i →
    exec .trace s = .next (State.conclude (u.traceCfg (BitVec.ofNat 32 (byteAt c.body 2 * 2 ^ 31 + byteAt c.body 1 * 256 + byteAt c.body 0))) i c (.done scOK [])) := by
  intro s u i c h h1 hu 
  show Host.Outcome.next (s.traceCmd) = _
  unfold State.traceCmd
  refine congrArg _ (serve_eq_b h h1 hu _ _ ?_)
  rfl

theorem complete_coreCtrl : ∀ (s u : State) (i : Nat) (c : Cmd), s.executing 0x0B05 = some i → s.desk.cmds[i]? = some c → u = s.dropCmd i →
    exec .coreCtrl s = .next (State.conclude (u.put8 (A.IRQ_CORE_CTRL (byteAt c.body 0)) (BitVec.ofNat 32 (byteAt c.body 1 * 2 ^ 31 + byteAt c.body 2 * 2 ^ 30 + beAt c.body 3 4 / 4))) i c (.done scOK [])) := by
  intro s u i c h h1 hu 
  show Host.Outcome.next (s.coreCtrlCmd) = _
  unfold State.coreCtrlCmd
  refine congrArg _ (serve_eq_b h h1 hu _ _ ?_)
  rfl

theorem complete_commission : ∀ (s u : State) (i : Nat) (c : Cmd), s.executing 0x0C01 = some i → s.desk.cmds[i]? = some c → u = s.dropCmd i → sliceB c.body 0 16 = serial16 → u.otp.owner.isEmpty = true ∨ (sliceB c.body 16 32 = u.otp.owner ∧ sliceB c.body 48 32 = u.otp.unlock) ∨ (sliceB c.body 16 32 = List.replicate 32 0#8 ∧ sliceB c.body 48 32 = List.replicate 32 0#8) →
    exec .commission s = .next (State.conclude u i c (.accepted [] [])) := by
  intro s u i c h h1 hu h2 h3
  show Host.Outcome.next (s.commission) = _
  unfold State.commission
  refine congrArg _ (serve_eq_b h h1 hu _ _ ?_)
  dsimp only
  rw [if_neg (by simp [h2]), if_neg (by rintro ⟨a, b⟩; rcases h3 with h3 | h3 <;> [(rw [h3] at a; exact absurd a (by decide)); (rw [Bool.not_eq_true', decide_eq_false_iff_not] at b; exact b h3)])]

theorem complete_unlock : ∀ (s u : State) (i : Nat) (c : Cmd) (agree : Bool), s.executing 0x0C02 = some i → s.desk.cmds[i]? = some c → u = s.dropCmd i → u.lifecycle ≠ .returned → u.lifecycle ≠ .decommissioned → (u.unlockCheck (c.body.take 64) agree).rd F.CURTAIN_UNLOCK_STAT_RESULT = ulACCEPTED →
    exec (.unlock true agree) s = .next (State.settle (if Config.unlockVerifies u.otp.unlock (c.body.take 64) (c.body.drop 64) then
      State.conclude { u.unlockCheck (c.body.take 64) agree with boot.warmDue := true } i c (.done scOK []) else State.conclude (u.unlockRefuse ulSIGNATURE) i c (.done scVERIFY_FAIL []))) := by
  intro s u i c agree h h1 hu h2 h3 h5
  show Host.Outcome.next (State.settle (s.unlockCmd true agree)) = _
  unfold State.unlockCmd
  refine congrArg (fun x => Host.Outcome.next (State.settle x)) ?_
  have t : u.twice true = (true, u) := if_pos rfl
  by_cases h4 : Config.unlockVerifies u.otp.unlock (c.body.take 64) (c.body.drop 64) = true
  · rw [if_pos h4]
    refine serve_eq_b h h1 hu _ _ ?_
    dsimp only
    rw [if_neg (by rintro (a | a) <;> [exact h2 a; exact h3 a]), t]
    dsimp only
    rw [if_neg (by rw [h4]; decide), if_pos h5]
    rfl
  · rw [if_neg h4]
    refine serve_eq_b h h1 hu _ _ ?_
    dsimp only
    rw [if_neg (by rintro (a | a) <;> [exact h2 a; exact h3 a]), t]
    dsimp only
    rw [if_pos (by simpa using h4)]
    rfl

theorem complete_modeReq : ∀ (s u : State) (i : Nat) (c : Cmd), s.executing 0x0C03 = some i → s.desk.cmds[i]? = some c → u = s.dropCmd i → u.modeReq.isSome = false → (u.desk.cmds.any fun x => x.op == 0x0C03 && x.phase == 2) = false → ¬(byteAt c.body 0 = 4 ∧ u.mode = .lead) → u.requestOk (Mode.ofCode (byteAt c.body 0)) = true →
    exec .modeReq s = .next (State.conclude (u.askMode (byteAt c.body 0)) i c (.accepted [byteAt c.body 0, 0] [])) := by
  intro s u i c h h1 hu h2 h3 h4 h5
  show Host.Outcome.next (s.modeReqCmd) = _
  unfold State.modeReqCmd
  refine congrArg _ (serve_eq_b h h1 hu _ _ ?_)
  dsimp only
  rw [if_neg (by rintro (a | a) <;> [(rw [h2] at a; exact absurd a (by decide)); (rw [h3] at a; exact absurd a (by decide))]), if_neg h4, if_neg (by rw [h5]; decide)]

theorem complete_reset : ∀ (s u : State) (i : Nat) (c : Cmd), s.executing 0x0C04 = some i → s.desk.cmds[i]? = some c → u = s.dropCmd i →
    exec .reset s = .next (State.conclude { u with boot.warmDue := true } i c (.done scOK [])) := by
  intro s u i c h h1 hu 
  show Host.Outcome.next (s.resetCmd) = _
  unfold State.resetCmd
  refine congrArg _ (serve_eq_b h h1 hu _ _ ?_)
  rfl

theorem complete_returnLc : ∀ (s u : State) (i : Nat) (c : Cmd) (a : Ans) (v : State), s.executing 0x0C05 = some i → s.desk.cmds[i]? = some c → u = s.dropCmd i → u.lcCmd c 3 = (a, v) →
    exec .returnLc s = .next (State.conclude v i c a) := by
  intro s u i c a v h h1 hu h2
  show Host.Outcome.next (s.returnCmd) = _
  unfold State.returnCmd
  refine congrArg _ (serve_eq_b h h1 hu _ _ ?_)
  exact h2

theorem complete_decommission : ∀ (s u : State) (i : Nat) (c : Cmd) (a : Ans) (v : State), s.executing 0x0C06 = some i → s.desk.cmds[i]? = some c → u = s.dropCmd i → u.lcCmd c 4 = (a, v) →
    exec .decommission s = .next (State.conclude v i c a) := by
  intro s u i c a v h h1 hu h2
  show Host.Outcome.next (s.decommissionCmd) = _
  unfold State.decommissionCmd
  refine congrArg _ (serve_eq_b h h1 hu _ _ ?_)
  exact h2

theorem complete_issue : ∀ (s u : State) (i : Nat) (c : Cmd) (a : Ans) (v : State), s.executing 0x0C07 = some i → s.desk.cmds[i]? = some c → u = s.dropCmd i → u.lcCmd c (byteAt c.body 16) = (a, v) →
    exec .issue s = .next (State.conclude v i c a) := by
  intro s u i c a v h h1 hu h2
  show Host.Outcome.next (s.issueCmd) = _
  unfold State.issueCmd
  refine congrArg _ (serve_eq_b h h1 hu _ _ ?_)
  exact h2

end Sys2Proof.Machine
end

