-- ==== Sys2Proof/Laws/CompletePins.lean ====
section
/-! SUPPORT. Completion lemmas: for each command of the PinsAndTripPair rows, the next state that `exec` answers, under
hypotheses on the state and the operands alone. One lemma per clause of the completion statements. -/

set_option maxRecDepth 8000

namespace Sys2Proof.Machine

theorem complete_groupSupplyChange : ∀ (s : State) (g v : Nat), s.pin.configured = true → ∀ u : State, u = { s with pin.supply := put noneAt s.pin.supply g (some v) } →
    (u.supplyOk g ≠ u.supplyGood g → exec (.groupSupplyChange g v) s = .next (u.supplyChange g (u.supplyGood g))) ∧
    (u.supplyOk g = u.supplyGood g → exec (.groupSupplyChange g v) s = .next u) := by
  intro s g v h u hu
  have hc : u.pin.configured = true := by rw [hu]; exact h
  have e : exec (.groupSupplyChange g v) s = .next (u.checkSupply g) := by rw [hu]; rfl
  rw [e]
  unfold State.checkSupply
  constructor
  · intro h1
    exact congrArg _ (if_pos (by simp [hc, h1]))
  · intro h1
    exact congrArg _ (if_neg (by simp [h1]))

theorem complete_supplyRestoreDrive : ∀ (s u : State) (g : Nat), s.armed (.supplyOn g) = true → u = s.elapsed (.supplyOn g) →
    exec (.supplyRestoreDrive g) s = .next (State.refreshGroup { u with pin.drive := if u.pin.drive.contains g then u.pin.drive else u.pin.drive ++ [g] } g) := by
  intro s u g h hu
  exact fire_next (k := fun s => s.supplyDrive g) h (hu ▸ rfl)

theorem complete_pinInputChange : ∀ (s : State) (p frac : Nat) (level : Option Bool),
    exec (.pinInputChange p level frac) s = .next ((s.setPin p { s.pinOf p with ext := level }).refreshPinAt frac p) := by
  intro s p frac level
  rfl

theorem complete_edgeAccept : ∀ (s : State) (p st frac : Nat), s.armed (.pinFilter p) = true → ((s.elapsed (.pinFilter p)).pinOf p).cand = some (st, frac) →
    (s.elapsed (.pinFilter p)).inputOn p = true → exec (.edgeAccept p) s = .next ((s.elapsed (.pinFilter p)).acceptEdge p st frac) := by
  intro s p st frac h h1 h2
  refine fire_next (k := fun s => s.filterDone p) h ?_
  unfold State.filterDone
  rw [h1]
  exact if_pos h2

theorem complete_dtVerdict : ∀ (s u a b c d : State) (g v w : Nat) (e : DtEval) (o : Nat × Nat), (s.dtake.evals.find? fun e => e.group == g) = some e →
    u = s.reachST (e.start + (8 + e.delay + 40 + 1) / 2) →
    State.dtPath2 { u with dtake.evals := u.dtake.evals.erase e } g e.old = (o, a) → dtVerdict e.first o = (v, w) →
    b = (a.wr (F.DTAKE_VERDICT_VERDICT g) v).wr (F.DTAKE_VERDICT_FRAME g) (e.frame % 65536) →
    c = State.next { b with
      dtake.frames := put noneAt b.dtake.frames g (some e.frame),
      us.commits := if e.counted then b.us.commits else b.us.commits ++ [(g, if v = dtAGREE then w else if v = dtDISAGREE then 0xFFFFFFFF else b.draw % 2 ^ 32)] } →
    d = State.dtRecord (State.dtHandover (if v = dtAGREE then { c with dtake.agreed := c.dtake.agreed ++ [(g, e.due + 512, w)] } else c) g v w) g v →
    exec (.dtVerdict g) s = .next (State.complete d.next e.ticket (v != dtAGREE && d.draw % 2 == 1)).settle := by
  intro s u a b c d g v w e o h hu ha hv hb hc hd
  show Host.Outcome.next (s.dtFinish g).settle = _
  unfold State.dtFinish
  rw [h]
  simp only
  rw [← hu, ha]
  simp only
  rw [hv]
  subst hb
  subst hc
  subst hd
  rfl

theorem complete_tripPairCommit : ∀ (s u : State) (g k t w : Nat), (s.dtake.agreed.find? fun a => a.1 == g) = some (k, t, w) →
    u = { s.reachST t with dtake.agreed := s.dtake.agreed.filter fun a => !(a.1 == g && a.2.1 == t) } → u.mode ≠ .curtain →
    (u.mode ≠ .understudy → exec (.tripPairCommit g) s = .next ((u.wr (F.DTAKE_WORD_WORD g) w).tripCommit g (BitVec.ofNat 32 w))) ∧
    (u.mode = .understudy → exec (.tripPairCommit g) s = .next (u.wr (F.DTAKE_WORD_WORD g) w)) := by
  intro s u g k t w h hu hm
  have e : exec (.tripPairCommit g) s = .next (if (u.wr (F.DTAKE_WORD_WORD g) w).mode == .understudy then u.wr (F.DTAKE_WORD_WORD g) w
      else (u.wr (F.DTAKE_WORD_WORD g) w).tripCommit g (BitVec.ofNat 32 w)) := by
    show Host.Outcome.next (s.dtCommit g) = _
    unfold State.dtCommit
    rw [h]
    simp only
    rw [← hu]
    exact congrArg _ (if_neg (by simp [hm]))
  have hw : (u.wr (F.DTAKE_WORD_WORD g) w).mode = u.mode := mode_wr (by show A.SYS_STATE ≠ A.DTAKE_WORD g; show 0x40000000 ≠ _; unfold A.DTAKE_WORD; omega)
  rw [e, hw]
  constructor
  · intro h1
    exact congrArg _ (if_neg (by simp [h1]))
  · intro h1
    exact congrArg _ (if_pos (by simp [h1]))

theorem rbMismatch_eq {u v : State} {p st : Nat} (h1 : (u.pinOf p).rbStart = some st)
    (hv : v = (((u.setPin p { u.pinOf p with mis := true, booked := true }).showRb (p / 2)).pinEvent p 2 0 st).pinIrq (F.PINS_GRP_IRQ_RB (p / 8)) (p / 8)) :
    u.rbMismatch p = if (u.pinOf p).booked then v else v.postU 0x7002 6 [p] := by
  unfold State.rbMismatch
  simp only
  split
  · rename_i e
    exact absurd (e.symm.trans h1) (by simp)
  · rename_i x e
    obtain rfl : x = st := Option.some.inj (e.symm.trans h1)
    rw [hv]

theorem complete_readbackMismatch : ∀ (s u v : State) (p st : Nat), s.armed (.pinRb p) = true → u = s.elapsed (.pinRb p) → (u.pinOf p).rbStart = some st →
    v = (((u.setPin p { u.pinOf p with mis := true, booked := true }).showRb (p / 2)).pinEvent p 2 0 st).pinIrq (F.PINS_GRP_IRQ_RB (p / 8)) (p / 8) →
    exec (.readbackMismatch p) s = .next (if (u.pinOf p).booked then v else v.postU 0x7002 6 [p]) := by
  intro s u v p st h hu h1 hv
  refine fire_next (k := fun s => s.rbMismatch p) h ?_
  rw [← hu]
  exact rbMismatch_eq h1 hv

theorem complete_ppsOutRise : ∀ (s u : State), s.timeRuns = true → u = { s.reachST s.nextSecond with pin.ppsLast := some s.nextSecond } →
    exec .ppsOutRise s = .next ((u.ppsCommand (!(u.lvFlag F.PINS_PPS_CFG_SYNC_ONLY && u.unsynced))).arm .ppsFall
      (u.lv F.PINS_PPS_CFG_WIDTH * ticksPerUs)) := by
  intro s u h hu
  show Host.Outcome.next s.ppsRise = _
  unfold State.ppsRise
  rw [if_neg (by simp [h])]
  dsimp only
  rw [← hu]

theorem complete_ppsOutFall : ∀ s : State, s.armed .ppsFall = true →
    exec .ppsOutFall s = .next ((s.elapsed .ppsFall).ppsCommand false) := by
  intro s h
  exact congrArg _ (if_pos h)

theorem complete_irigFrameEnd : ∀ (s : State) (highs : List Nat) (edge p : Nat), s.irigPin = some p → s.supplyOk (p / 8) = true → s.pin.dead = false → s.mode ≠ .curtain →
    (irigDecode (s.lv F.PINS_IRIG_CFG_FORMAT) highs = none → exec (.irigFrameEnd highs edge) s = .next (s.irigBad p)) ∧
    (∀ (day sec : Nat) (yy : Option Nat), irigDecode (s.lv F.PINS_IRIG_CFG_FORMAT) highs = some (day, sec, yy) →
      exec (.irigFrameEnd highs edge) s = .next (s.irigGoodFrame edge (s.irigSeconds day sec yy))) := by
  intro s highs edge p h h1 h2 h3
  have e : exec (.irigFrameEnd highs edge) s = .next (match irigDecode (s.lv F.PINS_IRIG_CFG_FORMAT) highs with
      | none => s.irigBad p
      | some (day, sec, yy) => s.irigGoodFrame edge (s.irigSeconds day sec yy)) := by
    show Host.Outcome.next (s.irigFrame highs edge) = _
    unfold State.irigFrame
    rw [h]
    exact congrArg _ (if_neg (by simp [h1, h2, h3]))
  constructor
  · intro h4
    rw [e, h4]
  · intro day sec yy h4
    rw [e, h4]

theorem complete_grpCntClr : ∀ (s : State) (m g : Nat), g < 32 → s.mayWrite m (A.PINS_GRP_IRQ g) = true → ∀ u : State,
    u = (s.wr (F.PINS_GRP_STAT_CUE_DROP g) 0).wr (F.PINS_GRP_STAT_EVT_LOST g) 0 →
    exec (.grpCntClr m g) s = .next (u.setReg (A.PINS_GRP_IRQ g) (u.reg (A.PINS_GRP_IRQ g))).settle := by
  intro s m g hg h u hu
  have e : ∀ w, s.regWrite m (A.PINS_GRP_IRQ g) w = (none, s.grpIrq g w) := by intro w; interval_cases g <;> rfl
  refine congrArg _ (store_reg h (by interval_cases g <;> decide) ((e _).trans (congrArg _ ?_)))
  unfold State.grpIrq
  rw [if_pos (by decide), ← hu, show ~~~(BitVec.twoPow 32 31 &&& 0x1F#32) = BitVec.allOnes 32 by decide]
  dsimp only
  rw [BitVec.and_allOnes]

end Sys2Proof.Machine
end

