-- ==== Sys2Proof/Laws/CompletePorts.lean ====
section
/-! SUPPORT. Completion lemmas: for each command of the PortRegister, PortTraffic, Ptp rows, the next state that `exec` answers, under
hypotheses on the state and the operands alone. One lemma per clause of the completion statements. -/

set_option maxRecDepth 8000

namespace Sys2Proof.Machine

theorem complete_linkCfgWrite : ∀ (s : State) (m n : Nat) (w : Word), n < 4 → s.mayWrite m (A.SP_LINK_CFG n) = true → getBits w 2 0 ≤ 4 →
    (getBits w 2 0 ≠ s.rd (F.SP_LINK_CFG_MODE n) ∨ getBits w 4 4 ≠ s.rd (F.SP_LINK_CFG_AN n)) →
    ∀ u : State, u = ((if s.linkUp n then s.next.linkLost n (s.draw % 2 == 1) else (s.linkDrop n).sat (F.SP_LINK_STAT_DOWN_COUNT n)).wr
      (F.SP_LINK_CFG_MODE n) (getBits w 2 0)).wr (F.SP_LINK_CFG_AN n) (getBits w 4 4) →
    exec (.linkCfgWrite m n w) s = .next (if getBits w 2 0 = 0 then (u.wr (F.SP_LINK_STAT_HELD n) (b2n (u.portHeld n))).disarm (.linkRestart n)
      else (u.wr (F.SP_LINK_STAT_HELD n) (b2n (u.portHeld n))).arm (.linkRestart n) ticksPerMs).settle := by
  intro s m n w hn h hm hc u hu
  have hw : s.regWrite m (A.SP_LINK_CFG n) w = (none, s.linkCfgWrite n w) := by interval_cases n <;> rfl
  refine congrArg _ (store_reg h (by interval_cases n <;> decide) (hw.trans (congrArg _ ?_)))
  unfold State.linkCfgWrite
  dsimp only
  rw [if_pos hm, if_neg, ← hu]
  rintro ⟨h1, h2⟩
  exact hc.elim (fun h => h h1) (fun h => h h2)

theorem complete_redCfgWrite : ∀ (s : State) (m p : Nat) (w : Word), p < 2 → s.mayWrite m (A.SWITCH_RED_CFG p) = true → s.rd (F.SP_LINK_CFG_MODE (2 * p)) = 0 →
    s.rd (F.SP_LINK_CFG_MODE (2 * p + 1)) = 0 → getBits w 31 30 ≠ 3 → ∀ u : State, u = s.setReg (A.SWITCH_RED_CFG p)
      (setBits (setBits (setBits 0#32 31 30 (getBits w 31 30)) 23 16 (getBits w 23 16)) 15 0 (getBits w 15 0)) →
    exec (.redCfgWrite m p w) s = .next (if getBits w 31 30 = 0 then u.disarm (.supSend p) else u.arm (.supSend p) (u.supTicks p)).settle := by
  intro s m p w hp h h1 h2 h3 u hu
  subst hu
  have hw : s.regWrite m (A.SWITCH_RED_CFG p) w = (none, s.redCfgWrite p w) := by interval_cases p <;> rfl
  refine congrArg _ (store_reg h (by interval_cases p <;> decide) (hw.trans (congrArg _ ?_)))
  unfold State.redCfgWrite
  rw [if_pos ⟨h1, h2⟩]
  simp only [if_neg h3]

theorem complete_ptpPortWrite : ∀ (s : State) (m n : Nat) (w : Word), s.mayWrite m A.SWITCH_PTP_PORT = true →
    (List.range 4).filter (fun k => getBits w 7 0 / 4 ^ k % 4 == 2) = [n] →
    exec (.ptpPortWrite m w) s = .next (((s.wr F.SWITCH_PTP_PORT_STATE (getBits w 7 0)).wr F.SWITCH_PTP_STAT_PATH_DELAY (s.port n).delay).ptpWatch s.ptpSlave).settle := by
  intro s m n w h hf
  refine congrArg _ (store_reg h (by decide) (show _ = _ from congrArg (Prod.mk none) ?_))
  show s.ptpPortWrite w = _
  unfold State.ptpPortWrite
  have hd : (List.range 4).find? (fun k => getBits w 7 0 / 4 ^ k % 4 == 2) = some n := by
    rw [← List.head?_filter, hf]; rfl
  simp only [hf, hd, List.length_singleton]
  rfl

theorem complete_portCntSnap : ∀ (s : State) (m n : Nat), n < 4 → s.mayWrite m (A.SP_CNT_CTRL n) = true →
    exec (.portCntSnap m n) s = .next (s.snapAll (portCounters n)).settle := by
  intro s m n hn h
  have hw : s.regWrite m (A.SP_CNT_CTRL n) (BitVec.twoPow 32 31) = (none, s.snapAll (portCounters n)) := by interval_cases n <;> rfl
  exact congrArg _ (store_reg h (by interval_cases n <;> decide) hw)

theorem complete_portCntClr : ∀ (s : State) (m n : Nat), n < 4 → s.mayWrite m (A.SP_CNT_CTRL n) = true →
    exec (.portCntClr m n) s = .next ((s.clearAll (portCounters n)).wr (F.SP_LINK_STAT_DOWN_COUNT n) 0).settle := by
  intro s m n hn h
  have hw : s.regWrite m (A.SP_CNT_CTRL n) (BitVec.twoPow 32 30) = (none, (s.clearAll (portCounters n)).wr (F.SP_LINK_STAT_DOWN_COUNT n) 0) := by
    interval_cases n <;> rfl
  exact congrArg _ (store_reg h (by interval_cases n <;> decide) hw)

theorem complete_soloistKeyPush : ∀ (s : State) (m : Nat), s.mayWrite m A.SOLOIST_KEY_PUSH = true → s.flag (F.BLOCK_COMMIT_STATUS_PENDING Base.SOLOIST) = false →
    s.sol.changes = [] → s.solReason (s.rd F.SOLOIST_KEY_IDX_INDEX) false = 0 →
    exec (.soloistKeyPush m) s = .next ((State.wr { s.wr F.SOLOIST_KEY_STAT_LAST_REFUSED 0 with
      sol.changes := [(s.rd F.SOLOIST_KEY_IDX_INDEX, KeyPush.mk false (s.flag F.SOLOIST_KEY_IDX_SLOT) (some s.stagedStreamKey)
        ((s.reg A.SOLOIST_KEY_CHG_LO).toNat + 2 ^ 32 * getBits (s.reg A.SOLOIST_KEY_CHG_HI) 15 0) (s.rd F.SOLOIST_KEY_ATTR_OVERLAP))] }
      F.SOLOIST_KEY_STAT_LIST_COUNT 1).wipeStagedKey).settle := by
  intro s m h h1 h2 h3
  refine congrArg _ (store_reg h (by decide) (show _ = _ from congrArg (Prod.mk none) ?_))
  show s.solPush (BitVec.twoPow 32 31) = _
  unfold State.solPush
  rw [if_neg (by decide)]
  simp only [show (BitVec.twoPow 32 31).getLsbD 30 = false from by decide, h1, h2, h3, List.any_nil, Bool.false_eq_true, if_false, List.length_nil]
  rfl

theorem complete_soloistKeyErase : ∀ (s : State) (m : Nat), s.mayWrite m A.SOLOIST_KEY_PUSH = true → s.flag (F.BLOCK_COMMIT_STATUS_PENDING Base.SOLOIST) = false →
    s.sol.changes = [] → s.solReason (s.rd F.SOLOIST_KEY_IDX_INDEX) true = 0 →
    exec (.soloistKeyErase m) s = .next ((State.wr { s.wr F.SOLOIST_KEY_STAT_LAST_REFUSED 0 with
      sol.changes := [(s.rd F.SOLOIST_KEY_IDX_INDEX, KeyPush.mk true false none 0 0)] }
      F.SOLOIST_KEY_STAT_LIST_COUNT 1).wipeStagedKey).settle := by
  intro s m h h1 h2 h3
  refine congrArg _ (store_reg h (by decide) (show _ = _ from congrArg (Prod.mk none) ?_))
  show s.solPush (BitVec.ofNat 32 (2 ^ 31 + 2 ^ 30)) = _
  unfold State.solPush
  rw [if_neg (by decide)]
  simp only [show (BitVec.ofNat 32 (2 ^ 31 + 2 ^ 30)).getLsbD 30 = true from by decide, h1, h2, h3, List.any_nil, Bool.false_eq_true, if_false, List.length_nil]
  rfl

theorem complete_soloistCntClear : ∀ (s : State) (m k : Nat) (w : Word), k < 3 → s.mayWrite m (A.SOLOIST_CNT k) = true →
    exec (.soloistCntClear m k w) s = .next (s.setReg (A.SOLOIST_CNT k) 0).settle := by
  intro s m k w hk h
  have hw : s.regWrite m (A.SOLOIST_CNT k) w = (none, s.setReg (A.SOLOIST_CNT k) 0) := by interval_cases k <;> rfl
  exact congrArg _ (store_reg h (by interval_cases k <;> decide) hw)

theorem complete_switchEditPush : ∀ (s : State) (m t i : Nat), s.mayWrite m A.SWITCH_EDIT_PUSH = true → t < 8 → i < 16384 →
    s.flag (F.BLOCK_COMMIT_STATUS_PENDING Base.SWITCH) = false → s.sw.changes = [] →
    ∀ ws : List Word, ws = ((List.range 4).map fun k => if k < swWords t then s.reg (A.SWITCH_EDIT_W k) &&& swMask t k else 0#32) → s.swReason t i false ws = 0 →
    exec (.switchEditPush m t i) s = .next (State.wr { s.wr F.SWITCH_EDIT_STAT_LAST_REFUSED 0 with sw.changes := [(swKey t i 0, ws)] }
      F.SWITCH_EDIT_STAT_LIST_COUNT 1).settle := by
  intro s m t i h ht hi h1 h2 ws hws hr
  subst hws
  refine congrArg _ (store_reg h (by decide) (show _ = _ from congrArg (Prod.mk none) ?_))
  show s.swEditWrite _ = _
  unfold State.swEditWrite
  have e27 : (2 ^ 31 + t * 2 ^ 27 + i) / 2 ^ 27 % 2 ^ (29 + 1 - 27) = t := by omega
  have e0 : (2 ^ 31 + t * 2 ^ 27 + i) / 2 ^ 0 % 2 ^ (13 + 1 - 0) = i := by omega
  have b31 : (BitVec.ofNat 32 (2 ^ 31 + t * 2 ^ 27 + i)).getLsbD 31 = true := by rw [getLsbD_ofNat32 _ _ (by omega)]; simp; omega
  have b30 : (BitVec.ofNat 32 (2 ^ 31 + t * 2 ^ 27 + i)).getLsbD 30 = false := by rw [getLsbD_ofNat32 _ _ (by omega)]; simp; omega
  rw [if_neg (by rw [b31]; decide)]
  simp only [getBits_ofNat32 _ _ _ (by omega : 2 ^ 31 + t * 2 ^ 27 + i < 2 ^ 32), e27, e0, b30, h1, h2, hr, Bool.false_eq_true, if_false, List.any_nil, List.length_nil]
  rfl

theorem complete_switchEditDelete : ∀ (s : State) (m t i : Nat), s.mayWrite m A.SWITCH_EDIT_PUSH = true → t < 8 → i < 16384 →
    s.flag (F.BLOCK_COMMIT_STATUS_PENDING Base.SWITCH) = false → s.sw.changes = [] → s.swReason t i true (List.replicate 4 0#32) = 0 →
    exec (.switchEditDelete m t i) s = .next (State.wr { s.wr F.SWITCH_EDIT_STAT_LAST_REFUSED 0 with sw.changes := [(swKey t i 0, List.replicate 4 0#32)] }
      F.SWITCH_EDIT_STAT_LIST_COUNT 1).settle := by
  intro s m t i h ht hi h1 h2 hr
  refine congrArg _ (store_reg h (by decide) (show _ = _ from congrArg (Prod.mk none) ?_))
  show s.swEditWrite _ = _
  unfold State.swEditWrite
  have e27 : (2 ^ 31 + 2 ^ 30 + t * 2 ^ 27 + i) / 2 ^ 27 % 2 ^ (29 + 1 - 27) = t := by omega
  have e0 : (2 ^ 31 + 2 ^ 30 + t * 2 ^ 27 + i) / 2 ^ 0 % 2 ^ (13 + 1 - 0) = i := by omega
  have b31 : (BitVec.ofNat 32 (2 ^ 31 + 2 ^ 30 + t * 2 ^ 27 + i)).getLsbD 31 = true := by rw [getLsbD_ofNat32 _ _ (by omega)]; simp; omega
  have b30 : (BitVec.ofNat 32 (2 ^ 31 + 2 ^ 30 + t * 2 ^ 27 + i)).getLsbD 30 = true := by rw [getLsbD_ofNat32 _ _ (by omega)]; simp; omega
  rw [if_neg (by rw [b31]; decide)]
  simp only [getBits_ofNat32 _ _ _ (by omega : 2 ^ 31 + 2 ^ 30 + t * 2 ^ 27 + i < 2 ^ 32), e27, e0, b30, h1, h2, hr, Bool.false_eq_true, if_false, if_true, List.any_nil, List.length_nil]
  rfl

theorem complete_linkUp : ∀ (s : State) (n : Nat) (ok : Bool), s.rd (F.SP_LINK_CFG_MODE n) ≠ 0 → (s.rd (F.SP_LINK_CFG_MODE n) = 2 → ok = true) → s.linkUp n = false →
    s.armed (.linkRestart n) = false → ∀ u : State, u.mode ≠ .curtain → u = (s.wr (F.SP_LINK_STAT_BLOCK_LOCK n) 1).wr (F.SP_LINK_STAT_AN_DONE n)
      (b2n ((s.rd (F.SP_LINK_CFG_MODE n) == 1 && s.flag (F.SP_LINK_CFG_AN n)) || s.rd (F.SP_LINK_CFG_MODE n) == 2)) → u.portHeld n = false →
    exec (.linkUp n ok) s = .next ((((u.wr (F.SP_LINK_STAT_HELD n) 0).wr (F.SP_LINK_STAT_UP n) 1).wr (F.SP_LINK_STAT_ACTIVE n) (s.rd (F.SP_LINK_CFG_MODE n))).irq (96 + 2 * n)) := by
  intro s n ok h1 h2 h3 h4 u h6 hu h5
  show Host.Outcome.next (s.linkRise n ok) = _
  unfold State.linkRise
  have hg : ¬(s.rd (F.SP_LINK_CFG_MODE n) = 0 ∨ s.linkUp n = true ∨ s.rd (F.SP_LINK_CFG_MODE n) = 2 ∧ (!ok) = true) := by
    rintro (h | h | ⟨h, h'⟩)
    · exact h1 h
    · rw [h3] at h; cases h
    · rw [h2 h] at h'; cases h'
  simp only [if_neg hg, h4, Bool.false_eq_true, if_false, ← hu, h5, beq_eq_false_iff_ne.mpr h6]

theorem complete_linkDown : ∀ (s : State) (n : Nat) (midFrame : Bool), s.linkUp n = true →
    exec (.linkDown n midFrame) s = .next (((if midFrame then (s.satCnt (F.SP_RX_FRAMES_COUNT n)).rxDrop n 0x01 0 else s).linkDrop n).settle) := by
  intro s n mf h
  show Host.Outcome.next (s.linkLost n mf).settle = _
  unfold State.linkLost
  rw [if_neg (by rw [h]; decide)]

theorem complete_rxFrame : ∀ (s : State) (n frac : Nat) (f : RxFrame), s.linkUp n = true → f.errored = false → 64 ≤ f.len → f.len ≤ 2000 →
    ∀ u : State, u = (s.satCnt (F.SP_RX_FRAMES_COUNT n)).wrapCnt (F.SP_RX_BYTES_COUNT n) f.len → ¬(u.redMode n = 2 ∧ f.smac = u.portMac n) →
    bit (u.vlanMember (f.vid.getD 0)) n = true → isGrid f.etype = true →
    exec (.rxFrame n frac f) s = .next ((u.forward n frac f (u.forwardTo n f) (u.ringTo n f)).rxGrid n frac f
      (!(u.forwardTo n f ++ u.ringTo n f).isEmpty)) := by
  intro s n frac f h1 h2 h3 h4 u hu h5 h6 h7
  show Host.Outcome.next (s.rxFrame n frac f) = _
  unfold State.rxFrame
  rw [if_neg (by rw [h1]; decide)]
  simp only [← hu, h2, Bool.false_eq_true, if_false, if_neg (by omega : ¬(f.len < 64 ∨ 2000 < f.len)), if_neg h5, h6, h7, Bool.not_true, if_true]

theorem complete_frameAuthenticate : ∀ (s v u : State) (k mismatches : Nat) (i : AuthItem) (rest : List AuthItem) (x : RxExt) (sel : Nat) (key : KeyVal),
    s.authBuf k = i :: rest → v = { s with ports.auth := put (fun _ => []) s.ports.auth k rest } → i.frame.ext = some x → i.frame.red = none →
    getBits (i.words.getD 0 0#32) 30 29 ≠ 2 →
    (v.streamKey (getBits (i.words.getD 2 0#32) 31 20)).accept x.kid (frameAt v.call v.rate i.st) = .inr (sel, key) →
    v.cipherMeets k mismatches = (false, u) →
    exec (.frameAuthenticate k mismatches) s = .next (State.settle (if macPasses key i.frame x (tagBytes (getBits (i.words.getD 0 0#32) 28 27)) then
      (u.satCnt (F.SP_AUTH_PASS_COUNT i.port)).deliver i (getBits (i.words.getD 0 0#32) 17 0) 0x14 sel true else u.rxDrop i.port 0x0E i.stream)) := by
  intro s v u k mm i rest x sel key h1 hv h2 h3 h4 h5 h6
  subst hv
  show Host.Outcome.next (s.authFrame k mm).settle = _
  refine congrArg (fun x => Host.Outcome.next (State.settle x)) ?_
  unfold State.authFrame
  rw [h1]
  simp only [h2, if_neg h4, h5, h6, h3]
  cases macPasses key i.frame x (tagBytes (getBits (i.words.getD 0 0#32) 28 27)) <;>
    simp only [Bool.not_true, Bool.not_false, Bool.false_eq_true, if_false, if_true]

theorem complete_ddEntryAge : ∀ (s : State) (p : Nat) (e : DdEntry) (l : List DdEntry), s.ddTable p = e :: l →
    exec (.ddEntryAge p) s = .next ((s.reachST (e.made + s.rd (F.SWITCH_RED_CFG_DD_AGE p) * ticksPerMs)).ddForget p) := by
  intro s p e l h
  show Host.Outcome.next (s.ddAge p) = _
  unfold State.ddAge
  rw [h]

theorem complete_supervisionTx : ∀ (s a b u v : State) (p q : Nat) (fr : List Byte), s.armed (.supSend p) = true → a = s.elapsed (.supSend p) →
    b = a.arm (.supSend p) (a.supTicks p) → b.mode ≠ .curtain → fr = Config.supFrame (b.redMode (2 * p)) (b.portMac (2 * p)) b.draw → b.next.nextSeq p = (q, u) →
    u.linkUp (2 * p) = true → v = u.emit (2 * p) 1 (Config.redundant (u.redMode (2 * p)) (2 * p % 2) q fr) → v.linkUp (2 * p + 1) = true →
    exec (.supervisionTx p) s = .next (v.emit (2 * p + 1) 1 (Config.redundant (v.redMode (2 * p + 1)) ((2 * p + 1) % 2) q fr)) := by
  intro s a b u v p q fr h1 ha hb h2 hf hq h3 hv h4
  refine congrArg _ ((if_pos h1).trans ?_)
  change (s.elapsed (.supSend p)).supSend p = _
  rw [← ha]
  unfold State.supSend
  dsimp only
  rw [← hb, if_neg h2, hq, ← hf]
  simp only [List.foldl_cons, List.foldl_nil, h3, if_true]
  rw [← hv, if_pos h4]

theorem complete_supervisionTimeout : ∀ (s : State) (p : Nat), s.armed (.supervision p) = true → (s.elapsed (.supervision p)).flag (seenFld p) = true →
    exec (.supervisionTimeout p) s = .next (((s.elapsed (.supervision p)).wr (seenFld p) 0).irq 107) := by
  intro s p h h1
  exact congrArg _ ((if_pos h).trans (if_pos h1))

theorem complete_egressQueueTx : ∀ (s : State) (n mismatches k : Nat), (s.port n).busy = 0 → (s.port n).jobs = [] → (s.port n).fwd = [] → (s.port n).twins = [] →
    s.linkUp n = true → s.guarded n = false → ([6, 5, 4, 3, 2, 1, 0].find? fun k => s.txqReady n k) = some k →
    exec (.egressQueueTx n mismatches) s = .next (s.sendQueued n k mismatches).settle := by
  intro s n mm k h1 h2 h3 h3' h4 h5 h6
  show Host.Outcome.next (s.egressQueue n mm).settle = _
  unfold State.egressQueue
  simp only [h1, h2, h3, h3', h4, h5, List.isEmpty_nil, List.any_nil, Bool.false_or, Bool.true_or, h6, List.find?_nil, ne_eq, not_true_eq_false, Bool.not_true, Bool.false_eq_true,
    or_self, if_false]

theorem complete_releaseStart : ∀ (s : State) (n mismatches : Nat) (r : RelPre) (ds : List Nat) (u : State), (s.port n).firstRel = some r → r.descs = some ds →
    u = (s.reachST r.time).setPort n { (s.reachST r.time).port n with pre := ((s.reachST r.time).port n).pre.erase r } →
    (r.word.getLsbD 30 = true → u.agreed (getBits r.word 29 26) = true) →
    exec (.releaseStart n mismatches) s = .next (u.relBegin n mismatches r ds).settle := by
  intro s n mm r ds u h1 h2 hu h3
  subst hu
  show Host.Outcome.next (s.releaseStart n mm).settle = _
  unfold State.releaseStart
  rw [h1]
  simp only [h2]
  rw [if_neg]
  rw [Bool.and_eq_true]
  rintro ⟨ha, hb⟩
  rw [h3 ha] at hb
  cases hb

theorem complete_txFrameEnd : ∀ (s : State) (n mismatches : Nat), (s.port n).busy ≠ 0 →
    exec (.txFrameEnd n mismatches) s = .next ((s.setPort n { s.port n with busy := 0 }).runJobs n mismatches (s.port n).work).settle := by
  intro s n mm h
  show Host.Outcome.next (s.txEnd n mm).settle = _
  unfold State.txEnd
  rw [if_neg h]

theorem complete_ptpSyncRx : ∀ (s : State) (n frac domain sec ns : Nat) (corr : Int), s.ptpOn n = true → s.ptpState n = 2 → domain = s.rd F.SWITCH_PTP_CFG_DOMAIN →
    exec (.ptpSyncRx n frac domain sec ns corr) s = .next
      (((((s.next.wrap F.SWITCH_PTP_STAT_SAMPLES).irq 104).deliverSample srcPTP
        ((s.arrival n frac : Int) - ((sec * 1000000000 + ns : Nat) * 128 + corr / 512 + (if corr % 512 ≠ 0 ∧ s.draw % 2 = 1 then 1 else 0) + s.rd F.SWITCH_PTP_STAT_PATH_DELAY))).arm
          .syncTimeout (3 * State.syncTicks (((s.next.wrap F.SWITCH_PTP_STAT_SAMPLES).irq 104).deliverSample srcPTP
        ((s.arrival n frac : Int) - ((sec * 1000000000 + ns : Nat) * 128 + corr / 512 + (if corr % 512 ≠ 0 ∧ s.draw % 2 = 1 then 1 else 0) + s.rd F.SWITCH_PTP_STAT_PATH_DELAY))))).gridToPtp) := by
  intro s n frac d sec ns corr h1 h2 h3
  show Host.Outcome.next (s.ptpSync n frac d sec ns corr).gridToPtp = _
  unfold State.ptpSync
  rw [if_pos (by rw [h1, h2, h3]; simp)]

theorem complete_ptpSyncTx : ∀ (s a b : State) (n frac t log : Nat), s.armed (.syncSend n) = true → a = (s.elapsed (.syncSend n)).arm (.syncSend n) (s.elapsed (.syncSend n)).syncTicks →
    a.ptpOn n = true → a.ptpState n = 1 → t = a.departure n frac → b = a.setPort n { a.port n with syncSeq := ((a.port n).syncSeq + 1) % 65536 } →
    log = (if b.rd F.SWITCH_PTP_CFG_LOG_SYNC = 0 then 0 else 240 + b.rd F.SWITCH_PTP_CFG_LOG_SYNC) →
    ∀ c : State, c = b.originate n 2 (b.ptpFrame n 0 true 0 (a.port n).syncSeq log (List.replicate 10 0#8)) →
    exec (.ptpSyncTx n frac) s = .next (if b.flag F.SWITCH_PTP_CFG_ONE_STEP then b.originate n 2 (b.ptpFrame n 0 false (ptpRest t) (a.port n).syncSeq log (ptpStamp t))
      else c.originate n 3 (b.ptpFrame n 8 false (ptpRest t) (a.port n).syncSeq log (ptpStamp t))) := by
  intro s a b n frac t log h1 ha h2 h3 ht hb hl c hc
  refine congrArg _ ((if_pos h1).trans ?_)
  change (s.elapsed (.syncSend n)).ptpSendSync n frac = _
  unfold State.ptpSendSync
  dsimp only
  rw [← ha, if_pos (by rw [h2, h3]; rfl), ← ht, ← hb, ← hl, ← hc]

theorem complete_pdelayReqTx : ∀ (s u : State) (n frac : Nat), s.ptpOn n = true →
    u = s.setPort n { s.port n with t1 := some (s.departure n frac), reqSeq := ((s.port n).reqSeq + 1) % 65536 } →
    exec (.pdelayReqTx n frac) s = .next (u.originate n 4 (s.ptpFrame n 2 false 0 (s.port n).reqSeq 127 (List.replicate 20 0#8))) := by
  intro s u n frac h1 hu
  subst hu
  exact congrArg _ (if_pos h1)

theorem complete_pdelayReqRx : ∀ (s : State) (n frac domain turnaround t2 t3 seq : Nat) (asker who : List Byte), s.ptpOn n = true → domain = s.rd F.SWITCH_PTP_CFG_DOMAIN →
    t2 = s.arrival n frac → t3 = s.departure n frac + turnaround → seq = beNat (sliceB asker 10 2) → who = padTo 10 asker →
    exec (.pdelayReqRx n frac domain asker turnaround) s = .next (if s.flag F.SWITCH_PTP_CFG_ONE_STEP then
        s.originate n 5 (s.ptpFrame n 3 false (((t3 : Int) - t2) * 512) seq 127 (List.replicate 10 0#8 ++ who))
      else (s.originate n 5 (s.ptpFrame n 3 true (-ptpRest t2) seq 127 (ptpStamp t2 ++ who))).originate n 6 (s.ptpFrame n 10 false (ptpRest t3) seq 127 (ptpStamp t3 ++ who))) := by
  intro s n frac dom ta t2 t3 seq asker who h1 h2 e2 e3 e4 e5
  subst e2 e3 e4 e5
  exact congrArg _ (if_pos (by rw [h1, h2]; simp))

theorem complete_pdelayRespRx : ∀ (s : State) (n frac domain t1 : Nat) (turnaround : Int), (s.port n).t1 = some t1 → s.ptpOn n = true → domain = s.rd F.SWITCH_PTP_CFG_DOMAIN →
    0 ≤ ((s.arrival n frac : Int) - t1 - turnaround) / 2 → ((s.arrival n frac : Int) - t1 - turnaround) / 2 < 16777216 →
    ∀ u : State, u = s.next.setPort n { s.port n with t1 := none, delay := (((s.arrival n frac : Int) - t1 - turnaround) / 2).toNat } →
    exec (.pdelayRespRx n frac domain turnaround) s = .next
      (if u.ptpState n = 2 then u.wr F.SWITCH_PTP_STAT_PATH_DELAY (((s.arrival n frac : Int) - t1 - turnaround) / 2).toNat else u) := by
  intro s n frac dom t1 ta h1 h2 hd h3 h4 u hu
  subst hu
  show Host.Outcome.next (s.pdelayResp n frac dom ta) = _
  unfold State.pdelayResp
  rw [h1]
  simp only [h2, ← hd, beq_self_eq_true, Bool.and_self, if_true, if_pos (And.intro h3 h4)]

theorem complete_syncTimeout : ∀ s : State, s.armed .syncTimeout = true → exec .syncTimeout s = .next ((s.elapsed .syncTimeout).irq 106) := by
  intro s h
  exact congrArg _ (if_pos h)

end Sys2Proof.Machine
end

