-- ==== Sys2Proof/Laws/CompleteRidge.lean ====
section
/-! SUPPORT. Completion lemmas: for each command of the RidgeCore rows, the next state that `exec` answers, under
hypotheses on the state and the operands alone. One lemma per clause of the completion statements. -/

set_option maxRecDepth 8000

namespace Sys2Proof.Machine

theorem bundleIssue_run {s u : State} {n cycles drains : Nat} {ws : List (Nat × Word)} {ys : List Syl} (hn : s.live? = true) :
    ∀ v : State, v = s.drainStores n drains → v.live? = true → v.coreHeld n = false → (v.core n).waiting = false → v.interruptDue n = none →
    State.fetchFrom n 8 (v.core n).pc.toNat [] (((v.setCore n { v.core n with ccount := (v.core n).ccount + BitVec.ofNat 64 cycles }).observe 6 n (cycles - 1)).setFetchBank n (v.core n).pc.toNat) = (.ok (some ws), u) →
    bundleOf ws (v.core n).delay.isSome = some ys → ys.find? Syl.illegal = none →
    s.bundleIssue n cycles drains = ((u.observe 5 n 1).runBundle n ys (4 * ws.length)).settle := by
  intro v hv h0 h1 h2 h3 h4 h5 h6
  unfold State.bundleIssue
  rw [if_pos hn, ← hv]
  refine (if_neg (by simp [h0, h1, h2, h3])).trans ?_
  extract_lets x y
  rw [h4]
  simp only [h5, h6]

theorem complete_bundleIssue : ∀ (s u v : State) (n cycles drains : Nat) (ws : List (Nat × Word)) (ys : List Syl), s.live? = true → v = s.drainStores n drains →
    v.live? = true → v.coreHeld n = false → (v.core n).waiting = false → v.interruptDue n = none →
    State.fetchFrom n 8 (v.core n).pc.toNat [] (((v.setCore n { v.core n with
      ccount := (v.core n).ccount + BitVec.ofNat 64 cycles }).observe 6 n (cycles - 1)).setFetchBank n (v.core n).pc.toNat) = (.ok (some ws), u) →
    bundleOf ws (v.core n).delay.isSome = some ys → ys.find? Syl.illegal = none →
    exec (.bundleIssue n cycles drains) s = .next ((u.observe 5 n 1).runBundle n ys (4 * ws.length)).settle := by
  intro s u v n cycles drains ws ys h0 h1 h2 h3 h4 h5 h6 h7 h8
  exact congrArg _ (bundleIssue_run h0 v h1 h2 h3 h4 h5 h6 h7 h8)

theorem complete_interruptEntry : ∀ (s : State) (n k : Nat), s.interruptDue n = some k →
    exec (.interruptEntry n) s = .next (s.setCore n ((s.core n).enter cINTERRUPT (BitVec.ofNat 32 (2 ^ 31 + k * 2 ^ 16 + cINTERRUPT)) (s.core n).xaddr)) := by
  intro s n k h
  show Host.Outcome.next (s.interruptEntry n) = _
  unfold State.interruptEntry
  rw [h]

theorem complete_waitResume : ∀ (s : State) (n : Nat), (s.core n).waiting = true → (s.chosenSource n).isSome = true →
    exec (.waitResume n) s = .next (s.setCore n { s.core n with waiting := false }) := by
  intro s n h h1
  show Host.Outcome.next (s.waitResume n) = _
  unfold State.waitResume
  exact congrArg _ (if_pos (by rw [h, h1]; rfl))

theorem complete_lateBusError : ∀ (s : State) (n : Nat) (b : BufStore) (t : List BufStore), (s.core n).stores = b :: t →
    exec (.lateBusError n) s = .next ((s.setCore n { s.core n with stores := t }).storeN n b.addr.toNat b.size b.data) := by
  intro s n b t h
  show Host.Outcome.next (s.drainStore n) = _
  unfold State.drainStore
  simp only
  rw [h]

theorem complete_lateErrorPop : ∀ (s : State) (m n : Nat), n < 9 → s.mayRead m (A.IRQ_LATE_POP n) = true →
    ((s.core n).late = [] → exec (.lateErrorPop m n) s = .next (State.settle { s.setCore n { s.core n with lateAddr := 0 } with rdata := 0 })) ∧
    (∀ (e : LateErr) (t : List LateErr), (s.core n).late = e :: t → exec (.lateErrorPop m n) s = .next (State.settle { s.setCore n { s.core n with
      late := t, lateLost := false, lateAddr := e.addr } with rdata := BitVec.ofNat 64 (e.word (s.core n).lateLost n).toNat })) := by
  intro s m n hn h
  have e : s.regRead m (A.IRQ_LATE_POP n) = (.ok (s.latePop n).1, (s.latePop n).2) := by interval_cases n <;> rfl
  have r : isReg (A.IRQ_LATE_POP n) = true := by interval_cases n <;> decide
  constructor
  · intro h1
    refine congrArg _ ((load_reg h r e).trans ?_)
    have q : s.latePop n = (0#32, s.setCore n { s.core n with lateAddr := 0 }) := by
      unfold State.latePop
      simp only
      rw [h1]
    rw [q]
    rfl
  · intro v t h1
    refine congrArg _ ((load_reg h r e).trans ?_)
    unfold State.latePop
    simp only
    rw [h1]

theorem complete_irqPendClear : ∀ (s : State) (m k : Nat) (w : Word), k < 8 → s.mayWrite m (A.IRQ_PEND k) = true →
    exec (.irqPendClear m k w) s = .next ((List.range 32).foldl (fun (s : State) j => if w.getLsbD j then s.clearLatch (32 * k + j) else s) s).settle := by
  intro s m k w hk h
  have e : s.regWrite m (A.IRQ_PEND k) w = (none, s.pendWrite k w) := by interval_cases k <;> rfl
  exact congrArg _ (store_reg h (by interval_cases k <;> decide) e)

theorem complete_irqAck : ∀ (s : State) (m n : Nat) (w : Word), n < 9 → s.mayWrite m (A.IRQ_ACK n) = true → s.routeCore (getBits w 7 0) = n →
    exec (.irqAck m n w) s = .next (s.clearLatch (getBits w 7 0)).settle := by
  intro s m n w hn h h1
  have e : s.regWrite m (A.IRQ_ACK n) w = (none, s.ackWrite n w) := by interval_cases n <;> rfl
  exact congrArg _ (store_reg h (by interval_cases n <;> decide) (e.trans (congrArg _ (if_pos h1))))

theorem complete_irqDoorbell : ∀ (s : State) (m : Nat) (w : Word), s.mayWrite m A.IRQ_DOORBELL = true →
    exec (.irqDoorbell m w) s = .next ((List.range 32).foldl (fun (s : State) j => if w.getLsbD j then s.irq (216 + j) else s) s).settle := by
  intro s m w h
  exact congrArg _ (store_reg h (by decide) rfl)

theorem complete_irqRouteWrite : ∀ (s : State) (m k : Nat) (w : Word), k < 248 → s.mayWrite m (A.IRQ_ROUTE k) = true →
    (((132 ≤ k ∧ k < 144) ∨ (192 ≤ k ∧ k < 201) ∨ 8 < getBits w 11 8) →
      exec (.irqRouteWrite m k w) s = .next (s.wr (F.IRQ_ROUTE_LINE k) (getBits w 4 0)).settle) ∧
    (¬((132 ≤ k ∧ k < 144) ∨ (192 ≤ k ∧ k < 201) ∨ 8 < getBits w 11 8) →
      exec (.irqRouteWrite m k w) s = .next ((s.wr (F.IRQ_ROUTE_CORE k) (getBits w 11 8)).wr (F.IRQ_ROUTE_LINE k) (getBits w 4 0)).settle) := by
  intro s m k w hk h
  have e : s.regWrite m (A.IRQ_ROUTE k) w = (none, s.routeWrite k w) := by interval_cases k <;> rfl
  have r : isReg (A.IRQ_ROUTE k) = true := by interval_cases k <;> decide
  constructor
  · intro h1
    refine congrArg _ ((store_reg h r (e.trans (congrArg _ ?_))))
    unfold State.routeWrite
    rw [if_neg (by omega)]
    simp only
    rw [if_pos]
    simp only [Bool.or_eq_true, Bool.and_eq_true, decide_eq_true_eq]
    tauto
  · intro h1
    refine congrArg _ ((store_reg h r (e.trans (congrArg _ ?_))))
    unfold State.routeWrite
    rw [if_neg (by omega)]
    simp only
    rw [if_neg]
    simp only [Bool.or_eq_true, Bool.and_eq_true, decide_eq_true_eq]
    tauto

theorem complete_coreHold : ∀ (s : State) (m n : Nat) (b : Bool), n < 8 → s.mayWrite m (A.IRQ_CORE_CTRL n) = true → s.mode ≠ .curtain →
    exec (.coreHold m n b) s = .next (State.settle (if b then (s.wr (F.IRQ_CORE_CTRL_PC n) 0).holdCore n
      else ((s.wr (F.IRQ_CORE_CTRL_PC n) 0).wr (F.IRQ_CORE_CTRL_HOLD n) 0).wr (F.IRQ_CORE_STAT_HELD n) 0)) := by
  intro s m n b hn h hm
  have e : ∀ w, s.regWrite m (A.IRQ_CORE_CTRL n) w = (none, s.coreCtrl n w) := by intro w; interval_cases n <;> rfl
  refine congrArg _ (store_reg h (by interval_cases n <;> decide) ((e _).trans (congrArg _ ?_)))
  have hm' : (s.mode == Mode.curtain) = false := by simpa using hm
  unfold State.coreCtrl
  rw [hm']
  cases b
  · simp only [show (setBits 0#32 (F.IRQ_CORE_CTRL_HOLD n).hi (F.IRQ_CORE_CTRL_HOLD n).lo (b2n false)) = 0#32 from by show setBits 0#32 31 31 0 = 0#32; decide]
    simp only [show (0#32).getLsbD 31 = false from by decide, show (0#32).getLsbD 30 = false from by decide, show getBits 0#32 29 0 = 0 from by decide, Bool.false_or, Bool.false_eq_true, if_false]
  · simp only [show (setBits 0#32 (F.IRQ_CORE_CTRL_HOLD n).hi (F.IRQ_CORE_CTRL_HOLD n).lo (b2n true)) = BitVec.twoPow 32 31 from by show setBits 0#32 31 31 1 = _; decide]
    simp only [show (BitVec.twoPow 32 31).getLsbD 31 = true from by decide, show getBits (BitVec.twoPow 32 31) 29 0 = 0 from by decide, Bool.true_or, if_true]

theorem complete_coreStart : ∀ (s : State) (m n : Nat) (pc w : Word), n < 8 → s.mayWrite m (A.IRQ_CORE_CTRL n) = true → s.mode ≠ .curtain →
    w = setBits pc 30 30 1 → w.getLsbD 31 = false → exec (.coreStart m n pc) s =
      .next (((s.wr (F.IRQ_CORE_CTRL_PC n) (getBits w 29 0)).wr (F.IRQ_CORE_CTRL_HOLD n) 0).startCore n (getBits w 29 0 * 4)).settle := by
  intro s m n pc w hn h hm hw h1
  have e : ∀ w, s.regWrite m (A.IRQ_CORE_CTRL n) w = (none, s.coreCtrl n w) := by intro w; interval_cases n <;> rfl
  subst hw
  refine congrArg _ (store_reg h (by interval_cases n <;> decide) ((e _).trans (congrArg _ ?_)))
  have hm' : (s.mode == Mode.curtain) = false := by simpa using hm
  have h3 : (setBits pc 30 30 1).getLsbD 30 = true := by
    rw [getLsbD_setBits _ _ _ _ _ (by omega) (by omega), if_pos (by omega)]
    rfl
  show s.coreCtrl n (setBits pc 30 30 1) = _
  unfold State.coreCtrl
  simp only [hm', h1, h3, Bool.or_self, Bool.false_eq_true, if_false, if_true]

end Sys2Proof.Machine
end

