-- ==== Sys2Proof/Laws/CompleteStartup.lean ====
section
/-! SUPPORT. Completion lemmas: for each command of the Reset, StartUp rows, the next state that `exec` answers, under
hypotheses on the state and the operands alone. One lemma per clause of the completion statements. -/

set_option maxRecDepth 8000

namespace Sys2Proof.Machine

theorem complete_powerOnReset : ∀ s : State, exec .powerOnReset s = .next (State.wakeRefuge (State.mainReset (State.supplySwitch
    { s with power := true, pin.dead := false, boot.auxLost := false, boot.held := true }) 0 false)) := by
  intro s
  rfl

theorem complete_pinReset : ∀ s : State, s.power = true → s.resetHeard = true → exec .pinReset s = .next (State.mainReset { s with boot.held := true } 1 false) := by
  intro s h h1
  show Host.Outcome.next s.pinReset = _
  unfold State.pinReset
  rw [if_pos (by rw [h, h1]; decide)]

theorem complete_warmReset : ∀ s : State, s.live? = true → s.boot.warmDue = true → exec .warmReset s = .next ((s.mainReset 2 true).startUp (some s.mode)) := by
  intro s h h1
  show Host.Outcome.next s.warmReset = _
  unfold State.warmReset
  rw [if_pos (by rw [h, h1]; decide)]

theorem complete_stewardRestart : ∀ (s a b c : State) (cause : Nat), s.boot.stwDue = some cause → s.live? = true →
    a = s.stewardWipe.closeAll.setCore 8 { CoreSt.reset with pc := 0x20000#32, running := true, cgear := (s.core 8).cgear } →
    b = (a.wr F.SYS_RESET_CAUSE_CAUSE cause).sat F.SYS_RESET_CAUSE_STW_RESTARTS → c = State.stewardCount (if cause = 4 then b.post 0x1003 7 8 [] else b) →
    (c.boot.restarts.length < 3 → exec .stewardRestart s = .next c) ∧
    (3 ≤ c.boot.restarts.length → ∀ d : State, d = State.post { c with boot.restarts := [] } 0x1004 7 8 [] →
      exec .stewardRestart s = .next (if d.mode == .lead && d.peerHealthy then { d with us.hoRequest := true } else d)) := by
  intro s a b c cause h h1 ha hb hc
  have e : exec .stewardRestart s = .next (if c.boot.restarts.length < 3 then c else
      if (State.post { c with boot.restarts := [] } 0x1004 7 8 []).mode == .lead && (State.post { c with boot.restarts := [] } 0x1004 7 8 []).peerHealthy then
        { State.post { c with boot.restarts := [] } 0x1004 7 8 [] with us.hoRequest := true } else State.post { c with boot.restarts := [] } 0x1004 7 8 []) := by
    show Host.Outcome.next s.stewardRestart = _
    unfold State.stewardRestart
    rw [h]
    dsimp only at ha ⊢
    rw [if_neg (by rw [h1]; decide), ← ha, ← hb, ← hc]
  rw [e]
  refine ⟨fun q => congrArg _ (if_pos q), fun q d hd => ?_⟩
  rw [hd]
  exact congrArg _ (if_neg (Nat.not_lt_of_le q))

theorem complete_stewardReattach : ∀ s : State, s.live? = true → s.desk.running = false → 3 ≤ s.rd F.SYS_BOOT_STAGE → s.rd F.SYS_BOOT_STAGE ≠ 14 →
    exec .stewardReattach s = .next (s.stewardStart fun s => ({ s.closeAll with desk.cmds := [] } : State).emptyServices) := by
  intro s h h1 h2 h3
  show Host.Outcome.next s.stewardReattach = _
  unfold State.stewardReattach
  rw [if_neg (by simp only [h, h1, Bool.not_true, Bool.false_or, Bool.or_eq_true, decide_eq_true_eq, beq_iff_eq]; omega)]

theorem complete_powerFailure : ∀ (s u : State), s.power = true → u = State.refreshPins { s with pin.dead := true, boot.held := true } →
    exec .powerFailure s = .next (State.supplySwitch { u.mainReset 0 false with power := false }) := by
  intro s u h hu
  show Host.Outcome.next s.powerFailure = _
  unfold State.powerFailure
  rw [if_neg (by rw [h]; decide)]
  dsimp only at hu ⊢
  rw [← hu]

theorem complete_auxSupplyLoss : ∀ s : State, s.live? = true → s.boot.auxLost = false →
    exec .auxSupplyLoss s = .next (State.postU { s with boot.auxLost := true, boot.auxBack := none } 0x1007 5 []) := by
  intro s h h1
  show Host.Outcome.next s.auxLoss = _
  unfold State.auxLoss
  rw [if_neg (by rw [h, h1]; decide)]

theorem complete_vddioAuxReturn : ∀ s : State, s.boot.auxLost = true → exec .vddioAuxReturn s = .next { s with boot.auxLost := false, boot.auxBack := some s.now } := by
  intro s h
  show Host.Outcome.next s.auxReturn = _
  unfold State.auxReturn
  rw [if_pos h]

theorem complete_pllLock : ∀ s : State, s.power = true → s.rd F.SYS_BOOT_STAGE = 0 → s.desk.running = false →
    exec .pllLock s = .next (State.startUp { s with boot.held := false } none) := by
  intro s h h1 h2
  show Host.Outcome.next s.pllLock = _
  unfold State.pllLock
  rw [if_neg (by rw [h, h1, h2]; decide)]

theorem complete_pllLockRetry : ∀ s : State, exec .pllLockRetry s = .next s := by
  intro s
  rfl

theorem complete_recoveredQualify : ∀ (s u : State) (diff : Int), s.live? = true → s.flag F.SYS_CLK_CFG_RECOVERED = true → u = s.wr F.SYS_CLK_STAT_DIFF (unsigned 16 diff) →
    ((u.flag F.SYS_CLK_STAT_ON_RECOVERED || !u.linkUp (u.rd F.SYS_CLK_CFG_PORT) || decide (10000 < diff.natAbs)) = true → exec (.recoveredQualify diff) s = .next u) ∧
    ((u.flag F.SYS_CLK_STAT_ON_RECOVERED || !u.linkUp (u.rd F.SYS_CLK_CFG_PORT) || decide (10000 < diff.natAbs)) = false →
      exec (.recoveredQualify diff) s = .next ((u.wr F.SYS_CLK_STAT_ON_RECOVERED 1).postU 0x1005 3 [1])) := by
  intro s u diff h h1 hu
  show (_ → Host.Outcome.next (s.recoveredQualify diff) = _) ∧ (_ → Host.Outcome.next (s.recoveredQualify diff) = _)
  unfold State.recoveredQualify
  rw [if_neg (by rw [h, h1]; decide)]
  dsimp only
  rw [← hu]
  refine ⟨fun q => ?_, fun q => ?_⟩
  · rw [if_pos q]
  · rw [if_neg (by rw [q]; decide)]

theorem complete_recoveredLoss : ∀ (s u : State), s.live? = true → s.flag F.SYS_CLK_STAT_ON_RECOVERED = true →
    u = (s.wr F.SYS_CLK_STAT_ON_RECOVERED 0).sat F.SYS_CLK_STAT_FALLBACKS → exec .recoveredLoss s = .next ((u.postU 0x1005 3 [0]).postU 0x1006 5 []) := by
  intro s u h h1 hu
  show Host.Outcome.next s.recoveredLoss = _
  unfold State.recoveredLoss
  rw [if_neg (by rw [h, h1]; decide)]
  subst hu
  rfl

theorem complete_earlyActStart : ∀ (s : State), s.mode = .rehearsal → s.desk.running = true → s.rd F.SYS_BOOT_STAGE = 3 → s.cfg ≠ 0 →
    exec .earlyActStart s = .next (State.stage (if !Config.actOk s.cfg s.earlyArea then s.post 0x1009 6 8 []
      else if s.partnerAlive then (s.wr F.SYS_BOOT_EARLY_HELD 1).post 0x100D 3 8 [] else s.alignStart.runEarly) 4) := by
  intro s h h1 h2 h3
  show Host.Outcome.next s.earlyActStart = _
  unfold State.earlyActStart
  rw [if_neg (by rw [h, h1, h2, show (s.cfg == 0) = false from by simpa using h3]; decide)]

theorem complete_callAlign : ∀ (s : State) (smp arr avg : Nat), s.boot.aligning = true → s.desk.running = true → s.servo = servoFREERUN → s.pendingIn Base.STIME = false →
    (s.boot.aligned = false → exec (.callAlign smp arr avg) s = .next (State.commitCall { s with boot.aligned := true } ((arr : Int) - 10000 - boundaryAt 0 s.rate smp))) ∧
    (s.boot.aligned = true → (avg < 10 * ticksPerUs ∨ 30 * ticksPerUs < avg) → exec (.callAlign smp arr avg) s = .next (s.commitCall ((s.call : Int) + avg - 20 * ticksPerUs))) ∧
    (s.boot.aligned = true → ¬(avg < 10 * ticksPerUs ∨ 30 * ticksPerUs < avg) → exec (.callAlign smp arr avg) s = .next s) := by
  intro s smp arr avg h h1 h2 h3
  show (_ → Host.Outcome.next (s.callAlign smp arr avg) = _) ∧ (_ → _ → Host.Outcome.next (s.callAlign smp arr avg) = _) ∧ (_ → _ → Host.Outcome.next (s.callAlign smp arr avg) = _)
  unfold State.callAlign
  rw [if_neg (by rw [h, h1, h2, h3]; decide)]
  refine ⟨fun q => ?_, fun q r => ?_, fun q r => ?_⟩
  · rw [if_pos (by rw [q]; decide)]
  · rw [if_neg (by rw [q]; decide), if_pos r]
  · rw [if_neg (by rw [q]; decide), if_neg r]

theorem complete_roleSettlement : ∀ (s u a b : State) (m : Mode), s.mode = .rehearsal → s.desk.running = true → s.boot.settling = false → u = s.verifyFull →
    u.rd F.SYS_BOOT_STAGE = 5 → u.timeFit = true → u.commitsDone = true → u.modeReq.isSome = false → u.settledMode = some m →
    a = State.loadCues ((List.range 8).foldl State.holdCore (u.put8 A.CUE_CTRL 0))
      (Config.cueImage (State.peek ((List.range 8).foldl State.holdCore (u.put8 A.CUE_CTRL 0)) 0x20880000 0x50000)) →
    b = a.put8 A.SYS_MODE_REQ (BitVec.ofNat 32 (2 ^ 31 + m.code)) → exec .roleSettlement s = .next { b.put8 A.CUE_CTRL 1 with boot.settling := true } := by
  intro s u a b m h h1 h2 hu h3 h4 h5 h6 h7 ha hb
  show Host.Outcome.next s.roleSettlement = _
  unfold State.roleSettlement
  rw [if_neg (by rw [h, h1, h2]; decide)]
  dsimp only
  rw [← hu, if_neg (by rintro (q | q | q | q) <;> [exact q h3; (rw [h4] at q; exact absurd q (by decide)); (rw [h5] at q; exact absurd q (by decide)); (rw [h6] at q; exact absurd q (by decide))]), h7]
  dsimp only
  unfold State.handToFull
  dsimp only at ha ⊢
  rw [← ha, ← hb]

end Sys2Proof.Machine
end

