-- ==== Sys2Proof/Laws/CompleteTroupe.lean ====
section
/-! SUPPORT. Completion lemmas: for each command of the TroupeSession, TroupeKeyAndInterval rows, the next state that `exec` answers, under
hypotheses on the state and the operands alone. One lemma per clause of the completion statements. -/

set_option maxRecDepth 8000

namespace Sys2Proof.Machine

theorem rollBegin_eq {s u v w : State} (h : s.isDirector = true) (h1 : s.mode ≠ .factory)
    (hu : u = { s.next.next with troupe.seq := 0, troupe.nonce := s.draw, troupe.rolling := true, troupe.oldBkey := s.troupe.bkey, troupe.bkey := some (Config.freshKey s.next.draw), troupe.answered := [], troupe.welcomed := [], troupe.rollDue := false })
    (hv : v = u.troupeSend 1 0 none [] (beBytes 32 s.draw)) (hw : w = v.arm .rollWait (u.lv F.TROUPE_CFG_C_ROLL_WAIT * ticksPerMs)) :
    s.rollBegin = (w.arm .rollPeriod (w.lv F.TROUPE_CFG_B_ROLL_PERIOD * ticksPerSecond)).troupeShow := by
  unfold State.rollBegin
  rw [if_neg (by simp [h, h1])]
  extract_lets y0 y1 y2 y3 y4 y5
  obtain rfl : y4 = u := hu.symm
  obtain rfl : y5 = w := by rw [hw, hv]
  rfl

theorem complete_rollCall : ∀ (s a u v w : State), s.isDirector = true → s.mode ≠ .factory →
    a = (if s.troupe.rollDue || !s.armed .rollPeriod then s else s.reachST (s.dueAt .rollPeriod)) → a.isDirector = true → a.mode ≠ .factory →
    u = { a.next.next with troupe.seq := 0, troupe.nonce := a.draw, troupe.rolling := true, troupe.oldBkey := a.troupe.bkey, troupe.bkey := some (Config.freshKey a.next.draw), troupe.answered := [], troupe.welcomed := [], troupe.rollDue := false } →
    v = u.troupeSend 1 0 none [] (beBytes 32 a.draw) → w = v.arm .rollWait (u.lv F.TROUPE_CFG_C_ROLL_WAIT * ticksPerMs) →
    exec .rollCall s = .next (w.arm .rollPeriod (w.lv F.TROUPE_CFG_B_ROLL_PERIOD * ticksPerSecond)).troupeShow := by
  intro s a u v w h h1 ha h2 h3 hu hv hw
  refine congrArg _ (show s.rollCall = _ from ?_)
  unfold State.rollCall
  rw [if_neg (by simp [h, h1]), ← ha]
  exact rollBegin_eq h2 h3 hu hv hw

theorem complete_roll : ∀ (s u d v w : State) (h : THead) (nonce : Nat), s.troupeAccept h 0 true false = (true, u) →
    d = u.directorHeard → v = { d with troupe.seq := 0, troupe.rolling := true, troupe.welcomed := [] } → w = v.sendAttest nonce →
    exec (.roll h nonce) s = .next (w.arm .rollWait (v.lv F.TROUPE_CFG_C_ROLL_WAIT * ticksPerMs)) := by
  intro s u d v w h nonce h1 hd hv hw
  refine congrArg _ (show s.rollRx h nonce = _ from ?_)
  unfold State.rollRx
  rw [h1]
  dsimp only
  rw [← hd]
  subst hw
  subst hv
  rfl

theorem complete_attest : ∀ (s u v : State) (h : THead) (p : List Byte) (sigOk : Bool), s.troupeAccept h 0 false false = (true, u) →
    v = { u with troupe.answered := u.troupe.answered ++ [h.slot] } →
    (sigOk = false ∨ (v.troupe.rolling = true ∧ beNat (sliceB p 0 32) ≠ v.troupe.nonce) → exec (.attest h p sigOk) s = .next v.troupeRefuse) ∧
    (sigOk = true → (v.troupe.rolling = true → beNat (sliceB p 0 32) = v.troupe.nonce) → exec (.attest h p sigOk) s = .next
      (if Config.rosterPrint v.cfg h.slot ≠ some (sliceB p 32 32) then (v.newSession h.slot none).strangerFound h.slot h.mac (sliceB p 32 32) else v.welcome h.slot p)) := by
  intro s u v h p sigOk h1 hv
  have e : exec (.attest h p sigOk) s = .next (s.attestRx h p sigOk) := rfl
  rw [e]
  unfold State.attestRx
  rw [h1]
  dsimp -zeta only
  subst hv
  refine ⟨fun a => congrArg _ (if_pos ?_), fun a b => congrArg _ ((if_neg ?_).trans rfl)⟩
  · rcases a with a | ⟨a, b⟩
    · rw [a]; rfl
    · rw [a, Bool.true_and, Bool.or_eq_true]
      exact .inr (bne_iff_ne.mpr b)
  · rw [a, Bool.not_true, Bool.false_or, Bool.and_eq_true]
    exact fun c => bne_iff_ne.mp c.2 (b c.1)

theorem complete_welcome : ∀ (s u v : State) (h : THead) (hello wrapped print key : List Byte) (sigOk : Bool) (got : Option (List Byte)), s.troupeAccept h 0 true false = (true, u) →
    key = sessionKey (Config.troupeSecrets false hello u.troupe.attestDraw) u.troupe.attest hello →
    got = (if sigOk = true ∧ Config.rosterPrint u.cfg 0 = some print ∧ beNat (sliceB hello 0 32) = u.troupe.nonce ∧ u.troupe.attest ≠ [] then kwUnwrap key wrapped else none) →
    v = u.newSession 0 (some key) →
    exec (.welcome h hello wrapped print sigOk) s = .next (got.elim u.troupeRefuse fun b => State.troupeShow (State.directorHeard
      { v with troupe.bkey := some b, troupe.attest := [], troupe.welcomed := [0], troupe.lastSeq := put (fun _ => 0) v.troupe.lastSeq 2 0 })) := by
  intro s u v h hello wrapped print key sigOk got h1 hk hg hv
  have e : exec (.welcome h hello wrapped print sigOk) s = .next (s.welcomeRx h hello wrapped print sigOk) := rfl
  rw [e]
  unfold State.welcomeRx
  rw [h1]
  dsimp only
  rw [← hk]
  have n : (if (sigOk && Config.rosterPrint u.cfg 0 == some print && beNat (sliceB hello 0 32) == u.troupe.nonce && !u.troupe.attest.isEmpty) = true
      then kwUnwrap key wrapped else none) = got := by
    rw [hg]
    refine if_congr ?_ rfl rfl
    simp [and_assoc]
  rw [n]
  subst hv
  cases got <;> rfl

theorem complete_rollWaitExpiry : ∀ (s u v w : State) (slots : List Nat), s.armed .rollWait = true → u = s.elapsed .rollWait →
    slots = (if u.isDirector then (List.range 64).filter (· != 0) else [0]) →
    v = (slots.filter fun k => !u.troupe.welcomed.contains k).foldl (fun s k => s.newSession k none) u →
    w = (if v.isDirector then (slots.filter fun k => !v.troupe.answered.contains k).foldl (fun s k => if s.member k = tmSTRANGER then s else s.memberGo k tmABSENT) v else v) →
    exec .rollWaitExpiry s = .next (State.troupeShow { w with troupe.rolling := false, troupe.oldBkey := none }) := by
  intro s u v w slots h hu hs hv hw
  refine fire_next (k := State.rollWaitEnd) h ?_
  rw [← hu]
  unfold State.rollWaitEnd
  subst hw
  subst hv
  subst hs
  rfl

theorem complete_healthPeriodTick : ∀ (s a b : State) (k : List Byte), s.isDirector = true → a = (if s.armed .healthPeriod then s.reachST (s.dueAt .healthPeriod) else s) →
    b = a.arm .healthPeriod (a.lv F.TROUPE_CFG_B_HEALTH_PERIOD * ticksPerMs) → b.troupe.bkey = some k → ∀ c d : State,
    c = b.troupeSend 4 2 none k (beBytes 8 b.call ++ beBytes 1 b.rate ++ beBytes 2 b.troupe.epoch) →
    d = (List.range 64).foldl (fun s k =>
      if (s.member k = tmPRESENT ∨ s.member k = tmMISALIGNED) ∧ !s.troupe.heard.contains k then
        { s with troupe.missed := put (fun _ => 0) s.troupe.missed k (look (fun _ => 0) s.troupe.missed k + 1) }
      else { s with troupe.missed := put (fun _ => 0) s.troupe.missed k 0 }) c →
    exec .healthPeriodTick s = .next { d with troupe.heard := [] } := by
  intro s a b k h ha hb h1 c d hc hd
  refine congrArg _ (show s.healthPeriod = _ from ?_)
  unfold State.healthPeriod
  rw [if_neg (by simp [h])]
  dsimp only
  rw [← ha, ← hb, h1]
  dsimp only
  rw [← hc, ← hd]

theorem complete_callBroadcast : ∀ (s u v : State) (h : THead) (call rate epoch : Nat), s.troupeAccept h 2 true false = (true, u) → (s.isPlayer && (s.session 0).isNone) = false →
    v = { u.directorHeard with troupe.epoch := epoch } →
    exec (.callBroadcast h call rate epoch) s = .next ((if v.mode == .curtain then v else v.sendHealth).adoptGrid call rate) := by
  intro s u v h call rate epoch h1 h2 hv
  refine congrArg _ (show s.callRx h call rate epoch = _ from ?_)
  unfold State.callRx
  rw [if_neg (by simp [h2]), h1]
  subst hv
  rfl

theorem complete_health : ∀ (s u v : State) (h : THead) (x : THealth), s.troupeAccept h 1 false false = (true, u) →
    v = State.wr { u with troupe.heard := u.troupe.heard ++ [h.slot], troupe.missed := put (fun _ => 0) u.troupe.missed h.slot 0,
                          troupe.healthAt := put noneAt u.troupe.healthAt h.slot (some u.now) } (F.TROUPE_MEMBER_MODE h.slot) x.mode →
    exec (.health h x) s = .next (if v.member h.slot = tmPRESENT ∧ (x.call != v.call || x.rate != v.rate ||
        decide (v.lv F.TROUPE_CFG_C_ALIGN_NS * 128 < x.offset.natAbs) || decide (frameAt v.call v.rate v.now ≠ (h.frame : Int))) then
      v.memberGo h.slot tmMISALIGNED else v) := by
  intro s u v h x h1 hv
  refine congrArg _ (show s.healthRx h x = _ from ?_)
  unfold State.healthRx
  rw [h1]
  subst hv
  rfl

theorem complete_memberSilent : ∀ (s : State) (k : Nat), s.member k = tmPRESENT ∨ s.member k = tmMISALIGNED →
    max 1 (s.lv F.TROUPE_CFG_C_SILENT_LIMIT) ≤ look (fun _ => 0) s.troupe.missed k → exec (.memberSilent k) s = .next (s.memberGo k tmSILENT) := by
  intro s k h h1
  exact congrArg _ (if_pos ⟨h, h1⟩)

theorem complete_directorSilent : ∀ s : State, s.armed .dirSilent = true → (s.elapsed .dirSilent).isPlayer = true →
    exec .directorSilent s = .next ((((s.elapsed .dirSilent).wr F.TROUPE_STAT_DIR_SEEN 0).irq 163).post 0x9004 5 21 []) := by
  intro s h h1
  exact fire_next (k := State.directorSilent) h (if_pos h1)

theorem complete_troupeCntClear : ∀ (s : State) (m : Nat) (w : Word), s.mayWrite m A.TROUPE_CNT = true →
    exec (.troupeCntClear m w) s = .next (s.setReg A.TROUPE_CNT 0).settle := by
  intro s m w h
  exact congrArg _ (store_reg h (by decide) rfl)

theorem complete_keySend : ∀ (s : State) (entry kid change overlap : Nat) (v : KeyVal), s.isDirector = true →
    ((s.now + 10 * ticksPerSecond : Nat) : Int) ≤ boundaryAt s.call s.rate ((change : Int) - overlap) → (s.streamKey entry).byKid kid = some v →
    exec (.keySend entry kid change overlap) s = .next (s.presentSlots.foldl (fun s k =>
        match s.session k with
        | none => s
        | some key =>
          let body := beBytes 2 entry ++ beBytes 4 kid ++ beBytes 6 change ++ beBytes 2 overlap ++ kwWrap key (beBytes (if v.len256 then 32 else 16) v.value)
          let e : KeyExch := { slot := k, entry, kid, change, overlap, retries := 0, key, body }
          State.sendKey { s with troupe.exchanges := (s.troupe.exchanges.filter fun x => x.slot != k || x.entry != entry) ++ [e]
                                 troupe.keysFailed := s.troupe.keysFailed.filter (· != (k, entry)) } e) s) := by
  intro s entry kid change overlap v h h1 h2
  refine congrArg _ (show s.keySend entry kid change overlap = _ from ?_)
  unfold State.keySend
  rw [if_neg (by rw [h, Bool.not_true, Bool.false_or, decide_eq_true_eq]; omega), h2]
  all_goals rfl

theorem troupeKeyRx_eq {s u a b : State} {h : THead} {k : TKey} (h1 : s.troupeAccept h 1 true true = (true, u)) (h2 : u.mode ≠ .curtain)
    (ha : a = ((((u.directorHeard.wr F.SOLOIST_KEY_IDX_INDEX k.entry).wr F.SOLOIST_KEY_IDX_SLOT 1).wr F.SOLOIST_KEY_KID_KID k.kid).wr
      F.SOLOIST_KEY_ATTR_LEN256 (b2n k.len256)).wr F.SOLOIST_KEY_ATTR_OVERLAP k.overlap)
    (hb : b = (((List.range 8).foldl (fun s i => s.setReg (A.SOLOIST_KEY_VAL i) (BitVec.ofNat 32 (k.value / 2 ^ (32 * i)))) a).setReg
      A.SOLOIST_KEY_CHG_LO (BitVec.ofNat 32 k.change)).setReg A.SOLOIST_KEY_CHG_HI (BitVec.ofNat 32 (k.change / 2 ^ 32 % 65536))) :
    ∀ (c d e : State) (good : Bool), c = (if k.wrapOk then b.solPush (BitVec.twoPow 32 31) else b.wipeStagedKey) →
      good = (k.wrapOk && !c.flag F.SOLOIST_KEY_STAT_LAST_REFUSED) →
      d = (if good && !c.pendingIn Base.SOLOIST then c.solApply.wrap (F.BLOCK_COMMIT_STATUS_APPLIED Base.SOLOIST) else c) →
      ∀ key, (if h.old then look noneAt d.troupe.oldSessions 0 else d.session 0) = some key →
      e = d.troupeSend 7 1 (some 0) key (beBytes 4 k.kid ++ beBytes 1 (if good then scOK else scBAD_PARAM)) →
      s.troupeKeyRx h k = (if h.old then State.disarm { e with troupe.oldSessions := put noneAt e.troupe.oldSessions 0 none } (.keyRetry 0) else e) := by
  intro c d e good hc hg hd key hk he
  unfold State.troupeKeyRx
  rw [h1]
  dsimp -zeta only
  rw [if_neg (by simp [h2])]
  extract_lets y0 y1 y2 y3 y4 y5 y6 y7 y8
  obtain rfl : y3 = a := ha.symm
  obtain rfl : y5 = b := hb.symm
  obtain rfl : y6 = c := hc.symm
  obtain rfl : y7 = good := hg.symm
  obtain rfl : y8 = d := hd.symm
  rw [hk]
  dsimp only
  rw [← he]

theorem complete_key : ∀ (s u a b c d e : State) (h : THead) (k : TKey) (good : Bool) (key : List Byte), s.troupeAccept h 1 true true = (true, u) → u.mode ≠ .curtain →
    a = ((((u.directorHeard.wr F.SOLOIST_KEY_IDX_INDEX k.entry).wr F.SOLOIST_KEY_IDX_SLOT 1).wr F.SOLOIST_KEY_KID_KID k.kid).wr
      F.SOLOIST_KEY_ATTR_LEN256 (b2n k.len256)).wr F.SOLOIST_KEY_ATTR_OVERLAP k.overlap →
    b = (((List.range 8).foldl (fun s i => s.setReg (A.SOLOIST_KEY_VAL i) (BitVec.ofNat 32 (k.value / 2 ^ (32 * i)))) a).setReg
      A.SOLOIST_KEY_CHG_LO (BitVec.ofNat 32 k.change)).setReg A.SOLOIST_KEY_CHG_HI (BitVec.ofNat 32 (k.change / 2 ^ 32 % 65536)) →
    c = (if k.wrapOk then b.solPush (BitVec.twoPow 32 31) else b.wipeStagedKey) → good = (k.wrapOk && !c.flag F.SOLOIST_KEY_STAT_LAST_REFUSED) →
    d = (if good && !c.pendingIn Base.SOLOIST then c.solApply.wrap (F.BLOCK_COMMIT_STATUS_APPLIED Base.SOLOIST) else c) →
    (if h.old then look noneAt d.troupe.oldSessions 0 else d.session 0) = some key →
    e = d.troupeSend 7 1 (some 0) key (beBytes 4 k.kid ++ beBytes 1 (if good then scOK else scBAD_PARAM)) →
    exec (.key h k) s = .next (if h.old then State.disarm { e with troupe.oldSessions := put noneAt e.troupe.oldSessions 0 none } (.keyRetry 0) else e) := by
  intro s u a b c d e h k good key h1 h2 ha hb hc hg hd hk he
  exact congrArg _ (troupeKeyRx_eq h1 h2 ha hb c d e good hc hg hd key hk he)

theorem complete_keyAck : ∀ (s u v : State) (h : THead) (kid : Nat) (e : KeyExch), s.troupeAccept h 1 false true = (true, u) →
    (u.troupe.exchanges.find? fun e => e.slot == h.slot && e.kid == kid) = some e → v = u.exchangeEnd h.slot e.entry →
    exec (.keyAck h kid) s = .next (if (v.troupe.exchanges.any fun x => x.slot == h.slot) || v.troupe.keysFailed.any fun f => f.1 == h.slot then v
      else v.wr (F.TROUPE_MEMBER_KEYS_OK h.slot) 1) := by
  intro s u v h kid e h1 h2 hv
  refine congrArg _ (show s.keyAckRx h kid = _ from ?_)
  unfold State.keyAckRx
  rw [h1]
  dsimp -zeta only
  rw [h2]
  subst hv
  rfl

theorem complete_keyRetry : ∀ (s u v : State) (k n : Nat) (e : KeyExch), s.keyRetryNext k = some n → s.armed (.keyRetry n) = true → u = s.elapsed (.keyRetry n) →
    (u.troupe.exchanges.find? fun e => e.entry * 64 + e.slot == n) = some e → v = (u.exchangeEnd e.slot e.entry).wr (F.TROUPE_MEMBER_KEYS_OK e.slot) 0 →
    (e.retries < 3 → exec (.keyRetry k) s = .next (State.sendKey { u with
      troupe.exchanges := u.troupe.exchanges.map fun x => if x = e then { e with retries := e.retries + 1 } else x } { e with retries := e.retries + 1 })) ∧
    (3 ≤ e.retries → exec (.keyRetry k) s = .next
      ((State.irq { v with troupe.keysFailed := (e.slot, e.entry) :: v.troupe.keysFailed } 164).post 0x9003 5 21 [e.slot, e.kid])) := by
  intro s u v k n e h h0 hu h1 hv
  have r : exec (.keyRetry k) s = .next (s.fire (.keyRetry n) (·.troupeKeyRetry n)) := by
    refine congrArg _ (show s.keyRetryDue k = _ from ?_)
    unfold State.keyRetryDue
    rw [h]
  subst hv
  rw [r]
  refine ⟨fun a => fire_next (k := fun s => s.troupeKeyRetry n) h0 ?_, fun a => fire_next (k := fun s => s.troupeKeyRetry n) h0 ?_⟩
  · rw [← hu]
    unfold State.troupeKeyRetry
    rw [h1]
    exact if_pos a
  · rw [← hu]
    unfold State.troupeKeyRetry
    rw [h1]
    exact if_neg (by omega)

theorem complete_interval : ∀ (s u v w : State) (h : THead) (mask start stop status : Nat) (both : Bool) (key : List Byte), s.troupeAccept h 2 true false = (true, u) →
    v = u.directorHeard → bit mask v.tSlot = true → both = ((Config.rosterPartner v.cfg v.tSlot).map (bit mask)).getD false →
    status = (if both then scDENIED else if !(v.mode == .lead && v.peerHealthy) && !(v.mode == .understudy && v.peerLeads) then scWRONG_MODE
      else if v.holds ≠ 0 then scBUSY else scOK) →
    w = (if both then v
      else if v.mode == .lead && v.peerHealthy then
        { v with us.hoRequest := true, us.hoNext := max v.us.hoNext (start - 2), troupe.interval := some (start, stop, false) }
      else if v.mode == .understudy && v.peerLeads then { v with troupe.interval := some (start, stop, false) } else v) →
    w.session 0 = some key → exec (.interval h mask start stop) s = .next (w.troupeSend 9 1 (some 0) key (beBytes 6 start ++ beBytes 1 status)) := by
  intro s u v w h mask start stop status both key h1 hv h2 hb hs hw hk
  refine congrArg _ (show s.intervalRx h mask start stop = _ from ?_)
  unfold State.intervalRx
  rw [h1]
  cases hp : Config.rosterPartner v.cfg v.tSlot <;>
    · rw [hp] at hb
      dsimp only [Option.map_none, Option.map_some, Option.getD_none, Option.getD_some] at hb ⊢
      subst hb
      rw [← hv, if_neg (by simp [h2]), hp]
      dsimp only
      rw [← hs, ← hw, hk]

theorem complete_intervalAck : ∀ (s u : State) (h : THead) (code : Nat), s.troupeAccept h 1 false false = (true, u) → exec (.intervalAck h code) s =
    .next (State.irq { u with troupe.acks := (h.slot, code) :: u.troupe.acks.filter fun a => a.1 != h.slot } 165) := by
  intro s u h code h1
  refine congrArg _ (show s.intervalAckRx h code = _ from ?_)
  unfold State.intervalAckRx
  rw [h1]

theorem quiet_grid {u : State} (np : u.nothingPends = true) (f : u.flag F.STIME_STATE_STEP_PENDING = false) : u.gridStep = u ∧ u.commitFrame = u := by
  constructor
  · have st : u.stepTime = u := by
      unfold State.stepTime
      rw [if_neg (by rw [f]; decide)]
    unfold State.gridStep
    simp only [st, waitingFor_of_nothingPends np]
    rfl
  · unfold State.commitFrame
    rw [waitingFor_of_nothingPends np]
    exact commitAll_nil np

theorem complete_intervalStart : ∀ (s v w x : State) (agree : Bool), s.timeRuns = true → s.intervalAt (s.stime.gridN + 1).toNat = true → 0 ≤ s.stime.gridN + 1 →
    v = (s.carryOver s.nextBoundary.toNat).reachST s.nextBoundary.toNat → v.modeDue (s.stime.gridN + 1).toNat = some (.interval, causeTroupe) →
    w = (if agree then { v with modeReq := none } else State.dtDisagree { v with modeReq := none }) →
    x = (if agree then w.modeChange .interval causeTroupe else { w with us.dualDue := false }) →
    x.nothingPends = true → x.flag F.STIME_STATE_STEP_PENDING = false → x.stime.gridN = s.stime.gridN →
    exec (.intervalStart agree) s = .next ((((x.keyBoundary (s.stime.gridN + 1).toNat).newFrame (s.stime.gridN + 1)).afterBoundary).settle) := by
  intro s v w x agree h1 h2 h3 hv hd hw hx h4 h5 h6
  have e : exec (.intervalStart agree) s = .next (if s.intervalAt (s.stime.gridN + 1).toNat then ((s.boundary agree).afterBoundary).settle else s) := rfl
  rw [e, if_pos h2]
  have m : v.modeStep (s.stime.gridN + 1).toNat agree = x := by
    unfold State.modeStep State.twice
    rw [hd]
    dsimp only
    rw [if_neg (by rintro ⟨a, -⟩; cases a)]
    cases agree
    · rw [if_neg (by decide)] at hw hx ⊢
      dsimp only
      rw [← hw]
      exact hx.symm
    · rw [if_pos rfl] at hw hx ⊢
      dsimp only
      rw [← hw, ← hx]
  obtain ⟨g, c⟩ := quiet_grid h4 h5
  unfold State.boundary
  rw [if_neg (by rw [h1]; decide)]
  dsimp only
  rw [← hv, m, g, c]
  simp only [bne_self_eq_false, Bool.or_self, Bool.false_eq_true, if_false, if_pos h3]

theorem complete_intervalEnd : ∀ (s u : State) (st e : Nat) (b : Bool), s.troupe.interval = some (st, e, b) → e ≤ s.frame → u = { s with troupe.interval := none } →
    exec .intervalEnd s = .next (if u.mode == .interval then (if u.flag F.SYS_BOOT_EARLY_OK then u.handToFull (if u.peerLeads then .understudy else .lead)
      else u.put8 A.SYS_MODE_REQ (BitVec.ofNat 32 (2 ^ 31 + (if u.peerLeads then 3 else 2)))) else u) := by
  intro s u st e b h h1 hu
  refine congrArg _ (show s.intervalEnd = _ from ?_)
  have k : ∀ t : Bool, u.mode = .interval → u.askMode (if t then 3 else 2) = (if u.flag F.SYS_BOOT_EARLY_OK then u.handToFull (if t then .understudy else .lead)
      else u.put8 A.SYS_MODE_REQ (BitVec.ofNat 32 (2 ^ 31 + (if t then 3 else 2)))) := by
    intro t m
    unfold State.askMode
    rw [m]
    cases u.flag F.SYS_BOOT_EARLY_OK <;> cases t <;> rfl
  unfold State.intervalEnd
  rw [h]
  dsimp -zeta only
  rw [if_pos h1]
  extract_lets y0 y
  obtain rfl : y = u := hu.symm
  by_cases m : y.mode = .interval
  · rw [if_pos (beq_iff_eq.mpr m), if_pos (beq_iff_eq.mpr m), k _ m]
  · rw [if_neg (by rw [beq_iff_eq]; exact m), if_neg (by rw [beq_iff_eq]; exact m)]

theorem complete_summarySend : ∀ (s : State) (k : List Byte) (used n : Nat) (out rest : List Rec), s.session 0 = some k → s.isPlayer = true → s.mode ≠ .curtain →
    s.troupe.sumQueue.isEmpty = false → used = (if s.troupe.sumAt = s.now / ticksPerSecond then s.troupe.sumCount else 0) →
    n = min (min 56 s.troupe.sumQueue.length) (sumLimit - used) → out = s.troupe.sumQueue.take n → rest = s.troupe.sumQueue.drop n → ∀ u : State,
    u = State.sat { s with troupe.sumAt := s.now / ticksPerSecond, troupe.sumCount := used + n, troupe.sumQueue := if used + n = sumLimit then [] else rest }
      F.TROUPE_CNT_SUM_DROP (if used + n = sumLimit then rest.length else 0) →
    exec .summarySend s = .next (if out.isEmpty then u else u.troupeSend 0xA 1 (some 0) k (out.flatMap Rec.bytes)) := by
  intro s k used n out rest h h1 h2 h3 hu hn ho hr u hx
  refine congrArg _ (show s.summarySend = _ from ?_)
  unfold State.summarySend
  rw [h]
  dsimp -zeta only
  rw [if_neg (by simp [h1, h2, h3])]
  subst hu
  subst hn
  subst ho
  subst hr
  subst hx
  rfl

theorem complete_summary : ∀ (s u : State) (h : THead) (recs : List TRec), s.troupeAccept h 1 false false = (true, u) →
    exec (.summary h recs) s = .next ((recs.take 56).foldl (fun s (r : TRec) => s.postRec (Rec.mk r.st 0 r.code r.sev true h.slot r.rep (r.words.take 4))) u) := by
  intro s u h recs h1
  refine congrArg _ (show s.summaryRx h recs = _ from ?_)
  unfold State.summaryRx
  rw [h1]

theorem complete_command : ∀ (s u : State) (h : THead) (p : List Byte), s.troupeAccept h 1 (h.slot == 0) false = (true, u) →
    (u.isDirector = true → exec (.command h p) s = .next (u.relayReply h.slot p)) ∧
    (u.isDirector = false → u.directorHeard.desk.running = true → 16 ≤ p.length → byteAt p 0 = 1 →
      exec (.command h p) s = .next (u.directorHeard.packet true p 0)) := by
  intro s u h p h1
  have e : exec (.command h p) s = .next (s.commandRx h p) := rfl
  rw [e]
  unfold State.commandRx
  rw [h1]
  dsimp -zeta only
  exact ⟨fun a => congrArg _ (if_pos a), fun a b c d => congrArg _ ((if_neg (by simp [a])).trans (if_pos ⟨b, c, d⟩))⟩

end Sys2Proof.Machine
end

