-- ==== Sys2Proof/Laws/CompleteUnderstudy.lean ====
section
/-! SUPPORT. Completion lemmas: for each command of the Pairing, Mirror, Failover, UnderstudyRegister rows, the next state that `exec` answers, under
hypotheses on the state and the operands alone. One lemma per clause of the completion statements. -/

set_option maxRecDepth 8000

namespace Sys2Proof.Machine

theorem complete_laneUp : ∀ (s u : State) (n : Nat), s.lanesOn = true → s.us.lanes.contains n = false → u = { s with us.lanes := s.us.lanes ++ [n] } →
    exec (.laneUp n) s = .next (if u.keyed || u.rd F.UNDERSTUDY_STAT_STATE == 2 then u else u.beginPairing) := by
  intro s u n h h1 hu
  refine congrArg _ (show s.laneUp n = _ from ?_)
  unfold State.laneUp
  rw [if_neg (by rw [h, h1]; decide)]
  subst hu
  rfl

theorem complete_laneDown : ∀ (s u : State) (n : Nat), s.us.lanes.contains n = true → u = { s with us.lanes := s.us.lanes.filter (· != n) } →
    exec (.laneDown n) s = .next (if u.us.lanes.isEmpty then u.breakPair whyLANES else u) := by
  intro s u n h hu
  refine congrArg _ (show s.laneDown n = _ from ?_)
  unfold State.laneDown
  rw [if_neg (by rw [h]; decide)]
  subst hu
  rfl

theorem complete_s2Fault : ∀ s : State, exec .s2Fault s = .next ((State.irq { s with us.lanes := [] } 122).breakPair whyCIPHER) := by
  intro s
  rfl

theorem complete_hello : ∀ (s u : State) (role : Nat) (body : List Byte), s.us.lanes.isEmpty = false →
    u = (if s.partnerBroke.pairing then s.partnerBroke else s.partnerBroke.beginPairing) →
    (role = u.rd F.SYS_STATE_PAIR_ROLE → exec (.hello role body) s = .next (u.breakPair whyROLE)) ∧
    (role ≠ u.rd F.SYS_STATE_PAIR_ROLE → u.isSecondary = false → exec (.hello role body) s = .next { u with us.helloS := leBytes 1 role ++ body }) ∧
    (role ≠ u.rd F.SYS_STATE_PAIR_ROLE → u.isSecondary = true → ∀ k : List Byte, k = Config.pairKem (leBytes 1 role ++ body) u.draw →
      exec (.hello role body) s = .next (State.sendAuth (State.send { u.next with us.helloP := leBytes 1 role ++ body, us.keyMsg := k } chanMirror 2 k))) := by
  intro s u role body h hu
  have e : exec (.hello role body) s = .next (if role = u.rd F.SYS_STATE_PAIR_ROLE then u.breakPair whyROLE
      else if u.isSecondary then State.sendAuth (State.send { u.next with us.helloP := leBytes 1 role ++ body, us.keyMsg := Config.pairKem (leBytes 1 role ++ body) u.draw }
          chanMirror 2 (Config.pairKem (leBytes 1 role ++ body) u.draw))
        else { u with us.helloS := leBytes 1 role ++ body }) := by
    show Host.Outcome.next (s.helloRx role body) = _
    unfold State.helloRx
    dsimp only
    rw [if_neg (by simp [h]), ← hu]
  rw [e]
  refine ⟨fun a => congrArg _ (if_pos a), fun a b => congrArg _ ((if_neg a).trans (if_neg (by simp [b]))), fun a b k hk => ?_⟩
  rw [hk]
  exact congrArg _ ((if_neg a).trans (if_pos b))

theorem complete_keyMessage : ∀ (s : State) (body : List Byte), s.pairing = true → s.isPrincipal = true → s.us.helloS.isEmpty = false →
    exec (.keyMessage body) s = .next (State.sendAuth { s with us.keyMsg := body }) := by
  intro s body h h1 h2
  exact congrArg _ (if_pos (by simp [h, h1, h2]))

theorem complete_auth : ∀ (s : State) (body : List Byte), s.pairing = true → s.us.keyMsg.isEmpty = false →
    exec (.auth body) s = .next (if Config.partnerVerifies s.pairDigest body then { s with us.authOk := true } else s.breakPair whyIDENTITY) := by
  intro s body h h1
  exact congrArg _ (if_neg (by simp [h, h1]))

theorem pairKeyed_eq {s u v : State} {k : List Byte} (h : s.pairing = true) (h1 : s.us.authOk = true)
    (hk : k = shake256 96 (Config.pairSecrets (s.us.helloP ++ s.us.helloS ++ s.us.keyMsg) s.draw ++ s.pairDigest))
    (hu : u = { s.next with us.keys := k, us.epochReq := true, us.firstFull := false, us.epochWhole := false, us.failed := false, us.badMode := 0 })
    (hv : v = State.pairState ([0, 1, 2].foldl (fun s i => { s with chorus.slots := put (fun _ => KeySlot.empty) s.chorus.slots (253 + i) (KeySlot.mk true 2 0 0 (sliceB k (32 * i) 32) ((look (fun _ => KeySlot.empty) s.chorus.slots (253 + i)).epoch + 1)) }) u) 3 0) :
    s.pairKeyed = if v.mode == .lead then v else v.markStale := by
  unfold State.pairKeyed
  rw [if_neg (by simp [h, h1])]
  subst hk
  subst hu
  subst hv
  rfl

theorem complete_pairingKeyed : ∀ (s u v : State) (k : List Byte), s.pairing = true → s.us.authOk = true →
    k = shake256 96 (Config.pairSecrets (s.us.helloP ++ s.us.helloS ++ s.us.keyMsg) s.draw ++ s.pairDigest) →
    u = { s.next with us.keys := k, us.epochReq := true, us.firstFull := false, us.epochWhole := false, us.failed := false, us.badMode := 0 } →
    v = State.pairState ([0, 1, 2].foldl (fun s i => { s with chorus.slots := put (fun _ => KeySlot.empty) s.chorus.slots (253 + i) (KeySlot.mk true 2 0 0 (sliceB k (32 * i) 32) ((look (fun _ => KeySlot.empty) s.chorus.slots (253 + i)).epoch + 1)) }) u) 3 0 →
    exec .pairingKeyed s = .next (if v.mode == .lead then v else v.markStale) := by
  intro s u v k h h1 h2 h3 h4
  exact congrArg _ (pairKeyed_eq h h1 h2 h3 h4)

theorem complete_pairingRetry : ∀ s : State, s.armed .pairRetry = true → (s.elapsed .pairRetry).us.lanes.isEmpty = false → (s.elapsed .pairRetry).keyed = false →
    exec .pairingRetry s = .next (s.elapsed .pairRetry).beginPairing := by
  intro s h h1 h2
  exact fire_next (k := State.pairRetry) h (if_neg (by simp [h1, h2]))

theorem complete_pulseSend : ∀ s : State, s.keyed = true → exec .pulseSend s = .next ((s.reachST (s.frameStart + 500).toNat).sendControl 1) := by
  intro s h
  exact congrArg _ (if_pos h)

theorem complete_pulse : ∀ (s a b c : State) (w : Word) (sent delay : Nat), s.keyed = true →
    a = { s.setReg A.UNDERSTUDY_PEER_HEALTH w with us.pulseSeen := true, us.pulseDiff := (sent : Int) + delay - s.now } →
    b = (if a.us.failed then { a with us.failed := false } else a) → c = { b with us.goodPulses := if b.peerHealthy then b.us.goodPulses + 1 else 0 } →
    exec (.pulse w sent delay) s = .next (if w.getLsbD 0 && c.mode == .lead && !c.us.epochOpen then { c with us.epochReq := true } else c) := by
  intro s a b c w sent delay h ha hb hc
  refine congrArg _ (show s.pulseRx w sent delay = _ from ?_)
  unfold State.pulseRx
  rw [if_neg (by simp [h])]
  subst ha
  subst hb
  subst hc
  rfl

theorem complete_ready : ∀ (s : State) (n : Nat), s.us.ho = 1 → s.us.hoSwitch = n → exec (.ready n) s = .next { s with us.hoReady := true } := by
  intro s n h h1
  exact congrArg _ (if_pos ⟨h, h1⟩)

theorem complete_abort : ∀ s : State, s.us.ho = 2 → exec .abort s = .next (State.irq { s with us.ho := 0 } 155) := by
  intro s h
  exact congrArg _ (if_pos h)

theorem complete_cancel : ∀ s : State, s.us.ho = 2 → exec .cancel s = .next (State.irq { s with us.ho := 0 } 155) := by
  intro s h
  exact congrArg _ (if_pos h)

theorem complete_aliveEdge : ∀ s : State, s.boot.auxLost = false → exec .aliveEdge s = .next { s with us.aliveSeen := true, boot.aliveAt := some s.now } := by
  intro s h
  exact congrArg _ (if_neg (by simp [h]))

theorem complete_mirrorTransferEnd : ∀ (s u : State) (x : Xfer) (w n : Nat), s.us.xfer = some x → w = s.lv F.UNDERSTUDY_CFG_B_WINDOW →
    n = (x.lines.length + s.terr.rescue.length) * 64 + x.msg.octets.length + x.control →
    u = s.reachST (x.start + (if s.sendingLines.isEmpty then min (s.linkTicks n) w else w)) →
    exec .mirrorTransferEnd s = .next (u.mirrorSeal x (min u.mirrorBudget (u.linkBytes w))) := by
  intro s u x w n h hw hn hu
  refine congrArg _ (show s.mirrorEnd = _ from ?_)
  unfold State.mirrorEnd
  rw [h]
  subst hw
  subst hn
  subst hu
  rfl

theorem complete_mirrorRx : ∀ (s : State) (msg : MirrorMsg) (ok : Bool), s.keyed = true → s.mode ≠ .lead → s.us.takeDue = none →
    (s.halfBusy msg.frame = true → exec (.mirrorRx msg ok) s = .next { s with us.parked := s.us.parked ++ [(msg, ok)] }) ∧
    (s.halfBusy msg.frame = false → ∀ u : State,
      u = (s.dmaWrite 16 (0x10000000 + (s.lv F.UNDERSTUDY_CFG_A_LAND + 2 * (msg.frame % 2)) * 0x40000) (msg.octets.take 524288)).2 →
      exec (.mirrorRx msg ok) s = .next { u with us.arrived := u.us.arrived ++ [(msg, ok)] }) := by
  intro s msg ok h h1 h2
  show (_ → Host.Outcome.next (s.mirrorRx msg ok) = _) ∧ (_ → ∀ u : State, _ → Host.Outcome.next (s.mirrorRx msg ok) = _)
  unfold State.mirrorRx
  rw [if_neg (by simp [h, h1, h2])]
  refine ⟨fun q => congrArg _ (if_pos q), fun q u hu => ?_⟩
  rw [if_neg (by rw [q]; decide), hu]
  rfl

theorem sealVerify_eq {s u : State} {m : MirrorMsg} {ok : Bool} {rest : List (MirrorMsg × Bool)} (h : s.us.arrived = (m, ok) :: rest)
    (hu : u = { s with us.arrived := rest }) (h1 : u.mode ≠ .lead) :
    ((ok && decide (u.newestMirror < m.frame) && (m.epoch == u.currentEpoch || m.resync)) = false → s.sealVerify = u.mirrorDiscard m.frame) := by
  intro q
  unfold State.sealVerify
  rw [h]
  dsimp -zeta only
  extract_lets y0 y
  obtain rfl : y = u := hu.symm
  rw [if_neg (by simp [h1]), if_neg (by rw [q]; decide)]

theorem sealVerify_ok {s u x v : State} {m : MirrorMsg} {ok : Bool} {rest : List (MirrorMsg × Bool)} (h : s.us.arrived = (m, ok) :: rest)
    (hu : u = { s with us.arrived := rest }) (h1 : u.mode ≠ .lead) 
    (q : (ok && decide (u.newestMirror < m.frame) && (m.epoch == u.currentEpoch || m.resync)) = true)
     (hx : x = { u with
        us.accepted := u.us.accepted ++ [m], us.sealOk := true, us.received := { frame := m.frame, digest := m.digest, pdigest := m.pdigest } :: u.us.received.take 3 })
     (hv : v = (x.setReg A.UNDERSTUDY_PEER_HEALTH (BitVec.ofNat 32 m.health)).shadowTry (m.frame + 1)) :
      s.sealVerify = (if m.handover && v.selfHealthy && (m.departure || v.isPrincipal) then
        State.sendControl { v with us.ho := 2, us.hoSwitch := v.switchFrame m.switch, us.hoDeparture := m.departure } 2 else v) := by
  unfold State.sealVerify
  rw [h]
  dsimp -zeta only
  extract_lets y0 y z0 z w
  obtain rfl : y = u := hu.symm
  obtain rfl : z = x := hx.symm
  obtain rfl : w = v := hv.symm
  rw [if_neg (by simp [h1]), if_pos q]

theorem complete_sealVerify : ∀ (s u : State) (m : MirrorMsg) (ok : Bool) (rest : List (MirrorMsg × Bool)), s.us.arrived = (m, ok) :: rest →
    u = { s with us.arrived := rest } → u.mode ≠ .lead →
    ((ok && decide (u.newestMirror < m.frame) && (m.epoch == u.currentEpoch || m.resync)) = false →
      exec .sealVerify s = .next (u.mirrorDiscard m.frame)) ∧
    ((ok && decide (u.newestMirror < m.frame) && (m.epoch == u.currentEpoch || m.resync)) = true →
      ∀ x v : State, x = { u with
        us.accepted := u.us.accepted ++ [m], us.sealOk := true, us.received := { frame := m.frame, digest := m.digest, pdigest := m.pdigest } :: u.us.received.take 3 } →
      v = (x.setReg A.UNDERSTUDY_PEER_HEALTH (BitVec.ofNat 32 m.health)).shadowTry (m.frame + 1) →
      exec .sealVerify s = .next (if m.handover && v.selfHealthy && (m.departure || v.isPrincipal) then
        State.sendControl { v with us.ho := 2, us.hoSwitch := v.switchFrame m.switch, us.hoDeparture := m.departure } 2 else v)) := by
  intro s u m ok rest h hu h1
  exact ⟨fun q => congrArg _ (sealVerify_eq h hu h1 q), fun q x v hx hv => congrArg _ (sealVerify_ok h hu h1 q hx hv)⟩

theorem complete_mirrorApply : ∀ s : State, s.mode ≠ .curtain →
    (∀ m : MirrorMsg, s.us.applying = some m → exec .mirrorApply s = .next (s.applySteps m)) ∧
    (∀ (m : MirrorMsg) (rest : List MirrorMsg), s.us.applying = none → s.mode ≠ .lead → s.us.takeDue = none → s.us.accepted = m :: rest → s.applyMay m = true →
      exec .mirrorApply s = .next ((State.applyBanks { s with us.accepted := rest, us.applying := some m } m.config).applySteps m)) := by
  intro s h
  show (∀ m : MirrorMsg, _ → Host.Outcome.next s.mirrorApply = _) ∧ (∀ (m : MirrorMsg) (rest : List MirrorMsg), _ → _ → _ → _ → _ → Host.Outcome.next s.mirrorApply = _)
  unfold State.mirrorApply
  rw [if_neg (by simp [h])]
  constructor
  · intro m h2
    rw [h2]
  · intro m rest h2 h3 h4 h5 h6
    rw [h2]
    dsimp only
    rw [if_neg (by simp [h3, h4]), h5]
    exact congrArg _ (if_pos h6)

theorem complete_mirrorFirstRecordArrives : ∀ (s : State) (n : Nat) (m : MirrorMsg), s.us.applying = some m → m.frame + 2 = n →
    exec (.mirrorFirstRecordArrives n) s = .next { s with us.promoted := true } := by
  intro s n m h h1
  show Host.Outcome.next (s.mirrorFirst n) = _
  unfold State.mirrorFirst
  rw [h]
  exact congrArg _ (if_pos h1)

theorem complete_failureCheck : ∀ (s a b c d : State), s.mode = .lead ∨ s.mode = .understudy ∨ s.mode = .interval → s.rd F.SYS_STATE_PAIR_ROLE ≠ 0 →
    a = s.reachST (s.frameStart + 5000).toNat →
    b = (a.missCount F.UNDERSTUDY_STAT_LINK_MISS a.us.pulseSeen).missCount F.UNDERSTUDY_STAT_ALIVE_MISS a.us.aliveSeen →
    c = State.resolveCheck { b with us.pulseSeen := false, us.aliveSeen := false } (a.us.pulseSeen, a.us.aliveSeen) (a.linkLostNow, a.aliveLostNow) →
    d = (if c.mode == .understudy && c.us.failed && c.us.takeDue.isNone then { c with us.takeDue := some c.frame } else c) →
    exec .failureCheck s = .next (d.setHeld (d.heldIn d.mode)) := by
  intro s a b c d h h1 ha hb hc hd
  refine congrArg _ (show s.failureCheck = _ from ?_)
  unfold State.failureCheck
  rw [if_neg (by rcases h with h | h | h <;> simp [h, h1])]
  subst ha
  subst hb
  subst hc
  subst hd
  rfl

theorem complete_takeover : ∀ (s u v : State) (agree : Bool) (f : Nat), s.us.takeDue = some f → s.mode = .understudy → u = s.reachST (s.frameStart + 5500).toNat →
    ((u.us.applying = none ∧ v = u) ∨ ∃ m, u.us.applying = some m ∧ v = u.applySteps m) → v.us.applying = none →
    exec (.takeover agree) s = .next (State.settle (if agree then v.lead f causeTakeover else { v.dtDisagree with us.takeDue := none })) := by
  intro s u v agree f h h1 hu hv h2
  refine congrArg (fun x => Host.Outcome.next (State.settle x)) ?_
  unfold State.takeover
  rw [h]
  dsimp -zeta only
  rw [if_neg (by simp [h1])]
  extract_lets x y
  obtain rfl : x = u := hu.symm
  have e : y = v := by
    rcases hv with ⟨q, r⟩ | ⟨m, q, r⟩
    · rw [r]
      show (match x.us.applying with | some m => x.applySteps m | none => x) = x
      rw [q]
    · rw [r]
      show (match x.us.applying with | some m => x.applySteps m | none => x) = x.applySteps m
      rw [q]
  rw [e, if_neg (by simp [h2])]
  cases agree <;> rfl

theorem complete_handoverCommitCheck : ∀ (s u : State), s.us.ho = 1 → s.mode = .lead → s.us.hoSwitch = s.frame + 1 → u = s.reachST (s.nextBoundary - 5000).toNat →
    exec .handoverCommitCheck s = .next (if u.us.hoReady then { u with us.ho := 3 } else (u.sendControl 4).handoverDrop) := by
  intro s u h h1 h2 hu
  show Host.Outcome.next s.handoverCheck = _
  unfold State.handoverCheck
  rw [if_pos ⟨h, h1, h2⟩, ← hu]

theorem complete_selftestRun : ∀ (s : State) (test : Nat) (pass : Bool), s.mode = .understudy → 1 ≤ test → test ≤ 5 →
    exec (.selftestRun test pass) s = .next (s.selftestOne test pass).2.settle := by
  intro s test pass h h1 h2
  show Host.Outcome.next (s.selftestRun test pass).settle = _
  unfold State.selftestRun
  rw [if_neg (by simp [h]; omega)]

theorem complete_understudyFeed : ∀ (s : State) (m : Nat), s.mayWrite m A.UNDERSTUDY_CTRL = true →
    exec (.understudyFeed m) s = .next (State.settle { s with us.feedAge := some 0 }) := by
  intro s m h
  refine congrArg _ (store_reg h (by decide) (show _ = _ from congrArg (Prod.mk none) ?_))
  show s.usCtrl _ = _
  unfold State.usCtrl State.usCtrlWrite
  simp [show ∀ i, (BitVec.twoPow 32 31).getLsbD i = decide (31 = i) from by intro i; rw [BitVec.getLsbD_twoPow]; simp]

theorem complete_understudyJoin : ∀ (s u : State) (m : Nat), s.mayWrite m A.UNDERSTUDY_CTRL = true → s.mode = .rehearsal → s.us.joined = false →
    u = (State.lanesFollow { s with us.joined := true }).landBanks →
    exec (.understudyJoin m) s = .next (State.settle (if u.us.joined then { u with boot.joinedAt := some u.now } else u)) := by
  intro s u m h h1 h2 hu
  refine congrArg _ (store_reg h (by decide) (show _ = _ from congrArg (Prod.mk none) ?_))
  show s.usCtrl _ = _
  unfold State.usCtrl State.usCtrlWrite
  simp [show ∀ i, (BitVec.twoPow 32 30).getLsbD i = decide (30 = i) from by intro i; rw [BitVec.getLsbD_twoPow]; simp, h1, h2, ← hu]

theorem complete_understudyHandover : ∀ (s : State) (m : Nat), s.mayWrite m A.UNDERSTUDY_CTRL = true → s.mode = .lead →
    exec (.understudyHandover m) s = .next (State.settle { s with us.hoRequest := true }) := by
  intro s m h h1
  refine congrArg _ (store_reg h (by decide) (show _ = _ from congrArg (Prod.mk none) ?_))
  show s.usCtrl _ = _
  unfold State.usCtrl State.usCtrlWrite
  simp [show ∀ i, (BitVec.twoPow 32 29).getLsbD i = decide (29 = i) from by intro i; rw [BitVec.getLsbD_twoPow]; simp, h1]

theorem complete_understudyResync : ∀ (s : State) (m : Nat), s.mayWrite m A.UNDERSTUDY_CTRL = true →
    exec (.understudyResync m) s = .next (State.settle { s with us.epochReq := true }) := by
  intro s m h
  refine congrArg _ (store_reg h (by decide) (show _ = _ from congrArg (Prod.mk none) ?_))
  show s.usCtrl _ = _
  unfold State.usCtrl State.usCtrlWrite
  simp [show ∀ i, (BitVec.twoPow 32 28).getLsbD i = decide (28 = i) from by intro i; rw [BitVec.getLsbD_twoPow]; simp]

theorem complete_understudyUnpair : ∀ (s u : State) (m : Nat), s.mayWrite m A.UNDERSTUDY_CTRL = true → s.keyed = true ∨ s.pairing = true → u = s.breakPair whyUNPAIR →
    exec (.understudyUnpair m) s = .next (State.settle (if !s.us.joined && u.us.joined then { u with boot.joinedAt := some u.now } else u)) := by
  intro s u m h h1 hu
  refine congrArg _ (store_reg h (by decide) (show _ = _ from congrArg (Prod.mk none) ?_))
  show s.usCtrl _ = _
  unfold State.usCtrl State.usCtrlWrite
  simp [show ∀ i, (BitVec.twoPow 32 27).getLsbD i = decide (27 = i) from by intro i; rw [BitVec.getLsbD_twoPow]; simp, h1, ← hu]

theorem complete_understudyAckStale : ∀ (s u : State) (m : Nat), s.mayWrite m A.UNDERSTUDY_CTRL = true → s.mode = .lead → u = s.setStale false →
    exec (.understudyAckStale m) s = .next (State.settle (if !s.us.joined && u.us.joined then { u with boot.joinedAt := some u.now } else u)) := by
  intro s u m h h1 hu
  refine congrArg _ (store_reg h (by decide) (show _ = _ from congrArg (Prod.mk none) ?_))
  show s.usCtrl _ = _
  unfold State.usCtrl State.usCtrlWrite
  simp [show ∀ i, (BitVec.twoPow 32 26).getLsbD i = decide (26 = i) from by intro i; rw [BitVec.getLsbD_twoPow]; simp, h1, ← hu]

theorem complete_holdSet : ∀ (s : State) (m : Nat) (w : Word), s.mayWrite m A.UNDERSTUDY_HOLD_SET = true →
    exec (.holdSet m w) s = .next (s.setReg A.UNDERSTUDY_HOLD (s.holds ||| w)).settle := by
  intro s m w h
  exact congrArg _ (store_reg h (by decide) rfl)

theorem complete_holdClr : ∀ (s : State) (m : Nat) (w : Word), s.mayWrite m A.UNDERSTUDY_HOLD_CLR = true →
    exec (.holdClr m w) s = .next (s.setReg A.UNDERSTUDY_HOLD (s.holds &&& ~~~w)).settle := by
  intro s m w h
  exact congrArg _ (store_reg h (by decide) rfl)

theorem complete_understudyCntClear : ∀ (s : State) (m k : Nat) (w : Word), k < 3 → s.mayWrite m (A.UNDERSTUDY_CNT_A + 4 * k) = true →
    exec (.understudyCntClear m k w) s = .next (s.setReg (A.UNDERSTUDY_CNT_A + 4 * k) 0).settle := by
  intro s m k w hk h
  have e : s.regWrite m (A.UNDERSTUDY_CNT_A + 4 * k) w = (none, s.setReg (A.UNDERSTUDY_CNT_A + 4 * k) 0) := by interval_cases k <;> rfl
  exact congrArg _ (store_reg h (by interval_cases k <;> decide) e)

end Sys2Proof.Machine
end

