-- ==== Sys2Proof/Laws/CompleteWings.lean ====
section
/-! SUPPORT. Completion lemmas: for each command of the Queue, GatherAndPacker rows, the next state that `exec` answers, under
hypotheses on the state and the operands alone. One lemma per clause of the completion statements. -/

set_option maxRecDepth 8000

namespace Sys2Proof.Machine

theorem queueWrite_one (s : State) (q : Nat) (w : Word) : s.queueWrite q 1 w = if w.getLsbD 31 then s.queueEnable q w else s.queueDisable q w := by
  rfl

theorem complete_queueEnable : ∀ (s : State) (m q : Nat) (w v : Word), q < 262144 → s.admits m (0x30000000 + 16 * q + 4) 4 .write = true → v = setBits w 31 31 1 →
    (s.queue q).v = false → (s.queue q).enableOk (getBits v 30 27) (getBits v 26 23) = true →
    exec (.queueEnable m q w) s = .next (State.settle ((s.setQueue q { (s.queue q).take with
      v := true, esize := getBits v 30 27, depth := getBits v 26 23, head := 0, tail := 0, fullcnt := 0, armed := true }).disarm (.queueIdle q))) := by
  intro s m q w v hq h hv h1 h2
  show Host.Outcome.next (s.store m (0x30000000 + 16 * q + 4 * 1) (setBits w 31 31 1)) = _
  rw [← hv, store_queue hq (by omega) h, queueWrite_one, if_pos]
  · unfold State.queueEnable
    simp only [h1, h2, Bool.false_eq_true, if_false, Bool.not_true]
  · rw [hv, getLsbD_setBits _ _ _ _ _ (by omega) (by omega), if_pos (by omega)]
    rfl

theorem complete_queueDisable : ∀ (s : State) (m q : Nat) (w v : Word), q < 262144 → s.admits m (0x30000000 + 16 * q + 4) 4 .write = true → v = setBits w 31 31 0 →
    exec (.queueDisable m q w) s = .next (State.settle ((s.setQueue q { s.queue q with
      v := false, esize := if getBits v 30 27 ≤ 8 then getBits v 30 27 else (s.queue q).esize, depth := getBits v 26 23,
      head := (s.queue q).tail }).disarm (.queueIdle q))) := by
  intro s m q w v hq h hv
  show Host.Outcome.next (s.store m (0x30000000 + 16 * q + 4 * 1) (setBits w 31 31 0)) = _
  rw [← hv, store_queue hq (by omega) h, queueWrite_one, if_neg]
  · rfl
  · rw [hv, getLsbD_setBits _ _ _ _ _ (by omega) (by omega), if_pos (by omega)]
    decide

theorem place_ok {s u : State} {w q : Nat} {bs : List Byte} (h : (s.queue q).v = true) (h1 : (s.queue q).full = false)
    (h2 : s.dmaWrite w ((s.queue q).slot (s.queue q).tail) bs = (none, u)) : s.place w q bs = (true, u.advanceTail q) := by
  unfold State.place
  simp only [h, h1, h2, Bool.not_true, Bool.false_eq_true, if_false]

theorem complete_enqueueStore : ∀ (s : State) (m q : Nat) (d : DWord), q < 262144 → s.admits m (0x34000000 + 8 * q) 8 .write = true → (s.queue q).v = true →
    s.mayProduce m (s.queue q) = true → (s.queue q).esize = 0 → (s.queue q).full = false →
    ∀ u : State, s.dmaWrite m ((s.queue q).slot (s.queue q).tail) (leBytes 8 d.toNat) = (none, u) →
    exec (.enqueueStore m q d) s = .next (u.advanceTail q).settle := by
  intro s m q d hq h h1 h2 h3 h4 u h5
  show Host.Outcome.next (s.store8 m _ d) = _
  rw [store8_enqueue hq h]
  unfold State.enqueueStore
  simp only [h1, h2, h3, place_ok h1 h4 h5, Bool.not_true, Bool.false_eq_true, if_false, if_true]

theorem enqueueStore_copy {s : State} {m q : Nat} {d : DWord} (h1 : (s.queue q).v = true) (h2 : s.mayProduce m (s.queue q) = true)
    (h3 : (s.queue q).esize ≠ 0) : s.enqueueStore m q d = s.copyStart m q d := by
  unfold State.enqueueStore
  simp only [h1, h2, if_neg h3, Bool.not_true, Bool.false_eq_true, if_false]

theorem copyDesc_of {src len : Nat} (h4 : src < 2 ^ 32) (h6 : len < 2 ^ 12) : CopyDesc.of (BitVec.ofNat 64 (len * 2 ^ 32 + src)) = { src := src, len := len, top := 0 } := by
  unfold CopyDesc.of
  rw [BitVec.toNat_ofNat]
  congr 1 <;> omega

theorem copyStart_ok {s u : State} {m q src len : Nat} {w : DWord} {bs : List Byte} (e : CopyDesc.of w = { src := src, len := len, top := 0 })
    (h5 : src % 8 = 0) (h7 : len ≤ (s.queue q).entry) (h8 : s.dmaRead m src (if len = 0 then (s.queue q).entry else len) = (.ok bs, u)) :
    s.copyStart m q w = { u with wing.copies := u.wing.copies ++ [{ queue := q, master := m, bytes := bs }] } := by
  unfold State.copyStart
  rw [e]
  simp only
  rw [if_neg, h8]
  simp only [h5, bne_self_eq_false, Bool.false_or, decide_eq_true_eq, not_lt]
  split <;> omega

theorem complete_copyEnqueue : ∀ (s : State) (m q src len : Nat), q < 262144 → s.admits m (0x34000000 + 8 * q) 8 .write = true → (s.queue q).v = true →
    s.mayProduce m (s.queue q) = true → (s.queue q).esize ≠ 0 → src < 2 ^ 32 → src % 8 = 0 → len < 2 ^ 12 → len ≤ (s.queue q).entry →
    ∀ (u : State) (bs : List Byte), s.dmaRead m src (if len = 0 then (s.queue q).entry else len) = (.ok bs, u) →
    exec (.copyEnqueue m q src len) s = .next (State.settle { u with
      wing.copies := u.wing.copies ++ [{ queue := q, master := m, bytes := bs }] }) := by
  intro s m q src len hq h h1 h2 h3 h4 h5 h6 h7 u bs h8
  show Host.Outcome.next (s.store8 m _ _) = _
  rw [store8_enqueue hq h, enqueueStore_copy h1 h2 h3, copyStart_ok (copyDesc_of h4 h6) h5 h7 h8]

theorem complete_copyEnqueueDone : ∀ (s u : State) (c : Copy) (l : List Copy), s.wing.copies = c :: l → (s.queue c.queue).v = true → (s.queue c.queue).full = false →
    State.dmaWrite { s with wing.copies := l } 11 ((s.queue c.queue).slot (s.queue c.queue).tail) c.bytes = (none, u) →
    exec .copyEnqueueDone s = .next (u.advanceTail c.queue) := by
  intro s u c l h h1 h2 h3
  show Host.Outcome.next s.copyDone = _
  unfold State.copyDone
  rw [h]
  have e := place_ok (s := { s with wing.copies := l }) (w := 11) (q := c.queue) (bs := c.bytes) h1 h2 h3
  exact congrArg (fun x => Host.Outcome.next x.2) e

theorem complete_enqueueWindowLoad : ∀ (s : State) (m q : Nat), q < 262144 → s.admits m (0x34000000 + 8 * q) 8 .read = true →
    exec (.enqueueWindowLoad m q) s = .next (State.settle { s with rdata :=
      (if (s.queue q).v && s.mayProduce m (s.queue q) then
        BitVec.ofNat 64 (2 ^ 63 + ((s.queue q).ringLen - (s.queue q).fill) * 2 ^ 32) else 0) }) := by
  intro s m q hq h
  exact congrArg _ (load8_enqueue hq h)

theorem complete_dequeueLoad : ∀ (s : State) (m q : Nat), q < 262144 → s.admits m (0x34400000 + 8 * q) 8 .read = true → (s.queue q).v = true → s.mayConsume m (s.queue q) = true →
    exec (.dequeueLoad m q) s = .next (State.settle { s with rdata :=
      (if s.visible (s.queue q) = 0 then 0 else
        BitVec.ofNat 64 (2 ^ 63 + s.visible (s.queue q) * 2 ^ 32 + (s.queue q).slot (s.queue q).head)) }) := by
  intro s m q hq h h1 h2
  show Host.Outcome.next (s.load8 m _) = _
  rw [load8_dequeue hq h]
  unfold State.dequeueLoad
  by_cases hf : s.visible (s.queue q) = 0 <;> simp only [h1, h2, hf, Bool.not_true, Bool.false_eq_true, if_false, if_true]

theorem complete_release : ∀ (s : State) (m q n : Nat), q < 262144 → s.admits m (0x34400000 + 8 * q) 8 .write = true → (s.queue q).v = true → s.mayConsume m (s.queue q) = true →
    n ≠ 0 → n < 2 ^ 64 → n ≤ (s.queue q).fill → exec (.release m q n) s = .next (s.releaseEntries q n).settle := by
  intro s m q n hq h h1 h2 h3 h4 h5
  show Host.Outcome.next (s.store8 m _ _) = _
  rw [store8_dequeue hq h]
  unfold State.releaseStore
  have hn : (BitVec.ofNat 64 n).toNat = n := by rw [BitVec.toNat_ofNat, Nat.mod_eq_of_lt h4]
  simp only [h1, h2, hn, Bool.not_true, Bool.false_eq_true, if_false, if_neg (by omega : ¬(n = 0 ∨ (s.queue q).fill < n))]

theorem complete_queueIdleTimeout : ∀ (s : State) (q : Nat), s.armed (.queueIdle q) = true →
    exec (.queueIdleTimeout q) s = .next ((s.elapsed (.queueIdle q)).notifyQueue q) := by
  intro s q h
  exact congrArg _ (if_pos h)

theorem complete_notifyPop : ∀ (s : State) (m l q : Nat) (rest : List Nat), l < 32 → s.mayRead m (A.WINGS_NOTIFY_POP l) = true → s.notify l = q :: rest →
    exec (.notifyPop m l) s = .next (State.settle { s with
      wing.ovf := put (fun _ => false) s.wing.ovf l false, wing.notify := put (fun _ => []) s.wing.notify l rest,
      rdata := BitVec.ofNat 64 (BitVec.ofNat 32 (2 ^ 31 + b2n (look (fun _ => false) s.wing.ovf l) * 2 ^ 30 + q)).toNat }) := by
  intro s m l q rest hl h h1
  have hr : s.regRead m (A.WINGS_NOTIFY_POP l) = (.ok (s.notifyPop l).1, (s.notifyPop l).2) := by interval_cases l <;> rfl
  refine congrArg _ ((load_reg h (by interval_cases l <;> decide) hr).trans ?_)
  unfold State.notifyPop
  rw [h1]

theorem complete_wingsErrClr : ∀ (s : State) (m : Nat), s.mayWrite m A.WINGS_ERR_CLR = true →
    exec (.wingsErrClr m) s = .next ((s.setReg A.WINGS_ERR_A 0).setReg A.WINGS_ERR_B 0).settle := by
  intro s m h
  exact congrArg _ (store_reg h (by decide) rfl)

theorem complete_gatherStart : ∀ (s : State) (g : Gather) (rest : List Gather), s.ens.waiting = g :: rest → s.gathererFree g.ens = true → (s.ensCfg g.ens).en = true →
    exec .gatherStart s = .next (State.gatherBegin { s with ens.waiting := rest }
      { g with cfg := s.ensCfg g.ens, epoch := look (fun _ => 0) s.ens.epochs g.ens }) := by
  intro s g rest h hf h1
  show Host.Outcome.next s.gatherNext = _
  unfold State.gatherNext
  rw [h]
  exact congrArg _ ((if_pos hf).trans (if_pos h1))

theorem complete_gatherComplete : ∀ (s : State) (e : Nat) (g : Gather), (s.ens.running.find? fun x => x.ens == e) = some g →
    exec (.gatherComplete e) s = .next ((s.dropRunning g).gatherFinish g) := by
  intro s e g h
  show Host.Outcome.next (s.gatherEnd e) = _
  unfold State.gatherEnd
  rw [h]

theorem complete_ensembleCntClr : ∀ (s : State) (m e : Nat), e < 256 → s.mayWrite m A.ENSEMBLE_SEL = true →
    ∀ u : State, u = s.wr F.ENSEMBLE_SEL_INDEX e →
    exec (.ensembleCntClr m e) s = .next ((u.setReg (u.ensKey A.ENSEMBLE_STAT_A) 0).setReg (u.ensKey A.ENSEMBLE_STAT_B) 0).settle := by
  intro s m e he h u hu
  subst hu
  refine congrArg _ (store_reg h (by decide) (show _ = _ from congrArg (Prod.mk none) ?_))
  show s.ensSelWrite _ = _
  unfold State.ensSelWrite
  have b : (BitVec.ofNat 32 (2 ^ 31 + e)).getLsbD 31 = true := by rw [getLsbD_ofNat32 _ _ (by omega)]; simp; omega
  rw [getBits_ofNat32 _ _ _ (by omega), show (2 ^ 31 + e) / 2 ^ 0 % 2 ^ (7 + 1 - 0) = e by omega]
  simp only [b, if_true]

theorem complete_packerWrite : ∀ (s : State) (m c size : Nat) (d : DWord), c < 48 → size < 4 → s.admits m (packerIn c) (2 ^ size) .write = true → s.packerOn c = true →
    2 ^ size ≤ bankBytes (s.liveReg (A.PACKER_CFG c)) - (s.packer c).fill →
    exec (.packerWrite m c size d) s = .next (s.packerPut c (leBytes (2 ^ size) d.toNat)).settle := by
  intro s m c size d hc hs h h1 h2
  show Host.Outcome.next (s.storeN m _ _ d) = _
  rw [storeN_packer hc h]
  unfold State.packerAppend
  simp only [h1, leBytes_length, if_pos h2, Bool.not_true, Bool.false_eq_true, if_false]

theorem complete_packerCtrlSwap : ∀ (s : State) (m c : Nat), c < 48 → s.mayWrite m (A.PACKER_CTRL c) = true → s.packerOn c = true → (s.packer c).fill ≠ 0 → (s.packer c).otherFree = true →
    exec (.packerCtrlSwap m c) s = .next (s.packerSwap c false).2.settle := by
  intro s m c hc h h1 _ _
  have hw : s.regWrite m (A.PACKER_CTRL c) (setBits 0#32 (F.PACKER_CTRL_SWAP c).hi (F.PACKER_CTRL_SWAP c).lo 1) =
      (none, s.packerCtrl c (setBits 0#32 (F.PACKER_CTRL_SWAP c).hi (F.PACKER_CTRL_SWAP c).lo 1)) := by interval_cases c <;> rfl
  refine congrArg _ (store_reg h (by interval_cases c <;> decide) (hw.trans (congrArg _ ?_)))
  unfold State.packerCtrl
  simp only [show (setBits 0#32 (F.PACKER_CTRL_SWAP c).hi (F.PACKER_CTRL_SWAP c).lo 1).getLsbD 30 = false from by show (setBits 0#32 31 31 1).getLsbD 30 = false; decide,
    show (setBits 0#32 (F.PACKER_CTRL_SWAP c).hi (F.PACKER_CTRL_SWAP c).lo 1).getLsbD 31 = true from by show (setBits 0#32 31 31 1).getLsbD 31 = true; decide,
    h1, Bool.false_eq_true, if_false, Bool.true_and, if_true]

theorem complete_packerReturn : ∀ (s : State) (m c : Nat) (w : Word), c < 48 → s.mayWrite m (A.PACKER_CTRL c) = true → w.getLsbD 30 = true → w.getLsbD 31 = false →
    s.packerOn c = true → (s.packer c).cur ≠ getBits w 29 29 → (s.packer c).otherFree = false → (s.packer c).blocked = false →
    exec (.packerReturn m c w) s = .next (s.setPacker c { s.packer c with otherFree := true }).settle := by
  intro s m c w hc h h1 h2 h3 h4 h5 h6
  have hw : s.regWrite m (A.PACKER_CTRL c) w = (none, s.packerCtrl c w) := by interval_cases c <;> rfl
  refine congrArg _ (store_reg h (by interval_cases c <;> decide) (hw.trans (congrArg _ ?_)))
  unfold State.packerCtrl State.packerReturn
  simp only [h1, h2, h3, h5, h6, if_true, Bool.not_true, Bool.or_false, Bool.false_eq_true, if_false, Bool.false_and, beq_eq_false_iff_ne.2 h4]

theorem complete_packerCntClear : ∀ (s : State) (m c : Nat) (w : Word), c < 48 → s.mayWrite m (A.PACKER_CNT_A c) = true →
    exec (.packerCntClear m c w) s = .next ((s.setReg (A.PACKER_CNT_A c) 0).setReg (A.PACKER_CNT_B c) 0).settle := by
  intro s m c w hc h
  have hw : s.regWrite m (A.PACKER_CNT_A c) w = (none, (s.setReg (A.PACKER_CNT_A c) 0).setReg (A.PACKER_CNT_B c) 0) := by interval_cases c <;> rfl
  exact congrArg _ (store_reg h (by interval_cases c <;> decide) hw)

end Sys2Proof.Machine
end

