-- ==== Sys2Proof/Laws/Frames.lean ====
section
/-! SUPPORT. What the shared operations leave alone: registers, memory and queues across interrupts, records, counters and pages; the fields of a register under its descriptors. -/

set_option maxRecDepth 8000

namespace Sys2Proof.Machine

theorem pend_lt {n : Nat} (h : n < 256) : A.IRQ_PEND (n / 32) < 0x401B0420 ∧ 0x401B0400 ≤ A.IRQ_PEND (n / 32) := by
  unfold A.IRQ_PEND; omega

theorem reg_irq (s : State) (n a : Nat) (h : a < 0x401B0400 ∨ 0x401B0420 ≤ a) : (s.irq n).reg a = s.reg a := by
  unfold State.irq
  split
  · have := pend_lt (n := n) (by omega)
    rw [State.reg_wr, if_neg]
    show a ≠ A.IRQ_PEND (n / 32)
    omega
  · rfl

theorem reg_sat (s : State) (f : Fld) (k a : Nat) (h : a ≠ f.addr) : (s.sat f k).reg a = s.reg a := by
  unfold State.sat
  rw [State.reg_wr, if_neg h]

theorem reg_post (s : State) (r : Rec) (a : Nat) (h : a ≠ A.PBOOK_DROP_A) : (s.postRec r).reg a = s.reg a := by
  unfold State.postRec
  split
  · rfl
  · exact reg_sat _ _ _ _ h

theorem ite_reg {c : Prop} [Decidable c] {x y : State} {a : Nat} {k : Word} (h1 : x.reg a = k) (h2 : y.reg a = k) : (if c then x else y).reg a = k := by
  split
  · exact h1
  · exact h2

theorem ite_fifo {c : Prop} [Decidable c] {x y : State} {k : Nat} (h1 : x.book.inFifo.length ≤ k) (h2 : y.book.inFifo.length ≤ k) :
    (if c then x else y).book.inFifo.length ≤ k := by
  split
  · exact h1
  · exact h2

theorem fifo_post (s : State) (r : Rec) : (s.postRec r).book.inFifo.length ≤ s.book.inFifo.length + 1 := by
  unfold State.postRec
  split
  · simp
  · exact Nat.le_succ _

theorem fifo_post2 {s t : State} (r : Rec) (h : s.book.inFifo = t.book.inFifo) : (s.postRec r).book.inFifo.length ≤ t.book.inFifo.length + 1 :=
  h ▸ fifo_post s r

theorem fifo_le {s t : State} (h : s.book.inFifo = t.book.inFifo) : s.book.inFifo.length ≤ t.book.inFifo.length + 1 := by
  rw [h]; exact Nat.le_succ _

theorem reg_of_regs {x y : State} {a : Nat} (h : x.regs = y.regs) : x.reg a = y.reg a := by unfold State.reg; rw [h]

theorem reg_postLim (s : State) (key c v src : Nat) (l : List Nat) (a : Nat) (h : a ≠ A.PBOOK_DROP_A) (h2 : a ≠ A.PBOOK_DROP_B) :
    (s.postLim key c v src l).reg a = s.reg a := by
  unfold State.postLim State.post
  split
  · with_reducible refine ite_reg ?_ ?_
    · with_reducible refine Eq.trans (reg_of_regs (y := s.sat F.PBOOK_DROP_B_SUPPRESSED) rfl) (reg_sat s F.PBOOK_DROP_B_SUPPRESSED 1 a h2)
    · with_reducible exact (reg_post _ _ _ h).trans (reg_of_regs rfl)
  · with_reducible exact (reg_post _ _ _ h).trans (reg_of_regs rfl)

theorem reg_pushViol (s : State) (v : Viol) (a : Nat) (h : a < 0x401B0400 ∨ 0x401B0420 ≤ a) : (s.pushViol v).reg a = s.reg a := by
  unfold State.pushViol
  extract_lets v2
  clear_value v2
  cases s.viol.getLast? with
  | none => rfl
  | some w =>
    dsimp only
    split
    · rfl
    · split
      · rfl
      · exact reg_irq _ _ _ h

theorem book_irq (s : State) (n : Nat) : (s.irq n).book = s.book := by unfold State.irq; split <;> rfl

theorem book_pushViol (s : State) (v : Viol) : (s.pushViol v).book = s.book := by
  unfold State.pushViol
  extract_lets v2
  clear_value v2
  cases s.viol.getLast? with
  | none => rfl
  | some w =>
    dsimp only
    split
    · rfl
    · split
      · rfl
      · exact book_irq _ _

theorem fifo_postLim (s : State) (key c v src : Nat) (l : List Nat) : (s.postLim key c v src l).book.inFifo.length ≤ s.book.inFifo.length + 1 := by
  unfold State.postLim State.post
  split
  · with_reducible refine ite_fifo ?_ ?_
    · with_reducible refine fifo_le ?_
      dsimp only
      rfl
    · with_reducible exact fifo_post2 _ rfl
  · with_reducible exact fifo_post2 _ rfl

theorem latched_irq (s : State) (n : Nat) (h : n < 248) : (s.irq n).latched n = true := by
  unfold State.irq State.latched State.flag
  rw [if_pos h, State.rd_wr _ _ _ (by unfold pendFld; simp) (by unfold pendFld; exact Nat.mod_lt _ (by omega))]
  unfold pendFld
  simp

structure SameMem (s t : State) : Prop where
  mem : t.mem = s.mem
  alarms : t.alarms = s.alarms
  wing : t.wing = s.wing
  blk : t.terr.blocked = s.terr.blocked
  ports : t.ports = s.ports

theorem SameMem.rfl' {s : State} : SameMem s s := ⟨rfl, rfl, rfl, rfl, rfl⟩

theorem SameMem.tr {s t u : State} (h : SameMem s t) (k : SameMem t u) : SameMem s u := ⟨k.1.trans h.1, k.2.trans h.2, k.3.trans h.3, k.4.trans h.4, k.5.trans h.5⟩

theorem SameMem.wr {s t : State} (h : SameMem s t) (f : Fld) (v : Nat) : SameMem s (t.wr f v) := ⟨h.1, h.2, h.3, h.4, h.5⟩

theorem SameMem.setReg {s t : State} (h : SameMem s t) (a : Nat) (v : Word) : SameMem s (t.setReg a v) := ⟨h.1, h.2, h.3, h.4, h.5⟩

theorem SameMem.setCnt {s t : State} (h : SameMem s t) (a : Nat) (v : Word) : SameMem s (t.setCnt a v) := ⟨h.1, h.2, h.3, h.4, h.5⟩

theorem SameMem.satCnt {s t : State} (h : SameMem s t) (f : Fld) (n : Nat) : SameMem s (t.satCnt f n) := ⟨h.1, h.2, h.3, h.4, h.5⟩

theorem SameMem.wrapCnt {s t : State} (h : SameMem s t) (f : Fld) (n : Nat) : SameMem s (t.wrapCnt f n) := ⟨h.1, h.2, h.3, h.4, h.5⟩

theorem SameMem.ite {s t u : State} {c : Prop} [Decidable c] (h : SameMem s t) (k : SameMem s u) : SameMem s (if c then t else u) := by split <;> assumption

theorem SameMem.irq {s t : State} (h : SameMem s t) (n : Nat) : SameMem s (t.irq n) := SameMem.ite (h.wr _ _) h

theorem SameMem.irqOnce {s t : State} (h : SameMem s t) (n : Nat) : SameMem s (t.irqOnce n) := SameMem.ite h ⟨(h.irq n).1, (h.irq n).2, (h.irq n).3, (h.irq n).4, (h.irq n).5⟩

theorem SameMem.postRec {s t : State} (h : SameMem s t) (r : Rec) : SameMem s (t.postRec r) := SameMem.ite ⟨h.1, h.2, h.3, h.4, h.5⟩ (h.wr _ _)

theorem SameMem.foldl {α : Type} {s t : State} {f : State → α → State} {l : List α} (h : SameMem s t) (hf : ∀ u b, SameMem s u → SameMem s (f u b)) : SameMem s (l.foldl f t) := by
  induction l generalizing t with
  | nil => exact h
  | cons b l ih => exact ih (hf _ _ h)

theorem SameMem.observe {s t : State} (h : SameMem s t) (e a n : Nat) : SameMem s (t.observe e a n) := by
  unfold State.observe
  refine h.foldl fun u b hu => ?_
  refine SameMem.ite ?_ hu
  exact SameMem.ite ((hu.wrapCnt _ _).irq _) (hu.wrapCnt _ _)

theorem SameMem.reportUE {s t : State} (h : SameMem s t) (m a : Nat) (i : Bool) : SameMem s (t.reportUE m a i) := by
  unfold State.reportUE State.post
  exact SameMem.postRec (SameMem.irq (((((h.satCnt _ _).setReg _ _).wr _ _).wr _ _)) _) _

theorem SameMem.sat {s t : State} (h : SameMem s t) (f : Fld) (n : Nat) : SameMem s (t.sat f n) := h.wr _ _

theorem SameMem.post {s t : State} (h : SameMem s t) (c v src : Nat) (l : List Nat) : SameMem s (t.post c v src l) := h.postRec _

theorem SameMem.postLim {s t : State} (h : SameMem s t) (key c v src : Nat) (l : List Nat) : SameMem s (t.postLim key c v src l) := by
  unfold State.postLim
  split
  · have k := h.sat F.PBOOK_DROP_B_SUPPRESSED 1
    refine SameMem.ite ⟨k.1, k.2, k.3, k.4, k.5⟩ (SameMem.postRec ?_ _)
    exact ⟨h.1, h.2, h.3, h.4, h.5⟩
  · refine SameMem.post ?_ _ _ _ _
    exact ⟨h.1, h.2, h.3, h.4, h.5⟩

theorem SameMem.pushViol {s t : State} (h : SameMem s t) (v : Viol) : SameMem s (t.pushViol v) := by
  unfold State.pushViol
  extract_lets v2
  clear_value v2
  cases t.viol.getLast? with
  | none => exact ⟨h.1, h.2, h.3, h.4, h.5⟩
  | some w =>
    refine SameMem.ite ⟨h.1, h.2, h.3, h.4, h.5⟩ (SameMem.ite ⟨h.1, h.2, h.3, h.4, h.5⟩ (SameMem.irq ?_ _))
    exact ⟨h.1, h.2, h.3, h.4, h.5⟩

theorem SameMem.violate {s t : State} (h : SameMem s t) (v : Viol) : SameMem s (t.violate v) := by
  unfold State.violate
  have k : SameMem s (if v.straddle then ((t.pushViol v).irq v.source).irq 188 else (t.pushViol v).irq v.source) :=
    SameMem.ite (((h.pushViol v).irq _).irq _) ((h.pushViol v).irq _)
  exact SameMem.ite (((k.postLim _ _ _ _ _).irq _).post _ _ _ _) (k.postLim _ _ _ _ _)

theorem SameMem.colAdmit {s t : State} (h : SameMem s t) (m a n : Nat) (k : AccKind) : SameMem s (t.colAdmit m a n k).2 := by
  unfold State.colAdmit
  split
  · exact h
  · split
    · exact h.violate _
    · split
      · split
        · exact h.observe _ _ _
        · exact h.irqOnce _
      · exact h

theorem SameMem.clearSending {s t : State} (h : SameMem s t) (b l : Nat) : SameMem s (t.clearSending b l) := ⟨h.1, h.2, h.3, h.4, h.5⟩

theorem SameMem.reportBad {s t : State} (h : SameMem s t) (m a p : Nat) (ws : List Nat) : SameMem s (t.reportBad m a p ws) :=
  h.foldl fun _ _ hu => hu.reportUE _ _ _

theorem SameMem.readLine {s t : State} (h : SameMem s t) (b l : Nat) : SameMem s (t.readLine b l).2 := by
  unfold State.readLine
  have k := h.colAdmit 16 (0x10000000 + b * 0x40000 + l * 64) 64 .read
  dsimp only
  split
  · rename_i u hu
    rw [hu] at k
    exact k.clearSending _ _
  · rename_i u hu
    rw [hu] at k
    exact (k.reportBad _ _ _ _).clearSending _ _

theorem SameMem.rescue {s t : State} (h : SameMem s t) (b l : Nat) : SameMem s (t.rescue b l) :=
  have k := h.readLine b l
  ⟨k.1, k.2, k.3, k.4, k.5⟩

theorem admit_none {s u : State} {m a n : Nat} {k : AccKind} (h : s.colAdmit m a n k = (none, u)) : SameMem s u := by
  have := SameMem.rfl'.colAdmit (s := s) m a n k
  rwa [h] at this

theorem setDirty_mem (t : State) (b l : Nat) : (t.setDirty b l).mem = t.mem ∧ (t.setDirty b l).alarms = t.alarms ∧ (t.setDirty b l).wing = t.wing
    ∧ (t.setDirty b l).ports = t.ports := by
  unfold State.setDirty
  split <;> exact ⟨rfl, rfl, rfl, rfl⟩

theorem ramStore_mem (t : State) (p : Nat) (bs : List Byte) :
    (t.ramStore p bs).mem = (t.poke p bs).mem ∧ (t.ramStore p bs).alarms = t.alarms ∧ (t.ramStore p bs).wing = t.wing ∧ (t.ramStore p bs).ports = t.ports := by
  have e : (t.poke p bs).alarms = t.alarms ∧ (t.poke p bs).wing = t.wing ∧ (t.poke p bs).ports = t.ports := by rw [State.poke_eq]; exact ⟨rfl, rfl, rfl⟩
  have two : ∀ (u : State) (b l c k : Nat), ((u.setDirty b l).setDirty c k).mem = u.mem ∧ ((u.setDirty b l).setDirty c k).alarms = u.alarms
      ∧ ((u.setDirty b l).setDirty c k).wing = u.wing ∧ ((u.setDirty b l).setDirty c k).ports = u.ports := by
    intro u b l c k
    obtain ⟨a1, a2, a3, a4⟩ := setDirty_mem u b l
    obtain ⟨b1, b2, b3, b4⟩ := setDirty_mem (u.setDirty b l) c k
    exact ⟨b1.trans a1, b2.trans a2, b3.trans a3, b4.trans a4⟩
  unfold State.ramStore
  dsimp only
  split
  · split
    · refine ⟨(setDirty_mem _ _ _).1.trans rfl, (setDirty_mem _ _ _).2.1.trans e.1, (setDirty_mem _ _ _).2.2.1.trans e.2.1, (setDirty_mem _ _ _).2.2.2.trans e.2.2⟩
    · refine ⟨(two _ _ _ _ _).1.trans rfl, (two _ _ _ _ _).2.1.trans e.1, (two _ _ _ _ _).2.2.1.trans e.2.1, (two _ _ _ _ _).2.2.2.trans e.2.2⟩
  · exact ⟨rfl, e.1, e.2.1, e.2.2⟩

theorem mb_of_mem {s t : State} {b : Nat} (h : t.mem = s.mem) : t.mb b = s.mb b := by unfold State.mb; rw [h]

theorem poke_mem {s t : State} (h : t.mem = s.mem) (p : Nat) (bs : List Byte) : (t.poke p bs).mem = (s.poke p bs).mem := by
  induction bs generalizing s t p with
  | nil => exact h
  | cons b l ih => exact ih (by unfold State.setMb; rw [h]) _

theorem unitWrite_mem {s u : State} {m a : Nat} {bs : List Byte} (h : s.unitWrite m a bs = (none, u)) :
    (u.mem = (s.poke (physAddr m a) bs).mem ∨ (u.mem = s.mem ∧ u.terr.blocked ≠ s.terr.blocked)) ∧ u.alarms = s.alarms ∧ u.wing = s.wing ∧ u.ports = s.ports := by
  unfold State.unitWrite at h
  split at h
  · cases h
  · rename_i s1 h1
    have k := admit_none h1
    split at h
    · unfold State.ramWrite at h
      split at h
      · cases h
      · split at h
        · cases h
          obtain ⟨e1, e2, e3, e4⟩ := ramStore_mem s1 (physAddr m a) bs
          exact ⟨Or.inl (e1.trans (poke_mem k.1 _ _)), e2.trans k.2, e3.trans k.3, e4.trans k.5⟩
        · dsimp only at h
          split at h
          · cases h
            have r := (SameMem.rfl' (s := { s1.satCnt F.TERRACE_DIRTY_CNT_RESCUE_WAIT with terr.blocked := s1.terr.blocked ++ [(m, physAddr m a, bs)] })).irqOnce 205
            refine ⟨Or.inr ⟨r.1.trans k.1, ?_⟩, r.2.trans k.2, r.3.trans k.3, r.5.trans k.5⟩
            rw [r.4, ← k.4]
            exact fun h => absurd (congrArg List.length h) (by simp)
          · split at h
            · cases h
              refine ⟨Or.inr ⟨k.1, ?_⟩, k.2, k.3, k.5⟩
              rw [← k.4]
              exact fun h => absurd (congrArg List.length h) (by simp)
            · cases h
              have r : SameMem s ((s1.unreadLines (physAddr m a) bs.length).foldl (fun s l => s.rescue l.1 l.2) s1) := k.foldl fun u b hu => hu.rescue _ _
              obtain ⟨e1, e2, e3, e4⟩ := ramStore_mem ((s1.unreadLines (physAddr m a) bs.length).foldl (fun s l => s.rescue l.1 l.2) s1) (physAddr m a) bs
              exact ⟨Or.inl (e1.trans (poke_mem r.1 _ _)), e2.trans r.2, e3.trans r.3, e4.trans r.5⟩
    · cases h

theorem notify_q (s : State) (q r : Nat) : (s.notifyQueue q).mem = s.mem ∧ (s.notifyQueue q).alarms = s.alarms ∧
    ((s.notifyQueue q).queue r).tail = (s.queue r).tail ∧ ((s.notifyQueue q).queue r).head = (s.queue r).head ∧ (r ≠ q → (s.notifyQueue q).queue r = s.queue r) := by
  have hirq : ∀ (t : State) (n : Nat), (t.irq n).mem = t.mem ∧ (t.irq n).alarms = t.alarms ∧ (t.irq n).wing = t.wing := fun t n => by
    unfold State.irq; split <;> exact ⟨rfl, rfl, rfl⟩
  have hq : ∀ (t v : State), t.wing.queues = v.wing.queues → ∀ r, t.queue r = v.queue r := by
    intro t v h r
    unfold State.queue; rw [h]
  have hset : ∀ (t : State) (x : QRec) (r : Nat), (t.setQueue q x).queue r = if r = q then x else t.queue r := by
    intro t x r
    unfold State.setQueue State.queue
    rw [look_put]
  unfold State.notifyQueue
  dsimp only
  split
  · split
    · obtain ⟨h1, h2, h3⟩ := hirq (s.setQueue q { s.queue q with armed := false }) (32 + (s.queue q).line)
      have h4 := fun r => hq _ (s.setQueue q { s.queue q with armed := false }) (congrArg Wing.queues h3) r
      refine ⟨h1, h2, ?_, ?_, ?_⟩
      all_goals rw [h4, hset]
      · split <;> simp_all
      · split <;> simp_all
      · intro h; rw [if_neg h]
    split
    · obtain ⟨h1, h2, h3⟩ := hirq ({ s.setQueue q { s.queue q with armed := false } with
        wing.notify := put (fun _ => []) (s.setQueue q { s.queue q with armed := false }).wing.notify (s.queue q).line ((s.setQueue q { s.queue q with armed := false }).notify (s.queue q).line ++ [q]) }) (32 + (s.queue q).line)
      have h4 := fun r => hq _ (s.setQueue q { s.queue q with armed := false }) ((congrArg Wing.queues h3).trans rfl) r
      refine ⟨h1, h2, ?_, ?_, ?_⟩
      all_goals rw [h4, hset]
      · split <;> simp_all
      · split <;> simp_all
      · intro h; rw [if_neg h]
    · obtain ⟨h1, h2, h3⟩ := hirq ({ s.setQueue q { s.queue q with armed := false } with
        wing.ovf := put (fun _ => false) (s.setQueue q { s.queue q with armed := false }).wing.ovf (s.queue q).line true }) (32 + (s.queue q).line)
      have h4 := fun r => hq _ (s.setQueue q { s.queue q with armed := false }) ((congrArg Wing.queues h3).trans rfl) r
      refine ⟨h1, h2, ?_, ?_, ?_⟩
      all_goals rw [h4, hset]
      · split <;> simp_all
      · split <;> simp_all
      · intro h; rw [if_neg h]
  · exact ⟨rfl, rfl, rfl, rfl, fun _ => rfl⟩

theorem ddTable_put (s : State) (p q : Nat) (l : List DdEntry) : State.ddTable { s with ports.dd := put (fun _ => []) s.ports.dd p l } q = if q = p then l else s.ddTable q := by
  unfold State.ddTable
  rw [look_put]

theorem ticket_put (s : State) (t j : Nat) (k : Option Ticket) : (s.setTicket t k).ticket j = if j = t then k else s.ticket j := by
  unfold State.setTicket State.ticket find?
  rw [look_put]

theorem cue_post (s : State) (r : Rec) : (s.postRec r).cue = s.cue := by
  unfold State.postRec
  split
  · rfl
  · exact State.wr_cue _ _ _

theorem ite_cue {c : Prop} [Decidable c] {x y : State} {k : Cue} (h1 : x.cue = k) (h2 : y.cue = k) : (if c then x else y).cue = k := by
  split
  · exact h1
  · exact h2

theorem cue_post2 {s t : State} (r : Rec) (h : s.cue = t.cue) : (s.postRec r).cue = t.cue := (cue_post s r).trans h

theorem cue_of {s t : State} (f : Fld) (h : t.cue = (s.sat f).cue) : t.cue = s.cue := h.trans (State.wr_cue _ _ _)

theorem cue_postLim (s : State) (key c v src : Nat) (l : List Nat) : (s.postLim key c v src l).cue = s.cue := by
  unfold State.postLim State.post
  split
  · with_reducible refine ite_cue ?_ ?_
    · with_reducible refine cue_of F.PBOOK_DROP_B_SUPPRESSED ?_
      dsimp only
    · with_reducible exact cue_post2 _ rfl
  · with_reducible exact cue_post2 _ rfl

def disj (f g : FDesc) : Bool := decide (f = g) || decide (f.hi < g.lo) || decide (g.hi < f.lo)

def okFlds (l : List FDesc) : Bool := (l.all fun f => decide (f.lo ≤ f.hi) && decide (f.hi < 32)) && decide (l.Pairwise fun f g => f.hi < g.lo ∨ g.hi < f.lo)

def okAll : Bool := ((List.range 0x20).flatMap fun k => descBlock (0x40000000 + k * 0x10000)).all (fun d => okFlds d.flds) && descGATE.all (fun d => okFlds d.flds) && descCommit.all (fun d => okFlds d.flds)

theorem okAll_t : okAll = true := by decide +kernel

theorem getBits_setBits_self (w : Word) (hi lo v : Nat) (hl : lo ≤ hi) (hh : hi < 32) : getBits (setBits w hi lo v) hi lo = v % 2 ^ (hi + 1 - lo) := by
  apply Nat.eq_of_testBit_eq
  intro i
  rw [getBits_testBit, setBits_testBit _ _ _ _ _ (by omega) hh, Nat.testBit_mod_two_pow]
  by_cases h : i < hi + 1 - lo
  · rw [if_pos (by omega)]; simp [h, show lo + i - lo = i by omega]
  · simp [h]

theorem getBits_setBits_disj (w : Word) (hi lo v g1 g0 : Nat) (hl : lo ≤ hi) (hh : hi < 32) (hd : hi < g0 ∨ g1 < lo) : getBits (setBits w hi lo v) g1 g0 = getBits w g1 g0 := by
  apply Nat.eq_of_testBit_eq
  intro i
  rw [getBits_testBit, getBits_testBit, setBits_testBit _ _ _ _ _ (by omega) hh]
  by_cases h : i < g1 + 1 - g0
  · rw [if_neg (by omega)]
  · simp [h]

theorem write_other (f g : FDesc) (c : Bool) (w o : Word) (h : f.lo ≤ f.hi) (h2 : f.hi < 32) (hd : f.hi < g.lo ∨ g.hi < f.lo) :
    getBits (f.write c w o) g.hi g.lo = getBits o g.hi g.lo := by
  unfold FDesc.write
  split
  · rfl
  · split
    · rfl
    · split
      · exact getBits_setBits_disj _ _ _ _ _ _ h h2 hd
      · rfl
    · split
      · exact getBits_setBits_disj _ _ _ _ _ _ h h2 hd
      · rfl
    · exact getBits_setBits_disj _ _ _ _ _ _ h h2 hd

theorem write_cong (f : FDesc) (c : Bool) (w o o' : Word) (h : f.lo ≤ f.hi) (h2 : f.hi < 32) (he : getBits o f.hi f.lo = getBits o' f.hi f.lo) :
    getBits (f.write c w o) f.hi f.lo = getBits (f.write c w o') f.hi f.lo := by
  have hw : getBits (o &&& ~~~w) f.hi f.lo = getBits (o' &&& ~~~w) f.hi f.lo := by
    apply Nat.eq_of_testBit_eq
    intro i
    have := congrArg (fun n => Nat.testBit n i) he
    simp only [getBits_testBit] at this ⊢
    rw [BitVec.toNat_and, BitVec.toNat_and, Nat.testBit_and, Nat.testBit_and]
    cases hx : decide (i < f.hi + 1 - f.lo) <;> simp_all
  unfold FDesc.write
  split
  · exact he
  · split
    · exact he
    · split
      · rw [getBits_setBits_self _ _ _ _ h h2, getBits_setBits_self _ _ _ _ h h2]
      · exact he
    · split
      · rw [getBits_setBits_self _ _ _ _ h h2, getBits_setBits_self _ _ _ _ h h2]
      · exact he
    · rw [getBits_setBits_self _ _ _ _ h h2, getBits_setBits_self _ _ _ _ h h2, hw]

theorem fold_field (c : Bool) (w : Word) (l : List FDesc) (hp : l.Pairwise fun f g => f.hi < g.lo ∨ g.hi < f.lo) (hb : ∀ f ∈ l, f.lo ≤ f.hi ∧ f.hi < 32) (f : FDesc) (hf : f ∈ l) (o : Word) :
    getBits (l.foldl (fun o f => f.write c w o) o) f.hi f.lo = getBits (f.write c w o) f.hi f.lo := by
  have other : ∀ (l : List FDesc), (∀ g ∈ l, (g.lo ≤ g.hi ∧ g.hi < 32) ∧ (g.hi < f.lo ∨ f.hi < g.lo)) → ∀ o, getBits (l.foldl (fun o f => f.write c w o) o) f.hi f.lo = getBits o f.hi f.lo := by
    intro l
    induction l with
    | nil => intro _ o; rfl
    | cons g t ih =>
      intro h o
      rw [List.foldl_cons, ih (fun x hx => h x (List.mem_cons_of_mem _ hx))]
      obtain ⟨⟨a, b⟩, d⟩ := h g List.mem_cons_self
      exact write_other g f c w o a b d
  induction l generalizing o with
  | nil => cases hf
  | cons g t ih =>
    rw [List.foldl_cons]
    rw [List.pairwise_cons] at hp
    rcases List.mem_cons.1 hf with h | h
    · subst h
      exact other t (fun x hx => ⟨hb x (List.mem_cons_of_mem _ hx), (hp.1 x hx).symm⟩) _
    · rw [ih hp.2 (fun x hx => hb x (List.mem_cons_of_mem _ hx)) h]
      obtain ⟨a, b⟩ := hb g List.mem_cons_self
      obtain ⟨a', b'⟩ := hb f hf
      exact write_cong f c w _ _ a' b' (write_other g f c w o a b (hp.1 f h))

theorem desc_ok (a : Nat) (d : RDesc) (h : descOf a = some d) : okFlds d.flds = true := by
  have hb : (descBlock a).all (fun d => okFlds d.flds) = true := by unfold descBlock; split <;> decide +kernel
  have hc : descCommit.all (fun d => okFlds d.flds) = true := by decide +kernel
  unfold descOf at h
  split at h
  · cases h
    exact List.all_eq_true.1 hb _ (List.mem_of_find?_eq_some ‹_›)
  · split at h
    · exact List.all_eq_true.1 hc _ (List.mem_of_find?_eq_some h)
    · cases h

theorem okFlds_iff (l : List FDesc) (h : okFlds l = true) : (l.Pairwise fun f g => f.hi < g.lo ∨ g.hi < f.lo) ∧ ∀ f ∈ l, f.lo ≤ f.hi ∧ f.hi < 32 := by
  unfold okFlds at h
  rw [Bool.and_eq_true, List.all_eq_true] at h
  refine ⟨by simpa using h.2, fun f hf => by simpa using h.1 f hf⟩

theorem getBits_self_mod (w : Word) (hi lo : Nat) : getBits w hi lo % 2 ^ (hi + 1 - lo) = getBits w hi lo := by
  unfold getBits; exact Nat.mod_mod _ _

theorem mb_eq {s t : State} (h : t.mem = s.mem) (a : Nat) : t.mb a = s.mb a := by unfold State.mb; rw [h]

theorem mem_irq (s : State) (n : Nat) : (s.irq n).mem = s.mem := by unfold State.irq; split <;> rfl

theorem iteState_mem {c : Prop} [Decidable c] {x y : State} {m : List Host.Cell} (h1 : x.mem = m) (h2 : y.mem = m) : (if c then x else y).mem = m := by
  split
  · exact h1
  · exact h2

theorem mem_brkResult (s : State) (p : Option Nat) (b : Bool) (st : Nat) : (s.brkResult p b st).mem = s.mem := by
  unfold State.brkResult
  split
  · rw [State.wr_mem, State.wr_mem]
  · rfl

theorem mem_brkEnd (s : State) (c : BrkCmd) (st : Nat) : (s.brkEnd c st).mem = s.mem := by
  unfold State.brkEnd State.brkRemove
  dsimp only
  rw [mem_irq, State.disarm_mem, mem_brkResult, State.wr_mem, State.wr_mem, State.wr_mem, State.wr_mem]

theorem mem_drop (s : State) (a n : Nat) : (s.icacheDrop a n).mem = s.mem := by
  unfold State.icacheDrop
  have : ∀ (l : List Nat) (u : State), (l.foldl (fun (s : State) k => s.setCore k { s.core k with icache := (s.core k).icache.filter fun l => !(decide (a ≤ l) && decide (l < a + n)) }) u).mem = u.mem := by
    intro l
    induction l with
    | nil => intro u; rfl
    | cons x l ih => intro u; rw [List.foldl_cons, ih]; rfl
  exact this _ _

theorem mem_book (s : State) (k : Book) : ({ s with book := k } : State).mem = s.mem := rfl

theorem mem_bookShow (s : State) : s.bookShow.mem = s.mem := by
  unfold State.bookShow
  dsimp only
  refine (iteState_mem (m := s.mem) ?_ ?_)
  · rw [mem_irq, State.setReg_mem, State.wr_mem, State.wr_mem]
  · rw [State.setReg_mem, State.wr_mem, State.wr_mem]

theorem mem_archShow (s : State) : s.archShow.mem = s.mem := by
  unfold State.archShow
  dsimp only
  split <;> rw [State.setReg_mem]

theorem mem_post (s : State) (r : Rec) : (s.postRec r).mem = s.mem := by
  unfold State.postRec
  refine iteState_mem rfl ?_
  unfold State.sat
  rw [State.wr_mem]

theorem mem_archFail (s : State) (st a : Nat) : (s.archFail st a).mem = s.mem := by
  unfold State.archFail State.post
  rw [mem_irq, mem_post, State.wr_mem]

theorem mem_archAdvance (s : State) : s.archAdvance.mem = s.mem := by
  unfold State.archAdvance
  refine iteState_mem ?_ ?_
  · rw [State.wr_mem]
  · dsimp only
    rw [State.wr_mem, State.wr_mem]

theorem mem_archDone (s : State) (st : Nat) : (s.archDone st).mem = s.mem := by
  unfold State.archDone
  dsimp only
  refine iteState_mem (iteState_mem ?_ ?_) (iteState_mem ?_ ?_)
  · rw [mem_archShow, mem_bookShow, mem_archAdvance]
    unfold State.archMark
    dsimp only
    rw [State.wr_mem]
  · rw [mem_archAdvance, mem_archFail]
    dsimp only
    rw [State.wr_mem]
  · rw [mem_archShow]
    dsimp only
    rw [State.wr_mem]
  · rw [mem_archFail]
    dsimp only
    rw [State.wr_mem]

theorem mb_scramble (s : State) (p n a : Nat) (h : ¬(p ≤ a ∧ a < p + n)) : (s.scramble p n).mb a = s.mb a := by
  show (s.poke p ((List.range n).map fun i => BitVec.ofNat 8 (Config.freeValue (s.fresh + i)))).mb a = _
  rw [State.mb_poke, dif_neg]
  simpa using h

theorem mb_tearPage (s : State) (p a : Nat) (h : ¬(p ≤ a ∧ a < p + pageLen (bedBank p))) : (s.tearPage p).mb a = s.mb a := by
  unfold State.tearPage
  exact mb_scramble s p _ a h

theorem padTo_length (n : Nat) (bs : List Byte) : (padTo n bs).length = n := by
  unfold padTo; simp; omega

theorem mb_writePage (s : State) (p a : Nat) (d : List Byte) (h : ¬(p ≤ a ∧ a < p + pageLen (bedBank p))) : (s.writePage p d).mb a = s.mb a := by
  show (s.poke p (padTo (pageLen (bedBank p)) d)).mb a = _
  rw [State.mb_poke, dif_neg]
  rw [padTo_length]; exact h

theorem mem_countErase (s : State) (k b : Nat) : (s.countErase k b).mem = s.mem := by
  unfold State.countErase
  dsimp only
  refine iteState_mem ?_ rfl
  rw [mem_irq]

theorem mb_tearBlock (s : State) (p a : Nat) (h : ∀ i, i < 32 → ¬inPage (p + i * pageLen (bedBank p)) a) : (s.tearBlock p).mb a = s.mb a := by
  unfold State.tearBlock
  have : ∀ (m : Nat), m ≤ 32 → ∀ u : State, ((List.range m).foldl (fun s i => s.tearPage (p + i * pageLen (bedBank p))) u).mb a = u.mb a := by
    intro m
    induction m with
    | zero => intro _ u; rfl
    | succ m ih =>
      intro hm u
      rw [List.range_succ, List.foldl_append, List.foldl_cons, List.foldl_nil, mb_tearPage _ _ _ (h m (by omega))]
      exact ih (by omega) u
  exact this 32 (le_refl _) s

theorem mem_inspect (l : List Nat) (f : Nat → Fld) (g : Nat → Nat) (u : State) : (l.foldl (fun s j => s.wr (f j) (g j)) u).mem = u.mem := by
  induction l generalizing u with
  | nil => rfl
  | cons x l ih => rw [List.foldl_cons, ih, State.wr_mem]

theorem mem_inspect2 (l : List Nat) (f : Nat → Fld) (g : State → Nat → Nat) (u : State) : (l.foldl (fun s j => s.wr (f j) (g s j)) u).mem = u.mem := by
  induction l generalizing u with
  | nil => rfl
  | cons x l ih => rw [List.foldl_cons, ih, State.wr_mem]

end Sys2Proof.Machine
end

