-- ==== Sys2Proof/Laws/InvOps.lean ====
section
/-! SUPPORT. Every operation of Machine/Ops.lean keeps the invariant of the device. -/

set_option maxRecDepth 4000
set_option linter.unusedTactic false
set_option linter.unreachableTactic false

namespace Sys2Proof.Machine

theorem keep_sat {s : State} {f : Fld} {n : Nat} (hInv : s.Inv) : (State.sat s f n).Inv := by
  unfold State.sat
  with_reducible repeat' (first
    | assumption | apply keep_wr)

theorem keep_wrap {s : State} {f : Fld} {n : Nat} (hInv : s.Inv) : (State.wrap s f n).Inv := by
  unfold State.wrap
  with_reducible repeat' (first
    | assumption | apply keep_wr)

theorem keep_satCnt {s : State} {f : Fld} {n : Nat} (hInv : s.Inv) : (State.satCnt s f n).Inv := by
  unfold State.satCnt
  with_reducible repeat' (first
    | assumption | apply keep_setCnt)

theorem keep_wrapCnt {s : State} {f : Fld} {n : Nat} (hInv : s.Inv) : (State.wrapCnt s f n).Inv := by
  unfold State.wrapCnt
  with_reducible repeat' (first
    | assumption | apply keep_setCnt)

theorem keep_reachST {s : State} {t : Nat} (hInv : s.Inv) : (State.reachST s t).Inv := by
  unfold State.reachST
  with_reducible repeat' (first
    | assumption | (refine inv_ite (fun _ => ?_) (fun _ => ?_)) | fail_if_no_progress (refine inv_mk ?_ rfl rfl rfl rfl rfl rfl rfl rfl rfl))

theorem keep_arm {s : State} {t : Timer} {d : Nat} (hInv : s.Inv) : (State.arm s t d).Inv := by
  unfold State.arm
  with_reducible repeat' (first
    | assumption | fail_if_no_progress (refine inv_mk ?_ rfl rfl rfl rfl rfl rfl rfl rfl rfl))

theorem keep_disarm {s : State} {t : Timer} (hInv : s.Inv) : (State.disarm s t).Inv := by
  unfold State.disarm
  with_reducible repeat' (first
    | assumption | fail_if_no_progress (refine inv_mk ?_ rfl rfl rfl rfl rfl rfl rfl rfl rfl))

theorem keep_irq {s : State} {src : Nat} (hInv : s.Inv) : (State.irq s src).Inv := by
  unfold State.irq
  with_reducible repeat' (first
    | assumption | apply keep_wr | (refine inv_ite (fun _ => ?_) (fun _ => ?_)))

theorem keep_irqOnce {s : State} {src : Nat} (hInv : s.Inv) : (State.irqOnce s src).Inv := by
  unfold State.irqOnce
  with_reducible repeat' (first
    | assumption | apply keep_irq | (refine inv_ite (fun _ => ?_) (fun _ => ?_)) | fail_if_no_progress (refine inv_mk ?_ rfl rfl rfl rfl rfl rfl rfl rfl rfl))

theorem keep_fireCommit {s : State} {base : Nat} (hInv : s.Inv) : (State.fireCommit s base).Inv := by
  unfold State.fireCommit
  with_reducible repeat' (first
    | assumption | apply keep_irq | (split <;> try (rename_i e; replace e := inv_of_eq e ?_)))

theorem keep_ownCommit {s : State} {base : Nat} (hInv : s.Inv) : (State.ownCommit s base).Inv := by
  unfold State.ownCommit
  with_reducible repeat' (first
    | assumption | apply keep_wrap | apply keep_fireCommit)

theorem keep_next {s : State} (hInv : s.Inv) : (State.next s).Inv := by
  unfold State.next
  with_reducible repeat' (first
    | assumption | fail_if_no_progress (refine inv_mk ?_ rfl rfl rfl rfl rfl rfl rfl rfl rfl))

theorem keep_post {s : State} {code sev src : Nat} {words : List Nat} (hInv : s.Inv) : (State.post s code sev src words).Inv := by
  unfold State.post
  with_reducible repeat' (first
    | assumption | apply keep_postRec)

theorem keep_postU {s : State} {code sev : Nat} {words : List Nat} (hInv : s.Inv) : (State.postU s code sev words).Inv := by
  unfold State.postU
  with_reducible repeat' (first
    | assumption | apply keep_post)

theorem keep_postLim {s : State} {key code sev src : Nat} {words : List Nat} (hInv : s.Inv) : (State.postLim s key code sev src words).Inv := by
  unfold State.postLim
  with_reducible repeat' (first
    | assumption | apply keep_sat | apply keep_postRec | apply keep_post | (refine inv_ite (fun _ => ?_) (fun _ => ?_))
    | (split <;> try (rename_i e; replace e := inv_of_eq e ?_)) | fail_if_no_progress (refine inv_mk ?_ rfl rfl rfl rfl rfl rfl rfl rfl rfl))

theorem keep_postLimU {s : State} {key code sev : Nat} {words : List Nat} (hInv : s.Inv) : (State.postLimU s key code sev words).Inv := by
  unfold State.postLimU
  with_reducible repeat' (first
    | assumption | apply keep_postLim)

theorem keep_observe {s : State} {evt arg n : Nat} (hInv : s.Inv) : (State.observe s evt arg n).Inv := by
  unfold State.observe
  with_reducible repeat' (first
    | assumption | (extract_lets +onlyGivenNames x; have hx : State.Inv x := ?_; (on_goal 1 => clear_value x); (on_goal 2 => subst x))
    | (extract_lets +onlyGivenNames x; first | (have _ : Book := x; subst x) | (have _ : Terr := x; subst x) | (have _ : Ens := x; subst x) | clear_value x)
    | apply keep_wrapCnt | apply keep_irq | (refine inv_foldl ?_ (fun _ _ _ => ?_)) | (refine inv_ite (fun _ => ?_) (fun _ => ?_)))

end Sys2Proof.Machine
end

