-- ==== Sys2Proof/Laws/InvCol.lean ====
section
/-! SUPPORT. Every operation of Machine/Col.lean keeps the invariant of the device. -/

set_option maxRecDepth 4000
set_option linter.unusedTactic false
set_option linter.unreachableTactic false

namespace Sys2Proof.Machine

theorem keep_pushViol {s : State} {v : Viol} (h : s.Inv) : (State.pushViol s v).Inv := by
  unfold State.pushViol
  extract_lets v'
  split
  · rename_i w hw
    have hne : s.viol ≠ [] := by intro e; simp [e] at hw
    split
    · refine And.intro h.1 ⟨?_, h.2.2⟩
      have := List.length_pos_iff.2 hne
      have := h.2.1
      simp only [List.length_append, List.length_dropLast, List.length_singleton]; omega
    · split
      · refine And.intro h.1 ⟨?_, h.2.2⟩
        simp only [List.length_append, List.length_singleton]; omega
      · exact keep_irq h
  · exact And.intro h.1 ⟨by simp, h.2.2⟩

theorem keep_violate {s : State} {v : Viol} (hInv : s.Inv) : (State.violate s v).Inv := by
  unfold State.violate
  with_reducible repeat' (first
    | assumption | (extract_lets +onlyGivenNames x; have hx : State.Inv x := ?_; (on_goal 1 => clear_value x); (on_goal 2 => subst x)) | apply keep_pushViol | apply keep_irq
    | apply keep_postLim | apply keep_post | (refine inv_ite (fun _ => ?_) (fun _ => ?_)))

theorem keep_setDirty {s : State} {bank line : Nat} (hInv : s.Inv) : (State.setDirty s bank line).Inv := by
  unfold State.setDirty
  with_reducible repeat' (first
    | assumption | (refine inv_ite (fun _ => ?_) (fun _ => ?_)) | fail_if_no_progress (refine inv_mk ?_ rfl rfl rfl rfl rfl rfl rfl rfl rfl))

theorem keep_clearSending {s : State} {bank line : Nat} (hInv : s.Inv) : (State.clearSending s bank line).Inv := by
  unfold State.clearSending
  with_reducible repeat' (first
    | assumption | fail_if_no_progress (refine inv_mk ?_ rfl rfl rfl rfl rfl rfl rfl rfl rfl))

theorem keep_colAdmit {s : State} {m a len : Nat} {k : AccKind} (hInv : s.Inv) : PInv (State.colAdmit s m a len k) := by
  unfold State.colAdmit
  with_reducible repeat' (first
    | assumption | apply keep_violate | apply keep_observe | apply keep_irqOnce | (refine inv_ite2 (fun _ => ?_) (fun _ => ?_))
    | (split <;> try (rename_i e; replace e := inv_of_eq e ?_)) | fail_if_no_progress (refine inv_pair ?_))

end Sys2Proof.Machine
end

