-- ==== Sys2Proof/Laws/InvBedRead.lean ====
section
/-! SUPPORT. Every operation of Machine/BedRead.lean keeps the invariant of the device. -/

set_option maxRecDepth 4000
set_option linter.unusedTactic false
set_option linter.unreachableTactic false

namespace Sys2Proof.Machine

theorem keep_bedMeet {s : State} {a : Nat} (hInv : s.Inv) : PInv (State.bedMeet s a) := by
  unfold State.bedMeet
  with_reducible repeat' (first
    | assumption | (extract_lets +onlyGivenNames x; have hx : State.Inv x := ?_; (on_goal 1 => clear_value x); (on_goal 2 => subst x))
    | (extract_lets +onlyGivenNames x; first | (have _ : Book := x; subst x) | (have _ : Terr := x; subst x) | (have _ : Ens := x; subst x) | clear_value x) | apply keep_wr
    | apply keep_arm | apply keep_irq | (refine inv_ite2 (fun _ => ?_) (fun _ => ?_)) | (split <;> try (rename_i e; replace e := inv_of_eq e ?_))
    | fail_if_no_progress (refine inv_pair ?_))

theorem keep_bedSoft {s : State} {a n : Nat} (hInv : s.Inv) : (State.bedSoft s a n).Inv := by
  unfold State.bedSoft
  with_reducible repeat' (first
    | assumption | apply keep_sat | (refine inv_foldl ?_ (fun _ _ _ => ?_)))

theorem keep_bedRead {s : State} {a n : Nat} (hInv : s.Inv) : PInv (State.bedRead s a n) := by
  unfold State.bedRead
  with_reducible repeat' (first
    | assumption | apply keep_bedMeet | apply keep_sat | apply keep_irq | apply keep_post | apply keep_bedSoft | (refine inv_foldl ?_ (fun _ _ _ => ?_))
    | (refine inv_ite2 (fun _ => ?_) (fun _ => ?_)) | (split <;> try (rename_i e; replace e := inv_of_eq e ?_)) | fail_if_no_progress (refine inv_pair ?_))

end Sys2Proof.Machine
end

