-- ==== Sys2Proof/Laws/InvWindow.lean ====
section
/-! SUPPORT. Every operation of Machine/Window.lean keeps the invariant of the device. -/

set_option maxRecDepth 4000
set_option linter.unusedTactic false
set_option linter.unreachableTactic false

namespace Sys2Proof.Machine

theorem keep_setQueue {s : State} {q : Nat} {r : QRec} (hInv : s.Inv) : (State.setQueue s q r).Inv := by
  unfold State.setQueue
  with_reducible repeat' (first
    | assumption | fail_if_no_progress (refine inv_mk ?_ rfl rfl rfl rfl rfl rfl rfl rfl rfl))

theorem keep_refuseProducer {s : State} {m q : Nat} (hInv : s.Inv) : (State.refuseProducer s m q).Inv := by
  unfold State.refuseProducer
  with_reducible repeat' (first
    | assumption | apply keep_sat | apply keep_postLim)

theorem keep_refuseConsumer {s : State} {m q : Nat} (hInv : s.Inv) : (State.refuseConsumer s m q).Inv := by
  unfold State.refuseConsumer
  with_reducible repeat' (first
    | assumption | apply keep_sat | apply keep_postLim)

theorem keep_dequeueLoad {s : State} {m q : Nat} (hInv : s.Inv) : PInv (State.dequeueLoad s m q) := by
  unfold State.dequeueLoad
  with_reducible repeat' (first
    | assumption | (extract_lets +onlyGivenNames x; first | (have _ : Book := x; subst x) | (have _ : Terr := x; subst x) | (have _ : Ens := x; subst x) | clear_value x)
    | apply keep_refuseConsumer | (refine inv_ite2 (fun _ => ?_) (fun _ => ?_)) | fail_if_no_progress (refine inv_pair ?_))

theorem keep_setChan {s : State} {c : Nat} {x : ChState} (hInv : s.Inv) : (State.setChan s c x).Inv := by
  unfold State.setChan
  with_reducible repeat' (first
    | assumption | fail_if_no_progress (refine inv_mk ?_ rfl rfl rfl rfl rfl rfl rfl rfl rfl))

end Sys2Proof.Machine
end

