-- ==== Sys2Proof/Laws/InvMem.lean ====
section
/-! SUPPORT. Every operation of Machine/Mem.lean keeps the invariant of the device. -/

set_option maxRecDepth 4000
set_option linter.unusedTactic false
set_option linter.unreachableTactic false

namespace Sys2Proof.Machine

theorem keep_reportUE {s : State} {m a : Nat} {internal : Bool} (hInv : s.Inv) : (State.reportUE s m a internal).Inv := by
  unfold State.reportUE
  with_reducible repeat' (first
    | assumption | (extract_lets +onlyGivenNames x; have hx : State.Inv x := ?_; (on_goal 1 => clear_value x); (on_goal 2 => subst x)) | apply keep_satCnt | apply keep_setReg
    | apply keep_wr | apply keep_irq | apply keep_post)

theorem keep_reportCE {s : State} {w : Nat} (hInv : s.Inv) : (State.reportCE s w).Inv := by
  unfold State.reportCE
  with_reducible repeat' (first
    | assumption | (extract_lets +onlyGivenNames x; have hx : State.Inv x := ?_; (on_goal 1 => clear_value x); (on_goal 2 => subst x))
    | (extract_lets +onlyGivenNames x; first | (have _ : Book := x; subst x) | (have _ : Terr := x; subst x) | (have _ : Ens := x; subst x) | clear_value x)
    | apply keep_satCnt | apply keep_irqOnce | fail_if_no_progress (refine inv_mk ?_ rfl rfl rfl rfl rfl rfl rfl rfl rfl))

theorem keep_reportBad {s : State} {m a p : Nat} {ws : List Nat} (hInv : s.Inv) : (State.reportBad s m a p ws).Inv := by
  unfold State.reportBad
  with_reducible repeat' (first
    | assumption | apply keep_reportUE | (refine inv_foldl ?_ (fun _ _ _ => ?_)))

theorem keep_ramRead {s : State} {m a p len : Nat} (hInv : s.Inv) : PInv (State.ramRead s m a p len) := by
  unfold State.ramRead
  with_reducible repeat' (first
    | assumption | apply keep_reportBad | (refine inv_ite2 (fun _ => ?_) (fun _ => ?_)) | fail_if_no_progress (refine inv_pair ?_))

theorem keep_ramStore {s : State} {p : Nat} {bs : List Byte} (hInv : s.Inv) : (State.ramStore s p bs).Inv := by
  unfold State.ramStore
  with_reducible repeat' (first
    | assumption | (extract_lets +onlyGivenNames x; have hx : State.Inv x := ?_; (on_goal 1 => clear_value x); (on_goal 2 => subst x))
    | (extract_lets +onlyGivenNames x; first | (have _ : Book := x; subst x) | (have _ : Terr := x; subst x) | (have _ : Ens := x; subst x) | clear_value x) | apply keep_poke
    | apply keep_setDirty | (refine inv_ite (fun _ => ?_) (fun _ => ?_)) | fail_if_no_progress (refine inv_mk ?_ rfl rfl rfl rfl rfl rfl rfl rfl rfl))

theorem keep_readLine {s : State} {bank line : Nat} (hInv : s.Inv) : PInv (State.readLine s bank line) := by
  unfold State.readLine
  with_reducible repeat' (first
    | assumption | (extract_lets +onlyGivenNames x; first | (have _ : Book := x; subst x) | (have _ : Terr := x; subst x) | (have _ : Ens := x; subst x) | clear_value x)
    | apply keep_colAdmit | apply keep_clearSending | apply keep_reportBad | (split <;> try (rename_i e; replace e := inv_of_eq e ?_))
    | fail_if_no_progress (refine inv_pair ?_))

theorem irq_terr (s : State) (n : Nat) : (s.irq n).terr = s.terr := by
  unfold State.irq
  split <;> rfl

theorem irqOnce_terr (s : State) (n : Nat) : (s.irqOnce n).terr = s.terr := by
  unfold State.irqOnce
  split
  · rfl
  · exact irq_terr s n

theorem setBook_terr (s : State) (b : Book) : ({ s with book := b } : State).terr = s.terr := rfl

theorem postRec_terr (s : State) (r : Rec) : (s.postRec r).terr = s.terr := by
  unfold State.postRec
  split
  · exact setBook_terr s _
  · exact State.sat_terr s _ _

theorem post_terr (s : State) (code sev src : Nat) (words : List Nat) : (s.post code sev src words).terr = s.terr := postRec_terr _ _

theorem postLim_terr (s : State) (key code sev src : Nat) (words : List Nat) : (s.postLim key code sev src words).terr = s.terr := by
  unfold State.postLim
  split
  · rename_i last folded _
    by_cases h : s.now < last + ticksPerSecond
    · rw [if_pos h]
      exact (setBook_terr _ _).trans (State.sat_terr s _ _)
    · rw [if_neg h]
      exact (postRec_terr _ _).trans (setBook_terr s _)
  · exact (post_terr _ _ _ _ _).trans (setBook_terr s _)

theorem observe_terr (s : State) (e a n : Nat) : (s.observe e a n).terr = s.terr := by
  unfold State.observe
  generalize List.range 8 = l
  induction l generalizing s with
  | nil => rfl
  | cons b t ih =>
    rw [List.foldl_cons, ih]
    extract_lets old s1 th
    have h1 : s1.terr = s.terr := State.wrapCnt_terr s _ _
    clear_value s1 th old
    split
    · split
      · exact (irq_terr _ _).trans h1
      · exact h1
    · rfl

theorem pushViol_terr (s : State) (v : Viol) : (s.pushViol v).terr = s.terr := by
  unfold State.pushViol
  extract_lets v'
  split
  · split
    · rfl
    · split
      · rfl
      · exact irq_terr _ _
  · rfl

theorem violate_terr (s : State) (v : Viol) : (s.violate v).terr = s.terr := by
  unfold State.violate
  extract_lets s1 s2 s3
  have h1 : s1.terr = s.terr := (irq_terr _ _).trans (pushViol_terr _ _)
  have h2 : s2.terr = s.terr := by
    show (if v.straddle then s1.irq 188 else s1).terr = _
    split
    · rw [irq_terr, h1]
    · exact h1
  have h3 : s3.terr = s.terr := (postLim_terr _ _ _ _ _ _).trans h2
  split
  · rw [post_terr, irq_terr, h3]
  · exact h3

theorem colAdmit_terr (s : State) (m a len : Nat) (k : AccKind) : (s.colAdmit m a len k).2.terr = s.terr := by
  unfold State.colAdmit
  split
  · rfl
  · split
    · exact violate_terr _ _
    · split
      · split
        · exact observe_terr _ _ _ _
        · exact irqOnce_terr _ _
      · rfl

theorem reportUE_terr (s : State) (m a : Nat) (b : Bool) : (s.reportUE m a b).terr = s.terr := by
  unfold State.reportUE
  extract_lets s1 s2 s3
  rw [post_terr, irq_terr]
  rfl

theorem reportBad_terr (s : State) (m a p : Nat) (ws : List Nat) : (s.reportBad m a p ws).terr = s.terr := by
  unfold State.reportBad
  induction ws generalizing s with
  | nil => rfl
  | cons b t ih => rw [List.foldl_cons, ih, reportUE_terr]

/-- Reading a line for the mirror leaves the rescue buffer alone. -/
theorem readLine_rescue (s : State) (bank line : Nat) : (s.readLine bank line).2.terr.rescue = s.terr.rescue := by
  unfold State.readLine
  extract_lets a
  have h := colAdmit_terr s 16 a 64 .read
  split
  · rename_i e
    rw [e] at h
    show (State.terr _).rescue = _
    rw [← h]; rfl
  · rename_i s1 e
    rw [e] at h
    have h2 := (reportBad_terr s1 16 a a (((List.range 8).filter fun i => s1.terr.bad.contains (a + 8 * i)).map fun i => a + 8 * i)).trans h
    rw [← h2]; rfl


theorem keep_rescue {s : State} {bank line : Nat} (hInv : s.Inv) (hr : s.terr.rescue.length < 64) : (State.rescue s bank line).Inv := by
  have h := inv_snd (keep_readLine (bank := bank) (line := line) hInv)
  have hl : ((s.readLine bank line).2.terr.rescue ++ (s.readLine bank line).1.toList).length ≤ 64 := by
    rw [List.length_append, readLine_rescue]
    cases (s.readLine bank line).1 with
    | none => exact Nat.le_of_lt hr
    | some _ => exact hr
  exact And.intro h.1 ⟨h.2.1, h.2.2.1, h.2.2.2.1, hl, h.2.2.2.2.2⟩

theorem rescue_length (s : State) (bank line : Nat) : (s.rescue bank line).terr.rescue.length ≤ s.terr.rescue.length + 1 := by
  show ((s.readLine bank line).2.terr.rescue ++ (s.readLine bank line).1.toList).length ≤ _
  rw [List.length_append, readLine_rescue]
  cases (s.readLine bank line).1 with
  | none => exact Nat.le_succ _
  | some _ => exact Nat.le_refl _

theorem keep_rescues {s : State} {ls : List (Nat × Nat)} (hInv : s.Inv) (hr : s.terr.rescue.length + ls.length ≤ 64) :
    (ls.foldl (fun (s : State) l => s.rescue l.1 l.2) s).Inv := by
  induction ls generalizing s with
  | nil => exact hInv
  | cons l t ih =>
    rw [List.length_cons] at hr
    have hl := rescue_length s l.1 l.2
    exact ih (keep_rescue hInv (by omega)) (Nat.le_trans (Nat.add_le_add_right hl _) (by omega))

theorem keep_ramWrite {s : State} {m a p : Nat} {bs : List Byte} (hInv : s.Inv) : PInv (State.ramWrite s m a p bs) := by
  unfold State.ramWrite
  refine inv_ite2 (fun _ => inv_pair (keep_reportBad hInv)) (fun _ => inv_ite2 (fun _ => inv_pair (keep_ramStore hInv)) (fun _ => ?_))
  extract_lets ls
  refine inv_ite2 (fun _ => inv_pair (keep_irqOnce ?_)) (fun h => inv_ite2 (fun _ => inv_pair ?_) (fun _ => inv_pair (keep_ramStore (keep_rescues hInv (Nat.le_of_not_lt h)))))
  · exact inv_mk (keep_satCnt hInv) rfl rfl rfl rfl rfl rfl rfl rfl rfl
  · exact inv_mk hInv rfl rfl rfl rfl rfl rfl rfl rfl rfl

theorem keep_busAtomic {s : State} {m a : Nat} {f : DWord → Option DWord} (hInv : s.Inv) : PInv (State.busAtomic s m a f) := by
  unfold State.busAtomic
  have h := keep_colAdmit (m := m) (a := a) (len := 8) (k := .atomic) hInv
  split
  · exact inv_pair (inv_of_eq ‹_› h)
  · replace h := inv_of_eq ‹_› h
    split
    · have h2 := keep_ramRead (m := m) (a := a) (p := a) (len := 8) h
      split
      · exact inv_pair (inv_of_eq ‹_› h2)
      · replace h2 := inv_of_eq ‹_› h2
        extract_lets old
        split
        · exact inv_pair h2
        · exact inv_pair (inv_snd (keep_ramWrite h2))
    · exact inv_pair h

theorem keep_burstTarget {s : State} {m a n : Nat} (hInv : s.Inv) : PInv (State.burstTarget s m a n) := by
  unfold State.burstTarget
  with_reducible repeat' (first
    | assumption | (extract_lets +onlyGivenNames x; have hx : PInv x := ?_; (on_goal 1 => clear_value x); (on_goal 2 => subst x)) | refine inv_snd ?_ | apply keep_ramRead
    | apply keep_bedRead | apply keep_dequeueLoad | (refine inv_ite2 (fun _ => ?_) (fun _ => ?_)) | (split <;> try (rename_i e; replace e := inv_of_eq e ?_))
    | fail_if_no_progress (refine inv_pair ?_))

theorem keep_unitRead {s : State} {m a len : Nat} (hInv : s.Inv) : PInv (State.unitRead s m a len) := by
  unfold State.unitRead
  with_reducible repeat' (first
    | assumption | apply keep_colAdmit | apply keep_burstTarget | (split <;> try (rename_i e; replace e := inv_of_eq e ?_)) | fail_if_no_progress (refine inv_pair ?_))

theorem keep_unitWrite {s : State} {m a : Nat} {bs : List Byte} (hInv : s.Inv) : PInv (State.unitWrite s m a bs) := by
  unfold State.unitWrite
  have h := keep_colAdmit (m := m) (a := a) (len := bs.length) (k := .write) hInv
  split
  · exact inv_pair (inv_of_eq ‹_› h)
  · replace h := inv_of_eq ‹_› h
    exact inv_ite2 (fun _ => keep_ramWrite h) (fun _ => inv_pair h)

theorem keep_dmaRead {s : State} {m a n : Nat} (hInv : s.Inv) : PInv (State.dmaRead s m a n) := by
  unfold State.dmaRead
  refine inv_foldl2 hInv (fun x b h => ?_)
  split
  · exact h
  · have h' := keep_unitRead (m := m) (a := b.1) (len := b.2) (inv_of_eq rfl h)
    split <;> exact inv_of_eq ‹_› h'

theorem keep_dmaWrite {s : State} {m a : Nat} {bs : List Byte} (hInv : s.Inv) : PInv (State.dmaWrite s m a bs) := by
  unfold State.dmaWrite
  refine inv_foldl2 hInv (fun x b h => ?_)
  split
  · exact h
  · exact keep_unitWrite (inv_of_eq rfl h)

end Sys2Proof.Machine
end

