-- ==== Sys2Proof/Laws/InvIrq.lean ====
section
/-! SUPPORT. Every operation of Machine/Irq.lean keeps the invariant of the device. -/

set_option maxRecDepth 4000
set_option linter.unusedTactic false
set_option linter.unreachableTactic false

namespace Sys2Proof.Machine

theorem keep_setCore {s : State} {n : Nat} {c : CoreSt} (hInv : s.Inv) : (State.setCore s n c).Inv := by
  unfold State.setCore
  with_reducible repeat' (first
    | assumption | fail_if_no_progress (refine inv_mk ?_ rfl rfl rfl rfl rfl rfl rfl rfl rfl))

theorem keep_clearLatch {s : State} {src : Nat} (hInv : s.Inv) : (State.clearLatch s src).Inv := by
  unfold State.clearLatch
  with_reducible repeat' (first
    | assumption | apply keep_wr | (refine inv_ite (fun _ => ?_) (fun _ => ?_)))

theorem keep_lateError {s : State} {n : Nat} {av : Bool} {kind size addr : Nat} (hInv : s.Inv) : (State.lateError s n av kind size addr).Inv := by
  unfold State.lateError
  with_reducible repeat' (first
    | assumption | (extract_lets +onlyGivenNames x; first | (have _ : Book := x; subst x) | (have _ : Terr := x; subst x) | (have _ : Ens := x; subst x) | clear_value x)
    | apply keep_setCore | apply keep_irq | apply keep_postLim | (refine inv_ite (fun _ => ?_) (fun _ => ?_)) | (split <;> try (rename_i e; replace e := inv_of_eq e ?_)))

theorem keep_holdCore {s : State} {n : Nat} (hInv : s.Inv) : (State.holdCore s n).Inv := by
  unfold State.holdCore
  with_reducible repeat' (first
    | assumption | apply keep_wr | apply keep_setCore)

theorem keep_loseRequests {s : State} {n : Nat} (hInv : s.Inv) : (State.loseRequests s n).Inv := by
  unfold State.loseRequests
  with_reducible repeat' (first
    | assumption | (extract_lets +onlyGivenNames x; first | (have _ : Book := x; subst x) | (have _ : Terr := x; subst x) | (have _ : Ens := x; subst x) | clear_value x)
    | apply keep_setQueue | (refine inv_ite (fun _ => ?_) (fun _ => ?_)))

theorem keep_startCore {s : State} {n pc : Nat} (hInv : s.Inv) : (State.startCore s n pc).Inv := by
  unfold State.startCore
  with_reducible repeat' (first
    | assumption | (extract_lets +onlyGivenNames x; have hx : State.Inv x := ?_; (on_goal 1 => clear_value x); (on_goal 2 => subst x))
    | (extract_lets +onlyGivenNames x; first | (have _ : Book := x; subst x) | (have _ : Terr := x; subst x) | (have _ : Ens := x; subst x) | clear_value x)
    | apply keep_setCore | apply keep_loseRequests | apply keep_wr | (refine inv_ite (fun _ => ?_) (fun _ => ?_)))

theorem keep_setGears {s : State} {g : Word} (hInv : s.Inv) : (State.setGears s g).Inv := by
  unfold State.setGears
  with_reducible repeat' (first
    | assumption | apply keep_setCore | (refine inv_foldl ?_ (fun _ _ _ => ?_)))

end Sys2Proof.Machine
end

