-- ==== Sys2Proof/Laws/InvBedrock.lean ====
section
/-! SUPPORT. Every operation of Machine/Bedrock.lean keeps the invariant of the device. -/

set_option maxRecDepth 4000
set_option linter.unusedTactic false
set_option linter.unreachableTactic false

namespace Sys2Proof.Machine

theorem keep_setArmed {s : State} {n v : Nat} (hInv : s.Inv) : (State.setArmed s n v).Inv := by
  unfold State.setArmed
  with_reducible repeat' (first
    | assumption | fail_if_no_progress (refine inv_mk ?_ rfl rfl rfl rfl rfl rfl rfl rfl rfl))

theorem keep_brkUnlock {s : State} {n : Nat} {w : Word} (hInv : s.Inv) : (State.brkUnlock s n w).Inv := by
  unfold State.brkUnlock
  with_reducible repeat' (first
    | assumption | apply keep_setArmed | apply keep_disarm | apply keep_arm | (refine inv_ite (fun _ => ?_) (fun _ => ?_)))

theorem keep_brkTouch {s : State} {n : Nat} (hInv : s.Inv) : (State.brkTouch s n).Inv := by
  unfold State.brkTouch
  with_reducible repeat' (first
    | assumption | apply keep_setArmed | (refine inv_ite (fun _ => ?_) (fun _ => ?_)))

theorem keep_brkDisarm {s : State} {n : Nat} (hInv : s.Inv) : (State.brkDisarm s n).Inv := by
  unfold State.brkDisarm
  with_reducible repeat' (first
    | assumption | apply keep_setArmed | apply keep_disarm)

theorem keep_setPage {s : State} {a st : Nat} (hInv : s.Inv) : (State.setPage s a st).Inv := by
  unfold State.setPage
  with_reducible repeat' (first
    | assumption | fail_if_no_progress (refine inv_mk ?_ rfl rfl rfl rfl rfl rfl rfl rfl rfl))

theorem keep_setFetchBank {s : State} {n a : Nat} (hInv : s.Inv) : (State.setFetchBank s n a).Inv := by
  unfold State.setFetchBank
  with_reducible repeat' (first
    | assumption | apply keep_wr)

theorem keep_brkRefuse {s : State} {m op a st : Nat} (hInv : s.Inv) : (State.brkRefuse s m op a st).Inv := by
  unfold State.brkRefuse
  with_reducible repeat' (first
    | assumption | (extract_lets +onlyGivenNames x; have hx : State.Inv x := ?_; (on_goal 1 => clear_value x); (on_goal 2 => subst x)) | apply keep_violate | apply keep_irq
    | (refine inv_ite (fun _ => ?_) (fun _ => ?_)))

theorem keep_brkResult {s : State} {page : Option Nat} {pending : Bool} {st : Nat} (hInv : s.Inv) : (State.brkResult s page pending st).Inv := by
  unfold State.brkResult
  with_reducible repeat' (first
    | assumption | apply keep_wr | (split <;> try (rename_i e; replace e := inv_of_eq e ?_)))

theorem keep_brkRemove {s : State} {c : BrkCmd} {st : Nat} (hInv : s.Inv) : (State.brkRemove s c st).Inv := by
  unfold State.brkRemove
  with_reducible repeat' (first
    | assumption | (extract_lets +onlyGivenNames x; have hx : State.Inv x := ?_; (on_goal 1 => clear_value x); (on_goal 2 => subst x))
    | (extract_lets +onlyGivenNames x; first | (have _ : Book := x; subst x) | (have _ : Terr := x; subst x) | (have _ : Ens := x; subst x) | clear_value x) | apply keep_wr
    | apply keep_brkResult | apply keep_disarm | fail_if_no_progress (refine inv_mk ?_ rfl rfl rfl rfl rfl rfl rfl rfl rfl))

theorem keep_brkEnd {s : State} {c : BrkCmd} {st : Nat} (hInv : s.Inv) : (State.brkEnd s c st).Inv := by
  unfold State.brkEnd
  with_reducible repeat' (first
    | assumption | apply keep_brkRemove | apply keep_irq)

theorem keep_brkBegin {s : State} {c : BrkCmd} (hInv : s.Inv) : (State.brkBegin s c).Inv := by
  unfold State.brkBegin
  extract_lets s1 go
  have h1 : s1.Inv := keep_wr (keep_wr hInv)
  have hgo : ∀ (x : State) d, x.Inv → (go x d).Inv := fun x d h => inv_mk h rfl rfl rfl rfl rfl rfl rfl rfl rfl
  clear_value s1 go
  split
  · exact hgo _ _ h1
  · refine inv_ite (fun _ => hgo _ _ h1) (fun _ => ?_)
    split
    · exact keep_brkEnd (keep_violate h1)
    · have h2 := keep_dmaRead (m := c.master) (a := c.src) (n := brkSrcLen c.op c.bank) h1
      split
      · exact keep_brkEnd (inv_of_eq ‹_› h2)
      · exact hgo _ _ (inv_of_eq ‹_› h2)

theorem keep_brkAccept {s : State} {c : BrkCmd} (hInv : s.Inv) : (State.brkAccept s c).Inv := by
  unfold State.brkAccept
  with_reducible repeat' (first
    | assumption | (extract_lets +onlyGivenNames x; have hx : State.Inv x := ?_; (on_goal 1 => clear_value x); (on_goal 2 => subst x))
    | (extract_lets +onlyGivenNames x; first | (have _ : Book := x; subst x) | (have _ : Terr := x; subst x) | (have _ : Ens := x; subst x) | clear_value x) | apply keep_wr
    | apply keep_brkResult | apply keep_brkBegin | (refine inv_ite (fun _ => ?_) (fun _ => ?_)) | fail_if_no_progress (refine inv_mk ?_ rfl rfl rfl rfl rfl rfl rfl rfl rfl))

theorem keep_brkCmd {s : State} {m n : Nat} {w : Word} (hInv : s.Inv) : (State.brkCmd s m n w).Inv := by
  unfold State.brkCmd
  with_reducible repeat' (first
    | assumption | (extract_lets +onlyGivenNames x; have hx : State.Inv x := ?_; (on_goal 1 => clear_value x); (on_goal 2 => subst x))
    | (extract_lets +onlyGivenNames x; first | (have _ : Book := x; subst x) | (have _ : Terr := x; subst x) | (have _ : Ens := x; subst x) | clear_value x)
    | apply keep_brkDisarm | apply keep_brkAccept | apply keep_brkResult | apply keep_brkRefuse | (refine inv_ite (fun _ => ?_) (fun _ => ?_))
    | fail_if_no_progress (refine inv_mk ?_ rfl rfl rfl rfl rfl rfl rfl rfl rfl))

theorem keep_brkIssue {s : State} {m op a : Nat} {d : List Byte} (hInv : s.Inv) : PInv (State.brkIssue s m op a d) := by
  unfold State.brkIssue
  with_reducible repeat' (first
    | assumption | (extract_lets +onlyGivenNames x; first | (have _ : Book := x; subst x) | (have _ : Terr := x; subst x) | (have _ : Ens := x; subst x) | clear_value x)
    | apply keep_brkAccept | apply keep_brkRefuse | (refine inv_ite2 (fun _ => ?_) (fun _ => ?_)) | fail_if_no_progress (refine inv_pair ?_))

theorem keep_brkStart {s : State} (hInv : s.Inv) : (State.brkStart s).Inv := by
  unfold State.brkStart
  with_reducible repeat' (first
    | assumption | apply keep_brkBegin | (refine inv_ite (fun _ => ?_) (fun _ => ?_)) | (split <;> try (rename_i e; replace e := inv_of_eq e ?_)))

theorem keep_scramble {s : State} {a n : Nat} (hInv : s.Inv) : (State.scramble s a n).Inv := by
  unfold State.scramble
  with_reducible repeat' (first
    | assumption | apply keep_poke | fail_if_no_progress (refine inv_mk ?_ rfl rfl rfl rfl rfl rfl rfl rfl rfl))

theorem keep_tearPage {s : State} {a : Nat} (hInv : s.Inv) : (State.tearPage s a).Inv := by
  unfold State.tearPage
  with_reducible repeat' (first
    | assumption | apply keep_scramble | apply keep_setPage)

theorem keep_writePage {s : State} {a : Nat} {d : List Byte} (hInv : s.Inv) : (State.writePage s a d).Inv := by
  unfold State.writePage
  with_reducible repeat' (first
    | assumption | apply keep_poke | apply keep_setPage)

theorem keep_countErase {s : State} {k b : Nat} (hInv : s.Inv) : (State.countErase s k b).Inv := by
  unfold State.countErase
  with_reducible repeat' (first
    | assumption | (extract_lets +onlyGivenNames x; have hx : State.Inv x := ?_; (on_goal 1 => clear_value x); (on_goal 2 => subst x))
    | (extract_lets +onlyGivenNames x; first | (have _ : Book := x; subst x) | (have _ : Terr := x; subst x) | (have _ : Ens := x; subst x) | clear_value x) | apply keep_irq
    | (refine inv_ite (fun _ => ?_) (fun _ => ?_)) | fail_if_no_progress (refine inv_mk ?_ rfl rfl rfl rfl rfl rfl rfl rfl rfl))

theorem keep_dropSoft {s : State} {a : Nat} (hInv : s.Inv) : (State.dropSoft s a).Inv := by
  unfold State.dropSoft
  with_reducible repeat' (first
    | assumption | fail_if_no_progress (refine inv_mk ?_ rfl rfl rfl rfl rfl rfl rfl rfl rfl))

theorem keep_wipeBlock {s : State} {a : Nat} (hInv : s.Inv) : (State.wipeBlock s a).Inv := by
  unfold State.wipeBlock
  with_reducible repeat' (first
    | assumption | (extract_lets +onlyGivenNames x; have hx : State.Inv x := ?_; (on_goal 1 => clear_value x); (on_goal 2 => subst x))
    | (extract_lets +onlyGivenNames x; first | (have _ : Book := x; subst x) | (have _ : Terr := x; subst x) | (have _ : Ens := x; subst x) | clear_value x)
    | apply keep_dropSoft | apply keep_wipe | fail_if_no_progress (refine inv_mk ?_ rfl rfl rfl rfl rfl rfl rfl rfl rfl))

theorem keep_tearBlock {s : State} {a : Nat} (hInv : s.Inv) : (State.tearBlock s a).Inv := by
  unfold State.tearBlock
  with_reducible repeat' (first
    | assumption | apply keep_tearPage | (refine inv_foldl ?_ (fun _ _ _ => ?_)))

theorem keep_brkEffect {s : State} {c : BrkCmd} {ok : Bool} (hInv : s.Inv) : PInv (State.brkEffect s c ok) := by
  unfold State.brkEffect
  with_reducible repeat' (first
    | assumption | (extract_lets +onlyGivenNames x; have hx : State.Inv x := ?_; (on_goal 1 => clear_value x); (on_goal 2 => subst x))
    | (extract_lets +onlyGivenNames x; first | (have _ : Book := x; subst x) | (have _ : Terr := x; subst x) | (have _ : Ens := x; subst x) | clear_value x)
    | apply keep_writePage | apply keep_tearPage | apply keep_wipeBlock | apply keep_countErase | apply keep_tearBlock | apply keep_wr | apply keep_setReg
    | apply keep_dropSoft | apply keep_next | (refine inv_foldl ?_ (fun _ _ _ => ?_)) | (refine inv_ite2 (fun _ => ?_) (fun _ => ?_))
    | fail_if_no_progress (refine inv_pair ?_))

theorem keep_icacheDrop {s : State} {a n : Nat} (hInv : s.Inv) : (State.icacheDrop s a n).Inv := by
  unfold State.icacheDrop
  with_reducible repeat' (first
    | assumption | (extract_lets +onlyGivenNames x; first | (have _ : Book := x; subst x) | (have _ : Terr := x; subst x) | (have _ : Ens := x; subst x) | clear_value x)
    | apply keep_setCore | (refine inv_foldl ?_ (fun _ _ _ => ?_)))

theorem keep_brkInvalidate {s : State} {op a : Nat} (hInv : s.Inv) : (State.brkInvalidate s op a).Inv := by
  unfold State.brkInvalidate
  with_reducible repeat' (first
    | assumption | apply keep_icacheDrop | (refine inv_ite (fun _ => ?_) (fun _ => ?_)))

theorem keep_brkResume {s : State} {b : Nat} (hInv : s.Inv) : (State.brkResume s b).Inv := by
  unfold State.brkResume
  with_reducible repeat' (first
    | assumption | apply keep_wr)

theorem keep_brkDone {s : State} {b : Nat} {ok : Bool} (hInv : s.Inv) : (State.brkDone s b ok).Inv := by
  unfold State.brkDone
  with_reducible repeat' (first
    | assumption | (extract_lets +onlyGivenNames x; have hx : State.Inv x := ?_; (on_goal 1 => clear_value x); (on_goal 2 => subst x))
    | (extract_lets +onlyGivenNames x; have hx : PInv x := ?_; (on_goal 1 => clear_value x); (on_goal 2 => subst x)) | refine inv_snd ?_
    | (refine keep_fire ?_ (fun _ _ => ?_)) | apply keep_brkResume | apply keep_brkEffect | apply keep_brkInvalidate | apply keep_brkEnd
    | (split <;> try (rename_i e; replace e := inv_of_eq e ?_)))

theorem keep_failPage {s : State} {a : Nat} (hInv : s.Inv) : (State.failPage s a).Inv := by
  unfold State.failPage
  with_reducible repeat' (first
    | assumption | apply keep_next | (refine inv_ite (fun _ => ?_) (fun _ => ?_)) | fail_if_no_progress (refine inv_mk ?_ rfl rfl rfl rfl rfl rfl rfl rfl rfl))

theorem keep_brkInterrupt {s : State} {c : BrkCmd} (hInv : s.Inv) : (State.brkInterrupt s c).Inv := by
  unfold State.brkInterrupt
  with_reducible repeat' (first
    | assumption | (extract_lets +onlyGivenNames x; have hx : State.Inv x := ?_; (on_goal 1 => clear_value x); (on_goal 2 => subst x)) | apply keep_tearPage
    | apply keep_failPage | apply keep_tearBlock | apply keep_dropSoft | apply keep_countErase | apply keep_next | (refine inv_ite (fun _ => ?_) (fun _ => ?_)))

theorem keep_brkAbandon {s : State} (hInv : s.Inv) : (State.brkAbandon s).Inv := by
  unfold State.brkAbandon
  with_reducible repeat' (first
    | assumption | (extract_lets +onlyGivenNames x; first | (have _ : Book := x; subst x) | (have _ : Terr := x; subst x) | (have _ : Ens := x; subst x) | clear_value x)
    | apply keep_brkInterrupt | (refine inv_foldl ?_ (fun _ _ _ => ?_)) | fail_if_no_progress (refine inv_mk ?_ rfl rfl rfl rfl rfl rfl rfl rfl rfl))

theorem keep_spotLine {s : State} {a bits : Nat} (hInv : s.Inv) : (State.spotLine s a bits).Inv := by
  unfold State.spotLine
  with_reducible repeat' (first
    | assumption | (extract_lets +onlyGivenNames x; have hx : State.Inv x := ?_; (on_goal 1 => clear_value x); (on_goal 2 => subst x))
    | (extract_lets +onlyGivenNames x; first | (have _ : Book := x; subst x) | (have _ : Terr := x; subst x) | (have _ : Ens := x; subst x) | clear_value x) | apply keep_next
    | (refine inv_ite (fun _ => ?_) (fun _ => ?_)) | fail_if_no_progress (refine inv_mk ?_ rfl rfl rfl rfl rfl rfl rfl rfl rfl))

theorem keep_passEnd {s : State} {b : Nat} (hInv : s.Inv) : (State.passEnd s b).Inv := by
  unfold State.passEnd
  with_reducible repeat' (first
    | assumption | (extract_lets +onlyGivenNames x; have hx : State.Inv x := ?_; (on_goal 1 => clear_value x); (on_goal 2 => subst x))
    | (extract_lets +onlyGivenNames x; first | (have _ : Book := x; subst x) | (have _ : Terr := x; subst x) | (have _ : Ens := x; subst x) | clear_value x)
    | apply keep_reachST | apply keep_irq | fail_if_no_progress (refine inv_mk ?_ rfl rfl rfl rfl rfl rfl rfl rfl rfl))

theorem keep_patrolRead {s : State} {b blk bits : Nat} {pass : Bool} (hInv : s.Inv) : (State.patrolRead s b blk bits pass).Inv := by
  unfold State.patrolRead
  with_reducible repeat' (first
    | assumption | (extract_lets +onlyGivenNames x; have hx : State.Inv x := ?_; (on_goal 1 => clear_value x); (on_goal 2 => subst x))
    | (extract_lets +onlyGivenNames x; first | (have _ : Book := x; subst x) | (have _ : Terr := x; subst x) | (have _ : Ens := x; subst x) | clear_value x)
    | apply keep_spotLine | apply keep_sat | apply keep_irq | apply keep_post | apply keep_passEnd | (refine inv_ite (fun _ => ?_) (fun _ => ?_))
    | fail_if_no_progress (refine inv_mk ?_ rfl rfl rfl rfl rfl rfl rfl rfl rfl))

theorem keep_patrolPop {s : State} (hInv : s.Inv) : PInv (State.patrolPop s) := by
  unfold State.patrolPop
  with_reducible repeat' (first
    | assumption | (split <;> try (rename_i e; replace e := inv_of_eq e ?_)) | fail_if_no_progress (refine inv_mk ?_ rfl rfl rfl rfl rfl rfl rfl rfl rfl)
    | fail_if_no_progress (refine inv_pair ?_))

end Sys2Proof.Machine
end

