-- ==== Sys2Proof/Laws/InvWings.lean ====
section
/-! SUPPORT. Every operation of Machine/Wings.lean keeps the invariant of the device. -/

set_option maxRecDepth 4000
set_option linter.unusedTactic false
set_option linter.unreachableTactic false

namespace Sys2Proof.Machine

theorem keep_notifyQueue {s : State} {q : Nat} (hInv : s.Inv) : (State.notifyQueue s q).Inv := by
  unfold State.notifyQueue
  with_reducible repeat' (first
    | assumption | (extract_lets +onlyGivenNames x; have hx : State.Inv x := ?_; (on_goal 1 => clear_value x); (on_goal 2 => subst x))
    | (extract_lets +onlyGivenNames x; first | (have _ : Book := x; subst x) | (have _ : Terr := x; subst x) | (have _ : Ens := x; subst x) | clear_value x)
    | apply keep_setQueue | apply keep_irq | (refine inv_ite (fun _ => ?_) (fun _ => ?_)) | fail_if_no_progress (refine inv_mk ?_ rfl rfl rfl rfl rfl rfl rfl rfl rfl))

theorem keep_restartIdle {s : State} {q : Nat} (hInv : s.Inv) : (State.restartIdle s q).Inv := by
  unfold State.restartIdle
  with_reducible repeat' (first
    | assumption | apply keep_arm | apply keep_disarm | (refine inv_ite (fun _ => ?_) (fun _ => ?_)))

theorem keep_advanceTail {s : State} {q : Nat} (hInv : s.Inv) : (State.advanceTail s q).Inv := by
  unfold State.advanceTail
  with_reducible repeat' (first
    | assumption | (extract_lets +onlyGivenNames x; have hx : State.Inv x := ?_; (on_goal 1 => clear_value x); (on_goal 2 => subst x))
    | (extract_lets +onlyGivenNames x; first | (have _ : Book := x; subst x) | (have _ : Terr := x; subst x) | (have _ : Ens := x; subst x) | clear_value x)
    | apply keep_setQueue | apply keep_notifyQueue | apply keep_restartIdle | (refine inv_ite (fun _ => ?_) (fun _ => ?_)))

theorem keep_place {s : State} {w q : Nat} {bs : List Byte} (hInv : s.Inv) : PInv (State.place s w q bs) := by
  unfold State.place
  with_reducible repeat' (first
    | assumption | (extract_lets +onlyGivenNames x; first | (have _ : Book := x; subst x) | (have _ : Terr := x; subst x) | (have _ : Ens := x; subst x) | clear_value x)
    | apply keep_setQueue | apply keep_dmaWrite | apply keep_advanceTail | (refine inv_ite2 (fun _ => ?_) (fun _ => ?_))
    | (split <;> try (rename_i e; replace e := inv_of_eq e ?_)) | fail_if_no_progress (refine inv_pair ?_))

theorem keep_enqueue {s : State} {m q : Nat} {bs : List Byte} (hInv : s.Inv) : PInv (State.enqueue s m q bs) := by
  unfold State.enqueue
  with_reducible repeat' (first
    | assumption | (extract_lets +onlyGivenNames x; first | (have _ : Book := x; subst x) | (have _ : Terr := x; subst x) | (have _ : Ens := x; subst x) | clear_value x)
    | apply keep_refuseProducer | apply keep_place | (refine inv_ite2 (fun _ => ?_) (fun _ => ?_)) | fail_if_no_progress (refine inv_pair ?_))

theorem keep_copyStart {s : State} {m q : Nat} {w : DWord} (hInv : s.Inv) : (State.copyStart s m q w).Inv := by
  unfold State.copyStart
  with_reducible repeat' (first
    | assumption | (extract_lets +onlyGivenNames x; first | (have _ : Book := x; subst x) | (have _ : Terr := x; subst x) | (have _ : Ens := x; subst x) | clear_value x)
    | apply keep_sat | apply keep_dmaRead | (refine inv_ite (fun _ => ?_) (fun _ => ?_)) | (split <;> try (rename_i e; replace e := inv_of_eq e ?_))
    | fail_if_no_progress (refine inv_mk ?_ rfl rfl rfl rfl rfl rfl rfl rfl rfl))

theorem keep_enqueueStore {s : State} {m q : Nat} {w : DWord} (hInv : s.Inv) : (State.enqueueStore s m q w).Inv := by
  unfold State.enqueueStore
  with_reducible repeat' (first
    | assumption | (extract_lets +onlyGivenNames x; first | (have _ : Book := x; subst x) | (have _ : Terr := x; subst x) | (have _ : Ens := x; subst x) | clear_value x)
    | refine inv_snd ?_ | apply keep_refuseProducer | apply keep_place | apply keep_copyStart | (refine inv_ite (fun _ => ?_) (fun _ => ?_)))

theorem keep_releaseEntries {s : State} {q n : Nat} (hInv : s.Inv) : (State.releaseEntries s q n).Inv := by
  unfold State.releaseEntries
  with_reducible repeat' (first
    | assumption | (extract_lets +onlyGivenNames x; have hx : State.Inv x := ?_; (on_goal 1 => clear_value x); (on_goal 2 => subst x))
    | (extract_lets +onlyGivenNames x; first | (have _ : Book := x; subst x) | (have _ : Terr := x; subst x) | (have _ : Ens := x; subst x) | clear_value x)
    | apply keep_setQueue | apply keep_notifyQueue | apply keep_restartIdle | (refine inv_ite (fun _ => ?_) (fun _ => ?_)))

theorem keep_releaseStore {s : State} {m q : Nat} {w : DWord} (hInv : s.Inv) : (State.releaseStore s m q w).Inv := by
  unfold State.releaseStore
  with_reducible repeat' (first
    | assumption | (extract_lets +onlyGivenNames x; first | (have _ : Book := x; subst x) | (have _ : Terr := x; subst x) | (have _ : Ens := x; subst x) | clear_value x)
    | apply keep_refuseConsumer | apply keep_sat | apply keep_releaseEntries | (refine inv_ite (fun _ => ?_) (fun _ => ?_)))

theorem keep_readEntry {s : State} {m q i n : Nat} (hInv : s.Inv) : PInv (State.readEntry s m q i n) := by
  unfold State.readEntry
  with_reducible repeat' (first
    | assumption | apply keep_dmaRead)

theorem keep_refuseCfg {s : State} (hInv : s.Inv) : (State.refuseCfg s).Inv := by
  unfold State.refuseCfg
  with_reducible repeat' (first
    | assumption | apply keep_sat)

theorem keep_queueEnable {s : State} {q : Nat} {w : Word} (hInv : s.Inv) : (State.queueEnable s q w).Inv := by
  unfold State.queueEnable
  with_reducible repeat' (first
    | assumption | (extract_lets +onlyGivenNames x; first | (have _ : Book := x; subst x) | (have _ : Terr := x; subst x) | (have _ : Ens := x; subst x) | clear_value x)
    | apply keep_refuseCfg | apply keep_setQueue | apply keep_disarm | (refine inv_ite (fun _ => ?_) (fun _ => ?_)))

theorem keep_queueDisable {s : State} {q : Nat} {w : Word} (hInv : s.Inv) : (State.queueDisable s q w).Inv := by
  unfold State.queueDisable
  with_reducible repeat' (first
    | assumption | (extract_lets +onlyGivenNames x; first | (have _ : Book := x; subst x) | (have _ : Terr := x; subst x) | (have _ : Ens := x; subst x) | clear_value x)
    | apply keep_setQueue | apply keep_disarm)

theorem keep_queueWrite {s : State} {q k : Nat} {w : Word} (hInv : s.Inv) : (State.queueWrite s q k w).Inv := by
  unfold State.queueWrite
  with_reducible repeat' (first
    | assumption | (extract_lets +onlyGivenNames x; first | (have _ : Book := x; subst x) | (have _ : Terr := x; subst x) | (have _ : Ens := x; subst x) | clear_value x)
    | apply keep_refuseCfg | apply keep_setQueue | apply keep_queueEnable | apply keep_queueDisable | (refine inv_ite (fun _ => ?_) (fun _ => ?_)))

end Sys2Proof.Machine
end

