-- ==== Sys2Proof/Laws/InvStageTime.lean ====
section
/-! SUPPORT. Every operation of Machine/StageTime.lean keeps the invariant of the device. -/

set_option maxRecDepth 4000
set_option linter.unusedTactic false
set_option linter.unreachableTactic false

namespace Sys2Proof.Machine

theorem keep_refreshUnsynced {s : State} (hInv : s.Inv) : (State.refreshUnsynced s).Inv := by
  unfold State.refreshUnsynced
  with_reducible repeat' (first
    | assumption | apply keep_wr | apply keep_irq | (refine inv_ite (fun _ => ?_) (fun _ => ?_)))

theorem keep_servoGo {s : State} {st : Nat} (hInv : s.Inv) : (State.servoGo s st).Inv := by
  unfold State.servoGo
  with_reducible repeat' (first
    | assumption | (extract_lets +onlyGivenNames x; have hx : State.Inv x := ?_; (on_goal 1 => clear_value x); (on_goal 2 => subst x))
    | (extract_lets +onlyGivenNames x; first | (have _ : Book := x; subst x) | (have _ : Terr := x; subst x) | (have _ : Ens := x; subst x) | clear_value x)
    | apply keep_refreshUnsynced | apply keep_wr | apply keep_irq | apply keep_setReg | apply keep_arm | apply keep_disarm | (refine inv_ite (fun _ => ?_) (fun _ => ?_))
    | fail_if_no_progress (refine inv_mk ?_ rfl rfl rfl rfl rfl rfl rfl rfl rfl))

theorem keep_servoState {s : State} {e : Int} (hInv : s.Inv) : (State.servoState s e).Inv := by
  unfold State.servoState
  with_reducible repeat' (first
    | assumption | (extract_lets +onlyGivenNames x; have hx : State.Inv x := ?_; (on_goal 1 => clear_value x); (on_goal 2 => subst x))
    | (extract_lets +onlyGivenNames x; first | (have _ : Book := x; subst x) | (have _ : Terr := x; subst x) | (have _ : Ens := x; subst x) | clear_value x)
    | apply keep_servoGo | (refine inv_ite (fun _ => ?_) (fun _ => ?_)) | fail_if_no_progress (refine inv_mk ?_ rfl rfl rfl rfl rfl rfl rfl rfl rfl))

theorem keep_servoUpdate {s : State} {e : Int} (hInv : s.Inv) : (State.servoUpdate s e).Inv := by
  unfold State.servoUpdate
  with_reducible repeat' (first
    | assumption | (extract_lets +onlyGivenNames x; have hx : State.Inv x := ?_; (on_goal 1 => clear_value x); (on_goal 2 => subst x))
    | (extract_lets +onlyGivenNames x; first | (have _ : Book := x; subst x) | (have _ : Terr := x; subst x) | (have _ : Ens := x; subst x) | clear_value x)
    | apply keep_setReg | apply keep_wr | apply keep_irq | apply keep_post | apply keep_servoState | apply keep_arm | apply keep_refreshUnsynced | apply keep_next
    | (refine inv_ite (fun _ => ?_) (fun _ => ?_)) | fail_if_no_progress (refine inv_mk ?_ rfl rfl rfl rfl rfl rfl rfl rfl rfl))

theorem keep_deliverSample {s : State} {k : Nat} {e : Int} (hInv : s.Inv) : (State.deliverSample s k e).Inv := by
  unfold State.deliverSample
  with_reducible repeat' (first
    | assumption | (extract_lets +onlyGivenNames x; have hx : State.Inv x := ?_; (on_goal 1 => clear_value x); (on_goal 2 => subst x))
    | (extract_lets +onlyGivenNames x; first | (have _ : Book := x; subst x) | (have _ : Terr := x; subst x) | (have _ : Ens := x; subst x) | clear_value x)
    | apply keep_setReg | apply keep_wr | apply keep_servoUpdate | apply keep_next | (refine inv_ite (fun _ => ?_) (fun _ => ?_))
    | fail_if_no_progress (refine inv_mk ?_ rfl rfl rfl rfl rfl rfl rfl rfl rfl))

theorem keep_servoLoss {s : State} (hInv : s.Inv) : (State.servoLoss s).Inv := by
  unfold State.servoLoss
  with_reducible repeat' (first
    | assumption | apply keep_servoGo | (refine inv_ite (fun _ => ?_) (fun _ => ?_)) | fail_if_no_progress (refine inv_mk ?_ rfl rfl rfl rfl rfl rfl rfl rfl rfl))

theorem keep_irigMark {s : State} (hInv : s.Inv) : (State.irigMark s).Inv := by
  unfold State.irigMark
  with_reducible repeat' (first
    | assumption | apply keep_post | apply keep_wr | (refine inv_ite (fun _ => ?_) (fun _ => ?_))
    | fail_if_no_progress (refine inv_mk ?_ rfl rfl rfl rfl rfl rfl rfl rfl rfl))

theorem keep_servoSwitch {s : State} (hInv : s.Inv) : (State.servoSwitch s).Inv := by
  unfold State.servoSwitch
  with_reducible repeat' (first
    | assumption | apply keep_reachST | apply keep_irigMark | apply keep_wr | apply keep_post | (refine inv_ite (fun _ => ?_) (fun _ => ?_)))

theorem keep_freePinTimes {s : State} (hInv : s.Inv) : (State.freePinTimes s).Inv := by
  unfold State.freePinTimes
  with_reducible repeat' (first
    | assumption | fail_if_no_progress (refine inv_mk ?_ rfl rfl rfl rfl rfl rfl rfl rfl rfl))

theorem keep_gridChanged {s : State} {oldFrame : Nat} (hInv : s.Inv) : (State.gridChanged s oldFrame).Inv := by
  unfold State.gridChanged
  with_reducible repeat' (first
    | assumption | (extract_lets +onlyGivenNames x; have hx : State.Inv x := ?_; (on_goal 1 => clear_value x); (on_goal 2 => subst x))
    | (extract_lets +onlyGivenNames x; first | (have _ : Book := x; subst x) | (have _ : Terr := x; subst x) | (have _ : Ens := x; subst x) | clear_value x) | apply keep_irq
    | apply keep_post | fail_if_no_progress (refine inv_mk ?_ rfl rfl rfl rfl rfl rfl rfl rfl rfl))

theorem keep_refuseStep {s : State} (hInv : s.Inv) : (State.refuseStep s).Inv := by
  unfold State.refuseStep
  exact keep_wr (inv_mk hInv rfl rfl rfl rfl rfl rfl rfl rfl rfl)

theorem keep_applyStep {s : State} (hInv : s.Inv) : (State.applyStep s).Inv := by
  unfold State.applyStep
  with_reducible repeat' (first
    | assumption | (extract_lets +onlyGivenNames x; have hx : State.Inv x := ?_; (on_goal 1 => clear_value x); (on_goal 2 => subst x))
    | (extract_lets +onlyGivenNames x; first | (have _ : Book := x; subst x) | (have _ : Terr := x; subst x) | (have _ : Ens := x; subst x) | clear_value x) | apply keep_wr
    | apply keep_refuseStep | apply keep_freePinTimes | apply keep_gridChanged | (refine inv_ite (fun _ => ?_) (fun _ => ?_))
    | fail_if_no_progress (refine inv_mk ?_ rfl rfl rfl rfl rfl rfl rfl rfl rfl))

theorem keep_tick {s : State} (hInv : s.Inv) : (State.tick s).Inv := by
  unfold State.tick
  with_reducible repeat' (first
    | assumption | (extract_lets +onlyGivenNames x; first | (have _ : Book := x; subst x) | (have _ : Terr := x; subst x) | (have _ : Ens := x; subst x) | clear_value x)
    | (refine inv_ite (fun _ => ?_) (fun _ => ?_)) | fail_if_no_progress (refine inv_mk ?_ rfl rfl rfl rfl rfl rfl rfl rfl rfl))

end Sys2Proof.Machine
end

