-- ==== Sys2Proof/Laws/InvTickets.lean ====
section
/-! SUPPORT. Every operation of Machine/Tickets.lean keeps the invariant of the device. -/

set_option maxRecDepth 4000
set_option linter.unusedTactic false
set_option linter.unreachableTactic false

namespace Sys2Proof.Machine

theorem keep_setTicket {s : State} {t : Nat} {k : Option Ticket} (hInv : s.Inv) : (State.setTicket s t k).Inv := by
  unfold State.setTicket
  with_reducible repeat' (first
    | assumption | fail_if_no_progress (refine inv_mk ?_ rfl rfl rfl rfl rfl rfl rfl rfl rfl))

theorem keep_ticketRecord {s : State} {t cue status : Nat} (hInv : s.Inv) : (State.ticketRecord s t cue status).Inv := by
  unfold State.ticketRecord
  with_reducible repeat' (first
    | assumption | apply keep_enqueue | apply keep_sat | (refine inv_ite (fun _ => ?_) (fun _ => ?_)) | (split <;> try (rename_i e; replace e := inv_of_eq e ?_)))

theorem keep_traceItem {s : State} {ty : Nat} {bytes : List Byte} (hInv : s.Inv) : (State.traceItem s ty bytes).Inv := by
  unfold State.traceItem
  with_reducible repeat' (first
    | assumption | (extract_lets +onlyGivenNames x; have hx : State.Inv x := ?_; (on_goal 1 => clear_value x); (on_goal 2 => subst x))
    | (extract_lets +onlyGivenNames x; first | (have _ : Book := x; subst x) | (have _ : Terr := x; subst x) | (have _ : Ens := x; subst x) | clear_value x) | apply keep_irq
    | apply keep_sat | (refine inv_ite (fun _ => ?_) (fun _ => ?_)) | fail_if_no_progress (refine inv_mk ?_ rfl rfl rfl rfl rfl rfl rfl rfl rfl))

theorem keep_ticketStatus {s : State} {t cue status : Nat} (hInv : s.Inv) : (State.ticketStatus s t cue status).Inv := by
  unfold State.ticketStatus
  with_reducible repeat' (first
    | assumption | apply keep_ticketRecord | apply keep_traceItem)

theorem keep_completeNum {s : State} {t : Nat} {k : Ticket} {err : Bool} (hInv : s.Inv) : (State.completeNum s t k err).Inv := by
  unfold State.completeNum
  with_reducible repeat' (first
    | assumption | apply keep_setTicket | apply keep_disarm | apply keep_ticketStatus)

theorem keep_complete {s : State} {r : Option TicketRef} {err : Bool} (hInv : s.Inv) : (State.complete s r err).Inv := by
  unfold State.complete
  with_reducible repeat' (first
    | assumption | apply keep_completeNum | (split <;> try (rename_i e; replace e := inv_of_eq e ?_)))

theorem keep_allocTicket {s : State} {cue due deadline : Nat} {owner : Option Nat} (hInv : s.Inv) : PInv (State.allocTicket s cue due deadline owner) := by
  unfold State.allocTicket
  with_reducible repeat' (first
    | assumption | (extract_lets +onlyGivenNames x; have hx : State.Inv x := ?_; (on_goal 1 => clear_value x); (on_goal 2 => subst x))
    | (extract_lets +onlyGivenNames x; first | (have _ : Book := x; subst x) | (have _ : Terr := x; subst x) | (have _ : Ens := x; subst x) | clear_value x)
    | apply keep_setTicket | apply keep_sat | apply keep_irq | apply keep_postLim | (refine inv_ite (fun _ => ?_) (fun _ => ?_))
    | (split <;> try (rename_i e; replace e := inv_of_eq e ?_)) | fail_if_no_progress (refine inv_mk ?_ rfl rfl rfl rfl rfl rfl rfl rfl rfl)
    | fail_if_no_progress (refine inv_pair ?_))

theorem keep_ticketLate {s : State} {t : Nat} (hInv : s.Inv) : (State.ticketLate s t).Inv := by
  unfold State.ticketLate
  with_reducible repeat' (first
    | assumption | (extract_lets +onlyGivenNames x; have hx : State.Inv x := ?_; (on_goal 1 => clear_value x); (on_goal 2 => subst x)) | apply keep_setTicket | apply keep_sat
    | apply keep_irq | apply keep_post | apply keep_ticketStatus | apply keep_observe | (refine inv_ite (fun _ => ?_) (fun _ => ?_))
    | (split <;> try (rename_i e; replace e := inv_of_eq e ?_)))

theorem keep_reclaim {s : State} {t : Nat} (hInv : s.Inv) : (State.reclaim s t).Inv := by
  unfold State.reclaim
  with_reducible repeat' (first
    | assumption | apply keep_setTicket | apply keep_disarm | apply keep_ticketStatus | (refine inv_ite (fun _ => ?_) (fun _ => ?_))
    | (split <;> try (rename_i e; replace e := inv_of_eq e ?_)))

theorem keep_ageTickets {s : State} (hInv : s.Inv) : (State.ageTickets s).Inv := by
  unfold State.ageTickets
  with_reducible repeat' (first
    | assumption | fail_if_no_progress (refine inv_mk ?_ rfl rfl rfl rfl rfl rfl rfl rfl rfl))

end Sys2Proof.Machine
end

