-- ==== Sys2Proof/Laws/InvEnsembles.lean ====
section
/-! SUPPORT. Every operation of Machine/Ensembles.lean keeps the invariant of the device. -/

set_option maxRecDepth 4000
set_option linter.unusedTactic false
set_option linter.unreachableTactic false

namespace Sys2Proof.Machine

theorem keep_inspectQueue {c : EnsCfg} {e rate q k : Nat} {r : Inspect} {s : State} (hInv : s.Inv) : PInv (State.inspectQueue c e rate q k r s) := by
  induction k generalizing s r with
  | zero => exact hInv
  | succ k ih =>
    unfold State.inspectQueue
    with_reducible repeat' (first
      | assumption | apply ih | apply keep_readEntry | (split <;> try (rename_i e; replace e := inv_of_eq e ?_)) | fail_if_no_progress (refine inv_pair ?_))

theorem keep_ensCount {s : State} {e : Nat} {f : Fld} {n : Nat} (hInv : s.Inv) : (State.ensCount s e f n).Inv := by
  unfold State.ensCount
  with_reducible repeat' (first
    | assumption | apply keep_sat)

theorem keep_gatherMember {s : State} {g : Gather} {k : Nat} {m : Matrix} (hInv : s.Inv) : PInv (State.gatherMember s g k m) := by
  unfold State.gatherMember
  with_reducible repeat' (first
    | assumption | (extract_lets +onlyGivenNames x; have hx : State.Inv x := ?_; (on_goal 1 => clear_value x); (on_goal 2 => subst x))
    | (extract_lets +onlyGivenNames x; first | (have _ : Book := x; subst x) | (have _ : Terr := x; subst x) | (have _ : Ens := x; subst x) | clear_value x)
    | apply keep_inspectQueue | apply keep_releaseEntries | apply keep_ensCount | (refine inv_ite (fun _ => ?_) (fun _ => ?_)) | (refine inv_ite2 (fun _ => ?_) (fun _ => ?_))
    | (split <;> try (rename_i e; replace e := inv_of_eq e ?_)) | fail_if_no_progress (refine inv_mk ?_ rfl rfl rfl rfl rfl rfl rfl rfl rfl)
    | fail_if_no_progress (refine inv_pair ?_))

theorem keep_gatherWrites {s : State} {l : List (Nat × List Byte)} (hInv : s.Inv) : PInv (State.gatherWrites s l) := by
  induction l generalizing s with
  | nil => exact hInv
  | cons p t ih =>
    unfold State.gatherWrites
    with_reducible repeat' (first
      | assumption | apply ih | apply keep_dmaWrite | (split <;> try (rename_i e; replace e := inv_of_eq e ?_)) | fail_if_no_progress (refine inv_pair ?_))

theorem keep_gatherFinish {s : State} {g : Gather} (hInv : s.Inv) : (State.gatherFinish s g).Inv := by
  unfold State.gatherFinish
  extract_lets r m s1 gen a e
  have hr : PInv r := inv_foldl2 hInv (fun x b h => keep_gatherMember (inv_snd h))
  have h1 : s1.Inv := hr
  have h2 := keep_gatherWrites (l := [(a + 64, m.rows), (a, headerBytes g e s1.now m), (a + 0x3C, leBytes 4 (2 ^ 31 + gen))]) h1
  clear_value s1 r
  split
  · exact keep_complete (inv_of_eq ‹_› h2)
  · exact keep_complete (inv_mk (inv_of_eq ‹_› h2) rfl rfl rfl rfl rfl rfl rfl rfl rfl)

theorem keep_addRunning {s : State} {g : Gather} (h : s.Inv) (hl : s.ens.running.length < 4) : (State.addRunning s g).Inv :=
  And.intro h.1 ⟨h.2.1, h.2.2.1, h.2.2.2.1, h.2.2.2.2.1, by rw [State.addRunning, List.length_append]; exact hl⟩

/-- Taking a gather off the list of running ones keeps the invariant. -/
theorem keep_dropRunning {s : State} {g : Gather} (h : s.Inv) : (State.dropRunning s g).Inv :=
  And.intro h.1 ⟨h.2.1, h.2.2.1, h.2.2.2.1, h.2.2.2.2.1, Nat.le_trans List.length_erase_le h.2.2.2.2.2⟩

theorem keep_gatherBegun {g : Gather} {r : Option Nat × State} (h : PInv r) : (State.gatherBegun g r).Inv := by
  unfold State.gatherBegun
  split
  · exact keep_complete (keep_dropRunning h)
  · exact h

theorem keep_gatherBegin {s : State} {g : Gather} (h : s.Inv) (hl : s.ens.running.length < 4) : (State.gatherBegin s g).Inv :=
  keep_gatherBegun (keep_dmaWrite (keep_addRunning h hl))

theorem running_of_gathererFree {s : State} {e : Nat} (h : s.gathererFree e = true) : s.ens.running.length < 4 := by
  unfold State.gathererFree at h
  rw [Bool.and_eq_true, decide_eq_true_eq] at h
  exact h.1

theorem keep_gatherLaunch {s : State} {e : Nat} {t : Option TicketRef} (hInv : s.Inv) : (State.gatherLaunch s e t).Inv := by
  unfold State.gatherLaunch
  extract_lets c g
  refine inv_ite (fun _ => keep_complete hInv) (fun _ => inv_ite (fun hf => keep_gatherBegin hInv ?_) (fun _ => ?_))
  · rw [Bool.and_eq_true] at hf
    exact running_of_gathererFree hf.1
  · exact inv_mk hInv rfl rfl rfl rfl rfl rfl rfl rfl rfl

theorem keep_gatherNext {s : State} (hInv : s.Inv) : (State.gatherNext s).Inv := by
  unfold State.gatherNext
  split
  · rename_i g rest _
    by_cases hf : s.gathererFree g.ens = true
    · rw [if_pos hf]
      extract_lets c q s1
      have h1 : s1.Inv := inv_mk hInv rfl rfl rfl rfl rfl rfl rfl rfl rfl
      exact inv_ite (fun _ => keep_gatherBegin h1 (running_of_gathererFree (s := s) (e := g.ens) hf)) (fun _ => keep_complete h1)
    · rw [if_neg hf]; exact hInv
  · exact hInv

theorem keep_gatherEnd {s : State} {e : Nat} (hInv : s.Inv) : (State.gatherEnd s e).Inv := by
  unfold State.gatherEnd
  split
  · exact keep_gatherFinish (keep_dropRunning hInv)
  · exact hInv

theorem keep_ensFresh {s : State} {e : Nat} (h : s.Inv) : (State.ensFresh s e).Inv :=
  And.intro h.1 ⟨h.2.1, h.2.2.1, h.2.2.2.1, h.2.2.2.2.1, by rw [State.ensFresh, List.length_map]; exact h.2.2.2.2.2⟩

theorem keep_ensApply {s : State} {e : Nat} (h : s.Inv) : (State.ensApply s e).Inv :=
  keep_ensFresh (And.intro ⟨h.1.1, h.1.2.1, canonical_splice (Nat.le_add_right _ _) h.1.2.2.1 h.1.2.1, h.1.2.2.2⟩ h.2)

end Sys2Proof.Machine
end

