-- ==== Sys2Proof/Laws/InvPackers.lean ====
section
/-! SUPPORT. Every operation of Machine/Packers.lean keeps the invariant of the device. -/

set_option maxRecDepth 4000
set_option linter.unusedTactic false
set_option linter.unreachableTactic false

namespace Sys2Proof.Machine

theorem keep_setPacker {s : State} {c : Nat} {p : Packer} (hInv : s.Inv) : (State.setPacker s c p).Inv := by
  unfold State.setPacker
  with_reducible repeat' (first
    | assumption | fail_if_no_progress (refine inv_mk ?_ rfl rfl rfl rfl rfl rfl rfl rfl rfl))

theorem keep_packerLose {s : State} {c n : Nat} (hInv : s.Inv) : (State.packerLose s c n).Inv := by
  unfold State.packerLose
  with_reducible repeat' (first
    | assumption | apply keep_sat | apply keep_setPacker)

theorem keep_packerWords {s : State} {c a k : Nat} {bs : List Byte} (hInv : s.Inv) : (State.packerWords s c a k bs).Inv := by
  induction k generalizing s a bs with
  | zero => exact hInv
  | succ k ih =>
    unfold State.packerWords
    with_reducible repeat' (first
      | assumption | apply ih | apply keep_packerLose | apply keep_unitWrite | (split <;> try (rename_i e; replace e := inv_of_eq e ?_)))

theorem keep_packerSwap {s : State} {c : Nat} {full : Bool} (hInv : s.Inv) : PInv (State.packerSwap s c full) := by
  unfold State.packerSwap
  with_reducible repeat' (first
    | assumption | (extract_lets +onlyGivenNames x; have hx : State.Inv x := ?_; (on_goal 1 => clear_value x); (on_goal 2 => subst x))
    | (extract_lets +onlyGivenNames x; first | (have _ : Book := x; subst x) | (have _ : Terr := x; subst x) | (have _ : Ens := x; subst x) | clear_value x) | apply keep_sat
    | apply keep_packerWords | apply keep_enqueue | apply keep_setPacker | (refine inv_ite (fun _ => ?_) (fun _ => ?_)) | (refine inv_ite2 (fun _ => ?_) (fun _ => ?_))
    | (split <;> try (rename_i e; replace e := inv_of_eq e ?_)) | fail_if_no_progress (refine inv_pair ?_))

theorem keep_packerPut {s : State} {c : Nat} {bs : List Byte} (hInv : s.Inv) : (State.packerPut s c bs).Inv := by
  unfold State.packerPut
  with_reducible repeat' (first
    | assumption | (extract_lets +onlyGivenNames x; have hx : State.Inv x := ?_; (on_goal 1 => clear_value x); (on_goal 2 => subst x))
    | (extract_lets +onlyGivenNames x; first | (have _ : Book := x; subst x) | (have _ : Terr := x; subst x) | (have _ : Ens := x; subst x) | clear_value x)
    | apply keep_packerWords | apply keep_setPacker | apply keep_packerSwap | (refine inv_ite (fun _ => ?_) (fun _ => ?_))
    | (split <;> try (rename_i e; replace e := inv_of_eq e ?_)))

theorem keep_packerAppend {s : State} {c : Nat} {bs : List Byte} (hInv : s.Inv) : (State.packerAppend s c bs).Inv := by
  unfold State.packerAppend
  with_reducible repeat' (first
    | assumption | (extract_lets +onlyGivenNames x; first | (have _ : Book := x; subst x) | (have _ : Terr := x; subst x) | (have _ : Ens := x; subst x) | clear_value x)
    | apply keep_packerPut | apply keep_packerLose | apply keep_packerSwap | (refine inv_ite (fun _ => ?_) (fun _ => ?_))
    | (split <;> try (rename_i e; replace e := inv_of_eq e ?_)))

theorem keep_packerReturn {s : State} {c b : Nat} (hInv : s.Inv) : (State.packerReturn s c b).Inv := by
  unfold State.packerReturn
  with_reducible repeat' (first
    | assumption | (extract_lets +onlyGivenNames x; have hx : State.Inv x := ?_; (on_goal 1 => clear_value x); (on_goal 2 => subst x))
    | (extract_lets +onlyGivenNames x; first | (have _ : Book := x; subst x) | (have _ : Terr := x; subst x) | (have _ : Ens := x; subst x) | clear_value x)
    | refine inv_snd ?_ | apply keep_sat | apply keep_setPacker | apply keep_packerSwap | (refine inv_ite (fun _ => ?_) (fun _ => ?_)))

theorem keep_packerCue {s : State} {c : Nat} {t : Option TicketRef} (hInv : s.Inv) : (State.packerCue s c t).Inv := by
  unfold State.packerCue
  with_reducible repeat' (first
    | assumption | refine inv_snd ?_ | apply keep_complete | apply keep_packerSwap | (refine inv_ite (fun _ => ?_) (fun _ => ?_)))

theorem keep_packerCommit {s : State} {c : Nat} {cfg base : Word} (hInv : s.Inv) : (State.packerCommit s c cfg base).Inv := by
  unfold State.packerCommit
  with_reducible repeat' (first
    | assumption | (extract_lets +onlyGivenNames x; have hx : State.Inv x := ?_; (on_goal 1 => clear_value x); (on_goal 2 => subst x))
    | (extract_lets +onlyGivenNames x; first | (have _ : Book := x; subst x) | (have _ : Terr := x; subst x) | (have _ : Ens := x; subst x) | clear_value x)
    | apply keep_packerSwap | apply keep_sat | apply keep_setLive | apply keep_setPacker | (refine inv_ite (fun _ => ?_) (fun _ => ?_))
    | (split <;> try (rename_i e; replace e := inv_of_eq e ?_)))

end Sys2Proof.Machine
end

