-- ==== Sys2Proof/Laws/InvPins.lean ====
section
/-! SUPPORT. Every operation of Machine/Pins.lean keeps the invariant of the device. -/

set_option maxRecDepth 4000
set_option linter.unusedTactic false
set_option linter.unreachableTactic false

namespace Sys2Proof.Machine

theorem keep_setPin {s : State} {p : Nat} {x : PinSt} (hInv : s.Inv) : (State.setPin s p x).Inv := by
  unfold State.setPin
  with_reducible repeat' (first
    | assumption | fail_if_no_progress (refine inv_mk ?_ rfl rfl rfl rfl rfl rfl rfl rfl rfl))

theorem keep_pinIrq {s : State} {f : Fld} {g : Nat} (hInv : s.Inv) : (State.pinIrq s f g).Inv := by
  unfold State.pinIrq
  with_reducible repeat' (first
    | assumption | apply keep_wr | apply keep_irq)

theorem keep_pinEvent {s : State} {p kind frac st : Nat} (hInv : s.Inv) : (State.pinEvent s p kind frac st).Inv := by
  unfold State.pinEvent
  with_reducible repeat' (first
    | assumption | (extract_lets +onlyGivenNames x; first | (have _ : Book := x; subst x) | (have _ : Terr := x; subst x) | (have _ : Ens := x; subst x) | clear_value x)
    | apply keep_packerAppend | apply keep_sat | (refine inv_ite (fun _ => ?_) (fun _ => ?_)))

theorem keep_acceptEdge {s : State} {p st frac : Nat} (hInv : s.Inv) : (State.acceptEdge s p st frac).Inv := by
  unfold State.acceptEdge
  with_reducible repeat' (first
    | assumption | (extract_lets +onlyGivenNames x; have hx : State.Inv x := ?_; (on_goal 1 => clear_value x); (on_goal 2 => subst x))
    | (extract_lets +onlyGivenNames x; first | (have _ : Book := x; subst x) | (have _ : Terr := x; subst x) | (have _ : Ens := x; subst x) | clear_value x)
    | apply keep_setPin | apply keep_disarm | apply keep_pinIrq | apply keep_pinEvent | apply keep_setReg | apply keep_next | (refine inv_ite (fun _ => ?_) (fun _ => ?_)))

theorem keep_inputChange {s : State} {p frac : Nat} (hInv : s.Inv) : (State.inputChange s p frac).Inv := by
  unfold State.inputChange
  with_reducible repeat' (first
    | assumption | (extract_lets +onlyGivenNames x; first | (have _ : Book := x; subst x) | (have _ : Terr := x; subst x) | (have _ : Ens := x; subst x) | clear_value x)
    | apply keep_setPin | apply keep_disarm | apply keep_acceptEdge | apply keep_arm | (refine inv_ite (fun _ => ?_) (fun _ => ?_)))

theorem keep_filterDone {s : State} {p : Nat} (hInv : s.Inv) : (State.filterDone s p).Inv := by
  unfold State.filterDone
  with_reducible repeat' (first
    | assumption | apply keep_acceptEdge | (refine inv_ite (fun _ => ?_) (fun _ => ?_)) | (split <;> try (rename_i e; replace e := inv_of_eq e ?_)))

theorem keep_showRb {s : State} {k : Nat} (hInv : s.Inv) : (State.showRb s k).Inv := by
  unfold State.showRb
  with_reducible repeat' (first
    | assumption | (extract_lets +onlyGivenNames x; first | (have _ : Book := x; subst x) | (have _ : Terr := x; subst x) | (have _ : Ens := x; subst x) | clear_value x)
    | apply keep_setReg)

theorem keep_rbCheck {s : State} {p : Nat} (hInv : s.Inv) : (State.rbCheck s p).Inv := by
  unfold State.rbCheck
  extract_lets x off
  have hoff : (off s).Inv := keep_showRb (keep_disarm (keep_setPin hInv))
  clear_value x off
  split
  · exact hInv
  · refine inv_ite (fun _ => hoff) (fun _ => inv_ite (fun _ => hoff) (fun _ => inv_ite (fun _ => hInv) (fun _ => ?_)))
    exact inv_mk (keep_setPin hInv) rfl rfl rfl rfl rfl rfl rfl rfl rfl

theorem keep_rbMismatch {s : State} {p : Nat} (hInv : s.Inv) : (State.rbMismatch s p).Inv := by
  unfold State.rbMismatch
  with_reducible repeat' (first
    | assumption | (extract_lets +onlyGivenNames x; have hx : State.Inv x := ?_; (on_goal 1 => clear_value x); (on_goal 2 => subst x))
    | (extract_lets +onlyGivenNames x; first | (have _ : Book := x; subst x) | (have _ : Terr := x; subst x) | (have _ : Ens := x; subst x) | clear_value x)
    | apply keep_setPin | apply keep_showRb | apply keep_pinEvent | apply keep_pinIrq | apply keep_postU | (refine inv_ite (fun _ => ?_) (fun _ => ?_))
    | (split <;> try (rename_i e; replace e := inv_of_eq e ?_)))

theorem keep_refreshPinAt {s : State} {frac p : Nat} (hInv : s.Inv) : (State.refreshPinAt s frac p).Inv := by
  unfold State.refreshPinAt
  with_reducible repeat' (first
    | assumption | (extract_lets +onlyGivenNames x; have hx : State.Inv x := ?_; (on_goal 1 => clear_value x); (on_goal 2 => subst x))
    | (extract_lets +onlyGivenNames x; first | (have _ : Book := x; subst x) | (have _ : Terr := x; subst x) | (have _ : Ens := x; subst x) | clear_value x)
    | apply keep_setReg | apply keep_inputChange | apply keep_setPin | apply keep_rbCheck | (refine inv_ite (fun _ => ?_) (fun _ => ?_)))

theorem keep_refreshPin {s : State} {p : Nat} (hInv : s.Inv) : (State.refreshPin s p).Inv := by
  unfold State.refreshPin
  with_reducible repeat' (first
    | assumption | apply keep_refreshPinAt)

theorem keep_refreshGroup {s : State} {g : Nat} (hInv : s.Inv) : (State.refreshGroup s g).Inv := by
  unfold State.refreshGroup
  with_reducible repeat' (first
    | assumption | apply keep_refreshPin | (refine inv_foldl ?_ (fun _ _ _ => ?_)))

theorem keep_refreshPins {s : State} (hInv : s.Inv) : (State.refreshPins s).Inv := by
  unfold State.refreshPins
  with_reducible repeat' (first
    | assumption | apply keep_refreshPin | (refine inv_foldl ?_ (fun _ _ _ => ?_)))

theorem keep_pinExternal {s : State} {p : Nat} {level : Option Bool} {frac : Nat} (hInv : s.Inv) : (State.pinExternal s p level frac).Inv := by
  unfold State.pinExternal
  with_reducible repeat' (first
    | assumption | apply keep_setPin | apply keep_refreshPinAt)

theorem keep_setHeld {s : State} {h : Bool} (hInv : s.Inv) : (State.setHeld s h).Inv := by
  unfold State.setHeld
  with_reducible repeat' (first
    | assumption | (extract_lets +onlyGivenNames x; have hx : State.Inv x := ?_; (on_goal 1 => clear_value x); (on_goal 2 => subst x))
    | (extract_lets +onlyGivenNames x; first | (have _ : Book := x; subst x) | (have _ : Terr := x; subst x) | (have _ : Ens := x; subst x) | clear_value x)
    | apply keep_setPin | apply keep_refreshPins | (refine inv_foldl ?_ (fun _ _ _ => ?_)) | (refine inv_ite (fun _ => ?_) (fun _ => ?_))
    | fail_if_no_progress (refine inv_mk ?_ rfl rfl rfl rfl rfl rfl rfl rfl rfl))

theorem keep_setCmd {s : State} {p : Nat} {l : Bool} (hInv : s.Inv) : (State.setCmd s p l).Inv := by
  unfold State.setCmd
  with_reducible repeat' (first
    | assumption | (extract_lets +onlyGivenNames x; first | (have _ : Book := x; subst x) | (have _ : Terr := x; subst x) | (have _ : Ens := x; subst x) | clear_value x)
    | apply keep_setPin | apply keep_disarm | (refine inv_ite (fun _ => ?_) (fun _ => ?_)))

theorem keep_command {s : State} {p : Nat} {l : Bool} (hInv : s.Inv) : (State.command s p l).Inv := by
  unfold State.command
  with_reducible repeat' (first
    | assumption | (extract_lets +onlyGivenNames x; have hx : State.Inv x := ?_; (on_goal 1 => clear_value x); (on_goal 2 => subst x)) | apply keep_setCmd
    | apply keep_refreshPin | apply keep_showRb | (refine inv_ite (fun _ => ?_) (fun _ => ?_)))

theorem keep_pinSet {s : State} {p op w : Nat} (hInv : s.Inv) : (State.pinSet s p op w).Inv := by
  unfold State.pinSet
  with_reducible repeat' (first
    | assumption | apply keep_command | apply keep_arm | apply keep_disarm | (refine inv_ite (fun _ => ?_) (fun _ => ?_)))

theorem keep_pinCueEffect {s : State} {c : PinCue} (hInv : s.Inv) : (State.pinCueEffect s c).Inv := by
  unfold State.pinCueEffect
  extract_lets q s1 s2
  have h1 : s1.Inv := inv_mk hInv rfl rfl rfl rfl rfl rfl rfl rfl rfl
  have h2 : s2.Inv := keep_wr h1
  exact inv_ite (fun _ => keep_complete (keep_pinSet h2)) (fun _ => keep_complete (keep_pinIrq (keep_sat h2)))

theorem keep_pulseEnd {s : State} {p : Nat} (hInv : s.Inv) : (State.pulseEnd s p).Inv := by
  unfold State.pulseEnd
  with_reducible repeat' (first
    | assumption | apply keep_command | (refine inv_ite (fun _ => ?_) (fun _ => ?_)))

theorem keep_tripPin {s : State} {p : Nat} {l : Bool} (hInv : s.Inv) : (State.tripPin s p l).Inv := by
  unfold State.tripPin
  with_reducible repeat' (first
    | assumption | apply keep_command | apply keep_pinEvent | (refine inv_ite (fun _ => ?_) (fun _ => ?_)))

theorem keep_tripCommit {s : State} {g : Nat} {word : Word} (hInv : s.Inv) : (State.tripCommit s g word).Inv := by
  unfold State.tripCommit
  with_reducible repeat' (first
    | assumption | (extract_lets +onlyGivenNames x; first | (have _ : Book := x; subst x) | (have _ : Terr := x; subst x) | (have _ : Ens := x; subst x) | clear_value x)
    | apply keep_tripPin | (refine inv_foldl ?_ (fun _ _ _ => ?_)) | (refine inv_ite (fun _ => ?_) (fun _ => ?_)))

theorem keep_supplyChange {s : State} {g : Nat} {ok : Bool} (hInv : s.Inv) : (State.supplyChange s g ok).Inv := by
  unfold State.supplyChange
  with_reducible repeat' (first
    | assumption | (extract_lets +onlyGivenNames x; have hx : State.Inv x := ?_; (on_goal 1 => clear_value x); (on_goal 2 => subst x))
    | (extract_lets +onlyGivenNames x; first | (have _ : Book := x; subst x) | (have _ : Terr := x; subst x) | (have _ : Ens := x; subst x) | clear_value x) | apply keep_wr
    | apply keep_pinIrq | apply keep_postU | apply keep_arm | apply keep_disarm | apply keep_inputChange | apply keep_refreshGroup | (refine inv_foldl ?_ (fun _ _ _ => ?_))
    | (refine inv_ite (fun _ => ?_) (fun _ => ?_)) | fail_if_no_progress (refine inv_mk ?_ rfl rfl rfl rfl rfl rfl rfl rfl rfl))

theorem keep_checkSupply {s : State} {g : Nat} (hInv : s.Inv) : (State.checkSupply s g).Inv := by
  unfold State.checkSupply
  with_reducible repeat' (first
    | assumption | apply keep_supplyChange | (refine inv_ite (fun _ => ?_) (fun _ => ?_)))

theorem keep_supplyDrive {s : State} {g : Nat} (hInv : s.Inv) : (State.supplyDrive s g).Inv := by
  unfold State.supplyDrive
  with_reducible repeat' (first
    | assumption | apply keep_refreshGroup | fail_if_no_progress (refine inv_mk ?_ rfl rfl rfl rfl rfl rfl rfl rfl rfl))

theorem keep_pinsFirst {s : State} (hInv : s.Inv) : (State.pinsFirst s).Inv := by
  unfold State.pinsFirst
  with_reducible repeat' (first
    | assumption | (extract_lets +onlyGivenNames x; have hx : State.Inv x := ?_; (on_goal 1 => clear_value x); (on_goal 2 => subst x))
    | (extract_lets +onlyGivenNames x; first | (have _ : Book := x; subst x) | (have _ : Terr := x; subst x) | (have _ : Ens := x; subst x) | clear_value x)
    | apply keep_setPin | apply keep_wr | apply keep_pinIrq | apply keep_postU | (refine inv_foldl ?_ (fun _ _ _ => ?_)) | (refine inv_ite (fun _ => ?_) (fun _ => ?_))
    | fail_if_no_progress (refine inv_mk ?_ rfl rfl rfl rfl rfl rfl rfl rfl rfl))

theorem keep_pinsApplied {s : State} {old : List (Nat × Word)} (hInv : s.Inv) : (State.pinsApplied s old).Inv := by
  unfold State.pinsApplied
  with_reducible repeat' (first
    | assumption | (extract_lets +onlyGivenNames x; have hx : State.Inv x := ?_; (on_goal 1 => clear_value x); (on_goal 2 => subst x))
    | (extract_lets +onlyGivenNames x; first | (have _ : Book := x; subst x) | (have _ : Terr := x; subst x) | (have _ : Ens := x; subst x) | clear_value x)
    | apply keep_pinsFirst | apply keep_setPin | apply keep_disarm | apply keep_showRb | apply keep_checkSupply | apply keep_refreshPins
    | (refine inv_foldl ?_ (fun _ _ _ => ?_)) | (refine inv_ite (fun _ => ?_) (fun _ => ?_)))

theorem keep_ppsCommand {s : State} {l : Bool} (hInv : s.Inv) : (State.ppsCommand s l).Inv := by
  unfold State.ppsCommand
  with_reducible repeat' (first
    | assumption | apply keep_command | (refine inv_foldl ?_ (fun _ _ _ => ?_)) | (refine inv_ite (fun _ => ?_) (fun _ => ?_)))

theorem keep_ppsRise {s : State} (hInv : s.Inv) : (State.ppsRise s).Inv := by
  unfold State.ppsRise
  with_reducible repeat' (first
    | assumption | (extract_lets +onlyGivenNames x; have hx : State.Inv x := ?_; (on_goal 1 => clear_value x); (on_goal 2 => subst x))
    | (extract_lets +onlyGivenNames x; first | (have _ : Book := x; subst x) | (have _ : Terr := x; subst x) | (have _ : Ens := x; subst x) | clear_value x)
    | apply keep_reachST | apply keep_ppsCommand | apply keep_arm | (refine inv_ite (fun _ => ?_) (fun _ => ?_))
    | fail_if_no_progress (refine inv_mk ?_ rfl rfl rfl rfl rfl rfl rfl rfl rfl))

theorem keep_ppsFall {s : State} (hInv : s.Inv) : (State.ppsFall s).Inv := by
  unfold State.ppsFall
  with_reducible repeat' (first
    | assumption | apply keep_ppsCommand)

theorem keep_irigBad {s : State} {p : Nat} (hInv : s.Inv) : (State.irigBad s p).Inv := by
  unfold State.irigBad
  with_reducible repeat' (first
    | assumption | (extract_lets +onlyGivenNames x; have hx : State.Inv x := ?_; (on_goal 1 => clear_value x); (on_goal 2 => subst x))
    | (extract_lets +onlyGivenNames x; first | (have _ : Book := x; subst x) | (have _ : Terr := x; subst x) | (have _ : Ens := x; subst x) | clear_value x) | apply keep_sat
    | apply keep_wr | apply keep_pinIrq | apply keep_postLimU | fail_if_no_progress (refine inv_mk ?_ rfl rfl rfl rfl rfl rfl rfl rfl rfl))

theorem keep_irigGoodFrame {s : State} {mark : Nat} {t : Int} (hInv : s.Inv) : (State.irigGoodFrame s mark t).Inv := by
  unfold State.irigGoodFrame
  with_reducible repeat' (first
    | assumption | (extract_lets +onlyGivenNames x; have hx : State.Inv x := ?_; (on_goal 1 => clear_value x); (on_goal 2 => subst x))
    | (extract_lets +onlyGivenNames x; first | (have _ : Book := x; subst x) | (have _ : Terr := x; subst x) | (have _ : Ens := x; subst x) | clear_value x) | apply keep_wrap
    | apply keep_wr | apply keep_irigMark | apply keep_deliverSample | (refine inv_ite (fun _ => ?_) (fun _ => ?_))
    | fail_if_no_progress (refine inv_mk ?_ rfl rfl rfl rfl rfl rfl rfl rfl rfl))

theorem keep_irigFrame {s : State} {highs : List Nat} {mark : Nat} (hInv : s.Inv) : (State.irigFrame s highs mark).Inv := by
  unfold State.irigFrame
  with_reducible repeat' (first
    | assumption | apply keep_irigBad | apply keep_irigGoodFrame | (refine inv_ite (fun _ => ?_) (fun _ => ?_)) | (split <;> try (rename_i e; replace e := inv_of_eq e ?_)))

end Sys2Proof.Machine
end

