-- ==== Sys2Proof/Laws/InvCueTable.lean ====
section
/-! SUPPORT. Every operation of Machine/CueTable.lean keeps the invariant of the device. -/

set_option maxRecDepth 4000
set_option linter.unusedTactic false
set_option linter.unreachableTactic false

namespace Sys2Proof.Machine

theorem keep_setCueWord {s : State} {i k : Nat} {w : Word} (hInv : s.Inv) : (State.setCueWord s i k w).Inv := by
  unfold State.setCueWord
  with_reducible repeat' (first
    | assumption | fail_if_no_progress (refine inv_mk ?_ rfl rfl rfl rfl rfl rfl rfl rfl rfl))

theorem keep_cueEditRefuse {s : State} {reason : Nat} (hInv : s.Inv) : (State.cueEditRefuse s reason).Inv := by
  unfold State.cueEditRefuse
  with_reducible repeat' (first
    | assumption | apply keep_wr | apply keep_sat)

theorem keep_cuePush {s : State} {i : Nat} {ws : List Word} (hInv : s.Inv) : (State.cuePush s i ws).Inv := by
  unfold State.cuePush
  with_reducible repeat' (first
    | assumption | (extract_lets +onlyGivenNames x; have hx : State.Inv x := ?_; (on_goal 1 => clear_value x); (on_goal 2 => subst x))
    | (extract_lets +onlyGivenNames x; first | (have _ : Book := x; subst x) | (have _ : Terr := x; subst x) | (have _ : Ens := x; subst x) | clear_value x)
    | apply keep_cueEditRefuse | apply keep_wr | (refine inv_ite (fun _ => ?_) (fun _ => ?_)) | fail_if_no_progress (refine inv_mk ?_ rfl rfl rfl rfl rfl rfl rfl rfl rfl))

theorem keep_cueEditWrite {s : State} {w : Word} (hInv : s.Inv) : (State.cueEditWrite s w).Inv := by
  unfold State.cueEditWrite
  with_reducible repeat' (first
    | assumption | apply keep_cuePush | (refine inv_ite (fun _ => ?_) (fun _ => ?_)))

theorem keep_cueMerged {s : State} (hInv : s.Inv) : (State.cueMerged s).Inv := by
  unfold State.cueMerged
  with_reducible repeat' (first
    | assumption | apply keep_setCueWord | (refine inv_foldl ?_ (fun _ _ _ => ?_)))

theorem keep_dropWaiting {s : State} {i : Nat} (hInv : s.Inv) : (State.dropWaiting s i).Inv := by
  unfold State.dropWaiting
  with_reducible repeat' (first
    | assumption | fail_if_no_progress (refine inv_mk ?_ rfl rfl rfl rfl rfl rfl rfl rfl rfl))

theorem keep_cueApply {s : State} (hInv : s.Inv) : (State.cueApply s).Inv := by
  unfold State.cueApply
  with_reducible repeat' (first
    | assumption | (extract_lets +onlyGivenNames x; have hx : State.Inv x := ?_; (on_goal 1 => clear_value x); (on_goal 2 => subst x))
    | (extract_lets +onlyGivenNames x; first | (have _ : Book := x; subst x) | (have _ : Terr := x; subst x) | (have _ : Ens := x; subst x) | clear_value x)
    | apply keep_dropWaiting | apply keep_cueMerged | apply keep_wr | apply keep_irq | (refine inv_foldl ?_ (fun _ _ _ => ?_))
    | fail_if_no_progress (refine inv_mk ?_ rfl rfl rfl rfl rfl rfl rfl rfl rfl))

theorem keep_loadAdvance {s : State} (hInv : s.Inv) : (State.loadAdvance s).Inv := by
  unfold State.loadAdvance
  with_reducible repeat' (first
    | assumption | (extract_lets +onlyGivenNames x; have hx : State.Inv x := ?_; (on_goal 1 => clear_value x); (on_goal 2 => subst x))
    | (extract_lets +onlyGivenNames x; first | (have _ : Book := x; subst x) | (have _ : Terr := x; subst x) | (have _ : Ens := x; subst x) | clear_value x) | apply keep_wr
    | apply keep_wrap | (refine inv_ite (fun _ => ?_) (fun _ => ?_)))

theorem keep_refuseLive {s : State} {base m : Nat} (hInv : s.Inv) : (State.refuseLive s base m).Inv := by
  unfold State.refuseLive
  with_reducible repeat' (first
    | assumption | apply keep_sat | apply keep_postLim)

theorem keep_cueLoadWrite {s : State} {m : Nat} {w : Word} (hInv : s.Inv) : (State.cueLoadWrite s m w).Inv := by
  unfold State.cueLoadWrite
  with_reducible repeat' (first
    | assumption | apply keep_refuseLive | apply keep_dropWaiting | apply keep_setCueWord | apply keep_loadAdvance | (refine inv_ite (fun _ => ?_) (fun _ => ?_)))

theorem keep_cueLoadRead {s : State} (hInv : s.Inv) : PInv (State.cueLoadRead s) := by
  unfold State.cueLoadRead
  with_reducible repeat' (first
    | assumption | apply keep_loadAdvance | fail_if_no_progress (refine inv_pair ?_))

theorem keep_cueCtrlWrite {s : State} {w : Word} (hInv : s.Inv) : (State.cueCtrlWrite s w).Inv := by
  unfold State.cueCtrlWrite
  with_reducible repeat' (first
    | assumption | (extract_lets +onlyGivenNames x; have hx : State.Inv x := ?_; (on_goal 1 => clear_value x); (on_goal 2 => subst x))
    | (extract_lets +onlyGivenNames x; first | (have _ : Book := x; subst x) | (have _ : Terr := x; subst x) | (have _ : Ens := x; subst x) | clear_value x)
    | apply keep_setReg | apply keep_wr | (refine inv_ite (fun _ => ?_) (fun _ => ?_)) | fail_if_no_progress (refine inv_mk ?_ rfl rfl rfl rfl rfl rfl rfl rfl rfl))

theorem keep_ticketDoneWrite {s : State} {m : Nat} {w : Word} (hInv : s.Inv) : (State.ticketDoneWrite s m w).Inv := by
  unfold State.ticketDoneWrite
  with_reducible repeat' (first
    | assumption | (extract_lets +onlyGivenNames x; first | (have _ : Book := x; subst x) | (have _ : Terr := x; subst x) | (have _ : Ens := x; subst x) | clear_value x)
    | apply keep_sat | apply keep_completeNum | (refine inv_ite (fun _ => ?_) (fun _ => ?_)) | (split <;> try (rename_i e; replace e := inv_of_eq e ?_)))

end Sys2Proof.Machine
end

