-- ==== Sys2Proof/Laws/InvSwitchTables.lean ====
section
/-! SUPPORT. Every operation of Machine/SwitchTables.lean keeps the invariant of the device. -/

set_option maxRecDepth 4000
set_option linter.unusedTactic false
set_option linter.unreachableTactic false

namespace Sys2Proof.Machine

theorem keep_swRefuse {s : State} {r : Nat} (hInv : s.Inv) : (State.swRefuse s r).Inv := by
  unfold State.swRefuse
  with_reducible repeat' (first
    | assumption | apply keep_wr | apply keep_sat)

theorem keep_swEditWrite {s : State} {w : Word} (hInv : s.Inv) : (State.swEditWrite s w).Inv := by
  unfold State.swEditWrite
  with_reducible repeat' (first
    | assumption | (extract_lets +onlyGivenNames x; have hx : State.Inv x := ?_; (on_goal 1 => clear_value x); (on_goal 2 => subst x))
    | (extract_lets +onlyGivenNames x; first | (have _ : Book := x; subst x) | (have _ : Terr := x; subst x) | (have _ : Ens := x; subst x) | clear_value x)
    | apply keep_swRefuse | apply keep_wr | (refine inv_ite (fun _ => ?_) (fun _ => ?_)) | fail_if_no_progress (refine inv_mk ?_ rfl rfl rfl rfl rfl rfl rfl rfl rfl))

theorem keep_swApply {s : State} (hInv : s.Inv) : (State.swApply s).Inv := by
  unfold State.swApply
  with_reducible repeat' (first
    | assumption | (extract_lets +onlyGivenNames x; first | (have _ : Book := x; subst x) | (have _ : Terr := x; subst x) | (have _ : Ens := x; subst x) | clear_value x)
    | apply keep_irq | apply keep_wr | fail_if_no_progress (refine inv_mk ?_ rfl rfl rfl rfl rfl rfl rfl rfl rfl))

theorem keep_setStreamKey {s : State} {i : Nat} {k : StreamKey} (hInv : s.Inv) : (State.setStreamKey s i k).Inv := by
  unfold State.setStreamKey
  with_reducible repeat' (first
    | assumption | fail_if_no_progress (refine inv_mk ?_ rfl rfl rfl rfl rfl rfl rfl rfl rfl))

theorem keep_solRefuse {s : State} {r : Nat} (hInv : s.Inv) : (State.solRefuse s r).Inv := by
  unfold State.solRefuse
  with_reducible repeat' (first
    | assumption | apply keep_wr | apply keep_sat)

theorem keep_wipeStagedKey {s : State} (hInv : s.Inv) : (State.wipeStagedKey s).Inv := by
  unfold State.wipeStagedKey
  with_reducible repeat' (first
    | assumption | apply keep_setReg | (refine inv_foldl ?_ (fun _ _ _ => ?_)))

theorem keep_solPush {s : State} {w : Word} (hInv : s.Inv) : (State.solPush s w).Inv := by
  unfold State.solPush
  with_reducible repeat' (first
    | assumption | (extract_lets +onlyGivenNames x; have hx : State.Inv x := ?_; (on_goal 1 => clear_value x); (on_goal 2 => subst x))
    | (extract_lets +onlyGivenNames x; first | (have _ : Book := x; subst x) | (have _ : Terr := x; subst x) | (have _ : Ens := x; subst x) | clear_value x)
    | apply keep_solRefuse | apply keep_wr | apply keep_wipeStagedKey | (refine inv_ite (fun _ => ?_) (fun _ => ?_))
    | fail_if_no_progress (refine inv_mk ?_ rfl rfl rfl rfl rfl rfl rfl rfl rfl))

theorem keep_solApplyOne {s : State} {i : Nat} {p : KeyPush} (hInv : s.Inv) : (State.solApplyOne s i p).Inv := by
  unfold State.solApplyOne
  with_reducible repeat' (first
    | assumption | (extract_lets +onlyGivenNames x; have hx : State.Inv x := ?_; (on_goal 1 => clear_value x); (on_goal 2 => subst x))
    | (extract_lets +onlyGivenNames x; first | (have _ : Book := x; subst x) | (have _ : Terr := x; subst x) | (have _ : Ens := x; subst x) | clear_value x)
    | apply keep_setStreamKey | apply keep_post | (refine inv_ite (fun _ => ?_) (fun _ => ?_)))

theorem keep_solApply {s : State} (hInv : s.Inv) : (State.solApply s).Inv := by
  unfold State.solApply
  with_reducible repeat' (first
    | assumption | (extract_lets +onlyGivenNames x; have hx : State.Inv x := ?_; (on_goal 1 => clear_value x); (on_goal 2 => subst x))
    | (extract_lets +onlyGivenNames x; first | (have _ : Book := x; subst x) | (have _ : Terr := x; subst x) | (have _ : Ens := x; subst x) | clear_value x)
    | apply keep_solApplyOne | apply keep_wr | (refine inv_foldl ?_ (fun _ _ _ => ?_)) | fail_if_no_progress (refine inv_mk ?_ rfl rfl rfl rfl rfl rfl rfl rfl rfl))

theorem keep_keyChanged {s : State} {i : Nat} {n : Nat} (hInv : s.Inv) : (State.keyChanged s i n).Inv := by
  unfold State.keyChanged
  with_reducible repeat' (first
    | assumption | apply keep_irq | apply keep_post)

theorem keep_keyBoundary {s : State} {n : Nat} (hInv : s.Inv) : (State.keyBoundary s n).Inv := by
  unfold State.keyBoundary
  with_reducible repeat' (first
    | assumption | (extract_lets +onlyGivenNames x; have hx : State.Inv x := ?_; (on_goal 1 => clear_value x); (on_goal 2 => subst x))
    | (extract_lets +onlyGivenNames x; first | (have _ : Book := x; subst x) | (have _ : Terr := x; subst x) | (have _ : Ens := x; subst x) | clear_value x)
    | apply keep_setStreamKey | apply keep_keyChanged | (refine inv_foldl ?_ (fun _ _ _ => ?_)) | (refine inv_ite (fun _ => ?_) (fun _ => ?_)))

end Sys2Proof.Machine
end

