-- ==== Sys2Proof/Laws/InvPorts.lean ====
section
/-! SUPPORT. Every operation of Machine/Ports.lean keeps the invariant of the device. -/

set_option maxRecDepth 4000
set_option linter.unusedTactic false
set_option linter.unreachableTactic false

namespace Sys2Proof.Machine

theorem keep_setPort {s : State} {n : Nat} {p : Port} (hInv : s.Inv) : (State.setPort s n p).Inv := by
  unfold State.setPort
  with_reducible repeat' (first
    | assumption | fail_if_no_progress (refine inv_mk ?_ rfl rfl rfl rfl rfl rfl rfl rfl rfl))

theorem keep_postDrop {s : State} {key code sev src stream : Nat} (hInv : s.Inv) : (State.postDrop s key code sev src stream).Inv := by
  unfold State.postDrop
  with_reducible repeat' (first
    | assumption | apply keep_sat | apply keep_postRec | apply keep_post | (refine inv_ite (fun _ => ?_) (fun _ => ?_))
    | (split <;> try (rename_i e; replace e := inv_of_eq e ?_)) | fail_if_no_progress (refine inv_mk ?_ rfl rfl rfl rfl rfl rfl rfl rfl rfl))

theorem keep_rxDrop {s : State} {n r stream : Nat} (hInv : s.Inv) : (State.rxDrop s n r stream).Inv := by
  unfold State.rxDrop
  with_reducible repeat' (first
    | assumption | (extract_lets +onlyGivenNames x; have hx : State.Inv x := ?_; (on_goal 1 => clear_value x); (on_goal 2 => subst x)) | apply keep_satCnt | apply keep_irq
    | apply keep_observe | apply keep_postDrop | (refine inv_ite (fun _ => ?_) (fun _ => ?_)) | (split <;> try (rename_i e; replace e := inv_of_eq e ?_)))

theorem keep_txDrop {s : State} {n r : Nat} (hInv : s.Inv) : (State.txDrop s n r).Inv := by
  unfold State.txDrop
  with_reducible repeat' (first
    | assumption | (extract_lets +onlyGivenNames x; have hx : State.Inv x := ?_; (on_goal 1 => clear_value x); (on_goal 2 => subst x)) | apply keep_satCnt | apply keep_irq
    | (refine inv_ite (fun _ => ?_) (fun _ => ?_)))

theorem keep_snapAll {s : State} {l : List Nat} (hInv : s.Inv) : (State.snapAll s l).Inv := by
  unfold State.snapAll
  with_reducible repeat' (first
    | assumption | apply keep_setReg | (refine inv_foldl ?_ (fun _ _ _ => ?_)))

theorem keep_clearAll {s : State} {l : List Nat} (hInv : s.Inv) : (State.clearAll s l).Inv := by
  unfold State.clearAll
  with_reducible repeat' (first
    | assumption | apply keep_setCnt | (refine inv_foldl ?_ (fun _ _ _ => ?_)))

theorem keep_portCntWrite {s : State} {n : Nat} {w : Word} (hInv : s.Inv) : (State.portCntWrite s n w).Inv := by
  unfold State.portCntWrite
  with_reducible repeat' (first
    | assumption | (extract_lets +onlyGivenNames x; have hx : State.Inv x := ?_; (on_goal 1 => clear_value x); (on_goal 2 => subst x)) | apply keep_snapAll
    | apply keep_clearAll | apply keep_wr | (refine inv_ite (fun _ => ?_) (fun _ => ?_)))

theorem keep_recoveredGone {s : State} (hInv : s.Inv) : (State.recoveredGone s).Inv := by
  unfold State.recoveredGone
  with_reducible repeat' (first
    | assumption | apply keep_wr | apply keep_sat | apply keep_postU)

theorem keep_linkDrop {s : State} {n : Nat} (hInv : s.Inv) : (State.linkDrop s n).Inv := by
  unfold State.linkDrop
  with_reducible repeat' (first
    | assumption | (extract_lets +onlyGivenNames x; have hx : State.Inv x := ?_; (on_goal 1 => clear_value x); (on_goal 2 => subst x))
    | (extract_lets +onlyGivenNames x; first | (have _ : Book := x; subst x) | (have _ : Terr := x; subst x) | (have _ : Ens := x; subst x) | clear_value x) | apply keep_wr
    | apply keep_sat | apply keep_irq | apply keep_recoveredGone | apply keep_txDrop | apply keep_setPort | (refine inv_foldl ?_ (fun _ _ _ => ?_))
    | (refine inv_ite (fun _ => ?_) (fun _ => ?_)) | fail_if_no_progress (refine inv_mk ?_ rfl rfl rfl rfl rfl rfl rfl rfl rfl))

theorem keep_linkLost {s : State} {n : Nat} {midFrame : Bool} (hInv : s.Inv) : (State.linkLost s n midFrame).Inv := by
  unfold State.linkLost
  with_reducible repeat' (first
    | assumption | (extract_lets +onlyGivenNames x; have hx : State.Inv x := ?_; (on_goal 1 => clear_value x); (on_goal 2 => subst x)) | apply keep_satCnt | apply keep_rxDrop
    | apply keep_linkDrop | (refine inv_ite (fun _ => ?_) (fun _ => ?_)))

theorem keep_linkRise {s : State} {n : Nat} {ok : Bool} (hInv : s.Inv) : (State.linkRise s n ok).Inv := by
  unfold State.linkRise
  with_reducible repeat' (first
    | assumption | (extract_lets +onlyGivenNames x; have hx : State.Inv x := ?_; (on_goal 1 => clear_value x); (on_goal 2 => subst x))
    | (extract_lets +onlyGivenNames x; first | (have _ : Book := x; subst x) | (have _ : Terr := x; subst x) | (have _ : Ens := x; subst x) | clear_value x)
    | apply keep_reachST | apply keep_disarm | apply keep_wr | apply keep_irq | (refine inv_ite (fun _ => ?_) (fun _ => ?_)))

theorem keep_portMode {s : State} {n : Nat} (hInv : s.Inv) : (State.portMode s n).Inv := by
  unfold State.portMode
  with_reducible repeat' (first
    | assumption | (extract_lets +onlyGivenNames x; have hx : State.Inv x := ?_; (on_goal 1 => clear_value x); (on_goal 2 => subst x)) | apply keep_linkDrop | apply keep_wr
    | apply keep_irq | (refine inv_ite (fun _ => ?_) (fun _ => ?_)))

theorem keep_linkCfgWrite {s : State} {n : Nat} {w : Word} (hInv : s.Inv) : (State.linkCfgWrite s n w).Inv := by
  unfold State.linkCfgWrite
  with_reducible repeat' (first
    | assumption | (extract_lets +onlyGivenNames x; have hx : State.Inv x := ?_; (on_goal 1 => clear_value x); (on_goal 2 => subst x))
    | (extract_lets +onlyGivenNames x; first | (have _ : Book := x; subst x) | (have _ : Terr := x; subst x) | (have _ : Ens := x; subst x) | clear_value x)
    | apply keep_linkLost | apply keep_linkDrop | apply keep_sat | apply keep_wr | apply keep_disarm | apply keep_arm | apply keep_next
    | (refine inv_ite (fun _ => ?_) (fun _ => ?_)))

theorem keep_redCfgWrite {s : State} {p : Nat} {w : Word} (hInv : s.Inv) : (State.redCfgWrite s p w).Inv := by
  unfold State.redCfgWrite
  with_reducible repeat' (first
    | assumption | (extract_lets +onlyGivenNames x; have hx : State.Inv x := ?_; (on_goal 1 => clear_value x); (on_goal 2 => subst x))
    | (extract_lets +onlyGivenNames x; first | (have _ : Book := x; subst x) | (have _ : Terr := x; subst x) | (have _ : Ens := x; subst x) | clear_value x)
    | apply keep_setReg | apply keep_disarm | apply keep_arm | apply keep_sat | (refine inv_ite (fun _ => ?_) (fun _ => ?_)))

theorem keep_ddForget {s : State} {p : Nat} (hInv : s.Inv) : (State.ddForget s p).Inv := by
  unfold State.ddForget
  with_reducible repeat' (first
    | assumption | fail_if_no_progress (refine inv_mk ?_ rfl rfl rfl rfl rfl rfl rfl rfl rfl))

theorem keep_ddExpire {s : State} {p : Nat} (hInv : s.Inv) : (State.ddExpire s p).Inv := by
  unfold State.ddExpire
  with_reducible repeat' (first
    | assumption | (extract_lets +onlyGivenNames x; first | (have _ : Book := x; subst x) | (have _ : Terr := x; subst x) | (have _ : Ens := x; subst x) | clear_value x)
    | fail_if_no_progress (refine inv_mk ?_ rfl rfl rfl rfl rfl rfl rfl rfl rfl))

theorem keep_ddAge {s : State} {p : Nat} (hInv : s.Inv) : (State.ddAge s p).Inv := by
  unfold State.ddAge
  with_reducible repeat' (first
    | assumption | apply keep_reachST | apply keep_ddForget | (split <;> try (rename_i e; replace e := inv_of_eq e ?_)))

theorem keep_duplicate {s : State} {p smac seq : Nat} (hInv : s.Inv) : PInv (State.duplicate s p smac seq) := by
  unfold State.duplicate
  with_reducible repeat' (first
    | assumption | (extract_lets +onlyGivenNames x; have hx : State.Inv x := ?_; (on_goal 1 => clear_value x); (on_goal 2 => subst x))
    | (extract_lets +onlyGivenNames x; first | (have _ : Book := x; subst x) | (have _ : Terr := x; subst x) | (have _ : Ens := x; subst x) | clear_value x)
    | apply keep_ddExpire | apply keep_ddForget | apply keep_sat | apply keep_irq | (refine inv_ite (fun _ => ?_) (fun _ => ?_))
    | (refine inv_ite2 (fun _ => ?_) (fun _ => ?_)) | fail_if_no_progress (refine inv_mk ?_ rfl rfl rfl rfl rfl rfl rfl rfl rfl) | fail_if_no_progress (refine inv_pair ?_))

theorem keep_supHeard {s : State} {p : Nat} (hInv : s.Inv) : (State.supHeard s p).Inv := by
  unfold State.supHeard
  with_reducible repeat' (first
    | assumption | (extract_lets +onlyGivenNames x; have hx : State.Inv x := ?_; (on_goal 1 => clear_value x); (on_goal 2 => subst x)) | apply keep_wr | apply keep_irq
    | apply keep_arm | (refine inv_ite (fun _ => ?_) (fun _ => ?_)))

theorem keep_supLost {s : State} {p : Nat} (hInv : s.Inv) : (State.supLost s p).Inv := by
  unfold State.supLost
  with_reducible repeat' (first
    | assumption | apply keep_wr | apply keep_irq | (refine inv_ite (fun _ => ?_) (fun _ => ?_)))

theorem keep_forward {s : State} {n frac : Nat} {f : RxFrame} {dst ring : List Nat} (hInv : s.Inv) : (State.forward s n frac f dst ring).Inv := by
  unfold State.forward
  with_reducible repeat' (first
    | assumption | (extract_lets +onlyGivenNames x; first | (have _ : Book := x; subst x) | (have _ : Terr := x; subst x) | (have _ : Ens := x; subst x) | clear_value x)
    | apply keep_setPort | apply keep_txDrop | (refine inv_foldl ?_ (fun _ _ _ => ?_)) | (refine inv_ite (fun _ => ?_) (fun _ => ?_)))

theorem keep_tokenTake {s : State} {n : Nat} (hInv : s.Inv) : PInv (State.tokenTake s n) := by
  unfold State.tokenTake
  with_reducible repeat' (first
    | assumption | (extract_lets +onlyGivenNames x; first | (have _ : Book := x; subst x) | (have _ : Terr := x; subst x) | (have _ : Ens := x; subst x) | clear_value x)
    | apply keep_setPort | fail_if_no_progress (refine inv_pair ?_))

theorem keep_signTake {s : State} {n : Nat} (hInv : s.Inv) : PInv (State.signTake s n) := by
  unfold State.signTake
  with_reducible repeat' (first
    | assumption | (extract_lets +onlyGivenNames x; first | (have _ : Book := x; subst x) | (have _ : Terr := x; subst x) | (have _ : Ens := x; subst x) | clear_value x)
    | apply keep_setPort | fail_if_no_progress (refine inv_pair ?_))

theorem keep_rxGrid {s : State} {n frac : Nat} {f : RxFrame} {forwarded : Bool} (hInv : s.Inv) : (State.rxGrid s n frac f forwarded).Inv := by
  unfold State.rxGrid
  with_reducible repeat' (first
    | assumption | (extract_lets +onlyGivenNames x; first | (have _ : Book := x; subst x) | (have _ : Terr := x; subst x) | (have _ : Ens := x; subst x) | clear_value x)
    | refine inv_snd ?_ | apply keep_rxDrop | apply keep_tokenTake | (refine inv_ite (fun _ => ?_) (fun _ => ?_)) | (refine inv_ite2 (fun _ => ?_) (fun _ => ?_))
    | (split <;> try (rename_i e; replace e := inv_of_eq e ?_)) | fail_if_no_progress (refine inv_mk ?_ rfl rfl rfl rfl rfl rfl rfl rfl rfl)
    | fail_if_no_progress (refine inv_pair ?_))

theorem keep_rxOther {s : State} {n : Nat} {f : RxFrame} {ring : Bool} (hInv : s.Inv) : (State.rxOther s n f ring).Inv := by
  unfold State.rxOther
  with_reducible repeat' (first
    | assumption | (extract_lets +onlyGivenNames x; first | (have _ : Book := x; subst x) | (have _ : Terr := x; subst x) | (have _ : Ens := x; subst x) | clear_value x)
    | apply keep_irq | apply keep_supHeard | apply keep_rxDrop | (refine inv_ite (fun _ => ?_) (fun _ => ?_))
    | fail_if_no_progress (refine inv_mk ?_ rfl rfl rfl rfl rfl rfl rfl rfl rfl))

theorem keep_rxFrame {s : State} {n frac : Nat} {f : RxFrame} (hInv : s.Inv) : (State.rxFrame s n frac f).Inv := by
  unfold State.rxFrame
  with_reducible repeat' (first
    | assumption | (extract_lets +onlyGivenNames x; have hx : State.Inv x := ?_; (on_goal 1 => clear_value x); (on_goal 2 => subst x))
    | (extract_lets +onlyGivenNames x; first | (have _ : Book := x; subst x) | (have _ : Terr := x; subst x) | (have _ : Ens := x; subst x) | clear_value x)
    | apply keep_satCnt | apply keep_wrapCnt | apply keep_rxDrop | apply keep_forward | apply keep_rxGrid | apply keep_rxOther | (refine inv_ite (fun _ => ?_) (fun _ => ?_)))

theorem keep_soloistFault {s : State} {k : Nat} (hInv : s.Inv) : (State.soloistFault s k).Inv := by
  unfold State.soloistFault
  with_reducible repeat' (first
    | assumption | (extract_lets +onlyGivenNames x; have hx : State.Inv x := ?_; (on_goal 1 => clear_value x); (on_goal 2 => subst x))
    | (extract_lets +onlyGivenNames x; first | (have _ : Book := x; subst x) | (have _ : Terr := x; subst x) | (have _ : Ens := x; subst x) | clear_value x) | apply keep_sat
    | apply keep_irq | apply keep_setReg | (refine inv_ite (fun _ => ?_) (fun _ => ?_)) | fail_if_no_progress (refine inv_mk ?_ rfl rfl rfl rfl rfl rfl rfl rfl rfl))

theorem keep_soloistParity {s : State} {k mismatches : Nat} (hInv : s.Inv) : PInv (State.soloistParity s k mismatches) := by
  unfold State.soloistParity
  with_reducible repeat' (first
    | assumption | apply keep_sat | apply keep_soloistFault | (refine inv_ite2 (fun _ => ?_) (fun _ => ?_)) | fail_if_no_progress (refine inv_pair ?_))

theorem keep_coreFault {s : State} {k : Nat} (hInv : s.Inv) : (State.coreFault s k).Inv := by
  unfold State.coreFault
  with_reducible repeat' (first
    | assumption | (extract_lets +onlyGivenNames x; have hx : State.Inv x := ?_; (on_goal 1 => clear_value x); (on_goal 2 => subst x)) | apply keep_setReg | apply keep_sat
    | apply keep_irq | apply keep_post | (refine inv_ite (fun _ => ?_) (fun _ => ?_)))

theorem keep_cipherMeets {s : State} {k mismatches : Nat} (hInv : s.Inv) : PInv (State.cipherMeets s k mismatches) := by
  unfold State.cipherMeets
  with_reducible repeat' (first
    | assumption | apply keep_coreFault | apply keep_soloistParity | (refine inv_ite2 (fun _ => ?_) (fun _ => ?_)) | fail_if_no_progress (refine inv_pair ?_))

theorem keep_writeRecords {s : State} {n q full : Nat} {h : RecHead} {trace : Bool} {l : List (Nat × List Byte)} (hInv : s.Inv) :
    (State.writeRecords s n q full h trace l).Inv := by
  induction l generalizing s with
  | nil => exact hInv
  | cons p t ih =>
    unfold State.writeRecords
    with_reducible repeat' (first
      | assumption | (extract_lets +onlyGivenNames x; have hx : State.Inv x := ?_; (on_goal 1 => clear_value x); (on_goal 2 => subst x)) | apply ih | apply keep_enqueue
      | apply keep_rxDrop | apply keep_observe | apply keep_traceItem | (refine inv_ite (fun _ => ?_) (fun _ => ?_))
      | (split <;> try (rename_i e; replace e := inv_of_eq e ?_)))

theorem keep_deliver {s : State} {i : AuthItem} {q full keysel : Nat} {trace : Bool} (hInv : s.Inv) : (State.deliver s i q full keysel trace).Inv := by
  unfold State.deliver
  with_reducible repeat' (first
    | assumption | (extract_lets +onlyGivenNames x; first | (have _ : Book := x; subst x) | (have _ : Terr := x; subst x) | (have _ : Ens := x; subst x) | clear_value x)
    | apply keep_rxDrop | apply keep_writeRecords | (refine inv_ite (fun _ => ?_) (fun _ => ?_)))

theorem keep_authFrame {s : State} {k mismatches : Nat} (hInv : s.Inv) : (State.authFrame s k mismatches).Inv := by
  unfold State.authFrame
  with_reducible repeat' (first
    | assumption | (extract_lets +onlyGivenNames x; have hx : State.Inv x := ?_; (on_goal 1 => clear_value x); (on_goal 2 => subst x))
    | (extract_lets +onlyGivenNames x; first | (have _ : Book := x; subst x) | (have _ : Terr := x; subst x) | (have _ : Ens := x; subst x) | clear_value x)
    | apply keep_rxDrop | apply keep_deliver | apply keep_cipherMeets | apply keep_satCnt | apply keep_duplicate | apply keep_next
    | (refine inv_ite (fun _ => ?_) (fun _ => ?_)) | (split <;> try (rename_i e; replace e := inv_of_eq e ?_))
    | fail_if_no_progress (refine inv_mk ?_ rfl rfl rfl rfl rfl rfl rfl rfl rfl))

end Sys2Proof.Machine
end

