-- ==== Sys2Proof/Laws/InvEgress.lean ====
section
/-! SUPPORT. Every operation of Machine/Egress.lean keeps the invariant of the device. -/

set_option maxRecDepth 4000
set_option linter.unusedTactic false
set_option linter.unreachableTactic false

namespace Sys2Proof.Machine

theorem keep_send {s : State} {chan kind : Nat} {body : List Byte} (hInv : s.Inv) : (State.send s chan kind body).Inv := by
  unfold State.send
  with_reducible repeat' (first
    | assumption | fail_if_no_progress (refine inv_mk ?_ rfl rfl rfl rfl rfl rfl rfl rfl rfl))

theorem keep_emit {s : State} {n kind : Nat} {b : List Byte} (hInv : s.Inv) : (State.emit s n kind b).Inv := by
  unfold State.emit
  with_reducible repeat' (first
    | assumption | apply keep_satCnt | apply keep_wrapCnt | apply keep_send)

theorem keep_signFails {s : State} {n mismatches : Nat} (hInv : s.Inv) : PInv (State.signFails s n mismatches) := by
  unfold State.signFails
  with_reducible repeat' (first
    | assumption | apply keep_signTake | apply keep_cipherMeets | (refine inv_ite2 (fun _ => ?_) (fun _ => ?_)) | (split <;> try (rename_i e; replace e := inv_of_eq e ?_))
    | fail_if_no_progress (refine inv_pair ?_))

theorem keep_startFrame {s : State} {n : Nat} {e : EgFrame} {seq kind mismatches : Nat} (hInv : s.Inv) : PInv (State.startFrame s n e seq kind mismatches) := by
  unfold State.startFrame
  with_reducible repeat' (first
    | assumption | (extract_lets +onlyGivenNames x; first | (have _ : Book := x; subst x) | (have _ : Terr := x; subst x) | (have _ : Ens := x; subst x) | clear_value x)
    | apply keep_txDrop | apply keep_signFails | apply keep_setPort | apply keep_emit | (refine inv_ite2 (fun _ => ?_) (fun _ => ?_))
    | (split <;> try (rename_i e; replace e := inv_of_eq e ?_)) | fail_if_no_progress (refine inv_pair ?_))

theorem keep_fetchFrame {s : State} {n : Nat} {d : Nat} (hInv : s.Inv) : PInv (State.fetchFrame s n d) := by
  unfold State.fetchFrame
  with_reducible repeat' (first
    | assumption | (extract_lets +onlyGivenNames x; first | (have _ : Book := x; subst x) | (have _ : Terr := x; subst x) | (have _ : Ens := x; subst x) | clear_value x)
    | apply keep_dmaRead | (refine inv_ite2 (fun _ => ?_) (fun _ => ?_)) | (split <;> try (rename_i e; replace e := inv_of_eq e ?_))
    | fail_if_no_progress (refine inv_pair ?_))

theorem keep_nextSeq {s : State} {p : Nat} (hInv : s.Inv) : PInv (State.nextSeq s p) := by
  unfold State.nextSeq
  with_reducible repeat' (first
    | assumption | (extract_lets +onlyGivenNames x; first | (have _ : Book := x; subst x) | (have _ : Terr := x; subst x) | (have _ : Ens := x; subst x) | clear_value x)
    | fail_if_no_progress (refine inv_mk ?_ rfl rfl rfl rfl rfl rfl rfl rfl rfl) | fail_if_no_progress (refine inv_pair ?_))

theorem keep_twinTo {s : State} {n k seq : Nat} {e : EgFrame} (hInv : s.Inv) : (State.twinTo s n k seq e).Inv := by
  unfold State.twinTo
  with_reducible repeat' (first
    | assumption | apply keep_setPort | apply keep_txDrop | (refine inv_ite (fun _ => ?_) (fun _ => ?_)))

theorem keep_sendQueued {s : State} {n k mismatches : Nat} (hInv : s.Inv) : (State.sendQueued s n k mismatches).Inv := by
  unfold State.sendQueued
  with_reducible repeat' (first
    | assumption | (extract_lets +onlyGivenNames x; first | (have _ : Book := x; subst x) | (have _ : Terr := x; subst x) | (have _ : Ens := x; subst x) | clear_value x)
    | refine inv_snd ?_ | apply keep_readEntry | apply keep_releaseEntries | apply keep_txDrop | apply keep_fetchFrame | apply keep_startFrame | apply keep_nextSeq
    | apply keep_twinTo | (refine inv_ite (fun _ => ?_) (fun _ => ?_)))

theorem keep_sendTwin {s : State} {n mismatches : Nat} {t : Twin} (hInv : s.Inv) : (State.sendTwin s n mismatches t).Inv := by
  unfold State.sendTwin
  with_reducible repeat' (first
    | assumption | refine inv_snd ?_ | apply keep_setPort | apply keep_startFrame)

theorem keep_corrected {s : State} {n : Nat} {f : FwdFrame} (hInv : s.Inv) : PInv (State.corrected s n f) := by
  unfold State.corrected
  with_reducible repeat' (first
    | assumption | (extract_lets +onlyGivenNames x; first | (have _ : Book := x; subst x) | (have _ : Terr := x; subst x) | (have _ : Ens := x; subst x) | clear_value x)
    | apply keep_setPort | apply keep_next | (refine inv_ite2 (fun _ => ?_) (fun _ => ?_)) | (split <;> try (rename_i e; replace e := inv_of_eq e ?_))
    | fail_if_no_progress (refine inv_pair ?_))

theorem keep_sendForwarded {s : State} {n : Nat} {f : FwdFrame} (hInv : s.Inv) : (State.sendForwarded s n f).Inv := by
  unfold State.sendForwarded
  with_reducible repeat' (first
    | assumption | (extract_lets +onlyGivenNames x; have hx : State.Inv x := ?_; (on_goal 1 => clear_value x); (on_goal 2 => subst x))
    | (extract_lets +onlyGivenNames x; have hx : PInv x := ?_; (on_goal 1 => clear_value x); (on_goal 2 => subst x))
    | (extract_lets +onlyGivenNames x; first | (have _ : Book := x; subst x) | (have _ : Terr := x; subst x) | (have _ : Ens := x; subst x) | clear_value x)
    | refine inv_snd ?_ | apply keep_setPort | apply keep_txDrop | apply keep_corrected | apply keep_emit | (refine inv_ite (fun _ => ?_) (fun _ => ?_)))

theorem keep_egressQueue {s : State} {n mismatches : Nat} (hInv : s.Inv) : (State.egressQueue s n mismatches).Inv := by
  unfold State.egressQueue
  with_reducible repeat' (first
    | assumption | (extract_lets +onlyGivenNames x; first | (have _ : Book := x; subst x) | (have _ : Terr := x; subst x) | (have _ : Ens := x; subst x) | clear_value x)
    | apply keep_sendTwin | apply keep_sendQueued | apply keep_sendForwarded | apply keep_next | (refine inv_ite (fun _ => ?_) (fun _ => ?_))
    | (split <;> try (rename_i e; replace e := inv_of_eq e ?_)))

theorem keep_fetchList {s : State} {n : Nat} {ds : List Nat} (hInv : s.Inv) : PInv (State.fetchList s n ds) := by
  unfold State.fetchList
  with_reducible repeat' (first
    | assumption | (extract_lets +onlyGivenNames x; have hx : PInv x := ?_; (on_goal 1 => clear_value x); (on_goal 2 => subst x)) | refine inv_snd ?_ | apply keep_fetchFrame
    | (refine inv_foldl2 ?_ (fun _ _ _ => ?_)) | (refine inv_ite2 (fun _ => ?_) (fun _ => ?_)) | fail_if_no_progress (refine inv_pair ?_))

theorem keep_relIssue {s : State} {n l t : Nat} {ticket : Option TicketRef} (hInv : s.Inv) : (State.relIssue s n l t ticket).Inv := by
  unfold State.relIssue
  with_reducible repeat' (first
    | assumption | (extract_lets +onlyGivenNames x; first | (have _ : Book := x; subst x) | (have _ : Terr := x; subst x) | (have _ : Ens := x; subst x) | clear_value x)
    | refine inv_snd ?_ | apply keep_fetchList | apply keep_setPort | (refine inv_ite2 (fun _ => ?_) (fun _ => ?_)) | fail_if_no_progress (refine inv_pair ?_))

theorem keep_relEnd {s : State} {id : Nat} (hInv : s.Inv) : (State.relEnd s id).Inv := by
  unfold State.relEnd
  with_reducible repeat' (first
    | assumption | (extract_lets +onlyGivenNames x; first | (have _ : Book := x; subst x) | (have _ : Terr := x; subst x) | (have _ : Ens := x; subst x) | clear_value x)
    | apply keep_complete | apply keep_next | (refine inv_ite (fun _ => ?_) (fun _ => ?_)) | (split <;> try (rename_i e; replace e := inv_of_eq e ?_))
    | fail_if_no_progress (refine inv_mk ?_ rfl rfl rfl rfl rfl rfl rfl rfl rfl))

theorem keep_relDropped {s : State} {id : Nat} (hInv : s.Inv) : (State.relDropped s id).Inv := by
  unfold State.relDropped
  with_reducible repeat' (first
    | assumption | fail_if_no_progress (refine inv_mk ?_ rfl rfl rfl rfl rfl rfl rfl rfl rfl))

theorem keep_runJobs {s : State} {n mismatches k : Nat} (hInv : s.Inv) : (State.runJobs s n mismatches k).Inv := by
  induction k generalizing s with
  | zero => exact hInv
  | succ k ih =>
    unfold State.runJobs
    with_reducible repeat' (first
      | assumption | (extract_lets +onlyGivenNames x; have hx : State.Inv x := ?_; (on_goal 1 => clear_value x); (on_goal 2 => subst x))
      | (extract_lets +onlyGivenNames x; clear_value x) | apply ih | apply keep_setPort | apply keep_relEnd | apply keep_startFrame | apply keep_relDropped
      | (split <;> try (rename_i e; replace e := inv_of_eq e ?_)))

theorem keep_relStart {s : State} {n mismatches : Nat} {j : RelJob} (hInv : s.Inv) : (State.relStart s n mismatches j).Inv := by
  unfold State.relStart
  with_reducible repeat' (first
    | assumption | (extract_lets +onlyGivenNames x; have hx : State.Inv x := ?_; (on_goal 1 => clear_value x); (on_goal 2 => subst x))
    | (extract_lets +onlyGivenNames x; first | (have _ : Book := x; subst x) | (have _ : Terr := x; subst x) | (have _ : Ens := x; subst x) | clear_value x)
    | apply keep_setPort | apply keep_runJobs | apply keep_satCnt | apply keep_irq | (refine inv_ite (fun _ => ?_) (fun _ => ?_)))

theorem keep_relBegin {s : State} {n mismatches : Nat} {r : RelPre} {ds : List Nat} (hInv : s.Inv) : (State.relBegin s n mismatches r ds).Inv := by
  unfold State.relBegin
  with_reducible repeat' (first
    | assumption | (extract_lets +onlyGivenNames x; have hx : State.Inv x := ?_; (on_goal 1 => clear_value x); (on_goal 2 => subst x))
    | (extract_lets +onlyGivenNames x; have hx : PInv x := ?_; (on_goal 1 => clear_value x); (on_goal 2 => subst x))
    | (extract_lets +onlyGivenNames x; first | (have _ : Book := x; subst x) | (have _ : Terr := x; subst x) | (have _ : Ens := x; subst x) | clear_value x)
    | refine inv_snd ?_ | apply keep_nextSeq | apply keep_fetchList | apply keep_relStart | apply keep_next | (refine inv_foldl ?_ (fun _ _ _ => ?_))
    | (refine inv_foldl2 ?_ (fun _ _ _ => ?_)) | (refine inv_ite2 (fun _ => ?_) (fun _ => ?_)) | (split <;> try (rename_i e; replace e := inv_of_eq e ?_))
    | fail_if_no_progress (refine inv_mk ?_ rfl rfl rfl rfl rfl rfl rfl rfl rfl) | fail_if_no_progress (refine inv_pair ?_))

theorem keep_releaseStart {s : State} {n mismatches : Nat} (hInv : s.Inv) : (State.releaseStart s n mismatches).Inv := by
  unfold State.releaseStart
  with_reducible repeat' (first
    | assumption | (extract_lets +onlyGivenNames x; have hx : State.Inv x := ?_; (on_goal 1 => clear_value x); (on_goal 2 => subst x))
    | (extract_lets +onlyGivenNames x; first | (have _ : Book := x; subst x) | (have _ : Terr := x; subst x) | (have _ : Ens := x; subst x) | clear_value x)
    | apply keep_reachST | apply keep_setPort | apply keep_txDrop | apply keep_complete | apply keep_irq | apply keep_relBegin | apply keep_next
    | (refine inv_foldl ?_ (fun _ _ _ => ?_)) | (refine inv_ite (fun _ => ?_) (fun _ => ?_)) | (split <;> try (rename_i e; replace e := inv_of_eq e ?_)))

theorem keep_txEnd {s : State} {n mismatches : Nat} (hInv : s.Inv) : (State.txEnd s n mismatches).Inv := by
  unfold State.txEnd
  with_reducible repeat' (first
    | assumption | (extract_lets +onlyGivenNames x; first | (have _ : Book := x; subst x) | (have _ : Terr := x; subst x) | (have _ : Ens := x; subst x) | clear_value x)
    | apply keep_setPort | apply keep_runJobs | (refine inv_ite (fun _ => ?_) (fun _ => ?_)))

theorem keep_relFlush {s : State} (hInv : s.Inv) : (State.relFlush s).Inv := by
  unfold State.relFlush
  with_reducible repeat' (first
    | assumption | (extract_lets +onlyGivenNames x; first | (have _ : Book := x; subst x) | (have _ : Terr := x; subst x) | (have _ : Ens := x; subst x) | clear_value x)
    | apply keep_relDropped | apply keep_relEnd | (refine inv_foldl ?_ (fun _ _ _ => ?_)) | fail_if_no_progress (refine inv_mk ?_ rfl rfl rfl rfl rfl rfl rfl rfl rfl))

theorem keep_egressCurtain {s : State} (hInv : s.Inv) : (State.egressCurtain s).Inv := by
  unfold State.egressCurtain
  with_reducible repeat' (first
    | assumption | (extract_lets +onlyGivenNames x; have hx : State.Inv x := ?_; (on_goal 1 => clear_value x); (on_goal 2 => subst x))
    | (extract_lets +onlyGivenNames x; first | (have _ : Book := x; subst x) | (have _ : Terr := x; subst x) | (have _ : Ens := x; subst x) | clear_value x)
    | apply keep_txDrop | apply keep_setPort | (refine inv_foldl ?_ (fun _ _ _ => ?_)) | fail_if_no_progress (refine inv_mk ?_ rfl rfl rfl rfl rfl rfl rfl rfl rfl))

theorem keep_supSend {s : State} {p : Nat} (hInv : s.Inv) : (State.supSend s p).Inv := by
  unfold State.supSend
  with_reducible repeat' (first
    | assumption | (extract_lets +onlyGivenNames x; have hx : State.Inv x := ?_; (on_goal 1 => clear_value x); (on_goal 2 => subst x))
    | (extract_lets +onlyGivenNames x; have hx : PInv x := ?_; (on_goal 1 => clear_value x); (on_goal 2 => subst x))
    | (extract_lets +onlyGivenNames x; first | (have _ : Book := x; subst x) | (have _ : Terr := x; subst x) | (have _ : Ens := x; subst x) | clear_value x)
    | refine inv_snd ?_ | apply keep_arm | apply keep_nextSeq | apply keep_emit | apply keep_next | (refine inv_foldl ?_ (fun _ _ _ => ?_))
    | (refine inv_ite (fun _ => ?_) (fun _ => ?_)))

theorem keep_ptpSync {s : State} {n frac domain sec ns : Nat} {corr : Int} (hInv : s.Inv) : (State.ptpSync s n frac domain sec ns corr).Inv := by
  unfold State.ptpSync
  with_reducible repeat' (first
    | assumption | (extract_lets +onlyGivenNames x; have hx : State.Inv x := ?_; (on_goal 1 => clear_value x); (on_goal 2 => subst x))
    | (extract_lets +onlyGivenNames x; first | (have _ : Book := x; subst x) | (have _ : Terr := x; subst x) | (have _ : Ens := x; subst x) | clear_value x) | apply keep_wrap
    | apply keep_irq | apply keep_deliverSample | apply keep_arm | apply keep_next | (refine inv_ite (fun _ => ?_) (fun _ => ?_)))

theorem keep_originate {s : State} {n kind : Nat} {b : List Byte} (hInv : s.Inv) : (State.originate s n kind b).Inv := by
  unfold State.originate
  with_reducible repeat' (first
    | assumption | (extract_lets +onlyGivenNames x; have hx : PInv x := ?_; (on_goal 1 => clear_value x); (on_goal 2 => subst x)) | refine inv_snd ?_ | apply keep_emit
    | apply keep_nextSeq | (refine inv_ite (fun _ => ?_) (fun _ => ?_)))

theorem keep_ptpSendSync {s : State} {n frac : Nat} (hInv : s.Inv) : (State.ptpSendSync s n frac).Inv := by
  unfold State.ptpSendSync
  with_reducible repeat' (first
    | assumption | (extract_lets +onlyGivenNames x; have hx : State.Inv x := ?_; (on_goal 1 => clear_value x); (on_goal 2 => subst x))
    | (extract_lets +onlyGivenNames x; first | (have _ : Book := x; subst x) | (have _ : Terr := x; subst x) | (have _ : Ens := x; subst x) | clear_value x) | apply keep_arm
    | apply keep_setPort | apply keep_originate | (refine inv_ite (fun _ => ?_) (fun _ => ?_)))

theorem keep_pdelayReq {s : State} {n frac : Nat} (hInv : s.Inv) : (State.pdelayReq s n frac).Inv := by
  unfold State.pdelayReq
  with_reducible repeat' (first
    | assumption | (extract_lets +onlyGivenNames x; first | (have _ : Book := x; subst x) | (have _ : Terr := x; subst x) | (have _ : Ens := x; subst x) | clear_value x)
    | apply keep_setPort | apply keep_originate | (refine inv_ite (fun _ => ?_) (fun _ => ?_)))

theorem keep_pdelayAnswer {s : State} {n rxFrac domain : Nat} {asker : List Byte} {turnaround : Nat} (hInv : s.Inv) : (State.pdelayAnswer s n rxFrac domain asker turnaround).Inv := by
  unfold State.pdelayAnswer
  with_reducible repeat' (first
    | assumption | (extract_lets +onlyGivenNames x; first | (have _ : Book := x; subst x) | (have _ : Terr := x; subst x) | (have _ : Ens := x; subst x) | clear_value x)
    | apply keep_originate | (refine inv_ite (fun _ => ?_) (fun _ => ?_)))

theorem keep_pdelayResp {s : State} {n frac domain : Nat} {turnaround : Int} (hInv : s.Inv) : (State.pdelayResp s n frac domain turnaround).Inv := by
  unfold State.pdelayResp
  with_reducible repeat' (first
    | assumption | (extract_lets +onlyGivenNames x; have hx : State.Inv x := ?_; (on_goal 1 => clear_value x); (on_goal 2 => subst x))
    | (extract_lets +onlyGivenNames x; first | (have _ : Book := x; subst x) | (have _ : Terr := x; subst x) | (have _ : Ens := x; subst x) | clear_value x)
    | apply keep_setPort | apply keep_wr | apply keep_next | (refine inv_ite (fun _ => ?_) (fun _ => ?_)) | (split <;> try (rename_i e; replace e := inv_of_eq e ?_)))

theorem keep_ptpWatch {s : State} {was : Option Nat} (hInv : s.Inv) : (State.ptpWatch s was).Inv := by
  unfold State.ptpWatch
  with_reducible repeat' (first
    | assumption | (extract_lets +onlyGivenNames x; have hx : State.Inv x := ?_; (on_goal 1 => clear_value x); (on_goal 2 => subst x)) | apply keep_disarm | apply keep_arm
    | (refine inv_foldl ?_ (fun _ _ _ => ?_)) | (refine inv_ite (fun _ => ?_) (fun _ => ?_)))

theorem keep_ptpPortWrite {s : State} {w : Word} (hInv : s.Inv) : (State.ptpPortWrite s w).Inv := by
  unfold State.ptpPortWrite
  with_reducible repeat' (first
    | assumption | (extract_lets +onlyGivenNames x; have hx : State.Inv x := ?_; (on_goal 1 => clear_value x); (on_goal 2 => subst x))
    | (extract_lets +onlyGivenNames x; first | (have _ : Book := x; subst x) | (have _ : Terr := x; subst x) | (have _ : Ens := x; subst x) | clear_value x) | apply keep_sat
    | apply keep_wr | apply keep_ptpWatch | (refine inv_ite (fun _ => ?_) (fun _ => ?_)) | (split <;> try (rename_i e; replace e := inv_of_eq e ?_)))

end Sys2Proof.Machine
end

