-- ==== Sys2Proof/Laws/InvBadge.lean ====
section
/-! SUPPORT. Every operation of Machine/Badge.lean keeps the invariant of the device. -/

set_option maxRecDepth 4000
set_option linter.unusedTactic false
set_option linter.unreachableTactic false

namespace Sys2Proof.Machine

theorem keep_setCarrier {s : State} {on : Bool} (hInv : s.Inv) : (State.setCarrier s on).Inv := by
  unfold State.setCarrier
  with_reducible repeat' (first
    | assumption | apply keep_send | (refine inv_ite (fun _ => ?_) (fun _ => ?_)) | fail_if_no_progress (refine inv_mk ?_ rfl rfl rfl rfl rfl rfl rfl rfl rfl))

theorem keep_readerEnd {s : State} {st : Nat} (hInv : s.Inv) : (State.readerEnd s st).Inv := by
  unfold State.readerEnd
  with_reducible repeat' (first
    | assumption | (extract_lets +onlyGivenNames x; have hx : State.Inv x := ?_; (on_goal 1 => clear_value x); (on_goal 2 => subst x))
    | (extract_lets +onlyGivenNames x; first | (have _ : Book := x; subst x) | (have _ : Terr := x; subst x) | (have _ : Ens := x; subst x) | clear_value x) | apply keep_wr
    | apply keep_irq | apply keep_arm | (refine inv_ite (fun _ => ?_) (fun _ => ?_)) | fail_if_no_progress (refine inv_mk ?_ rfl rfl rfl rfl rfl rfl rfl rfl rfl))

theorem keep_readerGo {s : State} {w : Word} (hInv : s.Inv) : (State.readerGo s w).Inv := by
  unfold State.readerGo
  with_reducible repeat' (first
    | assumption | (extract_lets +onlyGivenNames x; have hx : State.Inv x := ?_; (on_goal 1 => clear_value x); (on_goal 2 => subst x))
    | (extract_lets +onlyGivenNames x; first | (have _ : Book := x; subst x) | (have _ : Terr := x; subst x) | (have _ : Ens := x; subst x) | clear_value x)
    | apply keep_setReg | apply keep_disarm | apply keep_readerEnd | apply keep_wr | apply keep_setCarrier | apply keep_arm | apply keep_send
    | (refine inv_ite (fun _ => ?_) (fun _ => ?_)) | fail_if_no_progress (refine inv_mk ?_ rfl rfl rfl rfl rfl rfl rfl rfl rfl))

theorem keep_carrierIdle {s : State} (hInv : s.Inv) : (State.carrierIdle s).Inv := by
  unfold State.carrierIdle
  with_reducible repeat' (first
    | assumption | apply keep_setCarrier)

theorem keep_readerStop {s : State} (hInv : s.Inv) : (State.readerStop s).Inv := by
  unfold State.readerStop
  with_reducible repeat' (first
    | assumption | (extract_lets +onlyGivenNames x; have hx : State.Inv x := ?_; (on_goal 1 => clear_value x); (on_goal 2 => subst x)) | apply keep_readerEnd
    | apply keep_setCarrier | apply keep_disarm | (refine inv_ite (fun _ => ?_) (fun _ => ?_)))

theorem keep_ping {s : State} {amp : Nat} (hInv : s.Inv) : (State.ping s amp).Inv := by
  unfold State.ping
  with_reducible repeat' (first
    | assumption | (extract_lets +onlyGivenNames x; have hx : State.Inv x := ?_; (on_goal 1 => clear_value x); (on_goal 2 => subst x))
    | (extract_lets +onlyGivenNames x; first | (have _ : Book := x; subst x) | (have _ : Terr := x; subst x) | (have _ : Ens := x; subst x) | clear_value x)
    | (refine keep_fire ?_ (fun _ _ => ?_)) | apply keep_arm | apply keep_wr | apply keep_irq | apply keep_id | (refine inv_ite (fun _ => ?_) (fun _ => ?_))
    | fail_if_no_progress (refine inv_mk ?_ rfl rfl rfl rfl rfl rfl rfl rfl rfl))

theorem keep_tagPoke {s : State} {page : Nat} {bs : List Byte} (hInv : s.Inv) : (State.tagPoke s page bs).Inv := by
  unfold State.tagPoke
  with_reducible repeat' (first
    | assumption | fail_if_no_progress (refine inv_mk ?_ rfl rfl rfl rfl rfl rfl rfl rfl rfl))

theorem keep_tagSync {s : State} (hInv : s.Inv) : (State.tagSync s).Inv := by
  unfold State.tagSync
  with_reducible repeat' (first
    | assumption | (extract_lets +onlyGivenNames x; have hx : State.Inv x := ?_; (on_goal 1 => clear_value x); (on_goal 2 => subst x))
    | (extract_lets +onlyGivenNames x; first | (have _ : Book := x; subst x) | (have _ : Terr := x; subst x) | (have _ : Ens := x; subst x) | clear_value x)
    | apply keep_tagPoke | apply keep_wr | (refine inv_foldl ?_ (fun _ _ _ => ?_)) | fail_if_no_progress (refine inv_mk ?_ rfl rfl rfl rfl rfl rfl rfl rfl rfl))

theorem keep_tsCommit {s : State} {w : Word} (hInv : s.Inv) : (State.tsCommit s w).Inv := by
  unfold State.tsCommit
  with_reducible repeat' (first
    | assumption | (extract_lets +onlyGivenNames x; have hx : State.Inv x := ?_; (on_goal 1 => clear_value x); (on_goal 2 => subst x))
    | (extract_lets +onlyGivenNames x; first | (have _ : Book := x; subst x) | (have _ : Terr := x; subst x) | (have _ : Ens := x; subst x) | clear_value x)
    | apply keep_tagSync | apply keep_wr | apply keep_irq | (refine inv_ite (fun _ => ?_) (fun _ => ?_))
    | fail_if_no_progress (refine inv_mk ?_ rfl rfl rfl rfl rfl rfl rfl rfl rfl))

theorem keep_fieldQuiet {s : State} (hInv : s.Inv) : (State.fieldQuiet s).Inv := by
  unfold State.fieldQuiet
  with_reducible repeat' (first
    | assumption | (refine keep_fire ?_ (fun _ _ => ?_)) | apply keep_id | (refine inv_ite (fun _ => ?_) (fun _ => ?_)))

theorem keep_tsResume {s : State} (hInv : s.Inv) : (State.tsResume s).Inv := by
  unfold State.tsResume
  with_reducible repeat' (first
    | assumption | (extract_lets +onlyGivenNames x; have hx : State.Inv x := ?_; (on_goal 1 => clear_value x); (on_goal 2 => subst x))
    | (extract_lets +onlyGivenNames x; first | (have _ : Book := x; subst x) | (have _ : Terr := x; subst x) | (have _ : Ens := x; subst x) | clear_value x)
    | apply keep_fieldQuiet | apply keep_wr | (refine inv_ite (fun _ => ?_) (fun _ => ?_)) | fail_if_no_progress (refine inv_mk ?_ rfl rfl rfl rfl rfl rfl rfl rfl rfl))

theorem keep_setImg {s : State} {k : Nat} {x : Img} (hInv : s.Inv) : (State.setImg s k x).Inv := by
  unfold State.setImg
  with_reducible repeat' (first
    | assumption | fail_if_no_progress (refine inv_mk ?_ rfl rfl rfl rfl rfl rfl rfl rfl rfl))

theorem keep_summaryTry {s : State} (hInv : s.Inv) : (State.summaryTry s).Inv := by
  unfold State.summaryTry
  with_reducible repeat' (first
    | assumption | (extract_lets +onlyGivenNames x; have hx : State.Inv x := ?_; (on_goal 1 => clear_value x); (on_goal 2 => subst x))
    | (extract_lets +onlyGivenNames x; first | (have _ : Book := x; subst x) | (have _ : Terr := x; subst x) | (have _ : Ens := x; subst x) | clear_value x)
    | apply keep_tsCommit | apply keep_next | (refine inv_ite (fun _ => ?_) (fun _ => ?_)) | fail_if_no_progress (refine inv_mk ?_ rfl rfl rfl rfl rfl rfl rfl rfl rfl))

theorem keep_summaryOwed {s : State} (hInv : s.Inv) : (State.summaryOwed s).Inv := by
  unfold State.summaryOwed
  with_reducible repeat' (first
    | assumption | apply keep_summaryTry | fail_if_no_progress (refine inv_mk ?_ rfl rfl rfl rfl rfl rfl rfl rfl rfl))

theorem keep_tsFlip {s : State} (hInv : s.Inv) : (State.tsFlip s).Inv := by
  unfold State.tsFlip
  with_reducible repeat' (first
    | assumption | (extract_lets +onlyGivenNames x; have hx : State.Inv x := ?_; (on_goal 1 => clear_value x); (on_goal 2 => subst x))
    | (extract_lets +onlyGivenNames x; first | (have _ : Book := x; subst x) | (have _ : Terr := x; subst x) | (have _ : Ens := x; subst x) | clear_value x)
    | apply keep_fieldQuiet | apply keep_reachST | apply keep_tagSync | apply keep_wr | apply keep_irq | apply keep_summaryTry | (refine inv_ite (fun _ => ?_) (fun _ => ?_))
    | fail_if_no_progress (refine inv_mk ?_ rfl rfl rfl rfl rfl rfl rfl rfl rfl))

theorem keep_readerDone {s : State} {st : Nat} {rx : List Byte} {auth : Bool} (hInv : s.Inv) : (State.readerDone s st rx auth).Inv := by
  unfold State.readerDone
  with_reducible repeat' (first
    | assumption | (extract_lets +onlyGivenNames x; have hx : State.Inv x := ?_; (on_goal 1 => clear_value x); (on_goal 2 => subst x))
    | (extract_lets +onlyGivenNames x; first | (have _ : Book := x; subst x) | (have _ : Terr := x; subst x) | (have _ : Ens := x; subst x) | clear_value x)
    | (refine keep_fire ?_ (fun _ _ => ?_)) | apply keep_setCarrier | apply keep_wr | apply keep_readerEnd | apply keep_post | apply keep_summaryOwed | apply keep_id
    | (refine inv_ite (fun _ => ?_) (fun _ => ?_)) | (split <;> try (rename_i e; replace e := inv_of_eq e ?_))
    | fail_if_no_progress (refine inv_mk ?_ rfl rfl rfl rfl rfl rfl rfl rfl rfl))

theorem keep_exchange {s : State} (hInv : s.Inv) : (State.exchange s).Inv := by
  unfold State.exchange
  with_reducible repeat' (first
    | assumption | (extract_lets +onlyGivenNames x; have hx : State.Inv x := ?_; (on_goal 1 => clear_value x); (on_goal 2 => subst x)) | apply keep_tagSync | apply keep_wr
    | apply keep_arm | (refine inv_ite (fun _ => ?_) (fun _ => ?_)))

theorem keep_tagSend {s : State} {bs : List Byte} (hInv : s.Inv) : (State.tagSend s bs).Inv := by
  unfold State.tagSend
  with_reducible repeat' (first
    | assumption | apply keep_exchange | apply keep_send)

theorem keep_setTag {s : State} {t : Nat} (hInv : s.Inv) : (State.setTag s t).Inv := by
  unfold State.setTag
  with_reducible repeat' (first
    | assumption | fail_if_no_progress (refine inv_mk ?_ rfl rfl rfl rfl rfl rfl rfl rfl rfl))

theorem keep_sessionEnd {s : State} (hInv : s.Inv) : (State.sessionEnd s).Inv := by
  unfold State.sessionEnd
  with_reducible repeat' (first
    | assumption | apply keep_wr | apply keep_irq | (refine inv_ite (fun _ => ?_) (fun _ => ?_)) | fail_if_no_progress (refine inv_mk ?_ rfl rfl rfl rfl rfl rfl rfl rfl rfl))

theorem keep_reqa {s : State} (hInv : s.Inv) : (State.reqa s).Inv := by
  unfold State.reqa
  with_reducible repeat' (first
    | assumption | apply keep_setTag | apply keep_tagSend | (refine inv_ite (fun _ => ?_) (fun _ => ?_))
    | fail_if_no_progress (refine inv_mk ?_ rfl rfl rfl rfl rfl rfl rfl rfl rfl))

theorem keep_wupa {s : State} (hInv : s.Inv) : (State.wupa s).Inv := by
  unfold State.wupa
  with_reducible repeat' (first
    | assumption | apply keep_setTag | apply keep_tagSend | (refine inv_ite (fun _ => ?_) (fun _ => ?_))
    | fail_if_no_progress (refine inv_mk ?_ rfl rfl rfl rfl rfl rfl rfl rfl rfl))

theorem keep_anticollision {s : State} (hInv : s.Inv) : (State.anticollision s).Inv := by
  unfold State.anticollision
  with_reducible repeat' (first
    | assumption | apply keep_tagSend | (refine inv_ite (fun _ => ?_) (fun _ => ?_)))

theorem keep_tagSelect {s : State} {bs : List Byte} (hInv : s.Inv) : (State.tagSelect s bs).Inv := by
  unfold State.tagSelect
  with_reducible repeat' (first
    | assumption | apply keep_setTag | apply keep_tagSend | (refine inv_ite (fun _ => ?_) (fun _ => ?_))
    | fail_if_no_progress (refine inv_mk ?_ rfl rfl rfl rfl rfl rfl rfl rfl rfl))

theorem keep_rats {s : State} (hInv : s.Inv) : (State.rats s).Inv := by
  unfold State.rats
  with_reducible repeat' (first
    | assumption | (extract_lets +onlyGivenNames x; have hx : State.Inv x := ?_; (on_goal 1 => clear_value x); (on_goal 2 => subst x))
    | (extract_lets +onlyGivenNames x; first | (have _ : Book := x; subst x) | (have _ : Terr := x; subst x) | (have _ : Ens := x; subst x) | clear_value x)
    | apply keep_setTag | apply keep_wr | apply keep_irq | apply keep_tagSend | (refine inv_ite (fun _ => ?_) (fun _ => ?_))
    | fail_if_no_progress (refine inv_mk ?_ rfl rfl rfl rfl rfl rfl rfl rfl rfl))

theorem keep_tagPps {s : State} (hInv : s.Inv) : (State.tagPps s).Inv := by
  unfold State.tagPps
  with_reducible repeat' (first
    | assumption | apply keep_tagSend | (refine inv_ite (fun _ => ?_) (fun _ => ?_)))

theorem keep_hlta {s : State} (hInv : s.Inv) : (State.hlta s).Inv := by
  unfold State.hlta
  with_reducible repeat' (first
    | assumption | (extract_lets +onlyGivenNames x; have hx : State.Inv x := ?_; (on_goal 1 => clear_value x); (on_goal 2 => subst x))
    | (extract_lets +onlyGivenNames x; first | (have _ : Book := x; subst x) | (have _ : Terr := x; subst x) | (have _ : Ens := x; subst x) | clear_value x)
    | apply keep_sessionEnd | apply keep_setTag | apply keep_wr | apply keep_arm | apply keep_next | (refine inv_ite (fun _ => ?_) (fun _ => ?_))
    | fail_if_no_progress (refine inv_mk ?_ rfl rfl rfl rfl rfl rfl rfl rfl rfl))

theorem keep_silenceEnd {s : State} (hInv : s.Inv) : (State.silenceEnd s).Inv := by
  unfold State.silenceEnd
  with_reducible repeat' (first
    | assumption | apply keep_reachST | apply keep_wr | (refine inv_ite (fun _ => ?_) (fun _ => ?_))
    | fail_if_no_progress (refine inv_mk ?_ rfl rfl rfl rfl rfl rfl rfl rfl rfl))

theorem keep_tagDeselect {s : State} (hInv : s.Inv) : (State.tagDeselect s).Inv := by
  unfold State.tagDeselect
  with_reducible repeat' (first
    | assumption | apply keep_sessionEnd | apply keep_setTag | apply keep_tagSend | (refine inv_ite (fun _ => ?_) (fun _ => ?_)))

theorem keep_fieldLoss {s : State} (hInv : s.Inv) : (State.fieldLoss s).Inv := by
  unfold State.fieldLoss
  with_reducible repeat' (first
    | assumption | (extract_lets +onlyGivenNames x; have hx : State.Inv x := ?_; (on_goal 1 => clear_value x); (on_goal 2 => subst x))
    | (extract_lets +onlyGivenNames x; first | (have _ : Book := x; subst x) | (have _ : Terr := x; subst x) | (have _ : Ens := x; subst x) | clear_value x)
    | apply keep_sessionEnd | apply keep_disarm | apply keep_setTag | fail_if_no_progress (refine inv_mk ?_ rfl rfl rfl rfl rfl rfl rfl rfl rfl))

theorem keep_fieldChange {s : State} {present : Bool} (hInv : s.Inv) : (State.fieldChange s present).Inv := by
  unfold State.fieldChange
  with_reducible repeat' (first
    | assumption | (extract_lets +onlyGivenNames x; have hx : State.Inv x := ?_; (on_goal 1 => clear_value x); (on_goal 2 => subst x))
    | (extract_lets +onlyGivenNames x; first | (have _ : Book := x; subst x) | (have _ : Terr := x; subst x) | (have _ : Ens := x; subst x) | clear_value x) | apply keep_wr
    | apply keep_readerEnd | apply keep_setCarrier | apply keep_disarm | apply keep_arm | (refine inv_ite (fun _ => ?_) (fun _ => ?_))
    | fail_if_no_progress (refine inv_mk ?_ rfl rfl rfl rfl rfl rfl rfl rfl rfl))

theorem keep_tagRead {s : State} {p n : Nat} (hInv : s.Inv) : (State.tagRead s p n).Inv := by
  unfold State.tagRead
  with_reducible repeat' (first
    | assumption | (extract_lets +onlyGivenNames x; first | (have _ : Book := x; subst x) | (have _ : Terr := x; subst x) | (have _ : Ens := x; subst x) | clear_value x)
    | apply keep_tagSend | apply keep_irq | (refine inv_ite (fun _ => ?_) (fun _ => ?_)))

theorem keep_slotHome {s : State} {k : Nat} {t : TagSlot} (hInv : s.Inv) : (State.slotHome s k t).Inv := by
  unfold State.slotHome
  with_reducible repeat' (first
    | assumption | (extract_lets +onlyGivenNames x; have hx : State.Inv x := ?_; (on_goal 1 => clear_value x); (on_goal 2 => subst x))
    | (extract_lets +onlyGivenNames x; first | (have _ : Book := x; subst x) | (have _ : Terr := x; subst x) | (have _ : Ens := x; subst x) | clear_value x)
    | apply keep_tagPoke | fail_if_no_progress (refine inv_mk ?_ rfl rfl rfl rfl rfl rfl rfl rfl rfl))

theorem keep_mailBooked {s : State} (hInv : s.Inv) : (State.mailBooked s).Inv := by
  unfold State.mailBooked
  with_reducible repeat' (first
    | assumption | apply keep_irq | apply keep_post)

theorem keep_writeMb {s : State} {p n : Nat} {data : List Byte} {strong : Bool} {lost : Nat} (hInv : s.Inv) : (State.writeMb s p n data strong lost).Inv := by
  unfold State.writeMb
  with_reducible repeat' (first
    | assumption | (extract_lets +onlyGivenNames x; have hx : State.Inv x := ?_; (on_goal 1 => clear_value x); (on_goal 2 => subst x))
    | (extract_lets +onlyGivenNames x; first | (have _ : Book := x; subst x) | (have _ : Terr := x; subst x) | (have _ : Ens := x; subst x) | clear_value x)
    | apply keep_fieldLoss | apply keep_irq | apply keep_tagSend | apply keep_slotHome | apply keep_mailBooked | apply keep_next | (refine inv_ite (fun _ => ?_) (fun _ => ?_))
    | fail_if_no_progress (refine inv_mk ?_ rfl rfl rfl rfl rfl rfl rfl rfl rfl))

theorem keep_slotRedo {s : State} {k : Nat} (hInv : s.Inv) : (State.slotRedo s k).Inv := by
  unfold State.slotRedo
  with_reducible repeat' (first
    | assumption | apply keep_slotHome | apply keep_sat | apply keep_irq | apply keep_mailBooked | (split <;> try (rename_i e; replace e := inv_of_eq e ?_)))

theorem keep_tagPowerUp {s : State} {supply : Bool} (hInv : s.Inv) : (State.tagPowerUp s supply).Inv := by
  unfold State.tagPowerUp
  with_reducible repeat' (first
    | assumption | (extract_lets +onlyGivenNames x; have hx : State.Inv x := ?_; (on_goal 1 => clear_value x); (on_goal 2 => subst x))
    | (extract_lets +onlyGivenNames x; first | (have _ : Book := x; subst x) | (have _ : Terr := x; subst x) | (have _ : Ens := x; subst x) | clear_value x)
    | apply keep_slotRedo | apply keep_setTag | (refine inv_ite (fun _ => ?_) (fun _ => ?_)) | fail_if_no_progress (refine inv_mk ?_ rfl rfl rfl rfl rfl rfl rfl rfl rfl))

theorem keep_badgeSupplyLoss {s : State} (hInv : s.Inv) : (State.badgeSupplyLoss s).Inv := by
  unfold State.badgeSupplyLoss
  with_reducible repeat' (first
    | assumption | (extract_lets +onlyGivenNames x; have hx : State.Inv x := ?_; (on_goal 1 => clear_value x); (on_goal 2 => subst x))
    | (extract_lets +onlyGivenNames x; first | (have _ : Book := x; subst x) | (have _ : Terr := x; subst x) | (have _ : Ens := x; subst x) | clear_value x)
    | apply keep_readerStop | apply keep_sessionEnd | apply keep_setTag | (refine inv_ite (fun _ => ?_) (fun _ => ?_))
    | fail_if_no_progress (refine inv_mk ?_ rfl rfl rfl rfl rfl rfl rfl rfl rfl))

theorem keep_badgeStatRead {s : State} (hInv : s.Inv) : PInv (State.badgeStatRead s) := by
  unfold State.badgeStatRead
  with_reducible repeat' (first
    | assumption | apply keep_wr | fail_if_no_progress (refine inv_pair ?_))

end Sys2Proof.Machine
end

