-- ==== Sys2Proof/Laws/InvLink.lean ====
section
/-! SUPPORT. Every operation of Machine/Link.lean keeps the invariant of the device. -/

set_option maxRecDepth 4000
set_option linter.unusedTactic false
set_option linter.unreachableTactic false

namespace Sys2Proof.Machine

theorem keep_markStale {s : State} (hInv : s.Inv) : (State.markStale s).Inv := by
  unfold State.markStale
  with_reducible repeat' (first
    | assumption | apply keep_wr | apply keep_irq)

theorem keep_setStale {s : State} {b : Bool} (hInv : s.Inv) : (State.setStale s b).Inv := by
  unfold State.setStale
  with_reducible repeat' (first
    | assumption | apply keep_wr | apply keep_irq | (refine inv_ite (fun _ => ?_) (fun _ => ?_)))

theorem keep_pairState {s : State} {st reason : Nat} (hInv : s.Inv) : (State.pairState s st reason).Inv := by
  unfold State.pairState
  with_reducible repeat' (first
    | assumption | apply keep_wr | apply keep_irq | (refine inv_ite (fun _ => ?_) (fun _ => ?_)))

theorem keep_formHealth {s : State} (hInv : s.Inv) : (State.formHealth s).Inv := by
  unfold State.formHealth
  with_reducible repeat' (first
    | assumption | apply keep_setReg)

theorem keep_sendControl {s : State} {ty : Nat} (hInv : s.Inv) : (State.sendControl s ty).Inv := by
  unfold State.sendControl
  with_reducible repeat' (first
    | assumption | (extract_lets +onlyGivenNames x; have hx : State.Inv x := ?_; (on_goal 1 => clear_value x); (on_goal 2 => subst x))
    | (extract_lets +onlyGivenNames x; first | (have _ : Book := x; subst x) | (have _ : Terr := x; subst x) | (have _ : Ens := x; subst x) | clear_value x) | apply keep_send
    | (refine inv_ite (fun _ => ?_) (fun _ => ?_)) | fail_if_no_progress (refine inv_mk ?_ rfl rfl rfl rfl rfl rfl rfl rfl rfl))

theorem keep_unreadLinesBack {s : State} (hInv : s.Inv) : (State.unreadLinesBack s).Inv := by
  unfold State.unreadLinesBack
  with_reducible repeat' (first
    | assumption | apply keep_setDirty | apply keep_satCnt | (refine inv_foldl ?_ (fun _ _ _ => ?_)) | (split <;> try (rename_i e; replace e := inv_of_eq e ?_)))

theorem keep_forgetPairing {s : State} (hInv : s.Inv) : (State.forgetPairing s).Inv := by
  unfold State.forgetPairing
  with_reducible repeat' (first
    | assumption | apply keep_unreadLinesBack | fail_if_no_progress (refine inv_mk ?_ rfl rfl rfl rfl rfl rfl rfl rfl rfl))

theorem keep_breakPair {s : State} {reason : Nat} (hInv : s.Inv) : (State.breakPair s reason).Inv := by
  unfold State.breakPair
  with_reducible repeat' (first
    | assumption | (extract_lets +onlyGivenNames x; have hx : State.Inv x := ?_; (on_goal 1 => clear_value x); (on_goal 2 => subst x)) | apply keep_forgetPairing
    | apply keep_pairState | apply keep_disarm | apply keep_postU | apply keep_arm | (refine inv_ite (fun _ => ?_) (fun _ => ?_)))

theorem keep_gridBreak {s : State} (hInv : s.Inv) : (State.gridBreak s).Inv := by
  unfold State.gridBreak
  with_reducible repeat' (first
    | assumption | apply keep_breakPair | (refine inv_ite (fun _ => ?_) (fun _ => ?_)))

theorem keep_beginPairing {s : State} (hInv : s.Inv) : (State.beginPairing s).Inv := by
  unfold State.beginPairing
  with_reducible repeat' (first
    | assumption | (extract_lets +onlyGivenNames x; have hx : State.Inv x := ?_; (on_goal 1 => clear_value x); (on_goal 2 => subst x))
    | (extract_lets +onlyGivenNames x; first | (have _ : Book := x; subst x) | (have _ : Terr := x; subst x) | (have _ : Ens := x; subst x) | clear_value x)
    | apply keep_forgetPairing | apply keep_pairState | apply keep_disarm | apply keep_send | apply keep_next | (refine inv_ite (fun _ => ?_) (fun _ => ?_))
    | fail_if_no_progress (refine inv_mk ?_ rfl rfl rfl rfl rfl rfl rfl rfl rfl))

theorem keep_laneUp {s : State} {n : Nat} (hInv : s.Inv) : (State.laneUp s n).Inv := by
  unfold State.laneUp
  with_reducible repeat' (first
    | assumption | (extract_lets +onlyGivenNames x; have hx : State.Inv x := ?_; (on_goal 1 => clear_value x); (on_goal 2 => subst x))
    | (extract_lets +onlyGivenNames x; first | (have _ : Book := x; subst x) | (have _ : Terr := x; subst x) | (have _ : Ens := x; subst x) | clear_value x)
    | apply keep_beginPairing | (refine inv_ite (fun _ => ?_) (fun _ => ?_)) | fail_if_no_progress (refine inv_mk ?_ rfl rfl rfl rfl rfl rfl rfl rfl rfl))

theorem keep_laneDown {s : State} {n : Nat} (hInv : s.Inv) : (State.laneDown s n).Inv := by
  unfold State.laneDown
  with_reducible repeat' (first
    | assumption | (extract_lets +onlyGivenNames x; have hx : State.Inv x := ?_; (on_goal 1 => clear_value x); (on_goal 2 => subst x))
    | (extract_lets +onlyGivenNames x; first | (have _ : Book := x; subst x) | (have _ : Terr := x; subst x) | (have _ : Ens := x; subst x) | clear_value x)
    | apply keep_breakPair | (refine inv_ite (fun _ => ?_) (fun _ => ?_)) | fail_if_no_progress (refine inv_mk ?_ rfl rfl rfl rfl rfl rfl rfl rfl rfl))

theorem keep_s2Fault {s : State} (hInv : s.Inv) : (State.s2Fault s).Inv := by
  unfold State.s2Fault
  with_reducible repeat' (first
    | assumption | apply keep_irq | apply keep_breakPair | fail_if_no_progress (refine inv_mk ?_ rfl rfl rfl rfl rfl rfl rfl rfl rfl))

theorem keep_sendAuth {s : State} (hInv : s.Inv) : (State.sendAuth s).Inv := by
  unfold State.sendAuth
  with_reducible repeat' (first
    | assumption | apply keep_send)

theorem keep_partnerBroke {s : State} (hInv : s.Inv) : (State.partnerBroke s).Inv := by
  unfold State.partnerBroke
  with_reducible repeat' (first
    | assumption | apply keep_forgetPairing | apply keep_pairState | apply keep_next | (refine inv_ite (fun _ => ?_) (fun _ => ?_)))

theorem keep_helloRx {s : State} {role : Nat} {body : List Byte} (hInv : s.Inv) : (State.helloRx s role body).Inv := by
  unfold State.helloRx
  with_reducible repeat' (first
    | assumption | (extract_lets +onlyGivenNames x; have hx : State.Inv x := ?_; (on_goal 1 => clear_value x); (on_goal 2 => subst x))
    | (extract_lets +onlyGivenNames x; first | (have _ : Book := x; subst x) | (have _ : Terr := x; subst x) | (have _ : Ens := x; subst x) | clear_value x)
    | apply keep_partnerBroke | apply keep_beginPairing | apply keep_breakPair | apply keep_sendAuth | apply keep_send | apply keep_next
    | (refine inv_ite (fun _ => ?_) (fun _ => ?_)) | fail_if_no_progress (refine inv_mk ?_ rfl rfl rfl rfl rfl rfl rfl rfl rfl))

theorem keep_keyRx {s : State} {body : List Byte} (hInv : s.Inv) : (State.keyRx s body).Inv := by
  unfold State.keyRx
  with_reducible repeat' (first
    | assumption | apply keep_sendAuth | (refine inv_ite (fun _ => ?_) (fun _ => ?_)) | fail_if_no_progress (refine inv_mk ?_ rfl rfl rfl rfl rfl rfl rfl rfl rfl))

theorem keep_authRx {s : State} {body : List Byte} (hInv : s.Inv) : (State.authRx s body).Inv := by
  unfold State.authRx
  with_reducible repeat' (first
    | assumption | apply keep_breakPair | (refine inv_ite (fun _ => ?_) (fun _ => ?_)) | fail_if_no_progress (refine inv_mk ?_ rfl rfl rfl rfl rfl rfl rfl rfl rfl))

theorem keep_pairKeyed {s : State} (hInv : s.Inv) : (State.pairKeyed s).Inv := by
  unfold State.pairKeyed
  with_reducible repeat' (first
    | assumption | (extract_lets +onlyGivenNames x; have hx : State.Inv x := ?_; (on_goal 1 => clear_value x); (on_goal 2 => subst x))
    | (extract_lets +onlyGivenNames x; first | (have _ : Book := x; subst x) | (have _ : Terr := x; subst x) | (have _ : Ens := x; subst x) | clear_value x)
    | apply keep_pairState | apply keep_markStale | apply keep_next | (refine inv_foldl ?_ (fun _ _ _ => ?_)) | (refine inv_ite (fun _ => ?_) (fun _ => ?_))
    | fail_if_no_progress (refine inv_mk ?_ rfl rfl rfl rfl rfl rfl rfl rfl rfl))

theorem keep_pairRetry {s : State} (hInv : s.Inv) : (State.pairRetry s).Inv := by
  unfold State.pairRetry
  with_reducible repeat' (first
    | assumption | apply keep_beginPairing | (refine inv_ite (fun _ => ?_) (fun _ => ?_)))

theorem keep_lanesFollow {s : State} (hInv : s.Inv) : (State.lanesFollow s).Inv := by
  unfold State.lanesFollow
  with_reducible repeat' (first
    | assumption | apply keep_pairState | apply keep_forgetPairing | apply keep_disarm | (refine inv_ite (fun _ => ?_) (fun _ => ?_))
    | fail_if_no_progress (refine inv_mk ?_ rfl rfl rfl rfl rfl rfl rfl rfl rfl))

end Sys2Proof.Machine
end

