-- ==== Sys2Proof/Laws/InvDoubleTake.lean ====
section
/-! SUPPORT. Every operation of Machine/DoubleTake.lean keeps the invariant of the device. -/

set_option maxRecDepth 4000
set_option linter.unusedTactic false
set_option linter.unreachableTactic false

namespace Sys2Proof.Machine

theorem keep_dtDisagree {s : State} (hInv : s.Inv) : (State.dtDisagree s).Inv := by
  unfold State.dtDisagree
  with_reducible repeat' (first
    | assumption | (extract_lets +onlyGivenNames x; have hx : State.Inv x := ?_; (on_goal 1 => clear_value x); (on_goal 2 => subst x))
    | (extract_lets +onlyGivenNames x; first | (have _ : Book := x; subst x) | (have _ : Terr := x; subst x) | (have _ : Ens := x; subst x) | clear_value x) | apply keep_sat
    | apply keep_irq | apply keep_postU | (refine inv_ite (fun _ => ?_) (fun _ => ?_)) | fail_if_no_progress (refine inv_mk ?_ rfl rfl rfl rfl rfl rfl rfl rfl rfl))

theorem keep_twice {s : State} {agree : Bool} (hInv : s.Inv) : PInv (State.twice s agree) := by
  unfold State.twice
  with_reducible repeat' (first
    | assumption | apply keep_dtDisagree | (refine inv_ite2 (fun _ => ?_) (fun _ => ?_)) | fail_if_no_progress (refine inv_pair ?_))

theorem keep_dtRead {s : State} {a : Nat} (hInv : s.Inv) : PInv (State.dtRead s a) := by
  unfold State.dtRead
  with_reducible repeat' (first
    | assumption | (extract_lets +onlyGivenNames x; have hx : State.Inv x := ?_; (on_goal 1 => clear_value x); (on_goal 2 => subst x)) | refine inv_snd ?_
    | apply keep_reportUE | apply keep_next | (refine inv_foldl2 ?_ (fun _ _ _ => ?_)) | (refine inv_ite2 (fun _ => ?_) (fun _ => ?_))
    | fail_if_no_progress (refine inv_pair ?_))

theorem keep_dtPath {s : State} {g : Nat} {l : List (Nat × Word)} (hInv : s.Inv) : PInv (State.dtPath s g l) := by
  unfold State.dtPath
  extract_lets q o
  have h1 := inv_snd (keep_dtRead (a := q.dtBlock g) hInv)
  refine inv_ite2 (fun _ => inv_pair hInv) (fun _ => ?_)
  exact inv_ite2 (fun _ => inv_pair h1) (fun _ => inv_ite2 (fun _ => inv_pair h1) (fun _ => inv_ite2 (fun _ => inv_pair h1) (fun _ => inv_pair h1)))

theorem keep_dtLaunch {s : State} {g due : Nat} {t : Option TicketRef} (hInv : s.Inv) : (State.dtLaunch s g due t).Inv := by
  unfold State.dtLaunch
  with_reducible repeat' (first
    | assumption | (extract_lets +onlyGivenNames x; first | (have _ : Book := x; subst x) | (have _ : Terr := x; subst x) | (have _ : Ens := x; subst x) | clear_value x)
    | apply keep_dtPath | apply keep_next | (split <;> try (rename_i e; replace e := inv_of_eq e ?_))
    | fail_if_no_progress (refine inv_mk ?_ rfl rfl rfl rfl rfl rfl rfl rfl rfl))

theorem keep_dtPath2 {s : State} {g : Nat} {old : Option (List (Nat × Word))} (hInv : s.Inv) : PInv (State.dtPath2 s g old) := by
  unfold State.dtPath2
  with_reducible repeat' (first
    | assumption | apply keep_dtPath)

theorem keep_dtRecord {s : State} {g v : Nat} (hInv : s.Inv) : (State.dtRecord s g v).Inv := by
  unfold State.dtRecord
  with_reducible repeat' (first
    | assumption | apply keep_dtDisagree | apply keep_sat | apply keep_postU | (refine inv_ite (fun _ => ?_) (fun _ => ?_))
    | fail_if_no_progress (refine inv_mk ?_ rfl rfl rfl rfl rfl rfl rfl rfl rfl))

theorem keep_dtHandover {s : State} {g v w : Nat} (hInv : s.Inv) : (State.dtHandover s g v w).Inv := by
  unfold State.dtHandover
  with_reducible repeat' (first
    | assumption | (extract_lets +onlyGivenNames x; have hx : State.Inv x := ?_; (on_goal 1 => clear_value x); (on_goal 2 => subst x))
    | (extract_lets +onlyGivenNames x; first | (have _ : Book := x; subst x) | (have _ : Terr := x; subst x) | (have _ : Ens := x; subst x) | clear_value x) | apply keep_sat
    | apply keep_sendControl | apply keep_irq | (refine inv_ite (fun _ => ?_) (fun _ => ?_)) | fail_if_no_progress (refine inv_mk ?_ rfl rfl rfl rfl rfl rfl rfl rfl rfl))

theorem keep_dtFinish {s : State} {g : Nat} (hInv : s.Inv) : (State.dtFinish s g).Inv := by
  unfold State.dtFinish
  with_reducible repeat' (first
    | assumption | (extract_lets +onlyGivenNames x; have hx : State.Inv x := ?_; (on_goal 1 => clear_value x); (on_goal 2 => subst x))
    | (extract_lets +onlyGivenNames x; first | (have _ : Book := x; subst x) | (have _ : Terr := x; subst x) | (have _ : Ens := x; subst x) | clear_value x)
    | refine inv_snd ?_ | apply keep_reachST | apply keep_dtPath2 | apply keep_wr | apply keep_dtHandover | apply keep_dtRecord | apply keep_complete | apply keep_next
    | (refine inv_ite (fun _ => ?_) (fun _ => ?_)) | (split <;> try (rename_i e; replace e := inv_of_eq e ?_))
    | fail_if_no_progress (refine inv_mk ?_ rfl rfl rfl rfl rfl rfl rfl rfl rfl))

theorem keep_dtCommit {s : State} {g : Nat} (hInv : s.Inv) : (State.dtCommit s g).Inv := by
  unfold State.dtCommit
  with_reducible repeat' (first
    | assumption | (extract_lets +onlyGivenNames x; have hx : State.Inv x := ?_; (on_goal 1 => clear_value x); (on_goal 2 => subst x))
    | (extract_lets +onlyGivenNames x; first | (have _ : Book := x; subst x) | (have _ : Terr := x; subst x) | (have _ : Ens := x; subst x) | clear_value x)
    | apply keep_reachST | apply keep_wr | apply keep_tripCommit | (refine inv_ite (fun _ => ?_) (fun _ => ?_)) | (split <;> try (rename_i e; replace e := inv_of_eq e ?_))
    | fail_if_no_progress (refine inv_mk ?_ rfl rfl rfl rfl rfl rfl rfl rfl rfl))

end Sys2Proof.Machine
end

