-- ==== Sys2Proof/Laws/InvMemCmd.lean ====
section
/-! SUPPORT. Every operation of Machine/MemCmd.lean keeps the invariant of the device. -/

set_option maxRecDepth 4000
set_option linter.unusedTactic false
set_option linter.unreachableTactic false

namespace Sys2Proof.Machine

theorem keep_lateStore {s : State} {m k len a : Nat} (hInv : s.Inv) : (State.lateStore s m k len a).Inv := by
  unfold State.lateStore
  with_reducible repeat' (first
    | assumption | apply keep_lateError | (refine inv_ite (fun _ => ?_) (fun _ => ?_)))

theorem keep_setBank {s : State} {n st : Nat} (hInv : s.Inv) : (State.setBank s n st).Inv := by
  unfold State.setBank
  with_reducible repeat' (first
    | assumption | apply keep_wr)

theorem keep_bankStop {s : State} {n : Nat} (hInv : s.Inv) : (State.bankStop s n).Inv := by
  unfold State.bankStop
  with_reducible repeat' (first
    | assumption | apply keep_disarm)

theorem keep_dirtyAll {s : State} {n : Nat} (hInv : s.Inv) : (State.dirtyAll s n).Inv := by
  unfold State.dirtyAll
  with_reducible repeat' (first
    | assumption | (refine inv_ite (fun _ => ?_) (fun _ => ?_)) | fail_if_no_progress (refine inv_mk ?_ rfl rfl rfl rfl rfl rfl rfl rfl rfl))

theorem keep_dirtyNone {s : State} {n : Nat} (hInv : s.Inv) : (State.dirtyNone s n).Inv := by
  unfold State.dirtyNone
  with_reducible repeat' (first
    | assumption | fail_if_no_progress (refine inv_mk ?_ rfl rfl rfl rfl rfl rfl rfl rfl rfl))

theorem keep_dropSending {s : State} {n : Nat} (hInv : s.Inv) : (State.dropSending s n).Inv := by
  unfold State.dropSending
  with_reducible repeat' (first
    | assumption | fail_if_no_progress (refine inv_mk ?_ rfl rfl rfl rfl rfl rfl rfl rfl rfl))

theorem keep_zeroBank {s : State} {n : Nat} (hInv : s.Inv) : (State.zeroBank s n).Inv := by
  unfold State.zeroBank
  with_reducible repeat' (first
    | assumption | (extract_lets +onlyGivenNames x; have hx : State.Inv x := ?_; (on_goal 1 => clear_value x); (on_goal 2 => subst x))
    | (extract_lets +onlyGivenNames x; first | (have _ : Book := x; subst x) | (have _ : Terr := x; subst x) | (have _ : Ens := x; subst x) | clear_value x) | apply keep_wipe
    | fail_if_no_progress (refine inv_mk ?_ rfl rfl rfl rfl rfl rfl rfl rfl rfl))

theorem keep_startZero {s : State} {n : Nat} (hInv : s.Inv) : (State.startZero s n).Inv := by
  unfold State.startZero
  with_reducible repeat' (first
    | assumption | apply keep_bankStop | apply keep_setBank | apply keep_zeroBank | apply keep_dropSending | apply keep_dirtyAll | apply keep_arm)

theorem keep_bankOff {s : State} {n : Nat} (hInv : s.Inv) : (State.bankOff s n).Inv := by
  unfold State.bankOff
  with_reducible repeat' (first
    | assumption | apply keep_bankStop | apply keep_setBank | apply keep_zeroBank | apply keep_dropSending | apply keep_wr)

theorem keep_serveWaiting {s : State} {w : Nat × Nat × List Byte} (hInv : s.Inv) : (State.serveWaiting s w).Inv := by
  unfold State.serveWaiting
  with_reducible repeat' (first
    | assumption | (extract_lets +onlyGivenNames x; first | (have _ : Book := x; subst x) | (have _ : Terr := x; subst x) | (have _ : Ens := x; subst x) | clear_value x)
    | apply keep_reportBad | apply keep_lateStore | apply keep_ramStore | (refine inv_ite (fun _ => ?_) (fun _ => ?_)))

theorem keep_flushBank {s : State} {n : Nat} (hInv : s.Inv) : (State.flushBank s n).Inv := by
  unfold State.flushBank
  with_reducible repeat' (first
    | assumption | (extract_lets +onlyGivenNames x; first | (have _ : Book := x; subst x) | (have _ : Terr := x; subst x) | (have _ : Ens := x; subst x) | clear_value x)
    | apply keep_serveWaiting | (refine inv_foldl ?_ (fun _ _ _ => ?_)) | fail_if_no_progress (refine inv_mk ?_ rfl rfl rfl rfl rfl rfl rfl rfl rfl))

theorem keep_bankCommit {s : State} {n : Nat} {new : Word} (hInv : s.Inv) : (State.bankCommit s n new).Inv := by
  unfold State.bankCommit
  with_reducible repeat' (first
    | assumption | (extract_lets +onlyGivenNames x; have hx : State.Inv x := ?_; (on_goal 1 => clear_value x); (on_goal 2 => subst x))
    | (extract_lets +onlyGivenNames x; first | (have _ : Book := x; subst x) | (have _ : Terr := x; subst x) | (have _ : Ens := x; subst x) | clear_value x)
    | apply keep_flushBank | apply keep_setLive | apply keep_dirtyAll | apply keep_dirtyNone | apply keep_bankOff | apply keep_setBank | apply keep_dropSending
    | apply keep_wr | apply keep_bankStop | apply keep_startZero | apply keep_arm | (refine inv_ite (fun _ => ?_) (fun _ => ?_)))

theorem keep_bankWoken {s : State} {n : Nat} (hInv : s.Inv) : (State.bankWoken s n).Inv := by
  unfold State.bankWoken
  with_reducible repeat' (first
    | assumption | apply keep_startZero | (refine inv_ite (fun _ => ?_) (fun _ => ?_)))

theorem keep_bankZeroed {s : State} {n : Nat} (hInv : s.Inv) : (State.bankZeroed s n).Inv := by
  unfold State.bankZeroed
  with_reducible repeat' (first
    | assumption | (extract_lets +onlyGivenNames x; have hx : State.Inv x := ?_; (on_goal 1 => clear_value x); (on_goal 2 => subst x)) | apply keep_setBank | apply keep_irq
    | apply keep_dropSending | (refine inv_ite (fun _ => ?_) (fun _ => ?_)))

theorem keep_bankResumed {s : State} {n : Nat} (hInv : s.Inv) : (State.bankResumed s n).Inv := by
  unfold State.bankResumed
  with_reducible repeat' (first
    | assumption | apply keep_setBank | (refine inv_ite (fun _ => ?_) (fun _ => ?_)))

theorem keep_reqWaits {s : State} {m n : Nat} (hInv : s.Inv) : (State.reqWaits s m n).Inv := by
  unfold State.reqWaits
  with_reducible repeat' (first
    | assumption | (extract_lets +onlyGivenNames x; have hx : State.Inv x := ?_; (on_goal 1 => clear_value x); (on_goal 2 => subst x))
    | (extract_lets +onlyGivenNames x; first | (have _ : Book := x; subst x) | (have _ : Terr := x; subst x) | (have _ : Ens := x; subst x) | clear_value x)
    | apply keep_satCnt | apply keep_irq | (refine inv_ite (fun _ => ?_) (fun _ => ?_)) | fail_if_no_progress (refine inv_mk ?_ rfl rfl rfl rfl rfl rfl rfl rfl rfl))

theorem keep_reqEcc {s : State} {r : TReq} (hInv : s.Inv) : (State.reqEcc s r).Inv := by
  unfold State.reqEcc
  with_reducible repeat' (first
    | assumption | (extract_lets +onlyGivenNames x; first | (have _ : Book := x; subst x) | (have _ : Terr := x; subst x) | (have _ : Ens := x; subst x) | clear_value x)
    | apply keep_reportCE | (refine inv_ite (fun _ => ?_) (fun _ => ?_)) | fail_if_no_progress (refine inv_mk ?_ rfl rfl rfl rfl rfl rfl rfl rfl rfl))

theorem keep_serveOne {s : State} {r : TReq} (hInv : s.Inv) : (State.serveOne s r).Inv := by
  unfold State.serveOne
  have h0 := keep_reqEcc (r := r) hInv
  refine inv_ite (fun _ => ?_) (fun _ => inv_ite (fun _ => ?_) (fun _ => inv_ite (fun _ => ?_) (fun _ => ?_)))
  · extract_lets l
    split
    · rename_i hc
      rw [Bool.and_eq_true, decide_eq_true_eq] at hc
      exact keep_rescue hInv hc.2
    · exact hInv
  · have h := keep_busAtomic (m := r.master) (a := r.addr) (f := r.update) h0
    split
    · exact inv_mk (inv_of_eq ‹_› h) rfl rfl rfl rfl rfl rfl rfl rfl rfl
    · exact inv_of_eq ‹_› h
  · have h := keep_unitWrite (m := r.master) (a := r.addr) (bs := padTo r.len r.data) h0
    split
    · exact keep_lateStore (inv_of_eq ‹_› h)
    · exact inv_of_eq ‹_› h
  · have h := keep_unitRead (m := r.master) (a := r.addr) (len := r.len) h0
    split
    · exact inv_mk (inv_of_eq ‹_› h) rfl rfl rfl rfl rfl rfl rfl rfl rfl
    · exact inv_of_eq ‹_› h

theorem keep_serveRequest {s : State} {rs : List TReq} (hInv : s.Inv) : (State.serveRequest s rs).Inv := by
  unfold State.serveRequest
  with_reducible repeat' (first
    | assumption | apply keep_reqWaits | apply keep_serveOne | (refine inv_foldl ?_ (fun _ _ _ => ?_)) | (split <;> try (rename_i e; replace e := inv_of_eq e ?_)))

theorem keep_eccWriteback {s : State} (hInv : s.Inv) : (State.eccWriteback s).Inv := by
  unfold State.eccWriteback
  with_reducible repeat' (first
    | assumption | fail_if_no_progress (refine inv_mk ?_ rfl rfl rfl rfl rfl rfl rfl rfl rfl))

theorem keep_rescueResume {s : State} (hInv : s.Inv) : (State.rescueResume s).Inv := by
  unfold State.rescueResume
  split
  · exact hInv
  · extract_lets ls
    refine inv_ite (fun h => keep_serveWaiting (keep_rescues ?_ h)) (fun _ => hInv)
    exact inv_mk hInv rfl rfl rfl rfl rfl rfl rfl rfl rfl

end Sys2Proof.Machine
end

