-- ==== Sys2Proof/Laws/InvModes.lean ====
section
/-! SUPPORT. Every operation of Machine/Modes.lean keeps the invariant of the device. -/

set_option maxRecDepth 4000
set_option linter.unusedTactic false
set_option linter.unreachableTactic false

namespace Sys2Proof.Machine

theorem keep_refuseMode {s : State} {t : Nat} (hInv : s.Inv) : (State.refuseMode s t).Inv := by
  unfold State.refuseMode
  with_reducible repeat' (first
    | assumption | apply keep_sat | apply keep_post)

theorem keep_modeReqWrite {s : State} {w : Word} (hInv : s.Inv) : (State.modeReqWrite s w).Inv := by
  unfold State.modeReqWrite
  with_reducible repeat' (first
    | assumption | (extract_lets +onlyGivenNames x; have hx : State.Inv x := ?_; (on_goal 1 => clear_value x); (on_goal 2 => subst x))
    | (extract_lets +onlyGivenNames x; first | (have _ : Book := x; subst x) | (have _ : Terr := x; subst x) | (have _ : Ens := x; subst x) | clear_value x)
    | apply keep_refuseMode | apply keep_wr | (refine inv_ite (fun _ => ?_) (fun _ => ?_)) | fail_if_no_progress (refine inv_mk ?_ rfl rfl rfl rfl rfl rfl rfl rfl rfl))

theorem keep_landBank {s : State} {n : Nat} (hInv : s.Inv) : (State.landBank s n).Inv := by
  unfold State.landBank
  with_reducible repeat' (first
    | assumption | (extract_lets +onlyGivenNames x; have hx : State.Inv x := ?_; (on_goal 1 => clear_value x); (on_goal 2 => subst x))
    | (extract_lets +onlyGivenNames x; first | (have _ : Book := x; subst x) | (have _ : Terr := x; subst x) | (have _ : Ens := x; subst x) | clear_value x)
    | apply keep_bankCommit | apply keep_setReg | apply keep_setLive | (refine inv_foldl ?_ (fun _ _ _ => ?_)))

theorem keep_landBanks {s : State} (hInv : s.Inv) : (State.landBanks s).Inv := by
  unfold State.landBanks
  with_reducible repeat' (first
    | assumption | (extract_lets +onlyGivenNames x; first | (have _ : Book := x; subst x) | (have _ : Terr := x; subst x) | (have _ : Ens := x; subst x) | clear_value x)
    | apply keep_landBank | apply keep_ownCommit | (refine inv_foldl ?_ (fun _ _ _ => ?_)))

theorem keep_dropTransfers {s : State} (hInv : s.Inv) : (State.dropTransfers s).Inv := by
  unfold State.dropTransfers
  with_reducible repeat' (first
    | assumption | fail_if_no_progress (refine inv_mk ?_ rfl rfl rfl rfl rfl rfl rfl rfl rfl))

theorem keep_enterMode {s : State} {m : Mode} {cause : Nat} (hInv : s.Inv) : (State.enterMode s m cause).Inv := by
  unfold State.enterMode
  with_reducible repeat' (first
    | assumption | (extract_lets +onlyGivenNames x; have hx : State.Inv x := ?_; (on_goal 1 => clear_value x); (on_goal 2 => subst x))
    | (extract_lets +onlyGivenNames x; first | (have _ : Book := x; subst x) | (have _ : Terr := x; subst x) | (have _ : Ens := x; subst x) | clear_value x) | apply keep_wr
    | apply keep_post | apply keep_setGears | apply keep_portMode | apply keep_setHeld | apply keep_lanesFollow | apply keep_dropTransfers | apply keep_landBanks
    | apply keep_summaryOwed | (refine inv_foldl ?_ (fun _ _ _ => ?_)) | (refine inv_ite (fun _ => ?_) (fun _ => ?_))
    | fail_if_no_progress (refine inv_mk ?_ rfl rfl rfl rfl rfl rfl rfl rfl rfl))

end Sys2Proof.Machine
end

