-- ==== Sys2Proof/Laws/InvUnderstudy.lean ====
section
/-! SUPPORT. Every operation of Machine/Understudy.lean keeps the invariant of the device. -/

set_option maxRecDepth 4000
set_option linter.unusedTactic false
set_option linter.unreachableTactic false

namespace Sys2Proof.Machine

theorem keep_aliveBoundary {s : State} (hInv : s.Inv) : (State.aliveBoundary s).Inv := by
  unfold State.aliveBoundary
  with_reducible repeat' (first
    | assumption | (extract_lets +onlyGivenNames x; have hx : State.Inv x := ?_; (on_goal 1 => clear_value x); (on_goal 2 => subst x))
    | (extract_lets +onlyGivenNames x; first | (have _ : Book := x; subst x) | (have _ : Terr := x; subst x) | (have _ : Ens := x; subst x) | clear_value x)
    | (refine inv_ite (fun _ => ?_) (fun _ => ?_)) | (split <;> try (rename_i e; replace e := inv_of_eq e ?_))
    | fail_if_no_progress (refine inv_mk ?_ rfl rfl rfl rfl rfl rfl rfl rfl rfl))

theorem keep_carryLine {s : State} {bank line : Nat} (hInv : s.Inv) : (State.carryLine s bank line).Inv := by
  unfold State.carryLine
  with_reducible repeat' (first
    | assumption | apply keep_setDirty | apply keep_satCnt)

theorem keep_mergeSending {s : State} (hInv : s.Inv) : (State.mergeSending s).Inv := by
  unfold State.mergeSending
  with_reducible repeat' (first
    | assumption | apply keep_carryLine | (refine inv_foldl ?_ (fun _ _ _ => ?_)) | fail_if_no_progress (refine inv_mk ?_ rfl rfl rfl rfl rfl rfl rfl rfl rfl))

/-- A shorter rescue buffer keeps the invariant. -/
theorem keep_setRescue {s : State} {t : Terr} {u : Und} (h : s.Inv) (ht : t.rescue.length ≤ s.terr.rescue.length) :
    (State.Inv { s with terr := t, us := u }) :=
  And.intro h.1 ⟨h.2.1, h.2.2.1, h.2.2.2.1, Nat.le_trans ht h.2.2.2.2.1, h.2.2.2.2.2⟩


theorem keep_mirrorSeal {s : State} {x : Xfer} {cap : Nat} (hInv : s.Inv) : (State.mirrorSeal s x cap).Inv := by
  unfold State.mirrorSeal
  with_reducible repeat' (first
    | assumption | (extract_lets +onlyGivenNames x; have hx : State.Inv x := ?_; (on_goal 1 => clear_value x); (on_goal 2 => subst x))
    | (extract_lets +onlyGivenNames x; first | (have _ : Book := x; subst x) | (have _ : Terr := x; subst x) | (have _ : Ens := x; subst x) | clear_value x) | apply keep_send
    | apply keep_carryLine | apply keep_mergeSending | apply keep_observe | apply keep_wr | apply keep_sat | apply keep_postU | apply keep_complete | (refine keep_setRescue ?_ (Nat.zero_le _))
    | (refine inv_foldl ?_ (fun _ _ _ => ?_)) | (refine inv_ite (fun _ => ?_) (fun _ => ?_)) | fail_if_no_progress (refine inv_mk ?_ rfl rfl rfl rfl rfl rfl rfl rfl rfl))

theorem keep_mirrorEnd {s : State} (hInv : s.Inv) : (State.mirrorEnd s).Inv := by
  unfold State.mirrorEnd
  with_reducible repeat' (first
    | assumption | (extract_lets +onlyGivenNames x; have hx : State.Inv x := ?_; (on_goal 1 => clear_value x); (on_goal 2 => subst x))
    | (extract_lets +onlyGivenNames x; first | (have _ : Book := x; subst x) | (have _ : Terr := x; subst x) | (have _ : Ens := x; subst x) | clear_value x)
    | apply keep_reachST | apply keep_mirrorSeal | (split <;> try (rename_i e; replace e := inv_of_eq e ?_)))

theorem keep_openEpoch {s : State} (hInv : s.Inv) : (State.openEpoch s).Inv := by
  unfold State.openEpoch
  with_reducible repeat' (first
    | assumption | (extract_lets +onlyGivenNames x; have hx : State.Inv x := ?_; (on_goal 1 => clear_value x); (on_goal 2 => subst x))
    | (extract_lets +onlyGivenNames x; first | (have _ : Book := x; subst x) | (have _ : Terr := x; subst x) | (have _ : Ens := x; subst x) | clear_value x) | apply keep_wr
    | apply keep_dirtyAll | (refine inv_foldl ?_ (fun _ _ _ => ?_)) | fail_if_no_progress (refine inv_mk ?_ rfl rfl rfl rfl rfl rfl rfl rfl rfl))

theorem keep_handoverCue {s : State} (hInv : s.Inv) : (State.handoverCue s).Inv := by
  unfold State.handoverCue
  with_reducible repeat' (first
    | assumption | (extract_lets +onlyGivenNames x; have hx : State.Inv x := ?_; (on_goal 1 => clear_value x); (on_goal 2 => subst x))
    | (extract_lets +onlyGivenNames x; first | (have _ : Book := x; subst x) | (have _ : Terr := x; subst x) | (have _ : Ens := x; subst x) | clear_value x) | apply keep_irq
    | apply keep_postU | (refine inv_ite (fun _ => ?_) (fun _ => ?_)) | (split <;> try (rename_i e; replace e := inv_of_eq e ?_))
    | fail_if_no_progress (refine inv_mk ?_ rfl rfl rfl rfl rfl rfl rfl rfl rfl))

theorem keep_handoverDrop {s : State} (hInv : s.Inv) : (State.handoverDrop s).Inv := by
  unfold State.handoverDrop
  with_reducible repeat' (first
    | assumption | (extract_lets +onlyGivenNames x; have hx : State.Inv x := ?_; (on_goal 1 => clear_value x); (on_goal 2 => subst x))
    | (extract_lets +onlyGivenNames x; first | (have _ : Book := x; subst x) | (have _ : Terr := x; subst x) | (have _ : Ens := x; subst x) | clear_value x) | apply keep_sat
    | apply keep_irq | fail_if_no_progress (refine inv_mk ?_ rfl rfl rfl rfl rfl rfl rfl rfl rfl))

theorem keep_handoverCheck {s : State} (hInv : s.Inv) : (State.handoverCheck s).Inv := by
  unfold State.handoverCheck
  with_reducible repeat' (first
    | assumption | (extract_lets +onlyGivenNames x; have hx : State.Inv x := ?_; (on_goal 1 => clear_value x); (on_goal 2 => subst x))
    | (extract_lets +onlyGivenNames x; first | (have _ : Book := x; subst x) | (have _ : Terr := x; subst x) | (have _ : Ens := x; subst x) | clear_value x)
    | apply keep_reachST | apply keep_sendControl | apply keep_handoverDrop | (refine inv_ite (fun _ => ?_) (fun _ => ?_))
    | fail_if_no_progress (refine inv_mk ?_ rfl rfl rfl rfl rfl rfl rfl rfl rfl))

theorem keep_readyRx {s : State} {switch : Nat} (hInv : s.Inv) : (State.readyRx s switch).Inv := by
  unfold State.readyRx
  with_reducible repeat' (first
    | assumption | (refine inv_ite (fun _ => ?_) (fun _ => ?_)) | fail_if_no_progress (refine inv_mk ?_ rfl rfl rfl rfl rfl rfl rfl rfl rfl))

theorem keep_unready {s : State} (hInv : s.Inv) : (State.unready s).Inv := by
  unfold State.unready
  with_reducible repeat' (first
    | assumption | apply keep_irq | (refine inv_ite (fun _ => ?_) (fun _ => ?_)) | fail_if_no_progress (refine inv_mk ?_ rfl rfl rfl rfl rfl rfl rfl rfl rfl))

theorem keep_pulseRx {s : State} {health : Word} {sent delay : Nat} (hInv : s.Inv) : (State.pulseRx s health sent delay).Inv := by
  unfold State.pulseRx
  with_reducible repeat' (first
    | assumption | (extract_lets +onlyGivenNames x; have hx : State.Inv x := ?_; (on_goal 1 => clear_value x); (on_goal 2 => subst x))
    | (extract_lets +onlyGivenNames x; first | (have _ : Book := x; subst x) | (have _ : Terr := x; subst x) | (have _ : Ens := x; subst x) | clear_value x)
    | apply keep_setReg | (refine inv_ite (fun _ => ?_) (fun _ => ?_)) | fail_if_no_progress (refine inv_mk ?_ rfl rfl rfl rfl rfl rfl rfl rfl rfl))

theorem keep_pulseSend {s : State} (hInv : s.Inv) : (State.pulseSend s).Inv := by
  unfold State.pulseSend
  with_reducible repeat' (first
    | assumption | apply keep_reachST | apply keep_sendControl | (refine inv_ite (fun _ => ?_) (fun _ => ?_)))

theorem keep_shadowCompare {s : State} {own prev : Digests} {lead : Digests} (hInv : s.Inv) : (State.shadowCompare s own prev lead).Inv := by
  unfold State.shadowCompare
  with_reducible repeat' (first
    | assumption | (extract_lets +onlyGivenNames x; have hx : State.Inv x := ?_; (on_goal 1 => clear_value x); (on_goal 2 => subst x))
    | (extract_lets +onlyGivenNames x; first | (have _ : Book := x; subst x) | (have _ : Terr := x; subst x) | (have _ : Ens := x; subst x) | clear_value x) | apply keep_sat
    | apply keep_irq | apply keep_postU | (refine inv_ite (fun _ => ?_) (fun _ => ?_)) | fail_if_no_progress (refine inv_mk ?_ rfl rfl rfl rfl rfl rfl rfl rfl rfl))

theorem keep_shadowTry {s : State} {frame : Nat} (hInv : s.Inv) : (State.shadowTry s frame).Inv := by
  unfold State.shadowTry
  with_reducible repeat' (first
    | assumption | (extract_lets +onlyGivenNames x; have hx : State.Inv x := ?_; (on_goal 1 => clear_value x); (on_goal 2 => subst x))
    | (extract_lets +onlyGivenNames x; first | (have _ : Book := x; subst x) | (have _ : Terr := x; subst x) | (have _ : Ens := x; subst x) | clear_value x)
    | apply keep_shadowCompare | apply keep_sat | (refine inv_ite (fun _ => ?_) (fun _ => ?_)) | (split <;> try (rename_i e; replace e := inv_of_eq e ?_))
    | fail_if_no_progress (refine inv_mk ?_ rfl rfl rfl rfl rfl rfl rfl rfl rfl))

theorem keep_startSending {s : State} (hInv : s.Inv) : (State.startSending s).Inv := by
  unfold State.startSending
  with_reducible repeat' (first
    | assumption | (extract_lets +onlyGivenNames x; have hx : State.Inv x := ?_; (on_goal 1 => clear_value x); (on_goal 2 => subst x))
    | (extract_lets +onlyGivenNames x; first | (have _ : Book := x; subst x) | (have _ : Terr := x; subst x) | (have _ : Ens := x; subst x) | clear_value x)
    | apply keep_mergeSending | fail_if_no_progress (refine inv_mk ?_ rfl rfl rfl rfl rfl rfl rfl rfl rfl))

theorem keep_countOpen {s : State} (hInv : s.Inv) : (State.countOpen s).Inv := by
  unfold State.countOpen
  with_reducible repeat' (first
    | assumption | (extract_lets +onlyGivenNames x; have hx : State.Inv x := ?_; (on_goal 1 => clear_value x); (on_goal 2 => subst x))
    | (extract_lets +onlyGivenNames x; first | (have _ : Book := x; subst x) | (have _ : Terr := x; subst x) | (have _ : Ens := x; subst x) | clear_value x) | apply keep_next
    | (refine inv_foldl ?_ (fun _ _ _ => ?_)) | fail_if_no_progress (refine inv_mk ?_ rfl rfl rfl rfl rfl rfl rfl rfl rfl))

theorem keep_closeWindows {s : State} (hInv : s.Inv) : PInv (State.closeWindows s) := by
  unfold State.closeWindows
  with_reducible repeat' (first
    | assumption | (extract_lets +onlyGivenNames x; have hx : State.Inv x := ?_; (on_goal 1 => clear_value x); (on_goal 2 => subst x))
    | (extract_lets +onlyGivenNames x; first | (have _ : Book := x; subst x) | (have _ : Terr := x; subst x) | (have _ : Ens := x; subst x) | clear_value x)
    | apply keep_countOpen | fail_if_no_progress (refine inv_mk ?_ rfl rfl rfl rfl rfl rfl rfl rfl rfl) | fail_if_no_progress (refine inv_pair ?_))

theorem keep_readCheckpoints {s : State} (hInv : s.Inv) : PInv (State.readCheckpoints s) := by
  unfold State.readCheckpoints
  with_reducible repeat' (first
    | assumption | refine inv_snd ?_ | apply keep_dmaRead | (refine inv_foldl2 ?_ (fun _ _ _ => ?_)) | (split <;> try (rename_i e; replace e := inv_of_eq e ?_))
    | fail_if_no_progress (refine inv_pair ?_))

theorem keep_mirrorCue {s : State} {t : Option TicketRef} (hInv : s.Inv) : (State.mirrorCue s t).Inv := by
  unfold State.mirrorCue
  with_reducible repeat' (first
    | assumption | (extract_lets +onlyGivenNames x; have hx : State.Inv x := ?_; (on_goal 1 => clear_value x); (on_goal 2 => subst x))
    | (extract_lets +onlyGivenNames x; first | (have _ : Book := x; subst x) | (have _ : Terr := x; subst x) | (have _ : Ens := x; subst x) | clear_value x)
    | refine inv_snd ?_ | apply keep_mirrorSeal | apply keep_closeWindows | apply keep_shadowTry | apply keep_complete | apply keep_startSending | apply keep_handoverCue
    | apply keep_openEpoch | apply keep_readCheckpoints | (refine keep_setRescue ?_ (Nat.zero_le _)) | (refine inv_ite (fun _ => ?_) (fun _ => ?_))
    | (split <;> try (rename_i e; replace e := inv_of_eq e ?_)) | fail_if_no_progress (refine inv_mk ?_ rfl rfl rfl rfl rfl rfl rfl rfl rfl))

theorem keep_mirrorLineRead {s : State} (hInv : s.Inv) : (State.mirrorLineRead s).Inv := by
  unfold State.mirrorLineRead
  split
  · exact hInv
  · split
    · rename_i he
      exact keep_setRescue hInv (by rw [he]; exact Nat.le_succ _)
    · split
      · exact inv_mk (inv_snd (keep_readLine hInv)) rfl rfl rfl rfl rfl rfl rfl rfl rfl
      · exact hInv

theorem keep_mirrorLand {s : State} {m : MirrorMsg} {sealOk : Bool} (hInv : s.Inv) : (State.mirrorLand s m sealOk).Inv := by
  unfold State.mirrorLand
  with_reducible repeat' (first
    | assumption | (extract_lets +onlyGivenNames x; have hx : State.Inv x := ?_; (on_goal 1 => clear_value x); (on_goal 2 => subst x))
    | (extract_lets +onlyGivenNames x; first | (have _ : Book := x; subst x) | (have _ : Terr := x; subst x) | (have _ : Ens := x; subst x) | clear_value x)
    | refine inv_snd ?_ | apply keep_dmaWrite | fail_if_no_progress (refine inv_mk ?_ rfl rfl rfl rfl rfl rfl rfl rfl rfl))

theorem keep_mirrorRx {s : State} {m : MirrorMsg} {sealOk : Bool} (hInv : s.Inv) : (State.mirrorRx s m sealOk).Inv := by
  unfold State.mirrorRx
  with_reducible repeat' (first
    | assumption | apply keep_mirrorLand | (refine inv_ite (fun _ => ?_) (fun _ => ?_)) | fail_if_no_progress (refine inv_mk ?_ rfl rfl rfl rfl rfl rfl rfl rfl rfl))

theorem keep_landParked {s : State} (hInv : s.Inv) : (State.landParked s).Inv := by
  unfold State.landParked
  with_reducible repeat' (first
    | assumption | (extract_lets +onlyGivenNames x; have hx : State.Inv x := ?_; (on_goal 1 => clear_value x); (on_goal 2 => subst x))
    | (extract_lets +onlyGivenNames x; first | (have _ : Book := x; subst x) | (have _ : Terr := x; subst x) | (have _ : Ens := x; subst x) | clear_value x)
    | apply keep_mirrorLand | (refine inv_ite (fun _ => ?_) (fun _ => ?_)) | (split <;> try (rename_i e; replace e := inv_of_eq e ?_))
    | fail_if_no_progress (refine inv_mk ?_ rfl rfl rfl rfl rfl rfl rfl rfl rfl))

theorem keep_mirrorFirst {s : State} {n : Nat} (hInv : s.Inv) : (State.mirrorFirst s n).Inv := by
  unfold State.mirrorFirst
  with_reducible repeat' (first
    | assumption | (refine inv_ite (fun _ => ?_) (fun _ => ?_)) | (split <;> try (rename_i e; replace e := inv_of_eq e ?_))
    | fail_if_no_progress (refine inv_mk ?_ rfl rfl rfl rfl rfl rfl rfl rfl rfl))

theorem keep_mirrorDiscard {s : State} {n : Nat} (hInv : s.Inv) : (State.mirrorDiscard s n).Inv := by
  unfold State.mirrorDiscard
  with_reducible repeat' (first
    | assumption | apply keep_markStale | apply keep_postU | apply keep_sat | apply keep_irq | fail_if_no_progress (refine inv_mk ?_ rfl rfl rfl rfl rfl rfl rfl rfl rfl))

theorem keep_sealVerify {s : State} (hInv : s.Inv) : (State.sealVerify s).Inv := by
  unfold State.sealVerify
  with_reducible repeat' (first
    | assumption | (extract_lets +onlyGivenNames x; have hx : State.Inv x := ?_; (on_goal 1 => clear_value x); (on_goal 2 => subst x))
    | (extract_lets +onlyGivenNames x; first | (have _ : Book := x; subst x) | (have _ : Terr := x; subst x) | (have _ : Ens := x; subst x) | clear_value x)
    | apply keep_setReg | apply keep_shadowTry | apply keep_sendControl | apply keep_mirrorDiscard | (refine inv_ite (fun _ => ?_) (fun _ => ?_))
    | (split <;> try (rename_i e; replace e := inv_of_eq e ?_)) | fail_if_no_progress (refine inv_mk ?_ rfl rfl rfl rfl rfl rfl rfl rfl rfl))

theorem keep_setMirrored {s : State} {key : Nat} {v : Word} (hInv : s.Inv) : (State.setMirrored s key v).Inv := by
  unfold State.setMirrored
  with_reducible repeat' (first
    | assumption | apply keep_setReg | apply keep_setLive)

theorem keep_applyBanks {s : State} {items : List CfgItem} (hInv : s.Inv) : (State.applyBanks s items).Inv := by
  unfold State.applyBanks
  with_reducible repeat' (first
    | assumption | (extract_lets +onlyGivenNames x; have hx : State.Inv x := ?_; (on_goal 1 => clear_value x); (on_goal 2 => subst x))
    | (extract_lets +onlyGivenNames x; first | (have _ : Book := x; subst x) | (have _ : Terr := x; subst x) | (have _ : Ens := x; subst x) | clear_value x)
    | apply keep_bankCommit | apply keep_setReg | apply keep_ownCommit | (refine inv_foldl ?_ (fun _ _ _ => ?_)) | (refine inv_ite (fun _ => ?_) (fun _ => ?_)))

theorem keep_applyMemory {s : State} {m : MirrorMsg} (hInv : s.Inv) : (State.applyMemory s m).Inv := by
  unfold State.applyMemory
  with_reducible repeat' (first
    | assumption | (extract_lets +onlyGivenNames x; have hx : State.Inv x := ?_; (on_goal 1 => clear_value x); (on_goal 2 => subst x)) | refine inv_snd ?_
    | apply keep_dmaWrite | (refine inv_foldl ?_ (fun _ _ _ => ?_)))

theorem keep_applyQueues {s : State} {m : MirrorMsg} (hInv : s.Inv) : (State.applyQueues s m).Inv := by
  unfold State.applyQueues
  with_reducible repeat' (first
    | assumption | apply keep_setQueue | apply keep_restartIdle | (refine inv_foldl ?_ (fun _ _ _ => ?_)))

theorem keep_applyPins {s : State} {l : List Nat} {pins : Option (List Byte)} (hInv : s.Inv) : (State.applyPins s l pins).Inv := by
  unfold State.applyPins
  with_reducible repeat' (first
    | assumption | apply keep_command | (refine inv_foldl ?_ (fun _ _ _ => ?_)) | (split <;> try (rename_i e; replace e := inv_of_eq e ?_)))

theorem keep_applyConfig {s : State} {items : List CfgItem} {cues : List (Nat × List Word)} (hInv : s.Inv) : (State.applyConfig s items cues).Inv := by
  unfold State.applyConfig
  with_reducible repeat' (first
    | assumption | (extract_lets +onlyGivenNames x; have hx : State.Inv x := ?_; (on_goal 1 => clear_value x); (on_goal 2 => subst x))
    | (extract_lets +onlyGivenNames x; first | (have _ : Book := x; subst x) | (have _ : Terr := x; subst x) | (have _ : Ens := x; subst x) | clear_value x)
    | apply keep_cueCtrlWrite | apply keep_setReg | apply keep_setMirrored | apply keep_ensFresh | apply keep_packerCommit | apply keep_setCueWord | apply keep_dropWaiting
    | apply keep_pinsApplied | apply keep_gridChanged | apply keep_gridBreak | apply keep_ownCommit | (refine inv_foldl ?_ (fun _ _ _ => ?_))
    | (refine inv_ite (fun _ => ?_) (fun _ => ?_)))

theorem keep_applyRest {s : State} {pins : Option (List Byte)} {items : List CfgItem} {cues : List (Nat × List Word)} (hInv : s.Inv) : (State.applyRest s pins items cues).Inv := by
  unfold State.applyRest
  with_reducible repeat' (first
    | assumption | (extract_lets +onlyGivenNames x; have hx : State.Inv x := ?_; (on_goal 1 => clear_value x); (on_goal 2 => subst x))
    | (extract_lets +onlyGivenNames x; first | (have _ : Book := x; subst x) | (have _ : Terr := x; subst x) | (have _ : Ens := x; subst x) | clear_value x)
    | apply keep_applyPins | apply keep_applyConfig)

theorem keep_keepItems {s : State} {m : MirrorMsg} (hInv : s.Inv) : (State.keepItems s m).Inv := by
  unfold State.keepItems
  with_reducible repeat' (first
    | assumption | (extract_lets +onlyGivenNames x; first | (have _ : Book := x; subst x) | (have _ : Terr := x; subst x) | (have _ : Ens := x; subst x) | clear_value x)
    | fail_if_no_progress (refine inv_mk ?_ rfl rfl rfl rfl rfl rfl rfl rfl rfl))

theorem keep_keepPins {s : State} {pins : Option (List Byte)} (hInv : s.Inv) : (State.keepPins s pins).Inv := by
  unfold State.keepPins
  with_reducible repeat' (first
    | assumption | (refine inv_ite (fun _ => ?_) (fun _ => ?_)) | fail_if_no_progress (refine inv_mk ?_ rfl rfl rfl rfl rfl rfl rfl rfl rfl))

theorem keep_applyKept {s : State} (hInv : s.Inv) : (State.applyKept s).Inv := by
  unfold State.applyKept
  with_reducible repeat' (first
    | assumption | (extract_lets +onlyGivenNames x; have hx : State.Inv x := ?_; (on_goal 1 => clear_value x); (on_goal 2 => subst x))
    | (extract_lets +onlyGivenNames x; first | (have _ : Book := x; subst x) | (have _ : Terr := x; subst x) | (have _ : Ens := x; subst x) | clear_value x)
    | apply keep_applyRest | fail_if_no_progress (refine inv_mk ?_ rfl rfl rfl rfl rfl rfl rfl rfl rfl))

theorem keep_applied {s : State} {m : MirrorMsg} (hInv : s.Inv) : (State.applied s m).Inv := by
  unfold State.applied
  with_reducible repeat' (first
    | assumption | (extract_lets +onlyGivenNames x; have hx : State.Inv x := ?_; (on_goal 1 => clear_value x); (on_goal 2 => subst x))
    | (extract_lets +onlyGivenNames x; first | (have _ : Book := x; subst x) | (have _ : Terr := x; subst x) | (have _ : Ens := x; subst x) | clear_value x) | apply keep_wr
    | apply keep_setReg | apply keep_landParked | apply keep_setStale | apply keep_markStale | (refine inv_ite (fun _ => ?_) (fun _ => ?_))
    | fail_if_no_progress (refine inv_mk ?_ rfl rfl rfl rfl rfl rfl rfl rfl rfl))

theorem keep_applySteps {s : State} {m : MirrorMsg} (hInv : s.Inv) : (State.applySteps s m).Inv := by
  unfold State.applySteps
  with_reducible repeat' (first
    | assumption | (extract_lets +onlyGivenNames x; have hx : State.Inv x := ?_; (on_goal 1 => clear_value x); (on_goal 2 => subst x)) | apply keep_applyMemory
    | apply keep_applyQueues | apply keep_keepItems | apply keep_keepPins | apply keep_applyRest | apply keep_applied | (refine inv_ite (fun _ => ?_) (fun _ => ?_)))

theorem keep_mirrorApply {s : State} (hInv : s.Inv) : (State.mirrorApply s).Inv := by
  unfold State.mirrorApply
  with_reducible repeat' (first
    | assumption | apply keep_applySteps | apply keep_applyBanks | (refine inv_ite (fun _ => ?_) (fun _ => ?_)) | (split <;> try (rename_i e; replace e := inv_of_eq e ?_))
    | fail_if_no_progress (refine inv_mk ?_ rfl rfl rfl rfl rfl rfl rfl rfl rfl))

theorem keep_missCount {s : State} {f : Fld} {seen : Bool} (hInv : s.Inv) : (State.missCount s f seen).Inv := by
  unfold State.missCount
  with_reducible repeat' (first
    | assumption | apply keep_wr | (refine inv_ite (fun _ => ?_) (fun _ => ?_)))

theorem keep_peerFlags {s : State} {pulse alive lost : Bool} (hInv : s.Inv) : (State.peerFlags s pulse alive lost).Inv := by
  unfold State.peerFlags
  with_reducible repeat' (first
    | assumption | (extract_lets +onlyGivenNames x; have hx : State.Inv x := ?_; (on_goal 1 => clear_value x); (on_goal 2 => subst x))
    | (extract_lets +onlyGivenNames x; first | (have _ : Book := x; subst x) | (have _ : Terr := x; subst x) | (have _ : Ens := x; subst x) | clear_value x) | apply keep_irq
    | (refine inv_ite (fun _ => ?_) (fun _ => ?_)) | fail_if_no_progress (refine inv_mk ?_ rfl rfl rfl rfl rfl rfl rfl rfl rfl))

theorem keep_declareFailure {s : State} (hInv : s.Inv) : (State.declareFailure s).Inv := by
  unfold State.declareFailure
  with_reducible repeat' (first
    | assumption | (extract_lets +onlyGivenNames x; have hx : State.Inv x := ?_; (on_goal 1 => clear_value x); (on_goal 2 => subst x))
    | (extract_lets +onlyGivenNames x; first | (have _ : Book := x; subst x) | (have _ : Terr := x; subst x) | (have _ : Ens := x; subst x) | clear_value x) | apply keep_irq
    | apply keep_handoverDrop | (refine inv_ite (fun _ => ?_) (fun _ => ?_)) | fail_if_no_progress (refine inv_mk ?_ rfl rfl rfl rfl rfl rfl rfl rfl rfl))

theorem keep_resolveCheck {s : State} {seen lost : Bool × Bool} (hInv : s.Inv) : (State.resolveCheck s seen lost).Inv := by
  unfold State.resolveCheck
  with_reducible repeat' (first
    | assumption | (extract_lets +onlyGivenNames x; have hx : State.Inv x := ?_; (on_goal 1 => clear_value x); (on_goal 2 => subst x))
    | (extract_lets +onlyGivenNames x; first | (have _ : Book := x; subst x) | (have _ : Terr := x; subst x) | (have _ : Ens := x; subst x) | clear_value x)
    | apply keep_peerFlags | apply keep_declareFailure | apply keep_markStale | apply keep_setStale | apply keep_postU | (refine inv_ite (fun _ => ?_) (fun _ => ?_))
    | fail_if_no_progress (refine inv_mk ?_ rfl rfl rfl rfl rfl rfl rfl rfl rfl))

theorem keep_failureCheck {s : State} (hInv : s.Inv) : (State.failureCheck s).Inv := by
  unfold State.failureCheck
  with_reducible repeat' (first
    | assumption | (extract_lets +onlyGivenNames x; have hx : State.Inv x := ?_; (on_goal 1 => clear_value x); (on_goal 2 => subst x))
    | (extract_lets +onlyGivenNames x; first | (have _ : Book := x; subst x) | (have _ : Terr := x; subst x) | (have _ : Ens := x; subst x) | clear_value x)
    | apply keep_reachST | apply keep_missCount | apply keep_resolveCheck | apply keep_setHeld | (refine inv_ite (fun _ => ?_) (fun _ => ?_))
    | fail_if_no_progress (refine inv_mk ?_ rfl rfl rfl rfl rfl rfl rfl rfl rfl))

theorem keep_resumeCore {s : State} {n : Nat} (hInv : s.Inv) : (State.resumeCore s n).Inv := by
  unfold State.resumeCore
  with_reducible repeat' (first
    | assumption | (extract_lets +onlyGivenNames x; have hx : State.Inv x := ?_; (on_goal 1 => clear_value x); (on_goal 2 => subst x))
    | (extract_lets +onlyGivenNames x; first | (have _ : Book := x; subst x) | (have _ : Terr := x; subst x) | (have _ : Ens := x; subst x) | clear_value x) | apply keep_wr
    | apply keep_startCore | apply keep_setCore)

theorem keep_freshLead {s : State} (hInv : s.Inv) : (State.freshLead s).Inv := by
  unfold State.freshLead
  with_reducible repeat' (first
    | assumption | fail_if_no_progress (refine inv_mk ?_ rfl rfl rfl rfl rfl rfl rfl rfl rfl))

theorem keep_lead {s : State} {f cause : Nat} (hInv : s.Inv) : (State.lead s f cause).Inv := by
  unfold State.lead
  with_reducible repeat' (first
    | assumption | (extract_lets +onlyGivenNames x; have hx : State.Inv x := ?_; (on_goal 1 => clear_value x); (on_goal 2 => subst x))
    | (extract_lets +onlyGivenNames x; first | (have _ : Book := x; subst x) | (have _ : Terr := x; subst x) | (have _ : Ens := x; subst x) | clear_value x)
    | apply keep_applySteps | apply keep_freshLead | apply keep_loseRequests | apply keep_setReg | apply keep_enterMode | apply keep_postU | apply keep_irq
    | apply keep_resumeCore | (refine inv_foldl ?_ (fun _ _ _ => ?_)) | (refine inv_ite (fun _ => ?_) (fun _ => ?_))
    | (split <;> try (rename_i e; replace e := inv_of_eq e ?_)) | fail_if_no_progress (refine inv_mk ?_ rfl rfl rfl rfl rfl rfl rfl rfl rfl))

theorem keep_takeover {s : State} {agree : Bool} (hInv : s.Inv) : (State.takeover s agree).Inv := by
  unfold State.takeover
  with_reducible repeat' (first
    | assumption | (extract_lets +onlyGivenNames x; have hx : State.Inv x := ?_; (on_goal 1 => clear_value x); (on_goal 2 => subst x))
    | (extract_lets +onlyGivenNames x; first | (have _ : Book := x; subst x) | (have _ : Terr := x; subst x) | (have _ : Ens := x; subst x) | clear_value x)
    | apply keep_reachST | apply keep_applySteps | apply keep_twice | apply keep_lead | (refine inv_ite (fun _ => ?_) (fun _ => ?_))
    | (split <;> try (rename_i e; replace e := inv_of_eq e ?_)) | fail_if_no_progress (refine inv_mk ?_ rfl rfl rfl rfl rfl rfl rfl rfl rfl))

theorem keep_selftestOne {s : State} {test : Nat} {pass : Bool} (hInv : s.Inv) : PInv (State.selftestOne s test pass) := by
  unfold State.selftestOne
  with_reducible repeat' (first
    | assumption | (extract_lets +onlyGivenNames x; have hx : State.Inv x := ?_; (on_goal 1 => clear_value x); (on_goal 2 => subst x))
    | (extract_lets +onlyGivenNames x; first | (have _ : Book := x; subst x) | (have _ : Terr := x; subst x) | (have _ : Ens := x; subst x) | clear_value x)
    | apply keep_reportUE | apply keep_postU | apply keep_irq | (refine inv_foldl ?_ (fun _ _ _ => ?_)) | (refine inv_ite (fun _ => ?_) (fun _ => ?_))
    | (refine inv_ite2 (fun _ => ?_) (fun _ => ?_)) | fail_if_no_progress (refine inv_mk ?_ rfl rfl rfl rfl rfl rfl rfl rfl rfl) | fail_if_no_progress (refine inv_pair ?_))

theorem keep_selftestRun {s : State} {test : Nat} {pass : Bool} (hInv : s.Inv) : (State.selftestRun s test pass).Inv := by
  unfold State.selftestRun
  with_reducible repeat' (first
    | assumption | refine inv_snd ?_ | apply keep_selftestOne | (refine inv_ite (fun _ => ?_) (fun _ => ?_)))

theorem keep_usCtrlWrite {s : State} {w : Word} (hInv : s.Inv) : (State.usCtrlWrite s w).Inv := by
  unfold State.usCtrlWrite
  with_reducible repeat' (first
    | assumption | (extract_lets +onlyGivenNames x; have hx : State.Inv x := ?_; (on_goal 1 => clear_value x); (on_goal 2 => subst x))
    | (extract_lets +onlyGivenNames x; first | (have _ : Book := x; subst x) | (have _ : Terr := x; subst x) | (have _ : Ens := x; subst x) | clear_value x)
    | apply keep_lanesFollow | apply keep_landBanks | apply keep_breakPair | apply keep_setStale | (refine inv_ite (fun _ => ?_) (fun _ => ?_))
    | fail_if_no_progress (refine inv_mk ?_ rfl rfl rfl rfl rfl rfl rfl rfl rfl))

theorem keep_holdSet {s : State} {w : Word} (hInv : s.Inv) : (State.holdSet s w).Inv := by
  unfold State.holdSet
  with_reducible repeat' (first
    | assumption | apply keep_setReg)

theorem keep_holdClr {s : State} {w : Word} (hInv : s.Inv) : (State.holdClr s w).Inv := by
  unfold State.holdClr
  with_reducible repeat' (first
    | assumption | apply keep_setReg)

end Sys2Proof.Machine
end

