-- ==== Sys2Proof/Laws/InvTroupe.lean ====
section
/-! SUPPORT. Every operation of Machine/Troupe.lean keeps the invariant of the device. -/

set_option maxRecDepth 4000
set_option linter.unusedTactic false
set_option linter.unreachableTactic false

namespace Sys2Proof.Machine

theorem keep_troupeShow {s : State} (hInv : s.Inv) : (State.troupeShow s).Inv := by
  unfold State.troupeShow
  with_reducible repeat' (first
    | assumption | (extract_lets +onlyGivenNames x; first | (have _ : Book := x; subst x) | (have _ : Terr := x; subst x) | (have _ : Ens := x; subst x) | clear_value x)
    | apply keep_wr)

theorem keep_troupeQueue {s : State} {n : Nat} {b : List Byte} (hInv : s.Inv) : (State.troupeQueue s n b).Inv := by
  unfold State.troupeQueue
  with_reducible repeat' (first
    | assumption | (extract_lets +onlyGivenNames x; first | (have _ : Book := x; subst x) | (have _ : Terr := x; subst x) | (have _ : Ens := x; subst x) | clear_value x)
    | apply keep_setPort | apply keep_txDrop | (refine inv_ite (fun _ => ?_) (fun _ => ?_)))

theorem keep_troupePost {s : State} {dest : Option Nat} {b : List Byte} (hInv : s.Inv) : (State.troupePost s dest b).Inv := by
  unfold State.troupePost
  with_reducible repeat' (first
    | assumption | (extract_lets +onlyGivenNames x; have hx : PInv x := ?_; (on_goal 1 => clear_value x); (on_goal 2 => subst x))
    | (extract_lets +onlyGivenNames x; first | (have _ : Book := x; subst x) | (have _ : Terr := x; subst x) | (have _ : Ens := x; subst x) | clear_value x)
    | refine inv_snd ?_ | apply keep_troupeQueue | apply keep_nextSeq | (refine inv_foldl ?_ (fun _ _ _ => ?_)) | (refine inv_ite (fun _ => ?_) (fun _ => ?_)))

theorem keep_troupeSend {s : State} {ty prot : Nat} {dest : Option Nat} {key payload : List Byte} (hInv : s.Inv) : (State.troupeSend s ty prot dest key payload).Inv := by
  unfold State.troupeSend
  with_reducible repeat' (first
    | assumption | (extract_lets +onlyGivenNames x; first | (have _ : Book := x; subst x) | (have _ : Terr := x; subst x) | (have _ : Ens := x; subst x) | clear_value x)
    | apply keep_troupePost | (refine inv_foldl ?_ (fun _ _ _ => ?_)) | (refine inv_ite (fun _ => ?_) (fun _ => ?_))
    | fail_if_no_progress (refine inv_mk ?_ rfl rfl rfl rfl rfl rfl rfl rfl rfl))

theorem keep_troupeRefuse {s : State} (hInv : s.Inv) : (State.troupeRefuse s).Inv := by
  unfold State.troupeRefuse
  with_reducible repeat' (first
    | assumption | apply keep_sat | apply keep_irq)

theorem keep_troupeAccept {s : State} {h : THead} {prot : Nat} {director exch : Bool} (hInv : s.Inv) : PInv (State.troupeAccept s h prot director exch) := by
  unfold State.troupeAccept
  with_reducible repeat' (first
    | assumption | (extract_lets +onlyGivenNames x; first | (have _ : Book := x; subst x) | (have _ : Terr := x; subst x) | (have _ : Ens := x; subst x) | clear_value x)
    | apply keep_troupeRefuse | apply keep_post | (refine inv_ite2 (fun _ => ?_) (fun _ => ?_)) | fail_if_no_progress (refine inv_mk ?_ rfl rfl rfl rfl rfl rfl rfl rfl rfl)
    | fail_if_no_progress (refine inv_pair ?_))

theorem keep_directorHeard {s : State} (hInv : s.Inv) : (State.directorHeard s).Inv := by
  unfold State.directorHeard
  with_reducible repeat' (first
    | assumption | apply keep_wr | apply keep_arm)

theorem keep_memberGo {s : State} {k st : Nat} (hInv : s.Inv) : (State.memberGo s k st).Inv := by
  unfold State.memberGo
  with_reducible repeat' (first
    | assumption | (extract_lets +onlyGivenNames x; have hx : State.Inv x := ?_; (on_goal 1 => clear_value x); (on_goal 2 => subst x)) | apply keep_wr | apply keep_irq
    | apply keep_post | apply keep_troupeShow | (refine inv_ite (fun _ => ?_) (fun _ => ?_)))

theorem keep_strangerFound {s : State} {k mac : Nat} {print : List Byte} (hInv : s.Inv) : (State.strangerFound s k mac print).Inv := by
  unfold State.strangerFound
  with_reducible repeat' (first
    | assumption | (extract_lets +onlyGivenNames x; have hx : State.Inv x := ?_; (on_goal 1 => clear_value x); (on_goal 2 => subst x))
    | (extract_lets +onlyGivenNames x; first | (have _ : Book := x; subst x) | (have _ : Terr := x; subst x) | (have _ : Ens := x; subst x) | clear_value x) | apply keep_wr
    | apply keep_irq | apply keep_post | apply keep_troupeShow | (refine inv_ite (fun _ => ?_) (fun _ => ?_)))

theorem keep_newSession {s : State} {k : Nat} {key : Option (List Byte)} (hInv : s.Inv) : (State.newSession s k key).Inv := by
  unfold State.newSession
  with_reducible repeat' (first
    | assumption | (extract_lets +onlyGivenNames x; have hx : State.Inv x := ?_; (on_goal 1 => clear_value x); (on_goal 2 => subst x))
    | (extract_lets +onlyGivenNames x; first | (have _ : Book := x; subst x) | (have _ : Terr := x; subst x) | (have _ : Ens := x; subst x) | clear_value x) | apply keep_arm
    | (refine inv_ite (fun _ => ?_) (fun _ => ?_)) | fail_if_no_progress (refine inv_mk ?_ rfl rfl rfl rfl rfl rfl rfl rfl rfl))

theorem keep_rollBegin {s : State} (hInv : s.Inv) : (State.rollBegin s).Inv := by
  unfold State.rollBegin
  with_reducible repeat' (first
    | assumption | (extract_lets +onlyGivenNames x; have hx : State.Inv x := ?_; (on_goal 1 => clear_value x); (on_goal 2 => subst x))
    | (extract_lets +onlyGivenNames x; first | (have _ : Book := x; subst x) | (have _ : Terr := x; subst x) | (have _ : Ens := x; subst x) | clear_value x)
    | apply keep_troupeSend | apply keep_arm | apply keep_troupeShow | apply keep_next | (refine inv_ite (fun _ => ?_) (fun _ => ?_))
    | fail_if_no_progress (refine inv_mk ?_ rfl rfl rfl rfl rfl rfl rfl rfl rfl))

theorem keep_rollCall {s : State} (hInv : s.Inv) : (State.rollCall s).Inv := by
  unfold State.rollCall
  with_reducible repeat' (first
    | assumption | apply keep_rollBegin | apply keep_reachST | (refine inv_ite (fun _ => ?_) (fun _ => ?_)))

theorem keep_sendAttest {s : State} {nonce : Nat} (hInv : s.Inv) : (State.sendAttest s nonce).Inv := by
  unfold State.sendAttest
  with_reducible repeat' (first
    | assumption | (extract_lets +onlyGivenNames x; have hx : State.Inv x := ?_; (on_goal 1 => clear_value x); (on_goal 2 => subst x))
    | (extract_lets +onlyGivenNames x; first | (have _ : Book := x; subst x) | (have _ : Terr := x; subst x) | (have _ : Ens := x; subst x) | clear_value x)
    | apply keep_troupeSend | apply keep_next | fail_if_no_progress (refine inv_mk ?_ rfl rfl rfl rfl rfl rfl rfl rfl rfl))

theorem keep_rollRx {s : State} {h : THead} {nonce : Nat} (hInv : s.Inv) : (State.rollRx s h nonce).Inv := by
  unfold State.rollRx
  with_reducible repeat' (first
    | assumption | (extract_lets +onlyGivenNames x; have hx : State.Inv x := ?_; (on_goal 1 => clear_value x); (on_goal 2 => subst x))
    | (extract_lets +onlyGivenNames x; first | (have _ : Book := x; subst x) | (have _ : Terr := x; subst x) | (have _ : Ens := x; subst x) | clear_value x)
    | apply keep_troupeAccept | apply keep_directorHeard | apply keep_sendAttest | apply keep_arm | (split <;> try (rename_i e; replace e := inv_of_eq e ?_))
    | fail_if_no_progress (refine inv_mk ?_ rfl rfl rfl rfl rfl rfl rfl rfl rfl))

theorem keep_oldKeyDone {s : State} (hInv : s.Inv) : (State.oldKeyDone s).Inv := by
  unfold State.oldKeyDone
  with_reducible repeat' (first
    | assumption | (refine inv_ite (fun _ => ?_) (fun _ => ?_)) | fail_if_no_progress (refine inv_mk ?_ rfl rfl rfl rfl rfl rfl rfl rfl rfl))

theorem keep_welcome {s : State} {k : Nat} {attest : List Byte} (hInv : s.Inv) : (State.welcome s k attest).Inv := by
  unfold State.welcome
  with_reducible repeat' (first
    | assumption | (extract_lets +onlyGivenNames x; have hx : State.Inv x := ?_; (on_goal 1 => clear_value x); (on_goal 2 => subst x))
    | (extract_lets +onlyGivenNames x; first | (have _ : Book := x; subst x) | (have _ : Terr := x; subst x) | (have _ : Ens := x; subst x) | clear_value x)
    | apply keep_newSession | apply keep_memberGo | apply keep_troupeSend | apply keep_oldKeyDone | apply keep_next
    | fail_if_no_progress (refine inv_mk ?_ rfl rfl rfl rfl rfl rfl rfl rfl rfl))

theorem keep_attestRx {s : State} {h : THead} {payload : List Byte} {sigOk : Bool} (hInv : s.Inv) : (State.attestRx s h payload sigOk).Inv := by
  unfold State.attestRx
  with_reducible repeat' (first
    | assumption | (extract_lets +onlyGivenNames x; have hx : State.Inv x := ?_; (on_goal 1 => clear_value x); (on_goal 2 => subst x))
    | (extract_lets +onlyGivenNames x; first | (have _ : Book := x; subst x) | (have _ : Terr := x; subst x) | (have _ : Ens := x; subst x) | clear_value x)
    | apply keep_troupeAccept | apply keep_troupeRefuse | apply keep_newSession | apply keep_strangerFound | apply keep_welcome | (refine inv_ite (fun _ => ?_) (fun _ => ?_))
    | (split <;> try (rename_i e; replace e := inv_of_eq e ?_)) | fail_if_no_progress (refine inv_mk ?_ rfl rfl rfl rfl rfl rfl rfl rfl rfl))

theorem keep_welcomeRx {s : State} {h : THead} {hello wrapped print : List Byte} {sigOk : Bool} (hInv : s.Inv) : (State.welcomeRx s h hello wrapped print sigOk).Inv := by
  unfold State.welcomeRx
  with_reducible repeat' (first
    | assumption | (extract_lets +onlyGivenNames x; have hx : State.Inv x := ?_; (on_goal 1 => clear_value x); (on_goal 2 => subst x))
    | (extract_lets +onlyGivenNames x; first | (have _ : Book := x; subst x) | (have _ : Terr := x; subst x) | (have _ : Ens := x; subst x) | clear_value x)
    | apply keep_troupeAccept | apply keep_troupeRefuse | apply keep_newSession | apply keep_troupeShow | apply keep_directorHeard
    | (split <;> try (rename_i e; replace e := inv_of_eq e ?_)) | fail_if_no_progress (refine inv_mk ?_ rfl rfl rfl rfl rfl rfl rfl rfl rfl))

theorem keep_rollWaitEnd {s : State} (hInv : s.Inv) : (State.rollWaitEnd s).Inv := by
  unfold State.rollWaitEnd
  with_reducible repeat' (first
    | assumption | (extract_lets +onlyGivenNames x; have hx : State.Inv x := ?_; (on_goal 1 => clear_value x); (on_goal 2 => subst x))
    | (extract_lets +onlyGivenNames x; first | (have _ : Book := x; subst x) | (have _ : Terr := x; subst x) | (have _ : Ens := x; subst x) | clear_value x)
    | apply keep_newSession | apply keep_memberGo | apply keep_troupeShow | (refine inv_foldl ?_ (fun _ _ _ => ?_)) | (refine inv_ite (fun _ => ?_) (fun _ => ?_))
    | fail_if_no_progress (refine inv_mk ?_ rfl rfl rfl rfl rfl rfl rfl rfl rfl))

theorem keep_healthPeriod {s : State} (hInv : s.Inv) : (State.healthPeriod s).Inv := by
  unfold State.healthPeriod
  with_reducible repeat' (first
    | assumption | (extract_lets +onlyGivenNames x; have hx : State.Inv x := ?_; (on_goal 1 => clear_value x); (on_goal 2 => subst x))
    | (extract_lets +onlyGivenNames x; first | (have _ : Book := x; subst x) | (have _ : Terr := x; subst x) | (have _ : Ens := x; subst x) | clear_value x)
    | apply keep_reachST | apply keep_arm | apply keep_troupeSend | (refine inv_foldl ?_ (fun _ _ _ => ?_)) | (refine inv_ite (fun _ => ?_) (fun _ => ?_))
    | (split <;> try (rename_i e; replace e := inv_of_eq e ?_)) | fail_if_no_progress (refine inv_mk ?_ rfl rfl rfl rfl rfl rfl rfl rfl rfl))

theorem keep_goPend {s : State} {base when_ cue : Nat} (hInv : s.Inv) : (State.goPend s base when_ cue).Inv := by
  unfold State.goPend
  with_reducible repeat' (first
    | assumption | (extract_lets +onlyGivenNames x; have hx : State.Inv x := ?_; (on_goal 1 => clear_value x); (on_goal 2 => subst x)) | apply keep_wr
    | fail_if_no_progress (refine inv_mk ?_ rfl rfl rfl rfl rfl rfl rfl rfl rfl))

theorem keep_unpend {s : State} {base : Nat} (hInv : s.Inv) : (State.unpend s base).Inv := by
  unfold State.unpend
  with_reducible repeat' (first
    | assumption | apply keep_wr)

theorem keep_sendHealth {s : State} (hInv : s.Inv) : (State.sendHealth s).Inv := by
  unfold State.sendHealth
  with_reducible repeat' (first
    | assumption | (extract_lets +onlyGivenNames x; first | (have _ : Book := x; subst x) | (have _ : Terr := x; subst x) | (have _ : Ens := x; subst x) | clear_value x)
    | apply keep_troupeSend | (split <;> try (rename_i e; replace e := inv_of_eq e ?_)))

theorem keep_healthRx {s : State} {h : THead} {x : THealth} (hInv : s.Inv) : (State.healthRx s h x).Inv := by
  unfold State.healthRx
  with_reducible repeat' (first
    | assumption | (extract_lets +onlyGivenNames x; have hx : State.Inv x := ?_; (on_goal 1 => clear_value x); (on_goal 2 => subst x))
    | (extract_lets +onlyGivenNames x; first | (have _ : Book := x; subst x) | (have _ : Terr := x; subst x) | (have _ : Ens := x; subst x) | clear_value x)
    | apply keep_troupeAccept | apply keep_wr | apply keep_memberGo | (refine inv_ite (fun _ => ?_) (fun _ => ?_)) | (split <;> try (rename_i e; replace e := inv_of_eq e ?_))
    | fail_if_no_progress (refine inv_mk ?_ rfl rfl rfl rfl rfl rfl rfl rfl rfl))

theorem keep_memberSilent {s : State} {k : Nat} (hInv : s.Inv) : (State.memberSilent s k).Inv := by
  unfold State.memberSilent
  with_reducible repeat' (first
    | assumption | apply keep_memberGo | (refine inv_ite (fun _ => ?_) (fun _ => ?_)))

theorem keep_directorSilent {s : State} (hInv : s.Inv) : (State.directorSilent s).Inv := by
  unfold State.directorSilent
  with_reducible repeat' (first
    | assumption | apply keep_wr | apply keep_irq | apply keep_post | (refine inv_ite (fun _ => ?_) (fun _ => ?_)))

theorem keep_sendKey {s : State} {e : KeyExch} (hInv : s.Inv) : (State.sendKey s e).Inv := by
  unfold State.sendKey
  with_reducible repeat' (first
    | assumption | apply keep_troupeSend | apply keep_arm)

theorem keep_keySend {s : State} {entry kid change overlap : Nat} (hInv : s.Inv) : (State.keySend s entry kid change overlap).Inv := by
  unfold State.keySend
  with_reducible repeat' (first
    | assumption | (extract_lets +onlyGivenNames x; first | (have _ : Book := x; subst x) | (have _ : Terr := x; subst x) | (have _ : Ens := x; subst x) | clear_value x)
    | apply keep_sendKey | (refine inv_foldl ?_ (fun _ _ _ => ?_)) | (refine inv_ite (fun _ => ?_) (fun _ => ?_)) | (split <;> try (rename_i e; replace e := inv_of_eq e ?_))
    | fail_if_no_progress (refine inv_mk ?_ rfl rfl rfl rfl rfl rfl rfl rfl rfl))

theorem keep_troupeKeyRx {s : State} {h : THead} {k : TKey} (hInv : s.Inv) : (State.troupeKeyRx s h k).Inv := by
  unfold State.troupeKeyRx
  with_reducible repeat' (first
    | assumption | (extract_lets +onlyGivenNames x; have hx : State.Inv x := ?_; (on_goal 1 => clear_value x); (on_goal 2 => subst x))
    | (extract_lets +onlyGivenNames x; first | (have _ : Book := x; subst x) | (have _ : Terr := x; subst x) | (have _ : Ens := x; subst x) | clear_value x)
    | apply keep_troupeAccept | apply keep_directorHeard | apply keep_wr | apply keep_setReg | apply keep_solPush | apply keep_wipeStagedKey | apply keep_solApply
    | apply keep_wrap | apply keep_troupeSend | apply keep_disarm | (refine inv_foldl ?_ (fun _ _ _ => ?_)) | (refine inv_ite (fun _ => ?_) (fun _ => ?_))
    | (split <;> try (rename_i e; replace e := inv_of_eq e ?_)) | fail_if_no_progress (refine inv_mk ?_ rfl rfl rfl rfl rfl rfl rfl rfl rfl))

theorem keep_exchangeEnd {s : State} {k entry : Nat} (hInv : s.Inv) : (State.exchangeEnd s k entry).Inv := by
  unfold State.exchangeEnd
  with_reducible repeat' (first
    | assumption | apply keep_disarm | fail_if_no_progress (refine inv_mk ?_ rfl rfl rfl rfl rfl rfl rfl rfl rfl))

theorem keep_keyAckRx {s : State} {h : THead} {kid : Nat} (hInv : s.Inv) : (State.keyAckRx s h kid).Inv := by
  unfold State.keyAckRx
  with_reducible repeat' (first
    | assumption | (extract_lets +onlyGivenNames x; have hx : State.Inv x := ?_; (on_goal 1 => clear_value x); (on_goal 2 => subst x)) | apply keep_troupeAccept
    | apply keep_exchangeEnd | apply keep_wr | (refine inv_ite (fun _ => ?_) (fun _ => ?_)) | (split <;> try (rename_i e; replace e := inv_of_eq e ?_)))

theorem keep_troupeKeyRetry {s : State} {n : Nat} (hInv : s.Inv) : (State.troupeKeyRetry s n).Inv := by
  unfold State.troupeKeyRetry
  with_reducible repeat' (first
    | assumption | (extract_lets +onlyGivenNames x; have hx : State.Inv x := ?_; (on_goal 1 => clear_value x); (on_goal 2 => subst x))
    | (extract_lets +onlyGivenNames x; first | (have _ : Book := x; subst x) | (have _ : Terr := x; subst x) | (have _ : Ens := x; subst x) | clear_value x)
    | apply keep_sendKey | apply keep_exchangeEnd | apply keep_wr | apply keep_irq | apply keep_post | (refine inv_ite (fun _ => ?_) (fun _ => ?_))
    | (split <;> try (rename_i e; replace e := inv_of_eq e ?_)) | fail_if_no_progress (refine inv_mk ?_ rfl rfl rfl rfl rfl rfl rfl rfl rfl))

theorem keep_keyRetryDue {s : State} {k : Nat} (hInv : s.Inv) : (State.keyRetryDue s k).Inv := by
  unfold State.keyRetryDue
  with_reducible repeat' (first
    | assumption | (refine keep_fire ?_ (fun _ _ => ?_)) | apply keep_troupeKeyRetry | (split <;> try (rename_i e; replace e := inv_of_eq e ?_)))

theorem keep_intervalCall {s : State} {mask start stop : Nat} (hInv : s.Inv) : (State.intervalCall s mask start stop).Inv := by
  unfold State.intervalCall
  with_reducible repeat' (first
    | assumption | apply keep_troupeSend | (split <;> try (rename_i e; replace e := inv_of_eq e ?_))
    | fail_if_no_progress (refine inv_mk ?_ rfl rfl rfl rfl rfl rfl rfl rfl rfl))

theorem keep_intervalRx {s : State} {h : THead} {mask start stop : Nat} (hInv : s.Inv) : (State.intervalRx s h mask start stop).Inv := by
  unfold State.intervalRx
  with_reducible repeat' (first
    | assumption | (extract_lets +onlyGivenNames x; have hx : State.Inv x := ?_; (on_goal 1 => clear_value x); (on_goal 2 => subst x))
    | (extract_lets +onlyGivenNames x; first | (have _ : Book := x; subst x) | (have _ : Terr := x; subst x) | (have _ : Ens := x; subst x) | clear_value x)
    | apply keep_troupeAccept | apply keep_directorHeard | apply keep_troupeSend | (refine inv_ite (fun _ => ?_) (fun _ => ?_))
    | (split <;> try (rename_i e; replace e := inv_of_eq e ?_)) | fail_if_no_progress (refine inv_mk ?_ rfl rfl rfl rfl rfl rfl rfl rfl rfl))

theorem keep_intervalAckRx {s : State} {h : THead} {status : Nat} (hInv : s.Inv) : (State.intervalAckRx s h status).Inv := by
  unfold State.intervalAckRx
  with_reducible repeat' (first
    | assumption | apply keep_troupeAccept | apply keep_irq | (split <;> try (rename_i e; replace e := inv_of_eq e ?_))
    | fail_if_no_progress (refine inv_mk ?_ rfl rfl rfl rfl rfl rfl rfl rfl rfl))

theorem keep_intervalEntered {s : State} (hInv : s.Inv) : (State.intervalEntered s).Inv := by
  unfold State.intervalEntered
  with_reducible repeat' (first
    | assumption | fail_if_no_progress (refine inv_mk ?_ rfl rfl rfl rfl rfl rfl rfl rfl rfl))

theorem keep_summarySend {s : State} (hInv : s.Inv) : (State.summarySend s).Inv := by
  unfold State.summarySend
  with_reducible repeat' (first
    | assumption | (extract_lets +onlyGivenNames x; have hx : State.Inv x := ?_; (on_goal 1 => clear_value x); (on_goal 2 => subst x))
    | (extract_lets +onlyGivenNames x; first | (have _ : Book := x; subst x) | (have _ : Terr := x; subst x) | (have _ : Ens := x; subst x) | clear_value x) | apply keep_sat
    | apply keep_troupeSend | (refine inv_ite (fun _ => ?_) (fun _ => ?_)) | (split <;> try (rename_i e; replace e := inv_of_eq e ?_))
    | fail_if_no_progress (refine inv_mk ?_ rfl rfl rfl rfl rfl rfl rfl rfl rfl))

theorem keep_summaryRx {s : State} {h : THead} {recs : List TRec} (hInv : s.Inv) : (State.summaryRx s h recs).Inv := by
  unfold State.summaryRx
  with_reducible repeat' (first
    | assumption | apply keep_troupeAccept | apply keep_postRec | (refine inv_foldl ?_ (fun _ _ _ => ?_)) | (split <;> try (rename_i e; replace e := inv_of_eq e ?_)))

end Sys2Proof.Machine
end

