-- ==== Sys2Proof/Laws/InvBook.lean ====
section
/-! SUPPORT. Every operation of Machine/Book.lean keeps the invariant of the device. -/

set_option maxRecDepth 4000
set_option linter.unusedTactic false
set_option linter.unreachableTactic false

namespace Sys2Proof.Machine

theorem keep_bookShow {s : State} (hInv : s.Inv) : (State.bookShow s).Inv := by
  unfold State.bookShow
  with_reducible repeat' (first
    | assumption | (extract_lets +onlyGivenNames x; have hx : State.Inv x := ?_; (on_goal 1 => clear_value x); (on_goal 2 => subst x))
    | (extract_lets +onlyGivenNames x; first | (have _ : Book := x; subst x) | (have _ : Terr := x; subst x) | (have _ : Ens := x; subst x) | clear_value x) | apply keep_wr
    | apply keep_setReg | apply keep_irq | (refine inv_ite (fun _ => ?_) (fun _ => ?_)) | fail_if_no_progress (refine inv_mk ?_ rfl rfl rfl rfl rfl rfl rfl rfl rfl))

theorem ringTake_length {p : Rec × Bool → Bool} {l l' : List (Rec × Bool)} (h : ringTake p l = some l') : l'.length < l.length := by
  induction l generalizing l' with
  | nil => cases h
  | cons x t ih =>
    unfold ringTake at h
    split at h
    · cases h; exact Nat.lt_succ_self _
    · cases hr : ringTake p t with
      | none => rw [hr] at h; cases h
      | some q => rw [hr] at h; cases h; exact Nat.succ_lt_succ (ih hr)

/-- A change of the Prompt Book that keeps its two buffers within their room keeps the invariant. -/
theorem keep_setBook {s : State} {b : Book} (h : s.Inv) (hi : b.inFifo.length ≤ 64) (hr : b.ring.length ≤ 4096) : (State.Inv { s with book := b }) :=
  And.intro h.1 ⟨h.2.1, hi, hr, h.2.2.2.2⟩


theorem keep_ringPut {s : State} {r : Rec} {ring : List (Rec × Bool)} (hInv : s.Inv) (hr : ring.length < 4096) : (State.ringPut s r ring).Inv := by
  unfold State.ringPut
  extract_lets r1 q s1
  have h1 : s1.Inv := keep_setBook hInv hInv.2.2.1 (by rw [List.length_append]; exact hr)
  refine keep_bookShow (inv_ite (fun _ => ?_) (fun _ => keep_traceItem ?_))
  · exact inv_mk (keep_traceItem (inv_ite (fun _ => keep_irq h1) (fun _ => h1))) rfl rfl rfl rfl rfl rfl rfl rfl rfl
  · exact inv_ite (fun _ => keep_irq h1) (fun _ => h1)

theorem keep_ringEnter {s : State} {r : Rec} (hInv : s.Inv) : (State.ringEnter s r).Inv := by
  unfold State.ringEnter
  have hn : s.book.ring.length ≤ 4096 := hInv.2.2.2.1
  refine inv_ite (fun h => keep_ringPut hInv h) (fun _ => ?_)
  split
  · exact keep_ringPut hInv (Nat.lt_of_lt_of_le (ringTake_length ‹_›) hn)
  · split
    · exact keep_ringPut (keep_irq (keep_sat hInv)) (Nat.lt_of_lt_of_le (ringTake_length ‹_›) hn)
    · split
      · rename_i hq
        split at hq
        · exact keep_ringPut (keep_irq (keep_sat hInv)) (Nat.lt_of_lt_of_le (ringTake_length hq) hn)
        · cases hq
      · exact keep_irq (keep_sat hInv)

theorem keep_setLim {s : State} {code src : Nat} {k : Option LimKey} (hInv : s.Inv) : (State.setLim s code src k).Inv := by
  unfold State.setLim
  with_reducible repeat' (first
    | assumption | fail_if_no_progress (refine inv_mk ?_ rfl rfl rfl rfl rfl rfl rfl rfl rfl))

theorem keep_limRetire {s : State} (hInv : s.Inv) : (State.limRetire s).Inv := by
  unfold State.limRetire
  with_reducible repeat' (first
    | assumption | (extract_lets +onlyGivenNames x; have hx : State.Inv x := ?_; (on_goal 1 => clear_value x); (on_goal 2 => subst x))
    | (extract_lets +onlyGivenNames x; first | (have _ : Book := x; subst x) | (have _ : Terr := x; subst x) | (have _ : Ens := x; subst x) | clear_value x)
    | apply keep_setLim | apply keep_ringEnter | (split <;> try (rename_i e; replace e := inv_of_eq e ?_)))

theorem keep_limEnd {s : State} {k : LimKey} (hInv : s.Inv) : (State.limEnd s k).Inv := by
  unfold State.limEnd
  with_reducible repeat' (first
    | assumption | apply keep_setLim | apply keep_ringEnter | (split <;> try (rename_i e; replace e := inv_of_eq e ?_)))

theorem keep_limClose {s : State} {code src : Nat} (hInv : s.Inv) : (State.limClose s code src).Inv := by
  unfold State.limClose
  with_reducible repeat' (first
    | assumption | apply keep_limEnd | (refine inv_ite (fun _ => ?_) (fun _ => ?_)) | (split <;> try (rename_i e; replace e := inv_of_eq e ?_)))

theorem keep_limPass {s : State} {r : Rec} (hInv : s.Inv) : (State.limPass s r).Inv := by
  unfold State.limPass
  with_reducible repeat' (first
    | assumption | (extract_lets +onlyGivenNames x; have hx : State.Inv x := ?_; (on_goal 1 => clear_value x); (on_goal 2 => subst x))
    | (extract_lets +onlyGivenNames x; first | (have _ : Book := x; subst x) | (have _ : Terr := x; subst x) | (have _ : Ens := x; subst x) | clear_value x)
    | apply keep_ringEnter | apply keep_limClose | apply keep_setLim | apply keep_sat | apply keep_limRetire | (refine inv_ite (fun _ => ?_) (fun _ => ?_))
    | (split <;> try (rename_i e; replace e := inv_of_eq e ?_)))

theorem keep_recordEnter {s : State} (hInv : s.Inv) : (State.recordEnter s).Inv := by
  unfold State.recordEnter
  split
  · exact hInv
  · rename_i he
    refine keep_limPass (keep_setBook hInv ?_ hInv.2.2.2.1)
    have := hInv.2.2.1
    rw [he] at this
    exact Nat.le_of_succ_le this

theorem keep_windowEnd {s : State} {code src : Nat} (hInv : s.Inv) : (State.windowEnd s code src).Inv := by
  unfold State.windowEnd
  with_reducible repeat' (first
    | assumption | apply keep_reachST | apply keep_limEnd | (split <;> try (rename_i e; replace e := inv_of_eq e ?_)))

theorem keep_recLatch {s : State} {p : Nat} (hInv : s.Inv) : (State.recLatch s p).Inv := by
  unfold State.recLatch
  with_reducible repeat' (first
    | assumption | (extract_lets +onlyGivenNames x; first | (have _ : Book := x; subst x) | (have _ : Terr := x; subst x) | (have _ : Ens := x; subst x) | clear_value x)
    | apply keep_wr | fail_if_no_progress (refine inv_mk ?_ rfl rfl rfl rfl rfl rfl rfl rfl rfl))

theorem keep_recNext {s : State} {p : Nat} (hInv : s.Inv) : (State.recNext s p).Inv := by
  unfold State.recNext
  with_reducible repeat' (first
    | assumption | apply keep_setReg | (split <;> try (rename_i e; replace e := inv_of_eq e ?_)))

theorem keep_archShow {s : State} (hInv : s.Inv) : (State.archShow s).Inv := by
  unfold State.archShow
  with_reducible repeat' (first
    | assumption | (extract_lets +onlyGivenNames x; first | (have _ : Book := x; subst x) | (have _ : Terr := x; subst x) | (have _ : Ens := x; subst x) | clear_value x)
    | apply keep_setReg | (split <;> try (rename_i e; replace e := inv_of_eq e ?_)))

theorem keep_bookClear {s : State} {w : Word} (hInv : s.Inv) : (State.bookClear s w).Inv := by
  unfold State.bookClear
  refine inv_ite (fun _ => hInv) (fun _ => ?_)
  extract_lets upto keep n blocks q s1
  exact keep_post (keep_bookShow (keep_setBook hInv hInv.2.2.1 (Nat.le_trans (List.length_filter_le _ _) hInv.2.2.2.1)))

theorem keep_archIssue {s : State} {job op a : Nat} {d : List Byte} {seqs : List Nat} (hInv : s.Inv) : (State.archIssue s job op a d seqs).Inv := by
  unfold State.archIssue
  with_reducible repeat' (first
    | assumption | refine inv_snd ?_ | apply keep_brkIssue | apply keep_wr | (refine inv_ite (fun _ => ?_) (fun _ => ?_))
    | fail_if_no_progress (refine inv_mk ?_ rfl rfl rfl rfl rfl rfl rfl rfl rfl))

theorem keep_archivePair {s : State} (hInv : s.Inv) : (State.archivePair s).Inv := by
  unfold State.archivePair
  with_reducible repeat' (first
    | assumption | (extract_lets +onlyGivenNames x; first | (have _ : Book := x; subst x) | (have _ : Terr := x; subst x) | (have _ : Ens := x; subst x) | clear_value x)
    | apply keep_archIssue | (refine inv_ite (fun _ => ?_) (fun _ => ?_)) | (split <;> try (rename_i e; replace e := inv_of_eq e ?_)))

theorem keep_archAdvance {s : State} (hInv : s.Inv) : (State.archAdvance s).Inv := by
  unfold State.archAdvance
  with_reducible repeat' (first
    | assumption | (extract_lets +onlyGivenNames x; have hx : State.Inv x := ?_; (on_goal 1 => clear_value x); (on_goal 2 => subst x))
    | (extract_lets +onlyGivenNames x; first | (have _ : Book := x; subst x) | (have _ : Terr := x; subst x) | (have _ : Ens := x; subst x) | clear_value x) | apply keep_wr
    | (refine inv_ite (fun _ => ?_) (fun _ => ?_)) | fail_if_no_progress (refine inv_mk ?_ rfl rfl rfl rfl rfl rfl rfl rfl rfl))

theorem keep_archFail {s : State} {st a : Nat} (hInv : s.Inv) : (State.archFail s st a).Inv := by
  unfold State.archFail
  with_reducible repeat' (first
    | assumption | apply keep_wr | apply keep_post | apply keep_irq)

theorem keep_archMark {s : State} {i : Nat} {seqs : List Nat} (hInv : s.Inv) : (State.archMark s i seqs).Inv :=
  keep_setBook hInv hInv.2.2.1 (by rw [List.length_map]; exact hInv.2.2.2.1)

theorem keep_archDone {s : State} {st : Nat} (hInv : s.Inv) : (State.archDone s st).Inv := by
  unfold State.archDone
  with_reducible repeat' (first
    | assumption | (extract_lets +onlyGivenNames x; have hx : State.Inv x := ?_; (on_goal 1 => clear_value x); (on_goal 2 => subst x))
    | (extract_lets +onlyGivenNames x; first | (have _ : Book := x; subst x) | (have _ : Terr := x; subst x) | (have _ : Ens := x; subst x) | clear_value x) | apply keep_wr
    | apply keep_archMark | apply keep_archAdvance | apply keep_bookShow | apply keep_archShow | apply keep_archFail | (refine inv_ite (fun _ => ?_) (fun _ => ?_))
    | fail_if_no_progress (refine inv_mk ?_ rfl rfl rfl rfl rfl rfl rfl rfl rfl))

theorem keep_bedrockDone {s : State} {b : Nat} {ok : Bool} (hInv : s.Inv) : (State.bedrockDone s b ok).Inv := by
  unfold State.bedrockDone
  with_reducible repeat' (first
    | assumption | (extract_lets +onlyGivenNames x; have hx : State.Inv x := ?_; (on_goal 1 => clear_value x); (on_goal 2 => subst x))
    | (extract_lets +onlyGivenNames x; first | (have _ : Book := x; subst x) | (have _ : Terr := x; subst x) | (have _ : Ens := x; subst x) | clear_value x)
    | apply keep_brkDone | apply keep_archDone | (refine inv_ite (fun _ => ?_) (fun _ => ?_)))

theorem keep_traceSend {s : State} (hInv : s.Inv) : (State.traceSend s).Inv := by
  unfold State.traceSend
  with_reducible repeat' (first
    | assumption | (extract_lets +onlyGivenNames x; first | (have _ : Book := x; subst x) | (have _ : Terr := x; subst x) | (have _ : Ens := x; subst x) | clear_value x)
    | apply keep_send | (refine inv_ite (fun _ => ?_) (fun _ => ?_)) | (split <;> try (rename_i e; replace e := inv_of_eq e ?_))
    | fail_if_no_progress (refine inv_mk ?_ rfl rfl rfl rfl rfl rfl rfl rfl rfl))

theorem keep_traceCfg {s : State} {w : Word} (hInv : s.Inv) : (State.traceCfg s w).Inv := by
  unfold State.traceCfg
  with_reducible repeat' (first
    | assumption | (extract_lets +onlyGivenNames x; first | (have _ : Book := x; subst x) | (have _ : Terr := x; subst x) | (have _ : Ens := x; subst x) | clear_value x)
    | apply keep_setReg | apply keep_post | apply keep_irq | (refine inv_ite (fun _ => ?_) (fun _ => ?_)))

theorem keep_observeCtrl {s : State} {w : Word} (hInv : s.Inv) : (State.observeCtrl s w).Inv := by
  unfold State.observeCtrl
  with_reducible repeat' (first
    | assumption | (extract_lets +onlyGivenNames x; have hx : State.Inv x := ?_; (on_goal 1 => clear_value x); (on_goal 2 => subst x)) | apply keep_setReg | apply keep_setCnt
    | (refine inv_foldl ?_ (fun _ _ _ => ?_)) | (refine inv_ite (fun _ => ?_) (fun _ => ?_)))

end Sys2Proof.Machine
end

