-- ==== Sys2Proof/Laws/InvCartridge.lean ====
section
/-! SUPPORT. Every operation of Machine/Cartridge.lean keeps the invariant of the device. -/

set_option maxRecDepth 4000
set_option linter.unusedTactic false
set_option linter.unreachableTactic false

namespace Sys2Proof.Machine

theorem keep_cartClock {s : State} (hInv : s.Inv) : (State.cartClock s).Inv := by
  unfold State.cartClock
  with_reducible repeat' (first
    | assumption | apply keep_wr)

theorem keep_cartIssue {s : State} {cmd arg : Nat} (hInv : s.Inv) : (State.cartIssue s cmd arg).Inv := by
  unfold State.cartIssue
  with_reducible repeat' (first
    | assumption | apply keep_send)

theorem keep_cartOpen {s : State} {op card blocks lba : Nat} (hInv : s.Inv) : (State.cartOpen s op card blocks lba).Inv := by
  unfold State.cartOpen
  with_reducible repeat' (first
    | assumption | (extract_lets +onlyGivenNames x; have hx : State.Inv x := ?_; (on_goal 1 => clear_value x); (on_goal 2 => subst x)) | apply keep_cartIssue
    | (refine inv_ite (fun _ => ?_) (fun _ => ?_)))

theorem keep_cartClose {s : State} {op card blocks res : Nat} (hInv : s.Inv) : (State.cartClose s op card blocks res).Inv := by
  unfold State.cartClose
  with_reducible repeat' (first
    | assumption | (extract_lets +onlyGivenNames x; have hx : State.Inv x := ?_; (on_goal 1 => clear_value x); (on_goal 2 => subst x)) | apply keep_cartIssue
    | (refine inv_ite (fun _ => ?_) (fun _ => ?_)))

theorem keep_cartEnd {s : State} {card lba res done : Nat} (hInv : s.Inv) : (State.cartEnd s card lba res done).Inv := by
  unfold State.cartEnd
  with_reducible repeat' (first
    | assumption | (extract_lets +onlyGivenNames x; have hx : State.Inv x := ?_; (on_goal 1 => clear_value x); (on_goal 2 => subst x))
    | (extract_lets +onlyGivenNames x; first | (have _ : Book := x; subst x) | (have _ : Terr := x; subst x) | (have _ : Ens := x; subst x) | clear_value x) | apply keep_wr
    | apply keep_irq | apply keep_post | apply keep_cartClock | (refine inv_ite (fun _ => ?_) (fun _ => ?_))
    | fail_if_no_progress (refine inv_mk ?_ rfl rfl rfl rfl rfl rfl rfl rfl rfl))

theorem keep_cartStart {s : State} {op card blocks lba buf : Nat} (hInv : s.Inv) : (State.cartStart s op card blocks lba buf).Inv := by
  unfold State.cartStart
  with_reducible repeat' (first
    | assumption | (extract_lets +onlyGivenNames x; have hx : State.Inv x := ?_; (on_goal 1 => clear_value x); (on_goal 2 => subst x))
    | (extract_lets +onlyGivenNames x; first | (have _ : Book := x; subst x) | (have _ : Terr := x; subst x) | (have _ : Ens := x; subst x) | clear_value x) | apply keep_wr
    | apply keep_cartEnd | apply keep_cartOpen | apply keep_cartClock | (refine inv_ite (fun _ => ?_) (fun _ => ?_))
    | fail_if_no_progress (refine inv_mk ?_ rfl rfl rfl rfl rfl rfl rfl rfl rfl))

theorem keep_cartXfer {s : State} {w : Word} (hInv : s.Inv) : (State.cartXfer s w).Inv := by
  unfold State.cartXfer
  with_reducible repeat' (first
    | assumption | (extract_lets +onlyGivenNames x; have hx : State.Inv x := ?_; (on_goal 1 => clear_value x); (on_goal 2 => subst x))
    | (extract_lets +onlyGivenNames x; first | (have _ : Book := x; subst x) | (have _ : Terr := x; subst x) | (have _ : Ens := x; subst x) | clear_value x)
    | apply keep_setReg | apply keep_wr | apply keep_cartStart | (refine inv_ite (fun _ => ?_) (fun _ => ?_)))

theorem keep_cardGone {s : State} {card : Nat} (hInv : s.Inv) : (State.cardGone s card).Inv := by
  unfold State.cardGone
  exact keep_irq (keep_setReg (inv_ite (fun _ => inv_mk hInv rfl rfl rfl rfl rfl rfl rfl rfl rfl) (fun _ => hInv)))

theorem keep_cartDone {s : State} {res done : Nat} {data : List Byte} (hInv : s.Inv) : (State.cartDone s res done data).Inv := by
  unfold State.cartDone
  with_reducible repeat' (first
    | assumption | (extract_lets +onlyGivenNames x; have hx : State.Inv x := ?_; (on_goal 1 => clear_value x); (on_goal 2 => subst x))
    | (extract_lets +onlyGivenNames x; first | (have _ : Book := x; subst x) | (have _ : Terr := x; subst x) | (have _ : Ens := x; subst x) | clear_value x)
    | refine inv_snd ?_ | apply keep_dmaWrite | apply keep_dmaRead | apply keep_send | apply keep_wr | apply keep_cartClose | apply keep_cartEnd | apply keep_cardGone
    | apply keep_next | (refine inv_ite (fun _ => ?_) (fun _ => ?_)) | (refine inv_ite2 (fun _ => ?_) (fun _ => ?_))
    | (split <;> try (rename_i e; replace e := inv_of_eq e ?_)) | fail_if_no_progress (refine inv_pair ?_))

theorem keep_cardInsert {s : State} (hInv : s.Inv) : (State.cardInsert s).Inv := by
  unfold State.cardInsert
  with_reducible repeat' (first
    | assumption | apply keep_wr | apply keep_cartClock | apply keep_arm | (refine inv_ite (fun _ => ?_) (fun _ => ?_)))

theorem keep_cartIdentify {s : State} {cards : List Word} {extra : Bool} {count : Nat} {medium : List (Nat × List Byte)} (hInv : s.Inv) : (State.cartIdentify s cards extra count medium).Inv := by
  unfold State.cartIdentify
  with_reducible repeat' (first
    | assumption | (extract_lets +onlyGivenNames x; have hx : State.Inv x := ?_; (on_goal 1 => clear_value x); (on_goal 2 => subst x))
    | (extract_lets +onlyGivenNames x; first | (have _ : Book := x; subst x) | (have _ : Terr := x; subst x) | (have _ : Ens := x; subst x) | clear_value x)
    | (refine keep_fire ?_ (fun _ _ => ?_)) | apply keep_setReg | apply keep_cartIssue | apply keep_wr | apply keep_cartEnd | apply keep_irq | apply keep_cartClock
    | apply keep_id | (refine inv_foldl ?_ (fun _ _ _ => ?_)) | (refine inv_ite (fun _ => ?_) (fun _ => ?_))
    | fail_if_no_progress (refine inv_mk ?_ rfl rfl rfl rfl rfl rfl rfl rfl rfl))

theorem keep_cardWrite {s : State} {lba : Nat} {bs : List Byte} (hInv : s.Inv) : (State.cardWrite s lba bs).Inv := by
  unfold State.cardWrite
  with_reducible repeat' (first
    | assumption | (extract_lets +onlyGivenNames x; first | (have _ : Book := x; subst x) | (have _ : Terr := x; subst x) | (have _ : Ens := x; subst x) | clear_value x)
    | apply keep_cartOpen | apply keep_send | apply keep_cartClose | (refine inv_ite (fun _ => ?_) (fun _ => ?_)))

theorem keep_putRec {s : State} {r : JRec} (hInv : s.Inv) : (State.putRec s r).Inv := by
  unfold State.putRec
  with_reducible repeat' (first
    | assumption | (extract_lets +onlyGivenNames x; have hx : State.Inv x := ?_; (on_goal 1 => clear_value x); (on_goal 2 => subst x))
    | (extract_lets +onlyGivenNames x; first | (have _ : Book := x; subst x) | (have _ : Terr := x; subst x) | (have _ : Ens := x; subst x) | clear_value x)
    | apply keep_cardWrite | fail_if_no_progress (refine inv_mk ?_ rfl rfl rfl rfl rfl rfl rfl rfl rfl))

theorem keep_renewHead {k : Nat} {s : State} (hInv : s.Inv) : (State.renewHead k s).Inv := by
  induction k generalizing s with
  | zero => exact hInv
  | succ k ih =>
    unfold State.renewHead
    split
    · exact ih (keep_putRec hInv)
    · exact hInv

theorem keep_putJournal {s : State} {r : JRec} (hInv : s.Inv) : (State.putJournal s r).Inv := by
  unfold State.putJournal
  with_reducible repeat' (first
    | assumption | apply keep_renewHead | apply keep_putRec)

theorem keep_putData {s : State} {name : List Byte} {o : Nat} {d : List Byte} (hInv : s.Inv) : OInv (State.putData s name o d) := by
  unfold State.putData
  with_reducible repeat' (first
    | assumption | (extract_lets +onlyGivenNames x; have hx : State.Inv x := ?_; (on_goal 1 => clear_value x); (on_goal 2 => subst x))
    | (extract_lets +onlyGivenNames x; first | (have _ : Book := x; subst x) | (have _ : Terr := x; subst x) | (have _ : Ens := x; subst x) | clear_value x)
    | apply keep_cardWrite | fail_if_no_progress (refine inv_mk ?_ rfl rfl rfl rfl rfl rfl rfl rfl rfl) | exact oinv_none | refine oinv_some ?_
    | (refine oinv_ite (fun _ => ?_) (fun _ => ?_)))

theorem keep_cardRemoval {s : State} {phase done : Nat} (hInv : s.Inv) : (State.cardRemoval s phase done).Inv := by
  unfold State.cardRemoval
  with_reducible repeat' (first
    | assumption | (extract_lets +onlyGivenNames x; have hx : State.Inv x := ?_; (on_goal 1 => clear_value x); (on_goal 2 => subst x))
    | (extract_lets +onlyGivenNames x; first | (have _ : Book := x; subst x) | (have _ : Terr := x; subst x) | (have _ : Ens := x; subst x) | clear_value x)
    | apply keep_cartEnd | apply keep_setReg | apply keep_wr | apply keep_arm | apply keep_irq | (refine inv_foldl ?_ (fun _ _ _ => ?_))
    | (refine inv_ite (fun _ => ?_) (fun _ => ?_)) | (split <;> try (rename_i e; replace e := inv_of_eq e ?_))
    | fail_if_no_progress (refine inv_mk ?_ rfl rfl rfl rfl rfl rfl rfl rfl rfl))

end Sys2Proof.Machine
end

