-- ==== Sys2Proof/Laws/InvChorus.lean ====
section
/-! SUPPORT. Every operation of Machine/Chorus.lean keeps the invariant of the device. -/

set_option maxRecDepth 4000
set_option linter.unusedTactic false
set_option linter.unreachableTactic false

namespace Sys2Proof.Machine

theorem keep_setKeySlot {s : State} {i : Nat} {k : KeySlot} (hInv : s.Inv) : (State.setKeySlot s i k).Inv := by
  unfold State.setKeySlot
  with_reducible repeat' (first
    | assumption | fail_if_no_progress (refine inv_mk ?_ rfl rfl rfl rfl rfl rfl rfl rfl rfl))

theorem keep_chorusRefuse {s : State} {r : Nat} (hInv : s.Inv) : (State.chorusRefuse s r).Inv := by
  unfold State.chorusRefuse
  with_reducible repeat' (first
    | assumption | apply keep_wr | apply keep_sat)

theorem keep_chorusPush {s : State} {w : Word} (hInv : s.Inv) : (State.chorusPush s w).Inv := by
  unfold State.chorusPush
  with_reducible repeat' (first
    | assumption | (extract_lets +onlyGivenNames x; have hx : State.Inv x := ?_; (on_goal 1 => clear_value x); (on_goal 2 => subst x))
    | (extract_lets +onlyGivenNames x; first | (have _ : Book := x; subst x) | (have _ : Terr := x; subst x) | (have _ : Ens := x; subst x) | clear_value x)
    | apply keep_chorusRefuse | apply keep_setReg | apply keep_wr | (refine inv_foldl ?_ (fun _ _ _ => ?_)) | (refine inv_ite (fun _ => ?_) (fun _ => ?_))
    | fail_if_no_progress (refine inv_mk ?_ rfl rfl rfl rfl rfl rfl rfl rfl rfl))

theorem keep_setGate {s : State} {c : Nat} {g : Gate} (hInv : s.Inv) : (State.setGate s c g).Inv := by
  unfold State.setGate
  with_reducible repeat' (first
    | assumption | (extract_lets +onlyGivenNames x; have hx : State.Inv x := ?_; (on_goal 1 => clear_value x); (on_goal 2 => subst x))
    | (extract_lets +onlyGivenNames x; first | (have _ : Book := x; subst x) | (have _ : Terr := x; subst x) | (have _ : Ens := x; subst x) | clear_value x)
    | apply keep_setChan | apply keep_wr | apply keep_setReg | (refine inv_foldl ?_ (fun _ _ _ => ?_)))

theorem keep_jobRead {s : State} {m a n : Nat} (hInv : s.Inv) : PInv (State.jobRead s m a n) := by
  unfold State.jobRead
  with_reducible repeat' (first
    | assumption | apply keep_unitRead)

theorem keep_jobWrite {s : State} {m a : Nat} {bs : List Byte} (hInv : s.Inv) : PInv (State.jobWrite s m a bs) := by
  unfold State.jobWrite
  dsimp only
  have h : PInv (s.colAdmit m a bs.length .write) := keep_colAdmit hInv
  split
  · exact inv_ite2 (fun _ => inv_pair hInv) (fun _ => h)
  · split
    · exact inv_of_eq ‹_› h
    · exact inv_ite2 (fun _ => inv_pair (keep_enqueueStore (inv_of_eq ‹_› h))) (fun _ => inv_pair (inv_of_eq ‹_› h))
  · split
    · exact inv_of_eq ‹_› h
    · exact inv_ite2 (fun _ => inv_pair (keep_releaseStore (inv_of_eq ‹_› h))) (fun _ => inv_pair (inv_of_eq ‹_› h))
  · split
    · exact inv_of_eq ‹_› h
    · refine inv_ite2 (fun _ => inv_pair (inv_ite (fun _ => keep_packerAppend (inv_of_eq ‹_› h)) (fun _ => inv_ite (fun _ => keep_packerLose (inv_of_eq ‹_› h)) (fun _ => inv_of_eq ‹_› h))))
        (fun _ => inv_pair (inv_of_eq ‹_› h))
  · exact keep_unitWrite hInv

theorem keep_jobFetch {s : State} {m a n : Nat} (hInv : s.Inv) : PInv (State.jobFetch s m a n) := by
  unfold State.jobFetch
  with_reducible repeat' (first
    | assumption | apply keep_jobRead | (refine inv_foldl2 ?_ (fun _ _ _ => ?_)) | (split <;> try (rename_i e; replace e := inv_of_eq e ?_))
    | fail_if_no_progress (refine inv_pair ?_) | (exact inv_unpair ‹_›))

theorem keep_jobCopy {s : State} {m a : Nat} {bs : List Byte} (hInv : s.Inv) : PInv (State.jobCopy s m a bs) := by
  unfold State.jobCopy
  with_reducible repeat' (first
    | assumption | apply keep_jobWrite | (refine inv_foldl2 ?_ (fun _ _ _ => ?_)) | (split <;> try (rename_i e; replace e := inv_of_eq e ?_))
    | fail_if_no_progress (refine inv_pair ?_) | (exact inv_unpair ‹_›))

theorem keep_chorusOp {s : State} {m c : Nat} {w : Word} (hInv : s.Inv) : PInv (State.chorusOp s m c w) := by
  unfold State.chorusOp
  with_reducible repeat' (first
    | assumption | (extract_lets +onlyGivenNames x; have hx : State.Inv x := ?_; (on_goal 1 => clear_value x); (on_goal 2 => subst x))
    | (extract_lets +onlyGivenNames x; first | (have _ : Book := x; subst x) | (have _ : Terr := x; subst x) | (have _ : Ens := x; subst x) | clear_value x)
    | apply keep_setReg | apply keep_setChan | apply keep_wr | (refine inv_ite2 (fun _ => ?_) (fun _ => ?_)) | fail_if_no_progress (refine inv_pair ?_))

theorem keep_wipeData {s : State} {c : Nat} (hInv : s.Inv) : (State.wipeData s c).Inv := by
  unfold State.wipeData
  with_reducible repeat' (first
    | assumption | apply keep_wipe)

theorem keep_putVerdict {s : State} {c m v : Nat} (hInv : s.Inv) : PInv (State.putVerdict s c m v) := by
  unfold State.putVerdict
  with_reducible repeat' (first
    | assumption | apply keep_jobWrite)

theorem keep_failVerdict {s : State} {c : Nat} (hInv : s.Inv) : (State.failVerdict s c).Inv := by
  unfold State.failVerdict
  with_reducible repeat' (first
    | assumption | apply keep_irq | apply keep_postLim)

theorem keep_gateFail {s : State} {c m : Nat} {fault : Bool} (hInv : s.Inv) : PInv (State.gateFail s c m fault) := by
  unfold State.gateFail
  with_reducible repeat' (first
    | assumption | (extract_lets +onlyGivenNames x; have hx : State.Inv x := ?_; (on_goal 1 => clear_value x); (on_goal 2 => subst x))
    | (extract_lets +onlyGivenNames x; first | (have _ : Book := x; subst x) | (have _ : Terr := x; subst x) | (have _ : Ens := x; subst x) | clear_value x)
    | apply keep_wipeData | apply keep_setGate | apply keep_putVerdict | apply keep_failVerdict | (split <;> try (rename_i e; replace e := inv_of_eq e ?_))
    | fail_if_no_progress (refine inv_pair ?_))

theorem keep_gateOpen {s : State} {c : Nat} {j : ChJob} (hInv : s.Inv) : PInv (State.gateOpen s c j) := by
  unfold State.gateOpen
  with_reducible repeat' (first
    | assumption | (extract_lets +onlyGivenNames x; have hx : State.Inv x := ?_; (on_goal 1 => clear_value x); (on_goal 2 => subst x))
    | (extract_lets +onlyGivenNames x; first | (have _ : Book := x; subst x) | (have _ : Terr := x; subst x) | (have _ : Ens := x; subst x) | clear_value x)
    | refine inv_snd ?_ | apply keep_gateFail | apply keep_jobRead | apply keep_wipeData | apply keep_wr | apply keep_setGate | (refine inv_ite (fun _ => ?_) (fun _ => ?_))
    | (split <;> try (rename_i e; replace e := inv_of_eq e ?_)) | fail_if_no_progress (refine inv_pair ?_))

theorem keep_gateBlock {s : State} {c : Nat} {j : ChJob} {err : Bool} (hInv : s.Inv) : PInv (State.gateBlock s c j err) := by
  unfold State.gateBlock
  with_reducible repeat' (first
    | assumption | (extract_lets +onlyGivenNames x; have hx : State.Inv x := ?_; (on_goal 1 => clear_value x); (on_goal 2 => subst x))
    | (extract_lets +onlyGivenNames x; first | (have _ : Book := x; subst x) | (have _ : Terr := x; subst x) | (have _ : Ens := x; subst x) | clear_value x)
    | refine inv_snd ?_ | apply keep_gateFail | apply keep_jobRead | apply keep_poke | apply keep_setGate | apply keep_wr | (refine inv_ite (fun _ => ?_) (fun _ => ?_))
    | (refine inv_ite2 (fun _ => ?_) (fun _ => ?_)) | (split <;> try (rename_i e; replace e := inv_of_eq e ?_)) | fail_if_no_progress (refine inv_pair ?_))

theorem keep_gateVerdict {s : State} {c : Nat} {j : ChJob} (hInv : s.Inv) : PInv (State.gateVerdict s c j) := by
  unfold State.gateVerdict
  with_reducible repeat' (first
    | assumption | (extract_lets +onlyGivenNames x; have hx : State.Inv x := ?_; (on_goal 1 => clear_value x); (on_goal 2 => subst x))
    | (extract_lets +onlyGivenNames x; first | (have _ : Book := x; subst x) | (have _ : Terr := x; subst x) | (have _ : Ens := x; subst x) | clear_value x)
    | refine inv_snd ?_ | apply keep_jobRead | apply keep_gateFail | apply keep_jobCopy | apply keep_setGate | apply keep_putVerdict | apply keep_wipe
    | (refine inv_ite2 (fun _ => ?_) (fun _ => ?_)) | (split <;> try (rename_i e; replace e := inv_of_eq e ?_)) | fail_if_no_progress (refine inv_pair ?_))

theorem keep_ctxSaveClear {s : State} {c : Nat} {j : ChJob} (hInv : s.Inv) : PInv (State.ctxSaveClear s c j) := by
  unfold State.ctxSaveClear
  with_reducible repeat' (first
    | assumption | apply keep_jobCopy | (refine inv_ite2 (fun _ => ?_) (fun _ => ?_)) | (split <;> try (rename_i e; replace e := inv_of_eq e ?_))
    | fail_if_no_progress (refine inv_pair ?_))

theorem keep_ctxSaveWrapped {s : State} {c : Nat} {j : ChJob} (hInv : s.Inv) : PInv (State.ctxSaveWrapped s c j) := by
  unfold State.ctxSaveWrapped
  with_reducible repeat' (first
    | assumption | (extract_lets +onlyGivenNames x; have hx : State.Inv x := ?_; (on_goal 1 => clear_value x); (on_goal 2 => subst x))
    | (extract_lets +onlyGivenNames x; first | (have _ : Book := x; subst x) | (have _ : Terr := x; subst x) | (have _ : Ens := x; subst x) | clear_value x)
    | apply keep_jobCopy | (refine inv_ite2 (fun _ => ?_) (fun _ => ?_)) | (split <;> try (rename_i e; replace e := inv_of_eq e ?_))
    | fail_if_no_progress (refine inv_mk ?_ rfl rfl rfl rfl rfl rfl rfl rfl rfl) | fail_if_no_progress (refine inv_pair ?_))

theorem keep_ctxPut {s : State} {c : Nat} {b secrets hold : List Byte} {compat : Bool} (hInv : s.Inv) : (State.ctxPut s c b secrets hold compat).Inv := by
  unfold State.ctxPut
  with_reducible repeat' (first
    | assumption | (extract_lets +onlyGivenNames x; have hx : State.Inv x := ?_; (on_goal 1 => clear_value x); (on_goal 2 => subst x))
    | (extract_lets +onlyGivenNames x; first | (have _ : Book := x; subst x) | (have _ : Terr := x; subst x) | (have _ : Ens := x; subst x) | clear_value x)
    | refine inv_snd ?_ | apply keep_setReg | apply keep_setGate | apply keep_wr | apply keep_gateFail | (refine inv_ite (fun _ => ?_) (fun _ => ?_)))

theorem keep_ctxRestore {s : State} {c : Nat} {j : ChJob} (hInv : s.Inv) : PInv (State.ctxRestore s c j) := by
  unfold State.ctxRestore
  extract_lets bad
  have hb : ∀ x : State, x.Inv → PInv (bad x) := fun x h => inv_pair (keep_irq h)
  clear_value bad
  refine inv_ite2 (fun _ => hb s hInv) (fun _ => ?_)
  have h1 := keep_jobRead (m := j.req) (a := j.src) (n := 16) hInv
  split
  · exact inv_pair (inv_of_eq ‹_› h1)
  · rename_i h t e
    replace h1 := inv_of_eq e h1
    clear e
    extract_lets n
    have h2 := keep_jobFetch (m := j.req) (a := j.src + 16) (n := 48) h1
    have h3 := keep_jobFetch (m := j.req) (a := j.src + 16) (n := n + 16) h1
    refine inv_ite2 (fun _ => ?_) (fun _ => inv_ite2 (fun _ => ?_) (fun _ => hb t h1))
    · split
      · exact inv_pair (inv_of_eq ‹_› h2)
      · exact inv_ite2 (fun _ => inv_pair (keep_ctxPut (inv_of_eq ‹_› h2))) (fun _ => hb _ (inv_of_eq ‹_› h2))
    · split
      · exact inv_pair (inv_of_eq ‹_› h3)
      · rename_i e
        replace h3 := inv_of_eq e h3
        clear e
        split
        · exact hb _ h3
        · exact inv_pair (keep_ctxPut h3)

theorem keep_setRunning {s : State} {c : Nat} {j : Option ChJob} (hInv : s.Inv) : (State.setRunning s c j).Inv := by
  unfold State.setRunning
  with_reducible repeat' (first
    | assumption | apply keep_setChan | apply keep_wr)

theorem keep_jobStart {s : State} {c : Nat} {agree : Bool} (hInv : s.Inv) : (State.jobStart s c agree).Inv := by
  unfold State.jobStart
  with_reducible repeat' (first
    | assumption | (extract_lets +onlyGivenNames x; have hx : State.Inv x := ?_; (on_goal 1 => clear_value x); (on_goal 2 => subst x))
    | (extract_lets +onlyGivenNames x; first | (have _ : Book := x; subst x) | (have _ : Terr := x; subst x) | (have _ : Ens := x; subst x) | clear_value x)
    | apply keep_setChan | apply keep_wr | apply keep_setRunning | apply keep_sat | apply keep_irq | apply keep_dtDisagree | (refine inv_ite (fun _ => ?_) (fun _ => ?_))
    | (split <;> try (rename_i e; replace e := inv_of_eq e ?_)))

theorem keep_cryptBlock {s : State} {j : ChJob} {err : Bool} (hInv : s.Inv) : PInv (State.cryptBlock s j err) := by
  unfold State.cryptBlock
  with_reducible repeat' (first
    | assumption | apply keep_jobRead | apply keep_jobWrite | (refine inv_ite2 (fun _ => ?_) (fun _ => ?_)) | (split <;> try (rename_i e; replace e := inv_of_eq e ?_))
    | fail_if_no_progress (refine inv_pair ?_))

theorem keep_tookTurn {s : State} {high : Bool} {c : Nat} (hInv : s.Inv) : (State.tookTurn s high c).Inv := by
  unfold State.tookTurn
  with_reducible repeat' (first
    | assumption | (refine inv_ite (fun _ => ?_) (fun _ => ?_)) | fail_if_no_progress (refine inv_mk ?_ rfl rfl rfl rfl rfl rfl rfl rfl rfl))

theorem keep_turn {s : State} {c : Nat} {core : Option Nat} (hInv : s.Inv) : (State.turn s c core).Inv := by
  unfold State.turn
  with_reducible repeat' (first
    | assumption | refine inv_snd ?_ | apply keep_gateBlock | apply keep_cryptBlock | apply keep_coreFault | apply keep_setRunning
    | (refine inv_ite (fun _ => ?_) (fun _ => ?_)) | (refine inv_ite2 (fun _ => ?_) (fun _ => ?_)) | (split <;> try (rename_i e; replace e := inv_of_eq e ?_))
    | fail_if_no_progress (refine inv_pair ?_))

theorem keep_turns {c k : Nat} {fault : Option (Nat × Nat)} {s : State} (hInv : s.Inv) : (State.turns c fault k s).Inv := by
  induction k generalizing s with
  | zero => exact hInv
  | succ k ih =>
    unfold State.turns
    with_reducible repeat' (first
      | assumption | apply ih | apply keep_turn | apply keep_tookTurn | (refine inv_ite (fun _ => ?_) (fun _ => ?_))
      | (split <;> try (rename_i e; replace e := inv_of_eq e ?_)))

theorem keep_blockRun {s : State} {c op : Nat} {fault : Option (Nat × Nat)} (hInv : s.Inv) : (State.blockRun s c op fault).Inv := by
  unfold State.blockRun
  with_reducible repeat' (first
    | assumption | apply keep_turns | (refine inv_ite (fun _ => ?_) (fun _ => ?_)) | (split <;> try (rename_i e; replace e := inv_of_eq e ?_)))

theorem keep_jobWrap {s : State} {j : ChJob} (hInv : s.Inv) : PInv (State.jobWrap s j) := by
  unfold State.jobWrap
  with_reducible repeat' (first
    | assumption | apply keep_jobFetch | apply keep_jobCopy | (split <;> try (rename_i e; replace e := inv_of_eq e ?_)) | fail_if_no_progress (refine inv_pair ?_))

theorem keep_jobUnwrap {s : State} {j : ChJob} (hInv : s.Inv) : PInv (State.jobUnwrap s j) := by
  unfold State.jobUnwrap
  with_reducible repeat' (first
    | assumption | (extract_lets +onlyGivenNames x; first | (have _ : Book := x; subst x) | (have _ : Terr := x; subst x) | (have _ : Ens := x; subst x) | clear_value x)
    | apply keep_jobFetch | apply keep_irq | apply keep_jobCopy | (refine inv_ite2 (fun _ => ?_) (fun _ => ?_)) | (split <;> try (rename_i e; replace e := inv_of_eq e ?_))
    | fail_if_no_progress (refine inv_mk ?_ rfl rfl rfl rfl rfl rfl rfl rfl rfl) | fail_if_no_progress (refine inv_pair ?_))

theorem keep_jobRun {s : State} {c op : Nat} {fault : Option (Nat × Nat)} {k : ChJob → State → (Nat × Nat) × State} (hInv : s.Inv)
    (hk : ∀ j (x : State), x.Inv → PInv (k j x)) : (State.jobRun s c op fault k).Inv := by
  unfold State.jobRun
  with_reducible repeat' (first
    | assumption | refine inv_snd ?_ | apply keep_coreFault | apply keep_setRunning | apply hk | (refine inv_ite (fun _ => ?_) (fun _ => ?_))
    | (split <;> try (rename_i e; replace e := inv_of_eq e ?_)))

theorem keep_jobDone {s : State} {c : Nat} (hInv : s.Inv) : (State.jobDone s c).Inv := by
  unfold State.jobDone
  with_reducible repeat' (first
    | assumption | (extract_lets +onlyGivenNames x; have hx : State.Inv x := ?_; (on_goal 1 => clear_value x); (on_goal 2 => subst x)) | refine inv_snd ?_
    | apply keep_setRunning | apply keep_wr | apply keep_irq | apply keep_enqueue | (refine inv_ite (fun _ => ?_) (fun _ => ?_))
    | (split <;> try (rename_i e; replace e := inv_of_eq e ?_)))

theorem keep_slotSession {s : State} {i c : Nat} (hInv : s.Inv) : (State.slotSession s i c).Inv := by
  unfold State.slotSession
  with_reducible repeat' (first
    | assumption | (extract_lets +onlyGivenNames x; have hx : State.Inv x := ?_; (on_goal 1 => clear_value x); (on_goal 2 => subst x))
    | (extract_lets +onlyGivenNames x; first | (have _ : Book := x; subst x) | (have _ : Terr := x; subst x) | (have _ : Ens := x; subst x) | clear_value x)
    | refine inv_snd ?_ | apply keep_gateFail | apply keep_setChan | (refine inv_ite (fun _ => ?_) (fun _ => ?_)))

theorem keep_slotApply {s : State} {i : Nat} {p : SlotPush} (hInv : s.Inv) : (State.slotApply s i p).Inv := by
  unfold State.slotApply
  with_reducible repeat' (first
    | assumption | (extract_lets +onlyGivenNames x; have hx : State.Inv x := ?_; (on_goal 1 => clear_value x); (on_goal 2 => subst x))
    | (extract_lets +onlyGivenNames x; first | (have _ : Book := x; subst x) | (have _ : Terr := x; subst x) | (have _ : Ens := x; subst x) | clear_value x)
    | apply keep_setKeySlot | apply keep_slotSession | apply keep_s2Fault | (refine inv_foldl ?_ (fun _ _ _ => ?_)) | (refine inv_ite (fun _ => ?_) (fun _ => ?_))
    | fail_if_no_progress (refine inv_mk ?_ rfl rfl rfl rfl rfl rfl rfl rfl rfl))

theorem keep_chorusApply {s : State} (hInv : s.Inv) : (State.chorusApply s).Inv := by
  unfold State.chorusApply
  with_reducible repeat' (first
    | assumption | (extract_lets +onlyGivenNames x; have hx : State.Inv x := ?_; (on_goal 1 => clear_value x); (on_goal 2 => subst x))
    | (extract_lets +onlyGivenNames x; first | (have _ : Book := x; subst x) | (have _ : Terr := x; subst x) | (have _ : Ens := x; subst x) | clear_value x)
    | apply keep_slotApply | apply keep_irq | apply keep_wr | (refine inv_foldl ?_ (fun _ _ _ => ?_))
    | fail_if_no_progress (refine inv_mk ?_ rfl rfl rfl rfl rfl rfl rfl rfl rfl))

theorem keep_chorusCfgWrite {s : State} {w : Word} (hInv : s.Inv) : (State.chorusCfgWrite s w).Inv := by
  unfold State.chorusCfgWrite
  with_reducible repeat' (first
    | assumption | (extract_lets +onlyGivenNames x; have hx : State.Inv x := ?_; (on_goal 1 => clear_value x); (on_goal 2 => subst x))
    | (extract_lets +onlyGivenNames x; first | (have _ : Book := x; subst x) | (have _ : Terr := x; subst x) | (have _ : Ens := x; subst x) | clear_value x) | apply keep_wr
    | (refine inv_ite (fun _ => ?_) (fun _ => ?_)))

theorem keep_gateCfgWrite {s : State} {c : Nat} {w : Word} (hInv : s.Inv) : (State.gateCfgWrite s c w).Inv := by
  unfold State.gateCfgWrite
  with_reducible repeat' (first
    | assumption | (extract_lets +onlyGivenNames x; first | (have _ : Book := x; subst x) | (have _ : Terr := x; subst x) | (have _ : Ens := x; subst x) | clear_value x)
    | apply keep_setReg | (refine inv_ite (fun _ => ?_) (fun _ => ?_)))

theorem keep_chorusCurtain {s : State} (hInv : s.Inv) : (State.chorusCurtain s).Inv := by
  unfold State.chorusCurtain
  with_reducible repeat' (first
    | assumption | (extract_lets +onlyGivenNames x; have hx : State.Inv x := ?_; (on_goal 1 => clear_value x); (on_goal 2 => subst x))
    | (extract_lets +onlyGivenNames x; first | (have _ : Book := x; subst x) | (have _ : Terr := x; subst x) | (have _ : Ens := x; subst x) | clear_value x) | apply keep_wr
    | apply keep_setChan | apply keep_wipeData | apply keep_setGate | apply keep_irq | (refine inv_foldl ?_ (fun _ _ _ => ?_)) | (refine inv_ite (fun _ => ?_) (fun _ => ?_))
    | (split <;> try (rename_i e; replace e := inv_of_eq e ?_)))

end Sys2Proof.Machine
end

