-- ==== Sys2Proof/Laws/InvScree.lean ====
section
/-! SUPPORT. Every operation of Machine/Scree.lean keeps the invariant of the device. -/

set_option maxRecDepth 4000
set_option linter.unusedTactic false
set_option linter.unreachableTactic false

namespace Sys2Proof.Machine

theorem keep_setSource {s : State} {k : Nat} {up : Bool} (hInv : s.Inv) : (State.setSource s k up).Inv := by
  unfold State.setSource
  with_reducible repeat' (first
    | assumption | apply keep_wr)

theorem keep_setDrbg {s : State} {i : Nat} {d : DrbgState} (hInv : s.Inv) : (State.setDrbg s i d).Inv := by
  unfold State.setDrbg
  with_reducible repeat' (first
    | assumption | fail_if_no_progress (refine inv_mk ?_ rfl rfl rfl rfl rfl rfl rfl rfl rfl))

theorem keep_rawBits {s : State} (hInv : s.Inv) : OInv2 (State.rawBits s) := by
  unfold State.rawBits
  with_reducible repeat' (first
    | assumption | apply keep_next | fail_if_no_progress (refine inv_mk ?_ rfl rfl rfl rfl rfl rfl rfl rfl rfl) | fail_if_no_progress (refine inv_pair ?_) | exact oinv2_none
    | refine oinv2_some ?_ | (refine oinv2_ite (fun _ => ?_) (fun _ => ?_)))

theorem keep_takeSeed {s : State} {i : Nat} {anew : Bool} (hInv : s.Inv) : (State.takeSeed s i anew).Inv := by
  unfold State.takeSeed
  with_reducible repeat' (first
    | assumption | (extract_lets +onlyGivenNames x; have hx : State.Inv x := ?_; (on_goal 1 => clear_value x); (on_goal 2 => subst x))
    | (extract_lets +onlyGivenNames x; first | (have _ : Book := x; subst x) | (have _ : Terr := x; subst x) | (have _ : Ens := x; subst x) | clear_value x)
    | apply keep_rawBits | apply keep_setDrbg | apply keep_next | (split <;> try (rename_i e; replace e := inv_of_eq e ?_))
    | fail_if_no_progress (refine inv_mk ?_ rfl rfl rfl rfl rfl rfl rfl rfl rfl) | (refine oinv_use2 ‹_› ?_))

theorem keep_seedInstance {s : State} {i : Nat} (hInv : s.Inv) : (State.seedInstance s i).Inv := by
  unfold State.seedInstance
  with_reducible repeat' (first
    | assumption | apply keep_takeSeed | (refine inv_ite (fun _ => ?_) (fun _ => ?_)))

theorem keep_screeJudge {s : State} (hInv : s.Inv) : (State.screeJudge s).Inv := by
  unfold State.screeJudge
  with_reducible repeat' (first
    | assumption | (extract_lets +onlyGivenNames x; have hx : State.Inv x := ?_; (on_goal 1 => clear_value x); (on_goal 2 => subst x))
    | (extract_lets +onlyGivenNames x; first | (have _ : Book := x; subst x) | (have _ : Terr := x; subst x) | (have _ : Ens := x; subst x) | clear_value x) | apply keep_wr
    | apply keep_irq | apply keep_seedInstance | (refine inv_ite (fun _ => ?_) (fun _ => ?_)) | fail_if_no_progress (refine inv_mk ?_ rfl rfl rfl rfl rfl rfl rfl rfl rfl))

theorem keep_screeStarted {s : State} {k : Nat} (hInv : s.Inv) : (State.screeStarted s k).Inv := by
  unfold State.screeStarted
  with_reducible repeat' (first
    | assumption | (extract_lets +onlyGivenNames x; have hx : State.Inv x := ?_; (on_goal 1 => clear_value x); (on_goal 2 => subst x))
    | (extract_lets +onlyGivenNames x; first | (have _ : Book := x; subst x) | (have _ : Terr := x; subst x) | (have _ : Ens := x; subst x) | clear_value x)
    | apply keep_screeJudge | apply keep_setSource | apply keep_seedInstance | (refine inv_ite (fun _ => ?_) (fun _ => ?_))
    | fail_if_no_progress (refine inv_mk ?_ rfl rfl rfl rfl rfl rfl rfl rfl rfl))

theorem keep_sourceFail {s : State} {k : Nat} {apt : Bool} (hInv : s.Inv) : (State.sourceFail s k apt).Inv := by
  unfold State.sourceFail
  with_reducible repeat' (first
    | assumption | (extract_lets +onlyGivenNames x; have hx : State.Inv x := ?_; (on_goal 1 => clear_value x); (on_goal 2 => subst x))
    | (extract_lets +onlyGivenNames x; first | (have _ : Book := x; subst x) | (have _ : Terr := x; subst x) | (have _ : Ens := x; subst x) | clear_value x)
    | apply keep_setSource | apply keep_sat | apply keep_irq | apply keep_wr | apply keep_disarm | apply keep_arm | apply keep_screeJudge
    | (refine inv_ite (fun _ => ?_) (fun _ => ?_)) | fail_if_no_progress (refine inv_mk ?_ rfl rfl rfl rfl rfl rfl rfl rfl rfl))

theorem keep_sourceRetest {s : State} {k : Nat} (hInv : s.Inv) : (State.sourceRetest s k).Inv := by
  unfold State.sourceRetest
  with_reducible repeat' (first
    | assumption | (refine keep_fire ?_ (fun _ _ => ?_)) | apply keep_setSource | apply keep_screeJudge)

theorem keep_drbgReseed {s : State} {i : Nat} (hInv : s.Inv) : (State.drbgReseed s i).Inv := by
  unfold State.drbgReseed
  with_reducible repeat' (first
    | assumption | (extract_lets +onlyGivenNames x; have hx : State.Inv x := ?_; (on_goal 1 => clear_value x); (on_goal 2 => subst x))
    | (extract_lets +onlyGivenNames x; first | (have _ : Book := x; subst x) | (have _ : Terr := x; subst x) | (have _ : Ens := x; subst x) | clear_value x)
    | apply keep_reachST | apply keep_seedInstance | (refine inv_ite (fun _ => ?_) (fun _ => ?_)))

theorem keep_cmSeed {s : State} (hInv : s.Inv) : (State.cmSeed s).Inv := by
  unfold State.cmSeed
  with_reducible repeat' (first
    | assumption | (extract_lets +onlyGivenNames x; have hx : State.Inv x := ?_; (on_goal 1 => clear_value x); (on_goal 2 => subst x))
    | (extract_lets +onlyGivenNames x; first | (have _ : Book := x; subst x) | (have _ : Terr := x; subst x) | (have _ : Ens := x; subst x) | clear_value x)
    | apply keep_setDrbg | fail_if_no_progress (refine inv_mk ?_ rfl rfl rfl rfl rfl rfl rfl rfl rfl))

theorem keep_cmSeedDraw {s : State} (hInv : s.Inv) : (State.cmSeedDraw s).Inv := by
  unfold State.cmSeedDraw
  with_reducible repeat' (first
    | assumption | (extract_lets +onlyGivenNames x; have hx : State.Inv x := ?_; (on_goal 1 => clear_value x); (on_goal 2 => subst x))
    | (extract_lets +onlyGivenNames x; first | (have _ : Book := x; subst x) | (have _ : Terr := x; subst x) | (have _ : Ens := x; subst x) | clear_value x)
    | apply keep_reachST | apply keep_wr | apply keep_cmSeed | (refine inv_foldl ?_ (fun _ _ _ => ?_)) | (refine inv_ite (fun _ => ?_) (fun _ => ?_))
    | fail_if_no_progress (refine inv_mk ?_ rfl rfl rfl rfl rfl rfl rfl rfl rfl))

theorem keep_screeCtrl {s : State} {w : Word} (hInv : s.Inv) : (State.screeCtrl s w).Inv := by
  unfold State.screeCtrl
  with_reducible repeat' (first
    | assumption | (extract_lets +onlyGivenNames x; have hx : State.Inv x := ?_; (on_goal 1 => clear_value x); (on_goal 2 => subst x)) | apply keep_wr | apply keep_takeSeed
    | apply keep_seedInstance | apply keep_setReg | (refine inv_ite (fun _ => ?_) (fun _ => ?_)))

theorem keep_screeTest {s : State} {w : Word} (hInv : s.Inv) : (State.screeTest s w).Inv := by
  unfold State.screeTest
  with_reducible repeat' (first
    | assumption | (extract_lets +onlyGivenNames x; have hx : State.Inv x := ?_; (on_goal 1 => clear_value x); (on_goal 2 => subst x))
    | (extract_lets +onlyGivenNames x; first | (have _ : Book := x; subst x) | (have _ : Terr := x; subst x) | (have _ : Ens := x; subst x) | clear_value x) | apply keep_irq
    | apply keep_wr | (refine inv_ite (fun _ => ?_) (fun _ => ?_)))

theorem keep_testHealth {s : State} {w : Word} (hInv : s.Inv) : (State.testHealth s w).Inv := by
  unfold State.testHealth
  with_reducible repeat' (first
    | assumption | (extract_lets +onlyGivenNames x; have hx : State.Inv x := ?_; (on_goal 1 => clear_value x); (on_goal 2 => subst x))
    | (extract_lets +onlyGivenNames x; first | (have _ : Book := x; subst x) | (have _ : Terr := x; subst x) | (have _ : Ens := x; subst x) | clear_value x)
    | apply keep_sourceFail | (refine inv_ite (fun _ => ?_) (fun _ => ?_)) | fail_if_no_progress (refine inv_mk ?_ rfl rfl rfl rfl rfl rfl rfl rfl rfl))

theorem keep_screeTestData {s : State} {w : Word} (hInv : s.Inv) : (State.screeTestData s w).Inv := by
  unfold State.screeTestData
  with_reducible repeat' (first
    | assumption | (extract_lets +onlyGivenNames x; have hx : State.Inv x := ?_; (on_goal 1 => clear_value x); (on_goal 2 => subst x))
    | (extract_lets +onlyGivenNames x; first | (have _ : Book := x; subst x) | (have _ : Terr := x; subst x) | (have _ : Ens := x; subst x) | clear_value x)
    | apply keep_testHealth | apply keep_takeSeed | (refine inv_ite (fun _ => ?_) (fun _ => ?_)) | (split <;> try (rename_i e; replace e := inv_of_eq e ?_))
    | fail_if_no_progress (refine inv_mk ?_ rfl rfl rfl rfl rfl rfl rfl rfl rfl))

theorem keep_drbgServe {s : State} {n : Nat} {fresh : Bool} (hInv : s.Inv) : PInv (State.drbgServe s n fresh) := by
  unfold State.drbgServe
  with_reducible repeat' (first
    | assumption | (extract_lets +onlyGivenNames x; have hx : State.Inv x := ?_; (on_goal 1 => clear_value x); (on_goal 2 => subst x))
    | (extract_lets +onlyGivenNames x; first | (have _ : Book := x; subst x) | (have _ : Terr := x; subst x) | (have _ : Ens := x; subst x) | clear_value x)
    | apply keep_seedInstance | apply keep_setDrbg | (refine inv_ite (fun _ => ?_) (fun _ => ?_)) | fail_if_no_progress (refine inv_mk ?_ rfl rfl rfl rfl rfl rfl rfl rfl rfl)
    | fail_if_no_progress (refine inv_pair ?_))

theorem keep_screeRand {s : State} (hInv : s.Inv) : PInv (State.screeRand s) := by
  unfold State.screeRand
  with_reducible repeat' (first
    | assumption | (extract_lets +onlyGivenNames x; have hx : PInv x := ?_; (on_goal 1 => clear_value x); (on_goal 2 => subst x)) | refine inv_snd ?_ | apply keep_drbgServe
    | (refine inv_ite2 (fun _ => ?_) (fun _ => ?_)) | fail_if_no_progress (refine inv_pair ?_))

end Sys2Proof.Machine
end

