-- ==== Sys2Proof/Laws/InvMassif.lean ====
section
/-! SUPPORT. Every operation of Machine/Massif.lean keeps the invariant of the device. -/

set_option maxRecDepth 4000
set_option linter.unusedTactic false
set_option linter.unreachableTactic false

namespace Sys2Proof.Machine

theorem keep_setMKey {s : State} {j : Nat} {k : Option MKey} (hInv : s.Inv) : (State.setMKey s j k).Inv := by
  unfold State.setMKey
  with_reducible repeat' (first
    | assumption | (extract_lets +onlyGivenNames x; have hx : State.Inv x := ?_; (on_goal 1 => clear_value x); (on_goal 2 => subst x))
    | (extract_lets +onlyGivenNames x; first | (have _ : Book := x; subst x) | (have _ : Terr := x; subst x) | (have _ : Ens := x; subst x) | clear_value x) | apply keep_wr
    | (refine inv_ite (fun _ => ?_) (fun _ => ?_)) | fail_if_no_progress (refine inv_mk ?_ rfl rfl rfl rfl rfl rfl rfl rfl rfl))

theorem keep_rebuildKeys {s : State} {share : Option (List Byte)} (hInv : s.Inv) : (State.rebuildKeys s share).Inv := by
  unfold State.rebuildKeys
  with_reducible repeat' (first
    | assumption | (extract_lets +onlyGivenNames x; have hx : State.Inv x := ?_; (on_goal 1 => clear_value x); (on_goal 2 => subst x))
    | (extract_lets +onlyGivenNames x; first | (have _ : Book := x; subst x) | (have _ : Terr := x; subst x) | (have _ : Ens := x; subst x) | clear_value x)
    | apply keep_setMKey)

theorem keep_massifShow {s : State} (hInv : s.Inv) : (State.massifShow s).Inv := by
  unfold State.massifShow
  with_reducible repeat' (first
    | assumption | (extract_lets +onlyGivenNames x; have hx : State.Inv x := ?_; (on_goal 1 => clear_value x); (on_goal 2 => subst x))
    | (extract_lets +onlyGivenNames x; first | (have _ : Book := x; subst x) | (have _ : Terr := x; subst x) | (have _ : Ens := x; subst x) | clear_value x) | apply keep_wr)

theorem keep_setMQueue {s : State} {c : Nat} {l : List MJob} (hInv : s.Inv) : (State.setMQueue s c l).Inv := by
  unfold State.setMQueue
  with_reducible repeat' (first
    | assumption | apply keep_massifShow | fail_if_no_progress (refine inv_mk ?_ rfl rfl rfl rfl rfl rfl rfl rfl rfl))

theorem keep_setMRunning {s : State} {c : Nat} {j : Option MJob} (hInv : s.Inv) : (State.setMRunning s c j).Inv := by
  unfold State.setMRunning
  with_reducible repeat' (first
    | assumption | apply keep_massifShow | fail_if_no_progress (refine inv_mk ?_ rfl rfl rfl rfl rfl rfl rfl rfl rfl))

theorem keep_busKeys {s : State} {ks : List (List Byte)} (hInv : s.Inv) : (State.busKeys s ks).Inv := by
  unfold State.busKeys
  with_reducible repeat' (first
    | assumption | apply keep_massifShow | fail_if_no_progress (refine inv_mk ?_ rfl rfl rfl rfl rfl rfl rfl rfl rfl))

theorem keep_massifEnd {s : State} {j : MJob} {st : Nat} {valid : Bool} (hInv : s.Inv) : (State.massifEnd s j st valid).Inv := by
  unfold State.massifEnd
  with_reducible repeat' (first
    | assumption | (extract_lets +onlyGivenNames x; have hx : State.Inv x := ?_; (on_goal 1 => clear_value x); (on_goal 2 => subst x)) | refine inv_snd ?_ | apply keep_irq
    | apply keep_enqueue | (refine inv_ite (fun _ => ?_) (fun _ => ?_)))

theorem keep_massifSubmit {s : State} {m p a : Nat} (hInv : s.Inv) : PInv (State.massifSubmit s m p a) := by
  unfold State.massifSubmit
  with_reducible repeat' (first
    | assumption | (extract_lets +onlyGivenNames x; first | (have _ : Book := x; subst x) | (have _ : Terr := x; subst x) | (have _ : Ens := x; subst x) | clear_value x)
    | apply keep_dmaRead | apply keep_massifEnd | apply keep_irq | apply keep_setMQueue | (refine inv_ite2 (fun _ => ?_) (fun _ => ?_))
    | (split <;> try (rename_i e; replace e := inv_of_eq e ?_)) | fail_if_no_progress (refine inv_pair ?_))

theorem keep_massifGate {s : State} {j : MJob} {agree : Bool} (hInv : s.Inv) : PInv (State.massifGate s j agree) := by
  unfold State.massifGate
  with_reducible repeat' (first
    | assumption | apply keep_sat | apply keep_irq | apply keep_dtDisagree | (refine inv_ite2 (fun _ => ?_) (fun _ => ?_)) | fail_if_no_progress (refine inv_pair ?_))

theorem keep_enterPart {s : State} {c : Nat} {j : MJob} (hInv : s.Inv) : (State.enterPart s c j).Inv := by
  unfold State.enterPart
  with_reducible repeat' (first
    | assumption | (extract_lets +onlyGivenNames x; first | (have _ : Book := x; subst x) | (have _ : Terr := x; subst x) | (have _ : Ens := x; subst x) | clear_value x)
    | (refine inv_ite (fun _ => ?_) (fun _ => ?_)) | fail_if_no_progress (refine inv_mk ?_ rfl rfl rfl rfl rfl rfl rfl rfl rfl))

theorem keep_massifStart {s : State} {c : Nat} {agree : Bool} (hInv : s.Inv) : (State.massifStart s c agree).Inv := by
  unfold State.massifStart
  with_reducible repeat' (first
    | assumption | (extract_lets +onlyGivenNames x; have hx : State.Inv x := ?_; (on_goal 1 => clear_value x); (on_goal 2 => subst x))
    | (extract_lets +onlyGivenNames x; first | (have _ : Book := x; subst x) | (have _ : Terr := x; subst x) | (have _ : Ens := x; subst x) | clear_value x)
    | refine inv_snd ?_ | apply keep_setMQueue | apply keep_enterPart | apply keep_massifGate | apply keep_setMRunning | (refine inv_ite (fun _ => ?_) (fun _ => ?_))
    | (split <;> try (rename_i e; replace e := inv_of_eq e ?_)) | fail_if_no_progress (refine inv_mk ?_ rfl rfl rfl rfl rfl rfl rfl rfl rfl))

theorem keep_longResume {s : State} (hInv : s.Inv) : (State.longResume s).Inv := by
  unfold State.longResume
  with_reducible repeat' (first
    | assumption | apply keep_massifShow | (refine inv_ite (fun _ => ?_) (fun _ => ?_)) | fail_if_no_progress (refine inv_mk ?_ rfl rfl rfl rfl rfl rfl rfl rfl rfl))

theorem keep_massifOut {s : State} {j : MJob} {bs : List Byte} (hInv : s.Inv) : PInv (State.massifOut s j bs) := by
  unfold State.massifOut
  with_reducible repeat' (first
    | assumption | apply keep_dmaWrite | (refine inv_ite2 (fun _ => ?_) (fun _ => ?_)) | (split <;> try (rename_i e; replace e := inv_of_eq e ?_))
    | fail_if_no_progress (refine inv_pair ?_))

theorem keep_runHash {s : State} {j : MJob} (hInv : s.Inv) : PInv (State.runHash s j) := by
  unfold State.runHash
  with_reducible repeat' (first
    | assumption | apply keep_dmaRead | apply keep_massifOut | (split <;> try (rename_i e; replace e := inv_of_eq e ?_)) | fail_if_no_progress (refine inv_pair ?_))

theorem keep_runHmac {s : State} {j : MJob} (hInv : s.Inv) : PInv (State.runHmac s j) := by
  unfold State.runHmac
  with_reducible repeat' (first
    | assumption | (extract_lets +onlyGivenNames x; first | (have _ : Book := x; subst x) | (have _ : Terr := x; subst x) | (have _ : Ens := x; subst x) | clear_value x)
    | apply keep_dmaRead | apply keep_massifOut | apply keep_next | (split <;> try (rename_i e; replace e := inv_of_eq e ?_)) | fail_if_no_progress (refine inv_pair ?_))

theorem keep_runDerive {s : State} {j : MJob} (hInv : s.Inv) : PInv (State.runDerive s j) := by
  unfold State.runDerive
  with_reducible repeat' (first
    | assumption | (extract_lets +onlyGivenNames x; first | (have _ : Book := x; subst x) | (have _ : Terr := x; subst x) | (have _ : Ens := x; subst x) | clear_value x)
    | apply keep_dmaRead | apply keep_busKeys | apply keep_setMKey | (refine inv_ite2 (fun _ => ?_) (fun _ => ?_)) | (split <;> try (rename_i e; replace e := inv_of_eq e ?_))
    | fail_if_no_progress (refine inv_pair ?_))

theorem keep_runCombine {s : State} {j : MJob} (hInv : s.Inv) : PInv (State.runCombine s j) := by
  unfold State.runCombine
  with_reducible repeat' (first
    | assumption | (extract_lets +onlyGivenNames x; first | (have _ : Book := x; subst x) | (have _ : Terr := x; subst x) | (have _ : Ens := x; subst x) | clear_value x)
    | apply keep_dmaRead | apply keep_busKeys | (refine inv_ite2 (fun _ => ?_) (fun _ => ?_)) | (split <;> try (rename_i e; replace e := inv_of_eq e ?_))
    | fail_if_no_progress (refine inv_pair ?_))

theorem keep_runImport {s : State} {j : MJob} (hInv : s.Inv) : PInv (State.runImport s j) := by
  unfold State.runImport
  with_reducible repeat' (first
    | assumption | (extract_lets +onlyGivenNames x; first | (have _ : Book := x; subst x) | (have _ : Terr := x; subst x) | (have _ : Ens := x; subst x) | clear_value x)
    | apply keep_setMKey | (refine inv_ite2 (fun _ => ?_) (fun _ => ?_)) | (split <;> try (rename_i e; replace e := inv_of_eq e ?_))
    | fail_if_no_progress (refine inv_mk ?_ rfl rfl rfl rfl rfl rfl rfl rfl rfl) | fail_if_no_progress (refine inv_pair ?_))

theorem keep_runPk {s : State} {j : MJob} {inv : Bool} (hInv : s.Inv) : PInv (State.runPk s j inv) := by
  unfold State.runPk
  with_reducible repeat' (first
    | assumption | (extract_lets +onlyGivenNames x; have hx : State.Inv x := ?_; (on_goal 1 => clear_value x); (on_goal 2 => subst x))
    | (extract_lets +onlyGivenNames x; have hx : PInv x := ?_; (on_goal 1 => clear_value x); (on_goal 2 => subst x))
    | (extract_lets +onlyGivenNames x; first | (have _ : Book := x; subst x) | (have _ : Terr := x; subst x) | (have _ : Ens := x; subst x) | clear_value x)
    | refine inv_snd ?_ | apply keep_dmaRead | apply keep_drbgServe | apply keep_irq | apply keep_sat | apply keep_post | apply keep_massifOut | apply keep_setMKey
    | (refine inv_ite2 (fun _ => ?_) (fun _ => ?_)) | (split <;> try (rename_i e; replace e := inv_of_eq e ?_))
    | fail_if_no_progress (refine inv_mk ?_ rfl rfl rfl rfl rfl rfl rfl rfl rfl) | fail_if_no_progress (refine inv_pair ?_))

theorem keep_runPublic {s : State} {j : MJob} (hInv : s.Inv) : PInv (State.runPublic s j) := by
  unfold State.runPublic
  with_reducible repeat' (first
    | assumption | (extract_lets +onlyGivenNames x; first | (have _ : Book := x; subst x) | (have _ : Terr := x; subst x) | (have _ : Ens := x; subst x) | clear_value x)
    | apply keep_massifOut | (split <;> try (rename_i e; replace e := inv_of_eq e ?_)) | fail_if_no_progress (refine inv_pair ?_))

theorem keep_massifCompute {s : State} {j : MJob} {inv : Bool} (hInv : s.Inv) : PInv (State.massifCompute s j inv) := by
  unfold State.massifCompute
  with_reducible repeat' (first
    | assumption | apply keep_runHash | apply keep_runHmac | apply keep_runDerive | apply keep_runCombine | apply keep_runImport | apply keep_setMKey | apply keep_runPublic
    | apply keep_runPk | (split <;> try (rename_i e; replace e := inv_of_eq e ?_)) | fail_if_no_progress (refine inv_pair ?_))

theorem keep_massifRun {s : State} {ops : List Nat} {inv parity agree : Bool} (hInv : s.Inv) : (State.massifRun s ops inv parity agree).Inv := by
  unfold State.massifRun
  with_reducible repeat' (first
    | assumption | refine inv_snd ?_ | apply keep_irq | apply keep_post | apply keep_setMRunning | apply keep_sat | apply keep_dtDisagree | apply keep_massifCompute
    | (refine inv_ite (fun _ => ?_) (fun _ => ?_)) | (split <;> try (rename_i e; replace e := inv_of_eq e ?_)))

theorem keep_massifDone {s : State} {c : Nat} (hInv : s.Inv) : (State.massifDone s c).Inv := by
  unfold State.massifDone
  with_reducible repeat' (first
    | assumption | apply keep_setMRunning | apply keep_massifEnd | (split <;> try (rename_i e; replace e := inv_of_eq e ?_)))

theorem keep_massifClear {s : State} (hInv : s.Inv) : (State.massifClear s).Inv := by
  unfold State.massifClear
  with_reducible repeat' (first
    | assumption | (extract_lets +onlyGivenNames x; have hx : State.Inv x := ?_; (on_goal 1 => clear_value x); (on_goal 2 => subst x))
    | (extract_lets +onlyGivenNames x; first | (have _ : Book := x; subst x) | (have _ : Terr := x; subst x) | (have _ : Ens := x; subst x) | clear_value x)
    | apply keep_setMKey | apply keep_massifShow | (refine inv_foldl ?_ (fun _ _ _ => ?_)) | (refine inv_ite (fun _ => ?_) (fun _ => ?_))
    | fail_if_no_progress (refine inv_mk ?_ rfl rfl rfl rfl rfl rfl rfl rfl rfl))

theorem keep_massifCurtain {s : State} (hInv : s.Inv) : (State.massifCurtain s).Inv := by
  unfold State.massifCurtain
  with_reducible repeat' (first
    | assumption | (extract_lets +onlyGivenNames x; have hx : State.Inv x := ?_; (on_goal 1 => clear_value x); (on_goal 2 => subst x))
    | (extract_lets +onlyGivenNames x; first | (have _ : Book := x; subst x) | (have _ : Terr := x; subst x) | (have _ : Ens := x; subst x) | clear_value x)
    | apply keep_massifClear | apply keep_irq | (refine inv_ite (fun _ => ?_) (fun _ => ?_)))

end Sys2Proof.Machine
end

