-- ==== Sys2Proof/Laws/InvCurtain.lean ====
section
/-! SUPPORT. Every operation of Machine/Curtain.lean keeps the invariant of the device. -/

set_option maxRecDepth 4000
set_option linter.unusedTactic false
set_option linter.unreachableTactic false

namespace Sys2Proof.Machine

theorem keep_rtcNow {s : State} (hInv : s.Inv) : PInv (State.rtcNow s) := by
  unfold State.rtcNow
  with_reducible repeat' (first
    | assumption | (extract_lets +onlyGivenNames x; have hx : State.Inv x := ?_; (on_goal 1 => clear_value x); (on_goal 2 => subst x))
    | (extract_lets +onlyGivenNames x; first | (have _ : Book := x; subst x) | (have _ : Terr := x; subst x) | (have _ : Ens := x; subst x) | clear_value x) | apply keep_next
    | (refine inv_ite2 (fun _ => ?_) (fun _ => ?_)) | fail_if_no_progress (refine inv_mk ?_ rfl rfl rfl rfl rfl rfl rfl rfl rfl) | fail_if_no_progress (refine inv_pair ?_))

theorem keep_rtcFold {s : State} (hInv : s.Inv) : (State.rtcFold s).Inv := by
  unfold State.rtcFold
  with_reducible repeat' (first
    | assumption | (extract_lets +onlyGivenNames x; first | (have _ : Book := x; subst x) | (have _ : Terr := x; subst x) | (have _ : Ens := x; subst x) | clear_value x)
    | apply keep_rtcNow | (split <;> try (rename_i e; replace e := inv_of_eq e ?_)) | fail_if_no_progress (refine inv_mk ?_ rfl rfl rfl rfl rfl rfl rfl rfl rfl))

theorem keep_logShow {s : State} (hInv : s.Inv) : (State.logShow s).Inv := by
  unfold State.logShow
  with_reducible repeat' (first
    | assumption | apply keep_wr)

theorem keep_logEntry {s : State} {cause : Nat} {detail : Word} (hInv : s.Inv) : (State.logEntry s cause detail).Inv := by
  unfold State.logEntry
  with_reducible repeat' (first
    | assumption | (extract_lets +onlyGivenNames x; first | (have _ : Book := x; subst x) | (have _ : Terr := x; subst x) | (have _ : Ens := x; subst x) | clear_value x)
    | refine inv_snd ?_ | apply keep_rtcNow | apply keep_sat | apply keep_logShow | apply keep_irq | (refine inv_ite (fun _ => ?_) (fun _ => ?_))
    | fail_if_no_progress (refine inv_mk ?_ rfl rfl rfl rfl rfl rfl rfl rfl rfl))

theorem keep_logFree {s : State} {cause : Nat} (hInv : s.Inv) : (State.logFree s cause).Inv := by
  unfold State.logFree
  with_reducible repeat' (first
    | assumption | apply keep_logEntry | apply keep_next)

theorem keep_markCopied {s : State} {k : Nat} (hInv : s.Inv) : (State.markCopied s k).Inv := by
  unfold State.markCopied
  with_reducible repeat' (first
    | assumption | apply keep_logShow | fail_if_no_progress (refine inv_mk ?_ rfl rfl rfl rfl rfl rfl rfl rfl rfl))

theorem keep_logSel {s : State} {w : Word} (hInv : s.Inv) : (State.logSel s w).Inv := by
  unfold State.logSel
  with_reducible repeat' (first
    | assumption | (extract_lets +onlyGivenNames x; have hx : State.Inv x := ?_; (on_goal 1 => clear_value x); (on_goal 2 => subst x)) | apply keep_setReg
    | apply keep_markCopied | (refine inv_ite (fun _ => ?_) (fun _ => ?_)))

theorem keep_zeroShare {s : State} (hInv : s.Inv) : (State.zeroShare s).Inv := by
  unfold State.zeroShare
  with_reducible repeat' (first
    | assumption | apply keep_wr | fail_if_no_progress (refine inv_mk ?_ rfl rfl rfl rfl rfl rfl rfl rfl rfl))

theorem keep_draw32 {s : State} {fresh : Bool} (hInv : s.Inv) : PInv (State.draw32 s fresh) := by
  unfold State.draw32
  with_reducible repeat' (first
    | assumption | apply keep_drbgServe | apply keep_next | (refine inv_ite2 (fun _ => ?_) (fun _ => ?_)) | fail_if_no_progress (refine inv_pair ?_))

theorem keep_newShare {s : State} (hInv : s.Inv) : (State.newShare s).Inv := by
  unfold State.newShare
  with_reducible repeat' (first
    | assumption | (extract_lets +onlyGivenNames x; have hx : State.Inv x := ?_; (on_goal 1 => clear_value x); (on_goal 2 => subst x))
    | (extract_lets +onlyGivenNames x; have hx : PInv x := ?_; (on_goal 1 => clear_value x); (on_goal 2 => subst x))
    | (extract_lets +onlyGivenNames x; first | (have _ : Book := x; subst x) | (have _ : Terr := x; subst x) | (have _ : Ens := x; subst x) | clear_value x)
    | refine inv_snd ?_ | apply keep_wr | apply keep_draw32 | apply keep_logFree | fail_if_no_progress (refine inv_mk ?_ rfl rfl rfl rfl rfl rfl rfl rfl rfl))

theorem keep_rtcSet {s : State} {w : Word} (hInv : s.Inv) : (State.rtcSet s w).Inv := by
  unfold State.rtcSet
  with_reducible repeat' (first
    | assumption | apply keep_irq | apply keep_logFree | apply keep_wr | fail_if_no_progress (refine inv_mk ?_ rfl rfl rfl rfl rfl rfl rfl rfl rfl))

theorem keep_refugeCfg {s : State} {w : Word} (hInv : s.Inv) : (State.refugeCfg s w).Inv := by
  unfold State.refugeCfg
  with_reducible repeat' (first
    | assumption | apply keep_setReg)

theorem keep_abortPend {s : State} {base : Nat} (hInv : s.Inv) : (State.abortPend s base).Inv := by
  unfold State.abortPend
  with_reducible repeat' (first
    | assumption | apply keep_unpend | apply keep_wr | (refine inv_ite (fun _ => ?_) (fun _ => ?_)))

theorem keep_drawChallenge {s : State} (hInv : s.Inv) : (State.drawChallenge s).Inv := by
  unfold State.drawChallenge
  with_reducible repeat' (first
    | assumption | (extract_lets +onlyGivenNames x; have hx : PInv x := ?_; (on_goal 1 => clear_value x); (on_goal 2 => subst x)) | refine inv_snd ?_ | apply keep_draw32
    | apply keep_setReg | apply keep_summaryOwed | (refine inv_foldl ?_ (fun _ _ _ => ?_)))

theorem keep_curtainStop {s : State} (hInv : s.Inv) : (State.curtainStop s).Inv := by
  unfold State.curtainStop
  with_reducible repeat' (first
    | assumption | (extract_lets +onlyGivenNames x; have hx : State.Inv x := ?_; (on_goal 1 => clear_value x); (on_goal 2 => subst x))
    | (extract_lets +onlyGivenNames x; first | (have _ : Book := x; subst x) | (have _ : Terr := x; subst x) | (have _ : Ens := x; subst x) | clear_value x) | apply keep_wr
    | apply keep_holdCore | apply keep_setCore | apply keep_egressCurtain | (refine inv_foldl ?_ (fun _ _ _ => ?_))
    | fail_if_no_progress (refine inv_mk ?_ rfl rfl rfl rfl rfl rfl rfl rfl rfl))

theorem keep_curtainKeys {s : State} (hInv : s.Inv) : (State.curtainKeys s).Inv := by
  unfold State.curtainKeys
  with_reducible repeat' (first
    | assumption | (extract_lets +onlyGivenNames x; have hx : State.Inv x := ?_; (on_goal 1 => clear_value x); (on_goal 2 => subst x))
    | (extract_lets +onlyGivenNames x; first | (have _ : Book := x; subst x) | (have _ : Terr := x; subst x) | (have _ : Ens := x; subst x) | clear_value x)
    | apply keep_chorusCurtain | apply keep_massifCurtain | apply keep_next | fail_if_no_progress (refine inv_mk ?_ rfl rfl rfl rfl rfl rfl rfl rfl rfl))

theorem keep_curtainBank {s : State} {n : Nat} (hInv : s.Inv) : (State.curtainBank s n).Inv := by
  unfold State.curtainBank
  with_reducible repeat' (first
    | assumption | (extract_lets +onlyGivenNames x; have hx : State.Inv x := ?_; (on_goal 1 => clear_value x); (on_goal 2 => subst x))
    | (extract_lets +onlyGivenNames x; first | (have _ : Book := x; subst x) | (have _ : Terr := x; subst x) | (have _ : Ens := x; subst x) | clear_value x)
    | apply keep_startZero | apply keep_arm | apply keep_bankOff | apply keep_setLive | apply keep_setReg | (refine inv_ite (fun _ => ?_) (fun _ => ?_)))

theorem keep_curtainRam {s : State} (hInv : s.Inv) : (State.curtainRam s).Inv := by
  unfold State.curtainRam
  with_reducible repeat' (first
    | assumption | (extract_lets +onlyGivenNames x; have hx : State.Inv x := ?_; (on_goal 1 => clear_value x); (on_goal 2 => subst x))
    | (extract_lets +onlyGivenNames x; first | (have _ : Book := x; subst x) | (have _ : Terr := x; subst x) | (have _ : Ens := x; subst x) | clear_value x)
    | apply keep_curtainBank | apply keep_wipe | (refine inv_foldl ?_ (fun _ _ _ => ?_)) | fail_if_no_progress (refine inv_mk ?_ rfl rfl rfl rfl rfl rfl rfl rfl rfl))

theorem keep_curtainEnter {s : State} {id : Nat} {z : Bool} (hInv : s.Inv) : (State.curtainEnter s id z).Inv := by
  unfold State.curtainEnter
  with_reducible repeat' (first
    | assumption | (extract_lets +onlyGivenNames x; have hx : State.Inv x := ?_; (on_goal 1 => clear_value x); (on_goal 2 => subst x))
    | (extract_lets +onlyGivenNames x; first | (have _ : Book := x; subst x) | (have _ : Terr := x; subst x) | (have _ : Ens := x; subst x) | clear_value x) | apply keep_wr
    | apply keep_zeroShare | apply keep_logFree | apply keep_drawChallenge | apply keep_abortPend | apply keep_curtainStop | apply keep_enterMode | apply keep_curtainKeys
    | apply keep_curtainRam | apply keep_readerStop | apply keep_arm | (refine inv_foldl ?_ (fun _ _ _ => ?_)) | (refine inv_ite (fun _ => ?_) (fun _ => ?_))
    | fail_if_no_progress (refine inv_mk ?_ rfl rfl rfl rfl rfl rfl rfl rfl rfl))

theorem keep_curtainAssertZ {s : State} {id : Nat} {z : Bool} (hInv : s.Inv) : (State.curtainAssertZ s id z).Inv := by
  unfold State.curtainAssertZ
  with_reducible repeat' (first
    | assumption | (extract_lets +onlyGivenNames x; have hx : State.Inv x := ?_; (on_goal 1 => clear_value x); (on_goal 2 => subst x)) | apply keep_wr | apply keep_irq
    | apply keep_postU | apply keep_logFree | apply keep_zeroShare | apply keep_setMKey | apply keep_curtainEnter | (refine inv_ite (fun _ => ?_) (fun _ => ?_)))

theorem keep_curtainAssert {s : State} {id : Nat} (hInv : s.Inv) : (State.curtainAssert s id).Inv := by
  unfold State.curtainAssert
  with_reducible repeat' (first
    | assumption | apply keep_curtainAssertZ | (refine inv_ite (fun _ => ?_) (fun _ => ?_)))

theorem keep_settle {s : State} (hInv : s.Inv) : (State.settle s).Inv := by
  unfold State.settle
  with_reducible repeat' (first
    | assumption | apply keep_relFlush | apply keep_curtainAssert | (refine inv_foldl ?_ (fun _ _ _ => ?_))
    | fail_if_no_progress (refine inv_mk ?_ rfl rfl rfl rfl rfl rfl rfl rfl rfl))

theorem keep_curtainClear {s : State} {id : Nat} (hInv : s.Inv) : (State.curtainClear s id).Inv := by
  unfold State.curtainClear
  with_reducible repeat' (first
    | assumption | apply keep_wr)

theorem keep_curtainZeroDone {s : State} (hInv : s.Inv) : (State.curtainZeroDone s).Inv := by
  unfold State.curtainZeroDone
  with_reducible repeat' (first
    | assumption | (extract_lets +onlyGivenNames x; have hx : State.Inv x := ?_; (on_goal 1 => clear_value x); (on_goal 2 => subst x)) | apply keep_irq | apply keep_postU
    | (refine inv_ite (fun _ => ?_) (fun _ => ?_)) | (split <;> try (rename_i e; replace e := inv_of_eq e ?_))
    | fail_if_no_progress (refine inv_mk ?_ rfl rfl rfl rfl rfl rfl rfl rfl rfl))

theorem keep_curtainCfg {s : State} {w : Word} (hInv : s.Inv) : (State.curtainCfg s w).Inv := by
  unfold State.curtainCfg
  with_reducible repeat' (first
    | assumption | apply keep_sat | apply keep_wr | (refine inv_ite (fun _ => ?_) (fun _ => ?_)))

theorem keep_junctionWarn {s : State} {hot : Bool} (hInv : s.Inv) : (State.junctionWarn s hot).Inv := by
  unfold State.junctionWarn
  with_reducible repeat' (first
    | assumption | apply keep_wr | apply keep_irq)

theorem keep_unlockRefuse {s : State} {r : Nat} (hInv : s.Inv) : (State.unlockRefuse s r).Inv := by
  unfold State.unlockRefuse
  with_reducible repeat' (first
    | assumption | (extract_lets +onlyGivenNames x; have hx : State.Inv x := ?_; (on_goal 1 => clear_value x); (on_goal 2 => subst x)) | apply keep_wr | apply keep_sat
    | apply keep_irq | apply keep_postU | apply keep_drawChallenge | apply keep_arm | (refine inv_ite (fun _ => ?_) (fun _ => ?_)))

theorem keep_unlockAccept {s : State} {b : List Byte} (hInv : s.Inv) : (State.unlockAccept s b).Inv := by
  unfold State.unlockAccept
  with_reducible repeat' (first
    | assumption | (extract_lets +onlyGivenNames x; have hx : State.Inv x := ?_; (on_goal 1 => clear_value x); (on_goal 2 => subst x)) | apply keep_wr | apply keep_setReg
    | apply keep_logFree | apply keep_irq | (refine inv_ite (fun _ => ?_) (fun _ => ?_)))

theorem keep_unlockCheck {s : State} {b : List Byte} {agree : Bool} (hInv : s.Inv) : (State.unlockCheck s b agree).Inv := by
  unfold State.unlockCheck
  with_reducible repeat' (first
    | assumption | apply keep_unlockRefuse | apply keep_twice | apply keep_unlockAccept | (refine inv_ite (fun _ => ?_) (fun _ => ?_))
    | (split <;> try (rename_i e; replace e := inv_of_eq e ?_)))

theorem keep_unlockFree {s : State} (hInv : s.Inv) : (State.unlockFree s).Inv := by
  unfold State.unlockFree
  with_reducible repeat' (first
    | assumption | apply keep_wr)

theorem keep_cellAlarm {s : State} {cause : Nat} {detail : Word} (hInv : s.Inv) : (State.cellAlarm s cause detail).Inv := by
  unfold State.cellAlarm
  with_reducible repeat' (first
    | assumption | (extract_lets +onlyGivenNames x; have hx : State.Inv x := ?_; (on_goal 1 => clear_value x); (on_goal 2 => subst x))
    | (extract_lets +onlyGivenNames x; first | (have _ : Book := x; subst x) | (have _ : Terr := x; subst x) | (have _ : Ens := x; subst x) | clear_value x)
    | apply keep_zeroShare | apply keep_logEntry | apply keep_wr | fail_if_no_progress (refine inv_mk ?_ rfl rfl rfl rfl rfl rfl rfl rfl rfl))

theorem keep_refugeSee {s : State} {cause : Nat} {fails : Bool} {detail : Word} (hInv : s.Inv) : (State.refugeSee s cause fails detail).Inv := by
  unfold State.refugeSee
  with_reducible repeat' (first
    | assumption | (extract_lets +onlyGivenNames x; have hx : State.Inv x := ?_; (on_goal 1 => clear_value x); (on_goal 2 => subst x))
    | (extract_lets +onlyGivenNames x; first | (have _ : Book := x; subst x) | (have _ : Terr := x; subst x) | (have _ : Ens := x; subst x) | clear_value x)
    | apply keep_curtainClear | apply keep_curtainAssertZ | apply keep_cellAlarm | (refine inv_ite (fun _ => ?_) (fun _ => ?_))
    | fail_if_no_progress (refine inv_mk ?_ rfl rfl rfl rfl rfl rfl rfl rfl rfl))

theorem keep_refugeCheck {s : State} {loop0 loop1 mesh : Bool} {pos : Word} {vbat : Nat} (hInv : s.Inv) : (State.refugeCheck s loop0 loop1 mesh pos vbat).Inv := by
  unfold State.refugeCheck
  with_reducible repeat' (first
    | assumption | (extract_lets +onlyGivenNames x; have hx : State.Inv x := ?_; (on_goal 1 => clear_value x); (on_goal 2 => subst x)) | apply keep_refugeSee)

theorem keep_cellLevel {s : State} {mv : Nat} (hInv : s.Inv) : (State.cellLevel s mv).Inv := by
  unfold State.cellLevel
  with_reducible repeat' (first
    | assumption | apply keep_wr)

theorem keep_refugeLose {s : State} (hInv : s.Inv) : (State.refugeLose s).Inv := by
  unfold State.refugeLose
  with_reducible repeat' (first
    | assumption | (extract_lets +onlyGivenNames x; have hx : State.Inv x := ?_; (on_goal 1 => clear_value x); (on_goal 2 => subst x)) | apply keep_cellLevel
    | apply keep_zeroShare | apply keep_wr | apply keep_setReg | apply keep_logShow | (refine inv_ite (fun _ => ?_) (fun _ => ?_))
    | fail_if_no_progress (refine inv_mk ?_ rfl rfl rfl rfl rfl rfl rfl rfl rfl))

theorem keep_cellRemoved {s : State} {mv : Nat} (hInv : s.Inv) : (State.cellRemoved s mv).Inv := by
  unfold State.cellRemoved
  with_reducible repeat' (first
    | assumption | apply keep_cellLevel | apply keep_logEntry | apply keep_irq | apply keep_refugeLose | (refine inv_ite (fun _ => ?_) (fun _ => ?_)))

theorem keep_cellInserted {s : State} {mv : Nat} (hInv : s.Inv) : (State.cellInserted s mv).Inv := by
  unfold State.cellInserted
  with_reducible repeat' (first
    | assumption | (extract_lets +onlyGivenNames x; have hx : State.Inv x := ?_; (on_goal 1 => clear_value x); (on_goal 2 => subst x)) | apply keep_cellLevel
    | apply keep_logEntry | apply keep_irq | (refine inv_ite (fun _ => ?_) (fun _ => ?_)))

theorem keep_vbatLow {s : State} {mv : Nat} (hInv : s.Inv) : (State.vbatLow s mv).Inv := by
  unfold State.vbatLow
  with_reducible repeat' (first
    | assumption | (extract_lets +onlyGivenNames x; have hx : State.Inv x := ?_; (on_goal 1 => clear_value x); (on_goal 2 => subst x)) | apply keep_cellLevel | apply keep_wr
    | apply keep_irq | apply keep_logEntry | (refine inv_ite (fun _ => ?_) (fun _ => ?_)))

theorem keep_supplySwitch {s : State} (hInv : s.Inv) : (State.supplySwitch s).Inv := by
  unfold State.supplySwitch
  with_reducible repeat' (first
    | assumption | fail_if_no_progress (refine inv_mk ?_ rfl rfl rfl rfl rfl rfl rfl rfl rfl))

theorem keep_copyLog {s : State} (hInv : s.Inv) : (State.copyLog s).Inv := by
  unfold State.copyLog
  with_reducible repeat' (first
    | assumption | (extract_lets +onlyGivenNames x; have hx : State.Inv x := ?_; (on_goal 1 => clear_value x); (on_goal 2 => subst x))
    | (extract_lets +onlyGivenNames x; first | (have _ : Book := x; subst x) | (have _ : Terr := x; subst x) | (have _ : Ens := x; subst x) | clear_value x) | apply keep_post
    | apply keep_logShow | (refine inv_foldl ?_ (fun _ _ _ => ?_)) | (refine inv_ite (fun _ => ?_) (fun _ => ?_))
    | fail_if_no_progress (refine inv_mk ?_ rfl rfl rfl rfl rfl rfl rfl rfl rfl))

end Sys2Proof.Machine
end

