-- ==== Sys2Proof/Laws/InvCommit.lean ====
section
/-! SUPPORT. Every operation of Machine/Commit.lean keeps the invariant of the device. -/

set_option maxRecDepth 4000
set_option linter.unusedTactic false
set_option linter.unreachableTactic false

namespace Sys2Proof.Machine

theorem keep_refuseGo {s : State} {base : Nat} (hInv : s.Inv) : (State.refuseGo s base).Inv := by
  unfold State.refuseGo
  with_reducible repeat' (first
    | assumption | apply keep_sat | apply keep_fireCommit)

theorem keep_pairBreak {s : State} (hInv : s.Inv) : (State.pairBreak s).Inv := by
  unfold State.pairBreak
  with_reducible repeat' (first
    | assumption | apply keep_abortPend | (refine inv_ite (fun _ => ?_) (fun _ => ?_)))

theorem keep_blockAbort {s : State} {base : Nat} (hInv : s.Inv) : (State.blockAbort s base).Inv := by
  unfold State.blockAbort
  with_reducible repeat' (first
    | assumption | (extract_lets +onlyGivenNames x; have hx : State.Inv x := ?_; (on_goal 1 => clear_value x); (on_goal 2 => subst x)) | apply keep_abortPend
    | apply keep_pairBreak | (refine inv_ite (fun _ => ?_) (fun _ => ?_)))

theorem keep_blockGo {s : State} {base when_ cue : Nat} (hInv : s.Inv) : (State.blockGo s base when_ cue).Inv := by
  unfold State.blockGo
  with_reducible repeat' (first
    | assumption | apply keep_refuseGo | apply keep_goPend | (refine inv_ite (fun _ => ?_) (fun _ => ?_)))

theorem keep_blockCommit {s : State} {base : Nat} {w : Word} (hInv : s.Inv) : (State.blockCommit s base w).Inv := by
  unfold State.blockCommit
  with_reducible repeat' (first
    | assumption | (extract_lets +onlyGivenNames x; have hx : State.Inv x := ?_; (on_goal 1 => clear_value x); (on_goal 2 => subst x)) | apply keep_setReg
    | apply keep_blockAbort | apply keep_blockGo | (refine inv_ite (fun _ => ?_) (fun _ => ?_)))

theorem keep_spliceLive {s : State} {base : Nat} (h : s.Inv) : (State.spliceLive s base).Inv :=
  And.intro ⟨h.1.1, h.1.2.1, canonical_splice (Nat.le_add_right _ _) h.1.2.2.1 h.1.2.1, h.1.2.2.2⟩ h.2

theorem keep_gridCommit {s : State} (hInv : s.Inv) : (State.gridCommit s).Inv := by
  unfold State.gridCommit
  with_reducible repeat' (first
    | assumption | (extract_lets +onlyGivenNames x; have hx : State.Inv x := ?_; (on_goal 1 => clear_value x); (on_goal 2 => subst x))
    | (extract_lets +onlyGivenNames x; first | (have _ : Book := x; subst x) | (have _ : Terr := x; subst x) | (have _ : Ens := x; subst x) | clear_value x)
    | apply keep_spliceLive | apply keep_gridChanged | apply keep_gridBreak | (refine inv_ite (fun _ => ?_) (fun _ => ?_)))

theorem keep_blockApply {s : State} {base : Nat} (hInv : s.Inv) : (State.blockApply s base).Inv := by
  unfold State.blockApply
  with_reducible repeat' (first
    | assumption | (extract_lets +onlyGivenNames x; have hx : State.Inv x := ?_; (on_goal 1 => clear_value x); (on_goal 2 => subst x))
    | (extract_lets +onlyGivenNames x; first | (have _ : Book := x; subst x) | (have _ : Terr := x; subst x) | (have _ : Ens := x; subst x) | clear_value x)
    | apply keep_cueApply | apply keep_swApply | apply keep_solApply | apply keep_chorusApply | apply keep_gridCommit | apply keep_bankCommit | apply keep_irq
    | apply keep_packerCommit | apply keep_ensApply | apply keep_spliceLive | apply keep_pinsApplied | apply keep_troupeShow | (refine inv_foldl ?_ (fun _ _ _ => ?_))
    | (refine inv_ite (fun _ => ?_) (fun _ => ?_)) | fail_if_no_progress (refine inv_mk ?_ rfl rfl rfl rfl rfl rfl rfl rfl rfl))

theorem keep_commitBlock {s : State} {base : Nat} (hInv : s.Inv) : (State.commitBlock s base).Inv := by
  unfold State.commitBlock
  with_reducible repeat' (first
    | assumption | (extract_lets +onlyGivenNames x; have hx : State.Inv x := ?_; (on_goal 1 => clear_value x); (on_goal 2 => subst x)) | apply keep_blockAbort
    | apply keep_refuseGo | apply keep_unpend | apply keep_blockApply | apply keep_wrap | (refine inv_ite (fun _ => ?_) (fun _ => ?_)))

theorem keep_commitAll {s : State} {bases : List Nat} (hInv : s.Inv) : (State.commitAll s bases).Inv := by
  unfold State.commitAll
  with_reducible repeat' (first
    | assumption | apply keep_commitBlock | apply keep_pairBreak | (refine inv_foldl ?_ (fun _ _ _ => ?_)))

theorem keep_commitDue {s : State} {base : Nat} (hInv : s.Inv) : (State.commitDue s base).Inv := by
  unfold State.commitDue
  with_reducible repeat' (first
    | assumption | apply keep_commitAll | (refine inv_ite (fun _ => ?_) (fun _ => ?_)))

theorem keep_commitFrame {s : State} (hInv : s.Inv) : (State.commitFrame s).Inv := by
  unfold State.commitFrame
  with_reducible repeat' (first
    | assumption | apply keep_commitAll)

theorem keep_commitCues {s : State} {idx : List Nat} (hInv : s.Inv) : (State.commitCues s idx).Inv := by
  unfold State.commitCues
  with_reducible repeat' (first
    | assumption | apply keep_commitAll)

end Sys2Proof.Machine
end

