-- ==== Sys2Proof/Laws/InvCueEngine.lean ====
section
/-! SUPPORT. Every operation of Machine/CueEngine.lean keeps the invariant of the device. -/

set_option maxRecDepth 4000
set_option linter.unusedTactic false
set_option linter.unreachableTactic false

namespace Sys2Proof.Machine

theorem keep_takePlace {s : State} (hInv : s.Inv) : (State.takePlace s).Inv := by
  unfold State.takePlace
  with_reducible repeat' (first
    | assumption | fail_if_no_progress (refine inv_mk ?_ rfl rfl rfl rfl rfl rfl rfl rfl rfl))

theorem keep_occDone {s : State} {o : Occ} (hInv : s.Inv) : (State.occDone s o).Inv := by
  unfold State.occDone
  with_reducible repeat' (first
    | assumption | apply keep_setCueWord | (refine inv_ite (fun _ => ?_) (fun _ => ?_)) | fail_if_no_progress (refine inv_mk ?_ rfl rfl rfl rfl rfl rfl rfl rfl rfl))

theorem keep_launchIrq {s : State} {o : Occ} {t : Option TicketRef} (hInv : s.Inv) : (State.launchIrq s o t).Inv := by
  unfold State.launchIrq
  with_reducible repeat' (first
    | assumption | (extract_lets +onlyGivenNames x; have hx : State.Inv x := ?_; (on_goal 1 => clear_value x); (on_goal 2 => subst x))
    | (extract_lets +onlyGivenNames x; first | (have _ : Book := x; subst x) | (have _ : Terr := x; subst x) | (have _ : Ens := x; subst x) | clear_value x) | apply keep_wr
    | apply keep_irq | fail_if_no_progress (refine inv_mk ?_ rfl rfl rfl rfl rfl rfl rfl rfl rfl))

theorem keep_launchPin {s : State} {o : Occ} {at_ : Nat} {t : Option TicketRef} (hInv : s.Inv) : (State.launchPin s o at_ t).Inv := by
  unfold State.launchPin
  with_reducible repeat' (first
    | assumption | (extract_lets +onlyGivenNames x; have hx : State.Inv x := ?_; (on_goal 1 => clear_value x); (on_goal 2 => subst x))
    | (extract_lets +onlyGivenNames x; first | (have _ : Book := x; subst x) | (have _ : Terr := x; subst x) | (have _ : Ens := x; subst x) | clear_value x)
    | apply keep_setPin | apply keep_wr | fail_if_no_progress (refine inv_mk ?_ rfl rfl rfl rfl rfl rfl rfl rfl rfl))

theorem keep_launchJob {s : State} {o : Occ} {t : Option TicketRef} (hInv : s.Inv) : (State.launchJob s o t).Inv := by
  unfold State.launchJob
  with_reducible repeat' (first
    | assumption | refine inv_snd ?_ | apply keep_enqueue)

theorem keep_launchMark {s : State} {o : Occ} (hInv : s.Inv) : (State.launchMark s o).Inv := by
  unfold State.launchMark
  with_reducible repeat' (first
    | assumption | apply keep_post)

theorem keep_launch {s : State} {o : Occ} {at_ : Nat} {t : Option TicketRef} (hInv : s.Inv) : (State.launch s o at_ t).Inv := by
  unfold State.launch
  with_reducible repeat' (first
    | assumption | (extract_lets +onlyGivenNames x; first | (have _ : Book := x; subst x) | (have _ : Terr := x; subst x) | (have _ : Ens := x; subst x) | clear_value x)
    | apply keep_complete | apply keep_launchIrq | apply keep_gatherLaunch | apply keep_launchPin | apply keep_dtLaunch | apply keep_relIssue | apply keep_mirrorCue
    | apply keep_notifyQueue | apply keep_packerCue | apply keep_irq | apply keep_launchJob | apply keep_launchMark | (refine inv_ite (fun _ => ?_) (fun _ => ?_))
    | (split <;> try (rename_i e; replace e := inv_of_eq e ?_)))

theorem keep_launchOcc {s : State} {o : Occ} {at_ : Nat} (hInv : s.Inv) : (State.launchOcc s o at_).Inv := by
  unfold State.launchOcc
  with_reducible repeat' (first
    | assumption | (extract_lets +onlyGivenNames x; have hx : State.Inv x := ?_; (on_goal 1 => clear_value x); (on_goal 2 => subst x))
    | (extract_lets +onlyGivenNames x; have hx : PInv x := ?_; (on_goal 1 => clear_value x); (on_goal 2 => subst x))
    | (extract_lets +onlyGivenNames x; first | (have _ : Book := x; subst x) | (have _ : Terr := x; subst x) | (have _ : Ens := x; subst x) | clear_value x)
    | refine inv_snd ?_ | apply keep_takePlace | apply keep_allocTicket | apply keep_observe | apply keep_traceItem | apply keep_launch
    | (refine inv_ite2 (fun _ => ?_) (fun _ => ?_)) | fail_if_no_progress (refine inv_pair ?_))

theorem keep_countLate {s : State} {e : CueEnt} (hInv : s.Inv) : (State.countLate s e).Inv := by
  unfold State.countLate
  with_reducible repeat' (first
    | assumption | (extract_lets +onlyGivenNames x; have hx : State.Inv x := ?_; (on_goal 1 => clear_value x); (on_goal 2 => subst x)) | apply keep_sat | apply keep_irq
    | (refine inv_ite (fun _ => ?_) (fun _ => ?_)))

theorem keep_wait {s : State} {o : Occ} (hInv : s.Inv) : (State.wait s o).Inv := by
  unfold State.wait
  with_reducible repeat' (first
    | assumption | (extract_lets +onlyGivenNames x; have hx : State.Inv x := ?_; (on_goal 1 => clear_value x); (on_goal 2 => subst x))
    | (extract_lets +onlyGivenNames x; first | (have _ : Book := x; subst x) | (have _ : Terr := x; subst x) | (have _ : Ens := x; subst x) | clear_value x)
    | apply keep_setPin | (refine inv_ite (fun _ => ?_) (fun _ => ?_)) | fail_if_no_progress (refine inv_mk ?_ rfl rfl rfl rfl rfl rfl rfl rfl rfl))

theorem keep_handle {s : State} {o : Occ} (hInv : s.Inv) : (State.handle s o).Inv := by
  unfold State.handle
  with_reducible repeat' (first
    | assumption | apply keep_occDone | apply keep_sat | apply keep_countLate | apply keep_wait | apply keep_launchOcc | (refine inv_ite (fun _ => ?_) (fun _ => ?_))
    | (split <;> try (rename_i e; replace e := inv_of_eq e ?_)))

theorem keep_openTick {s : State} {t : Nat} (hInv : s.Inv) : (State.openTick s t).Inv := by
  unfold State.openTick
  with_reducible repeat' (first
    | assumption | (extract_lets +onlyGivenNames x; have hx : State.Inv x := ?_; (on_goal 1 => clear_value x); (on_goal 2 => subst x))
    | (extract_lets +onlyGivenNames x; first | (have _ : Book := x; subst x) | (have _ : Terr := x; subst x) | (have _ : Ens := x; subst x) | clear_value x)
    | apply keep_reachST | apply keep_commitCues | (refine inv_ite (fun _ => ?_) (fun _ => ?_)) | fail_if_no_progress (refine inv_mk ?_ rfl rfl rfl rfl rfl rfl rfl rfl rfl))

theorem keep_dispatch {s : State} {action i : Nat} (hInv : s.Inv) : (State.dispatch s action i).Inv := by
  unfold State.dispatch
  with_reducible repeat' (first
    | assumption | (extract_lets +onlyGivenNames x; have hx : State.Inv x := ?_; (on_goal 1 => clear_value x); (on_goal 2 => subst x)) | apply keep_openTick
    | apply keep_handle | (refine inv_ite (fun _ => ?_) (fun _ => ?_)) | (split <;> try (rename_i e; replace e := inv_of_eq e ?_)))

theorem keep_retryPre {s : State} {i : Nat} (hInv : s.Inv) : (State.retryPre s i).Inv := by
  unfold State.retryPre
  with_reducible repeat' (first
    | assumption | (extract_lets +onlyGivenNames x; have hx : State.Inv x := ?_; (on_goal 1 => clear_value x); (on_goal 2 => subst x))
    | (extract_lets +onlyGivenNames x; first | (have _ : Book := x; subst x) | (have _ : Terr := x; subst x) | (have _ : Ens := x; subst x) | clear_value x)
    | apply keep_openTick | apply keep_commitCues | apply keep_occDone | apply keep_countLate | apply keep_launchOcc | (refine inv_ite (fun _ => ?_) (fun _ => ?_))
    | (split <;> try (rename_i e; replace e := inv_of_eq e ?_)) | fail_if_no_progress (refine inv_mk ?_ rfl rfl rfl rfl rfl rfl rfl rfl rfl))

theorem keep_pinCueDue {s : State} {p : Nat} (hInv : s.Inv) : (State.pinCueDue s p).Inv := by
  unfold State.pinCueDue
  with_reducible repeat' (first
    | assumption | apply keep_reachST | apply keep_pinCueEffect | (split <;> try (rename_i e; replace e := inv_of_eq e ?_)))

end Sys2Proof.Machine
end

