-- ==== Sys2Proof/Laws/InvFrame.lean ====
section
/-! SUPPORT. Every operation of Machine/Frame.lean keeps the invariant of the device. -/

set_option maxRecDepth 4000
set_option linter.unusedTactic false
set_option linter.unreachableTactic false

namespace Sys2Proof.Machine

theorem keep_modeChange {s : State} {m : Mode} {cause : Nat} (hInv : s.Inv) : (State.modeChange s m cause).Inv := by
  unfold State.modeChange
  with_reducible repeat' (first
    | assumption | (extract_lets +onlyGivenNames x; have hx : State.Inv x := ?_; (on_goal 1 => clear_value x); (on_goal 2 => subst x))
    | (extract_lets +onlyGivenNames x; first | (have _ : Book := x; subst x) | (have _ : Terr := x; subst x) | (have _ : Ens := x; subst x) | clear_value x) | apply keep_lead
    | apply keep_enterMode | apply keep_irq | apply keep_setStale | apply keep_intervalEntered | apply keep_applyKept | (refine inv_ite (fun _ => ?_) (fun _ => ?_))
    | fail_if_no_progress (refine inv_mk ?_ rfl rfl rfl rfl rfl rfl rfl rfl rfl))

theorem keep_modeStep {s : State} {n : Nat} {agree : Bool} (hInv : s.Inv) : (State.modeStep s n agree).Inv := by
  unfold State.modeStep
  with_reducible repeat' (first
    | assumption | (extract_lets +onlyGivenNames x; have hx : State.Inv x := ?_; (on_goal 1 => clear_value x); (on_goal 2 => subst x))
    | (extract_lets +onlyGivenNames x; first | (have _ : Book := x; subst x) | (have _ : Terr := x; subst x) | (have _ : Ens := x; subst x) | clear_value x)
    | apply keep_refuseMode | apply keep_twice | apply keep_modeChange | (refine inv_ite (fun _ => ?_) (fun _ => ?_))
    | (split <;> try (rename_i e; replace e := inv_of_eq e ?_)) | fail_if_no_progress (refine inv_mk ?_ rfl rfl rfl rfl rfl rfl rfl rfl rfl))

theorem keep_stepTime {s : State} (hInv : s.Inv) : (State.stepTime s).Inv := by
  unfold State.stepTime
  with_reducible repeat' (first
    | assumption | (extract_lets +onlyGivenNames x; have hx : State.Inv x := ?_; (on_goal 1 => clear_value x); (on_goal 2 => subst x))
    | (extract_lets +onlyGivenNames x; first | (have _ : Book := x; subst x) | (have _ : Terr := x; subst x) | (have _ : Ens := x; subst x) | clear_value x)
    | apply keep_rtcFold | apply keep_applyStep | apply keep_gridBreak | (refine inv_ite (fun _ => ?_) (fun _ => ?_))
    | fail_if_no_progress (refine inv_mk ?_ rfl rfl rfl rfl rfl rfl rfl rfl rfl))

theorem keep_gridStep {s : State} (hInv : s.Inv) : (State.gridStep s).Inv := by
  unfold State.gridStep
  with_reducible repeat' (first
    | assumption | (extract_lets +onlyGivenNames x; have hx : State.Inv x := ?_; (on_goal 1 => clear_value x); (on_goal 2 => subst x)) | apply keep_stepTime
    | apply keep_commitAll | (refine inv_ite (fun _ => ?_) (fun _ => ?_)))

theorem keep_carryOver {s : State} {b : Nat} (hInv : s.Inv) : (State.carryOver s b).Inv := by
  unfold State.carryOver
  with_reducible repeat' (first
    | assumption | (extract_lets +onlyGivenNames x; first | (have _ : Book := x; subst x) | (have _ : Terr := x; subst x) | (have _ : Ens := x; subst x) | clear_value x)
    | (refine inv_ite (fun _ => ?_) (fun _ => ?_)) | fail_if_no_progress (refine inv_mk ?_ rfl rfl rfl rfl rfl rfl rfl rfl rfl))

theorem keep_newFrame {s : State} {n : Int} (hInv : s.Inv) : (State.newFrame s n).Inv := by
  unfold State.newFrame
  with_reducible repeat' (first
    | assumption | (extract_lets +onlyGivenNames x; have hx : State.Inv x := ?_; (on_goal 1 => clear_value x); (on_goal 2 => subst x))
    | (extract_lets +onlyGivenNames x; first | (have _ : Book := x; subst x) | (have _ : Terr := x; subst x) | (have _ : Ens := x; subst x) | clear_value x)
    | apply keep_ageTickets | apply keep_irq | apply keep_aliveBoundary | apply keep_formHealth | (refine inv_ite (fun _ => ?_) (fun _ => ?_))
    | fail_if_no_progress (refine inv_mk ?_ rfl rfl rfl rfl rfl rfl rfl rfl rfl))

theorem keep_boundary {s : State} {agree : Bool} (hInv : s.Inv) : (State.boundary s agree).Inv := by
  unfold State.boundary
  with_reducible repeat' (first
    | assumption | (extract_lets +onlyGivenNames x; have hx : State.Inv x := ?_; (on_goal 1 => clear_value x); (on_goal 2 => subst x))
    | (extract_lets +onlyGivenNames x; first | (have _ : Book := x; subst x) | (have _ : Terr := x; subst x) | (have _ : Ens := x; subst x) | clear_value x)
    | apply keep_carryOver | apply keep_reachST | apply keep_modeStep | apply keep_gridStep | apply keep_commitFrame | apply keep_keyBoundary | apply keep_newFrame
    | (refine inv_ite (fun _ => ?_) (fun _ => ?_)))

end Sys2Proof.Machine
end

