-- ==== Sys2Proof/Laws/InvRegRead.lean ====
section
/-! SUPPORT. Every operation of Machine/RegRead.lean keeps the invariant of the device. -/

set_option maxRecDepth 4000
set_option linter.unusedTactic false
set_option linter.unreachableTactic false

namespace Sys2Proof.Machine

theorem keep_latePop {s : State} {n : Nat} (hInv : s.Inv) : PInv (State.latePop s n) := by
  unfold State.latePop
  with_reducible repeat' (first
    | assumption | (extract_lets +onlyGivenNames x; first | (have _ : Book := x; subst x) | (have _ : Terr := x; subst x) | (have _ : Ens := x; subst x) | clear_value x)
    | apply keep_setCore | (split <;> try (rename_i e; replace e := inv_of_eq e ?_)) | fail_if_no_progress (refine inv_pair ?_))

theorem keep_notifyPop {s : State} {l : Nat} (hInv : s.Inv) : PInv (State.notifyPop s l) := by
  unfold State.notifyPop
  with_reducible repeat' (first
    | assumption | (extract_lets +onlyGivenNames x; have hx : State.Inv x := ?_; (on_goal 1 => clear_value x); (on_goal 2 => subst x))
    | (extract_lets +onlyGivenNames x; first | (have _ : Book := x; subst x) | (have _ : Terr := x; subst x) | (have _ : Ens := x; subst x) | clear_value x)
    | (split <;> try (rename_i e; replace e := inv_of_eq e ?_)) | fail_if_no_progress (refine inv_mk ?_ rfl rfl rfl rfl rfl rfl rfl rfl rfl)
    | fail_if_no_progress (refine inv_pair ?_))

theorem keep_violPop {s : State} {m : Nat} (hInv : s.Inv) : PInv (State.violPop s m) := by
  unfold State.violPop
  split
  · exact hInv
  · rename_i he
    have hv := hInv.2.1
    rw [he] at hv
    exact And.intro hInv.1 ⟨Nat.le_of_succ_le hv, hInv.2.2⟩

theorem keep_redStat {s : State} (hInv : s.Inv) : PInv (State.redStat s) := by
  unfold State.redStat
  with_reducible repeat' (first
    | assumption | (extract_lets +onlyGivenNames x; have hx : State.Inv x := ?_; (on_goal 1 => clear_value x); (on_goal 2 => subst x)) | apply keep_ddExpire
    | fail_if_no_progress (refine inv_pair ?_))

theorem keep_chorusStat {s : State} (hInv : s.Inv) : PInv (State.chorusStat s) := by
  unfold State.chorusStat
  with_reducible repeat' (first
    | assumption | apply keep_next | (refine inv_ite2 (fun _ => ?_) (fun _ => ?_)) | fail_if_no_progress (refine inv_pair ?_))

theorem keep_badgeWindow {s : State} {a : Nat} (hInv : s.Inv) : OInv2 (State.badgeWindow s a) := by
  unfold State.badgeWindow
  with_reducible repeat' (first
    | assumption | (extract_lets +onlyGivenNames x; have hx : State.Inv x := ?_; (on_goal 1 => clear_value x); (on_goal 2 => subst x))
    | (extract_lets +onlyGivenNames x; first | (have _ : Book := x; subst x) | (have _ : Terr := x; subst x) | (have _ : Ens := x; subst x) | clear_value x)
    | apply keep_tagSync | (split <;> try (rename_i e; replace e := inv_of_eq e ?_)) | fail_if_no_progress (refine inv_pair ?_) | exact oinv2_none | (refine oinv2_some ?_))

theorem keep_readStime {s : State} {m a : Nat} (hInv : s.Inv) : OInv2 (State.readStime s m a) := by
  unfold State.readStime
  with_reducible repeat' (first
    | assumption | fail_if_no_progress (refine inv_mk ?_ rfl rfl rfl rfl rfl rfl rfl rfl rfl) | fail_if_no_progress (refine inv_pair ?_) | exact oinv2_none
    | refine oinv2_some ?_ | (refine oinv2_ite (fun _ => ?_) (fun _ => ?_)))

theorem keep_readTables {s : State} {a : Nat} (hInv : s.Inv) : OInv2 (State.readTables s a) := by
  unfold State.readTables
  with_reducible repeat' (first
    | assumption | apply keep_cueLoadRead | apply keep_redStat | fail_if_no_progress (refine inv_pair ?_) | exact oinv2_none | refine oinv2_some ?_
    | (refine oinv2_ite (fun _ => ?_) (fun _ => ?_)))

theorem keep_readMemory {s : State} {m a : Nat} (hInv : s.Inv) : OInv2 (State.readMemory s m a) := by
  unfold State.readMemory
  with_reducible repeat' (first
    | assumption | apply keep_violPop | apply keep_notifyPop | apply keep_latePop | fail_if_no_progress (refine inv_pair ?_) | exact oinv2_none | refine oinv2_some ?_
    | (refine oinv2_ite (fun _ => ?_) (fun _ => ?_)))

theorem keep_readPartners {s : State} {m a : Nat} (hInv : s.Inv) : OInv2 (State.readPartners s m a) := by
  unfold State.readPartners
  with_reducible repeat' (first
    | assumption | apply keep_chorusStat | fail_if_no_progress (refine inv_mk ?_ rfl rfl rfl rfl rfl rfl rfl rfl rfl) | fail_if_no_progress (refine inv_pair ?_)
    | exact oinv2_none | refine oinv2_some ?_ | (refine oinv2_ite (fun _ => ?_) (fun _ => ?_)))

theorem keep_readBadge {s : State} {a : Nat} (hInv : s.Inv) : OInv2 (State.readBadge s a) := by
  unfold State.readBadge
  with_reducible repeat' (first
    | assumption | (extract_lets +onlyGivenNames x; have hx : State.Inv x := ?_; (on_goal 1 => clear_value x); (on_goal 2 => subst x)) | apply keep_badgeStatRead
    | apply keep_tagSync | apply keep_badgeWindow | fail_if_no_progress (refine inv_pair ?_) | refine oinv2_some ?_ | (refine oinv2_ite (fun _ => ?_) (fun _ => ?_)))

theorem keep_readKeepers {s : State} {a : Nat} (hInv : s.Inv) : OInv2 (State.readKeepers s a) := by
  unfold State.readKeepers
  with_reducible repeat' (first
    | assumption | (extract_lets +onlyGivenNames x; have hx : State.Inv x := ?_; (on_goal 1 => clear_value x); (on_goal 2 => subst x))
    | (extract_lets +onlyGivenNames x; first | (have _ : Book := x; subst x) | (have _ : Terr := x; subst x) | (have _ : Ens := x; subst x) | clear_value x)
    | apply keep_rtcFold | apply keep_patrolPop | apply keep_recLatch | apply keep_recNext | apply keep_readBadge | (refine inv_ite (fun _ => ?_) (fun _ => ?_))
    | (split <;> try (rename_i e; replace e := inv_of_eq e ?_)) | fail_if_no_progress (refine inv_pair ?_) | exact oinv2_none | (refine oinv2_some ?_))

theorem keep_touchPage {s : State} {a : Nat} (hInv : s.Inv) : (State.touchPage s a).Inv := by
  unfold State.touchPage
  with_reducible repeat' (first
    | assumption | (extract_lets +onlyGivenNames x; first | (have _ : Book := x; subst x) | (have _ : Terr := x; subst x) | (have _ : Ens := x; subst x) | clear_value x)
    | apply keep_brkTouch | (refine inv_ite (fun _ => ?_) (fun _ => ?_)))

theorem keep_regRead {s : State} {m a : Nat} (hInv : s.Inv) : PInv (State.regRead s m a) := by
  unfold State.regRead
  refine inv_ite2 (fun _ => keep_screeRand hInv) (fun _ => ?_)
  extract_lets s1 r
  have h1 : s1.Inv := keep_touchPage hInv
  have hr : OInv2 r := by
    subst r
    split
    · exact oinv2_some (keep_readStime h1 _ ‹_›)
    · split
      · exact oinv2_some (keep_readTables h1 _ ‹_›)
      · split
        · exact oinv2_some (keep_readMemory h1 _ ‹_›)
        · split
          · exact oinv2_some (keep_readPartners h1 _ ‹_›)
          · exact keep_readKeepers h1
  clear_value r
  split
  · exact inv_pair (inv_unpair (hr _ rfl))
  · exact inv_ite2 (fun _ => h1) (fun _ => inv_ite2 (fun _ => h1) (fun _ => inv_ite2 (fun _ => h1) (fun _ => keep_next h1)))

end Sys2Proof.Machine
end

