-- ==== Sys2Proof/Laws/InvRegWrite.lean ====
section
/-! SUPPORT. Every operation of Machine/RegWrite.lean keeps the invariant of the device. -/

set_option maxRecDepth 4000
set_option linter.unusedTactic false
set_option linter.unreachableTactic false

namespace Sys2Proof.Machine

theorem keep_plainWrite {s : State} {d : RDesc} {k : Nat} {w : Word} (hInv : s.Inv) : (State.plainWrite s d k w).Inv := by
  unfold State.plainWrite
  with_reducible repeat' (first
    | assumption | apply keep_setReg)

theorem keep_noteStaged {s : State} {k : Nat} (hInv : s.Inv) : (State.noteStaged s k).Inv := by
  unfold State.noteStaged
  with_reducible repeat' (first
    | assumption | (extract_lets +onlyGivenNames x; first | (have _ : Book := x; subst x) | (have _ : Terr := x; subst x) | (have _ : Ens := x; subst x) | clear_value x)
    | (refine inv_ite (fun _ => ?_) (fun _ => ?_)) | (split <;> try (rename_i e; replace e := inv_of_eq e ?_))
    | fail_if_no_progress (refine inv_mk ?_ rfl rfl rfl rfl rfl rfl rfl rfl rfl))

theorem keep_stageWrite {s : State} {base : Nat} {d : RDesc} {k : Nat} {w : Word} (hInv : s.Inv) : (State.stageWrite s base d k w).Inv := by
  unfold State.stageWrite
  with_reducible repeat' (first
    | assumption | apply keep_sat | apply keep_plainWrite | apply keep_noteStaged | (refine inv_ite (fun _ => ?_) (fun _ => ?_)))

theorem keep_stimeCtrlWrite {s : State} {w : Word} (hInv : s.Inv) : (State.stimeCtrlWrite s w).Inv := by
  unfold State.stimeCtrlWrite
  with_reducible repeat' (first
    | assumption | (extract_lets +onlyGivenNames x; have hx : State.Inv x := ?_; (on_goal 1 => clear_value x); (on_goal 2 => subst x)) | apply keep_wr | apply keep_servoGo
    | (refine inv_ite (fun _ => ?_) (fun _ => ?_)))

theorem keep_stimeHoldWrite {s : State} {w : Word} (hInv : s.Inv) : (State.stimeHoldWrite s w).Inv := by
  unfold State.stimeHoldWrite
  with_reducible repeat' (first
    | assumption | (extract_lets +onlyGivenNames x; have hx : State.Inv x := ?_; (on_goal 1 => clear_value x); (on_goal 2 => subst x)) | apply keep_setReg | apply keep_disarm
    | apply keep_refreshUnsynced | (refine inv_ite (fun _ => ?_) (fun _ => ?_)) | (split <;> try (rename_i e; replace e := inv_of_eq e ?_))
    | fail_if_no_progress (refine inv_mk ?_ rfl rfl rfl rfl rfl rfl rfl rfl rfl))

theorem keep_ensSelWrite {s : State} {w : Word} (hInv : s.Inv) : (State.ensSelWrite s w).Inv := by
  unfold State.ensSelWrite
  with_reducible repeat' (first
    | assumption | (extract_lets +onlyGivenNames x; have hx : State.Inv x := ?_; (on_goal 1 => clear_value x); (on_goal 2 => subst x)) | apply keep_wr | apply keep_setReg
    | (refine inv_ite (fun _ => ?_) (fun _ => ?_)))

theorem keep_packerCtrl {s : State} {c : Nat} {w : Word} (hInv : s.Inv) : (State.packerCtrl s c w).Inv := by
  unfold State.packerCtrl
  with_reducible repeat' (first
    | assumption | (extract_lets +onlyGivenNames x; have hx : State.Inv x := ?_; (on_goal 1 => clear_value x); (on_goal 2 => subst x)) | refine inv_snd ?_
    | apply keep_packerReturn | apply keep_packerSwap | (refine inv_ite (fun _ => ?_) (fun _ => ?_)))

theorem keep_routeWrite {s : State} {src : Nat} {w : Word} (hInv : s.Inv) : (State.routeWrite s src w).Inv := by
  unfold State.routeWrite
  with_reducible repeat' (first
    | assumption | (extract_lets +onlyGivenNames x; have hx : State.Inv x := ?_; (on_goal 1 => clear_value x); (on_goal 2 => subst x))
    | (extract_lets +onlyGivenNames x; first | (have _ : Book := x; subst x) | (have _ : Terr := x; subst x) | (have _ : Ens := x; subst x) | clear_value x) | apply keep_wr
    | (refine inv_ite (fun _ => ?_) (fun _ => ?_)))

theorem keep_pendWrite {s : State} {k : Nat} {w : Word} (hInv : s.Inv) : (State.pendWrite s k w).Inv := by
  unfold State.pendWrite
  with_reducible repeat' (first
    | assumption | apply keep_clearLatch | (refine inv_foldl ?_ (fun _ _ _ => ?_)) | (refine inv_ite (fun _ => ?_) (fun _ => ?_)))

theorem keep_coreCtrl {s : State} {n : Nat} {w : Word} (hInv : s.Inv) : (State.coreCtrl s n w).Inv := by
  unfold State.coreCtrl
  with_reducible repeat' (first
    | assumption | (extract_lets +onlyGivenNames x; have hx : State.Inv x := ?_; (on_goal 1 => clear_value x); (on_goal 2 => subst x))
    | (extract_lets +onlyGivenNames x; first | (have _ : Book := x; subst x) | (have _ : Terr := x; subst x) | (have _ : Ens := x; subst x) | clear_value x) | apply keep_wr
    | apply keep_holdCore | apply keep_startCore | (refine inv_ite (fun _ => ?_) (fun _ => ?_)))

theorem keep_ackWrite {s : State} {n : Nat} {w : Word} (hInv : s.Inv) : (State.ackWrite s n w).Inv := by
  unfold State.ackWrite
  with_reducible repeat' (first
    | assumption | (extract_lets +onlyGivenNames x; first | (have _ : Book := x; subst x) | (have _ : Terr := x; subst x) | (have _ : Ens := x; subst x) | clear_value x)
    | apply keep_clearLatch | (refine inv_ite (fun _ => ?_) (fun _ => ?_)))

theorem keep_doorbell {s : State} {w : Word} (hInv : s.Inv) : (State.doorbell s w).Inv := by
  unfold State.doorbell
  with_reducible repeat' (first
    | assumption | apply keep_irq | (refine inv_foldl ?_ (fun _ _ _ => ?_)) | (refine inv_ite (fun _ => ?_) (fun _ => ?_)))

theorem keep_terraceCtrl {s : State} {w : Word} (hInv : s.Inv) : (State.terraceCtrl s w).Inv := by
  unfold State.terraceCtrl
  with_reducible repeat' (first
    | assumption | (extract_lets +onlyGivenNames x; have hx : State.Inv x := ?_; (on_goal 1 => clear_value x); (on_goal 2 => subst x)) | apply keep_snapAll
    | apply keep_clearAll | (refine inv_ite (fun _ => ?_) (fun _ => ?_)))

theorem keep_grpIrq {s : State} {g : Nat} {w : Word} (hInv : s.Inv) : (State.grpIrq s g w).Inv := by
  unfold State.grpIrq
  with_reducible repeat' (first
    | assumption | (extract_lets +onlyGivenNames x; have hx : State.Inv x := ?_; (on_goal 1 => clear_value x); (on_goal 2 => subst x)) | apply keep_wr | apply keep_setReg
    | (refine inv_ite (fun _ => ?_) (fun _ => ?_)))

theorem keep_clkCfgWrite {s : State} {w : Word} (hInv : s.Inv) : (State.clkCfgWrite s w).Inv := by
  unfold State.clkCfgWrite
  with_reducible repeat' (first
    | assumption | (extract_lets +onlyGivenNames x; have hx : State.Inv x := ?_; (on_goal 1 => clear_value x); (on_goal 2 => subst x))
    | (extract_lets +onlyGivenNames x; first | (have _ : Book := x; subst x) | (have _ : Terr := x; subst x) | (have _ : Ens := x; subst x) | clear_value x)
    | apply keep_setReg | apply keep_wr | apply keep_postU | (refine inv_ite (fun _ => ?_) (fun _ => ?_)))

theorem keep_badgeWindowWrite {s : State} {m a : Nat} {w : Word} (hInv : s.Inv) : (State.badgeWindowWrite s m a w).Inv := by
  unfold State.badgeWindowWrite
  with_reducible repeat' (first
    | assumption | (extract_lets +onlyGivenNames x; have hx : State.Inv x := ?_; (on_goal 1 => clear_value x); (on_goal 2 => subst x))
    | (extract_lets +onlyGivenNames x; first | (have _ : Book := x; subst x) | (have _ : Terr := x; subst x) | (have _ : Ens := x; subst x) | clear_value x)
    | apply keep_tagSync | (refine inv_ite (fun _ => ?_) (fun _ => ?_)) | fail_if_no_progress (refine inv_mk ?_ rfl rfl rfl rfl rfl rfl rfl rfl rfl))

theorem keep_badgeCfgWrite {s : State} {w : Word} (hInv : s.Inv) : (State.badgeCfgWrite s w).Inv := by
  unfold State.badgeCfgWrite
  with_reducible repeat' (first
    | assumption | (extract_lets +onlyGivenNames x; have hx : State.Inv x := ?_; (on_goal 1 => clear_value x); (on_goal 2 => subst x))
    | (extract_lets +onlyGivenNames x; first | (have _ : Book := x; subst x) | (have _ : Terr := x; subst x) | (have _ : Ens := x; subst x) | clear_value x)
    | apply keep_setReg | apply keep_readerStop | (refine inv_ite (fun _ => ?_) (fun _ => ?_)))

theorem keep_usCtrl {s : State} {w : Word} (hInv : s.Inv) : (State.usCtrl s w).Inv := by
  unfold State.usCtrl
  with_reducible repeat' (first
    | assumption | (extract_lets +onlyGivenNames x; have hx : State.Inv x := ?_; (on_goal 1 => clear_value x); (on_goal 2 => subst x))
    | (extract_lets +onlyGivenNames x; first | (have _ : Book := x; subst x) | (have _ : Terr := x; subst x) | (have _ : Ens := x; subst x) | clear_value x)
    | apply keep_usCtrlWrite | (refine inv_ite (fun _ => ?_) (fun _ => ?_)) | fail_if_no_progress (refine inv_mk ?_ rfl rfl rfl rfl rfl rfl rfl rfl rfl))

theorem keep_ptpCfgWrite {s : State} {w : Word} (hInv : s.Inv) : (State.ptpCfgWrite s w).Inv := by
  unfold State.ptpCfgWrite
  with_reducible repeat' (first
    | assumption | apply keep_plainWrite | apply keep_ptpWatch | (split <;> try (rename_i e; replace e := inv_of_eq e ?_)))

theorem keep_writeStation {s : State} {m a : Nat} {w : Word} (hInv : s.Inv) : OInv (State.writeStation s m a w) := by
  unfold State.writeStation
  with_reducible repeat' (first
    | assumption | (extract_lets +onlyGivenNames x; first | (have _ : Book := x; subst x) | (have _ : Terr := x; subst x) | (have _ : Ens := x; subst x) | clear_value x)
    | apply keep_modeReqWrite | apply keep_lcAdvWrite | apply keep_resetWrite | apply keep_clkCfgWrite | apply keep_stimeCtrlWrite | apply keep_stimeHoldWrite
    | apply keep_cueCtrlWrite | apply keep_cueEditWrite | apply keep_cueLoadWrite | apply keep_ticketDoneWrite | apply keep_linkCfgWrite | apply keep_portCntWrite
    | apply keep_solPush | apply keep_setReg | apply keep_redCfgWrite | apply keep_swEditWrite | apply keep_ptpCfgWrite | apply keep_ptpPortWrite | exact oinv_none
    | refine oinv_some ?_ | (refine oinv_ite (fun _ => ?_) (fun _ => ?_)))

theorem keep_writeFrame {s : State} {a : Nat} {w : Word} (hInv : s.Inv) : OInv (State.writeFrame s a w) := by
  unfold State.writeFrame
  with_reducible repeat' (first
    | assumption | (extract_lets +onlyGivenNames x; first | (have _ : Book := x; subst x) | (have _ : Terr := x; subst x) | (have _ : Ens := x; subst x) | clear_value x)
    | apply keep_setReg | apply keep_ensSelWrite | apply keep_packerCtrl | apply keep_routeWrite | apply keep_pendWrite | apply keep_coreCtrl | apply keep_ackWrite
    | apply keep_doorbell | apply keep_terraceCtrl | apply keep_grpIrq | (refine inv_ite (fun _ => ?_) (fun _ => ?_)) | exact oinv_none | refine oinv_some ?_
    | (refine oinv_ite (fun _ => ?_) (fun _ => ?_)))

theorem keep_writeTrust {s : State} {a : Nat} {w : Word} (hInv : s.Inv) : OInv (State.writeTrust s a w) := by
  unfold State.writeTrust
  with_reducible repeat' (first
    | assumption | apply keep_usCtrl | apply keep_holdSet | apply keep_holdClr | apply keep_setReg | apply keep_chorusCfgWrite | apply keep_chorusPush | apply keep_screeCtrl
    | apply keep_screeTest | apply keep_screeTestData | apply keep_refugeCfg | apply keep_rtcSet | apply keep_logSel | apply keep_curtainCfg | exact oinv_none
    | refine oinv_some ?_ | (refine oinv_ite (fun _ => ?_) (fun _ => ?_)))

theorem keep_writeKeepers {s : State} {m a : Nat} {w : Word} (hInv : s.Inv) : OInv (State.writeKeepers s m a w) := by
  unfold State.writeKeepers
  with_reducible repeat' (first
    | assumption | (extract_lets +onlyGivenNames x; first | (have _ : Book := x; subst x) | (have _ : Terr := x; subst x) | (have _ : Ens := x; subst x) | clear_value x)
    | apply keep_brkUnlock | apply keep_brkCmd | apply keep_brkTouch | apply keep_setReg | apply keep_bookClear | apply keep_traceCfg | apply keep_wr | apply keep_observeCtrl
    | apply keep_badgeCfgWrite | apply keep_readerGo | apply keep_tsCommit | apply keep_cartClock | apply keep_cartXfer | apply keep_badgeWindowWrite
    | (refine inv_ite (fun _ => ?_) (fun _ => ?_)) | exact oinv_none | refine oinv_some ?_ | (refine oinv_ite (fun _ => ?_) (fun _ => ?_)))

theorem keep_regWrite {s : State} {m a : Nat} {w : Word} (hInv : s.Inv) : PInv (State.regWrite s m a w) := by
  unfold State.regWrite
  extract_lets base p c r
  have hr : OInv r := by
    subst r
    split
    · exact oinv_some (keep_writeStation hInv _ ‹_›)
    · split
      · exact oinv_some (keep_writeFrame hInv _ ‹_›)
      · split
        · exact oinv_some (keep_writeTrust hInv _ ‹_›)
        · exact keep_writeKeepers hInv
  clear_value r
  refine inv_ite2 (fun _ => inv_pair (keep_blockCommit hInv)) (fun _ => inv_ite2 (fun _ => keep_massifSubmit hInv) (fun _ =>
    inv_ite2 (fun _ => keep_chorusOp hInv) (fun _ => inv_ite2 (fun _ => inv_pair (keep_gateCfgWrite hInv)) (fun _ => ?_))))
  split
  · exact inv_pair (hr _ rfl)
  · split
    · exact inv_pair hInv
    · extract_lets k
      refine inv_ite2 (fun _ => inv_pair (keep_stageWrite hInv)) (fun _ => ?_)
      exact inv_pair (inv_ite (fun _ => keep_screeJudge (keep_plainWrite hInv)) (fun _ => keep_plainWrite hInv))

end Sys2Proof.Machine
end

