-- ==== Sys2Proof/Laws/InvBus.lean ====
section
/-! SUPPORT. Every operation of Machine/Bus.lean keeps the invariant of the device. -/

set_option maxRecDepth 4000
set_option linter.unusedTactic false
set_option linter.unreachableTactic false

namespace Sys2Proof.Machine

theorem keep_targetLoad {s : State} {m a n : Nat} (hInv : s.Inv) : PInv (State.targetLoad s m a n) := by
  unfold State.targetLoad
  with_reducible repeat' (first
    | assumption | (extract_lets +onlyGivenNames x; first | (have _ : Book := x; subst x) | (have _ : Terr := x; subst x) | (have _ : Ens := x; subst x) | clear_value x)
    | apply keep_regRead | apply keep_burstTarget | (refine inv_ite2 (fun _ => ?_) (fun _ => ?_)) | (split <;> try (rename_i e; replace e := inv_of_eq e ?_))
    | fail_if_no_progress (refine inv_pair ?_))

theorem keep_targetStore {s : State} {m a : Nat} {bs : List Byte} (hInv : s.Inv) : PInv (State.targetStore s m a bs) := by
  unfold State.targetStore
  with_reducible repeat' (first
    | assumption | (extract_lets +onlyGivenNames x; first | (have _ : Book := x; subst x) | (have _ : Terr := x; subst x) | (have _ : Ens := x; subst x) | clear_value x)
    | apply keep_ramWrite | apply keep_queueWrite | apply keep_enqueueStore | apply keep_releaseStore | apply keep_regWrite | apply keep_packerAppend | apply keep_packerLose
    | (refine inv_ite2 (fun _ => ?_) (fun _ => ?_)) | (split <;> try (rename_i e; replace e := inv_of_eq e ?_)) | fail_if_no_progress (refine inv_pair ?_))

theorem keep_busLoad {s : State} {m a n : Nat} (hInv : s.Inv) : PInv (State.busLoad s m a n) := by
  unfold State.busLoad
  with_reducible repeat' (first
    | assumption | apply keep_colAdmit | apply keep_targetLoad | (split <;> try (rename_i e; replace e := inv_of_eq e ?_)) | fail_if_no_progress (refine inv_pair ?_))

theorem keep_busStore {s : State} {m a : Nat} {bs : List Byte} (hInv : s.Inv) : PInv (State.busStore s m a bs) := by
  unfold State.busStore
  with_reducible repeat' (first
    | assumption | apply keep_colAdmit | apply keep_targetStore | (split <;> try (rename_i e; replace e := inv_of_eq e ?_)) | fail_if_no_progress (refine inv_pair ?_))

theorem keep_storeBytes {s : State} {m a : Nat} {bs : List Byte} (hInv : s.Inv) : (State.storeBytes s m a bs).Inv := by
  unfold State.storeBytes
  with_reducible repeat' (first
    | assumption | apply keep_busStore | apply keep_settle | apply keep_lateError | (refine inv_ite (fun _ => ?_) (fun _ => ?_))
    | (split <;> try (rename_i e; replace e := inv_of_eq e ?_)))

theorem keep_store {s : State} {m a : Nat} {w : Word} (hInv : s.Inv) : (State.store s m a w).Inv := by
  unfold State.store
  with_reducible repeat' (first
    | assumption | apply keep_storeBytes)

theorem keep_store8 {s : State} {m a : Nat} {d : DWord} (hInv : s.Inv) : (State.store8 s m a d).Inv := by
  unfold State.store8
  with_reducible repeat' (first
    | assumption | apply keep_storeBytes)

theorem keep_storeN {s : State} {m a n : Nat} {d : DWord} (hInv : s.Inv) : (State.storeN s m a n d).Inv := by
  unfold State.storeN
  with_reducible repeat' (first
    | assumption | apply keep_storeBytes)

theorem keep_loadN {s : State} {m a n : Nat} (hInv : s.Inv) : (State.loadN s m a n).Inv := by
  unfold State.loadN
  with_reducible repeat' (first
    | assumption | apply keep_busLoad | apply keep_settle | (refine inv_ite (fun _ => ?_) (fun _ => ?_)) | (split <;> try (rename_i e; replace e := inv_of_eq e ?_))
    | fail_if_no_progress (refine inv_mk ?_ rfl rfl rfl rfl rfl rfl rfl rfl rfl))

theorem keep_load {s : State} {m a : Nat} (hInv : s.Inv) : (State.load s m a).Inv := by
  unfold State.load
  with_reducible repeat' (first
    | assumption | apply keep_loadN)

theorem keep_load8 {s : State} {m a : Nat} (hInv : s.Inv) : (State.load8 s m a).Inv := by
  unfold State.load8
  with_reducible repeat' (first
    | assumption | apply keep_loadN)

end Sys2Proof.Machine
end

