-- ==== Sys2Proof/Laws/InvRidgeCore.lean ====
section
/-! SUPPORT. Every operation of Machine/RidgeCore.lean keeps the invariant of the device. -/

set_option maxRecDepth 4000
set_option linter.unusedTactic false
set_option linter.unreachableTactic false

namespace Sys2Proof.Machine

theorem keep_drainStore {s : State} {n : Nat} (hInv : s.Inv) : (State.drainStore s n).Inv := by
  unfold State.drainStore
  with_reducible repeat' (first
    | assumption | (extract_lets +onlyGivenNames x; first | (have _ : Book := x; subst x) | (have _ : Terr := x; subst x) | (have _ : Ens := x; subst x) | clear_value x)
    | apply keep_setCore | apply keep_storeN | (split <;> try (rename_i e; replace e := inv_of_eq e ?_)))

theorem keep_drainStores {s : State} {n k : Nat} (hInv : s.Inv) : (State.drainStores s n k).Inv := by
  unfold State.drainStores
  with_reducible repeat' (first
    | assumption | apply keep_drainStore | (refine inv_foldl ?_ (fun _ _ _ => ?_)))

theorem keep_precise {s : State} {n cause kind addr : Nat} (hInv : s.Inv) : (State.precise s n cause kind addr).Inv := by
  unfold State.precise
  with_reducible repeat' (first
    | assumption | (extract_lets +onlyGivenNames x; have hx : State.Inv x := ?_; (on_goal 1 => clear_value x); (on_goal 2 => subst x))
    | (extract_lets +onlyGivenNames x; first | (have _ : Book := x; subst x) | (have _ : Terr := x; subst x) | (have _ : Ens := x; subst x) | clear_value x)
    | apply keep_setCore | apply keep_wr | apply keep_irq | apply keep_post | (refine inv_ite (fun _ => ?_) (fun _ => ?_))
    | fail_if_no_progress (refine inv_mk ?_ rfl rfl rfl rfl rfl rfl rfl rfl rfl))

theorem keep_interruptEntry {s : State} {n : Nat} (hInv : s.Inv) : (State.interruptEntry s n).Inv := by
  unfold State.interruptEntry
  with_reducible repeat' (first
    | assumption | (extract_lets +onlyGivenNames x; first | (have _ : Book := x; subst x) | (have _ : Terr := x; subst x) | (have _ : Ens := x; subst x) | clear_value x)
    | apply keep_setCore | (split <;> try (rename_i e; replace e := inv_of_eq e ?_)))

theorem keep_waitResume {s : State} {n : Nat} (hInv : s.Inv) : (State.waitResume s n).Inv := by
  unfold State.waitResume
  with_reducible repeat' (first
    | assumption | (extract_lets +onlyGivenNames x; first | (have _ : Book := x; subst x) | (have _ : Terr := x; subst x) | (have _ : Ens := x; subst x) | clear_value x)
    | apply keep_setCore | (refine inv_ite (fun _ => ?_) (fun _ => ?_)))

theorem keep_fetchWord {s : State} {n a : Nat} (hInv : s.Inv) : PInv (State.fetchWord s n a) := by
  unfold State.fetchWord
  with_reducible repeat' (first
    | assumption | (extract_lets +onlyGivenNames x; first | (have _ : Book := x; subst x) | (have _ : Terr := x; subst x) | (have _ : Ens := x; subst x) | clear_value x)
    | apply keep_setCore | apply keep_colAdmit | apply keep_bedRead | apply keep_ramRead | (refine inv_ite2 (fun _ => ?_) (fun _ => ?_))
    | (split <;> try (rename_i e; replace e := inv_of_eq e ?_)) | fail_if_no_progress (refine inv_pair ?_))

theorem keep_fetchFrom {n k a : Nat} {acc : List (Nat × Word)} {s : State} (hInv : s.Inv) : PInv (State.fetchFrom n k a acc s) := by
  induction k generalizing s a acc with
  | zero => exact hInv
  | succ k ih =>
    unfold State.fetchFrom
    with_reducible repeat' (first
      | assumption | apply ih | apply keep_fetchWord | (refine inv_ite2 (fun _ => ?_) (fun _ => ?_)) | (split <;> try (rename_i e; replace e := inv_of_eq e ?_))
      | fail_if_no_progress (refine inv_pair ?_))

theorem keep_access {s : State} {n : Nat} {c : CoreSt} {y : Syl} (hInv : s.Inv) : PInv (State.access s n c y) := by
  unfold State.access
  with_reducible repeat' (first
    | assumption | (extract_lets +onlyGivenNames x; first | (have _ : Book := x; subst x) | (have _ : Terr := x; subst x) | (have _ : Ens := x; subst x) | clear_value x)
    | apply keep_busLoad | apply keep_busAtomic | apply keep_busStore | apply keep_setCore | (refine inv_ite2 (fun _ => ?_) (fun _ => ?_))
    | (split <;> try (rename_i e; replace e := inv_of_eq e ?_)) | fail_if_no_progress (refine inv_pair ?_))

theorem keep_finishB {s : State} {n : Nat} {c k : CoreSt} {y : Syl} {lnk nxt : Word} (hInv : s.Inv) : (State.finishB s n c k y lnk nxt).Inv := by
  unfold State.finishB
  with_reducible repeat' (first
    | assumption | (extract_lets +onlyGivenNames x; first | (have _ : Book := x; subst x) | (have _ : Terr := x; subst x) | (have _ : Ens := x; subst x) | clear_value x)
    | apply keep_setCore | (refine inv_ite (fun _ => ?_) (fun _ => ?_)))

theorem keep_retire {s : State} {n : Nat} {c : CoreSt} {ys : List Syl} {len : Nat} {lv : DWord} (hInv : s.Inv) : (State.retire s n c ys len lv).Inv := by
  unfold State.retire
  with_reducible repeat' (first
    | assumption | (extract_lets +onlyGivenNames x; first | (have _ : Book := x; subst x) | (have _ : Terr := x; subst x) | (have _ : Ens := x; subst x) | clear_value x)
    | apply keep_setCore | apply keep_finishB | apply keep_next | (refine inv_ite (fun _ => ?_) (fun _ => ?_)) | (split <;> try (rename_i e; replace e := inv_of_eq e ?_)))

theorem keep_runBundle {s : State} {n : Nat} {ys : List Syl} {len : Nat} (hInv : s.Inv) : (State.runBundle s n ys len).Inv := by
  unfold State.runBundle
  with_reducible repeat' (first
    | assumption | (extract_lets +onlyGivenNames x; have hx : State.Inv x := ?_; (on_goal 1 => clear_value x); (on_goal 2 => subst x))
    | (extract_lets +onlyGivenNames x; first | (have _ : Book := x; subst x) | (have _ : Terr := x; subst x) | (have _ : Ens := x; subst x) | clear_value x)
    | apply keep_precise | apply keep_retire | apply keep_drainStores | apply keep_access | apply keep_next | (refine inv_ite (fun _ => ?_) (fun _ => ?_))
    | (split <;> try (rename_i e; replace e := inv_of_eq e ?_)))

theorem keep_bundleIssue {s : State} {n cycles drains : Nat} (hInv : s.Inv) : (State.bundleIssue s n cycles drains).Inv := by
  unfold State.bundleIssue
  with_reducible repeat' (first
    | assumption | (extract_lets +onlyGivenNames x; have hx : State.Inv x := ?_; (on_goal 1 => clear_value x); (on_goal 2 => subst x))
    | (extract_lets +onlyGivenNames x; first | (have _ : Book := x; subst x) | (have _ : Terr := x; subst x) | (have _ : Ens := x; subst x) | clear_value x)
    | apply keep_drainStores | apply keep_setCore | apply keep_observe | apply keep_setFetchBank | apply keep_settle | apply keep_fetchFrom | apply keep_precise | apply keep_runBundle
    | (refine inv_ite (fun _ => ?_) (fun _ => ?_)) | (split <;> try (rename_i e; replace e := inv_of_eq e ?_)))

theorem keep_copyDone {s : State} (hInv : s.Inv) : (State.copyDone s).Inv := by
  unfold State.copyDone
  with_reducible repeat' (first
    | assumption | refine inv_snd ?_ | apply keep_place | (split <;> try (rename_i e; replace e := inv_of_eq e ?_))
    | fail_if_no_progress (refine inv_mk ?_ rfl rfl rfl rfl rfl rfl rfl rfl rfl))

end Sys2Proof.Machine
end

