-- ==== Sys2Proof/Laws/InvDesk.lean ====
section
/-! SUPPORT. Every operation of Machine/Desk.lean keeps the invariant of the device. -/

set_option maxRecDepth 4000
set_option linter.unusedTactic false
set_option linter.unreachableTactic false

namespace Sys2Proof.Machine

theorem keep_setSess {s : State} {n : Nat} {x : Option Sess} (hInv : s.Inv) : (State.setSess s n x).Inv := by
  unfold State.setSess
  with_reducible repeat' (first
    | assumption | fail_if_no_progress (refine inv_mk ?_ rfl rfl rfl rfl rfl rfl rfl rfl rfl))

theorem keep_closeSess {s : State} {n : Nat} (hInv : s.Inv) : (State.closeSess s n).Inv := by
  unfold State.closeSess
  with_reducible repeat' (first
    | assumption | (extract_lets +onlyGivenNames x; have hx : State.Inv x := ?_; (on_goal 1 => clear_value x); (on_goal 2 => subst x))
    | (extract_lets +onlyGivenNames x; first | (have _ : Book := x; subst x) | (have _ : Terr := x; subst x) | (have _ : Ens := x; subst x) | clear_value x)
    | apply keep_setSess | apply keep_disarm | (split <;> try (rename_i e; replace e := inv_of_eq e ?_))
    | fail_if_no_progress (refine inv_mk ?_ rfl rfl rfl rfl rfl rfl rfl rfl rfl))

theorem keep_closeAll {s : State} (hInv : s.Inv) : (State.closeAll s).Inv := by
  unfold State.closeAll
  with_reducible repeat' (first
    | assumption | apply keep_closeSess | (refine inv_foldl ?_ (fun _ _ _ => ?_)))

theorem keep_fillOut {s : State} (hInv : s.Inv) : (State.fillOut s).Inv := by
  unfold State.fillOut
  with_reducible repeat' (first
    | assumption | (extract_lets +onlyGivenNames x; first | (have _ : Book := x; subst x) | (have _ : Terr := x; subst x) | (have _ : Ens := x; subst x) | clear_value x)
    | fail_if_no_progress (refine inv_mk ?_ rfl rfl rfl rfl rfl rfl rfl rfl rfl))

theorem keep_replyOut {s : State} {troupe : Bool} {p : List Byte} (hInv : s.Inv) : (State.replyOut s troupe p).Inv := by
  unfold State.replyOut
  with_reducible repeat' (first
    | assumption | apply keep_troupeSend | apply keep_fillOut | (refine inv_ite (fun _ => ?_) (fun _ => ?_)) | (split <;> try (rename_i e; replace e := inv_of_eq e ?_))
    | fail_if_no_progress (refine inv_mk ?_ rfl rfl rfl rfl rfl rfl rfl rfl rfl))

theorem keep_replyProt {s : State} {n op seq st : Nat} {payload : List Byte} (hInv : s.Inv) : (State.replyProt s n op seq st payload).Inv := by
  unfold State.replyProt
  with_reducible repeat' (first
    | assumption | (extract_lets +onlyGivenNames x; first | (have _ : Book := x; subst x) | (have _ : Terr := x; subst x) | (have _ : Ens := x; subst x) | clear_value x)
    | apply keep_setSess | apply keep_replyOut | (split <;> try (rename_i e; replace e := inv_of_eq e ?_)))

theorem keep_replyClear {s : State} {troupe : Bool} {n op seq st : Nat} {payload : List Byte} (hInv : s.Inv) : (State.replyClear s troupe n op seq st payload).Inv := by
  unfold State.replyClear
  with_reducible repeat' (first
    | assumption | apply keep_setSess | apply keep_replyOut | apply keep_next | (refine inv_ite (fun _ => ?_) (fun _ => ?_))
    | (split <;> try (rename_i e; replace e := inv_of_eq e ?_)))

theorem keep_answer {s : State} {c : Cmd} {st : Nat} {payload : List Byte} (hInv : s.Inv) : (State.answer s c st payload).Inv := by
  unfold State.answer
  with_reducible repeat' (first
    | assumption | apply keep_replyProt | apply keep_replyOut | apply keep_next | (refine inv_ite (fun _ => ?_) (fun _ => ?_)))

theorem keep_countBad {s : State} {n : Nat} {auth : Bool} (hInv : s.Inv) : (State.countBad s n auth).Inv := by
  unfold State.countBad
  with_reducible repeat' (first
    | assumption | (extract_lets +onlyGivenNames x; have hx : State.Inv x := ?_; (on_goal 1 => clear_value x); (on_goal 2 => subst x)) | apply keep_postLim
    | apply keep_setSess | apply keep_closeSess | (refine inv_ite (fun _ => ?_) (fun _ => ?_)) | (split <;> try (rename_i e; replace e := inv_of_eq e ?_)))

theorem keep_takeCmd {s : State} {c : Cmd} (hInv : s.Inv) : (State.takeCmd s c).Inv := by
  unfold State.takeCmd
  with_reducible repeat' (first
    | assumption | fail_if_no_progress (refine inv_mk ?_ rfl rfl rfl rfl rfl rfl rfl rfl rfl))

theorem keep_packet {s : State} {troupe : Bool} {p : List Byte} {size : Nat} (hInv : s.Inv) : (State.packet s troupe p size).Inv := by
  unfold State.packet
  with_reducible repeat' (first
    | assumption | (extract_lets +onlyGivenNames x; have hx : State.Inv x := ?_; (on_goal 1 => clear_value x); (on_goal 2 => subst x))
    | (extract_lets +onlyGivenNames x; first | (have _ : Book := x; subst x) | (have _ : Terr := x; subst x) | (have _ : Ens := x; subst x) | clear_value x)
    | apply keep_replyClear | apply keep_takeCmd | apply keep_countBad | apply keep_setSess | apply keep_arm | apply keep_replyProt
    | (refine inv_ite (fun _ => ?_) (fun _ => ?_)) | (split <;> try (rename_i e; replace e := inv_of_eq e ?_)))

theorem keep_hostErr {s : State} (hInv : s.Inv) : (State.hostErr s).Inv := by
  unfold State.hostErr
  with_reducible repeat' (first
    | assumption | apply keep_irq | apply keep_sat | fail_if_no_progress (refine inv_mk ?_ rfl rfl rfl rfl rfl rfl rfl rfl rfl))

theorem keep_hostWrite {s : State} {quad : Bool} {p : List Byte} (hInv : s.Inv) : (State.hostWrite s quad p).Inv := by
  unfold State.hostWrite
  with_reducible repeat' (first
    | assumption | apply keep_hostErr | apply keep_packet | apply keep_wrap | apply keep_irq | (refine inv_ite (fun _ => ?_) (fun _ => ?_)))

theorem keep_hostRead {s : State} {quad : Bool} {n : Nat} (hInv : s.Inv) : (State.hostRead s quad n).Inv := by
  unfold State.hostRead
  with_reducible repeat' (first
    | assumption | (extract_lets +onlyGivenNames x; have hx : State.Inv x := ?_; (on_goal 1 => clear_value x); (on_goal 2 => subst x))
    | (extract_lets +onlyGivenNames x; first | (have _ : Book := x; subst x) | (have _ : Terr := x; subst x) | (have _ : Ens := x; subst x) | clear_value x) | apply keep_send
    | apply keep_fillOut | apply keep_irq | (refine inv_ite (fun _ => ?_) (fun _ => ?_)) | (split <;> try (rename_i e; replace e := inv_of_eq e ?_))
    | fail_if_no_progress (refine inv_mk ?_ rfl rfl rfl rfl rfl rfl rfl rfl rfl))

theorem keep_hostReadStatus {s : State} (hInv : s.Inv) : (State.hostReadStatus s).Inv := by
  unfold State.hostReadStatus
  with_reducible repeat' (first
    | assumption | (extract_lets +onlyGivenNames x; have hx : State.Inv x := ?_; (on_goal 1 => clear_value x); (on_goal 2 => subst x))
    | (extract_lets +onlyGivenNames x; first | (have _ : Book := x; subst x) | (have _ : Terr := x; subst x) | (have _ : Ens := x; subst x) | clear_value x) | apply keep_send
    | (refine inv_ite (fun _ => ?_) (fun _ => ?_)) | fail_if_no_progress (refine inv_mk ?_ rfl rfl rfl rfl rfl rfl rfl rfl rfl))

theorem keep_conclude {s : State} {i : Nat} {c : Cmd} {a : Ans} (hInv : s.Inv) : (State.conclude s i c a).Inv := by
  unfold State.conclude
  with_reducible repeat' (first
    | assumption | (extract_lets +onlyGivenNames x; have hx : State.Inv x := ?_; (on_goal 1 => clear_value x); (on_goal 2 => subst x))
    | (extract_lets +onlyGivenNames x; first | (have _ : Book := x; subst x) | (have _ : Terr := x; subst x) | (have _ : Ens := x; subst x) | clear_value x)
    | apply keep_answer | apply keep_countBad | (refine inv_ite (fun _ => ?_) (fun _ => ?_)) | (split <;> try (rename_i e; replace e := inv_of_eq e ?_))
    | fail_if_no_progress (refine inv_mk ?_ rfl rfl rfl rfl rfl rfl rfl rfl rfl))

theorem keep_dropCmd {s : State} {i : Nat} (hInv : s.Inv) : (State.dropCmd s i).Inv := by
  unfold State.dropCmd
  with_reducible repeat' (first
    | assumption | fail_if_no_progress (refine inv_mk ?_ rfl rfl rfl rfl rfl rfl rfl rfl rfl))

theorem keep_serve {s : State} {op : Nat} {f : State → Cmd → Ans × State} (hInv : s.Inv)
    (hf : ∀ (x : State) c, x.Inv → PInv (f x c)) : (State.serve s op f).Inv := by
  unfold State.serve
  with_reducible repeat' (first
    | assumption | (extract_lets +onlyGivenNames x; have hx : PInv x := ?_; (on_goal 1 => clear_value x); (on_goal 2 => subst x)) | refine inv_snd ?_ | apply hf
    | apply keep_conclude | apply keep_dropCmd | (split <;> try (rename_i e; replace e := inv_of_eq e ?_)))

theorem keep_startCmd {s : State} {g : Nat} (hInv : s.Inv) : (State.startCmd s g).Inv := by
  unfold State.startCmd
  with_reducible repeat' (first
    | assumption | (extract_lets +onlyGivenNames x; first | (have _ : Book := x; subst x) | (have _ : Terr := x; subst x) | (have _ : Ens := x; subst x) | clear_value x)
    | apply keep_dropCmd | apply keep_answer | (refine inv_ite (fun _ => ?_) (fun _ => ?_)) | (split <;> try (rename_i e; replace e := inv_of_eq e ?_))
    | fail_if_no_progress (refine inv_mk ?_ rfl rfl rfl rfl rfl rfl rfl rfl rfl))

theorem keep_pendingOver {s : State} {n : Nat} (hInv : s.Inv) : (State.pendingOver s n).Inv := by
  unfold State.pendingOver
  with_reducible repeat' (first
    | assumption | apply keep_closeSess)

theorem keep_idleOver {s : State} {n : Nat} (hInv : s.Inv) : (State.idleOver s n).Inv := by
  unfold State.idleOver
  with_reducible repeat' (first
    | assumption | apply keep_closeSess)

end Sys2Proof.Machine
end

