-- ==== Sys2Proof/Laws/InvDeskA.lean ====
section
/-! SUPPORT. Every operation of Machine/DeskA.lean keeps the invariant of the device. -/

set_option maxRecDepth 4000
set_option linter.unusedTactic false
set_option linter.unreachableTactic false

namespace Sys2Proof.Machine

theorem keep_words {s : State} {l : List Nat} (hInv : s.Inv) : PInv (State.words s l) := by
  unfold State.words
  with_reducible repeat' (first
    | assumption | refine inv_snd ?_ | apply keep_regRead | (refine inv_foldl2 ?_ (fun _ _ _ => ?_)) | (split <;> try (rename_i e; replace e := inv_of_eq e ?_))
    | fail_if_no_progress (refine inv_pair ?_))

theorem keep_put8 {s : State} {a : Nat} {w : Word} (hInv : s.Inv) : (State.put8 s a w).Inv := by
  unfold State.put8
  with_reducible repeat' (first
    | assumption | refine inv_snd ?_ | apply keep_regWrite)

theorem keep_sessionOpen {s : State} (hInv : s.Inv) : (State.sessionOpen s).Inv := by
  unfold State.sessionOpen
  with_reducible repeat' (first
    | assumption | (extract_lets +onlyGivenNames x; have hx : State.Inv x := ?_; (on_goal 1 => clear_value x); (on_goal 2 => subst x))
    | (extract_lets +onlyGivenNames x; first | (have _ : Book := x; subst x) | (have _ : Terr := x; subst x) | (have _ : Ens := x; subst x) | clear_value x)
    | (refine keep_serve ?_ (fun _ _ _ => ?_)) | apply keep_setSess | apply keep_arm | apply keep_next | (refine inv_ite2 (fun _ => ?_) (fun _ => ?_)) | (split <;> try (rename_i e; replace e := inv_of_eq e ?_))
    | fail_if_no_progress (refine inv_pair ?_))

theorem keep_sessionAuth {s : State} {agree : Bool} (hInv : s.Inv) : (State.sessionAuth s agree).Inv := by
  unfold State.sessionAuth
  with_reducible repeat' (first
    | assumption | (extract_lets +onlyGivenNames x; have hx : State.Inv x := ?_; (on_goal 1 => clear_value x); (on_goal 2 => subst x))
    | (extract_lets +onlyGivenNames x; have hx : PInv x := ?_; (on_goal 1 => clear_value x); (on_goal 2 => subst x))
    | (extract_lets +onlyGivenNames x; first | (have _ : Book := x; subst x) | (have _ : Terr := x; subst x) | (have _ : Ens := x; subst x) | clear_value x)
    | refine inv_snd ?_ | (refine keep_serve ?_ (fun _ _ _ => ?_)) | apply keep_twice | apply keep_setSess | apply keep_disarm | apply keep_arm | apply keep_post
    | apply keep_closeSess | (refine inv_ite (fun _ => ?_) (fun _ => ?_)) | (refine inv_ite2 (fun _ => ?_) (fun _ => ?_))
    | (split <;> try (rename_i e; replace e := inv_of_eq e ?_)) | fail_if_no_progress (refine inv_pair ?_))

theorem keep_sessionClose {s : State} (hInv : s.Inv) : (State.sessionClose s).Inv := by
  unfold State.sessionClose
  with_reducible repeat' (first
    | assumption | (refine keep_serve ?_ (fun _ _ _ => ?_)) | apply keep_closeSess | (split <;> try (rename_i e; replace e := inv_of_eq e ?_))
    | fail_if_no_progress (refine inv_pair ?_))

theorem keep_sessionInfo {s : State} (hInv : s.Inv) : (State.sessionInfo s).Inv := by
  unfold State.sessionInfo
  with_reducible repeat' (first
    | assumption | (extract_lets +onlyGivenNames x; first | (have _ : Book := x; subst x) | (have _ : Terr := x; subst x) | (have _ : Ens := x; subst x) | clear_value x)
    | (refine keep_serve ?_ (fun _ _ _ => ?_)) | fail_if_no_progress (refine inv_pair ?_))

theorem keep_pingCmd {s : State} (hInv : s.Inv) : (State.pingCmd s).Inv := by
  unfold State.pingCmd
  with_reducible repeat' (first
    | assumption | (refine keep_serve ?_ (fun _ _ _ => ?_)) | fail_if_no_progress (refine inv_pair ?_))

theorem keep_idGet {s : State} (hInv : s.Inv) : (State.idGet s).Inv := by
  unfold State.idGet
  with_reducible repeat' (first
    | assumption | (refine keep_serve ?_ (fun _ _ _ => ?_)) | fail_if_no_progress (refine inv_pair ?_))

theorem keep_idCert {s : State} (hInv : s.Inv) : (State.idCert s).Inv := by
  unfold State.idCert
  with_reducible repeat' (first
    | assumption | (extract_lets +onlyGivenNames x; first | (have _ : Book := x; subst x) | (have _ : Terr := x; subst x) | (have _ : Ens := x; subst x) | clear_value x)
    | (refine keep_serve ?_ (fun _ _ _ => ?_)) | (refine inv_ite2 (fun _ => ?_) (fun _ => ?_)) | fail_if_no_progress (refine inv_pair ?_))

theorem keep_idAttest {s : State} (hInv : s.Inv) : (State.idAttest s).Inv := by
  unfold State.idAttest
  with_reducible repeat' (first
    | assumption | (extract_lets +onlyGivenNames x; first | (have _ : Book := x; subst x) | (have _ : Terr := x; subst x) | (have _ : Ens := x; subst x) | clear_value x)
    | (refine keep_serve ?_ (fun _ _ _ => ?_)) | apply keep_next | fail_if_no_progress (refine inv_pair ?_))

theorem keep_idChallenge {s : State} (hInv : s.Inv) : (State.idChallenge s).Inv := by
  unfold State.idChallenge
  with_reducible repeat' (first
    | assumption | (extract_lets +onlyGivenNames x; first | (have _ : Book := x; subst x) | (have _ : Terr := x; subst x) | (have _ : Ens := x; subst x) | clear_value x)
    | (refine keep_serve ?_ (fun _ _ _ => ?_)) | fail_if_no_progress (refine inv_pair ?_))

theorem keep_brkNow {s : State} {op a : Nat} {d : List Byte} {ok : Bool} (hInv : s.Inv) : PInv (State.brkNow s op a d ok) := by
  unfold State.brkNow
  with_reducible repeat' (first
    | assumption | (extract_lets +onlyGivenNames x; have hx : State.Inv x := ?_; (on_goal 1 => clear_value x); (on_goal 2 => subst x))
    | (extract_lets +onlyGivenNames x; have hx : PInv x := ?_; (on_goal 1 => clear_value x); (on_goal 2 => subst x))
    | (extract_lets +onlyGivenNames x; first | (have _ : Book := x; subst x) | (have _ : Terr := x; subst x) | (have _ : Ens := x; subst x) | clear_value x)
    | refine inv_snd ?_ | apply keep_brkRefuse | apply keep_brkEffect | apply keep_brkInvalidate | apply keep_irq | (refine inv_ite2 (fun _ => ?_) (fun _ => ?_))
    | fail_if_no_progress (refine inv_pair ?_))

theorem keep_eraseArea {s : State} {kind : Nat} (hInv : s.Inv) : PInv (State.eraseArea s kind) := by
  unfold State.eraseArea
  with_reducible repeat' (first
    | assumption | (extract_lets +onlyGivenNames x; first | (have _ : Book := x; subst x) | (have _ : Terr := x; subst x) | (have _ : Ens := x; subst x) | clear_value x)
    | refine inv_snd ?_ | apply keep_brkNow | (refine inv_foldl2 ?_ (fun _ _ _ => ?_)) | (refine inv_ite2 (fun _ => ?_) (fun _ => ?_))
    | fail_if_no_progress (refine inv_pair ?_))

theorem keep_imgBegin {s : State} (hInv : s.Inv) : (State.imgBegin s).Inv := by
  unfold State.imgBegin
  with_reducible repeat' (first
    | assumption | (extract_lets +onlyGivenNames x; have hx : State.Inv x := ?_; (on_goal 1 => clear_value x); (on_goal 2 => subst x))
    | (extract_lets +onlyGivenNames x; have hx : PInv x := ?_; (on_goal 1 => clear_value x); (on_goal 2 => subst x))
    | (extract_lets +onlyGivenNames x; first | (have _ : Book := x; subst x) | (have _ : Terr := x; subst x) | (have _ : Ens := x; subst x) | clear_value x)
    | refine inv_snd ?_ | (refine keep_serve ?_ (fun _ _ _ => ?_)) | apply keep_eraseArea | apply keep_setImg | (refine inv_ite2 (fun _ => ?_) (fun _ => ?_))
    | fail_if_no_progress (refine inv_mk ?_ rfl rfl rfl rfl rfl rfl rfl rfl rfl) | fail_if_no_progress (refine inv_pair ?_))

theorem keep_programAt {s : State} {a : Nat} {d : List Byte} {ok : Bool} (hInv : s.Inv) : PInv (State.programAt s a d ok) := by
  unfold State.programAt
  with_reducible repeat' (first
    | assumption | (extract_lets +onlyGivenNames x; first | (have _ : Book := x; subst x) | (have _ : Terr := x; subst x) | (have _ : Ens := x; subst x) | clear_value x)
    | refine inv_snd ?_ | apply keep_brkNow | (refine inv_foldl2 ?_ (fun _ _ _ => ?_)) | (refine inv_ite2 (fun _ => ?_) (fun _ => ?_))
    | fail_if_no_progress (refine inv_pair ?_))

theorem keep_imgWrite {s : State} {ok : Bool} (hInv : s.Inv) : (State.imgWrite s ok).Inv := by
  unfold State.imgWrite
  with_reducible repeat' (first
    | assumption | (extract_lets +onlyGivenNames x; have hx : PInv x := ?_; (on_goal 1 => clear_value x); (on_goal 2 => subst x))
    | (extract_lets +onlyGivenNames x; first | (have _ : Book := x; subst x) | (have _ : Terr := x; subst x) | (have _ : Ens := x; subst x) | clear_value x)
    | refine inv_snd ?_ | (refine keep_serve ?_ (fun _ _ _ => ?_)) | apply keep_setImg | apply keep_programAt | (refine inv_ite2 (fun _ => ?_) (fun _ => ?_))
    | (split <;> try (rename_i e; replace e := inv_of_eq e ?_)) | fail_if_no_progress (refine inv_pair ?_))

theorem keep_imgCommit {s : State} (hInv : s.Inv) : (State.imgCommit s).Inv := by
  unfold State.imgCommit
  with_reducible repeat' (first
    | assumption | (refine keep_serve ?_ (fun _ _ _ => ?_)) | apply keep_setImg | (refine inv_ite2 (fun _ => ?_) (fun _ => ?_))
    | (split <;> try (rename_i e; replace e := inv_of_eq e ?_)) | fail_if_no_progress (refine inv_pair ?_))

theorem keep_imgCommitEnd {s : State} {c : Cmd} {agree : Bool} (hInv : s.Inv) : PInv (State.imgCommitEnd s c agree) := by
  unfold State.imgCommitEnd
  with_reducible repeat' (first
    | assumption | (extract_lets +onlyGivenNames x; have hx : State.Inv x := ?_; (on_goal 1 => clear_value x); (on_goal 2 => subst x))
    | (extract_lets +onlyGivenNames x; have hx : PInv x := ?_; (on_goal 1 => clear_value x); (on_goal 2 => subst x))
    | (extract_lets +onlyGivenNames x; first | (have _ : Book := x; subst x) | (have _ : Terr := x; subst x) | (have _ : Ens := x; subst x) | clear_value x)
    | refine inv_snd ?_ | apply keep_twice | apply keep_setImg | (refine inv_ite2 (fun _ => ?_) (fun _ => ?_))
    | fail_if_no_progress (refine inv_mk ?_ rfl rfl rfl rfl rfl rfl rfl rfl rfl) | fail_if_no_progress (refine inv_pair ?_))

theorem keep_imgSelect {s : State} (hInv : s.Inv) : (State.imgSelect s).Inv := by
  unfold State.imgSelect
  with_reducible repeat' (first
    | assumption | (refine keep_serve ?_ (fun _ _ _ => ?_)) | fail_if_no_progress (refine inv_mk ?_ rfl rfl rfl rfl rfl rfl rfl rfl rfl)
    | fail_if_no_progress (refine inv_pair ?_))

theorem keep_imgList {s : State} (hInv : s.Inv) : (State.imgList s).Inv := by
  unfold State.imgList
  with_reducible repeat' (first
    | assumption | (refine keep_serve ?_ (fun _ _ _ => ?_)) | fail_if_no_progress (refine inv_pair ?_))

theorem keep_cfgStage {s : State} {n : Nat} (hInv : s.Inv) : (State.cfgStage s n).Inv := by
  unfold State.cfgStage
  with_reducible repeat' (first
    | assumption | apply keep_put8 | (refine inv_foldl ?_ (fun _ _ _ => ?_)))

theorem keep_keepConfig {s : State} {n : Nat} (hInv : s.Inv) : (State.keepConfig s n).Inv := by
  unfold State.keepConfig
  with_reducible repeat' (first
    | assumption | (extract_lets +onlyGivenNames x; have hx : State.Inv x := ?_; (on_goal 1 => clear_value x); (on_goal 2 => subst x))
    | (extract_lets +onlyGivenNames x; first | (have _ : Book := x; subst x) | (have _ : Terr := x; subst x) | (have _ : Ens := x; subst x) | clear_value x)
    | apply keep_wipeBlock | apply keep_countErase | apply keep_writePage | (refine inv_foldl ?_ (fun _ _ _ => ?_)) | (refine inv_ite (fun _ => ?_) (fun _ => ?_))
    | fail_if_no_progress (refine inv_mk ?_ rfl rfl rfl rfl rfl rfl rfl rfl rfl))

theorem keep_cfgApply {s : State} (hInv : s.Inv) : (State.cfgApply s).Inv := by
  unfold State.cfgApply
  with_reducible repeat' (first
    | assumption | (extract_lets +onlyGivenNames x; have hx : State.Inv x := ?_; (on_goal 1 => clear_value x); (on_goal 2 => subst x))
    | (extract_lets +onlyGivenNames x; first | (have _ : Book := x; subst x) | (have _ : Terr := x; subst x) | (have _ : Ens := x; subst x) | clear_value x)
    | (refine keep_serve ?_ (fun _ _ _ => ?_)) | apply keep_blockGo | apply keep_cfgStage | apply keep_next | (refine inv_foldl ?_ (fun _ _ _ => ?_))
    | (refine inv_ite2 (fun _ => ?_) (fun _ => ?_)) | fail_if_no_progress (refine inv_pair ?_))

theorem keep_dropEntries {s : State} (hInv : s.Inv) : (State.dropEntries s).Inv := by
  unfold State.dropEntries
  with_reducible repeat' (first
    | assumption | apply keep_closeSess | (refine inv_foldl ?_ (fun _ _ _ => ?_)) | (refine inv_ite (fun _ => ?_) (fun _ => ?_))
    | (split <;> try (rename_i e; replace e := inv_of_eq e ?_)))

theorem keep_cfgApplyEnd {s : State} {c : Cmd} (hInv : s.Inv) : OInv2 (State.cfgApplyEnd s c) := by
  unfold State.cfgApplyEnd
  with_reducible repeat' (first
    | assumption | (extract_lets +onlyGivenNames x; have hx : State.Inv x := ?_; (on_goal 1 => clear_value x); (on_goal 2 => subst x))
    | (extract_lets +onlyGivenNames x; first | (have _ : Book := x; subst x) | (have _ : Terr := x; subst x) | (have _ : Ens := x; subst x) | clear_value x)
    | apply keep_dropEntries | apply keep_keepConfig | apply keep_next | fail_if_no_progress (refine inv_mk ?_ rfl rfl rfl rfl rfl rfl rfl rfl rfl)
    | fail_if_no_progress (refine inv_pair ?_) | exact oinv2_none | refine oinv2_some ?_ | (refine oinv2_ite (fun _ => ?_) (fun _ => ?_)))

theorem keep_cfgInfo {s : State} (hInv : s.Inv) : (State.cfgInfo s).Inv := by
  unfold State.cfgInfo
  with_reducible repeat' (first
    | assumption | (extract_lets +onlyGivenNames x; first | (have _ : Book := x; subst x) | (have _ : Terr := x; subst x) | (have _ : Ens := x; subst x) | clear_value x)
    | (refine keep_serve ?_ (fun _ _ _ => ?_)) | fail_if_no_progress (refine inv_pair ?_))

theorem keep_timeStep {s : State} (hInv : s.Inv) : (State.timeStep s).Inv := by
  unfold State.timeStep
  with_reducible repeat' (first
    | assumption | (extract_lets +onlyGivenNames x; have hx : State.Inv x := ?_; (on_goal 1 => clear_value x); (on_goal 2 => subst x))
    | (refine keep_serve ?_ (fun _ _ _ => ?_)) | apply keep_setReg | apply keep_put8 | (refine inv_ite2 (fun _ => ?_) (fun _ => ?_))
    | fail_if_no_progress (refine inv_pair ?_))

theorem keep_rtcSetCmd {s : State} (hInv : s.Inv) : (State.rtcSetCmd s).Inv := by
  unfold State.rtcSetCmd
  with_reducible repeat' (first
    | assumption | (refine keep_serve ?_ (fun _ _ _ => ?_)) | apply keep_rtcSet | fail_if_no_progress (refine inv_pair ?_))

theorem keep_cueGet {s : State} (hInv : s.Inv) : (State.cueGet s).Inv := by
  unfold State.cueGet
  with_reducible repeat' (first
    | assumption | (refine keep_serve ?_ (fun _ _ _ => ?_)) | fail_if_no_progress (refine inv_pair ?_))

theorem keep_cuePushes {s : State} {l : List (List Byte)} {n : Nat} (hInv : s.Inv) : PInv (State.cuePushes s l n) := by
  induction l generalizing s n with
  | nil => exact hInv
  | cons p t ih =>
    unfold State.cuePushes
    with_reducible repeat' (first
      | assumption | (extract_lets +onlyGivenNames x; have hx : State.Inv x := ?_; (on_goal 1 => clear_value x); (on_goal 2 => subst x))
      | (extract_lets +onlyGivenNames x; clear_value x) | apply ih | apply keep_cuePush | apply keep_next | (refine inv_ite2 (fun _ => ?_) (fun _ => ?_))
      | fail_if_no_progress (refine inv_pair ?_))

theorem keep_cuePushCmd {s : State} (hInv : s.Inv) : (State.cuePushCmd s).Inv := by
  unfold State.cuePushCmd
  with_reducible repeat' (first
    | assumption | (refine keep_serve ?_ (fun _ _ _ => ?_)) | apply keep_cuePushes | (split <;> try (rename_i e; replace e := inv_of_eq e ?_))
    | fail_if_no_progress (refine inv_pair ?_))

theorem keep_cueCommit {s : State} (hInv : s.Inv) : (State.cueCommit s).Inv := by
  unfold State.cueCommit
  with_reducible repeat' (first
    | assumption | (extract_lets +onlyGivenNames x; have hx : State.Inv x := ?_; (on_goal 1 => clear_value x); (on_goal 2 => subst x))
    | (refine keep_serve ?_ (fun _ _ _ => ?_)) | apply keep_blockGo | (refine inv_ite2 (fun _ => ?_) (fun _ => ?_)) | fail_if_no_progress (refine inv_pair ?_))

theorem keep_cueAbort {s : State} (hInv : s.Inv) : (State.cueAbort s).Inv := by
  unfold State.cueAbort
  with_reducible repeat' (first
    | assumption | (refine keep_serve ?_ (fun _ _ _ => ?_)) | apply keep_blockAbort | fail_if_no_progress (refine inv_pair ?_))

theorem keep_cueStatus {s : State} (hInv : s.Inv) : (State.cueStatus s).Inv := by
  unfold State.cueStatus
  with_reducible repeat' (first
    | assumption | (extract_lets +onlyGivenNames x; have hx : PInv x := ?_; (on_goal 1 => clear_value x); (on_goal 2 => subst x)) | refine inv_snd ?_
    | (refine keep_serve ?_ (fun _ _ _ => ?_)) | apply keep_words | fail_if_no_progress (refine inv_pair ?_))

theorem keep_keyProvision {s : State} {ok : Bool} (hInv : s.Inv) : (State.keyProvision s ok).Inv := by
  unfold State.keyProvision
  with_reducible repeat' (first
    | assumption | (extract_lets +onlyGivenNames x; first | (have _ : Book := x; subst x) | (have _ : Terr := x; subst x) | (have _ : Ens := x; subst x) | clear_value x)
    | (refine keep_serve ?_ (fun _ _ _ => ?_)) | (refine inv_ite2 (fun _ => ?_) (fun _ => ?_)) | (split <;> try (rename_i e; replace e := inv_of_eq e ?_))
    | fail_if_no_progress (refine inv_mk ?_ rfl rfl rfl rfl rfl rfl rfl rfl rfl) | fail_if_no_progress (refine inv_pair ?_))

theorem keep_keyErase {s : State} {ok : Bool} (hInv : s.Inv) : (State.keyErase s ok).Inv := by
  unfold State.keyErase
  with_reducible repeat' (first
    | assumption | (extract_lets +onlyGivenNames x; first | (have _ : Book := x; subst x) | (have _ : Terr := x; subst x) | (have _ : Ens := x; subst x) | clear_value x)
    | (refine keep_serve ?_ (fun _ _ _ => ?_)) | (refine inv_ite2 (fun _ => ?_) (fun _ => ?_)) | fail_if_no_progress (refine inv_mk ?_ rfl rfl rfl rfl rfl rfl rfl rfl rfl)
    | fail_if_no_progress (refine inv_pair ?_))

theorem keep_keyList {s : State} (hInv : s.Inv) : (State.keyList s).Inv := by
  unfold State.keyList
  with_reducible repeat' (first
    | assumption | (refine keep_serve ?_ (fun _ _ _ => ?_)) | fail_if_no_progress (refine inv_pair ?_))

theorem keep_installKey {s : State} {entry kid change overlap : Nat} {long : Bool} {value : Nat} (hInv : s.Inv) : PInv (State.installKey s entry kid change overlap long value) := by
  unfold State.installKey
  with_reducible repeat' (first
    | assumption | (extract_lets +onlyGivenNames x; have hx : State.Inv x := ?_; (on_goal 1 => clear_value x); (on_goal 2 => subst x))
    | (extract_lets +onlyGivenNames x; first | (have _ : Book := x; subst x) | (have _ : Terr := x; subst x) | (have _ : Ens := x; subst x) | clear_value x) | apply keep_wr
    | apply keep_setReg | apply keep_solPush | apply keep_blockGo | apply keep_commitDue | (refine inv_foldl ?_ (fun _ _ _ => ?_))
    | (refine inv_ite2 (fun _ => ?_) (fun _ => ?_)) | fail_if_no_progress (refine inv_mk ?_ rfl rfl rfl rfl rfl rfl rfl rfl rfl) | fail_if_no_progress (refine inv_pair ?_))

theorem keep_keyStream {s : State} (hInv : s.Inv) : (State.keyStream s).Inv := by
  unfold State.keyStream
  with_reducible repeat' (first
    | assumption | (refine keep_serve ?_ (fun _ _ _ => ?_)) | apply keep_installKey | (refine inv_ite2 (fun _ => ?_) (fun _ => ?_))
    | (split <;> try (rename_i e; replace e := inv_of_eq e ?_)) | fail_if_no_progress (refine inv_pair ?_))

theorem keep_kekRoll {s : State} (hInv : s.Inv) : (State.kekRoll s).Inv := by
  unfold State.kekRoll
  with_reducible repeat' (first
    | assumption | (refine keep_serve ?_ (fun _ _ _ => ?_)) | (refine inv_ite2 (fun _ => ?_) (fun _ => ?_)) | fail_if_no_progress (refine inv_pair ?_))

theorem keep_kekRollEnd {s : State} {ok : Bool} (hInv : s.Inv) : PInv (State.kekRollEnd s ok) := by
  unfold State.kekRollEnd
  with_reducible repeat' (first
    | assumption | (extract_lets +onlyGivenNames x; first | (have _ : Book := x; subst x) | (have _ : Terr := x; subst x) | (have _ : Ens := x; subst x) | clear_value x)
    | (refine inv_ite2 (fun _ => ?_) (fun _ => ?_)) | (split <;> try (rename_i e; replace e := inv_of_eq e ?_))
    | fail_if_no_progress (refine inv_mk ?_ rfl rfl rfl rfl rfl rfl rfl rfl rfl) | fail_if_no_progress (refine inv_pair ?_))

theorem keep_kdcRelay {s : State} (hInv : s.Inv) : (State.kdcRelay s).Inv := by
  unfold State.kdcRelay
  with_reducible repeat' (first
    | assumption | (refine keep_serve ?_ (fun _ _ _ => ?_)) | apply keep_next | fail_if_no_progress (refine inv_pair ?_))

theorem keep_kdcEnd {s : State} {c : Cmd} (hInv : s.Inv) : PInv (State.kdcEnd s c) := by
  unfold State.kdcEnd
  with_reducible repeat' (first
    | assumption | (extract_lets +onlyGivenNames x; have hx : PInv x := ?_; (on_goal 1 => clear_value x); (on_goal 2 => subst x)) | refine inv_snd ?_ | apply keep_installKey
    | (refine inv_foldl2 ?_ (fun _ _ _ => ?_)) | (split <;> try (rename_i e; replace e := inv_of_eq e ?_)) | fail_if_no_progress (refine inv_pair ?_))

end Sys2Proof.Machine
end

