-- ==== Sys2Proof/Laws/InvActs.lean ====
section
/-! SUPPORT. Every operation of Machine/Acts.lean keeps the invariant of the device. -/

set_option maxRecDepth 4000
set_option linter.unusedTactic false
set_option linter.unreachableTactic false

namespace Sys2Proof.Machine

theorem keep_loadCues {s : State} {l : List (Nat × List Nat)} (hInv : s.Inv) : (State.loadCues s l).Inv := by
  unfold State.loadCues
  with_reducible repeat' (first
    | assumption | (extract_lets +onlyGivenNames x; have hx : State.Inv x := ?_; (on_goal 1 => clear_value x); (on_goal 2 => subst x)) | apply keep_put8
    | (refine inv_foldl ?_ (fun _ _ _ => ?_)))

theorem keep_startAct {s : State} {area : List Byte} (hInv : s.Inv) : (State.startAct s area).Inv := by
  unfold State.startAct
  with_reducible repeat' (first
    | assumption | apply keep_put8 | (refine inv_foldl ?_ (fun _ _ _ => ?_)) | (refine inv_ite (fun _ => ?_) (fun _ => ?_)))

theorem keep_runEarly {s : State} (hInv : s.Inv) : (State.runEarly s).Inv := by
  unfold State.runEarly
  with_reducible repeat' (first
    | assumption | (extract_lets +onlyGivenNames x; have hx : State.Inv x := ?_; (on_goal 1 => clear_value x); (on_goal 2 => subst x)) | apply keep_put8 | apply keep_loadCues
    | apply keep_startAct | apply keep_wr)

theorem keep_toEarly {s : State} (hInv : s.Inv) : (State.toEarly s).Inv := by
  unfold State.toEarly
  with_reducible repeat' (first
    | assumption | apply keep_holdCore | apply keep_runEarly | (refine inv_foldl ?_ (fun _ _ _ => ?_)))

theorem keep_handToFull {s : State} {m : Mode} (hInv : s.Inv) : (State.handToFull s m).Inv := by
  unfold State.handToFull
  with_reducible repeat' (first
    | assumption | (extract_lets +onlyGivenNames x; have hx : State.Inv x := ?_; (on_goal 1 => clear_value x); (on_goal 2 => subst x))
    | (extract_lets +onlyGivenNames x; first | (have _ : Book := x; subst x) | (have _ : Terr := x; subst x) | (have _ : Ens := x; subst x) | clear_value x) | apply keep_put8
    | apply keep_holdCore | apply keep_loadCues | (refine inv_foldl ?_ (fun _ _ _ => ?_)) | fail_if_no_progress (refine inv_mk ?_ rfl rfl rfl rfl rfl rfl rfl rfl rfl))

theorem keep_askMode {s : State} {t : Nat} (hInv : s.Inv) : (State.askMode s t).Inv := by
  unfold State.askMode
  with_reducible repeat' (first
    | assumption | apply keep_handToFull | apply keep_put8 | (refine inv_ite (fun _ => ?_) (fun _ => ?_)))

theorem keep_intervalEnd {s : State} (hInv : s.Inv) : (State.intervalEnd s).Inv := by
  unfold State.intervalEnd
  with_reducible repeat' (first
    | assumption | (extract_lets +onlyGivenNames x; have hx : State.Inv x := ?_; (on_goal 1 => clear_value x); (on_goal 2 => subst x))
    | (extract_lets +onlyGivenNames x; first | (have _ : Book := x; subst x) | (have _ : Terr := x; subst x) | (have _ : Ens := x; subst x) | clear_value x)
    | apply keep_askMode | (refine inv_ite (fun _ => ?_) (fun _ => ?_)) | (split <;> try (rename_i e; replace e := inv_of_eq e ?_))
    | fail_if_no_progress (refine inv_mk ?_ rfl rfl rfl rfl rfl rfl rfl rfl rfl))

end Sys2Proof.Machine
end

