-- ==== Sys2Proof/Laws/InvDeskB.lean ====
section
/-! SUPPORT. Every operation of Machine/DeskB.lean keeps the invariant of the device. -/

set_option maxRecDepth 4000
set_option linter.unusedTactic false
set_option linter.unreachableTactic false

namespace Sys2Proof.Machine

theorem keep_pairRole {s : State} (hInv : s.Inv) : (State.pairRole s).Inv := by
  unfold State.pairRole
  with_reducible repeat' (first
    | assumption | (refine keep_serve ?_ (fun _ _ _ => ?_)) | apply keep_wr | apply keep_lanesFollow | fail_if_no_progress (refine inv_pair ?_))

theorem keep_handoverCmd {s : State} (hInv : s.Inv) : (State.handoverCmd s).Inv := by
  unfold State.handoverCmd
  with_reducible repeat' (first
    | assumption | (refine keep_serve ?_ (fun _ _ _ => ?_)) | apply keep_put8 | fail_if_no_progress (refine inv_pair ?_))

theorem keep_handoverEnd {s : State} (hInv : s.Inv) : OInv2 (State.handoverEnd s) := by
  unfold State.handoverEnd
  with_reducible repeat' (first
    | assumption | fail_if_no_progress (refine inv_pair ?_) | exact oinv2_none | refine oinv2_some ?_ | (refine oinv2_ite (fun _ => ?_) (fun _ => ?_)))

theorem keep_pairCtrl {s : State} (hInv : s.Inv) : (State.pairCtrl s).Inv := by
  unfold State.pairCtrl
  with_reducible repeat' (first
    | assumption | (extract_lets +onlyGivenNames x; first | (have _ : Book := x; subst x) | (have _ : Terr := x; subst x) | (have _ : Ens := x; subst x) | clear_value x)
    | (refine keep_serve ?_ (fun _ _ _ => ?_)) | apply keep_put8 | fail_if_no_progress (refine inv_pair ?_))

theorem keep_pairStatus {s : State} (hInv : s.Inv) : (State.pairStatus s).Inv := by
  unfold State.pairStatus
  with_reducible repeat' (first
    | assumption | (extract_lets +onlyGivenNames x; have hx : PInv x := ?_; (on_goal 1 => clear_value x); (on_goal 2 => subst x)) | refine inv_snd ?_
    | (refine keep_serve ?_ (fun _ _ _ => ?_)) | apply keep_words | fail_if_no_progress (refine inv_pair ?_))

theorem keep_troupeRole {s : State} (hInv : s.Inv) : (State.troupeRole s).Inv := by
  unfold State.troupeRole
  with_reducible repeat' (first
    | assumption | (refine keep_serve ?_ (fun _ _ _ => ?_)) | apply keep_wr | apply keep_troupeShow | fail_if_no_progress (refine inv_pair ?_))

theorem keep_troupeStatus {s : State} (hInv : s.Inv) : (State.troupeStatus s).Inv := by
  unfold State.troupeStatus
  with_reducible repeat' (first
    | assumption | (extract_lets +onlyGivenNames x; have hx : PInv x := ?_; (on_goal 1 => clear_value x); (on_goal 2 => subst x)) | refine inv_snd ?_
    | (refine keep_serve ?_ (fun _ _ _ => ?_)) | apply keep_words | fail_if_no_progress (refine inv_pair ?_))

theorem keep_rollNow {s : State} (hInv : s.Inv) : (State.rollNow s).Inv := by
  unfold State.rollNow
  with_reducible repeat' (first
    | assumption | (refine keep_serve ?_ (fun _ _ _ => ?_)) | apply keep_rollBegin | (refine inv_ite2 (fun _ => ?_) (fun _ => ?_)) | fail_if_no_progress (refine inv_pair ?_))

theorem keep_intervalCmd {s : State} (hInv : s.Inv) : (State.intervalCmd s).Inv := by
  unfold State.intervalCmd
  with_reducible repeat' (first
    | assumption | (extract_lets +onlyGivenNames x; first | (have _ : Book := x; subst x) | (have _ : Terr := x; subst x) | (have _ : Ens := x; subst x) | clear_value x)
    | (refine keep_serve ?_ (fun _ _ _ => ?_)) | apply keep_intervalCall | (refine inv_ite2 (fun _ => ?_) (fun _ => ?_)) | fail_if_no_progress (refine inv_pair ?_))

theorem keep_intervalCmdEnd {s : State} {c : Cmd} (hInv : s.Inv) : OInv2 (State.intervalCmdEnd s c) := by
  unfold State.intervalCmdEnd
  with_reducible repeat' (first
    | assumption | (extract_lets +onlyGivenNames x; first | (have _ : Book := x; subst x) | (have _ : Terr := x; subst x) | (have _ : Ens := x; subst x) | clear_value x)
    | (split <;> try (rename_i e; replace e := inv_of_eq e ?_)) | fail_if_no_progress (refine inv_mk ?_ rfl rfl rfl rfl rfl rfl rfl rfl rfl)
    | fail_if_no_progress (refine inv_pair ?_) | exact oinv2_none | (refine oinv2_some ?_))

theorem keep_relayCmd {s : State} (hInv : s.Inv) : (State.relayCmd s).Inv := by
  unfold State.relayCmd
  with_reducible repeat' (first
    | assumption | (extract_lets +onlyGivenNames x; first | (have _ : Book := x; subst x) | (have _ : Terr := x; subst x) | (have _ : Ens := x; subst x) | clear_value x)
    | (refine keep_serve ?_ (fun _ _ _ => ?_)) | apply keep_troupeSend | apply keep_arm | apply keep_next | (split <;> try (rename_i e; replace e := inv_of_eq e ?_))
    | fail_if_no_progress (refine inv_pair ?_))

theorem keep_relayReply {s : State} {k : Nat} {p : List Byte} (hInv : s.Inv) : (State.relayReply s k p).Inv := by
  unfold State.relayReply
  with_reducible repeat' (first
    | assumption | apply keep_answer | apply keep_dropCmd | apply keep_disarm | (refine inv_ite (fun _ => ?_) (fun _ => ?_))
    | (split <;> try (rename_i e; replace e := inv_of_eq e ?_)))

theorem keep_relayTimeout {s : State} {i : Nat} (hInv : s.Inv) : (State.relayTimeout s i).Inv := by
  unfold State.relayTimeout
  with_reducible repeat' (first
    | assumption | (refine keep_fire ?_ (fun _ _ => ?_)) | apply keep_dropCmd | apply keep_answer | (refine inv_ite (fun _ => ?_) (fun _ => ?_))
    | (split <;> try (rename_i e; replace e := inv_of_eq e ?_)))

theorem keep_commandRx {s : State} {h : THead} {p : List Byte} (hInv : s.Inv) : (State.commandRx s h p).Inv := by
  unfold State.commandRx
  with_reducible repeat' (first
    | assumption | (extract_lets +onlyGivenNames x; have hx : State.Inv x := ?_; (on_goal 1 => clear_value x); (on_goal 2 => subst x)) | apply keep_troupeAccept
    | apply keep_relayReply | apply keep_directorHeard | apply keep_packet | (refine inv_ite (fun _ => ?_) (fun _ => ?_))
    | (split <;> try (rename_i e; replace e := inv_of_eq e ?_)))

theorem keep_bookRead {s : State} (hInv : s.Inv) : (State.bookRead s).Inv := by
  unfold State.bookRead
  with_reducible repeat' (first
    | assumption | (extract_lets +onlyGivenNames x; first | (have _ : Book := x; subst x) | (have _ : Terr := x; subst x) | (have _ : Ens := x; subst x) | clear_value x)
    | (refine keep_serve ?_ (fun _ _ _ => ?_)) | fail_if_no_progress (refine inv_pair ?_))

theorem keep_bookArchive {s : State} (hInv : s.Inv) : (State.bookArchive s).Inv := by
  unfold State.bookArchive
  with_reducible repeat' (first
    | assumption | (refine keep_serve ?_ (fun _ _ _ => ?_)) | apply keep_dmaRead | (split <;> try (rename_i e; replace e := inv_of_eq e ?_))
    | fail_if_no_progress (refine inv_pair ?_))

theorem keep_bookNote {s : State} (hInv : s.Inv) : (State.bookNote s).Inv := by
  unfold State.bookNote
  with_reducible repeat' (first
    | assumption | (refine keep_serve ?_ (fun _ _ _ => ?_)) | apply keep_post | fail_if_no_progress (refine inv_pair ?_))

theorem keep_bookClearCmd {s : State} (hInv : s.Inv) : (State.bookClearCmd s).Inv := by
  unfold State.bookClearCmd
  with_reducible repeat' (first
    | assumption | (extract_lets +onlyGivenNames x; have hx : State.Inv x := ?_; (on_goal 1 => clear_value x); (on_goal 2 => subst x))
    | (refine keep_serve ?_ (fun _ _ _ => ?_)) | apply keep_setReg | apply keep_put8 | fail_if_no_progress (refine inv_pair ?_))

theorem keep_setVolume {s : State} {v : Nat} {l : List VFile} (hInv : s.Inv) : (State.setVolume s v l).Inv := by
  unfold State.setVolume
  with_reducible repeat' (first
    | assumption | (refine inv_ite (fun _ => ?_) (fun _ => ?_)) | fail_if_no_progress (refine inv_mk ?_ rfl rfl rfl rfl rfl rfl rfl rfl rfl))

theorem keep_fileList {s : State} (hInv : s.Inv) : (State.fileList s).Inv := by
  unfold State.fileList
  with_reducible repeat' (first
    | assumption | (refine keep_serve ?_ (fun _ _ _ => ?_)) | (split <;> try (rename_i e; replace e := inv_of_eq e ?_)) | fail_if_no_progress (refine inv_pair ?_))

theorem keep_fileRead {s : State} {ok : Bool} (hInv : s.Inv) : (State.fileRead s ok).Inv := by
  unfold State.fileRead
  with_reducible repeat' (first
    | assumption | (extract_lets +onlyGivenNames x; first | (have _ : Book := x; subst x) | (have _ : Terr := x; subst x) | (have _ : Ens := x; subst x) | clear_value x)
    | (refine keep_serve ?_ (fun _ _ _ => ?_)) | (refine inv_ite2 (fun _ => ?_) (fun _ => ?_)) | (split <;> try (rename_i e; replace e := inv_of_eq e ?_))
    | fail_if_no_progress (refine inv_pair ?_))

theorem keep_setPart {s : State} {v : Nat} {name : List Byte} {d : Option (List Byte)} (hInv : s.Inv) : (State.setPart s v name d).Inv := by
  unfold State.setPart
  with_reducible repeat' (first
    | assumption | (extract_lets +onlyGivenNames x; first | (have _ : Book := x; subst x) | (have _ : Terr := x; subst x) | (have _ : Ens := x; subst x) | clear_value x)
    | (refine inv_ite (fun _ => ?_) (fun _ => ?_)) | (split <;> try (rename_i e; replace e := inv_of_eq e ?_))
    | fail_if_no_progress (refine inv_mk ?_ rfl rfl rfl rfl rfl rfl rfl rfl rfl))

theorem keep_formatCard {s : State} (hInv : s.Inv) : (State.formatCard s).Inv := by
  unfold State.formatCard
  with_reducible repeat' (first
    | assumption | (extract_lets +onlyGivenNames x; have hx : State.Inv x := ?_; (on_goal 1 => clear_value x); (on_goal 2 => subst x))
    | (extract_lets +onlyGivenNames x; have hx : PInv x := ?_; (on_goal 1 => clear_value x); (on_goal 2 => subst x))
    | (extract_lets +onlyGivenNames x; first | (have _ : Book := x; subst x) | (have _ : Terr := x; subst x) | (have _ : Ens := x; subst x) | clear_value x)
    | refine inv_snd ?_ | apply keep_draw32 | apply keep_cardWrite | fail_if_no_progress (refine inv_mk ?_ rfl rfl rfl rfl rfl rfl rfl rfl rfl))

theorem keep_writeData {s : State} {v : Nat} {name : List Byte} {o : Nat} {d : List Byte} (hInv : s.Inv) : OInv (State.writeData s v name o d) := by
  unfold State.writeData
  with_reducible repeat' (first
    | assumption | apply keep_formatCard | apply keep_putData | (refine inv_ite (fun _ => ?_) (fun _ => ?_)) | refine oinv_some ?_
    | (refine oinv_ite (fun _ => ?_) (fun _ => ?_)))

theorem keep_commitFile {s : State} {v : Nat} {name : List Byte} {gen : Nat} {d : List Byte} (hInv : s.Inv) : (State.commitFile s v name gen d).Inv := by
  unfold State.commitFile
  with_reducible repeat' (first
    | assumption | (extract_lets +onlyGivenNames x; have hx : State.Inv x := ?_; (on_goal 1 => clear_value x); (on_goal 2 => subst x)) | apply keep_putJournal
    | apply keep_setVolume | apply keep_setPart | (refine inv_ite (fun _ => ?_) (fun _ => ?_)))

theorem keep_dropFile {s : State} {v : Nat} {f : VFile} (hInv : s.Inv) : (State.dropFile s v f).Inv := by
  unfold State.dropFile
  with_reducible repeat' (first
    | assumption | (extract_lets +onlyGivenNames x; have hx : State.Inv x := ?_; (on_goal 1 => clear_value x); (on_goal 2 => subst x)) | apply keep_putJournal
    | apply keep_setVolume | (refine inv_ite (fun _ => ?_) (fun _ => ?_)))

theorem keep_fileWrite {s : State} (hInv : s.Inv) : (State.fileWrite s).Inv := by
  unfold State.fileWrite
  with_reducible repeat' (first
    | assumption | (extract_lets +onlyGivenNames x; first | (have _ : Book := x; subst x) | (have _ : Terr := x; subst x) | (have _ : Ens := x; subst x) | clear_value x)
    | (refine keep_serve ?_ (fun _ _ _ => ?_)) | (refine inv_ite2 (fun _ => ?_) (fun _ => ?_)) | fail_if_no_progress (refine inv_pair ?_))

theorem keep_fileWriteEnd {s : State} {c : Cmd} {ok : Bool} (hInv : s.Inv) : PInv (State.fileWriteEnd s c ok) := by
  unfold State.fileWriteEnd
  extract_lets v name o d
  have h : OInv (if ok && (v != 1 || s.cart.mounted) then s.writeData v name o d else none) := oinv_ite (fun _ => keep_writeData hInv) (fun _ => oinv_none)
  split
  · exact inv_pair (keep_setPart hInv)
  · have ht := oinv_use ‹_› h
    refine inv_ite2 (fun _ => inv_pair (keep_setPart ht)) (fun _ => ?_)
    extract_lets l g
    exact inv_ite2 (fun _ => inv_pair (keep_setPart ht)) (fun _ => inv_pair (keep_commitFile ht))

theorem keep_fileDelete {s : State} {ok : Bool} (hInv : s.Inv) : (State.fileDelete s ok).Inv := by
  unfold State.fileDelete
  with_reducible repeat' (first
    | assumption | (extract_lets +onlyGivenNames x; first | (have _ : Book := x; subst x) | (have _ : Terr := x; subst x) | (have _ : Ens := x; subst x) | clear_value x)
    | (refine keep_serve ?_ (fun _ _ _ => ?_)) | apply keep_dropFile | (refine inv_ite2 (fun _ => ?_) (fun _ => ?_))
    | (split <;> try (rename_i e; replace e := inv_of_eq e ?_)) | fail_if_no_progress (refine inv_pair ?_))

theorem keep_mediaEject {s : State} (hInv : s.Inv) : (State.mediaEject s).Inv := by
  unfold State.mediaEject
  with_reducible repeat' (first
    | assumption | (refine keep_serve ?_ (fun _ _ _ => ?_)) | fail_if_no_progress (refine inv_pair ?_))

theorem keep_mediaEjectEnd {s : State} (hInv : s.Inv) : OInv2 (State.mediaEjectEnd s) := by
  unfold State.mediaEjectEnd
  with_reducible repeat' (first
    | assumption | apply keep_cartIssue | apply keep_wr | fail_if_no_progress (refine inv_pair ?_) | exact oinv2_none | refine oinv2_some ?_
    | (refine oinv2_ite (fun _ => ?_) (fun _ => ?_)))

theorem keep_statusCmd {s : State} (hInv : s.Inv) : (State.statusCmd s).Inv := by
  unfold State.statusCmd
  with_reducible repeat' (first
    | assumption | (extract_lets +onlyGivenNames x; have hx : PInv x := ?_; (on_goal 1 => clear_value x); (on_goal 2 => subst x))
    | (extract_lets +onlyGivenNames x; first | (have _ : Book := x; subst x) | (have _ : Terr := x; subst x) | (have _ : Ens := x; subst x) | clear_value x)
    | refine inv_snd ?_ | (refine keep_serve ?_ (fun _ _ _ => ?_)) | apply keep_words | fail_if_no_progress (refine inv_pair ?_))

theorem keep_readWords {s : State} {l : List Nat} {acc : List Byte} (hInv : s.Inv) : PInv (State.readWords s l acc) := by
  induction l generalizing s acc with
  | nil => exact hInv
  | cons p t ih =>
    unfold State.readWords
    with_reducible repeat' (first
      | assumption | apply ih | apply keep_busLoad | (split <;> try (rename_i e; replace e := inv_of_eq e ?_)) | fail_if_no_progress (refine inv_pair ?_))

theorem keep_regReadCmd {s : State} (hInv : s.Inv) : (State.regReadCmd s).Inv := by
  unfold State.regReadCmd
  with_reducible repeat' (first
    | assumption | (refine keep_serve ?_ (fun _ _ _ => ?_)) | apply keep_readWords | (split <;> try (rename_i e; replace e := inv_of_eq e ?_))
    | fail_if_no_progress (refine inv_pair ?_))

theorem keep_selftestCmd {s : State} {results : Nat} (hInv : s.Inv) : (State.selftestCmd s results).Inv := by
  unfold State.selftestCmd
  with_reducible repeat' (first
    | assumption | (extract_lets +onlyGivenNames x; have hx : PInv x := ?_; (on_goal 1 => clear_value x); (on_goal 2 => subst x)) | refine inv_snd ?_
    | (refine keep_serve ?_ (fun _ _ _ => ?_)) | apply keep_selftestOne | (refine inv_foldl2 ?_ (fun _ _ _ => ?_)) | (refine inv_ite2 (fun _ => ?_) (fun _ => ?_))
    | fail_if_no_progress (refine inv_pair ?_))

theorem keep_traceCmd {s : State} (hInv : s.Inv) : (State.traceCmd s).Inv := by
  unfold State.traceCmd
  with_reducible repeat' (first
    | assumption | (refine keep_serve ?_ (fun _ _ _ => ?_)) | apply keep_traceCfg | fail_if_no_progress (refine inv_pair ?_))

theorem keep_coreCtrlCmd {s : State} (hInv : s.Inv) : (State.coreCtrlCmd s).Inv := by
  unfold State.coreCtrlCmd
  with_reducible repeat' (first
    | assumption | (refine keep_serve ?_ (fun _ _ _ => ?_)) | apply keep_put8 | fail_if_no_progress (refine inv_pair ?_))

theorem keep_commission {s : State} (hInv : s.Inv) : (State.commission s).Inv := by
  unfold State.commission
  with_reducible repeat' (first
    | assumption | (extract_lets +onlyGivenNames x; first | (have _ : Book := x; subst x) | (have _ : Terr := x; subst x) | (have _ : Ens := x; subst x) | clear_value x)
    | (refine keep_serve ?_ (fun _ _ _ => ?_)) | (refine inv_ite2 (fun _ => ?_) (fun _ => ?_)) | fail_if_no_progress (refine inv_pair ?_))

theorem keep_commissionEnd {s : State} {c : Cmd} (hInv : s.Inv) : PInv (State.commissionEnd s c) := by
  unfold State.commissionEnd
  with_reducible repeat' (first
    | assumption | (extract_lets +onlyGivenNames x; have hx : State.Inv x := ?_; (on_goal 1 => clear_value x); (on_goal 2 => subst x))
    | (extract_lets +onlyGivenNames x; first | (have _ : Book := x; subst x) | (have _ : Terr := x; subst x) | (have _ : Ens := x; subst x) | clear_value x)
    | apply keep_newShare | apply keep_setMKey | apply keep_next | (refine inv_ite (fun _ => ?_) (fun _ => ?_)) | (refine inv_ite2 (fun _ => ?_) (fun _ => ?_))
    | fail_if_no_progress (refine inv_mk ?_ rfl rfl rfl rfl rfl rfl rfl rfl rfl) | fail_if_no_progress (refine inv_pair ?_))

theorem keep_unlockCmd {s : State} {verified agree : Bool} (hInv : s.Inv) : (State.unlockCmd s verified agree).Inv := by
  unfold State.unlockCmd
  with_reducible repeat' (first
    | assumption | (extract_lets +onlyGivenNames x; have hx : State.Inv x := ?_; (on_goal 1 => clear_value x); (on_goal 2 => subst x))
    | (extract_lets +onlyGivenNames x; have hx : PInv x := ?_; (on_goal 1 => clear_value x); (on_goal 2 => subst x))
    | (extract_lets +onlyGivenNames x; first | (have _ : Book := x; subst x) | (have _ : Terr := x; subst x) | (have _ : Ens := x; subst x) | clear_value x)
    | refine inv_snd ?_ | (refine keep_serve ?_ (fun _ _ _ => ?_)) | apply keep_unlockRefuse | apply keep_twice | apply keep_unlockCheck | apply keep_next
    | (refine inv_ite2 (fun _ => ?_) (fun _ => ?_)) | fail_if_no_progress (refine inv_mk ?_ rfl rfl rfl rfl rfl rfl rfl rfl rfl) | fail_if_no_progress (refine inv_pair ?_))

theorem keep_modeReqCmd {s : State} (hInv : s.Inv) : (State.modeReqCmd s).Inv := by
  unfold State.modeReqCmd
  with_reducible repeat' (first
    | assumption | (extract_lets +onlyGivenNames x; first | (have _ : Book := x; subst x) | (have _ : Terr := x; subst x) | (have _ : Ens := x; subst x) | clear_value x)
    | (refine keep_serve ?_ (fun _ _ _ => ?_)) | apply keep_askMode | apply keep_put8 | (refine inv_ite2 (fun _ => ?_) (fun _ => ?_))
    | fail_if_no_progress (refine inv_mk ?_ rfl rfl rfl rfl rfl rfl rfl rfl rfl) | fail_if_no_progress (refine inv_pair ?_))

theorem keep_modeReqEnd {s : State} {c : Cmd} (hInv : s.Inv) : OInv2 (State.modeReqEnd s c) := by
  unfold State.modeReqEnd
  with_reducible repeat' (first
    | assumption | fail_if_no_progress (refine inv_pair ?_) | exact oinv2_none | refine oinv2_some ?_ | (refine oinv2_ite (fun _ => ?_) (fun _ => ?_)))

theorem keep_resetCmd {s : State} (hInv : s.Inv) : (State.resetCmd s).Inv := by
  unfold State.resetCmd
  with_reducible repeat' (first
    | assumption | (refine keep_serve ?_ (fun _ _ _ => ?_)) | fail_if_no_progress (refine inv_mk ?_ rfl rfl rfl rfl rfl rfl rfl rfl rfl)
    | fail_if_no_progress (refine inv_pair ?_))

theorem keep_lcCmd {s : State} {c : Cmd} {t : Nat} (hInv : s.Inv) : PInv (State.lcCmd s c t) := by
  unfold State.lcCmd
  with_reducible repeat' (first
    | assumption | apply keep_lcAdvWrite | (refine inv_ite2 (fun _ => ?_) (fun _ => ?_)) | fail_if_no_progress (refine inv_mk ?_ rfl rfl rfl rfl rfl rfl rfl rfl rfl)
    | fail_if_no_progress (refine inv_pair ?_))

theorem keep_returnCmd {s : State} (hInv : s.Inv) : (State.returnCmd s).Inv := by
  unfold State.returnCmd
  with_reducible repeat' (first
    | assumption | (refine keep_serve ?_ (fun _ _ _ => ?_)) | apply keep_lcCmd)

theorem keep_decommissionCmd {s : State} (hInv : s.Inv) : (State.decommissionCmd s).Inv := by
  unfold State.decommissionCmd
  with_reducible repeat' (first
    | assumption | (refine keep_serve ?_ (fun _ _ _ => ?_)) | apply keep_lcCmd)

theorem keep_issueCmd {s : State} (hInv : s.Inv) : (State.issueCmd s).Inv := by
  unfold State.issueCmd
  with_reducible repeat' (first
    | assumption | (refine keep_serve ?_ (fun _ _ _ => ?_)) | apply keep_lcCmd)

theorem keep_finalOf {s : State} {c : Cmd} {ok agree : Bool} (hInv : s.Inv) : OInv2 (State.finalOf s c ok agree) := by
  unfold State.finalOf
  with_reducible repeat' (first
    | assumption | apply keep_imgCommitEnd | apply keep_cfgApplyEnd | apply keep_kekRollEnd | apply keep_kdcEnd | apply keep_handoverEnd | apply keep_intervalCmdEnd
    | apply keep_fileWriteEnd | apply keep_mediaEjectEnd | apply keep_commissionEnd | apply keep_modeReqEnd | apply keep_next | fail_if_no_progress (refine inv_pair ?_)
    | exact oinv2_none | refine oinv2_some ?_ | (refine oinv2_ite (fun _ => ?_) (fun _ => ?_)))

theorem keep_finalReply {s : State} {i : Nat} {ok agree : Bool} (hInv : s.Inv) : (State.finalReply s i ok agree).Inv := by
  unfold State.finalReply
  split
  · exact hInv
  · rename_i c hc
    have h := keep_finalOf (c := c) (ok := ok) (agree := agree) (keep_dropCmd (i := i) hInv)
    refine inv_ite (fun _ => hInv) (fun _ => ?_)
    split
    · exact hInv
    · exact keep_conclude (inv_snd (h _ ‹_›))

end Sys2Proof.Machine
end

