-- ==== Sys2Proof/Laws/InvServices.lean ====
section
/-! SUPPORT. Every operation of Machine/Services.lean keeps the invariant of the device. -/

set_option maxRecDepth 4000
set_option linter.unusedTactic false
set_option linter.unreachableTactic false

namespace Sys2Proof.Machine

theorem keep_svcIn {s : State} {r : SvcReq} (hInv : s.Inv) : PInv (State.svcIn s r) := by
  unfold State.svcIn
  with_reducible repeat' (first
    | assumption | apply keep_dmaRead | (refine inv_ite2 (fun _ => ?_) (fun _ => ?_)) | (split <;> try (rename_i e; replace e := inv_of_eq e ?_))
    | fail_if_no_progress (refine inv_pair ?_))

theorem keep_svcOut {s : State} {r : SvcReq} {b : List Byte} (hInv : s.Inv) : PInv (State.svcOut s r b) := by
  unfold State.svcOut
  with_reducible repeat' (first
    | assumption | apply keep_dmaWrite | (refine inv_ite2 (fun _ => ?_) (fun _ => ?_)) | (split <;> try (rename_i e; replace e := inv_of_eq e ?_))
    | fail_if_no_progress (refine inv_pair ?_))

theorem keep_svcDone {s : State} {r : SvcReq} {st n : Nat} (hInv : s.Inv) : (State.svcDone s r st n).Inv := by
  unfold State.svcDone
  with_reducible repeat' (first
    | assumption | (extract_lets +onlyGivenNames x; have hx : State.Inv x := ?_; (on_goal 1 => clear_value x); (on_goal 2 => subst x))
    | (extract_lets +onlyGivenNames x; first | (have _ : Book := x; subst x) | (have _ : Terr := x; subst x) | (have _ : Ens := x; subst x) | clear_value x)
    | refine inv_snd ?_ | apply keep_releaseEntries | apply keep_enqueue | apply keep_post | apply keep_ticketDoneWrite | (refine inv_ite (fun _ => ?_) (fun _ => ?_)))

theorem keep_svcRun {s : State} {svc : Nat} {f : State → SvcReq → (Nat × Nat) × State} (hInv : s.Inv)
    (hf : ∀ (x : State) c, x.Inv → PInv (f x c)) : (State.svcRun s svc f).Inv := by
  unfold State.svcRun
  with_reducible repeat' (first
    | assumption | (extract_lets +onlyGivenNames x; have hx : PInv x := ?_; (on_goal 1 => clear_value x); (on_goal 2 => subst x)) | refine inv_snd ?_ | apply hf
    | apply keep_svcDone | (refine inv_ite (fun _ => ?_) (fun _ => ?_)) | (split <;> try (rename_i e; replace e := inv_of_eq e ?_)))

theorem keep_svcNote {s : State} (hInv : s.Inv) : (State.svcNote s).Inv := by
  unfold State.svcNote
  with_reducible repeat' (first
    | assumption | (refine keep_svcRun ?_ (fun _ _ _ => ?_)) | apply keep_svcIn | apply keep_post | (refine inv_ite2 (fun _ => ?_) (fun _ => ?_))
    | (split <;> try (rename_i e; replace e := inv_of_eq e ?_)) | fail_if_no_progress (refine inv_pair ?_))

theorem keep_svcSign {s : State} (hInv : s.Inv) : (State.svcSign s).Inv := by
  unfold State.svcSign
  with_reducible repeat' (first
    | assumption | (refine keep_svcRun ?_ (fun _ _ _ => ?_)) | apply keep_svcIn | apply keep_svcOut | apply keep_next | (refine inv_ite2 (fun _ => ?_) (fun _ => ?_))
    | (split <;> try (rename_i e; replace e := inv_of_eq e ?_)) | fail_if_no_progress (refine inv_pair ?_))

theorem keep_svcVerify {s : State} {agree : Bool} (hInv : s.Inv) : (State.svcVerify s agree).Inv := by
  unfold State.svcVerify
  with_reducible repeat' (first
    | assumption | (extract_lets +onlyGivenNames x; have hx : PInv x := ?_; (on_goal 1 => clear_value x); (on_goal 2 => subst x)) | refine inv_snd ?_
    | (refine keep_svcRun ?_ (fun _ _ _ => ?_)) | apply keep_svcIn | apply keep_twice | (split <;> try (rename_i e; replace e := inv_of_eq e ?_))
    | fail_if_no_progress (refine inv_pair ?_))

theorem keep_svcStore {s : State} {ok : Bool} (hInv : s.Inv) : (State.svcStore s ok).Inv := by
  unfold State.svcStore
  with_reducible repeat' (first
    | assumption | (extract_lets +onlyGivenNames x; first | (have _ : Book := x; subst x) | (have _ : Terr := x; subst x) | (have _ : Ens := x; subst x) | clear_value x)
    | (refine keep_svcRun ?_ (fun _ _ _ => ?_)) | apply keep_svcIn | (refine inv_ite2 (fun _ => ?_) (fun _ => ?_)) | (split <;> try (rename_i e; replace e := inv_of_eq e ?_))
    | fail_if_no_progress (refine inv_mk ?_ rfl rfl rfl rfl rfl rfl rfl rfl rfl) | fail_if_no_progress (refine inv_pair ?_))

theorem keep_svcLoad {s : State} (hInv : s.Inv) : (State.svcLoad s).Inv := by
  unfold State.svcLoad
  with_reducible repeat' (first
    | assumption | (refine keep_svcRun ?_ (fun _ _ _ => ?_)) | apply keep_svcOut | (split <;> try (rename_i e; replace e := inv_of_eq e ?_))
    | fail_if_no_progress (refine inv_pair ?_))

theorem keep_svcFeed {s : State} (hInv : s.Inv) : (State.svcFeed s).Inv := by
  unfold State.svcFeed
  with_reducible repeat' (first
    | assumption | (refine keep_svcRun ?_ (fun _ _ _ => ?_)) | apply keep_put8 | fail_if_no_progress (refine inv_pair ?_))

theorem keep_svcPatrol {s : State} (hInv : s.Inv) : (State.svcPatrol s).Inv := by
  unfold State.svcPatrol
  with_reducible repeat' (first
    | assumption | (extract_lets +onlyGivenNames x; have hx : PInv x := ?_; (on_goal 1 => clear_value x); (on_goal 2 => subst x)) | refine inv_snd ?_
    | (refine keep_svcRun ?_ (fun _ _ _ => ?_)) | apply keep_patrolPop | apply keep_brkIssue | (split <;> try (rename_i e; replace e := inv_of_eq e ?_))
    | fail_if_no_progress (refine inv_pair ?_))

theorem keep_svcRtc {s : State} (hInv : s.Inv) : (State.svcRtc s).Inv := by
  unfold State.svcRtc
  with_reducible repeat' (first
    | assumption | (refine keep_svcRun ?_ (fun _ _ _ => ?_)) | apply keep_put8 | (refine inv_ite2 (fun _ => ?_) (fun _ => ?_)) | fail_if_no_progress (refine inv_pair ?_))

end Sys2Proof.Machine
end

