-- ==== Sys2Proof/Laws/InvBoot.lean ====
section
/-! SUPPORT. Every operation of Machine/Boot.lean keeps the invariant of the device. -/

set_option maxRecDepth 4000
set_option linter.unusedTactic false
set_option linter.unreachableTactic false

namespace Sys2Proof.Machine

theorem keep_cleared {s : State} {warm : Bool} (h : s.Inv) : (State.cleared s warm).Inv := by
  refine And.intro ⟨canonical_filter _ h.1.1, canonical_filter _ h.1.2.1, canonical_nil _, canonical_nil _⟩ ⟨Nat.zero_le _, ?_, ?_, Nat.zero_le _, Nat.zero_le _⟩
  · show (s.bookReset warm).inFifo.length ≤ 64
    unfold State.bookReset
    split
    · exact Nat.zero_le _
    · exact Nat.zero_le _
  · show (s.bookReset warm).ring.length ≤ 4096
    unfold State.bookReset
    split
    · exact h.2.2.2.1
    · exact Nat.zero_le _

theorem keep_resetShow {s : State} {lc pair troupe tag : Nat} (hInv : s.Inv) : (State.resetShow s lc pair troupe tag).Inv := by
  unfold State.resetShow
  with_reducible repeat' (first
    | assumption | (extract_lets +onlyGivenNames x; have hx : State.Inv x := ?_; (on_goal 1 => clear_value x); (on_goal 2 => subst x))
    | (extract_lets +onlyGivenNames x; first | (have _ : Book := x; subst x) | (have _ : Terr := x; subst x) | (have _ : Ens := x; subst x) | clear_value x) | apply keep_wr
    | apply keep_setHeld)

theorem keep_archResume {s : State} (hInv : s.Inv) : (State.archResume s).Inv := by
  unfold State.archResume
  with_reducible repeat' (first
    | assumption | (extract_lets +onlyGivenNames x; first | (have _ : Book := x; subst x) | (have _ : Terr := x; subst x) | (have _ : Ens := x; subst x) | clear_value x)
    | apply keep_wr | apply keep_archShow | apply keep_bookShow)

theorem keep_destroyKeys {s : State} (hInv : s.Inv) : (State.destroyKeys s).Inv := by
  unfold State.destroyKeys
  with_reducible repeat' (first
    | assumption | apply keep_zeroShare | (refine inv_ite (fun _ => ?_) (fun _ => ?_)) | fail_if_no_progress (refine inv_mk ?_ rfl rfl rfl rfl rfl rfl rfl rfl rfl))

theorem keep_mainReset {s : State} {cause : Nat} {warm : Bool} (hInv : s.Inv) : (State.mainReset s cause warm).Inv := by
  unfold State.mainReset
  with_reducible repeat' (first
    | assumption | (extract_lets +onlyGivenNames x; have hx : State.Inv x := ?_; (on_goal 1 => clear_value x); (on_goal 2 => subst x))
    | (extract_lets +onlyGivenNames x; first | (have _ : Book := x; subst x) | (have _ : Terr := x; subst x) | (have _ : Ens := x; subst x) | clear_value x)
    | apply keep_rtcFold | apply keep_brkAbandon | apply keep_cleared | apply keep_wr | apply keep_resetShow | apply keep_destroyKeys | apply keep_archResume
    | apply keep_refreshPins)

theorem keep_wakeSource {s : State} {id : Nat} (hInv : s.Inv) : (State.wakeSource s id).Inv := by
  unfold State.wakeSource
  with_reducible repeat' (first
    | assumption | (extract_lets +onlyGivenNames x; have hx : State.Inv x := ?_; (on_goal 1 => clear_value x); (on_goal 2 => subst x)) | apply keep_wr | apply keep_irq
    | apply keep_postU | apply keep_zeroShare | apply keep_logFree | apply keep_setHeld | (refine inv_ite (fun _ => ?_) (fun _ => ?_)))

theorem keep_wakeRefuge {s : State} (hInv : s.Inv) : (State.wakeRefuge s).Inv := by
  unfold State.wakeRefuge
  with_reducible repeat' (first
    | assumption | (extract_lets +onlyGivenNames x; have hx : State.Inv x := ?_; (on_goal 1 => clear_value x); (on_goal 2 => subst x))
    | (extract_lets +onlyGivenNames x; first | (have _ : Book := x; subst x) | (have _ : Terr := x; subst x) | (have _ : Ens := x; subst x) | clear_value x)
    | apply keep_wakeSource | apply keep_irq | (refine inv_ite (fun _ => ?_) (fun _ => ?_)) | fail_if_no_progress (refine inv_mk ?_ rfl rfl rfl rfl rfl rfl rfl rfl rfl))

theorem keep_powerOnReset {s : State} (hInv : s.Inv) : (State.powerOnReset s).Inv := by
  unfold State.powerOnReset
  with_reducible repeat' (first
    | assumption | (extract_lets +onlyGivenNames x; have hx : State.Inv x := ?_; (on_goal 1 => clear_value x); (on_goal 2 => subst x))
    | (extract_lets +onlyGivenNames x; first | (have _ : Book := x; subst x) | (have _ : Terr := x; subst x) | (have _ : Ens := x; subst x) | clear_value x)
    | apply keep_supplySwitch | apply keep_mainReset | apply keep_wakeRefuge | fail_if_no_progress (refine inv_mk ?_ rfl rfl rfl rfl rfl rfl rfl rfl rfl))

theorem keep_pinReset {s : State} (hInv : s.Inv) : (State.pinReset s).Inv := by
  unfold State.pinReset
  with_reducible repeat' (first
    | assumption | apply keep_mainReset | (refine inv_ite (fun _ => ?_) (fun _ => ?_)) | fail_if_no_progress (refine inv_mk ?_ rfl rfl rfl rfl rfl rfl rfl rfl rfl))

theorem keep_stage {s : State} {n : Nat} (hInv : s.Inv) : (State.stage s n).Inv := by
  unfold State.stage
  with_reducible repeat' (first
    | assumption | apply keep_wr)

theorem keep_stewardStart {s : State} {k : State → State} (hInv : s.Inv) (hk : ∀ x : State, x.Inv → (k x).Inv) : (State.stewardStart s k).Inv := by
  unfold State.stewardStart
  with_reducible repeat' (first
    | assumption | (extract_lets +onlyGivenNames x; have hx : State.Inv x := ?_; (on_goal 1 => clear_value x); (on_goal 2 => subst x))
    | (extract_lets +onlyGivenNames x; clear_value x) | apply hk | apply keep_stage | apply keep_summaryTry | apply keep_setCore | apply keep_wr
    | (split <;> try (rename_i e; replace e := inv_of_eq e ?_)) | fail_if_no_progress (refine inv_mk ?_ rfl rfl rfl rfl rfl rfl rfl rfl rfl))

theorem keep_startCommit {s : State} {b : Nat} (hInv : s.Inv) : (State.startCommit s b).Inv := by
  unfold State.startCommit
  with_reducible repeat' (first
    | assumption | apply keep_blockGo | apply keep_commitDue | (refine inv_ite (fun _ => ?_) (fun _ => ?_)))

theorem keep_loadStreams {s : State} (hInv : s.Inv) : (State.loadStreams s).Inv := by
  unfold State.loadStreams
  with_reducible repeat' (first
    | assumption | refine inv_snd ?_ | apply keep_post | apply keep_installKey | (refine inv_foldl ?_ (fun _ _ _ => ?_)) | (refine inv_ite (fun _ => ?_) (fun _ => ?_))
    | (split <;> try (rename_i e; replace e := inv_of_eq e ?_)))

theorem keep_startRehearsal {s : State} (hInv : s.Inv) : (State.startRehearsal s).Inv := by
  unfold State.startRehearsal
  with_reducible repeat' (first
    | assumption | (extract_lets +onlyGivenNames x; have hx : State.Inv x := ?_; (on_goal 1 => clear_value x); (on_goal 2 => subst x)) | apply keep_put8 | apply keep_wr
    | apply keep_post | apply keep_cfgStage | apply keep_keepConfig | apply keep_startCommit | apply keep_loadStreams | apply keep_rollCall
    | (refine inv_foldl ?_ (fun _ _ _ => ?_)) | (refine inv_ite (fun _ => ?_) (fun _ => ?_)) | (split <;> try (rename_i e; replace e := inv_of_eq e ?_))
    | fail_if_no_progress (refine inv_mk ?_ rfl rfl rfl rfl rfl rfl rfl rfl rfl))

theorem keep_startCurtain {s : State} (hInv : s.Inv) : (State.startCurtain s).Inv := by
  unfold State.startCurtain
  with_reducible repeat' (first
    | assumption | (extract_lets +onlyGivenNames x; have hx : State.Inv x := ?_; (on_goal 1 => clear_value x); (on_goal 2 => subst x)) | apply keep_put8
    | apply keep_startCommit | apply keep_copyLog | apply keep_stage | (refine inv_foldl ?_ (fun _ _ _ => ?_)) | (split <;> try (rename_i e; replace e := inv_of_eq e ?_))
    | fail_if_no_progress (refine inv_mk ?_ rfl rfl rfl rfl rfl rfl rfl rfl rfl))

theorem keep_startUp {s : State} {was : Option Mode} (hInv : s.Inv) : (State.startUp s was).Inv := by
  unfold State.startUp
  with_reducible repeat' (first
    | assumption | (extract_lets +onlyGivenNames x; have hx : State.Inv x := ?_; (on_goal 1 => clear_value x); (on_goal 2 => subst x)) | apply keep_post | apply keep_stage
    | apply keep_drawChallenge | apply keep_startCore | apply keep_rebuildKeys | (refine keep_stewardStart ?_ (fun _ _ => ?_)) | apply keep_wr | apply keep_startCurtain
    | apply keep_startRehearsal | apply keep_next | (refine inv_ite (fun _ => ?_) (fun _ => ?_)))

theorem keep_pllLock {s : State} (hInv : s.Inv) : (State.pllLock s).Inv := by
  unfold State.pllLock
  with_reducible repeat' (first
    | assumption | apply keep_startUp | (refine inv_ite (fun _ => ?_) (fun _ => ?_)) | fail_if_no_progress (refine inv_mk ?_ rfl rfl rfl rfl rfl rfl rfl rfl rfl))

theorem keep_warmReset {s : State} (hInv : s.Inv) : (State.warmReset s).Inv := by
  unfold State.warmReset
  with_reducible repeat' (first
    | assumption | apply keep_mainReset | apply keep_startUp | (refine inv_ite (fun _ => ?_) (fun _ => ?_)))

theorem keep_alignStart {s : State} (hInv : s.Inv) : (State.alignStart s).Inv := by
  unfold State.alignStart
  with_reducible repeat' (first
    | assumption | (extract_lets +onlyGivenNames x; have hx : State.Inv x := ?_; (on_goal 1 => clear_value x); (on_goal 2 => subst x))
    | (extract_lets +onlyGivenNames x; first | (have _ : Book := x; subst x) | (have _ : Terr := x; subst x) | (have _ : Ens := x; subst x) | clear_value x)
    | apply keep_setReg | apply keep_put8 | (refine inv_ite (fun _ => ?_) (fun _ => ?_)) | fail_if_no_progress (refine inv_mk ?_ rfl rfl rfl rfl rfl rfl rfl rfl rfl))

theorem keep_earlyActStart {s : State} (hInv : s.Inv) : (State.earlyActStart s).Inv := by
  unfold State.earlyActStart
  with_reducible repeat' (first
    | assumption | (extract_lets +onlyGivenNames x; have hx : State.Inv x := ?_; (on_goal 1 => clear_value x); (on_goal 2 => subst x)) | apply keep_post | apply keep_wr
    | apply keep_alignStart | apply keep_runEarly | apply keep_stage | (refine inv_ite (fun _ => ?_) (fun _ => ?_)))

theorem keep_commitCall {s : State} {c : Int} (hInv : s.Inv) : (State.commitCall s c).Inv := by
  unfold State.commitCall
  with_reducible repeat' (first
    | assumption | (extract_lets +onlyGivenNames x; have hx : State.Inv x := ?_; (on_goal 1 => clear_value x); (on_goal 2 => subst x)) | apply keep_setReg
    | apply keep_blockGo)

theorem keep_callAlign {s : State} {smp arr avg : Nat} (hInv : s.Inv) : (State.callAlign s smp arr avg).Inv := by
  unfold State.callAlign
  with_reducible repeat' (first
    | assumption | apply keep_commitCall | (refine inv_ite (fun _ => ?_) (fun _ => ?_)) | fail_if_no_progress (refine inv_mk ?_ rfl rfl rfl rfl rfl rfl rfl rfl rfl))

theorem keep_gridToPtp {s : State} (hInv : s.Inv) : (State.gridToPtp s).Inv := by
  unfold State.gridToPtp
  with_reducible repeat' (first
    | assumption | (extract_lets +onlyGivenNames x; have hx : State.Inv x := ?_; (on_goal 1 => clear_value x); (on_goal 2 => subst x))
    | (extract_lets +onlyGivenNames x; first | (have _ : Book := x; subst x) | (have _ : Terr := x; subst x) | (have _ : Ens := x; subst x) | clear_value x)
    | apply keep_setReg | apply keep_put8 | apply keep_blockAbort | apply keep_commitCall | (refine inv_ite (fun _ => ?_) (fun _ => ?_))
    | fail_if_no_progress (refine inv_mk ?_ rfl rfl rfl rfl rfl rfl rfl rfl rfl))

theorem keep_verifyFull {s : State} (hInv : s.Inv) : (State.verifyFull s).Inv := by
  unfold State.verifyFull
  with_reducible repeat' (first
    | assumption | (extract_lets +onlyGivenNames x; have hx : State.Inv x := ?_; (on_goal 1 => clear_value x); (on_goal 2 => subst x))
    | (extract_lets +onlyGivenNames x; first | (have _ : Book := x; subst x) | (have _ : Terr := x; subst x) | (have _ : Ens := x; subst x) | clear_value x) | apply keep_post
    | apply keep_wr | apply keep_stage | apply keep_put8 | (refine inv_ite (fun _ => ?_) (fun _ => ?_))
    | fail_if_no_progress (refine inv_mk ?_ rfl rfl rfl rfl rfl rfl rfl rfl rfl))

theorem keep_roleSettlement {s : State} (hInv : s.Inv) : (State.roleSettlement s).Inv := by
  unfold State.roleSettlement
  with_reducible repeat' (first
    | assumption | (extract_lets +onlyGivenNames x; have hx : State.Inv x := ?_; (on_goal 1 => clear_value x); (on_goal 2 => subst x)) | apply keep_verifyFull
    | apply keep_handToFull | (refine inv_ite (fun _ => ?_) (fun _ => ?_)) | (split <;> try (rename_i e; replace e := inv_of_eq e ?_)))

theorem keep_powerAct {s : State} {area : List Byte} (hInv : s.Inv) : (State.powerAct s area).Inv := by
  unfold State.powerAct
  with_reducible repeat' (first
    | assumption | (extract_lets +onlyGivenNames x; have hx : State.Inv x := ?_; (on_goal 1 => clear_value x); (on_goal 2 => subst x)) | apply keep_put8 | apply keep_blockGo
    | apply keep_commitDue | (refine inv_foldl ?_ (fun _ _ _ => ?_)) | (refine inv_ite (fun _ => ?_) (fun _ => ?_)))

theorem keep_settled {s : State} (hInv : s.Inv) : (State.settled s).Inv := by
  unfold State.settled
  with_reducible repeat' (first
    | assumption | apply keep_summaryOwed | fail_if_no_progress (refine inv_mk ?_ rfl rfl rfl rfl rfl rfl rfl rfl rfl))

theorem keep_intervalAct {s : State} (hInv : s.Inv) : (State.intervalAct s).Inv := by
  unfold State.intervalAct
  with_reducible repeat' (first
    | assumption | apply keep_toEarly | (refine inv_ite (fun _ => ?_) (fun _ => ?_)))

theorem keep_afterBoundary {s : State} (hInv : s.Inv) : (State.afterBoundary s).Inv := by
  unfold State.afterBoundary
  with_reducible repeat' (first
    | assumption | (extract_lets +onlyGivenNames x; have hx : State.Inv x := ?_; (on_goal 1 => clear_value x); (on_goal 2 => subst x))
    | (extract_lets +onlyGivenNames x; first | (have _ : Book := x; subst x) | (have _ : Terr := x; subst x) | (have _ : Ens := x; subst x) | clear_value x)
    | apply keep_intervalAct | apply keep_settled | apply keep_startAct | apply keep_powerAct | apply keep_wr | apply keep_stage | apply keep_resumeCore | apply keep_runEarly
    | apply keep_post | (refine inv_foldl ?_ (fun _ _ _ => ?_)) | (refine inv_ite (fun _ => ?_) (fun _ => ?_)))

theorem keep_stewardWipe {s : State} (hInv : s.Inv) : (State.stewardWipe s).Inv := by
  unfold State.stewardWipe
  with_reducible repeat' (first
    | assumption | (extract_lets +onlyGivenNames x; have hx : State.Inv x := ?_; (on_goal 1 => clear_value x); (on_goal 2 => subst x))
    | (extract_lets +onlyGivenNames x; first | (have _ : Book := x; subst x) | (have _ : Terr := x; subst x) | (have _ : Ens := x; subst x) | clear_value x) | apply keep_wipe
    | fail_if_no_progress (refine inv_mk ?_ rfl rfl rfl rfl rfl rfl rfl rfl rfl))

theorem keep_stewardCount {s : State} (hInv : s.Inv) : (State.stewardCount s).Inv := by
  unfold State.stewardCount
  with_reducible repeat' (first
    | assumption | fail_if_no_progress (refine inv_mk ?_ rfl rfl rfl rfl rfl rfl rfl rfl rfl))

theorem keep_stewardRestart {s : State} (hInv : s.Inv) : (State.stewardRestart s).Inv := by
  unfold State.stewardRestart
  with_reducible repeat' (first
    | assumption | (extract_lets +onlyGivenNames x; have hx : State.Inv x := ?_; (on_goal 1 => clear_value x); (on_goal 2 => subst x))
    | (extract_lets +onlyGivenNames x; first | (have _ : Book := x; subst x) | (have _ : Terr := x; subst x) | (have _ : Ens := x; subst x) | clear_value x)
    | apply keep_stewardWipe | apply keep_closeAll | apply keep_setCore | apply keep_wr | apply keep_sat | apply keep_post | apply keep_stewardCount
    | (refine inv_ite (fun _ => ?_) (fun _ => ?_)) | (split <;> try (rename_i e; replace e := inv_of_eq e ?_))
    | fail_if_no_progress (refine inv_mk ?_ rfl rfl rfl rfl rfl rfl rfl rfl rfl))

theorem keep_emptyServices {s : State} (hInv : s.Inv) : (State.emptyServices s).Inv := by
  unfold State.emptyServices
  with_reducible repeat' (first
    | assumption | apply keep_loseRequests | (refine inv_foldl ?_ (fun _ _ _ => ?_)))

theorem keep_stewardReattach {s : State} (hInv : s.Inv) : (State.stewardReattach s).Inv := by
  unfold State.stewardReattach
  with_reducible repeat' (first
    | assumption | (refine keep_stewardStart ?_ (fun _ _ => ?_)) | apply keep_closeAll | apply keep_emptyServices | (refine inv_ite (fun _ => ?_) (fun _ => ?_))
    | fail_if_no_progress (refine inv_mk ?_ rfl rfl rfl rfl rfl rfl rfl rfl rfl))

theorem keep_recoveredQualify {s : State} {diff : Int} (hInv : s.Inv) : (State.recoveredQualify s diff).Inv := by
  unfold State.recoveredQualify
  with_reducible repeat' (first
    | assumption | (extract_lets +onlyGivenNames x; have hx : State.Inv x := ?_; (on_goal 1 => clear_value x); (on_goal 2 => subst x)) | apply keep_wr | apply keep_postU
    | (refine inv_ite (fun _ => ?_) (fun _ => ?_)))

theorem keep_recoveredLoss {s : State} (hInv : s.Inv) : (State.recoveredLoss s).Inv := by
  unfold State.recoveredLoss
  with_reducible repeat' (first
    | assumption | apply keep_recoveredGone | (refine inv_ite (fun _ => ?_) (fun _ => ?_)))

theorem keep_pllRetry {s : State} (hInv : s.Inv) : (State.pllRetry s).Inv := by
  unfold State.pllRetry
  with_reducible repeat' (first
    | assumption)

theorem keep_powerFailure {s : State} (hInv : s.Inv) : (State.powerFailure s).Inv := by
  unfold State.powerFailure
  with_reducible repeat' (first
    | assumption | (extract_lets +onlyGivenNames x; have hx : State.Inv x := ?_; (on_goal 1 => clear_value x); (on_goal 2 => subst x))
    | (extract_lets +onlyGivenNames x; first | (have _ : Book := x; subst x) | (have _ : Terr := x; subst x) | (have _ : Ens := x; subst x) | clear_value x)
    | apply keep_refreshPins | apply keep_supplySwitch | apply keep_mainReset | (refine inv_ite (fun _ => ?_) (fun _ => ?_))
    | fail_if_no_progress (refine inv_mk ?_ rfl rfl rfl rfl rfl rfl rfl rfl rfl))

theorem keep_auxLoss {s : State} (hInv : s.Inv) : (State.auxLoss s).Inv := by
  unfold State.auxLoss
  with_reducible repeat' (first
    | assumption | apply keep_postU | (refine inv_ite (fun _ => ?_) (fun _ => ?_)) | fail_if_no_progress (refine inv_mk ?_ rfl rfl rfl rfl rfl rfl rfl rfl rfl))

theorem keep_auxReturn {s : State} (hInv : s.Inv) : (State.auxReturn s).Inv := by
  unfold State.auxReturn
  with_reducible repeat' (first
    | assumption | (refine inv_ite (fun _ => ?_) (fun _ => ?_)) | fail_if_no_progress (refine inv_mk ?_ rfl rfl rfl rfl rfl rfl rfl rfl rfl))

theorem keep_aux {s : State} {k : State → State} (hInv : s.Inv) (hk : ∀ x : State, x.Inv → (k x).Inv) : (State.aux s k).Inv := by
  unfold State.aux
  split
  · exact hInv
  · exact hk s hInv

theorem keep_aliveEdge {s : State} (hInv : s.Inv) : (State.aliveEdge s).Inv := by
  unfold State.aliveEdge
  with_reducible repeat' (first
    | assumption | fail_if_no_progress (refine inv_mk ?_ rfl rfl rfl rfl rfl rfl rfl rfl rfl))

theorem keep_awake {s : State} {k : State → State} (hInv : s.Inv) (hk : ∀ x : State, x.Inv → (k x).Inv) : (State.awake s k).Inv := by
  unfold State.awake
  split
  · exact hk s hInv
  · exact hInv

theorem keep_sourceAssert {s : State} {id : Nat} (hInv : s.Inv) : (State.sourceAssert s id).Inv := by
  unfold State.sourceAssert
  with_reducible repeat' (first
    | assumption | apply keep_curtainAssert | (refine inv_ite (fun _ => ?_) (fun _ => ?_)))

theorem keep_supplyEvent {s : State} {g v : Nat} (hInv : s.Inv) : (State.supplyEvent s g v).Inv := by
  unfold State.supplyEvent
  with_reducible repeat' (first
    | assumption | apply keep_checkSupply | fail_if_no_progress (refine inv_mk ?_ rfl rfl rfl rfl rfl rfl rfl rfl rfl))

end Sys2Proof.Machine
end

