-- ==== Sys2Proof/Laws/InvExecA.lean ====
section
/-! SUPPORT. Every command of the families BadgeCmd, BedrockCmd, BookCmd, CartridgeCmd, ChorusCmd, Cues keeps the invariant of the device. -/

set_option maxRecDepth 4000
set_option linter.unusedTactic false
set_option linter.unreachableTactic false

namespace Sys2Proof.Machine

theorem keep_execFieldOn {m : Nat} {s : State} (hInv : s.Inv) : KInv (execFieldOn m s) := by
  unfold execFieldOn
  with_reducible repeat' (first
    | apply kinv_next | assumption | apply keep_store)

theorem keep_execFieldOff {m : Nat} {s : State} (hInv : s.Inv) : KInv (execFieldOff m s) := by
  unfold execFieldOff
  with_reducible repeat' (first
    | apply kinv_next | assumption | apply keep_store)

theorem keep_execActivate {m : Nat} {rate : Nat} {s : State} (hInv : s.Inv) : KInv (execActivate m rate s) := by
  unfold execActivate
  with_reducible repeat' (first
    | apply kinv_next | assumption | apply keep_store)

theorem keep_execExchange {m : Nat} {len : Nat} {s : State} (hInv : s.Inv) : KInv (execExchange m len s) := by
  unfold execExchange
  with_reducible repeat' (first
    | apply kinv_next | assumption | apply keep_store)

theorem keep_execDeselect {m : Nat} {s : State} (hInv : s.Inv) : KInv (execDeselect m s) := by
  unfold execDeselect
  with_reducible repeat' (first
    | apply kinv_next | assumption | apply keep_store)

theorem keep_execReaderOpDone {st : Nat} {rx : List Byte} {badge : Bool} {s : State} (hInv : s.Inv) : KInv (execReaderOpDone st rx badge s) := by
  unfold execReaderOpDone
  with_reducible repeat' (first
    | apply kinv_next | assumption | apply keep_readerDone)

theorem keep_execCarrierIdleOff {s : State} (hInv : s.Inv) : KInv (execCarrierIdleOff s) := by
  unfold execCarrierIdleOff
  with_reducible repeat' (first
    | apply kinv_next | assumption | (refine keep_fire ?_ (fun _ _ => ?_)) | apply keep_carrierIdle)

theorem keep_execDetuningPing {amp : Nat} {s : State} (hInv : s.Inv) : KInv (execDetuningPing amp s) := by
  unfold execDetuningPing
  with_reducible repeat' (first
    | apply kinv_next | assumption | apply keep_ping)

theorem keep_execExtFieldChange {present : Bool} {s : State} (hInv : s.Inv) : KInv (execExtFieldChange present s) := by
  unfold execExtFieldChange
  with_reducible repeat' (first
    | apply kinv_next | assumption | apply keep_fieldChange)

theorem keep_execTagPowerUp {supply : Bool} {s : State} (hInv : s.Inv) : KInv (execTagPowerUp supply s) := by
  unfold execTagPowerUp
  with_reducible repeat' (first
    | apply kinv_next | assumption | apply keep_tagPowerUp)

theorem keep_execReqa {s : State} (hInv : s.Inv) : KInv (execReqa s) := by
  unfold execReqa
  with_reducible repeat' (first
    | apply kinv_next | assumption | apply keep_reqa)

theorem keep_execWupa {s : State} (hInv : s.Inv) : KInv (execWupa s) := by
  unfold execWupa
  with_reducible repeat' (first
    | apply kinv_next | assumption | apply keep_wupa)

theorem keep_execAnticollision {s : State} (hInv : s.Inv) : KInv (execAnticollision s) := by
  unfold execAnticollision
  with_reducible repeat' (first
    | apply kinv_next | assumption | apply keep_anticollision)

theorem keep_execSelect {uid : List Byte} {s : State} (hInv : s.Inv) : KInv (execSelect uid s) := by
  unfold execSelect
  with_reducible repeat' (first
    | apply kinv_next | assumption | apply keep_tagSelect)

theorem keep_execRats {s : State} (hInv : s.Inv) : KInv (execRats s) := by
  unfold execRats
  with_reducible repeat' (first
    | apply kinv_next | assumption | apply keep_rats)

theorem keep_execPps {s : State} (hInv : s.Inv) : KInv (execPps s) := by
  unfold execPps
  with_reducible repeat' (first
    | apply kinv_next | assumption | apply keep_tagPps)

theorem keep_execHlta {s : State} (hInv : s.Inv) : KInv (execHlta s) := by
  unfold execHlta
  with_reducible repeat' (first
    | apply kinv_next | assumption | apply keep_hlta)

theorem keep_execTagDeselect {s : State} (hInv : s.Inv) : KInv (execTagDeselect s) := by
  unfold execTagDeselect
  with_reducible repeat' (first
    | apply kinv_next | assumption | apply keep_tagDeselect)

theorem keep_execTagRead {p : Nat} {n : Nat} {s : State} (hInv : s.Inv) : KInv (execTagRead p n s) := by
  unfold execTagRead
  with_reducible repeat' (first
    | apply kinv_next | assumption | apply keep_tagRead)

theorem keep_execWriteMb {p : Nat} {n : Nat} {data : List Byte} {strong : Bool} {lost : Nat} {s : State} (hInv : s.Inv) : KInv (execWriteMb p n data strong lost s) := by
  unfold execWriteMb
  with_reducible repeat' (first
    | apply kinv_next | assumption | apply keep_writeMb)

theorem keep_execFieldLoss {s : State} (hInv : s.Inv) : KInv (execFieldLoss s) := by
  unfold execFieldLoss
  with_reducible repeat' (first
    | apply kinv_next | assumption | apply keep_fieldLoss)

theorem keep_execHaltSilenceEnd {s : State} (hInv : s.Inv) : KInv (execHaltSilenceEnd s) := by
  unfold execHaltSilenceEnd
  with_reducible repeat' (first
    | apply kinv_next | assumption | apply keep_silenceEnd)

theorem keep_execBadgeTsCommit {m : Nat} {max : Nat} {s : State} (hInv : s.Inv) : KInv (execBadgeTsCommit m max s) := by
  unfold execBadgeTsCommit
  with_reducible repeat' (first
    | apply kinv_next | assumption | apply keep_store)

theorem keep_execBadgeTsAbort {m : Nat} {s : State} (hInv : s.Inv) : KInv (execBadgeTsAbort m s) := by
  unfold execBadgeTsAbort
  with_reducible repeat' (first
    | apply kinv_next | assumption | apply keep_store)

theorem keep_execTsCommitResume {s : State} (hInv : s.Inv) : KInv (execTsCommitResume s) := by
  unfold execTsCommitResume
  with_reducible repeat' (first
    | apply kinv_next | assumption | apply keep_tsResume)

theorem keep_execTsFlip {s : State} (hInv : s.Inv) : KInv (execTsFlip s) := by
  unfold execTsFlip
  with_reducible repeat' (first
    | apply kinv_next | assumption | apply keep_tsFlip)

theorem keep_execBadgeStatRead {m : Nat} {s : State} (hInv : s.Inv) : KInv (execBadgeStatRead m s) := by
  unfold execBadgeStatRead
  with_reducible repeat' (first
    | apply kinv_next | assumption | apply keep_load)

theorem keep_execVddBadgeLoss {s : State} (hInv : s.Inv) : KInv (execVddBadgeLoss s) := by
  unfold execVddBadgeLoss
  with_reducible repeat' (first
    | apply kinv_next | assumption | apply keep_badgeSupplyLoss)

theorem keep_execBrkUnlock {m : Nat} {n : Nat} {w : Word} {s : State} (hInv : s.Inv) : KInv (execBrkUnlock m n w s) := by
  unfold execBrkUnlock
  with_reducible repeat' (first
    | apply kinv_next | assumption | apply keep_store)

theorem keep_execUnlockArmExpiry {n : Nat} {s : State} (hInv : s.Inv) : KInv (execUnlockArmExpiry n s) := by
  unfold execUnlockArmExpiry
  with_reducible repeat' (first
    | apply kinv_next | assumption | (refine keep_fire ?_ (fun _ _ => ?_)) | apply keep_brkDisarm)

theorem keep_execProgram {m : Nat} {n : Nat} {a : Word} {src : Word} {s : State} (hInv : s.Inv) : KInv (execProgram m n a src s) := by
  unfold execProgram
  with_reducible repeat' (first
    | apply kinv_next | assumption | apply keep_store)

theorem keep_execProgramSafe {m : Nat} {n : Nat} {a : Word} {src : Word} {s : State} (hInv : s.Inv) : KInv (execProgramSafe m n a src s) := by
  unfold execProgramSafe
  with_reducible repeat' (first
    | apply kinv_next | assumption | apply keep_store)

theorem keep_execErase {m : Nat} {n : Nat} {a : Word} {s : State} (hInv : s.Inv) : KInv (execErase m n a s) := by
  unfold execErase
  with_reducible repeat' (first
    | apply kinv_next | assumption | apply keep_store)

theorem keep_execInspect {m : Nat} {n : Nat} {a : Word} {s : State} (hInv : s.Inv) : KInv (execInspect m n a s) := by
  unfold execInspect
  with_reducible repeat' (first
    | apply kinv_next | assumption | apply keep_store)

theorem keep_execRefresh {m : Nat} {n : Nat} {a : Word} {s : State} (hInv : s.Inv) : KInv (execRefresh m n a s) := by
  unfold execRefresh
  with_reducible repeat' (first
    | apply kinv_next | assumption | apply keep_store)

theorem keep_execBedrockCmdStart {s : State} (hInv : s.Inv) : KInv (execBedrockCmdStart s) := by
  unfold execBedrockCmdStart
  with_reducible repeat' (first
    | apply kinv_next | assumption | apply keep_brkStart)

theorem keep_execBedrockCmdDone {b : Nat} {ok : Bool} {s : State} (hInv : s.Inv) : KInv (execBedrockCmdDone b ok s) := by
  unfold execBedrockCmdDone
  with_reducible repeat' (first
    | apply kinv_next | assumption | apply keep_bedrockDone)

theorem keep_execEraseResume {b : Nat} {s : State} (hInv : s.Inv) : KInv (execEraseResume b s) := by
  unfold execEraseResume
  with_reducible repeat' (first
    | apply kinv_next | assumption | (refine keep_fire ?_ (fun _ _ => ?_)) | apply keep_brkResume)

theorem keep_execPatrolRead {b : Nat} {blk : Nat} {bits : Nat} {pass : Bool} {s : State} (hInv : s.Inv) : KInv (execPatrolRead b blk bits pass s) := by
  unfold execPatrolRead
  with_reducible repeat' (first
    | apply kinv_next | assumption | apply keep_patrolRead)

theorem keep_execPatrolPop {m : Nat} {s : State} (hInv : s.Inv) : KInv (execPatrolPop m s) := by
  unfold execPatrolPop
  with_reducible repeat' (first
    | apply kinv_next | assumption | apply keep_load)

theorem keep_execBrkEccClear {m : Nat} {w : Word} {s : State} (hInv : s.Inv) : KInv (execBrkEccClear m w s) := by
  unfold execBrkEccClear
  with_reducible repeat' (first
    | apply kinv_next | assumption | apply keep_store)

theorem keep_execRecordEnterRing {s : State} (hInv : s.Inv) : KInv (execRecordEnterRing s) := by
  unfold execRecordEnterRing
  with_reducible repeat' (first
    | apply kinv_next | assumption | apply keep_recordEnter)

theorem keep_execLimitWindowEnd {code : Nat} {src : Nat} {s : State} (hInv : s.Inv) : KInv (execLimitWindowEnd code src s) := by
  unfold execLimitWindowEnd
  with_reducible repeat' (first
    | apply kinv_next | assumption | apply keep_windowEnd)

theorem keep_execArchivePair {s : State} (hInv : s.Inv) : KInv (execArchivePair s) := by
  unfold execArchivePair
  with_reducible repeat' (first
    | apply kinv_next | assumption | apply keep_archivePair)

theorem keep_execRecLatchRead {m : Nat} {r : Nat} {s : State} (hInv : s.Inv) : KInv (execRecLatchRead m r s) := by
  unfold execRecLatchRead
  with_reducible repeat' (first
    | apply kinv_next | assumption | apply keep_load)

theorem keep_execRecFinalRead {m : Nat} {r : Nat} {s : State} (hInv : s.Inv) : KInv (execRecFinalRead m r s) := by
  unfold execRecFinalRead
  with_reducible repeat' (first
    | apply kinv_next | assumption | apply keep_load)

theorem keep_execPbookClear {m : Nat} {upto : Word} {archive : Bool} {s : State} (hInv : s.Inv) : KInv (execPbookClear m upto archive s) := by
  unfold execPbookClear
  with_reducible repeat' (first
    | apply kinv_next | assumption | apply keep_store)

theorem keep_execPbookDropClear {m : Nat} {k : Nat} {w : Word} {s : State} (hInv : s.Inv) : KInv (execPbookDropClear m k w s) := by
  unfold execPbookDropClear
  with_reducible repeat' (first
    | apply kinv_next | assumption | apply keep_store)

theorem keep_execTraceCfgWrite {m : Nat} {w : Word} {s : State} (hInv : s.Inv) : KInv (execTraceCfgWrite m w s) := by
  unfold execTraceCfgWrite
  with_reducible repeat' (first
    | apply kinv_next | assumption | apply keep_store)

theorem keep_execTracePacketSend {s : State} (hInv : s.Inv) : KInv (execTracePacketSend s) := by
  unfold execTracePacketSend
  with_reducible repeat' (first
    | apply kinv_next | assumption | (refine keep_aux ?_ (fun _ _ => ?_)) | apply keep_traceSend)

theorem keep_execObserveCntSnap {m : Nat} {s : State} (hInv : s.Inv) : KInv (execObserveCntSnap m s) := by
  unfold execObserveCntSnap
  with_reducible repeat' (first
    | apply kinv_next | assumption | apply keep_store)

theorem keep_execObserveCntClr {m : Nat} {s : State} (hInv : s.Inv) : KInv (execObserveCntClr m s) := by
  unfold execObserveCntClr
  with_reducible repeat' (first
    | apply kinv_next | assumption | apply keep_store)

theorem keep_execTraceStatClear {m : Nat} {w : Word} {s : State} (hInv : s.Inv) : KInv (execTraceStatClear m w s) := by
  unfold execTraceStatClear
  with_reducible repeat' (first
    | apply kinv_next | assumption | apply keep_store)

theorem keep_execCardInsert {s : State} (hInv : s.Inv) : KInv (execCardInsert s) := by
  unfold execCardInsert
  with_reducible repeat' (first
    | apply kinv_next | assumption | (refine keep_aux ?_ (fun _ _ => ?_)) | apply keep_cardInsert)

theorem keep_execCardRemoval {phase : Nat} {done : Nat} {s : State} (hInv : s.Inv) : KInv (execCardRemoval phase done s) := by
  unfold execCardRemoval
  with_reducible repeat' (first
    | apply kinv_next | assumption | (refine keep_aux ?_ (fun _ _ => ?_)) | apply keep_cardRemoval)

theorem keep_execIdentify {cards : List Word} {extra : Bool} {count : Nat} {medium : List (Nat × List Byte)} {s : State} (hInv : s.Inv) : KInv (execIdentify cards extra count medium s) := by
  unfold execIdentify
  with_reducible repeat' (first
    | apply kinv_next | assumption | (refine keep_aux ?_ (fun _ _ => ?_)) | apply keep_cartIdentify)

theorem keep_execCartRead {m : Nat} {card : Nat} {blocks : Nat} {lba : Word} {buf : Word} {s : State} (hInv : s.Inv) : KInv (execCartRead m card blocks lba buf s) := by
  unfold execCartRead
  with_reducible repeat' (first
    | apply kinv_next | assumption | apply keep_store)

theorem keep_execCartWrite {m : Nat} {card : Nat} {blocks : Nat} {lba : Word} {buf : Word} {s : State} (hInv : s.Inv) : KInv (execCartWrite m card blocks lba buf s) := by
  unfold execCartWrite
  with_reducible repeat' (first
    | apply kinv_next | assumption | apply keep_store)

theorem keep_execCmd13Status {m : Nat} {card : Nat} {s : State} (hInv : s.Inv) : KInv (execCmd13Status m card s) := by
  unfold execCmd13Status
  with_reducible repeat' (first
    | apply kinv_next | assumption | apply keep_store)

theorem keep_execEject {m : Nat} {s : State} (hInv : s.Inv) : KInv (execEject m s) := by
  unfold execEject
  with_reducible repeat' (first
    | apply kinv_next | assumption | apply keep_store)

theorem keep_execCartOpDone {res : Nat} {done : Nat} {data : List Byte} {s : State} (hInv : s.Inv) : KInv (execCartOpDone res done data s) := by
  unfold execCartOpDone
  with_reducible repeat' (first
    | apply kinv_next | assumption | apply keep_cartDone)

theorem keep_execEnc {c : Nat} {fault : Option (Nat × Nat)} {s : State} (hInv : s.Inv) : KInv (execEnc c fault s) := by
  unfold execEnc
  with_reducible repeat' (first
    | apply kinv_next | assumption | apply keep_blockRun)

theorem keep_execDec {c : Nat} {fault : Option (Nat × Nat)} {s : State} (hInv : s.Inv) : KInv (execDec c fault s) := by
  unfold execDec
  with_reducible repeat' (first
    | apply kinv_next | assumption | apply keep_blockRun)

theorem keep_execEncXor {c : Nat} {fault : Option (Nat × Nat)} {s : State} (hInv : s.Inv) : KInv (execEncXor c fault s) := by
  unfold execEncXor
  with_reducible repeat' (first
    | apply kinv_next | assumption | apply keep_blockRun)

theorem keep_execGateOpen {c : Nat} {fault : Option (Nat × Nat)} {s : State} (hInv : s.Inv) : KInv (execGateOpen c fault s) := by
  unfold execGateOpen
  with_reducible repeat' (first
    | apply kinv_next | assumption | (refine keep_jobRun ?_ (fun _ _ _ => ?_)) | apply keep_gateOpen)

theorem keep_execGateCtr {c : Nat} {fault : Option (Nat × Nat)} {s : State} (hInv : s.Inv) : KInv (execGateCtr c fault s) := by
  unfold execGateCtr
  with_reducible repeat' (first
    | apply kinv_next | assumption | apply keep_blockRun)

theorem keep_execGateVerdict {c : Nat} {s : State} (hInv : s.Inv) : KInv (execGateVerdict c s) := by
  unfold execGateVerdict
  with_reducible repeat' (first
    | apply kinv_next | assumption | (refine keep_jobRun ?_ (fun _ _ _ => ?_)) | apply keep_gateVerdict)

theorem keep_execWrap {c : Nat} {fault : Option (Nat × Nat)} {s : State} (hInv : s.Inv) : KInv (execWrap c fault s) := by
  unfold execWrap
  with_reducible repeat' (first
    | apply kinv_next | assumption | (refine keep_jobRun ?_ (fun _ _ _ => ?_)) | apply keep_jobWrap)

theorem keep_execUnwrap {c : Nat} {fault : Option (Nat × Nat)} {s : State} (hInv : s.Inv) : KInv (execUnwrap c fault s) := by
  unfold execUnwrap
  with_reducible repeat' (first
    | apply kinv_next | assumption | (refine keep_jobRun ?_ (fun _ _ _ => ?_)) | apply keep_jobUnwrap)

theorem keep_execCtxSaveClear {c : Nat} {s : State} (hInv : s.Inv) : KInv (execCtxSaveClear c s) := by
  unfold execCtxSaveClear
  with_reducible repeat' (first
    | apply kinv_next | assumption | (refine keep_jobRun ?_ (fun _ _ _ => ?_)) | apply keep_ctxSaveClear)

theorem keep_execCtxSaveWrapped {c : Nat} {fault : Option (Nat × Nat)} {s : State} (hInv : s.Inv) : KInv (execCtxSaveWrapped c fault s) := by
  unfold execCtxSaveWrapped
  with_reducible repeat' (first
    | apply kinv_next | assumption | (refine keep_jobRun ?_ (fun _ _ _ => ?_)) | apply keep_ctxSaveWrapped)

theorem keep_execCtxRestore {c : Nat} {fault : Option (Nat × Nat)} {s : State} (hInv : s.Inv) : KInv (execCtxRestore c fault s) := by
  unfold execCtxRestore
  with_reducible repeat' (first
    | apply kinv_next | assumption | (refine keep_jobRun ?_ (fun _ _ _ => ?_)) | apply keep_ctxRestore)

theorem keep_execChorusJobStart {c : Nat} {agree : Bool} {s : State} (hInv : s.Inv) : KInv (execChorusJobStart c agree s) := by
  unfold execChorusJobStart
  with_reducible repeat' (first
    | apply kinv_next | assumption | apply keep_jobStart | apply keep_settle)

theorem keep_execChorusJobDone {c : Nat} {s : State} (hInv : s.Inv) : KInv (execChorusJobDone c s) := by
  unfold execChorusJobDone
  with_reducible repeat' (first
    | apply kinv_next | assumption | apply keep_jobDone)

theorem keep_execChorusKeyPush {m : Nat} {s : State} (hInv : s.Inv) : KInv (execChorusKeyPush m s) := by
  unfold execChorusKeyPush
  with_reducible repeat' (first
    | apply kinv_next | assumption | apply keep_store)

theorem keep_execChorusKeyErase {m : Nat} {s : State} (hInv : s.Inv) : KInv (execChorusKeyErase m s) := by
  unfold execChorusKeyErase
  with_reducible repeat' (first
    | apply kinv_next | assumption | apply keep_store)

theorem keep_execChorusCntClear {m : Nat} {w : Word} {s : State} (hInv : s.Inv) : KInv (execChorusCntClear m w s) := by
  unfold execChorusCntClear
  with_reducible repeat' (first
    | apply kinv_next | assumption | apply keep_store)

theorem keep_execMark {i : Nat} {s : State} (hInv : s.Inv) : KInv (execMark i s) := by
  unfold execMark
  with_reducible repeat' (first
    | apply kinv_next | assumption | apply keep_dispatch | apply keep_settle)

theorem keep_execCoreIrq {i : Nat} {s : State} (hInv : s.Inv) : KInv (execCoreIrq i s) := by
  unfold execCoreIrq
  with_reducible repeat' (first
    | apply kinv_next | assumption | apply keep_dispatch | apply keep_settle)

theorem keep_execGather {i : Nat} {s : State} (hInv : s.Inv) : KInv (execGather i s) := by
  unfold execGather
  with_reducible repeat' (first
    | apply kinv_next | assumption | apply keep_dispatch | apply keep_settle)

theorem keep_execPinSet {i : Nat} {s : State} (hInv : s.Inv) : KInv (execPinSet i s) := by
  unfold execPinSet
  with_reducible repeat' (first
    | apply kinv_next | assumption | apply keep_dispatch | apply keep_settle)

theorem keep_execCommit {i : Nat} {s : State} (hInv : s.Inv) : KInv (execCommit i s) := by
  unfold execCommit
  with_reducible repeat' (first
    | apply kinv_next | assumption | apply keep_dispatch | apply keep_settle)

theorem keep_execEgressRelease {i : Nat} {s : State} (hInv : s.Inv) : KInv (execEgressRelease i s) := by
  unfold execEgressRelease
  with_reducible repeat' (first
    | apply kinv_next | assumption | apply keep_dispatch | apply keep_settle)

theorem keep_execMirror {i : Nat} {s : State} (hInv : s.Inv) : KInv (execMirror i s) := by
  unfold execMirror
  with_reducible repeat' (first
    | apply kinv_next | assumption | apply keep_dispatch | apply keep_settle)

theorem keep_execQueueKick {i : Nat} {s : State} (hInv : s.Inv) : KInv (execQueueKick i s) := by
  unfold execQueueKick
  with_reducible repeat' (first
    | apply kinv_next | assumption | apply keep_dispatch | apply keep_settle)

theorem keep_execPackerSwap {i : Nat} {s : State} (hInv : s.Inv) : KInv (execPackerSwap i s) := by
  unfold execPackerSwap
  with_reducible repeat' (first
    | apply kinv_next | assumption | apply keep_dispatch | apply keep_settle)

theorem keep_execDoorbell {i : Nat} {s : State} (hInv : s.Inv) : KInv (execDoorbell i s) := by
  unfold execDoorbell
  with_reducible repeat' (first
    | apply kinv_next | assumption | apply keep_dispatch | apply keep_settle)

theorem keep_execStewardJob {i : Nat} {s : State} (hInv : s.Inv) : KInv (execStewardJob i s) := by
  unfold execStewardJob
  with_reducible repeat' (first
    | apply kinv_next | assumption | apply keep_dispatch | apply keep_settle)

theorem keep_execPbookMark {i : Nat} {s : State} (hInv : s.Inv) : KInv (execPbookMark i s) := by
  unfold execPbookMark
  with_reducible repeat' (first
    | apply kinv_next | assumption | apply keep_dispatch | apply keep_settle)

theorem keep_execPreIssueRetry {i : Nat} {s : State} (hInv : s.Inv) : KInv (execPreIssueRetry i s) := by
  unfold execPreIssueRetry
  with_reducible repeat' (first
    | apply kinv_next | assumption | apply keep_retryPre)

theorem keep_execPinCueEffect {p : Nat} {s : State} (hInv : s.Inv) : KInv (execPinCueEffect p s) := by
  unfold execPinCueEffect
  with_reducible repeat' (first
    | apply kinv_next | assumption | apply keep_pinCueDue)

theorem keep_execPulseEnd {p : Nat} {s : State} (hInv : s.Inv) : KInv (execPulseEnd p s) := by
  unfold execPulseEnd
  with_reducible repeat' (first
    | apply kinv_next | assumption | (refine keep_fire ?_ (fun _ _ => ?_)) | apply keep_pulseEnd)

theorem keep_execTicketDeadline {t : Nat} {s : State} (hInv : s.Inv) : KInv (execTicketDeadline t s) := by
  unfold execTicketDeadline
  with_reducible repeat' (first
    | apply kinv_next | assumption | (refine keep_fire ?_ (fun _ _ => ?_)) | apply keep_ticketLate)

theorem keep_execTicketReclaim {t : Nat} {s : State} (hInv : s.Inv) : KInv (execTicketReclaim t s) := by
  unfold execTicketReclaim
  with_reducible repeat' (first
    | apply kinv_next | assumption | apply keep_reclaim)

theorem keep_execCueTicketDone {m : Nat} {t : Nat} {st : Nat} {s : State} (hInv : s.Inv) : KInv (execCueTicketDone m t st s) := by
  unfold execCueTicketDone
  with_reducible repeat' (first
    | apply kinv_next | assumption | apply keep_store)

theorem keep_execCueEditPush {m : Nat} {i : Nat} {s : State} (hInv : s.Inv) : KInv (execCueEditPush m i s) := by
  unfold execCueEditPush
  with_reducible repeat' (first
    | apply kinv_next | assumption | apply keep_store)

theorem keep_execCueEditDelete {m : Nat} {i : Nat} {s : State} (hInv : s.Inv) : KInv (execCueEditDelete m i s) := by
  unfold execCueEditDelete
  with_reducible repeat' (first
    | apply kinv_next | assumption | apply keep_store)

theorem keep_execCueLoadDataWrite {m : Nat} {w : Word} {s : State} (hInv : s.Inv) : KInv (execCueLoadDataWrite m w s) := by
  unfold execCueLoadDataWrite
  with_reducible repeat' (first
    | apply kinv_next | assumption | apply keep_store)

theorem keep_execCueLoadDataRead {m : Nat} {s : State} (hInv : s.Inv) : KInv (execCueLoadDataRead m s) := by
  unfold execCueLoadDataRead
  with_reducible repeat' (first
    | apply kinv_next | assumption | apply keep_load)

theorem keep_execCueRunSet {m : Nat} {s : State} (hInv : s.Inv) : KInv (execCueRunSet m s) := by
  unfold execCueRunSet
  with_reducible repeat' (first
    | apply kinv_next | assumption | apply keep_store)

theorem keep_execCueRunClear {m : Nat} {s : State} (hInv : s.Inv) : KInv (execCueRunClear m s) := by
  unfold execCueRunClear
  with_reducible repeat' (first
    | apply kinv_next | assumption | apply keep_store)

theorem keep_execCueClrCnt {m : Nat} {s : State} (hInv : s.Inv) : KInv (execCueClrCnt m s) := by
  unfold execCueClrCnt
  with_reducible repeat' (first
    | apply kinv_next | assumption | apply keep_store)

end Sys2Proof.Machine
end

