-- ==== Sys2Proof/Laws/InvExecB.lean ====
section
/-! SUPPORT. Every command of the families CurtainCmd, Frame, HostCmd, MassifCmd, Memory keeps the invariant of the device. -/

set_option maxRecDepth 4000
set_option linter.unusedTactic false
set_option linter.unreachableTactic false

namespace Sys2Proof.Machine

theorem keep_execCurtainSourceAssert {id : Nat} {s : State} (hInv : s.Inv) : KInv (execCurtainSourceAssert id s) := by
  unfold execCurtainSourceAssert
  with_reducible repeat' (first
    | apply kinv_next | assumption | apply keep_sourceAssert)

theorem keep_execCurtainZeroDone {s : State} (hInv : s.Inv) : KInv (execCurtainZeroDone s) := by
  unfold execCurtainZeroDone
  with_reducible repeat' (first
    | apply kinv_next | assumption | (refine keep_fire ?_ (fun _ _ => ?_)) | apply keep_curtainZeroDone)

theorem keep_execJunctionTempWarn {hot : Bool} {s : State} (hInv : s.Inv) : KInv (execJunctionTempWarn hot s) := by
  unfold execJunctionTempWarn
  with_reducible repeat' (first
    | apply kinv_next | assumption | (refine keep_awake ?_ (fun _ _ => ?_)) | apply keep_junctionWarn)

theorem keep_execCurtainCfgWrite {m : Nat} {w : Word} {s : State} (hInv : s.Inv) : KInv (execCurtainCfgWrite m w s) := by
  unfold execCurtainCfgWrite
  with_reducible repeat' (first
    | apply kinv_next | assumption | apply keep_store)

theorem keep_execUnlockBodyCheck {body : List Byte} {agree : Bool} {s : State} (hInv : s.Inv) : KInv (execUnlockBodyCheck body agree s) := by
  unfold execUnlockBodyCheck
  with_reducible repeat' (first
    | apply kinv_next | assumption | apply keep_unlockCheck | apply keep_settle)

theorem keep_execUnlockBlockExpiry {s : State} (hInv : s.Inv) : KInv (execUnlockBlockExpiry s) := by
  unfold execUnlockBlockExpiry
  with_reducible repeat' (first
    | apply kinv_next | assumption | (refine keep_fire ?_ (fun _ _ => ?_)) | apply keep_unlockFree)

theorem keep_execDtakeCntClear {m : Nat} {w : Word} {s : State} (hInv : s.Inv) : KInv (execDtakeCntClear m w s) := by
  unfold execDtakeCntClear
  with_reducible repeat' (first
    | apply kinv_next | assumption | apply keep_store)

theorem keep_execRefugeLoopCheck {loop0 : Bool} {loop1 : Bool} {mesh : Bool} {pos : Word} {vbat : Nat} {s : State} (hInv : s.Inv) : KInv (execRefugeLoopCheck loop0 loop1 mesh pos vbat s) := by
  unfold execRefugeLoopCheck
  with_reducible repeat' (first
    | apply kinv_next | assumption | apply keep_refugeCheck)

theorem keep_execRefugeSupplySwitch {s : State} (hInv : s.Inv) : KInv (execRefugeSupplySwitch s) := by
  unfold execRefugeSupplySwitch
  with_reducible repeat' (first
    | apply kinv_next | assumption | apply keep_supplySwitch)

theorem keep_execCellRemoved {mv : Nat} {s : State} (hInv : s.Inv) : KInv (execCellRemoved mv s) := by
  unfold execCellRemoved
  with_reducible repeat' (first
    | apply kinv_next | assumption | apply keep_cellRemoved)

theorem keep_execCellInserted {mv : Nat} {s : State} (hInv : s.Inv) : KInv (execCellInserted mv s) := by
  unfold execCellInserted
  with_reducible repeat' (first
    | apply kinv_next | assumption | apply keep_cellInserted)

theorem keep_execVbatLow {mv : Nat} {s : State} (hInv : s.Inv) : KInv (execVbatLow mv s) := by
  unfold execVbatLow
  with_reducible repeat' (first
    | apply kinv_next | assumption | apply keep_vbatLow)

theorem keep_execRefugeRtcSet {m : Nat} {w : Word} {s : State} (hInv : s.Inv) : KInv (execRefugeRtcSet m w s) := by
  unfold execRefugeRtcSet
  with_reducible repeat' (first
    | apply kinv_next | assumption | apply keep_store)

theorem keep_execRefugeLoopEnable {m : Nat} {w : Word} {s : State} (hInv : s.Inv) : KInv (execRefugeLoopEnable m w s) := by
  unfold execRefugeLoopEnable
  with_reducible repeat' (first
    | apply kinv_next | assumption | apply keep_store)

theorem keep_execLogMarkCopied {m : Nat} {i : Nat} {s : State} (hInv : s.Inv) : KInv (execLogMarkCopied m i s) := by
  unfold execLogMarkCopied
  with_reducible repeat' (first
    | apply kinv_next | assumption | apply keep_store)

theorem keep_execRefugePowerLoss {s : State} (hInv : s.Inv) : KInv (execRefugePowerLoss s) := by
  unfold execRefugePowerLoss
  with_reducible repeat' (first
    | apply kinv_next | assumption | apply keep_refugeLose)

theorem keep_execCurtainSourceClears {id : Nat} {s : State} (hInv : s.Inv) : KInv (execCurtainSourceClears id s) := by
  unfold execCurtainSourceClears
  with_reducible repeat' (first
    | apply kinv_next | assumption | apply keep_curtainClear)

theorem keep_execFrameBoundary {agree : Bool} {s : State} (hInv : s.Inv) : KInv (execFrameBoundary agree s) := by
  unfold execFrameBoundary
  with_reducible repeat' (first
    | apply kinv_next | assumption | apply keep_boundary | apply keep_afterBoundary | apply keep_settle)

theorem keep_execRegisterWrite {m : Nat} {a : Nat} {w : Word} {s : State} (hInv : s.Inv) : KInv (execRegisterWrite m a w s) := by
  unfold execRegisterWrite
  with_reducible repeat' (first
    | apply kinv_next | assumption | apply keep_store)

theorem keep_execModeReqGo {m : Nat} {t : Nat} {s : State} (hInv : s.Inv) : KInv (execModeReqGo m t s) := by
  unfold execModeReqGo
  with_reducible repeat' (first
    | apply kinv_next | assumption | apply keep_store)

theorem keep_execLcAdvWrite {m : Nat} {w : Word} {s : State} (hInv : s.Inv) : KInv (execLcAdvWrite m w s) := by
  unfold execLcAdvWrite
  with_reducible repeat' (first
    | apply kinv_next | assumption | apply keep_store)

theorem keep_execLcProgramDone {s : State} (hInv : s.Inv) : KInv (execLcProgramDone s) := by
  unfold execLcProgramDone
  with_reducible repeat' (first
    | apply kinv_next | assumption | (refine keep_fire ?_ (fun _ _ => ?_)) | apply keep_lcDone)

theorem keep_execCommitGo {m : Nat} {b : Nat} {when_ : Nat} {c : Nat} {s : State} (hInv : s.Inv) : KInv (execCommitGo m b when_ c s) := by
  unfold execCommitGo
  with_reducible repeat' (first
    | apply kinv_next | assumption | apply keep_store)

theorem keep_execCommitAbort {m : Nat} {b : Nat} {s : State} (hInv : s.Inv) : KInv (execCommitAbort m b s) := by
  unfold execCommitAbort
  with_reducible repeat' (first
    | apply kinv_next | assumption | apply keep_store)

theorem keep_execCommitClrcnt {m : Nat} {b : Nat} {s : State} (hInv : s.Inv) : KInv (execCommitClrcnt m b s) := by
  unfold execCommitClrcnt
  with_reducible repeat' (first
    | apply kinv_next | assumption | apply keep_store)

theorem keep_execCommitApply {b : Nat} {s : State} (hInv : s.Inv) : KInv (execCommitApply b s) := by
  unfold execCommitApply
  with_reducible repeat' (first
    | apply kinv_next | assumption | apply keep_commitDue)

theorem keep_execStimeNowRead {m : Nat} {s : State} (hInv : s.Inv) : KInv (execStimeNowRead m s) := by
  unfold execStimeNowRead
  with_reducible repeat' (first
    | apply kinv_next | assumption | apply keep_load)

theorem keep_execStimeFrameRead {m : Nat} {s : State} (hInv : s.Inv) : KInv (execStimeFrameRead m s) := by
  unfold execStimeFrameRead
  with_reducible repeat' (first
    | apply kinv_next | assumption | apply keep_load)

theorem keep_execStimeCoarseRead {m : Nat} {s : State} (hInv : s.Inv) : KInv (execStimeCoarseRead m s) := by
  unfold execStimeCoarseRead
  with_reducible repeat' (first
    | apply kinv_next | assumption | apply keep_load)

theorem keep_execStepGo {m : Nat} {s : State} (hInv : s.Inv) : KInv (execStepGo m s) := by
  unfold execStepGo
  with_reducible repeat' (first
    | apply kinv_next | assumption | apply keep_store)

theorem keep_execServoLossTimeout {s : State} (hInv : s.Inv) : KInv (execServoLossTimeout s) := by
  unfold execServoLossTimeout
  with_reducible repeat' (first
    | apply kinv_next | assumption | (refine keep_fire ?_ (fun _ _ => ?_)) | apply keep_servoLoss)

theorem keep_execHoldLimitExpiry {s : State} (hInv : s.Inv) : KInv (execHoldLimitExpiry s) := by
  unfold execHoldLimitExpiry
  with_reducible repeat' (first
    | apply kinv_next | assumption | (refine keep_fire ?_ (fun _ _ => ?_)) | apply keep_refreshUnsynced)

theorem keep_execServoSrcSwitch {s : State} (hInv : s.Inv) : KInv (execServoSrcSwitch s) := by
  unfold execServoSrcSwitch
  with_reducible repeat' (first
    | apply kinv_next | assumption | apply keep_servoSwitch)

theorem keep_execReadStatus {s : State} (hInv : s.Inv) : KInv (execReadStatus s) := by
  unfold execReadStatus
  with_reducible repeat' (first
    | apply kinv_next | assumption | apply keep_hostReadStatus)

theorem keep_execWrite {packet : List Byte} {s : State} (hInv : s.Inv) : KInv (execWrite packet s) := by
  unfold execWrite
  with_reducible repeat' (first
    | apply kinv_next | assumption | apply keep_hostWrite)

theorem keep_execQwrite {packet : List Byte} {s : State} (hInv : s.Inv) : KInv (execQwrite packet s) := by
  unfold execQwrite
  with_reducible repeat' (first
    | apply kinv_next | assumption | apply keep_hostWrite)

theorem keep_execRead {n : Nat} {s : State} (hInv : s.Inv) : KInv (execRead n s) := by
  unfold execRead
  with_reducible repeat' (first
    | apply kinv_next | assumption | apply keep_hostRead)

theorem keep_execQread {n : Nat} {s : State} (hInv : s.Inv) : KInv (execQread n s) := by
  unfold execQread
  with_reducible repeat' (first
    | apply kinv_next | assumption | apply keep_hostRead)

theorem keep_execHostCntClear {m : Nat} {w : Word} {s : State} (hInv : s.Inv) : KInv (execHostCntClear m w s) := by
  unfold execHostCntClear
  with_reducible repeat' (first
    | apply kinv_next | assumption | apply keep_store)

theorem keep_execCommandExecStart {g : Nat} {s : State} (hInv : s.Inv) : KInv (execCommandExecStart g s) := by
  unfold execCommandExecStart
  with_reducible repeat' (first
    | apply kinv_next | assumption | apply keep_startCmd)

theorem keep_execCommandFinalReply {i : Nat} {ok : Bool} {agree : Bool} {s : State} (hInv : s.Inv) : KInv (execCommandFinalReply i ok agree s) := by
  unfold execCommandFinalReply
  with_reducible repeat' (first
    | apply kinv_next | assumption | apply keep_finalReply | apply keep_settle)

theorem keep_execSessionPendingTimeout {n : Nat} {s : State} (hInv : s.Inv) : KInv (execSessionPendingTimeout n s) := by
  unfold execSessionPendingTimeout
  with_reducible repeat' (first
    | apply kinv_next | assumption | (refine keep_fire ?_ (fun _ _ => ?_)) | apply keep_pendingOver)

theorem keep_execSessionIdleTimeout {n : Nat} {s : State} (hInv : s.Inv) : KInv (execSessionIdleTimeout n s) := by
  unfold execSessionIdleTimeout
  with_reducible repeat' (first
    | apply kinv_next | assumption | (refine keep_fire ?_ (fun _ _ => ?_)) | apply keep_idleOver)

theorem keep_execCmSeedDraw {s : State} (hInv : s.Inv) : KInv (execCmSeedDraw s) := by
  unfold execCmSeedDraw
  with_reducible repeat' (first
    | apply kinv_next | assumption | (refine keep_awake ?_ (fun _ _ => ?_)) | apply keep_cmSeedDraw)

theorem keep_execHashOps {inv : Bool} {parity : Bool} {agree : Bool} {s : State} (hInv : s.Inv) : KInv (execHashOps inv parity agree s) := by
  unfold execHashOps
  with_reducible repeat' (first
    | apply kinv_next | assumption | apply keep_massifRun | apply keep_settle)

theorem keep_execHmacSha256 {inv : Bool} {parity : Bool} {agree : Bool} {s : State} (hInv : s.Inv) : KInv (execHmacSha256 inv parity agree s) := by
  unfold execHmacSha256
  with_reducible repeat' (first
    | apply kinv_next | assumption | apply keep_massifRun | apply keep_settle)

theorem keep_execEcdsaP256 {inv : Bool} {parity : Bool} {agree : Bool} {s : State} (hInv : s.Inv) : KInv (execEcdsaP256 inv parity agree s) := by
  unfold execEcdsaP256
  with_reducible repeat' (first
    | apply kinv_next | assumption | apply keep_massifRun | apply keep_settle)

theorem keep_execEcdsaP384 {inv : Bool} {parity : Bool} {agree : Bool} {s : State} (hInv : s.Inv) : KInv (execEcdsaP384 inv parity agree s) := by
  unfold execEcdsaP384
  with_reducible repeat' (first
    | apply kinv_next | assumption | apply keep_massifRun | apply keep_settle)

theorem keep_execEd25519 {inv : Bool} {parity : Bool} {agree : Bool} {s : State} (hInv : s.Inv) : KInv (execEd25519 inv parity agree s) := by
  unfold execEd25519
  with_reducible repeat' (first
    | apply kinv_next | assumption | apply keep_massifRun | apply keep_settle)

theorem keep_execEcdh {inv : Bool} {parity : Bool} {agree : Bool} {s : State} (hInv : s.Inv) : KInv (execEcdh inv parity agree s) := by
  unfold execEcdh
  with_reducible repeat' (first
    | apply kinv_next | assumption | apply keep_massifRun | apply keep_settle)

theorem keep_execP256Keygen {inv : Bool} {parity : Bool} {agree : Bool} {s : State} (hInv : s.Inv) : KInv (execP256Keygen inv parity agree s) := by
  unfold execP256Keygen
  with_reducible repeat' (first
    | apply kinv_next | assumption | apply keep_massifRun | apply keep_settle)

theorem keep_execMlKem768 {inv : Bool} {parity : Bool} {agree : Bool} {s : State} (hInv : s.Inv) : KInv (execMlKem768 inv parity agree s) := by
  unfold execMlKem768
  with_reducible repeat' (first
    | apply kinv_next | assumption | apply keep_massifRun | apply keep_settle)

theorem keep_execMlKem1024 {inv : Bool} {parity : Bool} {agree : Bool} {s : State} (hInv : s.Inv) : KInv (execMlKem1024 inv parity agree s) := by
  unfold execMlKem1024
  with_reducible repeat' (first
    | apply kinv_next | assumption | apply keep_massifRun | apply keep_settle)

theorem keep_execMlDsa65 {inv : Bool} {parity : Bool} {agree : Bool} {s : State} (hInv : s.Inv) : KInv (execMlDsa65 inv parity agree s) := by
  unfold execMlDsa65
  with_reducible repeat' (first
    | apply kinv_next | assumption | apply keep_massifRun | apply keep_settle)

theorem keep_execMlDsa87 {inv : Bool} {parity : Bool} {agree : Bool} {s : State} (hInv : s.Inv) : KInv (execMlDsa87 inv parity agree s) := by
  unfold execMlDsa87
  with_reducible repeat' (first
    | apply kinv_next | assumption | apply keep_massifRun | apply keep_settle)

theorem keep_execRsaVerify {inv : Bool} {parity : Bool} {agree : Bool} {s : State} (hInv : s.Inv) : KInv (execRsaVerify inv parity agree s) := by
  unfold execRsaVerify
  with_reducible repeat' (first
    | apply kinv_next | assumption | apply keep_massifRun | apply keep_settle)

theorem keep_execRsaPrivate {inv : Bool} {parity : Bool} {agree : Bool} {s : State} (hInv : s.Inv) : KInv (execRsaPrivate inv parity agree s) := by
  unfold execRsaPrivate
  with_reducible repeat' (first
    | apply kinv_next | assumption | apply keep_massifRun | apply keep_settle)

theorem keep_execModexp {inv : Bool} {parity : Bool} {agree : Bool} {s : State} (hInv : s.Inv) : KInv (execModexp inv parity agree s) := by
  unfold execModexp
  with_reducible repeat' (first
    | apply kinv_next | assumption | apply keep_massifRun | apply keep_settle)

theorem keep_execLmsXmssVerify {inv : Bool} {parity : Bool} {agree : Bool} {s : State} (hInv : s.Inv) : KInv (execLmsXmssVerify inv parity agree s) := by
  unfold execLmsXmssVerify
  with_reducible repeat' (first
    | apply kinv_next | assumption | apply keep_massifRun | apply keep_settle)

theorem keep_execDeriveKey {inv : Bool} {parity : Bool} {agree : Bool} {s : State} (hInv : s.Inv) : KInv (execDeriveKey inv parity agree s) := by
  unfold execDeriveKey
  with_reducible repeat' (first
    | apply kinv_next | assumption | apply keep_massifRun | apply keep_settle)

theorem keep_execCombine {inv : Bool} {parity : Bool} {agree : Bool} {s : State} (hInv : s.Inv) : KInv (execCombine inv parity agree s) := by
  unfold execCombine
  with_reducible repeat' (first
    | apply kinv_next | assumption | apply keep_massifRun | apply keep_settle)

theorem keep_execImportKey {inv : Bool} {parity : Bool} {agree : Bool} {s : State} (hInv : s.Inv) : KInv (execImportKey inv parity agree s) := by
  unfold execImportKey
  with_reducible repeat' (first
    | apply kinv_next | assumption | apply keep_massifRun | apply keep_settle)

theorem keep_execMassifErase {inv : Bool} {parity : Bool} {agree : Bool} {s : State} (hInv : s.Inv) : KInv (execMassifErase inv parity agree s) := by
  unfold execMassifErase
  with_reducible repeat' (first
    | apply kinv_next | assumption | apply keep_massifRun | apply keep_settle)

theorem keep_execPublicKey {inv : Bool} {parity : Bool} {agree : Bool} {s : State} (hInv : s.Inv) : KInv (execPublicKey inv parity agree s) := by
  unfold execPublicKey
  with_reducible repeat' (first
    | apply kinv_next | assumption | apply keep_massifRun | apply keep_settle)

theorem keep_execMassifJobStart {c : Nat} {agree : Bool} {s : State} (hInv : s.Inv) : KInv (execMassifJobStart c agree s) := by
  unfold execMassifJobStart
  with_reducible repeat' (first
    | apply kinv_next | assumption | apply keep_massifStart | apply keep_settle)

theorem keep_execLongJobResume {s : State} (hInv : s.Inv) : KInv (execLongJobResume s) := by
  unfold execLongJobResume
  with_reducible repeat' (first
    | apply kinv_next | assumption | apply keep_longResume)

theorem keep_execMassifJobDone {c : Nat} {s : State} (hInv : s.Inv) : KInv (execMassifJobDone c s) := by
  unfold execMassifJobDone
  with_reducible repeat' (first
    | apply kinv_next | assumption | apply keep_massifDone)

theorem keep_execMassifCntClear {m : Nat} {w : Word} {s : State} (hInv : s.Inv) : KInv (execMassifCntClear m w s) := by
  unfold execMassifCntClear
  with_reducible repeat' (first
    | apply kinv_next | assumption | apply keep_store)

theorem keep_execBankWakeDone {n : Nat} {s : State} (hInv : s.Inv) : KInv (execBankWakeDone n s) := by
  unfold execBankWakeDone
  with_reducible repeat' (first
    | apply kinv_next | assumption | (refine keep_fire ?_ (fun _ _ => ?_)) | apply keep_bankWoken)

theorem keep_execBankZeroDone {n : Nat} {s : State} (hInv : s.Inv) : KInv (execBankZeroDone n s) := by
  unfold execBankZeroDone
  with_reducible repeat' (first
    | apply kinv_next | assumption | (refine keep_fire ?_ (fun _ _ => ?_)) | apply keep_bankZeroed)

theorem keep_execBankResumeDone {n : Nat} {s : State} (hInv : s.Inv) : KInv (execBankResumeDone n s) := by
  unfold execBankResumeDone
  with_reducible repeat' (first
    | apply kinv_next | assumption | (refine keep_fire ?_ (fun _ _ => ?_)) | apply keep_bankResumed)

theorem keep_execTerraceRequestServed {reqs : List TReq} {s : State} (hInv : s.Inv) : KInv (execTerraceRequestServed reqs s) := by
  unfold execTerraceRequestServed
  with_reducible repeat' (first
    | apply kinv_next | assumption | apply keep_serveRequest | apply keep_settle)

theorem keep_execEccWriteback {s : State} (hInv : s.Inv) : KInv (execEccWriteback s) := by
  unfold execEccWriteback
  with_reducible repeat' (first
    | apply kinv_next | assumption | apply keep_eccWriteback)

theorem keep_execMirrorLineRead {s : State} (hInv : s.Inv) : KInv (execMirrorLineRead s) := by
  unfold execMirrorLineRead
  with_reducible repeat' (first
    | apply kinv_next | assumption | apply keep_mirrorLineRead)

theorem keep_execRescuedWriteResume {s : State} (hInv : s.Inv) : KInv (execRescuedWriteResume s) := by
  unfold execRescuedWriteResume
  with_reducible repeat' (first
    | apply kinv_next | assumption | apply keep_rescueResume)

theorem keep_execTerraceCntSnap {m : Nat} {s : State} (hInv : s.Inv) : KInv (execTerraceCntSnap m s) := by
  unfold execTerraceCntSnap
  with_reducible repeat' (first
    | apply kinv_next | assumption | apply keep_store)

theorem keep_execTerraceCntClr {m : Nat} {s : State} (hInv : s.Inv) : KInv (execTerraceCntClr m s) := by
  unfold execTerraceCntClr
  with_reducible repeat' (first
    | apply kinv_next | assumption | apply keep_store)

theorem keep_execColViolPop {m : Nat} {s : State} (hInv : s.Inv) : KInv (execColViolPop m s) := by
  unfold execColViolPop
  with_reducible repeat' (first
    | apply kinv_next | assumption | apply keep_load)

end Sys2Proof.Machine
end

