-- ==== Sys2Proof/Laws/InvExecC.lean ====
section
/-! SUPPORT. Every command of the families PacketsA, PacketsB, PinsCmd, Ports, Ridge, ScreeCmd keeps the invariant of the device. -/

set_option maxRecDepth 4000
set_option linter.unusedTactic false
set_option linter.unreachableTactic false

namespace Sys2Proof.Machine

theorem keep_execSessionOpen {s : State} (hInv : s.Inv) : KInv (execSessionOpen s) := by
  unfold execSessionOpen
  with_reducible repeat' (first
    | apply kinv_next | assumption | apply keep_sessionOpen)

theorem keep_execSessionAuth {agree : Bool} {s : State} (hInv : s.Inv) : KInv (execSessionAuth agree s) := by
  unfold execSessionAuth
  with_reducible repeat' (first
    | apply kinv_next | assumption | apply keep_sessionAuth | apply keep_settle)

theorem keep_execSessionClose {s : State} (hInv : s.Inv) : KInv (execSessionClose s) := by
  unfold execSessionClose
  with_reducible repeat' (first
    | apply kinv_next | assumption | apply keep_sessionClose)

theorem keep_execSessionInfo {s : State} (hInv : s.Inv) : KInv (execSessionInfo s) := by
  unfold execSessionInfo
  with_reducible repeat' (first
    | apply kinv_next | assumption | apply keep_sessionInfo)

theorem keep_execPing {s : State} (hInv : s.Inv) : KInv (execPing s) := by
  unfold execPing
  with_reducible repeat' (first
    | apply kinv_next | assumption | apply keep_pingCmd)

theorem keep_execIdGet {s : State} (hInv : s.Inv) : KInv (execIdGet s) := by
  unfold execIdGet
  with_reducible repeat' (first
    | apply kinv_next | assumption | apply keep_idGet)

theorem keep_execIdCert {s : State} (hInv : s.Inv) : KInv (execIdCert s) := by
  unfold execIdCert
  with_reducible repeat' (first
    | apply kinv_next | assumption | apply keep_idCert)

theorem keep_execIdAttest {s : State} (hInv : s.Inv) : KInv (execIdAttest s) := by
  unfold execIdAttest
  with_reducible repeat' (first
    | apply kinv_next | assumption | apply keep_idAttest)

theorem keep_execIdChallenge {s : State} (hInv : s.Inv) : KInv (execIdChallenge s) := by
  unfold execIdChallenge
  with_reducible repeat' (first
    | apply kinv_next | assumption | apply keep_idChallenge)

theorem keep_execImgBegin {s : State} (hInv : s.Inv) : KInv (execImgBegin s) := by
  unfold execImgBegin
  with_reducible repeat' (first
    | apply kinv_next | assumption | apply keep_imgBegin)

theorem keep_execImgWrite {ok : Bool} {s : State} (hInv : s.Inv) : KInv (execImgWrite ok s) := by
  unfold execImgWrite
  with_reducible repeat' (first
    | apply kinv_next | assumption | apply keep_imgWrite)

theorem keep_execImgCommit {s : State} (hInv : s.Inv) : KInv (execImgCommit s) := by
  unfold execImgCommit
  with_reducible repeat' (first
    | apply kinv_next | assumption | apply keep_imgCommit)

theorem keep_execImgSelect {s : State} (hInv : s.Inv) : KInv (execImgSelect s) := by
  unfold execImgSelect
  with_reducible repeat' (first
    | apply kinv_next | assumption | apply keep_imgSelect)

theorem keep_execImgList {s : State} (hInv : s.Inv) : KInv (execImgList s) := by
  unfold execImgList
  with_reducible repeat' (first
    | apply kinv_next | assumption | apply keep_imgList)

theorem keep_execCfgApply {s : State} (hInv : s.Inv) : KInv (execCfgApply s) := by
  unfold execCfgApply
  with_reducible repeat' (first
    | apply kinv_next | assumption | apply keep_cfgApply)

theorem keep_execCfgInfo {s : State} (hInv : s.Inv) : KInv (execCfgInfo s) := by
  unfold execCfgInfo
  with_reducible repeat' (first
    | apply kinv_next | assumption | apply keep_cfgInfo)

theorem keep_execTimeStep {s : State} (hInv : s.Inv) : KInv (execTimeStep s) := by
  unfold execTimeStep
  with_reducible repeat' (first
    | apply kinv_next | assumption | apply keep_timeStep)

theorem keep_execRtcSet {s : State} (hInv : s.Inv) : KInv (execRtcSet s) := by
  unfold execRtcSet
  with_reducible repeat' (first
    | apply kinv_next | assumption | apply keep_rtcSetCmd)

theorem keep_execCueGet {s : State} (hInv : s.Inv) : KInv (execCueGet s) := by
  unfold execCueGet
  with_reducible repeat' (first
    | apply kinv_next | assumption | apply keep_cueGet)

theorem keep_execCuePush {s : State} (hInv : s.Inv) : KInv (execCuePush s) := by
  unfold execCuePush
  with_reducible repeat' (first
    | apply kinv_next | assumption | apply keep_cuePushCmd)

theorem keep_execCueCommit {s : State} (hInv : s.Inv) : KInv (execCueCommit s) := by
  unfold execCueCommit
  with_reducible repeat' (first
    | apply kinv_next | assumption | apply keep_cueCommit)

theorem keep_execCueAbort {s : State} (hInv : s.Inv) : KInv (execCueAbort s) := by
  unfold execCueAbort
  with_reducible repeat' (first
    | apply kinv_next | assumption | apply keep_cueAbort)

theorem keep_execCueStatus {s : State} (hInv : s.Inv) : KInv (execCueStatus s) := by
  unfold execCueStatus
  with_reducible repeat' (first
    | apply kinv_next | assumption | apply keep_cueStatus)

theorem keep_execKeyProvision {ok : Bool} {s : State} (hInv : s.Inv) : KInv (execKeyProvision ok s) := by
  unfold execKeyProvision
  with_reducible repeat' (first
    | apply kinv_next | assumption | apply keep_keyProvision)

theorem keep_execKeyErase {ok : Bool} {s : State} (hInv : s.Inv) : KInv (execKeyErase ok s) := by
  unfold execKeyErase
  with_reducible repeat' (first
    | apply kinv_next | assumption | apply keep_keyErase)

theorem keep_execKeyList {s : State} (hInv : s.Inv) : KInv (execKeyList s) := by
  unfold execKeyList
  with_reducible repeat' (first
    | apply kinv_next | assumption | apply keep_keyList)

theorem keep_execKeyStream {s : State} (hInv : s.Inv) : KInv (execKeyStream s) := by
  unfold execKeyStream
  with_reducible repeat' (first
    | apply kinv_next | assumption | apply keep_keyStream)

theorem keep_execKekRoll {s : State} (hInv : s.Inv) : KInv (execKekRoll s) := by
  unfold execKekRoll
  with_reducible repeat' (first
    | apply kinv_next | assumption | apply keep_kekRoll)

theorem keep_execKdcRelay {s : State} (hInv : s.Inv) : KInv (execKdcRelay s) := by
  unfold execKdcRelay
  with_reducible repeat' (first
    | apply kinv_next | assumption | apply keep_kdcRelay)

theorem keep_execPairRole {s : State} (hInv : s.Inv) : KInv (execPairRole s) := by
  unfold execPairRole
  with_reducible repeat' (first
    | apply kinv_next | assumption | apply keep_pairRole)

theorem keep_execHandover {s : State} (hInv : s.Inv) : KInv (execHandover s) := by
  unfold execHandover
  with_reducible repeat' (first
    | apply kinv_next | assumption | apply keep_handoverCmd)

theorem keep_execPairCtrl {s : State} (hInv : s.Inv) : KInv (execPairCtrl s) := by
  unfold execPairCtrl
  with_reducible repeat' (first
    | apply kinv_next | assumption | apply keep_pairCtrl)

theorem keep_execPairStatus {s : State} (hInv : s.Inv) : KInv (execPairStatus s) := by
  unfold execPairStatus
  with_reducible repeat' (first
    | apply kinv_next | assumption | apply keep_pairStatus)

theorem keep_execTroupeRole {s : State} (hInv : s.Inv) : KInv (execTroupeRole s) := by
  unfold execTroupeRole
  with_reducible repeat' (first
    | apply kinv_next | assumption | apply keep_troupeRole)

theorem keep_execTroupeStatus {s : State} (hInv : s.Inv) : KInv (execTroupeStatus s) := by
  unfold execTroupeStatus
  with_reducible repeat' (first
    | apply kinv_next | assumption | apply keep_troupeStatus)

theorem keep_execRollNow {s : State} (hInv : s.Inv) : KInv (execRollNow s) := by
  unfold execRollNow
  with_reducible repeat' (first
    | apply kinv_next | assumption | apply keep_rollNow)

theorem keep_execIntervalCall {s : State} (hInv : s.Inv) : KInv (execIntervalCall s) := by
  unfold execIntervalCall
  with_reducible repeat' (first
    | apply kinv_next | assumption | apply keep_intervalCmd)

theorem keep_execRelay {s : State} (hInv : s.Inv) : KInv (execRelay s) := by
  unfold execRelay
  with_reducible repeat' (first
    | apply kinv_next | assumption | apply keep_relayCmd)

theorem keep_execRelayTimeout {i : Nat} {s : State} (hInv : s.Inv) : KInv (execRelayTimeout i s) := by
  unfold execRelayTimeout
  with_reducible repeat' (first
    | apply kinv_next | assumption | apply keep_relayTimeout)

theorem keep_execBookRead {s : State} (hInv : s.Inv) : KInv (execBookRead s) := by
  unfold execBookRead
  with_reducible repeat' (first
    | apply kinv_next | assumption | apply keep_bookRead)

theorem keep_execBookArchive {s : State} (hInv : s.Inv) : KInv (execBookArchive s) := by
  unfold execBookArchive
  with_reducible repeat' (first
    | apply kinv_next | assumption | apply keep_bookArchive)

theorem keep_execBookNote {s : State} (hInv : s.Inv) : KInv (execBookNote s) := by
  unfold execBookNote
  with_reducible repeat' (first
    | apply kinv_next | assumption | apply keep_bookNote)

theorem keep_execBookClear {s : State} (hInv : s.Inv) : KInv (execBookClear s) := by
  unfold execBookClear
  with_reducible repeat' (first
    | apply kinv_next | assumption | apply keep_bookClearCmd)

theorem keep_execFileList {s : State} (hInv : s.Inv) : KInv (execFileList s) := by
  unfold execFileList
  with_reducible repeat' (first
    | apply kinv_next | assumption | apply keep_fileList)

theorem keep_execFileRead {ok : Bool} {s : State} (hInv : s.Inv) : KInv (execFileRead ok s) := by
  unfold execFileRead
  with_reducible repeat' (first
    | apply kinv_next | assumption | apply keep_fileRead)

theorem keep_execFileWrite {s : State} (hInv : s.Inv) : KInv (execFileWrite s) := by
  unfold execFileWrite
  with_reducible repeat' (first
    | apply kinv_next | assumption | apply keep_fileWrite)

theorem keep_execFileDelete {ok : Bool} {s : State} (hInv : s.Inv) : KInv (execFileDelete ok s) := by
  unfold execFileDelete
  with_reducible repeat' (first
    | apply kinv_next | assumption | apply keep_fileDelete)

theorem keep_execMediaEject {s : State} (hInv : s.Inv) : KInv (execMediaEject s) := by
  unfold execMediaEject
  with_reducible repeat' (first
    | apply kinv_next | assumption | apply keep_mediaEject)

theorem keep_execStatus {s : State} (hInv : s.Inv) : KInv (execStatus s) := by
  unfold execStatus
  with_reducible repeat' (first
    | apply kinv_next | assumption | apply keep_statusCmd)

theorem keep_execRegRead {s : State} (hInv : s.Inv) : KInv (execRegRead s) := by
  unfold execRegRead
  with_reducible repeat' (first
    | apply kinv_next | assumption | apply keep_regReadCmd)

theorem keep_execSelftest {results : Nat} {s : State} (hInv : s.Inv) : KInv (execSelftest results s) := by
  unfold execSelftest
  with_reducible repeat' (first
    | apply kinv_next | assumption | apply keep_selftestCmd | apply keep_settle)

theorem keep_execTrace {s : State} (hInv : s.Inv) : KInv (execTrace s) := by
  unfold execTrace
  with_reducible repeat' (first
    | apply kinv_next | assumption | apply keep_traceCmd)

theorem keep_execCoreCtrl {s : State} (hInv : s.Inv) : KInv (execCoreCtrl s) := by
  unfold execCoreCtrl
  with_reducible repeat' (first
    | apply kinv_next | assumption | apply keep_coreCtrlCmd)

theorem keep_execCommission {s : State} (hInv : s.Inv) : KInv (execCommission s) := by
  unfold execCommission
  with_reducible repeat' (first
    | apply kinv_next | assumption | apply keep_commission)

theorem keep_execUnlock {verified : Bool} {agree : Bool} {s : State} (hInv : s.Inv) : KInv (execUnlock verified agree s) := by
  unfold execUnlock
  with_reducible repeat' (first
    | apply kinv_next | assumption | apply keep_unlockCmd | apply keep_settle)

theorem keep_execModeReq {s : State} (hInv : s.Inv) : KInv (execModeReq s) := by
  unfold execModeReq
  with_reducible repeat' (first
    | apply kinv_next | assumption | apply keep_modeReqCmd)

theorem keep_execReset {s : State} (hInv : s.Inv) : KInv (execReset s) := by
  unfold execReset
  with_reducible repeat' (first
    | apply kinv_next | assumption | apply keep_resetCmd)

theorem keep_execReturnLc {s : State} (hInv : s.Inv) : KInv (execReturnLc s) := by
  unfold execReturnLc
  with_reducible repeat' (first
    | apply kinv_next | assumption | apply keep_returnCmd)

theorem keep_execDecommission {s : State} (hInv : s.Inv) : KInv (execDecommission s) := by
  unfold execDecommission
  with_reducible repeat' (first
    | apply kinv_next | assumption | apply keep_decommissionCmd)

theorem keep_execIssue {s : State} (hInv : s.Inv) : KInv (execIssue s) := by
  unfold execIssue
  with_reducible repeat' (first
    | apply kinv_next | assumption | apply keep_issueCmd)

theorem keep_execGroupSupplyChange {g : Nat} {v : Nat} {s : State} (hInv : s.Inv) : KInv (execGroupSupplyChange g v s) := by
  unfold execGroupSupplyChange
  with_reducible repeat' (first
    | apply kinv_next | assumption | apply keep_supplyEvent)

theorem keep_execSupplyRestoreDrive {g : Nat} {s : State} (hInv : s.Inv) : KInv (execSupplyRestoreDrive g s) := by
  unfold execSupplyRestoreDrive
  with_reducible repeat' (first
    | apply kinv_next | assumption | (refine keep_fire ?_ (fun _ _ => ?_)) | apply keep_supplyDrive)

theorem keep_execPinInputChange {p : Nat} {level : Option Bool} {frac : Nat} {s : State} (hInv : s.Inv) : KInv (execPinInputChange p level frac s) := by
  unfold execPinInputChange
  with_reducible repeat' (first
    | apply kinv_next | assumption | apply keep_pinExternal)

theorem keep_execEdgeAccept {p : Nat} {s : State} (hInv : s.Inv) : KInv (execEdgeAccept p s) := by
  unfold execEdgeAccept
  with_reducible repeat' (first
    | apply kinv_next | assumption | (refine keep_fire ?_ (fun _ _ => ?_)) | apply keep_filterDone)

theorem keep_execDtVerdict {g : Nat} {s : State} (hInv : s.Inv) : KInv (execDtVerdict g s) := by
  unfold execDtVerdict
  with_reducible repeat' (first
    | apply kinv_next | assumption | apply keep_dtFinish | apply keep_settle)

theorem keep_execTripPairCommit {g : Nat} {s : State} (hInv : s.Inv) : KInv (execTripPairCommit g s) := by
  unfold execTripPairCommit
  with_reducible repeat' (first
    | apply kinv_next | assumption | apply keep_dtCommit)

theorem keep_execReadbackMismatch {p : Nat} {s : State} (hInv : s.Inv) : KInv (execReadbackMismatch p s) := by
  unfold execReadbackMismatch
  with_reducible repeat' (first
    | apply kinv_next | assumption | (refine keep_fire ?_ (fun _ _ => ?_)) | apply keep_rbMismatch)

theorem keep_execPpsOutRise {s : State} (hInv : s.Inv) : KInv (execPpsOutRise s) := by
  unfold execPpsOutRise
  with_reducible repeat' (first
    | apply kinv_next | assumption | apply keep_ppsRise)

theorem keep_execPpsOutFall {s : State} (hInv : s.Inv) : KInv (execPpsOutFall s) := by
  unfold execPpsOutFall
  with_reducible repeat' (first
    | apply kinv_next | assumption | (refine keep_fire ?_ (fun _ _ => ?_)) | apply keep_ppsFall)

theorem keep_execIrigFrameEnd {highs : List Nat} {edge : Nat} {s : State} (hInv : s.Inv) : KInv (execIrigFrameEnd highs edge s) := by
  unfold execIrigFrameEnd
  with_reducible repeat' (first
    | apply kinv_next | assumption | apply keep_irigFrame)

theorem keep_execGrpCntClr {m : Nat} {g : Nat} {s : State} (hInv : s.Inv) : KInv (execGrpCntClr m g s) := by
  unfold execGrpCntClr
  with_reducible repeat' (first
    | apply kinv_next | assumption | apply keep_store)

theorem keep_execLinkCfgWrite {m : Nat} {n : Nat} {w : Word} {s : State} (hInv : s.Inv) : KInv (execLinkCfgWrite m n w s) := by
  unfold execLinkCfgWrite
  with_reducible repeat' (first
    | apply kinv_next | assumption | apply keep_store)

theorem keep_execLinkUp {n : Nat} {ok : Bool} {s : State} (hInv : s.Inv) : KInv (execLinkUp n ok s) := by
  unfold execLinkUp
  with_reducible repeat' (first
    | apply kinv_next | assumption | apply keep_linkRise)

theorem keep_execLinkDown {n : Nat} {midFrame : Bool} {s : State} (hInv : s.Inv) : KInv (execLinkDown n midFrame s) := by
  unfold execLinkDown
  with_reducible repeat' (first
    | apply kinv_next | assumption | apply keep_linkLost | apply keep_settle)

theorem keep_execRxFrame {n : Nat} {frac : Nat} {f : RxFrame} {s : State} (hInv : s.Inv) : KInv (execRxFrame n frac f s) := by
  unfold execRxFrame
  with_reducible repeat' (first
    | apply kinv_next | assumption | apply keep_rxFrame)

theorem keep_execFrameAuthenticate {k : Nat} {mismatches : Nat} {s : State} (hInv : s.Inv) : KInv (execFrameAuthenticate k mismatches s) := by
  unfold execFrameAuthenticate
  with_reducible repeat' (first
    | apply kinv_next | assumption | apply keep_authFrame | apply keep_settle)

theorem keep_execDdEntryAge {p : Nat} {s : State} (hInv : s.Inv) : KInv (execDdEntryAge p s) := by
  unfold execDdEntryAge
  with_reducible repeat' (first
    | apply kinv_next | assumption | apply keep_ddAge)

theorem keep_execSupervisionTx {p : Nat} {s : State} (hInv : s.Inv) : KInv (execSupervisionTx p s) := by
  unfold execSupervisionTx
  with_reducible repeat' (first
    | apply kinv_next | assumption | (refine keep_fire ?_ (fun _ _ => ?_)) | apply keep_supSend)

theorem keep_execSupervisionTimeout {p : Nat} {s : State} (hInv : s.Inv) : KInv (execSupervisionTimeout p s) := by
  unfold execSupervisionTimeout
  with_reducible repeat' (first
    | apply kinv_next | assumption | (refine keep_fire ?_ (fun _ _ => ?_)) | apply keep_supLost)

theorem keep_execEgressQueueTx {n : Nat} {mismatches : Nat} {s : State} (hInv : s.Inv) : KInv (execEgressQueueTx n mismatches s) := by
  unfold execEgressQueueTx
  with_reducible repeat' (first
    | apply kinv_next | assumption | apply keep_egressQueue | apply keep_settle)

theorem keep_execReleaseStart {n : Nat} {mismatches : Nat} {s : State} (hInv : s.Inv) : KInv (execReleaseStart n mismatches s) := by
  unfold execReleaseStart
  with_reducible repeat' (first
    | apply kinv_next | assumption | apply keep_releaseStart | apply keep_settle)

theorem keep_execPtpSyncRx {n : Nat} {frac : Nat} {domain : Nat} {sec : Nat} {ns : Nat} {corr : Int} {s : State} (hInv : s.Inv) : KInv (execPtpSyncRx n frac domain sec ns corr s) := by
  unfold execPtpSyncRx
  with_reducible repeat' (first
    | apply kinv_next | assumption | apply keep_ptpSync | apply keep_gridToPtp)

theorem keep_execPtpSyncTx {n : Nat} {frac : Nat} {s : State} (hInv : s.Inv) : KInv (execPtpSyncTx n frac s) := by
  unfold execPtpSyncTx
  with_reducible repeat' (first
    | apply kinv_next | assumption | (refine keep_fire ?_ (fun _ _ => ?_)) | apply keep_ptpSendSync)

theorem keep_execPdelayReqTx {n : Nat} {frac : Nat} {s : State} (hInv : s.Inv) : KInv (execPdelayReqTx n frac s) := by
  unfold execPdelayReqTx
  with_reducible repeat' (first
    | apply kinv_next | assumption | apply keep_pdelayReq)

theorem keep_execPdelayReqRx {n : Nat} {frac : Nat} {domain : Nat} {asker : List Byte} {turnaround : Nat} {s : State} (hInv : s.Inv) : KInv (execPdelayReqRx n frac domain asker turnaround s) := by
  unfold execPdelayReqRx
  with_reducible repeat' (first
    | apply kinv_next | assumption | apply keep_pdelayAnswer)

theorem keep_execPdelayRespRx {n : Nat} {frac : Nat} {domain : Nat} {turnaround : Int} {s : State} (hInv : s.Inv) : KInv (execPdelayRespRx n frac domain turnaround s) := by
  unfold execPdelayRespRx
  with_reducible repeat' (first
    | apply kinv_next | assumption | apply keep_pdelayResp)

theorem keep_execSyncTimeout {s : State} (hInv : s.Inv) : KInv (execSyncTimeout s) := by
  unfold execSyncTimeout
  with_reducible repeat' (first
    | apply kinv_next | assumption | (refine keep_fire ?_ (fun _ _ => ?_)) | apply keep_irq)

theorem keep_execRedCfgWrite {m : Nat} {p : Nat} {w : Word} {s : State} (hInv : s.Inv) : KInv (execRedCfgWrite m p w s) := by
  unfold execRedCfgWrite
  with_reducible repeat' (first
    | apply kinv_next | assumption | apply keep_store)

theorem keep_execPtpPortWrite {m : Nat} {w : Word} {s : State} (hInv : s.Inv) : KInv (execPtpPortWrite m w s) := by
  unfold execPtpPortWrite
  with_reducible repeat' (first
    | apply kinv_next | assumption | apply keep_store)

theorem keep_execPortCntSnap {m : Nat} {n : Nat} {s : State} (hInv : s.Inv) : KInv (execPortCntSnap m n s) := by
  unfold execPortCntSnap
  with_reducible repeat' (first
    | apply kinv_next | assumption | apply keep_store)

theorem keep_execPortCntClr {m : Nat} {n : Nat} {s : State} (hInv : s.Inv) : KInv (execPortCntClr m n s) := by
  unfold execPortCntClr
  with_reducible repeat' (first
    | apply kinv_next | assumption | apply keep_store)

theorem keep_execSoloistKeyPush {m : Nat} {s : State} (hInv : s.Inv) : KInv (execSoloistKeyPush m s) := by
  unfold execSoloistKeyPush
  with_reducible repeat' (first
    | apply kinv_next | assumption | apply keep_store)

theorem keep_execSoloistKeyErase {m : Nat} {s : State} (hInv : s.Inv) : KInv (execSoloistKeyErase m s) := by
  unfold execSoloistKeyErase
  with_reducible repeat' (first
    | apply kinv_next | assumption | apply keep_store)

theorem keep_execSoloistCntClear {m : Nat} {k : Nat} {w : Word} {s : State} (hInv : s.Inv) : KInv (execSoloistCntClear m k w s) := by
  unfold execSoloistCntClear
  with_reducible repeat' (first
    | apply kinv_next | assumption | apply keep_store)

theorem keep_execSwitchEditPush {m : Nat} {t : Nat} {i : Nat} {s : State} (hInv : s.Inv) : KInv (execSwitchEditPush m t i s) := by
  unfold execSwitchEditPush
  with_reducible repeat' (first
    | apply kinv_next | assumption | apply keep_store)

theorem keep_execSwitchEditDelete {m : Nat} {t : Nat} {i : Nat} {s : State} (hInv : s.Inv) : KInv (execSwitchEditDelete m t i s) := by
  unfold execSwitchEditDelete
  with_reducible repeat' (first
    | apply kinv_next | assumption | apply keep_store)

theorem keep_execTxFrameEnd {n : Nat} {mismatches : Nat} {s : State} (hInv : s.Inv) : KInv (execTxFrameEnd n mismatches s) := by
  unfold execTxFrameEnd
  with_reducible repeat' (first
    | apply kinv_next | assumption | apply keep_txEnd | apply keep_settle)

theorem keep_execBundleIssue {n : Nat} {cycles : Nat} {drains : Nat} {s : State} (hInv : s.Inv) : KInv (execBundleIssue n cycles drains s) := by
  unfold execBundleIssue
  with_reducible repeat' (first
    | apply kinv_next | assumption | apply keep_bundleIssue)

theorem keep_execInterruptEntry {n : Nat} {s : State} (hInv : s.Inv) : KInv (execInterruptEntry n s) := by
  unfold execInterruptEntry
  with_reducible repeat' (first
    | apply kinv_next | assumption | apply keep_interruptEntry)

theorem keep_execWaitResume {n : Nat} {s : State} (hInv : s.Inv) : KInv (execWaitResume n s) := by
  unfold execWaitResume
  with_reducible repeat' (first
    | apply kinv_next | assumption | apply keep_waitResume)

theorem keep_execLateBusError {n : Nat} {s : State} (hInv : s.Inv) : KInv (execLateBusError n s) := by
  unfold execLateBusError
  with_reducible repeat' (first
    | apply kinv_next | assumption | apply keep_drainStore)

theorem keep_execLateErrorPop {m : Nat} {n : Nat} {s : State} (hInv : s.Inv) : KInv (execLateErrorPop m n s) := by
  unfold execLateErrorPop
  with_reducible repeat' (first
    | apply kinv_next | assumption | apply keep_load)

theorem keep_execIrqPendClear {m : Nat} {k : Nat} {w : Word} {s : State} (hInv : s.Inv) : KInv (execIrqPendClear m k w s) := by
  unfold execIrqPendClear
  with_reducible repeat' (first
    | apply kinv_next | assumption | apply keep_store)

theorem keep_execIrqAck {m : Nat} {n : Nat} {w : Word} {s : State} (hInv : s.Inv) : KInv (execIrqAck m n w s) := by
  unfold execIrqAck
  with_reducible repeat' (first
    | apply kinv_next | assumption | apply keep_store)

theorem keep_execIrqDoorbell {m : Nat} {w : Word} {s : State} (hInv : s.Inv) : KInv (execIrqDoorbell m w s) := by
  unfold execIrqDoorbell
  with_reducible repeat' (first
    | apply kinv_next | assumption | apply keep_store)

theorem keep_execIrqRouteWrite {m : Nat} {k : Nat} {w : Word} {s : State} (hInv : s.Inv) : KInv (execIrqRouteWrite m k w s) := by
  unfold execIrqRouteWrite
  with_reducible repeat' (first
    | apply kinv_next | assumption | apply keep_store)

theorem keep_execCoreHold {m : Nat} {n : Nat} {hold : Bool} {s : State} (hInv : s.Inv) : KInv (execCoreHold m n hold s) := by
  unfold execCoreHold
  with_reducible repeat' (first
    | apply kinv_next | assumption | apply keep_store)

theorem keep_execCoreStart {m : Nat} {n : Nat} {pc : Word} {s : State} (hInv : s.Inv) : KInv (execCoreStart m n pc s) := by
  unfold execCoreStart
  with_reducible repeat' (first
    | apply kinv_next | assumption | apply keep_store)

theorem keep_execScreeInst {m : Nat} {s : State} (hInv : s.Inv) : KInv (execScreeInst m s) := by
  unfold execScreeInst
  with_reducible repeat' (first
    | apply kinv_next | assumption | apply keep_store)

theorem keep_execScreeReseed {m : Nat} {s : State} (hInv : s.Inv) : KInv (execScreeReseed m s) := by
  unfold execScreeReseed
  with_reducible repeat' (first
    | apply kinv_next | assumption | apply keep_store)

theorem keep_execScreeClrCnt {m : Nat} {s : State} (hInv : s.Inv) : KInv (execScreeClrCnt m s) := by
  unfold execScreeClrCnt
  with_reducible repeat' (first
    | apply kinv_next | assumption | apply keep_store)

theorem keep_execScreeStartupDone {k : Nat} {s : State} (hInv : s.Inv) : KInv (execScreeStartupDone k s) := by
  unfold execScreeStartupDone
  with_reducible repeat' (first
    | apply kinv_next | assumption | (refine keep_awake ?_ (fun _ _ => ?_)) | apply keep_screeStarted | apply keep_settle)

theorem keep_execSourceHealthFail {k : Nat} {apt : Bool} {s : State} (hInv : s.Inv) : KInv (execSourceHealthFail k apt s) := by
  unfold execSourceHealthFail
  with_reducible repeat' (first
    | apply kinv_next | assumption | (refine keep_awake ?_ (fun _ _ => ?_)) | apply keep_sourceFail | apply keep_settle)

theorem keep_execSourceRetest {k : Nat} {s : State} (hInv : s.Inv) : KInv (execSourceRetest k s) := by
  unfold execSourceRetest
  with_reducible repeat' (first
    | apply kinv_next | assumption | apply keep_sourceRetest | apply keep_settle)

theorem keep_execDrbgReseed {i : Nat} {s : State} (hInv : s.Inv) : KInv (execDrbgReseed i s) := by
  unfold execDrbgReseed
  with_reducible repeat' (first
    | apply kinv_next | assumption | (refine keep_awake ?_ (fun _ _ => ?_)) | apply keep_drbgReseed)

theorem keep_execScreeRandRead {m : Nat} {s : State} (hInv : s.Inv) : KInv (execScreeRandRead m s) := by
  unfold execScreeRandRead
  with_reducible repeat' (first
    | apply kinv_next | assumption | apply keep_load)

theorem keep_execScreeTestData {m : Nat} {w : Word} {s : State} (hInv : s.Inv) : KInv (execScreeTestData m w s) := by
  unfold execScreeTestData
  with_reducible repeat' (first
    | apply kinv_next | assumption | apply keep_store)

end Sys2Proof.Machine
end

