-- ==== Sys2Proof/Laws/InvTroupeGrid.lean ====
section
/-! SUPPORT. Every operation of Machine/TroupeGrid.lean keeps the invariant of the device. -/

set_option maxRecDepth 4000
set_option linter.unusedTactic false
set_option linter.unreachableTactic false

namespace Sys2Proof.Machine

theorem keep_stage8 {s : State} {base a : Nat} {w : Word} (hInv : s.Inv) : (State.stage8 s base a w).Inv := by
  unfold State.stage8
  with_reducible repeat' (first
    | assumption | apply keep_sat | apply keep_setReg | (refine inv_ite (fun _ => ?_) (fun _ => ?_)))

theorem keep_adoptGrid {s : State} {call rate : Nat} (hInv : s.Inv) : (State.adoptGrid s call rate).Inv := by
  unfold State.adoptGrid
  with_reducible repeat' (first
    | assumption | (extract_lets +onlyGivenNames x; have hx : State.Inv x := ?_; (on_goal 1 => clear_value x); (on_goal 2 => subst x))
    | (extract_lets +onlyGivenNames x; first | (have _ : Book := x; subst x) | (have _ : Terr := x; subst x) | (have _ : Ens := x; subst x) | clear_value x)
    | apply keep_stage8 | apply keep_blockGo | (refine inv_ite (fun _ => ?_) (fun _ => ?_)))

theorem keep_callRx {s : State} {h : THead} {call rate epoch : Nat} (hInv : s.Inv) : (State.callRx s h call rate epoch).Inv := by
  unfold State.callRx
  with_reducible repeat' (first
    | assumption | (extract_lets +onlyGivenNames x; have hx : State.Inv x := ?_; (on_goal 1 => clear_value x); (on_goal 2 => subst x))
    | (extract_lets +onlyGivenNames x; first | (have _ : Book := x; subst x) | (have _ : Terr := x; subst x) | (have _ : Ens := x; subst x) | clear_value x)
    | apply keep_troupeRefuse | apply keep_sendAttest | apply keep_troupeAccept | apply keep_directorHeard | apply keep_sendHealth | apply keep_adoptGrid | apply keep_next
    | (refine inv_ite (fun _ => ?_) (fun _ => ?_)) | (split <;> try (rename_i e; replace e := inv_of_eq e ?_))
    | fail_if_no_progress (refine inv_mk ?_ rfl rfl rfl rfl rfl rfl rfl rfl rfl))

end Sys2Proof.Machine
end

