-- ==== Sys2Proof/Laws/InvExecD.lean ====
section
/-! SUPPORT. Every command of the families ServicesCmd, StartUp, TroupeCmd, UnderstudyCmd, WingsCmd keeps the invariant of the device. -/

set_option maxRecDepth 4000
set_option linter.unusedTactic false
set_option linter.unreachableTactic false

namespace Sys2Proof.Machine

theorem keep_execNote {s : State} (hInv : s.Inv) : KInv (execNote s) := by
  unfold execNote
  with_reducible repeat' (first
    | apply kinv_next | assumption | apply keep_svcNote)

theorem keep_execSign {s : State} (hInv : s.Inv) : KInv (execSign s) := by
  unfold execSign
  with_reducible repeat' (first
    | apply kinv_next | assumption | apply keep_svcSign)

theorem keep_execVerify {agree : Bool} {s : State} (hInv : s.Inv) : KInv (execVerify agree s) := by
  unfold execVerify
  with_reducible repeat' (first
    | apply kinv_next | assumption | apply keep_svcVerify | apply keep_settle)

theorem keep_execStore {ok : Bool} {s : State} (hInv : s.Inv) : KInv (execStore ok s) := by
  unfold execStore
  with_reducible repeat' (first
    | apply kinv_next | assumption | apply keep_svcStore)

theorem keep_execLoad {s : State} (hInv : s.Inv) : KInv (execLoad s) := by
  unfold execLoad
  with_reducible repeat' (first
    | apply kinv_next | assumption | apply keep_svcLoad)

theorem keep_execFeed {s : State} (hInv : s.Inv) : KInv (execFeed s) := by
  unfold execFeed
  with_reducible repeat' (first
    | apply kinv_next | assumption | apply keep_svcFeed)

theorem keep_execPatrol {s : State} (hInv : s.Inv) : KInv (execPatrol s) := by
  unfold execPatrol
  with_reducible repeat' (first
    | apply kinv_next | assumption | apply keep_svcPatrol)

theorem keep_execRtcSync {s : State} (hInv : s.Inv) : KInv (execRtcSync s) := by
  unfold execRtcSync
  with_reducible repeat' (first
    | apply kinv_next | assumption | apply keep_svcRtc)

theorem keep_execPowerOnReset {s : State} (hInv : s.Inv) : KInv (execPowerOnReset s) := by
  unfold execPowerOnReset
  with_reducible repeat' (first
    | apply kinv_next | assumption | apply keep_powerOnReset)

theorem keep_execPinReset {s : State} (hInv : s.Inv) : KInv (execPinReset s) := by
  unfold execPinReset
  with_reducible repeat' (first
    | apply kinv_next | assumption | apply keep_pinReset)

theorem keep_execWarmReset {s : State} (hInv : s.Inv) : KInv (execWarmReset s) := by
  unfold execWarmReset
  with_reducible repeat' (first
    | apply kinv_next | assumption | apply keep_warmReset)

theorem keep_execStewardRestart {s : State} (hInv : s.Inv) : KInv (execStewardRestart s) := by
  unfold execStewardRestart
  with_reducible repeat' (first
    | apply kinv_next | assumption | apply keep_stewardRestart)

theorem keep_execStewardReattach {s : State} (hInv : s.Inv) : KInv (execStewardReattach s) := by
  unfold execStewardReattach
  with_reducible repeat' (first
    | apply kinv_next | assumption | apply keep_stewardReattach)

theorem keep_execPowerFailure {s : State} (hInv : s.Inv) : KInv (execPowerFailure s) := by
  unfold execPowerFailure
  with_reducible repeat' (first
    | apply kinv_next | assumption | apply keep_powerFailure)

theorem keep_execAuxSupplyLoss {s : State} (hInv : s.Inv) : KInv (execAuxSupplyLoss s) := by
  unfold execAuxSupplyLoss
  with_reducible repeat' (first
    | apply kinv_next | assumption | apply keep_auxLoss)

theorem keep_execPllLock {s : State} (hInv : s.Inv) : KInv (execPllLock s) := by
  unfold execPllLock
  with_reducible repeat' (first
    | apply kinv_next | assumption | apply keep_pllLock)

theorem keep_execPllLockRetry {s : State} (hInv : s.Inv) : KInv (execPllLockRetry s) := by
  unfold execPllLockRetry
  with_reducible repeat' (first
    | apply kinv_next | assumption | apply keep_pllRetry)

theorem keep_execRecoveredQualify {diff : Int} {s : State} (hInv : s.Inv) : KInv (execRecoveredQualify diff s) := by
  unfold execRecoveredQualify
  with_reducible repeat' (first
    | apply kinv_next | assumption | apply keep_recoveredQualify)

theorem keep_execRecoveredLoss {s : State} (hInv : s.Inv) : KInv (execRecoveredLoss s) := by
  unfold execRecoveredLoss
  with_reducible repeat' (first
    | apply kinv_next | assumption | apply keep_recoveredLoss)

theorem keep_execEarlyActStart {s : State} (hInv : s.Inv) : KInv (execEarlyActStart s) := by
  unfold execEarlyActStart
  with_reducible repeat' (first
    | apply kinv_next | assumption | apply keep_earlyActStart)

theorem keep_execCallAlign {smp : Nat} {arr : Nat} {avg : Nat} {s : State} (hInv : s.Inv) : KInv (execCallAlign smp arr avg s) := by
  unfold execCallAlign
  with_reducible repeat' (first
    | apply kinv_next | assumption | apply keep_callAlign)

theorem keep_execRoleSettlement {s : State} (hInv : s.Inv) : KInv (execRoleSettlement s) := by
  unfold execRoleSettlement
  with_reducible repeat' (first
    | apply kinv_next | assumption | apply keep_roleSettlement)

theorem keep_execVddioAuxReturn {s : State} (hInv : s.Inv) : KInv (execVddioAuxReturn s) := by
  unfold execVddioAuxReturn
  with_reducible repeat' (first
    | apply kinv_next | assumption | apply keep_auxReturn)

theorem keep_execRollCall {s : State} (hInv : s.Inv) : KInv (execRollCall s) := by
  unfold execRollCall
  with_reducible repeat' (first
    | apply kinv_next | assumption | apply keep_rollCall)

theorem keep_execRoll {h : THead} {nonce : Nat} {s : State} (hInv : s.Inv) : KInv (execRoll h nonce s) := by
  unfold execRoll
  with_reducible repeat' (first
    | apply kinv_next | assumption | apply keep_rollRx)

theorem keep_execAttest {h : THead} {payload : List Byte} {sigOk : Bool} {s : State} (hInv : s.Inv) : KInv (execAttest h payload sigOk s) := by
  unfold execAttest
  with_reducible repeat' (first
    | apply kinv_next | assumption | apply keep_attestRx)

theorem keep_execWelcome {h : THead} {hello : List Byte} {wrapped : List Byte} {print : List Byte} {sigOk : Bool} {s : State} (hInv : s.Inv) : KInv (execWelcome h hello wrapped print sigOk s) := by
  unfold execWelcome
  with_reducible repeat' (first
    | apply kinv_next | assumption | apply keep_welcomeRx)

theorem keep_execRollWaitExpiry {s : State} (hInv : s.Inv) : KInv (execRollWaitExpiry s) := by
  unfold execRollWaitExpiry
  with_reducible repeat' (first
    | apply kinv_next | assumption | (refine keep_fire ?_ (fun _ _ => ?_)) | apply keep_rollWaitEnd)

theorem keep_execHealthPeriodTick {s : State} (hInv : s.Inv) : KInv (execHealthPeriodTick s) := by
  unfold execHealthPeriodTick
  with_reducible repeat' (first
    | apply kinv_next | assumption | apply keep_healthPeriod)

theorem keep_execCallBroadcast {h : THead} {call : Nat} {rate : Nat} {epoch : Nat} {s : State} (hInv : s.Inv) : KInv (execCallBroadcast h call rate epoch s) := by
  unfold execCallBroadcast
  with_reducible repeat' (first
    | apply kinv_next | assumption | apply keep_callRx)

theorem keep_execHealth {h : THead} {x : THealth} {s : State} (hInv : s.Inv) : KInv (execHealth h x s) := by
  unfold execHealth
  with_reducible repeat' (first
    | apply kinv_next | assumption | apply keep_healthRx)

theorem keep_execMemberSilent {k : Nat} {s : State} (hInv : s.Inv) : KInv (execMemberSilent k s) := by
  unfold execMemberSilent
  with_reducible repeat' (first
    | apply kinv_next | assumption | apply keep_memberSilent)

theorem keep_execDirectorSilent {s : State} (hInv : s.Inv) : KInv (execDirectorSilent s) := by
  unfold execDirectorSilent
  with_reducible repeat' (first
    | apply kinv_next | assumption | (refine keep_fire ?_ (fun _ _ => ?_)) | apply keep_directorSilent)

theorem keep_execKeySend {entry : Nat} {kid : Nat} {change : Nat} {overlap : Nat} {s : State} (hInv : s.Inv) : KInv (execKeySend entry kid change overlap s) := by
  unfold execKeySend
  with_reducible repeat' (first
    | apply kinv_next | assumption | apply keep_keySend)

theorem keep_execKey {h : THead} {k : TKey} {s : State} (hInv : s.Inv) : KInv (execKey h k s) := by
  unfold execKey
  with_reducible repeat' (first
    | apply kinv_next | assumption | apply keep_troupeKeyRx)

theorem keep_execKeyAck {h : THead} {kid : Nat} {s : State} (hInv : s.Inv) : KInv (execKeyAck h kid s) := by
  unfold execKeyAck
  with_reducible repeat' (first
    | apply kinv_next | assumption | apply keep_keyAckRx)

theorem keep_execKeyRetry {k : Nat} {s : State} (hInv : s.Inv) : KInv (execKeyRetry k s) := by
  unfold execKeyRetry
  with_reducible repeat' (first
    | apply kinv_next | assumption | apply keep_keyRetryDue)

theorem keep_execInterval {h : THead} {mask : Nat} {start : Nat} {stop : Nat} {s : State} (hInv : s.Inv) : KInv (execInterval h mask start stop s) := by
  unfold execInterval
  with_reducible repeat' (first
    | apply kinv_next | assumption | apply keep_intervalRx)

theorem keep_execIntervalAck {h : THead} {code : Nat} {s : State} (hInv : s.Inv) : KInv (execIntervalAck h code s) := by
  unfold execIntervalAck
  with_reducible repeat' (first
    | apply kinv_next | assumption | apply keep_intervalAckRx)

theorem keep_execIntervalStart {agree : Bool} {s : State} (hInv : s.Inv) : KInv (execIntervalStart agree s) := by
  unfold execIntervalStart
  with_reducible repeat' (first
    | apply kinv_next | assumption | apply keep_boundary | apply keep_afterBoundary | apply keep_settle | (refine inv_ite (fun _ => ?_) (fun _ => ?_)))

theorem keep_execIntervalEnd {s : State} (hInv : s.Inv) : KInv (execIntervalEnd s) := by
  unfold execIntervalEnd
  with_reducible repeat' (first
    | apply kinv_next | assumption | apply keep_intervalEnd)

theorem keep_execSummarySend {s : State} (hInv : s.Inv) : KInv (execSummarySend s) := by
  unfold execSummarySend
  with_reducible repeat' (first
    | apply kinv_next | assumption | apply keep_summarySend)

theorem keep_execSummary {h : THead} {recs : List TRec} {s : State} (hInv : s.Inv) : KInv (execSummary h recs s) := by
  unfold execSummary
  with_reducible repeat' (first
    | apply kinv_next | assumption | apply keep_summaryRx)

theorem keep_execCommand {h : THead} {packet : List Byte} {s : State} (hInv : s.Inv) : KInv (execCommand h packet s) := by
  unfold execCommand
  with_reducible repeat' (first
    | apply kinv_next | assumption | apply keep_commandRx)

theorem keep_execTroupeCntClear {m : Nat} {w : Word} {s : State} (hInv : s.Inv) : KInv (execTroupeCntClear m w s) := by
  unfold execTroupeCntClear
  with_reducible repeat' (first
    | apply kinv_next | assumption | apply keep_store)

theorem keep_execLaneUp {n : Nat} {s : State} (hInv : s.Inv) : KInv (execLaneUp n s) := by
  unfold execLaneUp
  with_reducible repeat' (first
    | apply kinv_next | assumption | apply keep_laneUp)

theorem keep_execLaneDown {n : Nat} {s : State} (hInv : s.Inv) : KInv (execLaneDown n s) := by
  unfold execLaneDown
  with_reducible repeat' (first
    | apply kinv_next | assumption | apply keep_laneDown)

theorem keep_execS2Fault {s : State} (hInv : s.Inv) : KInv (execS2Fault s) := by
  unfold execS2Fault
  with_reducible repeat' (first
    | apply kinv_next | assumption | apply keep_s2Fault)

theorem keep_execHello {role : Nat} {body : List Byte} {s : State} (hInv : s.Inv) : KInv (execHello role body s) := by
  unfold execHello
  with_reducible repeat' (first
    | apply kinv_next | assumption | apply keep_helloRx)

theorem keep_execKeyMessage {body : List Byte} {s : State} (hInv : s.Inv) : KInv (execKeyMessage body s) := by
  unfold execKeyMessage
  with_reducible repeat' (first
    | apply kinv_next | assumption | apply keep_keyRx)

theorem keep_execAuth {body : List Byte} {s : State} (hInv : s.Inv) : KInv (execAuth body s) := by
  unfold execAuth
  with_reducible repeat' (first
    | apply kinv_next | assumption | apply keep_authRx)

theorem keep_execPairingKeyed {s : State} (hInv : s.Inv) : KInv (execPairingKeyed s) := by
  unfold execPairingKeyed
  with_reducible repeat' (first
    | apply kinv_next | assumption | apply keep_pairKeyed)

theorem keep_execPairingRetry {s : State} (hInv : s.Inv) : KInv (execPairingRetry s) := by
  unfold execPairingRetry
  with_reducible repeat' (first
    | apply kinv_next | assumption | (refine keep_fire ?_ (fun _ _ => ?_)) | apply keep_pairRetry)

theorem keep_execPulseSend {s : State} (hInv : s.Inv) : KInv (execPulseSend s) := by
  unfold execPulseSend
  with_reducible repeat' (first
    | apply kinv_next | assumption | apply keep_pulseSend)

theorem keep_execPulse {w : Word} {sent : Nat} {delay : Nat} {s : State} (hInv : s.Inv) : KInv (execPulse w sent delay s) := by
  unfold execPulse
  with_reducible repeat' (first
    | apply kinv_next | assumption | apply keep_pulseRx)

theorem keep_execReady {switch : Nat} {s : State} (hInv : s.Inv) : KInv (execReady switch s) := by
  unfold execReady
  with_reducible repeat' (first
    | apply kinv_next | assumption | apply keep_readyRx)

theorem keep_execAbort {s : State} (hInv : s.Inv) : KInv (execAbort s) := by
  unfold execAbort
  with_reducible repeat' (first
    | apply kinv_next | assumption | apply keep_unready)

theorem keep_execCancel {s : State} (hInv : s.Inv) : KInv (execCancel s) := by
  unfold execCancel
  with_reducible repeat' (first
    | apply kinv_next | assumption | apply keep_unready)

theorem keep_execAliveEdge {s : State} (hInv : s.Inv) : KInv (execAliveEdge s) := by
  unfold execAliveEdge
  with_reducible repeat' (first
    | apply kinv_next | assumption | (refine keep_aux ?_ (fun _ _ => ?_)) | apply keep_aliveEdge)

theorem keep_execMirrorTransferEnd {s : State} (hInv : s.Inv) : KInv (execMirrorTransferEnd s) := by
  unfold execMirrorTransferEnd
  with_reducible repeat' (first
    | apply kinv_next | assumption | apply keep_mirrorEnd)

theorem keep_execMirrorRx {msg : MirrorMsg} {sealOk : Bool} {s : State} (hInv : s.Inv) : KInv (execMirrorRx msg sealOk s) := by
  unfold execMirrorRx
  with_reducible repeat' (first
    | apply kinv_next | assumption | apply keep_mirrorRx)

theorem keep_execSealVerify {s : State} (hInv : s.Inv) : KInv (execSealVerify s) := by
  unfold execSealVerify
  with_reducible repeat' (first
    | apply kinv_next | assumption | apply keep_sealVerify)

theorem keep_execMirrorApply {s : State} (hInv : s.Inv) : KInv (execMirrorApply s) := by
  unfold execMirrorApply
  with_reducible repeat' (first
    | apply kinv_next | assumption | apply keep_mirrorApply)

theorem keep_execFailureCheck {s : State} (hInv : s.Inv) : KInv (execFailureCheck s) := by
  unfold execFailureCheck
  with_reducible repeat' (first
    | apply kinv_next | assumption | apply keep_failureCheck)

theorem keep_execTakeover {agree : Bool} {s : State} (hInv : s.Inv) : KInv (execTakeover agree s) := by
  unfold execTakeover
  with_reducible repeat' (first
    | apply kinv_next | assumption | apply keep_takeover | apply keep_settle)

theorem keep_execHandoverCommitCheck {s : State} (hInv : s.Inv) : KInv (execHandoverCommitCheck s) := by
  unfold execHandoverCommitCheck
  with_reducible repeat' (first
    | apply kinv_next | assumption | apply keep_handoverCheck)

theorem keep_execSelftestRun {test : Nat} {pass : Bool} {s : State} (hInv : s.Inv) : KInv (execSelftestRun test pass s) := by
  unfold execSelftestRun
  with_reducible repeat' (first
    | apply kinv_next | assumption | apply keep_selftestRun | apply keep_settle)

theorem keep_execUnderstudyFeed {m : Nat} {s : State} (hInv : s.Inv) : KInv (execUnderstudyFeed m s) := by
  unfold execUnderstudyFeed
  with_reducible repeat' (first
    | apply kinv_next | assumption | apply keep_store)

theorem keep_execUnderstudyJoin {m : Nat} {s : State} (hInv : s.Inv) : KInv (execUnderstudyJoin m s) := by
  unfold execUnderstudyJoin
  with_reducible repeat' (first
    | apply kinv_next | assumption | apply keep_store)

theorem keep_execUnderstudyHandover {m : Nat} {s : State} (hInv : s.Inv) : KInv (execUnderstudyHandover m s) := by
  unfold execUnderstudyHandover
  with_reducible repeat' (first
    | apply kinv_next | assumption | apply keep_store)

theorem keep_execUnderstudyResync {m : Nat} {s : State} (hInv : s.Inv) : KInv (execUnderstudyResync m s) := by
  unfold execUnderstudyResync
  with_reducible repeat' (first
    | apply kinv_next | assumption | apply keep_store)

theorem keep_execUnderstudyUnpair {m : Nat} {s : State} (hInv : s.Inv) : KInv (execUnderstudyUnpair m s) := by
  unfold execUnderstudyUnpair
  with_reducible repeat' (first
    | apply kinv_next | assumption | apply keep_store)

theorem keep_execUnderstudyAckStale {m : Nat} {s : State} (hInv : s.Inv) : KInv (execUnderstudyAckStale m s) := by
  unfold execUnderstudyAckStale
  with_reducible repeat' (first
    | apply kinv_next | assumption | apply keep_store)

theorem keep_execHoldSet {m : Nat} {w : Word} {s : State} (hInv : s.Inv) : KInv (execHoldSet m w s) := by
  unfold execHoldSet
  with_reducible repeat' (first
    | apply kinv_next | assumption | apply keep_store)

theorem keep_execHoldClr {m : Nat} {w : Word} {s : State} (hInv : s.Inv) : KInv (execHoldClr m w s) := by
  unfold execHoldClr
  with_reducible repeat' (first
    | apply kinv_next | assumption | apply keep_store)

theorem keep_execUnderstudyCntClear {m : Nat} {k : Nat} {w : Word} {s : State} (hInv : s.Inv) : KInv (execUnderstudyCntClear m k w s) := by
  unfold execUnderstudyCntClear
  with_reducible repeat' (first
    | apply kinv_next | assumption | apply keep_store)

theorem keep_execMirrorFirstRecordArrives {frame : Nat} {s : State} (hInv : s.Inv) : KInv (execMirrorFirstRecordArrives frame s) := by
  unfold execMirrorFirstRecordArrives
  with_reducible repeat' (first
    | apply kinv_next | assumption | apply keep_mirrorFirst)

theorem keep_execQueueEnable {m : Nat} {q : Nat} {w : Word} {s : State} (hInv : s.Inv) : KInv (execQueueEnable m q w s) := by
  unfold execQueueEnable
  with_reducible repeat' (first
    | apply kinv_next | assumption | apply keep_store)

theorem keep_execQueueDisable {m : Nat} {q : Nat} {w : Word} {s : State} (hInv : s.Inv) : KInv (execQueueDisable m q w s) := by
  unfold execQueueDisable
  with_reducible repeat' (first
    | apply kinv_next | assumption | apply keep_store)

theorem keep_execEnqueueStore {m : Nat} {q : Nat} {d : DWord} {s : State} (hInv : s.Inv) : KInv (execEnqueueStore m q d s) := by
  unfold execEnqueueStore
  with_reducible repeat' (first
    | apply kinv_next | assumption | apply keep_store8)

theorem keep_execCopyEnqueue {m : Nat} {q : Nat} {src : Nat} {len : Nat} {s : State} (hInv : s.Inv) : KInv (execCopyEnqueue m q src len s) := by
  unfold execCopyEnqueue
  with_reducible repeat' (first
    | apply kinv_next | assumption | apply keep_store8)

theorem keep_execCopyEnqueueDone {s : State} (hInv : s.Inv) : KInv (execCopyEnqueueDone s) := by
  unfold execCopyEnqueueDone
  with_reducible repeat' (first
    | apply kinv_next | assumption | apply keep_copyDone)

theorem keep_execEnqueueWindowLoad {m : Nat} {q : Nat} {s : State} (hInv : s.Inv) : KInv (execEnqueueWindowLoad m q s) := by
  unfold execEnqueueWindowLoad
  with_reducible repeat' (first
    | apply kinv_next | assumption | apply keep_load8)

theorem keep_execDequeueLoad {m : Nat} {q : Nat} {s : State} (hInv : s.Inv) : KInv (execDequeueLoad m q s) := by
  unfold execDequeueLoad
  with_reducible repeat' (first
    | apply kinv_next | assumption | apply keep_load8)

theorem keep_execRelease {m : Nat} {q : Nat} {n : Nat} {s : State} (hInv : s.Inv) : KInv (execRelease m q n s) := by
  unfold execRelease
  with_reducible repeat' (first
    | apply kinv_next | assumption | apply keep_store8)

theorem keep_execQueueIdleTimeout {q : Nat} {s : State} (hInv : s.Inv) : KInv (execQueueIdleTimeout q s) := by
  unfold execQueueIdleTimeout
  with_reducible repeat' (first
    | apply kinv_next | assumption | (refine keep_fire ?_ (fun _ _ => ?_)) | apply keep_notifyQueue)

theorem keep_execNotifyPop {m : Nat} {l : Nat} {s : State} (hInv : s.Inv) : KInv (execNotifyPop m l s) := by
  unfold execNotifyPop
  with_reducible repeat' (first
    | apply kinv_next | assumption | apply keep_load)

theorem keep_execWingsErrClr {m : Nat} {s : State} (hInv : s.Inv) : KInv (execWingsErrClr m s) := by
  unfold execWingsErrClr
  with_reducible repeat' (first
    | apply kinv_next | assumption | apply keep_store)

theorem keep_execGatherStart {s : State} (hInv : s.Inv) : KInv (execGatherStart s) := by
  unfold execGatherStart
  with_reducible repeat' (first
    | apply kinv_next | assumption | apply keep_gatherNext)

theorem keep_execGatherComplete {e : Nat} {s : State} (hInv : s.Inv) : KInv (execGatherComplete e s) := by
  unfold execGatherComplete
  with_reducible repeat' (first
    | apply kinv_next | assumption | apply keep_gatherEnd)

theorem keep_execEnsembleCntClr {m : Nat} {e : Nat} {s : State} (hInv : s.Inv) : KInv (execEnsembleCntClr m e s) := by
  unfold execEnsembleCntClr
  with_reducible repeat' (first
    | apply kinv_next | assumption | apply keep_store)

theorem keep_execPackerWrite {m : Nat} {c : Nat} {size : Nat} {d : DWord} {s : State} (hInv : s.Inv) : KInv (execPackerWrite m c size d s) := by
  unfold execPackerWrite
  with_reducible repeat' (first
    | apply kinv_next | assumption | apply keep_storeN)

theorem keep_execPackerCtrlSwap {m : Nat} {c : Nat} {s : State} (hInv : s.Inv) : KInv (execPackerCtrlSwap m c s) := by
  unfold execPackerCtrlSwap
  with_reducible repeat' (first
    | apply kinv_next | assumption | apply keep_store)

theorem keep_execPackerReturn {m : Nat} {c : Nat} {w : Word} {s : State} (hInv : s.Inv) : KInv (execPackerReturn m c w s) := by
  unfold execPackerReturn
  with_reducible repeat' (first
    | apply kinv_next | assumption | apply keep_store)

theorem keep_execPackerCntClear {m : Nat} {c : Nat} {w : Word} {s : State} (hInv : s.Inv) : KInv (execPackerCntClear m c w s) := by
  unfold execPackerCntClear
  with_reducible repeat' (first
    | apply kinv_next | assumption | apply keep_store)

end Sys2Proof.Machine
end

