-- ==== Sys2Proof/Laws/PerInstr.lean ====
section
/-! SUPPORT. Per command: in a well-formed command the operand that names the master of an access names one of the masters 0 to 24 (R32). -/

open Sys2Proof Sys2Proof.Machine

/-- The master whose access a command is; none where the command is an event or a packet. -/
def Sys2Proof.Laws.Fields.masterOf (i : Instr) : Option Nat :=
  match i with
  | .frameBoundary _ => none
  | .registerWrite m _ _ => some m
  | .modeReqGo m _ => some m
  | .lcAdvWrite m _ => some m
  | .lcProgramDone => none
  | .commitGo m _ _ _ => some m
  | .commitAbort m _ => some m
  | .commitClrcnt m _ => some m
  | .commitApply _ => none
  | .stimeNowRead m => some m
  | .stimeFrameRead m => some m
  | .stimeCoarseRead m => some m
  | .stepGo m => some m
  | .servoLossTimeout => none
  | .holdLimitExpiry => none
  | .servoSrcSwitch => none
  | .mark _ => none
  | .coreIrq _ => none
  | .gather _ => none
  | .pinSet _ => none
  | .commit _ => none
  | .egressRelease _ => none
  | .mirror _ => none
  | .queueKick _ => none
  | .packerSwap _ => none
  | .doorbell _ => none
  | .stewardJob _ => none
  | .pbookMark _ => none
  | .preIssueRetry _ => none
  | .pinCueEffect _ => none
  | .pulseEnd _ => none
  | .ticketDeadline _ => none
  | .ticketReclaim _ => none
  | .cueTicketDone m _ _ => some m
  | .cueEditPush m _ => some m
  | .cueEditDelete m _ => some m
  | .cueLoadDataWrite m _ => some m
  | .cueLoadDataRead m => some m
  | .cueRunSet m => some m
  | .cueRunClear m => some m
  | .cueClrCnt m => some m
  | .linkCfgWrite m _ _ => some m
  | .linkUp _ _ => none
  | .linkDown _ _ => none
  | .rxFrame _ _ _ => none
  | .frameAuthenticate _ _ => none
  | .ddEntryAge _ => none
  | .supervisionTx _ => none
  | .supervisionTimeout _ => none
  | .egressQueueTx _ _ => none
  | .releaseStart _ _ => none
  | .ptpSyncRx _ _ _ _ _ _ => none
  | .ptpSyncTx _ _ => none
  | .pdelayReqTx _ _ => none
  | .pdelayReqRx _ _ _ _ _ => none
  | .pdelayRespRx _ _ _ _ => none
  | .syncTimeout => none
  | .redCfgWrite m _ _ => some m
  | .ptpPortWrite m _ => some m
  | .portCntSnap m _ => some m
  | .portCntClr m _ => some m
  | .soloistKeyPush m => some m
  | .soloistKeyErase m => some m
  | .soloistCntClear m _ _ => some m
  | .switchEditPush m _ _ => some m
  | .switchEditDelete m _ _ => some m
  | .queueEnable m _ _ => some m
  | .queueDisable m _ _ => some m
  | .enqueueStore m _ _ => some m
  | .copyEnqueue m _ _ _ => some m
  | .copyEnqueueDone => none
  | .enqueueWindowLoad m _ => some m
  | .dequeueLoad m _ => some m
  | .release m _ _ => some m
  | .queueIdleTimeout _ => none
  | .notifyPop m _ => some m
  | .wingsErrClr m => some m
  | .gatherStart => none
  | .gatherComplete _ => none
  | .ensembleCntClr m _ => some m
  | .packerWrite m _ _ _ => some m
  | .packerCtrlSwap m _ => some m
  | .packerReturn m _ _ => some m
  | .packerCntClear m _ _ => some m
  | .bankWakeDone _ => none
  | .bankZeroDone _ => none
  | .bankResumeDone _ => none
  | .terraceRequestServed _ => none
  | .eccWriteback => none
  | .mirrorLineRead => none
  | .rescuedWriteResume => none
  | .terraceCntSnap m => some m
  | .terraceCntClr m => some m
  | .colViolPop m => some m
  | .bundleIssue _ _ _ => none
  | .interruptEntry _ => none
  | .waitResume _ => none
  | .lateBusError _ => none
  | .lateErrorPop m _ => some m
  | .irqPendClear m _ _ => some m
  | .irqAck m _ _ => some m
  | .irqDoorbell m _ => some m
  | .irqRouteWrite m _ _ => some m
  | .coreHold m _ _ => some m
  | .coreStart m _ _ => some m
  | .groupSupplyChange _ _ => none
  | .supplyRestoreDrive _ => none
  | .pinInputChange _ _ _ => none
  | .edgeAccept _ => none
  | .dtVerdict _ => none
  | .tripPairCommit _ => none
  | .readbackMismatch _ => none
  | .ppsOutRise => none
  | .ppsOutFall => none
  | .irigFrameEnd _ _ => none
  | .grpCntClr m _ => some m
  | .laneUp _ => none
  | .laneDown _ => none
  | .s2Fault => none
  | .hello _ _ => none
  | .keyMessage _ => none
  | .auth _ => none
  | .pairingKeyed => none
  | .pairingRetry => none
  | .pulseSend => none
  | .pulse _ _ _ => none
  | .ready _ => none
  | .abort => none
  | .cancel => none
  | .aliveEdge => none
  | .mirrorTransferEnd => none
  | .mirrorRx _ _ => none
  | .sealVerify => none
  | .mirrorApply => none
  | .failureCheck => none
  | .takeover _ => none
  | .handoverCommitCheck => none
  | .selftestRun _ _ => none
  | .understudyFeed m => some m
  | .understudyJoin m => some m
  | .understudyHandover m => some m
  | .understudyResync m => some m
  | .understudyUnpair m => some m
  | .understudyAckStale m => some m
  | .holdSet m _ => some m
  | .holdClr m _ => some m
  | .understudyCntClear m _ _ => some m
  | .rollCall => none
  | .roll _ _ => none
  | .attest _ _ _ => none
  | .welcome _ _ _ _ _ => none
  | .rollWaitExpiry => none
  | .healthPeriodTick => none
  | .callBroadcast _ _ _ _ => none
  | .health _ _ => none
  | .memberSilent _ => none
  | .directorSilent => none
  | .keySend _ _ _ _ => none
  | .key _ _ => none
  | .keyAck _ _ => none
  | .keyRetry _ => none
  | .interval _ _ _ _ => none
  | .intervalAck _ _ => none
  | .intervalStart _ => none
  | .intervalEnd => none
  | .summarySend => none
  | .summary _ _ => none
  | .command _ _ => none
  | .troupeCntClear m _ => some m
  | .enc _ _ => none
  | .dec _ _ => none
  | .encXor _ _ => none
  | .gateOpen _ _ => none
  | .gateCtr _ _ => none
  | .gateVerdict _ => none
  | .wrap _ _ => none
  | .unwrap _ _ => none
  | .ctxSaveClear _ => none
  | .ctxSaveWrapped _ _ => none
  | .ctxRestore _ _ => none
  | .chorusJobStart _ _ => none
  | .chorusJobDone _ => none
  | .chorusKeyPush m => some m
  | .chorusKeyErase m => some m
  | .chorusCntClear m _ => some m
  | .cmSeedDraw => none
  | .hashOps _ _ _ => none
  | .hmacSha256 _ _ _ => none
  | .ecdsaP256 _ _ _ => none
  | .ecdsaP384 _ _ _ => none
  | .ed25519 _ _ _ => none
  | .ecdh _ _ _ => none
  | .p256Keygen _ _ _ => none
  | .mlKem768 _ _ _ => none
  | .mlKem1024 _ _ _ => none
  | .mlDsa65 _ _ _ => none
  | .mlDsa87 _ _ _ => none
  | .rsaVerify _ _ _ => none
  | .rsaPrivate _ _ _ => none
  | .modexp _ _ _ => none
  | .lmsXmssVerify _ _ _ => none
  | .deriveKey _ _ _ => none
  | .combine _ _ _ => none
  | .importKey _ _ _ => none
  | .massifErase _ _ _ => none
  | .publicKey _ _ _ => none
  | .massifJobStart _ _ => none
  | .longJobResume => none
  | .massifJobDone _ => none
  | .massifCntClear m _ => some m
  | .screeInst m => some m
  | .screeReseed m => some m
  | .screeClrCnt m => some m
  | .screeStartupDone _ => none
  | .sourceHealthFail _ _ => none
  | .sourceRetest _ => none
  | .drbgReseed _ => none
  | .screeRandRead m => some m
  | .screeTestData m _ => some m
  | .curtainSourceAssert _ => none
  | .curtainZeroDone => none
  | .junctionTempWarn _ => none
  | .curtainCfgWrite m _ => some m
  | .unlockBodyCheck _ _ => none
  | .unlockBlockExpiry => none
  | .dtakeCntClear m _ => some m
  | .refugeLoopCheck _ _ _ _ _ => none
  | .refugeSupplySwitch => none
  | .cellRemoved _ => none
  | .cellInserted _ => none
  | .vbatLow _ => none
  | .refugeRtcSet m _ => some m
  | .refugeLoopEnable m _ => some m
  | .logMarkCopied m _ => some m
  | .brkUnlock m _ _ => some m
  | .unlockArmExpiry _ => none
  | .program m _ _ _ => some m
  | .programSafe m _ _ _ => some m
  | .erase m _ _ => some m
  | .inspect m _ _ => some m
  | .refresh m _ _ => some m
  | .bedrockCmdStart => none
  | .bedrockCmdDone _ _ => none
  | .eraseResume _ => none
  | .patrolRead _ _ _ _ => none
  | .patrolPop m => some m
  | .brkEccClear m _ => some m
  | .readStatus => none
  | .write _ => none
  | .qwrite _ => none
  | .read _ => none
  | .qread _ => none
  | .hostCntClear m _ => some m
  | .sessionOpen => none
  | .sessionAuth _ => none
  | .sessionClose => none
  | .sessionInfo => none
  | .ping => none
  | .idGet => none
  | .idCert => none
  | .idAttest => none
  | .idChallenge => none
  | .imgBegin => none
  | .imgWrite _ => none
  | .imgCommit => none
  | .imgSelect => none
  | .imgList => none
  | .cfgApply => none
  | .cfgInfo => none
  | .timeStep => none
  | .rtcSet => none
  | .cueGet => none
  | .cuePush => none
  | .cueCommit => none
  | .cueAbort => none
  | .cueStatus => none
  | .keyProvision _ => none
  | .keyErase _ => none
  | .keyList => none
  | .keyStream => none
  | .kekRoll => none
  | .kdcRelay => none
  | .pairRole => none
  | .handover => none
  | .pairCtrl => none
  | .pairStatus => none
  | .troupeRole => none
  | .troupeStatus => none
  | .rollNow => none
  | .intervalCall => none
  | .relay => none
  | .relayTimeout _ => none
  | .bookRead => none
  | .bookArchive => none
  | .bookNote => none
  | .bookClear => none
  | .fileList => none
  | .fileRead _ => none
  | .fileWrite => none
  | .fileDelete _ => none
  | .mediaEject => none
  | .status => none
  | .regRead => none
  | .selftest _ => none
  | .trace => none
  | .coreCtrl => none
  | .commission => none
  | .unlock _ _ => none
  | .modeReq => none
  | .reset => none
  | .returnLc => none
  | .decommission => none
  | .issue => none
  | .commandExecStart _ => none
  | .commandFinalReply _ _ _ => none
  | .sessionPendingTimeout _ => none
  | .sessionIdleTimeout _ => none
  | .note => none
  | .sign => none
  | .verify _ => none
  | .store _ => none
  | .load => none
  | .feed => none
  | .patrol => none
  | .rtcSync => none
  | .recordEnterRing => none
  | .limitWindowEnd _ _ => none
  | .archivePair => none
  | .recLatchRead m _ => some m
  | .recFinalRead m _ => some m
  | .pbookClear m _ _ => some m
  | .pbookDropClear m _ _ => some m
  | .traceCfgWrite m _ => some m
  | .tracePacketSend => none
  | .observeCntSnap m => some m
  | .observeCntClr m => some m
  | .traceStatClear m _ => some m
  | .fieldOn m => some m
  | .fieldOff m => some m
  | .activate m _ => some m
  | .exchange m _ => some m
  | .deselect m => some m
  | .readerOpDone _ _ _ => none
  | .carrierIdleOff => none
  | .detuningPing _ => none
  | .extFieldChange _ => none
  | .tagPowerUp _ => none
  | .reqa => none
  | .wupa => none
  | .anticollision => none
  | .select _ => none
  | .rats => none
  | .pps => none
  | .hlta => none
  | .tagDeselect => none
  | .tagRead _ _ => none
  | .writeMb _ _ _ _ _ => none
  | .fieldLoss => none
  | .haltSilenceEnd => none
  | .badgeTsCommit m _ => some m
  | .badgeTsAbort m => some m
  | .tsCommitResume => none
  | .tsFlip => none
  | .badgeStatRead m => some m
  | .cardInsert => none
  | .cardRemoval _ _ => none
  | .identify _ _ _ _ => none
  | .cartRead m _ _ _ _ => some m
  | .cartWrite m _ _ _ _ => some m
  | .cmd13Status m _ => some m
  | .eject m => some m
  | .cartOpDone _ _ _ => none
  | .powerOnReset => none
  | .pinReset => none
  | .warmReset => none
  | .stewardRestart => none
  | .stewardReattach => none
  | .powerFailure => none
  | .auxSupplyLoss => none
  | .pllLock => none
  | .pllLockRetry => none
  | .recoveredQualify _ => none
  | .recoveredLoss => none
  | .earlyActStart => none
  | .callAlign _ _ _ => none
  | .roleSettlement => none
  | .txFrameEnd _ _ => none
  | .vddioAuxReturn => none
  | .vddBadgeLoss => none
  | .refugePowerLoss => none
  | .curtainSourceClears _ => none
  | .mirrorFirstRecordArrives _ => none

/-- Well-formed, so its master is one of the 25. -/
def Sys2Proof.Laws.Fields.Statement (i : Instr) : Prop :=
  i.wellFormed = true → ∀ k, Sys2Proof.Laws.Fields.masterOf i = some k → k < 25

theorem Sys2Proof.Laws.Fields.frameBoundary (x0 : Bool) : Sys2Proof.Laws.Fields.Statement (.frameBoundary x0) := fun _ _ e => nomatch e
theorem Sys2Proof.Laws.Fields.registerWrite (m : Nat) (x1 : Nat) (x2 : Word) : Sys2Proof.Laws.Fields.Statement (.registerWrite m x1 x2) := by
  intro hwf mst heq
  have hwf : (decide (m < 25)) = true := hwf
  cases heq
  exact of_decide_eq_true hwf
theorem Sys2Proof.Laws.Fields.modeReqGo (m : Nat) (t : Nat) : Sys2Proof.Laws.Fields.Statement (.modeReqGo m t) := by
  intro hwf mst heq
  have hwf : (decide (m < 25) && decide (t < 8)) = true := hwf
  simp only [Bool.and_eq_true, decide_eq_true_eq] at hwf
  cases heq
  exact hwf.1
theorem Sys2Proof.Laws.Fields.lcAdvWrite (m : Nat) (x1 : Word) : Sys2Proof.Laws.Fields.Statement (.lcAdvWrite m x1) := by
  intro hwf mst heq
  have hwf : (decide (m < 25)) = true := hwf
  cases heq
  exact of_decide_eq_true hwf
theorem Sys2Proof.Laws.Fields.lcProgramDone : Sys2Proof.Laws.Fields.Statement (.lcProgramDone) := fun _ _ e => nomatch e
theorem Sys2Proof.Laws.Fields.commitGo (m : Nat) (b : Nat) (when_ : Nat) (c : Nat) : Sys2Proof.Laws.Fields.Statement (.commitGo m b when_ c) := by
  intro hwf mst heq
  have hwf : (decide (m < 25) && decide (b < 13) && decide (when_ < 4) && decide (c < 16384)) = true := hwf
  simp only [Bool.and_eq_true, decide_eq_true_eq] at hwf
  cases heq
  exact hwf.1.1.1
theorem Sys2Proof.Laws.Fields.commitAbort (m : Nat) (b : Nat) : Sys2Proof.Laws.Fields.Statement (.commitAbort m b) := by
  intro hwf mst heq
  have hwf : (decide (m < 25) && decide (b < 13)) = true := hwf
  simp only [Bool.and_eq_true, decide_eq_true_eq] at hwf
  cases heq
  exact hwf.1
theorem Sys2Proof.Laws.Fields.commitClrcnt (m : Nat) (b : Nat) : Sys2Proof.Laws.Fields.Statement (.commitClrcnt m b) := by
  intro hwf mst heq
  have hwf : (decide (m < 25) && decide (b < 13)) = true := hwf
  simp only [Bool.and_eq_true, decide_eq_true_eq] at hwf
  cases heq
  exact hwf.1
theorem Sys2Proof.Laws.Fields.commitApply (b : Nat) : Sys2Proof.Laws.Fields.Statement (.commitApply b) := fun _ _ e => nomatch e
theorem Sys2Proof.Laws.Fields.stimeNowRead (m : Nat) : Sys2Proof.Laws.Fields.Statement (.stimeNowRead m) := by
  intro hwf mst heq
  have hwf : (decide (m < 25)) = true := hwf
  cases heq
  exact of_decide_eq_true hwf
theorem Sys2Proof.Laws.Fields.stimeFrameRead (m : Nat) : Sys2Proof.Laws.Fields.Statement (.stimeFrameRead m) := by
  intro hwf mst heq
  have hwf : (decide (m < 25)) = true := hwf
  cases heq
  exact of_decide_eq_true hwf
theorem Sys2Proof.Laws.Fields.stimeCoarseRead (m : Nat) : Sys2Proof.Laws.Fields.Statement (.stimeCoarseRead m) := by
  intro hwf mst heq
  have hwf : (decide (m < 25)) = true := hwf
  cases heq
  exact of_decide_eq_true hwf
theorem Sys2Proof.Laws.Fields.stepGo (m : Nat) : Sys2Proof.Laws.Fields.Statement (.stepGo m) := by
  intro hwf mst heq
  have hwf : (decide (m < 25)) = true := hwf
  cases heq
  exact of_decide_eq_true hwf
theorem Sys2Proof.Laws.Fields.servoLossTimeout : Sys2Proof.Laws.Fields.Statement (.servoLossTimeout) := fun _ _ e => nomatch e
theorem Sys2Proof.Laws.Fields.holdLimitExpiry : Sys2Proof.Laws.Fields.Statement (.holdLimitExpiry) := fun _ _ e => nomatch e
theorem Sys2Proof.Laws.Fields.servoSrcSwitch : Sys2Proof.Laws.Fields.Statement (.servoSrcSwitch) := fun _ _ e => nomatch e
theorem Sys2Proof.Laws.Fields.mark (i : Nat) : Sys2Proof.Laws.Fields.Statement (.mark i) := fun _ _ e => nomatch e
theorem Sys2Proof.Laws.Fields.coreIrq (i : Nat) : Sys2Proof.Laws.Fields.Statement (.coreIrq i) := fun _ _ e => nomatch e
theorem Sys2Proof.Laws.Fields.gather (i : Nat) : Sys2Proof.Laws.Fields.Statement (.gather i) := fun _ _ e => nomatch e
theorem Sys2Proof.Laws.Fields.pinSet (i : Nat) : Sys2Proof.Laws.Fields.Statement (.pinSet i) := fun _ _ e => nomatch e
theorem Sys2Proof.Laws.Fields.commit (i : Nat) : Sys2Proof.Laws.Fields.Statement (.commit i) := fun _ _ e => nomatch e
theorem Sys2Proof.Laws.Fields.egressRelease (i : Nat) : Sys2Proof.Laws.Fields.Statement (.egressRelease i) := fun _ _ e => nomatch e
theorem Sys2Proof.Laws.Fields.mirror (i : Nat) : Sys2Proof.Laws.Fields.Statement (.mirror i) := fun _ _ e => nomatch e
theorem Sys2Proof.Laws.Fields.queueKick (i : Nat) : Sys2Proof.Laws.Fields.Statement (.queueKick i) := fun _ _ e => nomatch e
theorem Sys2Proof.Laws.Fields.packerSwap (i : Nat) : Sys2Proof.Laws.Fields.Statement (.packerSwap i) := fun _ _ e => nomatch e
theorem Sys2Proof.Laws.Fields.doorbell (i : Nat) : Sys2Proof.Laws.Fields.Statement (.doorbell i) := fun _ _ e => nomatch e
theorem Sys2Proof.Laws.Fields.stewardJob (i : Nat) : Sys2Proof.Laws.Fields.Statement (.stewardJob i) := fun _ _ e => nomatch e
theorem Sys2Proof.Laws.Fields.pbookMark (i : Nat) : Sys2Proof.Laws.Fields.Statement (.pbookMark i) := fun _ _ e => nomatch e
theorem Sys2Proof.Laws.Fields.preIssueRetry (i : Nat) : Sys2Proof.Laws.Fields.Statement (.preIssueRetry i) := fun _ _ e => nomatch e
theorem Sys2Proof.Laws.Fields.pinCueEffect (p : Nat) : Sys2Proof.Laws.Fields.Statement (.pinCueEffect p) := fun _ _ e => nomatch e
theorem Sys2Proof.Laws.Fields.pulseEnd (p : Nat) : Sys2Proof.Laws.Fields.Statement (.pulseEnd p) := fun _ _ e => nomatch e
theorem Sys2Proof.Laws.Fields.ticketDeadline (t : Nat) : Sys2Proof.Laws.Fields.Statement (.ticketDeadline t) := fun _ _ e => nomatch e
theorem Sys2Proof.Laws.Fields.ticketReclaim (t : Nat) : Sys2Proof.Laws.Fields.Statement (.ticketReclaim t) := fun _ _ e => nomatch e
theorem Sys2Proof.Laws.Fields.cueTicketDone (m : Nat) (t : Nat) (st : Nat) : Sys2Proof.Laws.Fields.Statement (.cueTicketDone m t st) := by
  intro hwf mst heq
  have hwf : (decide (m < 25) && decide (t < 1024) && decide (st < 16)) = true := hwf
  simp only [Bool.and_eq_true, decide_eq_true_eq] at hwf
  cases heq
  exact hwf.1.1
theorem Sys2Proof.Laws.Fields.cueEditPush (m : Nat) (i : Nat) : Sys2Proof.Laws.Fields.Statement (.cueEditPush m i) := by
  intro hwf mst heq
  have hwf : (decide (m < 25) && decide (i < 16384)) = true := hwf
  simp only [Bool.and_eq_true, decide_eq_true_eq] at hwf
  cases heq
  exact hwf.1
theorem Sys2Proof.Laws.Fields.cueEditDelete (m : Nat) (i : Nat) : Sys2Proof.Laws.Fields.Statement (.cueEditDelete m i) := by
  intro hwf mst heq
  have hwf : (decide (m < 25) && decide (i < 16384)) = true := hwf
  simp only [Bool.and_eq_true, decide_eq_true_eq] at hwf
  cases heq
  exact hwf.1
theorem Sys2Proof.Laws.Fields.cueLoadDataWrite (m : Nat) (x1 : Word) : Sys2Proof.Laws.Fields.Statement (.cueLoadDataWrite m x1) := by
  intro hwf mst heq
  have hwf : (decide (m < 25)) = true := hwf
  cases heq
  exact of_decide_eq_true hwf
theorem Sys2Proof.Laws.Fields.cueLoadDataRead (m : Nat) : Sys2Proof.Laws.Fields.Statement (.cueLoadDataRead m) := by
  intro hwf mst heq
  have hwf : (decide (m < 25)) = true := hwf
  cases heq
  exact of_decide_eq_true hwf
theorem Sys2Proof.Laws.Fields.cueRunSet (m : Nat) : Sys2Proof.Laws.Fields.Statement (.cueRunSet m) := by
  intro hwf mst heq
  have hwf : (decide (m < 25)) = true := hwf
  cases heq
  exact of_decide_eq_true hwf
theorem Sys2Proof.Laws.Fields.cueRunClear (m : Nat) : Sys2Proof.Laws.Fields.Statement (.cueRunClear m) := by
  intro hwf mst heq
  have hwf : (decide (m < 25)) = true := hwf
  cases heq
  exact of_decide_eq_true hwf
theorem Sys2Proof.Laws.Fields.cueClrCnt (m : Nat) : Sys2Proof.Laws.Fields.Statement (.cueClrCnt m) := by
  intro hwf mst heq
  have hwf : (decide (m < 25)) = true := hwf
  cases heq
  exact of_decide_eq_true hwf
theorem Sys2Proof.Laws.Fields.linkCfgWrite (m : Nat) (n : Nat) (x2 : Word) : Sys2Proof.Laws.Fields.Statement (.linkCfgWrite m n x2) := by
  intro hwf mst heq
  have hwf : (decide (m < 25) && decide (n < 4)) = true := hwf
  simp only [Bool.and_eq_true, decide_eq_true_eq] at hwf
  cases heq
  exact hwf.1
theorem Sys2Proof.Laws.Fields.linkUp (n : Nat) (x1 : Bool) : Sys2Proof.Laws.Fields.Statement (.linkUp n x1) := fun _ _ e => nomatch e
theorem Sys2Proof.Laws.Fields.linkDown (n : Nat) (x1 : Bool) : Sys2Proof.Laws.Fields.Statement (.linkDown n x1) := fun _ _ e => nomatch e
theorem Sys2Proof.Laws.Fields.rxFrame (n : Nat) (frac : Nat) (x2 : RxFrame) : Sys2Proof.Laws.Fields.Statement (.rxFrame n frac x2) := fun _ _ e => nomatch e
theorem Sys2Proof.Laws.Fields.frameAuthenticate (k : Nat) (mismatches : Nat) : Sys2Proof.Laws.Fields.Statement (.frameAuthenticate k mismatches) := fun _ _ e => nomatch e
theorem Sys2Proof.Laws.Fields.ddEntryAge (p : Nat) : Sys2Proof.Laws.Fields.Statement (.ddEntryAge p) := fun _ _ e => nomatch e
theorem Sys2Proof.Laws.Fields.supervisionTx (p : Nat) : Sys2Proof.Laws.Fields.Statement (.supervisionTx p) := fun _ _ e => nomatch e
theorem Sys2Proof.Laws.Fields.supervisionTimeout (p : Nat) : Sys2Proof.Laws.Fields.Statement (.supervisionTimeout p) := fun _ _ e => nomatch e
theorem Sys2Proof.Laws.Fields.egressQueueTx (n : Nat) (mismatches : Nat) : Sys2Proof.Laws.Fields.Statement (.egressQueueTx n mismatches) := fun _ _ e => nomatch e
theorem Sys2Proof.Laws.Fields.releaseStart (n : Nat) (mismatches : Nat) : Sys2Proof.Laws.Fields.Statement (.releaseStart n mismatches) := fun _ _ e => nomatch e
theorem Sys2Proof.Laws.Fields.ptpSyncRx (n : Nat) (frac : Nat) (domain : Nat) (x3 : Nat) (x4 : Nat) (x5 : Int) : Sys2Proof.Laws.Fields.Statement (.ptpSyncRx n frac domain x3 x4 x5) := fun _ _ e => nomatch e
theorem Sys2Proof.Laws.Fields.ptpSyncTx (n : Nat) (frac : Nat) : Sys2Proof.Laws.Fields.Statement (.ptpSyncTx n frac) := fun _ _ e => nomatch e
theorem Sys2Proof.Laws.Fields.pdelayReqTx (n : Nat) (frac : Nat) : Sys2Proof.Laws.Fields.Statement (.pdelayReqTx n frac) := fun _ _ e => nomatch e
theorem Sys2Proof.Laws.Fields.pdelayReqRx (n : Nat) (frac : Nat) (domain : Nat) (asker : List Byte) (x4 : Nat) : Sys2Proof.Laws.Fields.Statement (.pdelayReqRx n frac domain asker x4) := fun _ _ e => nomatch e
theorem Sys2Proof.Laws.Fields.pdelayRespRx (n : Nat) (frac : Nat) (domain : Nat) (x3 : Int) : Sys2Proof.Laws.Fields.Statement (.pdelayRespRx n frac domain x3) := fun _ _ e => nomatch e
theorem Sys2Proof.Laws.Fields.syncTimeout : Sys2Proof.Laws.Fields.Statement (.syncTimeout) := fun _ _ e => nomatch e
theorem Sys2Proof.Laws.Fields.redCfgWrite (m : Nat) (p : Nat) (x2 : Word) : Sys2Proof.Laws.Fields.Statement (.redCfgWrite m p x2) := by
  intro hwf mst heq
  have hwf : (decide (m < 25) && decide (p < 2)) = true := hwf
  simp only [Bool.and_eq_true, decide_eq_true_eq] at hwf
  cases heq
  exact hwf.1
theorem Sys2Proof.Laws.Fields.ptpPortWrite (m : Nat) (x1 : Word) : Sys2Proof.Laws.Fields.Statement (.ptpPortWrite m x1) := by
  intro hwf mst heq
  have hwf : (decide (m < 25)) = true := hwf
  cases heq
  exact of_decide_eq_true hwf
theorem Sys2Proof.Laws.Fields.portCntSnap (m : Nat) (n : Nat) : Sys2Proof.Laws.Fields.Statement (.portCntSnap m n) := by
  intro hwf mst heq
  have hwf : (decide (m < 25) && decide (n < 4)) = true := hwf
  simp only [Bool.and_eq_true, decide_eq_true_eq] at hwf
  cases heq
  exact hwf.1
theorem Sys2Proof.Laws.Fields.portCntClr (m : Nat) (n : Nat) : Sys2Proof.Laws.Fields.Statement (.portCntClr m n) := by
  intro hwf mst heq
  have hwf : (decide (m < 25) && decide (n < 4)) = true := hwf
  simp only [Bool.and_eq_true, decide_eq_true_eq] at hwf
  cases heq
  exact hwf.1
theorem Sys2Proof.Laws.Fields.soloistKeyPush (m : Nat) : Sys2Proof.Laws.Fields.Statement (.soloistKeyPush m) := by
  intro hwf mst heq
  have hwf : (decide (m < 25)) = true := hwf
  cases heq
  exact of_decide_eq_true hwf
theorem Sys2Proof.Laws.Fields.soloistKeyErase (m : Nat) : Sys2Proof.Laws.Fields.Statement (.soloistKeyErase m) := by
  intro hwf mst heq
  have hwf : (decide (m < 25)) = true := hwf
  cases heq
  exact of_decide_eq_true hwf
theorem Sys2Proof.Laws.Fields.soloistCntClear (m : Nat) (k : Nat) (x2 : Word) : Sys2Proof.Laws.Fields.Statement (.soloistCntClear m k x2) := by
  intro hwf mst heq
  have hwf : (decide (m < 25) && decide (k < 3)) = true := hwf
  simp only [Bool.and_eq_true, decide_eq_true_eq] at hwf
  cases heq
  exact hwf.1
theorem Sys2Proof.Laws.Fields.switchEditPush (m : Nat) (t : Nat) (i : Nat) : Sys2Proof.Laws.Fields.Statement (.switchEditPush m t i) := by
  intro hwf mst heq
  have hwf : (decide (m < 25) && decide (t < 8) && decide (i < 16384)) = true := hwf
  simp only [Bool.and_eq_true, decide_eq_true_eq] at hwf
  cases heq
  exact hwf.1.1
theorem Sys2Proof.Laws.Fields.switchEditDelete (m : Nat) (t : Nat) (i : Nat) : Sys2Proof.Laws.Fields.Statement (.switchEditDelete m t i) := by
  intro hwf mst heq
  have hwf : (decide (m < 25) && decide (t < 8) && decide (i < 16384)) = true := hwf
  simp only [Bool.and_eq_true, decide_eq_true_eq] at hwf
  cases heq
  exact hwf.1.1
theorem Sys2Proof.Laws.Fields.queueEnable (m : Nat) (q : Nat) (x2 : Word) : Sys2Proof.Laws.Fields.Statement (.queueEnable m q x2) := by
  intro hwf mst heq
  have hwf : (decide (m < 25) && decide (q < 262144)) = true := hwf
  simp only [Bool.and_eq_true, decide_eq_true_eq] at hwf
  cases heq
  exact hwf.1
theorem Sys2Proof.Laws.Fields.queueDisable (m : Nat) (q : Nat) (x2 : Word) : Sys2Proof.Laws.Fields.Statement (.queueDisable m q x2) := by
  intro hwf mst heq
  have hwf : (decide (m < 25) && decide (q < 262144)) = true := hwf
  simp only [Bool.and_eq_true, decide_eq_true_eq] at hwf
  cases heq
  exact hwf.1
theorem Sys2Proof.Laws.Fields.enqueueStore (m : Nat) (q : Nat) (x2 : DWord) : Sys2Proof.Laws.Fields.Statement (.enqueueStore m q x2) := by
  intro hwf mst heq
  have hwf : (decide (m < 25) && decide (q < 262144)) = true := hwf
  simp only [Bool.and_eq_true, decide_eq_true_eq] at hwf
  cases heq
  exact hwf.1
theorem Sys2Proof.Laws.Fields.copyEnqueue (m : Nat) (q : Nat) (src : Nat) (len : Nat) : Sys2Proof.Laws.Fields.Statement (.copyEnqueue m q src len) := by
  intro hwf mst heq
  have hwf : (decide (m < 25) && decide (q < 262144) && decide (src < 2 ^ 32) && decide (len < 65536)) = true := hwf
  simp only [Bool.and_eq_true, decide_eq_true_eq] at hwf
  cases heq
  exact hwf.1.1.1
theorem Sys2Proof.Laws.Fields.copyEnqueueDone : Sys2Proof.Laws.Fields.Statement (.copyEnqueueDone) := fun _ _ e => nomatch e
theorem Sys2Proof.Laws.Fields.enqueueWindowLoad (m : Nat) (q : Nat) : Sys2Proof.Laws.Fields.Statement (.enqueueWindowLoad m q) := by
  intro hwf mst heq
  have hwf : (decide (m < 25) && decide (q < 262144)) = true := hwf
  simp only [Bool.and_eq_true, decide_eq_true_eq] at hwf
  cases heq
  exact hwf.1
theorem Sys2Proof.Laws.Fields.dequeueLoad (m : Nat) (q : Nat) : Sys2Proof.Laws.Fields.Statement (.dequeueLoad m q) := by
  intro hwf mst heq
  have hwf : (decide (m < 25) && decide (q < 262144)) = true := hwf
  simp only [Bool.and_eq_true, decide_eq_true_eq] at hwf
  cases heq
  exact hwf.1
theorem Sys2Proof.Laws.Fields.release (m : Nat) (q : Nat) (x2 : Nat) : Sys2Proof.Laws.Fields.Statement (.release m q x2) := by
  intro hwf mst heq
  have hwf : (decide (m < 25) && decide (q < 262144)) = true := hwf
  simp only [Bool.and_eq_true, decide_eq_true_eq] at hwf
  cases heq
  exact hwf.1
theorem Sys2Proof.Laws.Fields.queueIdleTimeout (q : Nat) : Sys2Proof.Laws.Fields.Statement (.queueIdleTimeout q) := fun _ _ e => nomatch e
theorem Sys2Proof.Laws.Fields.notifyPop (m : Nat) (l : Nat) : Sys2Proof.Laws.Fields.Statement (.notifyPop m l) := by
  intro hwf mst heq
  have hwf : (decide (m < 25) && decide (l < 32)) = true := hwf
  simp only [Bool.and_eq_true, decide_eq_true_eq] at hwf
  cases heq
  exact hwf.1
theorem Sys2Proof.Laws.Fields.wingsErrClr (m : Nat) : Sys2Proof.Laws.Fields.Statement (.wingsErrClr m) := by
  intro hwf mst heq
  have hwf : (decide (m < 25)) = true := hwf
  cases heq
  exact of_decide_eq_true hwf
theorem Sys2Proof.Laws.Fields.gatherStart : Sys2Proof.Laws.Fields.Statement (.gatherStart) := fun _ _ e => nomatch e
theorem Sys2Proof.Laws.Fields.gatherComplete (e : Nat) : Sys2Proof.Laws.Fields.Statement (.gatherComplete e) := fun _ _ e => nomatch e
theorem Sys2Proof.Laws.Fields.ensembleCntClr (m : Nat) (e : Nat) : Sys2Proof.Laws.Fields.Statement (.ensembleCntClr m e) := by
  intro hwf mst heq
  have hwf : (decide (m < 25) && decide (e < 256)) = true := hwf
  simp only [Bool.and_eq_true, decide_eq_true_eq] at hwf
  cases heq
  exact hwf.1
theorem Sys2Proof.Laws.Fields.packerWrite (m : Nat) (c : Nat) (size : Nat) (x3 : DWord) : Sys2Proof.Laws.Fields.Statement (.packerWrite m c size x3) := by
  intro hwf mst heq
  have hwf : (decide (m < 25) && decide (c < 48) && decide (size < 4)) = true := hwf
  simp only [Bool.and_eq_true, decide_eq_true_eq] at hwf
  cases heq
  exact hwf.1.1
theorem Sys2Proof.Laws.Fields.packerCtrlSwap (m : Nat) (c : Nat) : Sys2Proof.Laws.Fields.Statement (.packerCtrlSwap m c) := by
  intro hwf mst heq
  have hwf : (decide (m < 25) && decide (c < 48)) = true := hwf
  simp only [Bool.and_eq_true, decide_eq_true_eq] at hwf
  cases heq
  exact hwf.1
theorem Sys2Proof.Laws.Fields.packerReturn (m : Nat) (c : Nat) (x2 : Word) : Sys2Proof.Laws.Fields.Statement (.packerReturn m c x2) := by
  intro hwf mst heq
  have hwf : (decide (m < 25) && decide (c < 48)) = true := hwf
  simp only [Bool.and_eq_true, decide_eq_true_eq] at hwf
  cases heq
  exact hwf.1
theorem Sys2Proof.Laws.Fields.packerCntClear (m : Nat) (c : Nat) (x2 : Word) : Sys2Proof.Laws.Fields.Statement (.packerCntClear m c x2) := by
  intro hwf mst heq
  have hwf : (decide (m < 25) && decide (c < 48)) = true := hwf
  simp only [Bool.and_eq_true, decide_eq_true_eq] at hwf
  cases heq
  exact hwf.1
theorem Sys2Proof.Laws.Fields.bankWakeDone (n : Nat) : Sys2Proof.Laws.Fields.Statement (.bankWakeDone n) := fun _ _ e => nomatch e
theorem Sys2Proof.Laws.Fields.bankZeroDone (n : Nat) : Sys2Proof.Laws.Fields.Statement (.bankZeroDone n) := fun _ _ e => nomatch e
theorem Sys2Proof.Laws.Fields.bankResumeDone (n : Nat) : Sys2Proof.Laws.Fields.Statement (.bankResumeDone n) := fun _ _ e => nomatch e
theorem Sys2Proof.Laws.Fields.terraceRequestServed (x0 : List TReq) : Sys2Proof.Laws.Fields.Statement (.terraceRequestServed x0) := fun _ _ e => nomatch e
theorem Sys2Proof.Laws.Fields.eccWriteback : Sys2Proof.Laws.Fields.Statement (.eccWriteback) := fun _ _ e => nomatch e
theorem Sys2Proof.Laws.Fields.mirrorLineRead : Sys2Proof.Laws.Fields.Statement (.mirrorLineRead) := fun _ _ e => nomatch e
theorem Sys2Proof.Laws.Fields.rescuedWriteResume : Sys2Proof.Laws.Fields.Statement (.rescuedWriteResume) := fun _ _ e => nomatch e
theorem Sys2Proof.Laws.Fields.terraceCntSnap (m : Nat) : Sys2Proof.Laws.Fields.Statement (.terraceCntSnap m) := by
  intro hwf mst heq
  have hwf : (decide (m < 25)) = true := hwf
  cases heq
  exact of_decide_eq_true hwf
theorem Sys2Proof.Laws.Fields.terraceCntClr (m : Nat) : Sys2Proof.Laws.Fields.Statement (.terraceCntClr m) := by
  intro hwf mst heq
  have hwf : (decide (m < 25)) = true := hwf
  cases heq
  exact of_decide_eq_true hwf
theorem Sys2Proof.Laws.Fields.colViolPop (m : Nat) : Sys2Proof.Laws.Fields.Statement (.colViolPop m) := by
  intro hwf mst heq
  have hwf : (decide (m < 25)) = true := hwf
  cases heq
  exact of_decide_eq_true hwf
theorem Sys2Proof.Laws.Fields.bundleIssue (n : Nat) (x1 : Nat) (x2 : Nat) : Sys2Proof.Laws.Fields.Statement (.bundleIssue n x1 x2) := fun _ _ e => nomatch e
theorem Sys2Proof.Laws.Fields.interruptEntry (n : Nat) : Sys2Proof.Laws.Fields.Statement (.interruptEntry n) := fun _ _ e => nomatch e
theorem Sys2Proof.Laws.Fields.waitResume (n : Nat) : Sys2Proof.Laws.Fields.Statement (.waitResume n) := fun _ _ e => nomatch e
theorem Sys2Proof.Laws.Fields.lateBusError (n : Nat) : Sys2Proof.Laws.Fields.Statement (.lateBusError n) := fun _ _ e => nomatch e
theorem Sys2Proof.Laws.Fields.lateErrorPop (m : Nat) (n : Nat) : Sys2Proof.Laws.Fields.Statement (.lateErrorPop m n) := by
  intro hwf mst heq
  have hwf : (decide (m < 25) && decide (n < 9)) = true := hwf
  simp only [Bool.and_eq_true, decide_eq_true_eq] at hwf
  cases heq
  exact hwf.1
theorem Sys2Proof.Laws.Fields.irqPendClear (m : Nat) (k : Nat) (x2 : Word) : Sys2Proof.Laws.Fields.Statement (.irqPendClear m k x2) := by
  intro hwf mst heq
  have hwf : (decide (m < 25) && decide (k < 8)) = true := hwf
  simp only [Bool.and_eq_true, decide_eq_true_eq] at hwf
  cases heq
  exact hwf.1
theorem Sys2Proof.Laws.Fields.irqAck (m : Nat) (n : Nat) (x2 : Word) : Sys2Proof.Laws.Fields.Statement (.irqAck m n x2) := by
  intro hwf mst heq
  have hwf : (decide (m < 25) && decide (n < 9)) = true := hwf
  simp only [Bool.and_eq_true, decide_eq_true_eq] at hwf
  cases heq
  exact hwf.1
theorem Sys2Proof.Laws.Fields.irqDoorbell (m : Nat) (x1 : Word) : Sys2Proof.Laws.Fields.Statement (.irqDoorbell m x1) := by
  intro hwf mst heq
  have hwf : (decide (m < 25)) = true := hwf
  cases heq
  exact of_decide_eq_true hwf
theorem Sys2Proof.Laws.Fields.irqRouteWrite (m : Nat) (k : Nat) (x2 : Word) : Sys2Proof.Laws.Fields.Statement (.irqRouteWrite m k x2) := by
  intro hwf mst heq
  have hwf : (decide (m < 25) && decide (k < 256)) = true := hwf
  simp only [Bool.and_eq_true, decide_eq_true_eq] at hwf
  cases heq
  exact hwf.1
theorem Sys2Proof.Laws.Fields.coreHold (m : Nat) (n : Nat) (x2 : Bool) : Sys2Proof.Laws.Fields.Statement (.coreHold m n x2) := by
  intro hwf mst heq
  have hwf : (decide (m < 25) && decide (n < 8)) = true := hwf
  simp only [Bool.and_eq_true, decide_eq_true_eq] at hwf
  cases heq
  exact hwf.1
theorem Sys2Proof.Laws.Fields.coreStart (m : Nat) (n : Nat) (x2 : Word) : Sys2Proof.Laws.Fields.Statement (.coreStart m n x2) := by
  intro hwf mst heq
  have hwf : (decide (m < 25) && decide (n < 8)) = true := hwf
  simp only [Bool.and_eq_true, decide_eq_true_eq] at hwf
  cases heq
  exact hwf.1
theorem Sys2Proof.Laws.Fields.groupSupplyChange (g : Nat) (v : Nat) : Sys2Proof.Laws.Fields.Statement (.groupSupplyChange g v) := fun _ _ e => nomatch e
theorem Sys2Proof.Laws.Fields.supplyRestoreDrive (g : Nat) : Sys2Proof.Laws.Fields.Statement (.supplyRestoreDrive g) := fun _ _ e => nomatch e
theorem Sys2Proof.Laws.Fields.pinInputChange (p : Nat) (x1 : Option Bool) (frac : Nat) : Sys2Proof.Laws.Fields.Statement (.pinInputChange p x1 frac) := fun _ _ e => nomatch e
theorem Sys2Proof.Laws.Fields.edgeAccept (p : Nat) : Sys2Proof.Laws.Fields.Statement (.edgeAccept p) := fun _ _ e => nomatch e
theorem Sys2Proof.Laws.Fields.dtVerdict (g : Nat) : Sys2Proof.Laws.Fields.Statement (.dtVerdict g) := fun _ _ e => nomatch e
theorem Sys2Proof.Laws.Fields.tripPairCommit (g : Nat) : Sys2Proof.Laws.Fields.Statement (.tripPairCommit g) := fun _ _ e => nomatch e
theorem Sys2Proof.Laws.Fields.readbackMismatch (p : Nat) : Sys2Proof.Laws.Fields.Statement (.readbackMismatch p) := fun _ _ e => nomatch e
theorem Sys2Proof.Laws.Fields.ppsOutRise : Sys2Proof.Laws.Fields.Statement (.ppsOutRise) := fun _ _ e => nomatch e
theorem Sys2Proof.Laws.Fields.ppsOutFall : Sys2Proof.Laws.Fields.Statement (.ppsOutFall) := fun _ _ e => nomatch e
theorem Sys2Proof.Laws.Fields.irigFrameEnd (x0 : List Nat) (x1 : Nat) : Sys2Proof.Laws.Fields.Statement (.irigFrameEnd x0 x1) := fun _ _ e => nomatch e
theorem Sys2Proof.Laws.Fields.grpCntClr (m : Nat) (g : Nat) : Sys2Proof.Laws.Fields.Statement (.grpCntClr m g) := by
  intro hwf mst heq
  have hwf : (decide (m < 25) && decide (g < 32)) = true := hwf
  simp only [Bool.and_eq_true, decide_eq_true_eq] at hwf
  cases heq
  exact hwf.1
theorem Sys2Proof.Laws.Fields.laneUp (n : Nat) : Sys2Proof.Laws.Fields.Statement (.laneUp n) := fun _ _ e => nomatch e
theorem Sys2Proof.Laws.Fields.laneDown (n : Nat) : Sys2Proof.Laws.Fields.Statement (.laneDown n) := fun _ _ e => nomatch e
theorem Sys2Proof.Laws.Fields.s2Fault : Sys2Proof.Laws.Fields.Statement (.s2Fault) := fun _ _ e => nomatch e
theorem Sys2Proof.Laws.Fields.hello (role : Nat) (x1 : List Byte) : Sys2Proof.Laws.Fields.Statement (.hello role x1) := fun _ _ e => nomatch e
theorem Sys2Proof.Laws.Fields.keyMessage (x0 : List Byte) : Sys2Proof.Laws.Fields.Statement (.keyMessage x0) := fun _ _ e => nomatch e
theorem Sys2Proof.Laws.Fields.auth (x0 : List Byte) : Sys2Proof.Laws.Fields.Statement (.auth x0) := fun _ _ e => nomatch e
theorem Sys2Proof.Laws.Fields.pairingKeyed : Sys2Proof.Laws.Fields.Statement (.pairingKeyed) := fun _ _ e => nomatch e
theorem Sys2Proof.Laws.Fields.pairingRetry : Sys2Proof.Laws.Fields.Statement (.pairingRetry) := fun _ _ e => nomatch e
theorem Sys2Proof.Laws.Fields.pulseSend : Sys2Proof.Laws.Fields.Statement (.pulseSend) := fun _ _ e => nomatch e
theorem Sys2Proof.Laws.Fields.pulse (x0 : Word) (sent : Nat) (x2 : Nat) : Sys2Proof.Laws.Fields.Statement (.pulse x0 sent x2) := fun _ _ e => nomatch e
theorem Sys2Proof.Laws.Fields.ready (x0 : Nat) : Sys2Proof.Laws.Fields.Statement (.ready x0) := fun _ _ e => nomatch e
theorem Sys2Proof.Laws.Fields.abort : Sys2Proof.Laws.Fields.Statement (.abort) := fun _ _ e => nomatch e
theorem Sys2Proof.Laws.Fields.cancel : Sys2Proof.Laws.Fields.Statement (.cancel) := fun _ _ e => nomatch e
theorem Sys2Proof.Laws.Fields.aliveEdge : Sys2Proof.Laws.Fields.Statement (.aliveEdge) := fun _ _ e => nomatch e
theorem Sys2Proof.Laws.Fields.mirrorTransferEnd : Sys2Proof.Laws.Fields.Statement (.mirrorTransferEnd) := fun _ _ e => nomatch e
theorem Sys2Proof.Laws.Fields.mirrorRx (x0 : MirrorMsg) (x1 : Bool) : Sys2Proof.Laws.Fields.Statement (.mirrorRx x0 x1) := fun _ _ e => nomatch e
theorem Sys2Proof.Laws.Fields.sealVerify : Sys2Proof.Laws.Fields.Statement (.sealVerify) := fun _ _ e => nomatch e
theorem Sys2Proof.Laws.Fields.mirrorApply : Sys2Proof.Laws.Fields.Statement (.mirrorApply) := fun _ _ e => nomatch e
theorem Sys2Proof.Laws.Fields.failureCheck : Sys2Proof.Laws.Fields.Statement (.failureCheck) := fun _ _ e => nomatch e
theorem Sys2Proof.Laws.Fields.takeover (x0 : Bool) : Sys2Proof.Laws.Fields.Statement (.takeover x0) := fun _ _ e => nomatch e
theorem Sys2Proof.Laws.Fields.handoverCommitCheck : Sys2Proof.Laws.Fields.Statement (.handoverCommitCheck) := fun _ _ e => nomatch e
theorem Sys2Proof.Laws.Fields.selftestRun (test : Nat) (x1 : Bool) : Sys2Proof.Laws.Fields.Statement (.selftestRun test x1) := fun _ _ e => nomatch e
theorem Sys2Proof.Laws.Fields.understudyFeed (m : Nat) : Sys2Proof.Laws.Fields.Statement (.understudyFeed m) := by
  intro hwf mst heq
  have hwf : (decide (m < 25)) = true := hwf
  cases heq
  exact of_decide_eq_true hwf
theorem Sys2Proof.Laws.Fields.understudyJoin (m : Nat) : Sys2Proof.Laws.Fields.Statement (.understudyJoin m) := by
  intro hwf mst heq
  have hwf : (decide (m < 25)) = true := hwf
  cases heq
  exact of_decide_eq_true hwf
theorem Sys2Proof.Laws.Fields.understudyHandover (m : Nat) : Sys2Proof.Laws.Fields.Statement (.understudyHandover m) := by
  intro hwf mst heq
  have hwf : (decide (m < 25)) = true := hwf
  cases heq
  exact of_decide_eq_true hwf
theorem Sys2Proof.Laws.Fields.understudyResync (m : Nat) : Sys2Proof.Laws.Fields.Statement (.understudyResync m) := by
  intro hwf mst heq
  have hwf : (decide (m < 25)) = true := hwf
  cases heq
  exact of_decide_eq_true hwf
theorem Sys2Proof.Laws.Fields.understudyUnpair (m : Nat) : Sys2Proof.Laws.Fields.Statement (.understudyUnpair m) := by
  intro hwf mst heq
  have hwf : (decide (m < 25)) = true := hwf
  cases heq
  exact of_decide_eq_true hwf
theorem Sys2Proof.Laws.Fields.understudyAckStale (m : Nat) : Sys2Proof.Laws.Fields.Statement (.understudyAckStale m) := by
  intro hwf mst heq
  have hwf : (decide (m < 25)) = true := hwf
  cases heq
  exact of_decide_eq_true hwf
theorem Sys2Proof.Laws.Fields.holdSet (m : Nat) (x1 : Word) : Sys2Proof.Laws.Fields.Statement (.holdSet m x1) := by
  intro hwf mst heq
  have hwf : (decide (m < 25)) = true := hwf
  cases heq
  exact of_decide_eq_true hwf
theorem Sys2Proof.Laws.Fields.holdClr (m : Nat) (x1 : Word) : Sys2Proof.Laws.Fields.Statement (.holdClr m x1) := by
  intro hwf mst heq
  have hwf : (decide (m < 25)) = true := hwf
  cases heq
  exact of_decide_eq_true hwf
theorem Sys2Proof.Laws.Fields.understudyCntClear (m : Nat) (k : Nat) (x2 : Word) : Sys2Proof.Laws.Fields.Statement (.understudyCntClear m k x2) := by
  intro hwf mst heq
  have hwf : (decide (m < 25) && decide (k < 3)) = true := hwf
  simp only [Bool.and_eq_true, decide_eq_true_eq] at hwf
  cases heq
  exact hwf.1
theorem Sys2Proof.Laws.Fields.rollCall : Sys2Proof.Laws.Fields.Statement (.rollCall) := fun _ _ e => nomatch e
theorem Sys2Proof.Laws.Fields.roll (x0 : THead) (x1 : Nat) : Sys2Proof.Laws.Fields.Statement (.roll x0 x1) := fun _ _ e => nomatch e
theorem Sys2Proof.Laws.Fields.attest (x0 : THead) (x1 : List Byte) (x2 : Bool) : Sys2Proof.Laws.Fields.Statement (.attest x0 x1 x2) := fun _ _ e => nomatch e
theorem Sys2Proof.Laws.Fields.welcome (x0 : THead) (x1 : List Byte) (x2 : List Byte) (x3 : List Byte) (x4 : Bool) : Sys2Proof.Laws.Fields.Statement (.welcome x0 x1 x2 x3 x4) := fun _ _ e => nomatch e
theorem Sys2Proof.Laws.Fields.rollWaitExpiry : Sys2Proof.Laws.Fields.Statement (.rollWaitExpiry) := fun _ _ e => nomatch e
theorem Sys2Proof.Laws.Fields.healthPeriodTick : Sys2Proof.Laws.Fields.Statement (.healthPeriodTick) := fun _ _ e => nomatch e
theorem Sys2Proof.Laws.Fields.callBroadcast (x0 : THead) (x1 : Nat) (rate : Nat) (x3 : Nat) : Sys2Proof.Laws.Fields.Statement (.callBroadcast x0 x1 rate x3) := fun _ _ e => nomatch e
theorem Sys2Proof.Laws.Fields.health (x0 : THead) (x1 : THealth) : Sys2Proof.Laws.Fields.Statement (.health x0 x1) := fun _ _ e => nomatch e
theorem Sys2Proof.Laws.Fields.memberSilent (k : Nat) : Sys2Proof.Laws.Fields.Statement (.memberSilent k) := fun _ _ e => nomatch e
theorem Sys2Proof.Laws.Fields.directorSilent : Sys2Proof.Laws.Fields.Statement (.directorSilent) := fun _ _ e => nomatch e
theorem Sys2Proof.Laws.Fields.keySend (entry : Nat) (kid : Nat) (x2 : Nat) (overlap : Nat) : Sys2Proof.Laws.Fields.Statement (.keySend entry kid x2 overlap) := fun _ _ e => nomatch e
theorem Sys2Proof.Laws.Fields.key (x0 : THead) (x1 : TKey) : Sys2Proof.Laws.Fields.Statement (.key x0 x1) := fun _ _ e => nomatch e
theorem Sys2Proof.Laws.Fields.keyAck (x0 : THead) (kid : Nat) : Sys2Proof.Laws.Fields.Statement (.keyAck x0 kid) := fun _ _ e => nomatch e
theorem Sys2Proof.Laws.Fields.keyRetry (k : Nat) : Sys2Proof.Laws.Fields.Statement (.keyRetry k) := fun _ _ e => nomatch e
theorem Sys2Proof.Laws.Fields.interval (x0 : THead) (x1 : Nat) (x2 : Nat) (x3 : Nat) : Sys2Proof.Laws.Fields.Statement (.interval x0 x1 x2 x3) := fun _ _ e => nomatch e
theorem Sys2Proof.Laws.Fields.intervalAck (x0 : THead) (code : Nat) : Sys2Proof.Laws.Fields.Statement (.intervalAck x0 code) := fun _ _ e => nomatch e
theorem Sys2Proof.Laws.Fields.intervalStart (x0 : Bool) : Sys2Proof.Laws.Fields.Statement (.intervalStart x0) := fun _ _ e => nomatch e
theorem Sys2Proof.Laws.Fields.intervalEnd : Sys2Proof.Laws.Fields.Statement (.intervalEnd) := fun _ _ e => nomatch e
theorem Sys2Proof.Laws.Fields.summarySend : Sys2Proof.Laws.Fields.Statement (.summarySend) := fun _ _ e => nomatch e
theorem Sys2Proof.Laws.Fields.summary (x0 : THead) (x1 : List TRec) : Sys2Proof.Laws.Fields.Statement (.summary x0 x1) := fun _ _ e => nomatch e
theorem Sys2Proof.Laws.Fields.command (x0 : THead) (x1 : List Byte) : Sys2Proof.Laws.Fields.Statement (.command x0 x1) := fun _ _ e => nomatch e
theorem Sys2Proof.Laws.Fields.troupeCntClear (m : Nat) (x1 : Word) : Sys2Proof.Laws.Fields.Statement (.troupeCntClear m x1) := by
  intro hwf mst heq
  have hwf : (decide (m < 25)) = true := hwf
  cases heq
  exact of_decide_eq_true hwf
theorem Sys2Proof.Laws.Fields.enc (c : Nat) (x1 : Option (Nat × Nat)) : Sys2Proof.Laws.Fields.Statement (.enc c x1) := fun _ _ e => nomatch e
theorem Sys2Proof.Laws.Fields.dec (c : Nat) (x1 : Option (Nat × Nat)) : Sys2Proof.Laws.Fields.Statement (.dec c x1) := fun _ _ e => nomatch e
theorem Sys2Proof.Laws.Fields.encXor (c : Nat) (x1 : Option (Nat × Nat)) : Sys2Proof.Laws.Fields.Statement (.encXor c x1) := fun _ _ e => nomatch e
theorem Sys2Proof.Laws.Fields.gateOpen (c : Nat) (x1 : Option (Nat × Nat)) : Sys2Proof.Laws.Fields.Statement (.gateOpen c x1) := fun _ _ e => nomatch e
theorem Sys2Proof.Laws.Fields.gateCtr (c : Nat) (x1 : Option (Nat × Nat)) : Sys2Proof.Laws.Fields.Statement (.gateCtr c x1) := fun _ _ e => nomatch e
theorem Sys2Proof.Laws.Fields.gateVerdict (c : Nat) : Sys2Proof.Laws.Fields.Statement (.gateVerdict c) := fun _ _ e => nomatch e
theorem Sys2Proof.Laws.Fields.wrap (c : Nat) (x1 : Option (Nat × Nat)) : Sys2Proof.Laws.Fields.Statement (.wrap c x1) := fun _ _ e => nomatch e
theorem Sys2Proof.Laws.Fields.unwrap (c : Nat) (x1 : Option (Nat × Nat)) : Sys2Proof.Laws.Fields.Statement (.unwrap c x1) := fun _ _ e => nomatch e
theorem Sys2Proof.Laws.Fields.ctxSaveClear (c : Nat) : Sys2Proof.Laws.Fields.Statement (.ctxSaveClear c) := fun _ _ e => nomatch e
theorem Sys2Proof.Laws.Fields.ctxSaveWrapped (c : Nat) (x1 : Option (Nat × Nat)) : Sys2Proof.Laws.Fields.Statement (.ctxSaveWrapped c x1) := fun _ _ e => nomatch e
theorem Sys2Proof.Laws.Fields.ctxRestore (c : Nat) (x1 : Option (Nat × Nat)) : Sys2Proof.Laws.Fields.Statement (.ctxRestore c x1) := fun _ _ e => nomatch e
theorem Sys2Proof.Laws.Fields.chorusJobStart (c : Nat) (x1 : Bool) : Sys2Proof.Laws.Fields.Statement (.chorusJobStart c x1) := fun _ _ e => nomatch e
theorem Sys2Proof.Laws.Fields.chorusJobDone (c : Nat) : Sys2Proof.Laws.Fields.Statement (.chorusJobDone c) := fun _ _ e => nomatch e
theorem Sys2Proof.Laws.Fields.chorusKeyPush (m : Nat) : Sys2Proof.Laws.Fields.Statement (.chorusKeyPush m) := by
  intro hwf mst heq
  have hwf : (decide (m < 25)) = true := hwf
  cases heq
  exact of_decide_eq_true hwf
theorem Sys2Proof.Laws.Fields.chorusKeyErase (m : Nat) : Sys2Proof.Laws.Fields.Statement (.chorusKeyErase m) := by
  intro hwf mst heq
  have hwf : (decide (m < 25)) = true := hwf
  cases heq
  exact of_decide_eq_true hwf
theorem Sys2Proof.Laws.Fields.chorusCntClear (m : Nat) (x1 : Word) : Sys2Proof.Laws.Fields.Statement (.chorusCntClear m x1) := by
  intro hwf mst heq
  have hwf : (decide (m < 25)) = true := hwf
  cases heq
  exact of_decide_eq_true hwf
theorem Sys2Proof.Laws.Fields.cmSeedDraw : Sys2Proof.Laws.Fields.Statement (.cmSeedDraw) := fun _ _ e => nomatch e
theorem Sys2Proof.Laws.Fields.hashOps (x0 : Bool) (x1 : Bool) (x2 : Bool) : Sys2Proof.Laws.Fields.Statement (.hashOps x0 x1 x2) := fun _ _ e => nomatch e
theorem Sys2Proof.Laws.Fields.hmacSha256 (x0 : Bool) (x1 : Bool) (x2 : Bool) : Sys2Proof.Laws.Fields.Statement (.hmacSha256 x0 x1 x2) := fun _ _ e => nomatch e
theorem Sys2Proof.Laws.Fields.ecdsaP256 (x0 : Bool) (x1 : Bool) (x2 : Bool) : Sys2Proof.Laws.Fields.Statement (.ecdsaP256 x0 x1 x2) := fun _ _ e => nomatch e
theorem Sys2Proof.Laws.Fields.ecdsaP384 (x0 : Bool) (x1 : Bool) (x2 : Bool) : Sys2Proof.Laws.Fields.Statement (.ecdsaP384 x0 x1 x2) := fun _ _ e => nomatch e
theorem Sys2Proof.Laws.Fields.ed25519 (x0 : Bool) (x1 : Bool) (x2 : Bool) : Sys2Proof.Laws.Fields.Statement (.ed25519 x0 x1 x2) := fun _ _ e => nomatch e
theorem Sys2Proof.Laws.Fields.ecdh (x0 : Bool) (x1 : Bool) (x2 : Bool) : Sys2Proof.Laws.Fields.Statement (.ecdh x0 x1 x2) := fun _ _ e => nomatch e
theorem Sys2Proof.Laws.Fields.p256Keygen (x0 : Bool) (x1 : Bool) (x2 : Bool) : Sys2Proof.Laws.Fields.Statement (.p256Keygen x0 x1 x2) := fun _ _ e => nomatch e
theorem Sys2Proof.Laws.Fields.mlKem768 (x0 : Bool) (x1 : Bool) (x2 : Bool) : Sys2Proof.Laws.Fields.Statement (.mlKem768 x0 x1 x2) := fun _ _ e => nomatch e
theorem Sys2Proof.Laws.Fields.mlKem1024 (x0 : Bool) (x1 : Bool) (x2 : Bool) : Sys2Proof.Laws.Fields.Statement (.mlKem1024 x0 x1 x2) := fun _ _ e => nomatch e
theorem Sys2Proof.Laws.Fields.mlDsa65 (x0 : Bool) (x1 : Bool) (x2 : Bool) : Sys2Proof.Laws.Fields.Statement (.mlDsa65 x0 x1 x2) := fun _ _ e => nomatch e
theorem Sys2Proof.Laws.Fields.mlDsa87 (x0 : Bool) (x1 : Bool) (x2 : Bool) : Sys2Proof.Laws.Fields.Statement (.mlDsa87 x0 x1 x2) := fun _ _ e => nomatch e
theorem Sys2Proof.Laws.Fields.rsaVerify (x0 : Bool) (x1 : Bool) (x2 : Bool) : Sys2Proof.Laws.Fields.Statement (.rsaVerify x0 x1 x2) := fun _ _ e => nomatch e
theorem Sys2Proof.Laws.Fields.rsaPrivate (x0 : Bool) (x1 : Bool) (x2 : Bool) : Sys2Proof.Laws.Fields.Statement (.rsaPrivate x0 x1 x2) := fun _ _ e => nomatch e
theorem Sys2Proof.Laws.Fields.modexp (x0 : Bool) (x1 : Bool) (x2 : Bool) : Sys2Proof.Laws.Fields.Statement (.modexp x0 x1 x2) := fun _ _ e => nomatch e
theorem Sys2Proof.Laws.Fields.lmsXmssVerify (x0 : Bool) (x1 : Bool) (x2 : Bool) : Sys2Proof.Laws.Fields.Statement (.lmsXmssVerify x0 x1 x2) := fun _ _ e => nomatch e
theorem Sys2Proof.Laws.Fields.deriveKey (x0 : Bool) (x1 : Bool) (x2 : Bool) : Sys2Proof.Laws.Fields.Statement (.deriveKey x0 x1 x2) := fun _ _ e => nomatch e
theorem Sys2Proof.Laws.Fields.combine (x0 : Bool) (x1 : Bool) (x2 : Bool) : Sys2Proof.Laws.Fields.Statement (.combine x0 x1 x2) := fun _ _ e => nomatch e
theorem Sys2Proof.Laws.Fields.importKey (x0 : Bool) (x1 : Bool) (x2 : Bool) : Sys2Proof.Laws.Fields.Statement (.importKey x0 x1 x2) := fun _ _ e => nomatch e
theorem Sys2Proof.Laws.Fields.massifErase (x0 : Bool) (x1 : Bool) (x2 : Bool) : Sys2Proof.Laws.Fields.Statement (.massifErase x0 x1 x2) := fun _ _ e => nomatch e
theorem Sys2Proof.Laws.Fields.publicKey (x0 : Bool) (x1 : Bool) (x2 : Bool) : Sys2Proof.Laws.Fields.Statement (.publicKey x0 x1 x2) := fun _ _ e => nomatch e
theorem Sys2Proof.Laws.Fields.massifJobStart (c : Nat) (x1 : Bool) : Sys2Proof.Laws.Fields.Statement (.massifJobStart c x1) := fun _ _ e => nomatch e
theorem Sys2Proof.Laws.Fields.longJobResume : Sys2Proof.Laws.Fields.Statement (.longJobResume) := fun _ _ e => nomatch e
theorem Sys2Proof.Laws.Fields.massifJobDone (c : Nat) : Sys2Proof.Laws.Fields.Statement (.massifJobDone c) := fun _ _ e => nomatch e
theorem Sys2Proof.Laws.Fields.massifCntClear (m : Nat) (x1 : Word) : Sys2Proof.Laws.Fields.Statement (.massifCntClear m x1) := by
  intro hwf mst heq
  have hwf : (decide (m < 25)) = true := hwf
  cases heq
  exact of_decide_eq_true hwf
theorem Sys2Proof.Laws.Fields.screeInst (m : Nat) : Sys2Proof.Laws.Fields.Statement (.screeInst m) := by
  intro hwf mst heq
  have hwf : (decide (m < 25)) = true := hwf
  cases heq
  exact of_decide_eq_true hwf
theorem Sys2Proof.Laws.Fields.screeReseed (m : Nat) : Sys2Proof.Laws.Fields.Statement (.screeReseed m) := by
  intro hwf mst heq
  have hwf : (decide (m < 25)) = true := hwf
  cases heq
  exact of_decide_eq_true hwf
theorem Sys2Proof.Laws.Fields.screeClrCnt (m : Nat) : Sys2Proof.Laws.Fields.Statement (.screeClrCnt m) := by
  intro hwf mst heq
  have hwf : (decide (m < 25)) = true := hwf
  cases heq
  exact of_decide_eq_true hwf
theorem Sys2Proof.Laws.Fields.screeStartupDone (k : Nat) : Sys2Proof.Laws.Fields.Statement (.screeStartupDone k) := fun _ _ e => nomatch e
theorem Sys2Proof.Laws.Fields.sourceHealthFail (k : Nat) (x1 : Bool) : Sys2Proof.Laws.Fields.Statement (.sourceHealthFail k x1) := fun _ _ e => nomatch e
theorem Sys2Proof.Laws.Fields.sourceRetest (k : Nat) : Sys2Proof.Laws.Fields.Statement (.sourceRetest k) := fun _ _ e => nomatch e
theorem Sys2Proof.Laws.Fields.drbgReseed (i : Nat) : Sys2Proof.Laws.Fields.Statement (.drbgReseed i) := fun _ _ e => nomatch e
theorem Sys2Proof.Laws.Fields.screeRandRead (m : Nat) : Sys2Proof.Laws.Fields.Statement (.screeRandRead m) := by
  intro hwf mst heq
  have hwf : (decide (m < 25)) = true := hwf
  cases heq
  exact of_decide_eq_true hwf
theorem Sys2Proof.Laws.Fields.screeTestData (m : Nat) (x1 : Word) : Sys2Proof.Laws.Fields.Statement (.screeTestData m x1) := by
  intro hwf mst heq
  have hwf : (decide (m < 25)) = true := hwf
  cases heq
  exact of_decide_eq_true hwf
theorem Sys2Proof.Laws.Fields.curtainSourceAssert (id : Nat) : Sys2Proof.Laws.Fields.Statement (.curtainSourceAssert id) := fun _ _ e => nomatch e
theorem Sys2Proof.Laws.Fields.curtainZeroDone : Sys2Proof.Laws.Fields.Statement (.curtainZeroDone) := fun _ _ e => nomatch e
theorem Sys2Proof.Laws.Fields.junctionTempWarn (x0 : Bool) : Sys2Proof.Laws.Fields.Statement (.junctionTempWarn x0) := fun _ _ e => nomatch e
theorem Sys2Proof.Laws.Fields.curtainCfgWrite (m : Nat) (x1 : Word) : Sys2Proof.Laws.Fields.Statement (.curtainCfgWrite m x1) := by
  intro hwf mst heq
  have hwf : (decide (m < 25)) = true := hwf
  cases heq
  exact of_decide_eq_true hwf
theorem Sys2Proof.Laws.Fields.unlockBodyCheck (x0 : List Byte) (x1 : Bool) : Sys2Proof.Laws.Fields.Statement (.unlockBodyCheck x0 x1) := fun _ _ e => nomatch e
theorem Sys2Proof.Laws.Fields.unlockBlockExpiry : Sys2Proof.Laws.Fields.Statement (.unlockBlockExpiry) := fun _ _ e => nomatch e
theorem Sys2Proof.Laws.Fields.dtakeCntClear (m : Nat) (x1 : Word) : Sys2Proof.Laws.Fields.Statement (.dtakeCntClear m x1) := by
  intro hwf mst heq
  have hwf : (decide (m < 25)) = true := hwf
  cases heq
  exact of_decide_eq_true hwf
theorem Sys2Proof.Laws.Fields.refugeLoopCheck (x0 : Bool) (x1 : Bool) (x2 : Bool) (x3 : Word) (x4 : Nat) : Sys2Proof.Laws.Fields.Statement (.refugeLoopCheck x0 x1 x2 x3 x4) := fun _ _ e => nomatch e
theorem Sys2Proof.Laws.Fields.refugeSupplySwitch : Sys2Proof.Laws.Fields.Statement (.refugeSupplySwitch) := fun _ _ e => nomatch e
theorem Sys2Proof.Laws.Fields.cellRemoved (x0 : Nat) : Sys2Proof.Laws.Fields.Statement (.cellRemoved x0) := fun _ _ e => nomatch e
theorem Sys2Proof.Laws.Fields.cellInserted (x0 : Nat) : Sys2Proof.Laws.Fields.Statement (.cellInserted x0) := fun _ _ e => nomatch e
theorem Sys2Proof.Laws.Fields.vbatLow (x0 : Nat) : Sys2Proof.Laws.Fields.Statement (.vbatLow x0) := fun _ _ e => nomatch e
theorem Sys2Proof.Laws.Fields.refugeRtcSet (m : Nat) (x1 : Word) : Sys2Proof.Laws.Fields.Statement (.refugeRtcSet m x1) := by
  intro hwf mst heq
  have hwf : (decide (m < 25)) = true := hwf
  cases heq
  exact of_decide_eq_true hwf
theorem Sys2Proof.Laws.Fields.refugeLoopEnable (m : Nat) (x1 : Word) : Sys2Proof.Laws.Fields.Statement (.refugeLoopEnable m x1) := by
  intro hwf mst heq
  have hwf : (decide (m < 25)) = true := hwf
  cases heq
  exact of_decide_eq_true hwf
theorem Sys2Proof.Laws.Fields.logMarkCopied (m : Nat) (i : Nat) : Sys2Proof.Laws.Fields.Statement (.logMarkCopied m i) := by
  intro hwf mst heq
  have hwf : (decide (m < 25) && decide (i < 16)) = true := hwf
  simp only [Bool.and_eq_true, decide_eq_true_eq] at hwf
  cases heq
  exact hwf.1
theorem Sys2Proof.Laws.Fields.brkUnlock (m : Nat) (n : Nat) (x2 : Word) : Sys2Proof.Laws.Fields.Statement (.brkUnlock m n x2) := by
  intro hwf mst heq
  have hwf : (decide (m < 25) && decide (n < 9)) = true := hwf
  simp only [Bool.and_eq_true, decide_eq_true_eq] at hwf
  cases heq
  exact hwf.1
theorem Sys2Proof.Laws.Fields.unlockArmExpiry (n : Nat) : Sys2Proof.Laws.Fields.Statement (.unlockArmExpiry n) := fun _ _ e => nomatch e
theorem Sys2Proof.Laws.Fields.program (m : Nat) (n : Nat) (x2 : Word) (x3 : Word) : Sys2Proof.Laws.Fields.Statement (.program m n x2 x3) := by
  intro hwf mst heq
  have hwf : (decide (m < 25) && decide (n < 9)) = true := hwf
  simp only [Bool.and_eq_true, decide_eq_true_eq] at hwf
  cases heq
  exact hwf.1
theorem Sys2Proof.Laws.Fields.programSafe (m : Nat) (n : Nat) (x2 : Word) (x3 : Word) : Sys2Proof.Laws.Fields.Statement (.programSafe m n x2 x3) := by
  intro hwf mst heq
  have hwf : (decide (m < 25) && decide (n < 9)) = true := hwf
  simp only [Bool.and_eq_true, decide_eq_true_eq] at hwf
  cases heq
  exact hwf.1
theorem Sys2Proof.Laws.Fields.erase (m : Nat) (n : Nat) (x2 : Word) : Sys2Proof.Laws.Fields.Statement (.erase m n x2) := by
  intro hwf mst heq
  have hwf : (decide (m < 25) && decide (n < 9)) = true := hwf
  simp only [Bool.and_eq_true, decide_eq_true_eq] at hwf
  cases heq
  exact hwf.1
theorem Sys2Proof.Laws.Fields.inspect (m : Nat) (n : Nat) (x2 : Word) : Sys2Proof.Laws.Fields.Statement (.inspect m n x2) := by
  intro hwf mst heq
  have hwf : (decide (m < 25) && decide (n < 9)) = true := hwf
  simp only [Bool.and_eq_true, decide_eq_true_eq] at hwf
  cases heq
  exact hwf.1
theorem Sys2Proof.Laws.Fields.refresh (m : Nat) (n : Nat) (x2 : Word) : Sys2Proof.Laws.Fields.Statement (.refresh m n x2) := by
  intro hwf mst heq
  have hwf : (decide (m < 25) && decide (n < 9)) = true := hwf
  simp only [Bool.and_eq_true, decide_eq_true_eq] at hwf
  cases heq
  exact hwf.1
theorem Sys2Proof.Laws.Fields.bedrockCmdStart : Sys2Proof.Laws.Fields.Statement (.bedrockCmdStart) := fun _ _ e => nomatch e
theorem Sys2Proof.Laws.Fields.bedrockCmdDone (b : Nat) (x1 : Bool) : Sys2Proof.Laws.Fields.Statement (.bedrockCmdDone b x1) := fun _ _ e => nomatch e
theorem Sys2Proof.Laws.Fields.eraseResume (b : Nat) : Sys2Proof.Laws.Fields.Statement (.eraseResume b) := fun _ _ e => nomatch e
theorem Sys2Proof.Laws.Fields.patrolRead (b : Nat) (blk : Nat) (bits : Nat) (x3 : Bool) : Sys2Proof.Laws.Fields.Statement (.patrolRead b blk bits x3) := fun _ _ e => nomatch e
theorem Sys2Proof.Laws.Fields.patrolPop (m : Nat) : Sys2Proof.Laws.Fields.Statement (.patrolPop m) := by
  intro hwf mst heq
  have hwf : (decide (m < 25)) = true := hwf
  cases heq
  exact of_decide_eq_true hwf
theorem Sys2Proof.Laws.Fields.brkEccClear (m : Nat) (x1 : Word) : Sys2Proof.Laws.Fields.Statement (.brkEccClear m x1) := by
  intro hwf mst heq
  have hwf : (decide (m < 25)) = true := hwf
  cases heq
  exact of_decide_eq_true hwf
theorem Sys2Proof.Laws.Fields.readStatus : Sys2Proof.Laws.Fields.Statement (.readStatus) := fun _ _ e => nomatch e
theorem Sys2Proof.Laws.Fields.write (x0 : List Byte) : Sys2Proof.Laws.Fields.Statement (.write x0) := fun _ _ e => nomatch e
theorem Sys2Proof.Laws.Fields.qwrite (x0 : List Byte) : Sys2Proof.Laws.Fields.Statement (.qwrite x0) := fun _ _ e => nomatch e
theorem Sys2Proof.Laws.Fields.read (x0 : Nat) : Sys2Proof.Laws.Fields.Statement (.read x0) := fun _ _ e => nomatch e
theorem Sys2Proof.Laws.Fields.qread (x0 : Nat) : Sys2Proof.Laws.Fields.Statement (.qread x0) := fun _ _ e => nomatch e
theorem Sys2Proof.Laws.Fields.hostCntClear (m : Nat) (x1 : Word) : Sys2Proof.Laws.Fields.Statement (.hostCntClear m x1) := by
  intro hwf mst heq
  have hwf : (decide (m < 25)) = true := hwf
  cases heq
  exact of_decide_eq_true hwf
theorem Sys2Proof.Laws.Fields.sessionOpen : Sys2Proof.Laws.Fields.Statement (.sessionOpen) := fun _ _ e => nomatch e
theorem Sys2Proof.Laws.Fields.sessionAuth (x0 : Bool) : Sys2Proof.Laws.Fields.Statement (.sessionAuth x0) := fun _ _ e => nomatch e
theorem Sys2Proof.Laws.Fields.sessionClose : Sys2Proof.Laws.Fields.Statement (.sessionClose) := fun _ _ e => nomatch e
theorem Sys2Proof.Laws.Fields.sessionInfo : Sys2Proof.Laws.Fields.Statement (.sessionInfo) := fun _ _ e => nomatch e
theorem Sys2Proof.Laws.Fields.ping : Sys2Proof.Laws.Fields.Statement (.ping) := fun _ _ e => nomatch e
theorem Sys2Proof.Laws.Fields.idGet : Sys2Proof.Laws.Fields.Statement (.idGet) := fun _ _ e => nomatch e
theorem Sys2Proof.Laws.Fields.idCert : Sys2Proof.Laws.Fields.Statement (.idCert) := fun _ _ e => nomatch e
theorem Sys2Proof.Laws.Fields.idAttest : Sys2Proof.Laws.Fields.Statement (.idAttest) := fun _ _ e => nomatch e
theorem Sys2Proof.Laws.Fields.idChallenge : Sys2Proof.Laws.Fields.Statement (.idChallenge) := fun _ _ e => nomatch e
theorem Sys2Proof.Laws.Fields.imgBegin : Sys2Proof.Laws.Fields.Statement (.imgBegin) := fun _ _ e => nomatch e
theorem Sys2Proof.Laws.Fields.imgWrite (x0 : Bool) : Sys2Proof.Laws.Fields.Statement (.imgWrite x0) := fun _ _ e => nomatch e
theorem Sys2Proof.Laws.Fields.imgCommit : Sys2Proof.Laws.Fields.Statement (.imgCommit) := fun _ _ e => nomatch e
theorem Sys2Proof.Laws.Fields.imgSelect : Sys2Proof.Laws.Fields.Statement (.imgSelect) := fun _ _ e => nomatch e
theorem Sys2Proof.Laws.Fields.imgList : Sys2Proof.Laws.Fields.Statement (.imgList) := fun _ _ e => nomatch e
theorem Sys2Proof.Laws.Fields.cfgApply : Sys2Proof.Laws.Fields.Statement (.cfgApply) := fun _ _ e => nomatch e
theorem Sys2Proof.Laws.Fields.cfgInfo : Sys2Proof.Laws.Fields.Statement (.cfgInfo) := fun _ _ e => nomatch e
theorem Sys2Proof.Laws.Fields.timeStep : Sys2Proof.Laws.Fields.Statement (.timeStep) := fun _ _ e => nomatch e
theorem Sys2Proof.Laws.Fields.rtcSet : Sys2Proof.Laws.Fields.Statement (.rtcSet) := fun _ _ e => nomatch e
theorem Sys2Proof.Laws.Fields.cueGet : Sys2Proof.Laws.Fields.Statement (.cueGet) := fun _ _ e => nomatch e
theorem Sys2Proof.Laws.Fields.cuePush : Sys2Proof.Laws.Fields.Statement (.cuePush) := fun _ _ e => nomatch e
theorem Sys2Proof.Laws.Fields.cueCommit : Sys2Proof.Laws.Fields.Statement (.cueCommit) := fun _ _ e => nomatch e
theorem Sys2Proof.Laws.Fields.cueAbort : Sys2Proof.Laws.Fields.Statement (.cueAbort) := fun _ _ e => nomatch e
theorem Sys2Proof.Laws.Fields.cueStatus : Sys2Proof.Laws.Fields.Statement (.cueStatus) := fun _ _ e => nomatch e
theorem Sys2Proof.Laws.Fields.keyProvision (x0 : Bool) : Sys2Proof.Laws.Fields.Statement (.keyProvision x0) := fun _ _ e => nomatch e
theorem Sys2Proof.Laws.Fields.keyErase (x0 : Bool) : Sys2Proof.Laws.Fields.Statement (.keyErase x0) := fun _ _ e => nomatch e
theorem Sys2Proof.Laws.Fields.keyList : Sys2Proof.Laws.Fields.Statement (.keyList) := fun _ _ e => nomatch e
theorem Sys2Proof.Laws.Fields.keyStream : Sys2Proof.Laws.Fields.Statement (.keyStream) := fun _ _ e => nomatch e
theorem Sys2Proof.Laws.Fields.kekRoll : Sys2Proof.Laws.Fields.Statement (.kekRoll) := fun _ _ e => nomatch e
theorem Sys2Proof.Laws.Fields.kdcRelay : Sys2Proof.Laws.Fields.Statement (.kdcRelay) := fun _ _ e => nomatch e
theorem Sys2Proof.Laws.Fields.pairRole : Sys2Proof.Laws.Fields.Statement (.pairRole) := fun _ _ e => nomatch e
theorem Sys2Proof.Laws.Fields.handover : Sys2Proof.Laws.Fields.Statement (.handover) := fun _ _ e => nomatch e
theorem Sys2Proof.Laws.Fields.pairCtrl : Sys2Proof.Laws.Fields.Statement (.pairCtrl) := fun _ _ e => nomatch e
theorem Sys2Proof.Laws.Fields.pairStatus : Sys2Proof.Laws.Fields.Statement (.pairStatus) := fun _ _ e => nomatch e
theorem Sys2Proof.Laws.Fields.troupeRole : Sys2Proof.Laws.Fields.Statement (.troupeRole) := fun _ _ e => nomatch e
theorem Sys2Proof.Laws.Fields.troupeStatus : Sys2Proof.Laws.Fields.Statement (.troupeStatus) := fun _ _ e => nomatch e
theorem Sys2Proof.Laws.Fields.rollNow : Sys2Proof.Laws.Fields.Statement (.rollNow) := fun _ _ e => nomatch e
theorem Sys2Proof.Laws.Fields.intervalCall : Sys2Proof.Laws.Fields.Statement (.intervalCall) := fun _ _ e => nomatch e
theorem Sys2Proof.Laws.Fields.relay : Sys2Proof.Laws.Fields.Statement (.relay) := fun _ _ e => nomatch e
theorem Sys2Proof.Laws.Fields.relayTimeout (i : Nat) : Sys2Proof.Laws.Fields.Statement (.relayTimeout i) := fun _ _ e => nomatch e
theorem Sys2Proof.Laws.Fields.bookRead : Sys2Proof.Laws.Fields.Statement (.bookRead) := fun _ _ e => nomatch e
theorem Sys2Proof.Laws.Fields.bookArchive : Sys2Proof.Laws.Fields.Statement (.bookArchive) := fun _ _ e => nomatch e
theorem Sys2Proof.Laws.Fields.bookNote : Sys2Proof.Laws.Fields.Statement (.bookNote) := fun _ _ e => nomatch e
theorem Sys2Proof.Laws.Fields.bookClear : Sys2Proof.Laws.Fields.Statement (.bookClear) := fun _ _ e => nomatch e
theorem Sys2Proof.Laws.Fields.fileList : Sys2Proof.Laws.Fields.Statement (.fileList) := fun _ _ e => nomatch e
theorem Sys2Proof.Laws.Fields.fileRead (x0 : Bool) : Sys2Proof.Laws.Fields.Statement (.fileRead x0) := fun _ _ e => nomatch e
theorem Sys2Proof.Laws.Fields.fileWrite : Sys2Proof.Laws.Fields.Statement (.fileWrite) := fun _ _ e => nomatch e
theorem Sys2Proof.Laws.Fields.fileDelete (x0 : Bool) : Sys2Proof.Laws.Fields.Statement (.fileDelete x0) := fun _ _ e => nomatch e
theorem Sys2Proof.Laws.Fields.mediaEject : Sys2Proof.Laws.Fields.Statement (.mediaEject) := fun _ _ e => nomatch e
theorem Sys2Proof.Laws.Fields.status : Sys2Proof.Laws.Fields.Statement (.status) := fun _ _ e => nomatch e
theorem Sys2Proof.Laws.Fields.regRead : Sys2Proof.Laws.Fields.Statement (.regRead) := fun _ _ e => nomatch e
theorem Sys2Proof.Laws.Fields.selftest (x0 : Nat) : Sys2Proof.Laws.Fields.Statement (.selftest x0) := fun _ _ e => nomatch e
theorem Sys2Proof.Laws.Fields.trace : Sys2Proof.Laws.Fields.Statement (.trace) := fun _ _ e => nomatch e
theorem Sys2Proof.Laws.Fields.coreCtrl : Sys2Proof.Laws.Fields.Statement (.coreCtrl) := fun _ _ e => nomatch e
theorem Sys2Proof.Laws.Fields.commission : Sys2Proof.Laws.Fields.Statement (.commission) := fun _ _ e => nomatch e
theorem Sys2Proof.Laws.Fields.unlock (x0 : Bool) (x1 : Bool) : Sys2Proof.Laws.Fields.Statement (.unlock x0 x1) := fun _ _ e => nomatch e
theorem Sys2Proof.Laws.Fields.modeReq : Sys2Proof.Laws.Fields.Statement (.modeReq) := fun _ _ e => nomatch e
theorem Sys2Proof.Laws.Fields.reset : Sys2Proof.Laws.Fields.Statement (.reset) := fun _ _ e => nomatch e
theorem Sys2Proof.Laws.Fields.returnLc : Sys2Proof.Laws.Fields.Statement (.returnLc) := fun _ _ e => nomatch e
theorem Sys2Proof.Laws.Fields.decommission : Sys2Proof.Laws.Fields.Statement (.decommission) := fun _ _ e => nomatch e
theorem Sys2Proof.Laws.Fields.issue : Sys2Proof.Laws.Fields.Statement (.issue) := fun _ _ e => nomatch e
theorem Sys2Proof.Laws.Fields.commandExecStart (g : Nat) : Sys2Proof.Laws.Fields.Statement (.commandExecStart g) := fun _ _ e => nomatch e
theorem Sys2Proof.Laws.Fields.commandFinalReply (i : Nat) (x1 : Bool) (x2 : Bool) : Sys2Proof.Laws.Fields.Statement (.commandFinalReply i x1 x2) := fun _ _ e => nomatch e
theorem Sys2Proof.Laws.Fields.sessionPendingTimeout (n : Nat) : Sys2Proof.Laws.Fields.Statement (.sessionPendingTimeout n) := fun _ _ e => nomatch e
theorem Sys2Proof.Laws.Fields.sessionIdleTimeout (n : Nat) : Sys2Proof.Laws.Fields.Statement (.sessionIdleTimeout n) := fun _ _ e => nomatch e
theorem Sys2Proof.Laws.Fields.note : Sys2Proof.Laws.Fields.Statement (.note) := fun _ _ e => nomatch e
theorem Sys2Proof.Laws.Fields.sign : Sys2Proof.Laws.Fields.Statement (.sign) := fun _ _ e => nomatch e
theorem Sys2Proof.Laws.Fields.verify (x0 : Bool) : Sys2Proof.Laws.Fields.Statement (.verify x0) := fun _ _ e => nomatch e
theorem Sys2Proof.Laws.Fields.store (x0 : Bool) : Sys2Proof.Laws.Fields.Statement (.store x0) := fun _ _ e => nomatch e
theorem Sys2Proof.Laws.Fields.load : Sys2Proof.Laws.Fields.Statement (.load) := fun _ _ e => nomatch e
theorem Sys2Proof.Laws.Fields.feed : Sys2Proof.Laws.Fields.Statement (.feed) := fun _ _ e => nomatch e
theorem Sys2Proof.Laws.Fields.patrol : Sys2Proof.Laws.Fields.Statement (.patrol) := fun _ _ e => nomatch e
theorem Sys2Proof.Laws.Fields.rtcSync : Sys2Proof.Laws.Fields.Statement (.rtcSync) := fun _ _ e => nomatch e
theorem Sys2Proof.Laws.Fields.recordEnterRing : Sys2Proof.Laws.Fields.Statement (.recordEnterRing) := fun _ _ e => nomatch e
theorem Sys2Proof.Laws.Fields.limitWindowEnd (code : Nat) (src : Nat) : Sys2Proof.Laws.Fields.Statement (.limitWindowEnd code src) := fun _ _ e => nomatch e
theorem Sys2Proof.Laws.Fields.archivePair : Sys2Proof.Laws.Fields.Statement (.archivePair) := fun _ _ e => nomatch e
theorem Sys2Proof.Laws.Fields.recLatchRead (m : Nat) (r : Nat) : Sys2Proof.Laws.Fields.Statement (.recLatchRead m r) := by
  intro hwf mst heq
  have hwf : (decide (m < 25) && decide (r < 4)) = true := hwf
  simp only [Bool.and_eq_true, decide_eq_true_eq] at hwf
  cases heq
  exact hwf.1
theorem Sys2Proof.Laws.Fields.recFinalRead (m : Nat) (r : Nat) : Sys2Proof.Laws.Fields.Statement (.recFinalRead m r) := by
  intro hwf mst heq
  have hwf : (decide (m < 25) && decide (r < 4)) = true := hwf
  simp only [Bool.and_eq_true, decide_eq_true_eq] at hwf
  cases heq
  exact hwf.1
theorem Sys2Proof.Laws.Fields.pbookClear (m : Nat) (x1 : Word) (x2 : Bool) : Sys2Proof.Laws.Fields.Statement (.pbookClear m x1 x2) := by
  intro hwf mst heq
  have hwf : (decide (m < 25)) = true := hwf
  cases heq
  exact of_decide_eq_true hwf
theorem Sys2Proof.Laws.Fields.pbookDropClear (m : Nat) (k : Nat) (x2 : Word) : Sys2Proof.Laws.Fields.Statement (.pbookDropClear m k x2) := by
  intro hwf mst heq
  have hwf : (decide (m < 25) && decide (k < 2)) = true := hwf
  simp only [Bool.and_eq_true, decide_eq_true_eq] at hwf
  cases heq
  exact hwf.1
theorem Sys2Proof.Laws.Fields.traceCfgWrite (m : Nat) (x1 : Word) : Sys2Proof.Laws.Fields.Statement (.traceCfgWrite m x1) := by
  intro hwf mst heq
  have hwf : (decide (m < 25)) = true := hwf
  cases heq
  exact of_decide_eq_true hwf
theorem Sys2Proof.Laws.Fields.tracePacketSend : Sys2Proof.Laws.Fields.Statement (.tracePacketSend) := fun _ _ e => nomatch e
theorem Sys2Proof.Laws.Fields.observeCntSnap (m : Nat) : Sys2Proof.Laws.Fields.Statement (.observeCntSnap m) := by
  intro hwf mst heq
  have hwf : (decide (m < 25)) = true := hwf
  cases heq
  exact of_decide_eq_true hwf
theorem Sys2Proof.Laws.Fields.observeCntClr (m : Nat) : Sys2Proof.Laws.Fields.Statement (.observeCntClr m) := by
  intro hwf mst heq
  have hwf : (decide (m < 25)) = true := hwf
  cases heq
  exact of_decide_eq_true hwf
theorem Sys2Proof.Laws.Fields.traceStatClear (m : Nat) (x1 : Word) : Sys2Proof.Laws.Fields.Statement (.traceStatClear m x1) := by
  intro hwf mst heq
  have hwf : (decide (m < 25)) = true := hwf
  cases heq
  exact of_decide_eq_true hwf
theorem Sys2Proof.Laws.Fields.fieldOn (m : Nat) : Sys2Proof.Laws.Fields.Statement (.fieldOn m) := by
  intro hwf mst heq
  have hwf : (decide (m < 25)) = true := hwf
  cases heq
  exact of_decide_eq_true hwf
theorem Sys2Proof.Laws.Fields.fieldOff (m : Nat) : Sys2Proof.Laws.Fields.Statement (.fieldOff m) := by
  intro hwf mst heq
  have hwf : (decide (m < 25)) = true := hwf
  cases heq
  exact of_decide_eq_true hwf
theorem Sys2Proof.Laws.Fields.activate (m : Nat) (rate : Nat) : Sys2Proof.Laws.Fields.Statement (.activate m rate) := by
  intro hwf mst heq
  have hwf : (decide (m < 25) && decide (rate < 4)) = true := hwf
  simp only [Bool.and_eq_true, decide_eq_true_eq] at hwf
  cases heq
  exact hwf.1
theorem Sys2Proof.Laws.Fields.exchange (m : Nat) (len : Nat) : Sys2Proof.Laws.Fields.Statement (.exchange m len) := by
  intro hwf mst heq
  have hwf : (decide (m < 25) && decide (len < 257)) = true := hwf
  simp only [Bool.and_eq_true, decide_eq_true_eq] at hwf
  cases heq
  exact hwf.1
theorem Sys2Proof.Laws.Fields.deselect (m : Nat) : Sys2Proof.Laws.Fields.Statement (.deselect m) := by
  intro hwf mst heq
  have hwf : (decide (m < 25)) = true := hwf
  cases heq
  exact of_decide_eq_true hwf
theorem Sys2Proof.Laws.Fields.readerOpDone (st : Nat) (x1 : List Byte) (x2 : Bool) : Sys2Proof.Laws.Fields.Statement (.readerOpDone st x1 x2) := fun _ _ e => nomatch e
theorem Sys2Proof.Laws.Fields.carrierIdleOff : Sys2Proof.Laws.Fields.Statement (.carrierIdleOff) := fun _ _ e => nomatch e
theorem Sys2Proof.Laws.Fields.detuningPing (x0 : Nat) : Sys2Proof.Laws.Fields.Statement (.detuningPing x0) := fun _ _ e => nomatch e
theorem Sys2Proof.Laws.Fields.extFieldChange (x0 : Bool) : Sys2Proof.Laws.Fields.Statement (.extFieldChange x0) := fun _ _ e => nomatch e
theorem Sys2Proof.Laws.Fields.tagPowerUp (x0 : Bool) : Sys2Proof.Laws.Fields.Statement (.tagPowerUp x0) := fun _ _ e => nomatch e
theorem Sys2Proof.Laws.Fields.reqa : Sys2Proof.Laws.Fields.Statement (.reqa) := fun _ _ e => nomatch e
theorem Sys2Proof.Laws.Fields.wupa : Sys2Proof.Laws.Fields.Statement (.wupa) := fun _ _ e => nomatch e
theorem Sys2Proof.Laws.Fields.anticollision : Sys2Proof.Laws.Fields.Statement (.anticollision) := fun _ _ e => nomatch e
theorem Sys2Proof.Laws.Fields.select (x0 : List Byte) : Sys2Proof.Laws.Fields.Statement (.select x0) := fun _ _ e => nomatch e
theorem Sys2Proof.Laws.Fields.rats : Sys2Proof.Laws.Fields.Statement (.rats) := fun _ _ e => nomatch e
theorem Sys2Proof.Laws.Fields.pps : Sys2Proof.Laws.Fields.Statement (.pps) := fun _ _ e => nomatch e
theorem Sys2Proof.Laws.Fields.hlta : Sys2Proof.Laws.Fields.Statement (.hlta) := fun _ _ e => nomatch e
theorem Sys2Proof.Laws.Fields.tagDeselect : Sys2Proof.Laws.Fields.Statement (.tagDeselect) := fun _ _ e => nomatch e
theorem Sys2Proof.Laws.Fields.tagRead (p : Nat) (n : Nat) : Sys2Proof.Laws.Fields.Statement (.tagRead p n) := fun _ _ e => nomatch e
theorem Sys2Proof.Laws.Fields.writeMb (p : Nat) (n : Nat) (x2 : List Byte) (x3 : Bool) (lost : Nat) : Sys2Proof.Laws.Fields.Statement (.writeMb p n x2 x3 lost) := fun _ _ e => nomatch e
theorem Sys2Proof.Laws.Fields.fieldLoss : Sys2Proof.Laws.Fields.Statement (.fieldLoss) := fun _ _ e => nomatch e
theorem Sys2Proof.Laws.Fields.haltSilenceEnd : Sys2Proof.Laws.Fields.Statement (.haltSilenceEnd) := fun _ _ e => nomatch e
theorem Sys2Proof.Laws.Fields.badgeTsCommit (m : Nat) (max : Nat) : Sys2Proof.Laws.Fields.Statement (.badgeTsCommit m max) := by
  intro hwf mst heq
  have hwf : (decide (m < 25) && decide (max < 65536)) = true := hwf
  simp only [Bool.and_eq_true, decide_eq_true_eq] at hwf
  cases heq
  exact hwf.1
theorem Sys2Proof.Laws.Fields.badgeTsAbort (m : Nat) : Sys2Proof.Laws.Fields.Statement (.badgeTsAbort m) := by
  intro hwf mst heq
  have hwf : (decide (m < 25)) = true := hwf
  cases heq
  exact of_decide_eq_true hwf
theorem Sys2Proof.Laws.Fields.tsCommitResume : Sys2Proof.Laws.Fields.Statement (.tsCommitResume) := fun _ _ e => nomatch e
theorem Sys2Proof.Laws.Fields.tsFlip : Sys2Proof.Laws.Fields.Statement (.tsFlip) := fun _ _ e => nomatch e
theorem Sys2Proof.Laws.Fields.badgeStatRead (m : Nat) : Sys2Proof.Laws.Fields.Statement (.badgeStatRead m) := by
  intro hwf mst heq
  have hwf : (decide (m < 25)) = true := hwf
  cases heq
  exact of_decide_eq_true hwf
theorem Sys2Proof.Laws.Fields.cardInsert : Sys2Proof.Laws.Fields.Statement (.cardInsert) := fun _ _ e => nomatch e
theorem Sys2Proof.Laws.Fields.cardRemoval (phase : Nat) (done : Nat) : Sys2Proof.Laws.Fields.Statement (.cardRemoval phase done) := fun _ _ e => nomatch e
theorem Sys2Proof.Laws.Fields.identify (x0 : List Word) (x1 : Bool) (count : Nat) (x3 : List (Nat × List Byte)) : Sys2Proof.Laws.Fields.Statement (.identify x0 x1 count x3) := fun _ _ e => nomatch e
theorem Sys2Proof.Laws.Fields.cartRead (m : Nat) (card : Nat) (blocks : Nat) (x3 : Word) (x4 : Word) : Sys2Proof.Laws.Fields.Statement (.cartRead m card blocks x3 x4) := by
  intro hwf mst heq
  have hwf : (decide (m < 25) && decide (card < 4) && decide (blocks < 65536)) = true := hwf
  simp only [Bool.and_eq_true, decide_eq_true_eq] at hwf
  cases heq
  exact hwf.1.1
theorem Sys2Proof.Laws.Fields.cartWrite (m : Nat) (card : Nat) (blocks : Nat) (x3 : Word) (x4 : Word) : Sys2Proof.Laws.Fields.Statement (.cartWrite m card blocks x3 x4) := by
  intro hwf mst heq
  have hwf : (decide (m < 25) && decide (card < 4) && decide (blocks < 65536)) = true := hwf
  simp only [Bool.and_eq_true, decide_eq_true_eq] at hwf
  cases heq
  exact hwf.1.1
theorem Sys2Proof.Laws.Fields.cmd13Status (m : Nat) (card : Nat) : Sys2Proof.Laws.Fields.Statement (.cmd13Status m card) := by
  intro hwf mst heq
  have hwf : (decide (m < 25) && decide (card < 4)) = true := hwf
  simp only [Bool.and_eq_true, decide_eq_true_eq] at hwf
  cases heq
  exact hwf.1
theorem Sys2Proof.Laws.Fields.eject (m : Nat) : Sys2Proof.Laws.Fields.Statement (.eject m) := by
  intro hwf mst heq
  have hwf : (decide (m < 25)) = true := hwf
  cases heq
  exact of_decide_eq_true hwf
theorem Sys2Proof.Laws.Fields.cartOpDone (res : Nat) (done : Nat) (x2 : List Byte) : Sys2Proof.Laws.Fields.Statement (.cartOpDone res done x2) := fun _ _ e => nomatch e
theorem Sys2Proof.Laws.Fields.powerOnReset : Sys2Proof.Laws.Fields.Statement (.powerOnReset) := fun _ _ e => nomatch e
theorem Sys2Proof.Laws.Fields.pinReset : Sys2Proof.Laws.Fields.Statement (.pinReset) := fun _ _ e => nomatch e
theorem Sys2Proof.Laws.Fields.warmReset : Sys2Proof.Laws.Fields.Statement (.warmReset) := fun _ _ e => nomatch e
theorem Sys2Proof.Laws.Fields.stewardRestart : Sys2Proof.Laws.Fields.Statement (.stewardRestart) := fun _ _ e => nomatch e
theorem Sys2Proof.Laws.Fields.stewardReattach : Sys2Proof.Laws.Fields.Statement (.stewardReattach) := fun _ _ e => nomatch e
theorem Sys2Proof.Laws.Fields.powerFailure : Sys2Proof.Laws.Fields.Statement (.powerFailure) := fun _ _ e => nomatch e
theorem Sys2Proof.Laws.Fields.auxSupplyLoss : Sys2Proof.Laws.Fields.Statement (.auxSupplyLoss) := fun _ _ e => nomatch e
theorem Sys2Proof.Laws.Fields.pllLock : Sys2Proof.Laws.Fields.Statement (.pllLock) := fun _ _ e => nomatch e
theorem Sys2Proof.Laws.Fields.pllLockRetry : Sys2Proof.Laws.Fields.Statement (.pllLockRetry) := fun _ _ e => nomatch e
theorem Sys2Proof.Laws.Fields.recoveredQualify (x0 : Int) : Sys2Proof.Laws.Fields.Statement (.recoveredQualify x0) := fun _ _ e => nomatch e
theorem Sys2Proof.Laws.Fields.recoveredLoss : Sys2Proof.Laws.Fields.Statement (.recoveredLoss) := fun _ _ e => nomatch e
theorem Sys2Proof.Laws.Fields.earlyActStart : Sys2Proof.Laws.Fields.Statement (.earlyActStart) := fun _ _ e => nomatch e
theorem Sys2Proof.Laws.Fields.callAlign (smp : Nat) (x1 : Nat) (x2 : Nat) : Sys2Proof.Laws.Fields.Statement (.callAlign smp x1 x2) := fun _ _ e => nomatch e
theorem Sys2Proof.Laws.Fields.roleSettlement : Sys2Proof.Laws.Fields.Statement (.roleSettlement) := fun _ _ e => nomatch e
theorem Sys2Proof.Laws.Fields.txFrameEnd (n : Nat) (mismatches : Nat) : Sys2Proof.Laws.Fields.Statement (.txFrameEnd n mismatches) := fun _ _ e => nomatch e
theorem Sys2Proof.Laws.Fields.vddioAuxReturn : Sys2Proof.Laws.Fields.Statement (.vddioAuxReturn) := fun _ _ e => nomatch e
theorem Sys2Proof.Laws.Fields.vddBadgeLoss : Sys2Proof.Laws.Fields.Statement (.vddBadgeLoss) := fun _ _ e => nomatch e
theorem Sys2Proof.Laws.Fields.refugePowerLoss : Sys2Proof.Laws.Fields.Statement (.refugePowerLoss) := fun _ _ e => nomatch e
theorem Sys2Proof.Laws.Fields.curtainSourceClears (id : Nat) : Sys2Proof.Laws.Fields.Statement (.curtainSourceClears id) := fun _ _ e => nomatch e
theorem Sys2Proof.Laws.Fields.mirrorFirstRecordArrives (x0 : Nat) : Sys2Proof.Laws.Fields.Statement (.mirrorFirstRecordArrives x0) := fun _ _ e => nomatch e
end

