-- ==== Sys2Proof/Tests/Slice0.lean ====
section
/-! SUPPORT. Tests: the checks of WellFormed refuse an ill-formed command each, some words of the manual's tables and worked examples, and for every statement states and operands that meet its
hypotheses together. -/

set_option maxRecDepth 8000

set_option linter.unusedVariables false

namespace Sys2Proof.Tests

open Sys2Proof Sys2Proof.Machine

/-- Ill-formed commands: in each one operand stands at the bound of its check. -/
theorem test_wellFormed_refuses_1 : ([.registerWrite 25 0 0#32, .modeReqGo 0 8, .commitGo 0 13 0 0, .commitGo 0 0 4 0, .commitGo 0 0 0 16384, .mark 16384, .pinCueEffect 256, .ticketDeadline 1024, .cueTicketDone 0 0 16, .linkCfgWrite 0 4 0#32, .frameAuthenticate 2 0, .frameAuthenticate 0 9, .ddEntryAge 2, .ptpSyncRx 0 256 0 0 0 0, .ptpSyncRx 0 0 256 0 0 0, .soloistCntClear 0 3 0#32] : List Instr).all (fun i => !i.wellFormed) = true := by decide

/-- Ill-formed commands: in each one operand stands at the bound of its check. -/
theorem test_wellFormed_refuses_2 : ([.queueEnable 0 262144 0#32, .copyEnqueue 0 0 (2 ^ 32) 0, .copyEnqueue 0 0 0 65536, .notifyPop 0 32, .gatherComplete 256, .packerWrite 0 48 0 0#64, .packerWrite 0 0 4 0#64, .bankWakeDone 64, .bundleIssue 9 0 0, .irqPendClear 0 8 0#32, .irqRouteWrite 0 256 0#32, .coreHold 0 8 false, .groupSupplyChange 32 0, .groupSupplyChange 0 3, .dtVerdict 16, .laneUp 2] : List Instr).all (fun i => !i.wellFormed) = true := by decide

/-- Ill-formed commands: in each one operand stands at the bound of its check. -/
theorem test_wellFormed_refuses_3 : ([.hello 4 [], .selftestRun 6 false, .memberSilent 64, .keySend 4096 0 0 0, .keySend 0 (2 ^ 32) 0 0, .keySend 0 0 0 65536, .enc 8 none, .massifJobStart 3 false, .drbgReseed 2, .curtainSourceAssert 16, .logMarkCopied 0 16, .bedrockCmdDone 5 false, .patrolRead 0 256 0 false, .patrolRead 0 0 16 false, .relayTimeout 64, .limitWindowEnd 65536 0] : List Instr).all (fun i => !i.wellFormed) = true := by decide

/-- Ill-formed commands: in each one operand stands at the bound of its check. -/
theorem test_wellFormed_refuses_4 : ([.limitWindowEnd 0 32, .recLatchRead 0 4, .activate 0 4, .exchange 0 257, .tagRead 65536 0, .tagRead 0 256, .writeMb 0 0 [] false 6, .badgeTsCommit 0 65536, .cardRemoval 4 0, .cardRemoval 0 65536, .cartRead 0 4 0 0#32 0#32, .cartRead 0 0 65536 0#32 0#32, .cartOpDone 12 0 [], .callAlign 65536 0 0] : List Instr).all (fun i => !i.wellFormed) = true := by decide

/-- The same commands with the operand just inside its range are well formed. -/
theorem test_wellFormed_admits : ([.commitGo 24 12 3 16383, .enqueueStore 24 262143 0, .pinInputChange 255 none 0, .lateErrorPop 24 8] : List Instr).all Instr.wellFormed = true := by decide

/-- A status of 256 is no status byte. -/
theorem test_wellFormed_refuses_status :
    (Instr.intervalAck { ver := 1, id := 0, slot := 5, frag := 1, prot := 0, len := 0, seq := 1, frame := 0, st := 0, mac := 0, tagOk := true, old := false } 256).wellFormed = false := by decide

/-- The reset value of SYS_STATE for an ISSUED device with no latched curtain (R19), and the mode of R17. -/
theorem test_reset_state : State.reset.reg A.SYS_STATE = 0x40000081#32 ∧ State.reset.mode = .rehearsal ∧ State.reset.lifecycle = .issued := by decide

/-- After reset only master 8 may access a Terrace bank (R224). -/
theorem test_reset_grants_master_8_alone : (colCheck State.reset 8 0x10000000 4 .write).isNone = true ∧ (colCheck State.reset 0 0x10000000 4 .read).isSome = true := by decide

/-- The check value of R80: the CRC-32C of the nine octets "123456789". -/
theorem test_crc32c_check_value : crc32c [0x31#8, 0x32#8, 0x33#8, 0x34#8, 0x35#8, 0x36#8, 0x37#8, 0x38#8, 0x39#8] = 0xE3069283 := by decide +kernel

/-- Bundle C1 of the worked CRC of the Ridge chapter: four syllables, the K syllable extending ori. -/
theorem test_bundle_c1 : (bundleOf [(0, 0x08C703FF#32), (4, 0x603FFFFF#32), (8, 0x30480808#32), (12, 0xD24A1400#32)] false).map
    (·.map fun y => (y.unit, y.op, y.dst, y.src1, y.imm)) =
    some [(0, 0x23, 7, 0, 0xFFFFFFFF#64), (3, 0x01, 8, 2, 8#64), (5, 0x09, 10, 5, BitVec.ofInt 64 0)] := by decide

/-- The dbnz of the worked loop: 0xD183_03FC is STOP 1, unit B, OP 6, DST 3, i = -4. -/
theorem test_syllable_dbnz : stopOf 0xD18303FC#32 = true ∧ (bundleOf [(0, 0xD18303FC#32)] false).map (·.map fun y => (y.unit, y.op, y.dst, y.imm)) =
    some [(5, 6, 3, BitVec.ofInt 64 (-4))] := by decide

/-- Entry 9 of the cue list of Harrow Edge, as its four words are given. -/
theorem test_cue_entry_9 : let e := CueEnt.of 0xC8E09858#32 0x200#32 0x7918#32 0#32
    e.v = true ∧ e.standing = true ∧ e.prio = 1 ∧ e.action = 1 ∧ e.tkt = true ∧ e.latepol = 2 ∧ e.deadline = 39000 ∧ e.tindex = 2 ∧ e.offset = 31000 := by decide

/-- B(600,000) at 4,800 frames/s is 62,500,000,000 ticks after CALL (the worked frame of the cue chapter). -/
theorem test_frame_600000 : 600000 * rateInt 1 + 600000 * rateNum 1 / rateDen 1 = 62500000000 := by decide

/-- The vector of an interrupt lies at xvec + 0x200 (R198). -/
theorem test_interrupt_vector : (CoreSt.reset.enter cINTERRUPT 0 0).pc = 0x200#32 := by decide


def W : State := State.reset
def on (s : State) (f : Fld) : State := s.wr f 1
def inMode (c : Nat) : State := W.wr F.SYS_STATE_MODE c
def due (w0 : Word) : Occ := { idx := 0, time := 0, at_ := 0, w0 := w0, w1 := 0, w2 := 0, w3 := 0 }
def withCue (w0 : Word) : State := on { W with cue.carry := [due w0] } F.CUE_CTRL_RUN
def tk : Ticket := { cue := 0, owner := none, deadline := none, late := false, since := 0, age := 0, serial := 0 }
def pc0 : PinCue := { pin := 0, op := 0, width := 0, time := 0, ticket := none }
def up (s : State) (n : Nat) : State := on s (F.SP_LINK_STAT_UP n)
def fr : RxFrame := { len := 64, errored := false, dmac := 0, smac := 1, vid := none, pcp := 0, etype := 0x88BA, red := none, appid := 0, idOctets := [], sim := false, apdu := .malformed, ext := some { kid := 0, tag := [] }, octets := [], raw := [] }
def rel0 : RelPre := { list := 0, time := 0, ticket := none, word := 0#32, descs := some [], frames := [], frames2 := [] }
def ptpW (st : Nat) : State := (on (on (up W 0) F.SWITCH_PTP_CFG_EN) F.SWITCH_PTP_CFG_ONE_STEP).wr F.SWITCH_PTP_PORT_STATE st
def allM (s : State) : State := (s.setReg (A.WINGS_PROFILE_PM 0) 0x1FFFFFF#32).setReg (A.WINGS_PROFILE_CM 0) 0x1FFFFFF#32
def wq (q : QRec) : State := { allM W with wing.queues := [(0, q)] }
def qOn : QRec := { QRec.off with base := 0x400000, v := true, depth := 3, tail := 1 }
def g0 : Gather := { ens := 0, frame := 0, cfg := W.ensCfg 0, ticket := none, epoch := 0, oldHeld := none }
def pk (p : Packer) : State := { W with packers := [(0, p)], live := [(A.PACKER_CFG 0, 0x80000000#32)] }
theorem pair_of {α β : Type} {a : α × β} {x : α} (h : a.1 = x) : a = (x, a.2) := by
  subst h; rfl
def coreW (n : Nat) (c : CoreSt) : State := { W with cores := [(n, c)] }
def running : CoreSt := { CoreSt.reset with running := true }
def irqCore (w : Bool) : State := ((coreW 0 { running with waiting := w, ienable := 1, xstat := 1 }).setReg (A.IRQ_PEND 0) 1#32).setReg (A.IRQ_ROUTE 0) 0#32
def vl : Viol := { unit := 0, index := 0, av := true, kind := 0, straddle := false, master := 3, region := 0, hard := false, addr := 5#32 }
def le0 : LateErr := { av := true, kind := 0, size := 0, count := 0, addr := 5#32 }
def st0 : BufStore := { addr := 0, size := 0, data := 0 }
def mm0 : MirrorMsg := { frame := 0, epoch := 0, trunc := false, resync := false, st := 0, digest := 0, pdigest := 0, hold := 0, health := 0, handover := false, departure := false, switch := 0, pins := none, config := [], cues := [], queues := [], checkpoints := [], lines := [] }
def xf : Xfer := { start := 0, ticket := none, msg := mm0, lines := [], control := 0 }
def ml0 : MirrorLine := { bank := 0, line := 0, bytes := [], poison := [] }
def tr0 : TReq := { master := 0, waited := 0, rescue := false, write := false, addr := 0x10000000, len := 8, data := [], ecc := 0, atomic := 0 }
def dt0 : DtEval := { group := 0, due := 0, start := 0, delay := 0, frame := 0, ticket := none, first := (0, 0), old := none, counted := false }
def irigS : State := { on W (F.PINS_GRP_STAT_SUPPLY_OK 0) with live := [(A.PINS_CFG 0, 0xC0000000#32)] }
def us (st role : Nat) : State := (W.wr F.UNDERSTUDY_STAT_STATE st).wr F.SYS_STATE_PAIR_ROLE role
def usM (c : Nat) : State := (us 3 1).wr F.SYS_STATE_MODE c
theorem pair1 {α β : Type} (a : α × β) : a = (a.1, a.2) := rfl
theorem pair2 {α β γ : Type} (a : (α × β) × γ) : a = ((a.1.1, a.1.2), a.2) := rfl
def hd : THead := { ver := 1, id := 0, slot := 5, frag := 1, prot := 0, len := 0, seq := 1, frame := 0, st := 0, mac := 0, tagOk := true, old := false }
def cj : ChJob := { op := 0, slot := 0, nblk := 0, src := 0, dst := 0, xsrc := 0, req := 0, key := [], status := none, blocks := 0 }
def director : State := { W.wr F.SYS_STATE_TROUPE_ROLE 1 with live := [(A.TROUPE_CFG_A, 0x80000000#32)], troupe.bkey := some [], troupe.sessions := [(5, some [])] }
def player : State := { W.wr F.SYS_STATE_TROUPE_ROLE 2 with live := [(A.TROUPE_CFG_A, 0x80000003#32)], troupe.bkey := some [], troupe.sessions := [(0, some [])] }
def hdD (p : Nat) : THead := { hd with slot := 0, prot := p }
def hdP (p : Nat) : THead := { hd with prot := p }
def tkey : TKey := { entry := 0, kid := 0, change := 0, overlap := 0, len256 := false, value := 0, wrapOk := true }
def ex0 : KeyExch := { slot := 5, entry := 0, kid := 7, change := 0, overlap := 0, retries := 0, key := [], body := [] }
def thealth : THealth := { word := 0, mode := 2, offset := 0, call := 0, rate := 0, hold := 0 }
def mj : MJob := { op := 0, keyref := 0, dkey := 0, twice := true, keybus := false, nout := 0, src := 0, srclen := 0, dst := 0, dstlen := 0, ctx := 0, tag := 0, page := 0, req := 0, key := [], key2 := [], status := none, valid := false }
def mrun (op c : Nat) : State := { W with massif.running := [(c, some { mj with op := op })] }
def chan0 (q : List ChJob) (r : Option ChJob) : State := { W with chorus.chans := [(0, { ChState.idle with queue := q, running := r })] }
def bc : BrkCmd := { master := 8, page := some 0, op := 1, bank := 0, addr := 0x20200000, src := 0, data := none, started := false }
def armedB : State := { W with brk.armed := [(0, 2)] }
def ce : CurEntry := { cause := 3, z := true, withheld := false }
def lk : LimKey := { code := 1, src := 2, stop := 3, count := 0, held := none, seen := 0 }
def tracing : State := on { W with trace.items := [(2, [1#8])] } F.OBSERVE_TRACE_CFG_EN
def cart0 : State := on (on (on W F.CART_CFG_EN) F.CART_STAT_PRESENT) (F.CART_CARD_V 0)
def rdr : State := (on W F.BADGE_CFG_READER_EN).wr F.BADGE_STAT_EXT_FIELD 0
def tagIn (n : Nat) : State := { W with badge.tag := n }
def dueRec : State := { W with book.ring := [({ fillerRec with st := 0 }, false)], st := 0x1000000000000 }
def cmd : Cmd := { op := 0x0105, sess := 255, troupe := false, prot := false, seq := 0, body := [], size := 0, phase := 1, mute := false, note := [] }
def sess0 : Sess := { state := 2, troupe := false, entry := 0, service := false, rights := 15, kcmd := [], krep := [], kxfer := [], digest := [], high := 0, seen := [], rseq := 0, fails := 0, replays := 0 }
def hosted : State := { on W F.HOST_CFG_EN with desk.running := true }
def icmd (op : Nat) (body : List Byte) : Cmd := { cmd with op := op, body := body }
def inFlight (op : Nat) (body : List Byte) : State := { W with desk.cmds := [icmd op body] }
def qS : QRec := { QRec.off with base := 0x400000, v := true, esize := 3, depth := 3, tail := 1 }
/-- Service request `lo`, `hi` (the octets of SVC) at the head of service queue `n`. -/
def wSvc (n : Nat) (lo hi : Byte) : State := { W with
  wing.queues := [(Config.serviceQueue 0 + n, qS)], desk.running := true, mem := [(0x10000002, lo), (0x10000003, hi)] }
def rSvc (n : Nat) (lo hi : Byte) : SvcReq := SvcReq.of n ([0#8, 0#8, lo, hi] ++ List.replicate 60 0#8)
theorem queue_svc (n i : Nat) (lo hi : Byte) : (wSvc n lo hi).queue (Config.serviceQueue 0 + i) = if n = i then qS else QRec.off := by
  simp [State.queue, wSvc, look, eq_comm]
theorem svcHead_svc (n : Nat) (lo hi : Byte) (hn : n = 0 ∨ n = 8) : (wSvc n lo hi).svcHead = some (rSvc n lo hi) := by
  have h : ∀ i, ((wSvc n lo hi).queue ((wSvc n lo hi).svcBase + i)) = if n = i then qS else QRec.off := fun i => queue_svc n i lo hi
  have e : (wSvc n lo hi).entryAt ((wSvc n lo hi).svcBase + n) 0 = [0#8, 0#8, lo, hi] ++ List.replicate 60 0#8 := by
    unfold State.entryAt
    rw [h, if_pos rfl]
    rfl
  unfold State.svcHead
  simp only [h]
  have m : (wSvc n lo hi).mode = Mode.rehearsal := (show (wSvc n lo hi).mode = W.mode from rfl).trans (by decide)
  have d : (wSvc n lo hi).desk.running = true := rfl
  rw [m, d, if_neg (by decide)]
  have f : (List.range 9).find? (fun i => (if n = i then qS else QRec.off).v && decide (0 < (if n = i then qS else QRec.off).fill)) = some n := by
    rcases hn with rfl | rfl <;> decide
  rw [f]
  exact congrArg (fun x => some (SvcReq.of n (padTo 64 x))) e
def f5 : VFile := { name := Config.actFile ((rSvc 0 5 0).args.take 16), gen := 1, data := [], crcOk := true }
theorem serial16_length : serial16.length = 16 := by simp [serial16, padTo]; omega
theorem serial_slice (l : List Byte) : sliceB (serial16 ++ l) 0 16 = serial16 := by
  simp [sliceB, List.take_append, serial16_length]
/-- An unlock token for a state whose challenge is 0 and whose Refuge log is empty. -/
def token : List Byte := [0x55, 0x4E, 0x4C, 0x4B, 1, 0, 0, 0] ++ serial16 ++ List.replicate 40 0#8
theorem token_fits {s : State} (h : s.challenge = List.replicate 32 0#8) (h1 : s.rd F.REFUGE_STAT_TOTAL = 0) : s.tokenFits token = true := by
  obtain ⟨l, hl⟩ : ∃ l, serial16 = l := ⟨_, rfl⟩
  have e : l.length = 16 := hl ▸ serial16_length
  unfold State.tokenFits token
  rw [h, h1, show padTo 16 Config.serial = l from hl, hl]
  match l, e with
  | [a0, a1, a2, a3, a4, a5, a6, a7, a8, a9, a10, a11, a12, a13, a14, a15], _ => simp [sliceB, beBytes, beNat, byteAt]
def f0 : VFile := { name := sliceB [] 1 16, gen := 1, data := [], crcOk := true }
theorem unlock_reason {s : State} (h : s.challenge = List.replicate 32 0#8) (h1 : s.rd F.REFUGE_STAT_TOTAL = 0) (h2 : s.flag F.CURTAIN_STAT_UNLOCK_BLOCKED = false)
    (h3 : s.rd F.CURTAIN_STAT_ACTIVE = 0) (h4 : s.lifecycle = .issued) : s.unlockReason token = none := by
  unfold State.unlockReason
  rw [token_fits h h1, h2, h3, h4]
  decide
def wUnlock : State := { inFlight 0x0C02 token with regs := (inMode 5).regs }
theorem unlock_check : ((wUnlock.dropCmd 0).unlockCheck ((icmd 0x0C02 token).body.take 64) true).rd F.CURTAIN_UNLOCK_STAT_RESULT = ulACCEPTED := by
  have e : (icmd 0x0C02 token).body.take 64 = token := List.take_of_length_le (by simp [icmd, token, serial16_length])
  have r : (wUnlock.dropCmd 0).unlockReason token = none := unlock_reason (by decide) (by decide) (by decide) (by decide) (by decide)
  rw [e]
  unfold State.unlockCheck
  rw [if_neg (by decide), r]
  decide

theorem test_meets_FrameAndTimeCommands_1 :
  (∃ s : State, ∃ t : State, ∃ m : Nat, ∃ a : Nat, ∃ w : Word, (s.mayWrite m a = true) ∧ (0x40000000 ≤ a) ∧ (a < 0x401E0000) ∧ (a % 4 = 0) ∧ (¬(packerIn 0 ≤ a ∧ a < packerIn 48)) ∧ (s.regWrite m a w = (none, t)))
  ∧ (∃ s : State, ∃ m : Nat, ∃ b : Nat, ∃ when_ : Nat, ∃ c : Nat, (b < 13) ∧ (when_ < 3) ∧ (c < 16384) ∧ (s.mayWrite m (A.BLOCK_COMMIT (pairedBase b)) = true) ∧ (s.pendingIn (pairedBase b) = false) ∧ (s.goOk (pairedBase b) when_ c = true))
  ∧ (∃ s : State, ∃ m : Nat, ∃ b : Nat, (b < 13) ∧ (s.mayWrite m (A.BLOCK_COMMIT (pairedBase b)) = true))
  ∧ (∃ s : State, ∃ m : Nat, ∃ b : Nat, (b < 13) ∧ (s.mayWrite m (A.BLOCK_COMMIT (pairedBase b)) = true))
  ∧ (∃ s : State, ∃ b : Nat, (b < 13) ∧ (s.pendingIn (pairedBase b) = true) ∧ ((s.pendWhen (pairedBase b)).1 = 0) ∧ (s.opUnderWay (pairedBase b) = false) ∧ (s.dueRefused (pairedBase b) = false))
  ∧ (∃ s : State, ∃ m : Nat, ∃ t : Nat, (t < 6) ∧ (s.mayWrite m A.SYS_MODE_REQ = true) ∧ (s.requestOk (Mode.ofCode t) = true)) := by
  refine ⟨?_, ?_, ?_, ?_, ?_, ?_⟩
  · refine ⟨(W), ((W.regWrite 8 0x40000008 0#32).2 : State), (8 : Nat), (0x40000008 : Nat), (0#32 : Word), ?_, ?_, ?_, ?_, ?_, rfl⟩ <;> decide
  · refine ⟨(W), (8 : Nat), (0 : Nat), (0 : Nat), (0 : Nat), ?_, ?_, ?_, ?_, ?_, ?_⟩ <;> decide
  · refine ⟨(W), (8 : Nat), (0 : Nat), ?_, ?_⟩ <;> decide
  · refine ⟨(W), (8 : Nat), (0 : Nat), ?_, ?_⟩ <;> decide
  · refine ⟨((on W (F.BLOCK_COMMIT_STATUS_PENDING (pairedBase 0))) : State), (0 : Nat), ?_, ?_, ?_, ?_, ?_⟩ <;> decide
  · refine ⟨((usM 3).setReg A.UNDERSTUDY_PEER_HEALTH 0xA0000000#32 : State), (8 : Nat), (4 : Nat), ?_, ?_, ?_⟩ <;> decide

theorem test_meets_FrameAndTimeCommands_2 :
  (∃ s : State, ∃ m : Nat, ∃ w : Word, (s.mayWrite m A.SYS_LC_ADV = true) ∧ (getBits w 31 16 = 0x4C43) ∧ (s.lcOk (getBits w 2 0) = true) ∧ (s.flag F.SYS_LC_STAT_BUSY = false))
  ∧ (∃ s : State, (s.armed .lcProgram = true))
  ∧ (∃ s : State, ∃ m : Nat, (s.mayRead m A.STIME_NOW_LO = true))
  ∧ (∃ s : State, ∃ m : Nat, (s.mayRead m A.STIME_FRAME_LO = true))
  ∧ (∃ s : State, ∃ m : Nat, (s.mayRead m A.STIME_COARSE_LO = true))
  ∧ (∃ s : State, (s.armed .servoLoss = true) ∧ ((s.elapsed .servoLoss).servo = servoLOCKED ∨ (s.elapsed .servoLoss).servo = servoACQUIRE)) := by
  refine ⟨?_, ?_, ?_, ?_, ?_, ?_⟩
  · refine ⟨(W), (8 : Nat), (0x4C430003#32 : Word), ?_, ?_, ?_, ?_⟩ <;> decide
  · refine ⟨((W.arm .lcProgram 7) : State), ?_⟩
    decide
  · refine ⟨(W), (8 : Nat), ?_⟩
    decide
  · refine ⟨(W), (8 : Nat), ?_⟩
    decide
  · refine ⟨(W), (8 : Nat), ?_⟩
    decide
  · refine ⟨(((W.wr F.STIME_STATE_STATE 2).arm .servoLoss 7) : State), ?_, ?_⟩ <;> decide

theorem test_meets_FrameAndTimeCommands_3 :
  (∃ s : State, (s.armed .holdLimit = true) ∧ ((s.elapsed .holdLimit).unsynced = false) ∧ ((s.elapsed .holdLimit).unsyncedRule = true))
  ∧ (∃ s : State, (s.rd F.STIME_CTRL_SRC = 3) ∧ (s.stime.switchDue = true) ∧ (s.servo = servoHOLDOVER) ∧ ∃ u : State, (u = s.reachST s.nextMark))
  ∧ (∃ s : State, (s.rd F.STIME_CTRL_SRC = 3) ∧ (s.stime.switchDue = false) ∧ (s.rd F.STIME_STATE_SRC_ACTIVE = srcIRIG) ∧ (s.ptpBack = true))
  ∧ (∃ s : State, ∃ m : Nat, (s.mayWrite m A.STIME_CTRL = true) ∧ (s.mode ≠ .lead) ∧ (s.mode ≠ .understudy) ∧ (s.rd F.STIME_CTRL_SRC ≠ 0))
  ∧ (∃ s : State, ∃ agree : Bool, (s.timeRuns = true) ∧ (s.us.ho = 0) ∧ (s.us.dualDue = false) ∧ (s.modeReq = none) ∧ (s.troupe.interval = none) ∧ (0 ≤ s.stime.gridN + 1) ∧ (s.nothingPends = true) ∧ (s.flag F.STIME_STATE_STEP_PENDING = false)) := by
  refine ⟨?_, ?_, ?_, ?_, ?_⟩
  · refine ⟨(((W.wr F.SYS_STATE_UNSYNCED 0).arm .holdLimit 7) : State), ?_, ?_, ?_⟩ <;> decide
  · refine ⟨({ ((W.wr F.STIME_CTRL_SRC 3).wr F.STIME_STATE_SRC_ACTIVE srcPTP).wr F.STIME_STATE_STATE servoHOLDOVER with stime.switchDue := true, stime.irigMarks := [0, 0, 0] } : State), ?_, ?_, ?_, _, rfl⟩ <;> decide
  · refine ⟨({ (W.wr F.STIME_CTRL_SRC 3).wr F.STIME_STATE_SRC_ACTIVE srcIRIG with stime.ptpSeen := 255, stime.ptpLast := some 0 } : State), ?_, ?_, ?_, ?_⟩ <;> decide
  · refine ⟨((W.wr F.STIME_CTRL_SRC 1) : State), (8 : Nat), ?_, ?_, ?_, ?_⟩ <;> decide
  · refine ⟨(W), (true : Bool), ?_, ?_, ?_, ?_, ?_, ?_, ?_, ?_⟩ <;> decide

theorem test_meets_CueDispatchCommands_1 :
  (∃ s : State, ∃ o : Occ, (s.dueNow o = true) ∧ (o.ent.action = 0))
  ∧ (∃ s : State, ∃ o : Occ, (s.dueNow o = true) ∧ (o.ent.action = 1))
  ∧ (∃ s : State, ∃ o : Occ, (s.dueNow o = true) ∧ (o.ent.action = 2))
  ∧ (∃ s : State, ∃ o : Occ, (s.dueNow o = true) ∧ (o.ent.action = 3))
  ∧ (∃ s : State, ∃ o : Occ, (s.dueNow o = true) ∧ (o.ent.action = 4))
  ∧ (∃ s : State, ∃ o : Occ, (s.dueNow o = true) ∧ (o.ent.action = 5)) := by
  refine ⟨?_, ?_, ?_, ?_, ?_, ?_⟩
  · refine ⟨(withCue (BitVec.ofNat 32 (0 * 2 ^ 23)) : State), (due (BitVec.ofNat 32 (0 * 2 ^ 23)) : Occ), ?_, ?_⟩
    · decide +kernel
    · decide
  · refine ⟨(withCue (BitVec.ofNat 32 (1 * 2 ^ 23)) : State), (due (BitVec.ofNat 32 (1 * 2 ^ 23)) : Occ), ?_, ?_⟩
    · decide +kernel
    · decide
  · refine ⟨(withCue (BitVec.ofNat 32 (2 * 2 ^ 23)) : State), (due (BitVec.ofNat 32 (2 * 2 ^ 23)) : Occ), ?_, ?_⟩
    · decide +kernel
    · decide
  · refine ⟨(withCue (BitVec.ofNat 32 (3 * 2 ^ 23)) : State), (due (BitVec.ofNat 32 (3 * 2 ^ 23)) : Occ), ?_, ?_⟩
    · decide +kernel
    · decide
  · refine ⟨(withCue (BitVec.ofNat 32 (4 * 2 ^ 23)) : State), (due (BitVec.ofNat 32 (4 * 2 ^ 23)) : Occ), ?_, ?_⟩
    · decide +kernel
    · decide
  · refine ⟨(withCue (BitVec.ofNat 32 (5 * 2 ^ 23)) : State), (due (BitVec.ofNat 32 (5 * 2 ^ 23)) : Occ), ?_, ?_⟩
    · decide +kernel
    · decide

theorem test_meets_CueDispatchCommands_2 :
  (∃ s : State, ∃ o : Occ, (s.dueNow o = true) ∧ (o.ent.action = 6))
  ∧ (∃ s : State, ∃ o : Occ, (s.dueNow o = true) ∧ (o.ent.action = 7) ∧ (0 < ((s.atLaunch o).2.queue o.ent.tindex).fill))
  ∧ (∃ s : State, ∃ o : Occ, (s.dueNow o = true) ∧ (o.ent.action = 8))
  ∧ (∃ s : State, ∃ o : Occ, (s.dueNow o = true) ∧ (o.ent.action = 9))
  ∧ (∃ s : State, ∃ o : Occ, (s.dueNow o = true) ∧ (o.ent.action = 10))
  ∧ (∃ s : State, ∃ o : Occ, (s.dueNow o = true) ∧ (o.ent.action = 11)) := by
  refine ⟨?_, ?_, ?_, ?_, ?_, ?_⟩
  · refine ⟨(withCue (BitVec.ofNat 32 (6 * 2 ^ 23)) : State), (due (BitVec.ofNat 32 (6 * 2 ^ 23)) : Occ), ?_, ?_⟩
    · decide +kernel
    · decide
  · refine ⟨({ withCue (BitVec.ofNat 32 (7 * 2 ^ 23)) with wing.queues := [(0, { QRec.off with v := true, depth := 3, tail := 1 })] } : State), (due (BitVec.ofNat 32 (7 * 2 ^ 23)) : Occ), ?_, ?_, ?_⟩
    · decide +kernel
    · decide
    · decide
  · refine ⟨(withCue (BitVec.ofNat 32 (8 * 2 ^ 23)) : State), (due (BitVec.ofNat 32 (8 * 2 ^ 23)) : Occ), ?_, ?_⟩
    · decide +kernel
    · decide
  · refine ⟨(withCue (BitVec.ofNat 32 (9 * 2 ^ 23)) : State), (due (BitVec.ofNat 32 (9 * 2 ^ 23)) : Occ), ?_, ?_⟩
    · decide +kernel
    · decide
  · refine ⟨(withCue (BitVec.ofNat 32 (10 * 2 ^ 23)) : State), (due (BitVec.ofNat 32 (10 * 2 ^ 23)) : Occ), ?_, ?_⟩
    · decide +kernel
    · decide
  · refine ⟨(withCue (BitVec.ofNat 32 (11 * 2 ^ 23)) : State), (due (BitVec.ofNat 32 (11 * 2 ^ 23)) : Occ), ?_, ?_⟩
    · decide +kernel
    · decide

theorem test_meets_CueTableCommands_1 :
  (∃ s : State, ∃ u : State, ∃ w : State, ∃ i : Nat, ∃ o : Occ, (s.flag F.CUE_CTRL_RUN = true) ∧ ((s.cue.waiting.find? fun x => x.idx == i) = some o) ∧ (s.preRoom o.ent = true) ∧ (u = (s.openTick (s.placeAt s.now)).commitCues [i]) ∧ (u.cue.waiting.contains o = true) ∧ (u.preRoom o.ent = true) ∧ (w = State.occDone { u with cue.waiting := u.cue.waiting.erase o } o) ∧ (w.now ≤ o.time) ∧ (w.isLate o = false))
  ∧ (∃ s : State, ∃ p : Nat, ∃ c : PinCue, ((s.pin.pre.filter fun x => x.pin == p) = [c]) ∧ (s.pinFunc p = 2))
  ∧ (∃ s : State, ∃ u : State, ∃ p : Nat, (s.armed (.pulse p) = true) ∧ (u = s.elapsed (.pulse p)) ∧ (u.ownCues = true) ∧ (u.pinFunc p = 2))
  ∧ (∃ s : State, ∃ t : Nat, ∃ k : Ticket, (s.armed (.ticket t) = true) ∧ ((s.elapsed (.ticket t)).ticket t = some k) ∧ (k.late = false))
  ∧ (∃ s : State, ∃ t : Nat, ∃ k : Ticket, (s.ticket t = some k) ∧ (s.reclaimable k = true))
  ∧ (∃ s : State, ∃ m : Nat, ∃ t : Nat, ∃ st : Nat, ∃ k : Ticket, (s.mayWrite m A.CUE_TICKET_DONE = true) ∧ (t < 1024) ∧ (st < 2) ∧ (s.ticket t = some k) ∧ (m = 8 ∨ k.owner = some m)) := by
  refine ⟨?_, ?_, ?_, ?_, ?_, ?_⟩
  · refine ⟨(on { W with cue.waiting := [due 0] } F.CUE_CTRL_RUN : State), _, _, (0 : Nat), (due 0 : Occ), ?_, ?_, ?_, rfl, ?_, ?_, rfl, ?_, ?_⟩ <;> decide
  · refine ⟨({ W with live := [(A.PINS_CFG 0, 0x40000000#32)], pin.pre := [pc0] } : State), (0 : Nat), (pc0 : PinCue), ?_, ?_⟩ <;> decide
  · refine ⟨(({ W with live := [(A.PINS_CFG 0, 0x40000000#32)] } : State).arm (.pulse 0) 7 : State), _, (0 : Nat), ?_, rfl, ?_, ?_⟩ <;> decide
  · refine ⟨(({ W with cue.tickets := [(0, some tk)] }).arm (.ticket 0) 7 : State), (0 : Nat), (tk : Ticket), ?_, ?_, ?_⟩ <;> decide
  · refine ⟨({ W with cue.tickets := [(0, some { tk with late := true, age := 4000000000 })] } : State), (0 : Nat), ({ tk with late := true, age := 4000000000 } : Ticket), ?_, ?_⟩ <;> decide
  · refine ⟨({ W with cue.tickets := [(0, some tk)] } : State), (8 : Nat), (0 : Nat), (0 : Nat), (tk : Ticket), ?_, ?_, ?_, ?_, ?_⟩ <;> decide

theorem test_meets_CueTableCommands_2 :
  (∃ s : State, ∃ m : Nat, ∃ i : Nat, (s.mayWrite m A.CUE_EDIT_PUSH = true) ∧ (i < 16384))
  ∧ (∃ s : State, ∃ m : Nat, ∃ i : Nat, (s.mayWrite m A.CUE_EDIT_PUSH = true) ∧ (i < 16384))
  ∧ (∃ s : State, ∃ m : Nat, ∃ w : Word, (s.mayWrite m A.CUE_LOAD_DATA = true) ∧ (s.flag F.CUE_CTRL_RUN = false))
  ∧ (∃ s : State, ∃ m : Nat, (s.mayRead m A.CUE_LOAD_DATA = true))
  ∧ (∃ s : State, ∃ m : Nat, (s.mayWrite m A.CUE_CTRL = true) ∧ (s.mode ≠ .curtain) ∧ (s.flag F.CUE_CTRL_RUN = false))
  ∧ (∃ s : State, ∃ m : Nat, (s.mayWrite m A.CUE_CTRL = true)) := by
  refine ⟨?_, ?_, ?_, ?_, ?_, ?_⟩
  · refine ⟨(W), (8 : Nat), (0 : Nat), ?_, ?_⟩ <;> decide
  · refine ⟨(W), (8 : Nat), (0 : Nat), ?_, ?_⟩ <;> decide
  · refine ⟨(W), (8 : Nat), (0#32 : Word), ?_, ?_⟩ <;> decide
  · refine ⟨(W), (8 : Nat), ?_⟩
    decide
  · refine ⟨(W), (8 : Nat), ?_, ?_, ?_⟩ <;> decide
  · refine ⟨(W), (8 : Nat), ?_⟩
    decide

theorem test_meets_CueTableCommands_3 :
  (∃ s : State, ∃ m : Nat, (s.mayWrite m A.CUE_CTRL = true) ∧ (s.flag F.CUE_CTRL_RUN = false)) := by
  refine ⟨(W), (8 : Nat), ?_, ?_⟩ <;> decide

theorem test_meets_PortRegisterCommands_1 :
  (∃ s : State, ∃ m : Nat, ∃ n : Nat, ∃ w : Word, (n < 4) ∧ (s.mayWrite m (A.SP_LINK_CFG n) = true) ∧ (getBits w 2 0 ≤ 4) ∧ ((getBits w 2 0 ≠ s.rd (F.SP_LINK_CFG_MODE n) ∨ getBits w 4 4 ≠ s.rd (F.SP_LINK_CFG_AN n))) ∧ ∃ u : State, (u = ((if s.linkUp n then s.next.linkLost n (s.draw % 2 == 1) else (s.linkDrop n).sat (F.SP_LINK_STAT_DOWN_COUNT n)).wr (F.SP_LINK_CFG_MODE n) (getBits w 2 0)).wr (F.SP_LINK_CFG_AN n) (getBits w 4 4)))
  ∧ (∃ s : State, ∃ m : Nat, ∃ p : Nat, ∃ w : Word, (p < 2) ∧ (s.mayWrite m (A.SWITCH_RED_CFG p) = true) ∧ (s.rd (F.SP_LINK_CFG_MODE (2 * p)) = 0) ∧ (s.rd (F.SP_LINK_CFG_MODE (2 * p + 1)) = 0) ∧ (getBits w 31 30 ≠ 3) ∧ ∃ u : State, (u = s.setReg (A.SWITCH_RED_CFG p) (setBits (setBits (setBits 0#32 31 30 (getBits w 31 30)) 23 16 (getBits w 23 16)) 15 0 (getBits w 15 0))))
  ∧ (∃ s : State, ∃ m : Nat, ∃ n : Nat, ∃ w : Word, (s.mayWrite m A.SWITCH_PTP_PORT = true) ∧ ((List.range 4).filter (fun k => getBits w 7 0 / 4 ^ k % 4 == 2) = [n]))
  ∧ (∃ s : State, ∃ m : Nat, ∃ n : Nat, (n < 4) ∧ (s.mayWrite m (A.SP_CNT_CTRL n) = true))
  ∧ (∃ s : State, ∃ m : Nat, ∃ n : Nat, (n < 4) ∧ (s.mayWrite m (A.SP_CNT_CTRL n) = true))
  ∧ (∃ s : State, ∃ m : Nat, (s.mayWrite m A.SOLOIST_KEY_PUSH = true) ∧ (s.flag (F.BLOCK_COMMIT_STATUS_PENDING Base.SOLOIST) = false) ∧ (s.sol.changes = []) ∧ (s.solReason (s.rd F.SOLOIST_KEY_IDX_INDEX) false = 0)) := by
  refine ⟨?_, ?_, ?_, ?_, ?_, ?_⟩
  · refine ⟨(W), (8 : Nat), (0 : Nat), (1#32 : Word), ?_, ?_, ?_, ?_, _, rfl⟩ <;> decide
  · refine ⟨(W), (8 : Nat), (0 : Nat), (0#32 : Word), ?_, ?_, ?_, ?_, ?_, _, rfl⟩ <;> decide
  · refine ⟨(W), (8 : Nat), (0 : Nat), (2#32 : Word), ?_, ?_⟩ <;> decide
  · refine ⟨(W), (8 : Nat), (0 : Nat), ?_, ?_⟩ <;> decide
  · refine ⟨(W), (8 : Nat), (0 : Nat), ?_, ?_⟩ <;> decide
  · refine ⟨(W), (8 : Nat), ?_, ?_, ?_, ?_⟩ <;> decide

theorem test_meets_PortRegisterCommands_2 :
  (∃ s : State, ∃ m : Nat, (s.mayWrite m A.SOLOIST_KEY_PUSH = true) ∧ (s.flag (F.BLOCK_COMMIT_STATUS_PENDING Base.SOLOIST) = false) ∧ (s.sol.changes = []) ∧ (s.solReason (s.rd F.SOLOIST_KEY_IDX_INDEX) true = 0))
  ∧ (∃ s : State, ∃ m : Nat, ∃ k : Nat, ∃ w : Word, (k < 3) ∧ (s.mayWrite m (A.SOLOIST_CNT k) = true))
  ∧ (∃ s : State, ∃ m : Nat, ∃ t : Nat, ∃ i : Nat, (s.mayWrite m A.SWITCH_EDIT_PUSH = true) ∧ (t < 8) ∧ (i < 16384) ∧ (s.flag (F.BLOCK_COMMIT_STATUS_PENDING Base.SWITCH) = false) ∧ (s.sw.changes = []) ∧ ∃ ws : List Word, (ws = ((List.range 4).map fun k => if k < swWords t then s.reg (A.SWITCH_EDIT_W k) &&& swMask t k else 0#32)) ∧ (s.swReason t i false ws = 0))
  ∧ (∃ s : State, ∃ m : Nat, ∃ t : Nat, ∃ i : Nat, (s.mayWrite m A.SWITCH_EDIT_PUSH = true) ∧ (t < 8) ∧ (i < 16384) ∧ (s.flag (F.BLOCK_COMMIT_STATUS_PENDING Base.SWITCH) = false) ∧ (s.sw.changes = []) ∧ (s.swReason t i true (List.replicate 4 0#32) = 0)) := by
  refine ⟨?_, ?_, ?_, ?_⟩
  · refine ⟨(W), (8 : Nat), ?_, ?_, ?_, ?_⟩ <;> decide
  · refine ⟨(W), (8 : Nat), (0 : Nat), (0#32 : Word), ?_, ?_⟩ <;> decide
  · refine ⟨(W), (8 : Nat), (0 : Nat), (0 : Nat), ?_, ?_, ?_, ?_, ?_, _, rfl, ?_⟩ <;> decide
  · refine ⟨(W), (8 : Nat), (0 : Nat), (0 : Nat), ?_, ?_, ?_, ?_, ?_, ?_⟩ <;> decide

theorem test_meets_PortTrafficAndPtpCommands_1 :
  (∃ s : State, ∃ n : Nat, ∃ ok : Bool, (s.rd (F.SP_LINK_CFG_MODE n) ≠ 0) ∧ ((s.rd (F.SP_LINK_CFG_MODE n) = 2 → ok = true)) ∧ (s.linkUp n = false) ∧ (s.armed (.linkRestart n) = false) ∧ ∃ u : State, (u.mode ≠ .curtain) ∧ (u = (s.wr (F.SP_LINK_STAT_BLOCK_LOCK n) 1).wr (F.SP_LINK_STAT_AN_DONE n) (b2n ((s.rd (F.SP_LINK_CFG_MODE n) == 1 && s.flag (F.SP_LINK_CFG_AN n)) || s.rd (F.SP_LINK_CFG_MODE n) == 2))) ∧ (u.portHeld n = false))
  ∧ (∃ s : State, ∃ n : Nat, ∃ midFrame : Bool, (s.linkUp n = true))
  ∧ (∃ s : State, ∃ n : Nat, ∃ frac : Nat, ∃ f : RxFrame, (s.linkUp n = true) ∧ (f.errored = false) ∧ (64 ≤ f.len) ∧ (f.len ≤ 2000) ∧ ∃ u : State, (u = (s.satCnt (F.SP_RX_FRAMES_COUNT n)).wrapCnt (F.SP_RX_BYTES_COUNT n) f.len) ∧ (¬(u.redMode n = 2 ∧ f.smac = u.portMac n)) ∧ (bit (u.vlanMember (f.vid.getD 0)) n = true) ∧ (isGrid f.etype = true))
  ∧ (∃ s : State, ∃ v : State, ∃ u : State, ∃ k : Nat, ∃ mismatches : Nat, ∃ i : AuthItem, ∃ rest : List AuthItem, ∃ x : RxExt, ∃ sel : Nat, ∃ key : KeyVal, (s.authBuf k = i :: rest) ∧ (v = { s with ports.auth := put (fun _ => []) s.ports.auth k rest }) ∧ (i.frame.ext = some x) ∧ (i.frame.red = none) ∧ (getBits (i.words.getD 0 0#32) 30 29 ≠ 2) ∧ ((v.streamKey (getBits (i.words.getD 2 0#32) 31 20)).accept x.kid (frameAt v.call v.rate i.st) = .inr (sel, key)) ∧ (v.cipherMeets k mismatches = (false, u)))
  ∧ (∃ s : State, ∃ p : Nat, ∃ e : DdEntry, ∃ l : List DdEntry, (s.ddTable p = e :: l))
  ∧ (∃ s : State, ∃ a : State, ∃ b : State, ∃ u : State, ∃ v : State, ∃ p : Nat, ∃ q : Nat, ∃ fr : List Byte, (s.armed (.supSend p) = true) ∧ (a = s.elapsed (.supSend p)) ∧ (b = a.arm (.supSend p) (a.supTicks p)) ∧ (b.mode ≠ .curtain) ∧ (fr = Config.supFrame (b.redMode (2 * p)) (b.portMac (2 * p)) b.draw) ∧ (b.next.nextSeq p = (q, u)) ∧ (u.linkUp (2 * p) = true) ∧ (v = u.emit (2 * p) 1 (Config.redundant (u.redMode (2 * p)) (2 * p % 2) q fr)) ∧ (v.linkUp (2 * p + 1) = true)) := by
  refine ⟨?_, ?_, ?_, ?_, ?_, ?_⟩
  · refine ⟨(W.wr (F.SP_LINK_CFG_MODE 0) 1 : State), (0 : Nat), (true : Bool), ?_, ?_, ?_, ?_, _, ?_, rfl, ?_⟩ <;> decide
  · refine ⟨(up W 0 : State), (0 : Nat), (true : Bool), ?_⟩
    decide
  · refine ⟨({ up W 0 with sw.table := [(swKey 4 0 0, 1#32)] } : State), (0 : Nat), (0 : Nat), (fr : RxFrame), ?_, ?_, ?_, ?_, _, rfl, ?_, ?_, ?_⟩ <;> decide
  · refine ⟨({ W with ports.auth := [(0, [{ port := 0, frame := fr, stream := 0, words := [], st := 0, frac := 0 }])], sol.keys := [(0, { state := 1, cur := some { kid := 0, len256 := false, value := 0 }, other := none, change := 0, overlap := 0 })] } : State), _, _, (0 : Nat), (0 : Nat), ({ port := 0, frame := fr, stream := 0, words := [], st := 0, frac := 0 } : AuthItem), ([] : List AuthItem), ({ kid := 0, tag := [] } : RxExt), (0 : Nat), ({ kid := 0, len256 := false, value := 0 } : KeyVal), ?_, rfl, ?_, ?_, ?_, ?_, pair_of (by decide)⟩ <;> decide
  · refine ⟨({ W with ports.dd := [(0, [{ smac := 0, seq := 0, made := 0 }])] } : State), (0 : Nat), ({ smac := 0, seq := 0, made := 0 } : DdEntry), ([] : List DdEntry), ?_⟩
    decide
  · refine ⟨(((up (up W 0) 1).wr (F.SWITCH_RED_CFG_MODE 0) 1).arm (.supSend 0) 7 : State), _, _, _, _, (0 : Nat), _, _, ?_, rfl, rfl, ?_, rfl, pair1 _, ?_, rfl, ?_⟩ <;> decide

theorem test_meets_PortTrafficAndPtpCommands_2 :
  (∃ s : State, ∃ p : Nat, (s.armed (.supervision p) = true) ∧ ((s.elapsed (.supervision p)).flag (seenFld p) = true))
  ∧ (∃ s : State, ∃ n : Nat, ∃ mismatches : Nat, ∃ k : Nat, ((s.port n).busy = 0) ∧ ((s.port n).jobs = []) ∧ ((s.port n).fwd = []) ∧ ((s.port n).twins = []) ∧ (s.linkUp n = true) ∧ (s.guarded n = false) ∧ (([6, 5, 4, 3, 2, 1, 0].find? fun k => s.txqReady n k) = some k))
  ∧ (∃ s : State, ∃ n : Nat, ∃ mismatches : Nat, ∃ r : RelPre, ∃ ds : List Nat, ∃ u : State, ((s.port n).firstRel = some r) ∧ (r.descs = some ds) ∧ (u = (s.reachST r.time).setPort n { (s.reachST r.time).port n with pre := ((s.reachST r.time).port n).pre.erase r }) ∧ ((r.word.getLsbD 30 = true → u.agreed (getBits r.word 29 26) = true)))
  ∧ (∃ s : State, ∃ n : Nat, ∃ mismatches : Nat, ((s.port n).busy ≠ 0))
  ∧ (∃ s : State, ∃ n : Nat, ∃ frac : Nat, ∃ domain : Nat, ∃ sec : Nat, ∃ ns : Nat, ∃ corr : Int, (s.ptpOn n = true) ∧ (s.ptpState n = 2) ∧ (domain = s.rd F.SWITCH_PTP_CFG_DOMAIN))
  ∧ (∃ s : State, ∃ a : State, ∃ b : State, ∃ n : Nat, ∃ frac : Nat, ∃ t : Nat, ∃ log : Nat, (s.armed (.syncSend n) = true) ∧ (a = (s.elapsed (.syncSend n)).arm (.syncSend n) (s.elapsed (.syncSend n)).syncTicks) ∧ (a.ptpOn n = true) ∧ (a.ptpState n = 1) ∧ (t = a.departure n frac) ∧ (b = a.setPort n { a.port n with syncSeq := ((a.port n).syncSeq + 1) % 65536 }) ∧ (log = (if b.rd F.SWITCH_PTP_CFG_LOG_SYNC = 0 then 0 else 240 + b.rd F.SWITCH_PTP_CFG_LOG_SYNC)) ∧ ∃ c : State, (c = b.originate n 2 (b.ptpFrame n 0 true 0 (a.port n).syncSeq log (List.replicate 10 0#8)))) := by
  refine ⟨?_, ?_, ?_, ?_, ?_, ?_⟩
  · refine ⟨((on W (seenFld 0)).arm (.supervision 0) 7 : State), (0 : Nat), ?_, ?_⟩ <;> decide
  · refine ⟨({ (on (up W 0) (F.SP_TXQ_EN 0 0)).setReg (A.WINGS_PROFILE_CM 0) 0x1000#32 with wing.queues := [(0, { QRec.off with v := true, depth := 3, tail := 1 })] } : State), (0 : Nat), (0 : Nat), (0 : Nat), ?_, ?_, ?_, ?_, ?_, ?_, ?_⟩ <;> decide
  · refine ⟨({ W with ports.port := [(0, { Port.reset with pre := [rel0] })] } : State), (0 : Nat), (0 : Nat), (rel0 : RelPre), ([] : List Nat), _, ?_, ?_, rfl, ?_⟩ <;> decide
  · refine ⟨({ W with ports.port := [(0, { Port.reset with busy := 1 })] } : State), (0 : Nat), (0 : Nat), ?_⟩
    decide
  · refine ⟨(ptpW 2 : State), (0 : Nat), (0 : Nat), _, (0 : Nat), (0 : Nat), (0 : Int), ?_, ?_, rfl⟩ <;> decide
  · refine ⟨((ptpW 1).arm (.syncSend 0) 7 : State), _, _, (0 : Nat), (0 : Nat), _, _, ?_, rfl, ?_, ?_, rfl, rfl, rfl, _, rfl⟩ <;> decide

theorem test_meets_PortTrafficAndPtpCommands_3 :
  (∃ s : State, ∃ u : State, ∃ n : Nat, ∃ frac : Nat, (s.ptpOn n = true) ∧ (u = s.setPort n { s.port n with t1 := some (s.departure n frac), reqSeq := ((s.port n).reqSeq + 1) % 65536 }))
  ∧ (∃ s : State, ∃ n : Nat, ∃ frac : Nat, ∃ domain : Nat, ∃ turnaround : Nat, ∃ t2 : Nat, ∃ t3 : Nat, ∃ seq : Nat, ∃ asker : List Byte, ∃ who : List Byte, (s.ptpOn n = true) ∧ (domain = s.rd F.SWITCH_PTP_CFG_DOMAIN) ∧ (t2 = s.arrival n frac) ∧ (t3 = s.departure n frac + turnaround) ∧ (seq = beNat (sliceB asker 10 2)) ∧ (who = padTo 10 asker))
  ∧ (∃ s : State, ∃ n : Nat, ∃ frac : Nat, ∃ domain : Nat, ∃ t1 : Nat, ∃ turnaround : Int, ((s.port n).t1 = some t1) ∧ (s.ptpOn n = true) ∧ (domain = s.rd F.SWITCH_PTP_CFG_DOMAIN) ∧ (0 ≤ ((s.arrival n frac : Int) - t1 - turnaround) / 2) ∧ (((s.arrival n frac : Int) - t1 - turnaround) / 2 < 16777216) ∧ ∃ u : State, (u = s.next.setPort n { s.port n with t1 := none, delay := (((s.arrival n frac : Int) - t1 - turnaround) / 2).toNat }))
  ∧ (∃ s : State, (s.armed .syncTimeout = true)) := by
  refine ⟨?_, ?_, ?_, ?_⟩
  · refine ⟨(ptpW 1 : State), _, (0 : Nat), (0 : Nat), ?_, rfl⟩
    decide
  · refine ⟨(ptpW 1 : State), (0 : Nat), (0 : Nat), _, (0 : Nat), _, _, _, ([] : List Byte), _, ?_, rfl, rfl, rfl, rfl, rfl⟩
    decide
  · refine ⟨({ ptpW 1 with ports.port := [(0, { Port.reset with t1 := some 0 })] } : State), (0 : Nat), (64 : Nat), _, (0 : Nat), (0 : Int), ?_, ?_, rfl, ?_, ?_, _, rfl⟩ <;> decide
  · refine ⟨(W.arm .syncTimeout 7 : State), ?_⟩
    decide

theorem test_meets_QueueCommands_1 :
  (∃ s : State, ∃ m : Nat, ∃ q : Nat, ∃ w : Word, ∃ v : Word, (q < 262144) ∧ (s.admits m (0x30000000 + 16 * q + 4) 4 .write = true) ∧ (v = setBits w 31 31 1) ∧ ((s.queue q).v = false) ∧ ((s.queue q).enableOk (getBits v 30 27) (getBits v 26 23) = true))
  ∧ (∃ s : State, ∃ m : Nat, ∃ q : Nat, ∃ w : Word, ∃ v : Word, (q < 262144) ∧ (s.admits m (0x30000000 + 16 * q + 4) 4 .write = true) ∧ (v = setBits w 31 31 0))
  ∧ (∃ s : State, ∃ m : Nat, ∃ q : Nat, ∃ d : DWord, (q < 262144) ∧ (s.admits m (0x34000000 + 8 * q) 8 .write = true) ∧ ((s.queue q).v = true) ∧ (s.mayProduce m (s.queue q) = true) ∧ ((s.queue q).esize = 0) ∧ ((s.queue q).full = false) ∧ ∃ u : State, (s.dmaWrite m ((s.queue q).slot (s.queue q).tail) (leBytes 8 d.toNat) = (none, u)))
  ∧ (∃ s : State, ∃ m : Nat, ∃ q : Nat, ∃ src : Nat, ∃ len : Nat, (q < 262144) ∧ (s.admits m (0x34000000 + 8 * q) 8 .write = true) ∧ ((s.queue q).v = true) ∧ (s.mayProduce m (s.queue q) = true) ∧ ((s.queue q).esize ≠ 0) ∧ (src < 2 ^ 32) ∧ (src % 8 = 0) ∧ (len < 2 ^ 12) ∧ (len ≤ (s.queue q).entry) ∧ ∃ u : State, ∃ bs : List Byte, (s.dmaRead m src (if len = 0 then (s.queue q).entry else len) = (.ok bs, u)))
  ∧ (∃ s : State, ∃ u : State, ∃ c : Copy, ∃ l : List Copy, (s.wing.copies = c :: l) ∧ ((s.queue c.queue).v = true) ∧ ((s.queue c.queue).full = false) ∧ (State.dmaWrite { s with wing.copies := l } 11 ((s.queue c.queue).slot (s.queue c.queue).tail) c.bytes = (none, u)))
  ∧ (∃ s : State, ∃ m : Nat, ∃ q : Nat, (q < 262144) ∧ (s.admits m (0x34000000 + 8 * q) 8 .read = true)) := by
  refine ⟨?_, ?_, ?_, ?_, ?_, ?_⟩
  · refine ⟨({ W with wing.queues := [(0, { QRec.off with base := 0x400000 })] } : State), (8 : Nat), (0 : Nat), (0x01800000#32 : Word), _, ?_, ?_, rfl, ?_, ?_⟩ <;> decide
  · refine ⟨(W), (8 : Nat), (0 : Nat), (0#32 : Word), _, ?_, ?_, rfl⟩ <;> decide
  · refine ⟨(wq qOn : State), (8 : Nat), (0 : Nat), (0#64 : DWord), ?_, ?_, ?_, ?_, ?_, ?_, _, pair_of (by decide)⟩ <;> decide
  · refine ⟨(wq { qOn with esize := 1 } : State), (8 : Nat), (0 : Nat), (0x10000000 : Nat), (0 : Nat), ?_, ?_, ?_, ?_, ?_, ?_, ?_, ?_, ?_, _, (List.replicate 16 0#8 : List Byte), pair_of (by decide +kernel)⟩ <;> decide
  · refine ⟨({ wq qOn with live := [(A.COL_TRUNK_BANK_WMASK 0, 0x1FFFFFF#32)], wing.copies := [{ queue := 0, master := 8, bytes := leBytes 8 5 }] } : State), _, ({ queue := 0, master := 8, bytes := leBytes 8 5 } : Copy), ([] : List Copy), ?_, ?_, ?_, pair_of (by decide)⟩ <;> decide
  · refine ⟨(W), (8 : Nat), (0 : Nat), ?_, ?_⟩ <;> decide

theorem test_meets_QueueCommands_2 :
  (∃ s : State, ∃ m : Nat, ∃ q : Nat, (q < 262144) ∧ (s.admits m (0x34400000 + 8 * q) 8 .read = true) ∧ ((s.queue q).v = true) ∧ (s.mayConsume m (s.queue q) = true))
  ∧ (∃ s : State, ∃ m : Nat, ∃ q : Nat, ∃ n : Nat, (q < 262144) ∧ (s.admits m (0x34400000 + 8 * q) 8 .write = true) ∧ ((s.queue q).v = true) ∧ (s.mayConsume m (s.queue q) = true) ∧ (n ≠ 0) ∧ (n < 2 ^ 64) ∧ (n ≤ (s.queue q).fill))
  ∧ (∃ s : State, ∃ q : Nat, (s.armed (.queueIdle q) = true))
  ∧ (∃ s : State, ∃ m : Nat, ∃ l : Nat, ∃ q : Nat, ∃ rest : List Nat, (l < 32) ∧ (s.mayRead m (A.WINGS_NOTIFY_POP l) = true) ∧ (s.notify l = q :: rest))
  ∧ (∃ s : State, ∃ m : Nat, (s.mayWrite m A.WINGS_ERR_CLR = true)) := by
  refine ⟨?_, ?_, ?_, ?_, ?_⟩
  · refine ⟨(wq qOn : State), (8 : Nat), (0 : Nat), ?_, ?_, ?_, ?_⟩ <;> decide
  · refine ⟨(wq qOn : State), (8 : Nat), (0 : Nat), (1 : Nat), ?_, ?_, ?_, ?_, ?_, ?_, ?_⟩ <;> decide
  · refine ⟨(W.arm (.queueIdle 0) 7 : State), (0 : Nat), ?_⟩
    decide
  · refine ⟨({ W with wing.notify := [(0, [5])] } : State), (8 : Nat), (0 : Nat), (5 : Nat), ([] : List Nat), ?_, ?_, ?_⟩ <;> decide
  · refine ⟨(W), (8 : Nat), ?_⟩
    decide

theorem test_meets_GatherAndPackerCommands_1 :
  (∃ s : State, ∃ g : Gather, ∃ rest : List Gather, (s.ens.waiting = g :: rest) ∧ (s.gathererFree g.ens = true) ∧ ((s.ensCfg g.ens).en = true))
  ∧ (∃ s : State, ∃ e : Nat, ∃ g : Gather, ((s.ens.running.find? fun x => x.ens == e) = some g))
  ∧ (∃ s : State, ∃ m : Nat, ∃ e : Nat, (e < 256) ∧ (s.mayWrite m A.ENSEMBLE_SEL = true) ∧ ∃ u : State, (u = s.wr F.ENSEMBLE_SEL_INDEX e))
  ∧ (∃ s : State, ∃ m : Nat, ∃ c : Nat, ∃ size : Nat, ∃ d : DWord, (c < 48) ∧ (size < 4) ∧ (s.admits m (packerIn c) (2 ^ size) .write = true) ∧ (s.packerOn c = true) ∧ (2 ^ size ≤ bankBytes (s.liveReg (A.PACKER_CFG c)) - (s.packer c).fill))
  ∧ (∃ s : State, ∃ m : Nat, ∃ c : Nat, (c < 48) ∧ (s.mayWrite m (A.PACKER_CTRL c) = true) ∧ (s.packerOn c = true) ∧ ((s.packer c).fill ≠ 0) ∧ ((s.packer c).otherFree = true))
  ∧ (∃ s : State, ∃ m : Nat, ∃ c : Nat, ∃ w : Word, (c < 48) ∧ (s.mayWrite m (A.PACKER_CTRL c) = true) ∧ (w.getLsbD 30 = true) ∧ (w.getLsbD 31 = false) ∧ (s.packerOn c = true) ∧ ((s.packer c).cur ≠ getBits w 29 29) ∧ ((s.packer c).otherFree = false) ∧ ((s.packer c).blocked = false)) := by
  refine ⟨?_, ?_, ?_, ?_, ?_, ?_⟩
  · refine ⟨({ W with ens.waiting := [g0], live := [((F.ENSEMBLE_CFG_A_EN.ens 0).addr, 0x80000000#32)] } : State), (g0 : Gather), ([] : List Gather), ?_, ?_, ?_⟩ <;> decide
  · refine ⟨({ W with ens.running := [g0] } : State), (0 : Nat), (g0 : Gather), ?_⟩
    decide
  · refine ⟨(W), (8 : Nat), (0 : Nat), ?_, ?_, _, rfl⟩ <;> decide
  · refine ⟨(pk Packer.off : State), (8 : Nat), (0 : Nat), (0 : Nat), (0#64 : DWord), ?_, ?_, ?_, ?_, ?_⟩ <;> decide
  · refine ⟨(pk { Packer.off with fill := 8, otherFree := true } : State), (8 : Nat), (0 : Nat), ?_, ?_, ?_, ?_, ?_⟩ <;> decide
  · refine ⟨(pk Packer.off : State), (8 : Nat), (0 : Nat), (0x60000000#32 : Word), ?_, ?_, ?_, ?_, ?_, ?_, ?_, ?_⟩ <;> decide

theorem test_meets_GatherAndPackerCommands_2 :
  (∃ s : State, ∃ m : Nat, ∃ c : Nat, ∃ w : Word, (c < 48) ∧ (s.mayWrite m (A.PACKER_CNT_A c) = true)) := by
  refine ⟨(W), (8 : Nat), (0 : Nat), (0#32 : Word), ?_, ?_⟩ <;> decide

theorem test_meets_TerraceAndColCommands_1 :
  (∃ s : State, ∃ n : Nat, (s.armed (.bankWake n) = true) ∧ ((s.elapsed (.bankWake n)).bankState n = bankWAKING))
  ∧ (∃ s : State, ∃ n : Nat, (s.armed (.bankZero n) = true) ∧ ((s.elapsed (.bankZero n)).bankState n = bankZEROING) ∧ ∃ u : State, (u = ((s.elapsed (.bankZero n)).setBank n bankON).irq 201))
  ∧ (∃ s : State, ∃ n : Nat, (s.armed (.bankResume n) = true) ∧ ((s.elapsed (.bankResume n)).bankState n = bankRET))
  ∧ (∃ s : State, ∃ rs : List TReq, ∃ w : TReq, (s.winner rs = some w))
  ∧ (∃ s : State, ∃ x : Xfer, (s.us.xfer = some x) ∧ ∃ l : MirrorLine, ∃ rest : List MirrorLine, (s.terr.rescue = l :: rest))
  ∧ (∃ s : State, ∃ x : Xfer, (s.us.xfer = some x) ∧ ∃ b : Nat, ∃ l : Nat, ∃ rest : List (Nat × Nat), (s.terr.rescue = []) ∧ (s.sendingLines = (b, l) :: rest)) := by
  refine ⟨?_, ?_, ?_, ?_, ?_, ?_⟩
  · refine ⟨((W.arm (.bankWake 0) 7).setBank 0 bankWAKING : State), (0 : Nat), ?_, ?_⟩ <;> decide
  · refine ⟨((W.arm (.bankZero 0) 7).setBank 0 bankZEROING : State), (0 : Nat), ?_, ?_, _, rfl⟩ <;> decide
  · refine ⟨((W.arm (.bankResume 0) 7).setBank 0 bankRET : State), (0 : Nat), ?_, ?_⟩ <;> decide
  · refine ⟨(W), ([tr0] : List TReq), (tr0 : TReq), ?_⟩
    decide
  · refine ⟨({ W with us.xfer := some xf, terr.rescue := [ml0] } : State), (xf : Xfer), ?_, (ml0 : MirrorLine), ([] : List MirrorLine), ?_⟩ <;> decide
  · refine ⟨({ W with us.xfer := some xf, terr.send := [(3, BitVec.ofNat _ 1)] } : State), (xf : Xfer), ?_, (3 : Nat), (0 : Nat), ([] : List (Nat × Nat)), ?_, ?_⟩
    · decide
    · decide
    · decide +kernel

theorem test_meets_TerraceAndColCommands_2 :
  (∃ s : State, ∃ w : Nat × Nat × List Byte, ∃ rest : List (Nat × Nat × List Byte), (s.terr.blocked = w :: rest) ∧ (s.terr.rescue.length + (s.unreadLines w.2.1 w.2.2.length).length ≤ 64))
  ∧ (∃ s : State, ∃ m : Nat, (s.mayWrite m A.TERRACE_CNT_CTRL = true))
  ∧ (∃ s : State, ∃ m : Nat, (s.mayWrite m A.TERRACE_CNT_CTRL = true))
  ∧ (∃ s : State, ∃ m : Nat, (s.mayRead m A.COL_VIOL_POP = true) ∧ (s.viol = []))
  ∧ (∃ s : State, ∃ m : Nat, (s.mayRead m A.COL_VIOL_POP = true) ∧ ∃ v : Viol, ∃ t : List Viol, (s.viol = v :: t)) := by
  refine ⟨?_, ?_, ?_, ?_, ?_⟩
  · refine ⟨({ W with terr.blocked := [(8, 0, [])] } : State), ((8, 0, []) : Nat × Nat × List Byte), ([] : List (Nat × Nat × List Byte)), ?_, ?_⟩ <;> decide
  · refine ⟨(W), (8 : Nat), ?_⟩
    decide
  · refine ⟨(W), (8 : Nat), ?_⟩
    decide
  · refine ⟨(W), (8 : Nat), ?_, ?_⟩ <;> decide
  · refine ⟨({ W with viol := [vl] } : State), (8 : Nat), ?_, (vl : Viol), ([] : List Viol), ?_⟩ <;> decide

theorem test_meets_RidgeCoreCommands_1 :
  (∃ s : State, ∃ u : State, ∃ v : State, ∃ n : Nat, ∃ cycles : Nat, ∃ drains : Nat, ∃ ws : List (Nat × Word), ∃ ys : List Syl, (s.live? = true) ∧ (v = s.drainStores n drains) ∧ (v.live? = true) ∧ (v.coreHeld n = false) ∧ ((v.core n).waiting = false) ∧ (v.interruptDue n = none) ∧ (State.fetchFrom n 8 (v.core n).pc.toNat [] (((v.setCore n { v.core n with ccount := (v.core n).ccount + BitVec.ofNat 64 cycles }).observe 6 n (cycles - 1)).setFetchBank n (v.core n).pc.toNat) = (.ok (some ws), u)) ∧ (bundleOf ws (v.core n).delay.isSome = some ys) ∧ (ys.find? Syl.illegal = none))
  ∧ (∃ s : State, ∃ n : Nat, ∃ k : Nat, (s.interruptDue n = some k))
  ∧ (∃ s : State, ∃ n : Nat, ((s.core n).waiting = true) ∧ ((s.chosenSource n).isSome = true))
  ∧ (∃ s : State, ∃ n : Nat, ∃ b : BufStore, ∃ t : List BufStore, ((s.core n).stores = b :: t))
  ∧ (∃ s : State, ∃ m : Nat, ∃ n : Nat, (n < 9) ∧ (s.mayRead m (A.IRQ_LATE_POP n) = true) ∧ ((s.core n).late = []))
  ∧ (∃ s : State, ∃ m : Nat, ∃ n : Nat, (n < 9) ∧ (s.mayRead m (A.IRQ_LATE_POP n) = true) ∧ ∃ e : LateErr, ∃ t : List LateErr, ((s.core n).late = e :: t)) := by
  refine ⟨?_, ?_, ?_, ?_, ?_, ?_⟩
  · refine ⟨({ coreW 0 running with mem := [(physAddr 0 3, 0x80#8)] } : State), _, _, (0 : Nat), (0 : Nat), (0 : Nat), ([(0, 0x80000000#32)] : List (Nat × Word)), ([{ addr := 0, word := 0x80000000#32, ks := [] }] : List Syl), ?_, rfl, ?_, ?_, ?_, ?_, pair_of (by decide +kernel), ?_, ?_⟩ <;> decide
  · refine ⟨(irqCore false : State), (0 : Nat), (0 : Nat), ?_⟩
    decide +kernel
  · refine ⟨(irqCore true : State), (0 : Nat), ?_, ?_⟩ <;> decide
  · refine ⟨(coreW 0 { running with stores := [st0] } : State), (0 : Nat), (st0 : BufStore), ([] : List BufStore), ?_⟩
    decide
  · refine ⟨(W), (8 : Nat), (0 : Nat), ?_, ?_, ?_⟩ <;> decide
  · refine ⟨(coreW 0 { running with late := [le0] } : State), (8 : Nat), (0 : Nat), ?_, ?_, (le0 : LateErr), ([] : List LateErr), ?_⟩ <;> decide

theorem test_meets_RidgeCoreCommands_2 :
  (∃ s : State, ∃ m : Nat, ∃ k : Nat, ∃ w : Word, (k < 8) ∧ (s.mayWrite m (A.IRQ_PEND k) = true))
  ∧ (∃ s : State, ∃ m : Nat, ∃ n : Nat, ∃ w : Word, (n < 9) ∧ (s.mayWrite m (A.IRQ_ACK n) = true) ∧ (s.routeCore (getBits w 7 0) = n))
  ∧ (∃ s : State, ∃ m : Nat, ∃ w : Word, (s.mayWrite m A.IRQ_DOORBELL = true))
  ∧ (∃ s : State, ∃ m : Nat, ∃ k : Nat, ∃ w : Word, (k < 248) ∧ (s.mayWrite m (A.IRQ_ROUTE k) = true) ∧ (((132 ≤ k ∧ k < 144) ∨ (192 ≤ k ∧ k < 201) ∨ 8 < getBits w 11 8)))
  ∧ (∃ s : State, ∃ m : Nat, ∃ k : Nat, ∃ w : Word, (k < 248) ∧ (s.mayWrite m (A.IRQ_ROUTE k) = true) ∧ (¬((132 ≤ k ∧ k < 144) ∨ (192 ≤ k ∧ k < 201) ∨ 8 < getBits w 11 8)))
  ∧ (∃ s : State, ∃ m : Nat, ∃ n : Nat, ∃ b : Bool, (n < 8) ∧ (s.mayWrite m (A.IRQ_CORE_CTRL n) = true) ∧ (s.mode ≠ .curtain)) := by
  refine ⟨?_, ?_, ?_, ?_, ?_, ?_⟩
  · refine ⟨(W), (8 : Nat), (0 : Nat), (0#32 : Word), ?_, ?_⟩ <;> decide
  · refine ⟨(W), (8 : Nat), (W.routeCore 0 : Nat), (0#32 : Word), ?_, ?_, ?_⟩ <;> decide
  · refine ⟨(W), (8 : Nat), (0#32 : Word), ?_⟩
    decide
  · refine ⟨(W), (8 : Nat), (132 : Nat), (0#32 : Word), ?_, ?_, ?_⟩ <;> decide
  · refine ⟨(W), (8 : Nat), (0 : Nat), (0#32 : Word), ?_, ?_, ?_⟩ <;> decide
  · refine ⟨(W), (8 : Nat), (0 : Nat), (true : Bool), ?_, ?_, ?_⟩ <;> decide

theorem test_meets_RidgeCoreCommands_3 :
  (∃ s : State, ∃ m : Nat, ∃ n : Nat, ∃ pc : Word, ∃ w : Word, (n < 8) ∧ (s.mayWrite m (A.IRQ_CORE_CTRL n) = true) ∧ (s.mode ≠ .curtain) ∧ (w = setBits pc 30 30 1) ∧ (w.getLsbD 31 = false)) := by
  refine ⟨(W), (8 : Nat), (0 : Nat), (0#32 : Word), _, ?_, ?_, ?_, rfl, ?_⟩ <;> decide

theorem test_meets_PinsAndTripPairCommands_1 :
  (∃ s : State, ∃ g : Nat, ∃ v : Nat, (s.pin.configured = true) ∧ ∃ u : State, (u = { s with pin.supply := put noneAt s.pin.supply g (some v) }) ∧ (u.supplyOk g ≠ u.supplyGood g))
  ∧ (∃ s : State, ∃ g : Nat, ∃ v : Nat, (s.pin.configured = true) ∧ ∃ u : State, (u = { s with pin.supply := put noneAt s.pin.supply g (some v) }) ∧ (u.supplyOk g = u.supplyGood g))
  ∧ (∃ s : State, ∃ u : State, ∃ g : Nat, (s.armed (.supplyOn g) = true) ∧ (u = s.elapsed (.supplyOn g)))
  ∧ (∃ s : State, ∃ p : Nat, ∃ st : Nat, ∃ frac : Nat, (s.armed (.pinFilter p) = true) ∧ (((s.elapsed (.pinFilter p)).pinOf p).cand = some (st, frac)) ∧ ((s.elapsed (.pinFilter p)).inputOn p = true))
  ∧ (∃ s : State, ∃ u : State, ∃ a : State, ∃ b : State, ∃ c : State, ∃ d : State, ∃ g : Nat, ∃ v : Nat, ∃ w : Nat, ∃ e : DtEval, ∃ o : Nat × Nat, ((s.dtake.evals.find? fun e => e.group == g) = some e) ∧ (u = s.reachST (e.start + (8 + e.delay + 40 + 1) / 2)) ∧ (State.dtPath2 { u with dtake.evals := u.dtake.evals.erase e } g e.old = (o, a)) ∧ (dtVerdict e.first o = (v, w)) ∧ (b = (a.wr (F.DTAKE_VERDICT_VERDICT g) v).wr (F.DTAKE_VERDICT_FRAME g) (e.frame % 65536)) ∧ (c = State.next { b with dtake.frames := put noneAt b.dtake.frames g (some e.frame), us.commits := if e.counted then b.us.commits else b.us.commits ++ [(g, if v = dtAGREE then w else if v = dtDISAGREE then 0xFFFFFFFF else b.draw % 2 ^ 32)] }) ∧ (d = State.dtRecord (State.dtHandover (if v = dtAGREE then { c with dtake.agreed := c.dtake.agreed ++ [(g, e.due + 512, w)] } else c) g v w) g v))
  ∧ (∃ s : State, ∃ u : State, ∃ g : Nat, ∃ k : Nat, ∃ t : Nat, ∃ w : Nat, ((s.dtake.agreed.find? fun a => a.1 == g) = some (k, t, w)) ∧ (u = { s.reachST t with dtake.agreed := s.dtake.agreed.filter fun a => !(a.1 == g && a.2.1 == t) }) ∧ (u.mode ≠ .curtain) ∧ (u.mode ≠ .understudy)) := by
  refine ⟨?_, ?_, ?_, ?_, ?_, ?_⟩
  · refine ⟨({ on W (F.PINS_GRP_STAT_SUPPLY_OK 0) with pin.configured := true } : State), (0 : Nat), (9 : Nat), ?_, _, rfl, ?_⟩ <;> decide
  · refine ⟨({ W with pin.configured := true } : State), (0 : Nat), (9 : Nat), ?_, _, rfl, ?_⟩ <;> decide
  · refine ⟨(W.arm (.supplyOn 0) 7 : State), _, (0 : Nat), ?_, rfl⟩
    decide
  · refine ⟨({ (on W (F.PINS_GRP_STAT_SUPPLY_OK 0)).arm (.pinFilter 0) 7 with live := [(A.PINS_CFG 0, 0x20000000#32)], pin.pins := [(0, { PinSt.off with cand := some (5, 6) })] } : State), (0 : Nat), (5 : Nat), (6 : Nat), ?_, ?_, ?_⟩ <;> decide
  · refine ⟨({ W with dtake.evals := [dt0] } : State), _, _, _, _, _, (0 : Nat), _, _, (dt0 : DtEval), _, ?_, rfl, pair1 _, pair1 _, rfl, rfl, rfl⟩
    decide
  · refine ⟨({ W with dtake.agreed := [(0, 7, 9)] } : State), _, (0 : Nat), (0 : Nat), (7 : Nat), (9 : Nat), ?_, rfl, ?_, ?_⟩ <;> decide

theorem test_meets_PinsAndTripPairCommands_2 :
  (∃ s : State, ∃ u : State, ∃ g : Nat, ∃ k : Nat, ∃ t : Nat, ∃ w : Nat, ((s.dtake.agreed.find? fun a => a.1 == g) = some (k, t, w)) ∧ (u = { s.reachST t with dtake.agreed := s.dtake.agreed.filter fun a => !(a.1 == g && a.2.1 == t) }) ∧ (u.mode ≠ .curtain) ∧ (u.mode = .understudy))
  ∧ (∃ s : State, ∃ u : State, ∃ v : State, ∃ p : Nat, ∃ st : Nat, (s.armed (.pinRb p) = true) ∧ (u = s.elapsed (.pinRb p)) ∧ ((u.pinOf p).rbStart = some st) ∧ (v = (((u.setPin p { u.pinOf p with mis := true, booked := true }).showRb (p / 2)).pinEvent p 2 0 st).pinIrq (F.PINS_GRP_IRQ_RB (p / 8)) (p / 8)))
  ∧ (∃ s : State, ∃ u : State, (s.timeRuns = true) ∧ (u = { s.reachST s.nextSecond with pin.ppsLast := some s.nextSecond }))
  ∧ (∃ s : State, (s.armed .ppsFall = true))
  ∧ (∃ s : State, ∃ highs : List Nat, ∃ edge : Nat, ∃ p : Nat, (s.irigPin = some p) ∧ (s.supplyOk (p / 8) = true) ∧ (s.pin.dead = false) ∧ (s.mode ≠ .curtain) ∧ (irigDecode (s.lv F.PINS_IRIG_CFG_FORMAT) highs = none))
  ∧ (∃ s : State, ∃ highs : List Nat, ∃ edge : Nat, ∃ p : Nat, (s.irigPin = some p) ∧ (s.supplyOk (p / 8) = true) ∧ (s.pin.dead = false) ∧ (s.mode ≠ .curtain) ∧ ∃ day : Nat, ∃ sec : Nat, ∃ yy : Option Nat, (irigDecode (s.lv F.PINS_IRIG_CFG_FORMAT) highs = some (day, sec, yy))) := by
  refine ⟨?_, ?_, ?_, ?_, ?_, ?_⟩
  · refine ⟨({ inMode 3 with dtake.agreed := [(0, 7, 9)] } : State), _, (0 : Nat), (0 : Nat), (7 : Nat), (9 : Nat), ?_, rfl, ?_, ?_⟩ <;> decide
  · refine ⟨({ W.arm (.pinRb 0) 7 with pin.pins := [(0, { PinSt.off with rbStart := some 5 })] } : State), _, _, (0 : Nat), (5 : Nat), ?_, rfl, ?_, rfl⟩ <;> decide
  · refine ⟨(W), _, ?_, rfl⟩
    decide
  · refine ⟨(W.arm .ppsFall 7 : State), ?_⟩
    decide
  · refine ⟨(irigS : State), ([] : List Nat), (0 : Nat), (0 : Nat), ?_, ?_, ?_, ?_, ?_⟩ <;> decide
  · refine ⟨(irigS : State), ((List.range 100).map fun i => if irigMarker i then 8000 else 2000 : List Nat), (0 : Nat), (0 : Nat), ?_, ?_, ?_, ?_, (0 : Nat), (0 : Nat), (none : Option Nat), ?_⟩ <;> decide

theorem test_meets_PinsAndTripPairCommands_3 :
  (∃ s : State, ∃ m : Nat, ∃ g : Nat, (g < 32) ∧ (s.mayWrite m (A.PINS_GRP_IRQ g) = true) ∧ ∃ u : State, (u = (s.wr (F.PINS_GRP_STAT_CUE_DROP g) 0).wr (F.PINS_GRP_STAT_EVT_LOST g) 0)) := by
  refine ⟨(W), (8 : Nat), (0 : Nat), ?_, ?_, _, rfl⟩ <;> decide

theorem test_meets_PairingCommands_1 :
  (∃ s : State, ∃ u : State, ∃ n : Nat, (s.lanesOn = true) ∧ (s.us.lanes.contains n = false) ∧ (u = { s with us.lanes := s.us.lanes ++ [n] }))
  ∧ (∃ s : State, ∃ u : State, ∃ n : Nat, (s.us.lanes.contains n = true) ∧ (u = { s with us.lanes := s.us.lanes.filter (· != n) }))
  ∧ (∃ s : State, ∃ u : State, ∃ role : Nat, ∃ body : List Byte, (s.us.lanes.isEmpty = false) ∧ (u = (if s.partnerBroke.pairing then s.partnerBroke else s.partnerBroke.beginPairing)) ∧ (role = u.rd F.SYS_STATE_PAIR_ROLE))
  ∧ (∃ s : State, ∃ u : State, ∃ role : Nat, ∃ body : List Byte, (s.us.lanes.isEmpty = false) ∧ (u = (if s.partnerBroke.pairing then s.partnerBroke else s.partnerBroke.beginPairing)) ∧ (role ≠ u.rd F.SYS_STATE_PAIR_ROLE) ∧ (u.isSecondary = false))
  ∧ (∃ s : State, ∃ u : State, ∃ role : Nat, ∃ body : List Byte, (s.us.lanes.isEmpty = false) ∧ (u = (if s.partnerBroke.pairing then s.partnerBroke else s.partnerBroke.beginPairing)) ∧ (role ≠ u.rd F.SYS_STATE_PAIR_ROLE) ∧ (u.isSecondary = true) ∧ ∃ k : List Byte, (k = Config.pairKem (leBytes 1 role ++ body) u.draw))
  ∧ (∃ s : State, ∃ body : List Byte, (s.pairing = true) ∧ (s.isPrincipal = true) ∧ (s.us.helloS.isEmpty = false)) := by
  refine ⟨?_, ?_, ?_, ?_, ?_, ?_⟩
  · refine ⟨(usM 2 : State), _, (0 : Nat), ?_, ?_, rfl⟩ <;> decide
  · refine ⟨({ W with us.lanes := [0] } : State), _, (0 : Nat), ?_, rfl⟩
    decide
  · refine ⟨({ us 2 1 with us.lanes := [0] } : State), _, (1 : Nat), ([] : List Byte), ?_, rfl, ?_⟩ <;> decide
  · refine ⟨({ us 2 1 with us.lanes := [0] } : State), _, (2 : Nat), ([] : List Byte), ?_, rfl, ?_, ?_⟩ <;> decide
  · refine ⟨({ us 2 2 with us.lanes := [0] } : State), _, (1 : Nat), ([] : List Byte), ?_, rfl, ?_, ?_, _, rfl⟩ <;> decide
  · refine ⟨({ us 2 1 with us.helloS := [1] } : State), ([] : List Byte), ?_, ?_, ?_⟩ <;> decide

theorem test_meets_PairingCommands_2 :
  (∃ s : State, ∃ body : List Byte, (s.pairing = true) ∧ (s.us.keyMsg.isEmpty = false))
  ∧ (∃ s : State, ∃ u : State, ∃ v : State, ∃ k : List Byte, (s.pairing = true) ∧ (s.us.authOk = true) ∧ (k = shake256 96 (Config.pairSecrets (s.us.helloP ++ s.us.helloS ++ s.us.keyMsg) s.draw ++ s.pairDigest)) ∧ (u = { s.next with us.keys := k, us.epochReq := true, us.firstFull := false, us.epochWhole := false, us.failed := false, us.badMode := 0 }) ∧ (v = State.pairState ([0, 1, 2].foldl (fun s i => { s with chorus.slots := put (fun _ => KeySlot.empty) s.chorus.slots (253 + i) (KeySlot.mk true 2 0 0 (sliceB k (32 * i) 32) ((look (fun _ => KeySlot.empty) s.chorus.slots (253 + i)).epoch + 1)) }) u) 3 0))
  ∧ (∃ s : State, (s.armed .pairRetry = true) ∧ ((s.elapsed .pairRetry).us.lanes.isEmpty = false) ∧ ((s.elapsed .pairRetry).keyed = false))
  ∧ (∃ s : State, (s.keyed = true))
  ∧ (∃ s : State, ∃ a : State, ∃ b : State, ∃ c : State, ∃ w : Word, ∃ sent : Nat, ∃ delay : Nat, (s.keyed = true) ∧ (a = { s.setReg A.UNDERSTUDY_PEER_HEALTH w with us.pulseSeen := true, us.pulseDiff := (sent : Int) + delay - s.now }) ∧ (b = (if a.us.failed then { a with us.failed := false } else a)) ∧ (c = { b with us.goodPulses := if b.peerHealthy then b.us.goodPulses + 1 else 0 }))
  ∧ (∃ s : State, ∃ n : Nat, (s.us.ho = 1) ∧ (s.us.hoSwitch = n)) := by
  refine ⟨?_, ?_, ?_, ?_, ?_, ?_⟩
  · refine ⟨({ us 2 1 with us.keyMsg := [1] } : State), ([] : List Byte), ?_, ?_⟩ <;> decide
  · refine ⟨({ us 2 1 with us.authOk := true } : State), _, _, _, ?_, ?_, rfl, rfl, rfl⟩ <;> decide
  · refine ⟨({ W.arm .pairRetry 7 with us.lanes := [0] } : State), ?_, ?_, ?_⟩ <;> decide
  · refine ⟨(us 3 1 : State), ?_⟩
    decide
  · refine ⟨(us 3 1 : State), _, _, _, (0#32 : Word), (0 : Nat), (0 : Nat), ?_, rfl, rfl, rfl⟩
    decide
  · refine ⟨({ W with us.ho := 1 } : State), (0 : Nat), ?_, ?_⟩ <;> decide

theorem test_meets_PairingCommands_3 :
  (∃ s : State, (s.us.ho = 2))
  ∧ (∃ s : State, (s.us.ho = 2))
  ∧ (∃ s : State, (s.boot.auxLost = false)) := by
  refine ⟨?_, ?_, ?_⟩
  · refine ⟨({ W with us.ho := 2 } : State), ?_⟩
    decide
  · refine ⟨({ W with us.ho := 2 } : State), ?_⟩
    decide
  · refine ⟨(W), ?_⟩
    decide

theorem test_meets_MirrorAndFailoverCommands_1 :
  (∃ s : State, ∃ u : State, ∃ x : Xfer, ∃ w : Nat, ∃ n : Nat, (s.us.xfer = some x) ∧ (w = s.lv F.UNDERSTUDY_CFG_B_WINDOW) ∧ (n = (x.lines.length + s.terr.rescue.length) * 64 + x.msg.octets.length + x.control) ∧ (u = s.reachST (x.start + (if s.sendingLines.isEmpty then min (s.linkTicks n) w else w))))
  ∧ (∃ s : State, ∃ msg : MirrorMsg, ∃ ok : Bool, (s.keyed = true) ∧ (s.mode ≠ .lead) ∧ (s.us.takeDue = none) ∧ (s.halfBusy msg.frame = true))
  ∧ (∃ s : State, ∃ msg : MirrorMsg, ∃ ok : Bool, (s.keyed = true) ∧ (s.mode ≠ .lead) ∧ (s.us.takeDue = none) ∧ (s.halfBusy msg.frame = false) ∧ ∃ u : State, (u = (s.dmaWrite 16 (0x10000000 + (s.lv F.UNDERSTUDY_CFG_A_LAND + 2 * (msg.frame % 2)) * 0x40000) (msg.octets.take 524288)).2))
  ∧ (∃ s : State, ∃ u : State, ∃ m : MirrorMsg, ∃ ok : Bool, ∃ rest : List (MirrorMsg × Bool), (s.us.arrived = (m, ok) :: rest) ∧ (u = { s with us.arrived := rest }) ∧ (u.mode ≠ .lead) ∧ ((ok && decide (u.newestMirror < m.frame) && (m.epoch == u.currentEpoch || m.resync)) = false))
  ∧ (∃ s : State, ∃ u : State, ∃ m : MirrorMsg, ∃ ok : Bool, ∃ rest : List (MirrorMsg × Bool), (s.us.arrived = (m, ok) :: rest) ∧ (u = { s with us.arrived := rest }) ∧ (u.mode ≠ .lead) ∧ ((ok && decide (u.newestMirror < m.frame) && (m.epoch == u.currentEpoch || m.resync)) = true) ∧ ∃ x : State, ∃ v : State, (x = { u with us.accepted := u.us.accepted ++ [m], us.sealOk := true, us.received := { frame := m.frame, digest := m.digest, pdigest := m.pdigest } :: u.us.received.take 3 }) ∧ (v = (x.setReg A.UNDERSTUDY_PEER_HEALTH (BitVec.ofNat 32 m.health)).shadowTry (m.frame + 1)))
  ∧ (∃ s : State, (s.mode ≠ .curtain) ∧ ∃ m : MirrorMsg, (s.us.applying = some m)) := by
  refine ⟨?_, ?_, ?_, ?_, ?_, ?_⟩
  · refine ⟨({ W with us.xfer := some xf } : State), _, (xf : Xfer), _, _, ?_, rfl, rfl, rfl⟩
    decide
  · refine ⟨({ us 3 1 with us.accepted := [mm0] } : State), (mm0 : MirrorMsg), (true : Bool), ?_, ?_, ?_, ?_⟩ <;> decide
  · refine ⟨(us 3 1 : State), (mm0 : MirrorMsg), (true : Bool), ?_, ?_, ?_, ?_, _, rfl⟩ <;> decide
  · refine ⟨({ W with us.arrived := [(mm0, false)] } : State), _, (mm0 : MirrorMsg), (false : Bool), ([] : List (MirrorMsg × Bool)), ?_, rfl, ?_, ?_⟩ <;> decide
  · refine ⟨({ W with us.arrived := [({ mm0 with frame := 1 }, true)] } : State), _, ({ mm0 with frame := 1 } : MirrorMsg), (true : Bool), ([] : List (MirrorMsg × Bool)), ?_, rfl, ?_, ?_, _, _, rfl, rfl⟩ <;> decide
  · refine ⟨({ W with us.applying := some mm0 } : State), ?_, (mm0 : MirrorMsg), ?_⟩ <;> decide

theorem test_meets_MirrorAndFailoverCommands_2 :
  (∃ s : State, (s.mode ≠ .curtain) ∧ ∃ m : MirrorMsg, ∃ rest : List MirrorMsg, (s.us.applying = none) ∧ (s.mode ≠ .lead) ∧ (s.us.takeDue = none) ∧ (s.us.accepted = m :: rest) ∧ (s.applyMay m = true))
  ∧ (∃ s : State, ∃ n : Nat, ∃ m : MirrorMsg, (s.us.applying = some m) ∧ (m.frame + 2 = n))
  ∧ (∃ s : State, ∃ a : State, ∃ b : State, ∃ c : State, ∃ d : State, (s.mode = .lead ∨ s.mode = .understudy ∨ s.mode = .interval) ∧ (s.rd F.SYS_STATE_PAIR_ROLE ≠ 0) ∧ (a = s.reachST (s.frameStart + 5000).toNat) ∧ (b = (a.missCount F.UNDERSTUDY_STAT_LINK_MISS a.us.pulseSeen).missCount F.UNDERSTUDY_STAT_ALIVE_MISS a.us.aliveSeen) ∧ (c = State.resolveCheck { b with us.pulseSeen := false, us.aliveSeen := false } (a.us.pulseSeen, a.us.aliveSeen) (a.linkLostNow, a.aliveLostNow)) ∧ (d = (if c.mode == .understudy && c.us.failed && c.us.takeDue.isNone then { c with us.takeDue := some c.frame } else c)))
  ∧ (∃ s : State, ∃ u : State, ∃ v : State, ∃ agree : Bool, ∃ f : Nat, (s.us.takeDue = some f) ∧ (s.mode = .understudy) ∧ (u = s.reachST (s.frameStart + 5500).toNat) ∧ (((u.us.applying = none ∧ v = u) ∨ ∃ m, u.us.applying = some m ∧ v = u.applySteps m)) ∧ (v.us.applying = none))
  ∧ (∃ s : State, ∃ u : State, (s.us.ho = 1) ∧ (s.mode = .lead) ∧ (s.us.hoSwitch = s.frame + 1) ∧ (u = s.reachST (s.nextBoundary - 5000).toNat))
  ∧ (∃ s : State, ∃ test : Nat, ∃ pass : Bool, (s.mode = .understudy) ∧ (1 ≤ test) ∧ (test ≤ 5)) := by
  refine ⟨?_, ?_, ?_, ?_, ?_, ?_⟩
  · refine ⟨({ W with us.accepted := [mm0] } : State), ?_, (mm0 : MirrorMsg), ([] : List MirrorMsg), ?_, ?_, ?_, ?_, ?_⟩ <;> decide
  · refine ⟨({ W with us.applying := some mm0 } : State), (2 : Nat), (mm0 : MirrorMsg), ?_, ?_⟩ <;> decide
  · refine ⟨(usM 2 : State), _, _, _, _, ?_, ?_, rfl, rfl, rfl, rfl⟩ <;> decide
  · refine ⟨({ inMode 3 with us.takeDue := some 4 } : State), _, _, (true : Bool), (4 : Nat), ?_, ?_, rfl, Or.inl ⟨rfl, rfl⟩, ?_⟩ <;> decide
  · refine ⟨({ inMode 2 with us.ho := 1, us.hoSwitch := 1 } : State), _, ?_, ?_, ?_, rfl⟩ <;> decide
  · refine ⟨(inMode 3 : State), (5 : Nat), (true : Bool), ?_, ?_, ?_⟩ <;> decide

theorem test_meets_UnderstudyRegisterCommands_1 :
  (∃ s : State, ∃ m : Nat, (s.mayWrite m A.UNDERSTUDY_CTRL = true))
  ∧ (∃ s : State, ∃ u : State, ∃ m : Nat, (s.mayWrite m A.UNDERSTUDY_CTRL = true) ∧ (s.mode = .rehearsal) ∧ (s.us.joined = false) ∧ (u = (State.lanesFollow { s with us.joined := true }).landBanks))
  ∧ (∃ s : State, ∃ m : Nat, (s.mayWrite m A.UNDERSTUDY_CTRL = true) ∧ (s.mode = .lead))
  ∧ (∃ s : State, ∃ m : Nat, (s.mayWrite m A.UNDERSTUDY_CTRL = true))
  ∧ (∃ s : State, ∃ u : State, ∃ m : Nat, (s.mayWrite m A.UNDERSTUDY_CTRL = true) ∧ (s.keyed = true ∨ s.pairing = true) ∧ (u = s.breakPair whyUNPAIR))
  ∧ (∃ s : State, ∃ u : State, ∃ m : Nat, (s.mayWrite m A.UNDERSTUDY_CTRL = true) ∧ (s.mode = .lead) ∧ (u = s.setStale false)) := by
  refine ⟨?_, ?_, ?_, ?_, ?_, ?_⟩
  · refine ⟨(W), (8 : Nat), ?_⟩
    decide
  · refine ⟨(W), _, (8 : Nat), ?_, ?_, ?_, rfl⟩ <;> decide
  · refine ⟨(inMode 2 : State), (8 : Nat), ?_, ?_⟩ <;> decide
  · refine ⟨(W), (8 : Nat), ?_⟩
    decide
  · refine ⟨(us 3 1 : State), _, (8 : Nat), ?_, ?_, rfl⟩ <;> decide
  · refine ⟨(inMode 2 : State), _, (8 : Nat), ?_, ?_, rfl⟩ <;> decide

theorem test_meets_UnderstudyRegisterCommands_2 :
  (∃ s : State, ∃ m : Nat, ∃ w : Word, (s.mayWrite m A.UNDERSTUDY_HOLD_SET = true))
  ∧ (∃ s : State, ∃ m : Nat, ∃ w : Word, (s.mayWrite m A.UNDERSTUDY_HOLD_CLR = true))
  ∧ (∃ s : State, ∃ m : Nat, ∃ k : Nat, ∃ w : Word, (k < 3) ∧ (s.mayWrite m (A.UNDERSTUDY_CNT_A + 4 * k) = true)) := by
  refine ⟨?_, ?_, ?_⟩
  · refine ⟨(W), (8 : Nat), (0#32 : Word), ?_⟩
    decide
  · refine ⟨(W), (8 : Nat), (0#32 : Word), ?_⟩
    decide
  · refine ⟨(W), (8 : Nat), (0 : Nat), (0#32 : Word), ?_, ?_⟩ <;> decide

theorem test_meets_TroupeSessionCommands_1 :
  (∃ s : State, ∃ a : State, ∃ u : State, ∃ v : State, ∃ w : State, (s.isDirector = true) ∧ (s.mode ≠ .factory) ∧ (a = (if s.troupe.rollDue || !s.armed .rollPeriod then s else s.reachST (s.dueAt .rollPeriod))) ∧ (a.isDirector = true) ∧ (a.mode ≠ .factory) ∧ (u = { a.next.next with troupe.seq := 0, troupe.nonce := a.draw, troupe.rolling := true, troupe.oldBkey := a.troupe.bkey, troupe.bkey := some (Config.freshKey a.next.draw), troupe.answered := [], troupe.welcomed := [], troupe.rollDue := false }) ∧ (v = u.troupeSend 1 0 none [] (beBytes 32 a.draw)) ∧ (w = v.arm .rollWait (u.lv F.TROUPE_CFG_C_ROLL_WAIT * ticksPerMs)))
  ∧ (∃ s : State, ∃ u : State, ∃ d : State, ∃ v : State, ∃ w : State, ∃ h : THead, ∃ nonce : Nat, (s.troupeAccept h 0 true false = (true, u)) ∧ (d = u.directorHeard) ∧ (v = { d with troupe.seq := 0, troupe.rolling := true, troupe.welcomed := [] }) ∧ (w = v.sendAttest nonce))
  ∧ (∃ s : State, ∃ u : State, ∃ v : State, ∃ h : THead, ∃ p : List Byte, ∃ sigOk : Bool, (s.troupeAccept h 0 false false = (true, u)) ∧ (v = { u with troupe.answered := u.troupe.answered ++ [h.slot] }) ∧ (sigOk = false ∨ (v.troupe.rolling = true ∧ beNat (sliceB p 0 32) ≠ v.troupe.nonce)))
  ∧ (∃ s : State, ∃ u : State, ∃ v : State, ∃ h : THead, ∃ p : List Byte, ∃ sigOk : Bool, (s.troupeAccept h 0 false false = (true, u)) ∧ (v = { u with troupe.answered := u.troupe.answered ++ [h.slot] }) ∧ (sigOk = true) ∧ ((v.troupe.rolling = true → beNat (sliceB p 0 32) = v.troupe.nonce)))
  ∧ (∃ s : State, ∃ u : State, ∃ v : State, ∃ h : THead, ∃ hello : List Byte, ∃ wrapped : List Byte, ∃ print : List Byte, ∃ key : List Byte, ∃ sigOk : Bool, ∃ got : Option (List Byte), (s.troupeAccept h 0 true false = (true, u)) ∧ (key = sessionKey (Config.troupeSecrets false hello u.troupe.attestDraw) u.troupe.attest hello) ∧ (got = (if sigOk = true ∧ Config.rosterPrint u.cfg 0 = some print ∧ beNat (sliceB hello 0 32) = u.troupe.nonce ∧ u.troupe.attest ≠ [] then kwUnwrap key wrapped else none)) ∧ (v = u.newSession 0 (some key)))
  ∧ (∃ s : State, ∃ u : State, ∃ v : State, ∃ w : State, ∃ slots : List Nat, (s.armed .rollWait = true) ∧ (u = s.elapsed .rollWait) ∧ (slots = (if u.isDirector then (List.range 64).filter (· != 0) else [0])) ∧ (v = (slots.filter fun k => !u.troupe.welcomed.contains k).foldl (fun s k => s.newSession k none) u) ∧ (w = (if v.isDirector then (slots.filter fun k => !v.troupe.answered.contains k).foldl (fun s k => if s.member k = tmSTRANGER then s else s.memberGo k tmABSENT) v else v))) := by
  refine ⟨?_, ?_, ?_, ?_, ?_, ?_⟩
  · refine ⟨(director : State), _, _, _, _, ?_, ?_, rfl, ?_, ?_, rfl, rfl, rfl⟩ <;> decide
  · exact ⟨(player : State), _, _, _, _, (hdD 0 : THead), (0 : Nat), pair_of (by decide), rfl, rfl, rfl⟩
  · refine ⟨(director : State), _, _, (hdP 0 : THead), ([] : List Byte), (false : Bool), pair_of (by decide), rfl, ?_⟩
    decide
  · refine ⟨(director : State), _, _, (hdP 0 : THead), ([] : List Byte), _, pair_of (by decide), rfl, rfl, ?_⟩
    decide
  · exact ⟨(player : State), _, _, (hdD 0 : THead), ([] : List Byte), ([] : List Byte), ([] : List Byte), _, (true : Bool), _, pair_of (by decide), rfl, rfl, rfl⟩
  · refine ⟨(director.arm .rollWait 7 : State), _, _, _, _, ?_, rfl, rfl, rfl, rfl⟩
    decide

theorem test_meets_TroupeSessionCommands_2 :
  (∃ s : State, ∃ a : State, ∃ b : State, ∃ k : List Byte, (s.isDirector = true) ∧ (a = (if s.armed .healthPeriod then s.reachST (s.dueAt .healthPeriod) else s)) ∧ (b = a.arm .healthPeriod (a.lv F.TROUPE_CFG_B_HEALTH_PERIOD * ticksPerMs)) ∧ (b.troupe.bkey = some k) ∧ ∃ c : State, ∃ d : State, (c = b.troupeSend 4 2 none k (beBytes 8 b.call ++ beBytes 1 b.rate ++ beBytes 2 b.troupe.epoch)) ∧ (d = (List.range 64).foldl (fun s k => if (s.member k = tmPRESENT ∨ s.member k = tmMISALIGNED) ∧ !s.troupe.heard.contains k then { s with troupe.missed := put (fun _ => 0) s.troupe.missed k (look (fun _ => 0) s.troupe.missed k + 1) } else { s with troupe.missed := put (fun _ => 0) s.troupe.missed k 0 }) c))
  ∧ (∃ s : State, ∃ u : State, ∃ v : State, ∃ h : THead, ∃ call : Nat, ∃ rate : Nat, ∃ epoch : Nat, (s.troupeAccept h 2 true false = (true, u)) ∧ ((s.isPlayer && (s.session 0).isNone) = false) ∧ (v = { u.directorHeard with troupe.epoch := epoch }))
  ∧ (∃ s : State, ∃ u : State, ∃ v : State, ∃ h : THead, ∃ x : THealth, (s.troupeAccept h 1 false false = (true, u)) ∧ (v = State.wr { u with troupe.heard := u.troupe.heard ++ [h.slot], troupe.missed := put (fun _ => 0) u.troupe.missed h.slot 0, troupe.healthAt := put noneAt u.troupe.healthAt h.slot (some u.now) } (F.TROUPE_MEMBER_MODE h.slot) x.mode))
  ∧ (∃ s : State, ∃ k : Nat, (s.member k = tmPRESENT ∨ s.member k = tmMISALIGNED) ∧ (max 1 (s.lv F.TROUPE_CFG_C_SILENT_LIMIT) ≤ look (fun _ => 0) s.troupe.missed k))
  ∧ (∃ s : State, (s.armed .dirSilent = true) ∧ ((s.elapsed .dirSilent).isPlayer = true))
  ∧ (∃ s : State, ∃ m : Nat, ∃ w : Word, (s.mayWrite m A.TROUPE_CNT = true)) := by
  refine ⟨?_, ?_, ?_, ?_, ?_, ?_⟩
  · refine ⟨(director : State), _, _, ([] : List Byte), ?_, rfl, rfl, ?_, _, _, rfl, rfl⟩ <;> decide
  · refine ⟨(player : State), _, _, (hdD 2 : THead), (0 : Nat), (0 : Nat), (0 : Nat), pair_of (by decide), ?_, rfl⟩
    decide
  · exact ⟨(director : State), _, _, (hdP 1 : THead), (thealth : THealth), pair_of (by decide), rfl⟩
  · refine ⟨({ W.wr (F.TROUPE_MEMBER_STATE 0) tmPRESENT with troupe.missed := [(0, 3)] } : State), (0 : Nat), ?_, ?_⟩ <;> decide
  · refine ⟨(player.arm .dirSilent 7 : State), ?_, ?_⟩ <;> decide
  · refine ⟨(W), (8 : Nat), (0#32 : Word), ?_⟩
    decide

theorem test_meets_TroupeKeyAndIntervalCommands_1 :
  (∃ s : State, ∃ entry : Nat, ∃ kid : Nat, ∃ change : Nat, ∃ overlap : Nat, ∃ v : KeyVal, (s.isDirector = true) ∧ (((s.now + 10 * ticksPerSecond : Nat) : Int) ≤ boundaryAt s.call s.rate ((change : Int) - overlap)) ∧ ((s.streamKey entry).byKid kid = some v))
  ∧ (∃ s : State, ∃ u : State, ∃ a : State, ∃ b : State, ∃ c : State, ∃ d : State, ∃ e : State, ∃ h : THead, ∃ k : TKey, ∃ good : Bool, ∃ key : List Byte, (s.troupeAccept h 1 true true = (true, u)) ∧ (u.mode ≠ .curtain) ∧ (a = ((((u.directorHeard.wr F.SOLOIST_KEY_IDX_INDEX k.entry).wr F.SOLOIST_KEY_IDX_SLOT 1).wr F.SOLOIST_KEY_KID_KID k.kid).wr F.SOLOIST_KEY_ATTR_LEN256 (b2n k.len256)).wr F.SOLOIST_KEY_ATTR_OVERLAP k.overlap) ∧ (b = (((List.range 8).foldl (fun s i => s.setReg (A.SOLOIST_KEY_VAL i) (BitVec.ofNat 32 (k.value / 2 ^ (32 * i)))) a).setReg A.SOLOIST_KEY_CHG_LO (BitVec.ofNat 32 k.change)).setReg A.SOLOIST_KEY_CHG_HI (BitVec.ofNat 32 (k.change / 2 ^ 32 % 65536))) ∧ (c = (if k.wrapOk then b.solPush (BitVec.twoPow 32 31) else b.wipeStagedKey)) ∧ (good = (k.wrapOk && !c.flag F.SOLOIST_KEY_STAT_LAST_REFUSED)) ∧ (d = (if good && !c.pendingIn Base.SOLOIST then c.solApply.wrap (F.BLOCK_COMMIT_STATUS_APPLIED Base.SOLOIST) else c)) ∧ ((if h.old then look noneAt d.troupe.oldSessions 0 else d.session 0) = some key) ∧ (e = d.troupeSend 7 1 (some 0) key (beBytes 4 k.kid ++ beBytes 1 (if good then scOK else scBAD_PARAM))))
  ∧ (∃ s : State, ∃ u : State, ∃ v : State, ∃ h : THead, ∃ kid : Nat, ∃ e : KeyExch, (s.troupeAccept h 1 false true = (true, u)) ∧ ((u.troupe.exchanges.find? fun e => e.slot == h.slot && e.kid == kid) = some e) ∧ (v = u.exchangeEnd h.slot e.entry))
  ∧ (∃ s : State, ∃ u : State, ∃ v : State, ∃ k : Nat, ∃ n : Nat, ∃ e : KeyExch, (s.keyRetryNext k = some n) ∧ (s.armed (.keyRetry n) = true) ∧ (u = s.elapsed (.keyRetry n)) ∧ ((u.troupe.exchanges.find? fun e => e.entry * 64 + e.slot == n) = some e) ∧ (v = (u.exchangeEnd e.slot e.entry).wr (F.TROUPE_MEMBER_KEYS_OK e.slot) 0) ∧ (e.retries < 3))
  ∧ (∃ s : State, ∃ u : State, ∃ v : State, ∃ k : Nat, ∃ n : Nat, ∃ e : KeyExch, (s.keyRetryNext k = some n) ∧ (s.armed (.keyRetry n) = true) ∧ (u = s.elapsed (.keyRetry n)) ∧ ((u.troupe.exchanges.find? fun e => e.entry * 64 + e.slot == n) = some e) ∧ (v = (u.exchangeEnd e.slot e.entry).wr (F.TROUPE_MEMBER_KEYS_OK e.slot) 0) ∧ (3 ≤ e.retries))
  ∧ (∃ s : State, ∃ u : State, ∃ v : State, ∃ w : State, ∃ h : THead, ∃ mask : Nat, ∃ start : Nat, ∃ stop : Nat, ∃ status : Nat, ∃ both : Bool, ∃ key : List Byte, (s.troupeAccept h 2 true false = (true, u)) ∧ (v = u.directorHeard) ∧ (bit mask v.tSlot = true) ∧ (both = ((Config.rosterPartner v.cfg v.tSlot).map (bit mask)).getD false) ∧ (status = (if both then scDENIED else if !(v.mode == .lead && v.peerHealthy) && !(v.mode == .understudy && v.peerLeads) then scWRONG_MODE else if v.holds ≠ 0 then scBUSY else scOK)) ∧ (w = (if both then v else if v.mode == .lead && v.peerHealthy then { v with us.hoRequest := true, us.hoNext := max v.us.hoNext (start - 2), troupe.interval := some (start, stop, false) } else if v.mode == .understudy && v.peerLeads then { v with troupe.interval := some (start, stop, false) } else v)) ∧ (w.session 0 = some key)) := by
  refine ⟨?_, ?_, ?_, ?_, ?_, ?_⟩
  · refine ⟨({ director with sol.keys := [(0, { state := 1, cur := some { kid := 0, len256 := false, value := 0 }, other := none, change := 0, overlap := 0 })] } : State), (0 : Nat), (0 : Nat), (2 ^ 40 : Nat), (0 : Nat), ({ kid := 0, len256 := false, value := 0 } : KeyVal), ?_, ?_, ?_⟩ <;> decide
  · refine ⟨(player : State), _, _, _, _, _, _, (hdD 1 : THead), (tkey : TKey), _, ([] : List Byte), pair_of (by decide), ?_, rfl, rfl, rfl, rfl, rfl, ?_, rfl⟩ <;> decide
  · refine ⟨({ director with troupe.exchanges := [ex0] } : State), _, _, (hdP 1 : THead), (7 : Nat), (ex0 : KeyExch), pair_of (by decide), ?_, rfl⟩
    decide
  · refine ⟨({ director.arm (.keyRetry 5) 7 with troupe.exchanges := [ex0] } : State), _, _, (5 : Nat), (5 : Nat), (ex0 : KeyExch), ?_, ?_, rfl, ?_, rfl, ?_⟩ <;> decide
  · refine ⟨({ director.arm (.keyRetry 5) 7 with troupe.exchanges := [{ ex0 with retries := 3 }] } : State), _, _, (5 : Nat), (5 : Nat), ({ ex0 with retries := 3 } : KeyExch), ?_, ?_, rfl, ?_, rfl, ?_⟩ <;> decide
  · refine ⟨(player : State), _, _, _, (hdD 2 : THead), (8 : Nat), (0 : Nat), (0 : Nat), _, _, ([] : List Byte), pair_of (by decide), rfl, ?_, rfl, rfl, rfl, ?_⟩
    · decide
    · split <;> decide

theorem test_meets_TroupeKeyAndIntervalCommands_2 :
  (∃ s : State, ∃ u : State, ∃ h : THead, ∃ code : Nat, (s.troupeAccept h 1 false false = (true, u)))
  ∧ (∃ s : State, ∃ v : State, ∃ w : State, ∃ x : State, ∃ agree : Bool, (s.timeRuns = true) ∧ (s.intervalAt (s.stime.gridN + 1).toNat = true) ∧ (0 ≤ s.stime.gridN + 1) ∧ (v = (s.carryOver s.nextBoundary.toNat).reachST s.nextBoundary.toNat) ∧ (v.modeDue (s.stime.gridN + 1).toNat = some (.interval, causeTroupe)) ∧ (w = (if agree then { v with modeReq := none } else State.dtDisagree { v with modeReq := none })) ∧ (x = (if agree then w.modeChange .interval causeTroupe else { w with us.dualDue := false })) ∧ (x.nothingPends = true) ∧ (x.flag F.STIME_STATE_STEP_PENDING = false) ∧ (x.stime.gridN = s.stime.gridN))
  ∧ (∃ s : State, ∃ u : State, ∃ st : Nat, ∃ e : Nat, ∃ b : Bool, (s.troupe.interval = some (st, e, b)) ∧ (e ≤ s.frame) ∧ (u = { s with troupe.interval := none }))
  ∧ (∃ s : State, ∃ k : List Byte, ∃ used : Nat, ∃ n : Nat, ∃ out : List Rec, ∃ rest : List Rec, (s.session 0 = some k) ∧ (s.isPlayer = true) ∧ (s.mode ≠ .curtain) ∧ (s.troupe.sumQueue.isEmpty = false) ∧ (used = (if s.troupe.sumAt = s.now / ticksPerSecond then s.troupe.sumCount else 0)) ∧ (n = min (min 56 s.troupe.sumQueue.length) (sumLimit - used)) ∧ (out = s.troupe.sumQueue.take n) ∧ (rest = s.troupe.sumQueue.drop n) ∧ ∃ u : State, (u = State.sat { s with troupe.sumAt := s.now / ticksPerSecond, troupe.sumCount := used + n, troupe.sumQueue := if used + n = sumLimit then [] else rest } F.TROUPE_CNT_SUM_DROP (if used + n = sumLimit then rest.length else 0)))
  ∧ (∃ s : State, ∃ u : State, ∃ h : THead, ∃ recs : List TRec, (s.troupeAccept h 1 false false = (true, u)))
  ∧ (∃ s : State, ∃ u : State, ∃ h : THead, ∃ p : List Byte, (s.troupeAccept h 1 (h.slot == 0) false = (true, u)) ∧ (u.isDirector = true)) := by
  refine ⟨?_, ?_, ?_, ?_, ?_, ?_⟩
  · exact ⟨(director : State), _, (hdP 1 : THead), (0 : Nat), pair_of (by decide)⟩
  · refine ⟨({ (usM 3).setReg A.UNDERSTUDY_PEER_HEALTH 0xA0000000#32 with troupe.interval := some (0, 0, false) } : State), _, _, _, (true : Bool), ?_, ?_, ?_, rfl, ?_, rfl, rfl, ?_, ?_, ?_⟩
    · decide
    · decide +kernel
    · decide
    · decide +kernel
    · decide +kernel
    · decide +kernel
    · decide +kernel
  · refine ⟨({ W with troupe.interval := some (0, 0, true) } : State), _, (0 : Nat), (0 : Nat), (true : Bool), ?_, ?_, rfl⟩ <;> decide
  · refine ⟨({ player with troupe.sumQueue := [fillerRec] } : State), ([] : List Byte), _, _, _, _, ?_, ?_, ?_, ?_, rfl, rfl, rfl, rfl, _, rfl⟩ <;> decide
  · exact ⟨(director : State), _, (hdP 1 : THead), ([] : List TRec), pair_of (by decide)⟩
  · refine ⟨(director : State), _, (hdP 1 : THead), ([] : List Byte), pair_of (by decide), ?_⟩
    decide

theorem test_meets_TroupeKeyAndIntervalCommands_3 :
  (∃ s : State, ∃ u : State, ∃ h : THead, ∃ p : List Byte, (s.troupeAccept h 1 (h.slot == 0) false = (true, u)) ∧ (u.isDirector = false) ∧ (u.directorHeard.desk.running = true) ∧ (16 ≤ p.length) ∧ (byteAt p 0 = 1)) := by
  refine ⟨({ player with desk.running := true } : State), _, (hdD 1 : THead), (1#8 :: List.replicate 15 0#8 : List Byte), pair_of (by decide), ?_, ?_, ?_, ?_⟩ <;> decide

theorem test_meets_ChorusCommands_1 :
  (∃ s : State, ∃ c : Nat, ∃ fault : Option (Nat × Nat), ∃ j : ChJob, ((s.chan c).running = some j) ∧ (j.op = 1) ∧ (j.status = none) ∧ (s.framesFirst = false))
  ∧ (∃ s : State, ∃ c : Nat, ∃ fault : Option (Nat × Nat), ∃ j : ChJob, ((s.chan c).running = some j) ∧ (j.op = 2) ∧ (j.status = none) ∧ (s.framesFirst = false))
  ∧ (∃ s : State, ∃ c : Nat, ∃ fault : Option (Nat × Nat), ∃ j : ChJob, ((s.chan c).running = some j) ∧ (j.op = 3) ∧ (j.status = none) ∧ (s.framesFirst = false))
  ∧ (∃ s : State, ∃ c : Nat, ∃ fault : Option (Nat × Nat), ∃ j : ChJob, ((s.chan c).running = some j) ∧ (j.op = 5) ∧ (j.status = none) ∧ (s.framesFirst = false))
  ∧ (∃ s : State, ∃ c : Nat, ∃ fault : Option (Nat × Nat), ∃ j : ChJob, ((s.chan c).running = some j) ∧ (j.op = 4) ∧ (j.status = none) ∧ (s.coresOut = false) ∧ ∃ u : State, ∃ n : Nat, ∃ st : Nat, ((fault.bind fun f => s.coreErr f.2) = none) ∧ (s.gateOpen c j = ((st, n), u)))
  ∧ (∃ s : State, ∃ c : Nat, ∃ fault : Option (Nat × Nat), ∃ j : ChJob, ((s.chan c).running = some j) ∧ (j.op = 4) ∧ (j.status = none) ∧ (s.coresOut = false) ∧ ∃ cn : Nat, ((fault.bind fun f => s.coreErr f.2) = some cn)) := by
  refine ⟨?_, ?_, ?_, ?_, ?_, ?_⟩
  · refine ⟨(chan0 [] (some { cj with op := 1 }) : State), (0 : Nat), (none : Option (Nat × Nat)), ({ cj with op := 1 } : ChJob), ?_, ?_, ?_, ?_⟩ <;> decide
  · refine ⟨(chan0 [] (some { cj with op := 2 }) : State), (0 : Nat), (none : Option (Nat × Nat)), ({ cj with op := 2 } : ChJob), ?_, ?_, ?_, ?_⟩ <;> decide
  · refine ⟨(chan0 [] (some { cj with op := 3 }) : State), (0 : Nat), (none : Option (Nat × Nat)), ({ cj with op := 3 } : ChJob), ?_, ?_, ?_, ?_⟩ <;> decide
  · refine ⟨(chan0 [] (some { cj with op := 5 }) : State), (0 : Nat), (none : Option (Nat × Nat)), ({ cj with op := 5 } : ChJob), ?_, ?_, ?_, ?_⟩ <;> decide
  · refine ⟨(chan0 [] (some { cj with op := 4 }) : State), (0 : Nat), (none : Option (Nat × Nat)), ({ cj with op := 4 } : ChJob), ?_, ?_, ?_, ?_, _, _, _, ?_, pair2 _⟩ <;> decide
  · refine ⟨(chan0 [] (some { cj with op := 4 }) : State), (0 : Nat), (some (0, 0) : Option (Nat × Nat)), ({ cj with op := 4 } : ChJob), ?_, ?_, ?_, ?_, (0 : Nat), ?_⟩ <;> decide

theorem test_meets_ChorusCommands_2 :
  (∃ s : State, ∃ c : Nat, ∃ fault : Option (Nat × Nat), ∃ j : ChJob, ((s.chan c).running = some j) ∧ (j.op = 7) ∧ (j.status = none) ∧ (s.coresOut = false) ∧ ∃ u : State, ∃ n : Nat, ∃ st : Nat, ((fault.bind fun f => s.coreErr f.2) = none) ∧ (s.jobWrap j = ((st, n), u)))
  ∧ (∃ s : State, ∃ c : Nat, ∃ fault : Option (Nat × Nat), ∃ j : ChJob, ((s.chan c).running = some j) ∧ (j.op = 7) ∧ (j.status = none) ∧ (s.coresOut = false) ∧ ∃ cn : Nat, ((fault.bind fun f => s.coreErr f.2) = some cn))
  ∧ (∃ s : State, ∃ c : Nat, ∃ fault : Option (Nat × Nat), ∃ j : ChJob, ((s.chan c).running = some j) ∧ (j.op = 8) ∧ (j.status = none) ∧ (s.coresOut = false) ∧ ∃ u : State, ∃ n : Nat, ∃ st : Nat, ((fault.bind fun f => s.coreErr f.2) = none) ∧ (s.jobUnwrap j = ((st, n), u)))
  ∧ (∃ s : State, ∃ c : Nat, ∃ fault : Option (Nat × Nat), ∃ j : ChJob, ((s.chan c).running = some j) ∧ (j.op = 8) ∧ (j.status = none) ∧ (s.coresOut = false) ∧ ∃ cn : Nat, ((fault.bind fun f => s.coreErr f.2) = some cn))
  ∧ (∃ s : State, ∃ c : Nat, ∃ fault : Option (Nat × Nat), ∃ j : ChJob, ((s.chan c).running = some j) ∧ (j.op = 10) ∧ (j.status = none) ∧ (s.coresOut = false) ∧ ∃ u : State, ∃ n : Nat, ∃ st : Nat, ((fault.bind fun f => s.coreErr f.2) = none) ∧ (s.ctxSaveWrapped c j = ((st, n), u)))
  ∧ (∃ s : State, ∃ c : Nat, ∃ fault : Option (Nat × Nat), ∃ j : ChJob, ((s.chan c).running = some j) ∧ (j.op = 10) ∧ (j.status = none) ∧ (s.coresOut = false) ∧ ∃ cn : Nat, ((fault.bind fun f => s.coreErr f.2) = some cn)) := by
  refine ⟨?_, ?_, ?_, ?_, ?_, ?_⟩
  · refine ⟨(chan0 [] (some { cj with op := 7 }) : State), (0 : Nat), (none : Option (Nat × Nat)), ({ cj with op := 7 } : ChJob), ?_, ?_, ?_, ?_, _, _, _, ?_, pair2 _⟩ <;> decide
  · refine ⟨(chan0 [] (some { cj with op := 7 }) : State), (0 : Nat), (some (0, 0) : Option (Nat × Nat)), ({ cj with op := 7 } : ChJob), ?_, ?_, ?_, ?_, (0 : Nat), ?_⟩ <;> decide
  · refine ⟨(chan0 [] (some { cj with op := 8 }) : State), (0 : Nat), (none : Option (Nat × Nat)), ({ cj with op := 8 } : ChJob), ?_, ?_, ?_, ?_, _, _, _, ?_, pair2 _⟩ <;> decide
  · refine ⟨(chan0 [] (some { cj with op := 8 }) : State), (0 : Nat), (some (0, 0) : Option (Nat × Nat)), ({ cj with op := 8 } : ChJob), ?_, ?_, ?_, ?_, (0 : Nat), ?_⟩ <;> decide
  · refine ⟨(chan0 [] (some { cj with op := 10 }) : State), (0 : Nat), (none : Option (Nat × Nat)), ({ cj with op := 10 } : ChJob), ?_, ?_, ?_, ?_, _, _, _, ?_, pair2 _⟩ <;> decide
  · refine ⟨(chan0 [] (some { cj with op := 10 }) : State), (0 : Nat), (some (0, 0) : Option (Nat × Nat)), ({ cj with op := 10 } : ChJob), ?_, ?_, ?_, ?_, (0 : Nat), ?_⟩ <;> decide

theorem test_meets_ChorusCommands_3 :
  (∃ s : State, ∃ c : Nat, ∃ fault : Option (Nat × Nat), ∃ j : ChJob, ((s.chan c).running = some j) ∧ (j.op = 11) ∧ (j.status = none) ∧ (s.coresOut = false) ∧ ∃ u : State, ∃ n : Nat, ∃ st : Nat, ((fault.bind fun f => s.coreErr f.2) = none) ∧ (s.ctxRestore c j = ((st, n), u)))
  ∧ (∃ s : State, ∃ c : Nat, ∃ fault : Option (Nat × Nat), ∃ j : ChJob, ((s.chan c).running = some j) ∧ (j.op = 11) ∧ (j.status = none) ∧ (s.coresOut = false) ∧ ∃ cn : Nat, ((fault.bind fun f => s.coreErr f.2) = some cn))
  ∧ (∃ s : State, ∃ u : State, ∃ c : Nat, ∃ n : Nat, ∃ st : Nat, ∃ j : ChJob, ((s.chan c).running = some j) ∧ (j.op = 6) ∧ (j.status = none) ∧ (s.coresOut = false) ∧ (s.gateVerdict c j = ((st, n), u)))
  ∧ (∃ s : State, ∃ u : State, ∃ c : Nat, ∃ n : Nat, ∃ st : Nat, ∃ j : ChJob, ((s.chan c).running = some j) ∧ (j.op = 9) ∧ (j.status = none) ∧ (s.coresOut = false) ∧ (s.ctxSaveClear c j = ((st, n), u)))
  ∧ (∃ s : State, ∃ u : State, ∃ c : Nat, ∃ agree : Bool, ∃ j : ChJob, ∃ rest : List ChJob, ((s.chan c).running = none) ∧ ((s.chan c).queue = j :: rest) ∧ (u = (s.setChan c { s.chan c with queue := rest }).wr (F.CHORUS_CH_STAT_QUEUED c) rest.length))
  ∧ (∃ s : State, ∃ u : State, ∃ c : Nat, ∃ st : Nat, ∃ j : ChJob, ((s.chan c).running = some j) ∧ (j.status = some st) ∧ (u = (((s.setRunning c none).wr (F.CHORUS_CH_STAT_STATUS c) st).wr (F.CHORUS_CH_STAT_REQ c) j.req).wr (F.CHORUS_CH_STAT_BLOCKS c) j.blocks) ∧ ∃ v : State, (v = (if st = jDONE then u else u.irq 112))) := by
  refine ⟨?_, ?_, ?_, ?_, ?_, ?_⟩
  · refine ⟨(chan0 [] (some { cj with op := 11 }) : State), (0 : Nat), (none : Option (Nat × Nat)), ({ cj with op := 11 } : ChJob), ?_, ?_, ?_, ?_, _, _, _, ?_, pair2 _⟩ <;> decide
  · refine ⟨(chan0 [] (some { cj with op := 11 }) : State), (0 : Nat), (some (0, 0) : Option (Nat × Nat)), ({ cj with op := 11 } : ChJob), ?_, ?_, ?_, ?_, (0 : Nat), ?_⟩ <;> decide
  · refine ⟨(chan0 [] (some { cj with op := 6 }) : State), _, (0 : Nat), _, _, ({ cj with op := 6 } : ChJob), ?_, ?_, ?_, ?_, pair2 _⟩ <;> decide
  · refine ⟨(chan0 [] (some { cj with op := 9 }) : State), _, (0 : Nat), _, _, ({ cj with op := 9 } : ChJob), ?_, ?_, ?_, ?_, pair2 _⟩ <;> decide
  · refine ⟨(chan0 [cj] none : State), _, (0 : Nat), (true : Bool), (cj : ChJob), ([] : List ChJob), ?_, ?_, rfl⟩ <;> decide
  · refine ⟨(chan0 [] (some { cj with status := some 0 }) : State), _, (0 : Nat), (0 : Nat), ({ cj with status := some 0 } : ChJob), ?_, ?_, rfl, _, rfl⟩ <;> decide

theorem test_meets_ChorusCommands_4 :
  (∃ s : State, ∃ m : Nat, ∃ i : Nat, (s.mayWrite m A.CHORUS_KEY_PUSH = true) ∧ (i = s.rd F.CHORUS_KEY_IDX_SLOT) ∧ (s.pendingIn Base.CHORUS = false) ∧ ((s.chorus.changes.any fun c => c.1 == i) = true ∨ s.chorus.changes.length < 256) ∧ (s.chorusReason = 0) ∧ ∃ p : SlotPush, ∃ u : State, ∃ v : State, (p = SlotPush.mk false (s.rd F.CHORUS_KEY_ATTR_LEN) s.stagedUse (s.reg A.CHORUS_KEY_USERS).toNat ((if s.rd F.CHORUS_KEY_ATTR_FROM = 1 then s.chorus.unwrap.getD [] else if s.rd F.CHORUS_KEY_ATTR_FROM = 2 then s.chorus.bus.headD [] else s.stagedSlotKey).take (keyBytes (s.rd F.CHORUS_KEY_ATTR_LEN)))) ∧ (u = (if s.rd F.CHORUS_KEY_ATTR_FROM = 1 then { s with chorus.unwrap := none } else if s.rd F.CHORUS_KEY_ATTR_FROM = 2 then { s with chorus.bus := s.chorus.bus.drop 1 } else s)) ∧ (v = (List.range 8).foldl (fun s k => s.setReg (A.CHORUS_KEY_VAL k) 0) u) ∧ ∃ l : List (Nat × SlotPush), (l = (if s.chorus.changes.any fun c => c.1 == i then v.chorus.changes.map (fun c => if c.1 = i then (i, p) else c) else v.chorus.changes ++ [(i, p)])))
  ∧ (∃ s : State, ∃ m : Nat, ∃ i : Nat, (s.mayWrite m A.CHORUS_KEY_PUSH = true) ∧ (i = s.rd F.CHORUS_KEY_IDX_SLOT) ∧ (s.pendingIn Base.CHORUS = false) ∧ ((s.chorus.changes.any fun c => c.1 == i) = true ∨ s.chorus.changes.length < 256) ∧ ∃ p : SlotPush, ∃ v : State, (p = SlotPush.mk true 0 0 0 []) ∧ (v = (List.range 8).foldl (fun s k => s.setReg (A.CHORUS_KEY_VAL k) 0) s) ∧ ∃ l : List (Nat × SlotPush), (l = (if s.chorus.changes.any fun c => c.1 == i then v.chorus.changes.map (fun c => if c.1 = i then (i, p) else c) else v.chorus.changes ++ [(i, p)])))
  ∧ (∃ s : State, ∃ m : Nat, ∃ w : Word, (s.mayWrite m A.CHORUS_CNT = true)) := by
  refine ⟨?_, ?_, ?_⟩
  · refine ⟨(W), (8 : Nat), _, ?_, rfl, ?_, ?_, ?_, _, _, _, rfl, rfl, rfl, _, rfl⟩ <;> decide
  · refine ⟨(W), (8 : Nat), _, ?_, rfl, ?_, ?_, _, _, rfl, rfl, _, rfl⟩ <;> decide
  · refine ⟨(W), (8 : Nat), (0#32 : Word), ?_⟩
    decide

theorem test_meets_MassifOperationCommands_1 :
  (∃ s : State, ∃ inv : Bool, ∃ parity : Bool, ∃ agree : Bool, ∃ c : Nat, ∃ j : MJob, (s.runningClass [1, 2, 3, 4, 5, 6, 7] = some c) ∧ (s.mrunning c = some j) ∧ (parity = true))
  ∧ (∃ s : State, ∃ inv : Bool, ∃ parity : Bool, ∃ agree : Bool, ∃ c : Nat, ∃ j : MJob, (s.runningClass [1, 2, 3, 4, 5, 6, 7] = some c) ∧ (s.mrunning c = some j) ∧ (parity = false) ∧ ∃ st : Nat, ∃ v : Bool, ∃ u : State, (s.massifCompute j inv = ((st, v), u)))
  ∧ (∃ s : State, ∃ inv : Bool, ∃ parity : Bool, ∃ agree : Bool, ∃ c : Nat, ∃ j : MJob, (s.runningClass [8] = some c) ∧ (s.mrunning c = some j) ∧ (parity = true))
  ∧ (∃ s : State, ∃ inv : Bool, ∃ parity : Bool, ∃ agree : Bool, ∃ c : Nat, ∃ j : MJob, (s.runningClass [8] = some c) ∧ (s.mrunning c = some j) ∧ (parity = false) ∧ ∃ st : Nat, ∃ v : Bool, ∃ u : State, (s.massifCompute j inv = ((st, v), u)))
  ∧ (∃ s : State, ∃ inv : Bool, ∃ parity : Bool, ∃ agree : Bool, ∃ c : Nat, ∃ j : MJob, (s.runningClass [0x10, 0x11] = some c) ∧ (s.mrunning c = some j) ∧ (parity = true))
  ∧ (∃ s : State, ∃ inv : Bool, ∃ parity : Bool, ∃ agree : Bool, ∃ c : Nat, ∃ j : MJob, (s.runningClass [0x10, 0x11] = some c) ∧ (s.mrunning c = some j) ∧ (parity = false) ∧ (isVerify j.op = true) ∧ (j.twice = true) ∧ (agree = false)) := by
  refine ⟨?_, ?_, ?_, ?_, ?_, ?_⟩
  · refine ⟨(mrun 1 0 : State), (true : Bool), (true : Bool), (true : Bool), (0 : Nat), ({ mj with op := 1 } : MJob), ?_, ?_, ?_⟩ <;> decide
  · refine ⟨(mrun 1 0 : State), (true : Bool), (false : Bool), (false : Bool), (0 : Nat), ({ mj with op := 1 } : MJob), ?_, ?_, ?_, _, _, _, pair2 _⟩ <;> decide
  · refine ⟨(mrun 8 0 : State), (true : Bool), (true : Bool), (true : Bool), (0 : Nat), ({ mj with op := 8 } : MJob), ?_, ?_, ?_⟩ <;> decide
  · refine ⟨(mrun 8 0 : State), (true : Bool), (false : Bool), (false : Bool), (0 : Nat), ({ mj with op := 8 } : MJob), ?_, ?_, ?_, _, _, _, pair2 _⟩ <;> decide
  · refine ⟨(mrun 17 0 : State), (true : Bool), (true : Bool), (true : Bool), (0 : Nat), ({ mj with op := 17 } : MJob), ?_, ?_, ?_⟩ <;> decide
  · refine ⟨(mrun 17 0 : State), (true : Bool), (false : Bool), (false : Bool), (0 : Nat), ({ mj with op := 17 } : MJob), ?_, ?_, ?_, ?_, ?_, ?_⟩ <;> decide

theorem test_meets_MassifOperationCommands_2 :
  (∃ s : State, ∃ inv : Bool, ∃ parity : Bool, ∃ agree : Bool, ∃ c : Nat, ∃ j : MJob, (s.runningClass [0x10, 0x11] = some c) ∧ (s.mrunning c = some j) ∧ (parity = false) ∧ ((isVerify j.op && j.twice && !agree) = false) ∧ ∃ st : Nat, ∃ v : Bool, ∃ u : State, (s.massifCompute j inv = ((st, v), u)))
  ∧ (∃ s : State, ∃ inv : Bool, ∃ parity : Bool, ∃ agree : Bool, ∃ c : Nat, ∃ j : MJob, (s.runningClass [0x12, 0x13] = some c) ∧ (s.mrunning c = some j) ∧ (parity = true))
  ∧ (∃ s : State, ∃ inv : Bool, ∃ parity : Bool, ∃ agree : Bool, ∃ c : Nat, ∃ j : MJob, (s.runningClass [0x12, 0x13] = some c) ∧ (s.mrunning c = some j) ∧ (parity = false) ∧ (isVerify j.op = true) ∧ (j.twice = true) ∧ (agree = false))
  ∧ (∃ s : State, ∃ inv : Bool, ∃ parity : Bool, ∃ agree : Bool, ∃ c : Nat, ∃ j : MJob, (s.runningClass [0x12, 0x13] = some c) ∧ (s.mrunning c = some j) ∧ (parity = false) ∧ ((isVerify j.op && j.twice && !agree) = false) ∧ ∃ st : Nat, ∃ v : Bool, ∃ u : State, (s.massifCompute j inv = ((st, v), u)))
  ∧ (∃ s : State, ∃ inv : Bool, ∃ parity : Bool, ∃ agree : Bool, ∃ c : Nat, ∃ j : MJob, (s.runningClass [0x14, 0x15] = some c) ∧ (s.mrunning c = some j) ∧ (parity = true))
  ∧ (∃ s : State, ∃ inv : Bool, ∃ parity : Bool, ∃ agree : Bool, ∃ c : Nat, ∃ j : MJob, (s.runningClass [0x14, 0x15] = some c) ∧ (s.mrunning c = some j) ∧ (parity = false) ∧ (isVerify j.op = true) ∧ (j.twice = true) ∧ (agree = false)) := by
  refine ⟨?_, ?_, ?_, ?_, ?_, ?_⟩
  · refine ⟨(mrun 17 0 : State), (true : Bool), (false : Bool), (true : Bool), (0 : Nat), ({ mj with op := 17 } : MJob), ?_, ?_, ?_, ?_, _, _, _, pair2 _⟩ <;> decide
  · refine ⟨(mrun 19 0 : State), (true : Bool), (true : Bool), (true : Bool), (0 : Nat), ({ mj with op := 19 } : MJob), ?_, ?_, ?_⟩ <;> decide
  · refine ⟨(mrun 19 0 : State), (true : Bool), (false : Bool), (false : Bool), (0 : Nat), ({ mj with op := 19 } : MJob), ?_, ?_, ?_, ?_, ?_, ?_⟩ <;> decide
  · refine ⟨(mrun 19 0 : State), (true : Bool), (false : Bool), (true : Bool), (0 : Nat), ({ mj with op := 19 } : MJob), ?_, ?_, ?_, ?_, _, _, _, pair2 _⟩ <;> decide
  · refine ⟨(mrun 21 0 : State), (true : Bool), (true : Bool), (true : Bool), (0 : Nat), ({ mj with op := 21 } : MJob), ?_, ?_, ?_⟩ <;> decide
  · refine ⟨(mrun 21 0 : State), (true : Bool), (false : Bool), (false : Bool), (0 : Nat), ({ mj with op := 21 } : MJob), ?_, ?_, ?_, ?_, ?_, ?_⟩ <;> decide

theorem test_meets_MassifOperationCommands_3 :
  (∃ s : State, ∃ inv : Bool, ∃ parity : Bool, ∃ agree : Bool, ∃ c : Nat, ∃ j : MJob, (s.runningClass [0x14, 0x15] = some c) ∧ (s.mrunning c = some j) ∧ (parity = false) ∧ ((isVerify j.op && j.twice && !agree) = false) ∧ ∃ st : Nat, ∃ v : Bool, ∃ u : State, (s.massifCompute j inv = ((st, v), u)))
  ∧ (∃ s : State, ∃ inv : Bool, ∃ parity : Bool, ∃ agree : Bool, ∃ c : Nat, ∃ j : MJob, (s.runningClass [0x16, 0x17] = some c) ∧ (s.mrunning c = some j) ∧ (parity = true))
  ∧ (∃ s : State, ∃ inv : Bool, ∃ parity : Bool, ∃ agree : Bool, ∃ c : Nat, ∃ j : MJob, (s.runningClass [0x16, 0x17] = some c) ∧ (s.mrunning c = some j) ∧ (parity = false) ∧ ∃ st : Nat, ∃ v : Bool, ∃ u : State, (s.massifCompute j inv = ((st, v), u)))
  ∧ (∃ s : State, ∃ inv : Bool, ∃ parity : Bool, ∃ agree : Bool, ∃ c : Nat, ∃ j : MJob, (s.runningClass [0x18] = some c) ∧ (s.mrunning c = some j) ∧ (parity = true))
  ∧ (∃ s : State, ∃ inv : Bool, ∃ parity : Bool, ∃ agree : Bool, ∃ c : Nat, ∃ j : MJob, (s.runningClass [0x18] = some c) ∧ (s.mrunning c = some j) ∧ (parity = false) ∧ ∃ st : Nat, ∃ v : Bool, ∃ u : State, (s.massifCompute j inv = ((st, v), u)))
  ∧ (∃ s : State, ∃ inv : Bool, ∃ parity : Bool, ∃ agree : Bool, ∃ c : Nat, ∃ j : MJob, (s.runningClass [0x20, 0x21, 0x22] = some c) ∧ (s.mrunning c = some j) ∧ (parity = true)) := by
  refine ⟨?_, ?_, ?_, ?_, ?_, ?_⟩
  · refine ⟨(mrun 21 0 : State), (true : Bool), (false : Bool), (true : Bool), (0 : Nat), ({ mj with op := 21 } : MJob), ?_, ?_, ?_, ?_, _, _, _, pair2 _⟩ <;> decide
  · refine ⟨(mrun 22 0 : State), (true : Bool), (true : Bool), (true : Bool), (0 : Nat), ({ mj with op := 22 } : MJob), ?_, ?_, ?_⟩ <;> decide
  · refine ⟨(mrun 22 0 : State), (true : Bool), (false : Bool), (false : Bool), (0 : Nat), ({ mj with op := 22 } : MJob), ?_, ?_, ?_, _, _, _, pair2 _⟩ <;> decide
  · refine ⟨(mrun 24 0 : State), (true : Bool), (true : Bool), (true : Bool), (0 : Nat), ({ mj with op := 24 } : MJob), ?_, ?_, ?_⟩ <;> decide
  · refine ⟨(mrun 24 0 : State), (true : Bool), (false : Bool), (false : Bool), (0 : Nat), ({ mj with op := 24 } : MJob), ?_, ?_, ?_, _, _, _, pair2 _⟩ <;> decide
  · refine ⟨(mrun 32 0 : State), (true : Bool), (true : Bool), (true : Bool), (0 : Nat), ({ mj with op := 32 } : MJob), ?_, ?_, ?_⟩ <;> decide

theorem test_meets_MassifOperationCommands_4 :
  (∃ s : State, ∃ inv : Bool, ∃ parity : Bool, ∃ agree : Bool, ∃ c : Nat, ∃ j : MJob, (s.runningClass [0x20, 0x21, 0x22] = some c) ∧ (s.mrunning c = some j) ∧ (parity = false) ∧ ∃ st : Nat, ∃ v : Bool, ∃ u : State, (s.massifCompute j inv = ((st, v), u))) := by
  refine ⟨(mrun 32 0 : State), (true : Bool), (false : Bool), (false : Bool), (0 : Nat), ({ mj with op := 32 } : MJob), ?_, ?_, ?_, _, _, _, pair2 _⟩ <;> decide

theorem test_meets_MassifPostQuantumAndKeyCommands_1 :
  (∃ s : State, ∃ inv : Bool, ∃ parity : Bool, ∃ agree : Bool, ∃ c : Nat, ∃ j : MJob, (s.runningClass [0x23, 0x24, 0x25] = some c) ∧ (s.mrunning c = some j) ∧ (parity = true))
  ∧ (∃ s : State, ∃ inv : Bool, ∃ parity : Bool, ∃ agree : Bool, ∃ c : Nat, ∃ j : MJob, (s.runningClass [0x23, 0x24, 0x25] = some c) ∧ (s.mrunning c = some j) ∧ (parity = false) ∧ ∃ st : Nat, ∃ v : Bool, ∃ u : State, (s.massifCompute j inv = ((st, v), u)))
  ∧ (∃ s : State, ∃ inv : Bool, ∃ parity : Bool, ∃ agree : Bool, ∃ c : Nat, ∃ j : MJob, (s.runningClass [0x28, 0x29, 0x2A] = some c) ∧ (s.mrunning c = some j) ∧ (parity = true))
  ∧ (∃ s : State, ∃ inv : Bool, ∃ parity : Bool, ∃ agree : Bool, ∃ c : Nat, ∃ j : MJob, (s.runningClass [0x28, 0x29, 0x2A] = some c) ∧ (s.mrunning c = some j) ∧ (parity = false) ∧ (isVerify j.op = true) ∧ (j.twice = true) ∧ (agree = false))
  ∧ (∃ s : State, ∃ inv : Bool, ∃ parity : Bool, ∃ agree : Bool, ∃ c : Nat, ∃ j : MJob, (s.runningClass [0x28, 0x29, 0x2A] = some c) ∧ (s.mrunning c = some j) ∧ (parity = false) ∧ ((isVerify j.op && j.twice && !agree) = false) ∧ ∃ st : Nat, ∃ v : Bool, ∃ u : State, (s.massifCompute j inv = ((st, v), u)))
  ∧ (∃ s : State, ∃ inv : Bool, ∃ parity : Bool, ∃ agree : Bool, ∃ c : Nat, ∃ j : MJob, (s.runningClass [0x2B, 0x2C, 0x2D] = some c) ∧ (s.mrunning c = some j) ∧ (parity = true)) := by
  refine ⟨?_, ?_, ?_, ?_, ?_, ?_⟩
  · refine ⟨(mrun 35 0 : State), (true : Bool), (true : Bool), (true : Bool), (0 : Nat), ({ mj with op := 35 } : MJob), ?_, ?_, ?_⟩ <;> decide
  · refine ⟨(mrun 35 0 : State), (true : Bool), (false : Bool), (false : Bool), (0 : Nat), ({ mj with op := 35 } : MJob), ?_, ?_, ?_, _, _, _, pair2 _⟩ <;> decide
  · refine ⟨(mrun 42 0 : State), (true : Bool), (true : Bool), (true : Bool), (0 : Nat), ({ mj with op := 42 } : MJob), ?_, ?_, ?_⟩ <;> decide
  · refine ⟨(mrun 42 0 : State), (true : Bool), (false : Bool), (false : Bool), (0 : Nat), ({ mj with op := 42 } : MJob), ?_, ?_, ?_, ?_, ?_, ?_⟩ <;> decide
  · refine ⟨(mrun 42 0 : State), (true : Bool), (false : Bool), (true : Bool), (0 : Nat), ({ mj with op := 42 } : MJob), ?_, ?_, ?_, ?_, _, _, _, pair2 _⟩ <;> decide
  · refine ⟨(mrun 45 0 : State), (true : Bool), (true : Bool), (true : Bool), (0 : Nat), ({ mj with op := 45 } : MJob), ?_, ?_, ?_⟩ <;> decide

theorem test_meets_MassifPostQuantumAndKeyCommands_2 :
  (∃ s : State, ∃ inv : Bool, ∃ parity : Bool, ∃ agree : Bool, ∃ c : Nat, ∃ j : MJob, (s.runningClass [0x2B, 0x2C, 0x2D] = some c) ∧ (s.mrunning c = some j) ∧ (parity = false) ∧ (isVerify j.op = true) ∧ (j.twice = true) ∧ (agree = false))
  ∧ (∃ s : State, ∃ inv : Bool, ∃ parity : Bool, ∃ agree : Bool, ∃ c : Nat, ∃ j : MJob, (s.runningClass [0x2B, 0x2C, 0x2D] = some c) ∧ (s.mrunning c = some j) ∧ (parity = false) ∧ ((isVerify j.op && j.twice && !agree) = false) ∧ ∃ st : Nat, ∃ v : Bool, ∃ u : State, (s.massifCompute j inv = ((st, v), u)))
  ∧ (∃ s : State, ∃ inv : Bool, ∃ parity : Bool, ∃ agree : Bool, ∃ c : Nat, ∃ j : MJob, (s.runningClass [0x30] = some c) ∧ (s.mrunning c = some j) ∧ (parity = true))
  ∧ (∃ s : State, ∃ inv : Bool, ∃ parity : Bool, ∃ agree : Bool, ∃ c : Nat, ∃ j : MJob, (s.runningClass [0x30] = some c) ∧ (s.mrunning c = some j) ∧ (parity = false) ∧ (isVerify j.op = true) ∧ (j.twice = true) ∧ (agree = false))
  ∧ (∃ s : State, ∃ inv : Bool, ∃ parity : Bool, ∃ agree : Bool, ∃ c : Nat, ∃ j : MJob, (s.runningClass [0x30] = some c) ∧ (s.mrunning c = some j) ∧ (parity = false) ∧ ((isVerify j.op && j.twice && !agree) = false) ∧ ∃ st : Nat, ∃ v : Bool, ∃ u : State, (s.massifCompute j inv = ((st, v), u)))
  ∧ (∃ s : State, ∃ inv : Bool, ∃ parity : Bool, ∃ agree : Bool, ∃ c : Nat, ∃ j : MJob, (s.runningClass [0x31] = some c) ∧ (s.mrunning c = some j) ∧ (parity = true)) := by
  refine ⟨?_, ?_, ?_, ?_, ?_, ?_⟩
  · refine ⟨(mrun 45 0 : State), (true : Bool), (false : Bool), (false : Bool), (0 : Nat), ({ mj with op := 45 } : MJob), ?_, ?_, ?_, ?_, ?_, ?_⟩ <;> decide
  · refine ⟨(mrun 45 0 : State), (true : Bool), (false : Bool), (true : Bool), (0 : Nat), ({ mj with op := 45 } : MJob), ?_, ?_, ?_, ?_, _, _, _, pair2 _⟩ <;> decide
  · refine ⟨(mrun 48 0 : State), (true : Bool), (true : Bool), (true : Bool), (0 : Nat), ({ mj with op := 48 } : MJob), ?_, ?_, ?_⟩ <;> decide
  · refine ⟨(mrun 48 0 : State), (true : Bool), (false : Bool), (false : Bool), (0 : Nat), ({ mj with op := 48 } : MJob), ?_, ?_, ?_, ?_, ?_, ?_⟩ <;> decide
  · refine ⟨(mrun 48 0 : State), (true : Bool), (false : Bool), (true : Bool), (0 : Nat), ({ mj with op := 48 } : MJob), ?_, ?_, ?_, ?_, _, _, _, pair2 _⟩ <;> decide
  · refine ⟨(mrun 49 0 : State), (true : Bool), (true : Bool), (true : Bool), (0 : Nat), ({ mj with op := 49 } : MJob), ?_, ?_, ?_⟩ <;> decide

theorem test_meets_MassifPostQuantumAndKeyCommands_3 :
  (∃ s : State, ∃ inv : Bool, ∃ parity : Bool, ∃ agree : Bool, ∃ c : Nat, ∃ j : MJob, (s.runningClass [0x31] = some c) ∧ (s.mrunning c = some j) ∧ (parity = false) ∧ ∃ st : Nat, ∃ v : Bool, ∃ u : State, (s.massifCompute j inv = ((st, v), u)))
  ∧ (∃ s : State, ∃ inv : Bool, ∃ parity : Bool, ∃ agree : Bool, ∃ c : Nat, ∃ j : MJob, (s.runningClass [0x32] = some c) ∧ (s.mrunning c = some j) ∧ (parity = true))
  ∧ (∃ s : State, ∃ inv : Bool, ∃ parity : Bool, ∃ agree : Bool, ∃ c : Nat, ∃ j : MJob, (s.runningClass [0x32] = some c) ∧ (s.mrunning c = some j) ∧ (parity = false) ∧ ∃ st : Nat, ∃ v : Bool, ∃ u : State, (s.massifCompute j inv = ((st, v), u)))
  ∧ (∃ s : State, ∃ inv : Bool, ∃ parity : Bool, ∃ agree : Bool, ∃ c : Nat, ∃ j : MJob, (s.runningClass [0x38, 0x39] = some c) ∧ (s.mrunning c = some j) ∧ (parity = true))
  ∧ (∃ s : State, ∃ inv : Bool, ∃ parity : Bool, ∃ agree : Bool, ∃ c : Nat, ∃ j : MJob, (s.runningClass [0x38, 0x39] = some c) ∧ (s.mrunning c = some j) ∧ (parity = false) ∧ (isVerify j.op = true) ∧ (j.twice = true) ∧ (agree = false))
  ∧ (∃ s : State, ∃ inv : Bool, ∃ parity : Bool, ∃ agree : Bool, ∃ c : Nat, ∃ j : MJob, (s.runningClass [0x38, 0x39] = some c) ∧ (s.mrunning c = some j) ∧ (parity = false) ∧ ((isVerify j.op && j.twice && !agree) = false) ∧ ∃ st : Nat, ∃ v : Bool, ∃ u : State, (s.massifCompute j inv = ((st, v), u))) := by
  refine ⟨?_, ?_, ?_, ?_, ?_, ?_⟩
  · refine ⟨(mrun 49 0 : State), (true : Bool), (false : Bool), (false : Bool), (0 : Nat), ({ mj with op := 49 } : MJob), ?_, ?_, ?_, _, _, _, pair2 _⟩ <;> decide
  · refine ⟨(mrun 50 0 : State), (true : Bool), (true : Bool), (true : Bool), (0 : Nat), ({ mj with op := 50 } : MJob), ?_, ?_, ?_⟩ <;> decide
  · refine ⟨(mrun 50 0 : State), (true : Bool), (false : Bool), (false : Bool), (0 : Nat), ({ mj with op := 50 } : MJob), ?_, ?_, ?_, _, _, _, pair2 _⟩ <;> decide
  · refine ⟨(mrun 56 0 : State), (true : Bool), (true : Bool), (true : Bool), (0 : Nat), ({ mj with op := 56 } : MJob), ?_, ?_, ?_⟩ <;> decide
  · refine ⟨(mrun 56 0 : State), (true : Bool), (false : Bool), (false : Bool), (0 : Nat), ({ mj with op := 56 } : MJob), ?_, ?_, ?_, ?_, ?_, ?_⟩ <;> decide
  · refine ⟨(mrun 56 0 : State), (true : Bool), (false : Bool), (true : Bool), (0 : Nat), ({ mj with op := 56 } : MJob), ?_, ?_, ?_, ?_, _, _, _, pair2 _⟩ <;> decide

theorem test_meets_MassifPostQuantumAndKeyCommands_4 :
  (∃ s : State, ∃ inv : Bool, ∃ parity : Bool, ∃ agree : Bool, ∃ c : Nat, ∃ j : MJob, (s.runningClass [0x40] = some c) ∧ (s.mrunning c = some j) ∧ (parity = true))
  ∧ (∃ s : State, ∃ inv : Bool, ∃ parity : Bool, ∃ agree : Bool, ∃ c : Nat, ∃ j : MJob, (s.runningClass [0x40] = some c) ∧ (s.mrunning c = some j) ∧ (parity = false) ∧ ∃ st : Nat, ∃ v : Bool, ∃ u : State, (s.massifCompute j inv = ((st, v), u)))
  ∧ (∃ s : State, ∃ inv : Bool, ∃ parity : Bool, ∃ agree : Bool, ∃ c : Nat, ∃ j : MJob, (s.runningClass [0x41] = some c) ∧ (s.mrunning c = some j) ∧ (parity = true))
  ∧ (∃ s : State, ∃ inv : Bool, ∃ parity : Bool, ∃ agree : Bool, ∃ c : Nat, ∃ j : MJob, (s.runningClass [0x41] = some c) ∧ (s.mrunning c = some j) ∧ (parity = false) ∧ ∃ st : Nat, ∃ v : Bool, ∃ u : State, (s.massifCompute j inv = ((st, v), u)))
  ∧ (∃ s : State, ∃ inv : Bool, ∃ parity : Bool, ∃ agree : Bool, ∃ c : Nat, ∃ j : MJob, (s.runningClass [0x42] = some c) ∧ (s.mrunning c = some j) ∧ (parity = true))
  ∧ (∃ s : State, ∃ inv : Bool, ∃ parity : Bool, ∃ agree : Bool, ∃ c : Nat, ∃ j : MJob, (s.runningClass [0x42] = some c) ∧ (s.mrunning c = some j) ∧ (parity = false) ∧ ∃ st : Nat, ∃ v : Bool, ∃ u : State, (s.massifCompute j inv = ((st, v), u))) := by
  refine ⟨?_, ?_, ?_, ?_, ?_, ?_⟩
  · refine ⟨(mrun 64 0 : State), (true : Bool), (true : Bool), (true : Bool), (0 : Nat), ({ mj with op := 64 } : MJob), ?_, ?_, ?_⟩ <;> decide
  · refine ⟨(mrun 64 0 : State), (true : Bool), (false : Bool), (false : Bool), (0 : Nat), ({ mj with op := 64 } : MJob), ?_, ?_, ?_, _, _, _, pair2 _⟩ <;> decide
  · refine ⟨(mrun 65 0 : State), (true : Bool), (true : Bool), (true : Bool), (0 : Nat), ({ mj with op := 65 } : MJob), ?_, ?_, ?_⟩ <;> decide
  · refine ⟨(mrun 65 0 : State), (true : Bool), (false : Bool), (false : Bool), (0 : Nat), ({ mj with op := 65 } : MJob), ?_, ?_, ?_, _, _, _, pair2 _⟩ <;> decide
  · refine ⟨(mrun 66 0 : State), (true : Bool), (true : Bool), (true : Bool), (0 : Nat), ({ mj with op := 66 } : MJob), ?_, ?_, ?_⟩ <;> decide
  · refine ⟨(mrun 66 0 : State), (true : Bool), (false : Bool), (false : Bool), (0 : Nat), ({ mj with op := 66 } : MJob), ?_, ?_, ?_, _, _, _, pair2 _⟩ <;> decide

theorem test_meets_MassifPostQuantumAndKeyCommands_5 :
  (∃ s : State, ∃ inv : Bool, ∃ parity : Bool, ∃ agree : Bool, ∃ c : Nat, ∃ j : MJob, (s.runningClass [0x43] = some c) ∧ (s.mrunning c = some j) ∧ (parity = true))
  ∧ (∃ s : State, ∃ inv : Bool, ∃ parity : Bool, ∃ agree : Bool, ∃ c : Nat, ∃ j : MJob, (s.runningClass [0x43] = some c) ∧ (s.mrunning c = some j) ∧ (parity = false) ∧ ∃ st : Nat, ∃ v : Bool, ∃ u : State, (s.massifCompute j inv = ((st, v), u)))
  ∧ (∃ s : State, ∃ inv : Bool, ∃ parity : Bool, ∃ agree : Bool, ∃ c : Nat, ∃ j : MJob, (s.runningClass [0x44] = some c) ∧ (s.mrunning c = some j) ∧ (parity = true))
  ∧ (∃ s : State, ∃ inv : Bool, ∃ parity : Bool, ∃ agree : Bool, ∃ c : Nat, ∃ j : MJob, (s.runningClass [0x44] = some c) ∧ (s.mrunning c = some j) ∧ (parity = false) ∧ ∃ st : Nat, ∃ v : Bool, ∃ u : State, (s.massifCompute j inv = ((st, v), u))) := by
  refine ⟨?_, ?_, ?_, ?_⟩
  · refine ⟨(mrun 67 0 : State), (true : Bool), (true : Bool), (true : Bool), (0 : Nat), ({ mj with op := 67 } : MJob), ?_, ?_, ?_⟩ <;> decide
  · refine ⟨(mrun 67 0 : State), (true : Bool), (false : Bool), (false : Bool), (0 : Nat), ({ mj with op := 67 } : MJob), ?_, ?_, ?_, _, _, _, pair2 _⟩ <;> decide
  · refine ⟨(mrun 68 0 : State), (true : Bool), (true : Bool), (true : Bool), (0 : Nat), ({ mj with op := 68 } : MJob), ?_, ?_, ?_⟩ <;> decide
  · refine ⟨(mrun 68 0 : State), (true : Bool), (false : Bool), (false : Bool), (0 : Nat), ({ mj with op := 68 } : MJob), ?_, ?_, ?_, _, _, _, pair2 _⟩ <;> decide

theorem test_meets_MassifQueueAndScreeCommands_1 :
  (∃ s : State, ∃ u : State, (s.live? = true) ∧ (u = s.reachST (s.scree.cmAt + ticksPerMs / 1000)) ∧ (u.flag F.SCREE_STAT_FAILED = true))
  ∧ (∃ s : State, ∃ u : State, (s.live? = true) ∧ (u = s.reachST (s.scree.cmAt + ticksPerMs / 1000)) ∧ (u.flag F.SCREE_STAT_FAILED = false) ∧ ((u.drbg 0).live = true))
  ∧ (∃ s : State, ∃ a : State, ∃ b : State, ∃ c : Nat, ∃ agree : Bool, ∃ j : MJob, ∃ rest : List MJob, (s.mrunning c = none) ∧ (s.mqueue c = j :: rest) ∧ ((c = cLONG → s.mrunning cSHORT = none)) ∧ (a = (s.setMQueue c rest).enterPart c j) ∧ (b = (if c = cSHORT ∧ (a.mrunning cLONG).isSome then { a with massif.yielded := true } else a)) ∧ ∃ st : Option Nat, ∃ u : State, (b.massifGate j agree = (st, u)))
  ∧ (∃ s : State, (s.massif.yielded = true) ∧ ((s.mqueue cSHORT).isEmpty = true) ∧ (s.mrunning cSHORT = none))
  ∧ (∃ s : State, ∃ c : Nat, ∃ st : Nat, ∃ j : MJob, (s.mrunning c = some j) ∧ (j.status = some st))
  ∧ (∃ s : State, ∃ m : Nat, ∃ w : Word, (s.mayWrite m A.MASSIF_CNT = true)) := by
  refine ⟨?_, ?_, ?_, ?_, ?_, ?_⟩
  · refine ⟨(on W F.SCREE_STAT_FAILED : State), _, ?_, rfl, ?_⟩ <;> decide
  · refine ⟨({ W with scree.inst := [(0, { DrbgState.off with live := true })] } : State), _, ?_, rfl, ?_, ?_⟩ <;> decide
  · refine ⟨({ W with massif.queues := [(0, [mj])] } : State), _, _, (0 : Nat), (true : Bool), (mj : MJob), ([] : List MJob), ?_, ?_, ?_, rfl, rfl, _, _, pair1 _⟩ <;> decide
  · refine ⟨({ W with massif.yielded := true } : State), ?_, ?_, ?_⟩ <;> decide
  · refine ⟨({ W with massif.running := [(0, some { mj with status := some 0 })] } : State), (0 : Nat), (0 : Nat), ({ mj with status := some 0 } : MJob), ?_, ?_⟩ <;> decide
  · refine ⟨(W), (8 : Nat), (0#32 : Word), ?_⟩
    decide

theorem test_meets_MassifQueueAndScreeCommands_2 :
  (∃ s : State, ∃ m : Nat, (s.mayWrite m A.SCREE_CTRL = true))
  ∧ (∃ s : State, ∃ m : Nat, (s.mayWrite m A.SCREE_CTRL = true) ∧ (s.flag F.SCREE_STAT_FAILED = false))
  ∧ (∃ s : State, ∃ m : Nat, (s.mayWrite m A.SCREE_CTRL = true))
  ∧ (∃ s : State, ∃ u : State, ∃ k : Nat, (s.live? = true) ∧ (s.scree.starting.contains k = true) ∧ (u = State.screeJudge (State.setSource { s with scree.starting := s.scree.starting.filter (· != k) } k true)))
  ∧ (∃ s : State, ∃ a : State, ∃ b : State, ∃ k : Nat, ∃ n : Nat, ∃ apt : Bool, (s.live? = true) ∧ (s.sourceIdle k = false) ∧ (n = look (fun _ => 0) s.scree.fails k + 1) ∧ (a = { s with scree.fails := put (fun _ => 0) s.scree.fails k n, scree.starting := s.scree.starting.filter (· != k) }) ∧ (b = ((a.setSource k false).sat (if apt then F.SCREE_CNT_APT_FAIL else F.SCREE_CNT_RCT_FAIL)).irq 128))
  ∧ (∃ s : State, ∃ k : Nat, (s.armed (.screeRetest k) = true)) := by
  refine ⟨?_, ?_, ?_, ?_, ?_, ?_⟩
  · refine ⟨(W), (8 : Nat), ?_⟩
    decide
  · refine ⟨(W), (8 : Nat), ?_, ?_⟩ <;> decide
  · refine ⟨(W), (8 : Nat), ?_⟩
    decide
  · refine ⟨({ W with scree.starting := [0] } : State), _, (0 : Nat), ?_, ?_, rfl⟩ <;> decide
  · refine ⟨(W), _, _, (0 : Nat), _, (true : Bool), ?_, ?_, rfl, rfl, rfl⟩ <;> decide
  · refine ⟨(W.arm (.screeRetest 0) 7 : State), (0 : Nat), ?_⟩
    decide

theorem test_meets_MassifQueueAndScreeCommands_3 :
  (∃ s : State, ∃ u : State, ∃ i : Nat, (s.live? = true) ∧ (u = (if (i == 1 && decide (2 ^ s.rd F.SCREE_DRBG_RESEED_REQ ≤ s.scree.requests)) = true then s else s.reachST (look (fun _ => 0) s.scree.seeded i + s.reseedTicks i))) ∧ (u.flag F.SCREE_STAT_FAILED = false))
  ∧ (∃ s : State, ∃ u : State, ∃ m : Nat, ∃ b : List Byte, (s.mayRead m A.SCREE_RAND = true) ∧ (s.entropyOk = true) ∧ (s.drbgServe 4 false = (b, u)))
  ∧ (∃ s : State, ∃ u : State, ∃ m : Nat, ∃ w : Word, (s.mayWrite m A.SCREE_TEST_DATA = true) ∧ (s.flag F.SCREE_TEST_EN = true) ∧ (u = State.testHealth { s with scree.test := s.scree.test ++ [w] } w) ∧ (u.scree.owed = []))
  ∧ (∃ s : State, ∃ u : State, ∃ m : Nat, ∃ w : Word, (s.mayWrite m A.SCREE_TEST_DATA = true) ∧ (s.flag F.SCREE_TEST_EN = true) ∧ (u = State.testHealth { s with scree.test := s.scree.test ++ [w] } w) ∧ ∃ i : Nat, ∃ anew : Bool, ∃ rest : List (Nat × Bool), (u.scree.owed = (i, anew) :: rest)) := by
  refine ⟨?_, ?_, ?_, ?_⟩
  · refine ⟨(W), _, (0 : Nat), ?_, rfl, ?_⟩ <;> decide
  · refine ⟨(on W F.SCREE_STAT_INSTANTIATED : State), _, (8 : Nat), _, ?_, ?_, pair1 _⟩ <;> decide
  · refine ⟨(on W F.SCREE_TEST_EN : State), _, (8 : Nat), (0#32 : Word), ?_, ?_, rfl, ?_⟩ <;> decide
  · refine ⟨({ on W F.SCREE_TEST_EN with scree.owed := [(0, true)] } : State), _, (8 : Nat), (0#32 : Word), ?_, ?_, rfl, (0 : Nat), (true : Bool), ([] : List (Nat × Bool)), ?_⟩ <;> decide

theorem test_meets_CurtainAndRefugeCommands_1 :
  (∃ s : State, ∃ id : Nat, (1 ≤ id) ∧ (id < 14) ∧ (¬(id = 6 ∧ s.boot.held = true)))
  ∧ (∃ s : State, ∃ u : State, ∃ v : State, ∃ c : CurEntry, (s.armed .curtainZero = true) ∧ (u = s.elapsed .curtainZero) ∧ (u.curtain = some c) ∧ (v = State.postU (State.irq { u with curtain := none } 134) (0xB000 + c.cause) 7 [c.cause, b2n c.z]))
  ∧ (∃ s : State, ∃ hot : Bool, (s.live? = true))
  ∧ (∃ s : State, ∃ m : Nat, ∃ w : Word, (s.mayWrite m A.CURTAIN_CFG = true) ∧ (s.flag F.CURTAIN_CFG_LOCKED = false))
  ∧ (∃ s : State, ∃ body : List Byte, ∃ agree : Bool, (s.mode = .curtain) ∧ (s.unlockReason body = none))
  ∧ (∃ s : State, (s.armed .unlockBlock = true)) := by
  refine ⟨?_, ?_, ?_, ?_, ?_, ?_⟩
  · refine ⟨(W), (13 : Nat), ?_, ?_, ?_⟩ <;> decide
  · refine ⟨({ W.arm .curtainZero 7 with curtain := some ce } : State), _, _, (ce : CurEntry), ?_, rfl, ?_, rfl⟩ <;> decide
  · refine ⟨(W), (true : Bool), ?_⟩
    decide
  · refine ⟨(W), (8 : Nat), (0#32 : Word), ?_, ?_⟩ <;> decide
  · refine ⟨(inMode 5 : State), (token : List Byte), (true : Bool), ?_, ?_⟩
    · decide
    · exact unlock_reason (by decide) (by decide) (by decide) (by decide) (by decide)
  · refine ⟨(W.arm .unlockBlock 7 : State), ?_⟩
    decide

theorem test_meets_CurtainAndRefugeCommands_2 :
  (∃ s : State, ∃ m : Nat, ∃ w : Word, (s.mayWrite m A.DTAKE_CNT_A = true))
  ∧ (∃ s : State, ∃ a : State, ∃ b : State, ∃ c : State, ∃ l0 : Bool, ∃ l1 : Bool, ∃ mesh : Bool, ∃ pos : Word, ∃ vbat : Nat, (a = s.refugeSee 0x21 (s.flag F.REFUGE_CFG_LOOP0_EN && l0) pos) ∧ (b = a.refugeSee 0x22 (a.flag F.REFUGE_CFG_LOOP1_EN && l1) pos) ∧ (c = b.refugeSee 0x23 mesh pos))
  ∧ (∃ s : State, ∃ mv : Nat, (s.power = true))
  ∧ (∃ s : State, ∃ mv : Nat, (s.power = false))
  ∧ (∃ s : State, ∃ mv : Nat, (mv < 2600))
  ∧ (∃ s : State, ∃ m : Nat, ∃ w : Word, (s.mayWrite m A.REFUGE_RTC_SET = true)) := by
  refine ⟨?_, ?_, ?_, ?_, ?_, ?_⟩
  · refine ⟨(W), (8 : Nat), (0#32 : Word), ?_⟩
    decide
  · exact ⟨(W), _, _, _, (true : Bool), (true : Bool), (true : Bool), (0#32 : Word), (0 : Nat), rfl, rfl, rfl⟩
  · refine ⟨(W), (0 : Nat), ?_⟩
    decide
  · refine ⟨({ W with power := false } : State), (0 : Nat), ?_⟩
    decide
  · refine ⟨(W), (0 : Nat), ?_⟩
    decide
  · refine ⟨(W), (8 : Nat), (0#32 : Word), ?_⟩
    decide

theorem test_meets_CurtainAndRefugeCommands_3 :
  (∃ s : State, ∃ m : Nat, ∃ w : Word, (s.mayWrite m A.REFUGE_CFG = true))
  ∧ (∃ s : State, ∃ m : Nat, ∃ i : Nat, (i < 16) ∧ (s.mayWrite m A.REFUGE_LOG_SEL = true))
  ∧ (∃ s : State, (s.power = false) ∧ ∃ u : State, (u = (((((s.cellLevel 0).zeroShare.wr F.REFUGE_STAT_LATCH 0).wr F.REFUGE_STAT_RTC_OK 0).wr F.REFUGE_STAT_LOST 1).wr F.REFUGE_STAT_TOTAL 0).setReg A.REFUGE_CFG 0)) := by
  refine ⟨?_, ?_, ?_⟩
  · refine ⟨(W), (8 : Nat), (0#32 : Word), ?_⟩
    decide
  · refine ⟨(W), (8 : Nat), (0 : Nat), ?_, ?_⟩ <;> decide
  · refine ⟨({ W with power := false } : State), ?_, _, rfl⟩
    decide

theorem test_meets_BedrockCommands_1 :
  (∃ s : State, ∃ m : Nat, ∃ n : Nat, ∃ w : Word, (n < 9) ∧ (s.mayWrite m (A.BRK_UNLOCK n) = true) ∧ (w = 0xA5F0#32))
  ∧ (∃ s : State, ∃ m : Nat, ∃ n : Nat, ∃ w : Word, (n < 9) ∧ (s.mayWrite m (A.BRK_UNLOCK n) = true) ∧ (w = 0xF5A#32) ∧ (s.brkArmed n = 1))
  ∧ (∃ s : State, ∃ m : Nat, ∃ n : Nat, ∃ w : Word, (n < 9) ∧ (s.mayWrite m (A.BRK_UNLOCK n) = true) ∧ (w ≠ 0xA5F0#32) ∧ (¬(w = 0xF5A#32 ∧ s.brkArmed n = 1)))
  ∧ (∃ s : State, ∃ n : Nat, (s.armed (.brkArm n) = true))
  ∧ (∃ s : State, ∃ u : State, ∃ v : State, ∃ w : State, ∃ m : Nat, ∃ n : Nat, ∃ a : Word, ∃ src : Word, (n < 9) ∧ (s.mayWrite m (A.BRK_ADDR n) = true) ∧ (u = ((s.brkTouch n).setReg (A.BRK_ADDR n) a).settle) ∧ (u.mayWrite m (A.BRK_SRC n) = true) ∧ (v = ((u.brkTouch n).setReg (A.BRK_SRC n) src).settle) ∧ (v.mayWrite m (A.BRK_CMD n) = true) ∧ (v.brkArmed n = 2) ∧ (w = { v.brkDisarm n with brk.cmds := (v.brkDisarm n).brk.cmds.map fun (c : BrkCmd) => if c.page = some n then { c with page := none } else c }) ∧ (w.brkCheck m 1 (w.reg (A.BRK_ADDR n)).toNat = scACCEPTED))
  ∧ (∃ s : State, ∃ u : State, ∃ v : State, ∃ w : State, ∃ m : Nat, ∃ n : Nat, ∃ a : Word, ∃ src : Word, (n < 9) ∧ (s.mayWrite m (A.BRK_ADDR n) = true) ∧ (u = ((s.brkTouch n).setReg (A.BRK_ADDR n) a).settle) ∧ (u.mayWrite m (A.BRK_SRC n) = true) ∧ (v = ((u.brkTouch n).setReg (A.BRK_SRC n) src).settle) ∧ (v.mayWrite m (A.BRK_CMD n) = true) ∧ (v.brkArmed n = 2) ∧ (w = { v.brkDisarm n with brk.cmds := (v.brkDisarm n).brk.cmds.map fun (c : BrkCmd) => if c.page = some n then { c with page := none } else c }) ∧ (w.brkCheck m 2 (w.reg (A.BRK_ADDR n)).toNat = scACCEPTED)) := by
  refine ⟨?_, ?_, ?_, ?_, ?_, ?_⟩
  · refine ⟨(W), (8 : Nat), (0 : Nat), (0xA5F0#32 : Word), ?_, ?_, ?_⟩ <;> decide
  · refine ⟨({ W with brk.armed := [(0, 1)] } : State), (8 : Nat), (0 : Nat), (0xF5A#32 : Word), ?_, ?_, ?_, ?_⟩ <;> decide
  · refine ⟨(W), (8 : Nat), (0 : Nat), (0#32 : Word), ?_, ?_, ?_, ?_⟩ <;> decide
  · refine ⟨(W.arm (.brkArm 0) 7 : State), (0 : Nat), ?_⟩
    decide
  · refine ⟨(armedB : State), _, _, _, (8 : Nat), (0 : Nat), (0x21000000#32 : Word), (0#32 : Word), ?_, ?_, rfl, ?_, rfl, ?_, ?_, rfl, ?_⟩ <;> decide
  · refine ⟨(armedB : State), _, _, _, (8 : Nat), (0 : Nat), (0x21000000#32 : Word), (0#32 : Word), ?_, ?_, rfl, ?_, rfl, ?_, ?_, rfl, ?_⟩ <;> decide

theorem test_meets_BedrockCommands_2 :
  (∃ s : State, ∃ u : State, ∃ v : State, ∃ w : State, ∃ m : Nat, ∃ n : Nat, ∃ a : Word, (n < 9) ∧ (s.mayWrite m (A.BRK_ADDR n) = true) ∧ (u = ((s.brkTouch n).setReg (A.BRK_ADDR n) a).settle) ∧ (v = u) ∧ (v.mayWrite m (A.BRK_CMD n) = true) ∧ (v.brkArmed n = 2) ∧ (w = { v.brkDisarm n with brk.cmds := (v.brkDisarm n).brk.cmds.map fun (c : BrkCmd) => if c.page = some n then { c with page := none } else c }) ∧ (w.brkCheck m 3 (w.reg (A.BRK_ADDR n)).toNat = scACCEPTED))
  ∧ (∃ s : State, ∃ u : State, ∃ v : State, ∃ w : State, ∃ m : Nat, ∃ n : Nat, ∃ a : Word, (n < 9) ∧ (s.mayWrite m (A.BRK_ADDR n) = true) ∧ (u = ((s.brkTouch n).setReg (A.BRK_ADDR n) a).settle) ∧ (v = u) ∧ (v.mayWrite m (A.BRK_CMD n) = true) ∧ (v.brkArmed n = 2) ∧ (w = { v.brkDisarm n with brk.cmds := (v.brkDisarm n).brk.cmds.map fun (c : BrkCmd) => if c.page = some n then { c with page := none } else c }) ∧ (w.brkCheck m 4 (w.reg (A.BRK_ADDR n)).toNat = scACCEPTED))
  ∧ (∃ s : State, ∃ u : State, ∃ v : State, ∃ w : State, ∃ m : Nat, ∃ n : Nat, ∃ a : Word, (n < 9) ∧ (s.mayWrite m (A.BRK_ADDR n) = true) ∧ (u = ((s.brkTouch n).setReg (A.BRK_ADDR n) a).settle) ∧ (v = u) ∧ (v.mayWrite m (A.BRK_CMD n) = true) ∧ (v.brkArmed n = 2) ∧ (w = { v.brkDisarm n with brk.cmds := (v.brkDisarm n).brk.cmds.map fun (c : BrkCmd) => if c.page = some n then { c with page := none } else c }) ∧ (w.brkCheck m 5 (w.reg (A.BRK_ADDR n)).toNat = scACCEPTED))
  ∧ (∃ s : State, ∃ c : BrkCmd, ((s.brk.cmds.find? fun c => !c.started) = some c) ∧ (s.brkBusy < 2))
  ∧ (∃ s : State, ∃ r : State, ∃ u : State, ∃ v : State, ∃ b : Nat, ∃ st : Nat, ∃ ok : Bool, ∃ c : BrkCmd, (s.brkRunning b = some c) ∧ (r = (if s.armed (.brkResume b) then (s.elapsed (.brkResume b)).brkResume b else s)) ∧ (r.brkEffect c ok = (st, u)) ∧ (v = (if c.op = opINSPECT ∨ !codeBank (bedBank c.addr) then u else u.icacheDrop c.addr (brkSpan c.op (bedBank c.addr))).brkEnd c st))
  ∧ (∃ s : State, ∃ b : Nat, (s.armed (.brkResume b) = true)) := by
  refine ⟨?_, ?_, ?_, ?_, ?_, ?_⟩
  · refine ⟨(armedB : State), _, _, _, (8 : Nat), (0 : Nat), (0x21000000#32 : Word), ?_, ?_, rfl, rfl, ?_, ?_, rfl, ?_⟩ <;> decide
  · refine ⟨(armedB : State), _, _, _, (8 : Nat), (0 : Nat), (0x21000000#32 : Word), ?_, ?_, rfl, rfl, ?_, ?_, rfl, ?_⟩ <;> decide
  · refine ⟨(armedB : State), _, _, _, (8 : Nat), (0 : Nat), (0x21000000#32 : Word), ?_, ?_, rfl, rfl, ?_, ?_, rfl, ?_⟩ <;> decide
  · refine ⟨({ W with brk.cmds := [bc] } : State), (bc : BrkCmd), ?_, ?_⟩ <;> decide
  · refine ⟨({ W with brk.cmds := [{ bc with started := true }] } : State), _, _, _, (0 : Nat), _, (true : Bool), ({ bc with started := true } : BrkCmd), ?_, rfl, pair1 _, rfl⟩
    decide
  · refine ⟨(W.arm (.brkResume 0) 7 : State), (0 : Nat), ?_⟩
    decide

theorem test_meets_BedrockCommands_3 :
  (∃ s : State, ∃ x : State, ∃ u : State, ∃ v : State, ∃ w : State, ∃ b : Nat, ∃ blk : Nat, ∃ bits : Nat, ∃ k : Nat, ∃ n : Nat, ∃ pass : Bool, (s.flag F.BRK_CFG_PATROL_EN = true) ∧ (s.mode ≠ .curtain) ∧ (s.brkRunning b = none) ∧ (k = s.knownBits (bedBase b + blk * blockLen b)) ∧ (n = max k bits) ∧ (x = (if k < bits then s.spotLine (bedBase b + blk * blockLen b) bits else s)) ∧ (u = (if n = 15 then ((x.sat F.BRK_ECC_UE).irq 147).post 0xC001 6 23 [bedBase b + blk * blockLen b] else if n = 0 then x else x.sat F.BRK_ECC_CE)) ∧ (v = (if max 1 (u.rd (if codeBank b then F.BRK_CFG_REFRESH_CODE else F.BRK_CFG_REFRESH_DATA)) ≤ n then State.irq (if u.brk.patrol.length < 16 then { u with brk.patrol := u.brk.patrol ++ [(b, blk, n)] } else { u with brk.patrolOvf := true }) 148 else u)) ∧ (w = v.reachST (look (fun _ => 0) v.brk.passAt b + v.passTicks b)))
  ∧ (∃ s : State, ∃ m : Nat, (s.mayRead m A.BRK_PATROL_POP = true) ∧ (s.brk.patrol = []))
  ∧ (∃ s : State, ∃ m : Nat, (s.mayRead m A.BRK_PATROL_POP = true) ∧ ∃ b : Nat, ∃ blk : Nat, ∃ bits : Nat, ∃ rest : List (Nat × Nat × Nat), (s.brk.patrol = (b, blk, bits) :: rest))
  ∧ (∃ s : State, ∃ m : Nat, ∃ w : Word, (s.mayWrite m A.BRK_ECC = true)) := by
  refine ⟨?_, ?_, ?_, ?_⟩
  · refine ⟨(on W F.BRK_CFG_PATROL_EN : State), _, _, _, _, (0 : Nat), (0 : Nat), (0 : Nat), _, _, (true : Bool), ?_, ?_, ?_, rfl, rfl, rfl, rfl, rfl, rfl⟩ <;> decide
  · refine ⟨(W), (8 : Nat), ?_, ?_⟩ <;> decide
  · refine ⟨({ W with brk.patrol := [(2, 3, 4)] } : State), (8 : Nat), ?_, (2 : Nat), (3 : Nat), (4 : Nat), ([] : List (Nat × Nat × Nat)), ?_⟩ <;> decide
  · refine ⟨(W), (8 : Nat), (0#32 : Word), ?_⟩
    decide

theorem test_meets_HostLinkCommands_1 :
  (∃ s : State, (s.hostOn = true))
  ∧ (∃ s : State, ∃ p : List Byte, (s.live? = true) ∧ (s.boot.auxLost = false) ∧ (s.rxReady = true) ∧ (16 ≤ p.length) ∧ (byteAt p 0 = 1) ∧ (p.length ≠ 16 + beAt p 6 2 + 16 * b2n (bit (byteAt p 1) 6)))
  ∧ (∃ s : State, ∃ p : List Byte, (s.live? = true) ∧ (s.boot.auxLost = false) ∧ (s.rxReady = true) ∧ (16 ≤ p.length) ∧ (byteAt p 0 = 1) ∧ (p.length = 16 + beAt p 6 2 + 16 * b2n (bit (byteAt p 1) 6)))
  ∧ (∃ s : State, ∃ p : List Byte, (s.live? = true) ∧ (s.boot.auxLost = false) ∧ (s.flag F.HOST_CFG_QUAD_EN = true) ∧ (s.rxReady = true) ∧ (16 ≤ p.length) ∧ (byteAt p 0 = 1) ∧ (p.length ≠ 16 + beAt p 6 2 + 16 * b2n (bit (byteAt p 1) 6)))
  ∧ (∃ s : State, ∃ p : List Byte, (s.live? = true) ∧ (s.boot.auxLost = false) ∧ (s.flag F.HOST_CFG_QUAD_EN = true) ∧ (s.rxReady = true) ∧ (16 ≤ p.length) ∧ (byteAt p 0 = 1) ∧ (p.length = 16 + beAt p 6 2 + 16 * b2n (bit (byteAt p 1) 6)))
  ∧ (∃ s : State, ∃ n : Nat, (s.hostOn = true) ∧ (s.desk.out = [])) := by
  refine ⟨?_, ?_, ?_, ?_, ?_, ?_⟩
  · refine ⟨(hosted : State), ?_⟩
    decide
  · refine ⟨(hosted : State), ([1, 0x40] ++ List.replicate 14 0 : List Byte), ?_, ?_, ?_, ?_, ?_, ?_⟩ <;> decide
  · refine ⟨(hosted : State), ([1] ++ List.replicate 15 0 : List Byte), ?_, ?_, ?_, ?_, ?_, ?_⟩ <;> decide
  · refine ⟨(on hosted F.HOST_CFG_QUAD_EN : State), ([1, 0x40] ++ List.replicate 14 0 : List Byte), ?_, ?_, ?_, ?_, ?_, ?_, ?_⟩ <;> decide
  · refine ⟨(on hosted F.HOST_CFG_QUAD_EN : State), ([1] ++ List.replicate 15 0 : List Byte), ?_, ?_, ?_, ?_, ?_, ?_, ?_⟩ <;> decide
  · refine ⟨(hosted : State), (2 : Nat), ?_, ?_⟩ <;> decide

theorem test_meets_HostLinkCommands_2 :
  (∃ s : State, ∃ u : State, ∃ v : State, ∃ n : Nat, ∃ b : List Byte, ∃ t : List (List Byte), (s.hostOn = true) ∧ (s.desk.out = b :: t) ∧ (u = s.send chanHost 0x03 (padTo n b)) ∧ (v = State.fillOut { u with desk.out := t }) ∧ (n < b.length))
  ∧ (∃ s : State, ∃ u : State, ∃ v : State, ∃ n : Nat, ∃ b : List Byte, ∃ t : List (List Byte), (s.hostOn = true) ∧ (s.desk.out = b :: t) ∧ (u = s.send chanHost 0x03 (padTo n b)) ∧ (v = State.fillOut { u with desk.out := t }) ∧ (b.length ≤ n))
  ∧ (∃ s : State, ∃ n : Nat, (s.hostOn = true) ∧ (s.flag F.HOST_CFG_QUAD_EN = true) ∧ (s.desk.out = []))
  ∧ (∃ s : State, ∃ u : State, ∃ v : State, ∃ n : Nat, ∃ b : List Byte, ∃ t : List (List Byte), (s.hostOn = true) ∧ (s.flag F.HOST_CFG_QUAD_EN = true) ∧ (s.desk.out = b :: t) ∧ (u = s.send chanHost 0x6B (padTo n b)) ∧ (v = State.fillOut { u with desk.out := t }) ∧ (n < b.length))
  ∧ (∃ s : State, ∃ u : State, ∃ v : State, ∃ n : Nat, ∃ b : List Byte, ∃ t : List (List Byte), (s.hostOn = true) ∧ (s.flag F.HOST_CFG_QUAD_EN = true) ∧ (s.desk.out = b :: t) ∧ (u = s.send chanHost 0x6B (padTo n b)) ∧ (v = State.fillOut { u with desk.out := t }) ∧ (b.length ≤ n))
  ∧ (∃ s : State, ∃ m : Nat, ∃ w : Word, (s.mayWrite m A.HOST_CNT = true)) := by
  refine ⟨?_, ?_, ?_, ?_, ?_, ?_⟩
  · refine ⟨({ hosted with desk.out := [[1, 2]] } : State), _, _, (0 : Nat), ([1, 2] : List Byte), ([] : List (List Byte)), ?_, ?_, rfl, rfl, ?_⟩ <;> decide
  · refine ⟨({ hosted with desk.out := [[1, 2]] } : State), _, _, (2 : Nat), ([1, 2] : List Byte), ([] : List (List Byte)), ?_, ?_, rfl, rfl, ?_⟩ <;> decide
  · refine ⟨(on hosted F.HOST_CFG_QUAD_EN : State), (2 : Nat), ?_, ?_, ?_⟩ <;> decide
  · refine ⟨({ on hosted F.HOST_CFG_QUAD_EN with desk.out := [[1, 2]] } : State), _, _, (0 : Nat), ([1, 2] : List Byte), ([] : List (List Byte)), ?_, ?_, ?_, rfl, rfl, ?_⟩ <;> decide
  · refine ⟨({ on hosted F.HOST_CFG_QUAD_EN with desk.out := [[1, 2]] } : State), _, _, (2 : Nat), ([1, 2] : List Byte), ([] : List (List Byte)), ?_, ?_, ?_, rfl, rfl, ?_⟩ <;> decide
  · refine ⟨(W), (8 : Nat), (0#32 : Word), ?_⟩
    decide

theorem test_meets_HostLinkCommands_3 :
  (∃ s : State, ∃ g : Nat, ∃ i : Nat, ∃ st : Nat, ∃ c : Cmd, ∃ x : Option Sess, (s.svcWaits = false) ∧ ((s.desk.cmds.any fun c => opGroup c.op == g && c.phase == 1) = false) ∧ (((List.range s.desk.cmds.length).find? fun i => s.desk.cmds[i]?.any fun c => opGroup c.op == g && c.phase == 0) = some i) ∧ (s.desk.cmds[i]? = some c) ∧ (x = (if c.sess < 8 then s.sess c.sess else none)) ∧ (st = ((opFind c.op).map fun r => if !s.rightsOk r x then scDENIED else if !s.modeOk r c.body then scWRONG_MODE else scOK).getD scBAD_OPCODE) ∧ (st ≠ scOK))
  ∧ (∃ s : State, ∃ g : Nat, ∃ i : Nat, ∃ st : Nat, ∃ c : Cmd, ∃ x : Option Sess, (s.svcWaits = false) ∧ ((s.desk.cmds.any fun c => opGroup c.op == g && c.phase == 1) = false) ∧ (((List.range s.desk.cmds.length).find? fun i => s.desk.cmds[i]?.any fun c => opGroup c.op == g && c.phase == 0) = some i) ∧ (s.desk.cmds[i]? = some c) ∧ (x = (if c.sess < 8 then s.sess c.sess else none)) ∧ (st = ((opFind c.op).map fun r => if !s.rightsOk r x then scDENIED else if !s.modeOk r c.body then scWRONG_MODE else scOK).getD scBAD_OPCODE) ∧ (st = scOK))
  ∧ (∃ s : State, ∃ u : State, ∃ i : Nat, ∃ ok : Bool, ∃ agree : Bool, ∃ c : Cmd, ∃ r : Ans, (s.desk.cmds[i]? = some c) ∧ (c.phase = 2) ∧ ((s.dropCmd i).finalOf c ok agree = some (r, u)))
  ∧ (∃ s : State, ∃ u : State, ∃ n : Nat, ∃ x : Sess, (s.armed (.sessPending n) = true) ∧ ((s.elapsed (.sessPending n)).sess n = some x) ∧ (u = (((s.elapsed (.sessPending n)).setSess n none).disarm (.sessPending n)).disarm (.sessIdle n)))
  ∧ (∃ s : State, ∃ u : State, ∃ n : Nat, ∃ x : Sess, (s.armed (.sessIdle n) = true) ∧ ((s.elapsed (.sessIdle n)).sess n = some x) ∧ (u = (((s.elapsed (.sessIdle n)).setSess n none).disarm (.sessPending n)).disarm (.sessIdle n))) := by
  refine ⟨?_, ?_, ?_, ?_, ?_⟩
  · refine ⟨({ W with desk.cmds := [{ cmd with op := 0x0C04, phase := 0 }] } : State), (opGroup 0x0C04 : Nat), (0 : Nat), _, ({ cmd with op := 0x0C04, phase := 0 } : Cmd), _, ?_, ?_, ?_, ?_, rfl, rfl, ?_⟩ <;> decide
  · refine ⟨({ W with desk.cmds := [{ cmd with phase := 0 }] } : State), (opGroup 0x0105 : Nat), (0 : Nat), _, ({ cmd with phase := 0 } : Cmd), _, ?_, ?_, ?_, ?_, rfl, rfl, rfl⟩ <;> decide
  · refine ⟨({ W with desk.cmds := [{ cmd with op := 0x0403, phase := 2 }] } : State), _, (0 : Nat), (true : Bool), (true : Bool), ({ cmd with op := 0x0403, phase := 2 } : Cmd), (fin scOK : Ans), ?_, ?_, rfl⟩ <;> decide
  · refine ⟨({ W.arm (.sessPending 0) 7 with desk.sessions := [(0, some sess0)] } : State), _, (0 : Nat), (sess0 : Sess), ?_, ?_, rfl⟩ <;> decide
  · refine ⟨({ W.arm (.sessIdle 0) 7 with desk.sessions := [(0, some sess0)] } : State), _, (0 : Nat), (sess0 : Sess), ?_, ?_, rfl⟩ <;> decide

theorem test_meets_ServiceCommands_1 :
  (∃ s : State, ∃ u : State, ∃ r : SvcReq, ∃ b : List Byte, (s.svcHead = some r) ∧ (r.svc = 1) ∧ (r.origin ≠ 8) ∧ (r.inLen ≤ 16) ∧ (s.svcIn r = (some b, u)))
  ∧ (∃ s : State, ∃ u : State, ∃ r : SvcReq, ∃ b : List Byte, (s.svcHead = some r) ∧ (r.svc = 2) ∧ (r.origin ≠ 8) ∧ (r.inLen ≤ 65536) ∧ (s.svcIn r = (some b, u)) ∧ ∃ st : Nat, ∃ len : Nat, ∃ v : State, (((match s.customerKey r.key with | none => ((scDENIED, 0), s) | some k => u.next.svcOut r (Config.customerSign k b u.draw)) : (Nat × Nat) × State) = ((st, len), v)))
  ∧ (∃ s : State, ∃ u : State, ∃ r : SvcReq, ∃ b : List Byte, ∃ agree : Bool, (s.svcHead = some r) ∧ (r.svc = 3) ∧ (r.origin ≠ 8) ∧ (s.svcIn r = (some b, u)))
  ∧ (∃ s : State, ∃ u : State, ∃ r : SvcReq, ∃ b : List Byte, (s.svcHead = some r) ∧ (r.svc = 4) ∧ (r.origin ≠ 8) ∧ (s.svcIn r = (some b, u)))
  ∧ (∃ s : State, ∃ u : State, ∃ r : SvcReq, ∃ b : List Byte, (s.svcHead = some r) ∧ (r.svc = 4) ∧ (r.origin ≠ 8) ∧ (s.svcIn r = (some b, u)) ∧ ∃ g : Nat, (g = ((fileOf u.desk.files (Config.actFile (r.args.take 16))).map fun f => f.gen + 1).getD 1))
  ∧ (∃ s : State, ∃ r : SvcReq, ∃ f : VFile, (s.svcHead = some r) ∧ (r.svc = 5) ∧ (r.origin ≠ 8) ∧ (fileOf s.desk.files (Config.actFile (r.args.take 16)) = some f) ∧ ∃ st : Nat, ∃ len : Nat, ∃ u : State, (s.svcOut r f.data = ((st, len), u))) := by
  refine ⟨?_, ?_, ?_, ?_, ?_, ?_⟩
  · refine ⟨(wSvc 0 1 0 : State), _, (rSvc 0 1 0 : SvcReq), ([] : List Byte), svcHead_svc 0 1 0 (.inl rfl), ?_, ?_, ?_, pair_of (by decide)⟩ <;> decide
  · refine ⟨(wSvc 0 2 0 : State), _, (rSvc 0 2 0 : SvcReq), ([] : List Byte), svcHead_svc 0 2 0 (.inl rfl), ?_, ?_, ?_, pair_of (by decide), _, _, _, pair2 _⟩ <;> decide
  · refine ⟨(wSvc 0 3 0 : State), _, (rSvc 0 3 0 : SvcReq), ([] : List Byte), (true : Bool), svcHead_svc 0 3 0 (.inl rfl), ?_, ?_, pair_of (by decide)⟩ <;> decide
  · refine ⟨(wSvc 0 4 0 : State), _, (rSvc 0 4 0 : SvcReq), ([] : List Byte), svcHead_svc 0 4 0 (.inl rfl), ?_, ?_, pair_of (by decide)⟩ <;> decide
  · refine ⟨(wSvc 0 4 0 : State), _, (rSvc 0 4 0 : SvcReq), ([] : List Byte), svcHead_svc 0 4 0 (.inl rfl), ?_, ?_, pair_of (by decide), _, rfl⟩ <;> decide
  · refine ⟨({ wSvc 0 5 0 with desk.files := [f5] } : State), (rSvc 0 5 0 : SvcReq), (f5 : VFile), svcHead_svc 0 5 0 (.inl rfl), ?_, ?_, ?_, _, _, _, pair2 _⟩
    · decide
    · decide
    · simp [fileOf, f5]

theorem test_meets_ServiceCommands_2 :
  (∃ s : State, ∃ r : SvcReq, (s.svcHead = some r) ∧ (r.svc = 0x8001) ∧ (r.origin = 8))
  ∧ (∃ s : State, ∃ r : SvcReq, (s.svcHead = some r) ∧ (r.svc = 0x8002) ∧ (r.origin = 8) ∧ (s.brk.patrol = []))
  ∧ (∃ s : State, ∃ r : SvcReq, (s.svcHead = some r) ∧ (r.svc = 0x8002) ∧ (r.origin = 8) ∧ ∃ b : Nat, ∃ blk : Nat, ∃ bits : Nat, ∃ rest : List (Nat × Nat × Nat), (s.brk.patrol = (b, blk, bits) :: rest) ∧ ∃ st : Nat, ∃ u : State, ((s.patrolPop.2).brkIssue 8 opREFRESH (bedBase b + blk * blockLen b) [] = (st, u)))
  ∧ (∃ s : State, ∃ r : SvcReq, (s.svcHead = some r) ∧ (r.svc = 0x8003) ∧ (r.origin = 8) ∧ (s.unsynced = true))
  ∧ (∃ s : State, ∃ r : SvcReq, (s.svcHead = some r) ∧ (r.svc = 0x8003) ∧ (r.origin = 8) ∧ (s.unsynced = false)) := by
  refine ⟨?_, ?_, ?_, ?_, ?_⟩
  · refine ⟨(wSvc 8 1 0x80 : State), (rSvc 8 1 0x80 : SvcReq), svcHead_svc 8 1 0x80 (.inr rfl), ?_, ?_⟩ <;> decide
  · refine ⟨(wSvc 8 2 0x80 : State), (rSvc 8 2 0x80 : SvcReq), svcHead_svc 8 2 0x80 (.inr rfl), ?_, ?_, ?_⟩ <;> decide
  · refine ⟨({ wSvc 8 2 0x80 with brk.patrol := [(2, 3, 4)] } : State), (rSvc 8 2 0x80 : SvcReq), svcHead_svc 8 2 0x80 (.inr rfl), ?_, ?_, (2 : Nat), (3 : Nat), (4 : Nat), ([] : List (Nat × Nat × Nat)), ?_, _, _, pair1 _⟩ <;> decide
  · refine ⟨(wSvc 8 3 0x80 : State), (rSvc 8 3 0x80 : SvcReq), svcHead_svc 8 3 0x80 (.inr rfl), ?_, ?_, ?_⟩ <;> decide
  · refine ⟨((wSvc 8 3 0x80).wr F.SYS_STATE_UNSYNCED 0 : State), (rSvc 8 3 0x80 : SvcReq), svcHead_svc 8 3 0x80 (.inr rfl), ?_, ?_, ?_⟩ <;> decide

theorem test_meets_PromptBookCommands_1 :
  (∃ s : State, ∃ r : Rec, ∃ t : List Rec, (s.book.inFifo = r :: t))
  ∧ (∃ s : State, ∃ code : Nat, ∃ src : Nat, ∃ k : LimKey, (s.limKey code src = some k))
  ∧ (∃ s : State, (s.book.archJob = 0) ∧ ((s.brk.cmds.any fun c => c.bank == 4) = false) ∧ ∃ b : Nat, ∃ rest : List Nat, (s.book.toClear = b :: rest))
  ∧ (∃ s : State, (s.book.archJob = 0) ∧ ((s.brk.cmds.any fun c => c.bank == 4) = false) ∧ (s.book.toClear = []) ∧ (s.flag F.PBOOK_CFG_ARCH_EN = true) ∧ (s.pairDue = true) ∧ (s.rd F.PBOOK_ARCH_PAIR = 0) ∧ (s.book.nextErased = false))
  ∧ (∃ s : State, (s.book.archJob = 0) ∧ ((s.brk.cmds.any fun c => c.bank == 4) = false) ∧ (s.book.toClear = []) ∧ (s.flag F.PBOOK_CFG_ARCH_EN = true) ∧ (s.pairDue = true) ∧ (¬(s.rd F.PBOOK_ARCH_PAIR = 0 ∧ s.book.nextErased = false)) ∧ ∃ rs : List Rec, (rs = ((s.book.ring.filter fun x => !x.2).map (·.1)).take 128))
  ∧ (∃ s : State, ∃ m : Nat, ∃ r : Nat, (r < 4) ∧ (s.mayRead m (A.PBOOK_REC r 0) = true)) := by
  refine ⟨?_, ?_, ?_, ?_, ?_, ?_⟩
  · refine ⟨({ W with book.inFifo := [fillerRec] } : State), (fillerRec : Rec), ([] : List Rec), ?_⟩
    decide
  · refine ⟨({ W with book.keys := [lk] } : State), (1 : Nat), (2 : Nat), (lk : LimKey), ?_⟩
    decide
  · refine ⟨({ W with book.toClear := [3] } : State), ?_, ?_, (3 : Nat), ([] : List Nat), ?_⟩ <;> decide
  · refine ⟨(on dueRec F.PBOOK_CFG_ARCH_EN : State), ?_, ?_, ?_, ?_, ?_, ?_, ?_⟩ <;> decide
  · refine ⟨({ on dueRec F.PBOOK_CFG_ARCH_EN with book.nextErased := true } : State), ?_, ?_, ?_, ?_, ?_, ?_, _, rfl⟩ <;> decide
  · refine ⟨(W), (8 : Nat), (0 : Nat), ?_, ?_⟩ <;> decide

theorem test_meets_PromptBookCommands_2 :
  (∃ s : State, ∃ m : Nat, ∃ r : Nat, (r < 4) ∧ (s.mayRead m (A.PBOOK_REC r 7) = true))
  ∧ (∃ s : State, ∃ v : State, ∃ u : State, ∃ upto : Word, ∃ archive : Bool, ∃ keep : List (Rec × Bool), (s.mayWrite 8 A.PBOOK_CLEAR_UPTO = true) ∧ (v = (s.setReg A.PBOOK_CLEAR_UPTO upto).settle) ∧ (v.mayWrite 8 A.PBOOK_CLEAR = true) ∧ (v.reg A.PBOOK_CLEAR_UPTO = upto) ∧ (keep = (v.book.ring.filter fun x => decide (upto.toNat < x.1.seq.toNat) || (!x.2 && decide (6 ≤ x.1.sev)))) ∧ (u = { v with book.ring := keep, book.toClear := if archive then v.book.toClear ++ ((List.range 64).filter fun b => b != v.rd F.PBOOK_ARCH_BLOCK && (!((List.range 16).flatMap fun p => v.pairSeqs (b * 16 + p)).isEmpty && ((List.range 16).flatMap fun p => v.pairSeqs (b * 16 + p)).all fun q => decide (q ≤ upto.toNat))).filter (!v.book.toClear.contains ·) else v.book.toClear }))
  ∧ (∃ s : State, ∃ m : Nat, ∃ k : Nat, ∃ w : Word, (k < 2) ∧ (s.mayWrite m (A.PBOOK_DROP_A + 4 * k) = true)) := by
  refine ⟨?_, ?_, ?_⟩
  · refine ⟨(W), (8 : Nat), (0 : Nat), ?_, ?_⟩ <;> decide
  · refine ⟨(W), _, _, (0#32 : Word), (true : Bool), _, ?_, rfl, ?_, ?_, rfl, rfl⟩ <;> decide
  · refine ⟨(W), (8 : Nat), (0 : Nat), (0#32 : Word), ?_, ?_⟩ <;> decide

theorem test_meets_ObserveCommands_1 :
  (∃ s : State, ∃ w : Word, ∃ new : Word, (s.mayWrite 8 A.OBSERVE_TRACE_CFG = true) ∧ (new = (if 8 < getBits w 11 8 then setBits (w &&& 0x80000F0F#32) 11 8 (s.rd F.OBSERVE_TRACE_CFG_CORE) else w &&& 0x80000F0F#32)) ∧ (s.reg A.OBSERVE_TRACE_CFG = new))
  ∧ (∃ s : State, ∃ w : Word, ∃ new : Word, (s.mayWrite 8 A.OBSERVE_TRACE_CFG = true) ∧ (new = (if 8 < getBits w 11 8 then setBits (w &&& 0x80000F0F#32) 11 8 (s.rd F.OBSERVE_TRACE_CFG_CORE) else w &&& 0x80000F0F#32)) ∧ (s.reg A.OBSERVE_TRACE_CFG ≠ new))
  ∧ (∃ s : State, ∃ u : State, ∃ ty : Nat, ∃ b : List Byte, ∃ t : List (Nat × List Byte), (s.boot.auxLost = false) ∧ (s.trace.items = (ty, b) :: t) ∧ (s.mode ≠ .curtain) ∧ (s.flag F.OBSERVE_TRACE_CFG_EN = true) ∧ (u = { s.send chanTrace ty b with trace.items := t, trace.fill := s.trace.fill - (b.length + 1) }) ∧ (u.trace.overflow = 0))
  ∧ (∃ s : State, ∃ u : State, ∃ ty : Nat, ∃ b : List Byte, ∃ t : List (Nat × List Byte), (s.boot.auxLost = false) ∧ (s.trace.items = (ty, b) :: t) ∧ (s.mode ≠ .curtain) ∧ (s.flag F.OBSERVE_TRACE_CFG_EN = true) ∧ (u = { s.send chanTrace ty b with trace.items := t, trace.fill := s.trace.fill - (b.length + 1) }) ∧ (u.trace.overflow ≠ 0))
  ∧ (∃ s : State, ∃ m : Nat, (s.mayWrite m A.OBSERVE_CNT_CTRL = true))
  ∧ (∃ s : State, ∃ m : Nat, (s.mayWrite m A.OBSERVE_CNT_CTRL = true)) := by
  refine ⟨?_, ?_, ?_, ?_, ?_, ?_⟩
  · refine ⟨(W), (0#32 : Word), _, ?_, rfl, ?_⟩ <;> decide
  · refine ⟨(W), (0x80000000#32 : Word), _, ?_, rfl, ?_⟩ <;> decide
  · refine ⟨(tracing : State), _, (2 : Nat), ([1#8] : List Byte), ([] : List (Nat × List Byte)), ?_, ?_, ?_, ?_, rfl, ?_⟩ <;> decide
  · refine ⟨({ tracing with trace.overflow := 5 } : State), _, (2 : Nat), ([1#8] : List Byte), ([] : List (Nat × List Byte)), ?_, ?_, ?_, ?_, rfl, ?_⟩ <;> decide
  · refine ⟨(W), (8 : Nat), ?_⟩
    decide
  · refine ⟨(W), (8 : Nat), ?_⟩
    decide

theorem test_meets_ObserveCommands_2 :
  (∃ s : State, ∃ m : Nat, ∃ w : Word, (s.mayWrite m A.OBSERVE_TRACE_STAT = true)) := by
  refine ⟨(W), (8 : Nat), (0#32 : Word), ?_⟩
  decide

theorem test_meets_CartridgeCommands_1 :
  (∃ s : State, (s.boot.auxLost = false) ∧ (s.flag F.CART_CFG_EN = true))
  ∧ (∃ s : State, ∃ a : State, ∃ b : State, ∃ phase : Nat, ∃ done : Nat, (s.boot.auxLost = false) ∧ (s.flag F.CART_CFG_EN = true) ∧ (((s.cart.op = none ∧ s.writingAt = none ∧ a = s) ∨ (s.cart.op = none ∧ ∃ lba, s.writingAt = some lba ∧ a = if 2 ≤ phase then s.cartEnd 0 lba (if phase = 2 then ctNOT_DONE else if 3 ≤ phase then ctINDET else ctREMOVED) done else s) ∨ ∃ op card blocks lba buf, s.cart.op = some (op, card, blocks, lba, buf) ∧ a = s.cartEnd card lba (if op = 2 ∧ phase = 2 then ctNOT_DONE else if op = 2 ∧ 3 ≤ phase then ctINDET else ctREMOVED) (min done blocks))) ∧ (b = (List.range 4).foldl (fun s c => s.setReg (A.CART_CARD c) 0) a) ∧ ∃ c : State, (c = { (b.wr F.CART_STAT_PRESENT 0).wr F.CART_STAT_CLK_RUN 0 with cart := Cart.off }))
  ∧ (∃ s : State, ∃ a : State, ∃ b : State, ∃ c : State, ∃ d : State, ∃ e : State, ∃ cards : List Word, ∃ extra : Bool, ∃ byOp : Bool, ∃ found : Bool, ∃ count : Nat, ∃ medium : List (Nat × List Byte), (s.boot.auxLost = false) ∧ (s.mode ≠ .curtain) ∧ (byOp = (s.cart.op.any fun o => o.1 == 0)) ∧ ((s.armed .cartIns || byOp) = true) ∧ (a = (if s.armed .cartIns then s.fire .cartIns id else s)) ∧ (b = (List.range 4).foldl (fun s c => s.setReg (A.CART_CARD c) (s.cardWord cards c)) a) ∧ (c = (b.identCmds extra).foldl (fun s c => s.cartIssue c.1 c.2) b) ∧ (d = (if extra then c.wr F.CART_STAT_EXTRA 1 else c)) ∧ (found = d.flag (F.CART_CARD_V 0)) ∧ (e = { d with cart := { if found && !d.flag (F.CART_CARD_LOCKED 0) then mounted count medium else Cart.off with op := d.cart.op } }) ∧ ∃ u : State, (u = (if byOp then e.cartEnd 0 0 (if found then ctDONE else ctNO_CARD) 0 else e)))
  ∧ (∃ s : State, ∃ a : State, ∃ b : State, ∃ c : State, ∃ d : State, ∃ m : Nat, ∃ card : Nat, ∃ blocks : Nat, ∃ lba : Word, ∃ buf : Word, (card < 4) ∧ (1 ≤ blocks) ∧ (blocks < 65536) ∧ (s.mayWrite m A.CART_LBA = true) ∧ (a = (s.setReg A.CART_LBA lba).settle) ∧ (a.mayWrite m A.CART_BUF = true) ∧ (b = (a.setReg A.CART_BUF buf).settle) ∧ (b.mayWrite m A.CART_XFER = true) ∧ (c = b.setReg A.CART_XFER (setBits (BitVec.ofNat 32 (2 ^ 31 + 1 * 2 ^ 28 + card * 2 ^ 26 + blocks) &&& 0x7C00FFFF#32) 30 28 1)) ∧ (c.mode ≠ .curtain) ∧ (c.cart.op = none) ∧ (d = c.wr F.CART_STAT_DONE_BLOCKS 0) ∧ (d.flag F.CART_CFG_EN = true) ∧ (d.flag F.CART_STAT_PRESENT = true) ∧ (d.flag (F.CART_CARD_V card) = true) ∧ (d.flag (F.CART_CARD_LOCKED card) = false))
  ∧ (∃ s : State, ∃ a : State, ∃ b : State, ∃ c : State, ∃ d : State, ∃ m : Nat, ∃ card : Nat, ∃ blocks : Nat, ∃ lba : Word, ∃ buf : Word, (card < 4) ∧ (1 ≤ blocks) ∧ (blocks < 65536) ∧ (s.mayWrite m A.CART_LBA = true) ∧ (a = (s.setReg A.CART_LBA lba).settle) ∧ (a.mayWrite m A.CART_BUF = true) ∧ (b = (a.setReg A.CART_BUF buf).settle) ∧ (b.mayWrite m A.CART_XFER = true) ∧ (c = b.setReg A.CART_XFER (setBits (BitVec.ofNat 32 (2 ^ 31 + 2 * 2 ^ 28 + card * 2 ^ 26 + blocks) &&& 0x7C00FFFF#32) 30 28 2)) ∧ (c.mode ≠ .curtain) ∧ (c.cart.op = none) ∧ (d = c.wr F.CART_STAT_DONE_BLOCKS 0) ∧ (d.flag F.CART_CFG_EN = true) ∧ (d.flag F.CART_STAT_PRESENT = true) ∧ (d.flag (F.CART_CARD_V card) = true) ∧ (d.flag (F.CART_CARD_LOCKED card) = false) ∧ (d.flag (F.CART_CARD_PERM_WP card) = false) ∧ (d.flag (F.CART_CARD_TMP_WP card) = false))
  ∧ (∃ s : State, ∃ c : State, ∃ d : State, ∃ m : Nat, ∃ card : Nat, (card < 4) ∧ (s.mayWrite m A.CART_XFER = true) ∧ (c = s.setReg A.CART_XFER (setBits (BitVec.ofNat 32 (2 ^ 31 + 3 * 2 ^ 28 + card * 2 ^ 26) &&& 0x7C00FFFF#32) 30 28 3)) ∧ (c.mode ≠ .curtain) ∧ (c.cart.op = none) ∧ (d = c.wr F.CART_STAT_DONE_BLOCKS 0) ∧ (d.flag F.CART_CFG_EN = true) ∧ (d.flag F.CART_STAT_PRESENT = true) ∧ (d.flag (F.CART_CARD_V card) = true) ∧ (d.flag (F.CART_CARD_LOCKED card) = false)) := by
  refine ⟨?_, ?_, ?_, ?_, ?_, ?_⟩
  · refine ⟨(on W F.CART_CFG_EN : State), ?_, ?_⟩ <;> decide
  · refine ⟨(on W F.CART_CFG_EN : State), (on W F.CART_CFG_EN : State), _, (0 : Nat), (0 : Nat), ?_, ?_, Or.inl ⟨rfl, by decide, rfl⟩, rfl, _, rfl⟩ <;> decide
  · refine ⟨(W.arm .cartIns 7 : State), _, _, _, _, _, ([] : List Word), (true : Bool), _, _, (0 : Nat), ([] : List (Nat × List Byte)), ?_, ?_, rfl, ?_, rfl, rfl, rfl, rfl, rfl, rfl, _, rfl⟩ <;> decide
  · refine ⟨(cart0 : State), _, _, _, _, (8 : Nat), (0 : Nat), (1 : Nat), (0#32 : Word), (0#32 : Word), ?_, ?_, ?_, ?_, rfl, ?_, rfl, ?_, rfl, ?_, ?_, rfl, ?_, ?_, ?_, ?_⟩ <;> decide
  · refine ⟨(cart0 : State), _, _, _, _, (8 : Nat), (0 : Nat), (1 : Nat), (0#32 : Word), (0#32 : Word), ?_, ?_, ?_, ?_, rfl, ?_, rfl, ?_, rfl, ?_, ?_, rfl, ?_, ?_, ?_, ?_, ?_, ?_⟩ <;> decide
  · refine ⟨(cart0 : State), _, _, (8 : Nat), (0 : Nat), ?_, ?_, rfl, ?_, ?_, rfl, ?_, ?_, ?_, ?_⟩ <;> decide

theorem test_meets_CartridgeCommands_2 :
  (∃ s : State, ∃ c : State, ∃ d : State, ∃ m : Nat, (s.mayWrite m A.CART_XFER = true) ∧ (c = s.setReg A.CART_XFER (setBits (BitVec.ofNat 32 (2 ^ 31 + 4 * 2 ^ 28) &&& 0x7C00FFFF#32) 30 28 4)) ∧ (c.mode ≠ .curtain) ∧ (c.cart.op = none) ∧ (d = c.wr F.CART_STAT_DONE_BLOCKS 0) ∧ (d.flag F.CART_CFG_EN = true) ∧ (d.flag F.CART_STAT_PRESENT = true))
  ∧ (∃ s : State, ∃ u : State, ∃ w : State, ∃ res : Nat, ∃ done : Nat, ∃ op : Nat, ∃ card : Nat, ∃ blocks : Nat, ∃ lba : Nat, ∃ buf : Nat, ∃ data : List Byte, ∃ bad : Bool, (s.cart.op = some (op, card, blocks, lba, buf)) ∧ (((op = 1 ∧ ∃ r, s.dmaWrite 20 buf (data.take (512 * min done blocks)) = (r, u) ∧ bad = r.isSome) ∨ (op = 2 ∧ ∃ b v, s.dmaRead 20 buf (512 * min done blocks) = (.ok b, v) ∧ u = v.send chanCart lba (blockFrames (v.flag (F.CART_CARD_WIDE card)) (min done blocks) b) ∧ bad = false) ∨ (op = 2 ∧ ∃ e, s.dmaRead 20 buf (512 * min done blocks) = (.error e, u) ∧ bad = true) ∨ (op = 4 ∧ u = s.wr F.CART_STAT_CLK_RUN 0 ∧ bad = false) ∨ (op ≠ 1 ∧ op ≠ 2 ∧ op ≠ 4 ∧ u = s ∧ bad = false))) ∧ (w = u.cartClose op card blocks res) ∧ (bad = true))
  ∧ (∃ s : State, ∃ u : State, ∃ w : State, ∃ res : Nat, ∃ done : Nat, ∃ op : Nat, ∃ card : Nat, ∃ blocks : Nat, ∃ lba : Nat, ∃ buf : Nat, ∃ data : List Byte, ∃ bad : Bool, (s.cart.op = some (op, card, blocks, lba, buf)) ∧ (((op = 1 ∧ ∃ r, s.dmaWrite 20 buf (data.take (512 * min done blocks)) = (r, u) ∧ bad = r.isSome) ∨ (op = 2 ∧ ∃ b v, s.dmaRead 20 buf (512 * min done blocks) = (.ok b, v) ∧ u = v.send chanCart lba (blockFrames (v.flag (F.CART_CARD_WIDE card)) (min done blocks) b) ∧ bad = false) ∨ (op = 2 ∧ ∃ e, s.dmaRead 20 buf (512 * min done blocks) = (.error e, u) ∧ bad = true) ∨ (op = 4 ∧ u = s.wr F.CART_STAT_CLK_RUN 0 ∧ bad = false) ∨ (op ≠ 1 ∧ op ≠ 2 ∧ op ≠ 4 ∧ u = s ∧ bad = false))) ∧ (w = u.cartClose op card blocks res) ∧ (bad = false) ∧ ∃ v : State, (v = w.cartEnd card lba res (min done blocks))) := by
  refine ⟨?_, ?_, ?_⟩
  · refine ⟨(cart0 : State), _, _, (8 : Nat), ?_, rfl, ?_, ?_, rfl, ?_, ?_⟩ <;> decide
  · refine ⟨({ W with cart.op := some (1, 0, 1, 0, 0x20000000) } : State), _, _, (0 : Nat), (1 : Nat), (1 : Nat), (0 : Nat), (1 : Nat), (0 : Nat), (0x20000000 : Nat), ([1#8] : List Byte), (true : Bool), ?_, Or.inl ⟨rfl, _, pair1 _, by decide⟩, rfl, ?_⟩ <;> decide
  · refine ⟨({ W with cart.op := some (3, 0, 0, 0, 0) } : State), _, _, (0 : Nat), (0 : Nat), (3 : Nat), (0 : Nat), (0 : Nat), (0 : Nat), (0 : Nat), ([] : List Byte), (false : Bool), ?_, Or.inr (Or.inr (Or.inr (Or.inr ⟨by decide, by decide, by decide, rfl, rfl⟩))), rfl, ?_, _, rfl⟩ <;> decide

theorem test_meets_BadgeReaderCommands_1 :
  (∃ s : State, ∃ a : State, ∃ b : State, ∃ c : State, ∃ m : Nat, (s.mayWrite m A.BADGE_RD_CTRL = true) ∧ (a = s.setReg A.BADGE_RD_CTRL (setBits (BitVec.ofNat 32 (2 ^ 31 + 1 * 2 ^ 28) &&& 0x7C0001FF#32) 8 0 0)) ∧ (a.badge.op = none) ∧ (b = (a.disarm .carrier).disarm .cardPower) ∧ (b.readerOk = true) ∧ (b.flag F.BADGE_STAT_EXT_FIELD = false) ∧ (c = { b.wr F.BADGE_RD_STAT_BUSY 1 with badge.op := some 1 }))
  ∧ (∃ s : State, ∃ a : State, ∃ b : State, ∃ c : State, ∃ m : Nat, (s.mayWrite m A.BADGE_RD_CTRL = true) ∧ (a = s.setReg A.BADGE_RD_CTRL (setBits (BitVec.ofNat 32 (2 ^ 31 + 2 * 2 ^ 28) &&& 0x7C0001FF#32) 8 0 0)) ∧ (a.badge.op = none) ∧ (b = (a.disarm .carrier).disarm .cardPower) ∧ (b.readerOk = true) ∧ (b.flag F.BADGE_STAT_EXT_FIELD = false) ∧ (c = { b.wr F.BADGE_RD_STAT_BUSY 1 with badge.op := some 2 }))
  ∧ (∃ s : State, ∃ a : State, ∃ b : State, ∃ c : State, ∃ m : Nat, ∃ rate : Nat, (rate < 4) ∧ (s.mayWrite m A.BADGE_RD_CTRL = true) ∧ (a = s.setReg A.BADGE_RD_CTRL (setBits (BitVec.ofNat 32 (2 ^ 31 + 3 * 2 ^ 28 + rate * 2 ^ 26) &&& 0x7C0001FF#32) 8 0 0)) ∧ (a.badge.op = none) ∧ (b = (a.disarm .carrier).disarm .cardPower) ∧ (b.readerOk = true) ∧ (b.flag F.BADGE_STAT_EXT_FIELD = false) ∧ (c = { b.wr F.BADGE_RD_STAT_BUSY 1 with badge.op := some 3 }))
  ∧ (∃ s : State, ∃ a : State, ∃ b : State, ∃ c : State, ∃ m : Nat, ∃ len : Nat, (len ≤ 256) ∧ (s.mayWrite m A.BADGE_RD_CTRL = true) ∧ (a = s.setReg A.BADGE_RD_CTRL (setBits (BitVec.ofNat 32 (2 ^ 31 + 4 * 2 ^ 28 + len) &&& 0x7C0001FF#32) 8 0 len)) ∧ (a.badge.op = none) ∧ (b = (a.disarm .carrier).disarm .cardPower) ∧ (b.readerOk = true) ∧ (b.flag F.BADGE_STAT_EXT_FIELD = false) ∧ (c = { b.wr F.BADGE_RD_STAT_BUSY 1 with badge.op := some 4 }))
  ∧ (∃ s : State, ∃ a : State, ∃ b : State, ∃ c : State, ∃ m : Nat, (s.mayWrite m A.BADGE_RD_CTRL = true) ∧ (a = s.setReg A.BADGE_RD_CTRL (setBits (BitVec.ofNat 32 (2 ^ 31 + 5 * 2 ^ 28) &&& 0x7C0001FF#32) 8 0 0)) ∧ (a.badge.op = none) ∧ (b = (a.disarm .carrier).disarm .cardPower) ∧ (b.readerOk = true) ∧ (b.flag F.BADGE_STAT_EXT_FIELD = false) ∧ (c = { b.wr F.BADGE_RD_STAT_BUSY 1 with badge.op := some 5 }))
  ∧ (∃ s : State, ∃ r : State, ∃ a : State, ∃ b : State, ∃ c : State, ∃ d : State, ∃ op : Nat, ∃ st : Nat, ∃ rx : List Byte, ∃ auth : Bool, (s.badge.op = some op) ∧ (r = (if op = rdFIELD_ON then s.fire .cardPower id else s)) ∧ (a = (if op = rdFIELD_OFF ∨ op = rdDESELECT then r.setCarrier false else r)) ∧ (b = (if st == rdDONE && op == rdACTIVATE then a.wr F.BADGE_RD_STAT_RATE (min (a.rd F.BADGE_RD_CTRL_RATE) (a.rd F.BADGE_CFG_RATE_MAX)) else a)) ∧ (c = (if st == rdDONE && (op == rdACTIVATE || op == rdEXCHANGE) then State.wr { b with badge.rx := rx.take 256 } F.BADGE_RD_STAT_RX_LEN (rx.take 256).length else b)) ∧ (d = c.readerEnd st) ∧ ((st == rdDONE && op == rdEXCHANGE && auth) = false)) := by
  refine ⟨?_, ?_, ?_, ?_, ?_, ?_⟩
  · refine ⟨(rdr : State), _, _, _, (8 : Nat), ?_, rfl, ?_, rfl, ?_, ?_, rfl⟩ <;> decide
  · refine ⟨(rdr : State), _, _, _, (8 : Nat), ?_, rfl, ?_, rfl, ?_, ?_, rfl⟩ <;> decide
  · refine ⟨(rdr : State), _, _, _, (8 : Nat), (0 : Nat), ?_, ?_, rfl, ?_, rfl, ?_, ?_, rfl⟩ <;> decide
  · refine ⟨(rdr : State), _, _, _, (8 : Nat), (256 : Nat), ?_, ?_, rfl, ?_, rfl, ?_, ?_, rfl⟩ <;> decide
  · refine ⟨(rdr : State), _, _, _, (8 : Nat), ?_, rfl, ?_, rfl, ?_, ?_, rfl⟩ <;> decide
  · refine ⟨({ W with badge.op := some 3 } : State), _, _, _, _, _, (3 : Nat), (0 : Nat), ([] : List Byte), (true : Bool), ?_, rfl, rfl, rfl, rfl, rfl, ?_⟩ <;> decide

theorem test_meets_BadgeReaderCommands_2 :
  (∃ s : State, ∃ r : State, ∃ a : State, ∃ b : State, ∃ c : State, ∃ d : State, ∃ op : Nat, ∃ st : Nat, ∃ rx : List Byte, ∃ auth : Bool, (s.badge.op = some op) ∧ (r = (if op = rdFIELD_ON then s.fire .cardPower id else s)) ∧ (a = (if op = rdFIELD_OFF ∨ op = rdDESELECT then r.setCarrier false else r)) ∧ (b = (if st == rdDONE && op == rdACTIVATE then a.wr F.BADGE_RD_STAT_RATE (min (a.rd F.BADGE_RD_CTRL_RATE) (a.rd F.BADGE_CFG_RATE_MAX)) else a)) ∧ (c = (if st == rdDONE && (op == rdACTIVATE || op == rdEXCHANGE) then State.wr { b with badge.rx := rx.take 256 } F.BADGE_RD_STAT_RX_LEN (rx.take 256).length else b)) ∧ (d = c.readerEnd st) ∧ ((st == rdDONE && op == rdEXCHANGE && auth) = true))
  ∧ (∃ s : State, (s.armed .carrier = true))
  ∧ (∃ s : State, ∃ u : State, ∃ amp : Nat, ∃ n : Nat, ∃ sum : Nat, ∃ diff : Nat, (s.flag F.BADGE_CFG_PING_EN = true) ∧ (s.readerOk = true) ∧ (s.flag F.BADGE_STAT_EXT_FIELD = false) ∧ (s.badge.op = none) ∧ (u = ((s.fire .pingHold id).fire .ping id).arm .ping (max 1 (s.rd F.BADGE_CFG_PING_MS) * (10 * ticksPerMs))) ∧ (n = u.badge.pings.length) ∧ (sum = u.badge.pings.foldl (· + ·) 0) ∧ (diff = (if amp * n < sum then sum - amp * n else amp * n - sum)))
  ∧ (∃ s : State, ∃ u : State, ∃ p : Bool, (u = { s.wr F.BADGE_STAT_EXT_FIELD (b2n p) with badge.field := p }))
  ∧ (∃ s : State, ∃ m : Nat, (s.mayRead m A.BADGE_STAT = true))
  ∧ (∃ s : State, ∃ u : State, (u = State.readerStop { s with badge.vdd := false })) := by
  refine ⟨?_, ?_, ?_, ?_, ?_, ?_⟩
  · refine ⟨({ W with badge.op := some 4 } : State), _, _, _, _, _, (4 : Nat), (rdDONE : Nat), ([] : List Byte), (true : Bool), ?_, rfl, rfl, rfl, rfl, rfl, ?_⟩ <;> decide
  · refine ⟨(W.arm .carrier 7 : State), ?_⟩
    decide
  · refine ⟨(on rdr F.BADGE_CFG_PING_EN : State), _, (0 : Nat), _, _, _, ?_, ?_, ?_, ?_, rfl, rfl, rfl, rfl⟩ <;> decide
  · exact ⟨(W), _, (true : Bool), rfl⟩
  · refine ⟨(W), (8 : Nat), ?_⟩
    decide
  · exact ⟨(W), _, rfl⟩

theorem test_meets_BadgeTagCommands_1 :
  (∃ s : State, ∃ a : State, ∃ b : State, ∃ supply : Bool, (a = (if supply then { s with badge.vdd := true } else { s with badge.field := true })) ∧ (b = (if ((look noneAt a.badge.slots 1).map (·.seq)).getD 0 < ((look noneAt a.badge.slots 0).map (·.seq)).getD 0 then (a.slotRedo 1).slotRedo 0 else (a.slotRedo 0).slotRedo 1)))
  ∧ (∃ s : State, (s.tagAnswers = true) ∧ (s.badge.tag = 1))
  ∧ (∃ s : State, (s.tagAnswers = true) ∧ (s.badge.tag = 1 ∨ s.badge.tag = 5))
  ∧ (∃ s : State, (s.tagAnswers = true) ∧ (s.badge.tag = 2))
  ∧ (∃ s : State, ∃ uid : List Byte, (s.tagAnswers = true) ∧ (s.badge.tag = 2) ∧ (uid ≠ (s.uidPart s.badge.level).take 4))
  ∧ (∃ s : State, ∃ uid : List Byte, (s.tagAnswers = true) ∧ (s.badge.tag = 2) ∧ (uid = (s.uidPart s.badge.level).take 4) ∧ (s.badge.level = 0)) := by
  refine ⟨?_, ?_, ?_, ?_, ?_, ?_⟩
  · exact ⟨(W), _, _, (true : Bool), rfl, rfl⟩
  · refine ⟨(W), ?_, ?_⟩ <;> decide
  · refine ⟨(W), ?_, ?_⟩ <;> decide
  · refine ⟨(tagIn 2 : State), ?_, ?_⟩ <;> decide
  · refine ⟨(tagIn 2 : State), ([] : List Byte), ?_, ?_, ?_⟩
    · decide
    · decide
    · intro h; simp [State.uidPart] at h
  · refine ⟨(tagIn 2 : State), ((W.uidPart 0).take 4 : List Byte), ?_, ?_, ?_, ?_⟩ <;> decide

theorem test_meets_BadgeTagCommands_2 :
  (∃ s : State, ∃ uid : List Byte, (s.tagAnswers = true) ∧ (s.badge.tag = 2) ∧ (uid = (s.uidPart s.badge.level).take 4) ∧ (s.badge.level ≠ 0))
  ∧ (∃ s : State, ∃ u : State, (s.tagAnswers = true) ∧ (s.badge.tag = 3) ∧ (u = { (s.setTag 4).wr F.BADGE_STAT_SESSION 1 with badge.latched := some s.tagGen.copy }))
  ∧ (∃ s : State, (s.tagAnswers = true) ∧ (s.badge.tag = 4))
  ∧ (∃ s : State, ∃ u : State, (s.tagAnswers = true) ∧ (2 ≤ s.badge.tag) ∧ (u = { (s.sessionEnd.setTag 1).wr F.BADGE_STAT_HALTED 1 with badge.silent := true }))
  ∧ (∃ s : State, (s.tagAnswers = true) ∧ (s.badge.tag = 4))
  ∧ (∃ s : State, ∃ p : Nat, ∃ n : Nat, (s.tagAnswers = true) ∧ (s.badge.tag = 4) ∧ ∃ ps : List Nat, ∃ idle : Nat, (ps = (List.range n).map (p + ·)) ∧ (idle = copyPage (1 - s.badge.latched.getD 0)) ∧ ∃ bad : Prop, (bad = (n = 0 ∨ 15 < n ∨ (ps.any fun q => decide (1536 ≤ q) || (decide (8 ≤ q) && decide (q < 24)) || (decide (idle ≤ q) && decide (q < idle + 256))) = true)) ∧ (bad)) := by
  refine ⟨?_, ?_, ?_, ?_, ?_, ?_⟩
  · refine ⟨({ tagIn 2 with badge.level := 1 } : State), ((W.uidPart 1).take 4 : List Byte), ?_, ?_, ?_, ?_⟩ <;> decide
  · refine ⟨(tagIn 3 : State), _, ?_, ?_, rfl⟩ <;> decide
  · refine ⟨(tagIn 4 : State), ?_, ?_⟩ <;> decide
  · refine ⟨(tagIn 4 : State), _, ?_, ?_, rfl⟩ <;> decide
  · refine ⟨(tagIn 4 : State), ?_, ?_⟩ <;> decide
  · refine ⟨(tagIn 4 : State), (0 : Nat), (0 : Nat), ?_, ?_, _, _, rfl, rfl, _, rfl, ?_⟩ <;> decide

theorem test_meets_BadgeTagCommands_3 :
  (∃ s : State, ∃ p : Nat, ∃ n : Nat, (s.tagAnswers = true) ∧ (s.badge.tag = 4) ∧ ∃ ps : List Nat, ∃ idle : Nat, (ps = (List.range n).map (p + ·)) ∧ (idle = copyPage (1 - s.badge.latched.getD 0)) ∧ ∃ bad : Prop, (bad = (n = 0 ∨ 15 < n ∨ (ps.any fun q => decide (1536 ≤ q) || (decide (8 ≤ q) && decide (q < 24)) || (decide (idle ≤ q) && decide (q < idle + 256))) = true)) ∧ (¬bad) ∧ (ps.any s.badge.badPages.contains = true))
  ∧ (∃ s : State, ∃ p : Nat, ∃ n : Nat, (s.tagAnswers = true) ∧ (s.badge.tag = 4) ∧ ∃ ps : List Nat, ∃ idle : Nat, (ps = (List.range n).map (p + ·)) ∧ (idle = copyPage (1 - s.badge.latched.getD 0)) ∧ ∃ bad : Prop, (bad = (n = 0 ∨ 15 < n ∨ (ps.any fun q => decide (1536 ≤ q) || (decide (8 ≤ q) && decide (q < 24)) || (decide (idle ≤ q) && decide (q < idle + 256))) = true)) ∧ (¬bad) ∧ (ps.any s.badge.badPages.contains = false))
  ∧ (∃ s : State, ∃ p : Nat, ∃ n : Nat, ∃ data : List Byte, ∃ strong : Bool, (s.tagAnswers = true) ∧ (s.badge.tag = 4) ∧ (strong = false))
  ∧ (∃ s : State, ∃ p : Nat, ∃ n : Nat, ∃ data : List Byte, ∃ strong : Bool, (s.tagAnswers = true) ∧ (s.badge.tag = 4) ∧ (strong = true) ∧ ((n = 0 ∨ 4 < n ∨ p < 25 ∨ 88 < p + n ∨ data.length ≠ 16 * n)))
  ∧ (∃ s : State, ∃ p : Nat, ∃ n : Nat, ∃ data : List Byte, ∃ strong : Bool, (s.tagAnswers = true) ∧ (s.badge.tag = 4) ∧ (strong = true) ∧ (¬(n = 0 ∨ 4 < n ∨ p < 25 ∨ 88 < p + n ∨ data.length ≠ 16 * n)) ∧ (s.tagGen.mbWr = true) ∧ (s.badge.mbCount < s.tagGen.mbMax) ∧ ∃ k : Nat, ∃ t : TagSlot, ∃ u : State, (k = s.freeSlot) ∧ (t = TagSlot.mk p data (s.badge.mbCount + 1) (s.badge.slotSeq + 1)) ∧ (u = { s with badge.slots := put noneAt s.badge.slots k (some t), badge.slotSeq := t.seq, badge.nextSlot := 1 - k }))
  ∧ (∃ s : State, ∃ u : State, (u = { s.sessionEnd.disarm .fieldIdle with badge.field := false })) := by
  refine ⟨?_, ?_, ?_, ?_, ?_, ?_⟩
  · refine ⟨({ tagIn 4 with badge.badPages := [0] } : State), (0 : Nat), (1 : Nat), ?_, ?_, _, _, rfl, rfl, _, rfl, ?_, ?_⟩ <;> decide
  · refine ⟨(tagIn 4 : State), (0 : Nat), (1 : Nat), ?_, ?_, _, _, rfl, rfl, _, rfl, ?_, ?_⟩ <;> decide
  · refine ⟨(tagIn 4 : State), (0 : Nat), (0 : Nat), ([] : List Byte), (false : Bool), ?_, ?_, ?_⟩ <;> decide
  · refine ⟨(tagIn 4 : State), (0 : Nat), (0 : Nat), ([] : List Byte), _, ?_, ?_, rfl, ?_⟩ <;> decide
  · refine ⟨({ tagIn 4 with badge.g0 := { gen := 1, copy := 0, mbMax := 5, mbWr := true } } : State), (25 : Nat), (1 : Nat), (List.replicate 16 0#8 : List Byte), _, ?_, ?_, rfl, ?_, ?_, ?_, _, _, _, rfl, rfl, rfl⟩ <;> decide
  · exact ⟨(W), _, rfl⟩

theorem test_meets_BadgeTagCommands_4 :
  (∃ s : State, (s.badge.silent = true)) := by
  refine ⟨({ W with badge.silent := true } : State), ?_⟩
  decide

theorem test_meets_BadgeSummaryCommands :
  (∃ s : State, ∃ a : State, ∃ b : State, ∃ m : Nat, ∃ max : Nat, (max < 65536) ∧ (s.mayWrite m A.BADGE_TS_COMMIT = true) ∧ (a = s.tagSync) ∧ (a.flag F.BADGE_TS_STAT_PENDING = true))
  ∧ (∃ s : State, ∃ a : State, ∃ b : State, ∃ m : Nat, ∃ max : Nat, (max < 65536) ∧ (s.mayWrite m A.BADGE_TS_COMMIT = true) ∧ (a = s.tagSync) ∧ (a.flag F.BADGE_TS_STAT_PENDING = false) ∧ (b = ((a.wr F.BADGE_TS_STAT_PENDING 1).wr F.BADGE_TS_STAT_PROGRESS 0).wr F.BADGE_TS_STAT_PAUSED (b2n a.copyHeld)))
  ∧ (∃ s : State, ∃ a : State, ∃ m : Nat, (s.mayWrite m A.BADGE_TS_COMMIT = true) ∧ (a = s.tagSync))
  ∧ (∃ s : State, ∃ u : State, (s.flag F.BADGE_TS_STAT_PENDING = true) ∧ (s.flag F.BADGE_TS_STAT_PAUSED = true) ∧ (s.copyHeld = false) ∧ (u = s.fieldQuiet.wr F.BADGE_TS_STAT_PAUSED 0))
  ∧ (∃ s : State, ∃ u : State, ∃ v : State, ∃ n : TagGen, (s.flag F.BADGE_TS_STAT_PENDING = true) ∧ (s.flag F.BADGE_TS_STAT_PAUSED = false) ∧ (u = (s.fieldQuiet.reachST (s.badge.since + (summaryPages - s.badge.done) * tagPageTicks)).tagSync) ∧ (summaryPages ≤ u.tagProgress) ∧ (n = TagGen.mk (u.tagGen.gen + 1) u.idleCopy u.badge.newMax (u.flag F.BADGE_CFG_MB_WR)) ∧ (v = (if u.badge.g0.gen ≤ u.badge.g1.gen ∧ u.tagGen = u.badge.g1 ∧ u.badge.g0 ≠ u.badge.g1 then { u with badge.g0 := n } else if u.tagGen = u.badge.g0 then { u with badge.g1 := n } else { u with badge.g0 := n }))) := by
  refine ⟨?_, ?_, ?_, ?_, ?_⟩
  · refine ⟨(on W F.BADGE_TS_STAT_PENDING : State), _, (W), (8 : Nat), (0 : Nat), ?_, ?_, rfl, ?_⟩ <;> decide
  · refine ⟨(W), _, _, (8 : Nat), (0 : Nat), ?_, ?_, rfl, ?_, rfl⟩ <;> decide
  · refine ⟨(W), _, (8 : Nat), ?_, rfl⟩
    decide
  · refine ⟨(on (on W F.BADGE_TS_STAT_PENDING) F.BADGE_TS_STAT_PAUSED : State), _, ?_, ?_, ?_, rfl⟩ <;> decide
  · refine ⟨({ on W F.BADGE_TS_STAT_PENDING with badge.done := summaryPages } : State), _, _, _, ?_, ?_, rfl, ?_, rfl, rfl⟩ <;> decide

theorem test_meets_SessionAndImageCommands_1 :
  (∃ s : State, ∃ u : State, ∃ i : Nat, ∃ c : Cmd, ∃ r : Nat, ∃ n : Nat, ∃ svc : Bool, ∃ p : List Byte, ∃ k : List Byte, ∃ x : Sess, (s.executing 0x0101 = some i) ∧ (s.desk.cmds[i]? = some c) ∧ (u = s.dropCmd i) ∧ (u.entryRights (byteAt c.body 0) c.troupe = some (r, svc)) ∧ (u.entropyOk = true) ∧ (((List.range 8).find? fun n => (u.sess n).isNone) = some n) ∧ (p = beBytes 1 n ++ padTo 1185 (Config.sessReply c.body u.draw)) ∧ (k = shake256 96 (padTo 64 (Config.sessSecrets c.body u.draw) ++ sha256 (c.body ++ p))) ∧ (x = Sess.mk 1 c.troupe (byteAt c.body 0) svc r (sliceB k 0 32) (sliceB k 32 32) (sliceB k 64 32) (sha256 (c.body ++ p)) 0 [] 0 0 0))
  ∧ (∃ s : State, ∃ u : State, ∃ v : State, ∃ i : Nat, ∃ c : Cmd, ∃ x : Sess, (s.executing 0x0102 = some i) ∧ (s.desk.cmds[i]? = some c) ∧ (u = s.dropCmd i) ∧ (u.sess c.sess = some x) ∧ (v = (if u.openerOk x c.body then State.conclude (State.post ((((u.setSess c.sess (some { x with state := 2 })).disarm (.sessPending c.sess)).arm (.sessIdle c.sess) (600 * ticksPerSecond))) 0xD001 3 8 [x.entry]) i c (.done scOK (beBytes 1 x.rights)) else State.conclude (u.post 0xD002 5 8 [x.entry]) i c (.done scAUTH_FAIL []))))
  ∧ (∃ s : State, ∃ u : State, ∃ i : Nat, ∃ c : Cmd, (s.executing 0x0103 = some i) ∧ (s.desk.cmds[i]? = some c) ∧ (u = s.dropCmd i))
  ∧ (∃ s : State, ∃ u : State, ∃ i : Nat, ∃ c : Cmd, (s.executing 0x0104 = some i) ∧ (s.desk.cmds[i]? = some c) ∧ (u = s.dropCmd i))
  ∧ (∃ s : State, ∃ u : State, ∃ i : Nat, ∃ c : Cmd, (s.executing 0x0105 = some i) ∧ (s.desk.cmds[i]? = some c) ∧ (u = s.dropCmd i))
  ∧ (∃ s : State, ∃ u : State, ∃ i : Nat, ∃ c : Cmd, (s.executing 0x0201 = some i) ∧ (s.desk.cmds[i]? = some c) ∧ (u = s.dropCmd i)) := by
  refine ⟨?_, ?_, ?_, ?_, ?_, ?_⟩
  · refine ⟨(on (inFlight 0x0101 [255]) F.SCREE_STAT_INSTANTIATED : State), _, (0 : Nat), (icmd 0x0101 [255] : Cmd), (rR : Nat), (0 : Nat), (false : Bool), _, _, _, ?_, ?_, rfl, ?_, ?_, ?_, rfl, rfl, rfl⟩ <;> decide
  · refine ⟨({ inFlight 0x0102 [] with desk.sessions := [(255, some sess0)] } : State), _, _, (0 : Nat), (icmd 0x0102 [] : Cmd), (sess0 : Sess), ?_, ?_, rfl, ?_, rfl⟩ <;> decide
  · refine ⟨(inFlight 0x0103 [] : State), _, (0 : Nat), (icmd 0x0103 [] : Cmd), ?_, ?_, rfl⟩ <;> decide
  · refine ⟨(inFlight 0x0104 [] : State), _, (0 : Nat), (icmd 0x0104 [] : Cmd), ?_, ?_, rfl⟩ <;> decide
  · refine ⟨(inFlight 0x0105 [] : State), _, (0 : Nat), (icmd 0x0105 [] : Cmd), ?_, ?_, rfl⟩ <;> decide
  · refine ⟨(inFlight 0x0201 [] : State), _, (0 : Nat), (icmd 0x0201 [] : Cmd), ?_, ?_, rfl⟩ <;> decide

theorem test_meets_SessionAndImageCommands_2 :
  (∃ s : State, ∃ u : State, ∃ i : Nat, ∃ c : Cmd, ∃ o : Nat, ∃ len : Nat, (s.executing 0x0202 = some i) ∧ (s.desk.cmds[i]? = some c) ∧ (u = s.dropCmd i) ∧ (o = beAt c.body 0 4) ∧ (len = Config.certLength (u.peek 0x20000000 0x10000) % 65537) ∧ (o ≤ len))
  ∧ (∃ s : State, ∃ u : State, ∃ i : Nat, ∃ c : Cmd, ∃ m : List Byte, (s.executing 0x0203 = some i) ∧ (s.desk.cmds[i]? = some c) ∧ (u = s.dropCmd i) ∧ (m = serial16 ++ c.body ++ beBytes 4 (u.reg A.SYS_STATE).toNat ++ beBytes 8 u.now ++ beBytes 4 (u.reg A.REFUGE_STAT).toNat ++ u.idDigests))
  ∧ (∃ s : State, ∃ u : State, ∃ i : Nat, ∃ c : Cmd, (s.executing 0x0204 = some i) ∧ (s.desk.cmds[i]? = some c) ∧ (u = s.dropCmd i))
  ∧ (∃ s : State, ∃ u : State, ∃ i : Nat, ∃ c : Cmd, ∃ k : Nat, (s.executing 0x0301 = some i) ∧ (s.desk.cmds[i]? = some c) ∧ (u = s.dropCmd i) ∧ (k = byteAt c.body 0) ∧ (¬((k = 1 ∨ k = 2) ∧ u.actKind = k ∨ k = 0 ∧ u.actKind = 0 ∧ u.flag F.SYS_BOOT_EARLY_OK = true)))
  ∧ (∃ s : State, ∃ u : State, ∃ i : Nat, ∃ c : Cmd, ∃ ok : Bool, ∃ k : Nat, ∃ st : Nat, ∃ v : State, (s.executing 0x0302 = some i) ∧ (s.desk.cmds[i]? = some c) ∧ (u = s.dropCmd i) ∧ (u.desk.xfer = some k) ∧ ((u.img k).state = 1) ∧ (beAt c.body 0 4 + (c.body.length - 4) ≤ (u.img k).len) ∧ (u.programAt (imageBase k + beAt c.body 0 4) (c.body.drop 4) ok = (st, v)))
  ∧ (∃ s : State, ∃ u : State, ∃ i : Nat, ∃ c : Cmd, ∃ k : Nat, (s.executing 0x0303 = some i) ∧ (s.desk.cmds[i]? = some c) ∧ (u = s.dropCmd i) ∧ (u.desk.xfer = some k) ∧ ((u.img k).state = 1)) := by
  refine ⟨?_, ?_, ?_, ?_, ?_, ?_⟩
  · refine ⟨(inFlight 0x0202 [] : State), _, (0 : Nat), (icmd 0x0202 [] : Cmd), _, _, ?_, ?_, rfl, rfl, rfl, ?_⟩ <;> decide
  · refine ⟨(inFlight 0x0203 [] : State), _, (0 : Nat), (icmd 0x0203 [] : Cmd), _, ?_, ?_, rfl, rfl⟩ <;> decide
  · refine ⟨(inFlight 0x0204 [] : State), _, (0 : Nat), (icmd 0x0204 [] : Cmd), ?_, ?_, rfl⟩ <;> decide
  · refine ⟨(inFlight 0x0301 [] : State), _, (0 : Nat), (icmd 0x0301 [] : Cmd), _, ?_, ?_, rfl, rfl, ?_⟩ <;> decide
  · refine ⟨({ inFlight 0x0302 [0, 0, 0, 0] with desk.xfer := some 1, desk.images := [(1, { Img.none with state := 1 })] } : State), _, (0 : Nat), (icmd 0x0302 [0, 0, 0, 0] : Cmd), (true : Bool), (1 : Nat), _, _, ?_, ?_, rfl, ?_, ?_, ?_, pair1 _⟩ <;> decide
  · refine ⟨({ inFlight 0x0303 [] with desk.xfer := some 1, desk.images := [(1, { Img.none with state := 1 })] } : State), _, (0 : Nat), (icmd 0x0303 [] : Cmd), (1 : Nat), ?_, ?_, rfl, ?_, ?_⟩ <;> decide

theorem test_meets_SessionAndImageCommands_3 :
  (∃ s : State, ∃ u : State, ∃ i : Nat, ∃ c : Cmd, (s.executing 0x0304 = some i) ∧ (s.desk.cmds[i]? = some c) ∧ (u = s.dropCmd i))
  ∧ (∃ s : State, ∃ u : State, ∃ i : Nat, ∃ c : Cmd, (s.executing 0x0305 = some i) ∧ (s.desk.cmds[i]? = some c) ∧ (u = s.dropCmd i)) := by
  refine ⟨?_, ?_⟩
  · refine ⟨(inFlight 0x0304 [] : State), _, (0 : Nat), (icmd 0x0304 [] : Cmd), ?_, ?_, rfl⟩ <;> decide
  · refine ⟨(inFlight 0x0305 [] : State), _, (0 : Nat), (icmd 0x0305 [] : Cmd), ?_, ?_, rfl⟩ <;> decide

theorem test_meets_ConfigurationCueAndKeyCommands_1 :
  (∃ s : State, ∃ u : State, ∃ i : Nat, ∃ c : Cmd, ∃ n : Nat, ∃ v : State, (s.executing 0x0401 = some i) ∧ (s.desk.cmds[i]? = some c) ∧ (u = s.dropCmd i) ∧ (n = u.desk.storedCfg) ∧ (n ≠ 0) ∧ ((u.img 3).state = 2) ∧ ((cfgBlocks n).any u.pendingIn = false) ∧ (v = (cfgBlocks n).foldl (fun (s : State) b => s.blockGo b 1 0) (u.cfgStage n)))
  ∧ (∃ s : State, ∃ u : State, ∃ i : Nat, ∃ c : Cmd, (s.executing 0x0402 = some i) ∧ (s.desk.cmds[i]? = some c) ∧ (u = s.dropCmd i))
  ∧ (∃ s : State, ∃ u : State, ∃ i : Nat, ∃ c : Cmd, ∃ v : State, (s.executing 0x0403 = some i) ∧ (s.desk.cmds[i]? = some c) ∧ (u = s.dropCmd i) ∧ (u.flag F.STIME_STATE_STEP_PENDING = false) ∧ (v = (u.setReg A.STIME_STEP_LO (BitVec.ofNat 32 (beAt c.body 4 4))).setReg A.STIME_STEP_HI (BitVec.ofNat 32 (beAt c.body 0 4))))
  ∧ (∃ s : State, ∃ u : State, ∃ i : Nat, ∃ c : Cmd, (s.executing 0x0404 = some i) ∧ (s.desk.cmds[i]? = some c) ∧ (u = s.dropCmd i))
  ∧ (∃ s : State, ∃ u : State, ∃ i : Nat, ∃ c : Cmd, (s.executing 0x0501 = some i) ∧ (s.desk.cmds[i]? = some c) ∧ (u = s.dropCmd i))
  ∧ (∃ s : State, ∃ u : State, ∃ i : Nat, ∃ c : Cmd, ∃ n : Nat, ∃ v : State, (s.executing 0x0502 = some i) ∧ (s.desk.cmds[i]? = some c) ∧ (u = s.dropCmd i) ∧ (u.cuePushes ((List.range (byteAt c.body 0)).map fun k => sliceB c.body (1 + 19 * k) 19) 0 = ((n, none), v))) := by
  refine ⟨?_, ?_, ?_, ?_, ?_, ?_⟩
  · refine ⟨({ inFlight 0x0401 [] with desk.storedCfg := 1, desk.images := [(3, { Img.none with state := 2 })] } : State), _, (0 : Nat), (icmd 0x0401 [] : Cmd), _, _, ?_, ?_, rfl, rfl, ?_, ?_, ?_, rfl⟩
    · decide
    · decide
    · decide
    · decide
    · refine List.any_eq_false.2 fun b hb => ?_; have m := (List.mem_filter.1 hb).1; clear hb; revert b; decide
  · refine ⟨(inFlight 0x0402 [] : State), _, (0 : Nat), (icmd 0x0402 [] : Cmd), ?_, ?_, rfl⟩ <;> decide
  · refine ⟨(inFlight 0x0403 [] : State), _, (0 : Nat), (icmd 0x0403 [] : Cmd), _, ?_, ?_, rfl, ?_, rfl⟩ <;> decide
  · refine ⟨(inFlight 0x0404 [] : State), _, (0 : Nat), (icmd 0x0404 [] : Cmd), ?_, ?_, rfl⟩ <;> decide
  · refine ⟨(inFlight 0x0501 [] : State), _, (0 : Nat), (icmd 0x0501 [] : Cmd), ?_, ?_, rfl⟩ <;> decide
  · refine ⟨(inFlight 0x0502 [] : State), _, (0 : Nat), (icmd 0x0502 [] : Cmd), _, _, ?_, ?_, rfl, rfl⟩ <;> decide

theorem test_meets_ConfigurationCueAndKeyCommands_2 :
  (∃ s : State, ∃ u : State, ∃ i : Nat, ∃ c : Cmd, ∃ v : State, (s.executing 0x0503 = some i) ∧ (s.desk.cmds[i]? = some c) ∧ (u = s.dropCmd i) ∧ (u.pendingIn Base.CUE = false) ∧ (v = u.blockGo Base.CUE (byteAt c.body 0) (beAt c.body 1 2)) ∧ (v.pendingIn Base.CUE = true))
  ∧ (∃ s : State, ∃ u : State, ∃ i : Nat, ∃ c : Cmd, (s.executing 0x0504 = some i) ∧ (s.desk.cmds[i]? = some c) ∧ (u = s.dropCmd i))
  ∧ (∃ s : State, ∃ u : State, ∃ i : Nat, ∃ c : Cmd, ∃ b : List Byte, ∃ v : State, (s.executing 0x0505 = some i) ∧ (s.desk.cmds[i]? = some c) ∧ (u = s.dropCmd i) ∧ (u.words [A.CUE_STAT, A.CUE_CNT_A, A.CUE_CNT_B, A.CUE_CNT_C, A.CUE_EDIT_STAT] = (b, v)))
  ∧ (∃ s : State, ∃ u : State, ∃ v : State, ∃ i : Nat, ∃ c : Cmd, ∃ crk : List Byte, ∃ a : Ans, (s.executing 0x0601 = some i) ∧ (s.desk.cmds[i]? = some c) ∧ (u = s.dropCmd i) ∧ (u.crk = some crk) ∧ (((match kwUnwrap (u.xferKey c) (c.body.drop 5) with | none => (Ans.done scAUTH_FAIL [], u) | some k => if importLen (byteAt c.body 4) ≠ some k.length ∧ !(byteAt c.body 4 = kSECRET ∧ k.length = 32) then (Ans.done scBAD_PARAM [], u) else (Ans.done scOK (if byteAt c.body 4 = kSECRET then [] else sha256 (Config.pkPublic (byteAt c.body 4) k)), { u with desk.keys := (u.desk.keys.filter fun x => x.id != beAt c.body 0 4) ++ [StoredKey.mk (beAt c.body 0 4) (byteAt c.body 4) u.desk.kek (kwWrap (kekOf crk u.desk.kek) k) (if byteAt c.body 4 = kSECRET then [] else sha256 (Config.pkPublic (byteAt c.body 4) k))] })) : Ans × State) = (a, v)))
  ∧ (∃ s : State, ∃ u : State, ∃ i : Nat, ∃ c : Cmd, (s.executing 0x0602 = some i) ∧ (s.desk.cmds[i]? = some c) ∧ (u = s.dropCmd i) ∧ ((u.desk.keys.any fun x => x.id == beAt c.body 0 4) = true))
  ∧ (∃ s : State, ∃ u : State, ∃ i : Nat, ∃ c : Cmd, (s.executing 0x0603 = some i) ∧ (s.desk.cmds[i]? = some c) ∧ (u = s.dropCmd i)) := by
  refine ⟨?_, ?_, ?_, ?_, ?_, ?_⟩
  · refine ⟨(inFlight 0x0503 [] : State), _, (0 : Nat), (icmd 0x0503 [] : Cmd), _, ?_, ?_, rfl, ?_, rfl, ?_⟩ <;> decide
  · refine ⟨(inFlight 0x0504 [] : State), _, (0 : Nat), (icmd 0x0504 [] : Cmd), ?_, ?_, rfl⟩ <;> decide
  · refine ⟨(inFlight 0x0505 [] : State), _, (0 : Nat), (icmd 0x0505 [] : Cmd), _, _, ?_, ?_, rfl, pair1 _⟩ <;> decide
  · refine ⟨({ inFlight 0x0601 [] with massif.keys := [(2, some { type := 0, bytes := [7] })] } : State), _, _, (0 : Nat), (icmd 0x0601 [] : Cmd), ([7] : List Byte), _, ?_, ?_, rfl, ?_, pair1 _⟩ <;> decide
  · refine ⟨({ inFlight 0x0602 [0, 0, 0, 5] with desk.keys := [{ id := 5, type := 9, gen := 0, blob := [], pub := [] }] } : State), _, (0 : Nat), (icmd 0x0602 [0, 0, 0, 5] : Cmd), ?_, ?_, rfl, ?_⟩ <;> decide
  · refine ⟨(inFlight 0x0603 [] : State), _, (0 : Nat), (icmd 0x0603 [] : Cmd), ?_, ?_, rfl⟩ <;> decide

theorem test_meets_ConfigurationCueAndKeyCommands_3 :
  (∃ s : State, ∃ u : State, ∃ v : State, ∃ i : Nat, ∃ c : Cmd, ∃ a : Ans, (s.executing 0x0604 = some i) ∧ (s.desk.cmds[i]? = some c) ∧ (u = s.dropCmd i) ∧ (beAt c.body 0 2 < 4096) ∧ (((match kwUnwrap (u.xferKey c) (c.body.drop 14) with | none => (Ans.done scAUTH_FAIL [], u) | some k => match u.installKey (beAt c.body 0 2) (beAt c.body 2 4) (beAt c.body 6 6) (beAt c.body 12 2) (k.length == 32) (beNat k) with | (0, x) => (Ans.done scOK [], x) | (r, x) => (Ans.done scBAD_PARAM (beBytes 1 r), x)) : Ans × State) = (a, v)))
  ∧ (∃ s : State, ∃ u : State, ∃ i : Nat, ∃ c : Cmd, ∃ k : List Byte, (s.executing 0x0605 = some i) ∧ (s.desk.cmds[i]? = some c) ∧ (u = s.dropCmd i) ∧ (u.crk = some k))
  ∧ (∃ s : State, ∃ u : State, ∃ i : Nat, ∃ c : Cmd, (s.executing 0x0606 = some i) ∧ (s.desk.cmds[i]? = some c) ∧ (u = s.dropCmd i)) := by
  refine ⟨?_, ?_, ?_⟩
  · refine ⟨(inFlight 0x0604 [] : State), _, _, (0 : Nat), (icmd 0x0604 [] : Cmd), _, ?_, ?_, rfl, ?_, pair1 _⟩ <;> decide
  · refine ⟨({ inFlight 0x0605 [] with massif.keys := [(2, some { type := 0, bytes := [7] })] } : State), _, (0 : Nat), (icmd 0x0605 [] : Cmd), ([7] : List Byte), ?_, ?_, rfl, ?_⟩ <;> decide
  · refine ⟨(inFlight 0x0606 [] : State), _, (0 : Nat), (icmd 0x0606 [] : Cmd), ?_, ?_, rfl⟩ <;> decide

theorem test_meets_PairingTroupeAndRecordCommands_1 :
  (∃ s : State, ∃ u : State, ∃ i : Nat, ∃ c : Cmd, (s.executing 0x0701 = some i) ∧ (s.desk.cmds[i]? = some c) ∧ (u = s.dropCmd i))
  ∧ (∃ s : State, ∃ u : State, ∃ i : Nat, ∃ c : Cmd, (s.executing 0x0702 = some i) ∧ (s.desk.cmds[i]? = some c) ∧ (u = s.dropCmd i))
  ∧ (∃ s : State, ∃ u : State, ∃ i : Nat, ∃ c : Cmd, (s.executing 0x0703 = some i) ∧ (s.desk.cmds[i]? = some c) ∧ (u = s.dropCmd i))
  ∧ (∃ s : State, ∃ u : State, ∃ i : Nat, ∃ c : Cmd, ∃ b1 : List Byte, ∃ b2 : List Byte, ∃ b3 : List Byte, ∃ b4 : List Byte, ∃ v1 : State, ∃ v2 : State, ∃ v3 : State, ∃ v4 : State, (s.executing 0x0704 = some i) ∧ (s.desk.cmds[i]? = some c) ∧ (u = s.dropCmd i) ∧ (u.words [A.UNDERSTUDY_STAT, A.UNDERSTUDY_HEALTH, A.UNDERSTUDY_PEER_HEALTH] = (b1, v1)) ∧ (v1.words [A.UNDERSTUDY_APPLIED_LO] = (b2, v2)) ∧ (v2.words [A.UNDERSTUDY_APPLIED_HI] = (b3, v3)) ∧ (v3.words [A.UNDERSTUDY_CNT_A, A.UNDERSTUDY_CNT_B, A.UNDERSTUDY_CNT_C] = (b4, v4)))
  ∧ (∃ s : State, ∃ u : State, ∃ i : Nat, ∃ c : Cmd, (s.executing 0x0801 = some i) ∧ (s.desk.cmds[i]? = some c) ∧ (u = s.dropCmd i))
  ∧ (∃ s : State, ∃ u : State, ∃ i : Nat, ∃ c : Cmd, ∃ b : List Byte, ∃ v : State, (s.executing 0x0802 = some i) ∧ (s.desk.cmds[i]? = some c) ∧ (u = s.dropCmd i) ∧ (u.words (A.TROUPE_STAT :: (List.range 64).map A.TROUPE_MEMBER) = (b, v))) := by
  refine ⟨?_, ?_, ?_, ?_, ?_, ?_⟩
  · refine ⟨(inFlight 0x0701 [] : State), _, (0 : Nat), (icmd 0x0701 [] : Cmd), ?_, ?_, rfl⟩ <;> decide
  · refine ⟨(inFlight 0x0702 [] : State), _, (0 : Nat), (icmd 0x0702 [] : Cmd), ?_, ?_, rfl⟩ <;> decide
  · refine ⟨(inFlight 0x0703 [] : State), _, (0 : Nat), (icmd 0x0703 [] : Cmd), ?_, ?_, rfl⟩ <;> decide
  · refine ⟨(inFlight 0x0704 [] : State), _, (0 : Nat), (icmd 0x0704 [] : Cmd), _, _, _, _, _, _, _, _, ?_, ?_, rfl, pair1 _, pair1 _, pair1 _, pair1 _⟩ <;> decide
  · refine ⟨(inFlight 0x0801 [] : State), _, (0 : Nat), (icmd 0x0801 [] : Cmd), ?_, ?_, rfl⟩ <;> decide
  · refine ⟨(inFlight 0x0802 [] : State), _, (0 : Nat), (icmd 0x0802 [] : Cmd), _, _, ?_, ?_, rfl, pair1 _⟩ <;> decide

theorem test_meets_PairingTroupeAndRecordCommands_2 :
  (∃ s : State, ∃ u : State, ∃ i : Nat, ∃ c : Cmd, (s.executing 0x0803 = some i) ∧ (s.desk.cmds[i]? = some c) ∧ (u = s.dropCmd i) ∧ (u.troupe.rolling = false))
  ∧ (∃ s : State, ∃ u : State, ∃ i : Nat, ∃ c : Cmd, (s.executing 0x0804 = some i) ∧ (s.desk.cmds[i]? = some c) ∧ (u = s.dropCmd i) ∧ (u.frame + u.rollFrames ≤ beAt c.body 8 6) ∧ (beAt c.body 8 6 < beAt c.body 14 6) ∧ (u.troupe.bkey.isNone = false) ∧ (u.namesPair (beAt c.body 0 8) = false))
  ∧ (∃ s : State, ∃ u : State, ∃ i : Nat, ∃ c : Cmd, ∃ key : List Byte, (s.executing 0x0805 = some i) ∧ (s.desk.cmds[i]? = some c) ∧ (u = s.dropCmd i) ∧ (u.session (byteAt c.body 0) = some key))
  ∧ (∃ s : State, ∃ u : State, ∃ i : Nat, ∃ c : Cmd, (s.desk.cmds[i]? = some c) ∧ (c.op = 0x0805) ∧ (c.phase = 2) ∧ (s.armed (.relay (nth c.note 0)) = true) ∧ (u = s.elapsed (.relay (nth c.note 0))))
  ∧ (∃ s : State, ∃ u : State, ∃ i : Nat, ∃ c : Cmd, ∃ l : List Rec, (s.executing 0x0901 = some i) ∧ (s.desk.cmds[i]? = some c) ∧ (u = s.dropCmd i) ∧ (l = ((u.book.ring.map (·.1)).filter fun r => decide (beAt c.body 0 4 ≤ r.seq.toNat)).take (byteAt c.body 4)))
  ∧ (∃ s : State, ∃ u : State, ∃ i : Nat, ∃ c : Cmd, ∃ b : List Byte, ∃ v : State, (s.executing 0x0902 = some i) ∧ (s.desk.cmds[i]? = some c) ∧ (u = s.dropCmd i) ∧ (u.dmaRead 8 (0x21800000 + 32 * beAt c.body 0 4) (32 * min (byteAt c.body 4) (131072 - beAt c.body 0 4)) = (.ok b, v))) := by
  refine ⟨?_, ?_, ?_, ?_, ?_, ?_⟩
  · refine ⟨(inFlight 0x0803 [] : State), _, (0 : Nat), (icmd 0x0803 [] : Cmd), ?_, ?_, rfl, ?_⟩ <;> decide
  · refine ⟨({ inFlight 0x0804 (List.replicate 8 0 ++ [0, 1, 0, 0, 0, 0] ++ [0, 2, 0, 0, 0, 0]) with troupe.bkey := some [] } : State), _, (0 : Nat), (icmd 0x0804 (List.replicate 8 0 ++ [0, 1, 0, 0, 0, 0] ++ [0, 2, 0, 0, 0, 0]) : Cmd), ?_, ?_, rfl, ?_, ?_, ?_, ?_⟩ <;> decide
  · refine ⟨({ inFlight 0x0805 [5] with troupe.sessions := [(5, some [])] } : State), _, (0 : Nat), (icmd 0x0805 [5] : Cmd), ([] : List Byte), ?_, ?_, rfl, ?_⟩ <;> decide
  · refine ⟨({ W.arm (.relay 0) 7 with desk.cmds := [{ icmd 0x0805 [] with phase := 2 }] } : State), _, (0 : Nat), ({ icmd 0x0805 [] with phase := 2 } : Cmd), ?_, ?_, ?_, ?_, rfl⟩ <;> decide
  · refine ⟨(inFlight 0x0901 [] : State), _, (0 : Nat), (icmd 0x0901 [] : Cmd), _, ?_, ?_, rfl, rfl⟩ <;> decide
  · refine ⟨(inFlight 0x0902 [] : State), _, (0 : Nat), (icmd 0x0902 [] : Cmd), ([] : List Byte), _, ?_, ?_, rfl, pair_of (by decide)⟩ <;> decide

theorem test_meets_PairingTroupeAndRecordCommands_3 :
  (∃ s : State, ∃ u : State, ∃ i : Nat, ∃ c : Cmd, (s.executing 0x0903 = some i) ∧ (s.desk.cmds[i]? = some c) ∧ (u = s.dropCmd i))
  ∧ (∃ s : State, ∃ u : State, ∃ i : Nat, ∃ c : Cmd, (s.executing 0x0904 = some i) ∧ (s.desk.cmds[i]? = some c) ∧ (u = s.dropCmd i)) := by
  refine ⟨?_, ?_⟩
  · refine ⟨(inFlight 0x0903 [] : State), _, (0 : Nat), (icmd 0x0903 [] : Cmd), ?_, ?_, rfl⟩ <;> decide
  · refine ⟨(inFlight 0x0904 [] : State), _, (0 : Nat), (icmd 0x0904 [] : Cmd), ?_, ?_, rfl⟩ <;> decide

theorem test_meets_FileAndDiagnosticCommands_1 :
  (∃ s : State, ∃ u : State, ∃ i : Nat, ∃ c : Cmd, ∃ l : List VFile, (s.executing 0x0A01 = some i) ∧ (s.desk.cmds[i]? = some c) ∧ (u = s.dropCmd i) ∧ (u.volume (byteAt c.body 0) = some l))
  ∧ (∃ s : State, ∃ u : State, ∃ i : Nat, ∃ c : Cmd, ∃ l : List VFile, ∃ f : VFile, (s.executing 0x0A02 = some i) ∧ (s.desk.cmds[i]? = some c) ∧ (u = s.dropCmd i) ∧ (u.volume (byteAt c.body 0) = some l) ∧ (fileOf l (sliceB c.body 1 16) = some f) ∧ (beAt c.body 17 4 ≤ f.data.length) ∧ ((f.data.length ≤ beAt c.body 17 4 + beAt c.body 21 2 → f.crcOk = true)))
  ∧ (∃ s : State, ∃ u : State, ∃ i : Nat, ∃ c : Cmd, ∃ v : Nat, ∃ o : Nat, ∃ n : Nat, (s.executing 0x0A03 = some i) ∧ (s.desk.cmds[i]? = some c) ∧ (u = s.dropCmd i) ∧ (v = byteAt c.body 0) ∧ (o = beAt c.body 17 4) ∧ (n = (u.partOf v (sliceB c.body 1 16)).length) ∧ ((v = 1 → u.flag (F.CART_CARD_PERM_WP 0) = false ∧ u.flag (F.CART_CARD_TMP_WP 0) = false ∧ u.cart.mounted = true ∧ (u.cart.formatted = true ∨ u.cart.blank = true))) ∧ (o = 0 ∨ o = n) ∧ (o + (c.body.length - 22) ≤ 2 ^ 28))
  ∧ (∃ s : State, ∃ u : State, ∃ i : Nat, ∃ c : Cmd, ∃ v : Nat, ∃ l : List VFile, ∃ f : VFile, (s.executing 0x0A04 = some i) ∧ (s.desk.cmds[i]? = some c) ∧ (u = s.dropCmd i) ∧ (v = byteAt c.body 0) ∧ (u.volume v = some l) ∧ (fileOf l (sliceB c.body 1 16) = some f) ∧ ((v = 1 → u.flag (F.CART_CARD_PERM_WP 0) = false ∧ u.flag (F.CART_CARD_TMP_WP 0) = false)))
  ∧ (∃ s : State, ∃ u : State, ∃ i : Nat, ∃ c : Cmd, (s.executing 0x0A05 = some i) ∧ (s.desk.cmds[i]? = some c) ∧ (u = s.dropCmd i))
  ∧ (∃ s : State, ∃ u : State, ∃ i : Nat, ∃ c : Cmd, ∃ b : List Byte, ∃ v : State, (s.executing 0x0B01 = some i) ∧ (s.desk.cmds[i]? = some c) ∧ (u = s.dropCmd i) ∧ (u.words [A.SYS_STATE, A.STIME_STATE, A.STIME_OFFSET] = (b, v)) ∧ ((List.range 4).flatMap (fun n => (List.range 5).flatMap fun k => beBytes 4 (u.cntReg (A.SP_DROP n (0x0A + k))).toNat) = (List.range 4).flatMap (fun n => (List.range 5).flatMap fun k => beBytes 4 (v.cntReg (A.SP_DROP n (0x0A + k))).toNat))) := by
  refine ⟨?_, ?_, ?_, ?_, ?_, ?_⟩
  · refine ⟨(inFlight 0x0A01 [] : State), _, (0 : Nat), (icmd 0x0A01 [] : Cmd), ([] : List VFile), ?_, ?_, rfl, ?_⟩ <;> decide
  · refine ⟨({ inFlight 0x0A02 [] with desk.files := [f0] } : State), _, (0 : Nat), (icmd 0x0A02 [] : Cmd), ([f0] : List VFile), (f0 : VFile), ?_, ?_, rfl, ?_, ?_, ?_, ?_⟩ <;> decide
  · refine ⟨(inFlight 0x0A03 (List.replicate 22 0) : State), _, (0 : Nat), (icmd 0x0A03 (List.replicate 22 0) : Cmd), _, _, _, ?_, ?_, rfl, rfl, rfl, rfl, ?_, ?_, ?_⟩ <;> decide
  · refine ⟨({ inFlight 0x0A04 [] with desk.files := [f0] } : State), _, (0 : Nat), (icmd 0x0A04 [] : Cmd), _, ([f0] : List VFile), (f0 : VFile), ?_, ?_, rfl, rfl, ?_, ?_, ?_⟩ <;> decide
  · refine ⟨(inFlight 0x0A05 [] : State), _, (0 : Nat), (icmd 0x0A05 [] : Cmd), ?_, ?_, rfl⟩ <;> decide
  · refine ⟨(inFlight 0x0B01 [] : State), _, (0 : Nat), (icmd 0x0B01 [] : Cmd), _, _, ?_, ?_, rfl, pair1 _, ?_⟩ <;> decide

theorem test_meets_FileAndDiagnosticCommands_2 :
  (∃ s : State, ∃ u : State, ∃ i : Nat, ∃ c : Cmd, ∃ b : List Byte, ∃ v : State, (s.executing 0x0B02 = some i) ∧ (s.desk.cmds[i]? = some c) ∧ (u = s.dropCmd i) ∧ (u.readWords ((List.range (byteAt c.body 4)).map fun k => beAt c.body 0 4 + 4 * k) [] = (.ok b, v)))
  ∧ (∃ s : State, ∃ u : State, ∃ i : Nat, ∃ c : Cmd, ∃ results : Nat, ∃ n : Nat, ∃ v : State, (s.executing 0x0B03 = some i) ∧ (s.desk.cmds[i]? = some c) ∧ (u = s.dropCmd i) ∧ (([1, 2, 3, 4, 5].foldl (fun (acc : Nat × State) t => if bit (byteAt c.body 0) (t - 1) then (acc.1 + b2n (acc.2.selftestOne t (bit results (t - 1))).1 * 2 ^ (t - 1), (acc.2.selftestOne t (bit results (t - 1))).2) else acc) (0, u) = (n, v))))
  ∧ (∃ s : State, ∃ u : State, ∃ i : Nat, ∃ c : Cmd, (s.executing 0x0B04 = some i) ∧ (s.desk.cmds[i]? = some c) ∧ (u = s.dropCmd i))
  ∧ (∃ s : State, ∃ u : State, ∃ i : Nat, ∃ c : Cmd, (s.executing 0x0B05 = some i) ∧ (s.desk.cmds[i]? = some c) ∧ (u = s.dropCmd i)) := by
  refine ⟨?_, ?_, ?_, ?_⟩
  · refine ⟨(inFlight 0x0B02 [] : State), _, (0 : Nat), (icmd 0x0B02 [] : Cmd), ([] : List Byte), _, ?_, ?_, rfl, pair_of (by decide)⟩ <;> decide
  · refine ⟨(inFlight 0x0B03 [] : State), _, (0 : Nat), (icmd 0x0B03 [] : Cmd), (0 : Nat), (0 : Nat), (W), ?_, ?_, rfl, pair1 _⟩ <;> decide
  · refine ⟨(inFlight 0x0B04 [] : State), _, (0 : Nat), (icmd 0x0B04 [] : Cmd), ?_, ?_, rfl⟩ <;> decide
  · refine ⟨(inFlight 0x0B05 [] : State), _, (0 : Nat), (icmd 0x0B05 [] : Cmd), ?_, ?_, rfl⟩ <;> decide

theorem test_meets_LifecycleCommands_1 :
  (∃ s : State, ∃ u : State, ∃ i : Nat, ∃ c : Cmd, (s.executing 0x0C01 = some i) ∧ (s.desk.cmds[i]? = some c) ∧ (u = s.dropCmd i) ∧ (sliceB c.body 0 16 = serial16) ∧ (u.otp.owner.isEmpty = true ∨ (sliceB c.body 16 32 = u.otp.owner ∧ sliceB c.body 48 32 = u.otp.unlock) ∨ (sliceB c.body 16 32 = List.replicate 32 0#8 ∧ sliceB c.body 48 32 = List.replicate 32 0#8)))
  ∧ (∃ s : State, ∃ u : State, ∃ i : Nat, ∃ c : Cmd, ∃ agree : Bool, (s.executing 0x0C02 = some i) ∧ (s.desk.cmds[i]? = some c) ∧ (u = s.dropCmd i) ∧ (u.lifecycle ≠ .returned) ∧ (u.lifecycle ≠ .decommissioned) ∧ ((u.unlockCheck (c.body.take 64) agree).rd F.CURTAIN_UNLOCK_STAT_RESULT = ulACCEPTED))
  ∧ (∃ s : State, ∃ u : State, ∃ i : Nat, ∃ c : Cmd, (s.executing 0x0C03 = some i) ∧ (s.desk.cmds[i]? = some c) ∧ (u = s.dropCmd i) ∧ (u.modeReq.isSome = false) ∧ ((u.desk.cmds.any fun x => x.op == 0x0C03 && x.phase == 2) = false) ∧ (¬(byteAt c.body 0 = 4 ∧ u.mode = .lead)) ∧ (u.requestOk (Mode.ofCode (byteAt c.body 0)) = true))
  ∧ (∃ s : State, ∃ u : State, ∃ i : Nat, ∃ c : Cmd, (s.executing 0x0C04 = some i) ∧ (s.desk.cmds[i]? = some c) ∧ (u = s.dropCmd i))
  ∧ (∃ s : State, ∃ u : State, ∃ i : Nat, ∃ c : Cmd, ∃ a : Ans, ∃ v : State, (s.executing 0x0C05 = some i) ∧ (s.desk.cmds[i]? = some c) ∧ (u = s.dropCmd i) ∧ (u.lcCmd c 3 = (a, v)))
  ∧ (∃ s : State, ∃ u : State, ∃ i : Nat, ∃ c : Cmd, ∃ a : Ans, ∃ v : State, (s.executing 0x0C06 = some i) ∧ (s.desk.cmds[i]? = some c) ∧ (u = s.dropCmd i) ∧ (u.lcCmd c 4 = (a, v))) := by
  refine ⟨?_, ?_, ?_, ?_, ?_, ?_⟩
  · refine ⟨(inFlight 0x0C01 serial16 : State), _, (0 : Nat), (icmd 0x0C01 serial16 : Cmd), ?_, rfl, rfl, ?_, ?_⟩
    · decide
    · exact (congrArg (fun l => sliceB l 0 16) (List.append_nil serial16).symm).trans (serial_slice [])
    · exact Or.inl (by decide)
  · refine ⟨(wUnlock : State), _, (0 : Nat), (icmd 0x0C02 token : Cmd), (true : Bool), ?_, rfl, rfl, ?_, ?_, ?_⟩
    · decide
    · decide
    · decide
    · exact unlock_check
  · refine ⟨({ inFlight 0x0C03 [2] with regs := (on (on W F.SYS_BOOT_FULL_OK) F.STIME_CTRL_FREE_OK).regs } : State), _, (0 : Nat), (icmd 0x0C03 [2] : Cmd), ?_, ?_, rfl, ?_, ?_, ?_, ?_⟩ <;> decide
  · refine ⟨(inFlight 0x0C04 [] : State), _, (0 : Nat), (icmd 0x0C04 [] : Cmd), ?_, ?_, rfl⟩ <;> decide
  · refine ⟨(inFlight 0x0C05 [] : State), _, (0 : Nat), (icmd 0x0C05 [] : Cmd), _, _, ?_, ?_, rfl, pair1 _⟩ <;> decide
  · refine ⟨(inFlight 0x0C06 [] : State), _, (0 : Nat), (icmd 0x0C06 [] : Cmd), _, _, ?_, ?_, rfl, pair1 _⟩ <;> decide

theorem test_meets_LifecycleCommands_2 :
  (∃ s : State, ∃ u : State, ∃ i : Nat, ∃ c : Cmd, ∃ a : Ans, ∃ v : State, (s.executing 0x0C07 = some i) ∧ (s.desk.cmds[i]? = some c) ∧ (u = s.dropCmd i) ∧ (u.lcCmd c (byteAt c.body 16) = (a, v))) := by
  refine ⟨(inFlight 0x0C07 [] : State), _, (0 : Nat), (icmd 0x0C07 [] : Cmd), _, _, ?_, ?_, rfl, pair1 _⟩ <;> decide

theorem test_meets_ResetAndStartUpCommands_1 :
  (∃ s : State, (s.power = true) ∧ (s.resetHeard = true))
  ∧ (∃ s : State, (s.live? = true) ∧ (s.boot.warmDue = true))
  ∧ (∃ s : State, ∃ a : State, ∃ b : State, ∃ c : State, ∃ cause : Nat, (s.boot.stwDue = some cause) ∧ (s.live? = true) ∧ (a = s.stewardWipe.closeAll.setCore 8 { CoreSt.reset with pc := 0x20000#32, running := true, cgear := (s.core 8).cgear }) ∧ (b = (a.wr F.SYS_RESET_CAUSE_CAUSE cause).sat F.SYS_RESET_CAUSE_STW_RESTARTS) ∧ (c = State.stewardCount (if cause = 4 then b.post 0x1003 7 8 [] else b)) ∧ (c.boot.restarts.length < 3))
  ∧ (∃ s : State, ∃ a : State, ∃ b : State, ∃ c : State, ∃ cause : Nat, (s.boot.stwDue = some cause) ∧ (s.live? = true) ∧ (a = s.stewardWipe.closeAll.setCore 8 { CoreSt.reset with pc := 0x20000#32, running := true, cgear := (s.core 8).cgear }) ∧ (b = (a.wr F.SYS_RESET_CAUSE_CAUSE cause).sat F.SYS_RESET_CAUSE_STW_RESTARTS) ∧ (c = State.stewardCount (if cause = 4 then b.post 0x1003 7 8 [] else b)) ∧ (3 ≤ c.boot.restarts.length) ∧ ∃ d : State, (d = State.post { c with boot.restarts := [] } 0x1004 7 8 []))
  ∧ (∃ s : State, (s.live? = true) ∧ (s.desk.running = false) ∧ (3 ≤ s.rd F.SYS_BOOT_STAGE) ∧ (s.rd F.SYS_BOOT_STAGE ≠ 14))
  ∧ (∃ s : State, ∃ u : State, (s.power = true) ∧ (u = State.refreshPins { s with pin.dead := true, boot.held := true })) := by
  refine ⟨?_, ?_, ?_, ?_, ?_, ?_⟩
  · refine ⟨(W), ?_, ?_⟩ <;> decide
  · refine ⟨({ W with boot.warmDue := true } : State), ?_, ?_⟩ <;> decide
  · refine ⟨({ W with boot.stwDue := some 4 } : State), _, _, _, (4 : Nat), ?_, ?_, rfl, rfl, rfl, ?_⟩ <;> decide
  · refine ⟨({ W with boot.stwDue := some 4, boot.restarts := [0, 0, 0] } : State), _, _, _, (4 : Nat), ?_, ?_, rfl, rfl, rfl, ?_, _, rfl⟩ <;> decide
  · refine ⟨(W.wr F.SYS_BOOT_STAGE 3 : State), ?_, ?_, ?_, ?_⟩ <;> decide
  · refine ⟨(W), _, ?_, rfl⟩
    decide

theorem test_meets_ResetAndStartUpCommands_2 :
  (∃ s : State, (s.live? = true) ∧ (s.boot.auxLost = false))
  ∧ (∃ s : State, (s.boot.auxLost = true))
  ∧ (∃ s : State, (s.power = true) ∧ (s.rd F.SYS_BOOT_STAGE = 0) ∧ (s.desk.running = false))
  ∧ (∃ s : State, ∃ u : State, ∃ diff : Int, (s.live? = true) ∧ (s.flag F.SYS_CLK_CFG_RECOVERED = true) ∧ (u = s.wr F.SYS_CLK_STAT_DIFF (unsigned 16 diff)) ∧ ((u.flag F.SYS_CLK_STAT_ON_RECOVERED || !u.linkUp (u.rd F.SYS_CLK_CFG_PORT) || decide (10000 < diff.natAbs)) = true))
  ∧ (∃ s : State, ∃ u : State, ∃ diff : Int, (s.live? = true) ∧ (s.flag F.SYS_CLK_CFG_RECOVERED = true) ∧ (u = s.wr F.SYS_CLK_STAT_DIFF (unsigned 16 diff)) ∧ ((u.flag F.SYS_CLK_STAT_ON_RECOVERED || !u.linkUp (u.rd F.SYS_CLK_CFG_PORT) || decide (10000 < diff.natAbs)) = false))
  ∧ (∃ s : State, ∃ u : State, (s.live? = true) ∧ (s.flag F.SYS_CLK_STAT_ON_RECOVERED = true) ∧ (u = (s.wr F.SYS_CLK_STAT_ON_RECOVERED 0).sat F.SYS_CLK_STAT_FALLBACKS)) := by
  refine ⟨?_, ?_, ?_, ?_, ?_, ?_⟩
  · refine ⟨(W), ?_, ?_⟩ <;> decide
  · refine ⟨({ W with boot.auxLost := true } : State), ?_⟩
    decide
  · refine ⟨(W), ?_, ?_, ?_⟩ <;> decide
  · refine ⟨(on W F.SYS_CLK_CFG_RECOVERED : State), _, (0 : Int), ?_, ?_, rfl, ?_⟩ <;> decide
  · refine ⟨(on (up W 0) F.SYS_CLK_CFG_RECOVERED : State), _, (0 : Int), ?_, ?_, rfl, ?_⟩ <;> decide
  · refine ⟨(on W F.SYS_CLK_STAT_ON_RECOVERED : State), _, ?_, ?_, rfl⟩ <;> decide

theorem test_meets_ResetAndStartUpCommands_3 :
  (∃ s : State, (s.mode = .rehearsal) ∧ (s.desk.running = true) ∧ (s.rd F.SYS_BOOT_STAGE = 3) ∧ (s.cfg ≠ 0))
  ∧ (∃ s : State, ∃ smp : Nat, ∃ arr : Nat, ∃ avg : Nat, (s.boot.aligning = true) ∧ (s.desk.running = true) ∧ (s.servo = servoFREERUN) ∧ (s.pendingIn Base.STIME = false) ∧ (s.boot.aligned = false))
  ∧ (∃ s : State, ∃ smp : Nat, ∃ arr : Nat, ∃ avg : Nat, (s.boot.aligning = true) ∧ (s.desk.running = true) ∧ (s.servo = servoFREERUN) ∧ (s.pendingIn Base.STIME = false) ∧ (s.boot.aligned = true) ∧ ((avg < 10 * ticksPerUs ∨ 30 * ticksPerUs < avg)))
  ∧ (∃ s : State, ∃ smp : Nat, ∃ arr : Nat, ∃ avg : Nat, (s.boot.aligning = true) ∧ (s.desk.running = true) ∧ (s.servo = servoFREERUN) ∧ (s.pendingIn Base.STIME = false) ∧ (s.boot.aligned = true) ∧ (¬(avg < 10 * ticksPerUs ∨ 30 * ticksPerUs < avg)))
  ∧ (∃ s : State, ∃ u : State, ∃ a : State, ∃ b : State, ∃ m : Mode, (s.mode = .rehearsal) ∧ (s.desk.running = true) ∧ (s.boot.settling = false) ∧ (u = s.verifyFull) ∧ (u.rd F.SYS_BOOT_STAGE = 5) ∧ (u.timeFit = true) ∧ (u.commitsDone = true) ∧ (u.modeReq.isSome = false) ∧ (u.settledMode = some m) ∧ (a = State.loadCues ((List.range 8).foldl State.holdCore (u.put8 A.CUE_CTRL 0)) (Config.cueImage (State.peek ((List.range 8).foldl State.holdCore (u.put8 A.CUE_CTRL 0)) 0x20880000 0x50000))) ∧ (b = a.put8 A.SYS_MODE_REQ (BitVec.ofNat 32 (2 ^ 31 + m.code)))) := by
  refine ⟨?_, ?_, ?_, ?_, ?_⟩
  · refine ⟨({ W.wr F.SYS_BOOT_STAGE 3 with desk.running := true, cfg := 1 } : State), ?_, ?_, ?_, ?_⟩ <;> decide
  · refine ⟨({ W with desk.running := true, boot.aligning := true } : State), (0 : Nat), (0 : Nat), (0 : Nat), ?_, ?_, ?_, ?_, ?_⟩ <;> decide
  · refine ⟨({ W with desk.running := true, boot.aligning := true, boot.aligned := true } : State), (0 : Nat), (0 : Nat), (0 : Nat), ?_, ?_, ?_, ?_, ?_, ?_⟩ <;> decide
  · refine ⟨({ W with desk.running := true, boot.aligning := true, boot.aligned := true } : State), (0 : Nat), (0 : Nat), (20 * ticksPerUs : Nat), ?_, ?_, ?_, ?_, ?_, ?_⟩ <;> decide
  · refine ⟨({ on (W.wr F.SYS_BOOT_STAGE 5) F.STIME_CTRL_FREE_OK with desk.running := true } : State), _, _, _, (.lead : Mode), ?_, ?_, ?_, rfl, ?_, ?_, ?_, ?_, ?_, rfl, rfl⟩ <;> decide

/-- The state with one live register word put. -/
def lived (s : State) (a : Nat) (w : Word) : State := { s with live := [(a, w)] }
/-- A trunk refusal of a core store, with no address. -/
def vf : Viol := { vl with av := false }
/-- A full queue of eight entries. -/
def qFull : QRec := { qOn with tail := 8 }
/-- A key in a duplicate table. -/
def dd0 : DdEntry := { smac := 1, seq := 2, made := 0 }
/-- The first `n` tickets taken. -/
def taken (n : Nat) : State := { W with cue.tickets := (List.range n).map fun j => (j, some tk) }

theorem look_taken (l : List Nat) (k : Nat) (h : k ∈ l) : look noneAt (l.map fun j => (j, some tk)) k = some tk := by
  induction l with
  | nil => cases h
  | cons a l ih =>
    show (if k = a then some tk else look noneAt (l.map fun j => (j, some tk)) k) = some tk
    split
    · rfl
    · exact ih ((List.mem_cons.1 h).resolve_left ‹_›)

theorem pick_field {a : Nat} {p : FDesc → Bool} (h : ((descOf a).map fun d => d.flds.any p) = some true) : ∃ d f, descOf a = some d ∧ f ∈ d.flds ∧ p f = true := by
  cases hd : descOf a with
  | none => rw [hd] at h; cases h
  | some d =>
    rw [hd] at h
    have h2 : d.flds.any p = true := Option.some.inj h
    obtain ⟨f, hf, hp⟩ := List.any_eq_true.1 h2
    exact ⟨d, f, rfl, hf, hp⟩

theorem test_meets_StepRunsFrontCommand : ∃ (s : State) (c : Instr) (rest : List Instr), s.pending = c :: rest :=
  ⟨{ W with pending := [.pulseEnd 0, .pulseEnd 255] }, _, _, rfl⟩

theorem test_meets_IdleStepIsOneClockCycle : (∃ s : State, s.pending = [] ∧ s.timeRuns = true) ∧ ∃ s : State, s.pending = [] ∧ s.timeRuns = false :=
  ⟨⟨W, rfl, by decide⟩, ⟨{ W with power := false }, rfl, by decide⟩⟩

theorem test_meets_EveryStepKeepsInv : ∃ s t : State, s.Inv ∧ step s = .next t :=
  ⟨{ W with pending := [.pulseEnd 0], book.inFifo := List.replicate 64 fillerRec }, _,
    ⟨⟨rfl, rfl, rfl, rfl⟩, ⟨by decide, by decide, by decide, by decide, by decide⟩⟩, rfl⟩

theorem test_meets_VoidedMasksGrantNothing :
    (∃ (d : Decider) (i : Nat), 25 ≤ i ∧ i ≤ 31 ∧ d.rmask.getLsbD i = true)
    ∧ (∃ (s : State) (m a n o i : Nat), targetOf m a = .terrace n o ∧ 25 ≤ i ∧ i ≤ 31 ∧ (trunkDecider s a).rmask.getLsbD i = true)
    ∧ (∃ (s : State) (m a n o i : Nat), targetOf m a = .terrace n o ∧ 25 ≤ i ∧ i ≤ 31 ∧ (trunkDecider s a).wmask.getLsbD i = true)
    ∧ (∃ (s : State) (m a n o i : Nat), targetOf m a = .bedrock n o ∧ 25 ≤ i ∧ i ≤ 31 ∧ (bedDecider s a).rmask.getLsbD i = true)
    ∧ (∃ (s : State) (a u i : Nat), 0x30000 ≤ a ∧ leafUnit a = some u ∧ 25 ≤ i ∧ i ≤ 31 ∧ (leafDecider s u a).wmask.getLsbD i = true)
    ∧ (∃ (j : ChJob) (u : Nat), opUse j.op = some u) :=
  ⟨⟨⟨0, 0x02000000#32, 0⟩, 25, by decide, by decide, by decide⟩,
   ⟨lived W (A.COL_TRUNK_BANK_RMASK 0) 0x02000000#32, 0, 0x10000000, 0, 0, 25, by decide, by decide, by decide, by decide⟩,
   ⟨lived W (A.COL_TRUNK_BANK_WMASK 63) 0x80000000#32, 24, 0x10FFFFFF, 63, 0x3FFFF, 31, by decide, by decide, by decide, by decide⟩,
   ⟨lived W A.COL_BED_DEF_RMASK 0x80000000#32, 8, 0x20000000, 0, 0, 31, by decide, by decide, by decide, by decide⟩,
   ⟨lived W (A.COL_LEAF_DEF_WMASK 0) 0x02000000#32, 0x40000000, 0, 25, by decide, by decide, by decide, by decide, by decide⟩,
   ⟨{ cj with op := 1 }, _, rfl⟩⟩

theorem not_terrace (n o : Nat) : targetOf 0 0x40010000 ≠ .terrace n o := by
  intro h
  rw [show targetOf 0 0x40010000 = .block 1 by decide] at h
  cases h

theorem test_meets_ViolationFifo :
    (∃ (s : State) (v : Viol), s.viol.length < 32 ∧ (v.av = true ∨ ∀ w, s.viol.getLast? = some w → w.av = true ∨ w.master ≠ v.master))
    ∧ (∃ (s : State) (v w : Viol) (l : List Viol), v.av = false ∧ w.av = false ∧ w.master = v.master ∧ s.viol = l ++ [w])
    ∧ (∃ (s : State) (v : Viol), s.viol.length = 32 ∧ (v.av = true ∨ ∀ w, s.viol.getLast? = some w → w.av = true ∨ w.master ≠ v.master))
    ∧ (∃ (s : State) (m n o len a : Nat) (k : AccKind), targetOf m a = .terrace n o ∧ (colCheck s m a len k).isSome = true)
    ∧ (∃ (s : State) (m len a : Nat) (k : AccKind), (∀ n o, targetOf m a ≠ .terrace n o) ∧ (colCheck s m a len k).isSome = true)
    ∧ (∃ (s : State) (m : Nat) (v : Viol) (rest : List Viol), s.Quiet ∧ s.mayRead m A.COL_VIOL_POP = true ∧ s.viol = v :: rest) :=
  ⟨⟨{ W with viol := List.replicate 31 vl }, vl, by decide, Or.inl rfl⟩, ⟨{ W with viol := [vf] }, vf, vf, [], rfl, rfl, rfl, rfl⟩,
   ⟨{ W with viol := List.replicate 32 vl }, vl, by decide, Or.inl rfl⟩, ⟨W, 0, 0, 0, 4, 0x10000000, .write, by decide, by decide⟩,
   ⟨W, 0, 4, 0x40010000, .write, not_terrace, by decide⟩,
   ⟨{ W with viol := [vl] }, 8, vl, [], ⟨rfl, rfl⟩, by decide, rfl⟩⟩

theorem test_meets_HardRefusals :
    (∃ (s : State) (m a : Nat), s.live? = true ∧ m ≠ 8 ∧ hardProtected a ∧ a = Base.COL) ∧ (∃ (s : State) (m a : Nat), s.live? = true ∧ m ≠ 8 ∧ hardProtected a ∧ a = Base.SOLOIST + 0xFFFC)
    ∧ (∃ (s : State) (v : Viol), v.hard = true ∧ s.book.inFifo.length < 63) :=
  ⟨⟨W, 0, _, by decide, by decide, Or.inl ⟨by decide, by decide⟩, rfl⟩,
   ⟨W, 24, _, by decide, by decide, Or.inr (Or.inr (Or.inr (Or.inr (Or.inr (Or.inr (Or.inr ⟨by decide, by decide⟩)))))), rfl⟩,
   ⟨{ W with book.inFifo := List.replicate 62 fillerRec }, { vl with hard := true }, rfl, by decide⟩⟩

theorem test_meets_FullQueueRefusesEnqueue :
    (∃ (s : State) (m q : Nat), q < 262144 ∧ s.Quiet ∧ s.admits m (0x34000000 + 8 * q) 8 .write = true ∧ (s.queue q).v = true ∧
      s.mayProduce m (s.queue q) = true ∧ (s.queue q).esize = 0 ∧ (s.queue q).fill = (s.queue q).ringLen)
    ∧ (∃ (s : State) (c : Copy) (rest : List Copy), s.wing.copies = c :: rest ∧ (s.queue c.queue).v = true ∧ (s.queue c.queue).fill = (s.queue c.queue).ringLen)
    ∧ (∃ (s : State) (q : Nat), (s.queue q).v = true ∧ (s.queue q).fill = (s.queue q).ringLen) :=
  ⟨⟨{ allM W with wing.queues := [(262143, qFull)] }, 8, 262143, by decide, ⟨rfl, rfl⟩, by decide, by decide, by decide, by decide, by decide⟩,
   ⟨{ wq qFull with wing.copies := [{ queue := 0, master := 8, bytes := [] }] }, _, _, rfl, by decide, by decide⟩, ⟨wq qFull, 0, by decide, by decide⟩⟩

theorem test_meets_EnqueueStoresOneEntry :
    ∃ (s t u : State) (m q : Nat) (d : DWord), q < 262144 ∧ s.Quiet ∧ s.admits m (0x34000000 + 8 * q) 8 .write = true ∧ (s.queue q).v = true ∧
      s.mayProduce m (s.queue q) = true ∧ (s.queue q).esize = 0 ∧ (s.queue q).fill ≠ (s.queue q).ringLen ∧
      s.dmaWrite m ((s.queue q).slot (s.queue q).tail) (leBytes 8 d.toNat) = (none, u) ∧ exec (.enqueueStore m q d) s = .next t ∧ t.terr.blocked = s.terr.blocked :=
  ⟨wq qOn, _, _, 8, 0, 5#64, by decide, ⟨rfl, rfl⟩, by decide, by decide, by decide, by decide, by decide, pair_of (by decide), rfl, by decide⟩

theorem test_meets_ZeroRegisterAndCoreReset :
    ∃ (s t : State) (m n : Nat) (pc : Word), n < 8 ∧ s.Quiet ∧ s.mayWrite m (A.IRQ_CORE_CTRL n) = true ∧ s.mode ≠ .curtain ∧
      pc.getLsbD 31 = false ∧ exec (.coreStart m n pc) s = .next t :=
  ⟨W, _, 8, 7, 0x100#32, by decide, ⟨rfl, rfl⟩, by decide, by decide, by decide, rfl⟩

theorem test_meets_InterruptTakenAtBoundary :
    (∃ (s : State) (n : Nat), s.live? = true ∧ s.coreHeld n = false ∧ (s.core n).shield = false ∧ (s.core n).exl = false ∧ (s.core n).ie = true ∧
      ∃ l, l < 32 ∧ (s.ipend n).getLsbD l = true ∧ (s.core n).ienable.getLsbD l = true)
    ∧ (∃ (s : State) (n : Nat), (s.core n).exl = true) ∧ (∃ (s : State) (n : Nat), (s.core n).ie = false)
    ∧ (∃ (s : State) (n : Nat), ∀ l, l < 32 → ((s.ipend n).getLsbD l && (s.core n).ienable.getLsbD l) = false)
    ∧ (∃ (s t : State) (n : Nat), exec (.interruptEntry n) s = .next t) :=
  ⟨⟨irqCore false, 0, by decide, by decide, by decide, by decide, by decide, 0, by decide, by decide +kernel, by decide⟩,
   ⟨coreW 0 { running with xstat := 4 }, 0, by decide⟩, ⟨W, 8, by decide⟩,
   ⟨W, 0, fun l _ => by rw [show (W.core 0).ienable = 0#32 from rfl]; simp⟩, ⟨W, _, 0, rfl⟩⟩

theorem test_meets_ExceptionEntryAndReturn : ∃ y : Syl, y.op = 7 := ⟨{ addr := 0, word := 0xD1C00000#32, ks := [] }, by decide⟩

theorem test_meets_DoubleTakeOutcomes :
    (∃ (s q : State) (g : Nat) (l : List (Nat × Word)), q = { s with live := l } ∧ q.lvFlag (F.DTAKE_GROUP_A_EN g) = false)
    ∧ (∃ (s q : State) (g : Nat) (l : List (Nat × Word)) (bs : List Byte), q = { s with live := l } ∧ q.lvFlag (F.DTAKE_GROUP_A_EN g) = true ∧
      s.terr.bad.contains (q.dtBlock g) = false ∧ s.terr.bad.contains (q.dtBlock g + 8) = false ∧ bs = s.peek (q.dtBlock g) 8 ++ s.peek (q.dtBlock g + 8) 8)
    ∧ (∃ a b : Nat × Nat, a ≠ b) ∧ (∃ (s : State) (v : Nat), v = dtCHECK_FAIL ∧ s.book.inFifo.length < 64) :=
  ⟨⟨W, _, 15, [], rfl, by decide⟩, ⟨W, _, 0, [(A.DTAKE_GROUP_A 0, 0xFFFFFFFF#32)], _, rfl, by decide, rfl, rfl, rfl⟩,
   ⟨(dtAGREE, 1), (dtAGREE, 2), by decide⟩, ⟨{ W with book.inFifo := List.replicate 63 fillerRec }, _, rfl, by decide⟩⟩

theorem test_meets_ReplayWindow :
    (∃ x : Sess, x.high ≠ 0xFFFFFFFF) ∧ (∃ x : Sess, x.high = 0xFFFFFFFF) ∧ (∃ (x : Sess) (seq : Nat), x.fresh seq = true)
    ∧ (∃ (x : Sess) (seq k : Nat), x.fresh seq = true ∧ x.fresh k = false ∧ x.high ≠ 0xFFFFFFFF)
    ∧ (∃ (x : Sess) (seq k : Nat), x.fresh seq = true ∧ x.fresh k = true ∧ k ≠ seq ∧ seq ≠ 0xFFFFFFFF ∧ max x.high seq < k + 64) :=
  ⟨⟨{ sess0 with high := 0xFFFFFFFE }, by decide⟩, ⟨{ sess0 with high := 0xFFFFFFFF }, rfl⟩, ⟨sess0, 1, by decide⟩,
   ⟨{ sess0 with high := 64 }, 1, 0, by decide, by decide, by decide⟩, ⟨sess0, 64, 1, by decide, by decide, by decide, by decide, by decide⟩⟩

theorem test_meets_InputFifoFull : (∃ s : State, s.book.inFifo.length = 64) ∧ ∃ s : State, s.book.inFifo.length < 64 :=
  ⟨⟨{ W with book.inFifo := List.replicate 64 fillerRec }, by decide⟩, ⟨{ W with book.inFifo := List.replicate 63 fillerRec }, by decide⟩⟩

theorem test_meets_ReaderAndTagExclude :
    (∃ (s : State) (c : Instr) (uid data : List Byte) (p n lost : Nat) (strong : Bool), s.badge.carrier = true ∧
      c ∈ [Instr.reqa, .wupa, .anticollision, .select uid, .rats, .pps, .hlta, .tagDeselect, .tagRead p n, .writeMb p n data strong lost])
    ∧ (∃ (s t : State) (c : Instr) (m rate len : Nat), rate < 4 ∧ len ≤ 256 ∧
      c ∈ [Instr.fieldOn m, .fieldOff m, .activate m rate, .exchange m len, .deselect m] ∧ s.Quiet ∧ s.mayWrite m A.BADGE_RD_CTRL = true ∧
      s.badge.op = none ∧ s.readerOk = true ∧ s.flag F.BADGE_STAT_EXT_FIELD = true ∧ exec c s = .next t) :=
  ⟨⟨{ W with badge.carrier := true }, .reqa, [], [], 0, 0, 0, false, rfl, List.mem_cons_self ..⟩,
   ⟨on rdr F.BADGE_STAT_EXT_FIELD, _, .fieldOn 8, 8, 3, 256, by decide, by decide, List.mem_cons_self .., by decide, by decide, by decide, by decide, by decide, rfl⟩⟩

theorem test_meets_WriteProtectedCard :
    (∃ (s a b c d : State) (m card blocks : Nat) (lba buf : Word), card < 4 ∧ 1 ≤ blocks ∧ blocks < 65536 ∧ s.mayWrite m A.CART_LBA = true ∧
      a = (s.setReg A.CART_LBA lba).settle ∧ a.mayWrite m A.CART_BUF = true ∧ b = (a.setReg A.CART_BUF buf).settle ∧ b.mayWrite m A.CART_XFER = true ∧
      c = b.setReg A.CART_XFER (setBits (BitVec.ofNat 32 (2 ^ 31 + 2 * 2 ^ 28 + card * 2 ^ 26 + blocks) &&& 0x7C00FFFF#32) 30 28 2) ∧ c.mode ≠ .curtain ∧ c.cart.op = none ∧
      d = c.wr F.CART_STAT_DONE_BLOCKS 0 ∧ d.flag F.CART_CFG_EN = true ∧ d.flag F.CART_STAT_PRESENT = true ∧ d.flag (F.CART_CARD_V card) = true ∧
      d.flag (F.CART_CARD_LOCKED card) = false ∧ d.flag (F.CART_CARD_PERM_WP card) = true)
    ∧ (∃ (s a b c d : State) (m card blocks : Nat) (lba buf : Word), card < 4 ∧ 1 ≤ blocks ∧ blocks < 65536 ∧ s.mayWrite m A.CART_LBA = true ∧
      a = (s.setReg A.CART_LBA lba).settle ∧ a.mayWrite m A.CART_BUF = true ∧ b = (a.setReg A.CART_BUF buf).settle ∧ b.mayWrite m A.CART_XFER = true ∧
      c = b.setReg A.CART_XFER (setBits (BitVec.ofNat 32 (2 ^ 31 + 2 * 2 ^ 28 + card * 2 ^ 26 + blocks) &&& 0x7C00FFFF#32) 30 28 2) ∧ c.mode ≠ .curtain ∧ c.cart.op = none ∧
      d = c.wr F.CART_STAT_DONE_BLOCKS 0 ∧ d.flag F.CART_CFG_EN = true ∧ d.flag F.CART_STAT_PRESENT = true ∧ d.flag (F.CART_CARD_V card) = true ∧
      d.flag (F.CART_CARD_LOCKED card) = true)
    ∧ (∃ res : Nat, res = ctPROTECTED ∨ res = ctLOCKED) :=
  ⟨⟨on cart0 (F.CART_CARD_PERM_WP 0), _, _, _, _, 8, 0, 65535, 0#32, 0#32, by decide, by decide, by decide, by decide, rfl, by decide, rfl, by decide, rfl,
     by decide, by decide, rfl, by decide, by decide, by decide, by decide, by decide⟩,
   ⟨on cart0 (F.CART_CARD_LOCKED 0), _, _, _, _, 8, 0, 1, 0#32, 0#32, by decide, by decide, by decide, by decide, rfl, by decide, rfl, by decide, rfl,
     by decide, by decide, rfl, by decide, by decide, by decide, by decide⟩, ⟨_, Or.inl rfl⟩⟩

theorem dd_full (n : Nat) : (State.ddExpire { W with ports.dd := [(0, List.replicate n dd0)] } 0).ddTable 0 = List.replicate n dd0 := by
  have h2 : (List.replicate n dd0).filter (fun e => decide (W.now < e.made + W.rd (F.SWITCH_RED_CFG_DD_AGE 0) * ticksPerMs)) = List.replicate n dd0 :=
    List.filter_eq_self.2 fun e he => by rw [List.eq_of_mem_replicate he]; decide
  exact (look_put (fun _ => []) [(0, List.replicate n dd0)] 0 _ 0).trans ((if_pos rfl).trans h2)

theorem test_meets_DuplicateDiscard :
    (∃ (s u : State) (p smac seq : Nat), u = s.ddExpire p ∧ ∃ e ∈ u.ddTable p, e.smac = smac ∧ e.seq = seq)
    ∧ (∃ (s u : State) (p smac seq : Nat), u = s.ddExpire p ∧ (∀ e ∈ u.ddTable p, ¬(e.smac = smac ∧ e.seq = seq)) ∧ (u.ddTable p).length < 4096)
    ∧ (∃ (s u : State) (p smac seq : Nat) (f : Fld), u = s.ddExpire p ∧ f = (if p = 0 then F.SWITCH_DD_EVICT_EVICT_0 else F.SWITCH_DD_EVICT_EVICT_1) ∧
      (∀ e ∈ u.ddTable p, ¬(e.smac = smac ∧ e.seq = seq)) ∧ (u.ddTable p).length = 4096) :=
  ⟨⟨{ W with ports.dd := [(0, List.replicate 1 dd0)] }, _, 0, 1, 2, rfl, dd0, by rw [dd_full]; exact List.mem_cons_self .., rfl, rfl⟩,
   ⟨{ W with ports.dd := [(0, List.replicate 4095 dd0)] }, _, 0, 1, 3, rfl,
     fun e he => by rw [dd_full] at he; rw [List.eq_of_mem_replicate he]; decide, by rw [dd_full, List.length_replicate]; decide⟩,
   ⟨{ W with ports.dd := [(0, List.replicate 4096 dd0)] }, _, 0, 2, 2, _, rfl, rfl,
     fun e he => by rw [dd_full] at he; rw [List.eq_of_mem_replicate he]; decide, by rw [dd_full, List.length_replicate]⟩⟩

theorem taken_some (n j : Nat) (h : j < n) : (taken n).ticket j ≠ none := by
  rw [show (taken n).ticket j = some tk from look_taken _ j (List.mem_range.2 h)]
  exact Option.some_ne_none tk

theorem test_meets_TicketLowestFree :
    (∃ (s : State) (t : Nat), t < 1024 ∧ s.ticket t = none ∧ ∀ j, j < t → s.ticket j ≠ none) ∧ (∃ s : State, ∀ j, j < 1024 → s.ticket j ≠ none) :=
  ⟨⟨taken 1023, 1023, by decide, by decide +kernel, taken_some 1023⟩, ⟨taken 1024, taken_some 1024⟩⟩

theorem test_meets_StagedWrites :
    (∃ (s : State) (base : Nat), s.pendingIn base = true) ∧ (∃ (s : State) (base : Nat), s.pendingIn base = false)
    ∧ (∃ (s : State) (m b w c : Nat), b < 13 ∧ w < 4 ∧ c < 16384 ∧ s.Quiet ∧ s.mayWrite m (A.BLOCK_COMMIT (pairedBase b)) = true ∧ s.pendingIn (pairedBase b) = true) :=
  ⟨⟨on W (F.BLOCK_COMMIT_STATUS_PENDING Base.CUE), Base.CUE, by decide⟩, ⟨W, Base.COL, by decide⟩,
   ⟨on W (F.BLOCK_COMMIT_STATUS_PENDING (pairedBase 12)), 8, 12, 3, 16383, by decide, by decide, by decide, ⟨rfl, rfl⟩, by decide, by decide⟩⟩

theorem test_meets_ReservedEncodingsKeepField :
    (∃ (a : Nat) (d : RDesc) (f : FDesc), descOf a = some d ∧ f ∈ d.flds ∧ (f.acc = .rw ∧ f.legalVal (getBits 0xFFFFFFFF#32 f.hi f.lo) = false))
    ∧ (∃ (a : Nat) (d : RDesc) (f : FDesc), descOf a = some d ∧ f ∈ d.flds ∧ f.acc = .ro)
    ∧ (∃ (s : State) (a : Nat) (d : RDesc) (f : FDesc), descOf a = some d ∧ f ∈ d.flds ∧ f.lk = true ∧ s.lkClosed = true)
    ∧ (∃ (a : Nat) (d : RDesc) (f : FDesc), descOf a = some d ∧ f ∈ d.flds ∧ f.acc = .rw ∧ f.legalVal (getBits 0#32 f.hi f.lo) = true ∧ f.lk = false)
    ∧ (∃ (a : Nat) (d : RDesc) (f : FDesc), descOf a = some d ∧ f ∈ d.flds ∧ f.acc = .w1c ∧ f.lk = false) := by
  obtain ⟨d1, f1, a1, b1, c1⟩ := pick_field (a := A.IRQ_ROUTE 0) (p := fun f => decide (f.acc = .rw) && !f.legalVal (getBits 0xFFFFFFFF#32 f.hi f.lo)) (by decide)
  obtain ⟨d2, f2, a2, b2, c2⟩ := pick_field (a := A.SYS_STATE) (p := fun f => decide (f.acc = .ro)) (by decide)
  obtain ⟨d3, f3, a3, b3, c3⟩ := pick_field (a := A.SCREE_HEALTH) (p := fun f => f.lk) (by decide)
  obtain ⟨d4, f4, a4, b4, c4⟩ := pick_field (a := A.IRQ_ROUTE 0) (p := fun f => decide (f.acc = .rw) && f.legalVal (getBits 0#32 f.hi f.lo) && !f.lk) (by decide)
  obtain ⟨d5, f5, a5, b5, c5⟩ := pick_field (a := A.STIME_STATE) (p := fun f => decide (f.acc = .w1c) && !f.lk) (by decide)
  simp only [Bool.and_eq_true, decide_eq_true_eq, Bool.not_eq_true'] at c1 c2 c4 c5
  exact ⟨⟨_, d1, f1, a1, b1, c1⟩, ⟨_, d2, f2, a2, b2, c2⟩, ⟨W, _, d3, f3, a3, b3, c3, by decide⟩, ⟨_, d4, f4, a4, b4, c4.1.1, c4.1.2, c4.2⟩, ⟨_, d5, f5, a5, b5, c5⟩⟩

theorem test_meets_RegisterReadsFrame :
    (∃ (s t : State) (m : Nat), s.Quiet ∧ s.mayRead m A.STIME_NOW_LO = true ∧ exec (.stimeNowRead m) s = .next t)
    ∧ (∃ (s t : State) (m : Nat), s.Quiet ∧ s.mayRead m A.STIME_FRAME_LO = true ∧ exec (.stimeFrameRead m) s = .next t)
    ∧ (∃ (s t : State) (m : Nat), s.Quiet ∧ s.mayRead m A.STIME_COARSE_LO = true ∧ exec (.stimeCoarseRead m) s = .next t)
    ∧ (∃ (s t : State) (m : Nat), s.Quiet ∧ s.mayRead m A.COL_VIOL_POP = true ∧ exec (.colViolPop m) s = .next t)
    ∧ (∃ (s t : State) (m : Nat), s.Quiet ∧ s.mayRead m A.BRK_PATROL_POP = true ∧ exec (.patrolPop m) s = .next t)
    ∧ (∃ (s t : State) (m n : Nat), n < 9 ∧ s.Quiet ∧ s.mayRead m (A.IRQ_LATE_POP n) = true ∧ exec (.lateErrorPop m n) s = .next t)
    ∧ (∃ (s t : State) (m q : Nat), q < 262144 ∧ s.Quiet ∧ s.admits m (0x34000000 + 8 * q) 8 .read = true ∧ exec (.enqueueWindowLoad m q) s = .next t)
    ∧ (∃ (s t : State) (m q : Nat), q < 262144 ∧ s.Quiet ∧ s.admits m (0x34400000 + 8 * q) 8 .read = true ∧ (s.queue q).v = true ∧
      s.mayConsume m (s.queue q) = true ∧ exec (.dequeueLoad m q) s = .next t)
    ∧ (∃ (s t : State) (m : Nat), s.Quiet ∧ s.mayRead m A.SCREE_RAND = true ∧ s.entropyOk = true ∧ exec (.screeRandRead m) s = .next t)
    ∧ (∃ (s t : State) (m : Nat), s.Quiet ∧ s.mayRead m A.BADGE_STAT = true ∧ exec (.badgeStatRead m) s = .next t) :=
  ⟨⟨W, _, 8, ⟨rfl, rfl⟩, by decide, rfl⟩, ⟨W, _, 8, ⟨rfl, rfl⟩, by decide, rfl⟩, ⟨W, _, 8, ⟨rfl, rfl⟩, by decide, rfl⟩, ⟨{ W with viol := [vl] }, _, 8, ⟨rfl, rfl⟩, by decide, rfl⟩,
   ⟨{ W with brk.patrol := [(2, 3, 4)] }, _, 8, ⟨rfl, rfl⟩, by decide, rfl⟩, ⟨coreW 8 { running with late := [le0] }, _, 8, 8, by decide, ⟨rfl, rfl⟩, by decide, rfl⟩,
   ⟨wq qOn, _, 8, 262143, by decide, ⟨rfl, rfl⟩, by decide, rfl⟩, ⟨wq qOn, _, 8, 0, by decide, ⟨rfl, rfl⟩, by decide, by decide, by decide, rfl⟩,
   ⟨on W F.SCREE_STAT_INSTANTIATED, _, 8, ⟨rfl, rfl⟩, by decide, by decide, rfl⟩, ⟨W, _, 8, ⟨rfl, rfl⟩, by decide, rfl⟩⟩

theorem test_meets_CounterClearsFrame :
    ∃ (s t : State) (c : Instr) (m k a : Nat) (w : Word), k < 3 ∧
      (c, a) ∈ [(Instr.soloistCntClear m k w, A.SOLOIST_CNT k), (.understudyCntClear m k w, A.UNDERSTUDY_CNT_A + 4 * k), (.troupeCntClear m w, A.TROUPE_CNT),
        (.chorusCntClear m w, A.CHORUS_CNT), (.massifCntClear m w, A.MASSIF_CNT), (.dtakeCntClear m w, A.DTAKE_CNT_A), (.brkEccClear m w, A.BRK_ECC),
        (.hostCntClear m w, A.HOST_CNT)] ∧ s.Quiet ∧ s.mayWrite m a = true ∧ exec c s = .next t :=
  ⟨W, _, .soloistCntClear 8 2 0#32, 8, 2, _, 0#32, by decide, List.mem_cons_self .., ⟨rfl, rfl⟩, by decide, rfl⟩

theorem test_meets_BedrockCommandFrame :
    ∃ (s t : State) (b : Nat) (ok : Bool) (c : BrkCmd), s.brkRunning b = some c ∧ exec (.bedrockCmdDone b ok) s = .next t ∧ ¬brkStores c 0x20000000 :=
  ⟨{ W with brk.cmds := [{ bc with started := true }] }, _, 0, true, { bc with started := true }, by decide, rfl,
   fun h => by rcases h with h | h | h <;> first | exact absurd h.1 (by decide) | exact absurd h.2.1 (by decide)⟩

end Sys2Proof.Tests
end

section
/-! Reserved mask bits (R33): what a set bit among 25 to 31 does at a Col decider, in a Wings profile and in a Chorus key slot. -/

namespace Sys2Proof.Machine

/-- A field that covers a set bit is not zero. -/
theorem getBits_ne_zero_of_getLsbD {w : Word} {hi lo i : Nat} (hlo : lo ≤ i) (hhi : i ≤ hi) (h : w.getLsbD i = true) : getBits w hi lo ≠ 0 := by
  intro h0
  have hbit : (getBits w hi lo).testBit (i - lo) = true := by
    rw [getBits_testBit, Nat.add_sub_cancel' hlo, BitVec.testBit_toNat, h, Bool.and_true, decide_eq_true_eq]
    omega
  rw [h0, Nat.zero_testBit] at hbit
  cases hbit

/-- R33: either mask's reserved bit voids both masks. -/
theorem Decider.grants_eq_false_of_reserved {d : Decider} {i : Nat} (hlo : 25 ≤ i) (hhi : i ≤ 31)
    (h : d.rmask.getLsbD i = true ∨ d.wmask.getLsbD i = true) (m : Nat) (k : AccKind) : d.grants m k = false := by
  unfold Decider.grants
  rcases h with hr | hw
  · rw [beq_false_of_ne (getBits_ne_zero_of_getLsbD hlo hhi hr), Bool.false_and, Bool.false_and]
  · rw [beq_false_of_ne (getBits_ne_zero_of_getLsbD hlo hhi hw), Bool.and_false, Bool.false_and]

/-- From 0x30000 on the address map is the same for every master: a core's own CLR and the boot ROM lie below. -/
theorem targetOf_eq_of_le {a : Nat} (ha : 0x30000 ≤ a) (m m' : Nat) : targetOf m a = targetOf m' a := by
  have h1 : ¬ a < 0x20000 := by omega
  have h2 : ¬ a < 0x30000 := by omega
  simp only [targetOf, if_neg h1, if_neg h2]

/-- A straddling access is refused under the first byte's region, and so is one the trunk's masks do not grant. -/
theorem colCheck_terrace_refused {s : State} {m a n o : Nat} {k : AccKind} (len : Nat) (ht : targetOf m a = .terrace n o)
    (hg : (trunkDecider s a).grants m k = false) : ∃ v, colCheck s m a len k = some v ∧ v.region = (trunkDecider s a).region := by
  simp only [colCheck, ht, hg]
  split
  · exact ⟨_, rfl, rfl⟩
  · exact ⟨_, rfl, rfl⟩

/-- A straddling access is refused under the first byte's region, and so is one the masks of Bedrock do not grant. -/
theorem colCheck_bedrock_refused {s : State} {m a b o : Nat} {k : AccKind} (len : Nat) (ht : targetOf m a = .bedrock b o)
    (hg : (bedDecider s a).grants m k = false) : ∃ v, colCheck s m a len k = some v ∧ v.region = (bedDecider s a).region := by
  simp only [colCheck, ht, hg]
  split
  · exact ⟨_, rfl, rfl⟩
  · exact ⟨_, rfl, rfl⟩

/-- An address with a leaf unit lies outside Terrace and Bedrock, so the leaf's decider decides it; a hard refusal (R223) names the same region. -/
theorem colCheck_leaf_refused {s : State} {a u : Nat} (m len : Nat) (k : AccKind) (ha : 0x30000 ≤ a) (hu : leafUnit a = some u)
    (hg : (leafDecider s u a).grants m k = false) : ∃ v, colCheck s m a len k = some v ∧ v.region = (leafDecider s u a).region := by
  have hlow : ¬ a < 0x30000 := by omega
  have hu' := hu
  rw [leafUnit, targetOf_eq_of_le ha 25 m] at hu'
  cases ht : targetOf m a <;> simp only [ht, reduceCtorEq] at hu'
  all_goals
    simp only [colCheck, ht, if_neg hlow, hu, hg]
    split
    · exact ⟨_, rfl, rfl⟩
    · exact ⟨_, rfl, rfl⟩

/-- R295: an operation with a USE bit passes by the slot's loaded key, that bit and the USERS bit of a master below 25. -/
theorem State.slotAllows_of_opUse {j : ChJob} {u : Nat} (s : State) (hu : opUse j.op = some u) : s.slotAllows j =
    ((s.keySlot j.slot).loaded && bit (s.keySlot j.slot).use u && decide (j.req < 25) && bit (s.keySlot j.slot).users j.req) := by
  simp only [State.slotAllows, hu]

/-- Settles O5: reserved bits void a decider whatever its place, so the check of each unit refuses with that decider's region; a profile and a
key slot look at masters below 25 alone. -/
theorem voidedMasksGrantNothing : Obligations.VoidedMasksGrantNothing := by
  refine ⟨?decider, ?trunk, ?bedrock, ?leaf, ?wings, ?chorus⟩
  case decider => exact fun d m i k hlo hhi h => Decider.grants_eq_false_of_reserved hlo hhi h m k
  case trunk => exact fun s m a n len o i k ht hlo hhi h => colCheck_terrace_refused len ht (Decider.grants_eq_false_of_reserved hlo hhi h m k)
  case bedrock => exact fun s m a b len o i k ht hlo hhi h => colCheck_bedrock_refused len ht (Decider.grants_eq_false_of_reserved hlo hhi h m k)
  case leaf => exact fun s m a u len i k ha hu hlo hhi h => colCheck_leaf_refused m len k ha hu (Decider.grants_eq_false_of_reserved hlo hhi h m k)
  case wings => exact fun s m r => ⟨rfl, rfl⟩
  case chorus => exact fun s j u hu => s.slotAllows_of_opUse hu

end Sys2Proof.Machine
end

section
/-! The duplicate-discard table (R93): ageing, the lookup, the entry of a new key, and the eviction of the oldest. -/

namespace Sys2Proof.Machine

/-! ## State operations the table uses -/

/-- A saturating counter reads as its old value plus the count, held at the field's largest value. -/
theorem State.rd_sat (s : State) (f : Fld) (n : Nat) (hl : f.lo ≤ f.hi + 1) (hh : f.hi < 32) :
    (s.sat f n).rd f = min (s.rd f + n) (f.card - 1) := by
  have hpos : 0 < f.card := Nat.two_pow_pos _
  rw [State.sat, State.rd_wr _ _ _ hl hh]
  exact Nat.mod_eq_of_lt (by rw [← Fld.card]; omega)

/-- Latching an interrupt source leaves every field outside the pending registers. -/
theorem State.rd_irq (s : State) (n : Nat) (f : Fld) (h : f.addr < 0x401B0400 ∨ 0x401B0420 ≤ f.addr) : (s.irq n).rd f = s.rd f := by
  rw [State.rd, State.rd, reg_irq s n f.addr h]

/-- Latching an interrupt source takes no Stage Time. -/
@[simp] theorem State.now_irq (s : State) (n : Nat) : (s.irq n).now = s.now := by
  unfold State.irq
  split
  · rfl
  · rfl

@[simp] theorem State.ddTable_irq (s : State) (n p : Nat) : (s.irq n).ddTable p = s.ddTable p := by
  unfold State.irq
  split
  · rfl
  · rfl

@[simp] theorem State.ddTable_sat (s : State) (f : Fld) (n p : Nat) : (s.sat f n).ddTable p = s.ddTable p := rfl

/-! ## The table's operations -/

theorem State.ddTable_ddExpire (s : State) (p : Nat) : (s.ddExpire p).ddTable p =
    (s.ddTable p).filter fun e => decide (s.now < e.made + s.rd (F.SWITCH_RED_CFG_DD_AGE p) * ticksPerMs) := by
  rw [State.ddExpire, ddTable_put, if_pos rfl]

theorem State.ddTable_ddForget (s : State) (p : Nat) : (s.ddForget p).ddTable p = (s.ddTable p).tail := by
  rw [State.ddForget, ddTable_put, if_pos rfl, List.drop_one]
  rfl

/-- EVICT of a pair. -/
def ddEvictFld (p : Nat) : Fld := if p = 0 then F.SWITCH_DD_EVICT_EVICT_0 else F.SWITCH_DD_EVICT_EVICT_1

/-- The eviction of a full table: the oldest entry leaves, the pair's EVICT counts and source 108 is latched. -/
def State.ddEvict (s : State) (p : Nat) : State := ((s.ddForget p).sat (ddEvictFld p)).irq 108

/-- A new key takes the youngest place of the table. -/
def State.ddEnter (s : State) (p smac seq : Nat) : State :=
  { s with ports.dd := put (fun _ => []) s.ports.dd p (s.ddTable p ++ [{ smac, seq, made := s.now }]) }

theorem State.ddTable_ddEvict (s : State) (p : Nat) : (s.ddEvict p).ddTable p = (s.ddTable p).tail := by
  rw [State.ddEvict, State.ddTable_irq, State.ddTable_sat, State.ddTable_ddForget]

/-- An eviction takes no Stage Time, so the new entry is made at the time of the lookup. -/
theorem State.now_ddEvict (s : State) (p : Nat) : (s.ddEvict p).now = s.now := State.now_irq _ _

theorem State.ddTable_ddEnter (s : State) (p smac seq : Nat) :
    (s.ddEnter p smac seq).ddTable p = s.ddTable p ++ [{ smac, seq, made := s.now }] := by
  rw [State.ddEnter, ddTable_put, if_pos rfl]

/-- EVICT of either pair is 16 bits wide and no pending register. -/
theorem ddEvictFld_bounds (p : Nat) : (ddEvictFld p).addr < 0x401B0400 ∧ (ddEvictFld p).lo ≤ (ddEvictFld p).hi + 1
    ∧ (ddEvictFld p).hi < 32 ∧ (ddEvictFld p).card = 65536 := by
  unfold ddEvictFld
  split
  · decide
  · decide

theorem State.rd_ddEvict (s : State) (p : Nat) : (s.ddEvict p).rd (ddEvictFld p) = min (s.rd (ddEvictFld p) + 1) 65535 := by
  obtain ⟨haddr, hlo, hhi, hcard⟩ := ddEvictFld_bounds p
  rw [State.ddEvict, State.rd_irq _ _ _ (Or.inl haddr), State.rd_sat _ _ _ hlo hhi, hcard]
  rfl

/-! ## The lookup -/

/-- A key still in the table is a duplicate, and only the ageing has changed the state. -/
theorem State.duplicate_of_mem {s : State} {p smac seq : Nat} (h : ∃ e ∈ (s.ddExpire p).ddTable p, e.smac = smac ∧ e.seq = seq) :
    s.duplicate p smac seq = (true, s.ddExpire p) := by
  obtain ⟨e, he, hkey⟩ := h
  have hany : ((s.ddExpire p).ddTable p).any (fun e => e.smac == smac && e.seq == seq) = true :=
    List.any_eq_true.mpr ⟨e, he, by simpa using hkey⟩
  exact if_pos hany

/-- A key that is not in the table is admitted and entered, after an eviction when the table is full. -/
theorem State.duplicate_of_not_mem {s : State} {p smac seq : Nat} (h : ∀ e ∈ (s.ddExpire p).ddTable p, ¬(e.smac = smac ∧ e.seq = seq)) :
    s.duplicate p smac seq =
      (false, (if 4096 ≤ ((s.ddExpire p).ddTable p).length then (s.ddExpire p).ddEvict p else s.ddExpire p).ddEnter p smac seq) := by
  have hany : ¬ ((s.ddExpire p).ddTable p).any (fun e => e.smac == smac && e.seq == seq) = true := by
    rw [List.any_eq_true]
    rintro ⟨e, he, hkey⟩
    exact h e he (by simpa using hkey)
  exact if_neg hany

/-- Settles O18: the ageing is a filter, a key found is a duplicate, and a key not found is entered last, the head of a full table leaving first. -/
theorem duplicateDiscard : Obligations.DuplicateDiscard := by
  refine ⟨?ageing, ?found, ?room, ?full⟩
  case ageing =>
    intro s p e
    rw [State.ddTable_ddExpire, List.mem_filter, decide_eq_true_eq]
  case found =>
    rintro s p smac seq u rfl hmem
    exact State.duplicate_of_mem hmem
  case room =>
    rintro s p smac seq u rfl hnot hroom
    rw [State.duplicate_of_not_mem hnot, if_neg (Nat.not_le.mpr hroom)]
    exact ⟨rfl, State.ddTable_ddEnter .., rfl⟩
  case full =>
    rintro s p smac seq u f rfl rfl hnot hfull
    rw [State.duplicate_of_not_mem hnot, if_pos hfull.ge]
    refine ⟨rfl, ?table, ?count, ?source⟩
    case table => rw [State.ddTable_ddEnter, State.ddTable_ddEvict, State.now_ddEvict]; rfl
    case count => exact State.rd_ddEvict (s.ddExpire p) p
    case source => exact latched_irq _ 108 (by decide)

end Sys2Proof.Machine
end

section
/-! A full queue (R124): every way into it ends in one placement, which is refused and counted. -/

namespace Sys2Proof.Machine

/-- R124: queue `q` counts a refused entry in FULLCNT, up to 0xFFFF. -/
def State.countFull (s : State) (q : Nat) : State := s.setQueue q { s.queue q with fullcnt := min ((s.queue q).fullcnt + 1) 0xFFFF }

/-- The count raises no alarm and ends no release, so nothing is left to settle. -/
theorem State.quiet_countFull {s : State} (h : s.Quiet) (q : Nat) : (s.countFull q).Quiet := h

theorem QRec.full_of_fill_eq {r : QRec} (h : r.fill = r.ringLen) : r.full = true := beq_iff_eq.mpr h

/-- The ring of a full queue is not written: the placement fails and the count is its only effect. -/
theorem State.place_of_full {s : State} {q : Nat} (w : Nat) (bs : List Byte) (hv : (s.queue q).v = true) (hf : (s.queue q).full = true) :
    s.place w q bs = (false, s.countFull q) := by
  simp only [State.place, State.countFull, hv, hf, Bool.not_true, Bool.false_eq_true, if_false, if_true]

/-- A permitted store to a queue of 8-byte entries places the stored bytes. -/
theorem State.enqueueStore_of_esize_zero {s : State} {m q : Nat} (d : DWord) (hv : (s.queue q).v = true) (hp : s.mayProduce m (s.queue q) = true)
    (he : (s.queue q).esize = 0) : s.enqueueStore m q d = (s.place m q (leBytes 8 d.toNat)).2 := by
  simp only [State.enqueueStore, hv, hp, he, Bool.not_true, Bool.false_eq_true, if_false, if_true]

/-- The oldest copy under way leaves Wings' buffer and is placed under Wings' own identity. -/
theorem State.copyDone_of_copies_cons {s : State} {c : Copy} {rest : List Copy} (h : s.wing.copies = c :: rest) :
    s.copyDone = (State.place { s with wing.copies := rest } 11 c.queue c.bytes).2 := by
  simp only [State.copyDone, h]

/-- Settles O8: a store and a completed copy are placements like a hardware producer's, and the placement in a full queue only counts. -/
theorem fullQueueRefusesEnqueue : Obligations.FullQueueRefusesEnqueue := by
  refine ⟨?store, ?copy, ?producer⟩
  case store =>
    intro s m q d hq hquiet hadm hv hp he hfill
    have hplace := State.place_of_full m (leBytes 8 d.toNat) hv (QRec.full_of_fill_eq hfill)
    obtain ⟨halarms, hended⟩ := State.quiet_countFull hquiet q
    have hstore : s.store8 m (0x34000000 + 8 * q) d = s.countFull q := by
      rw [store8_enqueue hq hadm, State.enqueueStore_of_esize_zero d hv hp he, hplace, settle_quiet halarms hended]
    exact congrArg Host.Outcome.next hstore
  case copy =>
    intro s c rest hcopies hv hfill
    have hplace := State.place_of_full (s := { s with wing.copies := rest }) 11 c.bytes hv (QRec.full_of_fill_eq hfill)
    have hdone : s.copyDone = State.countFull { s with wing.copies := rest } c.queue := by
      rw [State.copyDone_of_copies_cons hcopies, hplace]
    exact congrArg Host.Outcome.next hdone
  case producer => exact fun s w q bs hv hfill => State.place_of_full w bs hv (QRec.full_of_fill_eq hfill)

end Sys2Proof.Machine
end

section
/-! Core reset (R153): what CORE_START leaves of a core, and what its general registers then read. -/

namespace Sys2Proof.Machine

/-! ## A core with no general register written -/

/-- R153: g0 reads as 0 whatever the core holds. -/
theorem CoreSt.get_zero (c : CoreSt) : c.get 0 = 0 := if_pos rfl

/-- With no register listed, both sets of g48 to g63 and every other register read 0, whichever set xstat selects. -/
theorem CoreSt.get_of_g_eq_nil {c : CoreSt} (h : c.g = []) (r : Nat) : c.get r = 0 := by
  by_cases hr : r = 0
  · exact if_pos hr
  · calc c.get r = look (fun _ => 0#64) c.g (c.gkey r) := if_neg hr
      _ = 0 := by rw [h]; rfl

/-! ## The core that is started -/

/-- Core `n` just after its start at `pc`: the reset core, running in the gear of the mode. -/
def State.startedCore (s : State) (pc : Nat) : CoreSt :=
  { CoreSt.reset with
    pc := BitVec.ofNat 32 pc, running := true
    cgear := if s.mode == .factory || s.mode == .rehearsal then 1 else CoreSt.reset.cgear }

theorem State.core_of_cores_eq {s t : State} (h : s.cores = t.cores) (n : Nat) : s.core n = t.core n :=
  congrArg (fun cores => look (fun _ => CoreSt.reset) cores n) h

theorem State.core_wr (s : State) (f : Fld) (v n : Nat) : (s.wr f v).core n = s.core n := State.core_of_cores_eq (State.wr_cores s f v) n

theorem State.quiet_wr {s : State} (h : s.Quiet) (f : Fld) (v : Nat) : (s.wr f v).Quiet := h

theorem State.quiet_setCore {s : State} (h : s.Quiet) (n : Nat) (c : CoreSt) : (s.setCore n c).Quiet := h

theorem State.settle_of_quiet {s : State} (h : s.Quiet) : s.settle = s := settle_quiet h.1 h.2

theorem State.core_setCore_self (s : State) (n : Nat) (c : CoreSt) : (s.setCore n c).core n = c :=
  (look_put (fun _ => CoreSt.reset) s.cores n c n).trans (if_pos rfl)

/-- Losing a core's requests writes one queue record at most. -/
theorem State.loseRequests_cases (s : State) (n : Nat) : s.loseRequests n = s ∨ ∃ q r, s.loseRequests n = s.setQueue q r := by
  by_cases hv : (s.queue (Config.serviceQueue s.cfg + n)).v = true
  · exact Or.inr ⟨_, _, if_pos hv⟩
  · exact Or.inl (if_neg hv)

theorem State.core_loseRequests (s : State) (n k : Nat) : (s.loseRequests n).core k = s.core k := by
  obtain h | ⟨q, r, h⟩ := s.loseRequests_cases n
  · rw [h]
  · rw [h]; rfl

theorem State.quiet_loseRequests {s : State} (h : s.Quiet) (n : Nat) : (s.loseRequests n).Quiet := by
  obtain he | ⟨q, r, he⟩ := s.loseRequests_cases n
  · rw [he]; exact h
  · rw [he]; exact h

/-- R184: a start replaces the core; for cores 0 to 7 it also loses the core's requests and clears IRQ_CORE_STAT_n. -/
theorem State.startCore_eq (s : State) (n pc : Nat) : s.startCore n pc =
    if n = 8 then s.setCore n (s.startedCore pc)
    else (((((s.setCore n (s.startedCore pc)).loseRequests n).wr (F.IRQ_CORE_STAT_STOPPED n) 0).wr (F.IRQ_CORE_STAT_HELD n) 0).wr
      (F.IRQ_CORE_STAT_FATAL_CAUSE n) 0).wr (F.IRQ_CORE_STAT_FIRST_CAUSE n) 0 := rfl

theorem State.core_startCore (s : State) (n pc : Nat) : (s.startCore n pc).core n = s.startedCore pc := by
  by_cases hn : n = 8
  · rw [State.startCore_eq, if_pos hn, State.core_setCore_self]
  · rw [State.startCore_eq, if_neg hn, State.core_wr, State.core_wr, State.core_wr, State.core_wr, State.core_loseRequests, State.core_setCore_self]

/-- A start raises no alarm and ends no release. -/
theorem State.quiet_startCore {s : State} (h : s.Quiet) (n pc : Nat) : (s.startCore n pc).Quiet := by
  have hset := State.quiet_setCore h n (s.startedCore pc)
  by_cases hn : n = 8
  · rw [State.startCore_eq, if_pos hn]
    exact hset
  · rw [State.startCore_eq, if_neg hn]
    exact State.quiet_wr (State.quiet_wr (State.quiet_wr (State.quiet_wr (State.quiet_loseRequests hset n) ..) ..) ..) ..

/-! ## CORE_START -/

/-- Putting START into the operand leaves its HOLD bit as it was. -/
theorem getLsbD_31_setBits_30 (w : Word) (v : Nat) : (setBits w 30 30 v).getLsbD 31 = w.getLsbD 31 := by
  rw [getLsbD_setBits _ _ _ _ _ (by decide) (by decide), if_neg (by decide)]

/-- R184: in a quiet state nothing follows the start, so CORE_START leaves a core just started. -/
theorem core_of_coreStart {s t : State} {m n : Nat} {pc : Word} (hn : n < 8) (hq : s.Quiet) (hw : s.mayWrite m (A.IRQ_CORE_CTRL n) = true)
    (hm : s.mode ≠ .curtain) (hp : pc.getLsbD 31 = false) (h : exec (.coreStart m n pc) s = .next t) :
    ∃ (u : State) (a : Nat), t.core n = u.startedCore a := by
  rw [complete_coreStart s m n pc _ hn hw hm rfl ((getLsbD_31_setBits_30 pc 1).trans hp)] at h
  rw [State.settle_of_quiet (State.quiet_startCore (State.quiet_wr (State.quiet_wr hq ..) ..) ..)] at h
  cases h
  exact ⟨_, _, State.core_startCore ..⟩

/-- Settles O10: CORE_START leaves a reset core but for its PC, its gear and that it runs, and in the reset state every core is the reset core; a
reset core lists no general register, so both sets read 0. -/
theorem zeroRegisterAndCoreReset : Obligations.ZeroRegisterAndCoreReset := by
  refine ⟨CoreSt.get_zero, ?start, ?reset⟩
  case start =>
    intro s t m n r pc xstat hn hquiet hwrite hmode hpc hexec
    obtain ⟨u, a, hcore⟩ := core_of_coreStart hn hquiet hwrite hmode hpc hexec
    rw [hcore]
    exact ⟨rfl, CoreSt.get_of_g_eq_nil rfl r⟩
  case reset => exact fun n r xstat => CoreSt.get_of_g_eq_nil rfl r

end Sys2Proof.Machine
end

section
/-! Interrupts (R186, R187): the bits of ipend, the line and the source R187 chooses, and what an entry changes. -/

namespace Sys2Proof.Machine

/-! ## ipend and the lines that can interrupt -/

/-- A word built by setting bit `l` for each `l < m` with `p l` has exactly those bits. -/
theorem getLsbD_foldl_range_twoPow (p : Nat → Bool) (m i : Nat) :
    ((List.range m).foldl (fun w l => if p l then w ||| BitVec.twoPow 32 l else w) 0#32).getLsbD i = (decide (i < 32) && decide (i < m) && p i) := by
  induction m with
  | zero => simp
  | succ m ih =>
    rw [List.range_succ, List.foldl_append, List.foldl_cons, List.foldl_nil]
    obtain rfl | hne := eq_or_ne i m
    · by_cases hp : p i = true
      · rw [if_pos hp, BitVec.getLsbD_or, ih, BitVec.getLsbD_twoPow]
        simp [hp]
      · rw [if_neg hp, ih]
        simp [hp]
    · have hlt : i < m + 1 ↔ i < m := by omega
      by_cases hp : p m = true
      · rw [if_pos hp, BitVec.getLsbD_or, ih, BitVec.getLsbD_twoPow]
        simp [hlt, hne.symm]
      · rw [if_neg hp, ih]
        simp [hlt]

/-- R186: bit `l` of ipend is 1 exactly while a latched source is routed to line `l` of the core. -/
theorem State.getLsbD_ipend (s : State) (n : Nat) {l : Nat} (hl : l < 32) : (s.ipend n).getLsbD l = (List.range 256).any (s.lineHas n l) :=
  (getLsbD_foldl_range_twoPow (fun l => (List.range 256).any (s.lineHas n l)) 32 l).trans (by simp [hl])

/-- Bit `l` of ipend AND ienable, as the choice of R187 computes it. -/
def State.lineDue (s : State) (n l : Nat) : Bool := (s.core n).ienable.getLsbD l && (List.range 256).any (s.lineHas n l)

theorem State.lineDue_eq (s : State) (n : Nat) {l : Nat} (hl : l < 32) : s.lineDue n l = ((s.ipend n).getLsbD l && (s.core n).ienable.getLsbD l) := by
  rw [State.getLsbD_ipend s n hl, State.lineDue, Bool.and_comm]

/-! ## The chosen source -/

/-- R187 in two searches: the lowest enabled pending line, then the lowest latched source on it. -/
theorem State.chosenSource_eq_bind (s : State) (n : Nat) :
    s.chosenSource n = ((List.range 32).find? (s.lineDue n)).bind fun l => (List.range 256).find? (s.lineHas n l) := by
  unfold State.chosenSource State.lineDue
  cases (List.range 32).find? fun l => (s.core n).ienable.getLsbD l && (List.range 256).any (s.lineHas n l) with
  | none => rfl
  | some l => rfl

theorem State.chosenSource_eq_none {s : State} {n : Nat} (h : ∀ l, l < 32 → s.lineDue n l = false) : s.chosenSource n = none := by
  have hfind : (List.range 32).find? (s.lineDue n) = none := List.find?_range_eq_none.mpr fun l hl => by rw [h l hl]; rfl
  rw [State.chosenSource_eq_bind, hfind, Option.bind_none]

/-- R187: with some enabled line pending, the choice is the lowest-numbered latched source on the lowest-numbered such line. -/
theorem State.exists_chosenSource {s : State} {n : Nat} (h : ∃ l, l < 32 ∧ s.lineDue n l = true) :
    ∃ l k, s.chosenSource n = some k ∧ (l < 32 ∧ s.lineDue n l = true ∧ ∀ j, j < l → s.lineDue n j = false)
      ∧ k < 256 ∧ s.lineHas n l k = true ∧ ∀ j, j < k → s.lineHas n l j = false := by
  obtain ⟨l₀, hl₀, hdue₀⟩ := h
  obtain ⟨l, hfindl⟩ := Option.isSome_iff_exists.mp (List.find?_isSome.mpr ⟨l₀, List.mem_range.mpr hl₀, hdue₀⟩)
  obtain ⟨hdue, hl, hlowl⟩ := List.find?_range_eq_some.mp hfindl
  obtain ⟨-, hany⟩ := Bool.and_eq_true_iff.mp hdue
  obtain ⟨k, hfindk⟩ := Option.isSome_iff_exists.mp (List.find?_isSome.mpr (List.any_eq_true.mp hany))
  obtain ⟨hhas, hk, hlowk⟩ := List.find?_range_eq_some.mp hfindk
  have hchosen : s.chosenSource n = some k := by rw [State.chosenSource_eq_bind, hfindl, Option.bind_some, hfindk]
  exact ⟨l, k, hchosen,
    ⟨List.mem_range.mp hl, hdue, fun j hj => Bool.not_eq_true' _ ▸ hlowl j hj⟩,
    List.mem_range.mp hk, hhas, fun j hj => Bool.not_eq_true' _ ▸ hlowk j hj⟩

/-! ## When an interrupt is due -/

theorem State.interruptDue_eq_chosenSource {s : State} {n : Nat} (hlive : s.live? = true) (hheld : s.coreHeld n = false)
    (hshield : (s.core n).shield = false) (hexl : (s.core n).exl = false) (hie : (s.core n).ie = true) : s.interruptDue n = s.chosenSource n :=
  if_pos (by rw [hlive, hheld, hshield, hexl, hie]; rfl)

/-- R187: EXL = 1, IE = 0 or no enabled line pending each keep the core from an interrupt. -/
theorem State.interruptDue_eq_none {s : State} {n : Nat}
    (h : (s.core n).exl = true ∨ (s.core n).ie = false ∨ ∀ l, l < 32 → s.lineDue n l = false) : s.interruptDue n = none := by
  obtain hexl | hie | hline := h
  · exact if_neg (by simp [hexl])
  · exact if_neg (by simp [hie])
  · rw [State.interruptDue, State.chosenSource_eq_none hline, ite_self]

/-! ## The entry -/

/-- The xcause of an interrupt of source `k`: INT in bit 31, the source in bits 23 to 16, the cause in bits 5 to 0. -/
def interruptCause (k : Nat) : Word := BitVec.ofNat 32 (2 ^ 31 + k * 2 ^ 16 + cINTERRUPT)

theorem interruptCause_fields {k : Nat} (hk : k < 256) :
    getBits (interruptCause k) 23 16 = k ∧ (interruptCause k).getLsbD 31 = true ∧ getBits (interruptCause k) 5 0 = cINTERRUPT := by
  have hcode : cINTERRUPT = 8 := rfl
  refine ⟨?source, ?int, ?cause⟩
  case source => rw [interruptCause, getBits_ofNat32 _ _ _ (by omega)]; omega
  case int => rw [interruptCause, getLsbD_ofNat32 _ _ (by decide), decide_eq_true_eq]; omega
  case cause => rw [interruptCause, getBits_ofNat32 _ _ _ (by omega)]; omega

theorem exec_interruptEntry_of_due_none {s : State} {n : Nat} (h : s.interruptDue n = none) : exec (.interruptEntry n) s = .next s := by
  have hentry : s.interruptEntry n = s := by rw [State.interruptEntry, h]
  exact congrArg Host.Outcome.next hentry

/-- INTERRUPT_ENTRY writes the core's own record at most. -/
theorem exec_interruptEntry_cases (s : State) (n : Nat) : exec (.interruptEntry n) s = .next s ∨ ∃ c, exec (.interruptEntry n) s = .next (s.setCore n c) := by
  cases hdue : s.interruptDue n with
  | none => exact Or.inl (exec_interruptEntry_of_due_none hdue)
  | some k => exact Or.inr ⟨_, complete_interruptEntry s n k hdue⟩

/-- The latches stand in the registers, which a core's record is no part of. -/
theorem State.latched_setCore (s : State) (n : Nat) (c : CoreSt) (src : Nat) : (s.setCore n c).latched src = s.latched src := rfl

/-- Settles O11: the two searches of R187 give the line and the source of the entry, without an enabled pending line they find nothing, and an
entry writes only the core's record. -/
theorem interruptTakenAtBoundary : Obligations.InterruptTakenAtBoundary := by
  refine ⟨?taken, ?blocked, ?latch⟩
  case taken =>
    intro s n hlive hheld hshield hexl hie hpending
    obtain ⟨l₀, hl₀, hpend₀, hen₀⟩ := hpending
    have hdue₀ : s.lineDue n l₀ = true := by rw [State.lineDue_eq s n hl₀, hpend₀, hen₀]; rfl
    obtain ⟨l, k, hchosen, ⟨hl, hdue, hlowl⟩, hk, hhas, hlowk⟩ := State.exists_chosenSource ⟨l₀, hl₀, hdue₀⟩
    obtain ⟨hen, -⟩ := Bool.and_eq_true_iff.mp hdue
    obtain ⟨hsource, hint, hcause⟩ := interruptCause_fields hk
    have hentry := complete_interruptEntry s n k ((State.interruptDue_eq_chosenSource hlive hheld hshield hexl hie).trans hchosen)
    exact ⟨l, k, interruptCause k, hl, hen, hhas, hk, fun j hj => State.lineDue_eq s n (hj.trans hl) ▸ hlowl j hj, hlowk, hsource, hint, hcause, hentry⟩
  case blocked =>
    intro s n h
    exact exec_interruptEntry_of_due_none (State.interruptDue_eq_none (h.imp_right (Or.imp_right fun hline l hl => (State.lineDue_eq s n hl).trans (hline l hl))))
  case latch =>
    intro s t n src hexec
    obtain hsame | ⟨c, hset⟩ := exec_interruptEntry_cases s n
    · rw [hsame] at hexec
      cases hexec
      rfl
    · rw [hset] at hexec
      cases hexec
      exact State.latched_setCore ..

end Sys2Proof.Machine
end

section
/-! The violation FIFO (R225, R226): what a new record and a merging one do to it, what a Col refusal records, and the pop. -/

namespace Sys2Proof.Machine

/-! ## Entry of a record -/

/-- A refusal reported without its address starts its record's count at 1. -/
def Viol.queued (v : Viol) : Viol := if v.av then v else { v with addr := 1 }

/-- R226: the refusal needs a record of its own, because it gives its address or the newest record is not an address-less one of the same core. -/
def State.needsRecord (s : State) (v : Viol) : Prop := v.av = true ∨ ∀ w, s.viol.getLast? = some w → w.av = true ∨ w.master ≠ v.master

theorem Viol.counted_eq_queued (v : Viol) : (if v.merges then { v with addr := 1 } else v) = v.queued := by
  cases hav : v.av with
  | false => simp only [Viol.merges, Viol.queued, hav, Bool.not_false, if_true, Bool.false_eq_true, if_false]
  | true => simp only [Viol.merges, Viol.queued, hav, Bool.not_true, Bool.false_eq_true, if_false, if_true]

@[simp] theorem Viol.av_queued (v : Viol) : v.queued.av = v.av := by
  unfold Viol.queued
  split
  · rfl
  · rfl

@[simp] theorem Viol.master_queued (v : Viol) : v.queued.master = v.master := by
  unfold Viol.queued
  split
  · rfl
  · rfl

/-- A record of its own enters while fewer than 32 stand, and is lost with OVF and source 189 after that. -/
theorem State.pushViol_of_needsRecord {s : State} {v : Viol} (h : s.needsRecord v) :
    s.pushViol v = if s.viol.length < 32 then { s with viol := s.viol ++ [v.queued] } else State.irq { s with violOvf := true } 189 := by
  cases hlast : s.viol.getLast? with
  | none =>
    have hnil : s.viol = [] := List.getLast?_eq_none_iff.mp hlast
    simp only [State.pushViol, Viol.counted_eq_queued, hnil, List.getLast?_nil, List.length_nil, List.nil_append, Nat.zero_lt_succ, if_true]
  | some w =>
    have hfresh : (v.queued.merges && !w.av && w.master == v.queued.master) = false := by
      obtain hav | hnew := h
      · simp [Viol.merges, hav]
      · obtain hwav | hne := hnew w hlast
        · simp [hwav]
        · simp [hne]
    simp only [State.pushViol, Viol.counted_eq_queued, hlast, hfresh, Bool.false_eq_true, if_false]

/-- An address-less refusal of the core whose address-less record is the newest only counts there, up to 0xFFFF. -/
theorem State.pushViol_of_merges {s : State} {v w : Viol} {l : List Viol} (hv : v.av = false) (hw : w.av = false) (hm : w.master = v.master)
    (hviol : s.viol = l ++ [w]) :
    s.pushViol v = { s with viol := l ++ [{ w with addr := BitVec.ofNat 32 (min (w.addr.toNat + 1) 0xFFFF) }] } := by
  have hmerge : (v.queued.merges && !w.av && w.master == v.queued.master) = true := by simp [Viol.merges, hv, hw, hm]
  simp only [State.pushViol, Viol.counted_eq_queued, hviol, List.getLast?_concat, hmerge, if_true, List.dropLast_concat]

/-! ## The record of a Col refusal -/

/-- R206, R226: the trunk posts a core's store to Terrace, so its refusal is recorded without the address. -/
theorem colCheck_terrace_record {s : State} {m a len n o : Nat} {k : AccKind} {v : Viol} (ht : targetOf m a = .terrace n o)
    (h : colCheck s m a len k = some v) :
    v.master = m ∧ v.addr = BitVec.ofNat 32 a ∧ v.av = !(k == .write && decide (m ≤ 8)) := by
  simp only [colCheck, ht] at h
  split at h
  · cases h; exact ⟨rfl, rfl, rfl⟩
  · split at h
    · cases h
    · cases h; exact ⟨rfl, rfl, rfl⟩

theorem colCheck_bedrock_record {s : State} {m a len b o : Nat} {k : AccKind} {v : Viol} (ht : targetOf m a = .bedrock b o)
    (h : colCheck s m a len k = some v) : v.master = m ∧ v.addr = BitVec.ofNat 32 a ∧ v.av = true := by
  simp only [colCheck, ht] at h
  split at h
  · cases h; exact ⟨rfl, rfl, rfl⟩
  · split at h
    · cases h
    · cases h; exact ⟨rfl, rfl, rfl⟩

/-- The record of a refusal by the masks of leaf unit `u`. -/
def leafViol (s : State) (m a u : Nat) (k : AccKind) : Viol :=
  { unit := 0, index := u, av := true, kind := violKind (leafDecider s u a) m k, straddle := false, master := m,
    region := (leafDecider s u a).region, hard := false, addr := BitVec.ofNat 32 a }

/-- R219, R223: outside Terrace and Bedrock the leaf unit decides, the hard refusals before its masks. -/
theorem colCheck_leaf {s : State} {m a : Nat} (len : Nat) (k : AccKind) (ht : ∀ n o, targetOf m a ≠ .terrace n o)
    (hb : ∀ b o, targetOf m a ≠ .bedrock b o) : colCheck s m a len k =
    if a < 0x30000 then none
    else (leafUnit a).bind fun u =>
      if hardRefused m a k then some { leafViol s m a u k with hard := true }
      else if (leafDecider s u a).grants m k then none else some (leafViol s m a u k) := by
  unfold colCheck
  cases htarget : targetOf m a with
  | terrace n o => exact absurd htarget (ht n o)
  | bedrock b o => exact absurd htarget (hb b o)
  | _ => cases leafUnit a <;> rfl

theorem colCheck_leaf_record {s : State} {m a len : Nat} {k : AccKind} {v : Viol} (ht : ∀ n o, targetOf m a ≠ .terrace n o)
    (hb : ∀ b o, targetOf m a ≠ .bedrock b o) (h : colCheck s m a len k = some v) : v.master = m ∧ v.addr = BitVec.ofNat 32 a ∧ v.av = true := by
  rw [colCheck_leaf len k ht hb] at h
  split at h
  · cases h
  · obtain ⟨u, -, h⟩ := Option.bind_eq_some_iff.mp h
    split at h
    · cases h; exact ⟨rfl, rfl, rfl⟩
    · split at h
      · cases h
      · cases h; exact ⟨rfl, rfl, rfl⟩

/-- Every other refusal gives its address. -/
theorem colCheck_record_of_not_terrace {s : State} {m a len : Nat} {k : AccKind} {v : Viol} (ht : ∀ n o, targetOf m a ≠ .terrace n o)
    (h : colCheck s m a len k = some v) : v.master = m ∧ v.addr = BitVec.ofNat 32 a ∧ v.av = true := by
  by_cases hb : ∃ b o, targetOf m a = .bedrock b o
  · obtain ⟨b, o, hbed⟩ := hb
    exact colCheck_bedrock_record hbed h
  · exact colCheck_leaf_record ht (fun b o hbed => hb ⟨b, o, hbed⟩) h

/-- Settles O6: a refusal that needs a record of its own enters or is lost, any other one counts in the newest record; the check of each unit
fills in master, address and AV; and after the pop of a quiet state nothing is left to settle. -/
theorem violationFifo : Obligations.ViolationFifo := by
  refine ⟨?enters, ?merges, ?lost, ?trunk, ?others, ?pop⟩
  case enters => exact fun s v hroom hneeds => (State.pushViol_of_needsRecord hneeds).trans (if_pos hroom)
  case merges => exact fun s v w l hv hw hm hviol => State.pushViol_of_merges hv hw hm hviol
  case lost => exact fun s v hfull hneeds => (State.pushViol_of_needsRecord hneeds).trans (if_neg hfull.not_lt)
  case trunk =>
    intro s m n o len a v k ht h
    obtain ⟨hmaster, haddr, hav⟩ := colCheck_terrace_record ht h
    exact ⟨hmaster, haddr, by simp [hav]⟩
  case others => exact fun s m len a v k ht h => colCheck_record_of_not_terrace ht h
  case pop =>
    intro s m v rest hquiet hread hviol
    obtain ⟨-, hpop⟩ := complete_colViolPop s m hread
    exact (hpop v rest hviol).trans (congrArg Host.Outcome.next (State.settle_of_quiet hquiet))

end Sys2Proof.Machine
end

section
/-! The protected register pages (R223): which writes are refused before the masks are looked at, and what such a refusal records. -/

namespace Sys2Proof.Machine

/-! ## The protected pages on the address map -/

/-- The protected pages by their addresses on the map (R30): Col, the Curtain, the Refuge, Double Take, the system page, the Chorus keys, the Soloist's two. -/
theorem hardProtected_iff {a : Nat} : hardProtected a ↔ (0x40010000 ≤ a ∧ a < 0x40020000) ∨ (0x40110000 ≤ a ∧ a < 0x40120000)
    ∨ (0x40120000 ≤ a ∧ a < 0x40130000) ∨ (0x401D0000 ≤ a ∧ a < 0x401E0000) ∨ (0x40000000 ≤ a ∧ a < 0x40002000)
    ∨ (0x400D4000 ≤ a ∧ a < 0x400D8000) ∨ (0x400E1000 ≤ a ∧ a < 0x400E2000) ∨ (0x400EF000 ≤ a ∧ a < 0x400F0000) := Iff.rfl

theorem hardProtected_bounds {a : Nat} (h : hardProtected a) : 0x40000000 ≤ a ∧ a < 0x401E0000 := by
  rw [hardProtected_iff] at h
  omega

/-- The protected pages hold neither an interrupt latch nor a drop count of the Prompt Book, the registers that a refusal itself writes. -/
theorem hardProtected_apart {a : Nat} (h : hardProtected a) : (a < 0x401B0400 ∨ 0x401B0420 ≤ a) ∧ a ≠ A.PBOOK_DROP_A ∧ a ≠ A.PBOOK_DROP_B := by
  rw [hardProtected_iff] at h
  unfold A.PBOOK_DROP_A A.PBOOK_DROP_B
  omega

/-- R223: of the protected pages every write by a master other than 8 is refused. -/
theorem hardRefused_of_hardProtected {m a : Nat} (hm : m ≠ 8) (h : hardProtected a) : hardRefused m a .write = true := by
  simp only [hardRefused, Bool.and_eq_true, Bool.or_eq_true, decide_eq_true_eq, bne_iff_ne]
  refine ⟨⟨hm, Or.inl (by decide)⟩, ?_⟩
  rw [hardProtected_iff] at h
  simp only [Base.COL, Base.CURTAIN, Base.REFUGE, Base.DTAKE, Base.SYS, Base.CHORUS, Base.SOLOIST]
  omega

/-! ## The refused write -/

/-- R219: a register block has a leaf unit of its own number. -/
theorem leafUnit_of_block {m a u : Nat} (h : targetOf m a = .block u) (ha : 0x30000 ≤ a) : leafUnit a = some u := by
  rw [leafUnit, targetOf_eq_of_le ha 25 m, h]

/-- The masks are not asked: the record is the leaf unit's with HARD. -/
theorem colCheck_of_hardProtected (s : State) {m a : Nat} (len : Nat) (hm : m ≠ 8) (h : hardProtected a) :
    colCheck s m a len .write = some { leafViol s m a ((a - 0x40000000) / 0x10000) .write with hard := true } := by
  obtain ⟨hlo, hhi⟩ := hardProtected_bounds h
  have ht := targetOf_reg (m := m) hlo hhi
  rw [colCheck_leaf len .write (by simp [ht]) (by simp [ht]), if_neg (by omega), leafUnit_of_block ht (by omega), Option.bind_some,
    if_pos (hardRefused_of_hardProtected hm h)]

/-- A store that the Col units refuse is reported; to a core it becomes a late bus error (R191, R225). -/
theorem storeBytes_of_colCheck {s : State} {m a : Nat} {bs : List Byte} {v : Viol} (hlive : s.live? = true) (hn : targetOf m a ≠ .nothing)
    (h : colCheck s m a bs.length .write = some v) :
    s.storeBytes m a bs = (if m ≤ 8 then (s.violate v).lateError m (!postedAt a) kindCol bs.length a else s.violate v).settle := by
  have hadmit : s.colAdmit m a bs.length .write = (some kindCol, s.violate v) := by
    unfold State.colAdmit
    cases ht : targetOf m a with
    | nothing => exact absurd ht hn
    | _ => simp only [h]
  simp only [State.storeBytes, hlive, Bool.not_true, Bool.false_eq_true, if_false, State.busStore, hadmit]

/-! ## What a hard refusal records -/

/-- What every refusal records: its place in the FIFO, its sources, and the limited record of severity 5 (R225, R228). -/
def State.reportViol (s : State) (v : Viol) : State :=
  State.postLim (if v.straddle then ((s.pushViol v).irq v.source).irq 188 else (s.pushViol v).irq v.source)
    (0x60020000 + v.unit * 64 + v.index) 0x6002 5 v.master [v.addr.toNat, v.unit * 64 + v.index, v.region]

/-- R223: a hard refusal also fires source 191 and books a record at severity 6. -/
theorem State.violate_of_hard {s : State} {v : Viol} (h : v.hard = true) :
    s.violate v = ((s.reportViol v).irq 191).post 0x6003 6 v.master [v.addr.toNat] := if_pos h

theorem State.reg_reportViol (s : State) (v : Viol) {a : Nat} (hpend : a < 0x401B0400 ∨ 0x401B0420 ≤ a) (hA : a ≠ A.PBOOK_DROP_A)
    (hB : a ≠ A.PBOOK_DROP_B) : (s.reportViol v).reg a = s.reg a := by
  have hsource : ((s.pushViol v).irq v.source).reg a = s.reg a := (reg_irq _ _ _ hpend).trans (reg_pushViol s v a hpend)
  exact (reg_postLim _ _ _ _ _ _ a hA hB).trans (ite_reg ((reg_irq _ _ _ hpend).trans hsource) hsource)

/-- A report puts one record at most into the input FIFO. -/
theorem State.inFifo_reportViol (s : State) (v : Viol) : (s.reportViol v).book.inFifo.length ≤ s.book.inFifo.length + 1 := by
  have hbook : (if v.straddle then ((s.pushViol v).irq v.source).irq 188 else (s.pushViol v).irq v.source).book = s.book := by
    split
    · rw [book_irq, book_irq, book_pushViol]
    · rw [book_irq, book_pushViol]
  exact (fifo_postLim _ _ _ _ _ _).trans_eq (by rw [hbook])

/-- A record touches no interrupt latch. -/
theorem State.latched_post (s : State) (code sev src : Nat) (words : List Nat) (n : Nat) : (s.post code sev src words).latched n = s.latched n := by
  have haddr : (pendFld n).addr ≠ A.PBOOK_DROP_A := by
    show 0x401B0400 + 0x4 * (n / 32) ≠ 0x4017000C
    omega
  rw [State.latched, State.latched, State.flag, State.flag, State.rd, State.rd, State.post, reg_post _ _ _ haddr]

/-- With room in the input FIFO a raised record is its newest. -/
theorem State.getLast?_inFifo_post {s : State} (h : s.book.inFifo.length < 64) (code sev src : Nat) (words : List Nat) :
    ∃ r, (s.post code sev src words).book.inFifo.getLast? = some r ∧ r.code = code ∧ r.sev = sev ∧ r.src = src := by
  rw [State.post, State.postRec, if_pos h]
  exact ⟨_, List.getLast?_concat, rfl, rfl, rfl⟩

/-- Settles O7: on a protected page the hard refusal comes before the masks; its record, its sources and its two Prompt Book records write no
protected register, and the first of these records leaves room for the second. -/
theorem hardRefusals : Obligations.HardRefusals := by
  refine ⟨?refused, ?recorded⟩
  case refused =>
    intro s m a w hlive hm h
    obtain ⟨hlo, hhi⟩ := hardProtected_bounds h
    have hposted : postedAt a = false := by simp only [postedAt, Bool.and_eq_false_iff, decide_eq_false_iff_not]; omega
    have hstore := storeBytes_of_colCheck (bs := leBytes 4 w.toNat) hlive (by simp [targetOf_reg hlo hhi]) (colCheck_of_hardProtected s _ hm h)
    rw [leBytes_length, hposted] at hstore
    exact ⟨_, rfl, rfl, rfl, rfl, rfl, rfl, congrArg Host.Outcome.next hstore⟩
  case recorded =>
    intro s v hhard
    rw [State.violate_of_hard hhard]
    refine ⟨?source, ?registers, ?record⟩
    case source => rw [State.latched_post]; exact latched_irq _ 191 (by decide)
    case registers =>
      intro a h
      obtain ⟨hpend, hA, hB⟩ := hardProtected_apart h
      rw [State.post, reg_post _ _ _ hA, reg_irq _ _ _ hpend, State.reg_reportViol s v hpend hA hB]
    case record =>
      intro hroom
      have hfifo := State.inFifo_reportViol s v
      exact State.getLast?_inFifo_post (by rw [book_irq]; omega) ..

end Sys2Proof.Machine
end

section
/-! Reader and tag (R430): the tag is silent while the carrier is on, and an operation written while an external field is detected ends at once. -/

namespace Sys2Proof.Machine

/-! ## The tag under the carrier -/

/-- R430: the tag does not answer while this device's own field is on. -/
theorem State.tagAnswers_of_carrier {s : State} (h : s.badge.carrier = true) : s.tagAnswers = false := by
  simp [State.tagAnswers, h]

/-- What a tag command does, it does only while the tag answers. -/
theorem ite_tagAnswers_of_carrier {s : State} (h : s.badge.carrier = true) (b : Bool) (t : State) : (if s.tagAnswers && b then t else s) = s := by
  rw [State.tagAnswers_of_carrier h, Bool.false_and, if_neg Bool.false_ne_true]

/-! ## Changes of registers and timers -/

/-- Of what a reader operation could touch, `t` differs from `s` in registers and timers alone. -/
def State.SameButRegs (s t : State) : Prop := t.badge = s.badge ∧ t.wire = s.wire ∧ t.mem = s.mem ∧ t.alarms = s.alarms ∧ t.ports = s.ports

theorem State.SameButRegs.wr {s t : State} (h : s.SameButRegs t) (f : Fld) (v : Nat) : s.SameButRegs (t.wr f v) := h

theorem State.SameButRegs.arm {s t : State} (h : s.SameButRegs t) (k : Timer) (d : Nat) : s.SameButRegs (t.arm k d) := h

theorem State.SameButRegs.quiet {s t : State} (h : s.SameButRegs t) (hq : s.Quiet) : t.Quiet := by
  obtain ⟨-, -, -, halarms, hports⟩ := h
  rw [State.Quiet, halarms, hports]
  exact hq

/-! ## The end of a reader operation -/

/-- The end of an operation before the carrier's timer starts: none is under way, the status and BUSY are written, and source 176 is latched. -/
def State.readerEnded (s : State) (st : Nat) : State :=
  ((({ s with badge.op := none } : State).wr F.BADGE_RD_STAT_BUSY 0).wr F.BADGE_RD_STAT_STATUS st).wr (pendFld 176) 1

/-- R433: after that, the end starts the carrier's timer at most. -/
theorem State.readerEnd_cases (s : State) (st : Nat) : s.readerEnd st = s.readerEnded st ∨ ∃ t d, s.readerEnd st = (s.readerEnded st).arm t d := by
  by_cases h : (s.readerEnded st).badge.carrier = true
  · exact Or.inr ⟨_, _, if_pos h⟩
  · exact Or.inl (if_neg h)

/-- An operation's end keeps the carrier, sends and stores nothing, raises no alarm and ends no release. -/
theorem State.sameButRegs_readerEnd (s : State) (st : Nat) : ({ s with badge.op := none } : State).SameButRegs (s.readerEnd st) := by
  have hended : ({ s with badge.op := none } : State).SameButRegs (s.readerEnded st) :=
    .wr (.wr (.wr ⟨rfl, rfl, rfl, rfl, rfl⟩ ..) ..) ..
  obtain h | ⟨t, d, h⟩ := s.readerEnd_cases st
  · rw [h]; exact hended
  · rw [h]; exact hended.arm t d

theorem State.rd_readerEnd (s : State) (st : Nat) (f : Fld) : (s.readerEnd st).rd f = (s.readerEnded st).rd f := by
  obtain h | ⟨t, d, h⟩ := s.readerEnd_cases st
  · rw [h]
  · rw [h, State.rd, State.reg_arm, State.rd]

theorem State.rd_status_readerEnd (s : State) (st : Nat) : (s.readerEnd st).rd F.BADGE_RD_STAT_STATUS = st % 16 := by
  rw [State.rd_readerEnd, State.readerEnded, State.rd_wr_of_ne _ _ _ _ (by decide)]
  exact State.rd_wr _ _ _ (by decide) (by decide)

theorem State.rd_busy_readerEnd (s : State) (st : Nat) : (s.readerEnd st).rd F.BADGE_RD_STAT_BUSY = 0 := by
  rw [State.rd_readerEnd, State.readerEnded, State.rd_wr_of_ne _ _ _ _ (by decide),
    State.rd_wr_of_disjoint _ _ _ _ (by decide) (by decide) (by decide)]
  exact State.rd_wr _ _ _ (by decide) (by decide)

/-! ## An operation written while an external field is detected -/

/-- BADGE_RD_CTRL holds `w`, and the timers of the operation before it are stopped. -/
def State.readerTaken (s : State) (w : Word) : State := ((s.setReg A.BADGE_RD_CTRL w).disarm .carrier).disarm .cardPower

theorem State.flag_readerTaken (s : State) (w : Word) (f : Fld) (h : f.addr ≠ A.BADGE_RD_CTRL) : (s.readerTaken w).flag f = s.flag f := by
  simp [State.flag, State.rd, State.readerTaken, h]

theorem State.quiet_readerTaken {s : State} (h : s.Quiet) (w : Word) : (s.readerTaken w).Quiet := h

/-- Writing the operation leaves the reader as fit to run as it was. -/
theorem State.readerOk_readerTaken (s : State) (w : Word) : (s.readerTaken w).readerOk = s.readerOk := by
  have hmode : (s.readerTaken w).mode = s.mode := by simp [State.mode, State.rd, State.readerTaken]
  rw [State.readerOk, State.readerOk, hmode, State.flag_readerTaken _ _ _ (by decide)]
  rfl

/-- R430: with GO set, an idle and enabled reader ends the operation with EXT_FIELD, whichever operation it is. -/
theorem State.exists_readerGo_eq_of_extField {s : State} {w : Word} (hgo : w.getLsbD 31 = true) (hop : s.badge.op = none) (hok : s.readerOk = true)
    (hext : s.flag F.BADGE_STAT_EXT_FIELD = true) : ∃ v, s.readerGo w = (s.readerTaken v).readerEnd rdEXT := by
  refine ⟨setBits (w &&& 0x7C0001FF#32) 8 0 (if 256 < getBits w 8 0 then getBits (s.reg A.BADGE_RD_CTRL) 8 0 else getBits w 8 0), ?_⟩
  unfold State.readerGo
  dsimp only
  rw [if_neg (by rw [hgo]; simpa using hop), ← State.readerTaken, if_neg (by rw [State.readerOk_readerTaken, hok]; decide),
    if_pos ((State.flag_readerTaken _ _ _ (by decide)).trans hext)]

theorem getLsbD_31_ofNat32 {n : Nat} (hlo : 2 ^ 31 ≤ n) (hhi : n < 2 ^ 32) : (BitVec.ofNat 32 n).getLsbD 31 = true := by
  rw [getLsbD_ofNat32 _ _ (by decide), decide_eq_true_eq]
  omega

/-- R433: a reader command is a store to BADGE_RD_CTRL with GO set. -/
theorem exists_exec_readerCommand_eq {c : Instr} {m rate len : Nat} (s : State) (hrate : rate < 4) (hlen : len ≤ 256)
    (hc : c ∈ [.fieldOn m, .fieldOff m, .activate m rate, .exchange m len, .deselect m]) :
    ∃ w : Word, w.getLsbD 31 = true ∧ exec c s = .next (s.store m A.BADGE_RD_CTRL w) := by
  simp only [List.mem_cons, List.not_mem_nil, or_false] at hc
  obtain rfl | rfl | rfl | rfl | rfl := hc
  all_goals exact ⟨_, getLsbD_31_ofNat32 (by omega) (by omega), rfl⟩

/-- R430: the store ends the operation at once, and in a quiet state nothing follows it. -/
theorem exists_exec_readerCommand_eq_of_extField {s : State} {c : Instr} {m rate len : Nat} (hrate : rate < 4) (hlen : len ≤ 256)
    (hc : c ∈ [.fieldOn m, .fieldOff m, .activate m rate, .exchange m len, .deselect m]) (hquiet : s.Quiet) (hw : s.mayWrite m A.BADGE_RD_CTRL = true)
    (hop : s.badge.op = none) (hok : s.readerOk = true) (hext : s.flag F.BADGE_STAT_EXT_FIELD = true) :
    ∃ v, exec c s = .next ((s.readerTaken v).readerEnd rdEXT) := by
  obtain ⟨w, hgo, hexec⟩ := exists_exec_readerCommand_eq s hrate hlen hc
  obtain ⟨v, hv⟩ := State.exists_readerGo_eq_of_extField hgo hop hok hext
  have hend := ((s.readerTaken v).sameButRegs_readerEnd rdEXT).quiet (State.quiet_readerTaken hquiet v)
  have hstore : s.store m A.BADGE_RD_CTRL w = (s.readerGo w).settle := store_reg hw (by decide) rfl
  exact ⟨v, by rw [hexec, hstore, hv, State.settle_of_quiet hend]⟩

/-- Settles O16: every tag command asks first whether the tag answers, which it does not under the carrier; every reader command is a store with GO,
which ends with EXT_FIELD before the operation is looked at. -/
theorem readerAndTagExclude : Obligations.ReaderAndTagExclude := by
  refine ⟨?tag, ?reader⟩
  case tag =>
    intro s c uid data p n lost strong hcarrier hc
    simp only [List.mem_cons, List.not_mem_nil, or_false] at hc
    obtain rfl | rfl | rfl | rfl | rfl | rfl | rfl | rfl | rfl | rfl := hc
    all_goals exact congrArg Host.Outcome.next (ite_tagAnswers_of_carrier hcarrier _ _)
  case reader =>
    intro s t c m rate len hrate hlen hc hquiet hw hop hok hext hexec
    obtain ⟨v, hend⟩ := exists_exec_readerCommand_eq_of_extField hrate hlen hc hquiet hw hop hok hext
    rw [hend] at hexec
    cases hexec
    obtain ⟨hbadge, hwire, hmem, -, -⟩ := (s.readerTaken v).sameButRegs_readerEnd rdEXT
    exact ⟨State.rd_status_readerEnd .., State.rd_busy_readerEnd .., by rw [hbadge], by rw [hbadge]; rfl, hwire, hmem⟩

end Sys2Proof.Machine
end

section
/-! Rules of the state that the statements below share: what a register write, a latch, a record, a timer and a settled command leave alone. -/

namespace Sys2Proof.Machine

/-! ## Registers and latches -/

theorem State.exists_wr_eq (s : State) (f : Fld) (v : Nat) :
    ∃ regs, s.wr f v = { s with regs := regs } ∧ ∀ a, a ≠ f.addr → look regReset regs a = s.reg a :=
  ⟨_, rfl, fun a ha => (State.reg_wr s f v a).trans (if_neg ha)⟩

theorem State.exists_irq_eq (s : State) (n : Nat) : ∃ regs, s.irq n = { s with regs := regs } := by
  unfold State.irq
  split
  · exact ⟨_, rfl⟩
  · exact ⟨_, rfl⟩

theorem State.quiet_irq {s : State} (h : s.Quiet) (n : Nat) : (s.irq n).Quiet := by
  obtain ⟨regs, hirq⟩ := s.exists_irq_eq n
  rw [hirq]
  exact h

theorem State.cue_irq (s : State) (n : Nat) : (s.irq n).cue = s.cue := by
  obtain ⟨regs, hirq⟩ := s.exists_irq_eq n
  rw [hirq]

/-! ## Records -/

theorem State.post_of_full {s : State} (h : s.book.inFifo.length = 64) (code sev src : Nat) (ws : List Nat) :
    s.post code sev src ws = s.sat F.PBOOK_DROP_A_DROPPED := if_neg (by omega)

theorem State.post_of_room {s : State} (h : s.book.inFifo.length < 64) (code sev src : Nat) (ws : List Nat) : s.post code sev src ws = { s with
    book.inFifo := s.book.inFifo ++ [{ st := s.st, seq := 0, code, sev, sum := false, src, rep := 0, words := (ws.take 4).map (BitVec.ofNat 32 ·) }] } :=
  if_pos h

/-- A record enters the Prompt Book or is counted in a register; nothing else changes. -/
theorem State.exists_post_eq (s : State) (code sev src : Nat) (ws : List Nat) :
    ∃ regs book, s.post code sev src ws = { s with regs := regs, book := book } := by
  unfold State.post State.postRec
  split
  · exact ⟨s.regs, _, rfl⟩
  · obtain ⟨regs, hcount, -⟩ := s.exists_wr_eq F.PBOOK_DROP_A_DROPPED (min (s.rd F.PBOOK_DROP_A_DROPPED + 1) (F.PBOOK_DROP_A_DROPPED.card - 1))
    exact ⟨regs, s.book, hcount⟩

theorem State.latched_postLim (s : State) (key code sev src : Nat) (words : List Nat) (n : Nat) :
    (s.postLim key code sev src words).latched n = s.latched n := by
  have hA : (pendFld n).addr ≠ A.PBOOK_DROP_A := by
    show 0x401B0400 + 0x4 * (n / 32) ≠ 0x4017000C
    omega
  have hB : (pendFld n).addr ≠ A.PBOOK_DROP_B := by
    show 0x401B0400 + 0x4 * (n / 32) ≠ 0x40170010
    omega
  rw [State.latched, State.latched, State.flag, State.flag, State.rd, State.rd, reg_postLim _ _ _ _ _ _ _ hA hB]

/-! ## Time, cores and queues -/

theorem State.mem_elapsed (s : State) (k : Timer) : (s.elapsed k).mem = s.mem := by
  unfold State.elapsed State.reachST
  split
  · rfl
  · rfl

theorem State.core_setCore_of_ne (s : State) {n k : Nat} (c : CoreSt) (h : k ≠ n) : (s.setCore n c).core k = s.core k :=
  (look_put (fun _ => CoreSt.reset) s.cores n c k).trans (if_neg h)

theorem State.queue_setQueue (s : State) (q : Nat) (x : QRec) (r : Nat) : (s.setQueue q x).queue r = if r = q then x else s.queue r :=
  look_put ..

/-! ## The end of a command -/

/-- The next state of a command that settles in a quiet state is that state. -/
theorem eq_of_exec_settle {c : Instr} {s t u : State} (hsettle : exec c s = .next u.settle) (hquiet : u.Quiet) (hexec : exec c s = .next t) : t = u := by
  rw [hsettle, State.settle_of_quiet hquiet] at hexec
  cases hexec
  rfl

end Sys2Proof.Machine
end

section
/-! A step: the command at the front of the queue or one cycle of Stage Time, and the invariant that every step keeps. -/

namespace Sys2Proof.Machine

/-- Settles O1: the definition of a step, with the front of the queue named. -/
theorem stepRunsFrontCommand : Obligations.StepRunsFrontCommand := by
  intro s c rest hpending
  unfold step
  rw [hpending]

theorem step_of_pending_nil {s : State} (h : s.pending = []) : step s = .next s.tick := by
  unfold step
  rw [h]

/-- Stage Time that does not run stands. -/
theorem State.tick_of_not_timeRuns {s : State} (h : s.timeRuns = false) : s.tick = s := if_neg (by rw [h]; exact Bool.false_ne_true)

/-- Settles O2: an empty queue lets one cycle pass, which moves Stage Time only while it runs. -/
theorem idleStepIsOneClockCycle : Obligations.IdleStepIsOneClockCycle :=
  fun _ hpending => ⟨step_of_pending_nil hpending, State.tick_of_not_timeRuns⟩

/-- The one register that reset sets apart from its described reset value (log 4) holds another value than that one, so the store of registers is canonical. -/
theorem canonical_reset_regs : canonical regReset State.reset.regs = true := by decide

/-- Settles O3: three of the stores and every buffer are empty at reset, and the registers list one entry. -/
theorem invHoldsAtReset : Obligations.InvHoldsAtReset :=
  ⟨⟨rfl, canonical_reset_regs, rfl, rfl⟩, by decide, by decide, by decide, by decide, by decide⟩

/-! ## The invariant along a step -/

/-- Every command keeps the invariant of the device: one lemma for each meaning. -/
theorem keep_exec {s : State} (hInv : s.Inv) : ∀ c : Instr, KInv (exec c s)
  | .frameBoundary .. => keep_execFrameBoundary hInv
  | .registerWrite .. => keep_execRegisterWrite hInv
  | .modeReqGo .. => keep_execModeReqGo hInv
  | .lcAdvWrite .. => keep_execLcAdvWrite hInv
  | .lcProgramDone => keep_execLcProgramDone hInv
  | .commitGo .. => keep_execCommitGo hInv
  | .commitAbort .. => keep_execCommitAbort hInv
  | .commitClrcnt .. => keep_execCommitClrcnt hInv
  | .commitApply .. => keep_execCommitApply hInv
  | .stimeNowRead .. => keep_execStimeNowRead hInv
  | .stimeFrameRead .. => keep_execStimeFrameRead hInv
  | .stimeCoarseRead .. => keep_execStimeCoarseRead hInv
  | .stepGo .. => keep_execStepGo hInv
  | .servoLossTimeout => keep_execServoLossTimeout hInv
  | .holdLimitExpiry => keep_execHoldLimitExpiry hInv
  | .servoSrcSwitch => keep_execServoSrcSwitch hInv
  | .mark .. => keep_execMark hInv
  | .coreIrq .. => keep_execCoreIrq hInv
  | .gather .. => keep_execGather hInv
  | .pinSet .. => keep_execPinSet hInv
  | .commit .. => keep_execCommit hInv
  | .egressRelease .. => keep_execEgressRelease hInv
  | .mirror .. => keep_execMirror hInv
  | .queueKick .. => keep_execQueueKick hInv
  | .packerSwap .. => keep_execPackerSwap hInv
  | .doorbell .. => keep_execDoorbell hInv
  | .stewardJob .. => keep_execStewardJob hInv
  | .pbookMark .. => keep_execPbookMark hInv
  | .preIssueRetry .. => keep_execPreIssueRetry hInv
  | .pinCueEffect .. => keep_execPinCueEffect hInv
  | .pulseEnd .. => keep_execPulseEnd hInv
  | .ticketDeadline .. => keep_execTicketDeadline hInv
  | .ticketReclaim .. => keep_execTicketReclaim hInv
  | .cueTicketDone .. => keep_execCueTicketDone hInv
  | .cueEditPush .. => keep_execCueEditPush hInv
  | .cueEditDelete .. => keep_execCueEditDelete hInv
  | .cueLoadDataWrite .. => keep_execCueLoadDataWrite hInv
  | .cueLoadDataRead .. => keep_execCueLoadDataRead hInv
  | .cueRunSet .. => keep_execCueRunSet hInv
  | .cueRunClear .. => keep_execCueRunClear hInv
  | .cueClrCnt .. => keep_execCueClrCnt hInv
  | .linkCfgWrite .. => keep_execLinkCfgWrite hInv
  | .linkUp .. => keep_execLinkUp hInv
  | .linkDown .. => keep_execLinkDown hInv
  | .rxFrame .. => keep_execRxFrame hInv
  | .frameAuthenticate .. => keep_execFrameAuthenticate hInv
  | .ddEntryAge .. => keep_execDdEntryAge hInv
  | .supervisionTx .. => keep_execSupervisionTx hInv
  | .supervisionTimeout .. => keep_execSupervisionTimeout hInv
  | .egressQueueTx .. => keep_execEgressQueueTx hInv
  | .releaseStart .. => keep_execReleaseStart hInv
  | .ptpSyncRx .. => keep_execPtpSyncRx hInv
  | .ptpSyncTx .. => keep_execPtpSyncTx hInv
  | .pdelayReqTx .. => keep_execPdelayReqTx hInv
  | .pdelayReqRx .. => keep_execPdelayReqRx hInv
  | .pdelayRespRx .. => keep_execPdelayRespRx hInv
  | .syncTimeout => keep_execSyncTimeout hInv
  | .redCfgWrite .. => keep_execRedCfgWrite hInv
  | .ptpPortWrite .. => keep_execPtpPortWrite hInv
  | .portCntSnap .. => keep_execPortCntSnap hInv
  | .portCntClr .. => keep_execPortCntClr hInv
  | .soloistKeyPush .. => keep_execSoloistKeyPush hInv
  | .soloistKeyErase .. => keep_execSoloistKeyErase hInv
  | .soloistCntClear .. => keep_execSoloistCntClear hInv
  | .switchEditPush .. => keep_execSwitchEditPush hInv
  | .switchEditDelete .. => keep_execSwitchEditDelete hInv
  | .queueEnable .. => keep_execQueueEnable hInv
  | .queueDisable .. => keep_execQueueDisable hInv
  | .enqueueStore .. => keep_execEnqueueStore hInv
  | .copyEnqueue .. => keep_execCopyEnqueue hInv
  | .copyEnqueueDone => keep_execCopyEnqueueDone hInv
  | .enqueueWindowLoad .. => keep_execEnqueueWindowLoad hInv
  | .dequeueLoad .. => keep_execDequeueLoad hInv
  | .release .. => keep_execRelease hInv
  | .queueIdleTimeout .. => keep_execQueueIdleTimeout hInv
  | .notifyPop .. => keep_execNotifyPop hInv
  | .wingsErrClr .. => keep_execWingsErrClr hInv
  | .gatherStart => keep_execGatherStart hInv
  | .gatherComplete .. => keep_execGatherComplete hInv
  | .ensembleCntClr .. => keep_execEnsembleCntClr hInv
  | .packerWrite .. => keep_execPackerWrite hInv
  | .packerCtrlSwap .. => keep_execPackerCtrlSwap hInv
  | .packerReturn .. => keep_execPackerReturn hInv
  | .packerCntClear .. => keep_execPackerCntClear hInv
  | .bankWakeDone .. => keep_execBankWakeDone hInv
  | .bankZeroDone .. => keep_execBankZeroDone hInv
  | .bankResumeDone .. => keep_execBankResumeDone hInv
  | .terraceRequestServed .. => keep_execTerraceRequestServed hInv
  | .eccWriteback => keep_execEccWriteback hInv
  | .mirrorLineRead => keep_execMirrorLineRead hInv
  | .rescuedWriteResume => keep_execRescuedWriteResume hInv
  | .terraceCntSnap .. => keep_execTerraceCntSnap hInv
  | .terraceCntClr .. => keep_execTerraceCntClr hInv
  | .colViolPop .. => keep_execColViolPop hInv
  | .bundleIssue .. => keep_execBundleIssue hInv
  | .interruptEntry .. => keep_execInterruptEntry hInv
  | .waitResume .. => keep_execWaitResume hInv
  | .lateBusError .. => keep_execLateBusError hInv
  | .lateErrorPop .. => keep_execLateErrorPop hInv
  | .irqPendClear .. => keep_execIrqPendClear hInv
  | .irqAck .. => keep_execIrqAck hInv
  | .irqDoorbell .. => keep_execIrqDoorbell hInv
  | .irqRouteWrite .. => keep_execIrqRouteWrite hInv
  | .coreHold .. => keep_execCoreHold hInv
  | .coreStart .. => keep_execCoreStart hInv
  | .groupSupplyChange .. => keep_execGroupSupplyChange hInv
  | .supplyRestoreDrive .. => keep_execSupplyRestoreDrive hInv
  | .pinInputChange .. => keep_execPinInputChange hInv
  | .edgeAccept .. => keep_execEdgeAccept hInv
  | .dtVerdict .. => keep_execDtVerdict hInv
  | .tripPairCommit .. => keep_execTripPairCommit hInv
  | .readbackMismatch .. => keep_execReadbackMismatch hInv
  | .ppsOutRise => keep_execPpsOutRise hInv
  | .ppsOutFall => keep_execPpsOutFall hInv
  | .irigFrameEnd .. => keep_execIrigFrameEnd hInv
  | .grpCntClr .. => keep_execGrpCntClr hInv
  | .laneUp .. => keep_execLaneUp hInv
  | .laneDown .. => keep_execLaneDown hInv
  | .s2Fault => keep_execS2Fault hInv
  | .hello .. => keep_execHello hInv
  | .keyMessage .. => keep_execKeyMessage hInv
  | .auth .. => keep_execAuth hInv
  | .pairingKeyed => keep_execPairingKeyed hInv
  | .pairingRetry => keep_execPairingRetry hInv
  | .pulseSend => keep_execPulseSend hInv
  | .pulse .. => keep_execPulse hInv
  | .ready .. => keep_execReady hInv
  | .abort => keep_execAbort hInv
  | .cancel => keep_execCancel hInv
  | .aliveEdge => keep_execAliveEdge hInv
  | .mirrorTransferEnd => keep_execMirrorTransferEnd hInv
  | .mirrorRx .. => keep_execMirrorRx hInv
  | .sealVerify => keep_execSealVerify hInv
  | .mirrorApply => keep_execMirrorApply hInv
  | .failureCheck => keep_execFailureCheck hInv
  | .takeover .. => keep_execTakeover hInv
  | .handoverCommitCheck => keep_execHandoverCommitCheck hInv
  | .selftestRun .. => keep_execSelftestRun hInv
  | .understudyFeed .. => keep_execUnderstudyFeed hInv
  | .understudyJoin .. => keep_execUnderstudyJoin hInv
  | .understudyHandover .. => keep_execUnderstudyHandover hInv
  | .understudyResync .. => keep_execUnderstudyResync hInv
  | .understudyUnpair .. => keep_execUnderstudyUnpair hInv
  | .understudyAckStale .. => keep_execUnderstudyAckStale hInv
  | .holdSet .. => keep_execHoldSet hInv
  | .holdClr .. => keep_execHoldClr hInv
  | .understudyCntClear .. => keep_execUnderstudyCntClear hInv
  | .rollCall => keep_execRollCall hInv
  | .roll .. => keep_execRoll hInv
  | .attest .. => keep_execAttest hInv
  | .welcome .. => keep_execWelcome hInv
  | .rollWaitExpiry => keep_execRollWaitExpiry hInv
  | .healthPeriodTick => keep_execHealthPeriodTick hInv
  | .callBroadcast .. => keep_execCallBroadcast hInv
  | .health .. => keep_execHealth hInv
  | .memberSilent .. => keep_execMemberSilent hInv
  | .directorSilent => keep_execDirectorSilent hInv
  | .keySend .. => keep_execKeySend hInv
  | .key .. => keep_execKey hInv
  | .keyAck .. => keep_execKeyAck hInv
  | .keyRetry .. => keep_execKeyRetry hInv
  | .interval .. => keep_execInterval hInv
  | .intervalAck .. => keep_execIntervalAck hInv
  | .intervalStart .. => keep_execIntervalStart hInv
  | .intervalEnd => keep_execIntervalEnd hInv
  | .summarySend => keep_execSummarySend hInv
  | .summary .. => keep_execSummary hInv
  | .command .. => keep_execCommand hInv
  | .troupeCntClear .. => keep_execTroupeCntClear hInv
  | .enc .. => keep_execEnc hInv
  | .dec .. => keep_execDec hInv
  | .encXor .. => keep_execEncXor hInv
  | .gateOpen .. => keep_execGateOpen hInv
  | .gateCtr .. => keep_execGateCtr hInv
  | .gateVerdict .. => keep_execGateVerdict hInv
  | .wrap .. => keep_execWrap hInv
  | .unwrap .. => keep_execUnwrap hInv
  | .ctxSaveClear .. => keep_execCtxSaveClear hInv
  | .ctxSaveWrapped .. => keep_execCtxSaveWrapped hInv
  | .ctxRestore .. => keep_execCtxRestore hInv
  | .chorusJobStart .. => keep_execChorusJobStart hInv
  | .chorusJobDone .. => keep_execChorusJobDone hInv
  | .chorusKeyPush .. => keep_execChorusKeyPush hInv
  | .chorusKeyErase .. => keep_execChorusKeyErase hInv
  | .chorusCntClear .. => keep_execChorusCntClear hInv
  | .cmSeedDraw => keep_execCmSeedDraw hInv
  | .hashOps .. => keep_execHashOps hInv
  | .hmacSha256 .. => keep_execHmacSha256 hInv
  | .ecdsaP256 .. => keep_execEcdsaP256 hInv
  | .ecdsaP384 .. => keep_execEcdsaP384 hInv
  | .ed25519 .. => keep_execEd25519 hInv
  | .ecdh .. => keep_execEcdh hInv
  | .p256Keygen .. => keep_execP256Keygen hInv
  | .mlKem768 .. => keep_execMlKem768 hInv
  | .mlKem1024 .. => keep_execMlKem1024 hInv
  | .mlDsa65 .. => keep_execMlDsa65 hInv
  | .mlDsa87 .. => keep_execMlDsa87 hInv
  | .rsaVerify .. => keep_execRsaVerify hInv
  | .rsaPrivate .. => keep_execRsaPrivate hInv
  | .modexp .. => keep_execModexp hInv
  | .lmsXmssVerify .. => keep_execLmsXmssVerify hInv
  | .deriveKey .. => keep_execDeriveKey hInv
  | .combine .. => keep_execCombine hInv
  | .importKey .. => keep_execImportKey hInv
  | .massifErase .. => keep_execMassifErase hInv
  | .publicKey .. => keep_execPublicKey hInv
  | .massifJobStart .. => keep_execMassifJobStart hInv
  | .longJobResume => keep_execLongJobResume hInv
  | .massifJobDone .. => keep_execMassifJobDone hInv
  | .massifCntClear .. => keep_execMassifCntClear hInv
  | .screeInst .. => keep_execScreeInst hInv
  | .screeReseed .. => keep_execScreeReseed hInv
  | .screeClrCnt .. => keep_execScreeClrCnt hInv
  | .screeStartupDone .. => keep_execScreeStartupDone hInv
  | .sourceHealthFail .. => keep_execSourceHealthFail hInv
  | .sourceRetest .. => keep_execSourceRetest hInv
  | .drbgReseed .. => keep_execDrbgReseed hInv
  | .screeRandRead .. => keep_execScreeRandRead hInv
  | .screeTestData .. => keep_execScreeTestData hInv
  | .curtainSourceAssert .. => keep_execCurtainSourceAssert hInv
  | .curtainZeroDone => keep_execCurtainZeroDone hInv
  | .junctionTempWarn .. => keep_execJunctionTempWarn hInv
  | .curtainCfgWrite .. => keep_execCurtainCfgWrite hInv
  | .unlockBodyCheck .. => keep_execUnlockBodyCheck hInv
  | .unlockBlockExpiry => keep_execUnlockBlockExpiry hInv
  | .dtakeCntClear .. => keep_execDtakeCntClear hInv
  | .refugeLoopCheck .. => keep_execRefugeLoopCheck hInv
  | .refugeSupplySwitch => keep_execRefugeSupplySwitch hInv
  | .cellRemoved .. => keep_execCellRemoved hInv
  | .cellInserted .. => keep_execCellInserted hInv
  | .vbatLow .. => keep_execVbatLow hInv
  | .refugeRtcSet .. => keep_execRefugeRtcSet hInv
  | .refugeLoopEnable .. => keep_execRefugeLoopEnable hInv
  | .logMarkCopied .. => keep_execLogMarkCopied hInv
  | .brkUnlock .. => keep_execBrkUnlock hInv
  | .unlockArmExpiry .. => keep_execUnlockArmExpiry hInv
  | .program .. => keep_execProgram hInv
  | .programSafe .. => keep_execProgramSafe hInv
  | .erase .. => keep_execErase hInv
  | .inspect .. => keep_execInspect hInv
  | .refresh .. => keep_execRefresh hInv
  | .bedrockCmdStart => keep_execBedrockCmdStart hInv
  | .bedrockCmdDone .. => keep_execBedrockCmdDone hInv
  | .eraseResume .. => keep_execEraseResume hInv
  | .patrolRead .. => keep_execPatrolRead hInv
  | .patrolPop .. => keep_execPatrolPop hInv
  | .brkEccClear .. => keep_execBrkEccClear hInv
  | .readStatus => keep_execReadStatus hInv
  | .write .. => keep_execWrite hInv
  | .qwrite .. => keep_execQwrite hInv
  | .read .. => keep_execRead hInv
  | .qread .. => keep_execQread hInv
  | .hostCntClear .. => keep_execHostCntClear hInv
  | .sessionOpen => keep_execSessionOpen hInv
  | .sessionAuth .. => keep_execSessionAuth hInv
  | .sessionClose => keep_execSessionClose hInv
  | .sessionInfo => keep_execSessionInfo hInv
  | .ping => keep_execPing hInv
  | .idGet => keep_execIdGet hInv
  | .idCert => keep_execIdCert hInv
  | .idAttest => keep_execIdAttest hInv
  | .idChallenge => keep_execIdChallenge hInv
  | .imgBegin => keep_execImgBegin hInv
  | .imgWrite .. => keep_execImgWrite hInv
  | .imgCommit => keep_execImgCommit hInv
  | .imgSelect => keep_execImgSelect hInv
  | .imgList => keep_execImgList hInv
  | .cfgApply => keep_execCfgApply hInv
  | .cfgInfo => keep_execCfgInfo hInv
  | .timeStep => keep_execTimeStep hInv
  | .rtcSet => keep_execRtcSet hInv
  | .cueGet => keep_execCueGet hInv
  | .cuePush => keep_execCuePush hInv
  | .cueCommit => keep_execCueCommit hInv
  | .cueAbort => keep_execCueAbort hInv
  | .cueStatus => keep_execCueStatus hInv
  | .keyProvision .. => keep_execKeyProvision hInv
  | .keyErase .. => keep_execKeyErase hInv
  | .keyList => keep_execKeyList hInv
  | .keyStream => keep_execKeyStream hInv
  | .kekRoll => keep_execKekRoll hInv
  | .kdcRelay => keep_execKdcRelay hInv
  | .pairRole => keep_execPairRole hInv
  | .handover => keep_execHandover hInv
  | .pairCtrl => keep_execPairCtrl hInv
  | .pairStatus => keep_execPairStatus hInv
  | .troupeRole => keep_execTroupeRole hInv
  | .troupeStatus => keep_execTroupeStatus hInv
  | .rollNow => keep_execRollNow hInv
  | .intervalCall => keep_execIntervalCall hInv
  | .relay => keep_execRelay hInv
  | .relayTimeout .. => keep_execRelayTimeout hInv
  | .bookRead => keep_execBookRead hInv
  | .bookArchive => keep_execBookArchive hInv
  | .bookNote => keep_execBookNote hInv
  | .bookClear => keep_execBookClear hInv
  | .fileList => keep_execFileList hInv
  | .fileRead .. => keep_execFileRead hInv
  | .fileWrite => keep_execFileWrite hInv
  | .fileDelete .. => keep_execFileDelete hInv
  | .mediaEject => keep_execMediaEject hInv
  | .status => keep_execStatus hInv
  | .regRead => keep_execRegRead hInv
  | .selftest .. => keep_execSelftest hInv
  | .trace => keep_execTrace hInv
  | .coreCtrl => keep_execCoreCtrl hInv
  | .commission => keep_execCommission hInv
  | .unlock .. => keep_execUnlock hInv
  | .modeReq => keep_execModeReq hInv
  | .reset => keep_execReset hInv
  | .returnLc => keep_execReturnLc hInv
  | .decommission => keep_execDecommission hInv
  | .issue => keep_execIssue hInv
  | .commandExecStart .. => keep_execCommandExecStart hInv
  | .commandFinalReply .. => keep_execCommandFinalReply hInv
  | .sessionPendingTimeout .. => keep_execSessionPendingTimeout hInv
  | .sessionIdleTimeout .. => keep_execSessionIdleTimeout hInv
  | .note => keep_execNote hInv
  | .sign => keep_execSign hInv
  | .verify .. => keep_execVerify hInv
  | .store .. => keep_execStore hInv
  | .load => keep_execLoad hInv
  | .feed => keep_execFeed hInv
  | .patrol => keep_execPatrol hInv
  | .rtcSync => keep_execRtcSync hInv
  | .recordEnterRing => keep_execRecordEnterRing hInv
  | .limitWindowEnd .. => keep_execLimitWindowEnd hInv
  | .archivePair => keep_execArchivePair hInv
  | .recLatchRead .. => keep_execRecLatchRead hInv
  | .recFinalRead .. => keep_execRecFinalRead hInv
  | .pbookClear .. => keep_execPbookClear hInv
  | .pbookDropClear .. => keep_execPbookDropClear hInv
  | .traceCfgWrite .. => keep_execTraceCfgWrite hInv
  | .tracePacketSend => keep_execTracePacketSend hInv
  | .observeCntSnap .. => keep_execObserveCntSnap hInv
  | .observeCntClr .. => keep_execObserveCntClr hInv
  | .traceStatClear .. => keep_execTraceStatClear hInv
  | .fieldOn .. => keep_execFieldOn hInv
  | .fieldOff .. => keep_execFieldOff hInv
  | .activate .. => keep_execActivate hInv
  | .exchange .. => keep_execExchange hInv
  | .deselect .. => keep_execDeselect hInv
  | .readerOpDone .. => keep_execReaderOpDone hInv
  | .carrierIdleOff => keep_execCarrierIdleOff hInv
  | .detuningPing .. => keep_execDetuningPing hInv
  | .extFieldChange .. => keep_execExtFieldChange hInv
  | .tagPowerUp .. => keep_execTagPowerUp hInv
  | .reqa => keep_execReqa hInv
  | .wupa => keep_execWupa hInv
  | .anticollision => keep_execAnticollision hInv
  | .select .. => keep_execSelect hInv
  | .rats => keep_execRats hInv
  | .pps => keep_execPps hInv
  | .hlta => keep_execHlta hInv
  | .tagDeselect => keep_execTagDeselect hInv
  | .tagRead .. => keep_execTagRead hInv
  | .writeMb .. => keep_execWriteMb hInv
  | .fieldLoss => keep_execFieldLoss hInv
  | .haltSilenceEnd => keep_execHaltSilenceEnd hInv
  | .badgeTsCommit .. => keep_execBadgeTsCommit hInv
  | .badgeTsAbort .. => keep_execBadgeTsAbort hInv
  | .tsCommitResume => keep_execTsCommitResume hInv
  | .tsFlip => keep_execTsFlip hInv
  | .badgeStatRead .. => keep_execBadgeStatRead hInv
  | .cardInsert => keep_execCardInsert hInv
  | .cardRemoval .. => keep_execCardRemoval hInv
  | .identify .. => keep_execIdentify hInv
  | .cartRead .. => keep_execCartRead hInv
  | .cartWrite .. => keep_execCartWrite hInv
  | .cmd13Status .. => keep_execCmd13Status hInv
  | .eject .. => keep_execEject hInv
  | .cartOpDone .. => keep_execCartOpDone hInv
  | .powerOnReset => keep_execPowerOnReset hInv
  | .pinReset => keep_execPinReset hInv
  | .warmReset => keep_execWarmReset hInv
  | .stewardRestart => keep_execStewardRestart hInv
  | .stewardReattach => keep_execStewardReattach hInv
  | .powerFailure => keep_execPowerFailure hInv
  | .auxSupplyLoss => keep_execAuxSupplyLoss hInv
  | .pllLock => keep_execPllLock hInv
  | .pllLockRetry => keep_execPllLockRetry hInv
  | .recoveredQualify .. => keep_execRecoveredQualify hInv
  | .recoveredLoss => keep_execRecoveredLoss hInv
  | .earlyActStart => keep_execEarlyActStart hInv
  | .callAlign .. => keep_execCallAlign hInv
  | .roleSettlement => keep_execRoleSettlement hInv
  | .txFrameEnd .. => keep_execTxFrameEnd hInv
  | .vddioAuxReturn => keep_execVddioAuxReturn hInv
  | .vddBadgeLoss => keep_execVddBadgeLoss hInv
  | .refugePowerLoss => keep_execRefugePowerLoss hInv
  | .curtainSourceClears .. => keep_execCurtainSourceClears hInv
  | .mirrorFirstRecordArrives .. => keep_execMirrorFirstRecordArrives hInv

/-- Settles O4: a step is a command on the state without it in the queue, which the invariant does not speak of, or one cycle of Stage Time. -/
theorem everyStepKeepsInv : Obligations.EveryStepKeepsInv := by
  intro s t hInv hstep
  cases hpending : s.pending with
  | nil =>
    rw [step_of_pending_nil hpending] at hstep
    cases hstep
    exact keep_tick hInv
  | cons c rest =>
    rw [stepRunsFrontCommand s c rest hpending] at hstep
    exact keep_exec (s := { s with pending := rest }) hInv c t hstep

/-! ## The input FIFO of the Prompt Book (R414) -/

/-- Settles O15: the raise of a record is the entry into the input FIFO or, with 64 records there, a count in a field of 16 bits that saturates. -/
theorem inputFifoFull : Obligations.InputFifoFull := by
  refine ⟨fun s code sev src ws hfull => ⟨State.post_of_full hfull .., ?count⟩, fun s code sev src ws hroom => State.post_of_room hroom ..⟩
  rw [State.post_of_full hfull]
  exact State.rd_sat s F.PBOOK_DROP_A_DROPPED 1 (by decide) (by decide)

end Sys2Proof.Machine
end

section
/-! The replay window of a session (R383): what makes a SEQ fresh, and what an acceptance does to that. -/

namespace Sys2Proof.Machine

theorem Sess.fresh_eq_true_iff {x : Sess} (seq : Nat) :
    x.fresh seq = true ↔ seq ≠ 0 ∧ x.high ≠ 0xFFFFFFFF ∧ x.high < seq + 64 ∧ seq ≠ x.high ∧ ¬x.seen.contains seq = true := by
  simp [Sess.fresh, and_assoc]

/-- The four ways in which a SEQ is refused while the number space lasts. -/
theorem Sess.fresh_eq_false_iff {x : Sess} (hhigh : x.high ≠ 0xFFFFFFFF) (seq : Nat) :
    x.fresh seq = false ↔ seq = 0 ∨ seq + 64 ≤ x.high ∨ seq = x.high ∨ x.seen.contains seq = true := by
  rw [Bool.eq_false_iff, Ne, Sess.fresh_eq_true_iff, ← Nat.not_lt]
  tauto

/-- At the end of the number space nothing is fresh any more. -/
theorem Sess.fresh_of_high {x : Sess} (h : x.high = 0xFFFFFFFF) (seq : Nat) : x.fresh seq = false := by
  simp [Sess.fresh, h]

theorem Sess.high_take (x : Sess) (seq : Nat) : (x.take seq).high = max x.high seq := rfl

/-- The marks after an acceptance: those before, the accepted SEQ and the highest before it, as far as they are still in the window. -/
theorem Sess.contains_seen_take (x : Sess) (seq k : Nat) :
    (x.take seq).seen.contains k = true ↔ (k = seq ∨ k = x.high ∨ x.seen.contains k = true) ∧ max x.high seq < k + 64 := by
  simp only [Sess.take, List.contains_iff_mem]
  split
  next hmark =>
    have hhigh : k = x.high → k ∈ x.seen := fun h => h ▸ hmark
    simp only [List.mem_filter, List.mem_cons, decide_eq_true_eq]
    tauto
  next => simp only [List.mem_filter, List.mem_cons, decide_eq_true_eq]

/-- What is fresh after an acceptance: not the accepted SEQ, and of the others what was fresh before and is still in the window. -/
theorem Sess.fresh_take_iff (x : Sess) (seq k : Nat) : (x.take seq).fresh k = true ↔
    k ≠ 0 ∧ max x.high seq ≠ 0xFFFFFFFF ∧ max x.high seq < k + 64 ∧ k ≠ seq ∧ k ≠ x.high ∧ ¬x.seen.contains k = true := by
  rw [Sess.fresh_eq_true_iff, Sess.contains_seen_take, Sess.high_take]
  have hmax : max x.high seq = x.high ∨ max x.high seq = seq := by omega
  constructor
  · rintro ⟨hzero, hlast, hwindow, -, hmark⟩
    exact ⟨hzero, hlast, hwindow, fun h => hmark ⟨.inl h, hwindow⟩, fun h => hmark ⟨.inr (.inl h), hwindow⟩, fun h => hmark ⟨.inr (.inr h), hwindow⟩⟩
  · rintro ⟨hzero, hlast, hwindow, hseq, hhigh, hmark⟩
    exact ⟨hzero, hlast, hwindow, by omega, fun ⟨h, _⟩ => h.elim hseq (·.elim hhigh hmark)⟩

/-- Settles O14: what is fresh after an acceptance is what was fresh before, without the accepted SEQ and what has left the window. -/
theorem replayWindow : Obligations.ReplayWindow := by
  refine ⟨fun x seq hhigh => Sess.fresh_eq_false_iff hhigh seq, fun x seq hhigh => Sess.fresh_of_high hhigh seq, Sess.high_take, ?accepted, ?refused, ?others⟩
  case accepted =>
    intro x seq _
    rw [Bool.eq_false_iff, Ne, Sess.fresh_take_iff]
    exact fun ⟨_, _, _, hne, _⟩ => hne rfl
  case refused =>
    intro x seq k _ hstale hhigh
    rw [Bool.eq_false_iff, Ne, Sess.fresh_take_iff]
    rintro ⟨hzero, -, hwindow, -, hkhigh, hmark⟩
    obtain h | h | h | h := (Sess.fresh_eq_false_iff hhigh k).mp hstale
    · exact hzero h
    · omega
    · exact hkhigh h
    · exact hmark h
  case others =>
    intro x seq k _ hk hne hlast hwindow
    obtain ⟨hzero, hhigh, -, hkhigh, hmark⟩ := (Sess.fresh_eq_true_iff k).mp hk
    exact (Sess.fresh_take_iff x seq k).mpr ⟨hzero, by omega, hwindow, hne, hkhigh, hmark⟩

end Sys2Proof.Machine
end

section
/-! Exception entry and return (R174, R179, R180): the bits of xstat, and what rfe brings back. -/

namespace Sys2Proof.Machine

/-! ## xstat -/

theorem getBits_self_eq_b2n (w : Word) (i : Nat) : getBits w i i = b2n (w.getLsbD i) := by
  rw [getBits, show i + 1 - i = 1 by omega, pow_one, ← Nat.toNat_testBit]
  show _ = b2n (w.toNat.testBit i)
  cases w.toNat.testBit i <;> rfl

/-- A number below 64 spelled by its bits gives a word with those bits. -/
theorem getLsbD_ofNat_bits (b0 b1 b2 b3 b4 b5 : Bool) :
    let w := BitVec.ofNat 32 (b2n b5 * 32 + b2n b4 * 16 + b2n b3 * 8 + b2n b2 * 4 + b2n b1 * 2 + b2n b0)
    w.getLsbD 0 = b0 ∧ w.getLsbD 1 = b1 ∧ w.getLsbD 2 = b2 ∧ w.getLsbD 3 = b3 ∧ w.getLsbD 4 = b4 ∧ w.getLsbD 5 = b5 := by
  revert b0 b1 b2 b3 b4 b5
  decide

/-- R179: entry sets EXL, switches the shadow set and keeps IE and SS in PIE and PSS. -/
theorem xstatEntry_eq (x : Word) (ds : Bool) : xstatEntry x ds = BitVec.ofNat 32
    (b2n ds * 32 + b2n (x.getLsbD 3) * 16 + b2n (!x.getLsbD 3) * 8 + b2n true * 4 + b2n (x.getLsbD 0) * 2 + b2n false) := by
  rw [xstatEntry, getBits_self_eq_b2n, getBits_self_eq_b2n]
  cases x.getLsbD 3 <;> rfl

theorem xstatReturn_eq (x : Word) : xstatReturn x = BitVec.ofNat 32
    (b2n false * 32 + b2n (x.getLsbD 4) * 16 + b2n (x.getLsbD 4) * 8 + b2n false * 4 + b2n (x.getLsbD 1) * 2 + b2n (x.getLsbD 1)) := by
  rw [xstatReturn, getBits_self_eq_b2n, getBits_self_eq_b2n]
  congr 1
  simp [b2n]

theorem xstatEntry_bits (x : Word) (ds : Bool) : (xstatEntry x ds).getLsbD 0 = false ∧ (xstatEntry x ds).getLsbD 1 = x.getLsbD 0
    ∧ (xstatEntry x ds).getLsbD 2 = true ∧ (xstatEntry x ds).getLsbD 3 = !x.getLsbD 3 ∧ (xstatEntry x ds).getLsbD 4 = x.getLsbD 3
    ∧ (xstatEntry x ds).getLsbD 5 = ds := by
  rw [xstatEntry_eq]
  exact getLsbD_ofNat_bits ..

theorem xstatReturn_bits (x : Word) : (xstatReturn x).getLsbD 0 = x.getLsbD 1 ∧ (xstatReturn x).getLsbD 1 = x.getLsbD 1
    ∧ (xstatReturn x).getLsbD 2 = false ∧ (xstatReturn x).getLsbD 3 = x.getLsbD 4 ∧ (xstatReturn x).getLsbD 4 = x.getLsbD 4
    ∧ (xstatReturn x).getLsbD 5 = false := by
  rw [xstatReturn_eq]
  exact getLsbD_ofNat_bits ..

/-- R180: what a bundle with rfe leaves of its core. -/
def CoreSt.returned (c k : CoreSt) : CoreSt :=
  { k with pc := c.xpc &&& 0xFFFFFFFC#32, delay := if c.xstat.getLsbD 5 then some (c.xtgt &&& 0xFFFFFFFC#32) else none
           xstat := xstatReturn c.xstat, shield := true }

theorem State.core_finishB_rfe (s : State) (n : Nat) (c k : CoreSt) {y : Syl} (lnk nxt : Word) (hop : y.op = 7) :
    (s.finishB n c k y lnk nxt).core n = c.returned k := by
  have hset : s.finishB n c k y lnk nxt = s.setCore n (c.returned k) := if_pos hop
  rw [hset, State.core_setCore_self]

/-- The target that entry saved of a delay bundle, and none of another bundle, comes back. -/
theorem CoreSt.delay_returned_enter (c k : CoreSt) (cause : Nat) (xc ad : Word) :
    ((c.enter cause xc ad).returned k).delay = c.delay.map (· &&& 0xFFFFFFFC#32) := by
  obtain ⟨-, -, -, -, -, hds⟩ := xstatEntry_bits c.xstat c.delay.isSome
  show (if (xstatEntry c.xstat c.delay.isSome).getLsbD 5 then some (c.delay.getD 0#32 &&& 0xFFFFFFFC#32) else none) = _
  rw [hds]
  cases c.delay with
  | none => rfl
  | some target => rfl

/-- Settles O12: entry moves IE and SS to PIE and PSS, and the return moves them back. -/
theorem exceptionEntryAndReturn : Obligations.ExceptionEntryAndReturn := by
  refine ⟨?entry, ?ret⟩
  case entry =>
    intro c cause xc ad
    obtain ⟨hie, hpie, hexl, hss, hpss, hds⟩ := xstatEntry_bits c.xstat c.delay.isSome
    exact ⟨rfl, rfl, rfl, rfl, rfl, hie, hpie, hexl, hss, hpss, hds, rfl⟩
  case ret =>
    intro s n cause c k xc ad lnk nxt y hop
    rw [State.core_finishB_rfe s n _ k lnk nxt hop]
    obtain ⟨-, hpie, -, -, hpss, -⟩ := xstatEntry_bits c.xstat c.delay.isSome
    obtain ⟨hie, -, hexl, hss, -, hds⟩ := xstatReturn_bits (c.enter cause xc ad).xstat
    exact ⟨rfl, CoreSt.delay_returned_enter .., hie.trans hpie, hss.trans hpss, hexl, hds, rfl⟩

end Sys2Proof.Machine
end

section
/-! Double-take (R343, R344): the outcome of a path, and what STALE and CHECK_FAIL book. -/

namespace Sys2Proof.Machine

/-! ## One path -/

/-- A decision block whose two doublewords hold no uncorrectable word is read as they stand, and the reading changes nothing. -/
theorem State.dtRead_of_good {s : State} {a : Nat} (hlo : s.terr.bad.contains a = false) (hhi : s.terr.bad.contains (a + 8) = false) :
    s.dtRead a = (s.peek a 8 ++ s.peek (a + 8) 8, s) := by
  simp only [State.dtRead, List.foldl_cons, List.foldl_nil, hlo, hhi, Bool.false_eq_true, if_false, List.nil_append]

theorem State.dtPath_of_disabled {s : State} {g : Nat} {l : List (Nat × Word)} (h : ({ s with live := l } : State).lvFlag (F.DTAKE_GROUP_A_EN g) = false) :
    s.dtPath g l = ((dtDISABLED, 0), s) := if_pos (by rw [h]; rfl)

/-- The outcome of an enabled path is read off its block. -/
theorem State.dtPath_of_enabled {s : State} {g : Nat} {l : List (Nat × Word)} {q : State} (hq : q = { s with live := l })
    (hen : q.lvFlag (F.DTAKE_GROUP_A_EN g) = true)
    {bs : List Byte} (hread : s.dtRead (q.dtBlock g) = (bs, s)) :
    s.dtPath g l = (if q.actOpen g then (dtSTALE, 0) else if leAt bs 8 4 ≠ s.frame % 2 ^ 32 then (dtSTALE, 0)
        else if leAt bs 4 4 ≠ 2 ^ 32 - 1 - leAt bs 0 4 then (dtCHECK_FAIL, 0) else (dtAGREE, leAt bs 0 4 &&& q.lv (F.DTAKE_MASK_MASK g)), s) := by
  subst hq
  simp only [State.dtPath, hen, hread, Bool.not_true, Bool.false_eq_true, if_false]
  split
  · rfl
  · split
    · rfl
    · split
      · rfl
      · rfl

/-! ## What is booked -/

/-- R344: STALE and CHECK_FAIL are counted and written to the Prompt Book. -/
theorem State.dtRecord_of_stale (s : State) (g : Nat) {v : Nat} (h : v = dtSTALE ∨ v = dtCHECK_FAIL) :
    s.dtRecord g v = (s.sat F.DTAKE_CNT_A_STALE).postU 0xB102 5 [g, v] := by
  have hne : v ≠ dtDISAGREE := by
    obtain rfl | rfl := h
    · decide
    · decide
  rw [State.dtRecord, if_neg hne, if_pos h]

/-- Settles O13: a readable block gives its outcome by the first rule that applies; a path that is STALE or fails its check counts once and posts one record. -/
theorem doubleTakeOutcomes : Obligations.DoubleTakeOutcomes := by
  refine ⟨?path, fun a => if_pos rfl, fun a b hne => if_neg hne, ?record⟩
  case path =>
    intro s g l q hq
    refine ⟨fun hoff => State.dtPath_of_disabled (hq ▸ hoff), ?_⟩
    rintro hen hlo hhi bs rfl
    exact State.dtPath_of_enabled hq hen (State.dtRead_of_good hlo hhi)
  case record =>
    intro s g v hv
    rw [State.dtRecord_of_stale s g hv, State.postU]
    obtain ⟨regs, hcount, -⟩ := s.exists_wr_eq F.DTAKE_CNT_A_STALE (min (s.rd F.DTAKE_CNT_A_STALE + 1) (F.DTAKE_CNT_A_STALE.card - 1))
    rw [State.sat, hcount]
    obtain ⟨regs', book, hpost⟩ := State.exists_post_eq { s with regs := regs } 0xB102 5 (srcOf 0xB102) [g, v]
    refine ⟨by rw [hpost], by rw [hpost], fun hroom => ?_⟩
    rw [State.post_of_room (by exact hroom)]
    exact ⟨_, rfl, rfl, rfl⟩

end Sys2Proof.Machine
end

section
/-! Tickets (R62): the lowest free number, what an allocation writes, and a launch that finds none. -/

namespace Sys2Proof.Machine

/-! ## Allocation (R62) -/

theorem State.freeTicket_eq_some {s : State} {t : Nat} (ht : t < 1024) (hfree : s.ticket t = none) (hlow : ∀ j, j < t → s.ticket j ≠ none) :
    s.freeTicket = some t := by
  refine List.find?_range_eq_some.mpr ⟨by rw [hfree]; rfl, List.mem_range.mpr ht, fun j hj => ?_⟩
  simpa [Option.isSome_iff_ne_none] using hlow j hj

theorem State.freeTicket_eq_none {s : State} (h : ∀ j, j < 1024 → s.ticket j ≠ none) : s.freeTicket = none :=
  List.find?_range_eq_none.mpr fun j hj => by simpa [Option.isSome_iff_ne_none] using h j hj

/-- The ticket that a launch opens. -/
def State.newTicket (s : State) (cue due deadline : Nat) (owner : Option Nat) : Ticket :=
  { cue, owner, deadline := if deadline = 0 then none else some (due + deadline), late := false, since := s.now, age := 0, serial := s.cue.serial }

/-- An allocation opens the free ticket, numbers it, and starts its deadline where it has one. -/
theorem State.exists_allocTicket_eq {s : State} {t : Nat} (h : s.freeTicket = some t) (cue due deadline : Nat) (owner : Option Nat) :
    ∃ timers, s.allocTicket cue due deadline owner = (some { num := t, serial := s.cue.serial },
      { s.setTicket t (some (s.newTicket cue due deadline owner)) with cue.serial := s.cue.serial + 1, timers := timers }) := by
  unfold State.allocTicket State.newTicket
  rw [h]
  dsimp only
  split
  · exact ⟨_, rfl⟩
  · exact ⟨_, rfl⟩

/-- With no ticket free the launch goes on without one, which is counted, fires source 26 and posts record 0x2003. -/
theorem State.allocTicket_of_none {s : State} (h : s.freeTicket = none) (cue due deadline : Nat) (owner : Option Nat) :
    s.allocTicket cue due deadline owner = (none, ((s.sat F.CUE_CNT_B_TKT_EXHAUST).irq 26).postLim 0x20030000 0x2003 5 17 [cue]) := by
  unfold State.allocTicket
  rw [h]

/-! ## The exhausted tickets -/

theorem State.ticket_of_cue_eq {s t : State} (h : t.cue = s.cue) (j : Nat) : t.ticket j = s.ticket j := by
  rw [State.ticket, State.ticket, h]

/-- Settles O19: the search of the lowest free number decides; a ticket opened is written at that number alone, and a launch without one writes no
ticket. -/
theorem ticketLowestFree : Obligations.TicketLowestFree := by
  refine ⟨?free, ?none⟩
  case free =>
    intro s cue due deadline t owner ht hfree hlow
    obtain ⟨timers, halloc⟩ := State.exists_allocTicket_eq (State.freeTicket_eq_some ht hfree hlow) cue due deadline owner
    have hput := fun j => ticket_put s t j (some (s.newTicket cue due deadline owner))
    exact ⟨_, _, s.newTicket cue due deadline owner, halloc, rfl, (hput t).trans (if_pos rfl), rfl, rfl, rfl, rfl,
      fun j hj => (hput j).trans (if_neg hj), rfl, rfl⟩
  case none =>
    intro s cue due deadline owner htaken
    refine ⟨_, State.allocTicket_of_none (State.freeTicket_eq_none htaken) .., fun j => State.ticket_of_cue_eq ?_ j, ?_⟩
    · rw [cue_postLim, State.cue_irq]
      exact State.wr_cue ..
    · rw [State.latched_postLim]
      exact latched_irq _ 26 (by decide)

end Sys2Proof.Machine
end

section
/-! Staged writes (R24, R28): what they change, and a write or a GO that finds a commit pending. -/

namespace Sys2Proof.Machine

/-! ## Writes of staged registers (R24, R28) -/

/-- What a commit notes of a staged write is only that the register was written. -/
theorem State.exists_noteStaged_eq (s : State) (k : Nat) : ∃ l, s.noteStaged k = { s with written := l } := by
  unfold State.noteStaged
  dsimp only
  split
  · split
    · exact ⟨_, rfl⟩
    · exact ⟨_, rfl⟩
  · exact ⟨_, rfl⟩

theorem State.exists_stageWrite_eq {s : State} {base : Nat} (h : s.pendingIn base = false) (d : RDesc) (k : Nat) (w : Word) :
    ∃ l, s.stageWrite base d k w = { s.plainWrite d k w with written := l } := by
  rw [State.stageWrite, if_neg (by rw [h]; exact Bool.false_ne_true)]
  exact State.exists_noteStaged_eq ..

theorem State.blockGo_of_pending {s : State} {base : Nat} (h : s.pendingIn base = true) (when_ c : Nat) : s.blockGo base when_ c = s.refuseGo base :=
  if_pos (by rw [h]; rfl)

/-! ## A GO while a commit pends -/

/-- COMMIT_GO is a store that sets GO alone. -/
theorem exec_commitGo_eq_settle {s : State} {m b when_ c : Nat} (hb : b < 13) (hwhen : when_ < 4) (hc : c < 16384)
    (hw : s.mayWrite m (A.BLOCK_COMMIT (pairedBase b)) = true) : exec (.commitGo m b when_ c) s = .next (s.blockGo (pairedBase b) when_ c).settle := by
  refine congrArg Host.Outcome.next (store_reg hw (isReg_commit hb) ?_)
  rw [regWrite_commit hb, State.blockCommit, getLsbD_ofNat32 _ _ (by decide), getLsbD_ofNat32 _ _ (by decide), getLsbD_ofNat32 _ _ (by decide),
    getBits_ofNat32 _ _ _ (by omega), getBits_ofNat32 _ _ _ (by omega)]
  rw [if_pos (by simp; omega), if_neg (by simp; omega), if_neg (by simp; omega)]
  rw [show (2 ^ 31 + when_ * 2 ^ 28 + c) / 2 ^ 28 % 2 ^ (29 + 1 - 28) = when_ by omega, show (2 ^ 31 + when_ * 2 ^ 28 + c) / 2 ^ 0 % 2 ^ (13 + 1 - 0) = c by omega]

theorem State.quiet_refuseGo {s : State} (h : s.Quiet) (base : Nat) : (s.refuseGo base).Quiet := by
  unfold State.refuseGo State.fireCommit
  split
  · exact State.quiet_irq (State.quiet_wr h ..) _
  · exact State.quiet_wr h ..

/-- Settles O20: a staged write is a write of the staging copy that a pending commit turns into a count, and a GO looks at the pending commit first. -/
theorem stagedWrites : Obligations.StagedWrites := by
  refine ⟨?refused, ?staged, ?go⟩
  case refused => exact fun s base k d w hpend => if_pos hpend
  case staged =>
    intro s base k d w hpend
    obtain ⟨l, hstage⟩ := State.exists_stageWrite_eq hpend d k w
    rw [hstage]
    have hreg := State.reg_setReg s k (d.write s.lkClosed w (s.reg k))
    exact ⟨(hreg k).trans (if_pos rfl), fun a ha => (hreg a).trans (if_neg ha), rfl, rfl⟩
  case go =>
    intro s m b when_ c hb hwhen hc hquiet hw hpend
    rw [exec_commitGo_eq_settle hb hwhen hc hw, State.blockGo_of_pending hpend, State.settle_of_quiet (State.quiet_refuseGo hquiet _)]

end Sys2Proof.Machine
end

section
/-! Register fields (R3, R5): what a write leaves in a field, by its access code. -/

namespace Sys2Proof.Machine

/-! ## One field of one write (R5) -/

theorem FDesc.write_of_keeps {f : FDesc} {closed : Bool} {w : Word} (old : Word)
    (h : (f.acc = .rw ∧ f.legalVal (getBits w f.hi f.lo) = false) ∨ f.acc = .ro ∨ (f.lk = true ∧ closed = true)) : f.write closed w old = old := by
  obtain ⟨hacc, hill⟩ | hacc | ⟨hlk, hclosed⟩ := h
  · simp [FDesc.write, hacc, hill]
  · simp [FDesc.write, hacc]
  · simp [FDesc.write, hlk, hclosed]

theorem FDesc.write_of_legal {f : FDesc} {closed : Bool} {w : Word} (old : Word) (hacc : f.acc = .rw)
    (hlegal : f.legalVal (getBits w f.hi f.lo) = true) (hopen : f.lk = false ∨ closed = false) :
    f.write closed w old = setBits old f.hi f.lo (getBits w f.hi f.lo) := by
  simp [FDesc.write, hacc, hlegal, Bool.and_eq_false_iff.mpr hopen]

theorem FDesc.write_of_w1c {f : FDesc} {closed : Bool} {w : Word} (old : Word) (hacc : f.acc = .w1c) (hopen : f.lk = false ∨ closed = false) :
    f.write closed w old = setBits old f.hi f.lo (getBits (old &&& ~~~w) f.hi f.lo) := by
  simp [FDesc.write, hacc, Bool.and_eq_false_iff.mpr hopen]

/-! ## The register -/

/-- Of a described register, what a write leaves in a field is what the field's own write leaves, as its fields share no bit. -/
theorem State.getBits_reg_plainWrite (s : State) {a : Nat} {d : RDesc} {f : FDesc} (w : Word) (hd : descOf a = some d) (hf : f ∈ d.flds) :
    getBits ((s.plainWrite d a w).reg a) f.hi f.lo = getBits (f.write s.lkClosed w (s.reg a)) f.hi f.lo := by
  obtain ⟨hdisjoint, hbounds⟩ := okFlds_iff d.flds (desc_ok a d hd)
  rw [State.plainWrite, State.reg_setReg, if_pos rfl, RDesc.write]
  exact fold_field s.lkClosed w d.flds hdisjoint hbounds f hf (s.reg a)

theorem FDesc.bounds_of_descOf {a : Nat} {d : RDesc} {f : FDesc} (hd : descOf a = some d) (hf : f ∈ d.flds) : f.lo ≤ f.hi ∧ f.hi < 32 :=
  (okFlds_iff d.flds (desc_ok a d hd)).2 f hf

/-- Settles O21: a field of a described register takes the write of its own description alone. -/
theorem reservedEncodingsKeepField : Obligations.ReservedEncodingsKeepField := by
  intro s a d f w hd hf
  obtain ⟨hlo, hhi⟩ := FDesc.bounds_of_descOf hd hf
  rw [State.getBits_reg_plainWrite s w hd hf]
  refine ⟨?keeps, ?stored, ?cleared⟩
  case keeps => exact fun hkeeps => by rw [FDesc.write_of_keeps _ hkeeps]
  case stored =>
    intro hacc hlegal hopen
    rw [FDesc.write_of_legal _ hacc hlegal hopen, getBits_setBits_self _ _ _ _ hlo hhi, getBits_self_mod]
  case cleared =>
    intro hacc hopen
    rw [FDesc.write_of_w1c _ hacc hopen, getBits_setBits_self _ _ _ _ hlo hhi, getBits_self_mod]

end Sys2Proof.Machine
end

section
/-! Counter registers that any write clears. -/

namespace Sys2Proof.Machine

/-- Each of the eight commands is a write of 0 to its counter register. -/
theorem exec_counterClear_eq {s : State} {c : Instr} {m k a : Nat} {w : Word} (hk : k < 3)
    (hc : (c, a) ∈ [(Instr.soloistCntClear m k w, A.SOLOIST_CNT k), (.understudyCntClear m k w, A.UNDERSTUDY_CNT_A + 4 * k), (.troupeCntClear m w, A.TROUPE_CNT),
      (.chorusCntClear m w, A.CHORUS_CNT), (.massifCntClear m w, A.MASSIF_CNT), (.dtakeCntClear m w, A.DTAKE_CNT_A), (.brkEccClear m w, A.BRK_ECC),
      (.hostCntClear m w, A.HOST_CNT)])
    (hw : s.mayWrite m a = true) : exec c s = .next (s.setReg a 0).settle := by
  simp only [List.mem_cons, Prod.mk.injEq, List.not_mem_nil, or_false] at hc
  obtain ⟨rfl, rfl⟩ | ⟨rfl, rfl⟩ | ⟨rfl, rfl⟩ | ⟨rfl, rfl⟩ | ⟨rfl, rfl⟩ | ⟨rfl, rfl⟩ | ⟨rfl, rfl⟩ | ⟨rfl, rfl⟩ := hc
  · exact complete_soloistCntClear s m k w hk hw
  · exact complete_understudyCntClear s m k w hk hw
  · exact complete_troupeCntClear s m w hw
  · exact complete_chorusCntClear s m w hw
  · exact complete_massifCntClear s m w hw
  · exact complete_dtakeCntClear s m w hw
  · exact complete_brkEccClear s m w hw
  · exact complete_hostCntClear s m w hw

/-- Settles O23: in a quiet state nothing follows the write of 0. -/
theorem counterClearsFrame : Obligations.CounterClearsFrame := by
  intro s t c m k a w hk hc hquiet hw hexec
  obtain rfl := eq_of_exec_settle (exec_counterClear_eq hk hc hw) hquiet hexec
  have hreg := State.reg_setReg s a 0
  exact ⟨(hreg a).trans (if_pos rfl), fun b hb => (hreg b).trans (if_neg hb), rfl⟩

end Sys2Proof.Machine
end

section
/-! Reads with side effects: what a pop removes, and what a request of random bits draws on. -/

namespace Sys2Proof.Machine

/-! ## Pops -/

/-- COL_VIOL_POP removes the oldest record. -/
theorem exists_exec_colViolPop_eq {s : State} {m : Nat} (h : s.mayRead m A.COL_VIOL_POP = true) : ∃ ovf addr d,
    exec (.colViolPop m) s = .next (State.settle { s with rdata := d, viol := s.viol.tail, violOvf := ovf, violAddr := addr }) := by
  obtain ⟨hempty, hpop⟩ := complete_colViolPop s m h
  cases hviol : s.viol with
  | nil => exact ⟨s.violOvf, s.violAddr, 0, by rw [hempty hviol, List.tail_nil, ← hviol]⟩
  | cons v rest => exact ⟨_, _, _, hpop v rest hviol⟩

/-- BRK_PATROL_POP removes the oldest entry. -/
theorem exists_exec_patrolPop_eq {s : State} {m : Nat} (h : s.mayRead m A.BRK_PATROL_POP = true) : ∃ ovf d,
    exec (.patrolPop m) s = .next (State.settle { s with rdata := d, brk := { s.brk with patrol := s.brk.patrol.tail, patrolOvf := ovf } }) := by
  obtain ⟨hempty, hpop⟩ := complete_patrolPop s m h
  cases hpatrol : s.brk.patrol with
  | nil => exact ⟨s.brk.patrolOvf, 0, by rw [hempty hpatrol, List.tail_nil, ← hpatrol]⟩
  | cons e rest => exact ⟨_, _, hpop e.1 e.2.1 e.2.2 rest hpatrol⟩

/-- IRQ_LATE_POP removes the oldest late error of its core. -/
theorem exists_exec_lateErrorPop_eq {s : State} {m n : Nat} (hn : n < 9) (h : s.mayRead m (A.IRQ_LATE_POP n) = true) : ∃ lost addr d,
    exec (.lateErrorPop m n) s = .next (State.settle { s.setCore n { s.core n with late := (s.core n).late.tail, lateLost := lost, lateAddr := addr } with
      rdata := d }) := by
  obtain ⟨hempty, hpop⟩ := complete_lateErrorPop s m n hn h
  cases hlate : (s.core n).late with
  | nil => exact ⟨(s.core n).lateLost, 0, 0, by rw [hempty hlate, List.tail_nil, ← hlate]⟩
  | cons e rest => exact ⟨_, _, _, hpop e rest hlate⟩

/-! ## The Scree (R326) -/

/-- Raw bits come from the test words or from the noise sources. -/
theorem State.rawBits_eq_some {s u : State} {raw : List Byte} (h : s.rawBits = some (raw, u)) :
    u = { s with fresh := u.fresh, scree := u.scree } := by
  unfold State.rawBits at h
  split at h
  · split at h
    · cases h
    · cases h
      rfl
  · cases h
    rfl

theorem State.takeSeed_frame (s : State) (i : Nat) (anew : Bool) :
    s.takeSeed i anew = { s with fresh := (s.takeSeed i anew).fresh, scree := (s.takeSeed i anew).scree } := by
  unfold State.takeSeed
  split
  next => rfl
  next raw u hraw =>
    rw [State.rawBits_eq_some hraw]
    rfl

theorem State.seedInstance_frame (s : State) (i : Nat) :
    s.seedInstance i = { s with fresh := (s.seedInstance i).fresh, scree := (s.seedInstance i).scree } := by
  unfold State.seedInstance
  split
  · rfl
  · exact State.takeSeed_frame ..

/-- A request that its count makes no reseed due draws on the generator as it stands. -/
theorem State.drbgServe_of_not_due {s : State} (h : s.scree.requests < 2 ^ s.rd F.SCREE_DRBG_RESEED_REQ) (n : Nat) : ∃ inst,
    (s.drbgServe n false).2 = { s with scree := { s.scree with inst := inst, requests := s.scree.requests + 1 } } := by
  unfold State.drbgServe
  rw [if_neg (by simpa using h)]
  exact ⟨_, rfl⟩

theorem State.drbgServe_frame (s : State) (n : Nat) :
    (s.drbgServe n false).2 = { s with fresh := (s.drbgServe n false).2.fresh, scree := (s.drbgServe n false).2.scree } := by
  unfold State.drbgServe
  split
  · dsimp only
    rw [State.seedInstance_frame]
    rfl
  · rfl

/-- SCREE_RAND serves four bytes of generator 1. -/
theorem exists_exec_screeRandRead_eq {s : State} {m : Nat} (hread : s.mayRead m A.SCREE_RAND = true) (hentropy : s.entropyOk = true) : ∃ d,
    exec (.screeRandRead m) s = .next (State.settle { (s.drbgServe 4 false).2 with rdata := d }) :=
  ⟨_, complete_screeRandRead s _ m _ hread hentropy rfl⟩

/-- Settles O22: each read is its completion lemma, whose state differs from the one before in what the clause names. -/
theorem registerReadsFrame : Obligations.RegisterReadsFrame := by
  refine ⟨?now, ?frame, ?coarse, ?viol, ?patrol, ?late, ?window, ?dequeue, ?rand, ?badge⟩
  case now =>
    intro s t m hquiet hread hexec
    obtain rfl := eq_of_exec_settle (complete_stimeNowRead s m hread) hquiet hexec
    rfl
  case frame =>
    intro s t m hquiet hread hexec
    obtain rfl := eq_of_exec_settle (complete_stimeFrameRead s m hread) hquiet hexec
    rfl
  case coarse =>
    intro s t m hquiet hread hexec
    obtain rfl := eq_of_exec_settle (complete_stimeCoarseRead s m hread) hquiet hexec
    rfl
  case viol =>
    intro s t m hquiet hread hexec
    obtain ⟨ovf, addr, d, hpop⟩ := exists_exec_colViolPop_eq hread
    obtain rfl := eq_of_exec_settle hpop hquiet hexec
    rfl
  case patrol =>
    intro s t m hquiet hread hexec
    obtain ⟨ovf, d, hpop⟩ := exists_exec_patrolPop_eq hread
    obtain rfl := eq_of_exec_settle hpop hquiet hexec
    rfl
  case late =>
    intro s t m n hn hquiet hread hexec
    obtain ⟨lost, addr, d, hpop⟩ := exists_exec_lateErrorPop_eq hn hread
    obtain rfl := eq_of_exec_settle hpop hquiet hexec
    have hself := State.core_setCore_self s n { s.core n with late := (s.core n).late.tail, lateLost := lost, lateAddr := addr }
    exact ⟨rfl, fun k hk => State.core_setCore_of_ne s _ hk, (congrArg CoreSt.late hself).trans rfl, (congrArg CoreSt.g hself).trans rfl, (congrArg CoreSt.pc hself).trans rfl⟩
  case window =>
    intro s t m q hq hquiet hread hexec
    obtain rfl := eq_of_exec_settle (complete_enqueueWindowLoad s m q hq hread) hquiet hexec
    rfl
  case dequeue =>
    intro s t m q hq hquiet hread hvalid hconsume hexec
    obtain rfl := eq_of_exec_settle (complete_dequeueLoad s m q hq hread hvalid hconsume) hquiet hexec
    rfl
  case rand =>
    intro s t m hquiet hread hentropy hexec
    obtain ⟨d, hrand⟩ := exists_exec_screeRandRead_eq hread hentropy
    rw [State.drbgServe_frame] at hrand
    obtain rfl := eq_of_exec_settle hrand hquiet hexec
    refine ⟨rfl, fun hcount => ?_⟩
    obtain ⟨inst, hserve⟩ := State.drbgServe_of_not_due hcount 4
    rw [hserve]
    exact ⟨rfl, rfl⟩
  case badge =>
    intro s t m hquiet hread hexec
    have hclear := complete_badgeStatRead s m hread
    obtain ⟨regs, hwr, hregs⟩ := State.exists_wr_eq s F.BADGE_STAT_RECOVERIES 0
    rw [hwr] at hclear
    obtain rfl := eq_of_exec_settle hclear hquiet hexec
    exact ⟨rfl, hregs⟩

end Sys2Proof.Machine
end

section
/-! A write to a protected or locked card (R452): how it starts, and how it ends before anything is sent. -/

namespace Sys2Proof.Machine

/-! ## How a write starts (R452) -/

/-- A write with a block count, to an identified card in the slot of an enabled port, comes as far as the card's lock and protection. -/
theorem State.cartStart_write {s u : State} {card blocks lba buf : Nat} (hblocks : blocks ≠ 0) (hu : u = s.wr F.CART_STAT_DONE_BLOCKS 0)
    (hen : u.flag F.CART_CFG_EN = true) (hpresent : u.flag F.CART_STAT_PRESENT = true) (hcard : u.flag (F.CART_CARD_V card) = true) :
    s.cartStart 2 card blocks lba buf =
      if u.flag (F.CART_CARD_LOCKED card) = true then u.cartEnd card lba ctLOCKED 0
      else if u.flag (F.CART_CARD_PERM_WP card) = true ∨ u.flag (F.CART_CARD_TMP_WP card) = true then u.cartEnd card lba ctPROTECTED 0
      else (({ u.wr F.CART_STAT_BUSY 1 with cart.op := some (2, card, blocks, lba, buf) } : State).cartOpen 2 card blocks lba).cartClock := by
  subst hu
  simp only [State.cartStart, hen, hpresent, hcard, hblocks, Bool.not_true, Bool.false_eq_true, and_false, or_false, or_true, true_or, true_and,
    OfNat.ofNat_ne_one, if_false, show ¬4 < 2 by decide]

/-- The three stores of CART_WRITE, of which the last starts the operation. -/
theorem exec_cartWrite_eq_cartStart {s a b c : State} {m card blocks : Nat} {lba buf : Word} (hcard : card < 4) (hhi : blocks < 65536)
    (hlba : s.mayWrite m A.CART_LBA = true) (ha : a = (s.setReg A.CART_LBA lba).settle) (hbuf : a.mayWrite m A.CART_BUF = true)
    (hb : b = (a.setReg A.CART_BUF buf).settle) (hxfer : b.mayWrite m A.CART_XFER = true)
    (hc : c = b.setReg A.CART_XFER (setBits (BitVec.ofNat 32 (2 ^ 31 + 2 * 2 ^ 28 + card * 2 ^ 26 + blocks) &&& 0x7C00FFFF#32) 30 28 2))
    (hmode : c.mode ≠ .curtain) (hop : c.cart.op = none) :
    exec (.cartWrite m card blocks lba buf) s =
      .next (c.cartStart 2 card blocks (c.reg A.CART_LBA).toNat ((c.reg A.CART_BUF).toNat / 8 * 8)).settle := by
  show Host.Outcome.next (((s.store m A.CART_LBA lba).store m A.CART_BUF buf).store m A.CART_XFER (BitVec.ofNat 32 (2 ^ 31 + 2 * 2 ^ 28 + card * 2 ^ 26 + blocks))) = _
  rw [store_reg hlba (by decide) (regWrite_cartLba s m lba), ← ha, store_reg hbuf (by decide) (regWrite_cartBuf a m buf), ← hb]
  exact congrArg Host.Outcome.next (store_reg hxfer (by decide) (congrArg (Prod.mk none) (cartXfer_go (by decide) hcard hhi rfl (by decide) hc hmode hop)))

/-! ## How an operation ends -/

/-- A write that the card's lock or protection ends shows its result, fires 180 and 183, and runs no operation. -/
theorem State.cartEnd_of_refused (s : State) (card lba : Nat) {res : Nat} (h : res = ctPROTECTED ∨ res = ctLOCKED) : s.cartEnd card lba res 0 =
    ((((((({ s with cart.op := none } : State).wr F.CART_STAT_BUSY 0).wr F.CART_STAT_RESULT res).wr F.CART_STAT_DONE_BLOCKS 0).irq 180).irq 183).cartClock) := by
  have hsure : ¬(res = ctNOT_DONE ∨ res = ctINDET) := by
    obtain rfl | rfl := h
    · decide
    · decide
  unfold State.cartEnd
  dsimp only
  rw [if_neg hsure, if_pos (h.imp_right Or.inl)]

theorem State.exists_cartEnd_eq (s : State) (card lba : Nat) {res : Nat} (h : res = ctPROTECTED ∨ res = ctLOCKED) :
    ∃ regs, s.cartEnd card lba res 0 = { s with regs := regs, cart := { s.cart with op := none } } := by
  rw [State.cartEnd_of_refused s card lba h]
  obtain ⟨r₁, h₁, -⟩ := State.exists_wr_eq ({ s with cart.op := none } : State) F.CART_STAT_BUSY 0
  obtain ⟨r₂, h₂, -⟩ := State.exists_wr_eq ({ s with regs := r₁, cart.op := none } : State) F.CART_STAT_RESULT res
  obtain ⟨r₃, h₃, -⟩ := State.exists_wr_eq ({ s with regs := r₂, cart.op := none } : State) F.CART_STAT_DONE_BLOCKS 0
  obtain ⟨r₄, h₄⟩ := State.exists_irq_eq ({ s with regs := r₃, cart.op := none } : State) 180
  obtain ⟨r₅, h₅⟩ := State.exists_irq_eq ({ s with regs := r₄, cart.op := none } : State) 183
  rw [h₁, h₂, h₃, h₄, h₅]
  exact ⟨_, rfl⟩

theorem State.rd_result_cartEnd (s : State) (card lba : Nat) {res : Nat} (h : res = ctPROTECTED ∨ res = ctLOCKED) :
    (s.cartEnd card lba res 0).rd F.CART_STAT_RESULT = res := by
  have hres : res % 2 ^ (F.CART_STAT_RESULT.hi + 1 - F.CART_STAT_RESULT.lo) = res := by
    obtain rfl | rfl := h
    · rfl
    · rfl
  rw [State.cartEnd_of_refused s card lba h, State.cartClock, State.rd_wr_of_disjoint _ _ _ _ (by decide) (by decide) (by decide),
    State.rd_irq _ _ _ (by decide), State.rd_irq _ _ _ (by decide), State.rd_wr_of_disjoint _ _ _ _ (by decide) (by decide) (by decide),
    State.rd_wr _ _ _ (by decide) (by decide), hres]

/-- Settles O17: the lock and the protection are looked at before anything is sent, and the end of a refused write is a matter of registers. -/
theorem writeProtectedCard : Obligations.WriteProtectedCard := by
  refine ⟨?ends, ?result⟩
  case ends =>
    intro s a b c d m card blocks lba buf hcard hlo hhi hlba ha hbuf hb hxfer hc hmode hop hd hen hpresent hv
    rw [exec_cartWrite_eq_cartStart hcard hhi hlba ha hbuf hb hxfer hc hmode hop, State.cartStart_write (by omega) hd hen hpresent hv]
    refine ⟨fun hunlocked hwp => ?_, fun hlocked => by rw [if_pos hlocked]⟩
    rw [if_neg (by rw [hunlocked]; exact Bool.false_ne_true), if_pos hwp]
  case result =>
    intro s card lba res hres
    obtain ⟨regs, hend⟩ := State.exists_cartEnd_eq s card lba hres
    refine ⟨State.rd_result_cartEnd s card lba hres, ?_⟩
    rw [hend]
    exact ⟨rfl, rfl, rfl⟩

end Sys2Proof.Machine
end

section
/-! An enqueue store (R122, R124, R477): one burst of eight bytes, and the advance of TAIL. -/

namespace Sys2Proof.Machine

/-! ## One burst (R477) -/

/-- A slot of 8-byte entries is aligned to its entries. -/
theorem QRec.slot_mod_eight {r : QRec} (h : r.esize = 0) (i : Nat) : r.slot i % 8 = 0 := by
  rw [QRec.slot, QRec.entry, h]
  omega

/-- Eight aligned bytes cross no burst boundary. -/
theorem burstsFrom_eight {a : Nat} (h : a % 8 = 0) : burstsFrom 2 a 8 = [(a, 8)] := by
  have hmin : min 8 (64 - a % 64) = 8 := by omega
  have hfirst : (if decide (0x10000000 ≤ a) && decide (a < 0x22000000) then min 8 64 else min 8 (64 - a % 64)) = 8 := by
    split
    · rfl
    · exact hmin
  simp only [burstsFrom, hfirst]
  rfl

theorem State.dmaWrite_eight {s : State} {m a : Nat} {bs : List Byte} (ha : a % 8 = 0) (hlen : bs.length = 8) : s.dmaWrite m a bs = s.unitWrite m a bs := by
  unfold State.dmaWrite
  rw [hlen, burstsFrom_eight ha]
  show s.unitWrite m a (sliceB bs (a - a) 8) = _
  rw [Nat.sub_self, sliceB, List.drop_zero, ← hlen, List.take_length]

/-! ## The tail moves on -/

theorem QRec.tail_take (r : QRec) : r.take.tail = r.tail := by
  unfold QRec.take
  split
  · rfl
  · rfl

theorem QRec.head_take (r : QRec) : r.take.head = r.head := by
  unfold QRec.take
  split
  · rfl
  · rfl

theorem State.queue_restartIdle (s : State) (q r : Nat) : (s.restartIdle q).queue r = s.queue r := by
  unfold State.restartIdle
  split
  · rfl
  · rfl

theorem State.exists_notifyQueue_eq (s : State) (q : Nat) : ∃ regs wing, s.notifyQueue q = { s with regs := regs, wing := wing } := by
  have hirq : ∀ (w : Wing) (n : Nat), ∃ regs wing, State.irq { s with wing := w } n = { s with regs := regs, wing := wing } := fun w n => by
    obtain ⟨regs, h⟩ := State.exists_irq_eq { s with wing := w } n
    exact ⟨regs, w, h⟩
  unfold State.notifyQueue
  dsimp only
  split
  · split
    · exact hirq ..
    · split
      · exact hirq ..
      · exact hirq ..
  · exact ⟨s.regs, s.wing, rfl⟩

/-- The advanced record of a queue. -/
def QRec.advanced (r : QRec) : QRec := { r.take with tail := (r.take.tail + 1) % 65536 }

theorem State.advanceTail_cases (s : State) (q : Nat) : s.advanceTail q = ((s.setQueue q (s.queue q).advanced).notifyQueue q).restartIdle q
    ∨ s.advanceTail q = (s.setQueue q (s.queue q).advanced).restartIdle q := by
  unfold State.advanceTail
  dsimp only
  split
  · exact Or.inl rfl
  · exact Or.inr rfl

/-- Beside its queue, the advance of a tail touches a latch, the notifications and the idle timer. -/
theorem State.exists_advanceTail_eq (s : State) (q : Nat) :
    ∃ regs wing timers, s.advanceTail q = { s with regs := regs, wing := wing, timers := timers } := by
  have hidle : ∀ regs wing, ∃ timers, State.restartIdle { s with regs := regs, wing := wing } q = { s with regs := regs, wing := wing, timers := timers } := by
    intro regs wing
    unfold State.restartIdle
    split
    · exact ⟨_, rfl⟩
    · exact ⟨_, rfl⟩
  obtain h | h := s.advanceTail_cases q
  · obtain ⟨regs, wing, hnotify⟩ := State.exists_notifyQueue_eq (s.setQueue q (s.queue q).advanced) q
    obtain ⟨timers, hrestart⟩ := hidle regs wing
    exact ⟨regs, wing, timers, by rw [h, hnotify]; exact hrestart⟩
  · obtain ⟨timers, hrestart⟩ := hidle s.regs (s.setQueue q (s.queue q).advanced).wing
    exact ⟨_, _, timers, by rw [h]; exact hrestart⟩

/-- The queue's TAIL is one further and its HEAD stands; no other queue changes. -/
theorem State.queue_advanceTail (s : State) (q : Nat) : ((s.advanceTail q).queue q).tail = ((s.queue q).tail + 1) % 65536
    ∧ ((s.advanceTail q).queue q).head = (s.queue q).head ∧ ∀ r, r ≠ q → (s.advanceTail q).queue r = s.queue r := by
  have hset := State.queue_setQueue s q (s.queue q).advanced
  have hself := (hset q).trans (if_pos rfl)
  have htail : (s.queue q).advanced.tail = ((s.queue q).tail + 1) % 65536 := by rw [QRec.advanced, QRec.tail_take]
  have hhead : (s.queue q).advanced.head = (s.queue q).head := QRec.head_take _
  obtain h | h := s.advanceTail_cases q
  · rw [h]
    simp only [State.queue_restartIdle]
    obtain ⟨-, -, htail', hhead', -⟩ := notify_q (s.setQueue q (s.queue q).advanced) q q
    refine ⟨by rw [htail', hself, htail], by rw [hhead', hself, hhead], fun r hr => ?_⟩
    obtain ⟨-, -, -, -, hother⟩ := notify_q (s.setQueue q (s.queue q).advanced) q r
    rw [hother hr, hset, if_neg hr]
  · rw [h]
    simp only [State.queue_restartIdle]
    exact ⟨by rw [hself, htail], by rw [hself, hhead], fun r hr => (hset r).trans (if_neg hr)⟩

/-! ## The store -/

/-- Settles O9: the write is one burst, which pokes its eight bytes or waits for the rescue buffer; the advance of TAIL stores no byte. -/
theorem enqueueStoresOneEntry : Obligations.EnqueueStoresOneEntry := by
  intro s t u m q d hq hquiet hadmit hvalid hproduce hsize hroom hwrite hexec
  have hexec' := complete_enqueueStore s m q d hq hadmit hvalid hproduce hsize (beq_eq_false_iff_ne.mpr hroom) u hwrite
  rw [State.dmaWrite_eight (QRec.slot_mod_eight hsize _) (leBytes_length 8 _)] at hwrite
  obtain ⟨hmem, halarms, hwing, hports⟩ := unitWrite_mem hwrite
  obtain ⟨regs, wing, timers, hadvance⟩ := State.exists_advanceTail_eq u q
  have hquiet' : (u.advanceTail q).Quiet := by
    rw [hadvance]
    exact ⟨halarms.trans hquiet.1, (congrArg PortsSt.ended hports).trans hquiet.2⟩
  obtain rfl := eq_of_exec_settle hexec' hquiet' hexec
  have hqueue : ∀ r, u.queue r = s.queue r := fun r => by rw [State.queue, State.queue, hwing]
  obtain ⟨htail, hhead, hothers⟩ := State.queue_advanceTail u q
  have hmb : ∀ b, (u.advanceTail q).mb b = u.mb b := fun b => mb_of_mem (by rw [hadvance])
  refine ⟨?outside, by rw [htail, hqueue], by rw [hhead, hqueue], fun r hr => (hothers r hr).trans (hqueue r), ?inside⟩
  case outside =>
    rintro _ b rfl hb
    rw [hmb]
    obtain hpoke | ⟨hsame, -⟩ := hmem
    · rw [mb_of_mem hpoke, State.mb_poke, dif_neg (by rw [leBytes_length]; exact hb)]
    · exact mb_of_mem hsame
  case inside =>
    rintro _ i rfl hblocked hi
    rw [hmb]
    obtain hpoke | ⟨-, hwaits⟩ := hmem
    · rw [mb_of_mem hpoke, State.mb_poke, dif_pos (by rw [leBytes_length]; omega)]
      rw [List.getD_eq_getElem _ _ (by rw [leBytes_length]; exact hi)]
      simp only [Nat.add_sub_cancel_left]
    · rw [hadvance] at hblocked
      exact absurd hblocked hwaits

end Sys2Proof.Machine
end

section
/-! The bytes that a Bedrock command changes (R361, R362, R364, R366), whether it succeeds or tears. -/

namespace Sys2Proof.Machine

/-! ## What an operation stores (R361, R362, R364) -/

/-- An erased block reads as ones, and every other byte as before. -/
theorem State.mb_wipeBlock (s : State) {p a : Nat} (h : ¬(p ≤ a ∧ a < p + blockLen (bedBank p))) : (s.wipeBlock p).mb a = s.mb a :=
  (State.mb_wipe s p (p + blockLen (bedBank p)) a).trans (if_neg h)

/-- The effect of an operation, with either outcome, stays within its bytes. -/
theorem State.mb_brkEffect (s : State) {c : BrkCmd} {a : Nat} (ok : Bool) (h : ¬brkStores c a) : (s.brkEffect c ok).2.mb a = s.mb a := by
  simp only [brkStores, not_or, not_and, not_exists] at h
  obtain ⟨hprogram, hsafe, herase⟩ := h
  unfold State.brkEffect
  dsimp only
  split_ifs with hop hok hop hok hdraw hop hok hop hok
  · exact mb_writePage s _ _ _ (hprogram hop)
  · exact mb_tearPage s _ _ (hprogram hop)
  · exact (mb_writePage _ _ _ _ (hsafe hop).2).trans (mb_writePage s _ _ _ (hsafe hop).1)
  · exact mb_tearPage s.next _ _ (hsafe hop).1
  · exact (mb_tearPage _ _ _ (hsafe hop).2).trans (mb_writePage s.next _ _ _ (hsafe hop).1)
  · exact (mb_of_mem (mem_countErase ..)).trans (State.mb_wipeBlock s fun ⟨hlo, hhi⟩ => (herase hop).1 hlo hhi)
  · exact mb_tearBlock s _ _ (herase hop).2
  · exact mb_of_mem ((State.setReg_mem ..).trans (mem_inspect2 ..))
  · exact mb_of_mem ((mem_countErase ..).trans (mem_countErase ..))
  · rfl

/-! ## The end of the command -/

/-- A suspended erase goes on before it ends, which stores nothing. -/
theorem State.mem_resumed (s : State) (b : Nat) : (if s.armed (.brkResume b) then (s.elapsed (.brkResume b)).brkResume b else s).mem = s.mem :=
  iteState_mem ((State.wr_mem ..).trans (State.mem_elapsed ..)) rfl

/-- What follows the effect: lines leave the instruction caches, the result is shown, and the archive takes its own command's end. -/
theorem State.mem_brkEnded (u : State) (c : BrkCmd) (st b : Nat) {p : Prop} [Decidable p] {v : State}
    (hv : v = (if p then u else u.icacheDrop c.addr (brkSpan c.op (bedBank c.addr))).brkEnd c st) :
    (if c.master = 18 then v.archDone (v.rd (F.BRK_STATUS_RESULT b)) else v).mem = u.mem := by
  have hv' : v.mem = u.mem := by
    rw [hv, mem_brkEnd]
    exact iteState_mem rfl (mem_drop ..)
  exact iteState_mem ((mem_archDone ..).trans hv') hv'

/-- Settles O24: the effect of the operation stores within its bytes, and what comes before and after it stores nothing. -/
theorem bedrockCommandFrame : Obligations.BedrockCommandFrame := by
  intro s t b ok c hrun hexec a ha
  rw [complete_bedrockCmdDone s _ _ _ b _ ok c hrun rfl rfl rfl] at hexec
  cases hexec
  calc _ = (State.brkEffect _ c ok).2.mb a := mb_of_mem (State.mem_brkEnded _ c _ b rfl)
    _ = (if s.armed (.brkResume b) then (s.elapsed (.brkResume b)).brkResume b else s).mb a := State.mb_brkEffect _ ok ha
    _ = s.mb a := mb_of_mem (State.mem_resumed s b)

end Sys2Proof.Machine
end

section
/-! The completion statements: each collects the completion lemmas of its commands, one for each clause. -/

namespace Sys2Proof.Machine

/-- Settles O25: the completion lemma of each register, commit, mode, lifecycle and Stage Time command. -/
theorem frameAndTimeCommands : Obligations.FrameAndTimeCommands :=
  ⟨complete_registerWrite, complete_commitGo, complete_commitAbort, complete_commitClrcnt, complete_commitApply, complete_modeReqGo,
   complete_lcAdvWrite, complete_lcProgramDone, complete_stimeNowRead, complete_stimeFrameRead, complete_stimeCoarseRead, complete_servoLossTimeout,
   complete_holdLimitExpiry, complete_servoSrcSwitch, complete_stepGo, complete_frameBoundary⟩

/-- Settles O26: the completion lemma of each of the twelve cue actions. -/
theorem cueDispatchCommands : Obligations.CueDispatchCommands :=
  ⟨complete_mark, complete_coreIrq, complete_gather, complete_pinSet, complete_commit, complete_egressRelease, complete_mirror, complete_queueKick,
   complete_packerSwap, complete_doorbell, complete_stewardJob, complete_pbookMark⟩

/-- Settles O28: the completion lemma of each write of a port register, of the key list and of the switch list. -/
theorem portRegisterCommands : Obligations.PortRegisterCommands :=
  ⟨complete_linkCfgWrite, complete_redCfgWrite, complete_ptpPortWrite, complete_portCntSnap, complete_portCntClr, complete_soloistKeyPush,
   complete_soloistKeyErase, complete_soloistCntClear, complete_switchEditPush, complete_switchEditDelete⟩

/-- Settles O29: the completion lemma of each link, frame, redundancy, egress and PTP command. -/
theorem portTrafficAndPtpCommands : Obligations.PortTrafficAndPtpCommands :=
  ⟨complete_linkUp, complete_linkDown, complete_rxFrame, complete_frameAuthenticate, complete_ddEntryAge, complete_supervisionTx,
   complete_supervisionTimeout, complete_egressQueueTx, complete_releaseStart, complete_txFrameEnd, complete_ptpSyncRx, complete_ptpSyncTx,
   complete_pdelayReqTx, complete_pdelayReqRx, complete_pdelayRespRx, complete_syncTimeout⟩

/-- Settles O30: the completion lemma of each queue, copy and notification command. -/
theorem queueCommands : Obligations.QueueCommands :=
  ⟨complete_queueEnable, complete_queueDisable, complete_enqueueStore, complete_copyEnqueue, complete_copyEnqueueDone, complete_enqueueWindowLoad,
   complete_dequeueLoad, complete_release, complete_queueIdleTimeout, complete_notifyPop, complete_wingsErrClr⟩

/-- Settles O31: the completion lemma of each gather and packer command. -/
theorem gatherAndPackerCommands : Obligations.GatherAndPackerCommands :=
  ⟨complete_gatherStart, complete_gatherComplete, complete_ensembleCntClr, complete_packerWrite, complete_packerCtrlSwap, complete_packerReturn,
   complete_packerCntClear⟩

/-- Settles O32: the completion lemma of each Terrace and violation command. -/
theorem terraceAndColCommands : Obligations.TerraceAndColCommands :=
  ⟨complete_bankWakeDone, complete_bankZeroDone, complete_bankResumeDone, complete_terraceRequestServed, complete_eccWriteback,
   complete_mirrorLineRead, complete_rescuedWriteResume, complete_terraceCntSnap, complete_terraceCntClr, complete_colViolPop⟩

/-- Settles O33: the completion lemma of each core, late-error and interrupt command. -/
theorem ridgeCoreCommands : Obligations.RidgeCoreCommands :=
  ⟨complete_bundleIssue, complete_interruptEntry, complete_waitResume, complete_lateBusError, complete_lateErrorPop, complete_irqPendClear,
   complete_irqAck, complete_irqDoorbell, complete_irqRouteWrite, complete_coreHold, complete_coreStart⟩

/-- Settles O34: the completion lemma of each supply, input, trip pair, 1PPS and IRIG-B command. -/
theorem pinsAndTripPairCommands : Obligations.PinsAndTripPairCommands :=
  ⟨complete_groupSupplyChange, complete_supplyRestoreDrive, complete_pinInputChange, complete_edgeAccept, complete_dtVerdict,
   complete_tripPairCommit, complete_readbackMismatch, complete_ppsOutRise, complete_ppsOutFall, complete_irigFrameEnd, complete_grpCntClr⟩

/-- Settles O35: the completion lemma of each lane, pairing and control-frame command. -/
theorem pairingCommands : Obligations.PairingCommands :=
  ⟨complete_laneUp, complete_laneDown, complete_s2Fault, complete_hello, complete_keyMessage, complete_auth, complete_pairingKeyed,
   complete_pairingRetry, complete_pulseSend, complete_pulse, complete_ready, complete_abort, complete_cancel, complete_aliveEdge⟩

/-- Settles O36: the completion lemma of each mirror, takeover, handover and self-test command. -/
theorem mirrorAndFailoverCommands : Obligations.MirrorAndFailoverCommands :=
  ⟨complete_mirrorTransferEnd, complete_mirrorRx, complete_sealVerify, complete_mirrorApply, complete_mirrorFirstRecordArrives,
   complete_failureCheck, complete_takeover, complete_handoverCommitCheck, complete_selftestRun⟩

/-- Settles O37: the completion lemma of each write of an Understudy control, hold or counter register. -/
theorem understudyRegisterCommands : Obligations.UnderstudyRegisterCommands :=
  ⟨complete_understudyFeed, complete_understudyJoin, complete_understudyHandover, complete_understudyResync, complete_understudyUnpair,
   complete_understudyAckStale, complete_holdSet, complete_holdClr, complete_understudyCntClear⟩

/-- Settles O38: the completion lemma of each roll call, session, CALL and HEALTH command. -/
theorem troupeSessionCommands : Obligations.TroupeSessionCommands :=
  ⟨complete_rollCall, complete_roll, complete_attest, complete_welcome, complete_rollWaitExpiry, complete_healthPeriodTick, complete_callBroadcast,
   complete_health, complete_memberSilent, complete_directorSilent, complete_troupeCntClear⟩

/-- Settles O39: the completion lemma of each KEY, INTERVAL, SUMMARY and COMMAND message and time-out. -/
theorem troupeKeyAndIntervalCommands : Obligations.TroupeKeyAndIntervalCommands :=
  ⟨complete_keySend, complete_key, complete_keyAck, complete_keyRetry, complete_interval, complete_intervalAck, complete_intervalStart,
   complete_intervalEnd, complete_summarySend, complete_summary, complete_command⟩

/-- Settles O40: the completion lemma of each Chorus operation, job and key-slot command. -/
theorem chorusCommands : Obligations.ChorusCommands :=
  ⟨complete_enc, complete_dec, complete_encXor, complete_gateCtr, complete_gateOpen, complete_wrap, complete_unwrap, complete_ctxSaveWrapped,
   complete_ctxRestore, complete_gateVerdict, complete_ctxSaveClear, complete_chorusJobStart, complete_chorusJobDone, complete_chorusKeyPush,
   complete_chorusKeyErase, complete_chorusCntClear⟩

/-- Settles O41: the completion lemma of each hash, HMAC, elliptic-curve and ML-KEM-768 operation. -/
theorem massifOperationCommands : Obligations.MassifOperationCommands :=
  ⟨complete_hashOps, complete_hmacSha256, complete_ecdsaP256, complete_ecdsaP384, complete_ed25519, complete_ecdh, complete_p256Keygen,
   complete_mlKem768⟩

/-- Settles O42: the completion lemma of each post-quantum, RSA, derivation and key-register operation. -/
theorem massifPostQuantumAndKeyCommands : Obligations.MassifPostQuantumAndKeyCommands :=
  ⟨complete_mlKem1024, complete_mlDsa65, complete_mlDsa87, complete_rsaVerify, complete_rsaPrivate, complete_modexp, complete_lmsXmssVerify,
   complete_deriveKey, complete_combine, complete_importKey, complete_massifErase, complete_publicKey⟩

/-- Settles O43: the completion lemma of each Massif job and Scree command. -/
theorem massifQueueAndScreeCommands : Obligations.MassifQueueAndScreeCommands :=
  ⟨complete_cmSeedDraw, complete_massifJobStart, complete_longJobResume, complete_massifJobDone, complete_massifCntClear, complete_screeInst,
   complete_screeReseed, complete_screeClrCnt, complete_screeStartupDone, complete_sourceHealthFail, complete_sourceRetest, complete_drbgReseed,
   complete_screeRandRead, complete_screeTestData⟩

/-- Settles O44: the completion lemma of each Curtain, unlock and Refuge command. -/
theorem curtainAndRefugeCommands : Obligations.CurtainAndRefugeCommands :=
  ⟨complete_curtainSourceAssert, complete_curtainSourceClears, complete_curtainZeroDone, complete_junctionTempWarn, complete_curtainCfgWrite,
   complete_unlockBodyCheck, complete_unlockBlockExpiry, complete_dtakeCntClear, complete_refugeLoopCheck, complete_refugeSupplySwitch,
   complete_cellRemoved, complete_cellInserted, complete_vbatLow, complete_refugeRtcSet, complete_refugeLoopEnable, complete_logMarkCopied,
   complete_refugePowerLoss⟩

/-- Settles O45: the completion lemma of each Bedrock command. -/
theorem bedrockCommands : Obligations.BedrockCommands :=
  ⟨complete_brkUnlock, complete_unlockArmExpiry, complete_program, complete_programSafe, complete_erase, complete_inspect, complete_refresh,
   complete_bedrockCmdStart, complete_bedrockCmdDone, complete_eraseResume, complete_patrolRead, complete_patrolPop, complete_brkEccClear⟩

/-- Settles O46: the completion lemmas of the host port; a read has one for an empty and one for a filled reply buffer. -/
theorem hostLinkCommands : Obligations.HostLinkCommands :=
  ⟨complete_readStatus, complete_write, complete_qwrite, complete_readEmpty, complete_read, complete_qreadEmpty, complete_qread,
   complete_hostCntClear, complete_commandExecStart, complete_commandFinalReply, complete_sessionPendingTimeout, complete_sessionIdleTimeout⟩

/-- Settles O47: the completion lemma of each service request. -/
theorem serviceCommands : Obligations.ServiceCommands :=
  ⟨complete_note, complete_sign, complete_verify, complete_store, complete_load, complete_feed, complete_patrol, complete_rtcSync⟩

/-- Settles O48: the completion lemma of each ring, limiter, archive and read-page command. -/
theorem promptBookCommands : Obligations.PromptBookCommands :=
  ⟨complete_recordEnterRing, complete_limitWindowEnd, complete_archivePair, complete_recLatchRead, complete_recFinalRead, complete_pbookClear,
   complete_pbookDropClear⟩

/-- Settles O49: the completion lemma of each trace and counter command. -/
theorem observeCommands : Obligations.ObserveCommands :=
  ⟨complete_traceCfgWrite, complete_tracePacketSend, complete_observeCntSnap, complete_observeCntClr, complete_traceStatClear⟩

/-- Settles O50: the completion lemma of each cartridge command. -/
theorem cartridgeCommands : Obligations.CartridgeCommands :=
  ⟨complete_cardInsert, complete_cardRemoval, complete_identify, complete_cartRead, complete_cartWrite, complete_cmd13Status, complete_eject,
   complete_cartOpDone⟩

/-- Settles O51: the completion lemma of each reader, ping, field and supply command. -/
theorem badgeReaderCommands : Obligations.BadgeReaderCommands :=
  ⟨complete_fieldOn, complete_fieldOff, complete_activate, complete_exchange, complete_deselect, complete_readerOpDone, complete_carrierIdleOff,
   complete_detuningPing, complete_extFieldChange, complete_badgeStatRead, complete_vddBadgeLoss⟩

/-- Settles O52: the completion lemma of each tag command. -/
theorem badgeTagCommands : Obligations.BadgeTagCommands :=
  ⟨complete_tagPowerUp, complete_reqa, complete_wupa, complete_anticollision, complete_select, complete_rats, complete_pps, complete_hlta,
   complete_tagDeselect, complete_tagRead, complete_writeMb, complete_fieldLoss, complete_haltSilenceEnd⟩

/-- Settles O53: the completion lemma of each step of a summary commit. -/
theorem badgeSummaryCommands : Obligations.BadgeSummaryCommands :=
  ⟨complete_badgeTsCommit, complete_badgeTsAbort, complete_tsCommitResume, complete_tsFlip⟩

/-- Settles O54: the completion lemma of each session, identity and image packet. -/
theorem sessionAndImageCommands : Obligations.SessionAndImageCommands :=
  ⟨complete_sessionOpen, complete_sessionAuth, complete_sessionClose, complete_sessionInfo, complete_ping, complete_idGet, complete_idCert,
   complete_idAttest, complete_idChallenge, complete_imgBegin, complete_imgWrite, complete_imgCommit, complete_imgSelect, complete_imgList⟩

/-- Settles O55: the completion lemma of each configuration, time, cue and key packet. -/
theorem configurationCueAndKeyCommands : Obligations.ConfigurationCueAndKeyCommands :=
  ⟨complete_cfgApply, complete_cfgInfo, complete_timeStep, complete_rtcSet, complete_cueGet, complete_cuePush, complete_cueCommit, complete_cueAbort,
   complete_cueStatus, complete_keyProvision, complete_keyErase, complete_keyList, complete_keyStream, complete_kekRoll, complete_kdcRelay⟩

/-- Settles O56: the completion lemma of each pair, troupe, relay and record packet. -/
theorem pairingTroupeAndRecordCommands : Obligations.PairingTroupeAndRecordCommands :=
  ⟨complete_pairRole, complete_handover, complete_pairCtrl, complete_pairStatus, complete_troupeRole, complete_troupeStatus, complete_rollNow,
   complete_intervalCall, complete_relay, complete_relayTimeout, complete_bookRead, complete_bookArchive, complete_bookNote, complete_bookClear⟩

/-- Settles O57: the completion lemma of each file, status and diagnosis packet. -/
theorem fileAndDiagnosticCommands : Obligations.FileAndDiagnosticCommands :=
  ⟨complete_fileList, complete_fileRead, complete_fileWrite, complete_fileDelete, complete_mediaEject, complete_status, complete_regRead,
   complete_selftest, complete_trace, complete_coreCtrl⟩

/-- Settles O58: the completion lemma of each lifecycle packet. -/
theorem lifecycleCommands : Obligations.LifecycleCommands :=
  ⟨complete_commission, complete_unlock, complete_modeReq, complete_reset, complete_returnLc, complete_decommission, complete_issue⟩

/-- Settles O59: the completion lemma of each reset, supply, clock and start-up command. -/
theorem resetAndStartUpCommands : Obligations.ResetAndStartUpCommands :=
  ⟨complete_powerOnReset, complete_pinReset, complete_warmReset, complete_stewardRestart, complete_stewardReattach, complete_powerFailure,
   complete_auxSupplyLoss, complete_vddioAuxReturn, complete_pllLock, complete_pllLockRetry, complete_recoveredQualify, complete_recoveredLoss,
   complete_earlyActStart, complete_callAlign, complete_roleSettlement⟩

end Sys2Proof.Machine
end
